-- ==== Sys2Proof/Word.lean ====
section
/-!
DEFINITION. The words of the SWL-4816 and their plainest arithmetic: bytes, 16-bit stack words, 32-bit register words,
64-bit times and host addresses, and the field accessors of a register word (R4: bit 0 is the least significant bit).
-/
namespace Sys2Proof

/-- One byte of memory. -/
abbrev Byte := BitVec 8
/-- A 16-bit word of a Tsuvo data stack or of an entry value. -/
abbrev Half := BitVec 16
/-- A 32-bit register or memory word. -/
abbrev Word := BitVec 32
/-- A 64-bit timebase value or host address. -/
abbrev Word64 := BitVec 64

namespace W

/-- The field of `n` bits of a register word whose lowest bit is `lo`, as a number. -/
def fld (w : Word) (lo n : Nat) : Nat := (w.toNat >>> lo) % 2 ^ n

/-- Bit `i` of a register word. -/
def bit (w : Word) (i : Nat) : Bool := w.getLsbD i

/-- A mask of `n` ones whose lowest bit is `lo`. -/
def mask (lo n : Nat) : Word := BitVec.ofNat 32 ((2 ^ n - 1) <<< lo)

/-- `w` with its field of `n` bits at `lo` replaced by `v` (modulo 2^n). -/
def setFld (w : Word) (lo n v : Nat) : Word :=
  (w &&& ~~~ mask lo n) ||| (BitVec.ofNat 32 ((v % 2 ^ n) <<< lo))

/-- `w` with bit `i` set to `b`. -/
def setBit (w : Word) (i : Nat) (b : Bool) : Word :=
  if b then w ||| mask i 1 else w &&& ~~~ mask i 1

/-- The low 32 bits of a 64-bit value. -/
def lo32 (w : Word64) : Word := w.setWidth 32
/-- The high 32 bits of a 64-bit value. -/
def hi32 (w : Word64) : Word := (w >>> 32).setWidth 32
/-- A 64-bit value from its low and high words. -/
def of32 (lo hi : Word) : Word64 := hi ++ lo

end W
end Sys2Proof
end

