-- ==== Sys2Proof/Syntax.lean ====
section
/-!
DEFINITION. The commands of the block: one constructor of `Instr` per row of the table of operations and events.
Operands carry what reaches the part from outside with the event (a written value, a sampled level, a reply of a bus or
of host memory) and the index of the object concerned.
-/
namespace Sys2Proof

/-- Who makes a register access: the host through BAR0, a Tsuvo core, the debug port, or a DMA channel (R29, R45). -/
inductive Requester where
  | host
  | core (n : Fin 4)
  | debug
  | dma (c : Fin 16)
  deriving DecidableEq, Repr, Inhabited

/-- How a read of host memory ended (R236, R246, R286): its words, or a failure. -/
inductive HostRead where
  | ok (words : List Word)
  | failed
  deriving DecidableEq, Repr, Inhabited

/-- A read answered by a bus or memory target outside the model: its words, or a bus error. -/
inductive BusRead where
  | data (words : List Word)
  | busError
  deriving DecidableEq, Repr, Inhabited

/-- How the wire part of a two-wire attempt or software transaction ended (R806–R808, R813–R815). -/
inductive WireEnd where
  | ok
  | nackAddr
  | nackData
  | crc
  | frame
  | stretch
  deriving DecidableEq, Repr, Inhabited

/-- The record a boot or image-load check needs of one item read (R149): its words and whether a flash frame was partial. -/
structure ItemRead where
  words   : List Word
  partialFrame : Bool
  deriving DecidableEq, Repr, Inhabited

/-- The kinds of coherent read that do not allocate (Table 8-7). -/
inductive RdoKind where
  | ifill | walk | dma | morium | hif
  deriving DecidableEq, Repr, Inhabited

/-- The atomic operations (R431). -/
inductive AtomicOp where
  | xchg | cas | fadd
  deriving DecidableEq, Repr, Inhabited

/-- How a request on the link arrives (R239): whole, with its EP bit set, or malformed. -/
inductive Tlp where
  | good
  | poisoned
  | malformed
  deriving DecidableEq, Repr, Inhabited

/-- A captured time: a 64-bit count of 78.125 ps steps (R717). -/
abbrev StepTime := BitVec 64

/-- The commands: one constructor per row of the table of operations and events. -/
inductive Instr where
  /-- R29: a register write; from the host the address is a BAR0 offset and `be` its byte enables (R158–R163, R239). `coin`: the
  W1C bits that hardware set in the same cycle of the register interface, by events that stand before it in the queue (R13,
  R1002). -/
  | registerWrite (src : Requester) (addr : Word) (val : Word) (be : BitVec 4) (tlp : Tlp) (coin : Word)
  /-- R111, R962, R971: a watched supply falls below its level (`supply`), or a TEST ball is high. -/
  | powerOnReset (testHigh : Bool)
  /-- R965: VDDIO_D held at 1.62–2.50 V for 1 000 000 guard periods. -/
  | vddioDReleaseTimer
  /-- R112: a low pulse on RESET_N of `ns` nanoseconds; `vdd33Ok`: VDD33 above 3.08 V (R78); `amid`: a pulse of
  100 ns–1 µs that the part takes (R112 leaves it open). -/
  | pinReset (ns : Nat) (vdd33Ok : Bool) (amid : Bool)
  /-- R114: reset is released with the straps at `bootsel`; `vddioD33`: VDDIO_D rose past 3.08 V (R964). -/
  | resetRelease (bootsel : BitVec 2) (vddioD33 : Bool)
  /-- R38: the crystal's edges are first seen, or seen again. -/
  | crystalEdgesSeen
  /-- R38: the PLL locks. -/
  | pllLock
  /-- R93: 100 µs have passed since the PLL's start without lock. -/
  | pllLockTimeout
  /-- R114: memory initialisation ends. -/
  | memoryInitDone
  /-- R39: root loss is declared. -/
  | rootLoss
  /-- R93: after a root loss the crystal runs again. -/
  | rootReturn
  /-- R1006: the root-clocked check sees no guard edge for 200 ns. -/
  | guardLoss
  /-- R44: a read of TMB.TBLO. -/
  | tbloRead (src : Requester) (tlp : Tlp)
  /-- R98: timer n counts to zero. -/
  | timerExpiry (n : Fin 8)
  /-- R51: the supervisor samples the eight sense balls, VIN_SENSE and VDD33. -/
  | railSample (codes : List (BitVec 10)) (vin : BitVec 10) (vdd33mV : BitVec 16)
  /-- R1009: condition `cond` (0 WL, 1 WH, 2 FL, 3 FH, 4 power good) of a rail has held, or failed, FILTER samples. -/
  | railConditionReport (rail : Fin 8) (cond : Fin 5)
  /-- R54: a SEQCMD write of UP. -/
  | seqcmdUp
  /-- R58: a SEQCMD write of DOWN. -/
  | seqcmdDown
  /-- R54: FAULT_N has read high for 1 µs after UP. -/
  | seqFaultnReleased
  /-- R55: the longest PGDELAY of the position has elapsed after every rail of it showed power good. -/
  | seqPositionAdvance
  /-- R56: a rail misses power good within PGTMO. -/
  | pgTmo (rail : Fin 8)
  /-- R58: every rail of the position has fallen below THOFF. -/
  | shutdownPositionAdvance
  /-- R59: a rail has not fallen below THOFF within STEP_TMO. -/
  | stepTmo (rail : Fin 8)
  /-- R62: FAULT_N reads low for 1 µs after SEQ_DONE while undriven. -/
  | extFault
  /-- R64: the VDD33 detector, the VIN_SENSE detector, or both in one guard period declare collapse. -/
  | collapse (byVdd33 : Bool) (byVin : Bool)
  /-- R69: the last-gasp record is written to MRAM. -/
  | lastGaspWrite
  /-- R75: a power command to RUN. -/
  | pwrcmdRun
  /-- R79: a power command to TRIM. -/
  | pwrcmdTrim
  /-- R82: a power command to STANDBY. -/
  | pwrcmdStandby
  /-- R75: a power command to OFF. -/
  | pwrcmdOff
  /-- R79: a CLKGATE write. -/
  | clkgateWrite (val : Word)
  /-- R113: a SYS.RSTCMD write. -/
  | rstcmdDevice (src : Requester) (val : Word)
  /-- R99: a device reset takes hold; `pin`: from RESET_N. -/
  | deviceReset
  /-- R1011: PERST_N low. -/
  | linkReset
  /-- R1011: PERST_N is released. -/
  | perstRelease
  /-- R213: the data link goes down. -/
  | dataLinkDown
  /-- R213: an in-band hot reset. -/
  | inBandHotReset
  /-- R221: Initiate Function Level Reset is written. -/
  | functionLevelReset
  /-- R107: a write of 1 to CORERST bit n. -/
  | coreResetAssert (n : Fin 4)
  /-- R107: the core-reset steps of Tsuvo n complete. -/
  | coreResetHeld (n : Fin 4)
  /-- R108: a write of 0 to CORERST bit n. -/
  | coreResetRelease (n : Fin 4)
  /-- R149: the boot ROM finishes reading an item. -/
  | bootItemRead (item : ItemRead)
  /-- R133: the boot ROM applies the malformed and epoch checks. -/
  | bootCheckOutcome
  /-- R133: every section of the image is copied. -/
  | bootCopyDone
  /-- R145: a BOOTGO write. -/
  | bootgo (val : Word)
  /-- R134: a BOOTFORCE write. -/
  | bootforce (val : Word)
  /-- R156: a configuration request: a read, or a write under byte enables, of a configuration-space dword. -/
  | configRequest (write : Bool) (dword : BitVec 10) (val : Word) (be : BitVec 4)
  /-- R166: a host read of shared SRAM through BAR2. -/
  | bar2Read (addr : BitVec 21) (tlp : Tlp)
  /-- R167: a host write of one word through BAR2 under byte enables. -/
  | bar2Write (addr : BitVec 21) (val : Word) (be : BitVec 4) (tlp : Tlp)
  /-- R171: a core or a DMA channel accesses the outbound window at byte `y`; a read brings the host's word. `va` is the
  virtual address of a core's access. -/
  | outboundAccess (src : Requester) (write : Bool) (y : BitVec 28) (val : Word) (va : BitVec 24)
  /-- R184: a command doorbell write. -/
  | cmdDoorbell (val : Word)
  /-- R179: a completion consumer doorbell write. -/
  | cplDoorbell (val : Word)
  /-- R179: an event consumer doorbell write. -/
  | evDoorbell (val : Word)
  /-- R198: a record ring consumer doorbell write. -/
  | recDoorbell (k : Fin 8) (val : Word)
  /-- R198: a read of RECk_IDX; `same`: the overwrite before it in the queue fell in the same cycle (R14). -/
  | recIdxRead (k : Fin 8) (same : Bool) (tlp : Tlp)
  /-- R1016: a ring CFG write (0 command, 1 completion, 2 event, 3 + k record ring k). -/
  | ringCfgWrite (ring : Fin 11) (val : Word)
  /-- R183: the device issues the read of the next descriptor. -/
  | descriptorFetch
  /-- R236: a descriptor read completes or fails. -/
  | descriptorFetchDone (r : HostRead)
  /-- R191: held events are written to the event ring. -/
  | eventHoldDrain
  /-- R201: a POSTLEN write. -/
  | recordPost (k : Fin 8) (val : Word)
  /-- R1015: the drover finishes reading a posted body. -/
  | postReadDone (k : Fin 8)
  /-- R204: VMODv.TIME has passed since the first counted entry. -/
  | vectorModerationTimeout (v : Fin 10)
  /-- R205: a write of FWIRQ. -/
  | fwirqWrite (val : Word)
  /-- R219: a HEARTBEAT write. -/
  | heartbeat
  /-- R214: no heartbeat for TMO ms; `inSlowCycle`: a heartbeat reached the watch in the same SLOW cycle (R231). -/
  | heartbeatTimeout (inSlowCycle : Bool)
  /-- R215: slot s reaches its next block boundary after host loss. -/
  | hostLossPolicyApply (s : Fin 32)
  /-- R249: the fetched NOP command runs. -/
  | nop
  /-- R250: the fetched ECHO command runs. -/
  | echo
  /-- R250: the timebase reaches D2. -/
  | echoWord3
  /-- R251: the fetched SETPOWER command runs. -/
  | setpower
  /-- R254: the fetched DEVRESET command runs. -/
  | devreset
  /-- R255: the fetched IMGLOAD command starts. -/
  | imgload
  /-- R286: a read of host memory by the running command completes or fails. -/
  | commandHostRead (r : HostRead)
  /-- R260: the fetched PLATELOAD command starts. -/
  | plateload
  /-- R277: the fetched PARAMWRITE command starts. -/
  | paramwrite
  /-- R273: a PARAMWRITE with WAIT has waited 100 ms. -/
  | paramwriteWaitTimeout
  /-- R261: the fetched SETPOINT command runs. -/
  | setpoint
  /-- R262: the fetched SLOTEN command runs. -/
  | sloten
  /-- R110: the fetched SLOTRESET command runs. -/
  | slotreset
  /-- R267: the fetched INJECT command runs. -/
  | inject
  /-- R273: INJECT has waited 100 ms. -/
  | injectTimeout
  /-- R746: the fetched MUSTERLOAD command starts. -/
  | musterload
  /-- R264: the fetched MUSTERSTART command runs. -/
  | musterstart
  /-- R763: the fetched MUSTERSTOP command runs. -/
  | musterstop
  /-- R273: MUSTERSTOP has waited 1 s. -/
  | musterstopTimeout
  /-- R280: the fetched MUSTERNOW command runs. -/
  | musternow
  /-- R266: the fetched ADMIT command runs. -/
  | admitObject
  /-- R266: the fetched PEN command runs. -/
  | pen
  /-- R946: the fetched PORTPROOF command starts. -/
  | portproof
  /-- R947: the running port proof ends; bit i of `failed` is set when step i failed. -/
  | portProofDone (failed : Word)
  /-- R273: the port proof has waited 100 ms. -/
  | portproofTimeout
  /-- R268: the fetched ADCCAL command starts. -/
  | adccal
  /-- R269: the fetched MEMPROOF command starts. -/
  | memproof
  /-- R269: the running memory proof ends with a failure mask and the first failing address. -/
  | memproofDone (failed : BitVec 3) (addr : Word)
  /-- R270: the fetched DMARESERVE command runs. -/
  | dmareserve
  /-- R249: the fetched LEDGERQUERY command runs. -/
  | ledgerquery
  /-- R305: a literal word issues on Tsuvo n. -/
  | literal (n : Fin 4) (v : BitVec 14)
  | br (n : Fin 4) (off : BitVec 12)
  | bz (n : Fin 4) (off : BitVec 12)
  | bnz (n : Fin 4) (off : BitVec 12)
  | loop (n : Fin 4) (off : BitVec 12)
  | call (n : Fin 4) (target : BitVec 14)
  | dup (n : Fin 4)
  | drop (n : Fin 4)
  | swap (n : Fin 4)
  | overWord (n : Fin 4)
  | rot (n : Fin 4)
  | nip (n : Fin 4)
  | tuck (n : Fin 4)
  | twoDup (n : Fin 4)
  | twoDrop (n : Fin 4)
  | pick (n : Fin 4)
  | toR (n : Fin 4)
  | rFrom (n : Fin 4)
  | rFetch (n : Fin 4)
  | rdrop (n : Fin 4)
  | minusRot (n : Fin 4)
  | add (n : Fin 4)
  | sub (n : Fin 4)
  | adc (n : Fin 4)
  | sbc (n : Fin 4)
  | adds (n : Fin 4)
  | subs (n : Fin 4)
  | neg (n : Fin 4)
  | abs (n : Fin 4)
  | and (n : Fin 4)
  | or (n : Fin 4)
  | xor (n : Fin 4)
  | inv (n : Fin 4)
  | onePlus (n : Fin 4)
  | oneMinus (n : Fin 4)
  | twoStar (n : Fin 4)
  | twoSlash (n : Fin 4)
  | shl (n : Fin 4)
  | shr (n : Fin 4)
  | asr (n : Fin 4)
  | rol (n : Fin 4)
  | min (n : Fin 4)
  | max (n : Fin 4)
  | clip (n : Fin 4)
  | ext (n : Fin 4)
  | equal (n : Fin 4)
  | notEqual (n : Fin 4)
  | less (n : Fin 4)
  | greater (n : Fin 4)
  | uLess (n : Fin 4)
  | uGreater (n : Fin 4)
  | zeroEqual (n : Fin 4)
  | zeroLess (n : Fin 4)
  | mul (n : Fin 4)
  | umul (n : Fin 4)
  | mac (n : Fin 4)
  | msc (n : Fin 4)
  | macz (n : Fin 4)
  | div (n : Fin 4)
  | udiv (n : Fin 4)
  | ldiv (n : Fin 4)
  /-- R316: the oldest multiplier or accumulator operation in flight lands. -/
  | multiplierResult (n : Fin 4)
  /-- R319: the division in flight lands. -/
  | dividerResult (n : Fin 4)
  | mlFetch (n : Fin 4)
  | mhFetch (n : Fin 4)
  | dqFetch (n : Fin 4)
  | dmFetch (n : Fin 4)
  | mas (n : Fin 4)
  | maclr (n : Fin 4)
  /-- R310, code 0x40. `dev` answers a read whose target the model does not hold (outbound window, flash window). -/
  | fetch (n : Fin 4) (dev : BusRead)
  | store (n : Fin 4)
  | cFetch (n : Fin 4) (dev : BusRead)
  | cStore (n : Fin 4)
  | twoFetch (n : Fin 4) (dev : BusRead)
  | twoStore (n : Fin 4)
  | fFetch (n : Fin 4) (dev : BusRead)
  | fStore (n : Fin 4)
  | f2Fetch (n : Fin 4) (dev : BusRead)
  | f2Store (n : Fin 4)
  | plusStore (n : Fin 4) (dev : BusRead)
  | xchg (n : Fin 4)
  | cas (n : Fin 4)
  | fadd (n : Fin 4)
  | fence (n : Fin 4)
  | dcwb (n : Fin 4)
  | dcinv (n : Fin 4)
  | icinv (n : Fin 4)
  | isync (n : Fin 4)
  | qpush (n : Fin 4)
  | qpop (n : Fin 4)
  /-- R479: the pool's reply reaches core n. -/
  | qpopReply (n : Fin 4)
  | flush (n : Fin 4)
  | ret (n : Fin 4)
  | exec (n : Fin 4)
  | fexec (n : Fin 4)
  | jmp (n : Fin 4)
  | fjmp (n : Fin 4)
  | trap (n : Fin 4)
  | reti (n : Fin 4) (late : Bool)
  | wait (n : Fin 4)
  | brk (n : Fin 4)
  | srFetch (n : Fin 4)
  | srStore (n : Fin 4)
  | dbrFetch (n : Fin 4)
  | dbrStore (n : Fin 4)
  | tlbi (n : Fin 4)
  | tlbia (n : Fin 4)
  /-- R346: the oldest entry of core n's write buffer drains. -/
  | storeDrain (n : Fin 4)
  /-- R350: core n takes WBUS_ASYNC at an operation boundary. -/
  | wbusAsync (n : Fin 4)
  /-- R412: a walk for a virtual page (24-bit address) of core n completes; `kind` 0 fetch, 1 read, 2 write. -/
  | pageWalk (n : Fin 4) (va : BitVec 24) (kind : Fin 3)
  /-- R360: core n's arbiter accepts an interrupt; `late`: a constant-latency line misses its 14 cycles (R372). -/
  | interruptEntry (n : Fin 4) (late : Bool)
  /-- R357: a write of ICU.SWI. -/
  | swi (val : Word)
  /-- R358: a write of SETPENDLOn (`hi` false) or SETPENDHIn. -/
  | setpend (n : Fin 4) (hi : Bool) (val : Word)
  | clrpend (n : Fin 4) (hi : Bool) (val : Word)
  /-- R380: a write of 1 to a core's HALTREQ bit. -/
  | haltRequest (n : Fin 4)
  /-- R381: core n halts at an operation boundary; `cause` as HALTCAUSE (1 request, 3 breakpoint, 4 watchpoint, 5 step). -/
  | coreHalt (n : Fin 4) (cause : Fin 6)
  /-- R384: a write of 0 to a HALTREQ bit; 0–3 the cores, 4 the engine. -/
  | haltRelease (i : Fin 5)
  /-- R385: a write of STEP. -/
  | debugStep (val : Word)
  /-- R388: a write of 1 to HALTREQ bit 4. -/
  | kleHaltRequest
  /-- R418: a START command of channel c. -/
  | dmaStart (c : Fin 16)
  | dmaStop (c : Fin 16)
  | dmaResume (c : Fin 16)
  /-- R418: channel c fetches its next descriptor; `dev` answers where it lies in memory the model does not hold. -/
  | dmaDescriptorFetch (c : Fin 16) (dev : BusRead)
  /-- R420: channel c is granted one element; `dev` answers a source the model does not hold; `again`: its read
  (bit 0), its write (bit 1) succeeds on its second attempt only (R463). -/
  | dmaElement (c : Fin 16) (dev : BusRead) (again : BitVec 2) (req : BitVec 16) (ahead : Fin 34)
  /-- R456: a write of XLT.DMAINV. -/
  | dmainv (val : Word)
  | dmainvDone
  /-- R429: a coherent RDS of the line at `line` by core n's D-cache. -/
  | rds (n : Fin 4) (line : BitVec 16)
  | rdu (n : Fin 4) (line : BitVec 16)
  | upg (n : Fin 4) (line : BitVec 16)
  | wbk (n : Fin 4) (line : BitVec 16)
  /-- R428: a non-allocating read; an I-cache fill names its core. -/
  | rdo (k : RdoKind) (n : Fin 4) (line : BitVec 16)
  /-- R428: a non-allocating write of one word under byte enables by port p: 4 DMA, 5 Morium, 6 HIF. -/
  | wri (p : Fin 7) (addr : BitVec 21) (val : Word) (be : BitVec 4)
  /-- R431: an atomic on an aligned 16-bit word of shared SRAM. -/
  | atm (n : Fin 4) (op : AtomicOp) (addr : BitVec 21) (x : Half) (cmp : Half)
  /-- R433: the home sends GO to credited port p. -/
  | go (p : Fin 7)
  /-- R445: a ledger window of 10 µs ends with the highest stage seen. -/
  | ledgerWindow (stage : Fin 5)
  /-- R446: the scrubber reads the next line of each bank. -/
  | scrub
  /-- R447: the MRAM mirror copies its range. -/
  | mramMirror
  /-- R471: the pool takes a word or an item from port p's staging FIFO. -/
  | poolPush (p : Fin 7)
  /-- R472: the pool grants the pop request of port p. -/
  | poolPop (p : Fin 7)
  /-- R505: the maintenance requester releases one cell of queue q. -/
  | cellRelease (q : Fin 64)
  /-- R504: the pool rebuilds the free list from the owner table. -/
  | freeListRebuild
  /-- R506: the pool scrubber reads its next cell. -/
  | poolScrub
  /-- R488: a host write of HQPUSH. -/
  | hqpush (val : Word)
  /-- R489: a host read of HPOPq. -/
  | hpop (q : Fin 64) (tlp : Tlp)
  /-- R492: a QCFGq write. -/
  | qcfgWrite (q : Fin 64) (val : Word)
  /-- R498: a raw-view write of one word. -/
  | rawViewWrite (off : BitVec 18) (val : Word)
  /-- R516: trigger code `code` fires sequence j of ADCn; `ready`: the ADC meets R513 (else R544). -/
  | adcTrigger (n : Fin 4) (j : Fin 4) (code : BitVec 7) (ready : Bool)
  /-- R511: a write of ADC.SWTRIG. -/
  | adcSwtrig (val : Word)
  /-- R512: a ready ADCn reaches the sampling instant. -/
  | adcSample (n : Fin 4)
  /-- R515: ADCn's conversion ends with a calibrated code. -/
  | adcConversionEnd (n : Fin 4) (code : BitVec 16)
  /-- R522: a read of FIFOn. -/
  | adcFifoRead (n : Fin 4) (same : Bool) (tlp : Tlp)
  /-- R536: ADCn uses one calibration window; `aborted` by a sampling instant. `off`, `gain`: the new coefficients. -/
  | adcCalibrationStep (n : Fin 4) (aborted : Bool) (off gain : Word)
  /-- R539: a write of ADC.PROOF. -/
  | adcProof (val : Word)
  /-- R526: a sinc3 result of SDn falls due at the modulator clock that is number `clocks` since EN was set, with the last bits,
  oldest first: the first `clocks`, or at least the last 3 × R3 − 2 of them. -/
  | sinc3Result (n : Fin 8) (clocks : Nat) (bits : List Bool)
  /-- R527: a trigger on SYNC of SDn, after `clocks` modulator clocks since EN was set. -/
  | sdSync (n : Fin 8) (clocks : Nat)
  /-- R527: a write of SDF.SWSYNC. -/
  | swsync (val : Word)
  /-- R528: a modulator clock of SDn, with the last bits, oldest first. -/
  | sdtTrip (n : Fin 8) (bits : List Bool)
  /-- R552: no SDn_CLK edge for 640 ns. -/
  | sdClkmiss (n : Fin 8)
  /-- R552: a modulator clock of SDn, with the last bits, oldest first: the last STUCKLEN were equal. -/
  | sdStuck (n : Fin 8) (bits : List Bool)
  /-- R531: the input of CMPk reaches a level, as the threshold code that it lies above; it has been active at `edges` HRT edges
  in a row (R532). -/
  | comparatorActive (k : Fin 16) (code : BitVec 10) (edges : BitVec 4)
  /-- R533: CMPk's blanking window ends. -/
  | blankingEnd (k : Fin 16)
  /-- R534: a write of CMPk_THR (`cfg` false), or of CMPk_CFG with HYST or MODE. -/
  | cmpThrWrite (k : Fin 16) (val : Word)
  /-- R540: a write of CMP.PROOF; bit k of `pass`: the output of CMPk follows. -/
  | cmpProof (val : Word) (follows : BitVec 16)
  /-- R560: a write of KLE.DOORBELL. -/
  | kleDoorbell (val : Word)
  /-- R567: the free engine selects a slot and starts its sample. -/
  | slotStart
  /-- R565: a higher-priority PENDING slot pre-empts the running slot at a boundary. -/
  | preemption
  /-- R572: slot s passes its deadline. -/
  | deadlineOverrun (s : Fin 32)
  /-- R658: the running slot's passes have ended: the vote and the commit. -/
  | hatchVote (coin : BitVec 64)
  /-- R110: slot s's requested reset takes effect. -/
  | slotResetEffect (s : Fin 32)
  | lin | pi | pid | leadlag | biquad | pr | ss | clarke | park | ipark | iclarke | svm | sincos | table
  | cmpsel | clipBlock | integ | learn | outpwm | outq
  /-- R612: LATCH; bit k of `coin`: its latch k was delivered to in the same CORE cycle (R611). -/
  | latch (coin : BitVec 4)
  | divsqrt
  /-- R589: a write of parameter word w of slot s. -/
  | paramWindowWrite (s : Fin 32) (w : Fin 64) (val : Word)
  /-- R555: a context write to signal word w of slot s. -/
  | signalWordWrite (s : Fin 32) (w : Fin 64) (val : Word)
  /-- R558: a write of word w of slot s's plate area. -/
  | plateWrite (src : Requester) (s : Fin 32) (w : Fin 1024) (val : Word)
  /-- R580: a write of KLE.PLATECHK. -/
  | platechk (val : Word)
  /-- R606: a write of KLE.ENSET. -/
  | enset (val : Word)
  /-- R609: a write of KLE.ENCLR. -/
  | enclr (val : Word)
  /-- R110: a write of KLE.SLOTRST. -/
  | slotrst (val : Word)
  /-- R639: a write of LCTLs. -/
  | learnClear (s : Fin 32)
  /-- R640: the last table word of slot s's clear is written. -/
  | learnClearDone (s : Fin 32)
  /-- R671: a write of INJCTLs. -/
  | injctlWrite (s : Fin 32) (val : Word)
  /-- R695: PWMm counts into 0. -/
  | zero (m : Fin 12)
  | period (m : Fin 12)
  | cau (m : Fin 12)
  | cad (m : Fin 12)
  | cbu (m : Fin 12)
  | cbd (m : Fin 12)
  /-- R693: values written to PWMm with immediate load become active. -/
  | immediateLoad (m : Fin 12)
  /-- R698: a SYNCIN loads PHASE into PWMm. -/
  | syncin (m : Fin 12)
  | gsync (val : Word)
  | gstart (val : Word)
  /-- R704: a write of SWTRIP of PWMm. -/
  | swtrip (m : Fin 12) (val : Word)
  /-- R704: a selected trip line of PWMm is active. -/
  | pwmTrip (m : Fin 12)
  /-- R702: a write of OUT of PWMm. -/
  | outEnableWrite (m : Fin 12) (val : Word)
  | delayLineLock
  /-- R708: a pulse of output o is classified, with the sense level at the instant. -/
  | diagPulse (o : Fin 24) (sense : Bool)
  /-- R716: an edge on ball CAPb_IN, its first transition `back` steps before the end of this CORE cycle, its level held for `held` HRT
  cycles (15: 15 or more). -/
  | captureEdge (b : Fin 16) (rise : Bool) (held : BitVec 4) (back : BitVec 9)
  /-- R720: a read of REC7 of CAPn. -/
  | captureRecordRead (n : Fin 16) (same : Bool) (tlp : Tlp)
  /-- R719: a write of ARMn. -/
  | captureArm (n : Fin 16) (val : Word)
  /-- R722: an edge on QDd_A, or on QDd_B where `onB`, with `held` and `back` as for a capture edge; `both`: A and B changed in one filter
  window (R723). -/
  | qdEdge (d : Fin 4) (onB : Bool) (both : Bool) (held : BitVec 4) (back : BitVec 9)
  /-- R724: a rising index edge of QDd. -/
  | qdIndex (d : Fin 4)
  /-- R727: a TICK of QDd. -/
  | qdSpeedDecay (d : Fin 4)
  /-- R728: STALLTMO has passed without a counting edge; `edge`: one comes in the same TICK cycle (R741). -/
  | qdStall (d : Fin 4) (edge : Bool)
  /-- R730: the trigger of ROUTEd fires. -/
  | qdRouteSample (d : Fin 4)
  /-- R748: a period tick of list n. -/
  | musterPeriodTick (n : Fin 4)
  /-- R747: a write of MBM.TRIG. -/
  | mbmTrig (val : Word)
  /-- R753: port `port` sends list n's bellwether; `late`: PERI cycles of its defining edge after BWT. -/
  | bellwetherPortStart (n : Fin 4) (port : BitVec 8) (late : Nat)
  /-- R756: entry e of list n starts. -/
  | entryStart (n : Fin 4) (e : BitVec 8)
  /-- R760: entry e of list n starts ahead of the next T0. -/
  | runaheadStart (n : Fin 4) (e : BitVec 8)
  /-- R790: the attempt of entry e ends with a status of Table 14-5 and the bytes received, a DDR serial word as four bytes, its lowest first; `dataNack`: a NACK of a data byte. -/
  | entryAttemptEnd (n : Fin 4) (e : BitVec 8) (status : BitVec 8) (dataNack : Bool) (bytes : List Byte)
  /-- R759: T0 + DEADLINE of list n. -/
  | musterDeadlineExpiry (n : Fin 4)
  /-- R766: list n's commit phase. -/
  | commit (n : Fin 4)
  /-- R768: list n's flip. -/
  | foldFlip (n : Fin 4)
  /-- R773: the drover copies list n's front buffer. -/
  | droverCopy (n : Fin 4)
  /-- R813: SCL low beyond STRLIM on TWn. -/
  | twStretchTimeout (p : Fin 8)
  /-- R814: the attempt of the entry on a port exceeds TMO. -/
  | attemptTimeout (port : BitVec 8)
  /-- R810: the CONV wait of the CMDRD entry on TWp ends. -/
  | cmdrdConvWait (p : Fin 8)
  /-- R816: a write of SWCTLn. -/
  | twSwctlGo (p : Fin 8) (val : Word)
  /-- R816: the software transaction of TWp ends with the bytes it read. -/
  | twTransactionEnd (p : Fin 8) (e : WireEnd) (bytes : List Byte)
  /-- R823: SDA low with SCL high for 5 µs on TWp. -/
  | crookCallDetect (p : Fin 8)
  /-- R824: TWp starts its crook identification. -/
  | crookIdentification (p : Fin 8)
  /-- R825: the identification ends with the byte read on the wire; `acked`: the address byte was acknowledged. -/
  | crookIdentificationEnd (p : Fin 8) (acked : Bool) (byte : Byte)
  /-- R857: a line of TWp has been low for TSTUCK ms: its levels, and whether the clearing pulses (R857 step 1) freed SDA. -/
  | stuckLine (p : Fin 8) (scl sda : Bool) (cleared : Bool)
  /-- R857: SETTLE after a power cycle ends with the line levels. -/
  | portSettleExpiry (p : Fin 8) (scl sda : Bool)
  /-- R859: 60 s without an episode on TWp. -/
  | stuckConsecDecay (p : Fin 8)
  /-- R861: a probe of penned TWp reads its lines. -/
  | portProbe (p : Fin 8) (scl sda : Bool)
  /-- R863: an adaptation window of TWp ends. -/
  | adaptWindowEnd (p : Fin 8)
  /-- R839: a write of SWCTL of DSp. -/
  | dsSwctlGo (p : Fin 4) (val : Word)
  /-- R833: the frame of DSp ends with the strobe edges received and the words read, each with the bit that came
  first as its most significant (R830). -/
  | dsFrameEnd (p : Fin 4) (edges : Nat) (words : List Word)
  /-- R841: CS0_N of target port 2 + i is deasserted after `bits` bits, whose whole words are `words`, each with the bit that came
  first as its most significant; `cut`: EN is cleared amid the frame (R856). -/
  | dsTargetFrame (i : Fin 2) (bits : Nat) (cut : Bool) (words : List Word)
  | dsRxdataRead (p : Fin 4) (same : Bool) (tlp : Tlp)
  | dsRxlenRead (p : Fin 4) (same : Bool) (tlp : Tlp)
  | dsTxdata (p : Fin 4) (val : Word)
  /-- R845: a read of `s` bytes at flash offset f, answered by the flash bytes of the frame. -/
  | flashWindowRead (src : Requester) (f : BitVec 26) (size : Nat) (bytes : List Byte)
  /-- R892: a write of 1 to RUN of SEn. -/
  | seRun (n : Fin 8)
  /-- R895: a write of 0 to RUN of SEn. -/
  | seRunClear (n : Fin 8)
  | seGstart (val : Word)
  | phrst (val : Word)
  /-- R898: a write of SEn_LOAD. -/
  | seLoad (n : Fin 8) (addr : Word)
  | seLoadDone (n : Fin 8)
  /-- R883: a write of parameter word w of SEn. -/
  | seParamWrite (n : Fin 8) (w : Fin 32) (val : Word)
  /-- R877: the wait of SEn is satisfied, or gives up; `back`: PERI cycles since the timestamp of its edge. -/
  | seWaitSatisfied (n : Fin 8) (gaveUp : Bool) (back : BitVec 8)
  | seNop (n : Fin 8)
  | seSet (n : Fin 8)
  | seWaite (n : Fin 8)
  | seWaitl (n : Fin 8) (lvl : Bool)
  | seDelay (n : Fin 8)
  | seAt (n : Fin 8)
  | seSince (n : Fin 8)
  | seLdi (n : Fin 8)
  | seLdh (n : Fin 8)
  | seMov (n : Fin 8)
  | seAdd (n : Fin 8)
  | seSub (n : Fin 8)
  | seCmp (n : Fin 8)
  | seAnd (n : Fin 8)
  | seShr (n : Fin 8)
  | seMul (n : Fin 8)
  | seDivr (n : Fin 8)
  | seRev (n : Fin 8)
  | seJmp (n : Fin 8)
  | seShi (n : Fin 8) (lvl : Bool)
  | seSho (n : Fin 8)
  | seCrci (n : Fin 8)
  | seCrcf (n : Fin 8)
  | seOpen (n : Fin 8)
  | seOut (n : Fin 8)
  | seCmt (n : Fin 8)
  | sePushq (n : Fin 8)
  | seGetk (n : Fin 8)
  | seRdc (n : Fin 8)
  | seBwpt (n : Fin 8)
  | seMark (n : Fin 8)
  | seRet (n : Fin 8)
  | seLdp (n : Fin 8)
  | sePload (n : Fin 8)
  | seIrq (n : Fin 8)
  | seStop (n : Fin 8)
  /-- R926: a write of ON = 1; `present`: PRESn shows present. -/
  | ppOn (n : Fin 8) (present : Bool)
  /-- R954: a write of ON = 0. -/
  | ppOff (n : Fin 8)
  /-- R920: a current sample. -/
  | ppCurrentSample (n : Fin 8) (code : BitVec 16)
  /-- R921: the warning run of channel n is judged. -/
  | ppWarning (n : Fin 8)
  /-- R922: the trip run of channel n is judged. -/
  | ppTrip (n : Fin 8)
  | inrushEnd (n : Fin 8)
  | insertion (n : Fin 8)
  | removal (n : Fin 8)
  | ppSettleEnd (n : Fin 8)
  /-- R929: an identity check of channel n ends with the value read (or the mean current); `failed`: no value read. -/
  | identityCheckDone (n : Fin 8) (value : Word) (failed : Bool)
  | backoffEnd (n : Fin 8)
  | holdExpiry (n : Fin 8)
  /-- R937: two-wire port p asks its channel for a power cycle. -/
  | powerCycleRequest (p : Fin 8)
  | cycleOffEnd (n : Fin 8)
  /-- R14: a read of IPEAKn; `same`: the sample before it in the queue fell in the same cycle. -/
  | ipeakRead (src : Requester) (n : Fin 8) (same : Bool) (tlp : Tlp)
  /-- R1011: link training ends at a speed code and a width. -/
  | linkTrainingDone (speed : BitVec 2) (width : BitVec 3)
  /-- R972: VDDPX09 and VDDPX18 come within range. -/
  | phySuppliesValid
  /-- R882: an accepted edge of SEn's CNTPIN: its kind, and the PERI cycles since its timestamp. -/
  | edgeCounterEdge (n : Fin 8) (rise : Bool) (back : BitVec 8)
  /-- R754: the bellwether sequence of a port ends on the wire. -/
  | bellwetherEnd (n : Fin 4) (port : BitVec 8) (acked : Bool)
  /-- R539: one proof conversion of ADCn in an idle window, or a window used without one (`none`). -/
  | adcProofConversion (n : Fin 4) (code : Option (BitVec 16))
  /-- R310: the short operation NOP of Tsuvo n. -/
  | nopOperation (n : Fin 4)
  /-- R310: a short-operation code absent from Table 6-5. -/
  | undefinedOperation (n : Fin 4) (code : BitVec 7)
  /-- R877: an OP absent from Table 16-3. -/
  | seUndefinedOperation (n : Fin 8)
  /-- R155: a PCI Express I/O or locked request. -/
  | ioOrLockedRequest (locked : Bool)
  deriving DecidableEq, Repr

end Sys2Proof
end

