-- ==== Sys2Proof/WellFormed.lean ====
section
/-!
DEFINITION. Which terms of `Instr` are commands: the checks on operands that their types leave open, namely the lengths of what
is sampled, read or received, and the identifiers of sensor ports.
-/
namespace Sys2Proof

/-- A sensor-port ID (Table 5-1). -/
def portIdOk (p : BitVec 8) : Bool :=
  let n := p.toNat
  decide (n < 8) || (decide (0x10 ≤ n) && decide (n < 0x14)) || (decide (0x20 ≤ n) && decide (n < 0x28))

/-- A read answered from outside gives 1 to 8 words (R401). -/
def BusRead.wf : BusRead → Bool
  | .data ws => decide (1 ≤ ws.length) && decide (ws.length ≤ 8)
  | .busError => true

/-- A read of host memory gives `lo` to `hi` words (R181, Table 4-1). -/
def HostRead.wf (lo hi : Nat) : HostRead → Bool
  | .ok ws => decide (lo ≤ ws.length) && decide (ws.length ≤ hi)
  | .failed => true

/-- Well-formedness of a command: every row not named here has operands that their types bound. -/
def Instr.wf : Instr → Bool
  | .railSample codes _ _ => codes.length == 8
  | .bootItemRead item => decide (item.words.length ≤ 0x200000)
  | .descriptorFetchDone r => r.wf 8 8
  | .commandHostRead r => r.wf 1 128
  | .fetch _ dev => dev.wf
  | .cFetch _ dev => dev.wf
  | .twoFetch _ dev => dev.wf
  | .fFetch _ dev => dev.wf
  | .f2Fetch _ dev => dev.wf
  | .plusStore _ dev => dev.wf
  | .dmaDescriptorFetch _ dev => dev.wf
  | .dmaElement _ dev _ _ _ => dev.wf
  | .bellwetherPortStart _ p _ => portIdOk p
  | .bellwetherEnd _ p _ => portIdOk p
  | .entryAttemptEnd _ _ _ _ bytes => decide (bytes.length ≤ 1024)
  | .twTransactionEnd _ _ bytes => decide (bytes.length ≤ 256)
  | .dsFrameEnd _ _ words => decide (words.length ≤ 256)
  | .sinc3Result _ clocks bits => decide (bits.length ≤ 1024) && decide (bits.length ≤ clocks)
  | .sdtTrip _ bits => decide (bits.length ≤ 1024)
  | .sdStuck _ bits => decide (bits.length ≤ 1024)
  | .flashWindowRead _ _ size bytes => (size == 2 || size == 4 || size == 32) && bytes.length == size
  | _ => true

end Sys2Proof
end

