-- ==== Sys2Proof/Decode.lean ====
section
/-!
DEFINITION. Reading a command from a word. The table of operations gives no row any bits: a command reaches the block as an
access or an event, not as a word of an instruction stream.
-/
namespace Sys2Proof

/-- The command that a word of `nbits` bits spells by the table's bits: no row of the table has any. -/
def decodeTableWord (_nbits _w : Nat) : Option Instr := none

end Sys2Proof
end

