-- ==== Sys2Proof/Machine/Crc.lean ====
section
/-!
DEFINITION. The CRC-32 of the last-gasp record, the image and the plate (R69).
-/
namespace Sys2Proof.Machine

/-- One shift of the reflected CRC-32 register (polynomial 0x04C1_1DB7, reflected). -/
def crcShift (c : Word) : Word :=
  if c.getLsbD 0 then (c >>> 1) ^^^ 0xEDB88320 else c >>> 1

/-- One byte through the CRC-32 register. -/
def crcByte (c : Word) (b : Byte) : Word :=
  let x := c ^^^ b.setWidth 32
  crcShift (crcShift (crcShift (crcShift (crcShift (crcShift (crcShift (crcShift x)))))))

/-- The four bytes of a word through the register, the lowest-addressed first. -/
def crcWord (c w : Word) : Word :=
  crcByte (crcByte (crcByte (crcByte c (w.setWidth 8)) ((w >>> 8).setWidth 8)) ((w >>> 16).setWidth 8))
    ((w >>> 24).setWidth 8)

/-- CRC-32 over words: initial value 0xFFFF_FFFF, final XOR 0xFFFF_FFFF (R69). -/
def crc32 (ws : List Word) : Word := (ws.foldl crcWord 0xFFFFFFFF) ^^^ 0xFFFFFFFF

end Sys2Proof.Machine
end

