-- ==== Sys2Proof/Machine/Float.lean ====
section
/-!
DEFINITION. The engine's binary32 arithmetic (chapter 11, Arithmetic): IEEE 754-2008 with round-to-nearest-even, computed
exactly on integers and rounded once. An operation gives its result and the flags it raises: I 1, Z 2, O 4, U 8, X 16.
-/
namespace Sys2Proof.Machine.F32

/-- Flags of FLAGSs (Table 11-9). -/
abbrev fI : Nat := 1
abbrev fZ : Nat := 2
abbrev fO : Nat := 4
abbrev fU : Nat := 8
abbrev fX : Nat := 16

/-- The default quiet NaN (R595). -/
abbrev qnan : Word := 0x7FC00000
abbrev one : Word := 0x3F800000
abbrev half : Word := 0x3F000000
abbrev two : Word := 0x40000000
abbrev negHalf : Word := 0xBF000000
abbrev negZero : Word := 0x80000000

def sign (w : Word) : Bool := W.bit w 31
def expo (w : Word) : Nat := W.fld w 23 8
def frac (w : Word) : Nat := W.fld w 0 23
def isNan (w : Word) : Bool := expo w == 255 && frac w != 0
/-- A signalling NaN: its quiet bit is 0. -/
def isSnan (w : Word) : Bool := isNan w && !W.bit w 22
def isInf (w : Word) : Bool := expo w == 255 && frac w == 0
def isZero (w : Word) : Bool := expo w == 0 && frac w == 0
def isFinite (w : Word) : Bool := expo w != 255
/-- A subnormal number (R656). -/
def isSub (w : Word) : Bool := expo w == 0 && frac w != 0

/-- The sign inverted (Table 12-5); a NaN becomes the default NaN (R645). -/
def neg (w : Word) : Word := if isNan w then qnan else w ^^^ 0x80000000
/-- A value passed on without arithmetic: a NaN becomes the default NaN, and no flag is raised (R595). -/
def copy (w : Word) : Word := if isNan w then qnan else w

/-- The significand of a finite number as an integer, scaled by 2^`ex`. -/
def mant (w : Word) : Nat := if expo w = 0 then frac w else 2 ^ 23 + frac w
def ex (w : Word) : Int := (if expo w = 0 then 1 else (expo w : Int)) - 150
/-- The significand with its sign. -/
def smant (w : Word) : Int := if sign w then -(mant w : Int) else mant w

def inf (s : Bool) : Word := if s then 0xFF800000 else 0x7F800000
def zero (s : Bool) : Word := if s then 0x80000000 else 0

/-- m × 2^e (with more below where `st`) rounded to a multiple of 2^q, nearest, ties to even: the quotient and whether it is
inexact. -/
def rnd (m : Nat) (e : Int) (st : Bool) (q : Int) : Nat × Bool :=
  if q ≤ e then (m <<< (e - q).toNat, st)
  else
    let k := (q - e).toNat
    let r := m >>> k
    let rem := m % 2 ^ k
    let h := 2 ^ (k - 1)
    let up := decide (h < rem) || (rem == h && (st || r % 2 == 1))
    (if up then r + 1 else r, rem != 0 || st)

/-- Bits of r × 2^q, with r at most 2^24 and q at least −149. -/
def pack (s : Bool) (r : Nat) (q : Int) : Word :=
  let (r, q) := if r = 2 ^ 24 then (2 ^ 23, q + 1) else (r, q)
  let b : Nat := if r < 2 ^ 23 then r else (q + 150).toNat * 2 ^ 23 + (r - 2 ^ 23)
  BitVec.ofNat 32 (if s then 2 ^ 31 + b else b)

/-- (−1)^s × m × 2^e, with more below where `st`, rounded to binary32; tininess is detected after rounding (R594, R597). -/
def round (s : Bool) (m : Nat) (e : Int) (st : Bool) : Word × Nat :=
  if m = 0 then (zero s, if st then fU ||| fX else 0)
  else
    let lead : Int := e + Nat.log2 m
    let q : Int := max (lead - 23) (-149)
    let (r, ix) := rnd m e st q
    let (ru, _) := rnd m e st (lead - 23)
    let tiny := decide (lead < -127) || (decide (lead = -127) && ru != 2 ^ 24)
    if decide (104 < q) || (decide (q = 104) && r == 2 ^ 24) then (inf s, fO ||| fX)
    else (pack s r q, (if ix then fX else 0) ||| (if ix && tiny then fU else 0))

/-- A signed integer × 2^e rounded; an exact zero takes the sign `zs`. -/
def roundInt (v : Int) (e : Int) (zs : Bool) : Word × Nat :=
  if v = 0 then (zero zs, 0) else round (decide (v < 0)) v.natAbs e false

/-- The sum of two scaled integers as one scaled integer. -/
def addScaled (a : Int) (ea : Int) (b : Int) (eb : Int) : Int × Int :=
  if ea ≤ eb then (a + b * 2 ^ (eb - ea).toNat, ea) else (a * 2 ^ (ea - eb).toNat + b, eb)

/-- I for signalling NaN operands. -/
def snanFlag (ws : List Word) : Nat := if ws.any isSnan then fI else 0

/-- Fused multiply-add a × b + c (R594, R596, Table 11-6). -/
def fma (a b c : Word) : Word × Nat :=
  if (isInf a && isZero b) || (isZero a && isInf b) then (qnan, fI)
  else if isNan a || isNan b || isNan c then (qnan, snanFlag [a, b, c])
  else
    let ps := sign a != sign b
    if isInf a || isInf b then
      if isInf c && sign c != ps then (qnan, fI) else (inf ps, 0)
    else if isInf c then (c, 0)
    else
      let (v, e) := addScaled (smant a * smant b) (ex a + ex b) (smant c) (ex c)
      let zs := if mant a = 0 ∨ mant b = 0 then ps && sign c else ps && sign c && mant c == 0
      roundInt v e (if v = 0 ∧ (mant a * mant b ≠ 0 ∨ mant c ≠ 0) then false else zs)

/-- a + b. -/
def add (a b : Word) : Word × Nat := fma a one b
/-- a − b. -/
def sub (a b : Word) : Word × Nat :=
  if isNan b then fma a one b else fma a one (b ^^^ 0x80000000)
/-- a × b, as a product fused into −0 (R581). -/
def mul (a b : Word) : Word × Nat := fma a b negZero

/-- a ÷ b. -/
def div (a b : Word) : Word × Nat :=
  let s := sign a != sign b
  if isNan a || isNan b then (qnan, snanFlag [a, b])
  else if isInf a then (if isInf b then (qnan, fI) else (inf s, 0))
  else if isInf b then (zero s, 0)
  else if isZero b then (if isZero a then (qnan, fI) else (inf s, fZ))
  else if isZero a then (zero s, 0)
  else
    let n := mant a <<< 64
    round s (n / mant b) (ex a - ex b - 64) (n % mant b != 0)

/-- The integer square root, by `k` Newton steps from above. -/
def isqrtFrom (n : Nat) : Nat → Nat → Nat
  | x, 0 => x
  | x, k + 1 => let y := (x + n / x) / 2; if y < x then isqrtFrom n y k else x

/-- ⌊√n⌋. -/
def isqrt (n : Nat) : Nat := if n = 0 then 0 else isqrtFrom n (2 ^ (Nat.log2 n / 2 + 1)) 64

/-- √a. -/
def sqrt (a : Word) : Word × Nat :=
  if isNan a then (qnan, snanFlag [a])
  else if isZero a then (a, 0)
  else if sign a then (qnan, fI)
  else if isInf a then (a, 0)
  else
    let e := ex a
    let odd := e % 2 ≠ 0
    let m := (if odd then mant a * 2 else mant a) <<< 64
    let e' := (if odd then e - 1 else e) - 64
    let r := isqrt m
    round false r (e' / 2) (r * r != m)

/-! ### Comparisons and conversions -/

/-- A total order key of a number that is not a NaN; −0 counts as less than +0 (R585). -/
def key (w : Word) : Int :=
  let v : Int := (w.toNat % 2 ^ 31 : Nat)
  if sign w then -v - 1 else v

/-- a < b by R585; false with a NaN. -/
def lt (a b : Word) : Bool := !isNan a && !isNan b && decide (key a < key b)
/-- a = b by R585; false with a NaN. -/
def eq (a b : Word) : Bool := !isNan a && !isNan b && key a == key b
/-- The larger and the smaller of two by R585, the first where they do not compare. -/
def max' (a b : Word) : Word := if lt a b then b else a
def min' (a b : Word) : Word := if lt b a then b else a

/-- A finite number × 2^k rounded to the nearest integer, ties to even, and whether it is inexact. -/
def toIntScaled (w : Word) (k : Int) : Int × Bool :=
  let (r, ix) := rnd (mant w) (ex w + k) false 0
  (if sign w then -(r : Int) else r, ix)

/-- int16 (R598). -/
def int16 (w : Word) : Half × Nat :=
  if isNan w then (0, fI)
  else if isInf w then (if sign w then 0x8000 else 0x7FFF, fI)
  else
    let (v, ix) := toIntScaled w 0
    if v < -32768 then (0x8000, fI) else if 32767 < v then (0x7FFF, fI)
    else (BitVec.ofInt 16 v, if ix then fX else 0)

/-- pwm (R600); none for a NaN (R601). -/
def pwm (w : Word) : Option (Nat × Nat) :=
  if isNan w then none
  else if isInf w then some (if sign w then 0 else 0xFFFFF, fI)
  else
    let (v, ix) := toIntScaled w 0
    if v < 0 then some (0, fI) else if 0xFFFFF < v then some (0xFFFFF, fI)
    else some (v.toNat, if ix then fX else 0)

/-- fix40 at scale 2^S (R586). -/
def fix40 (w : Word) (sc : Nat) : BitVec 40 × Nat :=
  if !isFinite w then (0, fI)
  else
    let (v, ix) := toIntScaled w sc
    (BitVec.ofInt 40 v, if v < -(2 ^ 39) ∨ 2 ^ 39 ≤ v then fI else if ix then fX else 0)

/-- float of a 40-bit value at scale 2^−S (R587). -/
def ofFix40 (f : BitVec 40) (sc : Nat) : Word × Nat := roundInt f.toInt (-(sc : Int)) false

/-- A natural number as binary32. -/
def ofNat (n : Nat) : Word := (roundInt n 0 false).1

/-- A quotient of naturals rounded once, negated where `s`. -/
def ofRatio (s : Bool) (n d : Nat) : Word :=
  if n = 0 then zero s
  else
    let k := Nat.log2 d + 64
    (round s ((n <<< k) / d) (-(k : Int)) ((n <<< k) % d != 0)).1

/-! ### Sine and cosine of half-turns (R583) -/

/-- Fraction bits of the fixed-point evaluation. -/
abbrev fb : Nat := 448
/-- ⌊π × 2^448⌋. -/
def piFix : Nat := 0x3243f6a8885a308d313198a2e03707344a4093822299f31d0082efa98ec4e6c89452821e638d01377be5466cf34e90c6cc0ac29b7c97c50dd

/-- Sum of the alternating series from term `t` = x^i/i!, with x² = `x2`: the terms two apart. -/
def series (x2 : Nat) : Nat → Nat → Int → Nat → Int
  | _, _, acc, 0 => acc
  | t, i, acc, k + 1 =>
    let t' := t * x2 / 2 ^ fb / ((i + 1) * (i + 2))
    series x2 t' (i + 2) (acc + (if (i / 2) % 2 = 0 then -(t' : Int) else (t' : Int))) k

/-- sin(π r) and cos(π r) of a fixed-point r in 0 to 1/4, in fixed point. -/
def sinFix (r : Nat) : Nat :=
  let x := r * piFix / 2 ^ fb
  let x2 := x * x / 2 ^ fb
  (series x2 x 1 (x : Int) 80).toNat
def cosFix (r : Nat) : Nat :=
  let x := r * piFix / 2 ^ fb
  let x2 := x * x / 2 ^ fb
  (series x2 (2 ^ fb) 0 ((2 ^ fb : Nat) : Int) 80).toNat

/-- |sin(π r)| for a fixed-point r in 0 to 1/2: exact at 0 and 1/2, else an inexact fixed-point value; a result of ±1.0 raises no flag
(R583). -/
def sinUnit (s : Bool) (r : Nat) : Word × Nat :=
  if r = 0 then (zero s, 0)
  else if r = 2 ^ (fb - 1) then (if s then 0xBF800000 else one, 0)
  else
    let v := if r ≤ 2 ^ (fb - 2) then sinFix r else cosFix (2 ^ (fb - 1) - r)
    let (w, f) := round s v (-(fb : Int)) true
    (w, if w &&& 0x7FFFFFFF = one then 0 else f ||| fX)

/-- A finite u reduced modulo 2 in fixed point, from its magnitude. -/
def reduce2 (u : Word) : Nat :=
  let m := mant u
  let k := ex u + fb
  (if 0 ≤ k then m <<< k.toNat else m >>> (-k).toNat) % 2 ^ (fb + 1)

/-- sinPi with the signs of exact zeros (R583). -/
def sinPi (u : Word) : Word × Nat :=
  if !isFinite u then (qnan, fI)
  else
    let r := reduce2 u
    let h := 2 ^ fb
    let (neg2, r) := if h ≤ r then (true, r - h) else (false, r)
    if r = 0 then (zero (sign u), 0)
    else sinUnit (sign u != neg2) (if h / 2 < r then h - r else r)

/-- cosPi; +0 at every odd multiple of 0.5 (R583). -/
def cosPi (u : Word) : Word × Nat :=
  if !isFinite u then (qnan, fI)
  else
    let h := 2 ^ fb
    let r := reduce2 u
    let r := if h < r then 2 * h - r else r
    if r = h / 2 then (0, 0)
    else if r < h / 2 then sinUnit false (h / 2 - r)
    else sinUnit true (r - h / 2)

end Sys2Proof.Machine.F32
end

