-- ==== Sys2Proof/Config.lean ====
section
/-!
DEFINITION. What an implementation fixes: the configuration space of the endpoint, and the FREE VALUES, opaque constants
applied to a counter of the state or to the operands, for the values that the spec leaves open. Nothing can be proved
about a free value.
-/
namespace Sys2Proof.Config

/-- The free 32-bit values, drawn in order, for every value that the spec leaves open (R259, R1010, R365, R727, R877, R540). -/
opaque freeWord : Nat → Word

/-- Width of a stencil engine's CRC unit with the width code 3, which no table gives a meaning (R881). -/
opaque crcWidth3 : Nat

/-- Reset values of configuration space by dword (R156, Table 4-2). PRESUMED from the PCI Express Base Specification 2.0:
the layout of the standard header and of the capability structures, and every field that Table 4-2 does not name. -/
def cfgReset (d : Nat) : Word :=
  match d with
  | 0x00 => 0x48161FD4
  | 0x01 => 0x00100000
  | 0x02 => 0x11800000
  | 0x06 => 0x0000000C
  | 0x0B => 0x00011FD4
  | 0x0D => 0x00000040
  | 0x10 => 0x00035001
  | 0x11 => 0x00000008
  | 0x14 => 0x01887005
  | 0x1C => 0x000F8011
  | 0x1D => 0x00002000
  | 0x1E => 0x00002100
  | 0x20 => 0x00020010
  | 0x21 => 0x10008FC1
  | 0x22 => 0x00002000
  | 0x23 => 0x0001CC22
  | 0x24 => 0x10210000
  | 0x29 => 0x00000013
  | 0x2C => 0x00000002
  | 0x40 => 0x00010001
  | 0x43 => 0x00062030
  | 0x45 => 0x00002000
  | _ => 0

end Sys2Proof.Config
end

