-- ==== Sys2Proof/Machine/RegTable.lean ====
section
/-!
DEFINITION. The register map: one row per register, or per array of registers, of the register references of the
chapters (Tables 2-10 to 17-6), with its reset value, the bits software writes freely, the bits a write of one clears and
the bits that are WL (R6). `Reg.<BLOCK>_<NAME>` is a register's physical address. Written from the spec's register tables.
-/
namespace Sys2Proof.Machine

/-- How the register interface treats a write (R6, R20). `plain`: by the three masks. `tally`: a 16-bit tally, cleared
by a write of 0 only. `halves`: two tallies, each half cleared by writing 0 to it. `maxi`: a value cleared by a write
of 0. `custom`: a write has an effect of its own, given by the rule of the register. -/
inductive RegKind where
  | plain | tally | halves | maxi | custom
  deriving DecidableEq, Repr

/-- One row of a register table: byte offset in its block, array dimensions as (stride, count) pairs from the widest
stride, reset value, freely writable bits, W1C bits, WL bits, and the kind of write. -/
structure RegRow where
  off   : Nat
  dims  : List (Nat × Nat)
  reset : Nat
  rw    : Nat
  w1c   : Nat
  wl    : Nat
  kind  : RegKind
  deriving DecidableEq, Repr


/-! Physical addresses of the registers: the block base of each register reference plus the offset. -/

abbrev Reg.SYS_IDENT : Nat := 0x10000000
abbrev Reg.SYS_STATUS : Nat := 0x10000004
abbrev Reg.SYS_PWRSTATE : Nat := 0x10000008
abbrev Reg.SYS_PWRCMD : Nat := 0x1000000c
abbrev Reg.SYS_CLKGATE : Nat := 0x10000010
abbrev Reg.SYS_PLLTALLY : Nat := 0x10000014
abbrev Reg.SYS_LGUSER (i : Nat) : Nat := 0x10000020 + 0x4 * i
abbrev Reg.SYS_LGSEQ : Nat := 0x100000a0
abbrev Reg.SUP_CTRL : Nat := 0x10010000
abbrev Reg.SUP_STATUS : Nat := 0x10010004
abbrev Reg.SUP_SEQCMD : Nat := 0x10010008
abbrev Reg.SUP_WARN : Nat := 0x1001000c
abbrev Reg.SUP_FAULT : Nat := 0x10010010
abbrev Reg.SUP_VINCFG : Nat := 0x10010014
abbrev Reg.SUP_VINMEAS : Nat := 0x10010018
abbrev Reg.SUP_RAIL_CFG (i : Nat) : Nat := 0x10010020 + 0x20 * i
abbrev Reg.SUP_RAIL_THWARN (i : Nat) : Nat := 0x10010024 + 0x20 * i
abbrev Reg.SUP_RAIL_THFAULT (i : Nat) : Nat := 0x10010028 + 0x20 * i
abbrev Reg.SUP_RAIL_THOFF (i : Nat) : Nat := 0x1001002c + 0x20 * i
abbrev Reg.SUP_RAIL_PGTMO (i : Nat) : Nat := 0x10010030 + 0x20 * i
abbrev Reg.SUP_RAIL_MEAS (i : Nat) : Nat := 0x10010034 + 0x20 * i
abbrev Reg.SUP_RAIL_TALLY (i : Nat) : Nat := 0x10010038 + 0x20 * i
abbrev Reg.TMB_TBLO : Nat := 0x10030000
abbrev Reg.TMB_STATUS : Nat := 0x10030004
abbrev Reg.TMB_TBHI : Nat := 0x10030008
abbrev Reg.TMB_TMR_CTRL (i : Nat) : Nat := 0x10030040 + 0x10 * i
abbrev Reg.TMB_TMR_LOAD (i : Nat) : Nat := 0x10030044 + 0x10 * i
abbrev Reg.TMB_TMR_COUNT (i : Nat) : Nat := 0x10030048 + 0x10 * i
abbrev Reg.SYS_RSTCMD : Nat := 0x10000100
abbrev Reg.SYS_RSTCAUSE : Nat := 0x10000104
abbrev Reg.SYS_CORERST : Nat := 0x10000108
abbrev Reg.SYS_COREENTRY (i : Nat) : Nat := 0x10000110 + 0x4 * i
abbrev Reg.SYS_BOOTSTAT : Nat := 0x10000120
abbrev Reg.SYS_BOOTFORCE : Nat := 0x10000124
abbrev Reg.SYS_BOOTADDR : Nat := 0x10000128
abbrev Reg.SYS_BOOTGO : Nat := 0x1000012c
abbrev Reg.SYS_BOOTTALLY : Nat := 0x10000130
abbrev Reg.HIF_LINKSTAT : Nat := 0x10110000
abbrev Reg.HIF_STATUS : Nat := 0x10110004
abbrev Reg.HIF_REGWIN : Nat := 0x1011000c
abbrev Reg.HIF_HBCFG : Nat := 0x10110010
abbrev Reg.HIF_HEARTBEAT : Nat := 0x10110014
abbrev Reg.HIF_HLPOL0 : Nat := 0x10110018
abbrev Reg.HIF_HLPOL1 : Nat := 0x1011001c
abbrev Reg.HIF_HLSTAT : Nat := 0x10110020
abbrev Reg.HIF_FLRTALLY : Nat := 0x10110024
abbrev Reg.HIF_LRTALLY : Nat := 0x10110028
abbrev Reg.HIF_FETCHTALLY : Nat := 0x1011002c
abbrev Reg.HIF_EVLOST : Nat := 0x10110030
abbrev Reg.HIF_FWIRQ : Nat := 0x10110034
abbrev Reg.HIF_OBBASE_LO : Nat := 0x10110040
abbrev Reg.HIF_OBBASE_HI : Nat := 0x10110044
abbrev Reg.HIF_CMD_BASE_LO : Nat := 0x10110080
abbrev Reg.HIF_CMD_BASE_HI : Nat := 0x10110084
abbrev Reg.HIF_CMD_CFG : Nat := 0x10110088
abbrev Reg.HIF_CMD_IDX : Nat := 0x1011008c
abbrev Reg.HIF_CPL_BASE_LO : Nat := 0x10110090
abbrev Reg.HIF_CPL_BASE_HI : Nat := 0x10110094
abbrev Reg.HIF_CPL_CFG : Nat := 0x10110098
abbrev Reg.HIF_CPL_IDX : Nat := 0x1011009c
abbrev Reg.HIF_EV_BASE_LO : Nat := 0x101100a0
abbrev Reg.HIF_EV_BASE_HI : Nat := 0x101100a4
abbrev Reg.HIF_EV_CFG : Nat := 0x101100a8
abbrev Reg.HIF_EV_IDX : Nat := 0x101100ac
abbrev Reg.HIF_REC_BASE_LO (i : Nat) : Nat := 0x10110100 + 0x20 * i
abbrev Reg.HIF_REC_BASE_HI (i : Nat) : Nat := 0x10110104 + 0x20 * i
abbrev Reg.HIF_REC_CFG (i : Nat) : Nat := 0x10110108 + 0x20 * i
abbrev Reg.HIF_REC_IDX (i : Nat) : Nat := 0x1011010c + 0x20 * i
abbrev Reg.HIF_REC_SEQ (i : Nat) : Nat := 0x10110110 + 0x20 * i
abbrev Reg.HIF_REC_OVWR (i : Nat) : Nat := 0x10110114 + 0x20 * i
abbrev Reg.HIF_REC_POSTADDR (i : Nat) : Nat := 0x10110118 + 0x20 * i
abbrev Reg.HIF_REC_POSTLEN (i : Nat) : Nat := 0x1011011c + 0x20 * i
abbrev Reg.HIF_VMOD (i : Nat) : Nat := 0x10110200 + 0x4 * i
abbrev Reg.HIF_HLTGT (i : Nat) : Nat := 0x10110400 + 0x8 * i
abbrev Reg.HIF_HLRATE (i : Nat) : Nat := 0x10110404 + 0x8 * i
abbrev Reg.HIF_DOORBELL (i : Nat) : Nat := 0x10111000 + 0x8 * i
abbrev Reg.HIF_MSIX_ADDRLO (i : Nat) : Nat := 0x10112000 + 0x10 * i
abbrev Reg.HIF_MSIX_ADDRHI (i : Nat) : Nat := 0x10112004 + 0x10 * i
abbrev Reg.HIF_MSIX_DATA (i : Nat) : Nat := 0x10112008 + 0x10 * i
abbrev Reg.HIF_MSIX_CTRL (i : Nat) : Nat := 0x1011200c + 0x10 * i
abbrev Reg.HIF_MSIXPBA : Nat := 0x10112100
abbrev Reg.ICU_SWI : Nat := 0x10040000
abbrev Reg.ICU_STATUS : Nat := 0x10040004
abbrev Reg.ICU_PENDLO (i : Nat) : Nat := 0x10041000 + 0x400 * i
abbrev Reg.ICU_PENDHI (i : Nat) : Nat := 0x10041004 + 0x400 * i
abbrev Reg.ICU_SETPENDLO (i : Nat) : Nat := 0x10041008 + 0x400 * i
abbrev Reg.ICU_SETPENDHI (i : Nat) : Nat := 0x1004100c + 0x400 * i
abbrev Reg.ICU_CLRPENDLO (i : Nat) : Nat := 0x10041010 + 0x400 * i
abbrev Reg.ICU_CLRPENDHI (i : Nat) : Nat := 0x10041014 + 0x400 * i
abbrev Reg.ICU_ACTIVE (i : Nat) : Nat := 0x10041018 + 0x400 * i
abbrev Reg.ICU_CSTAT (i : Nat) : Nat := 0x1004101c + 0x400 * i
abbrev Reg.ICU_ERSP (i : Nat) : Nat := 0x10041020 + 0x400 * i
abbrev Reg.ICU_ENTRYCAUSE (i : Nat) : Nat := 0x10041024 + 0x400 * i
abbrev Reg.ICU_EXDET (i : Nat) : Nat := 0x10041028 + 0x400 * i
abbrev Reg.ICU_WBEADDR (i : Nat) : Nat := 0x1004102c + 0x400 * i
abbrev Reg.ICU_CLTALLY (i : Nat) : Nat := 0x10041030 + 0x400 * i
abbrev Reg.ICU_WBETALLY (i : Nat) : Nat := 0x10041034 + 0x400 * i
abbrev Reg.ICU_SRCCFG (i j : Nat) : Nat := 0x10041100 + 0x400 * i + 0x4 * j
abbrev Reg.DBG_CTRL : Nat := 0x10120000
abbrev Reg.DBG_STATUS : Nat := 0x10120004
abbrev Reg.DBG_HALTREQ : Nat := 0x10120008
abbrev Reg.DBG_STEP : Nat := 0x1012000c
abbrev Reg.DBG_SAFECFG : Nat := 0x10120010
abbrev Reg.DBG_HALTCAUSE : Nat := 0x10120014
abbrev Reg.DBG_CORE_PC (i : Nat) : Nat := 0x10120100 + 0x100 * i
abbrev Reg.DBG_CORE_SRSEL (i : Nat) : Nat := 0x10120104 + 0x100 * i
abbrev Reg.DBG_CORE_SRDATA (i : Nat) : Nat := 0x10120108 + 0x100 * i
abbrev Reg.DBG_CORE_STKSEL (i : Nat) : Nat := 0x1012010c + 0x100 * i
abbrev Reg.DBG_CORE_STKDATA (i : Nat) : Nat := 0x10120110 + 0x100 * i
abbrev Reg.DBG_CORE_BP_ADDR (i j : Nat) : Nat := 0x10120120 + 0x100 * i + 0x8 * j
abbrev Reg.DBG_CORE_BP_ASID (i j : Nat) : Nat := 0x10120124 + 0x100 * i + 0x8 * j
abbrev Reg.DBG_CORE_WP_ADDR (i j : Nat) : Nat := 0x10120140 + 0x100 * i + 0x8 * j
abbrev Reg.DBG_CORE_WP_MASK (i j : Nat) : Nat := 0x10120144 + 0x100 * i + 0x8 * j
abbrev Reg.XLT_CTRL : Nat := 0x10050000
abbrev Reg.XLT_STATUS : Nat := 0x10050004
abbrev Reg.XLT_LEDGER : Nat := 0x10050008
abbrev Reg.XLT_DMAINV : Nat := 0x1005000c
abbrev Reg.XLT_STAGETALLY (i : Nat) : Nat := 0x10050010 + 0x4 * i
abbrev Reg.XLT_SCRUBCFG : Nat := 0x10050020
abbrev Reg.XLT_MIRSRC : Nat := 0x10050024
abbrev Reg.XLT_MIRDST : Nat := 0x10050028
abbrev Reg.XLT_MIRCFG : Nat := 0x1005002c
abbrev Reg.XLT_ECCTALLY : Nat := 0x10050030
abbrev Reg.XLT_ECCADDR : Nat := 0x10050034
abbrev Reg.XLT_DMATALLY : Nat := 0x10050038
abbrev Reg.XLT_MRAMTALLY : Nat := 0x1005003c
abbrev Reg.XLT_MRAMADDR : Nat := 0x10050040
abbrev Reg.XLT_XCTRL (i : Nat) : Nat := 0x10050100 + 0x20 * i
abbrev Reg.XLT_DIRBASE (i : Nat) : Nat := 0x10050104 + 0x20 * i
abbrev Reg.XLT_PFDET (i : Nat) : Nat := 0x10050108 + 0x20 * i
abbrev Reg.XLT_DMA_CMD (i : Nat) : Nat := 0x10051000 + 0x40 * i
abbrev Reg.XLT_DMA_CFG (i : Nat) : Nat := 0x10051004 + 0x40 * i
abbrev Reg.XLT_DMA_DIRBASE (i : Nat) : Nat := 0x10051008 + 0x40 * i
abbrev Reg.XLT_DMA_SRC (i : Nat) : Nat := 0x1005100c + 0x40 * i
abbrev Reg.XLT_DMA_DST (i : Nat) : Nat := 0x10051010 + 0x40 * i
abbrev Reg.XLT_DMA_COUNT (i : Nat) : Nat := 0x10051014 + 0x40 * i
abbrev Reg.XLT_DMA_LINK (i : Nat) : Nat := 0x10051018 + 0x40 * i
abbrev Reg.XLT_DMA_STATUS (i : Nat) : Nat := 0x1005101c + 0x40 * i
abbrev Reg.XLT_DMA_RESID (i : Nat) : Nat := 0x10051020 + 0x40 * i
abbrev Reg.XLT_DMA_CURSRC (i : Nat) : Nat := 0x10051024 + 0x40 * i
abbrev Reg.XLT_DMA_CURDST (i : Nat) : Nat := 0x10051028 + 0x40 * i
abbrev Reg.XLT_DMA_FAULTVA (i : Nat) : Nat := 0x1005102c + 0x40 * i
abbrev Reg.XLT_DMA_BOOK (i : Nat) : Nat := 0x10051030 + 0x40 * i
abbrev Reg.POOL_CTRL : Nat := 0x10060000
abbrev Reg.POOL_STATUS : Nat := 0x10060004
abbrev Reg.POOL_FREE : Nat := 0x10060008
abbrev Reg.POOL_RESSUM : Nat := 0x1006000c
abbrev Reg.POOL_ECCTALLY : Nat := 0x10060010
abbrev Reg.POOL_ECCADDR : Nat := 0x10060014
abbrev Reg.POOL_SCRUBCFG : Nat := 0x10060018
abbrev Reg.POOL_FULLTALLY (i : Nat) : Nat := 0x10060020 + 0x4 * i
abbrev Reg.POOL_HQPUSH : Nat := 0x10060040
abbrev Reg.POOL_HSTAT : Nat := 0x10060044
abbrev Reg.POOL_HPOP (i : Nat) : Nat := 0x10060400 + 0x4 * i
abbrev Reg.POOL_QCFG (i : Nat) : Nat := 0x10061000 + 0x10 * i
abbrev Reg.POOL_QLIM (i : Nat) : Nat := 0x10061004 + 0x10 * i
abbrev Reg.POOL_QNOT (i : Nat) : Nat := 0x10061008 + 0x10 * i
abbrev Reg.POOL_QSTAT (i : Nat) : Nat := 0x1006100c + 0x10 * i
abbrev Reg.POOL_QTALLY (i : Nat) : Nat := 0x10061400 + 0x4 * i
abbrev Reg.ADC_CTRL : Nat := 0x10080000
abbrev Reg.ADC_STATUS : Nat := 0x10080004
abbrev Reg.ADC_SWTRIG : Nat := 0x10080008
abbrev Reg.ADC_TSCAL : Nat := 0x1008000c
abbrev Reg.ADC_PROOF : Nat := 0x10080010
abbrev Reg.ADC_PROOFSTAT : Nat := 0x10080014
abbrev Reg.ADC_SEQ (i j : Nat) : Nat := 0x10081000 + 0x400 * i + 0x4 * j
abbrev Reg.ADC_CALOFF (i : Nat) : Nat := 0x10081010 + 0x400 * i
abbrev Reg.ADC_CALGAIN (i : Nat) : Nat := 0x10081014 + 0x400 * i
abbrev Reg.ADC_FIFO (i : Nat) : Nat := 0x10081018 + 0x400 * i
abbrev Reg.ADC_FIFOCFG (i : Nat) : Nat := 0x1008101c + 0x400 * i
abbrev Reg.ADC_TRIGLATETALLY (i : Nat) : Nat := 0x10081020 + 0x400 * i
abbrev Reg.ADC_OVWRTALLY (i : Nat) : Nat := 0x10081024 + 0x400 * i
abbrev Reg.ADC_FIFODROP (i : Nat) : Nat := 0x10081028 + 0x400 * i
abbrev Reg.ADC_STEP (i j : Nat) : Nat := 0x10081100 + 0x400 * i + 0x10 * j
abbrev Reg.ADC_STEPQ (i j : Nat) : Nat := 0x10081104 + 0x400 * i + 0x10 * j
abbrev Reg.ADC_GAIN (i j : Nat) : Nat := 0x10081108 + 0x400 * i + 0x10 * j
abbrev Reg.ADC_OFF (i j : Nat) : Nat := 0x1008110c + 0x400 * i + 0x10 * j
abbrev Reg.SDF_SWSYNC : Nat := 0x10090000
abbrev Reg.SDF_STATUS : Nat := 0x10090004
abbrev Reg.SDF_SDCFG (i : Nat) : Nat := 0x10090100 + 0x20 * i
abbrev Reg.SDF_SDFILT (i : Nat) : Nat := 0x10090104 + 0x20 * i
abbrev Reg.SDF_SDTRIP (i : Nat) : Nat := 0x10090108 + 0x20 * i
abbrev Reg.SDF_SDROUTE (i : Nat) : Nat := 0x1009010c + 0x20 * i
abbrev Reg.SDF_SDQ (i : Nat) : Nat := 0x10090110 + 0x20 * i
abbrev Reg.SDF_SDGAIN (i : Nat) : Nat := 0x10090114 + 0x20 * i
abbrev Reg.SDF_SDOFF (i : Nat) : Nat := 0x10090118 + 0x20 * i
abbrev Reg.SDF_SDLAST (i : Nat) : Nat := 0x1009011c + 0x20 * i
abbrev Reg.CMP_TRIPPED : Nat := 0x100a0000
abbrev Reg.CMP_STATUS : Nat := 0x100a0004
abbrev Reg.CMP_IEN : Nat := 0x100a0008
abbrev Reg.CMP_PROOF : Nat := 0x100a000c
abbrev Reg.CMP_CMP_CFG (i : Nat) : Nat := 0x100a0100 + 0x10 * i
abbrev Reg.CMP_CMP_THR (i : Nat) : Nat := 0x100a0104 + 0x10 * i
abbrev Reg.CMP_CMP_BLK (i : Nat) : Nat := 0x100a0108 + 0x10 * i
abbrev Reg.KLE_CTRL : Nat := 0x10070000
abbrev Reg.KLE_STATUS : Nat := 0x10070004
abbrev Reg.KLE_ENABLED : Nat := 0x10070008
abbrev Reg.KLE_ENSET : Nat := 0x1007000c
abbrev Reg.KLE_ENCLR : Nat := 0x10070010
abbrev Reg.KLE_DOORBELL : Nat := 0x10070014
abbrev Reg.KLE_SLOTRST : Nat := 0x10070018
abbrev Reg.KLE_PENNED : Nat := 0x1007001c
abbrev Reg.KLE_PEND : Nat := 0x10070020
abbrev Reg.KLE_PLOCK : Nat := 0x10070024
abbrev Reg.KLE_OVRLAST : Nat := 0x10070028
abbrev Reg.KLE_VALID : Nat := 0x1007002c
abbrev Reg.KLE_PLATECHK : Nat := 0x10070030
abbrev Reg.KLE_PCSTAT : Nat := 0x10070034
abbrev Reg.KLE_ECCTALLY : Nat := 0x10070038
abbrev Reg.KLE_ECCADDR : Nat := 0x1007003c
abbrev Reg.KLE_SSTAT (i : Nat) : Nat := 0x10071000 + 0x40 * i
abbrev Reg.KLE_SINFO (i : Nat) : Nat := 0x10071004 + 0x40 * i
abbrev Reg.KLE_SDEAD (i : Nat) : Nat := 0x10071008 + 0x40 * i
abbrev Reg.KLE_FLAGS (i : Nat) : Nat := 0x1007100c + 0x40 * i
abbrev Reg.KLE_OVRTALLY (i : Nat) : Nat := 0x10071010 + 0x40 * i
abbrev Reg.KLE_LATOVWR (i : Nat) : Nat := 0x10071014 + 0x40 * i
abbrev Reg.KLE_SAMPLES (i : Nat) : Nat := 0x10071018 + 0x40 * i
abbrev Reg.KLE_LASTSTART (i : Nat) : Nat := 0x1007101c + 0x40 * i
abbrev Reg.KLE_LASTLAT (i : Nat) : Nat := 0x10071020 + 0x40 * i
abbrev Reg.KLE_MAXLAT (i : Nat) : Nat := 0x10071024 + 0x40 * i
abbrev Reg.KLE_IEN (i : Nat) : Nat := 0x10071028 + 0x40 * i
abbrev Reg.KLE_EVT (i : Nat) : Nat := 0x1007102c + 0x40 * i
abbrev Reg.KLE_HSTAT (i : Nat) : Nat := 0x10072000 + 0x20 * i
abbrev Reg.KLE_HTALLY (i : Nat) : Nat := 0x10072004 + 0x20 * i
abbrev Reg.KLE_HTALLY2 (i : Nat) : Nat := 0x10072008 + 0x20 * i
abbrev Reg.KLE_INJCTL (i : Nat) : Nat := 0x1007200c + 0x20 * i
abbrev Reg.KLE_INJPAT (i : Nat) : Nat := 0x10072010 + 0x20 * i
abbrev Reg.KLE_INJRES (i : Nat) : Nat := 0x10072014 + 0x20 * i
abbrev Reg.KLE_LCTL (i : Nat) : Nat := 0x10072400 + 0x20 * i
abbrev Reg.KLE_LSTAT (i : Nat) : Nat := 0x10072404 + 0x20 * i
abbrev Reg.KLE_LMOT (i : Nat) : Nat := 0x10072408 + 0x20 * i
abbrev Reg.KLE_LSKIP (i : Nat) : Nat := 0x1007240c + 0x20 * i
abbrev Reg.KLE_LBLK (i : Nat) : Nat := 0x10072410 + 0x20 * i
abbrev Reg.PWM_STATUS : Nat := 0x100b0004
abbrev Reg.PWM_GSTART : Nat := 0x100b0008
abbrev Reg.PWM_GSYNC : Nat := 0x100b000c
abbrev Reg.PWM_TRIPPED : Nat := 0x100b0010
abbrev Reg.PWM_DLSTAT : Nat := 0x100b0014
abbrev Reg.PWM_PROBEINT : Nat := 0x100b0018
abbrev Reg.PWM_DIAGPERM : Nat := 0x100b001c
abbrev Reg.PWM_CFG (i : Nat) : Nat := 0x100b1000 + 0x100 * i
abbrev Reg.PWM_PRD (i : Nat) : Nat := 0x100b1004 + 0x100 * i
abbrev Reg.PWM_CMPA (i : Nat) : Nat := 0x100b1008 + 0x100 * i
abbrev Reg.PWM_CMPB (i : Nat) : Nat := 0x100b100c + 0x100 * i
abbrev Reg.PWM_PHASE (i : Nat) : Nat := 0x100b1010 + 0x100 * i
abbrev Reg.PWM_DT (i : Nat) : Nat := 0x100b1014 + 0x100 * i
abbrev Reg.PWM_TRIPSEL (i : Nat) : Nat := 0x100b1018 + 0x100 * i
abbrev Reg.PWM_EVSEL (i : Nat) : Nat := 0x100b101c + 0x100 * i
abbrev Reg.PWM_EVPRE (i : Nat) : Nat := 0x100b1020 + 0x100 * i
abbrev Reg.PWM_OUT (i : Nat) : Nat := 0x100b1024 + 0x100 * i
abbrev Reg.PWM_SAFE (i : Nat) : Nat := 0x100b1028 + 0x100 * i
abbrev Reg.PWM_COUNT (i : Nat) : Nat := 0x100b102c + 0x100 * i
abbrev Reg.PWM_SWTRIP (i : Nat) : Nat := 0x100b1030 + 0x100 * i
abbrev Reg.PWM_DIAGCFG (i : Nat) : Nat := 0x100b2000 + 0x20 * i
abbrev Reg.PWM_DIAGTIM (i : Nat) : Nat := 0x100b2004 + 0x20 * i
abbrev Reg.PWM_DIAGSTAT (i : Nat) : Nat := 0x100b2008 + 0x20 * i
abbrev Reg.PWM_DIAGTALLY (i : Nat) : Nat := 0x100b200c + 0x20 * i
abbrev Reg.CAPQD_STATUS : Nat := 0x100c0004
abbrev Reg.CAPQD_CFG (i : Nat) : Nat := 0x100c1000 + 0x40 * i
abbrev Reg.CAPQD_ARM (i : Nat) : Nat := 0x100c1004 + 0x40 * i
abbrev Reg.CAPQD_CSTAT (i : Nat) : Nat := 0x100c1008 + 0x40 * i
abbrev Reg.CAPQD_LOSTTALLY (i : Nat) : Nat := 0x100c100c + 0x40 * i
abbrev Reg.CAPQD_REC (i j : Nat) : Nat := 0x100c1020 + 0x40 * i + 0x4 * j
abbrev Reg.CAPQD_QCFG (i : Nat) : Nat := 0x100c2000 + 0x80 * i
abbrev Reg.CAPQD_CPR (i : Nat) : Nat := 0x100c2004 + 0x80 * i
abbrev Reg.CAPQD_ZOFF (i : Nat) : Nat := 0x100c2008 + 0x80 * i
abbrev Reg.CAPQD_STALLTMO (i : Nat) : Nat := 0x100c200c + 0x80 * i
abbrev Reg.CAPQD_ROUTE (i : Nat) : Nat := 0x100c2010 + 0x80 * i
abbrev Reg.CAPQD_POS (i : Nat) : Nat := 0x100c2014 + 0x80 * i
abbrev Reg.CAPQD_IDXPOS (i : Nat) : Nat := 0x100c2018 + 0x80 * i
abbrev Reg.CAPQD_SPEED (i : Nat) : Nat := 0x100c201c + 0x80 * i
abbrev Reg.CAPQD_ANGLE (i : Nat) : Nat := 0x100c2020 + 0x80 * i
abbrev Reg.CAPQD_QSTAT (i : Nat) : Nat := 0x100c2024 + 0x80 * i
abbrev Reg.CAPQD_ERRTALLY (i : Nat) : Nat := 0x100c2028 + 0x80 * i
abbrev Reg.CAPQD_IEN (i : Nat) : Nat := 0x100c202c + 0x80 * i
abbrev Reg.MBM_CTRL : Nat := 0x100d0000
abbrev Reg.MBM_STATUS : Nat := 0x100d0004
abbrev Reg.MBM_TRIG : Nat := 0x100d0008
abbrev Reg.MBM_ENTFREE : Nat := 0x100d000c
abbrev Reg.MBM_IEN : Nat := 0x100d0010
abbrev Reg.MBM_EVT : Nat := 0x100d0014
abbrev Reg.MBM_LIST_STAT (i : Nat) : Nat := 0x100d0100 + 0x40 * i
abbrev Reg.MBM_LIST_FOLD (i : Nat) : Nat := 0x100d0104 + 0x40 * i
abbrev Reg.MBM_LIST_FRONT (i : Nat) : Nat := 0x100d0108 + 0x40 * i
abbrev Reg.MBM_LIST_LEN (i : Nat) : Nat := 0x100d010c + 0x40 * i
abbrev Reg.MBM_LIST_PERIOD (i : Nat) : Nat := 0x100d0110 + 0x40 * i
abbrev Reg.MBM_LIST_DEADLINE (i : Nat) : Nat := 0x100d0114 + 0x40 * i
abbrev Reg.MBM_LIST_RUNAHEAD (i : Nat) : Nat := 0x100d0118 + 0x40 * i
abbrev Reg.MBM_LIST_SKEWLIM (i : Nat) : Nat := 0x100d011c + 0x40 * i
abbrev Reg.MBM_LIST_NUM (i : Nat) : Nat := 0x100d0120 + 0x40 * i
abbrev Reg.MBM_LIST_BOOK (i : Nat) : Nat := 0x100d0124 + 0x40 * i
abbrev Reg.MBM_LIST_SKIPTALLY (i : Nat) : Nat := 0x100d0128 + 0x40 * i
abbrev Reg.MBM_LIST_PARTTALLY (i : Nat) : Nat := 0x100d012c + 0x40 * i
abbrev Reg.MBM_LIST_DEADTALLY (i : Nat) : Nat := 0x100d0130 + 0x40 * i
abbrev Reg.MBM_LIST_DROPTALLY (i : Nat) : Nat := 0x100d0134 + 0x40 * i
abbrev Reg.MBM_LIST_CANCTALLY (i : Nat) : Nat := 0x100d0138 + 0x40 * i
abbrev Reg.MBM_ENTSTAT (i j : Nat) : Nat := 0x100d1000 + 0x400 * i + 0x4 * j
abbrev Reg.MBM_ENTTALLY (i j : Nat) : Nat := 0x100d2000 + 0x400 * i + 0x4 * j
abbrev Reg.MBM_ENTDESC (i j k : Nat) : Nat := 0x100d4000 + 0x1000 * i + 0x10 * j + 0x4 * k
abbrev Reg.TW_CTRL : Nat := 0x100e0000
abbrev Reg.TW_STATUS : Nat := 0x100e0004
abbrev Reg.TW_CFG (i : Nat) : Nat := 0x100e1000 + 0x100 * i
abbrev Reg.TW_RATE (i : Nat) : Nat := 0x100e1004 + 0x100 * i
abbrev Reg.TW_ADAPT (i : Nat) : Nat := 0x100e1008 + 0x100 * i
abbrev Reg.TW_STUCK (i : Nat) : Nat := 0x100e100c + 0x100 * i
abbrev Reg.TW_STRLIM (i : Nat) : Nat := 0x100e1010 + 0x100 * i
abbrev Reg.TW_PSTAT (i : Nat) : Nat := 0x100e1014 + 0x100 * i
abbrev Reg.TW_LINETALLY (i : Nat) : Nat := 0x100e1018 + 0x100 * i
abbrev Reg.TW_STUCKTALLY (i : Nat) : Nat := 0x100e101c + 0x100 * i
abbrev Reg.TW_CRK (i : Nat) : Nat := 0x100e1020 + 0x100 * i
abbrev Reg.TW_CRKTALLY (i : Nat) : Nat := 0x100e1024 + 0x100 * i
abbrev Reg.TW_IEN (i : Nat) : Nat := 0x100e1028 + 0x100 * i
abbrev Reg.TW_EVT (i : Nat) : Nat := 0x100e102c + 0x100 * i
abbrev Reg.TW_SWCTL (i : Nat) : Nat := 0x100e1040 + 0x100 * i
abbrev Reg.TW_SWDATA (i j : Nat) : Nat := 0x100e1044 + 0x100 * i + 0x4 * j
abbrev Reg.TW_SWSTAT (i : Nat) : Nat := 0x100e1054 + 0x100 * i
abbrev Reg.DS_STATUS : Nat := 0x100f0004
abbrev Reg.DS_CFG (i : Nat) : Nat := 0x100f1000 + 0x200 * i
abbrev Reg.DS_TIM (i : Nat) : Nat := 0x100f1004 + 0x200 * i
abbrev Reg.DS_DSTAT (i : Nat) : Nat := 0x100f1008 + 0x200 * i
abbrev Reg.DS_STRBTALLY (i : Nat) : Nat := 0x100f100c + 0x200 * i
abbrev Reg.DS_PROF (i j : Nat) : Nat := 0x100f1010 + 0x200 * i + 0x4 * j
abbrev Reg.DS_FLASHCFG0 : Nat := 0x100f1020
abbrev Reg.DS_IEN (i : Nat) : Nat := 0x100f1024 + 0x200 * i
abbrev Reg.DS_EVT (i : Nat) : Nat := 0x100f1028 + 0x200 * i
abbrev Reg.DS_TGTTALLY (i : Nat) : Nat := 0x100f102c + 0x200 * i
abbrev Reg.DS_RXDATA (i : Nat) : Nat := 0x100f1030 + 0x200 * i
abbrev Reg.DS_RXLEN (i : Nat) : Nat := 0x100f1034 + 0x200 * i
abbrev Reg.DS_TXDATA (i : Nat) : Nat := 0x100f1038 + 0x200 * i
abbrev Reg.DS_IDLEW (i : Nat) : Nat := 0x100f103c + 0x200 * i
abbrev Reg.DS_SWCTL (i : Nat) : Nat := 0x100f1040 + 0x200 * i
abbrev Reg.DS_SWCMD (i : Nat) : Nat := 0x100f1044 + 0x200 * i
abbrev Reg.DS_SWADDR (i : Nat) : Nat := 0x100f1048 + 0x200 * i
abbrev Reg.DS_SWSTAT (i : Nat) : Nat := 0x100f104c + 0x200 * i
abbrev Reg.DS_SWDATA (i j : Nat) : Nat := 0x100f1080 + 0x200 * i + 0x4 * j
abbrev Reg.SE_STATUS : Nat := 0x10100004
abbrev Reg.SE_GSTART : Nat := 0x10100008
abbrev Reg.SE_PHRST : Nat := 0x1010000c
abbrev Reg.SE_DRVCONF : Nat := 0x10100010
abbrev Reg.SE_PINLVL : Nat := 0x10100014
abbrev Reg.SE_CTRL (i : Nat) : Nat := 0x10101000 + 0x400 * i
abbrev Reg.SE_STAT (i : Nat) : Nat := 0x10101004 + 0x400 * i
abbrev Reg.SE_CFG0 (i : Nat) : Nat := 0x10101008 + 0x400 * i
abbrev Reg.SE_CFG1 (i : Nat) : Nat := 0x1010100c + 0x400 * i
abbrev Reg.SE_CFG2 (i : Nat) : Nat := 0x10101010 + 0x400 * i
abbrev Reg.SE_PINCFG (i : Nat) : Nat := 0x10101014 + 0x400 * i
abbrev Reg.SE_CRCCFG (i : Nat) : Nat := 0x10101018 + 0x400 * i
abbrev Reg.SE_MISC (i : Nat) : Nat := 0x1010101c + 0x400 * i
abbrev Reg.SE_QCFG (i : Nat) : Nat := 0x10101020 + 0x400 * i
abbrev Reg.SE_LOAD (i : Nat) : Nat := 0x10101024 + 0x400 * i
abbrev Reg.SE_IEN (i : Nat) : Nat := 0x10101028 + 0x400 * i
abbrev Reg.SE_EVT (i : Nat) : Nat := 0x1010102c + 0x400 * i
abbrev Reg.SE_OVFTALLY (i : Nat) : Nat := 0x10101030 + 0x400 * i
abbrev Reg.SE_ECNT (i : Nat) : Nat := 0x10101034 + 0x400 * i
abbrev Reg.SE_TMR (i : Nat) : Nat := 0x10101038 + 0x400 * i
abbrev Reg.SE_REG (i j : Nat) : Nat := 0x10101040 + 0x400 * i + 0x4 * j
abbrev Reg.SE_CHSTAT (i j : Nat) : Nat := 0x10101060 + 0x400 * i + 0x4 * j
abbrev Reg.SE_PARAM (i j : Nat) : Nat := 0x10101080 + 0x400 * i + 0x4 * j
abbrev Reg.SE_PROG (i j : Nat) : Nat := 0x10101100 + 0x400 * i + 0x4 * j
abbrev Reg.SE_CHDATA (i j k : Nat) : Nat := 0x10101200 + 0x400 * i + 0x40 * j + 0x4 * k
abbrev Reg.PPW_CTRL : Nat := 0x10020000
abbrev Reg.PPW_STATUS : Nat := 0x10020004
abbrev Reg.PPW_PENMAP : Nat := 0x10020008
abbrev Reg.PPW_ONMAP : Nat := 0x1002000c
abbrev Reg.PPW_PRESMAP : Nat := 0x10020010
abbrev Reg.PPW_PSIL_ID (i : Nat) : Nat := 0x10020100 + 0x4 * i
abbrev Reg.PPW_CTRLn (i : Nat) : Nat := 0x10021000 + 0x80 * i
abbrev Reg.PPW_CFG (i : Nat) : Nat := 0x10021004 + 0x80 * i
abbrev Reg.PPW_BIND (i : Nat) : Nat := 0x10021008 + 0x80 * i
abbrev Reg.PPW_LEV (i : Nat) : Nat := 0x1002100c + 0x80 * i
abbrev Reg.PPW_INRUSH (i : Nat) : Nat := 0x10021010 + 0x80 * i
abbrev Reg.PPW_TIM (i : Nat) : Nat := 0x10021014 + 0x80 * i
abbrev Reg.PPW_BACKOFF (i : Nat) : Nat := 0x10021018 + 0x80 * i
abbrev Reg.PPW_FILT (i : Nat) : Nat := 0x1002101c + 0x80 * i
abbrev Reg.PPW_IDCFG (i : Nat) : Nat := 0x10021020 + 0x80 * i
abbrev Reg.PPW_IDVAL (i : Nat) : Nat := 0x10021024 + 0x80 * i
abbrev Reg.PPW_IDMASK (i : Nat) : Nat := 0x10021028 + 0x80 * i
abbrev Reg.PPW_IDIWIN (i : Nat) : Nat := 0x1002102c + 0x80 * i
abbrev Reg.PPW_STAT (i : Nat) : Nat := 0x10021030 + 0x80 * i
abbrev Reg.PPW_IMEAS (i : Nat) : Nat := 0x10021034 + 0x80 * i
abbrev Reg.PPW_IPEAK (i : Nat) : Nat := 0x10021038 + 0x80 * i
abbrev Reg.PPW_IDLAST (i : Nat) : Nat := 0x1002103c + 0x80 * i
abbrev Reg.PPW_TALLY (i : Nat) : Nat := 0x10021040 + 0x80 * i
abbrev Reg.PPW_EVTALLY (i : Nat) : Nat := 0x10021044 + 0x80 * i
abbrev Reg.PPW_IEN (i : Nat) : Nat := 0x10021048 + 0x80 * i
abbrev Reg.PPW_EVT (i : Nat) : Nat := 0x1002104c + 0x80 * i

/-- The register table of SYS. -/
def regRowsSYS : List RegRow :=
[
   ⟨0x0, [], 0x234816, 0x0, 0x0, 0x0, .plain⟩,
   ⟨0x4, [], 0x4, 0x0, 0x80000700, 0x0, .plain⟩,
   ⟨0x8, [], 0x1, 0x0, 0x0, 0x0, .plain⟩,
   ⟨0xc, [], 0x0, 0x0, 0x0, 0x0, .custom⟩,
   ⟨0x10, [], 0x0, 0x0, 0x0, 0x0, .custom⟩,
   ⟨0x14, [], 0x0, 0x0, 0x0, 0x0, .tally⟩,
   ⟨0x20, [(4, 32)], 0x0, 0xffffffff, 0x0, 0x0, .plain⟩,
   ⟨0xa0, [], 0x0, 0x0, 0x0, 0x0, .plain⟩,
   ⟨0x100, [], 0x0, 0x0, 0x0, 0x0, .custom⟩,
   ⟨0x104, [], 0x1, 0x0, 0x1f, 0x0, .plain⟩,
   ⟨0x108, [], 0xe0e, 0xf, 0x0, 0x0, .custom⟩,
   ⟨0x110, [(4, 4)], 0x0, 0xfffffffc, 0x0, 0x0, .plain⟩,
   ⟨0x120, [], 0x0, 0x0, 0x6000, 0x0, .plain⟩,
   ⟨0x124, [], 0x0, 0x0, 0x0, 0x0, .custom⟩,
   ⟨0x128, [], 0x0, 0xfffff000, 0x0, 0x0, .plain⟩,
   ⟨0x12c, [], 0x0, 0x0, 0x0, 0x0, .custom⟩,
   ⟨0x130, [], 0x0, 0x0, 0x0, 0x0, .tally⟩]

/-- The register table of SUP. -/
def regRowsSUP : List RegRow :=
[
   ⟨0x0, [], 0x0, 0x7, 0x0, 0x0, .plain⟩,
   ⟨0x4, [], 0x200000, 0x0, 0x804c0000, 0x0, .plain⟩,
   ⟨0x8, [], 0x0, 0x0, 0x0, 0x0, .custom⟩,
   ⟨0xc, [], 0x0, 0x0, 0xffff, 0x0, .plain⟩,
   ⟨0x10, [], 0x0, 0x0, 0xffffffff, 0x0, .plain⟩,
   ⟨0x14, [], 0x10000, 0xff03ff, 0x0, 0x0, .plain⟩,
   ⟨0x18, [], 0x0, 0x0, 0x0, 0x0, .plain⟩,
   ⟨0x20, [(32, 8)], 0x100, 0x0, 0x0, 0xffffff3f, .plain⟩,
   ⟨0x24, [(32, 8)], 0x0, 0x0, 0x0, 0x3ff03ff, .plain⟩,
   ⟨0x28, [(32, 8)], 0x0, 0x0, 0x0, 0x3ff03ff, .plain⟩,
   ⟨0x2c, [(32, 8)], 0x0, 0x0, 0x0, 0xffff03ff, .plain⟩,
   ⟨0x30, [(32, 8)], 0x1, 0x0, 0x0, 0xffff, .plain⟩,
   ⟨0x34, [(32, 8)], 0x0, 0x0, 0x0, 0x0, .plain⟩,
   ⟨0x38, [(32, 8)], 0x0, 0x0, 0x0, 0x0, .tally⟩]

/-- The register table of PPW. -/
def regRowsPPW : List RegRow :=
[
   ⟨0x0, [], 0x3c03, 0x3f0f, 0x0, 0x0, .plain⟩,
   ⟨0x4, [], 0x0, 0x0, 0x80000001, 0x0, .plain⟩,
   ⟨0x8, [], 0x0, 0x0, 0x0, 0x0, .plain⟩,
   ⟨0xc, [], 0x0, 0x0, 0x0, 0x0, .plain⟩,
   ⟨0x10, [], 0x0, 0x0, 0x0, 0x0, .plain⟩,
   ⟨0x100, [(4, 40)], 0x0, 0x0, 0x0, 0x0, .plain⟩,
   ⟨0x1000, [(128, 8)], 0x0, 0x1, 0x0, 0x0, .custom⟩,
   ⟨0x1004, [(128, 8)], 0x0, 0x0, 0x0, 0x37, .plain⟩,
   ⟨0x1008, [(128, 8)], 0x0, 0x0, 0x0, 0xff0eff, .plain⟩,
   ⟨0x100c, [(128, 8)], 0xfa0ffff, 0xffffffff, 0x0, 0x0, .plain⟩,
   ⟨0x1010, [(128, 8)], 0x141f40, 0x0, 0x0, 0xffffffff, .plain⟩,
   ⟨0x1014, [(128, 8)], 0x64000a, 0x0, 0x0, 0x3ff03ff, .plain⟩,
   ⟨0x1018, [(128, 8)], 0x3e8, 0x0, 0x0, 0xffff, .plain⟩,
   ⟨0x101c, [(128, 8)], 0xa0a, 0x0, 0x0, 0xffff, .plain⟩,
   ⟨0x1020, [(128, 8)], 0x0, 0x0, 0x0, 0x3fff7fff, .plain⟩,
   ⟨0x1024, [(128, 8)], 0x0, 0x0, 0x0, 0xffffffff, .plain⟩,
   ⟨0x1028, [(128, 8)], 0x0, 0x0, 0x0, 0xffffffff, .plain⟩,
   ⟨0x102c, [(128, 8)], 0x0, 0x0, 0x0, 0xffffffff, .plain⟩,
   ⟨0x1030, [(128, 8)], 0x0, 0x0, 0x0, 0x0, .plain⟩,
   ⟨0x1034, [(128, 8)], 0x0, 0x0, 0x0, 0x0, .plain⟩,
   ⟨0x1038, [(128, 8)], 0x0, 0x0, 0x0, 0x0, .plain⟩,
   ⟨0x103c, [(128, 8)], 0x0, 0x0, 0x0, 0x0, .plain⟩,
   ⟨0x1040, [(128, 8)], 0x0, 0x0, 0x0, 0x0, .halves⟩,
   ⟨0x1044, [(128, 8)], 0x0, 0x0, 0x0, 0x0, .halves⟩]
  ++ [
   ⟨0x1048, [(128, 8)], 0x0, 0xf, 0x0, 0x0, .plain⟩,
   ⟨0x104c, [(128, 8)], 0x0, 0x0, 0xf, 0x0, .plain⟩]

/-- The register table of TMB. -/
def regRowsTMB : List RegRow :=
[
   ⟨0x0, [], 0x0, 0x0, 0x0, 0x0, .plain⟩,
   ⟨0x4, [], 0x0, 0x0, 0x8000ff01, 0x0, .plain⟩,
   ⟨0x8, [], 0x0, 0x0, 0x0, 0x0, .plain⟩,
   ⟨0x40, [(16, 8)], 0x0, 0x7, 0x0, 0x0, .plain⟩,
   ⟨0x44, [(16, 8)], 0x0, 0x0, 0x0, 0xffffffff, .plain⟩,
   ⟨0x48, [(16, 8)], 0x0, 0x0, 0x0, 0x0, .plain⟩]

/-- The register table of ICU. -/
def regRowsICU : List RegRow :=
[
   ⟨0x0, [], 0x0, 0x0, 0x0, 0x0, .custom⟩,
   ⟨0x4, [], 0x0, 0x0, 0x8000000f, 0x0, .plain⟩,
   ⟨0x1000, [(1024, 4)], 0x0, 0x0, 0x0, 0x0, .plain⟩,
   ⟨0x1004, [(1024, 4)], 0x0, 0x0, 0x0, 0x0, .plain⟩,
   ⟨0x1008, [(1024, 4)], 0x0, 0x0, 0x0, 0x0, .custom⟩,
   ⟨0x100c, [(1024, 4)], 0x0, 0x0, 0x0, 0x0, .custom⟩,
   ⟨0x1010, [(1024, 4)], 0x0, 0x0, 0x0, 0x0, .custom⟩,
   ⟨0x1014, [(1024, 4)], 0x0, 0x0, 0x0, 0x0, .custom⟩,
   ⟨0x1018, [(1024, 4)], 0x80000, 0x0, 0x0, 0x0, .plain⟩,
   ⟨0x101c, [(1024, 4)], 0x0, 0x0, 0xe, 0x0, .plain⟩,
   ⟨0x1020, [(1024, 4)], 0x0, 0x0, 0x0, 0x0, .plain⟩,
   ⟨0x1024, [(1024, 4)], 0x0, 0x0, 0x0, 0x0, .plain⟩,
   ⟨0x1028, [(1024, 4)], 0x0, 0x0, 0x0, 0x0, .plain⟩,
   ⟨0x102c, [(1024, 4)], 0x0, 0x0, 0x0, 0x0, .plain⟩,
   ⟨0x1030, [(1024, 4)], 0x0, 0x0, 0x0, 0x0, .tally⟩,
   ⟨0x1034, [(1024, 4)], 0x0, 0x0, 0x0, 0x0, .tally⟩,
   ⟨0x1100, [(1024, 4), (4, 64)], 0x0, 0x1f, 0x0, 0x0, .plain⟩]

/-- The register table of XLT. -/
def regRowsXLT : List RegRow :=
[
   ⟨0x0, [], 0x0, 0x3, 0x0, 0x0, .custom⟩,
   ⟨0x4, [], 0x0, 0x0, 0x8000001e, 0x0, .plain⟩,
   ⟨0x8, [], 0x0, 0x0, 0x0, 0x0, .plain⟩,
   ⟨0xc, [], 0x0, 0x0, 0x0, 0x0, .custom⟩,
   ⟨0x10, [(4, 4)], 0x0, 0x0, 0x0, 0x0, .tally⟩,
   ⟨0x20, [], 0xa, 0xffff, 0x0, 0x0, .plain⟩,
   ⟨0x24, [], 0x3000000, 0xfffff000, 0x0, 0x0, .plain⟩,
   ⟨0x28, [], 0x0, 0xfffff000, 0x0, 0x0, .plain⟩,
   ⟨0x2c, [], 0x10001, 0xffff001f, 0x0, 0x0, .plain⟩,
   ⟨0x30, [], 0x0, 0x0, 0x0, 0x0, .tally⟩,
   ⟨0x34, [], 0x0, 0x0, 0x0, 0x0, .plain⟩,
   ⟨0x38, [], 0x0, 0x0, 0x0, 0x0, .tally⟩,
   ⟨0x3c, [], 0x0, 0x0, 0x0, 0x0, .tally⟩,
   ⟨0x40, [], 0x0, 0x0, 0x0, 0x0, .plain⟩,
   ⟨0x100, [(32, 4)], 0x0, 0x1, 0x0, 0x0, .plain⟩,
   ⟨0x104, [(32, 4)], 0x0, 0xfffffc00, 0x0, 0x0, .plain⟩,
   ⟨0x108, [(32, 4)], 0x0, 0x0, 0x0, 0x0, .plain⟩,
   ⟨0x1000, [(64, 16)], 0x0, 0x0, 0x0, 0x0, .custom⟩,
   ⟨0x1004, [(64, 16)], 0x0, 0x0, 0x0, 0xffff, .plain⟩,
   ⟨0x1008, [(64, 16)], 0x0, 0x0, 0x0, 0xfffffc00, .plain⟩,
   ⟨0x100c, [(64, 16)], 0x0, 0xffffffff, 0x0, 0x0, .plain⟩,
   ⟨0x1010, [(64, 16)], 0x0, 0xffffffff, 0x0, 0x0, .plain⟩,
   ⟨0x1014, [(64, 16)], 0x0, 0xffff, 0x0, 0x0, .plain⟩,
   ⟨0x1018, [(64, 16)], 0x0, 0xfffffff0, 0x0, 0x0, .plain⟩]
  ++ [
   ⟨0x101c, [(64, 16)], 0x0, 0x0, 0x30, 0x0, .plain⟩,
   ⟨0x1020, [(64, 16)], 0x0, 0x0, 0x0, 0x0, .plain⟩,
   ⟨0x1024, [(64, 16)], 0x0, 0x0, 0x0, 0x0, .plain⟩,
   ⟨0x1028, [(64, 16)], 0x0, 0x0, 0x0, 0x0, .plain⟩,
   ⟨0x102c, [(64, 16)], 0x0, 0x0, 0x0, 0x0, .plain⟩,
   ⟨0x1030, [(64, 16)], 0x0, 0x0, 0x0, 0x0, .plain⟩]

/-- The register table of POOL. -/
def regRowsPOOL : List RegRow :=
[
   ⟨0x0, [], 0x0, 0x3, 0x0, 0x0, .plain⟩,
   ⟨0x4, [], 0x0, 0x0, 0x8000000e, 0x0, .plain⟩,
   ⟨0x8, [], 0x2000, 0x0, 0x0, 0x0, .plain⟩,
   ⟨0xc, [], 0x0, 0x0, 0x0, 0x0, .plain⟩,
   ⟨0x10, [], 0x0, 0x0, 0x0, 0x0, .tally⟩,
   ⟨0x14, [], 0x0, 0x0, 0x0, 0x0, .plain⟩,
   ⟨0x18, [], 0xa, 0xffff, 0x0, 0x0, .plain⟩,
   ⟨0x20, [(4, 7)], 0x0, 0x0, 0x0, 0x0, .tally⟩,
   ⟨0x40, [], 0x0, 0x0, 0x0, 0x0, .custom⟩,
   ⟨0x44, [], 0x8, 0x0, 0x100, 0x0, .plain⟩,
   ⟨0x400, [(4, 64)], 0x0, 0x0, 0x0, 0x0, .plain⟩,
   ⟨0x1000, [(16, 64)], 0x0, 0x0, 0x0, 0x1f, .custom⟩,
   ⟨0x1004, [(16, 64)], 0x1, 0x0, 0x0, 0x3fff3fff, .plain⟩,
   ⟨0x1008, [(16, 64)], 0x0, 0xffff001f, 0x0, 0x0, .plain⟩,
   ⟨0x100c, [(16, 64)], 0x0, 0x0, 0x3000000, 0x0, .plain⟩,
   ⟨0x1400, [(4, 64)], 0x0, 0x0, 0x0, 0x0, .halves⟩]

/-- The register table of KLE. -/
def regRowsKLE : List RegRow :=
[
   ⟨0x0, [], 0x3, 0xf, 0x0, 0x0, .plain⟩,
   ⟨0x4, [], 0x0, 0x0, 0x80060000, 0x0, .plain⟩,
   ⟨0x8, [], 0x0, 0x0, 0x0, 0x0, .plain⟩,
   ⟨0xc, [], 0x0, 0x0, 0x0, 0x0, .custom⟩,
   ⟨0x10, [], 0x0, 0x0, 0x0, 0x0, .custom⟩,
   ⟨0x14, [], 0x0, 0x0, 0x0, 0x0, .custom⟩,
   ⟨0x18, [], 0x0, 0x0, 0x0, 0x0, .custom⟩,
   ⟨0x1c, [], 0x0, 0x0, 0x0, 0x0, .plain⟩,
   ⟨0x20, [], 0x0, 0x0, 0x0, 0x0, .plain⟩,
   ⟨0x24, [], 0x0, 0xffffffff, 0x0, 0x0, .plain⟩,
   ⟨0x28, [], 0x0, 0x0, 0x0, 0x0, .plain⟩,
   ⟨0x2c, [], 0x0, 0x0, 0x0, 0x0, .plain⟩,
   ⟨0x30, [], 0x0, 0x0, 0x0, 0x0, .custom⟩,
   ⟨0x34, [], 0x0, 0x0, 0x0, 0x0, .plain⟩,
   ⟨0x38, [], 0x0, 0x0, 0x0, 0x0, .tally⟩,
   ⟨0x3c, [], 0x0, 0x0, 0x0, 0x0, .plain⟩,
   ⟨0x1000, [(64, 32)], 0x0, 0x0, 0x0, 0x0, .plain⟩,
   ⟨0x1004, [(64, 32)], 0x0, 0x0, 0x0, 0x0, .plain⟩,
   ⟨0x1008, [(64, 32)], 0x0, 0x0, 0x0, 0x0, .plain⟩,
   ⟨0x100c, [(64, 32)], 0x0, 0x0, 0x3f, 0x0, .plain⟩,
   ⟨0x1010, [(64, 32)], 0x0, 0x0, 0x0, 0x0, .tally⟩,
   ⟨0x1014, [(64, 32)], 0x0, 0x0, 0x0, 0x0, .tally⟩,
   ⟨0x1018, [(64, 32)], 0x0, 0x0, 0x0, 0x0, .plain⟩,
   ⟨0x101c, [(64, 32)], 0x0, 0x0, 0x0, 0x0, .plain⟩]
  ++ [
   ⟨0x1020, [(64, 32)], 0x0, 0x0, 0x0, 0x0, .plain⟩,
   ⟨0x1024, [(64, 32)], 0x0, 0x0, 0x0, 0x0, .maxi⟩,
   ⟨0x1028, [(64, 32)], 0x0, 0xf, 0x0, 0x0, .plain⟩,
   ⟨0x102c, [(64, 32)], 0x0, 0x0, 0xf, 0x0, .plain⟩,
   ⟨0x2000, [(32, 32)], 0x0, 0x0, 0x0, 0x0, .plain⟩,
   ⟨0x2004, [(32, 32)], 0x0, 0x0, 0x0, 0x0, .halves⟩,
   ⟨0x2008, [(32, 32)], 0x0, 0x0, 0x0, 0x0, .halves⟩,
   ⟨0x200c, [(32, 32)], 0x0, 0x80003f03, 0x0, 0x0, .custom⟩,
   ⟨0x2010, [(32, 32)], 0x0, 0xffffffff, 0x0, 0x0, .plain⟩,
   ⟨0x2014, [(32, 32)], 0x0, 0x0, 0x80000000, 0x0, .plain⟩,
   ⟨0x2400, [(32, 32)], 0x0, 0x1, 0x0, 0x0, .custom⟩,
   ⟨0x2404, [(32, 32)], 0x0, 0x0, 0x0, 0x0, .plain⟩,
   ⟨0x2408, [(32, 32)], 0x0, 0x0, 0x0, 0x0, .plain⟩,
   ⟨0x240c, [(32, 32)], 0x0, 0x0, 0x0, 0x0, .tally⟩,
   ⟨0x2410, [(32, 32)], 0x0, 0x0, 0x0, 0x0, .plain⟩]

/-- The register table of ADC. -/
def regRowsADC : List RegRow :=
[
   ⟨0x0, [], 0x0, 0xf, 0x0, 0x0, .plain⟩,
   ⟨0x4, [], 0x0, 0x0, 0x80000ff0, 0x0, .plain⟩,
   ⟨0x8, [], 0x0, 0x0, 0x0, 0x0, .custom⟩,
   ⟨0xc, [], 0x0, 0x0, 0x0, 0x0, .plain⟩,
   ⟨0x10, [], 0x0, 0x0, 0x0, 0x0, .custom⟩,
   ⟨0x14, [], 0x0, 0xff0000, 0xf00, 0x0, .plain⟩,
   ⟨0x1000, [(1024, 4), (4, 4)], 0x0, 0x80000000, 0x0, 0x1ff7f, .plain⟩,
   ⟨0x1010, [(1024, 4)], 0x0, 0x0, 0x0, 0x0, .plain⟩,
   ⟨0x1014, [(1024, 4)], 0x0, 0x0, 0x0, 0x0, .plain⟩,
   ⟨0x1018, [(1024, 4)], 0x0, 0x0, 0x0, 0x0, .plain⟩,
   ⟨0x101c, [(1024, 4)], 0x8, 0x0, 0x0, 0x1f, .plain⟩,
   ⟨0x1020, [(1024, 4)], 0x0, 0x0, 0x0, 0x0, .tally⟩,
   ⟨0x1024, [(1024, 4)], 0x0, 0x0, 0x0, 0x0, .tally⟩,
   ⟨0x1028, [(1024, 4)], 0x0, 0x0, 0x0, 0x0, .tally⟩,
   ⟨0x1100, [(1024, 4), (16, 16)], 0x0, 0x0, 0x0, 0x3f1f07ff, .plain⟩,
   ⟨0x1104, [(1024, 4), (16, 16)], 0x0, 0x0, 0x0, 0x3f3f, .plain⟩,
   ⟨0x1108, [(1024, 4), (16, 16)], 0x3f800000, 0x0, 0x0, 0xffffffff, .plain⟩,
   ⟨0x110c, [(1024, 4), (16, 16)], 0x0, 0x0, 0x0, 0xffffffff, .plain⟩]

/-- The register table of SDF. -/
def regRowsSDF : List RegRow :=
[
   ⟨0x0, [], 0x0, 0x0, 0x0, 0x0, .custom⟩,
   ⟨0x4, [], 0x0, 0x0, 0x80ffffff, 0x0, .plain⟩,
   ⟨0x100, [(32, 8)], 0x0, 0x1, 0x0, 0xfffffe, .plain⟩,
   ⟨0x104, [(32, 8)], 0x0, 0x0, 0x0, 0x1f1fff, .plain⟩,
   ⟨0x108, [(32, 8)], 0x0, 0x0, 0x0, 0xff3f, .plain⟩,
   ⟨0x10c, [(32, 8)], 0x0, 0x0, 0x0, 0x3f1f0580, .plain⟩,
   ⟨0x110, [(32, 8)], 0x0, 0x0, 0x0, 0x3f3f, .plain⟩,
   ⟨0x114, [(32, 8)], 0x3f800000, 0x0, 0x0, 0xffffffff, .plain⟩,
   ⟨0x118, [(32, 8)], 0x0, 0x0, 0x0, 0xffffffff, .plain⟩,
   ⟨0x11c, [(32, 8)], 0x0, 0x0, 0x0, 0x0, .plain⟩]

/-- The register table of CMP. -/
def regRowsCMP : List RegRow :=
[
   ⟨0x0, [], 0x0, 0x0, 0xffff, 0x0, .plain⟩,
   ⟨0x4, [], 0x0, 0x0, 0x80010000, 0x0, .plain⟩,
   ⟨0x8, [], 0x0, 0xffff, 0x0, 0x0, .plain⟩,
   ⟨0xc, [], 0x0, 0x0, 0x0, 0x0, .custom⟩,
   ⟨0x100, [(16, 16)], 0x0, 0x1, 0x0, 0xf3e, .plain⟩,
   ⟨0x104, [(16, 16)], 0x3ff, 0x3ff, 0x0, 0x0, .custom⟩,
   ⟨0x108, [(16, 16)], 0x0, 0x0, 0x0, 0x3ff003f, .plain⟩]

/-- The register table of PWM. -/
def regRowsPWM : List RegRow :=
[
   ⟨0x4, [], 0x0, 0x0, 0x80010000, 0x0, .plain⟩,
   ⟨0x8, [], 0x0, 0x0, 0x0, 0x0, .custom⟩,
   ⟨0xc, [], 0x0, 0x0, 0x0, 0x0, .custom⟩,
   ⟨0x10, [], 0x0, 0x0, 0xfff, 0x0, .custom⟩,
   ⟨0x14, [], 0x0, 0x0, 0x0, 0x0, .plain⟩,
   ⟨0x18, [], 0xa, 0x3f, 0x0, 0x0, .plain⟩,
   ⟨0x1c, [], 0x3, 0xf, 0x0, 0x0, .plain⟩,
   ⟨0x1000, [(256, 12)], 0x0, 0x10000, 0x0, 0xffff, .plain⟩,
   ⟨0x1004, [(256, 12)], 0xffff, 0xffff, 0x0, 0x0, .plain⟩,
   ⟨0x1008, [(256, 12)], 0x0, 0xfffff, 0x0, 0x0, .plain⟩,
   ⟨0x100c, [(256, 12)], 0x0, 0xfffff, 0x0, 0x0, .plain⟩,
   ⟨0x1010, [(256, 12)], 0x0, 0x0, 0x0, 0xffff, .plain⟩,
   ⟨0x1014, [(256, 12)], 0x0, 0x0, 0x0, 0x3ff03ff, .plain⟩,
   ⟨0x1018, [(256, 12)], 0x0, 0x0, 0x0, 0xffffff, .plain⟩,
   ⟨0x101c, [(256, 12)], 0x0, 0x0, 0x0, 0x3f3f3f3f, .plain⟩,
   ⟨0x1020, [(256, 12)], 0x0, 0x0, 0x0, 0xf0f0f0f, .plain⟩,
   ⟨0x1024, [(256, 12)], 0x0, 0x3, 0x0, 0x0, .custom⟩,
   ⟨0x1028, [(256, 12)], 0x0, 0x3, 0x0, 0x0, .plain⟩,
   ⟨0x102c, [(256, 12)], 0x0, 0x0, 0x0, 0x0, .plain⟩,
   ⟨0x1030, [(256, 12)], 0x0, 0x0, 0x0, 0x0, .custom⟩,
   ⟨0x2000, [(32, 24)], 0x0, 0x1, 0x0, 0x3ff007e, .plain⟩,
   ⟨0x2004, [(32, 24)], 0x100a0, 0x0, 0x0, 0xffff1fff, .plain⟩,
   ⟨0x2008, [(32, 24)], 0x0, 0x0, 0x0, 0x0, .plain⟩,
   ⟨0x200c, [(32, 24)], 0x0, 0x0, 0x0, 0x0, .halves⟩]

/-- The register table of CAPQD. -/
def regRowsCAPQD : List RegRow :=
[
   ⟨0x4, [], 0x0, 0x0, 0x80000001, 0x0, .plain⟩,
   ⟨0x1000, [(64, 16)], 0x0, 0x1, 0x0, 0xfffe, .plain⟩,
   ⟨0x1004, [(64, 16)], 0x0, 0x0, 0x0, 0x0, .custom⟩,
   ⟨0x1008, [(64, 16)], 0x0, 0x0, 0x100, 0x0, .plain⟩,
   ⟨0x100c, [(64, 16)], 0x0, 0x0, 0x0, 0x0, .tally⟩,
   ⟨0x1020, [(64, 16), (4, 8)], 0x0, 0x0, 0x0, 0x0, .plain⟩,
   ⟨0x2000, [(128, 4)], 0x0, 0x1, 0x0, 0x3f2ffe, .plain⟩,
   ⟨0x2004, [(128, 4)], 0x1000, 0x0, 0x0, 0xffffff, .plain⟩,
   ⟨0x2008, [(128, 4)], 0x0, 0x0, 0x0, 0xffffffff, .plain⟩,
   ⟨0x200c, [(128, 4)], 0x186a0, 0x0, 0x0, 0xfffff, .plain⟩,
   ⟨0x2010, [(128, 4)], 0x0, 0x0, 0x0, 0x3f1f7f, .plain⟩,
   ⟨0x2014, [(128, 4)], 0x0, 0xffffffff, 0x0, 0x0, .plain⟩,
   ⟨0x2018, [(128, 4)], 0x0, 0x0, 0x0, 0x0, .plain⟩,
   ⟨0x201c, [(128, 4)], 0x0, 0x0, 0x0, 0x0, .plain⟩,
   ⟨0x2020, [(128, 4)], 0x0, 0x0, 0x0, 0x0, .plain⟩,
   ⟨0x2024, [(128, 4)], 0x0, 0x0, 0x1f00, 0x0, .plain⟩,
   ⟨0x2028, [(128, 4)], 0x0, 0x0, 0x0, 0x0, .tally⟩,
   ⟨0x202c, [(128, 4)], 0x0, 0xf, 0x0, 0x0, .plain⟩]

/-- The register table of MBM. -/
def regRowsMBM : List RegRow :=
[
   ⟨0x0, [], 0x5a0003, 0xff000f, 0x0, 0x0, .custom⟩,
   ⟨0x4, [], 0x0, 0x0, 0x80000100, 0x0, .plain⟩,
   ⟨0x8, [], 0x0, 0x0, 0x0, 0x0, .custom⟩,
   ⟨0xc, [], 0x200, 0x0, 0x0, 0x0, .plain⟩,
   ⟨0x10, [], 0x0, 0x70f, 0x0, 0x0, .plain⟩,
   ⟨0x14, [], 0x0, 0x0, 0x70f, 0x0, .plain⟩,
   ⟨0x100, [(64, 4)], 0x0, 0x0, 0x0, 0x0, .plain⟩,
   ⟨0x104, [(64, 4)], 0x0, 0x0, 0x0, 0xffffffe0, .plain⟩,
   ⟨0x108, [(64, 4)], 0x0, 0x0, 0x0, 0x0, .plain⟩,
   ⟨0x10c, [(64, 4)], 0x0, 0x0, 0x0, 0x0, .plain⟩,
   ⟨0x110, [(64, 4)], 0x0, 0x0, 0x0, 0x0, .plain⟩,
   ⟨0x114, [(64, 4)], 0x0, 0x0, 0x0, 0xffffff, .plain⟩,
   ⟨0x118, [(64, 4)], 0x0, 0x0, 0x0, 0xffff, .plain⟩,
   ⟨0x11c, [(64, 4)], 0x64, 0x0, 0x0, 0xfff, .plain⟩,
   ⟨0x120, [(64, 4)], 0x0, 0x0, 0x0, 0x0, .plain⟩,
   ⟨0x124, [(64, 4)], 0x0, 0x0, 0x0, 0x0, .plain⟩,
   ⟨0x128, [(64, 4)], 0x0, 0x0, 0x0, 0x0, .tally⟩,
   ⟨0x12c, [(64, 4)], 0x0, 0x0, 0x0, 0x0, .tally⟩,
   ⟨0x130, [(64, 4)], 0x0, 0x0, 0x0, 0x0, .tally⟩,
   ⟨0x134, [(64, 4)], 0x0, 0x0, 0x0, 0x0, .tally⟩,
   ⟨0x138, [(64, 4)], 0x0, 0x0, 0x0, 0x0, .tally⟩,
   ⟨0x1000, [(1024, 4), (4, 256)], 0x0, 0x0, 0x0, 0x0, .plain⟩,
   ⟨0x2000, [(1024, 4), (4, 256)], 0x0, 0x0, 0x0, 0x0, .halves⟩,
   ⟨0x4000, [(4096, 4), (16, 256), (4, 4)], 0x0, 0x0, 0x0, 0x0, .plain⟩]

/-- The register table of TW. -/
def regRowsTW : List RegRow :=
[
   ⟨0x0, [], 0xc20a0003, 0xff3f000f, 0x0, 0x0, .custom⟩,
   ⟨0x4, [], 0x0, 0x0, 0x80000001, 0x0, .plain⟩,
   ⟨0x1000, [(256, 8)], 0x0, 0x1, 0x0, 0x6, .plain⟩,
   ⟨0x1004, [(256, 8)], 0x44, 0xf7, 0x0, 0x0, .plain⟩,
   ⟨0x1008, [(256, 8)], 0x3e808, 0xfffffff, 0x0, 0x0, .plain⟩,
   ⟨0x100c, [(256, 8)], 0x1f43219, 0x0, 0x0, 0xffffff7f, .plain⟩,
   ⟨0x1010, [(256, 8)], 0x3e8, 0xffff, 0x0, 0x0, .plain⟩,
   ⟨0x1014, [(256, 8)], 0x0, 0x0, 0x0, 0x0, .plain⟩,
   ⟨0x1018, [(256, 8)], 0x0, 0x0, 0x0, 0x0, .tally⟩,
   ⟨0x101c, [(256, 8)], 0x0, 0x0, 0x0, 0x0, .halves⟩,
   ⟨0x1020, [(256, 8)], 0x0, 0x0, 0x0, 0x0, .plain⟩,
   ⟨0x1024, [(256, 8)], 0x0, 0x0, 0x0, 0x0, .tally⟩,
   ⟨0x1028, [(256, 8)], 0x0, 0x3f, 0x0, 0x0, .plain⟩,
   ⟨0x102c, [(256, 8)], 0x0, 0x0, 0x3f, 0x0, .plain⟩,
   ⟨0x1040, [(256, 8)], 0x0, 0x0, 0x0, 0x0, .custom⟩,
   ⟨0x1044, [(256, 8), (4, 4)], 0x0, 0xffffffff, 0x0, 0x0, .plain⟩,
   ⟨0x1054, [(256, 8)], 0x0, 0x0, 0x0, 0x0, .plain⟩]

/-- The register table of DS. -/
def regRowsDS : List RegRow :=
[
   ⟨0x4, [], 0x0, 0x0, 0x80000001, 0x0, .plain⟩,
   ⟨0x1000, [(512, 4)], 0x10000, 0x1, 0x0, 0x1ff3fe, .plain⟩,
   ⟨0x1004, [(512, 4)], 0x0, 0x0, 0x0, 0x3fff, .plain⟩,
   ⟨0x1008, [(512, 4)], 0x0, 0x0, 0x0, 0x0, .plain⟩,
   ⟨0x100c, [(512, 4)], 0x0, 0x0, 0x0, 0x0, .tally⟩,
   ⟨0x1010, [(512, 4), (4, 4)], 0x3c000, 0x0, 0x0, 0x1f7ffff, .plain⟩,
   ⟨0x1020, [], 0x603, 0x0, 0x0, 0x1ffff, .plain⟩,
   ⟨0x1024, [(512, 4)], 0x0, 0xf, 0x0, 0x0, .plain⟩,
   ⟨0x1028, [(512, 4)], 0x0, 0x0, 0xf, 0x0, .plain⟩,
   ⟨0x102c, [(512, 4)], 0x0, 0x0, 0x0, 0x0, .halves⟩,
   ⟨0x1030, [(512, 4)], 0x0, 0x0, 0x0, 0x0, .plain⟩,
   ⟨0x1034, [(512, 4)], 0x0, 0x0, 0x0, 0x0, .plain⟩,
   ⟨0x1038, [(512, 4)], 0x0, 0x0, 0x0, 0x0, .custom⟩,
   ⟨0x103c, [(512, 4)], 0xffffffff, 0xffffffff, 0x0, 0x0, .plain⟩,
   ⟨0x1040, [(512, 4)], 0x0, 0x0, 0x0, 0x0, .custom⟩,
   ⟨0x1044, [(512, 4)], 0x0, 0xff, 0x0, 0x0, .plain⟩,
   ⟨0x1048, [(512, 4)], 0x0, 0xffffffff, 0x0, 0x0, .plain⟩,
   ⟨0x104c, [(512, 4)], 0x0, 0x0, 0x0, 0x0, .plain⟩,
   ⟨0x1080, [(512, 4), (4, 16)], 0x0, 0xffffffff, 0x0, 0x0, .plain⟩]

/-- The register table of SE. -/
def regRowsSE : List RegRow :=
[
   ⟨0x4, [], 0x0, 0x0, 0x80000001, 0x0, .plain⟩,
   ⟨0x8, [], 0x0, 0x0, 0x0, 0x0, .custom⟩,
   ⟨0xc, [], 0x0, 0x0, 0x0, 0x0, .custom⟩,
   ⟨0x10, [], 0x0, 0x0, 0xffffffff, 0x0, .plain⟩,
   ⟨0x14, [], 0x0, 0x0, 0x0, 0x0, .plain⟩,
   ⟨0x1000, [(1024, 8)], 0x0, 0x1, 0x0, 0x0, .custom⟩,
   ⟨0x1004, [(1024, 8)], 0x0, 0x0, 0x0, 0x0, .plain⟩,
   ⟨0x1008, [(1024, 8)], 0x0, 0x0, 0x0, 0xbf3f3f, .plain⟩,
   ⟨0x100c, [(1024, 8)], 0x0, 0x0, 0x0, 0xbfbf3f, .plain⟩,
   ⟨0x1010, [(1024, 8)], 0x0, 0x0, 0x0, 0x1ffffff, .plain⟩,
   ⟨0x1014, [(1024, 8)], 0x0, 0x0, 0x0, 0xfff071f, .plain⟩,
   ⟨0x1018, [(1024, 8)], 0x0, 0x0, 0x0, 0xffff0003, .plain⟩,
   ⟨0x101c, [(1024, 8)], 0x0, 0x0, 0x0, 0x1fffffff, .plain⟩,
   ⟨0x1020, [(1024, 8)], 0x0, 0x3f3f, 0x0, 0x0, .plain⟩,
   ⟨0x1024, [(1024, 8)], 0x0, 0x0, 0x0, 0x0, .custom⟩,
   ⟨0x1028, [(1024, 8)], 0x0, 0xf, 0x0, 0x0, .plain⟩,
   ⟨0x102c, [(1024, 8)], 0x0, 0x0, 0xf, 0x0, .plain⟩,
   ⟨0x1030, [(1024, 8)], 0x0, 0x0, 0x0, 0x0, .tally⟩,
   ⟨0x1034, [(1024, 8)], 0x0, 0x0, 0x0, 0x0, .plain⟩,
   ⟨0x1038, [(1024, 8)], 0x0, 0x0, 0x0, 0x0, .plain⟩,
   ⟨0x1040, [(1024, 8), (4, 8)], 0x0, 0x0, 0x0, 0x0, .plain⟩,
   ⟨0x1060, [(1024, 8), (4, 8)], 0x0, 0x0, 0x0, 0x0, .plain⟩,
   ⟨0x1080, [(1024, 8), (4, 32)], 0x0, 0x0, 0x0, 0x0, .custom⟩,
   ⟨0x1100, [(1024, 8), (4, 64)], 0x0, 0x0, 0x0, 0xffffffff, .plain⟩]
  ++ [
   ⟨0x1200, [(1024, 8), (64, 8), (4, 16)], 0x0, 0x0, 0x0, 0x0, .plain⟩]

/-- The register table of HIF. -/
def regRowsHIF : List RegRow :=
[
   ⟨0x0, [], 0x0, 0x0, 0x0, 0x0, .plain⟩,
   ⟨0x4, [], 0x0, 0x0, 0x800000ff, 0x0, .plain⟩,
   ⟨0xc, [], 0x0, 0x3f, 0x0, 0x0, .plain⟩,
   ⟨0x10, [], 0x10000, 0x3fff0001, 0x0, 0x0, .plain⟩,
   ⟨0x14, [], 0x0, 0x0, 0x0, 0x0, .custom⟩,
   ⟨0x18, [], 0xaaaaaaaa, 0xffffffff, 0x0, 0x0, .plain⟩,
   ⟨0x1c, [], 0xaaaaaaaa, 0xffffffff, 0x0, 0x0, .plain⟩,
   ⟨0x20, [], 0x0, 0x0, 0xffffffff, 0x0, .plain⟩,
   ⟨0x24, [], 0x0, 0x0, 0x0, 0x0, .tally⟩,
   ⟨0x28, [], 0x0, 0x0, 0x0, 0x0, .tally⟩,
   ⟨0x2c, [], 0x0, 0x0, 0x0, 0x0, .tally⟩,
   ⟨0x30, [], 0x0, 0x0, 0x0, 0x0, .tally⟩,
   ⟨0x34, [], 0x0, 0x3f, 0x0, 0x0, .custom⟩,
   ⟨0x40, [], 0x0, 0xf0000000, 0x0, 0x0, .plain⟩,
   ⟨0x44, [], 0x0, 0xffffffff, 0x0, 0x0, .plain⟩,
   ⟨0x80, [], 0x0, 0x0, 0x0, 0xfffff000, .plain⟩,
   ⟨0x84, [], 0x0, 0x0, 0x0, 0xffffffff, .plain⟩,
   ⟨0x88, [], 0x0, 0x0, 0x0, 0x0, .custom⟩,
   ⟨0x8c, [], 0x0, 0x0, 0x0, 0x0, .plain⟩,
   ⟨0x90, [], 0x0, 0x0, 0x0, 0xfffff000, .plain⟩,
   ⟨0x94, [], 0x0, 0x0, 0x0, 0xffffffff, .plain⟩,
   ⟨0x98, [], 0x0, 0x0, 0x0, 0x0, .custom⟩,
   ⟨0x9c, [], 0x0, 0x0, 0x0, 0x0, .plain⟩,
   ⟨0xa0, [], 0x0, 0x0, 0x0, 0xfffff000, .plain⟩]
  ++ [
   ⟨0xa4, [], 0x0, 0x0, 0x0, 0xffffffff, .plain⟩,
   ⟨0xa8, [], 0x0, 0x0, 0x0, 0x0, .custom⟩,
   ⟨0xac, [], 0x0, 0x0, 0x0, 0x0, .plain⟩,
   ⟨0x100, [(32, 8)], 0x0, 0x0, 0x0, 0xfffff000, .plain⟩,
   ⟨0x104, [(32, 8)], 0x0, 0x0, 0x0, 0xffffffff, .plain⟩,
   ⟨0x108, [(32, 8)], 0x0, 0x0, 0x0, 0x80000fff, .custom⟩,
   ⟨0x10c, [(32, 8)], 0x0, 0x0, 0x0, 0x0, .plain⟩,
   ⟨0x110, [(32, 8)], 0x1, 0x0, 0x0, 0x0, .plain⟩,
   ⟨0x114, [(32, 8)], 0x0, 0x0, 0x0, 0x0, .tally⟩,
   ⟨0x118, [(32, 8)], 0x0, 0x1ffffc, 0x0, 0x0, .plain⟩,
   ⟨0x11c, [(32, 8)], 0x0, 0x0, 0x0, 0x0, .custom⟩,
   ⟨0x200, [(4, 10)], 0x1, 0xffffff, 0x0, 0x0, .plain⟩,
   ⟨0x400, [(8, 32)], 0x0, 0xffffffff, 0x0, 0x0, .plain⟩,
   ⟨0x404, [(8, 32)], 0x0, 0xffffffff, 0x0, 0x0, .plain⟩,
   ⟨0x1000, [(8, 11)], 0x0, 0x0, 0x0, 0x0, .custom⟩,
   ⟨0x2000, [(16, 16)], 0x0, 0xfffffffc, 0x0, 0x0, .plain⟩,
   ⟨0x2004, [(16, 16)], 0x0, 0xffffffff, 0x0, 0x0, .plain⟩,
   ⟨0x2008, [(16, 16)], 0x0, 0xffffffff, 0x0, 0x0, .plain⟩,
   ⟨0x200c, [(16, 16)], 0x1, 0x0, 0x0, 0x0, .custom⟩,
   ⟨0x2100, [], 0x0, 0x0, 0x0, 0x0, .plain⟩]

/-- The register table of DBG. -/
def regRowsDBG : List RegRow :=
[
   ⟨0x0, [], 0x0, 0xff, 0x0, 0x0, .plain⟩,
   ⟨0x4, [], 0x0, 0x0, 0x80000020, 0x0, .plain⟩,
   ⟨0x8, [], 0x0, 0x1f, 0x0, 0x0, .custom⟩,
   ⟨0xc, [], 0x0, 0x0, 0x0, 0x0, .custom⟩,
   ⟨0x10, [], 0xf, 0xf, 0x0, 0x0, .plain⟩,
   ⟨0x14, [], 0x0, 0x0, 0x0, 0x0, .plain⟩,
   ⟨0x100, [(256, 4)], 0x0, 0x0, 0x0, 0x1ffffff, .plain⟩,
   ⟨0x104, [(256, 4)], 0x0, 0x0, 0x0, 0x1f, .plain⟩,
   ⟨0x108, [(256, 4)], 0x0, 0x0, 0x0, 0xffff, .plain⟩,
   ⟨0x10c, [(256, 4)], 0x0, 0x0, 0x0, 0x1f, .plain⟩,
   ⟨0x110, [(256, 4)], 0x0, 0x0, 0x0, 0xffffff, .plain⟩,
   ⟨0x120, [(256, 4), (8, 4)], 0x0, 0x80ffffff, 0x0, 0x0, .plain⟩,
   ⟨0x124, [(256, 4), (8, 4)], 0x0, 0x13f, 0x0, 0x0, .plain⟩,
   ⟨0x140, [(256, 4), (8, 2)], 0x0, 0xb0ffffff, 0x0, 0x0, .plain⟩,
   ⟨0x144, [(256, 4), (8, 2)], 0x0, 0xffffff, 0x0, 0x0, .plain⟩]

/-- The register table of the block with index `b` in the register space. -/
def regRowsOf (b : Nat) : List RegRow :=
  match b with
  | 0 => regRowsSYS
  | 1 => regRowsSUP
  | 2 => regRowsPPW
  | 3 => regRowsTMB
  | 4 => regRowsICU
  | 5 => regRowsXLT
  | 6 => regRowsPOOL
  | 7 => regRowsKLE
  | 8 => regRowsADC
  | 9 => regRowsSDF
  | 10 => regRowsCMP
  | 11 => regRowsPWM
  | 12 => regRowsCAPQD
  | 13 => regRowsMBM
  | 14 => regRowsTW
  | 15 => regRowsDS
  | 16 => regRowsSE
  | 17 => regRowsHIF
  | 18 => regRowsDBG
  | _ => []

/-- Does an offset below the row's first word fall on a register of an array with these dimensions? -/
def dimsHit : List (Nat × Nat) → Nat → Bool
  | [], o => o == 0
  | (stride, count) :: ds, o => decide (o / stride < count) && dimsHit ds (o % stride)

/-- The row that lists the register at byte offset `o` of a block. -/
def findRow (o : Nat) : List RegRow → Option RegRow
  | [] => none
  | r :: rs => if decide (r.off ≤ o) && dimsHit r.dims (o - r.off) then some r else findRow o rs

/-- First address of the register blocks (Table 8-1). -/
abbrev regSpaceBase : Nat := 0x10000000
/-- One past the last address of the register blocks. -/
abbrev regSpaceEnd : Nat := 0x10130000

/-- The table row of the register at a physical address; none where no register reference lists it (R12). -/
def regRow (a : Nat) : Option RegRow :=
  if decide (regSpaceBase ≤ a) && decide (a < regSpaceEnd) && a % 4 == 0 then
    findRow ((a - regSpaceBase) % 0x10000) (regRowsOf ((a - regSpaceBase) / 0x10000))
  else none

/-- The index of the block whose registers hold a physical address. -/
def regBlock (a : Nat) : Nat := (a - regSpaceBase) / 0x10000

/-- The reset value of the register at a physical address, as its register table gives it; zero where none is listed. -/
def regReset (a : Nat) : BitVec 32 :=
  match regRow a with
  | some r => BitVec.ofNat 32 r.reset
  | none => 0

end Sys2Proof.Machine
end

