-- ==== Sys2Proof/Machine/State.lean ====
section
/-!
DEFINITION. The state of the SWL-4816. A register is the one home of what it shows; every other piece of state stands in
the structure of its unit. Arrays are sparse tables whose default is the reset value. Docstrings cite the rule that gives
the state and say its value after reset.
-/
namespace Sys2Proof.Machine

/-- Why the model stops without an answer of the device. -/
inductive Fault where
  /-- Raised by no meaning: every command of the table has an effect or is discarded as the spec says. Safe. -/
  | none
  deriving DecidableEq, Repr

/-- Why a command has no meaning in the model. -/
inductive Refusal where
  /-- Raised by an arm of `exec` whose command has no meaning yet. Safe: the run ends there. -/
  | notModelled (mnemonic : String)
  deriving DecidableEq, Repr

/-! ### Clocks, power and reset (chapters 2 and 3) -/

/-- Whether the part is held in a reset: power-on (R111), device (R113), or released. After reset: `run`. -/
inductive Phase where
  | porHold
  | devHold
  | run
  deriving DecidableEq, Repr, Inhabited

/-- The PLL (R38, R93): off, waiting for the crystal's first edges, in its n-th attempt to lock, in lock, or out of lock after
a crystal stop that no monitor saw (R91). -/
inductive Pll where
  | off
  | waitXtal
  | starting (attempt : Nat)
  | locked
  | reacquire
  deriving DecidableEq, Repr, Inhabited

/-- The commanded transition in progress (R75, R86): to RUN, or to OFF with the cause code that its record carries. -/
inductive Trans where
  | none
  | toRun
  | toOff (cause : Nat)
  | proofStandby
  deriving DecidableEq, Repr, Inhabited

/-- The last-gasp writer (R64, R67, R69): idle, latched words waiting to be written, or a record complete with the part
held (after a collapse). -/
inductive LastGasp where
  | idle
  | latched (words : List Word) (hold : Bool)
  | held
  deriving DecidableEq, Repr, Inhabited

/-- State of the always-on and root clock domains beside the registers. -/
structure Clk where
  /-- The 64-bit timebase (R28, R47); reset 0. -/
  tb : Word64 := 0
  /-- The 22 TBHI latches (R45), host 0, core n 1 + n, debug 5, DMA c 6 + c; reset 0. -/
  tbLatch : Tab Word := []
  /-- Reset phase (R111, R113, R114). -/
  phase : Phase := .run
  /-- VDDIO_D has met its release condition since the last power-on reset (R965); reset true. -/
  vddioOk : Bool := true
  /-- The PLL (R38, R93); after the release of reset it waits for the crystal's first edges. -/
  pll : Pll := .waitXtal
  /-- The clock-loss monitor is armed (R1004); reset false. -/
  armed : Bool := false
  /-- Root loss is declared and the crystal's edges have not been seen again (R43, R49); reset false. -/
  rootLost : Bool := false
  /-- The always-on domain runs on the crystal (R1006); reset false. -/
  onCrystal : Bool := false
  /-- The crystal has stopped while the always-on domain runs on it: every domain stands (R91); reset false. -/
  stopped : Bool := false
  /-- Memory initialisation has not ended since the last reset (R114); reset true. -/
  memInit : Bool := true
  /-- The commanded transition in progress (R75). -/
  trans : Trans := .none
  /-- The last-gasp writer. -/
  lg : LastGasp := .idle
  /-- A device reset has been started and takes hold next (R113); reset false. -/
  resetReq : Bool := false
  /-- RESET_N has asked for that reset: it alone leaves OFF (R78); reset false. -/
  pinReq : Bool := false
  /-- The CLKGATE bits that are applied in TRIM (R79); reset 0. -/
  gated : Word := 0
  /-- CORE cycles since the last TICK, and TICKs since the last SLOW (R35), modulo 400 and 1000; reset 0. -/
  tickPhase : Nat := 0
  slowPhase : Nat := 0
  /-- SLOW cycles since reset, by which intervals in SLOW cycles are counted (R35, R1000); reset 0. -/
  slow : Nat := 0
  /-- The stops of the root-derived clocks that have ended, oldest first: the timebase at the stop and at the release of the
  dividers, by which every interval in these clocks is lengthened (R1000); reset none. -/
  stops : List (Nat × Nat) := []
  /-- The timebase at the last stop, and whether a root loss has been declared since (R786, R913, R1000); reset 0, false. -/
  stopTb : Nat := 0
  wasLost : Bool := false
  /-- VDDIO_D takes its 1.8 V bank setting (R964, R965); reset false. -/
  bank18 : Bool := false
  deriving DecidableEq, Repr, Inhabited

/-- One rail condition of Table 2-2 (R51, R1009): consecutive samples in which it held, consecutive samples in which it
failed, and whether it is reported. -/
structure CondRun where
  held : Nat := 0
  failed : Nat := 0
  reported : Bool := false
  deriving DecidableEq, Repr, Inhabited

/-- The sequencer (R54 to R60): idle, waiting for FAULT_N to rise, enabling a position, or shutting down the rails left
in the list, each with the ORDER it had at the start; `pos` is the position being disabled. -/
inductive Seq where
  | idle
  | waitFaultn
  | up (pos : Nat)
  | down (rails : List (Nat × Nat)) (pos : Nat)
  deriving DecidableEq, Repr, Inhabited

/-- State of the supervisor beside its registers. -/
structure Sup where
  /-- RAILn_EN, bit n (R55, R104); reset all deasserted. -/
  railEn : Nat := 0
  /-- Rails whose power-good delay has expired since their enable (Table 2-2), bit n; reset 0. -/
  pgExpired : Nat := 0
  /-- Rails that have shown power good since their enable (R55, R56), bit n, and the TICK samples since then; reset 0. -/
  pgSeen : Nat := 0
  pgAge : Tab Nat := []
  /-- Rails of the position being shut down that have read below THOFF.OFF since their disable (R58), bit n; reset 0. -/
  offSeen : Nat := 0
  /-- Condition runs, key 5 × rail + condition, and 40 + rail for the condition Off; reset all zero. -/
  cond : Tab CondRun := []
  /-- The sequencer owns the rail registers: from SEQCMD to SEQ_DONE, SEQ_FAIL or the end of shutdown (R84); reset false. -/
  seqOwns : Bool := false
  seq : Seq := .idle
  /-- SEQCMD UP has not been written since reset: the part holds FAULT_N low (R61); reset true. -/
  faultnHold : Bool := true
  /-- Another participant holds FAULT_N low (R61, R62), as last seen; reset false. -/
  faultnLow : Bool := false
  deriving DecidableEq, Repr, Inhabited

/-! ### Boot (chapter 3) -/

/-- What the boot ROM reads or does next (R133, R149). -/
inductive BootStage where
  | idle
  | header
  | table
  | check
  | sect (i : Nat)
  | done
  deriving DecidableEq, Repr, Inhabited

/-- State of the boot ROM beside SYS.BOOTSTAT. -/
structure Boot where
  stage : BootStage := .idle
  /-- The item in hand has failed once (R149). -/
  failedOnce : Bool := false
  /-- A force is in progress (R134). -/
  forcing : Bool := false
  /-- The copy in hand failed or was malformed; reset false. -/
  bad : Bool := false
  /-- Header words read. -/
  hdr : List Word := []
  /-- Section table and tested-combination words read. -/
  tbl : List Word := []
  /-- Tsuvo 0 waits in the boot ROM (R133, R256). -/
  waits : Bool := false
  deriving DecidableEq, Repr, Inhabited

/-! ### Host interface (chapters 4 and 5) -/

/-- An event entry waiting for the event ring (Table 4-8). -/
structure Event where
  code : Nat
  src : Nat
  data : Word
  tb : Word64
  deriving DecidableEq, Repr, Inhabited

/-- A completion entry (Table 4-7), phase apart. -/
structure Cpl where
  status : Nat
  opcode : Nat
  tag : Nat
  res0 : Word
  res1 : Word
  cidx : Nat
  /-- The entry counts towards vector 0 (NOIRQ clear, R181). -/
  irq : Bool
  deriving DecidableEq, Repr, Inhabited

/-- What leaves the part on the link, in the order of the one posted queue (R206, R207), and what leaves on its pins and
buses where the state does not hold it. -/
inductive Out where
  /-- A write request to host memory. -/
  | write (addr : Word64) (words : List Word)
  /-- An outbound-window write of bytes. -/
  | writeBytes (addr : Word64) (bytes : List Byte)
  /-- A read request to host memory. -/
  | read (addr : Word64) (bytes : Nat)
  /-- An interrupt message of a vector (R202 to R205). -/
  | message (vector : Nat) (addr : Word64) (data : Word)
  /-- An Unsupported Request answer (R155, R157, R1012). -/
  | unsupported
  /-- A read of the flash on DS0 by the boot ROM or through its window: command, flash address and its width in bits, dummy clocks, length in bytes
  (Table 3-4, R120). -/
  | flashRead (cmd : Byte) (addr addrBits dummies bytes : Nat)
  deriving DecidableEq, Repr, Inhabited

/-- What the last read answered its requester. -/
inductive Reply where
  | none
  | word (w : Word)
  /-- A read of several words: the bytes of a flash-window frame (R845). -/
  | bytes (bs : List Byte)
  /-- A completion with the EP bit set (R169). -/
  | poisoned (w : Word)
  | unsupported
  | busError (w : Word)
  deriving DecidableEq, Repr, Inhabited

/-- The read of a descriptor (R183, R236): none, in flight for an index in its first or second attempt, or failed once and
waiting until the device may issue requests (R157, R230). -/
inductive Fetch where
  | none
  | reading (idx : Nat) (second : Bool)
  | again (idx : Nat)
  deriving DecidableEq, Repr, Inhabited

/-- The running command (R183): its eight words, ring index, D1 of its doorbell, and how far it is. -/
structure Cmd where
  words : List Word
  cidx : Nat
  d1 : Word64
  /-- The command has started its effect; until then its own row of the table is next. -/
  started : Bool := false
  /-- Step of a command with several host reads or waits. -/
  stage : Nat := 0
  /-- The host read in hand has failed once (R286). -/
  failedOnce : Bool := false
  /-- Words read so far. -/
  buf : List Word := []
  aux : Nat := 0
  aux2 : Nat := 0
  /-- The item of host memory in hand: its address, its length in words (0 for none), and the words of it that have come. -/
  rdAddr : Word64 := 0
  rdLen : Nat := 0
  rdGot : List Word := []
  /-- The words of the one read request that is in hand, no larger than Table 4-1 allows, and whether it has been issued
  (R246, R286). -/
  rdCh : Nat := 0
  rdOut : Bool := false
  /-- A function-level reset came meanwhile: no completion is written (R144). -/
  mute : Bool := false
  /-- The command ring has been enabled afresh meanwhile: its consumer index is not this command's (R1016). -/
  old : Bool := false
  deriving DecidableEq, Repr, Inhabited

/-- A firmware record post (R201): body address and length in words. -/
structure Post where
  addr : Nat
  len : Nat
  deriving DecidableEq, Repr, Inhabited

/-- State of the host interface beside its registers. -/
structure Hif where
  /-- Configuration space by dword (R156), default `cfgReset`. -/
  cfg : Tab Word := []
  /-- PERST_N is low (R1011); reset false. -/
  perstLow : Bool := false
  /-- Link training has started and not ended (R1011); reset false. -/
  training : Bool := false
  /-- PHY supplies are valid (R972); reset true. -/
  phyOk : Bool := true
  /-- Timebase at the doorbell that announced each command-ring index (R211). -/
  d1 : Tab Word64 := []
  fetch : Fetch := .none
  cmd : Option Cmd := none
  /-- DEVRESET has run: nothing more is fetched (R254). -/
  fetchOff : Bool := false
  /-- Fetching stopped after a failed fetch and waits for a doorbell once CMDSTOP is cleared (R238); reset false. -/
  needDb : Bool := false
  /-- PHASE of the present pass of the completion and event rings (R187); reset 1. -/
  cplPhase : Bool := true
  evPhase : Bool := true
  /-- The event hold (R191); reset empty. -/
  evHold : List Event := []
  /-- Events discarded since the last lost-events event (R192); reset 0. -/
  evLost : Nat := 0
  /-- Completions held while they cannot be written (R228, R230, R279). -/
  cplHeld : List Cpl := []
  /-- Entries counted since the last message, per vector 0–9 (R204). -/
  vcnt : Tab Nat := []
  /-- The last value written to each doorbell in STANDBY (R81). -/
  kept : Tab (Option Word) := []
  /-- Pending record posts per ring (R201). -/
  posts : Tab (Option Post) := []
  /-- MOVED of each record ring before its last overwrite (R14, R197), bit k; reset 0. -/
  movedWas : Nat := 0
  /-- Host loss is declared and has not ended (R212, R219). -/
  hostLost : Bool := false
  /-- A heartbeat timeout has been declared and no heartbeat has arrived since (R219); reset false. -/
  hbOut : Bool := false
  /-- A memory proof runs: the memories' mask (R269), 0 for none; reset 0. -/
  proof : Nat := 0
  deriving DecidableEq, Repr, Inhabited

/-! ### The Tsuvo cores (chapters 6 to 8) -/

/-- The MESI state of a D-cache line (Table 8-8). -/
inductive Mesi where
  | i | s | e | m
  deriving DecidableEq, Repr, Inhabited

/-- A D-cache line of 32 bytes: its state, its eight words, and a mask of words marked by an uncorrectable error
(Table 8-11). Reset: I (R466). -/
structure Line where
  st : Mesi := .i
  data : List Word := []
  bad : Nat := 0
  deriving DecidableEq, Repr, Inhabited

/-- A TLB entry (R411, Table 8-3). -/
structure TlbEntry where
  bank : Nat
  page : Nat
  asid : Nat
  w : Bool
  x : Bool
  c : Bool
  d : Bool
  g : Bool
  p : Bool
  /-- Physical address bits 31:12. -/
  frame : Nat
  deriving DecidableEq, Repr, Inhabited

/-- An operation of the multiplier or accumulator in flight (R316): the product for MH:ML, or the value that MA takes and
whether the sum wraps (R322). -/
inductive MulOp where
  | product (p : Word)
  | ma (v : BitVec 40) (wraps : Bool)
  deriving DecidableEq, Repr, Inhabited

/-- A word on its way into a pool queue: queue, TAG and DATA (R473, R488). -/
structure PoolWord where
  q : Nat
  tag : Nat
  data : Half
  deriving DecidableEq, Repr, Inhabited

/-- A store in the write buffer (R346): its virtual and physical address, its bytes, and whether it goes through the
D-cache. -/
structure StoreEnt where
  va : Nat
  pa : Nat
  bytes : List Byte
  cached : Bool
  deriving DecidableEq, Repr, Inhabited

/-- An entry of the write buffer: a store, or a queue push (R346). -/
inductive WbufEnt where
  | store (e : StoreEnt)
  | push (w : PoolWord)
  deriving DecidableEq, Repr, Inhabited

/-- What a core waits for (R352, R362, R374): nothing, an interrupt (WAIT), the reply of a pop on a queue (QPOP), or its queue
pushes (FENCE, with the position of the FENCE). -/
inductive CoreWait where
  | none
  | wait
  | qpop (q : Nat)
  | fence (pc : Half) (slot : Bool)
  deriving DecidableEq, Repr, Inhabited

/-- The 2-word chain buffer (R368): the source, the virtual address of its vector slot, and the two words fetched from it. -/
structure Chain where
  src : Nat
  va : Nat
  words : Word
  deriving DecidableEq, Repr, Inhabited

/-- One Tsuvo core. Reset values are those of Table 6-10 and R108, R342. -/
structure Core where
  /-- The core executes: it has been started and is not in core reset. -/
  started : Bool := false
  /-- The steps of a core reset have begun and not ended (R107); reset false. -/
  resetting : Bool := false
  /-- Data-stack entries in registers, the top first, at most 8 (R292). -/
  dstk : List Half := []
  /-- Pending marks of the data-stack entries, the top first (an entry without one is not pending), and the CORE cycles until
  their values arrive (R311, R348). -/
  marks : List Bool := []
  markT : Nat := 0
  /-- Return-stack entries in registers, the top first, at most 16 of 24 bits (R292). -/
  rstk : List (BitVec 24) := []
  pc : Half := 0
  /-- The second operation of the pair at `pc` is next. -/
  slot : Bool := false
  /-- STATUS without DBUSY, which shows a division in flight (Table 6-8). -/
  status : Half := 0x0100
  cbr : Byte := 0
  dbr : Byte := 0
  sbr : Byte := 0
  dsp : Half := 0
  dstop : Half := 0
  dslim : Half := 0
  rsp : Half := 0
  rstop : Half := 0
  rslim : Half := 0
  ml : Half := 0
  mh : Half := 0
  ma : BitVec 40 := 0
  dq : Half := 0
  dm : Half := 0
  asid : BitVec 6 := 0
  epcl : Half := 0
  epch : Half := 0
  cause : Half := 0
  fal : Half := 0
  fah : Half := 0
  vbrl : Half := 0
  vbrh : Half := 0
  /-- Multiplier and accumulator operations in flight, the oldest first, with the CORE cycles to their landing (R316,
  R318). -/
  mulq : List (Nat × MulOp) := []
  /-- The division in flight: the CORE cycles to its landing, its quotient and its remainder (R319). -/
  div : Option (Nat × Half × Half) := none
  /-- The write buffer, the oldest entry first, at most 4 (R346). -/
  wbuf : List WbufEnt := []
  /-- The first store that failed and has not been entered as WBUS_ASYNC: virtual and physical address (R350). -/
  wbe : Option (Nat × Nat) := none
  waiting : CoreWait := .none
  /-- An interrupt has been entered and its handler's first instruction has not issued (R359, R370). -/
  inEntry : Bool := false
  /-- The chain buffer (R368). -/
  chain : Option Chain := none
  /-- Sources of the handlers that run, the innermost first; ICU.ACTIVEn shows the first. -/
  active : List Nat := []
  /-- D-cache lines by line number (R428). -/
  dcache : Tab Line := []
  /-- I-cache lines by line number: the words, and a mask of those that came with an uncorrectable error (R437, R462). -/
  icache : Tab (List Word × Nat) := []
  /-- The 32-entry TLB and the entry that is replaced next (R411). -/
  tlb : Tab (Option TlbEntry) := []
  tlbNext : Nat := 0
  /-- The translation setting in effect since the last ISYNC (R404): TEN and the directory address. -/
  ten : Bool := false
  dir : Nat := 0
  /-- Halted (R380): no operation issues. -/
  halted : Bool := false
  /-- A halt that BRK (2), a watchpoint (4) or a step (5) has brought about and that takes effect next (R381). -/
  haltPend : Nat := 0
  /-- A STEP write lets one operation issue (R385). -/
  stepping : Bool := false
  /-- The breakpoint at the present address has been passed by a resume (R384). -/
  bpPass : Bool := false
  deriving DecidableEq, Repr, Inhabited

/-- A coherent request (Table 8-7). -/
inductive CohReq where
  | rds (n line : Nat)
  | rdu (n line : Nat)
  | upg (n line : Nat)
  | wbk (n line : Nat)
  | rdo (k : RdoKind) (n line : Nat)
  | wri (addr : Nat) (val : Word) (be : BitVec 4)
  | atm (op : AtomicOp) (addr : Nat) (x cmp : Half)
  deriving DecidableEq, Repr, Inhabited

/-- A line that is busy at its home (R432): the port whose request holds it, and CORE cycles until the request completes. -/
structure Busy where
  port : Nat := 0
  left : Nat := 0
  deriving DecidableEq, Repr, Inhabited

/-- State of the coherent fabric and of the maintenance engines. -/
structure Coh where
  /-- The busy lines by line number (R432); reset none. -/
  busy : Tab Busy := []
  /-- Credited requests with their port, in the order the credits were granted (R433); reset empty. -/
  credits : List (Nat × CohReq) := []
  /-- The old values of atomics served on the way of another access, with the port they go to, the oldest first (R431, R433); reset
  empty. -/
  answers : List (Nat × Reply) := []
  /-- The line index that the scrubber reads next in each bank (R446); reset 0. -/
  scrubAt : Nat := 0
  /-- The DMA channel that was granted last (R422); reset 15, so that channel 0 comes first. -/
  dmaLast : Nat := 15
  deriving DecidableEq, Repr, Inhabited

/-- A DMA channel beside its registers (R417 to R425). -/
structure Dma where
  /-- The descriptor in hand: ESIZE in bytes, SINC, DINC, IRQ, LAST. -/
  esize : Nat := 2
  sinc : Bool := false
  dinc : Bool := false
  irq : Bool := false
  last : Bool := true
  /-- A descriptor is in hand (else one is fetched next). -/
  have_ : Bool := false
  /-- The descriptor in hand came from memory; else it is the register form (R419). -/
  fromMem : Bool := false
  /-- The bytes of the held source element (R425). -/
  heldData : List Byte := []
  /-- Source elements read ahead of their writes, the next first (R423). -/
  ahead : List (List Byte) := []
  /-- Tokens of a booked channel per bank of shared SRAM, in 1/3200 byte (R444). -/
  tokens : Tab Nat := []
  /-- The channel's 16-entry TLB and the entry replaced next (chapter 8). -/
  tlb : Tab (Option TlbEntry) := []
  tlbNext : Nat := 0
  /-- Entries of this ASID are removed at the next element boundary (R456): 64 for every entry. -/
  inv : List Nat := []
  deriving DecidableEq, Repr, Inhabited

/-! ### The cell pool (chapter 9) -/

/-- A queue beside its registers (chapter 9, Cells and queues): its cells in order, the position of the next entry to pop
in the head cell and of the next entry to place in the tail cell, and the sequence counter of pops (R503). -/
structure PoolQ where
  /-- Head and tail cell, and how many cells the queue holds. -/
  head : Nat := 0
  tail : Nat := 0
  cells : Nat := 0
  headPos : Nat := 0
  tailPos : Nat := 0
  /-- SEQ of the previous popped word; reset 255, so that the next is 0. -/
  popSeq : Nat := 255
  deriving DecidableEq, Repr, Inhabited

/-- A pool port (R473, R478): its push staging FIFO, the oldest first, at most 8; the pop request not yet granted, with
the count of words that entered the FIFO before it, and the reads of HPOP that wait behind it; the reply of a granted pop on its
way; for each entry freed of late, the CORE cycles in which the port may still count it as held, and the CORE cycles in which the
pool may still not see the newest word (R474). -/
structure PoolPort where
  fifo : List PoolWord := []
  req : Option (Nat × Nat) := none
  rep : Option Word := none
  more : List (Nat × Nat) := []
  freed : List Nat := []
  fresh : Nat := 0
  deriving DecidableEq, Repr, Inhabited

/-- The cell pool beside its registers. -/
structure Pool where
  /-- The owner table: queue + 1, or 0 for a free cell (reset: all free). -/
  owner : Tab Nat := []
  qs : Tab PoolQ := []
  ports : Tab PoolPort := []
  /-- The cell that the scrubber reads next (R506); reset 0. -/
  scrubAt : Nat := 0
  /-- The requester that was granted last: port 0 to 6, or 7 for the maintenance requester (R476); reset 7, so that port 0 comes
  first (DESIGN CHOICE, log entry 167). -/
  rr : Nat := 7
  deriving DecidableEq, Repr, Inhabited

/-! ### The analog inputs (chapter 10) -/

/-- The step in hand of an ADC (R516 to R518): its sequence and step slot, the sum and count of its conversions so far,
whether it samples late (R544), whether a conversion runs, and the timebase at its first sampling instant (R521). -/
structure AdcStep where
  seq : Nat
  slot : Nat
  sum : Nat := 0
  cnt : Nat := 0
  late : Bool := false
  conv : Bool := false
  at_ : Nat := 0
  deriving DecidableEq, Repr, Inhabited

/-- A calibration of an ADC (R536 to R538): windows used and steps completed. -/
structure AdcCal where
  windows : Nat := 0
  steps : Nat := 0
  deriving DecidableEq, Repr, Inhabited

/-- A proof of an ADC (R539): windows used, conversions made of 128, and whether every code so far passed. -/
structure AdcProof where
  windows : Nat := 0
  made : Nat := 0
  good : Bool := true
  deriving DecidableEq, Repr, Inhabited

/-- An ADC beside its registers. Everything is empty after reset (R554). -/
structure Adc where
  /-- Sequences whose trigger has fired and not yet reached them, bit j. -/
  fired : Nat := 0
  /-- Sequences triggered and not started (bit j), with those whose trigger found the ADC not ready. -/
  pend : Nat := 0
  late : Nat := 0
  /-- Steps done of each sequence that runs, plus one; 0 for a sequence that does not run. -/
  run : Tab Nat := []
  step : Option AdcStep := none
  /-- Result FIFO, the oldest word first, at most 16 (R522). -/
  fifo : List Word := []
  cal : Option AdcCal := none
  /-- Coefficients of a finished calibration, which take effect at the next sequence start; those that took effect last; and those with
  which each sequence started (R538). -/
  coef : Option (Word × Word) := none
  last : Option (Word × Word) := none
  seqCoef : Tab (Option (Word × Word)) := []
  proof : Option AdcProof := none
  deriving DecidableEq, Repr, Inhabited

/-- A sigma-delta input beside its registers. -/
structure Sd where
  /-- A trigger on SYNC has fired and not yet reached the decimator. -/
  fired : Bool := false
  /-- Modulator clocks since EN was set at which the count of the next result began (R526, R527). -/
  base : Nat := 0
  /-- The sinc1 sum asserts SDTn (R528). -/
  trips : Bool := false
  deriving DecidableEq, Repr, Inhabited

/-- A comparator beside its registers: its output (CMP.STATUS.ACTIVE shows it), a blanking window is open (R533, R534),
and its trip line. -/
structure Cmp where
  blank : Bool := false
  line : Bool := false
  deriving DecidableEq, Repr, Inhabited

/-! ### PWM, capture and encoders (chapter 13) -/

/-- A channel of a PWM module and its output ball: it is active, and it has ended its one change of the present slope (R687,
R688). `wait`: HRT cycles to its turn-on edge, one more than the dead-time left (R691); `hold`: HRT cycles left of a stretched
pulse whose channel has turned off (R710); `on`: HRT cycles since the turn-on edge, and `t0` the timebase at it;
`probe`: the on-time below which the pulse is stretched, 0 for none (R710, R712); `edge`: where its latest change lies, in steps of
78.125 ps from the HRT edge at which it was seen (R687). -/
structure PwmCh where
  act : Bool := false
  turned : Bool := false
  wait : Nat := 0
  hold : Nat := 0
  on : Nat := 0
  t0 : Nat := 0
  probe : Nat := 0
  edge : Int := 0
  deriving DecidableEq, Repr, Inhabited

/-- A value that has been sent to a shadow register of a PWM module (R693): the timebase at which it reaches the shadow, the one from
which it takes part in a load point, 8 CORE cycles later, and the one from which an IMMEDIATE load takes it. The last two differ
for an OUTPWM value, which takes 2 CORE cycles to the shadow. -/
structure Shadow where
  val : Nat := 0
  reach : Nat := 0
  pt : Nat := 0
  imm : Nat := 0
  deriving DecidableEq, Repr, Inhabited

/-- A PWM module beside its registers: active period and compares (R692), channels, selected events counted per event
output (R696), enable requests (R702), trips of the present and the previous period (R706), and a SYNCIN on its way. `since`:
HRT cycles since the HRT edge of the last event or load, and `excess` those among them that the counter has not counted, because the
event of its next count has not come; `fired`: the events raised at that edge, bits 5:0, and the event outputs
that have fired at it, bits 9:6 (R697); `sh`: the values sent to shadows 0 PRD, 1 CMPA, 2 CMPB, in the order
in which they reach them; `held`: the output levels when the block was gated (R80). -/
structure Pwm where
  prd : Nat := 0xFFFF
  ca : Nat := 0
  cb : Nat := 0
  chA : PwmCh := {}
  chB : PwmCh := {}
  pre : Tab Nat := []
  enReq : Nat := 0
  tripCur : Bool := false
  tripLast : Bool := false
  sync : Bool := false
  since : Nat := 0
  excess : Nat := 0
  fired : Nat := 0
  sh : Tab (List Shadow) := []
  held : Option (Bool × Bool) := none
  deriving DecidableEq, Repr, Inhabited

/-- The open-load diagnosis of an output beside its registers: a FAIL waits for its retry (R712), the timebase at the start of the
last probe since EN was set (R710), the pulse in hand has been classified, and the on-times of the pulses that have ended and are
not yet classified, the oldest first (R708). -/
structure Diag where
  retry : Bool := false
  probed : Option Nat := none
  judged : Bool := false
  ended : List Nat := []
  deriving DecidableEq, Repr, Inhabited

/-- A capture channel beside its registers: the held start and stop edges with their direction (R718), whether it waits
for ARM (R719), and its records (R720, R721). -/
structure Cap where
  start : Option (StepTime × Bool) := none
  stop : Option (StepTime × Bool) := none
  disarmed : Bool := false
  seq : Nat := 0
  lost : Nat := 0
  /-- Records of 8 words, the head first, at most 8. -/
  fifo : List (List Word) := []
  deriving DecidableEq, Repr, Inhabited

/-- A quadrature decoder beside its registers: times of the counting edges since the speed reference, the newest first
(R726); the time of the last counting edge; an index edge has come since EN was set (R724); ANGLE and the speed in half-turns that a
trigger of ROUTE has sampled (R730); the levels of its balls A and B (R722), low until
an edge says otherwise (DESIGN CHOICE, log entry 168). -/
structure Qd where
  times : List StepTime := []
  last : StepTime := 0
  indexed : Bool := false
  sample : Option (Word × Word) := none
  a : Bool := false
  b : Bool := false
  deriving DecidableEq, Repr, Inhabited

/-! ### The Krytvos law engine (chapters 11 and 12) -/

/-- Where a write of a sample goes (R652): a signal word, a state word, a PWM compare (channel 0 A, 1 B, 2 both), a queue
word, an input latch, or a word of the learning pool. -/
inductive WrTgt where
  | sig (w : Nat)
  | st (w : Nat)
  | cmp (m ch : Nat)
  | q (q tag : Nat)
  | latch (slot w : Nat)
  | tab (w : Nat)
  deriving DecidableEq, Repr, Inhabited

/-- A write of a pass's stream, with the index of the block that makes it. -/
structure Wr where
  blk : Nat
  tgt : WrTgt
  val : Word
  deriving DecidableEq, Repr, Inhabited

/-- A sample in progress (R567 to R570, R642 to R664). -/
structure KRun where
  /-- The pass that runs, 1 to 3; one past PASSES when the vote is next. -/
  pass : Nat := 1
  blk : Nat := 0
  /-- Rows of a state-space block done, and the values they gave (R566). -/
  row : Nat := 0
  acc : List Word := []
  /-- The visible signal file at the sample start, and the working file of the pass in hand (R650). -/
  base : Tab Word := []
  work : Tab Word := []
  /-- Natural-form writes of passes 1, 2 and 3, in stream order. -/
  s1 : List Wr := []
  s2 : List Wr := []
  s3 : List Wr := []
  /-- State words, at the sample start, of the pass that a redirected pass reads (R659): pass and its 64 words. -/
  src1 : Option (Nat × List Word) := none
  src2 : Option (Nat × List Word) := none
  src3 : Option (Nat × List Word) := none
  /-- LCTLs.FREEZE and CLRBUSY at the sample start (R675). -/
  freeze : Bool := false
  clear : Bool := false
  /-- Passes 1, 2 and 3 met a value that makes a SHIFT pass UNVERIFIABLE (R656), bits 0 to 2. -/
  unv : Nat := 0
  /-- The injection that this sample carries: pass, word, pattern, and whether it has been applied (R670). -/
  inj : Option (Nat × Nat × Word × Bool) := none
  /-- The injection came from the INJECT command, which ends with this sample (R267). -/
  injCmd : Bool := false
  /-- Freeze causes of the reported LEARN block in this sample, in the bits of LSTATs (R641). -/
  lstat : Nat := 0
  deriving DecidableEq, Repr, Inhabited

/-- A slot beside its registers. -/
structure KSlot where
  /-- Timebase at the trigger in hand (R564, R571). -/
  trig : Nat := 0
  run : Option KRun := none
  /-- The deadline of the trigger in hand has passed before the end of its sample (R572). -/
  late : Bool := false
  /-- The sample of the trigger in hand is overrun, by its deadline or by a dropped trigger (R572, R573). -/
  ovr : Bool := false
  /-- The trigger in hand is an ADC delivery: its first sampling instant and OVS (R521). -/
  conv : Option (Nat × Nat) := none
  /-- The pass that each of passes 1 to 3 is redirected to; 0 for none (R659, R660). -/
  rd1 : Nat := 0
  rd2 : Nat := 0
  rd3 : Nat := 0
  /-- A host-loss policy waits for a block boundary (R215). -/
  hl : Bool := false
  /-- The ramp under host loss: target and rate (R217, R593). -/
  ramp : Option (Word × Word) := none
  /-- A slot reset has been requested and takes effect next (R110). -/
  rstReq : Bool := false
  /-- A pen for overruns that waits for the slot's next block boundary: its reason (R282, R621). -/
  penReq : Option Nat := none
  /-- The injection that is armed came from the INJECT command (R671). -/
  injCmd : Bool := false
  /-- The clear of the learning tables has started (R639). -/
  clearRun : Bool := false
  /-- The halt of the engine in force disabled the slot: its triggers count as overruns (R388). -/
  stopped : Bool := false
  deriving DecidableEq, Repr, Inhabited

/-- The engine beside its registers: slots, input latches by 64 × slot + word, and those whose value an ADC or another unit
delivered (R520). -/
structure Kle where
  slots : Tab KSlot := []
  lat : Tab (Option Word) := []
  dlv : Tab Bool := []
  deriving DecidableEq, Repr, Inhabited

/-! ### The sensor ports, the Morium engine and port power (chapters 14 to 17) -/

/-- What a sensor port does (R755, R816, R824, R930, R946): an attempt of an entry, whose result is discarded (`disc`) once
its muster is cut or cancelled; a list's bellwether; a crook identification; a software transaction or frame; the
identity transaction of a power channel; a port proof. -/
inductive PortUse where
  | none
  | entry (list e : Nat) (disc : Bool)
  | bell (list : Nat)
  | crook
  | sw
  | ident (ch : Nat)
  | proof
  deriving DecidableEq, Repr, Inhabited

/-- A result that a stencil channel hands to an attempt (R886, R887): status, words, first and last edge. -/
structure SeRes where
  status : Nat
  vals : List Half
  first : Nat
  last : Nat
  deriving DecidableEq, Repr, Inhabited

/-- A sensor port beside its registers, by its ID (Table 5-1). -/
structure Port where
  use : PortUse := .none
  /-- Pen reason of a stencil port (R942); 0 in service. The other kinds show theirs in PSTAT or DSTAT. -/
  pen : Nat := 0
  /-- The result that the attempt in progress on a stencil port is given (R886). -/
  got : Option SeRes := none
  /-- The CONV wait of a CMDRD entry runs (R810). -/
  conv : Bool := false
  /-- A two-wire port is CYCLING (Table 15-10). -/
  cycling : Bool := false
  /-- Rate code that a two-wire port takes at its next start (R854), and its present rate; reset 4 (R868). -/
  rate : Nat := 4
  cur : Nat := 4
  /-- The values of RATE and ADAPT in force: those at the last start of an attempt or a software transaction (R848). -/
  rateIn : Word := 0x44
  adaptIn : Word := 0x0003E808
  /-- Line errors in the window, and windows without one in a row (R863, R865). -/
  errs : Nat := 0
  clean : Nat := 0
  /-- The timebase at the crook call that a two-wire port has seen last: its SDA is held low then (R818, R823). -/
  lowAt : Option Nat := none
  /-- An identification has run since the port's last entry transaction (R824). -/
  called : Bool := false
  /-- The timebase at the assertion of the select of a DDR serial port's frame, and at the end of the frame before (R829). -/
  began : Nat := 0
  ended : Option Nat := none
  /-- RX, RXLEN and TX FIFOs of a DDR serial port, the oldest first (R841 to R843). -/
  rx : List Word := []
  rxlen : List Nat := []
  tx : List Word := []
  deriving DecidableEq, Repr, Inhabited

/-- A stencil channel beside its registers (R877, R884, R910): words of its build buffer, the oldest first; an OPEN has come
since the last commit; TFIRST of the build; TFIRST and TLAST of the completed result. Times are timebase values. -/
structure SeChan where
  build : List Half := []
  opened : Bool := false
  tfirst : Nat := 0
  rfirst : Nat := 0
  rlast : Nat := 0
  deriving DecidableEq, Repr, Inhabited

/-- A stencil engine beside its registers. -/
structure Se where
  /-- Timebase at the last start, and how often TMR has wrapped since (R873, R874). -/
  tb0 : Nat := 0
  wraps : Nat := 0
  /-- Flags Z, N and T (R878). -/
  z : Bool := false
  n : Bool := false
  t : Bool := false
  /-- LINK (R890) and the argument of the pending kick: KARG, and the channel in bits 10:8. -/
  link : Nat := 0
  karg : Nat := 0
  /-- The wait instruction at PC has issued and waits; the PERI cycles left to the end of a DELAY, AT or SINCE, or to the instant
  at which an edge or level wait gives up (R877). -/
  waiting : Bool := false
  left : Nat := 0
  /-- These cycles had passed before this PERI cycle: a wait that gives up has given up. -/
  late : Bool := false
  /-- PERI cycles into the present instruction cycle; PERI cycles that the instruction issued last, or the end of a wait, still
  takes before the next can issue; RUN was written 0 and the engine stops at the end of the instruction (R869, R877, R880, R894,
  R895). -/
  phase : Nat := 0
  busy : Nat := 0
  stop : Bool := false
  /-- Level driven on each relative pin; none where it is released (R871). -/
  drv : Tab (Option Bool) := []
  /-- Timestamp of the latest counted edge (RDC); 0 before any. -/
  cntT : Word := 0
  /-- Latest accepted edge or driven level change on the window's pins, as a timebase value (R884). -/
  lastT : Nat := 0
  /-- The pin whose next driven change is the defining edge (MARK), and the instant that the handler marked (R891). -/
  markPin : Option Nat := none
  mark : Option Nat := none
  /-- The shadow parameter page (R883); its words differ from the active page only while PEND is 1. -/
  shadow : Tab Word := []
  /-- The shadow page as it stood before the parameter writes of one PERI cycle, its PEND, and the timebase at that cycle (R909). -/
  page : Tab Word := []
  pagePend : Bool := false
  pageT : Option Nat := none
  chans : Tab SeChan := []
  /-- Address of a record whose load has not ended (R898). -/
  load : Option Nat := none
  deriving DecidableEq, Repr, Inhabited

/-- How far an entry is in its muster: not part of one, waiting, in its first attempt, waiting for its retry, in its retry,
or finished (R756, R790, R792). -/
inductive EntPhase where
  | idle | waiting | first | again | second | finished
  deriving DecidableEq, Repr, Inhabited

/-- A muster entry beside its registers. -/
structure Ent where
  ph : EntPhase := .idle
  /-- STATUS, RETRIED, RUNAHEAD of the present muster, and DISCARDED for its record (Table 14-4). -/
  status : Nat := 0
  retried : Bool := false
  ahead : Bool := false
  disc : Bool := false
  /-- An attempt has been made in this muster (R940). -/
  tried : Bool := false
  /-- The last attempt started; its START and END as timebase values (R758). -/
  started : Bool := false
  t0 : Nat := 0
  t1 : Nat := 0
  /-- Value words of a run-ahead result that waits for its muster (R761). -/
  vals : List Half := []
  /-- Completion count of the channel's result last delivered to this entry (R886, R887). -/
  seen : Option Nat := none
  deriving DecidableEq, Repr, Inhabited

/-- The bellwether of a port in a muster: the port takes no part, waits to send it, sends it, sends it with its defining
edge beyond SKEWLIM, or has sent it and it was good or bad (R754). -/
inductive Bell where
  | none | waiting | running | late | good | bad
  deriving DecidableEq, Repr, Inhabited

/-- What started a muster (R747). -/
inductive MusterBy where
  | tick | trig | now
  deriving DecidableEq, Repr, Inhabited

/-- A muster list beside its registers. -/
structure MList where
  /-- Record ring named by MUSTERSTART; none with NORING (R264). -/
  ring : Option Nat := none
  /-- The last muster number taken; 0 before the first since MUSTERLOAD (R750). -/
  num : Nat := 0
  /-- T0 and BWT of the running muster, as timebase values (R751, R753). -/
  t0 : Nat := 0
  bwt : Nat := 0
  /-- The trigger of the running muster, and the timebase at it (R280, R783). -/
  by_ : MusterBy := .tick
  at_ : Nat := 0
  /-- The next scheduled T0 as a timebase value (R748); 0 before the first tick of the active list. -/
  next : Nat := 0
  /-- The next scheduled T0 has passed; the deadline cut the read phase (R796). -/
  late : Bool := false
  cut : Bool := false
  /-- MUSTERSTOP without CANCEL has been accepted (R281). -/
  stopping : Bool := false
  bells : Tab Bell := []
  ents : Tab Ent := []
  /-- Tokens of the booked list per bank of shared SRAM, in 1/3200 byte (R444). -/
  tokens : Tab Nat := []
  deriving DecidableEq, Repr, Inhabited

/-- A record that the drover has to copy: list, ring, buffer address and body length (R773, R774). -/
structure Copy where
  list : Nat
  ring : Nat
  addr : Nat
  len : Nat
  deriving DecidableEq, Repr, Inhabited

/-- The Morium engine beside its registers: lists, and records to copy in commit order. -/
structure Mbm where
  lists : Tab MList := []
  copies : List Copy := []
  /-- The drover has begun the first of these: its slot's HDR has been written as 0 (R194, R775). -/
  begun : Bool := false
  /-- Value words of committed musters that have still to be pushed through pool port 5, the next first (R768). -/
  pushes : List PoolWord := []
  /-- The list that MUSTERSTART started last, whose completion its records follow (R276). -/
  last : Option Nat := none
  deriving DecidableEq, Repr, Inhabited

/-- A port-power channel beside its registers (chapter 17). -/
structure PpCh where
  /-- Consecutive samples above WARN, at or below WARN, and above the trip level (R921, R922). -/
  above : Nat := 0
  below : Nat := 0
  trip : Nat := 0
  /-- The samples that have decided a warning and a trip, or the last one until then (R921, R922). -/
  warnAt : Nat := 0
  tripAt : Nat := 0
  /-- IPEAK before the last sample, and that sample (R14). -/
  peakWas : Nat := 0
  sample : Nat := 0
  /-- Inrush blanking runs (R924). -/
  inrush : Bool := false
  /-- SLOW cycles run (`Clk.slow`) at the last change of the switch: the channel's times count from there (R924, R926, R934, R935,
  R937). -/
  since : Nat := 0
  /-- The identity check has passed since the insertion (R934), or is left out (R944). -/
  idOk : Bool := false
  /-- The first identity check has failed (R931). -/
  idFailed : Bool := false
  /-- The port has rejected the frame of the check in progress (R833). -/
  idBad : Bool := false
  /-- Sum and count of the samples that a CURRENT check has taken after SETTLE (R929). -/
  idSum : Nat := 0
  idCnt : Nat := 0
  /-- A trip episode runs; its retry has switched on (R934, R935). -/
  episode : Bool := false
  retry : Bool := false
  /-- Two-wire ports whose power cycle runs (R937, R938). -/
  cycle : List Nat := []
  deriving DecidableEq, Repr, Inhabited


/-- The state of the machine. -/
structure State where
  /-- The commands that are waiting, first in, first out; the model's own, reset empty. -/
  pending : List Instr := []
  /-- The register file by physical address; an unlisted register holds its reset value (`regReset`). -/
  regs : Tab Word := []
  /-- Memory by physical byte address; an unlisted byte reads as zero. -/
  mem : Tab Byte := []
  /-- SECDED state of a memory word by its address: 1 a correctable error, 2 an uncorrectable one (R401); reset 0. -/
  ecc : Tab Nat := []
  clk : Clk := {}
  sup : Sup := {}
  boot : Boot := {}
  hif : Hif := {}
  /-- Tsuvo 0–3. -/
  cores : Tab Core := []
  coh : Coh := {}
  /-- DMA0–DMA15. -/
  dma : Tab Dma := []
  pool : Pool := {}
  /-- ADC0–ADC3, SD0–SD7, CMP0–CMP15. -/
  adc : Tab Adc := []
  sd : Tab Sd := []
  cmp : Tab Cmp := []
  /-- PWM0–PWM11 and the open-load diagnosis of their 24 outputs. -/
  pwm : Tab Pwm := []
  diag : Tab Diag := []
  /-- CAP0–CAP15 and QD0–QD3. -/
  cap : Tab Cap := []
  qd : Tab Qd := []
  kle : Kle := {}
  /-- The sensor ports by ID (Table 5-1). -/
  ports : Tab Port := []
  /-- SE0–SE7. -/
  se : Tab Se := []
  mbm : Mbm := {}
  /-- PP0–PP7. -/
  pp : Tab PpCh := []
  /-- What has left the part for the host, oldest first; the model's own. -/
  out : List Out := []
  /-- The answer to the last read command; the model's own. -/
  reply : Reply := .none
  /-- How many free values have been drawn; the model's own, no rule depends on it. -/
  free : Nat := 0
  deriving DecidableEq, Repr, Inhabited

/-- The machine right after power-on reset is released with BOOTSEL straps 0b00 (Table 3-2, first row; R96, R1013). -/
def State.reset : State := {}

end Sys2Proof.Machine
end

