-- ==== Sys2Proof/Machine/Ops.lean ====
section
/-!
DEFINITION. The named operations over registers and memory that every meaning uses, and the operations by which every
block tells the outside: events, interrupt messages, interrupt sources.
-/
namespace Sys2Proof.Machine

open Sys2Proof (W.fld W.bit W.setFld W.setBit)

/-- The answer of a command that always has an effect. -/
abbrev done (s : State) : Host.Outcome State Fault Refusal := .next s

/-! ### Registers -/

/-- The value held by the register at a physical address. -/
def State.rd (s : State) (a : Nat) : Word := tget (regReset a) s.regs a

/-- The state with `v` held by the register at a physical address. -/
def State.wr (s : State) (a : Nat) (v : Word) : State :=
  { s with regs := tset (regReset a) s.regs a v }

/-- The field of `n` bits at bit `lo` of a register. -/
def State.fld (s : State) (a lo n : Nat) : Nat := W.fld (s.rd a) lo n

/-- Bit `i` of a register. -/
def State.bit (s : State) (a i : Nat) : Bool := W.bit (s.rd a) i

/-- The state with a register's field of `n` bits at `lo` set to `v`. -/
def State.setFld (s : State) (a lo n v : Nat) : State := s.wr a (W.setFld (s.rd a) lo n v)

/-- The state with bit `i` of a register set to `b`. -/
def State.setBit (s : State) (a i : Nat) (b : Bool) : State := s.wr a (W.setBit (s.rd a) i b)

/-- One more count in the 16-bit saturating tally of a register (R19). -/
def State.tally (s : State) (a : Nat) : State :=
  let v := s.fld a 0 16
  if v = 0xFFFF then s else s.setFld a 0 16 (v + 1)

/-- One more count in the upper of a register's two tallies (R19). -/
def State.tallyHi (s : State) (a : Nat) : State :=
  let v := s.fld a 16 16
  if v = 0xFFFF then s else s.setFld a 16 16 (v + 1)

/-- The STATUS register of the block that holds a physical address (R7). -/
def blockStatus (a : Nat) : Nat := regSpaceBase + 0x10000 * regBlock a + 4

/-! ### Memory -/

/-- The byte at a physical address of memory; a byte never written reads as zero. -/
def State.rdByte (s : State) (a : Nat) : Byte := tget 0 s.mem a

/-- The state with byte `b` at a physical address of memory. -/
def State.wrByte (s : State) (a : Nat) (b : Byte) : State := { s with mem := tset 0 s.mem a b }

/-- The 16-bit word at a byte address, little-endian (R4). -/
def State.rdHalf (s : State) (a : Nat) : Half := s.rdByte (a + 1) ++ s.rdByte a

/-- The 32-bit word at a byte address, little-endian (R4). -/
def State.rdWord (s : State) (a : Nat) : Word :=
  s.rdByte (a + 3) ++ s.rdByte (a + 2) ++ s.rdByte (a + 1) ++ s.rdByte a

/-- The bytes of a word, the lowest-addressed first (R4). -/
def wordBytes (w : Word) : List Byte :=
  [w.setWidth 8, (w >>> 8).setWidth 8, (w >>> 16).setWidth 8, (w >>> 24).setWidth 8]

/-- Writes bytes from a byte address upwards. -/
def State.wrBytes (s : State) (a : Nat) : List Byte → State
  | [] => s
  | b :: bs => (s.wrByte a b).wrBytes (a + 1) bs

/-- Writes a 16-bit word at a byte address. -/
def State.wrHalf (s : State) (a : Nat) (w : Half) : State :=
  (s.wrByte a (w.setWidth 8)).wrByte (a + 1) ((w >>> 8).setWidth 8)

/-- Writes a 32-bit word at a byte address. -/
def State.wrWord (s : State) (a : Nat) (w : Word) : State :=
  (((s.wrByte a (w.setWidth 8)).wrByte (a + 1) ((w >>> 8).setWidth 8)).wrByte (a + 2) ((w >>> 16).setWidth 8)).wrByte
    (a + 3) ((w >>> 24).setWidth 8)

/-- Writes words from a byte address upwards (R5). -/
def State.wrWords (s : State) (a : Nat) : List Word → State
  | [] => s
  | w :: ws => (s.wrWord a w).wrWords (a + 4) ws

/-- `n` words from a byte address upwards (R5). -/
def State.rdWords (s : State) (a : Nat) : Nat → List Word
  | 0 => []
  | n + 1 => s.rdWord a :: s.rdWords (a + 4) n

/-- `w` with the bytes that the byte enables select taken from `v`. -/
def mergeBE (w v : Word) (be : BitVec 4) : Word :=
  let m (i : Nat) : Word := if be.getLsbD i then W.mask (8 * i) 8 else 0
  let k := m 0 ||| m 1 ||| m 2 ||| m 3
  (w &&& ~~~ k) ||| (v &&& k)

/-- The memory without the bytes from `lo` up to, not including, `hi`. -/
def State.zeroRange (s : State) (lo hi : Nat) : State :=
  { s with mem := tkeep (fun a => decide (a < lo) || decide (hi ≤ a)) s.mem,
           ecc := tkeep (fun a => decide (a < lo) || decide (hi ≤ a)) s.ecc }

/-- The SECDED state of the word that holds a byte address: 0 good, 1 correctable, 2 uncorrectable. -/
def State.eccAt (s : State) (a : Nat) : Nat := tget 0 s.ecc (a / 4 * 4)

/-- The state with the SECDED state of the word at an address set. -/
def State.setEcc (s : State) (a v : Nat) : State := { s with ecc := tset 0 s.ecc (a / 4 * 4) v }

/-! ### Free values -/

/-- Draws the next free value of 32 bits: a value the spec leaves open (see the assumption log). -/
def State.drawWord (s : State) : Word × State := (Config.freeWord s.free, { s with free := s.free + 1 })

/-! ### Power state -/

/-- Codes of SYS.PWRSTATE.STATE (Table 2-6). -/
abbrev pwrRUN : Nat := 1
abbrev pwrTRIM : Nat := 2
abbrev pwrSTANDBY : Nat := 3
abbrev pwrOFF : Nat := 4

/-- The power state (Table 2-13). -/
def State.pwr (s : State) : Nat := s.fld Reg.SYS_PWRSTATE 0 3

/-- The part is out of reset, the PLL is in lock and the root-derived clocks run. -/
def State.live (s : State) : Bool :=
  decide (s.clk.phase = .run) && decide (s.clk.pll = .locked) && (s.pwr == pwrRUN || s.pwr == pwrTRIM)
    && decide (s.clk.lg ≠ .held)

/-- The always-on domain works: out of reset, neither OFF nor held after a collapse, and its clock runs (R91). -/
def State.alwaysOn (s : State) : Bool :=
  decide (s.clk.phase = .run) && s.pwr != pwrOFF && decide (s.clk.lg ≠ .held) && !s.clk.stopped

/-- A collapse is declared: its record is latched or written (R61, R64). -/
def LastGasp.collapse : LastGasp → Bool
  | .idle => false
  | .latched _ hold => hold
  | .held => true

/-- Register accesses reach SYS and SUP: through the register bus while the root-derived clocks run, through the always-on
arbiter in STANDBY (R81, R1003, R1004). -/
def State.sysServed (s : State) : Bool :=
  s.alwaysOn && (s.live || s.pwr == pwrSTANDBY) && !s.clk.lg.collapse

/-- Codes of BOOTSTAT.OUTCOME (Table 3-8). -/
abbrev boBOOTING : Nat := 0
abbrev boREADY : Nat := 1
abbrev boHOLD_UNTESTED : Nat := 2
abbrev boHOLD_INCOMPATIBLE : Nat := 3
abbrev boNO_IMAGE : Nat := 4
abbrev boWAIT_HOST : Nat := 5
abbrev boMAINT : Nat := 6

/-- The boot outcome. -/
def State.outcome (s : State) : Nat := s.fld Reg.SYS_BOOTSTAT 0 4

/-- The always-on registers of HIF, which a link reset keeps (R220). -/
def hifAlwaysOn (a : Nat) : Bool :=
  (decide (Reg.HIF_HBCFG ≤ a) && decide (a ≤ Reg.HIF_EVLOST)) || (decide (Reg.HIF_HLTGT 0 ≤ a) && decide (a < Reg.HIF_HLTGT 32))

/-- A requester's accesses to the register at `a` are answered: SYS and SUP in STANDBY too; the other blocks while the
root-derived clocks run, for the host not before boot has an outcome (R81, R115, R162). HIF, its always-on registers apart,
stays in reset while PERST_N is low (R1011). -/
def State.regServed (s : State) (src : Requester) (a : Nat) : Bool :=
  if regBlock a ≤ 1 then s.sysServed
  else s.live && !(decide (src = .host) && s.outcome == boBOOTING)
    && !(regBlock a == 0x11 && s.hif.perstLow && !hifAlwaysOn a)

/-- The end of an interval that began at the timebase value `from_` and would end at `end_` with no stop of the root-derived
clocks: each stop meanwhile holds its count in periods of `period` CORE cycles, which runs on from the release (R1000). -/
def Clk.reach (c : Clk) (period from_ end_ : Nat) : Nat :=
  c.stops.foldl (fun e st =>
    if from_ ≤ st.1 ∧ st.1 < e then st.2 + period * ((e - st.1 + period - 1) / period) else e) end_

/-- CORE cycles that have run since the timebase value `from_`: the time in which the root-derived clocks stood does not count
(R1000). -/
def Clk.ran (c : Clk) (from_ : Nat) : Nat :=
  c.tb.toNat - from_ - c.stops.foldl (fun k st => if from_ ≤ st.1 then k + (st.2 - st.1) else k) 0

/-- CLKGATE bit of each block (Table 2-14). -/
abbrev gCORE (n : Nat) : Nat := n - 1
abbrev gADC : Nat := 3
abbrev gSDF : Nat := 4
abbrev gCMP : Nat := 5
abbrev gPWM : Nat := 6
abbrev gCAPQD : Nat := 7
abbrev gKLE : Nat := 8
abbrev gMBM : Nat := 9
abbrev gTW : Nat := 10
abbrev gDS : Nat := 11
abbrev gSE : Nat := 12
/-- No CLKGATE bit: what cannot be gated, such as DS0 (Table 2-14). -/
abbrev gNone : Nat := 31
abbrev gDMA : Nat := 13

/-- Is the block of CLKGATE bit `g` gated (R79, R80)? Gating applies in TRIM only. -/
def State.gatedBit (s : State) (g : Nat) : Bool := s.pwr == pwrTRIM && W.bit s.clk.gated g

/-- The block of CLKGATE bit `g` performs its functions: its clock runs and it is not gated. -/
def State.runs (s : State) (g : Nat) : Bool := s.live && !s.gatedBit g

/-! ### Configuration space, interrupt messages and events -/

/-- A dword of configuration space (R156). -/
def State.cfgRd (s : State) (d : Nat) : Word := tget (Config.cfgReset d) s.hif.cfg d

/-- The state with a dword of configuration space set. -/
def State.cfgWr (s : State) (d : Nat) (v : Word) : State :=
  { s with hif := { s.hif with cfg := tset (Config.cfgReset d) s.hif.cfg d v } }

/-- Bus Master Enable: bit 2 of the command register (R230). -/
def State.bme (s : State) : Bool := W.bit (s.cfgRd 1) 2

/-- The function is in D0 (R157). -/
def State.inD0 (s : State) : Bool := W.fld (s.cfgRd 0x11) 0 2 == 0

/-- The device may issue requests to host memory: link up, Bus Master Enable set, D0, and not in STANDBY or OFF. -/
def State.canIssue (s : State) : Bool := s.bme && s.inD0 && s.live && s.bit Reg.HIF_LINKSTAT 0

/-- The state with one more request or message on the link. -/
def State.emit (s : State) (o : Out) : State := { s with out := s.out ++ [o] }

/-- The data link is up. -/
def State.linkUp (s : State) : Bool := s.bit Reg.HIF_LINKSTAT 0

/-- The link can carry a request to the part: up, and the part not in OFF or in reset. -/
def State.linkServes (s : State) : Bool := s.linkUp && s.alwaysOn

/-- Memory Space Enable is set and the function is in D0: memory requests are served (R157, R1012). -/
def State.memServed (s : State) : Bool := W.bit (s.cfgRd 1) 1 && s.inD0

/-- The link brings the host's memory requests to the part, and they are served (R157, R1012). -/
def State.hostMem (s : State) : Bool := s.linkServes && s.memServed

/-- A register write of the host is applied: it comes over the link, is served, and the register answers the host. -/
def State.hostReg (s : State) (a : Nat) : Bool := s.hostMem && s.regServed .host a

/-- An error of the uncorrectable error status register (Table 4-1): its status bit; where it is unmasked and no earlier one is
logged, the first-error pointer and the header log, whose words are free values. -/
def State.aerError (s : State) (b : Nat) : State :=
  let m := s.cfgRd 0x42
  let p := W.fld (s.cfgRd 0x46) 0 5
  let logged := W.bit (s.cfgRd 0x41) p && !W.bit m p
  let s := s.cfgWr 0x41 (W.setBit (s.cfgRd 0x41) b true)
  if W.bit m b || logged then s
  else
    let (h0, s) := s.drawWord
    let (h1, s) := s.drawWord
    let (h2, s) := s.drawWord
    let (h3, s) := s.drawWord
    ((((s.cfgWr 0x46 (W.setFld (s.cfgRd 0x46) 0 5 b)).cfgWr 0x47 h0).cfgWr 0x48 h1).cfgWr 0x49 h2).cfgWr 0x4A h3

/-- An Unsupported Request answer, logged by advanced error reporting (R155, R157, R1012). -/
def State.ur (s : State) : State := { (s.aerError 20).emit .unsupported with reply := .unsupported }

/-- A discarded write, reported as an Unsupported Request through advanced error reporting (R1012). -/
def State.urWrite (s : State) : State := s.aerError 20

/-- A poisoned or malformed request, discarded and reported through advanced error reporting (R239). -/
def State.tlpError (s : State) (t : Tlp) : State :=
  match t with | .good => s | .poisoned => s.aerError 12 | .malformed => s.aerError 18

/-- A read of the register at `a`, whose answer and effect `f` gives: the host's is not answered where the link is down, and is
an Unsupported Request outside D0 and without Memory Space Enable; a register that is not served reads as zero, and in OFF
nothing is answered (R81, R115, R157, R1012). A request of the host that is poisoned or malformed is discarded and reported (R239),
before it is judged in another way (DESIGN CHOICE, log entry 151). A row that names no requester stands for the host's read. -/
def State.readBy (s : State) (src : Requester) (tlp : Tlp) (a : Nat) (f : State → Reply × State) : State :=
  if !s.alwaysOn || (decide (src = .host) && !s.linkUp) then { s with reply := .none }
  else if decide (src = .host) && decide (tlp ≠ .good) then { s.tlpError tlp with reply := .none }
  else if decide (src = .host) && !s.memServed then s.ur
  else if s.regServed src a then
    let (r, t) := f s
    { t with reply := r }
  else { s with reply := .word 0 }

/-- Bytes of the largest read request and of the largest write request of the device (Table 4-1). -/
def State.readLimit (s : State) : Nat := min 512 (128 * 2 ^ W.fld (s.cfgRd 0x22) 12 3)
def State.writeLimit (s : State) : Nat := min 256 (128 * 2 ^ W.fld (s.cfgRd 0x22) 5 3)

/-- Writes words to host memory in requests of at most `lim` words, at most `n` of them (Table 4-1, R206). -/
def State.emitWords (lim : Nat) : Nat → Word64 → List Word → State → State
  | 0, _, _, s => s
  | n + 1, a, ws, s =>
    if ws.isEmpty then s
    else State.emitWords lim n (a + BitVec.ofNat 64 (4 * lim)) (ws.drop lim) (s.emit (.write a (ws.take lim)))

/-- A message of an MSI-X vector: sent, or its pending bit set while the vector or the function is masked (R205). -/
def State.msixSend (s : State) (v : Nat) : State :=
  let masked := W.bit (s.cfgRd 0x1C) 30 || s.bit (Reg.HIF_MSIX_CTRL v) 0 || !s.canIssue
  if masked then s.setBit Reg.HIF_MSIXPBA v true
  else
    (s.setBit Reg.HIF_MSIXPBA v false).emit
      (.message v (W.of32 (s.rd (Reg.HIF_MSIX_ADDRLO v)) (s.rd (Reg.HIF_MSIX_ADDRHI v))) (s.rd (Reg.HIF_MSIX_DATA v)))

/-- A message with MSI in place of MSI-X: vector v sends message v mod m (R203). -/
def State.msiSend (s : State) (v : Nat) : State :=
  let m := 2 ^ min (W.fld (s.cfgRd 0x14) 20 3) 4
  let k := v % m
  if W.bit (s.cfgRd 0x18) k || !s.canIssue then s.cfgWr 0x19 (W.setBit (s.cfgRd 0x19) k true)
  else
    (s.cfgWr 0x19 (W.setBit (s.cfgRd 0x19) k false)).emit
      (.message k (W.of32 (s.cfgRd 0x15) (s.cfgRd 0x16)) ((s.cfgRd 0x17 &&& ~~~ BitVec.ofNat 32 (m - 1)) ||| BitVec.ofNat 32 k))

/-- The interrupt message of a source vector (R203, R205, R235). -/
def State.sendVector (s : State) (v : Nat) : State :=
  if W.bit (s.cfgRd 0x1C) 31 then s.msixSend v
  else if W.bit (s.cfgRd 0x14) 16 then s.msiSend v
  else s

/-- One more entry counted for vector v: the message when the count reaches VMODv.CNT (R204). -/
def State.countVector (s : State) (v : Nat) : State :=
  let c := tget 0 s.hif.vcnt v + 1
  let lim := max 1 (s.fld (Reg.HIF_VMOD v) 0 8)
  if lim ≤ c then
    ({ s with hif := { s.hif with vcnt := tset 0 s.hif.vcnt v 0 } }).sendVector v
  else { s with hif := { s.hif with vcnt := tset 0 s.hif.vcnt v c } }

/-- Ring size of a CFG register: 2 to the power LOG2N (Table 4-14). -/
def ringSize (cfg : Word) : Nat := 2 ^ W.fld cfg 0 4

/-- Ring base address from its two registers. -/
def State.ringBase (s : State) (lo hi : Nat) : Word64 := W.of32 (s.rd lo) (s.rd hi)

/-- The event ring can take an entry now: enabled, with space (R176), and the device may write (R191). -/
def State.evRoom (s : State) : Bool :=
  let cfg := s.rd Reg.HIF_EV_CFG
  let n := ringSize cfg
  W.bit cfg 31 && s.canIssue && (s.fld Reg.HIF_EV_IDX 16 12 + 1) % n != s.fld Reg.HIF_EV_IDX 0 12

/-- Writes one event entry at the producer index: words 0–2, then word 3 with the phase bit; counts for vector 1
(R190, R187, R188, R202). -/
def State.evWrite (s : State) (e : Event) : State :=
  let n := ringSize (s.rd Reg.HIF_EV_CFG)
  let p := s.fld Reg.HIF_EV_IDX 16 12
  let a := s.ringBase Reg.HIF_EV_BASE_LO Reg.HIF_EV_BASE_HI + BitVec.ofNat 64 (16 * p)
  let w0 := BitVec.ofNat 32 (e.code % 65536 + 65536 * (e.src % 65536))
  let w3 := W.setBit (W.hi32 e.tb &&& 0x00FFFFFF) 31 s.hif.evPhase
  let s := (s.emit (.write a [w0, e.data, W.lo32 e.tb])).emit (.write (a + 12) [w3])
  let p' := (p + 1) % n
  let s := s.setFld Reg.HIF_EV_IDX 16 12 p'
  let s := if p' = 0 then { s with hif := { s.hif with evPhase := !s.hif.evPhase } } else s
  s.countVector 1

/-- Raises an event now: written to the event ring, or into the hold, or discarded and counted (R190, R191, R192). -/
def State.event (s : State) (code src : Nat) (data : Word) : State :=
  let e : Event := ⟨code, src, data, s.clk.tb⟩
  if s.evRoom && s.hif.evHold.isEmpty && s.hif.evLost == 0 then s.evWrite e
  else if s.hif.evHold.length < 32 then { s with hif := { s.hif with evHold := s.hif.evHold ++ [e] } }
  else
    let s := s.tally Reg.HIF_EVLOST
    { s with hif := { s.hif with evLost := min 0xFFFFFFFF (s.hif.evLost + 1) } }

/-- Event codes (Table 5-6). -/
abbrev evLOST : Nat := 0x0001
abbrev evHOST_LOSS : Nat := 0x0002
abbrev evPOWER_STATE : Nat := 0x0003
abbrev evCLOCK : Nat := 0x0004
abbrev evRAIL_WARN : Nat := 0x0010
abbrev evRAIL_FAULT : Nat := 0x0011
abbrev evEXT_FAULT : Nat := 0x0012
abbrev evSEQ_END : Nat := 0x0013
abbrev evSLOT_OVERRUN : Nat := 0x0020
abbrev evSLOT_STOPPED : Nat := 0x0021
abbrev evSLOT_PENNED : Nat := 0x0022
abbrev evHATCH_MISMATCH : Nat := 0x0023
abbrev evNAN_OUT : Nat := 0x0024
abbrev evLEARN_SKIP : Nat := 0x0025
abbrev evPWM_TRIP : Nat := 0x0030
abbrev evOUTPUT_DIAG : Nat := 0x0031
abbrev evQD_MOTION : Nat := 0x0032
abbrev evMUSTER_PARTIAL : Nat := 0x0040
abbrev evMUSTER_DEADLINE : Nat := 0x0041
abbrev evENTRY_PENNED : Nat := 0x0042
abbrev evPORT_PENNED : Nat := 0x0043
abbrev evPORT_CLEAR : Nat := 0x0044
abbrev evPORT_DEGRADED : Nat := 0x0045
abbrev evCROOK_CALL : Nat := 0x0046
abbrev evPRESENCE : Nat := 0x0047
abbrev evPP_CURRENT : Nat := 0x0048
abbrev evECC_CORRECTED : Nat := 0x0050
abbrev evECC_UNCORRECTED : Nat := 0x0051
abbrev evLEDGER_DEGRADE : Nat := 0x0052

/-- Sets the pending bit of a source in core n's interrupt controller (R358). -/
def State.pend (s : State) (n src : Nat) : State :=
  if src < 32 then s.setBit (Reg.ICU_PENDLO n) src true else s.setBit (Reg.ICU_PENDHI n) (src - 32) true

/-- An assertion of an interrupt source: it reaches every core's controller (R357, R358). -/
def State.source (s : State) (src : Nat) : State :=
  (((s.pend 0 src).pend 1 src).pend 2 src).pend 3 src

/-- A refused WL write to a register sets its block's WLREJ (R7, R8); every STATUS bit of SDF that sets raises source 32
(Table 10-8). -/
def State.wlrej (s : State) (a : Nat) : State :=
  let s := s.setBit (blockStatus a) 31 true
  if regBlock a = 9 then s.source 32 else s

/-- A memory proof runs over the memories of a mask, or none does (0); POOL.STATUS.PROOF shows that of the cell pool (R253, R269,
R499). -/
def State.setProofMask (s : State) (m : Nat) : State :=
  ({ s with hif := { s.hif with proof := m } }).setBit Reg.POOL_STATUS 4 (m.testBit 1)

/-- Natural number of a word, for indexing. -/
abbrev nat (w : Word) : Nat := w.toNat

/-- Folds a state change over the indices 0 to n − 1. -/
def forN : Nat → (Nat → State → State) → State → State
  | 0, _, s => s
  | n + 1, f, s => f n (forN n f s)

end Sys2Proof.Machine
end

