-- ==== Sys2Proof/Machine/Coherence.lean ====
section
/-!
DEFINITION. Chapter 8, shared memory: SECDED reports, the D-caches, the coherent requests and the home, atomics, credits,
the scrubber and the mirror.
-/
namespace Sys2Proof.Machine

/-! ### SECDED reports -/

/-- A corrected error counts in a tally; ECC_CORRECTED with SRC `src` at each multiple of 256 (R461, R465). -/
def State.eccCorrected (s : State) (src tallyA : Nat) : State :=
  let s := s.tally tallyA
  let v := s.fld tallyA 0 16
  if v % 256 = 0 ∧ v ≠ 0 then (s.event evECC_CORRECTED src (BitVec.ofNat 32 v)).source 62 else s

/-- An uncorrectable error: a flag, its address, and ECC_UNCORRECTED with SRC `src` (R462, R465). -/
def State.eccUncorrected (s : State) (src flagA flagBit addrA a : Nat) : State :=
  let w := BitVec.ofNat 32 (a / 4 * 4)
  (((s.setBit flagA flagBit true).wr addrA w).event evECC_UNCORRECTED src w).source 62

/-- Reads one memory word with its check bits: none where it holds an uncorrectable error (R461, R462). -/
def State.eccRead (s : State) (src tallyA flagA flagBit addrA a : Nat) : Option Word × State :=
  match s.eccAt a with
  | 0 => (some (s.rdWord (a / 4 * 4)), s)
  | 1 => (some (s.rdWord (a / 4 * 4)), s.eccCorrected src tallyA)
  | _ => (none, s.eccUncorrected src flagA flagBit addrA a)

/-- Reads a word of shared SRAM at its home. -/
def State.homeRead (s : State) (a : Nat) : Option Word × State :=
  s.eccRead 0 Reg.XLT_ECCTALLY Reg.XLT_STATUS 1 Reg.XLT_ECCADDR a

/-- Reads a word of MRAM as every reader does (R465, R1018). -/
def State.mramCheck (s : State) (a : Nat) : Option Word × State :=
  s.eccRead 3 Reg.XLT_MRAMTALLY Reg.XLT_STATUS 4 Reg.XLT_MRAMADDR a

/-- Writes a whole word with fresh check bits (Table 8-11, R1017). -/
def State.fullWrite (s : State) (a : Nat) (w : Word) : State := (s.wrWord a w).setEcc a 0

/-- Merges bytes into a MRAM word by read-modify-write; false where the word is uncorrectable and stays as it is (R1017). -/
def State.mramWrite (s : State) (a : Nat) (v : Word) (be : BitVec 4) : Bool × State :=
  if be = 0xF then (true, s.fullWrite a v)
  else
    let (r, s) := s.mramCheck a
    match r with
    | some w => (true, s.fullWrite a (mergeBE w v be))
    | none => (false, s)

/-! ### Cores and their D-caches -/

/-- Core n. -/
def State.core (s : State) (n : Nat) : Core := tget {} s.cores n

/-- The state with core n replaced. -/
def State.setCore (s : State) (n : Nat) (c : Core) : State := { s with cores := tset {} s.cores n c }

/-- The D-cache line of core n with a line number. -/
def State.line (s : State) (n l : Nat) : Line := tget {} (s.core n).dcache l

/-- The state with a D-cache line of core n replaced. -/
def State.setLine (s : State) (n l : Nat) (x : Line) : State :=
  s.setCore n { s.core n with dcache := tset {} (s.core n).dcache l x }

/-- Writes a line back to its home, marked words keeping their mark. -/
def State.lineToHome (s : State) (l : Nat) (x : Line) : State :=
  (List.range 8).foldl (fun s i =>
    if x.bad.testBit i then s.setEcc (32 * l + 4 * i) 2
    else s.fullWrite (32 * l + 4 * i) (x.data.getD i 0)) s

/-- The core that holds a line in M, if any. -/
def State.owner (s : State) (l : Nat) : Option Nat :=
  (List.range 4).find? (fun n => decide ((s.line n l).st = .m))

/-- A core other than `n` holds the line. -/
def State.heldElsewhere (s : State) (n l : Nat) : Bool :=
  (List.range 4).any (fun k => k != n && decide ((s.line k l).st ≠ .i))

/-- Every D-cache copy of a line but core n's (n = 4: every copy) answers a snoop of RDU, UPG, WRI or ATM: an M copy is
written back, and each goes to I (Table 8-8). -/
def State.snoopInv (s : State) (n l : Nat) : State :=
  (List.range 4).foldl (fun s k =>
    if k = n then s
    else
      let x := s.line k l
      let s := if x.st = .m then s.lineToHome l x else s
      s.setLine k l {}) s

/-- Every D-cache copy of a line but core n's answers a snoop of RDS (Table 8-8). -/
def State.snoopShare (s : State) (n l : Nat) : State :=
  (List.range 4).foldl (fun s k =>
    let x := s.line k l
    if k = n ∨ x.st = .i then s
    else
      let s := if x.st = .m then s.lineToHome l x else s
      s.setLine k l { x with st := .s }) s

/-- Reads the eight words of a line at its home: the words, a mask of those with an uncorrectable error. -/
def State.fillLine (s : State) (l : Nat) : (List Word × Nat) × State :=
  (List.range 8).foldl (fun acc i =>
    let ((ws, bad), s) := acc
    let (r, s) := s.homeRead (32 * l + 4 * i)
    match r with
    | some w => ((ws ++ [w], bad), s)
    | none => ((ws ++ [s.rdWord (32 * l + 4 * i)], bad ||| 1 <<< i), s)) (([], 0), s)

/-- RDS: a D-cache load miss (R429): E where no other D-cache holds the line, else S. -/
def State.doRds (s : State) (n l : Nat) : State :=
  if (s.line n l).st ≠ .i then s
  else
    let shared := s.heldElsewhere n l
    let s := s.snoopShare n l
    let ((ws, bad), s) := s.fillLine l
    s.setLine n l ⟨if shared then .s else .e, ws, bad⟩

/-- RDU: a D-cache store miss (R428, R429): the line goes to M. -/
def State.doRdu (s : State) (n l : Nat) : State :=
  if (s.line n l).st = .m then s
  else
    let s := s.snoopInv n l
    let ((ws, bad), s) := s.fillLine l
    s.setLine n l ⟨.m, ws, bad⟩

/-- UPG: a store hit on a line in S (R428, R429). -/
def State.doUpg (s : State) (n l : Nat) : State :=
  if (s.line n l).st = .s then
    let s := s.snoopInv n l
    s.setLine n l { s.line n l with st := .m }
  else s

/-- WBK of an M line: written back to its home, and left in `after` (eviction I, DCWB E; R428, R430). -/
def State.doWbk (s : State) (n l : Nat) (after : Mesi) : State :=
  let x := s.line n l
  if x.st = .m then
    let s := s.lineToHome l x
    s.setLine n l (if after = .i then {} else { x with st := after })
  else s

/-- RDO of one word: the M holder supplies its data, else the home does; no D-cache changes (Table 8-8). `none` where the
word holds an uncorrectable error, which is reported (R462). -/
def State.cohRd (s : State) (a : Nat) : Option Word × State :=
  let l := a / 32
  let i := a % 32 / 4
  match s.owner l with
  | some n =>
    let x := s.line n l
    if x.bad.testBit i then (none, s.eccUncorrected 0 Reg.XLT_STATUS 1 Reg.XLT_ECCADDR a)
    else (some (x.data.getD i 0), s)
  | none => s.homeRead a

/-- WRI of one word under byte enables: every copy goes to I, then the home writes; a partial write of an uncorrectable
word is not made (Table 8-8, Table 8-11). -/
def State.cohWr (s : State) (a : Nat) (v : Word) (be : BitVec 4) : Bool × State :=
  let s := s.snoopInv 4 (a / 32)
  if be = 0xF then (true, s.fullWrite a v)
  else if be = 0 then (true, s)
  else
    let (r, s) := s.homeRead a
    match r with
    | some w => (true, s.fullWrite a (mergeBE w v be))
    | none => (false, s)

/-- The new value of an atomic on an old one (Table 6-5). -/
def atomicNew (op : AtomicOp) (old x cmp : Half) : Half :=
  match op with
  | .xchg => x
  | .cas => if old = cmp then x else old
  | .fadd => old + x

/-- ATM at the home: every copy goes to I, the word is read, written and its old value returned; none where it holds an
uncorrectable error (R431, R451, Table 8-11). -/
def State.doAtm (s : State) (op : AtomicOp) (a : Nat) (x cmp : Half) : Option Half × State :=
  let s := s.snoopInv 4 (a / 32)
  let (r, s) := s.homeRead a
  match r with
  | some w =>
    let hi := a % 4 / 2 == 1
    let old : Half := if hi then (w >>> 16).setWidth 16 else w.setWidth 16
    let new := atomicNew op old x cmp
    let nw : Word := new.setWidth 32
    (some old, s.fullWrite (a / 4 * 4) (mergeBE w (if hi then nw <<< 16 else nw) (if hi then 0xC else 0x3)))
  | none => (none, s)

/-- Fills an I-cache line of core n with the latest data, a failing word marked (R437, R462). -/
def State.iFill (s : State) (n l : Nat) : State :=
  let ((ws, bad), s) := (List.range 8).foldl (fun acc i =>
    let ((ws, bad), s) := acc
    let (r, s) := s.cohRd (32 * l + 4 * i)
    match r with
    | some w => ((ws ++ [w], bad), s)
    | none => ((ws ++ [s.rdWord (32 * l + 4 * i)], bad ||| 1 <<< i), s)) ((([] : List Word), 0), s)
  s.setCore n { s.core n with icache := tset ([], 0) (s.core n).icache l (ws, bad) }

/-! ### Requests at the arbiter -/

/-- The line that a request concerns. -/
def CohReq.lineOf : CohReq → Nat
  | .rds _ l => l
  | .rdu _ l => l
  | .upg _ l => l
  | .wbk _ l => l
  | .rdo _ _ l => l
  | .wri a _ _ => a / 32
  | .atm _ a _ _ => a / 32

/-- A request is served at its home (Table 8-7); an ATM has an answer. -/
def State.serve (s : State) (q : CohReq) : Reply × State :=
  match q with
  | .rds n l => (.none, s.doRds n l)
  | .rdu n l => (.none, s.doRdu n l)
  | .upg n l => (.none, s.doUpg n l)
  | .wbk n l => (.none, s.doWbk n l .i)
  | .rdo k n l => match k with
    | .ifill => (.none, s.iFill n l)
    | _ => (.none, (List.range 8).foldl (fun s i => (s.cohRd (32 * l + 4 * i)).2) s)
  | .wri a v be => (.none, (s.cohWr a v be).2)
  | .atm op a x cmp =>
    let (r, s) := s.doAtm op a x cmp
    (match r with | some o => .word (o.setWidth 32) | none => .busError 0, s)

/-- CORE cycles of the 15 FABRIC cycles for which a line is busy at most (R432). -/
abbrev busyCycles : Nat := 30

/-- A line is busy at its home (R432). -/
def State.lineBusy (s : State) (l : Nat) : Bool := (tget {} s.coh.busy l).left != 0
/-- Port p has a request outstanding at the arbiter, or holds its credit (R433, R434). -/
def State.reqOut (s : State) (p : Nat) : Bool :=
  s.coh.credits.any (fun e => e.1 == p) || s.coh.busy.any (fun e => e.2.port == p && e.2.left != 0)

/-- A request is served, answers its requester, and holds its line busy (R432). -/
def State.serveFor (s : State) (p : Nat) (q : CohReq) : State :=
  let (r, s) := s.serve q
  { s with reply := (match r with | .none => s.reply | a => a),
           coh := { s.coh with busy := tset {} s.coh.busy q.lineOf ⟨p, busyCycles⟩ } }

/-- A request of a port reaches the arbiter (R428, R432 to R434): a port with a request outstanding or with its credit issues
nothing; a request to a busy line, or an UPG whose S copy is gone, is answered RETRY with the port's credit; any other is
served. -/
def State.request (s : State) (p : Nat) (q : CohReq) : State :=
  let gone := match q with | .upg n l => decide ((s.line n l).st = .i) | _ => false
  if s.reqOut p then s
  else if s.lineBusy q.lineOf || gone then
    { s with coh := { s.coh with credits := s.coh.credits ++ [(p, q)] } }
  else s.serveFor p q

/-- A reissue after GO: an UPG is sent as RDU (R433). -/
def CohReq.reissue : CohReq → CohReq
  | .upg n l => .rdu n l
  | q => q

/-! ### Accesses that a unit makes whole in one step

A load, store, atomic, walk, element, fold access or host access takes its turn at the home within its own step: the request
that holds its line completes, and the credited requests of its port and of its line, which come before it, are served
(R432 to R434; DEDUCED, log entry 110). -/

/-- A credited request is served on the way of another access; the old value of an atomic is kept for its port (R431). -/
def State.serveLate (s : State) (e : Nat × CohReq) : State :=
  let (r, s) := s.serve e.2.reissue
  match r with
  | .none => s
  | a => { s with coh := { s.coh with answers := s.coh.answers ++ [(e.1, a)] } }

/-- The request that holds a line completes, and the line's credited requests are served in their order (R433). -/
def State.lineTurn (s : State) (l : Nat) : State :=
  let qs := s.coh.credits.filter (fun e => e.2.lineOf == l)
  let s := { s with coh := { s.coh with busy := tset {} s.coh.busy l {},
                                        credits := s.coh.credits.filter (fun e => e.2.lineOf != l) } }
  qs.foldl State.serveLate s

/-- A request of port p for a line has its turn at the home: nothing of its port is outstanding and the line is free. -/
def State.atHome (s : State) (p l : Nat) : State :=
  let s := match s.coh.credits.find? (fun e => e.1 == p) with
    | some e => s.lineTurn e.2.lineOf
    | none => s
  ({ s with coh := { s.coh with busy := s.coh.busy.filter (fun e => e.2.port != p) } }).lineTurn l

/-- A coherent read of one word by port p. -/
def State.coRd (s : State) (p a : Nat) : Option Word × State := (s.atHome p (a / 32)).cohRd a
/-- A coherent write of one word by port p. -/
def State.coWr (s : State) (p a : Nat) (v : Word) (be : BitVec 4) : Bool × State := (s.atHome p (a / 32)).cohWr a v be
/-- Coherent writes of words by port p from an address upwards. -/
def State.coWrs (s : State) (p a : Nat) : List Word → State
  | [] => s
  | w :: ws => ((s.coWr p a w 0xF).2).coWrs p (a + 4) ws

/-- Core n's D-cache holds a line that it loads from (R429). -/
def State.holdLine (s : State) (n l : Nat) : State :=
  if (s.line n l).st = .i then (s.atHome n l).doRds n l else s
/-- Core n's D-cache holds a line in M that it stores to (R429); an S copy that is gone at its turn is read again. -/
def State.ownLine (s : State) (n l : Nat) : State :=
  match (s.line n l).st with
  | .m => s
  | .e => s.setLine n l { s.line n l with st := .m }
  | _ =>
    let s := s.atHome n l
    if (s.line n l).st = .s then s.doUpg n l else s.doRdu n l
/-- Core n's M line is written back, and left in `after` (R428, R430). -/
def State.backLine (s : State) (n l : Nat) (after : Mesi) : State :=
  if (s.line n l).st = .m then (s.atHome n l).doWbk n l after else s

/-- The coherent port of a requester (chapter 8, Coherence). -/
def cohPort : Requester → Nat
  | .core n => n.val
  | .dma _ => 4
  | _ => 6

/-! ### The rows -/

/-- R429: an RDS of core n. -/
def execRds (n : Fin 4) (line : BitVec 16) (s : State) : Host.Outcome State Fault Refusal :=
  done (if s.live then s.request n.val (.rds n.val line.toNat) else s)
/-- R429: an RDU of core n. -/
def execRdu (n : Fin 4) (line : BitVec 16) (s : State) : Host.Outcome State Fault Refusal :=
  done (if s.live then s.request n.val (.rdu n.val line.toNat) else s)
/-- R429: an UPG of core n. -/
def execUpg (n : Fin 4) (line : BitVec 16) (s : State) : Host.Outcome State Fault Refusal :=
  done (if s.live then s.request n.val (.upg n.val line.toNat) else s)
/-- R429, R460: core n evicts a line: an M line by WBK, another without a request. -/
def execWbk (n : Fin 4) (line : BitVec 16) (s : State) : Host.Outcome State Fault Refusal :=
  let l := line.toNat
  done (if !s.live then s
    else if (s.line n.val l).st = .m then s.request n.val (.wbk n.val l)
    else s.setLine n.val l {})

/-- The port that issues a non-allocating read (chapter 8, Coherence). -/
def rdoPort (k : RdoKind) (n : Nat) : Nat :=
  match k with | .ifill => n | .walk => n | .dma => 4 | .morium => 5 | .hif => 6

/-- R428: a WRI of port p. -/
def execWri (p : Fin 7) (addr : BitVec 21) (val : Word) (be : BitVec 4) (s : State) : Host.Outcome State Fault Refusal :=
  done (if s.live then s.request p.val (.wri (addr.toNat / 4 * 4) val be) else s)
/-- R431: an ATM of core n. -/
def execAtm (n : Fin 4) (op : AtomicOp) (addr : BitVec 21) (x cmp : Half) (s : State) : Host.Outcome State Fault Refusal :=
  done (if s.live then s.request n.val (.atm op (addr.toNat / 2 * 2) x cmp) else s)

/-- An atomic of port p that has been served on the way of another access gives its old value (R431). -/
def State.lateAnswer (s : State) (p : Nat) : State :=
  match s.coh.answers.find? (fun e => e.1 == p) with
  | some e => { s with reply := e.2, coh := { s.coh with answers := s.coh.answers.erase e } }
  | none => s

/-- R433: the home sends GO to credited port p when its request is the first of its line; the reissue is served. Where it has been
served on the way of another access, the answer of its atomic comes now (R431, log entry 110). -/
def execGo (p : Fin 7) (s : State) : Host.Outcome State Fault Refusal :=
  match s.coh.credits.find? (fun e => e.1 == p.val) with
  | some (_, q) =>
    let first := s.coh.credits.find? (fun e => e.2.lineOf == q.lineOf)
    if s.live && first == some (p.val, q) && !s.lineBusy q.lineOf then
      let s := { s with coh := { s.coh with credits := s.coh.credits.filter (fun e => e.1 != p.val) } }
      done (s.serveFor p.val q.reissue)
    else done s
  | none => done (if s.live then s.lateAnswer p.val else s)

/-! ### Maintenance and the ledger -/

/-- The scrubber reads one word and writes a corrected one back (R446, R461, R462). -/
def State.scrubWord (s : State) (a : Nat) : State :=
  match s.eccAt a with
  | 1 => (s.homeRead a).2.setEcc a 0
  | _ => (s.homeRead a).2

/-- R446: the scrubber reads the next line of each bank. -/
def execScrub (s : State) : Host.Outcome State Fault Refusal :=
  if s.live && s.bit Reg.XLT_CTRL 0 then
    let at_ := s.coh.scrubAt
    let s := forN 8 (fun b s => forN 8 (fun i s => s.scrubWord (32 * (8 * at_ + b) + 4 * i)) s) s
    done { s with coh := { s.coh with scrubAt := (at_ + 1) % 8192 } }
  else done s

/-- The size as it acts (R447). -/
def mirSize (v : Nat) : Nat := if v = 0 then 1 else if 16 < v then 16 else v

/-- The mirror's writes, WRI requests of the maintenance class, come from none of the seven ports (R447). -/
abbrev mirrorPort : Nat := 7

/-- Copies `n` words from MRAM to shared SRAM; an uncorrectable word arrives with its mark (R447, R465). -/
def State.mirrorCopy : Nat → Nat → Nat → State → State
  | 0, _, _, s => s
  | n + 1, src, dst, s =>
    let (r, s) := s.mramCheck src
    let s := match r with
      | some w => (s.coWr mirrorPort dst w 0xF).2
      | none => ((s.coWr mirrorPort dst (s.rdWord src) 0xF).2).setEcc dst 2
    State.mirrorCopy n (src + 4) (dst + 4) s

/-- R447: the MRAM mirror copies its range. -/
def execMramMirror (s : State) : Host.Outcome State Fault Refusal :=
  if s.live && s.bit Reg.XLT_CTRL 1 then
    done (State.mirrorCopy (1024 * mirSize (s.fld Reg.XLT_MIRCFG 0 5)) (s.rd Reg.XLT_MIRSRC).toNat
      (s.rd Reg.XLT_MIRDST).toNat s)
  else done s

/-- R445: a ledger window ends with the highest stage seen in any bank. -/
def execLedgerWindow (stage : Fin 5) (s : State) : Host.Outcome State Fault Refusal :=
  if s.live then
    let old := s.fld Reg.XLT_LEDGER 16 3
    let k := stage.val
    let s := s.setFld Reg.XLT_LEDGER 16 3 k
    let s := if k = 0 then s else s.tally (Reg.XLT_STAGETALLY (k - 1))
    done (if old < k then s.event evLEDGER_DEGRADE k 0 else s)
  else done s

/-! ### Tokens of booked consumers -/

/-- Tokens that a bank holds at most for a booking of `r` MB/s, in 1/3200 byte: 2 µs of the consumer's rate, and at least 64 bytes
(R444). -/
def tokenDepth (r : Nat) : Nat := max 204800 (6400 * r)

/-- The tokens of a booked consumer after an access of `size` bytes at pa (R444). -/
def spendBank (t : Tab Nat) (pa size : Nat) : Tab Nat := tset 0 t (pa / 32 % 8) (tget 0 t (pa / 32 % 8) - 3200 * size)
/-- The tokens of a consumer booked at `r` MB/s after one CORE cycle more (R444). -/
def gainBanks (t : Tab Nat) (r : Nat) : Tab Nat :=
  (List.range 8).foldl (fun t b => tset 0 t b (min (tokenDepth r) (tget 0 t b + r))) t

end Sys2Proof.Machine
end

