-- ==== Sys2Proof/Machine/Pool.lean ====
section
/-!
DEFINITION. Chapter 9, the cell pool: staging FIFOs, queues, cell grants, policies, pops, releases and the scrubber.
-/
namespace Sys2Proof.Machine

/-- Number of queues and of cells (chapter 9, Settles). -/
abbrev poolQueues : Nat := 64
abbrev poolCells : Nat := 8192

/-- Raw-view address of word `i` of cell `c` (R468). -/
def cellAddr (c i : Nat) : Nat := 0x02000000 + 32 * c + 4 * i

/-- Queue q. -/
def State.pq (s : State) (q : Nat) : PoolQ := tget {} s.pool.qs q
/-- The state with queue q replaced. -/
def State.setPq (s : State) (q : Nat) (x : PoolQ) : State :=
  { s with pool := { s.pool with qs := tset {} s.pool.qs q x } }
/-- Port p. -/
def State.pport (s : State) (p : Nat) : PoolPort := tget {} s.pool.ports p
/-- The state with port p replaced; HSTAT.FREE shows port 6 (Table 9-5). -/
def State.setPport (s : State) (p : Nat) (x : PoolPort) : State :=
  let s := { s with pool := { s.pool with ports := tset {} s.pool.ports p x } }
  if p = 6 then s.setFld Reg.POOL_HSTAT 0 4 (8 - x.fifo.length) else s

/-- The queue's fields as they act (R493). -/
def State.qMaxCells (s : State) (q : Nat) : Nat := max 1 (min poolCells (s.fld (Reg.POOL_QLIM q) 0 14))
def State.qReserve (s : State) (q : Nat) : Nat := min (s.qMaxCells q) (s.fld (Reg.POOL_QLIM q) 16 14)
def State.qItemLen (s : State) (q : Nat) : Nat := max 1 (s.fld (Reg.POOL_QCFG q) 2 3)
def State.qEn (s : State) (q : Nat) : Bool := s.bit (Reg.POOL_QCFG q) 0
def State.qRelBusy (s : State) (q : Nat) : Bool := s.bit (Reg.POOL_QSTAT q) 26
def State.qDepth (s : State) (q : Nat) : Nat := s.fld (Reg.POOL_QSTAT q) 0 16
def State.qSeq (s : State) (q : Nat) : Nat := s.fld (Reg.POOL_QSTAT q) 16 8

/-- A memory proof of the cell pool runs (R499). -/
def State.poolProof (s : State) : Bool := s.hif.proof.testBit 1

/-- The next SEQ is used up (R471). -/
def State.qSeqUp (s : State) (q : Nat) : State := s.setFld (Reg.POOL_QSTAT q) 16 8 (s.qSeq q + 1)

/-- OVF is set, and with OVFN the notify line asserted (R484, R487). -/
def State.qOvf (s : State) (q : Nat) : State :=
  let s := s.setBit (Reg.POOL_QSTAT q) 24 true
  if s.bit (Reg.POOL_QNOT q) 3 && s.bit (Reg.POOL_QNOT q) 4 then s.source (40 + s.fld (Reg.POOL_QNOT q) 0 3) else s

/-- Repeats a state change n times. -/
def repeatN : Nat → (State → State) → State → State
  | 0, _, s => s
  | n + 1, f, s => repeatN n f (f s)

/-- What other enabled queues may still claim of their reserves (R483). -/
def State.reserveClaims (s : State) (q : Nat) : Nat :=
  ((List.range poolQueues).map (fun r => if r ≠ q && s.qEn r then s.qReserve r - (s.pq r).cells else 0)).sum

/-- A free cell can be granted to queue q, which holds `n` cells (R483, R505). -/
def State.canGrant (s : State) (q n free : Nat) : Bool :=
  decide (n < s.qMaxCells q) && decide (0 < free) && (decide (n < s.qReserve q) || decide (s.reserveClaims q < free))
    && !s.bit Reg.POOL_STATUS 0

/-- The lowest free cell at or above `c`, of the next `k` cells. -/
def freeFrom (owner : Tab Nat) : Nat → Nat → Nat
  | _, 0 => 0
  | c, k + 1 => if tget 0 owner c = 0 then c else freeFrom owner (c + 1) k

/-- Frees a cell (R486). -/
def State.freeCell (s : State) (c : Nat) : State :=
  ({ s with pool := { s.pool with owner := tset 0 s.pool.owner c 0 } }).setFld Reg.POOL_FREE 0 14 (s.fld Reg.POOL_FREE 0 14 + 1)

/-- An uncorrectable pool word is reported (R503, R504). -/
def State.poolUe (s : State) (a : Nat) : State := s.eccUncorrected 1 Reg.POOL_STATUS 1 Reg.POOL_ECCADDR a

/-- A broken link empties its queue; its cells are released by the maintenance requester (R504, R505). -/
def State.brokenLink (s : State) (q a : Nat) : State :=
  let s := s.setFld (Reg.POOL_QSTAT q) 0 16 0
  let s := (s.setBit (Reg.POOL_QSTAT q) 25 true).setBit (Reg.POOL_QSTAT q) 26 true
  (s.setPq q { s.pq q with headPos := 0, tailPos := 0 }).poolUe a

/-- A correctable error of a pool word that is read is counted and written back corrected (R501). -/
def State.poolFix (s : State) (a : Nat) : State :=
  if s.eccAt a = 1 then (s.eccCorrected 1 Reg.POOL_ECCTALLY).setEcc a 0 else s

/-- Releases the head cell of queue q and follows its link to the next cell, which the owner table must name as the
queue's own (R486, R502). -/
def State.releaseHead (s : State) (q : Nat) : State :=
  let x := s.pq q
  let a := cellAddr x.head 7
  if x.cells ≤ 1 then
    (s.freeCell x.head).setPq q { x with cells := 0, headPos := 0, tailPos := 0 }
  else
    let e := s.eccAt a
    let next := (s.rdWord a).toNat % 8192
    let s := s.poolFix a
    if e = 2 ∨ tget 0 s.pool.owner next ≠ q + 1 ∨ next = x.head then s.brokenLink q a
    else
      (s.freeCell x.head).setPq q { x with head := next, cells := x.cells - 1, headPos := 0 }

/-- The cell at the head of the free list: the free cell of the lowest index (DESIGN CHOICE, log entry 69). -/
def State.freeHead (s : State) : Nat := freeFrom s.pool.owner 0 poolCells

/-- Queue q needs a cell for `k` more words. -/
def State.needsCell (s : State) (q k : Nat) : Bool :=
  let x := s.pq q
  decide ((if x.cells = 0 then 0 else 7 - x.tailPos) < k)

/-- Before queue q takes a free cell for `k` words, the free list's link in that cell is checked: an uncorrectable one is a broken
link, and the pool rebuilds the list (R502, R504; DEDUCED, log entry 159). -/
def State.freeLink (s : State) (q k : Nat) : State :=
  let a := cellAddr s.freeHead 7
  if s.needsCell q k && s.fld Reg.POOL_FREE 0 14 != 0 && !s.bit Reg.POOL_STATUS 0 && s.eccAt a == 2 then
    (s.setBit Reg.POOL_STATUS 0 true).poolUe a
  else s

/-- Takes a free cell for the tail of queue q and links it (R468, R501). -/
def State.growQueue (s : State) (q : Nat) : State :=
  let x := s.pq q
  let c := s.freeHead
  let s := s.poolFix (cellAddr c 7)
  let s := { s with pool := { s.pool with owner := tset 0 s.pool.owner c (q + 1) } }
  let s := s.setFld Reg.POOL_FREE 0 14 (s.fld Reg.POOL_FREE 0 14 - 1)
  if x.cells = 0 then s.setPq q { x with head := c, tail := c, cells := 1, headPos := 0, tailPos := 0 }
  else (s.fullWrite (cellAddr x.tail 7) (BitVec.ofNat 32 c)).setPq q { x with tail := c, cells := x.cells + 1, tailPos := 0 }

/-- Every cell that `k` more words need can be granted (R483, R484). -/
def State.roomFor (s : State) (q k : Nat) : Bool :=
  let x := s.pq q
  let left := if x.cells = 0 then 0 else 7 - x.tailPos
  let need := (k - left + 6) / 7
  let free := s.fld Reg.POOL_FREE 0 14
  (List.range need).all (fun i => s.canGrant q (x.cells + i) (free - i))

/-- Places one word at the tail with its SEQ (R471, R487). -/
def State.placeOne (s : State) (q : Nat) (w : PoolWord) : State :=
  let s := if (s.pq q).cells = 0 || (s.pq q).tailPos == 7 then s.growQueue q else s
  let x := s.pq q
  let v : Nat := 2 ^ 31 + (w.tag % 64) * 2 ^ 24 + s.qSeq q * 2 ^ 16 + w.data.toNat
  let s := s.fullWrite (cellAddr x.tail x.tailPos) (BitVec.ofNat 32 v)
  let s := (s.setPq q { x with tailPos := x.tailPos + 1 }).qSeqUp q
  let d := s.qDepth q + 1
  let s := s.setFld (Reg.POOL_QSTAT q) 0 16 d
  if s.bit (Reg.POOL_QNOT q) 3 && d == max 1 (s.fld (Reg.POOL_QNOT q) 16 16) then
    s.source (40 + s.fld (Reg.POOL_QNOT q) 0 3)
  else s

/-- Discards a word: its SEQ is used up, and it counts in DROP where `count` (R471, R484). -/
def State.dropWord (s : State) (q : Nat) (count : Bool) : State :=
  let s := s.qSeqUp q
  if count then s.tally (Reg.POOL_QTALLY q) else s

/-- DROP_OLD: the head cell is released with every word still in it, until the placement succeeds or the queue holds
nothing (Table 9-4). -/
def State.dropOld (s : State) (q k : Nat) : Nat → State
  | 0 => s
  | fuel + 1 =>
    let s := s.freeLink q k
    if s.roomFor q k || (s.pq q).cells == 0 || s.qRelBusy q then s
    else
      let x := s.pq q
      let held := if x.cells = 1 then x.tailPos - x.headPos else 7 - x.headPos
      let s := s.releaseHead q
      if s.qRelBusy q then s
      else
        let s := repeatN held (fun s => s.tally (Reg.POOL_QTALLY q)) s
        (s.setFld (Reg.POOL_QSTAT q) 0 16 (s.qDepth q - held)).dropOld q k fuel

/-- The pool places a word or an item, or acts on the queue's policy (R484, R485, R494). -/
def State.placeItem (s : State) (q : Nat) (ws : List PoolWord) : State :=
  let drop (s : State) (count : Bool) : State := ws.foldl (fun s _ => s.dropWord q count) s
  if s.poolProof then drop s true
  else if !s.qEn q || s.qRelBusy q then drop (s.setBit Reg.POOL_STATUS 3 true) false
  else
  let s := s.freeLink q ws.length
  if s.roomFor q ws.length then ws.foldl (fun s w => s.placeOne q w) s
  else
    let s := s.qOvf q
    let s := if s.bit (Reg.POOL_QCFG q) 1 then s.dropOld q ws.length poolCells else s
    if s.qRelBusy q then drop (s.setBit Reg.POOL_STATUS 3 true) false
    else if s.roomFor q ws.length then ws.foldl (fun s w => s.placeOne q w) s
    else drop s true

/-! ### Ports -/

/-- CORE cycles in which the full flag of port p may stay set after an entry is freed (Table 9-3). -/
def flagLag (p : Nat) : Nat := if p = 5 then 14 else if p = 6 then 7 else 5

/-- CORE cycles in which the pool may not see a word that has entered the FIFO of port p (Table 9-3). -/
def emptyLag (p : Nat) : Nat := if p = 5 then 8 else if p = 6 then 6 else 5

/-- The port's FIFO without its first k words, whose entries are freed. -/
def PoolPort.take (x : PoolPort) (p k : Nat) : PoolPort :=
  { x with fifo := x.fifo.drop k, req := x.req.map (fun r => (r.1, r.2 - k)), more := x.more.map (fun r => (r.1, r.2 - k)),
           freed := x.freed ++ List.replicate (min k x.fifo.length) (flagLag p) }

/-- The port's FIFO without its last k words, which the pool discards as a broken item (R482). -/
def PoolPort.cut (x : PoolPort) (p k : Nat) : PoolPort :=
  let f := x.fifo.take (x.fifo.length - k)
  { x with fifo := f, req := x.req.map (fun r => (r.1, min r.2 f.length)), more := x.more.map (fun r => (r.1, min r.2 f.length)),
           freed := x.freed ++ List.replicate k (flagLag p) }

/-- The full flag of port p, for a writer that holds `held` words more for it: set while its FIFO holds 8 entries, counting those
freed in this CORE cycle (R500); clear where it would with every entry freed of late; else free (R474). -/
def State.portFlag (s : State) (p held : Nat) : Bool × State :=
  let x := s.pport p
  let n := x.fifo.length + held
  if 8 ≤ n + (x.freed.filter (· == flagLag p)).length then (true, s)
  else if n + x.freed.length < 8 then (false, s)
  else
    let (w, s) := s.drawWord
    (W.bit w 0, s)

/-- HSTAT as the host reads it: FREE leaves out some of the entries of port 6 that were freed of late (R474, R489). -/
def State.hstatRead (s : State) : Word × State :=
  let v := s.rd Reg.POOL_HSTAT
  let k := (s.pport 6).freed.length
  if k = 0 then (v, s)
  else
    let (w, s) := s.drawWord
    (W.setFld v 0 4 (W.fld v 0 4 - w.toNat % (k + 1)), s)

/-- One CORE cycle of a port's flags. -/
def State.portAge (s : State) (p : Nat) : State :=
  let x := s.pport p
  if x.freed.isEmpty && x.fresh == 0 then s
  else
    let x := { x with freed := (x.freed.map (· - 1)).filter (· != 0), fresh := x.fresh - 1 }
    { s with pool := { s.pool with ports := tset {} s.pool.ports p x } }

/-- How many words at the head of a FIFO are for queue q. -/
def runLength (q : Nat) : List PoolWord → Nat
  | [] => 0
  | w :: ws => if w.q = q then runLength q ws + 1 else 0

/-- Discards the words of a broken item: each takes its SEQ, and one counts in BRK (R471, R482). -/
def State.dropBroken (s : State) (q k : Nat) : State := (repeatN k (fun s => s.qSeqUp q) s).tallyHi (Reg.POOL_QTALLY q)

/-- A word for queue q reaches port p's FIFO: where the last words in it are for another queue and end in an incomplete item, that
item is broken (R482). During a proof every word is discarded by itself (R499). -/
def State.breakTail (s : State) (p q : Nat) : State :=
  let x := s.pport p
  match x.fifo.getLast? with
  | none => s
  | some l =>
    let r := runLength l.q x.fifo.reverse % s.qItemLen l.q
    if l.q = q || r = 0 || !s.qEn l.q || s.poolProof then s
    else (s.dropBroken l.q r).setPport p (x.cut p r)

/-- Items at the head of a port's FIFO that words for another queue follow, left incomplete while their queue or its ITEMLEN changed,
are broken too (R482). -/
def State.breakHead (s : State) (p : Nat) : Nat → State
  | 0 => s
  | fuel + 1 =>
    let x := s.pport p
    match x.fifo with
    | [] => s
    | w :: _ =>
      let k := s.qItemLen w.q
      let run := min k (runLength w.q x.fifo)
      if decide (run < k) && decide (run < x.fifo.length) && s.qEn w.q && !s.poolProof then
        let s := s.dropBroken w.q run
        (s.setPport p (x.take p run)).breakHead p fuel
      else s

/-- Words of the placement at the head of port p's FIFO: an item of its queue, or one word (R481, R494, R499). -/
def State.headLen (s : State) (q : Nat) : Nat := if s.qEn q && !s.poolProof then s.qItemLen q else 1

/-- A word or a whole item stands at the head of port p's FIFO (R481). -/
def State.pushWork (s : State) (p : Nat) : Bool :=
  match (s.pport p).fifo with
  | [] => false
  | w :: _ => decide (s.headLen w.q ≤ runLength w.q (s.pport p).fifo)

/-- Requester r has work that the pool sees: a push of a port that its empty flag shows, a pop, a cell to release or the free list to
rebuild (R474, R476). -/
def State.sureWork (s : State) (r : Nat) : Bool :=
  if r = 7 then s.bit Reg.POOL_STATUS 0 || (List.range poolQueues).any s.qRelBusy
  else (s.pushWork r && (s.pport r).fresh == 0) || (match (s.pport r).req with | some (_, 0) => true | _ => false)

/-- It is requester r's turn: none whose work the pool sees comes before it in round-robin order (R476). -/
def State.poolTurn (s : State) (r : Nat) : Bool :=
  (List.range ((r + 7 - s.pool.rr) % 8)).all (fun i => !s.sureWork ((s.pool.rr + 1 + i) % 8))

/-- Requester r has been granted (R476). -/
def State.poolGranted (s : State) (r : Nat) : State := { s with pool := { s.pool with rr := r } }

/-- A push enters a port's staging FIFO. -/
def State.enterFifo (s : State) (p : Nat) (w : PoolWord) : State :=
  let s := s.breakTail p w.q
  let x := s.pport p
  let fresh := if s.pushWork p then x.fresh else emptyLag p
  (s.setPport p { x with fifo := x.fifo ++ [w], fresh := fresh }).breakHead p 8

/-- A push meets a port: it enters the staging FIFO; false where the full flag is set, and it counts in FULLTALLYp (R475). -/
def State.stage (s : State) (p q tag : Nat) (data : Half) : Bool × State :=
  let (full, s) := s.portFlag p 0
  if full then (false, s.tally (Reg.POOL_FULLTALLY p)) else (true, s.enterFifo p ⟨q, tag, data⟩)

/-- The arbiter grants a push of port p: one word, or one item of its queue (R471, R476, R477, R481). -/
def State.poolPush (s : State) (p : Nat) : State :=
  let s := s.breakHead p 8
  let x := s.pport p
  match x.fifo with
  | [] => s
  | w :: _ =>
    let k := s.headLen w.q
    if runLength w.q x.fifo < k then s
    else
      let s := (s.setPport p (x.take p k)).poolGranted p
      (s.placeItem w.q (x.fifo.take k)).breakHead p 8

/-- R471, R476 to R485: the pool takes a word or item from port p, in its turn. -/
def execPoolPush (p : Fin 7) (s : State) : Host.Outcome State Fault Refusal :=
  done (if s.live && s.poolTurn p.val then s.poolPush p.val else s)

/-- The reply of a pop on an empty queue (R472). -/
def State.emptyReply (s : State) (q : Nat) : Word := BitVec.ofNat 32 (0x3F000000 + s.qSeq q * 2 ^ 16)

/-- Pops queue q: the queue word, or the empty reply (R472, R486, R494, R499, R501, R503). -/
def State.popQueue (s : State) (q : Nat) : Word × State :=
  if s.poolProof || !s.qEn q || s.qRelBusy q || s.qDepth q == 0 then (s.emptyReply q, s)
  else
    let x := s.pq q
    let a := cellAddr x.head x.headPos
    let e := s.eccAt a
    let seq := (x.popSeq + 1) % 256
    let s := if e = 1 then (s.eccCorrected 1 Reg.POOL_ECCTALLY).setEcc a 0 else if e = 0 then s else s.poolUe a
    let w : Word := if e = 2 then BitVec.ofNat 32 (0xFF000000 + seq * 2 ^ 16) else s.rdWord a
    let s := s.setPq q { x with headPos := x.headPos + 1, popSeq := W.fld w 16 8 }
    let d := s.qDepth q - 1
    let s := s.setFld (Reg.POOL_QSTAT q) 0 16 d
    (w, if x.headPos + 1 = 7 ∨ d = 0 then s.releaseHead q else s)

/-- Grants the pop request of port p once every push that entered its FIFO before has left (R478); a read of HPOP that waits behind it
comes next. -/
def State.poolPop (s : State) (p : Nat) : State :=
  match (s.pport p).req with
  | some (q, 0) =>
    let (w, s) := (s.poolGranted p).popQueue q
    let x := s.pport p
    if p = 6 then { (s.setPport p { x with req := x.more.head?, more := x.more.tail }) with reply := .word w }
    else s.setPport p { x with req := none, rep := some w }
  | _ => s

/-- R472, R476, R478: the pool grants a pop of port p, in its turn. -/
def execPoolPop (p : Fin 7) (s : State) : Host.Outcome State Fault Refusal :=
  done (if s.live && s.poolTurn p.val then s.poolPop p.val else s)

/-- A pop request of a port: one at a time, and each next read of HPOP waits for the one before it (R473, R489). -/
def State.popRequest (s : State) (p q : Nat) : State :=
  let x := s.pport p
  match x.req with
  | none => s.setPport p { x with req := some (q, x.fifo.length) }
  | some _ => if p = 6 then s.setPport p { x with more := x.more ++ [(q, x.fifo.length)] } else s

/-- R488: a host write to HQPUSH. -/
def State.hqpush (s : State) (val : Word) : State :=
  let (ok, s) := s.stage 6 (W.fld val 24 6) (W.fld val 16 6) (val.setWidth 16)
  if ok then s else s.setBit Reg.POOL_HSTAT 8 true

/-- R488: a host write to HQPUSH. -/
def execHqpush (val : Word) (s : State) : Host.Outcome State Fault Refusal :=
  done (if s.hostReg Reg.POOL_HQPUSH then s.hqpush val else s)

/-- R489, R478, R476, R497: a host read of HPOPq; it is granted at once where port 6 holds no push and no read before it and has its
turn, and has no answer yet where it waits for its grant. -/
def State.hpop (s : State) (q : Nat) : State :=
  let t := ({ s with reply := .none }).popRequest 6 q
  if (s.pport 6).req.isNone && t.poolTurn 6 then t.poolPop 6 else t

/-- R489: a host read of HPOPq. No word can enter the queue in the cycle of the pop, since the pool performs one operation per cycle
(R476). -/
def execHpop (q : Fin 64) (tlp : Tlp) (s : State) : Host.Outcome State Fault Refusal :=
  done (s.readBy .host tlp (Reg.POOL_HPOP q.val) (fun s => let t := s.hpop q.val; (t.reply, t)))

/-! ### Configuration -/

/-- The lowest cell at or above `c` that the owner table names for queue q, of the next `k` cells. -/
def ownedFrom (owner : Tab Nat) (q : Nat) : Nat → Nat → Option Nat
  | _, 0 => none
  | c, k + 1 => if tget 0 owner c = q + 1 then some c else ownedFrom owner q (c + 1) k

/-- R490 to R492: a write to QCFGq; one that R491 refuses changes nothing else. -/
def State.qcfgWrite (s : State) (q : Nat) (val : Word) : State :=
  let a := Reg.POOL_QCFG q
  let old := s.rd a
  let busy := W.bit old 0 || s.qRelBusy q
  if busy && W.fld old 1 4 != W.fld val 1 4 then s.wlrej a
  else if W.bit val 0 && !W.bit old 0 && decide (poolCells < s.fld Reg.POOL_RESSUM 0 14 + s.qReserve q) then
    s.setBit Reg.POOL_STATUS 2 true
  else
    let s := s.setFld a 1 4 (W.fld val 1 4)
    if W.bit val 0 && !W.bit old 0 then
      let s := s.setFld Reg.POOL_RESSUM 0 14 (s.fld Reg.POOL_RESSUM 0 14 + s.qReserve q)
      let s := (s.setFld (Reg.POOL_QSTAT q) 0 16 0).setFld (Reg.POOL_QSTAT q) 16 8 0
      (s.setPq q { s.pq q with popSeq := 255 }).setBit a 0 true
    else if !W.bit val 0 && W.bit old 0 then
      let s := s.setFld Reg.POOL_RESSUM 0 14 (s.fld Reg.POOL_RESSUM 0 14 - s.qReserve q)
      let s := (s.setFld (Reg.POOL_QSTAT q) 0 16 0).setBit a 0 false
      if (s.pq q).cells = 0 then s else s.setBit (Reg.POOL_QSTAT q) 26 true
    else s

/-- R492: a write to QCFGq. -/
def execQcfgWrite (q : Fin 64) (val : Word) (s : State) : Host.Outcome State Fault Refusal :=
  done (if s.live then s.qcfgWrite q.val val else s)

/-- R505: the maintenance requester releases one cell of a queue being emptied. -/
def execCellRelease (q : Fin 64) (s : State) : Host.Outcome State Fault Refusal :=
  if s.live && s.qRelBusy q.val && s.poolTurn 7 then
    let s := s.poolGranted 7
    match ownedFrom s.pool.owner q.val 0 poolCells with
    | some c =>
      let s := s.freeCell c
      match ownedFrom s.pool.owner q.val (c + 1) (poolCells - (c + 1)) with
      | some _ => done (s.setPq q.val { s.pq q.val with cells := (s.pq q.val).cells - 1 })
      | none => done ((s.setPq q.val { s.pq q.val with cells := 0, headPos := 0, tailPos := 0 }).setBit
          (Reg.POOL_QSTAT q.val) 26 false)
    | none => done ((s.setPq q.val { s.pq q.val with cells := 0, headPos := 0, tailPos := 0 }).setBit
        (Reg.POOL_QSTAT q.val) 26 false)
  else done s

/-- R504, R505: a broken link is met on the free list: the rebuild starts, and no cell is granted until it ends; at its end
the free cells are those that the owner table marks, and their links are written afresh. -/
def execFreeListRebuild (s : State) : Host.Outcome State Fault Refusal :=
  if !s.live then done s
  else if s.bit Reg.POOL_STATUS 0 then
    let link (a : Nat) : Bool := decide (0x02000000 ≤ a) && decide (a < 0x02040000) && a % 32 == 28
    let s := { s with ecc := tkeep (fun a => !(link a && tget 0 s.pool.owner ((a - 0x02000000) / 32) == 0)) s.ecc }
    let s := s.poolGranted 7
    done ((s.setFld Reg.POOL_FREE 0 14 (poolCells - s.pool.owner.length)).setBit Reg.POOL_STATUS 0 false)
  else done (s.setBit Reg.POOL_STATUS 0 true)

/-- The scrubber reads word `i` of cell `c` (R501, R506). -/
def State.poolScrubWord (s : State) (c i : Nat) : State :=
  let a := cellAddr c i
  match s.eccAt a with
  | 0 => s
  | 1 => (s.eccCorrected 1 Reg.POOL_ECCTALLY).setEcc a 0
  | _ =>
    let o := tget 0 s.pool.owner c
    if o = 0 then (s.fullWrite a 0).eccCorrected 1 Reg.POOL_ECCTALLY
    else if i = 7 then (if s.qRelBusy (o - 1) then s.poolUe a else s.brokenLink (o - 1) a)
    else s.poolUe a

/-- R506: the pool scrubber reads the next cell. -/
def execPoolScrub (s : State) : Host.Outcome State Fault Refusal :=
  if s.live && s.bit Reg.POOL_CTRL 0 && s.poolTurn 7 then
    let s := s.poolGranted 7
    let c := s.pool.scrubAt
    let s := (List.range 8).foldl (fun s i => s.poolScrubWord c i) s
    done { s with pool := { s.pool with scrubAt := (c + 1) % poolCells } }
  else done s

/-- A raw-view write of bytes of one word; false where it fails at the target (R498). -/
def State.rawViewWrite (s : State) (a : Nat) (v : Word) (be : BitVec 4) : Bool × State :=
  if s.bit Reg.POOL_CTRL 1 then (true, s.fullWrite (a / 4 * 4) (mergeBE (s.rdWord (a / 4 * 4)) v be)) else (false, s)

/-- R498: a raw-view write. -/
def execRawViewWrite (off : BitVec 18) (val : Word) (s : State) : Host.Outcome State Fault Refusal :=
  if s.live then
    let (ok, s) := s.rawViewWrite (0x02000000 + off.toNat / 4 * 4) val 0xF
    done (if ok then { s with reply := .none } else { s with reply := .busError 0 })
  else done s

/-- A link reset or function-level reset discards the words of port 6 and its ungranted pop (R496). -/
def State.poolLinkReset (s : State) : State :=
  let s := repeatN (s.pport 6).fifo.length (fun s => s.tally (Reg.POOL_FULLTALLY 6)) s
  s.setPport 6 {}

/-- The pushes of port n are complete: each has been enqueued, but for an item of which no further word has come, which the pool
does not take (R147, R352, R481; DEDUCED, log entry 113). -/
def State.pushesDone (s : State) (n : Nat) : Bool :=
  match (s.pport n).fifo with
  | [] => true
  | w :: _ => s.qEn w.q && !s.poolProof && decide (runLength w.q (s.pport n).fifo < s.qItemLen w.q)

/-- A core reset withdraws an ungranted pop request of that core (R495). It does so as its steps end, and not at the CORERST write: a pop
granted meanwhile completes at the core (R147; DESIGN CHOICE, log entry 148). -/
def State.poolCoreReset (s : State) (n : Nat) : State :=
  s.setPport n { s.pport n with req := none }

/-- The end of a memory proof of the pool: every queue empty with NEXTSEQ 0, every cell free (R499). -/
def State.poolProved (s : State) : State :=
  let s := s.zeroRange 0x02000000 0x02040000
  let s := { s with pool := { s.pool with owner := [], qs := [] } }
  let s := s.setFld Reg.POOL_FREE 0 14 poolCells
  forN poolQueues (fun q s =>
    (if s.qEn q then s.setFld (Reg.POOL_QSTAT q) 0 24 0 else s).setBit (Reg.POOL_QSTAT q) 26 false) s

end Sys2Proof.Machine
end

