-- ==== Sys2Proof/Machine/PwmBase.lean ====
section
/-!
DEFINITION. Chapter 13, what other blocks ask of the PWM modules: safe levels, compare shadows, output levels.
-/
namespace Sys2Proof.Machine

/-! ### Comparators as the outputs see them (R531, R533, R534) -/

/-- CMPk beside its registers, and its replacement. -/
def State.cmpu (s : State) (k : Nat) : Cmp := tget {} s.cmp k
def State.setCmp (s : State) (k : Nat) (x : Cmp) : State := { s with cmp := tset {} s.cmp k x }

/-- CMPk asserts its trip line (R531): TRIPPED bit k is set, and source 33 raised where IEN enables it. -/
def State.cmpAssert (s : State) (k : Nat) : State :=
  let s := (s.setCmp k { s.cmpu k with line := true }).setBit Reg.CMP_TRIPPED k true
  if s.bit Reg.CMP_IEN k then s.source 33 else s

/-- A blanking window of CMPk opens: it asserts no trip line (R533, R534). Without the root, blanking is bypassed (R548). -/
def State.cmpBlank (s : State) (k : Nat) : State := if s.clk.rootLost then s else s.setCmp k { blank := true, line := false }

/-- With the root lost, blanking and filters are bypassed: a comparator that is active asserts its trip line (R548). -/
def State.cmpBypass (s : State) : State :=
  forN 16 (fun k s =>
    let s := s.setCmp k { s.cmpu k with blank := false }
    if s.bit (Reg.CMP_CMP_CFG k) 0 && s.bit Reg.CMP_STATUS k && !(s.cmpu k).line && !s.gatedBit gCMP then s.cmpAssert k else s) s

/-- An edge of output A or B of PWMm opens the blanking windows that name it (R533). -/
def State.blankOn (s : State) (m : Nat) (a b : Bool) : State :=
  forN 16 (fun k s =>
    let w := s.rd (Reg.CMP_CMP_BLK k)
    if s.bit (Reg.CMP_CMP_CFG k) 0 && W.fld w 0 4 == m && W.fld w 16 10 != 0 && ((a && W.bit w 4) || (b && W.bit w 5)) then
      s.cmpBlank k
    else s) s

/-! ### The modules -/

/-- PWMm beside its registers. -/
def State.pm (s : State) (m : Nat) : Pwm := tget {} s.pwm m
/-- The state with PWMm's structure replaced. -/
def State.setPm (s : State) (m : Nat) (x : Pwm) : State := { s with pwm := tset {} s.pwm m x }

/-- A channel whose output is driven at its safe level: nothing of a pulse is left (R700, R715). -/
def PwmCh.safe (x : PwmCh) : PwmCh := { x with wait := 0, hold := 0, on := 0, probe := 0 }

/-- An OUTPWM value: it takes 2 CORE cycles to its shadow. -/
def Shadow.outpwm (e : Shadow) : Bool := e.imm != e.pt

/-- A value that reaches a shadow before another one, or in the same CORE cycle, an OUTPWM value last (R735). -/
def Shadow.before (x e : Shadow) : Bool :=
  decide (x.reach < e.reach) || (x.reach == e.reach && (!x.outpwm || e.outpwm))

/-- Takes a value into those sent to a shadow; of those that every load takes by `now` the last one stays. -/
def shadowPut (now : Nat) (e : Shadow) (l : List Shadow) : List Shadow :=
  let old (x : Shadow) : Bool := decide (x.pt ≤ now) && decide (x.imm ≤ now)
  let l := (l.filter old).getLast?.toList ++ l.filter (fun x => !old x)
  l.takeWhile (·.before e) ++ e :: l.dropWhile (·.before e)

/-- The register that holds shadow k of module m. -/
def shadowReg (m k : Nat) : Nat := if k = 0 then Reg.PWM_PRD m else if k = 1 then Reg.PWM_CMPA m else Reg.PWM_CMPB m

/-- Shadow k of module m holds the last value that has reached it. -/
def State.pwmShow (s : State) (m k : Nat) : State :=
  match ((tget [] (s.pm m).sh k).filter (fun e => decide (e.reach ≤ s.clk.tb.toNat))).getLast? with
  | some e => s.wr (shadowReg m k) (BitVec.ofNat 32 e.val)
  | none => s

/-- Value v is on its way to shadow k of module m, `d` CORE cycles from now (R693). -/
def State.pwmArrive (s : State) (m k v d : Nat) : State :=
  let x := s.pm m
  let t := s.clk.tb.toNat
  let e : Shadow := { val := v, reach := t + d, pt := t + d + 8, imm := t + 8 }
  (s.setPm m { x with sh := tset [] x.sh k (shadowPut t e (tget [] x.sh k)) }).pwmShow m k

/-- An OUTPWM value issues to the shadow of channel 0 A, 1 B or 2 both (R600, R692, Table 13-2). -/
def State.pwmCompare (s : State) (m ch v : Nat) : State :=
  let s := if ch = 1 then s else s.pwmArrive m 1 (v % 2 ^ 20) 2
  if ch = 0 then s else s.pwmArrive m 2 (v % 2 ^ 20) 2

/-- A register write has put a value into shadow k of module m; an OUTPWM value that reaches it in the same CORE cycle follows
(R735). -/
def State.pwmShadow (s : State) (m k : Nat) : State := s.pwmArrive m k (s.rd (shadowReg m k)).toNat 0

/-- The values that reach the shadows of module m in this CORE cycle stand in their registers. -/
def State.pwmReached (s : State) (m : Nat) : State :=
  forN 3 (fun k s => if (tget [] (s.pm m).sh k).any (fun e => e.reach == s.clk.tb.toNat) then s.pwmShow m k else s) s

/-- Module m counts (R684). -/
def State.pwmRun (s : State) (m : Nat) : Bool := s.bit (Reg.PWM_CFG m) 16

/-- Channel A (0) or B (1) of module m is active, before polarity (R686, R687, R689). -/
def State.pwmActive (s : State) (m ch : Nat) : Bool :=
  s.pwmRun m &&
    (if ch = 0 then (s.pm m).chA.act
     else if s.bit (Reg.PWM_CFG m) 2 then !(s.pm m).chA.act else (s.pm m).chB.act)

/-- A trip holds the outputs of module m (COUNT bit 17). -/
def State.pwmTripped (s : State) (m : Nat) : Bool := s.bit (Reg.PWM_COUNT m) 17

/-- Channel A (0) or B (1) of module m with its output. -/
def State.pwmCh (s : State) (m ch : Nat) : PwmCh := if ch = 0 then (s.pm m).chA else (s.pm m).chB
/-- The state with a channel of module m replaced. -/
def State.setPwmCh (s : State) (m ch : Nat) (c : PwmCh) : State :=
  let x := s.pm m
  s.setPm m (if ch = 0 then { x with chA := c } else { x with chB := c })

/-- Output ch of module m is not at its safe level: ENx is 1 and no trip holds it (R700). -/
def State.pwmFree (s : State) (m ch : Nat) : Bool := s.bit (Reg.PWM_OUT m) ch && !s.pwmTripped m

/-- Output ch of module m follows an active channel, its dead-time apart. -/
def State.pwmLive (s : State) (m ch : Nat) : Bool := s.pwmFree m ch && s.pwmActive m ch

/-- Output ch of module m is at its active level: its turn-on edge has come, or a stretched pulse goes on (R691, R710). -/
def State.pwmDriven (s : State) (m ch : Nat) : Bool :=
  let x := s.pwmCh m ch
  (s.pwmLive m ch && x.wait == 0) || x.hold != 0

/-- The level that module m gives output ch: its safe level, or its driven level under its polarity (R690, R700). -/
def State.pwmLevel (s : State) (m ch : Nat) : Bool :=
  if s.pwmFree m ch then Bool.xor (s.pwmDriven m ch) (s.bit (Reg.PWM_CFG m) (3 + ch)) else s.bit (Reg.PWM_SAFE m) ch

/-- The level of output ball A (0) or B (1) of module m; while the block is gated, the level it had when it was gated (R80). -/
def State.pwmOut (s : State) (m ch : Nat) : Bool :=
  if s.gatedBit gPWM then
    match (s.pm m).held with
    | some (a, b) => if ch = 0 then a else b
    | none => s.pwmLevel m ch
  else s.pwmLevel m ch

/-- Edges at the output balls between two states open blanking windows (R533). -/
def State.pwmBlank (t : State) (m : Nat) (s : State) : State :=
  t.blankOn m (s.pwmOut m 0 != t.pwmOut m 0) (s.pwmOut m 1 != t.pwmOut m 1)

/-- Clears ENA and ENB of module m and withdraws its enable requests (R701); the edges at its balls open blanking windows (R533). -/
def State.pwmSafe (s : State) (m : Nat) : State :=
  let x := s.pm m
  let t := s.setFld (Reg.PWM_OUT m) 0 2 0
  (t.setPm m { x with enReq := 0, chA := x.chA.safe, chB := x.chB.safe }).pwmBlank m s

/-- Clears every output enable (Table 13-4). -/
def State.pwmSafeAll (s : State) : State := forN 12 (fun m s => s.pwmSafe m) s

/-- Every module's output levels are held (R80). -/
def State.pwmHoldAll (s : State) : State :=
  forN 12 (fun m s => s.setPm m { s.pm m with held := some (s.pwmLevel m 0, s.pwmLevel m 1) }) s

end Sys2Proof.Machine
end

