-- ==== Sys2Proof/Machine/Rings.lean ====
section
/-!
DEFINITION. Chapter 4, the rings: doorbells, descriptor fetch, completions, the event hold, record rings and firmware
posts.
-/
namespace Sys2Proof.Machine

/-! ### Completions -/

/-- The completion ring can take an entry now: enabled, with a free entry, and the device may write. -/
def State.cplRoom (s : State) : Bool :=
  let cfg := s.rd Reg.HIF_CPL_CFG
  W.bit cfg 31 && s.canIssue && (s.fld Reg.HIF_CPL_IDX 16 12 + 1) % ringSize cfg != s.fld Reg.HIF_CPL_IDX 0 12

/-- Host address of the completion entry that is written next (R186). -/
def State.cplAddr (s : State) : Word64 :=
  s.ringBase Reg.HIF_CPL_BASE_LO Reg.HIF_CPL_BASE_HI + BitVec.ofNat 64 (16 * s.fld Reg.HIF_CPL_IDX 16 12)

/-- Writes words 0–2 of a completion entry (R188). -/
def State.cplHead (s : State) (c : Cpl) : State :=
  s.emit (.write s.cplAddr [BitVec.ofNat 32 (c.status + 256 * c.opcode + 65536 * c.tag), c.res0, c.res1])

/-- Writes word 3 of a completion entry with the phase bit; the producer index passes the entry (R186 to R188). -/
def State.cplTail (s : State) (c : Cpl) : State :=
  let w3 := W.setBit (BitVec.ofNat 32 (c.cidx % 4096)) 31 s.hif.cplPhase
  let p' := (s.fld Reg.HIF_CPL_IDX 16 12 + 1) % ringSize (s.rd Reg.HIF_CPL_CFG)
  let s := s.emit (.write (s.cplAddr + 12) [w3])
  let s := s.setFld Reg.HIF_CPL_IDX 16 12 p'
  let s := if p' = 0 then { s with hif := { s.hif with cplPhase := !s.hif.cplPhase } } else s
  if c.irq then s.countVector 0 else s

/-- Writes one completion entry: words 0–2, then word 3 (R186 to R188). -/
def State.cplWrite (s : State) (c : Cpl) : State := (s.cplHead c).cplTail c

/-- A completion is written, or held while it cannot be (R228, R230, R279). -/
def State.complete (s : State) (c : Cpl) : State :=
  if s.cplRoom && s.hif.cplHeld.isEmpty then s.cplWrite c
  else { s with hif := { s.hif with cplHeld := s.hif.cplHeld ++ [c] } }

/-- Writes the held completions that can now be written. -/
def State.flushCplN : Nat → State → State
  | 0, s => s
  | n + 1, s =>
    match s.hif.cplHeld with
    | [] => s
    | c :: cs => if s.cplRoom then State.flushCplN n (({ s with hif := { s.hif with cplHeld := cs } }).cplWrite c) else s

/-- Writes every held completion that can now be written. -/
def State.flushCpl (s : State) : State := s.flushCplN s.hif.cplHeld.length

/-! ### Doorbells -/

/-- A doorbell write is ignored and sets DBERR; the HIF interrupt source is raised (R178, R179, Table 7-2). -/
def State.dberr (s : State) : State := (s.setBit Reg.HIF_STATUS 2 true).source 55

/-- The timebase at its doorbell, for each descriptor newly announced: `n` indices from `i` on a ring of `size`
(R211). -/
def d1Mark (tb : Word64) (size : Nat) : Nat → Nat → Tab Word64 → Tab Word64
  | 0, _, t => t
  | n + 1, i, t => d1Mark tb size n ((i + 1) % size) (tset 0 t i tb)

/-- The command ring producer doorbell (R177, R178, R184, R238). -/
def State.dbCmd (s : State) (val : Word) : State :=
  let i := W.fld val 0 12
  let cfg := s.rd Reg.HIF_CMD_CFG
  let n := ringSize cfg
  if !W.bit cfg 31 || decide (n ≤ i) then s.dberr
  else
    let p := s.fld Reg.HIF_CMD_IDX 16 12
    let s := { s with hif := { s.hif with d1 := d1Mark s.clk.tb n ((i + n - p) % n) p s.hif.d1 } }
    let s := if s.bit Reg.HIF_STATUS 1 then s else { s with hif := { s.hif with needDb := false } }
    s.setFld Reg.HIF_CMD_IDX 16 12 i

/-- A consumer doorbell of the completion or event ring (R177 to R179). -/
def State.dbCons (s : State) (cfgA idxA : Nat) (val : Word) : State :=
  let i := W.fld val 0 12
  let cfg := s.rd cfgA
  let n := ringSize cfg
  if !W.bit cfg 31 || decide (n ≤ i) then s.dberr
  else
    let c := s.fld idxA 0 12
    let p := s.fld idxA 16 12
    if (p + n - c) % n < (i + n - c) % n then s.dberr else s.setFld idxA 0 12 i

/-- The consumer doorbell of record ring k (R177, R178, R198). While MOVED is 1 it sets DBSTALE, whatever it carries. -/
def State.dbRec (s : State) (k : Nat) (val : Word) : State :=
  let i := W.fld val 0 12
  let cfg := s.rd (Reg.HIF_REC_CFG k)
  let n := ringSize cfg
  let bad := !W.bit cfg 31 || decide (n ≤ i)
  let s := if bad then s.dberr else s
  if s.bit (Reg.HIF_REC_IDX k) 30 then s.setBit Reg.HIF_STATUS 7 true
  else if bad then s
  else
    let c := s.fld (Reg.HIF_REC_IDX k) 0 12
    let p := s.fld (Reg.HIF_REC_IDX k) 16 12
    let full := s.bit (Reg.HIF_REC_IDX k) 31
    let d := (i + n - c) % n
    let owned := if full then n else (p + n - c) % n
    if owned < d then s.dberr
    else
      let s := s.setFld (Reg.HIF_REC_IDX k) 0 12 i
      if decide (d ≠ 0) || full then s.setBit (Reg.HIF_REC_IDX k) 31 false else s

/-- What a doorbell write does now: n = 0 command, 1 completion, 2 event, 3 + k record ring k (Table 4-5). -/
def State.doorbellNow (s : State) (n : Nat) (val : Word) : State :=
  match n with
  | 0 => s.dbCmd val
  | 1 => (s.dbCons Reg.HIF_CPL_CFG Reg.HIF_CPL_IDX val).flushCpl
  | 2 => s.dbCons Reg.HIF_EV_CFG Reg.HIF_EV_IDX val
  | k + 3 => s.dbRec k val

/-- A message of vector v is pending, in the MSI-X or the MSI structure (R205). -/
def State.vectorPends (s : State) (v : Nat) : Bool :=
  if W.bit (s.cfgRd 0x1C) 31 then s.bit Reg.HIF_MSIXPBA v
  else W.bit (s.cfgRd 0x14) 16 && W.bit (s.cfgRd 0x19) (v % 2 ^ min (W.fld (s.cfgRd 0x14) 20 3) 4)

/-- Sends the messages whose pending bits stand and whose vectors are no longer masked; with MSI-X enabled, no MSI; FWIRQ bits whose
messages are sent read 0 again (R205, R235). -/
def State.sendPending (s : State) : State :=
  let s := forN 16 (fun v s =>
    if W.bit (s.cfgRd 0x1C) 31 && s.bit Reg.HIF_MSIXPBA v then s.msixSend v
    else if !W.bit (s.cfgRd 0x1C) 31 && W.bit (s.cfgRd 0x14) 16 && W.bit (s.cfgRd 0x19) v then s.msiSend v else s) s
  forN 6 (fun k s => if s.vectorPends (10 + k) then s else s.setBit Reg.HIF_FWIRQ k false) s

/-- A doorbell write: kept in STANDBY, the last value of each, and acted on at the return to RUN (R81, R180). HIF in reset
takes none (R1011). -/
def State.doorbell (s : State) (n : Nat) (val : Word) : State :=
  if s.hif.perstLow then s
  else if s.live then s.doorbellNow n val
  else if s.alwaysOn && s.pwr == pwrSTANDBY then
    { s with hif := { s.hif with kept := tset none s.hif.kept n (some val) } }
  else s

/-- A doorbell write of the host, where the link serves its memory requests (R157, R162, R1012). -/
def State.hostDoorbell (s : State) (n : Nat) (val : Word) : State := if s.hostMem then s.doorbell n val else s

/-- R184: a command doorbell write. -/
def execCmdDoorbell (val : Word) (s : State) : Host.Outcome State Fault Refusal := done (s.hostDoorbell 0 val)
/-- R179: a completion consumer doorbell write. -/
def execCplDoorbell (val : Word) (s : State) : Host.Outcome State Fault Refusal := done (s.hostDoorbell 1 val)
/-- R179: an event consumer doorbell write. -/
def execEvDoorbell (val : Word) (s : State) : Host.Outcome State Fault Refusal := done (s.hostDoorbell 2 val)
/-- R198: a record ring consumer doorbell write. -/
def execRecDoorbell (k : Fin 8) (val : Word) (s : State) : Host.Outcome State Fault Refusal :=
  done (s.hostDoorbell (3 + k.val) val)

/-- What a read of RECk_IDX returns and leaves: it clears MOVED; an overwrite in the same cycle, `same`, is not seen, and stays
(R198, R14). -/
def State.recIdx (s : State) (k : Nat) (same : Bool) : Word × State :=
  let w := s.rd (Reg.HIF_REC_IDX k)
  if same then (W.setBit w 30 (s.hif.movedWas.testBit k), s) else (w, s.setBit (Reg.HIF_REC_IDX k) 30 false)

/-- R198, R14: a read of RECk_IDX. -/
def execRecIdxRead (k : Fin 8) (same : Bool) (tlp : Tlp) (s : State) : Host.Outcome State Fault Refusal :=
  done (s.readBy .host tlp (Reg.HIF_REC_IDX k.val) (fun s => let (w, t) := s.recIdx k.val same; (.word w, t)))

/-! ### Ring configuration -/

/-- The registers BASE_LO, BASE_HI, CFG and IDX of ring r: 0 command, 1 completion, 2 event, 3 + k record ring k. -/
def ringCfgA (r : Nat) : Nat :=
  match r with
  | 0 => Reg.HIF_CMD_CFG | 1 => Reg.HIF_CPL_CFG | 2 => Reg.HIF_EV_CFG | k + 3 => Reg.HIF_REC_CFG k

/-- IDX register of ring r. -/
def ringIdxA (r : Nat) : Nat := ringCfgA r + 4

/-- LOG2N, and LOG2SLOT of a record ring, lie in their ranges (Table 4-14, R225). -/
def ringCfgOk (r : Nat) (val : Word) : Bool :=
  let l := W.fld val 0 4
  if r < 3 then decide (4 ≤ l) && decide (l ≤ 12)
  else decide (1 ≤ l) && decide (l ≤ 12) && decide (8 ≤ W.fld val 4 4) && decide (W.fld val 4 4 ≤ 12)

/-- The writable bits of ring r's CFG other than EN. -/
def ringCfgMask (r : Nat) : Word := if r < 3 then 0xF else 0xFFF

/-- The opcode of a descriptor. -/
def Cmd.opcode (c : Cmd) : Nat := W.fld (c.words.getD 0 0) 0 8

/-- An ECHO whose words 0–2 are written has to write them again: the completion ring is another one (R228). -/
def Cmd.reEcho (c : Cmd) : Cmd := if c.opcode = 1 ∧ c.stage = 1 then { c with stage := 2 } else c

/-- Enabling ring r starts its indices at 0 and PHASE at 1, and SEQ of a record ring at 1 with FULL and MOVED at 0
(R229, R1016). -/
def State.ringStart (s : State) (r : Nat) : State :=
  let s := s.wr (ringIdxA r) 0
  match r with
  | 0 => { s with hif := { s.hif with d1 := [], needDb := false, cmd := s.hif.cmd.map (fun c => { c with old := true }) } }
  | 1 => { s with hif := { s.hif with cplPhase := true, cmd := s.hif.cmd.map Cmd.reEcho } }
  | 2 => { s with hif := { s.hif with evPhase := true } }
  | k + 3 => s.wr (Reg.HIF_REC_SEQ k) 1

/-- Records that are not to be delivered leave the drover's queue; one that it has begun is broken off (R229, R775). -/
def State.copiesDrop (s : State) (f : Copy → Bool) : State :=
  { s with mbm := { s.mbm with copies := s.mbm.copies.filter (fun c => !f c), begun := s.mbm.begun && !s.mbm.copies.head?.any f } }

/-- Disabling ring r: a descriptor read in flight is discarded (R228); records queued for it are not delivered (R229), and a
pending post is discarded with POSTERR (R201). -/
def State.ringStop (s : State) (r : Nat) : State :=
  match r with
  | 0 => { s with hif := { s.hif with fetch := .none } }
  | k + 3 =>
    let s := s.copiesDrop (·.ring == k)
    match tget none s.hif.posts k with
    | some _ =>
      let s := { s with hif := { s.hif with posts := tset none s.hif.posts k none } }
      (s.setBit (Reg.HIF_REC_POSTLEN k) 31 false).setBit Reg.HIF_STATUS 6 true
    | none => s
  | _ => s

/-- R224, R225, R228, R229, R1016: a ring CFG write. The ring is busy while its EN is 1: the other fields are WL; EN can
always be written. -/
def State.ringCfg (s : State) (r : Nat) (val : Word) : State :=
  let a := ringCfgA r
  let old := s.rd a
  let m := ringCfgMask r
  let on := W.bit old 31
  let en := W.bit val 31
  if on && (old &&& m) != (val &&& m) then s.wlrej a
  else if !on && en && !ringCfgOk r val then
    (s.wr a (val &&& m)).setBit Reg.HIF_STATUS 3 true
  else
    let s := s.wr a (W.setBit ((if on then old else val) &&& m) 31 en)
    if !on && en then ((s.ringStart r).flushCpl) else if on && !en then s.ringStop r else s

/-! ### Descriptor fetch -/

/-- Host address of descriptor i of the command ring (R181). -/
def State.descAddr (s : State) (i : Nat) : Word64 :=
  s.ringBase Reg.HIF_CMD_BASE_LO Reg.HIF_CMD_BASE_HI + BitVec.ofNat 64 (32 * i)

/-- A descriptor read that failed once is issued again, as soon as the device may issue requests (R157, R230, R236). The completion
ring's EN is not asked again: it stops the fetching of further descriptors (R228; DESIGN CHOICE, log entry 149). -/
def State.fetchAgain (s : State) (i : Nat) : State :=
  if s.canIssue then (({ s with hif := { s.hif with fetch := .reading i true } }).emit (.read (s.descAddr i) 32))
  else { s with hif := { s.hif with fetch := .again i } }

/-- R183, R184, R189, R222, R230, R236, R237: the read of the next descriptor is issued when a descriptor is announced, no
command runs or waits for its completion, fetching is not stopped, and the completion ring has a free entry; a read that
failed once is issued again. -/
def execDescriptorFetch (s : State) : Host.Outcome State Fault Refusal :=
  let c := s.fld Reg.HIF_CMD_IDX 0 12
  match s.hif.fetch with
  | .again i => done (s.fetchAgain i)
  | _ =>
  if s.canIssue && s.bit Reg.HIF_CMD_CFG 31 && decide (s.hif.fetch = .none) && s.hif.cmd.isNone
      && s.hif.cplHeld.isEmpty && !s.bit Reg.HIF_STATUS 1 && !s.hif.fetchOff && !s.hif.needDb && s.cplRoom
      && s.fld Reg.HIF_CMD_IDX 16 12 != c then
    done (({ s with hif := { s.hif with fetch := .reading c false } }).emit (.read (s.descAddr c) 32))
  else done s

/-- The opcodes of Table 5-2. -/
def knownOpcode (o : Nat) : Bool :=
  decide (o ≤ 4) || (decide (0x10 ≤ o) && decide (o ≤ 0x15)) || (decide (0x20 ≤ o) && decide (o ≤ 0x23))
    || (decide (0x30 ≤ o) && decide (o ≤ 0x32)) || o == 0x40 || o == 0x41 || o == 0x50 || o == 0x51

/-- Word k of a command's descriptor; its opcode, and argument k (R181). -/
def Cmd.word (c : Cmd) (k : Nat) : Word := c.words.getD k 0
abbrev Cmd.op (c : Cmd) : Nat := c.opcode
def Cmd.arg (c : Cmd) (k : Nat) : Word := c.word (1 + k)

/-- No completion with a status is written: the command was muted, or is QUIET and OK (R144, R181). -/
def Cmd.silent (c : Cmd) (status : Nat) : Bool := c.mute || (W.bit (c.word 0) 8 && decide (status = 0))

/-- The completion of a command (Table 4-7). -/
def Cmd.cpl (c : Cmd) (status : Nat) (r0 r1 : Word) : Cpl :=
  ⟨status, c.op, W.fld (c.word 0) 16 16, r0, r1, c.cidx, !W.bit (c.word 0) 9⟩

/-- The running command has ended: CIDX passes it (R246). -/
def State.cmdEnd (s : State) (c : Cmd) : State :=
  let s := { s with hif := { s.hif with cmd := none } }
  if c.mute || c.old then s
  else s.setFld Reg.HIF_CMD_IDX 0 12 ((c.cidx + 1) % ringSize (s.rd Reg.HIF_CMD_CFG))

/-- Ends the running command with a status; its completion is held (R279). -/
def State.finishHeld (s : State) (c : Cmd) (status : Nat) : State :=
  let s := s.cmdEnd c
  if c.silent status then s else { s with hif := { s.hif with cplHeld := s.hif.cplHeld ++ [c.cpl status 0 0] } }

/-- Ends the running command with a status and results (R208). -/
def State.finish (s : State) (status : Nat) (r0 r1 : Word) : State :=
  match s.hif.cmd with
  | none => s
  | some c =>
    let s := s.cmdEnd c
    if c.silent status then s else s.complete (c.cpl status r0 r1)

/-- R236, R237, R182, R227, R228, R249: a descriptor read completes and its command becomes the running one, or a failed
read is issued once more, or a second failure stops fetch with DMA_ERROR, whose result words are 0 (R237 gives none; DESIGN CHOICE,
log entry 150). -/
def execDescriptorFetchDone (r : HostRead) (s : State) : Host.Outcome State Fault Refusal :=
  match s.hif.fetch with
  | .none => done s
  | .again _ => done s
  | .reading i second =>
    match r with
    | .ok ws =>
      let s := if second then s.tally Reg.HIF_FETCHTALLY else s
      let s := { s with hif := { s.hif with fetch := .none, cmd := some { words := ws, cidx := i, d1 := tget 0 s.hif.d1 i } } }
      if !knownOpcode (W.fld (ws.getD 0 0) 0 8) then done (s.finish 1 0 0)
      else if W.fld (ws.getD 0 0) 10 6 != 0 then done (s.finish 2 0 0)
      else done s
    | .failed =>
      if second then
        let s := { s with hif := { s.hif with fetch := .none, needDb := true } }
        let s := (s.setBit Reg.HIF_STATUS 1 true).source 55
        done (s.complete ⟨0x0A, 0, 0, 0, 0, i, true⟩)
      else done (s.fetchAgain i)

/-! ### The event hold -/

/-- Writes events of the hold while the ring takes them. -/
def State.drainN : Nat → State → State
  | 0, s => s
  | n + 1, s =>
    match s.hif.evHold with
    | [] => s
    | e :: es => if s.evRoom then State.drainN n (({ s with hif := { s.hif with evHold := es } }).evWrite e) else s

/-- R191, R192, R275: held events are written once the ring can take them, led by a lost-events event after discards. -/
def State.drainEvents (s : State) : State :=
  let s :=
    if s.hif.evLost != 0 && s.evRoom then
      ({ s with hif := { s.hif with evLost := 0 } }).evWrite ⟨evLOST, 0, BitVec.ofNat 32 s.hif.evLost, s.clk.tb⟩
    else s
  if s.hif.evLost != 0 then s else s.drainN s.hif.evHold.length

/-- R191: the event hold drains. -/
def execEventHoldDrain (s : State) : Host.Outcome State Fault Refusal := done s.drainEvents

/-! ### Record rings -/

/-- Record ring k delivers: enabled, and the device may write (R229, R230). -/
def State.recOpen (s : State) (k : Nat) : Bool := s.bit (Reg.HIF_REC_CFG k) 31 && s.canIssue

/-- Words of a slot of ring k (Table 4-4). -/
def State.recSlotWords (s : State) (k : Nat) : Nat := 2 ^ s.fld (Reg.HIF_REC_CFG k) 4 4 / 4

/-- The address of the slot of ring k that receives the next record. -/
def State.recSlot (s : State) (k : Nat) : Word64 :=
  s.ringBase (Reg.HIF_REC_BASE_LO k) (Reg.HIF_REC_BASE_HI k) + BitVec.ofNat 64 (4 * s.recSlotWords k * s.fld (Reg.HIF_REC_IDX k) 16 12)

/-- The writing of a record into ring k begins: a full ring gives up its oldest slot, and the slot's HDR becomes 0 (R194, R197,
R198). -/
def State.recBegin (s : State) (k : Nat) : State :=
  let idx := Reg.HIF_REC_IDX k
  let s := if s.bit idx 31 then
      let was := (s.hif.movedWas &&& (255 ^^^ 2 ^ k)) ||| (if s.bit idx 30 then 2 ^ k else 0)
      ((({ s with hif := { s.hif with movedWas := was } }.tally (Reg.HIF_REC_OVWR k)).setBit idx 30 true).setFld idx 0 12
        ((s.fld idx 16 12 + 1) % ringSize (s.rd (Reg.HIF_REC_CFG k)))).setBit idx 31 false
    else s
  s.emit (.write (s.recSlot k) [0])

/-- It ends: words 1 on, HDR, and the producer index (R193 to R196). -/
def State.recEnd (s : State) (k list kind : Nat) (body : List Word) : State :=
  let idx := Reg.HIF_REC_IDX k
  let p := (s.fld idx 16 12 + 1) % ringSize (s.rd (Reg.HIF_REC_CFG k))
  let q := s.rd (Reg.HIF_REC_SEQ k)
  let a := s.recSlot k
  let hdr := BitVec.ofNat 32 ((body.length + 4) % 2048 + 65536 * (q.toNat % 65536))
  let ws := q :: BitVec.ofNat 32 (list + 256 * kind) :: BitVec.ofNat 32 (s.fld (Reg.HIF_REC_OVWR k) 0 16) :: body
  let s := (s.emitWords (s.writeLimit / 4) ws.length (a + 4) ws).emit (.write a [hdr])
  let s := (s.setFld idx 16 12 p).setBit idx 31 (p == s.fld idx 0 12)
  (s.wr (Reg.HIF_REC_SEQ k) (if q = 0xFFFFFFFF then 1 else q + 1)).countVector (2 + k)

/-- Writes a record into ring k in the three steps of R194. -/
def State.recWrite (s : State) (k list kind : Nat) (body : List Word) : State := (s.recBegin k).recEnd k list kind body

/-- A POSTLEN write is ignored and sets POSTERR (R201). -/
def State.posterr (s : State) : State := s.setBit Reg.HIF_STATUS 6 true

/-- R200, R201: a POSTLEN write. -/
def State.post (s : State) (k : Nat) (val : Word) : State :=
  let len := W.fld val 0 10
  let cfg := s.rd (Reg.HIF_REC_CFG k)
  if s.bit (Reg.HIF_REC_POSTLEN k) 31 || decide (len = 0) || !W.bit cfg 31 || W.fld cfg 8 4 != 8
      || decide (s.recSlotWords k < len + 4) then s.posterr
  else
    let s := { s with hif := { s.hif with posts := tset none s.hif.posts k (some ⟨s.fld (Reg.HIF_REC_POSTADDR k) 0 21, len⟩) } }
    s.setBit (Reg.HIF_REC_POSTLEN k) 31 true

/-- R201: a POSTLEN write. -/
def execRecordPost (k : Fin 8) (val : Word) (s : State) : Host.Outcome State Fault Refusal :=
  done (if s.live && !s.hif.perstLow then s.post k.val val else s)

/-- Reads `n` words of shared SRAM from a byte address upwards, wrapping at its end; an uncorrectable word reads as it
is reported (R201, R1015, R462). -/
def State.readBody : Nat → Nat → State → List Word × State
  | 0, _, s => ([], s)
  | n + 1, a, s =>
    let (w, s) := s.coRd 6 (a % 0x200000)
    let (ws, s) := State.readBody n (a + 4) s
    (w.getD 0xFFFFFFFF :: ws, s)

/-- R1015, R201, R194: the drover finishes reading a posted body; BUSY clears and the record is written. -/
def execPostReadDone (k : Fin 8) (s : State) : Host.Outcome State Fault Refusal :=
  match tget none s.hif.posts k.val with
  | none => done s
  | some p =>
    if s.recOpen k.val then
      let (body, s) := State.readBody p.len p.addr s
      let s := { s with hif := { s.hif with posts := tset none s.hif.posts k.val none } }
      let s := (s.setBit (Reg.HIF_REC_POSTLEN k.val) 31 false).source 55
      done (s.recWrite k.val 0 2 body)
    else done s

/-! ### The return to RUN and to issuing -/

/-- Acts on the doorbells kept in STANDBY as if they arrived now (R81, R211). -/
def State.actKept (s : State) : State :=
  let kept := s.hif.kept
  let s := { s with hif := { s.hif with kept := [] } }
  kept.foldl (fun s e => match e.2 with | some v => s.doorbellNow e.1 v | none => s) s

/-- Host address of the next word of the item that the running command reads. -/
def Cmd.rdNext (c : Cmd) : Word64 := c.rdAddr + BitVec.ofNat 64 (4 * c.rdGot.length)

/-- Words of the next read of an item: no more than are left, than Table 4-1 allows, and than lie before the next 4 KiB boundary
(PRESUMED, log entry 79); a read that failed is issued again as it was (R246, R286). -/
def State.rdChunk (s : State) (c : Cmd) : Nat :=
  if c.failedOnce then c.rdCh
  else min (c.rdLen - c.rdGot.length) (min (s.readLimit / 4) ((4096 - c.rdNext.toNat % 4096) / 4))

/-- Issues the running command's next read of host memory, as soon as the device may issue requests (R230, R246). -/
def State.cmdIssue (s : State) : State :=
  match s.hif.cmd with
  | some c =>
    if decide (0 < c.rdLen) && !c.rdOut && !c.mute && s.canIssue then
      let n := s.rdChunk c
      ({ s with hif := { s.hif with cmd := some { c with rdCh := n, rdOut := true } } }).emit (.read c.rdNext (4 * n))
    else s
  | none => s

/-- The device may issue requests again: pending messages are sent, held completions are written, a waiting read is issued, then kept doorbells act (R81,
R205, R230, R279). -/
def State.ackResume (s : State) : State := if s.live then s.sendPending.flushCpl.cmdIssue.actKept else s

end Sys2Proof.Machine
end

