-- ==== Sys2Proof/Machine/Slots.lean ====
section
/-!
DEFINITION. Chapter 11, the slots as every other block sees them: states, triggers and overruns, disabling, penning,
slot reset, input latches, host-loss policies.
-/
namespace Sys2Proof.Machine

/-! ### Slots and plates -/

/-- Slot n beside its registers. -/
def State.ks (s : State) (n : Nat) : KSlot := tget {} s.kle.slots n
/-- The state with slot n's structure replaced. -/
def State.setKs (s : State) (n : Nat) (x : KSlot) : State := { s with kle := { s.kle with slots := tset {} s.kle.slots n x } }

/-- Slot states (Table 11-9, SSTATs.STATE). -/
abbrev stDISABLED : Nat := 0
abbrev stARMED : Nat := 1
abbrev stPENDING : Nat := 2
abbrev stRUNNING : Nat := 3
abbrev stPENNED : Nat := 4

/-- The engine writes a context word, with valid check bits (R618, R624). -/
def State.ctxPut (s : State) (a : Nat) (v : Word) : State := (s.wr a v).setEcc a 0

/-- The state of slot n (R563). -/
def State.sst (s : State) (n : Nat) : Nat := s.fld (Reg.KLE_SSTAT n) 0 3

/-- Slot n is armed, pending or running (Table 11-9, ENABLED). -/
def State.slotOn (s : State) (n : Nat) : Bool := decide (1 ≤ s.sst n) && decide (s.sst n ≤ 3)

/-- Slot n takes a state; ENABLED and PENNED show it. -/
def State.setSst (s : State) (n v : Nat) : State :=
  ((s.setFld (Reg.KLE_SSTAT n) 0 3 v).setBit Reg.KLE_ENABLED n (decide (1 ≤ v) && decide (v ≤ 3))).setBit Reg.KLE_PENNED n
    (v == stPENNED)

/-- Address of word w of slot n's plate area (R556). -/
def plateAddr (n w : Nat) : Nat := 0x01000000 + 0x1000 * n + 4 * w

/-- Word w of slot n's plate. -/
def State.plate (s : State) (n w : Nat) : Word := s.rdWord (plateAddr n w)

/-- Address of a context word of slot n at a byte offset (Table 11-1). -/
def ctxAddr (n off w : Nat) : Nat := 0x10074000 + 0x600 * n + off + 4 * w

/-- NBLK of a plate header (Table 11-3). -/
def State.nblk (s : State) (n : Nat) : Nat := W.fld (s.plate n 0) 24 8

/-- Word i of block descriptor b (R578). -/
def State.desc (s : State) (n b i : Nat) : Word := s.plate n (32 + 8 * b + i)

/-- OP and ARGk of block b. -/
def State.blkOp (s : State) (n b : Nat) : Nat := W.fld (s.desc n b 0) 0 8
def State.blkArg (s : State) (n b k : Nat) : Nat := (s.desc n b (3 + k)).toNat

/-- Header copies of a checked plate (SINFOs, SDEADs). -/
def State.slotTrig (s : State) (n : Nat) : Nat := s.fld (Reg.KLE_SINFO n) 0 7
def State.slotPri (s : State) (n : Nat) : Nat := s.fld (Reg.KLE_SINFO n) 8 3
def State.slotPasses (s : State) (n : Nat) : Nat := s.fld (Reg.KLE_SINFO n) 12 2
def State.slotDeadline (s : State) (n : Nat) : Nat := s.fld (Reg.KLE_SDEAD n) 0 24

/-- PERMN of KLE.CTRL; 0 acts as 1. -/
def State.klePermn (s : State) : Nat := max 1 (s.fld Reg.KLE_CTRL 0 4)

/-- The engine is halted (KLE.STATUS.HALTED). -/
def State.kleHalted (s : State) : Bool := s.bit Reg.KLE_STATUS 16

/-- The running slot: STATUS.BUSY and CURSLOT. -/
def State.kleCur (s : State) : Option Nat :=
  if s.bit Reg.KLE_STATUS 0 then some (s.fld Reg.KLE_STATUS 8 5) else none

/-- The engine is free. -/
def State.kleFree (s : State) : State := s.setBit Reg.KLE_STATUS 0 false

/-- EVTs bit `b` (0 END, 1 OVR, 2 PEN, 3 NAN) is set, and source 52 raised where IENs enables it. -/
def State.kleEvt (s : State) (n b : Nat) : State :=
  let s := s.setBit (Reg.KLE_EVT n) b true
  if s.bit (Reg.KLE_IEN n) b then s.source 52 else s

/-- The running command has opcode `op`, has started, and names slot n in ARG0. -/
def State.cmdWaits (s : State) (op n : Nat) : Bool :=
  match s.hif.cmd with
  | some c => c.started && W.fld (c.words.getD 0 0) 0 8 == op && W.fld (c.words.getD 1 0) 0 5 == n
  | none => false

/-! ### Safe outputs, disabling, penning -/

/-- Drives safe the modules that block b names, where it is an OUTPWM block. -/
def State.blkSafe (s : State) (n b : Nat) : State :=
  if s.blkOp n b = 0x13 then
    let m := s.blkArg n b 0
    forN (min 12 (s.blkArg n b 1)) (fun k s => if m + k < 12 then s.pwmSafe (m + k) else s) s
  else s

/-- Every PWM module named by an OUTPWM block of slot n's plate goes to its safe level (R110, R701). -/
def State.slotSafe (s : State) (n : Nat) : State := forN (min 24 (s.nblk n)) (fun b s => s.blkSafe n b) s

/-- An INJECT that ends with WRONG_STATE has no effect but its completion: INJCTL and INJPAT are as before it (R243). -/
def State.injUndo (s : State) (n : Nat) : State :=
  match s.hif.cmd with
  | some c =>
    if c.started && c.op == 0x15 then
      (s.wr (Reg.KLE_INJCTL n) (BitVec.ofNat 32 c.aux)).wr (Reg.KLE_INJPAT n) (BitVec.ofNat 32 c.aux2)
    else s
  | none => s

/-- Withdraws an injection armed and not yet voted, and forgets runs of mismatches and redirections (R679, R284). An INJECT whose
carrying sample has started and is not voted ends with WRONG_STATE too: its sample is dropped (DESIGN CHOICE, log entry 156). -/
def State.hatchClear (s : State) (n : Nat) : State :=
  let x := s.ks n
  let cmd := x.injCmd || (match x.run with | some r => r.injCmd | none => false)
  let s := if cmd then s.injUndo n else s
  let s := (s.setBit (Reg.KLE_INJCTL n) 31 false).wr (Reg.KLE_HSTAT n) (s.rd (Reg.KLE_HSTAT n) &&& 0xFFE00FFF)
  let s := s.setKs n { x with injCmd := false, rd1 := 0, rd2 := 0, rd3 := 0 }
  if cmd then s.finish 3 0 0 else s

/-- A rows-wise block of slot n is in hand: the slot is at no block boundary (R566). -/
def State.midBlock (s : State) (n : Nat) : Bool := match (s.ks n).run with | some r => r.row != 0 | none => false

/-- What a pen shows but the slot's stop: the reason of Table 11-8, EVT.PEN and SLOT_PENNED (R621). -/
def State.penShow (s : State) (n reason : Nat) : State :=
  ((s.setFld (Reg.KLE_SSTAT n) 16 8 reason).kleEvt n 2).event evSLOT_PENNED n (BitVec.ofNat 32 reason)

/-- Stops slot n at its block boundary: its sample is dropped with any vote that is pending, its modules go to their safe
levels, a clear of its tables that waits begins (R639), and it takes state v (R110, R262, R282, R609). A pen that has waited for this boundary
takes effect with it. -/
def State.slotStop (s : State) (n v : Nat) : State :=
  let s := if s.kleCur = some n then s.kleFree else s
  let s := s.hatchClear n
  let pen := if v = stPENNED then none else (s.ks n).penReq
  let s := s.setKs n { s.ks n with run := none, late := false, ovr := false, conv := none, hl := false, ramp := none, penReq := none
                                   clearRun := s.bit (Reg.KLE_LCTL n) 2 }
  let s := s.slotSafe n
  match pen with
  | some reason => (s.setSst n stPENNED).penShow n reason
  | none => s.setSst n v

/-- Disables slot n as a protective action, with SLOT_STOPPED where DATA is given (R53, R614, R615). -/
def State.slotProtect (s : State) (data : Option Nat) (n : Nat) : State :=
  if s.slotOn n then
    let s := s.slotStop n stDISABLED
    match data with
    | some d => s.event evSLOT_STOPPED n (BitVec.ofNat 32 d)
    | none => s
  else s

/-- Disables every enabled slot as a protective action. -/
def State.slotsProtect (s : State) (data : Option Nat) : State := forN 32 (fun n s => s.slotProtect data n) s

/-- Pens slot n with a reason of Table 11-8 (R621): SLOT_PENNED, and SLOT_STOPPED where it was enabled (R615). -/
def State.slotPen (s : State) (n reason : Nat) : State :=
  let on := s.slotOn n
  let s := (s.slotStop n stPENNED).penShow n reason
  if on then s.event evSLOT_STOPPED n 3 else s

/-- A pen of slot n takes effect at its next block boundary: now, or once the rows in hand have run (R282, R621). -/
def State.slotPenNext (s : State) (n reason : Nat) : State :=
  if s.midBlock n then s.setKs n { s.ks n with penReq := some reason } else s.slotPen n reason

/-- The pen that has waited for slot n's block boundary takes effect. -/
def State.penTake (s : State) (n : Nat) : State :=
  match (s.ks n).penReq with
  | some reason => if s.midBlock n then s else s.slotPen n reason
  | none => s

/-- An overrun of slot n (R574, R575): tallied, reported, and penned when CONSEC reaches PERMN with OVRPEN. -/
def State.slotOverrun (s : State) (n : Nat) : State :=
  let s := (s.tally (Reg.KLE_OVRTALLY n)).setBit Reg.KLE_OVRLAST n true
  let s := (s.kleEvt n 1).event evSLOT_OVERRUN n (BitVec.ofNat 32 (s.fld (Reg.KLE_OVRTALLY n) 0 16))
  let c := min 15 (s.fld (Reg.KLE_SSTAT n) 24 4 + 1)
  let s := s.setFld (Reg.KLE_SSTAT n) 24 4 c
  if s.klePermn ≤ c && s.bit (Reg.KLE_SINFO n) 15 then s.slotPenNext n 2 else s

/-! ### Triggers -/

/-- A trigger reaches slot n (R561, R563, R573, R613). During an engine halt it counts as an overrun of a slot that is enabled, or
that the halt disabled (R388). -/
def State.slotHit (s : State) (n : Nat) : State :=
  if !s.runs gKLE || (s.ks n).rstReq then s
  else if !s.slotOn n then (if s.kleHalted && (s.ks n).stopped then s.slotOverrun n else s)
  else if s.kleHalted || s.sst n != stARMED then (s.setKs n { s.ks n with ovr := true }).slotOverrun n
  else (s.setKs n { s.ks n with trig := s.clk.tb.toNat, late := false, ovr := false, conv := none }).setSst n stPENDING

/-- A slot trigger code fires (Table 11-2): every slot whose plate names it is triggered. -/
def State.slotTrigger (s : State) (code : Nat) : State :=
  forN 32 (fun n s => if s.slotTrig n = code && code != 0x40 + n then s.slotHit n else s) s

/-- A SLOTTRIG delivery to slot n (R562), with the sampling instant and OVS of an ADC's, which an accepted trigger keeps
(R521). -/
def State.slotConv (s : State) (n : Nat) (from_ : Option (Nat × Nat)) : State :=
  if s.slotTrig n = 1 then
    let t := s.slotHit n
    if s.sst n = stARMED && t.sst n = stPENDING then t.setKs n { t.ks n with conv := from_ } else t
  else s

/-! ### Input latches -/

/-- The input latch of word w of slot n: none while it is empty (R520). -/
def State.latch (s : State) (n w : Nat) : Option Word := tget none s.kle.lat (64 * n + w)

/-- The state with an input latch set. -/
def State.setLatch (s : State) (n w : Nat) (v : Option Word) : State :=
  { s with kle := { s.kle with lat := tset none s.kle.lat (64 * n + w) v, dlv := tset false s.kle.dlv (64 * n + w) false } }

/-- A value delivered to an input latch (R520). -/
def State.dlvLatch (s : State) (n w : Nat) (v : Word) : State :=
  { s with kle := { s.kle with lat := tset none s.kle.lat (64 * n + w) (some v),
                               dlv := tset false s.kle.dlv (64 * n + w) true } }

/-! ### Slot reset, arming -/

/-- Signal file, state words and tri-hatch state copies of slot n as a slot reset leaves them (R260, Table 3-1). -/
def State.ctxClear (s : State) (n : Nat) : State :=
  let c (o : Nat) : Nat := ctxAddr n o 0
  let out (a : Nat) : Bool := !(decide (c 0 ≤ a) && decide (a < c 0x100)) && !(decide (c 0x300 ≤ a) && decide (a < c 0x600))
  let s := { s with regs := tkeep out s.regs }
  { s with ecc := tkeep out s.ecc }

/-- A slot reset takes hold (Table 3-1): signal file, state words of every pass, deadline status; the slot is disabled and
keeps its pen status. The deadline status is taken to be OVRLAST and SSTAT.CONSEC, the state that judges the next deadline; the
tally OVRTALLY, which only a write of 0 clears (R20), and the records LASTLAT and MAXLAT stay (DESIGN CHOICE, log entry
107). -/
def State.slotResetNow (s : State) (n : Nat) : State :=
  let pen := s.sst n == stPENNED
  let s := s.slotStop n (if pen then stPENNED else stDISABLED)
  let s := (s.setBit Reg.KLE_OVRLAST n false).setFld (Reg.KLE_SSTAT n) 24 4 0
  let s := s.ctxClear n
  s.setKs n { s.ks n with rstReq := false }

/-- A slot reset is requested: at once where the slot does not run, else at its next block boundary; in a gated engine, which
performs no function, once it runs again (R80, R110). -/
def State.slotReset (s : State) (n : Nat) : State :=
  if s.sst n = stRUNNING || s.midBlock n || !s.runs gKLE then s.setKs n { s.ks n with rstReq := true } else s.slotResetNow n

/-- Enables slot n: armed, and passes 2 and 3 read their state from pass 1 in its first sample (R660). -/
def State.slotArm (s : State) (n : Nat) : State :=
  if s.slotOn n then s
  else
    let s := s.setKs n { s.ks n with rd1 := 0, rd2 := 1, rd3 := 1, run := none, late := false, ovr := false, conv := none, hl := false
                                     ramp := none }
    s.setSst n stARMED

/-- Returns a penned slot to DISABLED (R622, R682). -/
def State.slotAdmit (s : State) (n : Nat) : State :=
  let s := (s.setFld (Reg.KLE_SSTAT n) 16 8 0).setFld (Reg.KLE_SSTAT n) 24 4 0
  let s := s.wr (Reg.KLE_HSTAT n) (s.rd (Reg.KLE_HSTAT n) &&& 0xFFF00FFF)
  s.setSst n stDISABLED

/-! ### Host loss -/

/-- Policy of slot n (Table 4-12). -/
def State.hlPolicy (s : State) (n : Nat) : Nat :=
  if n < 16 then s.fld Reg.HIF_HLPOL0 (2 * n) 2 else s.fld Reg.HIF_HLPOL1 (2 * (n - 16)) 2

/-- At host loss every enabled slot has a policy to apply (R215), and a RAMP slot latches its target and rate (R217); a
RAMP that R216 turns away sets HLSTAT.BADn and waits as a STOP. -/
def State.hostLossSlot (s : State) (n : Nat) : State :=
  if !s.slotOn n then s
  else
    let p := s.hlPolicy n
    let tgt := s.rd (Reg.HIF_HLTGT n)
    let rate := s.rd (Reg.HIF_HLRATE n)
    if p = 0 then s
    else if p = 1 then
      if F32.isFinite rate && !F32.sign rate && !F32.isZero rate && F32.isFinite tgt && s.bit (Reg.KLE_SINFO n) 23 then
        s.setKs n { s.ks n with hl := true, ramp := some (tgt, rate) }
      else (s.setBit Reg.HIF_HLSTAT n true).setKs n { s.ks n with hl := true, ramp := none }
    else s.setKs n { s.ks n with hl := true, ramp := none }

/-- At host loss every enabled slot has its policy to apply (R215). -/
def State.hostLossSlots (s : State) : State := forN 32 (fun n s => s.hostLossSlot n) s

/-- Every ramp stops at its present value (R219). -/
def State.rampsStop (s : State) : State :=
  forN 32 (fun n s => if (s.ks n).ramp = none then s else s.setKs n { s.ks n with ramp := none, hl := false }) s

/-- R215: at its block boundary a slot applies its policy: STOP disables it with DATA 2, RAMP runs on. -/
def execHostLossPolicyApply (n : Fin 32) (s : State) : Host.Outcome State Fault Refusal :=
  if (s.ks n.val).hl && !s.midBlock n.val then
    let s' := s.setKs n.val { s.ks n.val with hl := false }
    done (if (s.ks n.val).ramp = none then s'.slotProtect (some 2) n.val else s')
  else done s

end Sys2Proof.Machine
end

