-- ==== Sys2Proof/Machine/Analog.lean ====
section
/-!
DEFINITION. Chapter 10: ADCs, sigma-delta inputs, trip comparators, and the trigger codes of Table 10-2.
-/
namespace Sys2Proof.Machine

/-- The units beside their registers, and their replacement. -/
def State.ad (s : State) (n : Nat) : Adc := tget {} s.adc n
def State.setAd (s : State) (n : Nat) (x : Adc) : State := { s with adc := tset {} s.adc n x }
def State.sdu (s : State) (n : Nat) : Sd := tget {} s.sd n
def State.setSd (s : State) (n : Nat) (x : Sd) : State := { s with sd := tset {} s.sd n x }
def State.qdu (s : State) (d : Nat) : Qd := tget {} s.qd d
def State.setQd (s : State) (d : Nat) (x : Qd) : State := { s with qd := tset {} s.qd d x }

/-- Bit j of a mask set or cleared. -/
def bitSet (m j : Nat) (b : Bool) : Nat := if m.testBit j then (if b then m else m - 2 ^ j) else if b then m + 2 ^ j else m

/-! ### Triggers (R511) -/

/-- Sequence j of ADCn takes triggers of a code: enabled, in an enabled ADC. -/
def State.seqTakes (s : State) (n j code : Nat) : Bool :=
  s.bit Reg.ADC_CTRL n && s.bit (Reg.ADC_SEQ n j) 31 && s.fld (Reg.ADC_SEQ n j) 0 7 == code && code != 0

/-- A trigger fires for sequence j of ADCn; one that finds the last still on its way is dropped (R545). -/
def State.seqFire (s : State) (n j code : Nat) : State :=
  if !s.seqTakes n j code then s
  else if (s.ad n).fired.testBit j then s.tally (Reg.ADC_TRIGLATETALLY n)
  else s.setAd n { s.ad n with fired := bitSet (s.ad n).fired j true }

/-- A trigger fires for every sequence of ADCn that takes the code. -/
def State.adcFire (s : State) (n code : Nat) : State :=
  if s.runs gADC then forN 4 (fun j s => s.seqFire n j code) s else s

/-- A trigger fires for SDn where SYNC names the code. -/
def State.sdFire (s : State) (n code : Nat) : State :=
  if s.runs gSDF && s.bit (Reg.SDF_SDCFG n) 0 && s.fld (Reg.SDF_SDCFG n) 8 7 == code && code != 0 then
    s.setSd n { s.sdu n with fired := true }
  else s

/-! ### What a decoder's trigger samples (R729, R730) -/

/-- SPAN, PP and CPR of QDd (Table 13-9). -/
def State.qdSpan (s : State) (d : Nat) : Nat := s.fld (Reg.CAPQD_QCFG d) 8 4 + 1
def State.qdPp (s : State) (d : Nat) : Nat := min 32 (max 1 (s.fld (Reg.CAPQD_QCFG d) 16 6))
def State.qdCpr (s : State) (d : Nat) : Nat := max 4 (s.fld (Reg.CAPQD_CPR d) 0 24)

/-- ANGLEd (R729). -/
def State.qdAngle (s : State) (d : Nat) : Word :=
  let cpr := s.qdCpr d
  let rel : Int := (s.rd (Reg.CAPQD_POS d)).toInt - (s.rd (Reg.CAPQD_ZOFF d)).toInt
  let e := (rel % cpr).toNat * s.qdPp d % cpr
  if cpr ≤ 2 * e then F32.ofRatio true (2 * cpr - 2 * e) cpr else F32.ofRatio false (2 * e) cpr

/-- SPEED × 2 × PP / CPR with one rounding (R730). -/
def State.qdHalfTurns (s : State) (d : Nat) : Word :=
  let v := s.rd (Reg.CAPQD_SPEED d)
  let m := F32.mant v * 2 * s.qdPp d
  let e := F32.ex v
  if !F32.isFinite v then F32.copy v
  else if 0 ≤ e then F32.ofRatio (F32.sign v) (m * 2 ^ e.toNat) (s.qdCpr d)
  else F32.ofRatio (F32.sign v) m (s.qdCpr d * 2 ^ (-e).toNat)

/-- A trigger fires for QDd where ROUTE.TRIG names the code: ANGLE and SPEED are sampled at its HRT edge (R730). -/
def State.qdFire (s : State) (d code : Nat) : State :=
  if s.runs gCAPQD && s.bit (Reg.CAPQD_QCFG d) 0 && s.fld (Reg.CAPQD_ROUTE d) 0 7 == code && code != 0 then
    s.setQd d { s.qdu d with sample := some (s.qdAngle d, s.qdHalfTurns d) }
  else s

/-- A trigger code of Table 10-2 fires. -/
def State.trigger (s : State) (code : Nat) : State :=
  let s := forN 4 (fun n s => s.adcFire n code) s
  let s := forN 8 (fun n s => s.sdFire n code) s
  forN 4 (fun d s => s.qdFire d code) s

/-! ### ADC sequences -/

/-- What an ADC converts (Table 10-1). -/
inductive AdcInput where
  | ain (i : Nat)
  | vrefHalf
  | ground
  | temperature
  deriving DecidableEq, Repr

/-- The input that a value of INSEL names on ADCn (R509, Table 10-1). -/
def adcInput (n insel : Nat) : AdcInput :=
  if insel < 8 then .ain (8 * n + insel)
  else if insel = 8 then .vrefHalf
  else if insel = 10 ∧ n = 3 then .temperature
  else .ground

/-- The input that the step in hand of ADCn converts (R509). -/
def State.adcConverts (s : State) (n : Nat) : Option AdcInput :=
  (s.ad n).step.map (fun st => adcInput n (s.fld (Reg.ADC_STEP n st.slot) 0 4))

/-- A sequence of ADCn below index j waits or runs (R513, R516). -/
def Adc.busyBelow (x : Adc) (j : Nat) : Bool :=
  (List.range j).any fun i => x.pend.testBit i || tget 0 x.run i != 0

/-- R516, R544, R545: a fired trigger reaches SEQj of ADCn; `ready`: 100 ns have passed since the last conversion. -/
def execAdcTrigger (n j : Fin 4) (code : BitVec 7) (ready : Bool) (s : State) : Host.Outcome State Fault Refusal :=
  let x := s.ad n.val
  if !s.runs gADC || !x.fired.testBit j.val || s.fld (Reg.ADC_SEQ n.val j.val) 0 7 != code.toNat then done s
  else
    let x := { x with fired := bitSet x.fired j.val false }
    if x.pend.testBit j.val || tget 0 x.run j.val != 0 then done ((s.setAd n.val x).tally (Reg.ADC_TRIGLATETALLY n.val))
    else
      let late := !(ready && x.step.isNone && !x.busyBelow j.val)
      done (s.setAd n.val { x with pend := bitSet x.pend j.val true, late := bitSet x.late j.val late })

/-- A write of ADC.SWTRIG (R511). -/
def State.adcSwtrig (s : State) (val : Word) : State :=
  forN 4 (fun n s => if W.bit val n then s.adcFire n 0x30 else s) s

/-- R511: a write of ADC.SWTRIG. -/
def execAdcSwtrig (val : Word) (s : State) : Host.Outcome State Fault Refusal := done (s.adcSwtrig val)

/-- The sequence of highest priority that is triggered or runs. -/
def Adc.nextSeq (x : Adc) : Option Nat := (List.range 4).find? fun j => x.pend.testBit j || tget 0 x.run j != 0

/-- Sequence j of ADCn takes its next step at a sampling instant: a start takes new coefficients, and a sequence that runs completes on
those it started with (R538); a first step whose trigger found the ADC not ready samples late (R544). -/
def State.adcStep (s : State) (n j : Nat) : State :=
  let x := s.ad n
  let start := x.pend.testBit j
  let k := if start then 0 else tget 0 x.run j - 1
  let late := start && x.late.testBit j
  let slot := (s.fld (Reg.ADC_SEQ n j) 8 4 + k) % 16
  let x := if start then { x with coef := none, last := x.coef <|> x.last, seqCoef := tset none x.seqCoef j (x.coef <|> x.last) }
    else x
  let s := match tget none x.seqCoef j with
    | some (off, gain) => (s.wr (Reg.ADC_CALOFF n) off).wr (Reg.ADC_CALGAIN n) gain
    | none => s
  let s := if late then (s.setBit Reg.ADC_STATUS (4 + n) true).tally (Reg.ADC_TRIGLATETALLY n) else s
  s.setAd n { x with
    pend := bitSet x.pend j false, late := bitSet x.late j false, run := tset 0 x.run j (k + 1)
    step := some { seq := j, slot := slot, late := late, conv := true, at_ := s.clk.tb.toNat } }

/-- ADCn can reach a sampling instant: it is enabled, and the step in hand is to convert again or a sequence is triggered or runs. -/
def State.adcSampleDue (s : State) (n : Nat) : Bool :=
  s.runs gADC && s.bit Reg.ADC_CTRL n &&
    (match (s.ad n).step with | some st => !st.conv | none => (s.ad n).nextSeq.isSome)

/-- ADCn reaches a sampling instant: the step in hand converts again, or the next step starts (R512, R517, R518). -/
def State.adcSample (s : State) (n : Nat) : State :=
  let x := s.ad n
  if !s.adcSampleDue n then s
  else match x.step, x.nextSeq with
    | some st, _ => s.setAd n { x with step := some { st with conv := true } }
    | none, some j => s.adcStep n j
    | none, none => s

/-- R512, R517, R518: ADCn reaches a sampling instant at which no calibration step runs; one that does is aborted by its own command
(R536, R539). -/
def execAdcSample (n : Fin 4) (s : State) : Host.Outcome State Fault Refusal := done (s.adcSample n.val)

/-! ### Delivery (R519 to R523) -/

/-- A signed integer as binary32 (exact below 2^24). -/
def f32OfInt (v : Int) : Word := (F32.roundInt v 0 false).1

/-- GAIN × code + OFF with one rounding (Table 10-3). -/
def scaled (gain off : Word) (v : Int) : Word := (F32.fma gain (f32OfInt v) off).1

/-- A value is delivered to an input latch (R520); a second delivery before the copy counts in the tally, where there is one. -/
def State.latchDeliver (s : State) (tallyA : Option Nat) (slot w : Nat) (v : Word) : State :=
  let s := match tallyA with
    | some a => if tget false s.kle.dlv (64 * slot + w) then s.tally a else s
    | none => s
  s.dlvLatch slot w v

/-- The destinations of a routing word other than the result FIFO (Table 10-3): latch, queue, then the slot trigger, with the
sampling instant and OVS of an ADC. -/
def State.route (s : State) (tallyA : Option Nat) (from_ : Option (Nat × Nat)) (r q gain off : Word) (v : Int) : State :=
  let slot := W.fld r 16 5
  let s := if W.bit r 7 then s.latchDeliver tallyA slot (W.fld r 24 6) (scaled gain off v) else s
  let s := if W.bit r 8 then (s.stage 4 (W.fld q 0 6) (W.fld q 8 6) (BitVec.ofInt 16 v)).2 else s
  if W.bit r 10 then s.slotConv slot from_ else s

/-- THRESH of ADCn: 0 acts as 1. -/
def State.adcThresh (s : State) (n : Nat) : Nat := max 1 (s.fld (Reg.ADC_FIFOCFG n) 0 5)

/-- A result for ADCn's FIFO (R522): stored, with source 28 + n at THRESH entries, or discarded. -/
def State.adcFifoPut (s : State) (n : Nat) (w : Word) : State :=
  let x := s.ad n
  if 16 ≤ x.fifo.length then (s.setBit Reg.ADC_STATUS (8 + n) true).tally (Reg.ADC_FIFODROP n)
  else
    let s := s.setAd n { x with fifo := x.fifo ++ [w] }
    if x.fifo.length + 1 = s.adcThresh n then s.source (28 + n) else s

/-- The word of Table 10-4. -/
def fifoWord (code step : Nat) (late : Bool) : Word :=
  BitVec.ofNat 32 (code % 65536 + step % 16 * 2 ^ 16 + (if late then 2 ^ 30 else 0) + 2 ^ 31)

/-- OVS of a step; 5 to 7 act as 4 (R518). -/
def State.stepOvs (s : State) (n k : Nat) : Nat := min 4 (s.fld (Reg.ADC_STEP n k) 4 3)

/-- A step's result, first sampled at `at_`, goes to every destination that the step names (R519). -/
def State.adcDeliver (s : State) (n k code : Nat) (late : Bool) (at_ : Nat) : State :=
  let r := s.rd (Reg.ADC_STEP n k)
  let m := s.stepOvs n k
  let s := if W.bit r 9 then s.adcFifoPut n (fifoWord code k late) else s
  s.route (some (Reg.ADC_OVWRTALLY n)) (some (at_, m)) r (s.rd (Reg.ADC_STEPQ n k)) (s.rd (Reg.ADC_GAIN n k))
    (s.rd (Reg.ADC_OFF n k)) code

/-- An ADC has a result under way that was sampled at the same instant and with the same OVS as the one that triggered
slot n: the slot sees it at its start (R521). -/
def State.convDue (s : State) (n : Nat) : Bool :=
  match (s.ks n).conv with
  | none => false
  | some (t, m) => (List.range 4).any fun a =>
      match (s.ad a).step with
      | some st => st.at_ == t && s.stepOvs a st.slot == m
      | none => false

/-- A step of ADCn has ended: its sequence goes on, or ends with its interrupt (R516, Table 10-7). -/
def State.adcStepEnd (s : State) (n j : Nat) : State :=
  let x := s.ad n
  let k := tget 0 x.run j
  if k = 0 then s.setAd n { x with step := none }
  else if k < s.fld (Reg.ADC_SEQ n j) 12 4 + 1 then s.setAd n { x with step := none, run := tset 0 x.run j (k + 1) }
  else
    let s := s.setAd n { x with step := none, run := tset 0 x.run j 0 }
    if s.bit (Reg.ADC_SEQ n j) 16 then s.source (28 + n) else s

/-- R515, R518, R519: a conversion of ADCn ends with a calibrated code. -/
def execAdcConversionEnd (n : Fin 4) (code : BitVec 16) (s : State) : Host.Outcome State Fault Refusal :=
  let x := s.ad n.val
  match x.step with
  | none => done s
  | some st =>
    if !st.conv || !s.runs gADC then done s
    else
      let sum := st.sum + code.toNat
      let m := s.stepOvs n.val st.slot
      if st.cnt + 1 < 2 ^ m then
        done (s.setAd n.val { x with step := some { st with sum := sum, cnt := st.cnt + 1, conv := false } })
      else
        let v := if m = 0 then sum else (sum + 2 ^ (m - 1)) / 2 ^ m
        done ((s.adcDeliver n.val st.slot v st.late st.at_).adcStepEnd n.val st.seq)

/-- The head of ADCn's FIFO, or zero, and the state after its read; where `same`, the newest entry comes in the same cycle, is not
seen and stays (R522, R14). -/
def State.adcFifoGet (s : State) (n : Nat) (same : Bool) : Word × State :=
  let x := s.ad n
  if same && x.fifo.length ≤ 1 then (0, s) else
  (x.fifo.headD 0, s.setAd n { x with fifo := x.fifo.tail })

/-- R522: a read of FIFOn. -/
def execAdcFifoRead (n : Fin 4) (same : Bool) (tlp : Tlp) (s : State) : Host.Outcome State Fault Refusal :=
  done (s.readBy .host tlp (Reg.ADC_FIFO n.val) (fun s => let (w, t) := s.adcFifoGet n.val same; (.word w, t)))

/-- A write of SEQnj with EN clear: the running step completes, the rest is not run (R547). -/
def State.seqOff (s : State) (n j : Nat) : State :=
  let x := s.ad n
  s.setAd n { x with fired := bitSet x.fired j false, pend := bitSet x.pend j false, late := bitSet x.late j false
                     run := tset 0 x.run j 0 }

/-! ### Calibration and proofs (R536 to R539, R551, R553) -/

/-- An ADCCAL command whose last ADC has ended completes (R268, Table 5-2). -/
def State.adccalEnd (s : State) : State :=
  match s.hif.cmd with
  | some c =>
    if c.started && W.fld (c.words.getD 0 0) 0 8 == 0x40 && s.fld Reg.ADC_STATUS 0 4 == 0 then
      s.finish (if c.aux2 = W.fld (c.words.getD 1 0) 0 4 then 0 else 0x0C) (BitVec.ofNat 32 c.aux) (BitVec.ofNat 32 c.aux2)
    else s
  | none => s

/-- Calibration of ADCn has ended after some windows, completed or not. -/
def State.calEnd (s : State) (n windows : Nat) (complete : Bool) : State :=
  let s := s.setBit Reg.ADC_STATUS n false
  let s := match s.hif.cmd with
    | some c => { s with hif := { s.hif with cmd := some { c with aux := max c.aux windows,
                                                                  aux2 := if complete then c.aux2 + 2 ^ n else c.aux2 } } }
    | none => s
  s.adccalEnd

/-- R536, R537: ADCn uses one calibration window. Where a sampling instant is due in it and aborts the step, the conversion starts at that
instant; else the step completes. -/
def execAdcCalibrationStep (n : Fin 4) (aborted : Bool) (off gain : Word) (s : State) : Host.Outcome State Fault Refusal :=
  let x := s.ad n.val
  match x.cal with
  | none => done s
  | some c =>
    if !s.runs gADC || x.step.any (·.conv) then done s
    else
      let cut := aborted && s.adcSampleDue n.val
      let c := { c with windows := c.windows + 1, steps := if cut then c.steps else c.steps + 1 }
      let s := if cut then s.adcSample n.val else s
      let x := s.ad n.val
      if 512 ≤ c.steps then
        done ((s.setAd n.val { x with cal := none, coef := some (off, gain) }).calEnd n.val c.windows true)
      else if 4096 ≤ c.windows then done ((s.setAd n.val { x with cal := none }).calEnd n.val c.windows false)
      else done (s.setAd n.val { x with cal := some c })

/-- A proof of ADCn starts, or waits for its calibration to end (R539, R551). -/
def State.proofStart (s : State) (n : Nat) : State :=
  if (s.ad n).proof.isSome then s
  else ((s.setAd n { s.ad n with proof := some {} }).setBit Reg.ADC_PROOFSTAT n true).setBit Reg.ADC_PROOFSTAT (4 + n) false

/-- A write of ADC.PROOF; in a gated block it would make the block busy (R80). -/
def State.adcProof (s : State) (val : Word) : State :=
  if s.gatedBit gADC then (if W.fld val 0 4 = 0 then s else s.wlrej Reg.ADC_PROOF)
  else forN 4 (fun n s => if W.bit val n then s.proofStart n else s) s

/-- R539: a write of ADC.PROOF. -/
def execAdcProof (val : Word) (s : State) : Host.Outcome State Fault Refusal := done (if s.live then s.adcProof val else s)

/-- A proof of ADCn ends (R539). -/
def State.proofEnd (s : State) (n : Nat) (pass complete : Bool) : State :=
  let s := (s.setBit Reg.ADC_PROOFSTAT n false).setBit Reg.ADC_PROOFSTAT (4 + n) pass
  if complete then s else s.setBit Reg.ADC_PROOFSTAT (8 + n) true

/-- R539: a calibration window of a proof: a conversion of VREF/2 (the first 64) or of ground (the others), or none where
a sampling instant is due in it and aborts it: the conversion of the sequence starts at that instant (R536). -/
def execAdcProofConversion (n : Fin 4) (code : Option (BitVec 16)) (s : State) : Host.Outcome State Fault Refusal :=
  let x := s.ad n.val
  match x.proof with
  | none => done s
  | some p =>
    if !s.runs gADC || x.cal.isSome || x.step.any (·.conv) || (code.isNone && !s.adcSampleDue n.val) then done s
    else
      let s := if code.isNone then s.adcSample n.val else s
      let x := s.ad n.val
      let tol := s.fld Reg.ADC_PROOFSTAT 16 8
      let p := { p with windows := p.windows + 1 }
      let p := match code with
        | none => p
        | some c =>
          let want := if p.made < 64 then 0x8000 else 0
          { p with made := p.made + 1
                   good := p.good && decide (c.toNat ≤ want + tol) && decide (want ≤ c.toNat + tol) }
      if 128 ≤ p.made then done ((s.setAd n.val { x with proof := none }).proofEnd n.val p.good true)
      else if 4096 ≤ p.windows then done ((s.setAd n.val { x with proof := none }).proofEnd n.val false false)
      else done (s.setAd n.val { x with proof := some p })

/-! ### Sigma-delta inputs -/

/-- A bit of SDF.STATUS sets and raises source 32 (Table 10-8). -/
def State.sdStatus (s : State) (i : Nat) : State := (s.setBit Reg.SDF_STATUS i true).source 32

/-- PERI cycles of a period of SDn_CLK where the part drives it: DIV, below 5 as 5 and above 50 as 50; none where it is an
input (R525). -/
def State.sdDiv (s : State) (n : Nat) : Option Nat :=
  if s.bit (Reg.SDF_SDCFG n) 1 then some (min 50 (max 5 (s.fld (Reg.SDF_SDCFG n) 2 6))) else none

/-- A modulator bit counts as +1 or −1 (R525). -/
def sdBit (b : Bool) : Int := if b then 1 else -1

/-- The last `k` of a stream, oldest first, as numbers; before its first bit the integrators hold 0. -/
def lastBits (k : Nat) (bits : List Bool) : List Int :=
  let xs := (bits.drop (bits.length - k)).map sdBit
  List.replicate (k - xs.length) 0 ++ xs

/-- The sums of `r` neighbours of a list, from its first `k` places. -/
def movingSums (r : Nat) (xs : List Int) : Nat → List Int
  | 0 => []
  | k + 1 => (xs.take r).foldl (· + ·) 0 :: movingSums r (xs.drop 1) k

/-- The third-order sinc sum over `r` modulator clocks of a bit stream (R526). -/
def sinc3 (r : Nat) (bits : List Bool) : Int :=
  ((movingSums r (movingSums r (movingSums r (lastBits (3 * r - 2) bits) (2 * r - 1)) r) 1).headD 0)

/-- R526, R527: the modulator clock of SDn that is number `clocks` since EN was set, with the last bits, oldest first: at R3
clocks after the count began a sinc3 result falls due, the sum shifted, saturated and delivered, and the next count begins. -/
def execSinc3Result (n : Fin 8) (clocks : Nat) (bits : List Bool) (s : State) : Host.Outcome State Fault Refusal :=
  let n := n.val
  if !s.runs gSDF || !s.bit (Reg.SDF_SDCFG n) 0 || clocks != (s.sdu n).base + s.fld (Reg.SDF_SDFILT n) 0 9 then done s
  else
    let sum := sinc3 (s.fld (Reg.SDF_SDFILT n) 0 9) bits
    let v := sum.shiftRight (s.fld (Reg.SDF_SDFILT n) 9 4)
    let sat := if v < -32768 then -32768 else if 32767 < v then 32767 else v
    let s := if sat = v then s else s.sdStatus n
    let s := (s.setFld (Reg.SDF_SDLAST n) 0 16 (BitVec.ofInt 16 sat).toNat).setSd n { s.sdu n with base := clocks }
    done (s.route none none (s.rd (Reg.SDF_SDROUTE n)) (s.rd (Reg.SDF_SDQ n)) (s.rd (Reg.SDF_SDGAIN n)) (s.rd (Reg.SDF_SDOFF n))
      sat)

/-- R527: a fired trigger restarts the decimation count of SDn after `clocks` modulator clocks since EN was set: the count
begins at the next one. -/
def execSdSync (n : Fin 8) (clocks : Nat) (s : State) : Host.Outcome State Fault Refusal :=
  let x := s.sdu n.val
  if s.runs gSDF && x.fired then done (s.setSd n.val { x with fired := false, base := clocks + 1 }) else done s

/-- A write of SDF.SWSYNC. -/
def State.swsync (s : State) (val : Word) : State :=
  forN 8 (fun n s => if W.bit val n then s.sdFire n 0x30 else s) s

/-- R527: a write of SDF.SWSYNC. -/
def execSwsync (val : Word) (s : State) : Host.Outcome State Fault Refusal := done (s.swsync val)

/-- A signed 6-bit field. -/
def signed6 (v : Nat) : Int := if v < 32 then v else (v : Int) - 64

/-- The sinc1 sum is outside HI and LO as SDTRIPn enables them (R528). -/
def State.sdOver (s : State) (n : Nat) (sum : Int) : Bool :=
  let a := Reg.SDF_SDTRIP n
  (s.bit a 14 && decide (signed6 (s.fld a 0 6) < sum)) || (s.bit a 15 && decide (sum < signed6 (s.fld a 8 6)))

/-- R528: a modulator clock of SDn, with the bits so far, oldest first: the sum of the last R1 of them. -/
def execSdtTrip (n : Fin 8) (bits : List Bool) (s : State) : Host.Outcome State Fault Refusal :=
  if s.runs gSDF && s.bit (Reg.SDF_SDCFG n.val) 0 then
    let sum := (lastBits (s.fld (Reg.SDF_SDFILT n.val) 16 5 + 1) bits).foldl (· + ·) 0
    done (s.setSd n.val { s.sdu n.val with trips := s.sdOver n.val sum })
  else done s

/-- R552: no SDn_CLK edge for 640 ns while SDn is enabled with an external clock. -/
def execSdClkmiss (n : Fin 8) (s : State) : Host.Outcome State Fault Refusal :=
  if s.runs gSDF && s.bit (Reg.SDF_SDCFG n.val) 0 && !s.bit (Reg.SDF_SDCFG n.val) 1 then done (s.sdStatus (8 + n.val))
  else done s

/-- The last `k` bits of a stream are there and equal. -/
def stuckAt (k : Nat) (bits : List Bool) : Bool :=
  let xs := bits.drop (bits.length - k)
  decide (k ≤ bits.length) && (xs.all id || xs.all not)

/-- R552: a modulator clock of SDn, with the last bits, oldest first: STUCK where the last STUCKLEN are equal; 0 disables the
check. -/
def execSdStuck (n : Fin 8) (bits : List Bool) (s : State) : Host.Outcome State Fault Refusal :=
  let k := s.fld (Reg.SDF_SDCFG n.val) 16 8
  if s.runs gSDF && s.bit (Reg.SDF_SDCFG n.val) 0 && k != 0 && stuckAt k bits then done (s.sdStatus (16 + n.val))
  else done s

/-- Trip line SDTn (R528); with FLTTRIP a set CLKMISS or STUCK bit holds it until software clears the bit (R552). -/
def State.sdt (s : State) (n : Nat) : Bool :=
  (s.bit (Reg.SDF_SDCFG n) 0 && (s.sdu n).trips) ||
    (s.bit (Reg.SDF_SDCFG n) 15 && (s.bit Reg.SDF_STATUS (8 + n) || s.bit Reg.SDF_STATUS (16 + n)))

/-! ### Comparators -/

/-- Comparators work without the root, unless they are gated (R548, R80). -/
def State.cmpWorks (s : State) : Bool := s.alwaysOn && !s.gatedBit gCMP

/-- The output of CMPk for an input level, as a threshold code, from its present output (R530). -/
def State.cmpOutput (s : State) (k code : Nat) (now : Bool) : Bool :=
  let thr := s.fld (Reg.CMP_CMP_THR k) 0 10
  let h := 2 * s.fld (Reg.CMP_CMP_CFG k) 3 3
  if s.bit (Reg.CMP_CMP_CFG k) 2 then
    if code < thr then true else if min 1023 (thr + h) < code then false else now
  else
    if thr < code then true else if code < thr - h then false else now

/-- R530, R531, R532, R548: the input of CMPk reaches a level; an active comparator asserts its trip line once it has been active at
FILT consecutive HRT edges, of which `edges` have passed. Without the root, blanking and filter are bypassed. -/
def execComparatorActive (k : Fin 16) (code : BitVec 10) (edges : BitVec 4) (s : State) : Host.Outcome State Fault Refusal :=
  let k := k.val
  if !s.cmpWorks || !s.bit (Reg.CMP_CMP_CFG k) 0 then done s
  else
    let act := s.cmpOutput k code.toNat (s.bit Reg.CMP_STATUS k)
    let s := s.setBit Reg.CMP_STATUS k act
    let x := s.cmpu k
    if !act then done (s.setCmp k { x with line := false })
    else if x.line || ((x.blank || decide (edges.toNat < s.fld (Reg.CMP_CMP_CFG k) 8 4)) && !s.clk.rootLost) then done s
    else done (s.cmpAssert k)

/-- R533: the blanking window of CMPk ends; an active comparator asserts its trip line. -/
def execBlankingEnd (k : Fin 16) (s : State) : Host.Outcome State Fault Refusal :=
  let x := s.cmpu k.val
  if !s.cmpWorks || !x.blank then done s
  else
    let s := s.setCmp k.val { x with blank := false }
    done (if s.bit (Reg.CMP_CMP_CFG k.val) 0 && s.bit Reg.CMP_STATUS k.val then s.cmpAssert k.val else s)

/-- A write of CMPk_THR (R534). -/
def State.cmpThr (s : State) (k : Nat) (val : Word) : State := (s.wr (Reg.CMP_CMP_THR k) (val &&& 0x3FF)).cmpBlank k

/-- R534: a write of CMPk_THR. -/
def execCmpThrWrite (k : Fin 16) (val : Word) (s : State) : Host.Outcome State Fault Refusal :=
  done (if s.live then s.cmpThr k.val val else s)

/-- Clearing CMPk.EN releases its trip line; TRIPPED keeps its value (R549). -/
def State.cmpOff (s : State) (k : Nat) : State :=
  (s.setCmp k { s.cmpu k with line := false }).setBit Reg.CMP_STATUS k false

/-- A write of CMP.PROOF with what the outputs do (R540). -/
def State.cmpProof (s : State) (val : Word) (follows : BitVec 16) : State :=
  if s.gatedBit gCMP then (if W.fld val 0 16 = 0 then s else s.wlrej Reg.CMP_PROOF)
  else forN 16 (fun k s =>
    if !W.bit val k then s
    else if s.bit (Reg.CMP_CMP_CFG k) 0 then s.setBit Reg.CMP_STATUS 16 true
    else s.setBit Reg.CMP_PROOF (16 + k) (follows.getLsbD k)) s

/-- R540: a write of CMP.PROOF. -/
def execCmpProof (val : Word) (follows : BitVec 16) (s : State) : Host.Outcome State Fault Refusal :=
  done (if s.live then s.cmpProof val follows else s)

/-- The trip lines as TRIPSEL numbers them: CMP0–CMP15 in bits 15:0, SDT0–SDT7 in bits 23:16 (R704). -/
def State.tripLines (s : State) : Nat :=
  (List.range 16).foldl (fun m k => if (s.cmpu k).line then m + 2 ^ k else m) 0 +
    (List.range 8).foldl (fun m n => if s.sdt n then m + 2 ^ (16 + n) else m) 0

end Sys2Proof.Machine
end

