-- ==== Sys2Proof/Machine/Capture.lean ====
section
/-!
DEFINITION. Chapter 13, capture channels and quadrature decoders.
-/
namespace Sys2Proof.Machine

/-! ### Capture channels (R716 to R721) -/

/-- The instant `back` steps before the end of the present CORE cycle: 32 × timebase plus the phase within the cycle (R717); an
edge is accepted up to 15 HRT cycles after its first transition (R716). -/
def State.stepTime (s : State) (back : Nat) : StepTime := BitVec.ofNat 64 (32 * s.clk.tb.toNat + 31 - back)

/-- CAPn beside its registers. -/
def State.cp (s : State) (n : Nat) : Cap := tget {} s.cap n
def State.setCp (s : State) (n : Nat) (x : Cap) : State := { s with cap := tset {} s.cap n x }

/-- Word 0 to 7 of a record (Table 13-7), SEQ, LOST, OVF and COARSE apart. -/
structure CapRec where
  kind : Nat
  rise : Bool
  isStop : Bool := false
  coincident : Bool := false
  order : Bool := false
  long : Bool := false
  ta : StepTime
  tb : StepTime := 0
  width : Word := 0
  deriving DecidableEq, Repr, Inhabited

/-- The eight words of a record as it enters the FIFO. -/
def CapRec.words (r : CapRec) (seq lost : Nat) (coarse : Bool) : List Word :=
  let b (c : Bool) (i : Nat) : Nat := if c then 2 ^ i else 0
  [BitVec.ofNat 32 (r.kind + b r.rise 2 + b r.isStop 3 + b r.coincident 4 + b r.order 5 + b r.long 6 +
      b (decide (lost ≠ 0)) 7 + b coarse 8 + seq % 256 * 2 ^ 16 + 2 ^ 31),
   W.lo32 r.ta, W.hi32 r.ta, W.lo32 r.tb, W.hi32 r.tb, r.width, BitVec.ofNat 32 (min 65535 lost), 0]

/-- THRESH of CAPn, 1 to 8. -/
def State.capThresh (s : State) (n : Nat) : Nat := min 8 (max 1 (s.fld (Reg.CAPQD_CFG n) 12 4))

/-- A record of CAPn enters its FIFO, or is lost (R720, R721); source 20 + n / 4 at THRESH records. -/
def State.capStore (s : State) (n : Nat) (r : CapRec) : State :=
  let x := s.cp n
  if 8 ≤ x.fifo.length then
    ((s.setCp n { x with seq := x.seq + 1, lost := x.lost + 1 }).tally (Reg.CAPQD_LOSTTALLY n)).setBit (Reg.CAPQD_CSTAT n) 8 true
  else
    let ws := r.words x.seq x.lost (!s.bit Reg.PWM_DLSTAT 0)
    let x := { x with seq := x.seq + 1, lost := 0, fifo := x.fifo ++ [ws] }
    let s := (s.setCp n x).setFld (Reg.CAPQD_CSTAT n) 0 4 x.fifo.length
    if x.fifo.length = s.capThresh n then s.source (20 + n / 4) else s

/-- An edge selection field takes an edge: 1 rising, 2 falling, 3 both. -/
def edgeSel (sel : Nat) (rise : Bool) : Bool := if rise then sel.testBit 0 else sel.testBit 1

/-- WIDTH of a pair and whether it is LONG (Table 13-6). -/
def pairWidth (ta tb : StepTime) : Word × Bool :=
  let d := tb.toNat - ta.toNat
  if d ≤ 0xFFFFFFFF then (BitVec.ofNat 32 d, false) else (0xFFFFFFFF, true)

/-- A pair has been made (R719). -/
def State.capPaired (s : State) (n : Nat) (r : CapRec) : State :=
  let x := s.cp n
  (s.setCp n { x with start := none, stop := none, disarmed := !s.bit (Reg.CAPQD_CFG n) 7 }).capStore n r

/-- A start edge of CAPn in PAIR mode (Table 13-6). -/
def State.capStart (s : State) (n : Nat) (t : StepTime) (rise : Bool) : State :=
  let x := s.cp n
  match x.stop with
  | some (tb, _) =>
    if tb = t then s.capPaired n { kind := 2, rise := rise, coincident := true, ta := t, tb := tb }
    else s.capPaired n { kind := 2, rise := rise, order := true, ta := t, tb := tb }
  | none =>
    let s := match x.start with
      | some (ta, r) => s.capStore n { kind := 3, rise := r, ta := ta }
      | none => s
    s.setCp n { s.cp n with start := some (t, rise) }

/-- A stop edge of CAPn in PAIR mode (Table 13-6). -/
def State.capStop (s : State) (n : Nat) (t : StepTime) (rise : Bool) : State :=
  let x := s.cp n
  match x.start with
  | some (ta, r) =>
    if ta = t then s.capPaired n { kind := 2, rise := r, coincident := true, ta := ta, tb := t }
    else
      let (w, long) := pairWidth ta t
      s.capPaired n { kind := 2, rise := r, long := long, ta := ta, tb := t, width := w }
  | none =>
    let s := match x.stop with
      | some (tb, r') => s.capStore n { kind := 3, rise := r', isStop := true, ta := tb, tb := tb }
      | none => s
    s.setCp n { s.cp n with stop := some (t, rise) }

/-- An accepted edge on a ball as channel n sees it; `own`: the ball is its own, else its partner's (R718, R719). -/
def State.capSee (s : State) (n : Nat) (own rise : Bool) (t : StepTime) : State :=
  let c := s.rd (Reg.CAPQD_CFG n)
  if !W.bit c 0 then s
  else if !W.bit c 1 then
    if own && edgeSel (W.fld c 2 2) rise then s.capStore n { kind := 1, rise := rise, ta := t } else s
  else
    let isStart := own && edgeSel (W.fld c 2 2) rise
    let isStop := (own == !W.bit c 6) && edgeSel (W.fld c 4 2) rise
    let s := if isStart && !(s.cp n).disarmed then s.capStart n t rise else s
    if isStop && !(s.cp n).disarmed then s.capStop n t rise else s

/-- Channel n accepts an edge whose new level has been held for `held` HRT cycles, 15 for 15 and more (R716). -/
def State.capAccepts (s : State) (n : Nat) (held : BitVec 4) : Bool := decide (s.fld (Reg.CAPQD_CFG n) 8 4 ≤ held.toNat)

/-- R716, R718: an edge on ball CAPb_IN, whose level is held for `held` HRT cycles, reaches CAPb and its partner, each by its own filter. -/
def execCaptureEdge (b : Fin 16) (rise : Bool) (held : BitVec 4) (back : BitVec 9) (s : State) : Host.Outcome State Fault Refusal :=
  if s.runs gCAPQD then
    let partner := if b.val % 2 = 0 then b.val + 1 else b.val - 1
    let t := s.stepTime back.toNat
    let own := if s.capAccepts b.val held then s.capSee b.val true rise t else s
    done (if s.capAccepts partner held then own.capSee partner false rise t else own)
  else done s

/-- Word w of the head record of CAPn; zero while the FIFO is empty (R720). -/
def State.capWord (s : State) (n w : Nat) : Word := ((s.cp n).fifo.headD []).getD w 0

/-- The head record is removed (R720). -/
def State.capPop (s : State) (n : Nat) : State :=
  let x := s.cp n
  (s.setCp n { x with fifo := x.fifo.tail }).setFld (Reg.CAPQD_CSTAT n) 0 4 x.fifo.tail.length

/-- A read of REC7 of CAPn, which removes the head record; where `same`, the newest record comes in the same cycle, is not seen and
stays (R720, R14). -/
def State.capRead (s : State) (n : Nat) (same : Bool) : Word × State :=
  if same && (s.cp n).fifo.length ≤ 1 then (0, s) else (s.capWord n 7, s.capPop n)

/-- R720, R14: a read of REC7 of CAPn. -/
def execCaptureRecordRead (n : Fin 16) (same : Bool) (tlp : Tlp) (s : State) : Host.Outcome State Fault Refusal :=
  done (s.readBy .host tlp (Reg.CAPQD_REC n.val 7) (fun s => let (w, t) := s.capRead n.val same; (.word w, t)))

/-- A write of ARMn (R719). -/
def State.capArm (s : State) (n : Nat) (val : Word) : State :=
  if W.bit val 0 then s.setCp n { s.cp n with disarmed := false } else s

/-- R719: a write of ARMn. -/
def execCaptureArm (n : Fin 16) (val : Word) (s : State) : Host.Outcome State Fault Refusal :=
  done (if s.live then s.capArm n.val val else s)

/-- CAPn.EN changes: held edges are forgotten and the channel takes edges. -/
def State.capEnable (s : State) (n : Nat) : State :=
  s.setCp n { s.cp n with start := none, stop := none, disarmed := false }

/-! ### Quadrature decoders (R722 to R730) -/

/-- 78.125 ps steps in a second. -/
abbrev stepsPerSecond : Nat := 12800000000

/-- k counts in dt steps, in counts per second, negated where `neg` (R726); a speed over no time is a free value. -/
def speedOf (s : State) (neg : Bool) (k dt : Nat) : Word × State :=
  if dt = 0 then s.drawWord else (F32.ofRatio neg (k * stepsPerSecond) dt, s)

/-- A flag of QSTAT bits 12:8 sets: 8 REV, 9 STALLEV, 10 IDX, 11 ERR; source 24 + d where IENd enables it. -/
def State.qdFlag (s : State) (d bit ien : Nat) : State :=
  let s := s.setBit (Reg.CAPQD_QSTAT d) bit true
  if s.bit (Reg.CAPQD_IEN d) ien then s.source (24 + d) else s

/-- A counting edge in a direction (R722, R725, R726, R728); one that reverses is the new speed reference. -/
def State.qdCount (s : State) (d : Nat) (back : Bool) (t : StepTime) : State :=
  let pos := s.rd (Reg.CAPQD_POS d)
  let s := s.wr (Reg.CAPQD_POS d) (if back then pos - 1 else pos + 1)
  let s := s.setBit (Reg.CAPQD_QSTAT d) 1 false
  let x := s.qdu d
  if back != s.bit (Reg.CAPQD_QSTAT d) 0 then
    let s := ((s.setBit (Reg.CAPQD_QSTAT d) 0 back).wr (Reg.CAPQD_SPEED d) 0).setQd d { x with times := [t], last := t }
    (s.qdFlag d 8 1).event evQD_MOTION d 1
  else
    let times := (t :: x.times).take (s.qdSpan d + 1)
    let s := s.setQd d { x with times := times, last := t }
    let k := times.length - 1
    if k = 0 then s
    else
      let (v, s) := speedOf s back k (t.toNat - (times.getLastD t).toNat)
      s.wr (Reg.CAPQD_SPEED d) v

/-- The level of a ball of QDd changes: of A, of B, or of both within the same filter window. -/
def Qd.toggle (x : Qd) (onB both : Bool) : Qd :=
  { x with a := if both || !onB then !x.a else x.a, b := if both || onB then !x.b else x.b }

/-- A leads B at the edge that has just changed A, or B where `onB` (R722): an edge of A leaves the two levels apart, an edge of B leaves
them equal. -/
def Qd.aLeads (x : Qd) (onB : Bool) : Bool := if onB then x.a == x.b else x.a != x.b

/-- R716, R722, R723: an edge on QDd_A, on QDd_B where `onB`, or on both within the same filter window; the new level is held for
`held` HRT cycles, 15 for 15 and more. SWAP exchanges the roles of A and B. -/
def execQdEdge (d : Fin 4) (onB both : Bool) (held : BitVec 4) (back : BitVec 9) (s : State) : Host.Outcome State Fault Refusal :=
  let d := d.val
  if held.toNat < s.fld (Reg.CAPQD_QCFG d) 4 4 then done s
  else
    let s := s.setQd d ((s.qdu d).toggle onB both)
    if !s.runs gCAPQD || !s.bit (Reg.CAPQD_QCFG d) 0 then done s
    else if both then
      done (((s.tally (Reg.CAPQD_ERRTALLY d)).qdFlag d 11 3).setQd d { s.qdu d with times := [] })
    else done (s.qdCount d ((s.qdu d).aLeads onB == s.bit (Reg.CAPQD_QCFG d) 1) (s.stepTime back.toNat))

/-- R724, R740: a rising index edge of QDd, which acts with A and B high. -/
def execQdIndex (d : Fin 4) (s : State) : Host.Outcome State Fault Refusal :=
  let d := d.val
  let mode := s.fld (Reg.CAPQD_QCFG d) 2 2
  if !s.runs gCAPQD || !s.bit (Reg.CAPQD_QCFG d) 0 || mode = 0 || !((s.qdu d).a && (s.qdu d).b) then done s
  else
    let x := s.qdu d
    let s := s.wr (Reg.CAPQD_IDXPOS d) (s.rd (Reg.CAPQD_POS d))
    let s := if mode = 2 ∨ (mode = 3 ∧ !x.indexed) then s.wr (Reg.CAPQD_POS d) 0 else s
    done ((s.setQd d { x with indexed := true }).qdFlag d 10 2)

/-- R727: a TICK of QDd: |SPEED| is reduced to what the time since the last edge allows. -/
def execQdSpeedDecay (d : Fin 4) (s : State) : Host.Outcome State Fault Refusal :=
  let d := d.val
  let v := s.rd (Reg.CAPQD_SPEED d)
  let dt := 32 * s.clk.tb.toNat - (s.qdu d).last.toNat
  if !s.runs gCAPQD || !s.bit (Reg.CAPQD_QCFG d) 0 || F32.isZero v || dt = 0 then done s
  else
    let lim := F32.ofRatio false stepsPerSecond dt
    let mag : Word := v &&& 0x7FFFFFFF
    done (if F32.lt lim mag then s.wr (Reg.CAPQD_SPEED d) (if F32.sign v then F32.neg lim else lim) else s)

/-- STALLTMO of QDd in steps (R728); 0 acts as 1 (Table 13-9). -/
def State.stallSteps (s : State) (d : Nat) : Nat := 12800 * max 1 (s.fld (Reg.CAPQD_STALLTMO d) 0 20)

/-- R728, R741: STALLTMO has passed with no counting edge; one in the same TICK cycle prevents the stall. -/
def execQdStall (d : Fin 4) (edge : Bool) (s : State) : Host.Outcome State Fault Refusal :=
  let d := d.val
  if !s.runs gCAPQD || !s.bit (Reg.CAPQD_QCFG d) 0 || s.bit (Reg.CAPQD_QSTAT d) 1 || edge ||
      32 * s.clk.tb.toNat - (s.qdu d).last.toNat < s.stallSteps d then done s
  else
    let s := ((s.wr (Reg.CAPQD_SPEED d) 0).setBit (Reg.CAPQD_QSTAT d) 1 true).setQd d { s.qdu d with times := [] }
    done ((s.qdFlag d 9 0).event evQD_MOTION d 0)

/-- R730, R734: what the routed trigger of QDd has sampled of ANGLE and SPEED goes into input latches. -/
def execQdRouteSample (d : Fin 4) (s : State) : Host.Outcome State Fault Refusal :=
  let d := d.val
  let x := s.qdu d
  match x.sample with
  | none => done s
  | some (angle, speed) =>
    if !s.runs gCAPQD then done s else
    let s := s.setQd d { x with sample := none }
    let slot := s.fld (Reg.CAPQD_ROUTE d) 8 5
    let w := s.fld (Reg.CAPQD_ROUTE d) 16 6
    let s := s.latchDeliver none slot w angle
    if !s.bit (Reg.CAPQD_QCFG d) 13 then done s
    else if 62 < w then done (s.setBit Reg.CAPQD_STATUS 0 true)
    else done (s.latchDeliver none slot (w + 1) speed)

/-- QDd.EN is set: no speed reference and no index edge yet (R724, R726), and the time without an edge counts from now (R728). -/
def State.qdEnable (s : State) (d : Nat) : State :=
  s.setQd d { s.qdu d with times := [], last := s.stepTime 0, indexed := false }

/-- The root-derived clocks were stopped: every decoder has lost edges (R82, R742). -/
def State.qdLost (s : State) : State :=
  forN 4 (fun d s => s.setBit (Reg.CAPQD_QSTAT d) 12 true) s

end Sys2Proof.Machine
end

