-- ==== Sys2Proof/Machine/KleBlocks.lean ====
section
/-!
DEFINITION. Chapter 11, the block library as pure functions of inputs, parameters and state words (Table 11-5), the shapes
of the blocks, and the transforms of Table 12-5.
-/
namespace Sys2Proof.Machine

open F32 (fX fO fU fI qnan one half negHalf negZero)

/-! ### Sums (R581) -/

/-- The product a·b fused into a running value; flags gather. -/
def fuse (r : Word × Nat) (a b : Word) : Word × Nat := let (w, f) := F32.fma a b r.1; (w, r.2 ||| f)
/-- The sign inverted within an operation, a signalling NaN staying one (R594). -/
def flip (w : Word) : Word := w ^^^ 0x80000000
/-- The subtracted product a·b: fused with its first factor negated. -/
def fuseSub (r : Word × Nat) (a b : Word) : Word × Nat := fuse r (flip a) b
/-- A further plain term. -/
def plus (r : Word × Nat) (a : Word) : Word × Nat := let (w, f) := F32.add r.1 a; (w, r.2 ||| f)
/-- A further subtracted plain term. -/
def minus (r : Word × Nat) (a : Word) : Word × Nat := let (w, f) := F32.sub r.1 a; (w, r.2 ||| f)
/-- A sum with no plain term starts at −0. -/
abbrev noTerm : Word × Nat := (negZero, 0)

/-- Σ aᵢ·bᵢ fused into a running value, left to right. -/
def fuseAll (r : Word × Nat) : List (Word × Word) → Word × Nat
  | [] => r
  | (a, b) :: l => fuseAll (fuse r a b) l

/-! ### Blocks -/

/-- The block codes (Table 11-5). -/
abbrev opLIN : Nat := 0x01
abbrev opPI : Nat := 0x02
abbrev opPID : Nat := 0x03
abbrev opLEADLAG : Nat := 0x04
abbrev opBIQUAD : Nat := 0x05
abbrev opPR : Nat := 0x06
abbrev opSS : Nat := 0x07
abbrev opCLARKE : Nat := 0x08
abbrev opPARK : Nat := 0x09
abbrev opIPARK : Nat := 0x0A
abbrev opICLARKE : Nat := 0x0B
abbrev opSVM : Nat := 0x0C
abbrev opSINCOS : Nat := 0x0D
abbrev opTABLE : Nat := 0x0E
abbrev opCMPSEL : Nat := 0x0F
abbrev opCLIP : Nat := 0x10
abbrev opINTEG : Nat := 0x11
abbrev opLEARN : Nat := 0x12
abbrev opOUTPWM : Nat := 0x13
abbrev opOUTQ : Nat := 0x14
abbrev opLATCH : Nat := 0x15
abbrev opDIVSQRT : Nat := 0x16

/-- How many inputs, outputs, parameters and state words a block uses (Table 11-5, Table 12-1). -/
structure BlkShape where
  nin : Nat
  nout : Nat
  np : Nat
  ns : Nat
  deriving DecidableEq, Repr

/-- The shape of a block by OP and ARGs; none for an OP that Table 11-5 does not list. -/
def blkShape (op : Nat) (arg : Nat → Nat) : Option BlkShape :=
  match op with
  | 0x01 => some ⟨2, 1, 3, 0⟩
  | 0x02 => some ⟨3, 1, 3, 2⟩
  | 0x03 => some ⟨3, 1, 5, 4⟩
  | 0x04 => some ⟨1, 1, 3, 1⟩
  | 0x05 => some ⟨1, 1, 5, 2⟩
  | 0x06 => some ⟨2, 1, 4, 4⟩
  | 0x07 => some ⟨arg 1, arg 2, arg 0 * arg 0 + arg 0 * arg 1 + arg 2 * arg 0 + arg 2 * arg 1, arg 0⟩
  | 0x08 => some ⟨if arg 0 = 0 then 2 else 3, 2, 0, 0⟩
  | 0x09 => some ⟨4, 2, 0, 0⟩
  | 0x0A => some ⟨4, 2, 0, 0⟩
  | 0x0B => some ⟨2, 3, 0, 0⟩
  | 0x0C => some ⟨2, 3, 0, 0⟩
  | 0x0D => some ⟨1, 2, 0, 0⟩
  | 0x0E => some ⟨1, 1, 2, 0⟩
  | 0x0F => some ⟨4, 2, 0, 0⟩
  | 0x10 => some ⟨3, 2, 0, 0⟩
  | 0x11 => some ⟨if arg 1 = 0 then 1 else 3, 1, 1, 2⟩
  | 0x12 => some ⟨if arg 2 = 0 then 1 else 2, 2, 3, 2⟩
  | 0x13 => some ⟨arg 1, 0, 2, 0⟩
  | 0x14 => some ⟨1, 0, 1, 0⟩
  | 0x15 => some ⟨arg 2, 0, 0, 0⟩
  | 0x16 => some ⟨if arg 0 = 0 then 2 else 1, 1, 0, 0⟩
  | _ => none

/-- The blocks that a NEG or SHIFT pass runs in transformed form (R646). -/
def inLinSet (op : Nat) : Bool :=
  op == opLIN || op == opPI || op == opPID || op == opLEADLAG || op == opBIQUAD || op == opPR || op == opSS
    || op == opCLARKE || op == opICLARKE || op == opOUTPWM || op == opOUTQ || op == opLATCH

/-- The blocks that take their inputs through the inverse transform (R644). -/
def takesInverse (op : Nat) : Bool := op == opOUTPWM || op == opOUTQ || op == opLATCH

/-- The mark of a NaN compare value in a stream (R601); a compare value has 20 bits. -/
abbrev nanCompare : Word := qnan

/-- What a block gives: outputs, new state words, external writes, and flags. -/
structure BlkOut where
  y : List Word := []
  st : List Word := []
  ext : List (WrTgt × Word) := []
  flags : Nat := 0
  deriving DecidableEq, Repr, Inhabited

/-- LIN. -/
def blkLin (u p : Nat → Word) : BlkOut :=
  let y := fuse (fuse (p 2, 0) (p 0) (u 0)) (p 1) (u 1)
  { y := [y.1], flags := y.2 }

/-- PI. -/
def blkPi (u p x : Nat → Word) : BlkOut :=
  let e := F32.sub (u 0) (u 1)
  let y := fuse (x 0, 0) (p 0) e.1
  let t := F32.sub (u 2) (x 1)
  let i := fuse (fuse (x 0, 0) (p 1) e.1) (p 2) t.1
  { y := [y.1], st := [i.1, y.1], flags := e.2 ||| y.2 ||| t.2 ||| i.2 }

/-- PID. -/
def blkPid (u p x : Nat → Word) : BlkOut :=
  let e := F32.sub (u 0) (u 1)
  let de := F32.sub e.1 (x 2)
  let d := fuse (fuse noTerm (p 3) de.1) (p 4) (x 3)
  let y := plus (fuse (x 0, 0) (p 0) e.1) d.1
  let t := F32.sub (u 2) (x 1)
  let i := fuse (fuse (x 0, 0) (p 1) e.1) (p 2) t.1
  { y := [y.1], st := [i.1, y.1, e.1, d.1], flags := e.2 ||| de.2 ||| d.2 ||| y.2 ||| t.2 ||| i.2 }

/-- LEADLAG. -/
def blkLeadlag (u p x : Nat → Word) : BlkOut :=
  let y := fuse (x 0, 0) (p 0) (u 0)
  let a := fuseSub (fuse noTerm (p 1) (u 0)) (p 2) y.1
  { y := [y.1], st := [a.1], flags := y.2 ||| a.2 }

/-- BIQUAD. -/
def blkBiquad (u p x : Nat → Word) : BlkOut :=
  let y := fuse (x 0, 0) (p 0) (u 0)
  let a := fuseSub (fuse (x 1, 0) (p 1) (u 0)) (p 3) y.1
  let b := fuseSub (fuse noTerm (p 2) (u 0)) (p 4) y.1
  { y := [y.1], st := [a.1, b.1], flags := y.2 ||| a.2 ||| b.2 }

/-- PR. -/
def blkPr (u p x : Nat → Word) : BlkOut :=
  let e := F32.sub (u 0) (u 1)
  let t := F32.sub e.1 (x 1)
  let r := fuseSub (fuse (fuse noTerm (p 1) t.1) (p 2) (x 2)) (p 3) (x 3)
  let y := fuse (r.1, 0) (p 0) e.1
  { y := [y.1], st := [e.1, F32.copy (x 0), r.1, F32.copy (x 2)], flags := e.2 ||| t.2 ||| r.2 ||| y.2 }

/-- One row of SS (R566): the first q rows give y = C·x + D·u, the next n give x′ = A·x + B·u, all from the old x. -/
def ssRow (n m q row : Nat) (u p x : Nat → Word) : Word × Nat :=
  let xs (base : Nat) : List (Word × Word) := (List.range n).map fun j => (p (base + j), x j)
  let us (base : Nat) : List (Word × Word) := (List.range m).map fun j => (p (base + j), u j)
  let bB := n * n
  let bC := bB + n * m
  let bD := bC + q * n
  if row < q then fuseAll noTerm (xs (bC + row * n) ++ us (bD + row * m))
  else fuseAll noTerm (xs ((row - q) * n) ++ us (bB + (row - q) * m))

/-- The constants of Table 11-5: 1/√3, 1/3 and √3/2. -/
abbrev cK : Word := 0x3F13CD3A
abbrev cT : Word := 0x3EAAAAAB
abbrev cH : Word := 0x3F5DB3D7

/-- CLARKE. -/
def blkClarke (form : Nat) (u : Nat → Word) : BlkOut :=
  if form = 0 then
    let t := fuse (u 0, 0) F32.two (u 1)
    let y := fuse noTerm cK t.1
    { y := [F32.copy (u 0), y.1], flags := t.2 ||| y.2 }
  else
    let a := minus (fuse (flip (u 1), 0) F32.two (u 0)) (u 2)
    let y0 := fuse noTerm a.1 cT
    let b := F32.sub (u 1) (u 2)
    let y1 := fuse noTerm b.1 cK
    { y := [y0.1, y1.1], flags := a.2 ||| y0.2 ||| b.2 ||| y1.2 }

/-- PARK (u2 sine, u3 cosine). -/
def blkPark (u : Nat → Word) : BlkOut :=
  let y0 := fuse (fuse noTerm (u 0) (u 3)) (u 1) (u 2)
  let y1 := fuseSub (fuse noTerm (u 1) (u 3)) (u 0) (u 2)
  { y := [y0.1, y1.1], flags := y0.2 ||| y1.2 }

/-- IPARK. -/
def blkIpark (u : Nat → Word) : BlkOut :=
  let y0 := fuseSub (fuse noTerm (u 0) (u 3)) (u 1) (u 2)
  let y1 := fuse (fuse noTerm (u 0) (u 2)) (u 1) (u 3)
  { y := [y0.1, y1.1], flags := y0.2 ||| y1.2 }

/-- ICLARKE. -/
def blkIclarke (u : Nat → Word) : BlkOut :=
  let y1 := fuse (fuse noTerm negHalf (u 0)) cH (u 1)
  let y2 := fuseSub (fuse noTerm negHalf (u 0)) cH (u 1)
  { y := [F32.copy (u 0), y1.1, y2.1], flags := y1.2 ||| y2.2 }

/-- SVM. -/
def blkSvm (u : Nat → Word) : BlkOut :=
  let v := blkIclarke u
  let v0 := v.y.getD 0 0
  let v1 := v.y.getD 1 0
  let v2 := v.y.getD 2 0
  let mx := F32.copy (F32.max' (F32.max' v0 v1) v2)
  let mn := F32.copy (F32.min' (F32.min' v0 v1) v2)
  let t := F32.add mx mn
  let o := fuse noTerm negHalf t.1
  let y (w : Word) : Word × Nat := plus (plus (half, 0) w) o.1
  { y := [(y v0).1, (y v1).1, (y v2).1], flags := v.flags ||| t.2 ||| o.2 ||| (y v0).2 ||| (y v1).2 ||| (y v2).2 }

/-- SINCOS (R583). -/
def blkSincos (u : Nat → Word) : BlkOut :=
  let a := F32.sinPi (u 0)
  let b := F32.cosPi (u 0)
  { y := [a.1, b.1], flags := a.2 ||| b.2 }

/-- min(max(⌊f⌋, 0), hi) of a number that is not a NaN. -/
def floorClamp (f : Word) (hi : Nat) : Nat :=
  if F32.sign f then 0
  else if !F32.isFinite f then hi
  else
    let e := F32.ex f
    min hi (if 0 ≤ e then F32.mant f * 2 ^ e.toNat else F32.mant f / 2 ^ (-e).toNat)

/-- f and i of TABLE (R584). -/
def tableF (u p : Nat → Word) : Word × Nat := let t := F32.sub (u 0) (p 0); fuse (negZero, t.2) t.1 (p 1)
def tableI (n : Nat) (u p : Nat → Word) : Nat := floorClamp (tableF u p).1 (n - 2)

/-- TABLE (R584): `tab` gives table word i. -/
def blkTable (n : Nat) (tab : Nat → Word) (u p : Nat → Word) : BlkOut :=
  let f := tableF u p
  if F32.isNan f.1 then { y := [qnan], flags := f.2 ||| fI }
  else
    let i := tableI n u p
    let a := F32.sub f.1 (F32.ofNat i)
    let d := F32.sub (tab (i + 1)) (tab i)
    let y := fuse (tab i, 0) a.1 d.1
    { y := [y.1], flags := f.2 ||| a.2 ||| d.2 ||| y.2 }

/-- CMPSEL (R585). -/
def blkCmpsel (rel : Nat) (u : Nat → Word) : BlkOut :=
  let a := u 0
  let b := u 1
  let c := match rel with
    | 0 => F32.lt a b
    | 1 => F32.lt a b || F32.eq a b
    | 2 => F32.eq a b
    | _ => !F32.eq a b
  { y := [F32.copy (if c then u 2 else u 3), if c then one else 0] }

/-- CLIP (R585). -/
def blkClip (u : Nat → Word) : BlkOut :=
  let y := F32.copy (F32.min' (F32.max' (u 0) (u 1)) (u 2))
  { y := [y, if F32.eq y (u 0) then 0 else one] }

/-- INTEG (R586, R587). -/
def blkInteg (sc mode : Nat) (u p x : Nat → Word) : BlkOut :=
  let f : BitVec 40 := (x 1).setWidth 8 ++ x 0
  let (f', fl) :=
    if mode = 1 ∧ !F32.isZero (u 1) then F32.fix40 (u 2) sc
    else
      let v := fuse noTerm (p 0) (u 0)
      let (d, g) := F32.fix40 v.1 sc
      (f + d, v.2 ||| g)
  let y := F32.ofFix40 f' sc
  { y := [y.1], st := [f'.setWidth 32, (f'.sshiftRight 32).setWidth 32], flags := fl ||| y.2 }

/-- OUTPWM (R600, R601). -/
def blkOutpwm (m n ch : Nat) (u p : Nat → Word) : BlkOut :=
  (List.range n).foldl (fun o k =>
    let v := fuse (p 1, 0) (p 0) (u k)
    let (w, g) := match F32.pwm v.1 with
      | some (c, g) => (BitVec.ofNat 32 c, g)
      | none => (nanCompare, 0)
    { o with ext := o.ext ++ [(.cmp (m + k) ch, w)], flags := o.flags ||| v.2 ||| g }) {}

/-- OUTQ. -/
def blkOutq (q tag : Nat) (u p : Nat → Word) : BlkOut :=
  let v := fuse noTerm (p 0) (u 0)
  let (h, g) := F32.int16 v.1
  { ext := [(.q q tag, h.setWidth 32)], flags := v.2 ||| g }

/-- LATCH. -/
def blkLatch (slot w n : Nat) (u : Nat → Word) : BlkOut :=
  { ext := (List.range n).map fun k => (.latch slot (w + k), F32.copy (u k)) }

/-- DIVSQRT. -/
def blkDivsqrt (form : Nat) (u : Nat → Word) : BlkOut :=
  let y := if form = 0 then F32.div (u 0) (u 1) else F32.sqrt (u 0)
  { y := [y.1], flags := y.2 }

/-- The blocks that compute in one segment, LEARN apart (Table 11-5). -/
def blkCompute (op : Nat) (arg : Nat → Nat) (tab : Nat → Word) (u p x : Nat → Word) : BlkOut :=
  match op with
  | 0x01 => blkLin u p
  | 0x02 => blkPi u p x
  | 0x03 => blkPid u p x
  | 0x04 => blkLeadlag u p x
  | 0x05 => blkBiquad u p x
  | 0x06 => blkPr u p x
  | 0x08 => blkClarke (arg 0) u
  | 0x09 => blkPark u
  | 0x0A => blkIpark u
  | 0x0B => blkIclarke u
  | 0x0C => blkSvm u
  | 0x0D => blkSincos u
  | 0x0E => blkTable (arg 1) tab u p
  | 0x0F => blkCmpsel (arg 0) u
  | 0x10 => blkClip u
  | 0x11 => blkInteg (arg 0) (arg 1) u p x
  | 0x13 => blkOutpwm (arg 0) (arg 1) (arg 2) u p
  | 0x14 => blkOutq (arg 0) (arg 1) u p
  | 0x15 => blkLatch (arg 0) (arg 1) (arg 2) u
  | 0x16 => blkDivsqrt (arg 0) u
  | _ => {}

/-! ### LEARN (chapter 12) -/

/-- The motion state of a LEARN block (Table 12-2). -/
structure Motion where
  k : Nat
  dir : Bool
  valid : Bool
  revfrz : Bool
  skipped : Bool
  dist : Nat
  still : Nat
  deriving DecidableEq, Repr, Inhabited

/-- The state words s0 and s1 as motion, and back (Table 12-2). -/
def Motion.ofWords (s0 s1 : Word) : Motion :=
  ⟨W.fld s0 0 12, W.bit s0 12, W.bit s0 13, W.bit s0 14, W.bit s0 15, W.fld s1 0 12, W.fld s1 16 12⟩

def Motion.toWords (v : Motion) : List Word :=
  let b (x : Bool) (i : Nat) : Nat := if x then 2 ^ i else 0
  [BitVec.ofNat 32 (v.k % 4096 + b v.dir 12 + b v.valid 13 + b v.revfrz 14 + b v.skipped 15),
   BitVec.ofNat 32 (v.dist % 4096 + v.still % 4096 * 2 ^ 16)]

/-- The index of an angle of u half-turns in a table of n points (R631), without rounding error. -/
def angleIndex (u : Word) (n : Nat) : Nat :=
  let m := F32.smant u
  let e := F32.ex u
  let (num, den) : Int × Int := if 0 ≤ e then (m * 2 ^ e.toNat, 1) else (m, 2 ^ (-e).toNat)
  (((num + den) % (2 * den)) * n / (2 * den)).toNat

/-- The step from K to k reduced modulo n into −⌈n/2⌉ + 1 … ⌊n/2⌋ (R632). -/
def angleStep (k k0 n : Nat) : Int :=
  let r : Int := ((k : Int) - k0) % n
  if r ≤ (n / 2 : Nat) then r else r - n

/-- Step 1 of R629 in ANGLE mode (Table 12-3): new motion and the points skipped. -/
def Motion.move (v : Motion) (k n resume : Nat) : Motion × Nat :=
  if !v.valid then ({ v with k := k, valid := true, dir := false, dist := 0, revfrz := true, still := 0 }, 0)
  else
    let d := angleStep k v.k n
    let a := d.natAbs
    let v' := { v with k := k, skipped := decide (2 ≤ a) }
    if d = 0 then ({ v' with still := min 4095 (v.still + 1) }, 0)
    else if decide (d < 0) = v.dir then
      let dist := min 4095 (v.dist + a)
      ({ v' with still := 0, dist := dist, revfrz := v.revfrz && decide (dist < resume) }, a - 1)
    else ({ v' with dir := !v.dir, still := 0, dist := 0, revfrz := true }, a - 1)

/-- What LEARN gives: its outputs and state, the pool word it updates, the points skipped, and its freeze causes in the
bits of LSTATs. -/
structure LearnOut where
  out : BlkOut
  skip : Nat
  lstat : Nat
  deriving DecidableEq, Repr, Inhabited

/-- Step 1 of R629: the index k of this sample, the motion that the block leaves, and the points skipped (R630 to R637). -/
def learnIndex (mode n resume : Nat) (u1 : Word) (v : Motion) : Nat × Motion × Nat :=
  if mode = 0 then (v.k, { v with k := (v.k + 1) % n, valid := true, dir := false }, 0)
  else if !F32.isFinite u1 then (v.k, v, 0)
  else
    let k := angleIndex u1 n
    let (v', sk) := v.move k n resume
    (k, v', sk)

/-- LEARN (R629, R636, R637): `tab i` is pool word i; `freeze` and `clear` are LCTLs.FREEZE and CLRBUSY. -/
def blkLearn (arg : Nat → Nat) (freeze clear : Bool) (tab : Nat → Word) (u p x : Nat → Word) : LearnOut :=
  let n := arg 1
  let mode := arg 2
  let v := Motion.ofWords (x 0) (x 1)
  let badU := mode == 1 && !F32.isFinite (u 1)
  let (k, v', sk) := learnIndex mode n (arg 4 % 4096) (u 1) v
  let t (i : Nat) : Word := tab (arg 0 + i % n)
  let first := mode == 1 && !badU && !v.valid
  let stillF := mode == 1 && decide (arg 4 / 2 ^ 16 % 4096 ≤ v'.still) && !first
  let revF := mode == 1 && v'.revfrz
  let inv := badU || !F32.isFinite (u 0)
  let frozen := freeze || clear || revF || stillF || inv
  let lead := arg 3 % n
  let y0 := if clear then 0 else F32.copy (t (if v'.dir then k + n - lead else k + lead))
  let side := F32.add (t (k + n - 1)) (t (k + 1))
  let upd := fuse (fuse (fuse noTerm (p 0) (u 0)) (p 1) (t k)) (p 2) side.1
  let b (c : Bool) (i : Nat) : Nat := if c then 2 ^ i else 0
  { out :=
      { y := [y0, if frozen then 0 else one]
        st := if badU then [x 0, x 1] else v'.toWords
        ext := if frozen then [] else [(.tab (arg 0 + k % n), upd.1)]
        flags := (if badU then fI else 0) ||| (if frozen then 0 else side.2 ||| upd.2) }
    skip := sk
    lstat := b frozen 13 + b freeze 14 + b clear 15 + b revF 16 + b stillF 17 + b inv 18 }

/-! ### Transforms (Table 12-5) -/

/-- Transforms: 0 IDENT, 1 NEG, 2 INVSTORE, 3 SHIFT by k. -/
structure Xf where
  kind : Nat
  k : Int
  deriving DecidableEq, Repr, Inhabited

/-- v × 2^k, and whether that is inexact or turns a finite value infinite. -/
def scale (v : Word) (k : Int) : Word × Bool :=
  if F32.isNan v then (qnan, false)
  else if !F32.isFinite v || F32.isZero v then (v, false)
  else
    let (w, f) := F32.roundInt (F32.smant v) (F32.ex v + k) (F32.sign v)
    (w, f != 0)

/-- A value through the forward transform, and whether that makes the pass UNVERIFIABLE (R656). -/
def Xf.fwd (x : Xf) (v : Word) : Word × Bool :=
  if x.kind = 1 then (F32.neg v, false) else if x.kind = 3 then scale v x.k else (v, false)

/-- A value through the inverse transform. -/
def Xf.inv (x : Xf) (v : Word) : Word × Bool :=
  if x.kind = 1 then (F32.neg v, false) else if x.kind = 3 then scale v (-x.k) else (v, false)

/-- A state word as a pass stores it, from its natural form, by the block that owns it (R642, R643, R647, R651). -/
def Xf.store (x : Xf) (op : Nat) (v : Word) : Word × Bool :=
  if x.kind = 2 then (~~~v, false) else if x.kind = 3 && !inLinSet op then (v, false) else x.fwd v

/-- The natural form of a state word as a pass stores it. -/
def Xf.load (x : Xf) (op : Nat) (v : Word) : Word × Bool :=
  if x.kind = 2 then (~~~v, false) else if x.kind = 3 && !inLinSet op then (v, false) else x.inv v

end Sys2Proof.Machine
end

