-- ==== Sys2Proof/Machine/Plate.lean ====
section
/-!
DEFINITION. Chapters 11 and 12, the plate check (R576 to R580, R626, R646, R649) and the registers it loads.
-/
namespace Sys2Proof.Machine

/-- A signed 5-bit field. -/
def signed5 (v : Nat) : Int := if v < 16 then v else (v : Int) - 32

/-- XF2 or XF3 of a plate, as a transform of pass p; SHIFTK = 0 acts as IDENT (R648). -/
def State.slotXf (s : State) (n p : Nat) : Xf :=
  let w := s.plate n 4
  let kind := if p = 2 then W.fld w 2 2 else if p = 3 then W.fld w 4 2 else 0
  let k := signed5 (W.fld w 6 5)
  if kind = 3 ∧ k = 0 then ⟨0, 0⟩ else ⟨kind, k⟩

/-- ARG conditions of a block (Table 11-5, Table 12-1, R626), in ascending order: each ARG and whether it keeps its condition. `sum` is
the sum of N over the LEARN blocks before. -/
def argConds (op ntab sum : Nat) (arg : Nat → Nat) : List (Nat × Bool) :=
  let zeroFrom (k : Nat) : List (Nat × Bool) :=
    ((List.range 5).filter (fun i => decide (k ≤ i))).map (fun i => (i, arg i == 0))
  match op with
  | 0x07 => [(0, decide (1 ≤ arg 0) && decide (arg 0 ≤ 4)), (1, decide (1 ≤ arg 1) && decide (arg 1 ≤ 4)),
      (2, decide (1 ≤ arg 2) && decide (arg 2 ≤ 4))] ++ zeroFrom 3
  | 0x08 => (0, decide (arg 0 ≤ 1)) :: zeroFrom 1
  | 0x0E => [(0, decide (arg 0 + 2 ≤ ntab)), (1, decide (2 ≤ arg 1) && decide (arg 1 ≤ 256) &&
      decide (arg 0 + arg 1 ≤ ntab))] ++ zeroFrom 2
  | 0x0F => (0, decide (arg 0 ≤ 3)) :: zeroFrom 1
  | 0x11 => [(0, decide (arg 0 ≤ 39)), (1, decide (arg 1 ≤ 1))] ++ zeroFrom 2
  | 0x12 =>
      [(0, decide (arg 0 + 2 ≤ 32768)),
       (1, decide (2 ≤ arg 1) && decide (arg 1 ≤ 4096) && decide (arg 0 + arg 1 ≤ 32768) && decide (sum + arg 1 ≤ 4096)),
       (2, decide (arg 2 ≤ 1)), (3, decide (arg 3 < arg 1)),
       (4, if arg 2 = 0 then arg 4 == 0
         else decide (1 ≤ arg 4 % 4096) && decide (1 ≤ arg 4 / 2 ^ 16) && decide (arg 4 / 2 ^ 16 < 4096) &&
           arg 4 / 4096 % 16 == 0)]
  | 0x13 => [(0, decide (arg 0 < 12)), (1, decide (1 ≤ arg 1) && decide (arg 1 ≤ 3) && decide (arg 0 + arg 1 ≤ 12)),
      (2, decide (arg 2 ≤ 2))] ++ zeroFrom 3
  | 0x14 => [(0, decide (arg 0 ≤ 63)), (1, decide (arg 1 ≤ 63))] ++ zeroFrom 2
  | 0x15 => [(0, decide (arg 0 ≤ 31)), (1, decide (arg 1 ≤ 63)),
      (2, decide (1 ≤ arg 2) && decide (arg 2 ≤ 4) && decide (arg 1 + arg 2 ≤ 64))] ++ zeroFrom 3
  | 0x16 => (0, decide (arg 0 ≤ 1)) :: zeroFrom 1
  | _ => zeroFrom 0

/-- The first ARG that breaks its condition. -/
def argFault (op ntab sum : Nat) (arg : Nat → Nat) : Option Nat := ((argConds op ntab sum arg).find? (fun e => !e.2)).map (·.1)

/-- The ARGs that set how many inputs, outputs, parameters or state words a block uses (Table 11-5, Table 12-1). -/
def shapeArgs (op : Nat) : List Nat :=
  if op = opSS then [0, 1, 2]
  else if op = opCLARKE ∨ op = opDIVSQRT then [0]
  else if op = opINTEG ∨ op = opOUTPWM then [1]
  else if op = opLEARN ∨ op = opLATCH then [2]
  else []

/-- An ARG that sets how many words a block uses breaks its condition, so that those numbers are not known. -/
def shapeBad (op ntab sum : Nat) (arg : Nat → Nat) : Bool :=
  (argConds op ntab sum arg).any (fun e => !e.2 && (shapeArgs op).contains e.1)

/-- The first faulty word of block descriptor b, as its index 0–7 in the descriptor (R578 to R580): reserved bits, OP,
parameter and state ranges, unused fields, ARGs. Only for the state-space block do ARGs set the parameter, state and output counts. -/
def State.blkFault (s : State) (n b ntab sum : Nat) : Option Nat :=
  let w0 := s.desc n b 0
  let op := W.fld w0 0 8
  let arg := s.blkArg n b
  match blkShape op arg with
  | none => some 0
  | some sh =>
    let pb := W.fld w0 8 6
    let sb := W.fld w0 16 6
    let inBad := shapeBad op ntab sum arg
    let ssBad := inBad && op == opSS
    let ok0 := w0 &&& 0xFFC0C000 == 0 && (if sh.np = 0 && !ssBad then pb == 0 else ssBad || decide (pb + sh.np ≤ 64)) &&
      (if sh.ns = 0 && !ssBad then sb == 0 else ssBad || decide (sb + sh.ns ≤ 64))
    let w1 := s.desc n b 1
    let w2 := s.desc n b 2
    let ok1 := w1 &&& 0x80808080 == 0 && (inBad || decide (w1.toNat < 2 ^ (8 * sh.nin)))
    let ok2 := w2 &&& 0xC0C0C0C0 == 0 && (ssBad || decide (w2.toNat < 2 ^ (8 * sh.nout)))
    if !ok0 then some 0 else if !ok1 then some 1 else if !ok2 then some 2 else (argFault op ntab sum arg).map (· + 3)

/-- The first faulty plate word of the block descriptors from b on, `k` of them left. -/
def State.blksFault (s : State) (n ntab : Nat) : Nat → Nat → Nat → Option Nat
  | 0, _, _ => none
  | k + 1, b, sum =>
    match s.blkFault n b ntab sum with
    | some i => some (32 + 8 * b + i)
    | none => s.blksFault n ntab k (b + 1) (sum + if s.blkOp n b = opLEARN then s.blkArg n b 1 else 0)

/-- Some block of the plate lies outside the set of R646. -/
def State.plateOutsideSet (s : State) (n : Nat) : Bool :=
  (List.range (min 24 (s.nblk n))).any fun b => !inLinSet (s.blkOp n b)

/-- Word 4 of a plate header keeps the conditions of Table 11-3, R646 and R649. -/
def State.word4Ok (s : State) (n : Nat) : Bool :=
  let w := s.plate n 4
  let passes := W.fld w 0 2
  let xf2 := W.fld w 2 2
  let xf3 := W.fld w 4 2
  decide (1 ≤ passes) && w &&& 0xFFFFF000 == 0 && !(xf2 != 0 && passes == 1) && !(xf3 != 0 && decide (passes < 3)) &&
    !((xf2 == 1 || xf3 == 1) && s.plateOutsideSet n)

/-- Length of a plate in words (R576). -/
def State.plateLen (s : State) (n : Nat) : Nat := 32 + 8 * s.nblk n + W.fld (s.plate n 1) 0 10

/-- PCRC matches: the CRC-32 over every plate word except word 31 (Table 11-3). -/
def State.plateCrcOk (s : State) (n : Nat) : Bool :=
  let words := (List.range (s.plateLen n)).filterMap fun i => if i = 31 then none else some (s.plate n i)
  crc32 words == s.plate n 31

/-- The plate check: the first faulty word, or none (R580). -/
def State.plateFault (s : State) (n : Nat) : Option Nat :=
  let w0 := s.plate n 0
  let nb := W.fld w0 24 8
  let w1 := s.plate n 1
  let ntab := W.fld w1 0 10
  if !(W.fld w0 0 16 == 0x4B50 && W.fld w0 16 8 == 1 && decide (1 ≤ nb) && decide (nb ≤ 24)) then some 0
  else if !(w1 &&& 0xFFFFFC00 == 0 && decide (ntab ≤ 800) && decide (32 + 8 * nb + ntab ≤ 1024)) then some 1
  else if s.plate n 2 &&& 0xFFFFC880 != 0 then some 2
  else if s.plate n 3 &&& 0xFF000000 != 0 then some 3
  else if !s.word4Ok n then some 4
  else if s.plate n 7 &&& 0xFFFFFF40 != 0 then some 7
  else
    match (List.range 23).find? (fun i => s.plate n (8 + i) != 0) with
    | some i => some (8 + i)
    | none =>
      match s.blksFault n ntab nb 0 0 with
      | some w => some w
      | none => if s.plateCrcOk n then none else some 31

/-- The lowest block index of a LEARN block of the plate (R641). -/
def State.learnBlk (s : State) (n : Nat) : Option Nat :=
  (List.range (min 24 (s.nblk n))).find? fun b => s.blkOp n b = opLEARN

/-- Header copies of a plate that passes: SINFOs, SDEADs, LBLKs. -/
def State.plateLoadRegs (s : State) (n : Nat) : State :=
  let w2 := s.plate n 2
  let w4 := s.plate n 4
  let w7 := s.plate n 7
  let info := W.fld w2 0 7 + W.fld w2 8 3 * 2 ^ 8 + W.fld w4 0 2 * 2 ^ 12 + W.fld w2 12 1 * 2 ^ 14 +
    W.fld w2 13 1 * 2 ^ 15 + W.fld w7 0 6 * 2 ^ 16 + W.fld w7 7 1 * 2 ^ 23
  let s := (s.wr (Reg.KLE_SINFO n) (BitVec.ofNat 32 info)).wr (Reg.KLE_SDEAD n) (BitVec.ofNat 32 (W.fld (s.plate n 3) 0 24))
  s.wr (Reg.KLE_LBLK n) (match s.learnBlk n with | some b => BitVec.ofNat 32 (2 ^ 31 + b) | none => 0)

/-- A plate word that the check reads with a correctable error is corrected, counted and written back (R618). -/
def State.plateScan (s : State) (n : Nat) : Nat → State
  | 0 => s
  | k + 1 =>
    let s := s.plateScan n k
    if s.eccAt (plateAddr n k) = 1 then (s.setEcc (plateAddr n k) 0).eccCorrected 2 Reg.KLE_ECCTALLY else s

/-- The first word of slot n's plate that holds an uncorrectable error: the check cannot find it good (DEDUCED, log entry 161). -/
def State.plateUe (s : State) (n : Nat) : Option Nat :=
  (List.range (min 1024 (s.plateLen n))).find? (fun k => s.eccAt (plateAddr n k) == 2)

/-- The lower of two plate words, where there are any. -/
def lowerWord (a b : Option Nat) : Option Nat :=
  match a, b with | some x, some y => some (min x y) | none, y => y | x, none => x

/-- Runs the plate check of slot n; VALID shows whether it passed (R558, R580). -/
def State.plateCheck (s : State) (n : Nat) : Option Nat × State :=
  let s := s.plateScan n (min 1024 (s.plateLen n))
  let f := lowerWord (s.plateFault n) (s.plateUe n)
  let s := s.setBit Reg.KLE_VALID n f.isNone
  (f, if f.isNone then s.plateLoadRegs n else s)

/-- A write of KLE.PLATECHK (R607, R617): checked where the slot is DISABLED; PCSTAT shows the outcome. A gated engine checks nothing
(R80). -/
def State.platechk (s : State) (val : Word) : State :=
  if !W.bit val 31 || !s.runs gKLE then s
  else
    let n := W.fld val 0 5
    if s.sst n != stDISABLED then s.setBit Reg.KLE_STATUS 17 true
    else
      let nb := s.nblk n
      let (f, s) := s.plateCheck n
      s.wr Reg.KLE_PCSTAT (BitVec.ofNat 32 (nb + f.getD 0 * 2 ^ 8 + if f.isNone then 2 ^ 31 else 0))

/-- R580: a write of KLE.PLATECHK. -/
def execPlatechk (val : Word) (s : State) : Host.Outcome State Fault Refusal :=
  done (if s.live then s.platechk val else s)

/-- A word write to slot n's plate area (R557, R558): a bus error for an enabled slot, else VALID clears. -/
def State.plateWr (s : State) (n w : Nat) (val : Word) : Bool × State :=
  if s.slotOn n then (false, s)
  else (true, ((s.wrWord (plateAddr n w) val).setEcc (plateAddr n w) 0).setBit Reg.KLE_VALID n false)

/-- R557, R558: a write of plate word w of slot s; a failed write shows its requester a bus error. -/
def execPlateWrite (_src : Requester) (n : Fin 32) (w : Fin 1024) (val : Word) (s : State) :
    Host.Outcome State Fault Refusal :=
  if !s.live then done s
  else
    let (ok, t) := s.plateWr n.val w.val val
    done { t with reply := if ok then t.reply else .busError 0 }

end Sys2Proof.Machine
end

