-- ==== Sys2Proof/Machine/Kle.lean ====
section
/-!
DEFINITION. Chapters 11 and 12, the engine: slot starts, scheduling, deadlines, the running of blocks, the write stream
of each pass and the issue of committed writes.
-/
namespace Sys2Proof.Machine

/-! ### Errors in words a slot reads (R618, R619) -/

/-- Takes the check bits of words that a slot reads: corrected errors are counted and written back; the first
uncorrectable word is answered. -/
def State.kleCheck (s : State) : List Nat → Option Nat × State
  | [] => (none, s)
  | a :: as =>
    match s.eccAt a with
    | 0 => s.kleCheck as
    | 1 => ((s.setEcc a 0).eccCorrected 2 Reg.KLE_ECCTALLY).kleCheck as
    | _ => (some a, s)

/-- An uncorrectable word pens the slot with reason ECC (R619). -/
def State.kleUe (s : State) (n a : Nat) : State :=
  let w := BitVec.ofNat 32 (a / 4 * 4)
  ((((s.wr Reg.KLE_ECCADDR w).event evECC_UNCORRECTED 2 w).source 62).slotPen n 3)

/-! ### Selection -/

/-- Slot a goes before slot b: lower PRI, then earlier trigger, then lower number (R564). -/
def State.before (s : State) (a b : Nat) : Bool :=
  decide (s.slotPri a < s.slotPri b) ||
    (s.slotPri a == s.slotPri b &&
      (decide ((s.ks a).trig < (s.ks b).trig) || ((s.ks a).trig == (s.ks b).trig && decide (a < b))))

/-- The PENDING slot that the engine selects among slots 0 to k − 1. -/
def State.selectUpto (s : State) : Nat → Option Nat
  | 0 => none
  | k + 1 =>
    let best := s.selectUpto k
    if s.sst k = stPENDING then
      match best with
      | some b => if s.before k b then some k else some b
      | none => some k
    else best

/-- The PENDING slot that the engine selects (R564). -/
def State.selectSlot (s : State) : Option Nat := s.selectUpto 32

/-- A PENDING slot with strictly lower PRI waits for slot n's boundary (R565). -/
def State.preemptDue (s : State) (n : Nat) : Bool :=
  match s.selectSlot with
  | some p => decide (s.slotPri p < s.slotPri n)
  | none => false

/-! ### The start of a sample (R567) -/

/-- Copies latch w of slot n into its signal word and empties it. -/
def State.latchCopy (s : State) (n w : Nat) : State :=
  match s.latch n w with
  | some v => (s.ctxPut (ctxAddr n 0 w) v).setLatch n w none
  | none => s

/-- Step 1: every input latch that holds a value. -/
def State.latchesCopy (s : State) (n : Nat) : State := forN 64 (fun w s => s.latchCopy n w) s

/-- The pages of slot n flip, and the new active page is copied into the new inactive page (R590), its words having been checked; a
PARAMWRITE that waits for the flip completes. -/
def State.pageFlip (s : State) (n : Nat) : State :=
  let s := forN 64 (fun w s => s.ctxPut (ctxAddr n 0x100 w) (s.rd (ctxAddr n 0x200 w))) s
  let s := s.setBit Reg.KLE_PEND n false
  if s.cmdWaits 0x11 n && (match s.hif.cmd with | some c => c.stage == 2 | none => false) then
    s.finish 0 (W.lo32 s.clk.tb) 0
  else s

/-- The ramped set-point (R593): the target where the set-point lies within `rate` of it, else moved by `rate`. -/
def rampStep (sp tgt rate : Word) : Word :=
  let d := F32.addScaled (F32.smant tgt) (F32.ex tgt) (-F32.smant sp) (F32.ex sp)
  let r := F32.addScaled (d.1.natAbs : Int) d.2 (-F32.smant rate) (F32.ex rate)
  if F32.isFinite sp && decide (r.1 ≤ 0) then tgt
  else if F32.lt sp tgt then (F32.add sp rate).1 else (F32.sub sp rate).1

/-- Step 3: the host-loss ramp writes the set-point word of both pages (R593). -/
def State.rampApply (s : State) (n : Nat) : State :=
  match (s.ks n).ramp with
  | none => s
  | some (tgt, rate) =>
    let w := s.fld (Reg.KLE_SINFO n) 16 6
    let v := rampStep (s.rd (ctxAddr n 0x100 w)) tgt rate
    (s.ctxPut (ctxAddr n 0x100 w) v).ctxPut (ctxAddr n 0x200 w) v

/-- The 64 words of slot n's context from a byte offset. -/
def State.ctxWords (s : State) (n off : Nat) : List Word := (List.range 64).map fun w => s.rd (ctxAddr n off w)

/-- Words as a sparse table. -/
def tabOf (ws : List Word) : Tab Word := (ws.zipIdx.filter (fun e => e.1 != 0)).map fun e => (e.2, e.1)

/-- The injection that the next sample carries (R671, R673). -/
def State.injTake (s : State) (n : Nat) : Option (Nat × Nat × Word × Bool) :=
  let c := s.rd (Reg.KLE_INJCTL n)
  if W.bit c 31 then some (W.fld c 0 2, W.fld c 8 6, s.rd (Reg.KLE_INJPAT n), false) else none

/-- The pages of slot n flip at its next sample start (R590, R592). -/
def State.flipDue (s : State) (n : Nat) : Bool := s.bit Reg.KLE_PEND n && !s.bit Reg.KLE_PLOCK n

/-- The state words that the blocks of slot n's plate read, as words 0 to 63. -/
def State.plateStates (s : State) (n : Nat) : List Nat :=
  (List.range (min 24 (s.nblk n))).flatMap fun b =>
    match blkShape (s.blkOp n b) (s.blkArg n b) with
    | some sh => (List.range sh.ns).map fun i => (W.fld (s.desc n b 0) 16 6 + i) % 64
    | none => []

/-- Addresses that a fresh sample of slot n reads before its first block (R618, R619): its header words 4 to 6, the page that flips
in, the set-point of a ramp, and the state words of the passes that redirected ones read (R659, R660). -/
def State.startReads (s : State) (n : Nat) : List Nat :=
  let x := s.ks n
  let page := if s.flipDue n then (List.range 64).map (ctxAddr n 0x200) else []
  let sp := if x.ramp.isSome then [ctxAddr n (if s.flipDue n then 0x200 else 0x100) (s.fld (Reg.KLE_SINFO n) 16 6)] else []
  let src (q : Nat) : List Nat := if q = 0 then [] else (s.plateStates n).map (ctxAddr n (0x200 + 0x100 * q))
  [plateAddr n 4, plateAddr n 5, plateAddr n 6] ++ page ++ sp ++ src x.rd1 ++ src x.rd2 ++ src x.rd3

/-- A fresh sample of slot n (R567, R650, R659, R675). -/
def State.slotBegin (s : State) (n : Nat) : State :=
  let s := s.latchesCopy n
  let s := if s.flipDue n then s.pageFlip n else s
  let s := s.rampApply n
  let x := s.ks n
  let src (q : Nat) : Option (Nat × List Word) :=
    if q = 0 then none else some (q, s.ctxWords n (0x200 + 0x100 * q))
  let r : KRun :=
    { base := tabOf (s.ctxWords n 0), src1 := src x.rd1, src2 := src x.rd2, src3 := src x.rd3,
      freeze := s.bit (Reg.KLE_LCTL n) 0, clear := s.bit (Reg.KLE_LCTL n) 2, inj := s.injTake n
      injCmd := x.injCmd && (s.injTake n).isSome }
  let s := s.setKs n { x with run := some r, conv := none, rd1 := 0, rd2 := 0, rd3 := 0, injCmd := false }
  let s := (s.setBit (Reg.KLE_INJCTL n) 31 false).setBit (Reg.KLE_HSTAT n) 20 false
  (s.wr (Reg.KLE_LASTSTART n) (W.lo32 s.clk.tb)).setFld (Reg.KLE_SSTAT n) 8 5 0

/-- The engine runs slot n. -/
def State.kleRun (s : State) (n : Nat) : State :=
  (((s.setSst n stRUNNING).setBit Reg.KLE_STATUS 0 true).setFld Reg.KLE_STATUS 8 5 n)

/-- R564, R565, R567: the free engine selects a PENDING slot; a fresh sample takes its start, a pre-empted one resumes. A start
waits for the deliveries that share the instant of the one that triggered it (R521). -/
def execSlotStart (s : State) : Host.Outcome State Fault Refusal :=
  if !s.runs gKLE || s.kleHalted || s.kleCur != none then done s
  else
    match s.selectSlot with
    | none => done s
    | some n =>
      if (s.ks n).run.isSome then done (s.kleRun n)
      else if s.convDue n then done s
      else
        match s.kleCheck (s.startReads n) with
        | (some a, s) => done (s.kleUe n a)
        | (none, s) => done ((s.slotBegin n).kleRun n)

/-- R565: at the running slot's boundary a PENDING slot of strictly lower PRI pre-empts it. -/
def execPreemption (s : State) : Host.Outcome State Fault Refusal :=
  match s.kleCur with
  | some n => done (if s.runs gKLE && s.preemptDue n then (s.kleFree).setSst n stPENDING else s)
  | none => done s

/-! ### Ends of samples -/

/-- DEADLINE CORE cycles have passed since the trigger of slot n's sample, by `more` or more, and no overrun of it has been
counted (R571, R572); the count stands with the clocks (R1000). -/
def State.deadlineGone (s : State) (n more : Nat) : Bool :=
  s.slotDeadline n != 0 && !(s.ks n).late && decide (s.slotDeadline n + more ≤ s.clk.ran (s.ks n).trig)

/-- The sample of slot n is overrun by its deadline (R572). -/
def State.deadlineMiss (s : State) (n : Nat) : State := (s.setKs n { s.ks n with late := true, ovr := true }).slotOverrun n

/-- A sample of slot n is abandoned (R572, R616, R677): class ABANDONED, passes redirected, the slot armed again; a pen that waited
for the slot's boundary takes effect. -/
def State.slotAbandon (s : State) (n : Nat) : State :=
  let x := s.ks n
  let passes := s.slotPasses n
  let s := if s.kleCur = some n then s.kleFree else s
  match x.run with
  | none => s.setSst n stARMED
  | some r =>
    let q (o : Option (Nat × List Word)) : Nat := match o with | some (p, _) => p | none => 0
    let second := decide (2 ≤ r.pass)
    let x := { x with run := none, clearRun := x.clearRun || r.clear, rd1 := if second then 0 else q r.src1
                      rd2 := if second && decide (2 ≤ passes) then 1 else q r.src2
                      rd3 := if second && decide (3 ≤ passes) then 1 else q r.src3 }
    let s := s.setKs n x
    let s := if decide (2 ≤ passes) then
        (s.setFld (Reg.KLE_HSTAT n) 0 8 8).setBit (Reg.KLE_HSTAT n) 20 (decide (x.rd1 + x.rd2 + x.rd3 ≠ 0))
      else s
    let s := if r.inj.isSome then (s.setFld (Reg.KLE_INJRES n) 0 8 8).setBit (Reg.KLE_INJRES n) 31 true else s
    let s := if r.injCmd then s.finish 0 8 (s.rd (Reg.KLE_LASTSTART n)) else s
    (s.setSst n stARMED).penTake n

/-- R571, R572: a triggered sample of slot s has not ended by its deadline. -/
def execDeadlineOverrun (sl : Fin 32) (s : State) : Host.Outcome State Fault Refusal :=
  let n := sl.val
  if !s.runs gKLE || !(s.sst n == stPENDING || s.sst n == stRUNNING) || !s.deadlineGone n 0 then done s
  else
    let s := s.deadlineMiss n
    done (if s.slotOn n && s.bit (Reg.KLE_SINFO n) 14 then s.slotAbandon n else s)

/-- The state words s0 and s1 of the reported LEARN block in pass 1, copied to LSTATs and LMOTs (R641). -/
def State.learnReport (s : State) (n lstat : Nat) : State :=
  match s.learnBlk n with
  | none => s
  | some b =>
    let sb := W.fld (s.desc n b 0) 16 6
    let s0 := s.rd (ctxAddr n 0x300 sb)
    let s1 := s.rd (ctxAddr n 0x300 (sb + 1))
    (s.wr (Reg.KLE_LSTAT n) (BitVec.ofNat 32 (W.fld s0 0 13 ||| lstat))).wr (Reg.KLE_LMOT n) (s1 &&& 0x0FFF0FFF)

/-- A sample of slot n ends (R570, R574), past its deadline as overrun (R572). A clear that its start began waited for its table
writes (R639). -/
def State.sampleEnd (s : State) (n : Nat) : State :=
  let x := s.ks n
  let r := x.run.getD {}
  let lat := s.clk.ran x.trig % 2 ^ 24
  let s := (if s.kleCur = some n then s.kleFree else s).setKs n { x with run := none, clearRun := x.clearRun || r.clear }
  let s := s.learnReport n r.lstat
  let s := s.wr (Reg.KLE_SAMPLES n) (s.rd (Reg.KLE_SAMPLES n) + 1)
  let s := s.wr (Reg.KLE_LASTLAT n) (BitVec.ofNat 32 lat)
  let s := if s.fld (Reg.KLE_MAXLAT n) 0 24 < lat then s.wr (Reg.KLE_MAXLAT n) (BitVec.ofNat 32 lat) else s
  let s := if x.ovr || s.deadlineGone n 1 then s else (s.setBit Reg.KLE_OVRLAST n false).setFld (Reg.KLE_SSTAT n) 24 4 0
  let gone := s.deadlineGone n 1
  let s := (s.setSst n stARMED).kleEvt n 0
  (if gone then s.deadlineMiss n else s).slotTrigger (0x40 + n)

/-! ### Issue of writes (R602, R650, R661, R663) -/

/-- A LATCH write (R612). -/
def State.latchWrite (s : State) (slot w : Nat) (v : Word) : State :=
  let s := if (s.latch slot w).isSome then s.tally (Reg.KLE_LATOVWR slot) else s
  s.setLatch slot w (some v)

/-- A NaN compare value: NANOUT, EVT.NAN and NAN_OUT with the module (R601). -/
def State.nanOut (s : State) (n m : Nat) : State :=
  ((s.setBit (Reg.KLE_FLAGS n) 5 true).kleEvt n 3).event evNAN_OUT n (BitVec.ofNat 32 m)

/-- Issues one write of slot n outside the pass that made it. -/
def State.kleIssue (s : State) (n : Nat) (w : Wr) : State :=
  match w.tgt with
  | .sig i => s.ctxPut (ctxAddr n 0 i) w.val
  | .st _ => s
  | .cmp m ch => if w.val = nanCompare then s.nanOut n m else s.pwmCompare m ch w.val.toNat
  | .q q tag => (s.stage 4 q tag (w.val.setWidth 16)).2
  | .latch slot i => s.latchWrite slot i w.val
  | .tab i => (s.wrWord (0x01020000 + 4 * i) w.val).setEcc (0x01020000 + 4 * i) 0

/-- Issues writes in order (R602). -/
def State.kleIssueAll (s : State) (n : Nat) : List Wr → State
  | [] => s
  | w :: ws => (s.kleIssue n w).kleIssueAll n ws

/-- COMMIT of slot n's plate is EARLY; ignored for a single pass (R649). -/
def State.slotEarly (s : State) (n : Nat) : Bool := decide (2 ≤ s.slotPasses n) && W.bit (s.plate n 4) 11

/-! ### Running a block (R568, R642 to R652) -/

/-- Everything that a block of a pass reads: its inputs, parameters and state words, in the form it computes with, and the
words that it read through a transform that makes the pass UNVERIFIABLE. -/
structure BlkIn where
  u : List Word
  p : List Word
  x : List Word
  bad : Bool
  deriving DecidableEq, Repr, Inhabited

/-- Pass p reads its state words from another pass, whose words the sample start has read (R659). -/
def KRun.redirected (r : KRun) (p : Nat) : Bool := (if p = 1 then r.src1 else if p = 2 then r.src2 else r.src3).isSome

/-- Addresses of the context and plate words that the block in hand of a sample reads, its own copy of the state words only where the
pass is not redirected (R618, R619, R659). -/
def State.blkReads (s : State) (n : Nat) (r : KRun) (sh : BlkShape) : List Nat :=
  let b := r.blk
  let p := r.pass
  let w0 := s.desc n b 0
  let w1 := s.desc n b 1
  let ins := (List.range sh.nin).map fun i =>
    let f := W.fld w1 (8 * i) 7
    if 64 ≤ f then ctxAddr n 0x100 (f - 64) else ctxAddr n 0 f
  (List.range 8).map (fun i => plateAddr n (32 + 8 * b + i)) ++ ins ++
    (List.range sh.np).map (fun i => ctxAddr n 0x100 (W.fld w0 8 6 + i)) ++
    (if r.redirected p then [] else (List.range sh.ns).map (fun i => ctxAddr n (0x200 + 0x100 * p) (W.fld w0 16 6 + i)))

/-- Input i of block b in a pass: a signal word of the working file, or a parameter word, in transformed form; inverted
for the blocks of R644 and for a bracketed block (R647). -/
def State.blkInput (s : State) (n : Nat) (r : KRun) (xf : Xf) (inv : Bool) (f : Nat) : Word × Bool :=
  let (v, b1) :=
    if 64 ≤ f then xf.fwd (s.rd (ctxAddr n 0x100 (f - 64)))
    else if r.work.any (fun e => e.1 == f) then (tget 0 r.work f, false)
    else xf.fwd (tget 0 r.base f)
  if inv then let (w, b2) := xf.inv v; (w, b1 || b2) else (v, b1)

/-- State word w of a pass as a block with OP `op` reads it: stored form brought to the form the block computes with; a
redirected pass reads the word of its source pass (R659). -/
def State.blkState (s : State) (n : Nat) (r : KRun) (p op w : Nat) : Word × Bool :=
  let src := if p = 1 then r.src1 else if p = 2 then r.src2 else r.src3
  let xf := s.slotXf n p
  let form (v : Word) : Word × Bool := if xf.kind = 2 || (xf.kind = 3 && !inLinSet op) then (v, false) else xf.fwd v
  match src with
  | some (q, ws) =>
    let (a, b1) := (s.slotXf n q).load op (ws.getD w 0)
    let (v, b2) := form a
    (v, b1 || b2)
  | none =>
    let v := s.rd (ctxAddr n (0x200 + 0x100 * p) w)
    if xf.kind = 2 then (~~~v, false) else (v, false)

/-- What block b reads in pass r.pass. -/
def State.blkRead (s : State) (n : Nat) (r : KRun) (sh : BlkShape) : BlkIn :=
  let w0 := s.desc n r.blk 0
  let w1 := s.desc n r.blk 1
  let op := W.fld w0 0 8
  let xf := s.slotXf n r.pass
  let inv := takesInverse op || (xf.kind == 3 && !inLinSet op)
  let us := (List.range sh.nin).map fun i => s.blkInput n r xf inv (W.fld w1 (8 * i) 7)
  let ps := (List.range sh.np).map fun i =>
    let v := s.rd (ctxAddr n 0x100 (W.fld w0 8 6 + i))
    if op = opLIN ∧ i = 2 then xf.fwd v else (v, false)
  let xs := (List.range sh.ns).map fun i => s.blkState n r r.pass op (W.fld w0 16 6 + i)
  { u := us.map (·.1), p := ps.map (·.1), x := xs.map (·.1), bad := (us ++ ps ++ xs).any (·.2) }

/-- A block of the set of R646 met a subnormal operand or result, or raised O or U (R656). -/
def subnormalMet (op : Nat) (i : BlkIn) (o : BlkOut) : Bool :=
  inLinSet op && ((i.u ++ i.p ++ i.x ++ o.y ++ o.st).any F32.isSub || (o.flags &&& (F32.fO ||| F32.fU)) != 0)

/-- The flags of a block of pass 1 go to FLAGSs (R596, R655). -/
def State.blkFlags (s : State) (n p flags : Nat) : State :=
  if p = 1 then s.wr (Reg.KLE_FLAGS n) (s.rd (Reg.KLE_FLAGS n) ||| BitVec.ofNat 32 (flags % 32)) else s

/-- The outputs of a block go to the working file, in transformed form, with an injection into the first write of its
word (R670); the stream takes them through the inverse transform (R652, R653). -/
def blkOutputs (xf : Xf) (fwd : Bool) (b : Nat) (w2 : Word) : List Word → Nat → KRun → KRun × List Wr × Bool
  | [], _, r => (r, [], false)
  | y :: ys, i, r =>
    let idx := W.fld w2 (8 * i) 6
    let (v, b1) := if fwd then xf.fwd y else (y, false)
    let (v, r) := match r.inj with
      | some (p, w, pat, false) =>
        if p = r.pass ∧ w = idx then (v ^^^ pat, { r with inj := some (p, w, pat, true) }) else (v, r)
      | _ => (v, r)
    let (nat, b2) := xf.inv v
    let r := { r with work := (tins idx v (tdel r.work idx)) }
    let (r, ws, b3) := blkOutputs xf fwd b w2 ys (i + 1) r
    (r, ⟨b, .sig idx, nat⟩ :: ws, b1 || b2 || b3)

/-- Writes a pass's copies of the state words of a block, and gives the stream's entries in natural form. -/
def State.blkStates (s : State) (n p op b sb : Nat) (xf : Xf) : List Word → Nat → State × List Wr × Bool
  | [], _ => (s, [], false)
  | v :: vs, i =>
    let formed := !(xf.kind == 2 || (xf.kind == 3 && !inLinSet op))
    let (nat, b1) := if formed then xf.inv v else (v, false)
    let stored := if xf.kind = 2 then ~~~v else v
    let (s, ws, b2) := (s.ctxPut (ctxAddr n (0x200 + 0x100 * p) (sb + i)) stored).blkStates n p op b sb xf vs (i + 1)
    (s, ⟨b, .st (sb + i), nat⟩ :: ws, b1 || b2)

/-- The plate writes word w as an output of some block. -/
def State.plateWrites (s : State) (n w : Nat) : Bool :=
  (List.range (min 24 (s.nblk n))).any fun b =>
    match blkShape (s.blkOp n b) (s.blkArg n b) with
    | some sh => (List.range sh.nout).any fun i => W.fld (s.desc n b 2) (8 * i) 6 == w
    | none => false

/-- The next pass starts; an injection into a word that the plate does not write is applied to its value (R670), whose transform counts
as any other (R656). -/
def State.passBegin (s : State) (n : Nat) (r : KRun) : KRun :=
  let r := { r with pass := r.pass + 1, blk := 0, row := 0, acc := [], work := [] }
  match r.inj with
  | some (p, w, pat, false) =>
    if p = r.pass ∧ !s.plateWrites n w then
      let (v, bad) := (s.slotXf n p).fwd (tget 0 r.base w)
      { r with work := [(w, v ^^^ pat)], inj := some (p, w, pat, true), unv := if bad then r.unv ||| 2 ^ (p - 1) else r.unv }
    else r
  | _ => r

/-- A block of the running slot n has completed with output o (R568, R652, R663): writes, stream, and the next block, the
next pass, the vote or the end of the sample. -/
def State.blkDone (s : State) (n : Nat) (r : KRun) (i : BlkIn) (o : BlkOut) : State :=
  let w0 := s.desc n r.blk 0
  let op := W.fld w0 0 8
  let xf := s.slotXf n r.pass
  let p := r.pass
  let passes := s.slotPasses n
  let s := s.blkFlags n p o.flags
  let (r, ws1, b1) := blkOutputs xf (xf.kind == 3 && !inLinSet op) r.blk (s.desc n r.blk 2) o.y 0 r
  let (s, ws2, b2) := s.blkStates n p op r.blk (W.fld w0 16 6) xf o.st 0
  let ws := ws1 ++ ws2 ++ o.ext.map fun e => ⟨r.blk, e.1, e.2⟩
  let bad := i.bad || b1 || b2 || subnormalMet op i o
  let r := { r with unv := if bad then r.unv ||| 2 ^ (p - 1) else r.unv }
  let r := if p = 1 then { r with s1 := r.s1 ++ ws } else if p = 2 then { r with s2 := r.s2 ++ ws }
    else { r with s3 := r.s3 ++ ws }
  let s :=
    if passes ≤ 1 then s.kleIssueAll n ws
    else if p = 1 && s.slotEarly n then
      s.kleIssueAll n (ws.filter fun w => match w.tgt with | .tab _ => false | _ => true)
    else s
  let r := { r with blk := r.blk + 1, row := 0, acc := [] }
  if r.blk < s.nblk n then
    (s.setKs n { s.ks n with run := some r }).setFld (Reg.KLE_SSTAT n) 8 5 r.blk
  else if passes ≤ 1 then (s.setKs n { s.ks n with run := some r }).sampleEnd n
  else (s.setKs n { s.ks n with run := some (s.passBegin n r) }).setFld (Reg.KLE_SSTAT n) 8 5 0

/-- Nothing claims the boundary that the running slot n has reached: at a block boundary no reset (R110) and no host-loss policy
(R215), at a segment boundary too no slot of lower PRI (R565) and no deadline that abandons the sample (R572). -/
def State.boundaryFree (s : State) (n : Nat) : Bool :=
  (s.midBlock n || (!(s.ks n).rstReq && !((s.ks n).hl && (s.ks n).ramp.isNone))) && !s.preemptDue n &&
    !(s.bit (Reg.KLE_SINFO n) 14 && s.deadlineGone n 1)

/-- The running slot and its sample, where its next block has OP `op` and can issue now (R565, R568, R110, R215). -/
def State.blkNext (s : State) (op : Nat) : Option (Nat × KRun) :=
  match s.kleCur with
  | none => none
  | some n =>
    let x := s.ks n
    match x.run with
    | none => none
    | some r =>
      if s.runs gKLE && !s.kleHalted && decide (r.pass ≤ s.slotPasses n) && decide (r.blk < s.nblk n) &&
          s.blkOp n r.blk == op && s.boundaryFree n then some (n, r)
      else none

/-- Plate table words that a TABLE block reads, and its table (R582). -/
def State.tableWord (s : State) (n b i : Nat) : Nat := plateAddr n (32 + 8 * s.nblk n + s.blkArg n b 0 + i)

/-- Runs the next block of the running slot where it has OP `op`: a block of one segment, LEARN apart. -/
def State.blkRun (s : State) (op : Nat) : State :=
  match s.blkNext op with
  | none => s
  | some (n, r) =>
    let arg := s.blkArg n r.blk
    match blkShape op arg with
    | none => s
    | some sh =>
      match s.kleCheck (s.blkReads n r sh) with
      | (some a, s) => s.kleUe n a
      | (none, s) =>
        let i := s.blkRead n r sh
        let u (k : Nat) : Word := i.u.getD k 0
        let p (k : Nat) : Word := i.p.getD k 0
        let x (k : Nat) : Word := i.x.getD k 0
        let ti := tableI (arg 1) u p
        match s.kleCheck (if op = opTABLE then [s.tableWord n r.blk ti, s.tableWord n r.blk (ti + 1)] else []) with
        | (some a, s) => s.kleUe n a
        | (none, s) =>
          s.blkDone n r i (blkCompute op arg (fun j => s.rdWord (s.tableWord n r.blk j)) u p x)

/-- Runs one row of the state-space block in hand of slot n's sample r; the last row completes it (R566, R582), and a pen that has
waited for that boundary takes effect (R282). -/
def State.ssRowOf (s : State) (n : Nat) (r : KRun) : State :=
  let arg := s.blkArg n r.blk
  match blkShape opSS arg with
  | none => s
  | some sh =>
    match s.kleCheck (s.blkReads n r sh) with
    | (some a, s) => s.kleUe n a
    | (none, s) =>
      let i := s.blkRead n r sh
      let q := arg 2
      let v := ssRow (arg 0) (arg 1) q r.row (fun k => i.u.getD k 0) (fun k => i.p.getD k 0) (fun k => i.x.getD k 0)
      let s := s.blkFlags n r.pass v.2
      let met := subnormalMet opSS i { y := [v.1], flags := v.2 }
      let r := { r with row := r.row + 1, acc := r.acc ++ [v.1], unv := if met then r.unv ||| 2 ^ (r.pass - 1) else r.unv }
      if r.row < q + arg 0 then s.setKs n { s.ks n with run := some r }
      else (s.blkDone n r i { y := r.acc.take q, st := r.acc.drop q }).penTake n

/-- Runs one row of the state-space block that the running slot has come to. -/
def State.ssStep (s : State) : State :=
  match s.blkNext opSS with
  | none => s
  | some (n, r) => s.ssRowOf n r

/-- The slots of `f`, running or pre-empted, come to their next block boundary: the rows left of a state-space block in hand run
(R262, R282, R388). -/
def State.toBoundary (s : State) (f : Nat → Bool) : State :=
  forN 32 (fun n s =>
    if f n && s.midBlock n then
      repeatN 64 (fun s => match (s.ks n).run with | some r => if r.row != 0 then s.ssRowOf n r else s | none => s) s
    else s) s

/-- The address of pool word i (R625). -/
def poolWordAddr (i : Nat) : Nat := 0x01020000 + 4 * i

/-- LSKIPs counts points skipped, holding at its end (R19, R634). -/
def State.skips (s : State) (n k : Nat) : State := forN (min k 65535) (fun _ s => s.tally (Reg.KLE_LSKIP n)) s

/-- Runs a LEARN block (R629 to R637). Only pass 1 of the reported block counts skips (R641). -/
def State.learnRun (s : State) : State :=
  match s.blkNext opLEARN with
  | none => s
  | some (n, r) =>
    let arg := s.blkArg n r.blk
    match blkShape opLEARN arg with
    | none => s
    | some sh =>
      match s.kleCheck (s.blkReads n r sh) with
      | (some a, s) => s.kleUe n a
      | (none, s) =>
        let i := s.blkRead n r sh
        let u (k : Nat) : Word := i.u.getD k 0
        let p (k : Nat) : Word := i.p.getD k 0
        let x (k : Nat) : Word := i.x.getD k 0
        let nn := arg 1
        let (k, v, _) := learnIndex (arg 2) nn (arg 4 % 4096) (u 1) (Motion.ofWords (x 0) (x 1))
        let lead := arg 3 % nn
        let word (j : Nat) : Nat := poolWordAddr (arg 0 + j % nn)
        match s.kleCheck [word k, word (k + nn - 1), word (k + 1), word (if v.dir then k + nn - lead else k + lead)] with
        | (some a, s) => s.kleUe n a
        | (none, s) =>
          let o := blkLearn arg r.freeze (s.bit (Reg.KLE_LCTL n) 2) (fun j => s.rdWord (poolWordAddr j)) u p x
          let rep := r.pass == 1 && s.learnBlk n == some r.blk
          let s := if rep then s.skips n o.skip else s
          let s := if rep && v.skipped && !W.bit (x 0) 15 && o.skip != 0 then
              s.event evLEARN_SKIP n (BitVec.ofNat 32 (s.fld (Reg.KLE_LSKIP n) 0 16))
            else s
          let r := if rep then { r with lstat := o.lstat } else r
          s.blkDone n r i o.out

/-! ### The rows of the block library (R582 to R587, R600, R612, R629) -/

/-- R582: LIN. -/
def execLin (s : State) : Host.Outcome State Fault Refusal := done (s.blkRun opLIN)
/-- R582: PI. -/
def execPi (s : State) : Host.Outcome State Fault Refusal := done (s.blkRun opPI)
/-- R582: PID. -/
def execPid (s : State) : Host.Outcome State Fault Refusal := done (s.blkRun opPID)
/-- R582: LEADLAG. -/
def execLeadlag (s : State) : Host.Outcome State Fault Refusal := done (s.blkRun opLEADLAG)
/-- R582: BIQUAD. -/
def execBiquad (s : State) : Host.Outcome State Fault Refusal := done (s.blkRun opBIQUAD)
/-- R582: PR. -/
def execPr (s : State) : Host.Outcome State Fault Refusal := done (s.blkRun opPR)
/-- R582, R566: one segment of SS. -/
def execSs (s : State) : Host.Outcome State Fault Refusal := done s.ssStep
/-- R582: CLARKE. -/
def execClarke (s : State) : Host.Outcome State Fault Refusal := done (s.blkRun opCLARKE)
/-- R582: PARK. -/
def execPark (s : State) : Host.Outcome State Fault Refusal := done (s.blkRun opPARK)
/-- R582: IPARK. -/
def execIpark (s : State) : Host.Outcome State Fault Refusal := done (s.blkRun opIPARK)
/-- R582: ICLARKE. -/
def execIclarke (s : State) : Host.Outcome State Fault Refusal := done (s.blkRun opICLARKE)
/-- R582: SVM. -/
def execSvm (s : State) : Host.Outcome State Fault Refusal := done (s.blkRun opSVM)
/-- R583: SINCOS. -/
def execSincos (s : State) : Host.Outcome State Fault Refusal := done (s.blkRun opSINCOS)
/-- R584: TABLE. -/
def execTable (s : State) : Host.Outcome State Fault Refusal := done (s.blkRun opTABLE)
/-- R585: CMPSEL. -/
def execCmpsel (s : State) : Host.Outcome State Fault Refusal := done (s.blkRun opCMPSEL)
/-- R585: CLIP. -/
def execClipBlock (s : State) : Host.Outcome State Fault Refusal := done (s.blkRun opCLIP)
/-- R586: INTEG. -/
def execInteg (s : State) : Host.Outcome State Fault Refusal := done (s.blkRun opINTEG)
/-- R629: LEARN. -/
def execLearn (s : State) : Host.Outcome State Fault Refusal := done s.learnRun
/-- R600: OUTPWM. -/
def execOutpwm (s : State) : Host.Outcome State Fault Refusal := done (s.blkRun opOUTPWM)
/-- R582: OUTQ. -/
def execOutq (s : State) : Host.Outcome State Fault Refusal := done (s.blkRun opOUTQ)
/-- The latches that the LATCH block in hand writes: slot and word of each (Table 11-5). -/
def State.latchTargets (s : State) : List (Nat × Nat) :=
  match s.blkNext opLATCH with
  | some (n, r) => (List.range (s.blkArg n r.blk 2)).map (fun k => (s.blkArg n r.blk 0, s.blkArg n r.blk 1 + k))
  | none => []

/-- After LATCH writes to `targets` from state `s` on: where `coin` holds for one, its latch is written by a delivery in the same CORE
cycle, whose value stays, and the LATCH write counts in LATOVWR (R611). -/
def State.latchCoin (t s : State) (targets : List (Nat × Nat)) (coin : Nat → Bool) : State :=
  targets.zipIdx.foldl (fun t e =>
    match s.latch e.1.1 e.1.2 with
    | some v => if coin e.2 then t.dlvLatch e.1.1 e.1.2 v else t
    | none => if coin e.2 && (t.latch e.1.1 e.1.2).isSome then t.tally (Reg.KLE_LATOVWR e.1.1) else t) t

/-- R611, R612: LATCH; where bit k of `coin` is set, latch k is written by a delivery in the same CORE cycle. -/
def execLatch (coin : BitVec 4) (s : State) : Host.Outcome State Fault Refusal :=
  done ((s.blkRun opLATCH).latchCoin s s.latchTargets coin.getLsbD)
/-- R582: DIVSQRT. -/
def execDivsqrt (s : State) : Host.Outcome State Fault Refusal := done (s.blkRun opDIVSQRT)

end Sys2Proof.Machine
end

