-- ==== Sys2Proof/Machine/Hatch.lean ====
section
/-!
DEFINITION. Chapter 12, the vote and the commit; and the control rows of the engine: enabling, resets, windows, clears,
injections and the engine halt.
-/
namespace Sys2Proof.Machine

/-! ### The vote (R656 to R658) -/

/-- Outcome classes (Table 12-6). -/
abbrev clMATCH : Nat := 0
abbrev clLATENT : Nat := 1
abbrev clUNVERIFIABLE : Nat := 2
abbrev clCORRECTED : Nat := 3
abbrev clAMENDED : Nat := 4
abbrev clUNAMENDED : Nat := 5
abbrev clDIFFER : Nat := 6
abbrev clSPLIT : Nat := 7

/-- One stream position: the writes that passes 1, 2 and 3 made there, none where a stream is shorter; and whether passes 2 and 3 are
compared. -/
structure Pos where
  w1 : Option Wr
  w2 : Option Wr
  w3 : Option Wr
  c2 : Bool
  c3 : Bool
  deriving DecidableEq, Repr

/-- The positions of a sample, as many as the longest stream compared holds. -/
def positions (c2 c3 : Bool) (x y z : List Wr) : List Pos :=
  (List.range (max x.length (max (if c2 then y.length else 0) (if c3 then z.length else 0)))).map fun i =>
    ⟨x[i]?, y[i]?, z[i]?, c2, c3⟩

/-- Two writes of one position agree: their 32 bits are equal (R653). -/
def sameWrite (a b : Option Wr) : Bool := a.map (·.val) == b.map (·.val)

/-- Pass 2, 3 agrees with pass 1 here, or is not compared. -/
def Pos.ok2 (p : Pos) : Bool := !p.c2 || sameWrite p.w2 p.w1
def Pos.ok3 (p : Pos) : Bool := !p.c3 || sameWrite p.w3 p.w1

/-- Every compared write agrees here. -/
def Pos.agree (p : Pos) : Bool := p.ok2 && p.ok3

/-- The majority write, else pass 1's; with pass 1 odd, the majority stream is that of passes 2 and 3, with its own targets and its own
length. Where all three differ there is no majority: pass 1's write stands (DEDUCED, log entry 162). -/
def Pos.majority (odd : Nat) (p : Pos) : Option Wr :=
  if p.c2 && p.c3 && sameWrite p.w2 p.w3 && (odd == 1 || !p.ok2) then p.w2 else p.w1

/-- A write is consumed (R654): `mask` is the plate's CONSUMED. -/
def Wr.consumed (mask : Word64) (w : Wr) : Bool := match w.tgt with | .sig i => mask.getLsbD i | _ => true
def Pos.consumed (mask : Word64) (p : Pos) : Bool :=
  ([p.w1] ++ (if p.c2 then [p.w2] else []) ++ (if p.c3 then [p.w3] else [])).any fun w => w.any (Wr.consumed mask)

/-- Pass q, 1 to 3, disagrees with the two others here. -/
def Pos.apart (p : Pos) (q : Nat) : Bool :=
  match q with
  | 1 => !sameWrite p.w1 p.w2 && !sameWrite p.w1 p.w3
  | 2 => !sameWrite p.w2 p.w1 && !sameWrite p.w2 p.w3
  | _ => !sameWrite p.w3 p.w1 && !sameWrite p.w3 p.w2

/-- The odd pass of a triplex sample with three passes compared (R657): the single one that disagrees with the two others at every
position with a disagreement; 0 for none. -/
def oddPass (ps : List Pos) : Nat :=
  let ds := ps.filter fun p => !p.agree
  match (if ds.isEmpty then [] else [1, 2, 3].filter fun q => ds.all (·.apart q)) with
  | [q] => q
  | _ => 0

/-- A write that an amendment can replace (R664). -/
def Wr.amendable (w : Wr) : Bool :=
  match w.tgt with
  | .q _ _ => false
  | .st _ => false
  | _ => true

/-- A position at which pass 1's write is not the majority's. -/
def Pos.wrong (odd : Nat) (p : Pos) : Bool := !sameWrite (p.majority odd) p.w1

/-- A differing write of pass 1 that is not amended: a queue word, one without a majority, or any write once the deadline has passed.
State words are brought back by redirection (R659). -/
def Pos.unamended (late : Bool) (p : Pos) : Bool :=
  !p.agree &&
    (match (match p.majority 1 with | some w => some w | none => p.w1) with
     | some w => (match w.tgt with | .st _ => false | _ => late || !w.amendable || !p.wrong 1)
     | none => false)

/-- The outcome class (Table 12-6): `left` a pass was left out, `triple` three passes are compared. -/
def outcomeClass (ps : List Pos) (mask : Word64) (left triple early late : Bool) : Nat :=
  let odd := if triple then oddPass ps else 0
  if ps.all Pos.agree then (if left then clUNVERIFIABLE else clMATCH)
  else if !ps.any (fun p => !p.agree && p.consumed mask) then clLATENT
  else if !triple then clDIFFER
  else if odd = 0 then clSPLIT
  else if early && odd == 1 then (if ps.any (Pos.unamended late) then clUNAMENDED else clAMENDED)
  else clCORRECTED

/-- The amendments of R664: the majority's write at each position where pass 1 was wrong and a write can be amended, before the
deadline. -/
def amendments (ps : List Pos) (odd : Nat) (late : Bool) : List Wr :=
  if late then [] else (ps.filter (Pos.wrong odd)).filterMap (fun p => (p.majority odd).filter Wr.amendable)

/-- The table writes of a stream, which EARLY holds until the commit (R663). -/
def Wr.table (w : Wr) : Bool := match w.tgt with | .tab _ => true | _ => false

/-- The writes that the commit issues (Table 12-6, R661, R663, R664). In EARLY pass 1's other writes have been made. -/
def commitWrites (ps : List Pos) (cls odd : Nat) (early late : Bool) : List Wr :=
  let maj := ps.filterMap (Pos.majority odd)
  if cls = clDIFFER ∨ cls = clSPLIT then []
  else if !early then maj
  else if cls = clAMENDED ∨ cls = clUNAMENDED then amendments ps odd late
  else ps.filterMap fun p => (p.majority odd).filter fun w => w.table || (!late && p.wrong odd && w.amendable)

/-- Index and kind of a write, for HSTATs and HATCH_MISMATCH (R669). -/
def Wr.index (w : Wr) : Nat :=
  match w.tgt with
  | .sig i => i
  | .st i => i
  | _ => w.blk
def Wr.kind (w : Wr) : Nat :=
  match w.tgt with
  | .sig _ => 0
  | .st _ => 1
  | _ => 2

/-- The pass that HSTATs and HATCH_MISMATCH name (R669): the odd pass, else the higher-numbered pass of the first
disagreement. -/
def namedPass (ps : List Pos) (odd : Nat) : Nat :=
  if odd ≠ 0 then odd
  else
    match ps.find? (fun p => !p.agree) with
    | some p => if !p.ok3 then 3 else 2
    | none => 0

/-- The fields PASS, INDEX and KIND of the first disagreement: (pass, index, kind). -/
def firstDisagreement (ps : List Pos) (odd : Nat) : Nat × Nat × Nat :=
  match ps.find? (fun p => !p.agree) with
  | some p =>
    match p.w1 <|> p.w2 <|> p.w3 with
    | some w => (namedPass ps odd, w.index % 64, w.kind)
    | none => (namedPass ps odd, 0, 0)
  | none => (0, 0, 0)

/-- Which pass each of passes 1, 2 and 3 is redirected to (R659); 0 for none. -/
def redirects (ps : List Pos) (odd : Nat) (left2 left3 : Bool) : Nat × Nat × Nat :=
  if odd = 1 then (2, 0, 0)
  else if odd = 2 then (0, 1, 0)
  else if odd = 3 then (0, 0, 1)
  else (0, if left2 || !ps.all Pos.ok2 then 1 else 0, if left3 || !ps.all Pos.ok3 then 1 else 0)

/-- Pass p of slot n is left out of the vote (R656). -/
def State.leftOut (s : State) (n : Nat) (r : KRun) (p : Nat) : Bool :=
  (s.slotXf n p).kind == 3 && (r.unv.testBit 0 || r.unv.testBit (p - 1))

/-- What a voted sample does to HSTATs, the tallies and HATCH_MISMATCH (R665 to R669), and whether the slot's mismatch is
permanent. -/
def State.escalate (s : State) (n cls : Nat) (d : Nat × Nat × Nat) : State × Bool :=
  let h := Reg.KLE_HSTAT n
  let run := if cls = clLATENT then min 8 (s.fld h 16 4 + 1) else 0
  let s := s.setFld h 16 4 run
  let suspect := decide (3 ≤ cls) || (cls == clLATENT && run == 8)
  let s := if cls = clLATENT then s.tally (Reg.KLE_HTALLY2 n) else s
  let s := if cls = clUNVERIFIABLE then s.tallyHi (Reg.KLE_HTALLY2 n) else s
  if suspect then
    let c := min 15 (s.fld h 12 4 + 1)
    let s := (s.setFld h 12 4 c).tally (Reg.KLE_HTALLY n)
    let data := cls + d.1 * 2 ^ 8 + d.2.1 * 2 ^ 16 + d.2.2 * 2 ^ 22
    (s.event evHATCH_MISMATCH n (BitVec.ofNat 32 data), decide (s.klePermn ≤ c))
  else if cls = clUNVERIFIABLE then (s, false)
  else
    let s := if s.fld h 12 4 ≠ 0 then s.tallyHi (Reg.KLE_HTALLY n) else s
    (s.setFld h 12 4 0, false)

/-- The vote on slot n's sample r: passes 2 and 3 left out, the positions, the odd pass, the class and the writes that the commit
issues. -/
structure Vote where
  left2 : Bool
  left3 : Bool
  ps : List Pos
  odd : Nat
  cls : Nat
  writes : List Wr

/-- The outcome of the vote (R656 to R658, R661 to R664). -/
def State.voteOf (s : State) (n : Nat) (r : KRun) : Vote :=
  let passes := s.slotPasses n
  let late := (s.ks n).late || s.deadlineGone n 1
  let left2 := s.leftOut n r 2
  let left3 := decide (3 ≤ passes) && s.leftOut n r 3
  let ps := positions (!left2) (decide (3 ≤ passes) && !left3) r.s1 r.s2 r.s3
  let triple := decide (3 ≤ passes) && !left2 && !left3
  let early := s.slotEarly n
  let mask := W.of32 (s.plate n 5) (s.plate n 6)
  let odd := if triple then oddPass ps else 0
  let cls := outcomeClass ps mask (left2 || left3) triple early late
  ⟨left2, left3, ps, odd, cls, commitWrites ps cls odd early late⟩

/-- The vote and the commit of slot n's sample r (R658 to R672). RESULT1 of INJECT, the timebase at the sample, is that at its start
(DESIGN CHOICE, log entry 155). -/
def State.vote (s : State) (n : Nat) (r : KRun) : State :=
  let v := s.voteOf n r
  let cls := v.cls
  let s := s.kleIssueAll n v.writes
  let d := firstDisagreement v.ps v.odd
  let rd := redirects v.ps v.odd v.left2 v.left3
  let h := Reg.KLE_HSTAT n
  let b (x : Bool) : Nat := if x then 1 else 0
  let s := ((s.setFld h 0 8 cls).setFld h 8 2 d.1).setFld h 10 2 (b v.left2 + 2 * b v.left3)
  let s := ((s.setFld h 24 6 d.2.1).setFld h 22 2 d.2.2).setBit h 20 (decide (rd ≠ (0, 0, 0)))
  let x := s.ks n
  let s := s.setKs n { x with rd1 := rd.1, rd2 := rd.2.1, rd3 := rd.2.2 }
  let (s, permanent) :=
    if r.inj.isSome then
      let s := (s.setFld (Reg.KLE_INJRES n) 0 8 cls).setBit (Reg.KLE_INJRES n) 31 true
      (if r.injCmd then s.finish 0 (BitVec.ofNat 32 cls) (s.rd (Reg.KLE_LASTSTART n)) else s, false)
    else s.escalate n cls d
  let s := s.sampleEnd n
  if permanent then s.slotPen n 4 else s

/-- The latches that writes go to: slot and word of each. -/
def latchesOf (ws : List Wr) : List (Nat × Nat) :=
  ws.filterMap fun w => match w.tgt with | .latch slot i => some (slot, i) | _ => none

/-- R658: every pass of the running slot has ended: the vote and the commit. Where bit k of `coin` is set, the latch of the k-th LATCH
write that the commit issues is written by a delivery in the same CORE cycle (R611). -/
def execHatchVote (coin : BitVec 64) (s : State) : Host.Outcome State Fault Refusal :=
  match s.kleCur with
  | none => done s
  | some n =>
    let x := s.ks n
    match x.run with
    | none => done s
    | some r =>
      if s.runs gKLE && !s.kleHalted && decide (2 ≤ s.slotPasses n) && r.pass == s.slotPasses n + 1 &&
          s.boundaryFree n then done ((s.vote n r).latchCoin s (latchesOf (s.voteOf n r).writes) coin.getLsbD)
      else done s

/-! ### Slot control rows -/

/-- A write of KLE.DOORBELL (R560). -/
def State.kleDoorbell (s : State) (val : Word) : State := forN 32 (fun n s => if W.bit val n then s.slotHit n else s) s

/-- R560: a write of KLE.DOORBELL. -/
def execKleDoorbell (val : Word) (s : State) : Host.Outcome State Fault Refusal := done (s.kleDoorbell val)

/-- A write of KLE.ENSET (R606); in a gated engine it would make the block busy (R80). -/
def State.enset (s : State) (val : Word) : State :=
  if s.gatedBit gKLE then (if val = 0 then s else s.wlrej Reg.KLE_ENSET)
  else
    forN 32 (fun n s =>
      if !W.bit val n then s
      else if s.sst n = stPENNED ∨ !s.bit Reg.KLE_VALID n then s.setBit Reg.KLE_STATUS 18 true
      else s.slotArm n) s

/-- R606: a write of KLE.ENSET. -/
def execEnset (val : Word) (s : State) : Host.Outcome State Fault Refusal := done (if s.live then s.enset val else s)

/-- A write of KLE.ENCLR: a running slot stops at its next segment boundary, which is where it stands between two rows (R566, R609). -/
def State.enclr (s : State) (val : Word) : State :=
  forN 32 (fun n s => if W.bit val n && s.slotOn n then s.slotStop n stDISABLED else s) s

/-- R609: a write of KLE.ENCLR. -/
def execEnclr (val : Word) (s : State) : Host.Outcome State Fault Refusal := done (if s.live then s.enclr val else s)

/-- A write of KLE.SLOTRST (R110). -/
def State.slotrst (s : State) (val : Word) : State :=
  forN 32 (fun n s => if W.bit val n then s.slotReset n else s) s

/-- R110: a write of KLE.SLOTRST. -/
def execSlotrst (val : Word) (s : State) : Host.Outcome State Fault Refusal := done (if s.live then s.slotrst val else s)

/-- R110, R148: a requested slot reset takes effect; a SLOTRESET command that waits for it completes. -/
def execSlotResetEffect (n : Fin 32) (s : State) : Host.Outcome State Fault Refusal :=
  if (s.ks n.val).rstReq && s.runs gKLE && !s.midBlock n.val then
    let s := s.slotResetNow n.val
    done (if s.cmdWaits 0x14 n.val then s.finish 0 0 0 else s)
  else done s

/-! ### Windows -/

/-- A write of parameter word w through the window (R589); a host write of the set-point ends a ramp (R233). -/
def State.paramWr (s : State) (host : Bool) (n w : Nat) (val : Word) : State :=
  let s := ((s.wr (ctxAddr n 0x200 w) val).setEcc (ctxAddr n 0x200 w) 0).setBit Reg.KLE_PEND n true
  if host && s.bit (Reg.KLE_SINFO n) 23 && s.fld (Reg.KLE_SINFO n) 16 6 == w then
    s.setKs n { s.ks n with ramp := none, hl := (s.ks n).hl && (s.ks n).ramp.isNone }
  else s

/-- R589: a write of parameter word w of slot s, as the host makes it. -/
def execParamWindowWrite (n : Fin 32) (w : Fin 64) (val : Word) (s : State) : Host.Outcome State Fault Refusal :=
  done (if s.hostReg (ctxAddr n.val 0x200 w.val) then s.paramWr true n.val w.val val else s)

/-- R555: a context write to signal word w of slot s, as the host makes it, writes its input latch. -/
def execSignalWordWrite (n : Fin 32) (w : Fin 64) (val : Word) (s : State) : Host.Outcome State Fault Refusal :=
  done (if s.hostReg (ctxAddr n.val 0 w.val) then s.setLatch n.val w.val (some val) else s)

/-! ### Learning control -/

/-- A write of LCTLs: FREEZE, and CLEAR (R639, R680). -/
def State.lctl (s : State) (n : Nat) (val : Word) : State :=
  let s := s.setBit (Reg.KLE_LCTL n) 0 (W.bit val 0)
  if W.bit val 1 && !s.bit (Reg.KLE_LCTL n) 2 then
    let s := s.setBit (Reg.KLE_LCTL n) 2 true
    if s.slotOn n then s else s.setKs n { s.ks n with clearRun := true }
  else s

/-- R639: a write of 1 to LCTLs.CLEAR that leaves FREEZE as it is. -/
def execLearnClear (n : Fin 32) (s : State) : Host.Outcome State Fault Refusal :=
  done (if s.live then s.lctl n.val ((s.rd (Reg.KLE_LCTL n.val) &&& 1) ||| 2) else s)

/-- Clears the table of block b, where it is a LEARN block (R639). -/
def State.learnZero (s : State) (n b : Nat) : State :=
  if s.blkOp n b = opLEARN then
    let a := poolWordAddr (s.blkArg n b 0)
    s.zeroRange a (min 0x01040000 (a + 4 * s.blkArg n b 1))
  else s

/-- R640: the last table word is written and CLRBUSY clears; a sample in hand has no clear to begin any more (R639). -/
def execLearnClearDone (n : Fin 32) (s : State) : Host.Outcome State Fault Refusal :=
  if s.runs gKLE && (s.ks n.val).clearRun then
    let s := forN (min 24 (s.nblk n.val)) (fun b s => s.learnZero n.val b) s
    done ((s.setBit (Reg.KLE_LCTL n.val) 2 false).setKs n.val
      { s.ks n.val with clearRun := false, run := (s.ks n.val).run.map fun r => { r with clear := false } })
  else done s

/-! ### Injection -/

/-- An INJECT command whose arming a later one replaces, or that is withdrawn, ends with WRONG_STATE. -/
def State.injDrop (s : State) (n : Nat) : State :=
  if (s.ks n).injCmd && s.bit (Reg.KLE_INJCTL n) 31 then
    ((s.injUndo n).setKs n { s.ks n with injCmd := false }).finish 3 0 0
  else s

/-- A write of INJCTLs (R671, R673, Table 12-7). -/
def State.injctl (s : State) (n : Nat) (val : Word) : State :=
  let s := s.injDrop n
  let s := s.wr (Reg.KLE_INJCTL n) (val &&& 0x00003F03)
  let p := W.fld val 0 2
  if !W.bit val 31 || s.rd (Reg.KLE_INJPAT n) == 0 then s
  else if p < 2 ∨ s.slotPasses n < p then ((s.setFld (Reg.KLE_INJRES n) 0 8 0xFF).setBit (Reg.KLE_INJRES n) 31 true)
  else s.setBit (Reg.KLE_INJCTL n) 31 true

/-- R671: a write of INJCTLs. -/
def execInjctlWrite (n : Fin 32) (val : Word) (s : State) : Host.Outcome State Fault Refusal :=
  done (if s.live then s.injctl n.val val else s)

/-! ### The engine halt -/

/-- The engine halts: action SAFE (R383); every slot stops at its next block boundary, which abandons its sample (R388, R616, R677), and
none starts. In an engine that is halted already nothing changes. -/
def State.kleHalt (s : State) : State :=
  if s.bit Reg.DBG_HALTREQ 4 then s
  else
  let s := s.pwmSafeAll.toBoundary (fun _ => true)
  let s := forN 32 (fun n s => if (s.ks n).run.isSome then s.slotAbandon n else s) s
  let s := forN 32 (fun n s => s.setKs n { s.ks n with stopped := s.slotOn n }) s
  let s := s.slotsProtect (some 1)
  ((s.setBit Reg.KLE_STATUS 16 true).setBit Reg.DBG_STATUS 4 true).setBit Reg.DBG_HALTREQ 4 true

/-- R388, R383: a halt request for the Krytvos engine. -/
def execKleHaltRequest (s : State) : Host.Outcome State Fault Refusal := done (if s.live then s.kleHalt else s)

/-- The engine resumes. -/
def State.kleRelease (s : State) : State :=
  let s := forN 32 (fun n s => s.setKs n { s.ks n with stopped := false }) s
  ((s.setBit Reg.KLE_STATUS 16 false).setBit Reg.DBG_STATUS 4 false).setBit Reg.DBG_HALTREQ 4 false

end Sys2Proof.Machine
end

