-- ==== Sys2Proof/Machine/Ports.lean ====
section
/-!
DEFINITION. The sensor ports as the chapters 14 to 17 share them: port IDs, pen and quarantine, port states, what a port
does, power channels as ports see them.
-/
namespace Sys2Proof.Machine

/-! ### IDs (Table 5-1) -/

/-- The IDs of the three port kinds. -/
def isTw (p : Nat) : Bool := decide (p < 8)
def isDs (p : Nat) : Bool := decide (0x10 ≤ p) && decide (p < 0x14)
def isSe (p : Nat) : Bool := decide (0x20 ≤ p) && decide (p < 0x28)
/-- An ID of a sensor port. -/
def isPort (p : Nat) : Bool := isTw p || isDs p || isSe p
/-- Every sensor-port ID. -/
def portIds : List Nat := List.range 8 ++ (List.range 4).map (0x10 + ·) ++ (List.range 8).map (0x20 + ·)

/-- Port p beside its registers. -/
def State.port (s : State) (p : Nat) : Port := tget {} s.ports p
/-- The state with port p's structure replaced. -/
def State.setPort (s : State) (p : Nat) (x : Port) : State := { s with ports := tset {} s.ports p x }

/-- What port p does. -/
def State.use (s : State) (p : Nat) : PortUse := (s.port p).use
/-- The state with what port p does replaced. -/
def State.setUse (s : State) (p : Nat) (u : PortUse) : State := s.setPort p { s.port p with use := u }

/-- Register of a two-wire or DDR serial port that shows its state and pen reason. -/
def statReg (p : Nat) : Nat := if isTw p then Reg.TW_PSTAT p else Reg.DS_DSTAT (p - 0x10)

/-- Pen reason of port p; 0 in service (Table 17-3). -/
def State.portReason (s : State) (p : Nat) : Nat := if isSe p then (s.port p).pen else s.fld (statReg p) 16 8

/-- The state with port p's pen reason set. -/
def State.setReason (s : State) (p r : Nat) : State :=
  if isSe p then s.setPort p { s.port p with pen := r } else s.setFld (statReg p) 16 8 r

/-- Port p is penned (R860). -/
def State.portPenned (s : State) (p : Nat) : Bool := s.portReason p != 0

/-! ### Power channels -/

/-- Channel n of the port power beside its registers. -/
def State.ppc (s : State) (n : Nat) : PpCh := tget {} s.pp n
/-- The state with channel n's structure replaced. -/
def State.setPpc (s : State) (n : Nat) (x : PpCh) : State := { s with pp := tset {} s.pp n x }

/-- Channel states (Table 17-1). -/
abbrev ppOFF : Nat := 0
abbrev ppABSENT : Nat := 1
abbrev ppDEBOUNCE : Nat := 2
abbrev ppSETTLE : Nat := 3
abbrev ppIDCHECK : Nat := 4
abbrev ppSERVICE : Nat := 5
abbrev ppBACKOFF : Nat := 6
abbrev ppCYCLING : Nat := 7
abbrev ppPENNED : Nat := 8

/-- State of channel n. -/
def State.pst (s : State) (n : Nat) : Nat := s.fld (Reg.PPW_STAT n) 0 4

/-- Bit of port p in a BIND register (Table 17-6); DS0 has bit 8, which no channel may bind (R918). -/
def bindBit (p : Nat) : Nat := if isTw p then p else if isDs p then 8 + (p - 0x10) else 16 + (p - 0x20)

/-- Channel n binds port p (R918). -/
def State.binds (s : State) (n p : Nat) : Bool := s.bit (Reg.PPW_BIND n) (bindBit p)

/-- The channel that binds port p. -/
def State.chanOf (s : State) (p : Nat) : Option Nat := (List.range 8).find? (fun n => s.binds n p)

/-- Port p is quarantined: a channel binds it and is not in SERVICE (R919). -/
def State.portQuar (s : State) (p : Nat) : Bool :=
  match s.chanOf p with
  | some n => s.pst n != ppSERVICE
  | none => false

/-! ### Port states -/

/-- CLKGATE bit of port p's block; DS0 has none (Table 2-14). -/
def portGate (p : Nat) : Nat := if isTw p then gTW else if p = 0x10 then gNone else if isDs p then gDS else gSE

/-- Port p is enabled: CFG.EN of a two-wire or DDR serial port; a stencil port always is. -/
def State.portEn (s : State) (p : Nat) : Bool :=
  if isTw p then s.bit (Reg.TW_CFG p) 0 else if isDs p then s.bit (Reg.DS_CFG (p - 0x10)) 0 else true

/-- Port p is a DDR serial port in target mode (R840). -/
def State.portTarget (s : State) (p : Nat) : Bool := isDs p && s.bit (Reg.DS_CFG (p - 0x10)) 1

/-- A software transaction or frame of port p has been started by GO and has not ended (SWCTL reads as BUSY). -/
def State.swBusy (s : State) (p : Nat) : Bool :=
  if isTw p then s.bit (Reg.TW_SWCTL p) 31 else if isDs p then s.bit (Reg.DS_SWCTL (p - 0x10)) 31 else false

/-- SDA of two-wire port p is held low: a calling target holds it 10 µs at least, and 5 µs of them lie behind its detection (R818,
R823; DEDUCED, log entry 166). -/
def State.lineHeld (s : State) (p : Nat) : Bool :=
  isTw p && match (s.port p).lowAt with
    | some t => decide (s.clk.tb.toNat < s.clk.reach 4 t (t + 2000))
    | none => false

/-- Port p can start a transaction now: its block performs its functions, it is enabled, in service, and free, and no line of a
two-wire port is known to be held low (R756, R802, R850, R853, R860). -/
def State.portReady (s : State) (p : Nat) : Bool :=
  s.runs (portGate p) && s.portEn p && !s.portTarget p && !s.portPenned p && !s.portQuar p && !(s.port p).cycling
    && decide (s.use p = .none) && !s.lineHeld p

/-- STATE of a two-wire or DDR serial port as PSTAT and DSTAT show it (Tables 15-12, 15-13). -/
def State.portState (s : State) (p : Nat) : Nat :=
  if s.portPenned p then 5
  else if (s.port p).cycling then 4
  else if s.portQuar p then 6
  else if !s.portEn p then 0
  else if s.use p != .none || s.swBusy p then 2
  else 1

/-- An active list names port p (R847). -/
def State.portListed (s : State) (p : Nat) : Bool :=
  (List.range 4).any (fun n => s.bit (Reg.MBM_LIST_STAT n) 1
    && (List.range (s.fld (Reg.MBM_LIST_STAT n) 16 9)).any (fun e => s.fld (Reg.MBM_ENTDESC n e 0) 0 8 == p))

/-- Port p is busy as the owner of its WL registers (R847). -/
def State.portBusy (s : State) (p : Nat) : Bool := s.portListed p || decide (s.use p ≠ .none) || s.swBusy p

/-- EVT bit b of a two-wire port: source 38 for PEN, CLEAR, DEGRADED and CRK, else 53, where IEN enables it. -/
def State.twEvt (s : State) (p b : Nat) : State :=
  let s := s.setBit (Reg.TW_EVT p) b true
  if s.bit (Reg.TW_IEN p) b then s.source (if b < 4 then 38 else 53) else s

/-- EVT bit b of a DDR serial port: source 38 for PEN, else 53, where IEN enables it. -/
def State.dsEvt (s : State) (d b : Nat) : State :=
  let s := s.setBit (Reg.DS_EVT d) b true
  if s.bit (Reg.DS_IEN d) b then s.source (if b = 0 then 38 else 53) else s

/-- Levels of SCL and SDA as PSTAT shows them. -/
def State.twLevels (s : State) (p : Nat) (scl sda : Bool) : State :=
  (s.setBit (Reg.TW_PSTAT p) 10 scl).setBit (Reg.TW_PSTAT p) 11 sda

/-- Port p issues a START: on a two-wire port both lines are high then (R802). -/
def State.lineStart (s : State) (p : Nat) : State := if isTw p then s.twLevels p true true else s

/-! ### The clock of a two-wire port (R800, R848, R854, R866) -/

/-- RATE of a RATE register and the slowest code that adaptation may take; code 7 acts as 6, a FLOOR faster than RATE as RATE
(Table 15-2, R866). -/
def rateOf (w : Word) : Nat := min 6 (W.fld w 0 3)
def floorOf (w : Word) : Nat := max (rateOf w) (min 6 (W.fld w 4 3))

/-- SCL low and high times of a rate code in PERI cycles (Table 15-2). -/
def sclLow (c : Nat) : Nat := [55, 70, 140, 220, 520, 1040, 2600].getD c 2600
def sclHigh (c : Nat) : Nat := [45, 55, 110, 180, 480, 960, 2400].getD c 2400

/-- Class timing in PERI cycles: START hold, repeated-START set-up, STOP set-up, bus free before START, SDA change after SCL
falls. -/
structure TwClass where
  hold : Nat
  rsu : Nat
  sto : Nat
  free : Nat
  sda : Nat
  deriving DecidableEq, Repr

/-- The class of a rate code: Fm+, Fm or Sm (Tables 15-2 and 15-3). -/
def twClass (c : Nat) : TwClass :=
  if c ≤ 1 then ⟨26, 26, 26, 50, 10⟩ else if c ≤ 3 then ⟨60, 60, 60, 130, 30⟩ else ⟨400, 470, 400, 470, 30⟩

/-- An attempt or a software transaction starts on two-wire port p: RATE and ADAPT as they stand take effect, a new RATE field or
FIXED as the present rate, and a step of the adaptation within their bounds (R848, R854, R866). -/
def State.twTake (s : State) (p : Nat) : State :=
  let x := s.port p
  let r := s.rd (Reg.TW_RATE p)
  let v := if W.fld r 0 3 ≠ W.fld x.rateIn 0 3 || W.bit r 7 then rateOf r else min (floorOf r) (max (rateOf r) x.rate)
  (s.setPort p { x with rate := v, cur := v, rateIn := r, adaptIn := s.rd (Reg.TW_ADAPT p) }).setFld (Reg.TW_PSTAT p) 4 3 v

/-- Signed difference of two 32-bit counts. -/
def wdiff (a b : Word) : Int := (a - b).toInt

end Sys2Proof.Machine
end

