-- ==== Sys2Proof/Machine/Stencil.lean ====
section
/-!
DEFINITION. Chapter 16: the stencil engines. One row runs one instruction: the one at PC whose OP is the row's. A wait
instruction issues under its own row and ends under SE_WAIT_SATISFIED. Registers hold what they show; the structure `Se`
holds the rest.
-/
namespace Sys2Proof.Machine

/-! ### State of an engine -/

/-- SEn beside its registers. -/
def State.eng (s : State) (n : Nat) : Se := tget {} s.se n
/-- The state with SEn's structure replaced. -/
def State.setEng (s : State) (n : Nat) (x : Se) : State := { s with se := tset {} s.se n x }
/-- Channel c of SEn beside its registers. -/
def State.seCh (s : State) (n c : Nat) : SeChan := tget {} (s.eng n).chans c
/-- The state with channel c of SEn replaced. -/
def State.setSeCh (s : State) (n c : Nat) (x : SeChan) : State :=
  s.setEng n { s.eng n with chans := tset {} (s.eng n).chans c x }

/-- Engine states (SEn_STAT.STATE). -/
abbrev seSTOPPED : Nat := 0
abbrev seRUNNING : Nat := 1
abbrev seFAULT : Nat := 2
abbrev seHELD : Nat := 3

/-- State and PC of SEn. -/
def State.seSt (s : State) (n : Nat) : Nat := s.fld (Reg.SE_STAT n) 0 2
def State.setSeSt (s : State) (n v : Nat) : State := s.setFld (Reg.SE_STAT n) 0 2 v
def State.sePc (s : State) (n : Nat) : Nat := s.fld (Reg.SE_STAT n) 8 6
def State.setSePc (s : State) (n v : Nat) : State := s.setFld (Reg.SE_STAT n) 8 6 v

/-- Bits of SEn_STAT. -/
abbrev seK : Nat := 20
abbrev seBW : Nat := 21
abbrev sePEND : Nat := 22
abbrev seINBW : Nat := 23

/-- The instruction word at PC, and its fields (Table 16-2). -/
def State.seInstr (s : State) (n : Nat) : Word := s.rd (Reg.SE_PROG n (s.sePc n))
def iOp (w : Word) : Nat := W.fld w 26 6
def iP (w : Word) : Nat := W.fld w 23 3
def iD (w : Word) : Nat := W.fld w 20 3
def iS (w : Word) : Nat := W.fld w 17 3
def iImm (w : Word) : Nat := W.fld w 0 16

/-- TMR of SEn. -/
def State.seTmr (s : State) (n : Nat) : Word := s.rd (Reg.SE_TMR n)

/-- Register r of SEn (Table 16-1); register 5 is TMR. -/
def State.seReg (s : State) (n r : Nat) : Word := if r = 5 then s.seTmr n else s.rd (Reg.SE_REG n r)

/-- Width of the CRC unit (R881); free for a code of 3, which a load refuses. -/
def State.seCrcW (s : State) (n : Nat) : Nat :=
  match s.fld (Reg.SE_CRCCFG n) 0 2 with
  | 0 => 4
  | 1 => 8
  | 2 => 16
  | _ => Config.crcWidth3

/-- Writes register d of SEn: TMR ignores writes, CRC keeps its width (Table 16-1, R875). -/
def State.setSeReg (s : State) (n d : Nat) (v : Word) : State :=
  if d = 5 then s
  else if d = 7 then s.wr (Reg.SE_REG n 7) (v &&& W.mask 0 (s.seCrcW n))
  else s.wr (Reg.SE_REG n d) v

/-- The source operand of an instruction (R876). -/
def State.seSrc (s : State) (n : Nat) (w : Word) : Word :=
  if W.bit w 16 then BitVec.ofNat 32 (iImm w) else s.seReg n (iS w)

/-- The timebase value of a TMR value of SEn: the latest instant at which TMR had it (R874); a stop of the PERI clock moves the
counts after it (R28, R1000). -/
def State.seTime (s : State) (n : Nat) (t : Word) : Nat :=
  let x := s.eng n
  let w := if t.toNat ≤ (s.seTmr n).toNat then x.wraps else x.wraps - 1
  s.clk.reach 4 x.tb0 (x.tb0 + 4 * (2 ^ 32 * w + t.toNat))

/-- This issue instant as a timebase value. -/
def State.seNow (s : State) (n : Nat) : Nat := s.seTime n (s.seTmr n)

/-- The TMR value `back` PERI cycles ago, at the earliest that of the start. -/
def State.seBack (s : State) (n back : Nat) : Word :=
  if (s.eng n).wraps = 0 && decide ((s.seTmr n).toNat < back) then 0 else s.seTmr n - BitVec.ofNat 32 back

/-- SEn executes: its block performs its functions and it is RUNNING. -/
def State.seRuns (s : State) (n : Nat) : Bool := s.runs gSE && s.seSt n == seRUNNING

/-- DIV of SEn: PERI cycles of one instruction cycle (R869). -/
def State.seDiv (s : State) (n : Nat) : Nat := s.fld (Reg.SE_MISC n) 16 8 + 1

/-- SEn is at an instruction-cycle edge with no instruction or wait in progress: the instruction at PC issues (R869, R877). -/
def State.seReady (s : State) (n : Nat) : Bool :=
  s.seRuns n && !(s.eng n).waiting && (s.eng n).busy == 0 && (s.eng n).phase == 0

/-- SEn beside its registers once an instruction of `k` cycles has issued (Table 16-3). -/
def State.seIssued (s : State) (n k : Nat) : Se := { s.eng n with busy := k * s.seDiv n }

/-- An edge of the window's pins at timebase value t: the latest so far (R884). -/
def Se.sawEdge (x : Se) (t : Nat) : Se := { x with lastT := max x.lastT t }

/-- EVT bit b of SEn (0 FAULT, 1 USER, 2 LDDONE, 3 LDERR), with source 53 where IEN enables it. -/
def State.seEvt (s : State) (n b : Nat) : State :=
  let s := s.setBit (Reg.SE_EVT n) b true
  if s.bit (Reg.SE_IEN n) b then s.source 53 else s

/-! ### Pins -/

/-- PWID of SEn, and the ball of its relative pin p (R870). -/
def State.sePwid (s : State) (n : Nat) : Nat := s.fld (Reg.SE_PINCFG n) 8 3 + 1
def State.seBall (s : State) (n p : Nat) : Nat := (s.fld (Reg.SE_PINCFG n) 0 5 + p) % 32

/-- The level that SEn drives on ball b: none where it drives nothing there. -/
def State.seDrives (s : State) (b n : Nat) : Option Bool :=
  if s.seSt n = seRUNNING then
    (List.range (s.sePwid n)).findSome? (fun p => if s.seBall n p = b then tget none (s.eng n).drv p else none)
  else none

/-- The levels driven on ball b, the lowest engine first. -/
def State.ballDrivers (s : State) (b : Nat) : List Bool := (List.range 8).filterMap (fun n => s.seDrives b n)

/-- Ball b takes the level of its drivers; two levels set DRVCONF (R896). With no driver it keeps the level last seen. -/
def State.settle (s : State) (b : Nat) : State :=
  match s.ballDrivers b with
  | [] => s
  | l :: ls =>
    let s := s.setBit Reg.SE_PINLVL b l
    if ls.all (· == l) then s else s.setBit Reg.SE_DRVCONF b true

/-- A level change driven on ball b at timebase value t, as the running engines whose windows hold the ball see it (R884). -/
def State.ballEdge (s : State) (b t : Nat) : State :=
  forN 8 (fun m s =>
    if s.seSt m = seRUNNING && (List.range (s.sePwid m)).any (fun p => s.seBall m p == b) then s.setEng m ((s.eng m).sawEdge t) else s) s

/-- SEn drives relative pin p to a level, or releases it; an open-drain pin driven high is released (R871). A change is the
latest edge of every running engine's window that holds the ball (R884), and the marked edge where MARK named the pin (R891). -/
def State.seDrive (s : State) (n p : Nat) (l : Option Bool) : State :=
  let l := if l = some true && s.bit (Reg.SE_PINCFG n) (16 + p) then none else l
  let x := s.eng n
  if tget none x.drv p = l then s
  else
    let t := s.seNow n
    let x : Se := { x with drv := tset none x.drv p l }
    let x := if x.markPin = some p then { x with mark := some t, markPin := none } else x
    ((s.setEng n x).ballEdge (s.seBall n p) t).settle (s.seBall n p)

/-- SEn releases every pin it drives. -/
def State.seRelease (s : State) (n : Nat) : State :=
  let s := s.setEng n { s.eng n with drv := [] }
  forN 8 (fun p s => s.settle (s.seBall n p)) s

/-- The level of relative pin p of SEn: that of its drivers, else `seen`, the level found at the ball. -/
def State.seSample (s : State) (n p : Nat) (seen : Bool) : Bool × State :=
  let b := s.seBall n p
  match s.ballDrivers b with
  | [] => (seen, s.setBit Reg.SE_PINLVL b seen)
  | _ => (s.bit Reg.SE_PINLVL b, s)

/-! ### Start, stop, hold, fault -/

/-- The port of SEn is penned, quarantined or proved (R914, R949). -/
def State.seBlocked (s : State) (n : Nat) : Bool :=
  s.portPenned (0x20 + n) || s.portQuar (0x20 + n) || decide (s.use (0x20 + n) = .proof)

/-- The timebase at the start of the present PERI cycle (R36). -/
def State.periStart (s : State) : Nat := s.clk.tb.toNat - s.clk.tickPhase % 4

/-- The registers, flags and build buffers of SEn at a start (R892). Completed results and counts are kept. TMR 0 is the present
PERI cycle. -/
def State.seClear (s : State) (n : Nat) : State :=
  let x := s.eng n
  let chans := (List.range 8).foldl (fun t c =>
    let k : SeChan := tget {} x.chans c
    tset {} t c { rfirst := k.rfirst, rlast := k.rlast }) []
  let s := s.setEng n
    { shadow := x.shadow, page := x.page, pagePend := x.pagePend, pageT := x.pageT, load := x.load, chans := chans, lastT := x.lastT, tb0 := s.periStart }
  let s := forN 8 (fun r s => s.wr (Reg.SE_REG n r) 0) s
  let s := (s.wr (Reg.SE_TMR n) 0).setFld (Reg.SE_STAT n) 16 4 0
  ((s.setBit (Reg.SE_STAT n) seK false).setBit (Reg.SE_STAT n) seBW false).setBit (Reg.SE_STAT n) seINBW false

/-- SEn starts (R892), or is HELD while its port is penned, quarantined or proved (R914). -/
def State.seStart (s : State) (n : Nat) : State :=
  if s.seBlocked n then s.setSeSt n seHELD
  else ((s.seClear n).setSePc n (s.fld (Reg.SE_CFG0 n) 0 6)).setSeSt n seRUNNING

/-- SEn leaves execution for a state, with its pins released (R895, R914, R915). -/
def State.seLeave (s : State) (n st : Nat) : State :=
  let s := s.seRelease n
  (s.setEng n { s.eng n with waiting := false, stop := false }).setSeSt n st

/-- A running engine whose port is penned, quarantined or proved is HELD (R914, R949). -/
def State.seHold (s : State) (n : Nat) : State := if s.seSt n = seRUNNING then s.seLeave n seHELD else s

/-- A HELD engine restarts when nothing holds it any more (R914). -/
def State.seUnhold (s : State) (n : Nat) : State :=
  if s.seSt n = seHELD && !s.seBlocked n then s.seStart n else s

/-- A fault stops SEn (R915): 1 ILLEGAL, 2 PIN. -/
def State.seFail (s : State) (n cause : Nat) : State :=
  ((s.seLeave n seFAULT).setFld (Reg.SE_STAT n) 16 4 cause).seEvt n 0

/-- RUN written 1: a STOPPED engine starts (R892). In a gated block the write would make it busy (R80). -/
def State.seRun (s : State) (n : Nat) : State :=
  if s.gatedBit gSE then s.wlrej (Reg.SE_CTRL n)
  else
    let s := s.setBit (Reg.SE_CTRL n) 0 true
    if s.seSt n = seSTOPPED then s.seStart n else s

/-- R892: a write of 1 to RUN of SEn. -/
def execSeRun (n : Fin 8) (s : State) : Host.Outcome State Fault Refusal := done (if s.live then s.seRun n.val else s)

/-- A PERI cycle of SEn: TMR and the instruction cycle count, what is left of a wait or an instruction runs down, and an engine
whose RUN is 0 stops at the instruction's end (R869, R873, R877, R895). -/
def State.seReach (s : State) (n : Nat) : State :=
  let t := s.seTmr n + 1
  let x := s.eng n
  let x := { x with
    wraps := if t = 0 then x.wraps + 1 else x.wraps
    left := x.left - 1
    late := x.late || (x.waiting && x.left == 0)
    busy := x.busy - 1
    phase := (x.phase + 1) % s.seDiv n }
  let s := (s.setEng n x).wr (Reg.SE_TMR n) t
  if x.stop && x.busy == 0 && x.phase == 0 then s.seLeave n seSTOPPED else s

/-- RUN written 0: the engine stops at its next instruction boundary, at once during a wait, and releases its pins (R895). -/
def State.seStopRun (s : State) (n : Nat) : State :=
  let s := s.setBit (Reg.SE_CTRL n) 0 false
  if s.seSt n = seRUNNING && !(s.eng n).waiting && (s.eng n).busy != 0 then s.setEng n { s.eng n with stop := true }
  else s.seLeave n seSTOPPED

/-- R895: a write of 0 to RUN of SEn. -/
def execSeRunClear (n : Fin 8) (s : State) : Host.Outcome State Fault Refusal :=
  done (if s.live then s.seStopRun n.val else s)

/-- GSTART: every named STOPPED engine starts at one edge; a named engine that is not STOPPED sets CFGERR (R893). -/
def State.seGstart (s : State) (val : Word) : State :=
  if s.gatedBit gSE then (if W.fld val 0 8 = 0 then s else s.wlrej Reg.SE_GSTART)
  else
    forN 8 (fun n s =>
      if !W.bit val n then s
      else if s.seSt n = seSTOPPED then s.seStart n
      else s.setBit Reg.SE_STATUS 0 true) s

/-- R893: a write of SE.GSTART. -/
def execSeGstart (val : Word) (s : State) : Host.Outcome State Fault Refusal := done (if s.live then s.seGstart val else s)

/-- PHRST: the dividers of the named running engines restart together, and the instruction cycle in progress ends; PC, registers
and TMR are unchanged (R894). -/
def State.phrst (s : State) (val : Word) : State :=
  forN 8 (fun n s =>
    if W.bit val n && s.seSt n == seRUNNING then
      s.setEng n { s.eng n with phase := 0, busy := (s.eng n).busy / s.seDiv n * s.seDiv n }
    else s) s

/-- R894: a write of SE.PHRST. -/
def execPhrst (val : Word) (s : State) : Host.Outcome State Fault Refusal := done (if s.runs gSE then s.phrst val else s)

/-! ### Loading -/

/-- SEn is busy as the owner of its WL registers (R908). -/
def State.seBusy (s : State) (n : Nat) : Bool := s.seSt n == seRUNNING || s.seSt n == seHELD

/-- A write of SEn_LOAD: ignored while the engine is busy (R908, R8), else a load from an address starts (R898). -/
def State.seLoad (s : State) (n : Nat) (addr : Word) : State :=
  if s.seBusy n then s.wlrej (Reg.SE_LOAD n) else s.setEng n { s.eng n with load := some addr.toNat }

/-- R898: a write of SEn_LOAD. -/
def execSeLoad (n : Fin 8) (addr : Word) (s : State) : Host.Outcome State Fault Refusal :=
  done (if s.live then s.seLoad n.val addr else s)

/-- Reads `k` words of shared SRAM coherently; none when one is uncorrectable or lies outside shared SRAM. -/
def State.readSram : Nat → Nat → State → Option (List Word) × State
  | 0, _, s => (some [], s)
  | k + 1, a, s =>
    if 0x200000 ≤ a then (none, s)
    else
      match s.coRd 5 a with
      | (none, s) => (none, s)
      | (some w, s) =>
        match State.readSram k (a + 4) s with
        | (some ws, s) => (some (w :: ws), s)
        | (none, s) => (none, s)

/-- Defined bits of the stencil record header, words 0 to 6 (Table 16-5). -/
def seHdrMask : List Word := [0x7FFFFFFF, 0x00BF3F3F, 0x00BFBF3F, 0x01FFFFFF, 0x0FFF071F, 0xFFFF0003, 0x1FFFFFFF]

/-- The check of a stencil record's header, apart from SCRC (R898). -/
def seHdrOk (h : List Word) : Bool :=
  let w0 := h.getD 0 0
  W.fld w0 0 16 == 0x5354 && W.fld w0 16 8 == 1 && decide (1 ≤ W.fld w0 24 7) && decide (W.fld w0 24 7 ≤ 64)
    && ((h.take 7).zip seHdrMask).all (fun e => e.1 &&& ~~~ e.2 == 0) && W.fld (h.getD 5 0) 0 2 != 3

/-- Reads and checks the record at an address: its words (R897, R898). -/
def State.seRecord (s : State) (a : Nat) : Option (List Word) × State :=
  if a % 4 ≠ 0 then (none, s)
  else
    match State.readSram 8 a s with
    | (none, s) => (none, s)
    | (some h, s) =>
      if !seHdrOk h then (none, s)
      else
        match State.readSram (W.fld (h.getD 0 0) 24 7 + 32) (a + 32) s with
        | (none, s) => (none, s)
        | (some b, s) => if h.getD 7 0 == crc32 (h.take 7 ++ b) then (some (h ++ b), s) else (none, s)

/-- Writes a list of values to registers at a stride of 4 from an address. -/
def State.wrRegs (s : State) (a : Nat) : List Word → State
  | [] => s
  | w :: ws => (s.wr a w).wrRegs (a + 4) ws

/-- Installs a checked record: header words 1 to 6, instructions, NOP behind them, both parameter pages (R898). -/
def State.seInstall (s : State) (n : Nat) (r : List Word) : State :=
  let k := W.fld (r.getD 0 0) 24 7
  let prog := ((r.drop 8).take k ++ List.replicate 64 0).take 64
  let par := (r.drop (8 + k)).take 32
  let s := (s.wrRegs (Reg.SE_CFG0 n) ((r.drop 1).take 6)).wrRegs (Reg.SE_PROG n 0) prog
  let s := s.wrRegs (Reg.SE_PARAM n 0) par
  let sh := (List.range 32).foldl (fun t i => tset 0 t i (par.getD i 0)) []
  (s.setEng n { s.eng n with shadow := sh }).setBit (Reg.SE_STAT n) sePEND false

/-- R898: the load of SEn ends: installed with LDDONE, or nothing changes and LDERR is set. -/
def execSeLoadDone (n : Fin 8) (s : State) : Host.Outcome State Fault Refusal :=
  match (s.eng n.val).load with
  | none => done s
  | some a =>
    if !s.runs gSE then done s
    else
      let s := s.setEng n.val { s.eng n.val with load := none }
      match s.seRecord a with
      | (some r, s) => done ((s.seInstall n.val r).seEvt n.val 2)
      | (none, s) => done (s.seEvt n.val 3)

/-- A write of parameter word w of SEn: the shadow page, and PEND (R883); the page before the first write of a PERI cycle is kept for a
PLOAD of that cycle (R909). -/
def State.seParam (s : State) (n w : Nat) (val : Word) : State :=
  let x := s.eng n
  let x := if x.pageT = some s.periStart then x
    else { x with page := x.shadow, pagePend := s.bit (Reg.SE_STAT n) sePEND, pageT := some s.periStart }
  (s.setEng n { x with shadow := tset 0 x.shadow w val }).setBit (Reg.SE_STAT n) sePEND true

/-- R883: a write of parameter word w of SEn. -/
def execSeParamWrite (n : Fin 8) (w : Fin 32) (val : Word) (s : State) : Host.Outcome State Fault Refusal :=
  done (if s.live then s.seParam n.val w.val val else s)

/-! ### The next address and the bellwether request -/

/-- The address after the instruction at PC, and the state with the inner-wrap count (R879). -/
def State.seAfter (s : State) (n : Nat) : Nat × State :=
  let a := s.sePc n
  let c1 := s.rd (Reg.SE_CFG1 n)
  let c0 := s.rd (Reg.SE_CFG0 n)
  let c := s.seReg n 2
  if W.bit c1 15 && W.fld c1 8 6 == a && c != 0 then (W.fld c1 0 6, s.setSeReg n 2 (c - 1))
  else if W.bit c0 23 && W.fld c0 16 6 == a then (W.fld c0 8 6, s)
  else ((a + 1) % 64, s)

/-- The instruction of SEn completes and the next address is taken. -/
def State.seAdv (s : State) (n : Nat) : State :=
  let (a, s) := s.seAfter n
  s.setSePc n a

/-- SEn takes its bellwether request and continues at BWENTRY; LINK holds `link` (R890). -/
def State.seTakeBw (s : State) (n link : Nat) : State :=
  let s := s.setEng n { s.eng n with link := link, waiting := false, busy := max 1 (s.eng n).busy }
  let s := (s.setBit (Reg.SE_STAT n) seBW false).setBit (Reg.SE_STAT n) seINBW true
  s.setSePc n (s.fld (Reg.SE_CFG1 n) 16 6)

/-- BWWAIT of SEn: a wait instruction takes a request (R890). -/
def State.seBwWait (s : State) (n : Nat) : Bool := s.bit (Reg.SE_CFG2 n) 24

/-- The engine of an SE port is asked for its sample action (R890, R911). -/
def State.seBellwether (s : State) (n : Nat) : State :=
  let s := s.setEng n { s.eng n with mark := none, markPin := none }
  if s.seSt n != seRUNNING || !s.bit (Reg.SE_CFG1 n) 23 then s
  else if (s.eng n).waiting && s.seBwWait n && !s.bit (Reg.SE_STAT n) seINBW then s.seTakeBw n (s.sePc n)
  else s.setBit (Reg.SE_STAT n) seBW true

/-! ### Instructions -/

/-- Instruction cycles of an operation, a wait apart (Table 16-3). -/
def seCycles (op : Nat) : Nat :=
  match op with
  | 0x0F => 4
  | 0x10 => 34
  | 0x21 => 2
  | _ => 1

/-- Issues the instruction at PC of SEn where its OP is `op` and the engine is ready for it; a pin operand of PWID or more is a
fault (R877, R915). -/
def State.seOp (s : State) (n op : Nat) (pin : Word → Bool) (f : State → Word → State) :
    Host.Outcome State Fault Refusal :=
  let w := s.seInstr n
  if s.seReady n && iOp w == op then
    done (if pin w && decide (s.sePwid n ≤ iP w) then s.seFail n 2 else f (s.setEng n (s.seIssued n (seCycles op))) w)
  else done s

/-- No operand of the instruction is a pin, or P is one. -/
def noPin (_ : Word) : Bool := false
def onPin (_ : Word) : Bool := true

/-- Sets flag T of SEn. -/
def State.seT (s : State) (n : Nat) (b : Bool) : State := s.setEng n { s.eng n with t := b }

/-- Z and N from a result (R878). -/
def State.seFlags (s : State) (n : Nat) (r : Word) : State := s.setEng n { s.eng n with z := r == 0, n := W.bit r 31 }

/-- D ← a function of D and src, with the flags of the result (R877, R878). -/
def State.seAlu (s : State) (n : Nat) (w : Word) (f : Word → Word → Word) : State :=
  let r := f (s.seReg n (iD w)) (s.seSrc n w)
  ((s.setSeReg n (iD w) r).seFlags n r).seAdv n

/-- A wait of SEn that is satisfied at issue: T is set where `t` (SINCE and AT), else cleared. -/
def State.sePass (s : State) (n : Nat) (t : Bool) : State := (s.seT n t).seAdv n

/-- A wait instruction issues: a waiting bellwether request is taken where BWWAIT is 1 (R890), else the wait passes at once
or the engine waits. -/
def State.seWait (s : State) (n : Nat) (now : Option Bool) (left : Nat) : State :=
  if s.bit (Reg.SE_STAT n) seBW && s.seBwWait n && !s.bit (Reg.SE_STAT n) seINBW then s.seTakeBw n (s.sePc n)
  else
    match now with
    | some t => s.sePass n t
    | none => s.setEng n { s.eng n with waiting := true, left := left, late := false }

/-- R877: NOP. -/
def execSeNop (n : Fin 8) (s : State) : Host.Outcome State Fault Refusal :=
  s.seOp n.val 0x00 noPin (fun s _ => s.seAdv n.val)

/-- R877: SET. -/
def execSeSet (n : Fin 8) (s : State) : Host.Outcome State Fault Refusal :=
  s.seOp n.val 0x01 onPin (fun s w =>
    (s.seDrive n.val (iP w) (match iImm w % 4 with | 0 => some false | 1 => some true | _ => none)).seAdv n.val)

/-- R877: WAITE. -/
def execSeWaite (n : Fin 8) (s : State) : Host.Outcome State Fault Refusal :=
  s.seOp n.val 0x02 onPin (fun s w => s.seWait n.val none (s.seReg n.val (iS w)).toNat)

/-- R877: WAITL; `lvl` is the level found at the ball at issue. -/
def execSeWaitl (n : Fin 8) (lvl : Bool) (s : State) : Host.Outcome State Fault Refusal :=
  s.seOp n.val 0x03 onPin (fun s w =>
    let (l, s) := s.seSample n.val (iP w) lvl
    s.seWait n.val (if l = W.bit w 20 then some false else none) (s.seReg n.val (iS w)).toNat)

/-- R877: DELAY. -/
def execSeDelay (n : Fin 8) (s : State) : Host.Outcome State Fault Refusal :=
  s.seOp n.val 0x04 noPin (fun s w =>
    let d := s.seSrc n.val w
    s.seWait n.val (if d = 0 then some false else none) d.toNat)

/-- R877: AT. -/
def execSeAt (n : Fin 8) (s : State) : Host.Outcome State Fault Refusal :=
  s.seOp n.val 0x05 noPin (fun s w =>
    let d := s.seSrc n.val w
    s.seWait n.val (if 0 ≤ wdiff (s.seTmr n.val) d then some true else none) (d - s.seTmr n.val).toNat)

/-- R877: SINCE. -/
def execSeSince (n : Fin 8) (s : State) : Host.Outcome State Fault Refusal :=
  s.seOp n.val 0x06 noPin (fun s w =>
    let d := s.seSrc n.val w
    let past := (s.seTmr n.val - s.seReg n.val 4).toNat
    s.seWait n.val (if d.toNat ≤ past then some true else none) (d.toNat - past))

/-- An edge accepted at TMR value t: DT and EDGE (R877), the latest edge of the window (R884). -/
def State.seEdge (s : State) (n : Nat) (t : Word) : State :=
  let s := (s.setSeReg n 3 (t - s.seReg n 4)).setSeReg n 4 t
  s.setEng n ((s.eng n).sawEdge (s.seTime n t))

/-- The wait of SEn is over: the engine resumes at the next instruction-cycle edge, after an edge not before 3 + FILT PERI cycles
from the edge's timestamp, `back` PERI cycles ago (R872, R877, R880). -/
def State.seResume (s : State) (n : Nat) (back : Option Nat) : State :=
  let b := match back with
    | some k => 3 + s.fld (Reg.SE_PINCFG n) 24 4 - k
    | none => 0
  s.setEng n { s.eng n with waiting := false, busy := max (max 1 (s.eng n).busy) b }

/-- R877, R878: the wait in progress on SEn ends: an edge, with its timestamp `back` PERI cycles ago, a level that such an edge
brought, a wait that gives up (D[2]) once its cycles have passed, as one that has passed them does whatever comes later, or the end of DELAY, AT or SINCE. -/
def execSeWaitSatisfied (n : Fin 8) (gaveUp : Bool) (back : BitVec 8) (s : State) : Host.Outcome State Fault Refusal :=
  let k := n.val
  let w := s.seInstr k
  let d := iD w
  let spent := (s.eng k).left == 0
  if !s.seRuns k || !(s.eng k).waiting then done s
  else
    let b := s.seBall k (iP w)
    let go := s.seResume k none
    let met := s.seResume k (some back.toNat)
    let t := s.seBack k back.toNat
    match iOp w with
    | 0x02 =>
      if gaveUp || (4 ≤ d && (s.eng k).late) then (if 4 ≤ d && spent then done (go.sePass k true) else done s)
      else
        let l := match d % 4 with | 1 => true | 2 => false | _ => !s.bit Reg.SE_PINLVL b
        done (((met.setBit Reg.SE_PINLVL b l).seEdge k t).sePass k false)
    | 0x03 =>
      if gaveUp || (4 ≤ d && (s.eng k).late) then (if 4 ≤ d && spent then done (go.sePass k true) else done s)
      else
        let s := met.setBit Reg.SE_PINLVL b (W.bit w 20)
        done ((s.setEng k ((s.eng k).sawEdge (s.seTime k t))).sePass k false)
    | 0x04 => if gaveUp || !spent then done s else done (go.sePass k false)
    | 0x05 => if gaveUp || !spent then done s else done (go.sePass k false)
    | 0x06 => if gaveUp || !spent then done s else done (go.sePass k false)
    | _ => done s

/-- R877: LDI. -/
def execSeLdi (n : Fin 8) (s : State) : Host.Outcome State Fault Refusal :=
  s.seOp n.val 0x07 noPin (fun s w => (s.setSeReg n.val (iD w) (BitVec.ofNat 32 (iImm w))).seAdv n.val)

/-- R877: LDH. -/
def execSeLdh (n : Fin 8) (s : State) : Host.Outcome State Fault Refusal :=
  s.seOp n.val 0x08 noPin (fun s w =>
    (s.setSeReg n.val (iD w) (W.setFld (s.seReg n.val (iD w)) 16 16 (iImm w))).seAdv n.val)

/-- R877: MOV. -/
def execSeMov (n : Fin 8) (s : State) : Host.Outcome State Fault Refusal :=
  s.seOp n.val 0x09 noPin (fun s w => (s.setSeReg n.val (iD w) (s.seSrc n.val w)).seAdv n.val)

/-- R877: ADD. -/
def execSeAdd (n : Fin 8) (s : State) : Host.Outcome State Fault Refusal :=
  s.seOp n.val 0x0A noPin (fun s w => s.seAlu n.val w (· + ·))

/-- R877: SUB. -/
def execSeSub (n : Fin 8) (s : State) : Host.Outcome State Fault Refusal :=
  s.seOp n.val 0x0B noPin (fun s w => s.seAlu n.val w (· - ·))

/-- R878: CMP. -/
def execSeCmp (n : Fin 8) (s : State) : Host.Outcome State Fault Refusal :=
  s.seOp n.val 0x0C noPin (fun s w =>
    let d := s.seReg n.val (iD w)
    let v := s.seSrc n.val w
    (s.setEng n.val { s.eng n.val with z := d == v, n := decide (d.toNat < v.toNat) }).seAdv n.val)

/-- R877: AND. -/
def execSeAnd (n : Fin 8) (s : State) : Host.Outcome State Fault Refusal :=
  s.seOp n.val 0x0D noPin (fun s w => s.seAlu n.val w (· &&& ·))

/-- R877: SHR. -/
def execSeShr (n : Fin 8) (s : State) : Host.Outcome State Fault Refusal :=
  s.seOp n.val 0x0E noPin (fun s w => s.seAlu n.val w (fun a b => a >>> (b.toNat % 32)))

/-- R877: MUL. -/
def execSeMul (n : Fin 8) (s : State) : Host.Outcome State Fault Refusal :=
  s.seOp n.val 0x0F noPin (fun s w => s.seAlu n.val w (· * ·))

/-- The rounded quotient of DIVR (Table 16-3). -/
def divr (d v : Word) : Word :=
  if v = 0 then 0xFFFFFFFF else BitVec.ofNat 32 ((d.toNat + v.toNat / 2) / v.toNat)

/-- R877: DIVR; a zero src gives all ones and T = 1. -/
def execSeDivr (n : Fin 8) (s : State) : Host.Outcome State Fault Refusal :=
  s.seOp n.val 0x10 noPin (fun s w =>
    (if s.seSrc n.val w = 0 then s.seT n.val true else s).seAlu n.val w divr)

/-- The low k bits of w reversed, the bits above cleared. -/
def revBits (w : Word) (k : Nat) : Word :=
  BitVec.ofNat 32 ((List.range k).foldl (fun a i => a + if W.bit w i then 2 ^ (k - 1 - i) else 0) 0)

/-- R877: REV. -/
def execSeRev (n : Fin 8) (s : State) : Host.Outcome State Fault Refusal :=
  s.seOp n.val 0x11 noPin (fun s w =>
    (s.setSeReg n.val (iD w) (revBits (s.seReg n.val (iD w)) (iImm w % 32 + 1))).seAdv n.val)

/-- Condition of JMP (R878). -/
def State.seCond (s : State) (n c : Nat) : Bool :=
  let x := s.eng n
  match c with
  | 0 => true
  | 1 => x.z
  | 2 => !x.z
  | 3 => x.n
  | 4 => !x.n
  | 5 => x.t
  | 6 => !x.t
  | _ => s.bit (Reg.SE_STAT n) seK

/-- R877: JMP; a taken jump ignores both wraps (R879). -/
def execSeJmp (n : Fin 8) (s : State) : Host.Outcome State Fault Refusal :=
  s.seOp n.val 0x12 noPin (fun s w =>
    if s.seCond n.val (iD w) then s.setSePc n.val (iImm w % 64) else s.seAdv n.val)

/-- R877: SHI; `lvl` is the level found at the ball. -/
def execSeShi (n : Fin 8) (lvl : Bool) (s : State) : Host.Outcome State Fault Refusal :=
  s.seOp n.val 0x13 onPin (fun s w =>
    let (l, s) := s.seSample n.val (iP w) lvl
    (s.setSeReg n.val 6 ((s.seReg n.val 6 >>> 1) ||| (if l then 0x80000000 else 0))).seAdv n.val)

/-- R877: SHO. -/
def execSeSho (n : Fin 8) (s : State) : Host.Outcome State Fault Refusal :=
  s.seOp n.val 0x14 onPin (fun s w =>
    let r := s.seReg n.val 6
    ((s.seDrive n.val (iP w) (some (W.bit r 0))).setSeReg n.val 6 (r >>> 1)).seAdv n.val)

/-- R881: CRCI. -/
def execSeCrci (n : Fin 8) (s : State) : Host.Outcome State Fault Refusal :=
  s.seOp n.val 0x15 noPin (fun s _ =>
    (s.setSeReg n.val 7 (BitVec.ofNat 32 (s.fld (Reg.SE_MISC n.val) 0 16))).seAdv n.val)

/-- One bit through a CRC register of width w (R881). -/
def seCrcBit (w : Nat) (poly c : Nat) (b : Bool) : Nat :=
  let f := Bool.xor (c.testBit (w - 1)) b
  let c := (2 * c) % 2 ^ w
  if f then (c ^^^ poly) % 2 ^ w else c

/-- R881: CRCF. -/
def execSeCrcf (n : Fin 8) (s : State) : Host.Outcome State Fault Refusal :=
  s.seOp n.val 0x16 noPin (fun s w =>
    let k := iImm w % 32 + 1
    let d := s.seReg n.val (iD w)
    let bits := (List.range k).map (fun i => W.bit d (if W.bit w 5 then i else k - 1 - i))
    let c := bits.foldl (seCrcBit (s.seCrcW n.val) (s.fld (Reg.SE_CRCCFG n.val) 16 16)) (s.seReg n.val 7).toNat
    (s.setSeReg n.val 7 (BitVec.ofNat 32 c)).seAdv n.val)

/-- R877: OPEN. TFIRST of IMM[1:0] = 3 is a free value: the spec names none. -/
def execSeOpen (n : Fin 8) (s : State) : Host.Outcome State Fault Refusal :=
  s.seOp n.val 0x17 noPin (fun s w =>
    let e := s.seReg n.val 4
    let (t, s) := match iImm w % 4 with
      | 0 => (s.seNow n.val, s)
      | 1 => (s.seTime n.val e, s)
      | 2 => (s.seTime n.val (e - s.seReg n.val 3), s)
      | _ => let (v, s) := s.drawWord; (v.toNat, s)
    (s.setSeCh n.val (iP w) { s.seCh n.val (iP w) with build := [], opened := true, tfirst := t }).seAdv n.val)

/-- R884: OUT. -/
def execSeOut (n : Fin 8) (s : State) : Host.Outcome State Fault Refusal :=
  s.seOp n.val 0x18 noPin (fun s w =>
    let c := s.seCh n.val (iP w)
    let s := if 16 ≤ c.build.length then s.tally (Reg.SE_OVFTALLY n.val)
      else s.setSeCh n.val (iP w) { c with build := c.build ++ [(s.seReg n.val (iD w)).setWidth 16] }
    s.seAdv n.val)

/-- MODE of an SE entry's XARG (Table 16-4): 0 NEXT, 1 NOWAIT, 2 KICK; and the channel that its ADDR names. -/
def State.seMode (s : State) (l e : Nat) : Nat := s.fld (Reg.MBM_ENTDESC l e 3) 0 2
def State.seAddr (s : State) (l e : Nat) : Nat := s.fld (Reg.MBM_ENTDESC l e 0) 24 3

/-- A completed result goes to the attempt that waits for it: the first commit on its channel whose TFIRST lies at or after
its start (R886). -/
def State.seDeliver (s : State) (n c : Nat) (r : SeRes) : State :=
  match s.use (0x20 + n) with
  | .entry l e _ =>
    let x := s.port (0x20 + n)
    let ent : Ent := tget {} (tget {} s.mbm.lists l).ents e
    if x.got = none && s.seMode l e != 1 && s.seAddr l e == c && decide (ent.t0 ≤ r.first) then
      s.setPort (0x20 + n) { x with got := some r }
    else s
  | _ => s

/-- The build buffer of channel c becomes its completed result (R884, R910). -/
def State.seCommit (s : State) (n c status : Nat) : State :=
  let k := s.seCh n c
  let now := s.seNow n
  let (ws, tf, tl) := if k.opened then (k.build, k.tfirst, (s.eng n).lastT) else ([], now, now)
  let st := if 6 < status then 4 else status
  let a := Reg.SE_CHSTAT n c
  let s := s.wr a (BitVec.ofNat 32 (st + 256 * ws.length + 65536 * ((s.fld a 16 16 + 1) % 65536)))
  let s := s.wrRegs (Reg.SE_CHDATA n c 0) ((List.range 16).map (fun i => (ws.getD i 0).setWidth 32))
  let s := s.setSeCh n c { rfirst := tf, rlast := tl }
  s.seDeliver n c ⟨st, ws, tf, tl⟩

/-- R884: CMT. -/
def execSeCmt (n : Fin 8) (s : State) : Host.Outcome State Fault Refusal :=
  s.seOp n.val 0x19 noPin (fun s w => (s.seCommit n.val (iP w) (iImm w % 256)).seAdv n.val)

/-- R889: PUSHQ. -/
def execSePushq (n : Fin 8) (s : State) : Host.Outcome State Fault Refusal :=
  s.seOp n.val 0x1A noPin (fun s w =>
    let q := s.rd (Reg.SE_QCFG n.val)
    ((s.stage 5 (W.fld q 0 6) (W.fld q 8 6) ((s.seReg n.val (iD w)).setWidth 16)).2).seAdv n.val)

/-- R877: GETK. -/
def execSeGetk (n : Fin 8) (s : State) : Host.Outcome State Fault Refusal :=
  s.seOp n.val 0x1B noPin (fun s w =>
    let v := if s.bit (Reg.SE_STAT n.val) seK then (s.eng n.val).karg else 0
    ((s.setSeReg n.val (iD w) (BitVec.ofNat 32 v)).setBit (Reg.SE_STAT n.val) seK false).seAdv n.val)

/-- R877: RDC. -/
def execSeRdc (n : Fin 8) (s : State) : Host.Outcome State Fault Refusal :=
  s.seOp n.val 0x1C noPin (fun s w =>
    let l := (s.eng n.val).cntT
    let e := s.seReg n.val 4
    (((s.setSeReg n.val (iD w) (s.rd (Reg.SE_ECNT n.val))).setSeReg n.val 3 (l - e)).setSeReg n.val 4 l).seAdv n.val)

/-- R890, R912: BWPT. -/
def execSeBwpt (n : Fin 8) (s : State) : Host.Outcome State Fault Refusal :=
  s.seOp n.val 0x1D noPin (fun s _ =>
    if s.bit (Reg.SE_STAT n.val) seBW && !s.bit (Reg.SE_STAT n.val) seINBW then
      let (a, s) := s.seAfter n.val
      s.seTakeBw n.val a
    else s.seAdv n.val)

/-- R891: MARK; only the handler's names the defining edge. -/
def execSeMark (n : Fin 8) (s : State) : Host.Outcome State Fault Refusal :=
  s.seOp n.val 0x1E (fun w => W.bit w 0) (fun s w =>
    (if !s.bit (Reg.SE_STAT n.val) seINBW then s
     else if W.bit w 0 then s.setEng n.val { s.eng n.val with markPin := some (iP w) }
     else s.setEng n.val { s.eng n.val with mark := some (s.seNow n.val), markPin := none }).seAdv n.val)

/-- R877, R912: RET; outside the handler it has no effect. -/
def execSeRet (n : Fin 8) (s : State) : Host.Outcome State Fault Refusal :=
  s.seOp n.val 0x1F noPin (fun s _ =>
    if s.bit (Reg.SE_STAT n.val) seINBW then
      (s.setBit (Reg.SE_STAT n.val) seINBW false).setSePc n.val (s.eng n.val).link
    else s.seAdv n.val)

/-- R877: LDP. -/
def execSeLdp (n : Fin 8) (s : State) : Host.Outcome State Fault Refusal :=
  s.seOp n.val 0x20 noPin (fun s w =>
    (s.setSeReg n.val (iD w) (s.rd (Reg.SE_PARAM n.val (iImm w % 32)))).seAdv n.val)

/-- R883, R909: PLOAD; parameter writes of its PERI cycle go to the shadow page after the copy, and PEND stays set. -/
def execSePload (n : Fin 8) (s : State) : Host.Outcome State Fault Refusal :=
  s.seOp n.val 0x21 noPin (fun s _ =>
    let x := s.eng n.val
    let s := if x.pageT = some s.periStart then
        (if x.pagePend then s.wrRegs (Reg.SE_PARAM n.val 0) ((List.range 32).map (tget 0 x.page)) else s)
      else if s.bit (Reg.SE_STAT n.val) sePEND then
        (s.wrRegs (Reg.SE_PARAM n.val 0) ((List.range 32).map (tget 0 x.shadow))).setBit (Reg.SE_STAT n.val) sePEND false
      else s
    s.seAdv n.val)

/-- R877: IRQ. -/
def execSeIrq (n : Fin 8) (s : State) : Host.Outcome State Fault Refusal :=
  s.seOp n.val 0x22 noPin (fun s _ => (s.seEvt n.val 1).seAdv n.val)

/-- R877: STOP. -/
def execSeStop (n : Fin 8) (s : State) : Host.Outcome State Fault Refusal :=
  s.seOp n.val 0x23 noPin (fun s _ => (s.seAdv n.val).seLeave n.val seSTOPPED)

/-- R877, R915: an OP absent from Table 16-3 stops the engine with cause ILLEGAL. -/
def execSeUndefinedOperation (n : Fin 8) (s : State) : Host.Outcome State Fault Refusal :=
  if s.seReady n.val && decide (0x23 < iOp (s.seInstr n.val)) then done (s.seFail n.val 1)
  else done s

/-- R882: an accepted edge on CNTPIN of a running engine: of kind CNTEDGE it counts, whatever instruction runs. -/
def execEdgeCounterEdge (n : Fin 8) (rise : Bool) (back : BitVec 8) (s : State) : Host.Outcome State Fault Refusal :=
  let k := n.val
  let m := s.rd (Reg.SE_MISC k)
  let pin := W.fld m 24 3
  if s.seRuns k && decide (pin < s.sePwid k) then
    let t := s.seBack k back.toNat
    let s := s.setBit Reg.SE_PINLVL (s.seBall k pin) rise
    let s := s.setEng k ((s.eng k).sawEdge (s.seTime k t))
    if W.bit m (if rise then 27 else 28) then
      done ((s.wr (Reg.SE_ECNT k) (s.rd (Reg.SE_ECNT k) + 1)).setEng k { s.eng k with cntT := t })
    else done s
  else done s

end Sys2Proof.Machine
end

