-- ==== Sys2Proof/Machine/Wire.lean ====
section
/-!
DEFINITION. Chapter 15, what passes on the wires of the two-wire and DDR serial ports: the transactions of an entry and their
acknowledges, value words from bytes, the check byte; the bit order and the lane directions of a frame.
-/
namespace Sys2Proof.Machine

/-! ### Two-wire transactions (R803 to R810) -/

/-- The fields of a two-wire XARG (Table 15-4). -/
def xForm (x : Word) : Nat := W.fld x 0 2
def xBe (x : Word) : Bool := W.bit x 2
def xCrc (x : Word) : Bool := W.bit x 3
def xWrap (x : Word) : Nat := W.fld x 4 4
def xMaxBurst (x : Word) : Nat := W.fld x 8 8
def xPtrHi (x : Word) : Nat := W.fld x 16 8

/-- A two-wire transaction: the target, the bytes written after the address byte with W where it sends one, and how many bytes are
read after the address byte with R where it sends one; between the two stands a repeated START (Table 15-5). -/
structure TwTx where
  addr : Nat
  wr : Option (List Byte) := none
  rd : Option Nat := none
  deriving DecidableEq, Repr

/-- The port's acknowledges of the bytes that a transaction reads: every byte but the last (R807). -/
def TwTx.acks (t : TwTx) : List Bool := (List.range (t.rd.getD 0)).map (fun i => decide (i + 1 < t.rd.getD 0))

/-- Bytes of an entry (R805). -/
def entBytes (x : Word) (len : Nat) : Nat := len * (if xCrc x then 3 else 2)

/-- Bytes of the segment that starts at byte offset `o` of an entry of `b` bytes: up to a wrap boundary, MAXBURST, or the end
(R809). -/
def segLen (x : Word) (reg b o : Nat) : Nat :=
  let toWrap := if xWrap x ≠ 0 ∧ (xForm x = 1 ∨ xForm x = 2) then 2 ^ xWrap x - (reg + o) % 2 ^ xWrap x else b
  let burst := if xMaxBurst x = 0 then b else if xCrc x then xMaxBurst x / 3 * 3 else xMaxBurst x
  min (b - o) (min toWrap burst)

/-- The segments of an entry from byte offset `o` on: offset and length of each, at most `k` of them (R809). -/
def segments (x : Word) (reg b : Nat) : Nat → Nat → List (Nat × Nat)
  | _, 0 => []
  | o, k + 1 =>
    let n := max 1 (segLen x reg b o)
    if b ≤ o then [] else (o, n) :: segments x reg b (o + n) k

/-- The transaction of one segment (R804, R810). -/
def segTx (x : Word) (addr reg : Nat) (seg : Nat × Nat) : TwTx :=
  match xForm x with
  | 1 => { addr := addr, wr := some [BitVec.ofNat 8 (reg + seg.1)], rd := some seg.2 }
  | 2 =>
    let p := 256 * xPtrHi x + reg + seg.1
    { addr := addr, wr := some [BitVec.ofNat 8 (p / 256), BitVec.ofNat 8 p], rd := some seg.2 }
  | _ => { addr := addr, rd := some seg.2 }

/-- The transactions of an entry in their order: a CMDRD sends its command first (R804, R810, R811). -/
def entryTxs (x : Word) (addr reg len : Nat) : List TwTx :=
  let b := entBytes x len
  let cmd : List TwTx := if xForm x = 3 then [{ addr := addr, wr := some [BitVec.ofNat 8 reg] }] else []
  cmd ++ (segments x reg b 0 b).map (segTx x addr reg)

/-- One bit through the CRC-8 register: polynomial 0x31, not reflected (R806). -/
def crc8Shift (c : Byte) : Byte := if c.getLsbD 7 then (c <<< 1) ^^^ 0x31 else c <<< 1
/-- One byte through the CRC-8 register. -/
def crc8Byte (c b : Byte) : Byte :=
  crc8Shift (crc8Shift (crc8Shift (crc8Shift (crc8Shift (crc8Shift (crc8Shift (crc8Shift (c ^^^ b))))))))
/-- The check byte of a group's two bytes in received order: initial value 0xFF, no final XOR (R806). -/
def crc8 (a b : Byte) : Byte := crc8Byte (crc8Byte 0xFF a) b

/-- The value word of a group's first two bytes (R805, Table 15-4). -/
def groupWord (be : Bool) (a b : Byte) : Half := if be then a ++ b else b ++ a

/-- The value words that an entry's bytes give, group by group; none where a check byte does not match (R805, R806). -/
def groupWords (be crc : Bool) (bs : List Byte) : Nat → Option (List Half)
  | 0 => some []
  | n + 1 =>
    let a := bs.getD 0 0
    let b := bs.getD 1 0
    if crc && bs.getD 2 0 != crc8 a b then none
    else (groupWords be crc (bs.drop (if crc then 3 else 2)) n).map (groupWord be a b :: ·)

/-- Bytes packed in words, the first in bits 7:0. -/
def packBytes : List Byte → List Word
  | [] => []
  | [a] => [a.setWidth 32]
  | [a, b] => [(b ++ a).setWidth 32]
  | [a, b, c] => [(c ++ b ++ a).setWidth 32]
  | a :: b :: c :: d :: r => (d ++ c ++ b ++ a) :: packBytes r

/-! ### DDR serial frames (R829 to R832, Table 15-14) -/

/-- Shape of a profile of a DDR serial port (Table 15-14): word size, lanes, address bits. -/
def profWs (w : Word) : Nat := max 4 (W.fld w 14 5 + 1)
def profLanes (w : Word) : Nat := 2 ^ W.fld w 0 2
def profAddrBits (w : Word) : Nat := if W.fld w 6 3 ≤ 4 then 8 * W.fld w 6 3 else 0

/-- The fields of a profile that shape the wire. -/
def profDdr (w : Word) : Bool := W.bit w 2
def profMode3 (w : Word) : Bool := W.bit w 3
def profLsbf (w : Word) : Bool := W.bit w 4
def profCmdBits (w : Word) : Nat := if W.bit w 5 then 8 else 0
def profDummy (w : Word) : Nat := W.fld w 9 5
def profCmd1L (w : Word) : Bool := W.bit w 24

/-- The phases of a controller frame in order (R829). -/
inductive DsPhase where
  | select | command | address | dummy | data | release
  deriving DecidableEq, Repr

/-- DSCLK idles low in mode 0 and high in mode 3 (R830). -/
def dsClkIdle (prof : Word) : Bool := profMode3 prof

/-- The lowest `n` bits of a value in the order in which they move: the most significant first, or the least significant first
(R830). -/
def wireBits (lsbf : Bool) (n : Nat) (v : Word) : List Bool :=
  let bs := (List.range n).map (fun i => W.bit v i)
  if lsbf then bs else bs.reverse

/-- A data word from its bits as they came (R830). -/
def wordOfBits (lsbf : Bool) (bs : List Bool) : Word :=
  let low := if lsbf then bs else bs.reverse
  BitVec.ofNat 32 (low.foldr (fun b n => (if b then 1 else 0) + 2 * n) 0)

/-- A received data word: `w` holds its `ws` bits with the first that came as the most significant (R830). -/
def dsReceived (prof : Word) (ws : Nat) (w : Word) : Word := wordOfBits (profLsbf prof) (wireBits false ws w)

/-- What a data lane is in a phase of a controller frame. -/
inductive LaneDir where
  | output | input | released
  deriving DecidableEq, Repr

/-- The direction of lane D0 to D3 in a phase (R831, R839): with one lane D0 is the output and D1 the input; with more, D0 to
D(LANES − 1) are outputs until the dummy phase, where the port releases them, and inputs in the data phase of a read. A write
frame keeps them outputs. -/
def laneDir (lanes : Nat) (write : Bool) (ph : DsPhase) (lane : Nat) : LaneDir :=
  if lanes ≤ 1 then (if lane = 0 then .output else if lane = 1 then .input else .released)
  else if lanes ≤ lane then .released
  else if write then .output
  else match ph with
    | .select | .command | .address => .output
    | .dummy | .release => .released
    | .data => .input

/-- The direction of a lane of a target port: D0 receives and D1 transmits with one lane, every lane receives with more
(R840). -/
def targetLane (lanes lane : Nat) : LaneDir :=
  if lanes ≤ 1 then (if lane = 0 then .input else if lane = 1 then .output else .released)
  else if lane < lanes then .input else .released

/-- A frame of a controller (R829): its profile, the selects that it asserts, the half-periods of DSCLK before its first and after
its last clock, the bits of its command, address and written data in the order in which they move, and its data bits. -/
structure DsFrame where
  prof : Word
  selects : List Nat
  write : Bool := false
  css : Nat
  csh : Nat
  cmd : List Bool
  addr : List Bool := []
  data : List Bool := []
  dataBits : Nat := 0
  deriving DecidableEq, Repr

/-- The frame of a profile on a select with a command, an address value and NW data words: those of a write, or those to read
(R829, R830). -/
def dsFrameOf (prof tim : Word) (sel : Nat) (cmd addr : Word) (write : Bool) (nw : Nat) (data : List Word) : DsFrame :=
  { prof := prof, selects := [sel], write := write, css := W.fld tim 0 4 + 1, csh := W.fld tim 4 4 + 1
    cmd := wireBits false (profCmdBits prof) cmd, addr := wireBits false (profAddrBits prof) addr
    data := if write then data.flatMap (wireBits (profLsbf prof) (profWs prof)) else []
    dataBits := nw * profWs prof }

/-- The bits that a phase sends. -/
def DsFrame.sends (f : DsFrame) : DsPhase → List Bool
  | .command => f.cmd
  | .address => f.addr
  | .data => f.data
  | _ => []

/-- Lanes that carry bits in a phase: the command goes on one lane when CMD1L is 1 (R829). -/
def DsFrame.lanesIn (f : DsFrame) (ph : DsPhase) : Nat :=
  if ph = .command ∧ profCmd1L f.prof then 1 else profLanes f.prof

/-- Half-periods of DSCLK of a phase: one bit moves per lane per clock, with DDR one per lane on each edge (R829, R830). -/
def DsFrame.half (f : DsFrame) (ph : DsPhase) : Nat :=
  let clocks (bits : Nat) : Nat :=
    let perClock := f.lanesIn ph * (if profDdr f.prof then 2 else 1)
    2 * ((bits + perClock - 1) / perClock)
  match ph with
  | .select => f.css
  | .command => clocks f.cmd.length
  | .address => clocks f.addr.length
  | .dummy => 2 * profDummy f.prof
  | .data => clocks f.dataBits
  | .release => f.csh

/-- The phase of a half-period among phases in their order, and how many of its half-periods have passed. -/
def DsFrame.phaseIn (f : DsFrame) : List DsPhase → Nat → Option (DsPhase × Nat)
  | [], _ => none
  | ph :: r, h => if h < f.half ph then some (ph, h) else DsFrame.phaseIn f r (h - f.half ph)
/-- The phase of half-period h since the selects were asserted; none once they are deasserted (R829). -/
def DsFrame.phaseAt (f : DsFrame) (h : Nat) : Option (DsPhase × Nat) :=
  f.phaseIn [.select, .command, .address, .dummy, .data, .release] h

/-- DSCLK in half-period h: a clock is low and then high; before and after the clocks it idles (R830). -/
def DsFrame.clk (f : DsFrame) (h : Nat) : Bool :=
  match f.phaseAt h with
  | none | some (.select, _) | some (.release, _) => dsClkIdle f.prof
  | some (_, k) => k % 2 == 1

/-- The bit that a phase of one lane sends in its half-period k; none where it sends none (R829, R830). -/
def DsFrame.bitAt (f : DsFrame) (ph : DsPhase) (k : Nat) : Option Bool :=
  if f.lanesIn ph = 1 then (f.sends ph)[if profDdr f.prof then k else k / 2]? else none

end Sys2Proof.Machine
end

