-- ==== Sys2Proof/Machine/Fold.lean ====
section
/-!
DEFINITION. Chapter 14, the operations of the Morium engine: lists, entries, the fold, the start, the cut and the
cancellation of a muster, penning of entries, the end of an active list.
-/
namespace Sys2Proof.Machine

/-! ### Lists and entries -/

/-- List l beside its registers. -/
def State.ml (s : State) (l : Nat) : MList := tget {} s.mbm.lists l
/-- The state with list l's structure replaced. -/
def State.setMl (s : State) (l : Nat) (x : MList) : State := { s with mbm := { s.mbm with lists := tset {} s.mbm.lists l x } }
/-- Entry e of list l beside its registers. -/
def State.ent (s : State) (l e : Nat) : Ent := tget {} (s.ml l).ents e
/-- The state with entry e of list l replaced. -/
def State.setEnt (s : State) (l e : Nat) (x : Ent) : State := s.setMl l { s.ml l with ents := tset {} (s.ml l).ents e x }

/-- LISTl_STAT: LOADED, ACTIVE, RUNNING, PHASE, FRONT, NENT (Table 14-7). -/
def State.listLoaded (s : State) (l : Nat) : Bool := s.bit (Reg.MBM_LIST_STAT l) 0
def State.listActive (s : State) (l : Nat) : Bool := s.bit (Reg.MBM_LIST_STAT l) 1
def State.listRunning (s : State) (l : Nat) : Bool := s.bit (Reg.MBM_LIST_STAT l) 2
def State.listPhase (s : State) (l : Nat) : Nat := s.fld (Reg.MBM_LIST_STAT l) 4 2
def State.nent (s : State) (l : Nat) : Nat := s.fld (Reg.MBM_LIST_STAT l) 16 9
def State.setPhase (s : State) (l p : Nat) : State := s.setFld (Reg.MBM_LIST_STAT l) 4 2 p

/-- List l is active, or not; STATUS.ACTIVE shows it. -/
def State.setActive (s : State) (l : Nat) (b : Bool) : State :=
  (s.setBit (Reg.MBM_LIST_STAT l) 1 b).setBit Reg.MBM_STATUS l b
/-- A muster of list l runs, or not; STATUS.RUNNING shows it. -/
def State.setRunning (s : State) (l : Nat) (b : Bool) : State :=
  (s.setBit (Reg.MBM_LIST_STAT l) 2 b).setBit Reg.MBM_STATUS (4 + l) b

/-- Word w of the descriptor of entry e of list l, and its fields (Table 14-1). -/
def State.entW (s : State) (l e w : Nat) : Word := s.rd (Reg.MBM_ENTDESC l e w)
def State.entPort (s : State) (l e : Nat) : Nat := W.fld (s.entW l e 0) 0 8
def State.entLen (s : State) (l e : Nat) : Nat := W.fld (s.entW l e 0) 8 8 + 1
def State.entBw (s : State) (l e : Nat) : Bool := W.bit (s.entW l e 0) 16
def State.entIdem (s : State) (l e : Nat) : Bool := W.bit (s.entW l e 0) 17
def State.entQen (s : State) (l e : Nat) : Bool := W.bit (s.entW l e 0) 18
def State.entAddr (s : State) (l e : Nat) : Nat := W.fld (s.entW l e 0) 24 7
def State.entXarg (s : State) (l e : Nat) : Word := s.entW l e 3

/-- Words of an entry record (Table 14-4). -/
def entWords (len : Nat) : Nat := 4 + (len + 1) / 2

/-- OFF(e) of list l (R771). -/
def State.entOff (s : State) (l : Nat) : Nat → Nat
  | 0 => 8
  | e + 1 => State.entOff s l e + entWords (s.entLen l e)

/-- L of list l (R771). -/
def State.bodyLen (s : State) (l : Nat) : Nat := s.entOff l (s.nent l) + 1

/-- Address of buffer i of list l's fold (R765). -/
def State.foldBuf (s : State) (l i : Nat) : Nat :=
  (s.rd (Reg.MBM_LIST_FOLD l)).toNat + i * (32 * ((s.bodyLen l + 7) / 8))

/-- The front buffer's address; 0 before the first commit. -/
def State.front (s : State) (l : Nat) : Nat := (s.rd (Reg.MBM_LIST_FRONT l)).toNat

/-- List l has committed a muster since MUSTERLOAD: the number of its last commit is not 0 (R750, R797). -/
def State.hasFront (s : State) (l : Nat) : Bool := s.rd (Reg.MBM_LIST_NUM l) != 0
/-- The index and address of the back buffer. -/
def State.backIdx (s : State) (l : Nat) : Nat := if s.hasFront l && s.front l == s.foldBuf l 0 then 1 else 0
def State.back (s : State) (l : Nat) : Nat := s.foldBuf l (s.backIdx l)

/-- An access of `n` words at `a` for list l spends tokens of its booking (R444, R778). -/
def State.mbmSpend (s : State) (l a : Nat) : Nat → State
  | 0 => s
  | n + 1 => State.mbmSpend (s.setMl l { s.ml l with tokens := spendBank (s.ml l).tokens a 4 }) l (a + 4) n

/-- Fold writes of list l: coherent WRIs of words (R767). -/
def State.foldWrs (s : State) (l a : Nat) (ws : List Word) : State := (s.mbmSpend l a ws.length).coWrs 5 a ws
/-- A fold write of one word. -/
def State.foldWr (s : State) (l a : Nat) (v : Word) : State := s.foldWrs l a [v]

/-- Value words packed in pairs, padded to `len` values (Table 14-4). -/
def packVals (len : Nat) (vals : List Half) : List Word :=
  (List.range ((len + 1) / 2)).map (fun j =>
    (if 2 * j + 1 < len then vals.getD (2 * j + 1) 0 else 0) ++ vals.getD (2 * j) 0)

/-- The bellwether of entry e's port was bad in this muster, and the entry has BW = 1 (R754). -/
def State.entBwbad (s : State) (l e : Nat) : Bool :=
  s.entBw l e && decide (tget .none (s.ml l).bells (s.entPort l e) = .bad)

/-- E0 of entry e (Table 14-4). -/
def State.entE0 (s : State) (l e : Nat) : Word :=
  let x := s.ent l e
  let b (i : Nat) (v : Bool) : Nat := if v then 2 ^ i else 0
  BitVec.ofNat 32 (x.status + b 8 (x.status != 0) + b 9 x.retried + b 10 (s.entBwbad l e) + b 11 x.ahead + b 12 x.disc
    + 65536 * (s.entLen l e - 1))

/-- A timebase value as signed CORE cycles after T0 of list l; 0 when the entry did not start. -/
def State.entOffset (s : State) (l : Nat) (x : Ent) (t : Nat) : Word :=
  if x.started then BitVec.ofInt 32 ((t : Int) - ((s.ml l).t0 : Int)) else 0

/-- An entry's record in the back buffer as the entry finishes: E0, E2, E3, and E1 and the values of a fresh one (R766
step 2). -/
def State.entRecord (s : State) (l e : Nat) : State :=
  let x := s.ent l e
  let a := s.back l + 4 * s.entOff l e
  let s := ((s.foldWr l a (s.entE0 l e)).foldWr l (a + 8) (s.entOffset l x x.t0)).foldWr l (a + 12) (s.entOffset l x x.t1)
  if x.status = 0 then
    (s.foldWr l (a + 4) (BitVec.ofNat 32 (s.ml l).num)).foldWrs l (a + 16) (packVals (s.entLen l e) x.vals)
  else s

/-! ### Entry status and penning -/

/-- PERMN of MBM.CTRL; 0 acts as 1. -/
def State.mbmPermn (s : State) : Nat := max 1 (s.fld Reg.MBM_CTRL 0 4)

/-- EVT bit b of the engine with an interrupt source, where IEN enables it (Table 14-7). -/
def State.mbmEvt (s : State) (b src : Nat) : State :=
  let s := s.setBit Reg.MBM_EVT b true
  if s.bit Reg.MBM_IEN b then s.source src else s

/-- Entry e is penned. -/
def State.entPenned (s : State) (l e : Nat) : Bool := s.bit (Reg.MBM_ENTSTAT l e) 12

/-- Entry e is penned with a reason: ENTRY_PENNED (R793). -/
def State.entPen (s : State) (l e reason : Nat) : State :=
  let a := Reg.MBM_ENTSTAT l e
  let s := ((s.setBit a 12 true).setFld a 16 8 reason).mbmEvt 8 38
  s.event evENTRY_PENNED l (BitVec.ofNat 32 (e + 256 * reason))

/-- The statuses whose attempt is retried (Table 14-5, column "Yes"). -/
def retryable (st : Nat) : Bool := decide (1 ≤ st) && decide (st ≤ 6)

/-- Counts and classifies an entry's end in a muster (R790, R791, R793, R795). -/
def State.entClassify (s : State) (l e st : Nat) (retried : Bool) : State :=
  let a := Reg.MBM_ENTSTAT l e
  if st = 0 then
    (if retried then s.tally (Reg.MBM_ENTTALLY l e) else s).setFld a 8 4 0
  else if retryable st && retried then
    let s := s.tallyHi (Reg.MBM_ENTTALLY l e)
    let c := min 15 (s.fld a 8 4 + 1)
    let s := s.setFld a 8 4 c
    if s.mbmPermn ≤ c && !s.entPenned l e then s.entPen l e st else s
  else s

/-- Entry e finishes with a status: shown, classified, and recorded where its muster runs (R766, R791). -/
def State.entFinish (s : State) (l e st : Nat) (retried : Bool) : State :=
  let s := s.setEnt l e { s.ent l e with ph := .finished, status := st, retried := retried }
  let s := (s.setFld (Reg.MBM_ENTSTAT l e) 0 8 st).entClassify l e st retried
  if s.listRunning l then s.entRecord l e else s

/-! ### Attempts -/

/-- Port p is free again. -/
def State.portFree (s : State) (p : Nat) : State :=
  let x := s.port p
  s.setPort p { x with use := .none, got := none, conv := false, ended := if x.use = .none then x.ended else some s.clk.tb.toNat }

/-- A kick that entry e's attempt set and that the program has not taken is withdrawn (R886). -/
def State.kickDrop (s : State) (l e : Nat) : State :=
  let p := s.entPort l e
  if isSe p && s.seMode l e == 2 then s.setBit (Reg.SE_STAT (p - 0x20)) seK false else s

/-- The newest result of the channel of a NOWAIT entry, where its TFIRST lies at or after T0 and no earlier attempt of the
entry delivered it (R886); else NODATA. -/
def State.seNewest (s : State) (l e : Nat) : SeRes :=
  let n := s.entPort l e - 0x20
  let c := s.seAddr l e
  let cs := s.rd (Reg.SE_CHSTAT n c)
  let k := s.seCh n c
  let cnt := W.fld cs 16 16
  if cnt != 0 && decide ((s.ml l).t0 ≤ k.rfirst) && !(s.ent l e).ahead && (s.ent l e).seen != some cnt then
    ⟨W.fld cs 0 8, (List.range (W.fld cs 8 5)).map (fun i => (s.rd (Reg.SE_CHDATA n c i)).setWidth 16), k.rfirst, k.rlast⟩
  else ⟨6, [], 0, 0⟩

/-- REG of entry e (Table 14-1). -/
def State.entReg (s : State) (l e : Nat) : Nat := W.fld (s.entW l e 2) 0 8

/-- The transactions of entry e of list l on its two-wire port in their order (R804, R809, R810); while the CONV wait of a CMDRD
is in hand, its command alone has gone out, and the rest follow. -/
def State.entTxs (s : State) (l e : Nat) : List TwTx :=
  entryTxs (s.entXarg l e) (s.entAddr l e) (s.entReg l e) (s.entLen l e)

/-- Words of the frame of a DDR serial entry (R836). -/
def dsNw (ws len : Nat) : Nat := if 16 < ws then len / 2 else len

/-- The low `ws` bits of a word, sign- or zero-extended to 32 bits. -/
def extendWs (ws : Nat) (sext : Bool) (w : Word) : Word :=
  let v := w &&& W.mask 0 ws
  if sext && W.bit v (ws - 1) then v ||| ~~~ W.mask 0 ws else v

/-- The value words that a DDR serial frame's words give (R836). -/
def dsValues (prof x : Word) (ws : List Word) : List Half :=
  let n := profWs prof
  if n ≤ 16 then ws.map (fun w => (extendWs n (W.bit x 2) w).setWidth 16)
  else
    ws.flatMap (fun w =>
      let v := extendWs n (W.bit x 2) w
      let lo : Half := v.setWidth 16
      let hi : Half := (v >>> 16).setWidth 16
      if W.bit x 3 then [hi, lo] else [lo, hi])

/-- A DDR frame of NW words under a profile may start: NW × WS is a multiple of 2 × LANES (R834). -/
def ddrFits (prof : Word) (nw : Nat) : Bool := !W.bit prof 2 || decide (nw * profWs prof % (2 * profLanes prof) = 0)

/-- The checks of a DDR serial entry against its profile (R837). -/
def dsEntryOk (prof x : Word) (len : Nat) : Bool :=
  W.fld x 4 4 == 0 && !(decide (16 < profWs prof) && len % 2 == 1)
    && decide (W.fld x 8 24 < 2 ^ profAddrBits prof)

/-- The profile that a DDR serial entry names. -/
def State.entProf (s : State) (l e : Nat) : Word :=
  s.rd (Reg.DS_PROF (s.entPort l e - 0x10) (W.fld (s.entXarg l e) 0 2))

/-- An attempt on a DDR serial port drives no line and ends with FRAME (R834, R837). -/
def State.dsRefused (s : State) (l e : Nat) : Bool :=
  let pr := s.entProf l e
  isDs (s.entPort l e) &&
    (!dsEntryOk pr (s.entXarg l e) (s.entLen l e) || !ddrFits pr (dsNw (profWs pr) (s.entLen l e)))

/-! ### Frames of the DDR serial ports -/

/-- HDIV of port d as it acts on a frame: below 5 as 5, and 5 as 6 without DDR (R828). -/
def State.dsHdiv (s : State) (d : Nat) (ddr : Bool) : Nat := max (if ddr then 5 else 6) (s.fld (Reg.DS_CFG d) 12 9)

/-- The selects that the bellwether frame of DDR serial port p asserts together: those of list l's BW = 1 entries (R838). -/
def State.dsBellSelects (s : State) (l p : Nat) : List Nat :=
  (List.range 4).filter (fun c => (List.range (s.nent l)).any (fun e => s.entBw l e && s.entPort l e == p && s.entAddr l e == c))

/-- The frame that DDR serial port p sends: an entry's, with REG as its command and ADDRV as its address (R835, R836); the
bellwether's, BWCMD alone on D0 in SDR, in the mode of profile 0 (R838; DESIGN CHOICE, log entry 164); a software frame's (R839); an
identity check's, IDREG as its command and a zero address (Table 17-2; DESIGN CHOICE: no rule names the address, log entry 120). -/
def State.dsFrame (s : State) (p : Nat) : Option DsFrame :=
  let d := p - 0x10
  let tim := s.rd (Reg.DS_TIM d)
  if !isDs p then none
  else match s.use p with
  | .entry l e _ =>
    let x := s.entXarg l e
    let pr := s.entProf l e
    some (dsFrameOf pr tim (s.entAddr l e) (BitVec.ofNat 32 (s.entReg l e)) (x >>> 8) false (dsNw (profWs pr) (s.entLen l e)) [])
  | .bell l =>
    let pr := (s.rd (Reg.DS_PROF d 0) &&& 8) ||| 0x20
    some { dsFrameOf pr tim 0 (s.rd (Reg.DS_CFG d) >>> 2) 0 false 0 [] with selects := s.dsBellSelects l p }
  | .sw =>
    let ctl := s.rd (Reg.DS_SWCTL d)
    let nw := min 16 (W.fld ctl 8 5)
    some (dsFrameOf (s.rd (Reg.DS_PROF d (W.fld ctl 0 2))) tim (W.fld ctl 2 2) (s.rd (Reg.DS_SWCMD d)) (s.rd (Reg.DS_SWADDR d)) (W.bit ctl 4)
      nw ((List.range nw).map (fun i => s.rd (Reg.DS_SWDATA d i))))
  | .ident n =>
    let w := s.rd (Reg.PPW_IDCFG n)
    if (s.ppc n).idBad then none
    else some (dsFrameOf (s.rd (Reg.DS_PROF d (W.fld w 26 2))) tim (W.fld w 28 2) (BitVec.ofNat 32 (W.fld w 16 8)) 0 false 1 [])
  | _ => none

/-- A frame of DDR serial port p begins: its select is asserted now, or CSIDLE cycles of DSCLK after the frame before (R829). -/
def State.dsTake (s : State) (p : Nat) : State :=
  match s.dsFrame p with
  | none => s
  | some f =>
    let x := s.port p
    let gap := (s.fld (Reg.DS_TIM (p - 0x10)) 8 6 + 1) * s.dsHdiv (p - 0x10) (profDdr f.prof)
    s.setPort p { x with began := match x.ended with
      | some t => max s.clk.tb.toNat (s.clk.reach 1 t (t + gap))
      | none => s.clk.tb.toNat }

/-- The half-period of the frame that port p sends now: HDIV cycles of HRT are one (R828, R829); none before its select. -/
def State.dsHalf (s : State) (p : Nat) (f : DsFrame) : Option Nat :=
  let b := (s.port p).began
  if s.clk.tb.toNat < b then none else some (2 * s.clk.ran b / s.dsHdiv (p - 0x10) (profDdr f.prof))

/-- The port begins an attempt of entry e (R756, R790, R854, R886). -/
def State.entAttempt (s : State) (l e : Nat) (ph : EntPhase) : State :=
  let p := s.entPort l e
  let s := s.setEnt l e { s.ent l e with ph := ph, started := !isSe p, tried := true, t0 := s.clk.tb.toNat, t1 := s.clk.tb.toNat }
  let y := s.port p
  let s := s.setPort p { y with use := .entry l e false, got := none, called := false
                                ended := if y.use = .none then y.ended else some s.clk.tb.toNat }
  if isTw p then
    let x := s.entXarg l e
    let s := s.setPort p { s.port p with conv := W.fld x 0 2 == 3 && W.fld x 24 8 != 0 }
    (s.twTake p).lineStart p
  else if isDs p then
    let s := s.dsTake p
    s.setEnt l e { s.ent l e with t0 := (s.port p).began, t1 := (s.port p).began }
  else if isSe p then
    match s.seMode l e with
    | 1 => s.setPort p { s.port p with got := some (s.seNewest l e) }
    | 2 =>
      let n := p - 0x20
      let s := s.setEng n { s.eng n with karg := W.fld (s.entXarg l e) 8 8 + 256 * s.seAddr l e }
      s.setBit (Reg.SE_STAT n) seK true
    | _ => s
  else s

/-- Entry e starts on its port (R756). An attempt that R837 turns away, and its retry, end at once. -/
def State.entStart (s : State) (l e : Nat) : State :=
  if s.dsRefused l e then
    (s.setEnt l e { s.ent l e with started := false, tried := true }).entFinish l e 4 true
  else s.entAttempt l e (if (s.ent l e).ph = .again then .second else .first)

/-- LISTl_DEADLINE as it acts, in µs: 0 and a value above the period act as the period, 0 with no period as 10 000 000 (R781). -/
def State.listDeadline (s : State) (l : Nat) : Nat :=
  let d := s.fld (Reg.MBM_LIST_DEADLINE l) 0 24
  let p := s.fld (Reg.MBM_LIST_PERIOD l) 0 24
  if p = 0 then (if d = 0 then 10000000 else d) else if d = 0 ∨ p < d then p else d

/-- The timebase value `ticks` µs after `from_`, where no stop of the clocks lengthens the interval (R1000). -/
def State.ticksFrom (s : State) (from_ ticks : Nat) : Nat := s.clk.reach 400 from_ (from_ + 400 * ticks)

/-- T0 + DEADLINE of the running muster of list l lies `more` CORE cycles or more in the past (R759). -/
def State.deadlineAt (s : State) (l more : Nat) : Bool :=
  decide (s.ticksFrom (s.ml l).t0 (s.listDeadline l) + more ≤ s.clk.tb.toNat)

/-- The attempt of entry e in progress ends with a status and values (R790, R791). A first attempt that failed is retried at
once, where the deadline has not passed (R792), but not one of an entry that PEN has penned meanwhile (R794); on a two-wire port it
waits for the bus where `wait`. A discarded attempt only
frees its port (R759, R764). -/
def State.entEnd (s : State) (l e st : Nat) (vals : List Half) (wait : Bool) : State :=
  let p := s.entPort l e
  match s.use p with
  | .entry l' e' disc =>
    if l' ≠ l || e' ≠ e then s
    else if disc then s.portFree p
    else
      let x := s.ent l e
      let s := s.setEnt l e { x with t1 := if x.started && !isSe p then s.clk.tb.toNat else x.t1, status := st, vals := vals }
      if st = 0 then (s.portFree p).entFinish l e 0 (x.ph = .second)
      else if x.ph = .first && s.entPenned l e then (s.portFree p).entFinish l e 8 false
      else if x.ph = .first && !(s.listRunning l && s.deadlineAt l 0) then
        if wait then (s.portFree p).setEnt l e { s.ent l e with ph := .again } else s.entAttempt l e .second
      else (s.portFree p).entFinish l e st (x.ph = .second)
  | _ => s

/-- TMO of entry e has passed `more` CORE cycles ago or earlier since its attempt began; a TMO of 0 sets no limit (Table 14-1). -/
def State.tmoGone (s : State) (l e more : Nat) : Bool :=
  let t := W.fld (s.entW l e 1) 16 16
  t != 0 && decide (s.ticksFrom (s.ent l e).t0 t + more ≤ s.clk.tb.toNat)

/-- The attempt of entry e on its port ends with TIMEOUT (R814, R886). -/
def State.attemptTimeout (s : State) (l e : Nat) : State :=
  ((s.kickDrop l e).setEnt l e { s.ent l e with started := (s.ent l e).started && !isSe (s.entPort l e) }).entEnd l e 2 [] false

/-! ### A muster starts, is cut, is cancelled -/

/-- Folds over the entries of list l in ascending order. -/
def State.forEnts (s : State) (l : Nat) (f : Nat → State → State) : State :=
  (List.range (s.nent l)).foldl (fun s e => f e s) s

/-- PERI cycles of the bellwether sequence of port p before its defining edge (R752, R753, Table 14-2): on a two-wire port
START hold, 17 clocks and a low phase at the present rate; on a DDR serial port CSS, eight clocks and CSH; BWLEN on a
stencil port (R891). -/
def State.bellLen (s : State) (p : Nat) : Nat :=
  if isTw p then
    let c := (s.port p).cur
    (twClass c).hold + 17 * (sclLow c + sclHigh c) + sclLow c
  else if isDs p then
    let d := p - 0x10
    let t := s.rd (Reg.DS_TIM d)
    (s.dsHdiv d false * (W.fld t 0 4 + 1 + 16 + W.fld t 4 4 + 1) + 7) / 8
  else s.fld (Reg.SE_CFG2 (p - 0x20)) 0 24

/-- The bellwether of a two-wire port: a general call with BWCODE (Table 14-2). -/
def State.bellTx (s : State) : TwTx := { addr := 0, wr := some [(s.rd Reg.MBM_CTRL >>> 16).setWidth 8] }

/-- Entry e cannot be read in this muster: the status that says so (R785, R794, R858, R860, R919). -/
def State.entBlocked (s : State) (l e : Nat) : Option Nat :=
  let p := s.entPort l e
  if s.entPenned l e then some 8
  else if s.portPenned p then some 9
  else if s.portQuar p || (s.port p).cycling then some 10
  else none

/-- Entry e takes its place in a new muster: a run-ahead attempt or result belongs to it (R761), another entry waits, or is
finished where it cannot be read. -/
def State.entBegin (s : State) (l e : Nat) : State :=
  let x := s.ent l e
  if x.ahead then (if x.ph = .finished then s.entRecord l e else s)
  else
    let s := s.setEnt l e { disc := x.disc, seen := x.seen, ph := .waiting }
    match s.entBlocked l e with
    | some st => s.entFinish l e st false
    | none => s

/-- Port p takes part in the bellwether of list l (R752). -/
def State.takesPart (s : State) (l p : Nat) : Bool :=
  (List.range (s.nent l)).any (fun e => s.entBw l e && s.entPort l e == p)

/-- The PERI edge at which a trigger of this CORE cycle takes effect (R36, R751). -/
def State.periEdge (s : State) : Nat := s.clk.tb.toNat + (4 - s.clk.tickPhase % 4) % 4

/-- The completion of the MUSTERSTART that started list l is held: the period and the records of the list wait for it; one that was
refused has no effect (R243, R276, R748). -/
def State.startHeld (s : State) (l : Nat) : Bool :=
  s.mbm.last == some l && s.hif.cplHeld.any (fun c => c.opcode == 0x21 && c.status == 0)

/-- The drover may write a record for this copy: the ring is enabled with the list's SRC, and the device may write (R773). -/
def State.copyOpen (s : State) (c : Copy) : Bool := s.recOpen c.ring && s.fld (Reg.HIF_REC_CFG c.ring) 8 4 == c.list + 1

/-- The drover begins the first copy of its queue where none is begun (R194, R773, R774). -/
def State.droverBegin (s : State) : State :=
  match s.mbm.copies with
  | c :: _ =>
    if s.runs gMBM && !s.mbm.begun && !s.startHeld c.list && s.copyOpen c then
      ({ s with mbm := { s.mbm with begun := true } }).recBegin c.ring
    else s
  | [] => s

/-- A muster of list l starts at T0 (R750, R751, R753, R766 step 1, R775). -/
def State.musterStart (s : State) (l t0 : Nat) (by_ : MusterBy) : State :=
  let x := s.ml l
  let parts := portIds.filter (fun p => s.takesPart l p)
  let len := parts.foldl (fun m p => max m (s.bellLen p)) 0
  let bwt := if parts.isEmpty then 0 else t0 + 4 * len
  let bells := parts.foldl (fun t p =>
    tset Bell.none t p (if s.portPenned p || s.portQuar p || (s.port p).cycling then .bad else .waiting)) []
  let b := s.back l
  let stale (c : Copy) : Bool := c.list == l && c.addr == b
  let drop := s.mbm.copies.filter stale
  let s := repeatN drop.length (fun s => s.tally (Reg.MBM_LIST_DROPTALLY l)) (s.copiesDrop stale).droverBegin
  let num := if x.num = 0xFFFFFFFF then 1 else x.num + 1
  let s := s.setMl l { s.ml l with num := num, t0 := t0, bwt := bwt, by_ := by_, at_ := s.clk.tb.toNat, late := false
                                   cut := false, bells := bells }
  let s := (s.setRunning l true).setPhase l (if bells.any (fun e => e.2 == .waiting) then 1 else 2)
  (s.foldWr l (b + 4) 0).forEnts l (fun e s => s.entBegin l e)

/-- A trigger of list l at T0 (R747, R749); once MUSTERSTOP has been accepted it starts none, and one that finds a muster running
counts all the same (R281). One that falls together with the trigger of the running muster is that muster's
(`same`: R280, R783). -/
def State.musterTrigger (s : State) (l t0 : Nat) (by_ : MusterBy) (same : Bool) : State :=
  if !s.runs gMBM || !s.listActive l then s
  else if s.listRunning l then (if same then s else s.tally (Reg.MBM_LIST_SKIPTALLY l))
  else if (s.ml l).stopping then s
  else s.musterStart l t0 by_

/-- The port is released by an attempt whose result is discarded: a two-wire or DDR serial transaction completes on the
wire; a stencil attempt ends, with its kick withdrawn (R759, R764, R886). -/
def State.entDiscard (s : State) (l e : Nat) : State :=
  let p := s.entPort l e
  let s := s.setEnt l e { s.ent l e with disc := (s.ent l e).disc || !isSe p || (s.seMode l e == 2 && !s.bit (Reg.SE_STAT (p - 0x20)) seK) }
  if isSe p then (s.kickDrop l e).portFree p else s.setUse p (.entry l e true)

/-- The entry is in an attempt. -/
def EntPhase.onWire (p : EntPhase) : Bool := decide (p = .first) || decide (p = .second)

/-- R759, R792: the deadline ends the read phase for entry e. -/
def State.entCut (s : State) (l e : Nat) : State :=
  let x := s.ent l e
  match x.ph with
  | .waiting => s.entFinish l e 7 false
  | .again => s.entFinish l e x.status false
  | .first =>
    let s := s.entDiscard l e
    (s.setEnt l e { s.ent l e with t1 := s.clk.tb.toNat }).entFinish l e 7 false
  | .second =>
    let s := s.entDiscard l e
    (s.setEnt l e { s.ent l e with t1 := s.clk.tb.toNat }).entFinish l e 7 true
  | _ => s

/-- A run-ahead attempt or result of entry e is discarded; DISCARDED follows where its attempt took place on the wire (R764). -/
def State.aheadDrop (s : State) (l e : Nat) : State :=
  let x := s.ent l e
  if !x.ahead then s
  else
    let s := if x.ph.onWire then s.entDiscard l e else s.setEnt l e { x with disc := x.disc || x.started }
    s.setEnt l e { disc := (s.ent l e).disc, seen := x.seen }

/-- Entry e in a cancelled muster: a transaction in progress is discarded, and so is a value read in it (R763, R764). -/
def State.entCancel (s : State) (l e : Nat) : State :=
  let x := s.ent l e
  let s := if x.ph.onWire then s.entDiscard l e
    else if x.ph = .finished && x.status == 0 then s.setEnt l e { x with disc := true }
    else s
  s.setEnt l e { disc := (s.ent l e).disc, seen := x.seen }

/-- The running muster of list l is cancelled: no commit, no record, its number stays used (R763). -/
def State.musterCancel (s : State) (l : Nat) : State :=
  if !s.listRunning l then s
  else
    let s := s.forEnts l (fun e s => s.entCancel l e)
    let s := (s.setRunning l false).setPhase l 0
    (s.setMl l { s.ml l with bells := [] }).tally (Reg.MBM_LIST_CANCTALLY l)

/-- Pending run-ahead results of list l are discarded (R764). -/
def State.aheadsDrop (s : State) (l : Nat) : State :=
  if s.listRunning l then s else s.forEnts l (fun e s => s.aheadDrop l e)

/-- The ledger's total (R270). -/
def State.ledger (s : State) : Nat := s.fld Reg.XLT_LEDGER 0 16

/-- List l is active no more: its booking is released (R264). -/
def State.listEnd (s : State) (l : Nat) : State :=
  let s := s.setFld Reg.XLT_LEDGER 0 16 (s.ledger - s.fld (Reg.MBM_LIST_BOOK l) 0 16)
  let s := (s.wr (Reg.MBM_LIST_BOOK l) 0).setActive l false
  s.setMl l { s.ml l with stopping := false, next := 0, tokens := [] }

/-- MUSTERSTOP of list l ends with a status: RESULT0 is the last committed muster number (Table 5-2). -/
def State.stopDone (s : State) (l status : Nat) : State :=
  let s := s.listEnd l
  if s.cmdWaits 0x22 l then s.finish status (s.rd (Reg.MBM_LIST_NUM l)) 0 else s

/-- A MUSTERSTOP without CANCEL ends once no muster runs and the list's last record has been delivered (R276). -/
def State.stopCheck (s : State) (l : Nat) : State :=
  if (s.ml l).stopping && !s.listRunning l && !s.mbm.copies.any (fun c => c.list == l) then s.stopDone l 0 else s

/-- The instant at which a schedule whose next T0 was `next` and whose period is `p` goes on at the return to RUN: after a root loss
at the first period boundary that lies at least one period after the return (R786); else the TICKs that were left at the stop run
on from the return (R1000). A boundary of R786 keeps the schedule's old phase, so that it can lie off the edges of the TICK that is
released afresh (DESIGN CHOICE, log entry 139). -/
def Clk.nextAfter (c : Clk) (next p : Nat) : Nat :=
  if c.wasLost then
    let t := c.tb.toNat + p
    t + (next + p - t % p) % p
  else c.tb.toNat + 400 * ((next - c.stopTb + 399) / 400)

/-- The return to RUN: the schedule of every active list goes on (R786, R1000). -/
def State.mbmReturn (s : State) : State :=
  forN 4 (fun l s =>
    let p := 400 * s.fld (Reg.MBM_LIST_PERIOD l) 0 24
    let x := s.ml l
    if s.listActive l && p != 0 && x.next != 0 then s.setMl l { x with next := s.clk.nextAfter x.next p } else s) s

/-- Root loss cancels the running musters; the lists stay active (R786). -/
def State.mbmRootLost (s : State) : State :=
  forN 4 (fun l s => if s.listActive l then ((s.musterCancel l).aheadsDrop l).stopCheck l else s) s

/-! ### Which entry a port takes next -/

/-- BWT of the running muster of list l as its ports meet it: the PERI cycles from T0 to it stand with the clocks (R753, R1000). -/
def State.bwtNow (s : State) (l : Nat) : Nat := s.clk.reach 4 (s.ml l).t0 (s.ml l).bwt

/-- Entries of other running musters that port p takes before those of list l: musters of an earlier T0, then of a lower list
number (R757). -/
def State.othersFirst (s : State) (l p : Nat) : Bool :=
  (List.range 4).any (fun m => s.listRunning m &&
    (decide ((s.ml m).t0 < (s.ml l).t0) || (decide ((s.ml m).t0 = (s.ml l).t0) && decide (m < l))) &&
    (List.range (s.nent m)).any (fun e => s.entPort m e == p && decide ((s.ent m e).ph ≠ .finished)))

/-- Entry e is next on its port: every earlier entry of the list on the port is finished (R756). -/
def State.entNext (s : State) (l e : Nat) : Bool :=
  (List.range e).all (fun i => s.entPort l i != s.entPort l e || decide ((s.ent l i).ph = .finished))

/-- An entry of list l may start now: T0 has come and the deadline has not; a BW = 1 entry waits for BWT + WAIT (R756, R759,
R762). -/
def State.entMay (s : State) (l e : Nat) : Bool :=
  decide ((s.ml l).t0 ≤ s.clk.tb.toNat) && !s.deadlineAt l 0 &&
    (!s.entBw l e || decide (s.ticksFrom (s.bwtNow l) (W.fld (s.entW l e 1) 0 12) ≤ s.clk.tb.toNat))

/-- The bellwether has still to be sent or to end. -/
def Bell.open (b : Bell) : Bool := b == .waiting || b == .running || b == .late

/-- An entry of a running muster is due on port p: it starts as soon as the port is free, before what waits there for an
identification or a software transaction (R855). -/
def State.entDue (s : State) (p : Nat) : Bool :=
  (List.range 4).any (fun l => s.listRunning l && !(tget Bell.none (s.ml l).bells p).open && (List.range (s.nent l)).any (fun e =>
    s.entPort l e == p && (decide ((s.ent l e).ph = .waiting) || decide ((s.ent l e).ph = .again)) && s.entMay l e && s.entNext l e &&
      !s.othersFirst l p))

end Sys2Proof.Machine
end

