-- ==== Sys2Proof/Machine/PortOps.lean ====
section
/-!
DEFINITION. Chapters 15 and 17, what happens to a sensor port as a whole: its transaction ends, it is penned, quarantined,
released or admitted; line errors and the clock rate of a two-wire port; power cycles; port-power channels.
-/
namespace Sys2Proof.Machine

/-! ### Ending what a port does -/

/-- The software transaction or frame of port p ends with a SWSTAT code: GO reads 0, SWDONE is set (R816, R839). -/
def State.swEnd (s : State) (p code : Nat) : State :=
  if isTw p then ((s.setBit (Reg.TW_SWCTL p) 31 false).wr (Reg.TW_SWSTAT p) (BitVec.ofNat 32 code)).twEvt p 5
  else if isDs p then
    let d := p - 0x10
    ((s.setBit (Reg.DS_SWCTL d) 31 false).wr (Reg.DS_SWSTAT d) (BitVec.ofNat 32 code)).dsEvt d 3
  else s

/-- The bellwether of port p in list l is bad: the entries that have finished carry BWBAD too (R754). -/
def State.bellMark (s : State) (l p : Nat) : State :=
  s.forEnts l (fun e s =>
    if s.entPort l e = p ∧ s.entBw l e ∧ (s.ent l e).ph = .finished then s.foldWr l (s.back l + 4 * s.entOff l e) (s.entE0 l e) else s)

/-- The bellwether of port p in list l has ended, good or bad; the read phase follows the last one (R754, R756). -/
def State.bellEnd (s : State) (l p : Nat) (good : Bool) : State :=
  let x := s.ml l
  let bells := tset Bell.none x.bells p (if good then .good else .bad)
  let s := s.setMl l { x with bells := bells }
  let s := if good then s else s.bellMark l p
  if s.listPhase l = 1 && !bells.any (fun e => e.2.open) then s.setPhase l 2 else s

/-- Bellwethers of running musters that port p has still to send or to end are bad. -/
def State.bellsBad (s : State) (p : Nat) : State :=
  forN 4 (fun l s =>
    if s.listRunning l && (tget Bell.none (s.ml l).bells p).open then s.bellEnd l p false else s) s

/-- Entry e of list l on port p ends with a status that the port's state gives (R785, R858, R860, R919), its last edge now
where it was on the wire (R758); a run-ahead attempt keeps it for its muster. -/
def State.entStop (s : State) (l e st : Nat) : State :=
  let x := s.ent l e
  if (if s.listRunning l then decide (x.ph = .waiting) else x.ahead) || x.ph = .again || x.ph.onWire then
    let t := if x.ph.onWire && x.started then s.clk.tb.toNat else x.t1
    ((s.setEnt l e { x with t1 := t }).kickDrop l e).entFinish l e st (x.ph = .second)
  else s

/-- Every entry of a list that names port p and is not finished ends with a status. -/
def State.entsStop (s : State) (p st : Nat) : State :=
  forN 4 (fun l s => s.forEnts l (fun e s => if s.entPort l e = p then s.entStop l e st else s)) s

/-- Port p ends its transaction at once and releases its lines; its software transaction ends with `sw` (R853). An
identification ends without a call (R852). -/
def State.portQuiet (s : State) (p sw : Nat) : State :=
  let s := match s.use p with
    | .proof => s
    | _ => s.portFree p
  let s := if isTw p then s.setBit (Reg.TW_CRK p) 8 false else s
  if s.swBusy p then s.swEnd p sw else s

/-- SWSTAT code PENNED of port p's kind. -/
def swPenned (p : Nat) : Nat := if isTw p then 5 else 2

/-- Port p leaves service: its transaction ends, its bellwethers are bad, its entries end with a status (R853, R919). -/
def State.portStop (s : State) (p st : Nat) : State :=
  let s := ((s.portQuiet p (swPenned p)).bellsBad p).entsStop p st
  if isSe p then s.seHold (p - 0x20) else s

/-- Port p is penned with a reason: PORT_PENNED and EVT.PEN (R860, R941). -/
def State.portPen (s : State) (p reason : Nat) : State :=
  let s := s.setPort p { s.port p with cycling := false }
  let s := (s.setReason p reason).portStop p 9
  let s := if isTw p then (s.setBit (Reg.TW_PSTAT p) 9 false).twEvt p 0 else if isDs p then s.dsEvt (p - 0x10) 0 else s
  s.event evPORT_PENNED p (BitVec.ofNat 32 reason)

/-! ### The clock of a two-wire port -/

/-- RATE, the slowest code that adaptation may take, and FIXED of port p, as they are in force (R848, R866). -/
def State.twRate (s : State) (p : Nat) : Nat := rateOf (s.port p).rateIn
def State.twFloor (s : State) (p : Nat) : Nat := floorOf (s.port p).rateIn
def State.twFixed (s : State) (p : Nat) : Bool := W.bit (s.port p).rateIn 7

/-- Nominal SCL rate in kHz of a code (Table 15-2). -/
def twKhz (c : Nat) : Nat := [1000, 800, 400, 250, 100, 50, 20].getD c 20

/-- A RATE write: it takes effect at the port's next start (R848). -/
def State.twRateWrite (s : State) (p : Nat) (val : Word) : State := s.wr (Reg.TW_RATE p) (val &&& 0xF7)

/-- A line error of port p (R863, R864, R867). -/
def State.twLineError (s : State) (p : Nat) : State :=
  let s := s.tally (Reg.TW_LINETALLY p)
  let x := s.port p
  let k := max 1 (W.fld x.adaptIn 0 8)
  if x.errs + 1 < k then s.setPort p { x with errs := x.errs + 1 }
  else if !s.twFixed p && x.rate < s.twFloor p then s.setPort p { x with rate := x.rate + 1, errs := 0, clean := 0 }
  else
    let s := s.setPort p { x with errs := x.errs + 1 }
    if s.bit (Reg.TW_PSTAT p) 8 then s
    else ((s.setBit (Reg.TW_PSTAT p) 8 true).twEvt p 2).event evPORT_DEGRADED p (BitVec.ofNat 32 (twKhz x.rate))

/-- CONSEC of a two-wire port. -/
def State.twConsec (s : State) (p : Nat) : Nat := s.fld (Reg.TW_PSTAT p) 12 4

/-- PERMN of TW.CTRL; 0 acts as 1. -/
def State.twPermn (s : State) : Nat := max 1 (s.fld Reg.TW_CTRL 0 4)

/-! ### Channels and their ports -/

/-- The ports that channel n binds. -/
def State.boundPorts (s : State) (n : Nat) : List Nat := portIds.filter (fun p => s.binds n p)

/-- Every bound port of channel n is quarantined (R919). -/
def State.quarBegin (s : State) (n : Nat) : State :=
  (s.boundPorts n).foldl (fun s p => s.portStop p (if s.portPenned p then 9 else 10)) s

/-- The bound ports of channel n leave quarantine: held engines restart (R914). -/
def State.quarEnd (s : State) (n : Nat) : State :=
  (s.boundPorts n).foldl (fun s p => if isSe p then s.seUnhold (p - 0x20) else s) s

/-- The running command is PORTPROOF of port p, and it waits for the port (R950). -/
def State.proofWaits (s : State) (p : Nat) : Bool :=
  match s.hif.cmd with
  | some c => c.started && W.fld (c.words.getD 0 0) 0 8 == 0x32 && W.fld (c.words.getD 1 0) 8 8 == p && c.stage == 1
  | none => false

/-- Port p is proved: its engine is HELD (R949). -/
def State.portProofStart (s : State) (p : Nat) : State :=
  let s := s.setUse p .proof
  if isSe p then s.seHold (p - 0x20) else s

/-- The identity transaction of channel n ends on its port; a proof that waited for it starts (R950). -/
def State.identFree (s : State) (n : Nat) : State :=
  let p := s.fld (Reg.PPW_IDCFG n) 0 8
  if s.use p = .ident n then
    let s := s.portFree p
    if s.proofWaits p then s.portProofStart p else s
  else s

/-- Channel n enters a state; quarantine of its ports begins or ends with SERVICE (R919), and an identity transaction ends
with IDCHECK. -/
def State.ppEnter (s : State) (n st : Nat) : State :=
  let old := s.pst n
  let s := if old = ppIDCHECK && st != ppIDCHECK then s.identFree n else s
  let s := s.setFld (Reg.PPW_STAT n) 0 4 st
  if old = ppSERVICE && st != ppSERVICE then s.quarBegin n
  else if old != ppSERVICE && st == ppSERVICE then s.quarEnd n
  else s

/-- The switch of channel n, which ONMAP shows too; a switch-on starts inrush blanking, and a change the channel's times (R924). -/
def State.ppSwitch (s : State) (n : Nat) (on : Bool) : State :=
  let was := s.bit (Reg.PPW_STAT n) 17
  let s := (s.setBit (Reg.PPW_STAT n) 17 on).setBit Reg.PPW_ONMAP n on
  if on && was then s
  else
    let x := s.ppc n
    s.setPpc n { x with inrush := on, above := 0, trip := 0, since := if on || was then s.clk.slow else x.since }

/-- EVT bit b of channel n (0 WARN, 1 TRIP, 2 PRES, 3 PEN), with source 39 where IEN enables it. -/
def State.ppEvt (s : State) (n b : Nat) : State :=
  let s := s.setBit (Reg.PPW_EVT n) b true
  if s.bit (Reg.PPW_IEN n) b then s.source 39 else s

/-- CONSEC of channel n and PERMN of PPW.CTRL; 0 acts as 1. -/
def State.ppConsec (s : State) (n : Nat) : Nat := s.fld (Reg.PPW_STAT n) 4 4
def State.ppPermn (s : State) : Nat := max 1 (s.fld Reg.PPW_CTRL 0 4)

/-- The power cycle of a requesting port is not possible or has failed: it is penned by its line levels (Table 15-10 step 3,
R939). -/
def State.cycleFail (s : State) (p : Nat) : State :=
  if (s.port p).cycling then s.portPen p (if s.bit (Reg.TW_PSTAT p) 10 then 0x20 else 0x21) else s

/-- The power cycle of channel n is given up: each requesting port treats it as not possible (R939). -/
def State.cyclesFail (s : State) (n : Nat) : State :=
  let ps := (s.ppc n).cycle
  let s := s.setPpc n { s.ppc n with cycle := [] }
  ps.foldl (fun s p => s.cycleFail p) s

/-- Channel n is penned with a reason: its switch off, but with NEW (R942, Table 17-1). -/
def State.ppPen (s : State) (n reason : Nat) : State :=
  let s := if reason = 0x32 then s else s.ppSwitch n false
  let s := s.setPpc n { s.ppc n with episode := false, retry := false }
  let s := (s.setFld (Reg.PPW_STAT n) 8 8 reason).setBit Reg.PPW_PENMAP n true
  ((s.ppEnter n ppPENNED).ppEvt n 3).cyclesFail n

/-- A two-wire port at step 2 asks its channel for a power cycle (R937, R938): SERVICE goes to CYCLING with the switch off; a
cycle that has not switched on again serves it too; else no cycle is possible. -/
def State.powerCycle (s : State) (p : Nat) : State :=
  match s.chanOf p with
  | none => s.cycleFail p
  | some n =>
    if s.pst n = ppSERVICE || (s.pst n == ppCYCLING && !s.bit (Reg.PPW_STAT n) 17) then
      let s := s.setPpc n { s.ppc n with cycle := (s.ppc n).cycle.filter (· != p) ++ [p] }
      (s.ppSwitch n false).ppEnter n ppCYCLING
    else s.cycleFail p

/-- An identity transaction of channel n starts on IDPORT, unless that port is penned (R930); a DDR frame that R834 does not let start
fails. -/
def State.identStart (s : State) (n : Nat) : State :=
  let s := s.setPpc n { s.ppc n with idBad := false }
  let m := s.fld (Reg.PPW_CFG n) 4 2
  let p := s.fld (Reg.PPW_IDCFG n) 0 8
  if m < 2 || s.portPenned p then s
  else if s.use p = .none then
    let s := s.setUse p (.ident n)
    if isDs p && !ddrFits (s.rd (Reg.DS_PROF (p - 0x10) (s.fld (Reg.PPW_IDCFG n) 26 2))) 1 then s.setPpc n { s.ppc n with idBad := true }
    else (s.lineStart p).dsTake p
  else s

/-- ADMIT of port p (R862, R945): CLEAR, DEGRADED and CONSEC are cleared, the present rate is RATE, and the port returns to
service; a channel that waited for it starts its identity check. -/
def State.portAdmit (s : State) (p : Nat) : State :=
  let s := s.setReason p 0
  let s := if isTw p then
      let s := ((s.setBit (Reg.TW_PSTAT p) 8 false).setBit (Reg.TW_PSTAT p) 9 false).setFld (Reg.TW_PSTAT p) 12 4 0
      let r := s.rd (Reg.TW_RATE p)
      (s.setPort p { s.port p with rate := rateOf r, cur := rateOf r, rateIn := r }).setFld (Reg.TW_PSTAT p) 4 3 (rateOf r)
    else s.wr (Reg.PPW_PSIL_ID p) 0
  let s := if isSe p then s.seUnhold (p - 0x20) else s
  forN 8 (fun n s => if s.pst n = ppIDCHECK && s.fld (Reg.PPW_IDCFG n) 0 8 == p then s.identStart n else s) s

end Sys2Proof.Machine
end

