-- ==== Sys2Proof/Machine/PortPower.lean ====
section
/-!
DEFINITION. Chapter 17: the port-power channels PP0–PP7.
-/
namespace Sys2Proof.Machine

/-- CFGn of a channel: PRESEN, ADMODE, IDMODE. -/
def State.ppPresen (s : State) (n : Nat) : Bool := s.bit (Reg.PPW_CFG n) 0
def State.ppRule (s : State) (n : Nat) : Bool := s.bit (Reg.PPW_CFG n) 2
def State.ppIdmode (s : State) (n : Nat) : Nat := s.fld (Reg.PPW_CFG n) 4 2

/-- `ms` SLOW cycles have passed since the last change of channel n's switch; the times stand still outside RUN (R957). -/
def State.ppPast (s : State) (n ms : Nat) : Bool := decide ((s.ppc n).since + ms ≤ s.clk.slow)

/-- SETTLE, BACKOFF and HOLD of channel n, and OFFT of two-wire port p, in ms (Tables 15-12 and 17-6). -/
def State.ppSettleMs (s : State) (n : Nat) : Nat := min 1000 (max 1 (s.fld (Reg.PPW_TIM n) 16 10))
def State.ppBackoffMs (s : State) (n : Nat) : Nat := min 60000 (max 10 (s.fld (Reg.PPW_BACKOFF n) 0 16))
def State.ppHoldMs (s : State) : Nat := 1000 * min 60 (max 1 (s.fld Reg.PPW_CTRL 8 6))
def State.twOfft (s : State) (p : Nat) : Nat := max 10 (s.fld (Reg.TW_STUCK p) 16 16)

/-- Channel n switches on with inrush blanking and enters SETTLE (R926, R944). -/
def State.ppSettle (s : State) (n : Nat) : State := (s.ppSwitch n true).ppEnter n ppSETTLE

/-- The insertion sequence of a new sensor (R926). -/
def State.ppInsert (s : State) (n : Nat) : State :=
  (s.setPpc n { s.ppc n with idOk := false, idFailed := false, episode := false, retry := false }).ppSettle n

/-- The power cycle of channel n ends without a verdict: its ports leave CYCLING (removal, ON = 0). -/
def State.cyclesDrop (s : State) (n : Nat) : State :=
  let ps := (s.ppc n).cycle
  ps.foldl (fun s p => s.setPort p { s.port p with cycling := false }) (s.setPpc n { s.ppc n with cycle := [] })

/-- IDPORT of channel n is bound by it and of the kind of IDMODE, where IDMODE names a port (R952). -/
def State.ppIdportOk (s : State) (n : Nat) : Bool :=
  let p := s.fld (Reg.PPW_IDCFG n) 0 8
  match s.ppIdmode n with
  | 2 => isTw p && s.binds n p
  | 3 => isDs p && s.binds n p
  | _ => true

/-- A write of ON = 1 (R926, R952, R954); a channel that is on its way already, as one that ADMIT has switched on, goes on. -/
def State.ppOn (s : State) (n : Nat) (present : Bool) : State :=
  if s.pst n = ppPENNED || s.bit (Reg.PPW_CTRLn n) 0 then s
  else if !s.ppIdportOk n then s.setBit Reg.PPW_STATUS 0 true
  else
    let s := s.setBit (Reg.PPW_CTRLn n) 0 true
    if s.pst n ≠ ppOFF then s
    else if !s.ppPresen n then s.ppInsert n
    else if present then s.ppEnter n ppDEBOUNCE
    else s.ppEnter n ppABSENT

/-- R926: a write of ON = 1. -/
def execPpOn (n : Fin 8) (present : Bool) (s : State) : Host.Outcome State Fault Refusal :=
  done (if s.live then s.ppOn n.val present else s)

/-- A write of ON = 0: off at once, any episode ends uncounted; a penned channel stays penned (R954). -/
def State.ppOff (s : State) (n : Nat) : State :=
  let s := (s.setBit (Reg.PPW_CTRLn n) 0 false).ppSwitch n false
  let s := s.setPpc n { s.ppc n with episode := false, retry := false }
  if s.pst n = ppPENNED then s else (s.cyclesDrop n).ppEnter n ppOFF

/-- R954: a write of ON = 0. -/
def execPpOff (n : Fin 8) (s : State) : Host.Outcome State Fault Refusal := done (if s.live then s.ppOff n.val else s)

/-- A level code; below 80 it acts as 80 (R923). -/
def ppLevel (v : Nat) : Nat := max 80 v

/-- The switch of channel n is on. -/
def State.ppIsOn (s : State) (n : Nat) : Bool := s.bit (Reg.PPW_STAT n) 17

/-- A CURRENT check takes the 64 samples after SETTLE (R929). -/
def State.idTakes (s : State) (n : Nat) : Bool :=
  s.pst n == ppIDCHECK && s.ppIdmode n == 1 && decide ((s.ppc n).idCnt < 64)

/-- Inrush blanking of channel n runs: INRUSHT ms from the switch-on (R924). -/
def State.inrushOn (s : State) (n : Nat) : Bool := (s.ppc n).inrush && !s.ppPast n (s.fld (Reg.PPW_INRUSH n) 16 16)

/-- WFILT and TFILT of channel n; 0 acts as 1 (R923). -/
def State.ppWfilt (s : State) (n : Nat) : Nat := max 1 (s.fld (Reg.PPW_FILT n) 0 8)
def State.ppTfilt (s : State) (n : Nat) : Nat := max 1 (s.fld (Reg.PPW_FILT n) 8 8)

/-- R920, R921, R922: a current sample: the runs above WARN and above the trip level, and the samples that decide. -/
def execPpCurrentSample (n : Fin 8) (code : BitVec 16) (s : State) : Host.Outcome State Fault Refusal :=
  let k := n.val
  if !s.live then done s
  else
    let c := code.toNat
    let x := s.ppc k
    let warn := ppLevel (s.fld (Reg.PPW_LEV k) 0 16)
    let lim := ppLevel (if s.inrushOn k then s.fld (Reg.PPW_INRUSH k) 0 16 else s.fld (Reg.PPW_LEV k) 16 16)
    let on := s.ppIsOn k
    let up (b : Bool) (v : Nat) : Nat := if b then min 256 (v + 1) else 0
    let above := up (on && !s.inrushOn k && decide (warn < c)) x.above
    let trip := up (on && decide (lim < c)) x.trip
    let s := s.setPpc k { x with
      above := above
      below := up (decide (c ≤ warn)) x.below
      trip := trip
      warnAt := if above ≤ s.ppWfilt k then c else x.warnAt
      tripAt := if trip ≤ s.ppTfilt k then c else x.tripAt
      idSum := if s.idTakes k then x.idSum + c else x.idSum
      idCnt := if s.idTakes k then x.idCnt + 1 else x.idCnt
      peakWas := s.fld (Reg.PPW_IPEAK k) 0 16
      sample := c }
    let s := s.wr (Reg.PPW_IMEAS k) (BitVec.ofNat 32 c)
    done (if s.fld (Reg.PPW_IPEAK k) 0 16 < c then s.wr (Reg.PPW_IPEAK k) (BitVec.ofNat 32 c) else s)

/-- PP_CURRENT of channel n with the deciding sample (Table 5-6). -/
def State.ppCurrent (s : State) (n trip code : Nat) : State :=
  s.event evPP_CURRENT n (BitVec.ofNat 32 (trip + 65536 * (code % 65536)))

/-- R921: the warning run of channel n is judged. -/
def execPpWarning (n : Fin 8) (s : State) : Host.Outcome State Fault Refusal :=
  let k := n.val
  let f := s.ppWfilt k
  let x := s.ppc k
  if !s.live then done s
  else if s.bit (Reg.PPW_STAT k) 18 then
    done (if f ≤ x.below then s.setBit (Reg.PPW_STAT k) 18 false else s)
  else if f ≤ x.above && s.ppIsOn k then
    done ((((s.setBit (Reg.PPW_STAT k) 18 true).ppEvt k 0).tally (Reg.PPW_EVTALLY k)).ppCurrent k 0 x.warnAt)
  else done s

/-- HOLD seconds after its switch-on the retry of channel n has succeeded: the episode is transient (R935). -/
def State.holdEnds (s : State) (n : Nat) : State :=
  let x := s.ppc n
  if x.episode && x.retry && s.ppIsOn n && s.ppPast n s.ppHoldMs then
    ((s.tally (Reg.PPW_TALLY n)).setFld (Reg.PPW_STAT n) 4 4 0).setPpc n { x with episode := false, retry := false }
  else s

/-- A trip of channel n, which starts an episode of its own where HOLD seconds have passed (R922, R934, R935, R936, R939). -/
def State.ppTrip (s : State) (n : Nat) : State :=
  let s := s.holdEnds n
  let s := ((s.ppSwitch n false).ppEvt n 1).ppCurrent n 1 (s.ppc n).tripAt
  let x := s.ppc n
  if s.pst n = ppPENNED then s
  else if x.episode && x.retry then
    let s := s.tallyHi (Reg.PPW_TALLY n)
    let c := min 15 (s.ppConsec n + 1)
    let s := s.setFld (Reg.PPW_STAT n) 4 4 c
    if s.ppPermn ≤ c then s.ppPen n 0x30
    else ((s.setPpc n { s.ppc n with retry := false }).ppEnter n ppBACKOFF).cyclesFail n
  else ((s.setPpc n { s.ppc n with episode := true, retry := false }).ppEnter n ppBACKOFF).cyclesFail n

/-- R922: the trip run of channel n is judged. -/
def execPpTrip (n : Fin 8) (s : State) : Host.Outcome State Fault Refusal :=
  done (if s.live && s.ppIsOn n.val && decide (s.ppTfilt n.val ≤ (s.ppc n.val).trip) then s.ppTrip n.val else s)

/-- R924: inrush blanking of channel n ends. -/
def execInrushEnd (n : Fin 8) (s : State) : Host.Outcome State Fault Refusal :=
  done (if s.live && s.ppPast n.val (s.fld (Reg.PPW_INRUSH n.val) 16 16) then
    s.setPpc n.val { s.ppc n.val with inrush := false } else s)

/-- PRESn as declared: STAT.PRES and PRESMAP. -/
def State.ppPres (s : State) (n : Nat) (b : Bool) : State :=
  (s.setBit (Reg.PPW_STAT n) 16 b).setBit Reg.PPW_PRESMAP n b

/-- PRESENCE of channel n with EVT.PRES (Table 5-6). -/
def State.presence (s : State) (n data : Nat) : State := (s.ppEvt n 2).event evPRESENCE n (BitVec.ofNat 32 data)

/-- R927, R926, R955: an insertion is declared. -/
def execInsertion (n : Fin 8) (s : State) : Host.Outcome State Fault Refusal :=
  let k := n.val
  if !s.live then done s
  else
    let s := s.ppPres k true
    done (if s.ppPresen k && (s.pst k == ppABSENT || s.pst k == ppDEBOUNCE) then s.ppInsert k else s)

/-- R927, R928, R955: a removal is declared. -/
def execRemoval (n : Fin 8) (s : State) : Host.Outcome State Fault Refusal :=
  let k := n.val
  if !s.live then done s
  else
    let s := s.ppPres k false
    let st := s.pst k
    if !s.ppPresen k then done s
    else if st = ppDEBOUNCE then done (s.ppEnter k ppABSENT)
    else if 3 ≤ st && st ≤ 7 then
      let s := ((s.ppSwitch k false).setFld (Reg.PPW_STAT k) 4 4 0).cyclesDrop k
      let s := s.setPpc k { s.ppc k with episode := false, retry := false }
      done (((s.ppEnter k ppABSENT).tallyHi (Reg.PPW_EVTALLY k)).presence k 0)
    else if st = ppPENNED && s.fld (Reg.PPW_STAT k) 8 8 == 0x32 then done ((s.ppSwitch k false).presence k 0)
    else done s

/-- A passed identity check admits the channel (R933). -/
def State.ppAdmitted (s : State) (n : Nat) : State :=
  let s := (s.setPpc n { s.ppc n with idOk := true, idFailed := false }).presence n 3
  if s.ppRule n then s.ppEnter n ppSERVICE else s.ppPen n 0x32

/-- R926, R934, R937, R944: SETTLE ms have passed: the identity check, or SERVICE. -/
def execPpSettleEnd (n : Fin 8) (s : State) : Host.Outcome State Fault Refusal :=
  let k := n.val
  if !s.live || !s.ppPast k (s.ppSettleMs k) then done s
  else if s.pst k = ppSETTLE then
    if (s.ppc k).idOk then done (s.ppEnter k ppSERVICE)
    else
      let s := (s.setPpc k { s.ppc k with idSum := 0, idCnt := 0 }).ppEnter k ppIDCHECK
      done (if s.ppIdmode k = 0 then s.ppAdmitted k else s.identStart k)
  else if s.pst k = ppCYCLING && s.ppIsOn k then
    done ((s.setPpc k { s.ppc k with cycle := [] }).ppEnter k ppSERVICE)
  else done s

/-- The identity check of channel n passes on a value (R929). -/
def State.ppIdPass (s : State) (n : Nat) (value : Word) (failed : Bool) : Bool :=
  match s.ppIdmode n with
  | 0 => true
  | 1 =>
    let w := s.rd (Reg.PPW_IDIWIN n)
    let sum := (s.ppc n).idSum
    decide (64 * W.fld w 0 16 ≤ sum) && decide (sum ≤ 64 * W.fld w 16 16)
  | _ => !failed && (value ^^^ s.rd (Reg.PPW_IDVAL n)) &&& s.rd (Reg.PPW_IDMASK n) == 0

/-- The two-wire transaction of an identity check: a PRD of IDLEN bytes (Table 17-2). -/
def State.identTx (s : State) (n : Nat) : TwTx :=
  let w := s.rd (Reg.PPW_IDCFG n)
  { addr := W.fld w 8 7, wr := some [BitVec.ofNat 8 (W.fld w 16 8)], rd := some (W.fld w 24 2 + 1) }

/-- The value that an identity check of channel n reads (R929): the mean of the samples, its fraction dropped (DESIGN CHOICE, log
entry 120); IDLEN bytes; one word of the profile, right-aligned, which came with its first bit as the most significant. -/
def State.ppIdValue (s : State) (n : Nat) (value : Word) : Word :=
  let w := s.rd (Reg.PPW_IDCFG n)
  match s.ppIdmode n with
  | 1 => BitVec.ofNat 32 ((s.ppc n).idSum / 64)
  | 2 => value &&& W.mask 0 (8 * (W.fld w 24 2 + 1))
  | _ =>
    let pr := s.rd (Reg.DS_PROF (W.fld w 0 8 - 0x10) (W.fld w 26 2))
    dsReceived pr (profWs pr) value

/-- A CURRENT check has its 64 samples. -/
def State.ppIdDue (s : State) (n : Nat) : Bool := s.ppIdmode n != 1 || (s.ppc n).idCnt == 64

/-- R929 to R933: an identity check ends; one whose frame the port has rejected fails (R833). A pass on the repeat is transient; a second failure pens. -/
def execIdentityCheckDone (n : Fin 8) (value : Word) (failed : Bool) (s : State) : Host.Outcome State Fault Refusal :=
  let k := n.val
  let p := s.fld (Reg.PPW_IDCFG k) 0 8
  let value := s.ppIdValue k value
  let failed := (failed || (s.ppc k).idBad) && s.ppIdmode k != 1
  if !s.live || s.pst k != ppIDCHECK || !s.ppIdDue k || (decide (2 ≤ s.ppIdmode k) && s.use p != .ident k) then done s
  else
    let s := if failed then s else s.wr (Reg.PPW_IDLAST k) value
    if s.ppIdPass k value failed then
      done ((if (s.ppc k).idFailed then s.tally (Reg.PPW_TALLY k) else s).ppAdmitted k)
    else if (s.ppc k).idFailed then done (((s.ppSwitch k false).ppPen k 0x31).presence k 1)
    else
      let s := s.setPpc k { s.ppc k with idFailed := true, idSum := 0, idCnt := 0 }
      done ((s.identFree k).identStart k)

/-- R934: BACKOFF ends; the retry switches on and runs the insertion sequence. -/
def execBackoffEnd (n : Fin 8) (s : State) : Host.Outcome State Fault Refusal :=
  let k := n.val
  done (if s.live && s.pst k == ppBACKOFF && s.ppPast k (s.ppBackoffMs k) then
    (s.setPpc k { s.ppc k with retry := true, idFailed := false }).ppSettle k else s)

/-- R935: HOLD seconds after its switch-on the retry has succeeded. -/
def execHoldExpiry (n : Fin 8) (s : State) : Host.Outcome State Fault Refusal :=
  done (if s.live then s.holdEnds n.val else s)

/-- R937: two-wire port p at step 2 asks its channel for a power cycle. -/
def execPowerCycleRequest (p : Fin 8) (s : State) : Host.Outcome State Fault Refusal :=
  let k := p.val
  if s.live && s.portEn k && s.bit (Reg.TW_CFG k) 2 && !s.portPenned k && (s.chanOf k).isSome && !(s.port k).cycling then
    done ((s.setPort k { s.port k with cycling := true }).powerCycle k)
  else done s

/-- R937, R938: the longest OFFT has passed: the channel switches on with inrush blanking. -/
def execCycleOffEnd (n : Fin 8) (s : State) : Host.Outcome State Fault Refusal :=
  let k := n.val
  let offt := (s.ppc k).cycle.foldl (fun t p => max t (s.twOfft p)) 10
  done (if s.live && s.pst k == ppCYCLING && !s.ppIsOn k && s.ppPast k offt then s.ppSwitch k true else s)

/-- A read of IPEAKn returns the largest sample and clears it; a sample in the same cycle, `same`, is not in it, and remains for
the next read (R14). -/
def State.ipeak (s : State) (n : Nat) (same : Bool) : Word × State :=
  if same then (BitVec.ofNat 32 (s.ppc n).peakWas, s.wr (Reg.PPW_IPEAK n) (BitVec.ofNat 32 (s.ppc n).sample))
  else (s.rd (Reg.PPW_IPEAK n), s.wr (Reg.PPW_IPEAK n) 0)

/-- ADMIT of channel n (R944). -/
def State.ppAdmit (s : State) (n : Nat) : State :=
  let r := s.fld (Reg.PPW_STAT n) 8 8
  let s := (s.setFld (Reg.PPW_STAT n) 4 4 0).setFld (Reg.PPW_STAT n) 8 8 0
  let s := s.setBit Reg.PPW_PENMAP n false
  if s.ppPresen n && !s.bit (Reg.PPW_STAT n) 16 then (s.ppSwitch n false).ppEnter n ppABSENT
  else if r = 0x32 then (s.ppSwitch n true).ppEnter n ppSERVICE
  else (s.setPpc n { s.ppc n with idOk := true, idFailed := false }).ppSettle n

/-- A write of BIND: ignored with CFGERR where it names DS0 or a port of another channel (R918). Newly bound ports of a
channel that is not in SERVICE are quarantined; ports no longer bound are released. -/
def State.ppBind (s : State) (n : Nat) (val : Word) : State :=
  let v := val &&& 0x00FF0FFF
  let others := (List.range 8).foldl (fun m k => if k = n then m else m ||| s.rd (Reg.PPW_BIND k)) (0 : Word)
  if W.bit v 8 || v &&& others != 0 then s.setBit Reg.PPW_STATUS 0 true
  else
    let was := s.boundPorts n
    let s := s.wr (Reg.PPW_BIND n) v
    let s := if s.pst n = ppSERVICE then s else s.quarBegin n
    (was.filter (fun p => !s.binds n p)).foldl (fun s p => if isSe p then s.seUnhold (p - 0x20) else s) s

end Sys2Proof.Machine
end

