-- ==== Sys2Proof/Machine/DdrSerial.lean ====
section
/-!
DEFINITION. Chapter 15, the DDR serial ports DS0–DS3: software frames, frames of entries, target mode, FIFOs, the flash
window.
-/
namespace Sys2Proof.Machine

/-- DSd as a sensor port. -/
abbrev dsId (d : Nat) : Nat := 0x10 + d

/-- A write of SWCTL of DSd (R839, R853, R834). A GO on a port out of service completes at once with PENNED; a DDR frame that
does not fit ends with FRAME. A write while BUSY, and a GO on a disabled port or in target mode, starts nothing; one that falls due
together with an entry waits for it (R855). -/
def State.dsSwctl (s : State) (d : Nat) (val : Word) : State :=
  let p := dsId d
  if s.bit (Reg.DS_SWCTL d) 31 then s
  else
    let s := s.wr (Reg.DS_SWCTL d) (val &&& 0x1F1F)
    if !W.bit val 31 then s
    else if s.portPenned p || s.portQuar p then s.swEnd p 2
    else if !s.portEn p || s.portTarget p then s
    else if !ddrFits (s.rd (Reg.DS_PROF d (W.fld val 0 2))) (min 16 (W.fld val 8 5)) then s.swEnd p 1
    else
      let s := s.setBit (Reg.DS_SWCTL d) 31 true
      if s.use p = .none && !s.entDue p then (s.setUse p .sw).dsTake p else s

/-- R839: a write of SWCTL of DSp. -/
def execDsSwctlGo (p : Fin 4) (val : Word) (s : State) : Host.Outcome State Fault Refusal :=
  done (if s.live then s.dsSwctl p.val val else s)

/-- A DDR read frame of NW words is partial: fewer strobe edges than NW × WS / LANES (R833). -/
def dsPartial (prof : Word) (nw edges : Nat) : Bool :=
  W.bit prof 2 && decide (edges < nw * profWs prof / profLanes prof)

/-- A partial frame is counted (R833). -/
def State.strb (s : State) (d : Nat) : State := s.tally (Reg.DS_STRBTALLY d)

/-- The attempt of an entry on DSd ends with its frame: the strobe edges received and the words read, each with the bit that came
first as its most significant (R830, R833, R836). -/
def State.dsEntryEnd (s : State) (d l e edges : Nat) (words : List Word) : State :=
  let pr := s.entProf l e
  let nw := dsNw (profWs pr) (s.entLen l e)
  if dsPartial pr nw edges then (s.strb d).entEnd l e 4 [] false
  else s.entEnd l e 0 (dsValues pr (s.entXarg l e) ((words.take nw).map (dsReceived pr (profWs pr)))) false

/-- The software frame of DSd ends (R833, R839). -/
def State.dsSwEnd (s : State) (d edges : Nat) (words : List Word) : State :=
  let ctl := s.rd (Reg.DS_SWCTL d)
  let pr := s.rd (Reg.DS_PROF d (W.fld ctl 0 2))
  let nw := min 16 (W.fld ctl 8 5)
  let s := s.portFree (dsId d)
  if W.bit ctl 4 then s.swEnd (dsId d) 0
  else if dsPartial pr nw edges then (s.strb d).swEnd (dsId d) 1
  else (s.wrRegs (Reg.DS_SWDATA d 0) ((words.take nw).map (dsReceived pr (profWs pr)))).swEnd (dsId d) 0

/-- R833: the frame of DSp ends with the strobe edges received and the words read. -/
def execDsFrameEnd (p : Fin 4) (edges : Nat) (words : List Word) (s : State) : Host.Outcome State Fault Refusal :=
  let d := p.val
  if !s.runs (portGate (dsId d)) then done s
  else
    match s.use (dsId d) with
    | .entry l e _ => done (s.dsEntryEnd d l e edges words)
    | .ident n =>
      done (if dsPartial (s.rd (Reg.DS_PROF d (s.fld (Reg.PPW_IDCFG n) 26 2))) 1 edges then
        (s.strb d).setPpc n { s.ppc n with idBad := true } else s)
    | .sw => done (s.dsSwEnd d edges words)
    | .none => done (if s.swBusy (dsId d) then s.dsSwEnd d edges words else s)
    | _ => done s

/-- The words that target port DSd sends on D1 in a frame of `k` word times: its TX FIFO, then IDLEW (R842). -/
def State.dsTargetSends (s : State) (d k : Nat) : List Word :=
  (((s.port (dsId d)).tx ++ List.replicate k (s.rd (Reg.DS_IDLEW d))).take k).map
    (· &&& W.mask 0 (profWs (s.rd (Reg.DS_PROF d 0))))

/-- R841, R842, R856: CS0_N of target port 2 + i is deasserted after `bits` bits; `cut`: EN is cleared amid the frame. -/
def execDsTargetFrame (i : Fin 2) (bits : Nat) (cut : Bool) (words : List Word) (s : State) :
    Host.Outcome State Fault Refusal :=
  let d := 2 + i.val
  let p := dsId d
  if !s.runs gDS || !s.portTarget p || s.portPenned p || s.portQuar p || s.portEn p == cut || bits = 0 then done s
  else
    let pr := s.rd (Reg.DS_PROF d 0)
    let ws := profWs pr
    let k := bits / ws
    let x := s.port p
    let x := if profLanes pr = 1 then { x with tx := x.tx.drop ((bits + ws - 1) / ws) } else x
    let s := s.setPort p x
    if cut || bits % ws ≠ 0 then done ((s.tally (Reg.DS_TGTTALLY d)).dsEvt d 2)
    else if 64 < x.rx.length + k || 16 ≤ x.rxlen.length then done ((s.tallyHi (Reg.DS_TGTTALLY d)).dsEvt d 2)
    else
      let got := (words ++ List.replicate k 0).take k
      done ((s.setPort p { x with rx := x.rx ++ got.map (dsReceived pr ws), rxlen := x.rxlen ++ [k] }).dsEvt d 1)

/-- A read of RXDATA of DSd: the oldest received word, removed; 0 where there is none; where `same`, the newest comes in the same
cycle, is not seen and stays (R843, R14). -/
def State.dsRxdata (s : State) (d : Nat) (same : Bool) : Word × State :=
  let x := s.port (dsId d)
  if same && x.rx.length ≤ 1 then (0, s) else
  (x.rx.headD 0, s.setPort (dsId d) { x with rx := x.rx.drop 1 })

/-- A read of RXLEN of DSd: the oldest frame length with VALID, removed; 0 where there is none; `same` as for RXDATA (R843,
R14). -/
def State.dsRxlen (s : State) (d : Nat) (same : Bool) : Word × State :=
  let x := s.port (dsId d)
  if same && x.rxlen.length ≤ 1 then (0, s) else
  match x.rxlen with
  | [] => (0, s)
  | k :: r => (BitVec.ofNat 32 (0x80000000 + k), s.setPort (dsId d) { x with rxlen := r })

/-- R843: a read of RXDATA. -/
def execDsRxdataRead (p : Fin 4) (same : Bool) (tlp : Tlp) (s : State) : Host.Outcome State Fault Refusal :=
  done (s.readBy .host tlp (Reg.DS_RXDATA p.val) (fun s => let (w, t) := s.dsRxdata p.val same; (.word w, t)))

/-- R843: a read of RXLEN. -/
def execDsRxlenRead (p : Fin 4) (same : Bool) (tlp : Tlp) (s : State) : Host.Outcome State Fault Refusal :=
  done (s.readBy .host tlp (Reg.DS_RXLEN p.val) (fun s => let (w, t) := s.dsRxlen p.val same; (.word w, t)))

/-- A TXDATA write: the word enters the 16-entry TX FIFO, or is dropped (R842, Table 15-13). -/
def State.dsTx (s : State) (d : Nat) (val : Word) : State :=
  let x := s.port (dsId d)
  if x.tx.length < 16 then s.setPort (dsId d) { x with tx := x.tx ++ [val] } else s

/-- R842: a write of TXDATA. -/
def execDsTxdata (p : Fin 4) (val : Word) (s : State) : Host.Outcome State Fault Refusal :=
  done (if s.live then s.dsTx p.val val else s)

/-- The flash window answers: DS0 is enabled and in service (R846). -/
def State.flashOn (s : State) : Bool := s.live && s.portEn 0x10 && !s.portPenned 0x10

/-- The frame of a flash window read of `size` bytes at flash offset f: FLASHCFG's command, f or its low 24 bits, FLASHCFG's dummy
clocks (R845). -/
def State.flashFrame (s : State) (f size : Nat) : State :=
  let w := s.rd Reg.DS_FLASHCFG0
  let bits := if W.bit w 8 then 32 else 24
  s.emit (.flashRead (w.setWidth 8) (f % 2 ^ bits) bits (W.fld w 9 5) size)

/-- R845, R846, R949: a read of the flash window: the bytes of one frame, or a bus error; it waits while DS0 sends a frame or is
proved. -/
def execFlashWindowRead (_src : Requester) (f : BitVec 26) (size : Nat) (bytes : List Byte) (s : State) :
    Host.Outcome State Fault Refusal :=
  done (if s.flashOn && decide (s.use 0x10 ≠ .none) then s
    else if s.flashOn then { s.flashFrame f.toNat size with reply := .bytes ((bytes ++ List.replicate size 0).take size) }
    else { s with reply := .busError 0 })

/-- A profile write: WS not a multiple of LANES, or LANES 3, leaves it unchanged and sets CFGERR (R834); while the port is
busy the whole write is refused (R8, R847). -/
def State.dsProf (s : State) (d i : Nat) (val : Word) : State :=
  let v := val &&& 0x01F7FFFF
  let a := Reg.DS_PROF d i
  if s.portBusy (dsId d) then s.wlrej a
  else if W.fld v 0 2 = 3 || profWs v % profLanes v ≠ 0 then s.setBit Reg.DS_STATUS 0 true
  else s.wr a v

end Sys2Proof.Machine
end

