-- ==== Sys2Proof/Machine/TwoWire.lean ====
section
/-!
DEFINITION. Chapter 15, the two-wire ports TW0–TW7: attempts on the wire, software transactions, crook calls, stuck lines,
clock adaptation.
-/
namespace Sys2Proof.Machine

/-- A software transaction of port p runs or waits to run, and nothing else holds the port. -/
def State.swRuns (s : State) (p : Nat) : Bool := s.swBusy p && (s.use p == .sw || s.use p == .none)

/-- The software transaction of port p ends and the port is free. -/
def State.swDone (s : State) (p code : Nat) : State := (s.portFree p).swEnd p code

/-- R813: SCL, which PSTAT shows low, is held low beyond STRLIM on TWp: the attempt ends with STRETCH, and its retry waits for the bus. -/
def execTwStretchTimeout (p : Fin 8) (s : State) : Host.Outcome State Fault Refusal :=
  let k := p.val
  if !s.runs gTW then done s
  else
    match s.use k with
    | .entry l e _ => done ((s.setBit (Reg.TW_PSTAT k) 10 false).entEnd l e 5 [] true)
    | .bell l => done (((s.setBit (Reg.TW_PSTAT k) 10 false).portFree k).bellEnd l k false)
    | _ => done (if s.swRuns k then (s.setBit (Reg.TW_PSTAT k) 10 false).swDone k 3 else s)

/-- R814, R886: the attempt on a port exceeds TMO and ends with TIMEOUT. -/
def execAttemptTimeout (port : BitVec 8) (s : State) : Host.Outcome State Fault Refusal :=
  let p := port.toNat
  match s.use p with
  | .entry l e _ =>
    done (if s.runs (portGate p) && s.tmoGone l e 0 then s.attemptTimeout l e else s)
  | _ => done s

/-- R810: the CONV wait of the CMDRD entry on TWp ends and its read segment starts. -/
def execCmdrdConvWait (p : Fin 8) (s : State) : Host.Outcome State Fault Refusal :=
  done (if s.runs gTW then s.setPort p.val { s.port p.val with conv := false } else s)

/-- An entry of a running muster waits to start on port p (R824). -/
def State.entsWait (s : State) (p : Nat) : Bool :=
  (List.range 4).any (fun l => s.listRunning l && (List.range (s.nent l)).any (fun e =>
    s.entPort l e == p && (decide ((s.ent l e).ph = .waiting) || decide ((s.ent l e).ph = .again))))

/-- The identification that a call has asked for on port p may start: no entry of a running muster waits to start there, and none has
run since the port's last entry transaction while an active list names the port (R824; DEDUCED, log entry 165). -/
def State.callDue (s : State) (p : Nat) : Bool :=
  s.bit (Reg.TW_CRK p) 8 && !s.entsWait p && !((s.port p).called && s.portListed p)

/-- A write of SWCTL of TWp (R816, R853). A GO on a port out of service completes at once with PENNED. A write while BUSY,
and a GO on a disabled port or with FORM 3, starts nothing; one that falls due together with an entry or an identification waits
for it (R855). -/
def State.twSwctl (s : State) (p : Nat) (val : Word) : State :=
  if s.bit (Reg.TW_SWCTL p) 31 then s
  else
    let s := s.wr (Reg.TW_SWCTL p) (val &&& 0x0F0F037F)
    if !W.bit val 31 || W.fld val 8 2 = 3 then s
    else if s.portPenned p || s.portQuar p || (s.port p).cycling then s.swEnd p 5
    else if !s.portEn p then s
    else
      let s := s.setBit (Reg.TW_SWCTL p) 31 true
      let s := s.twTake p
      if s.use p = .none && !s.lineHeld p && !s.entDue p && !s.callDue p then (s.setUse p .sw).lineStart p else s

/-- R816: a write of SWCTLn. -/
def execTwSwctlGo (p : Fin 8) (val : Word) (s : State) : Host.Outcome State Fault Refusal :=
  done (if s.live then s.twSwctl p.val val else s)

/-- The transaction that GO runs on TWp: FORM WRITE, READ or WRITEREAD (R816). -/
def State.twSwTx (s : State) (p : Nat) : TwTx :=
  let ctl := s.rd (Reg.TW_SWCTL p)
  let form := W.fld ctl 8 2
  let byte (i : Nat) : Byte := (s.rd (Reg.TW_SWDATA p (i / 4)) >>> (8 * (i % 4))).setWidth 8
  { addr := W.fld ctl 0 7
    wr := if form = 1 then none else some ((List.range (min 8 (W.fld ctl 16 4))).map byte)
    rd := if form = 0 then none else some (min 8 (W.fld ctl 24 4)) }

/-- The general call of a crook identification: CRKQ, then the identification byte is read after it without a repeated START
(Table 15-6). -/
def State.crookTx (s : State) : TwTx := { addr := 0, wr := some [(s.rd Reg.TW_CTRL >>> 24).setWidth 8] }

/-- R816, R817: the software transaction of TWp ends; a read that ends well leaves its bytes in SWDATA2–3. -/
def execTwTransactionEnd (p : Fin 8) (e : WireEnd) (bytes : List Byte) (s : State) : Host.Outcome State Fault Refusal :=
  let k := p.val
  if !s.runs gTW || !s.swRuns k then done s
  else
    let ctl := s.rd (Reg.TW_SWCTL k)
    match e with
    | .ok =>
      let s := if W.fld ctl 8 2 = 0 then s
        else s.wrRegs (Reg.TW_SWDATA k 2) ((packBytes (bytes.take (min 8 (W.fld ctl 24 4)))).take 2)
      done (s.swDone k 0)
    | .nackAddr => done (s.swDone k 1)
    | .nackData => done (s.swDone k 2)
    | .stretch => done (s.swDone k 3)
    | .frame => done (s.swDone k 4)
    | .crc => done s

/-! ### Crook calls -/

/-- R823, R825: SDA low with SCL high for 5 µs on a port that holds no transaction; the caller holds it low on (R818). -/
def execCrookCallDetect (p : Fin 8) (s : State) : Host.Outcome State Fault Refusal :=
  let k := p.val
  if s.portReady k && !s.swBusy k && s.bit (Reg.TW_CFG k) 1 then
    let s := s.setPort k { s.port k with lowAt := some s.clk.tb.toNat }
    done (((s.twLevels k true false).tally (Reg.TW_CRKTALLY k)).setBit (Reg.TW_CRK k) 8 true)
  else done s

/-- R824: TWp starts its crook identification; between two entry transactions at most one runs, which binds it while an active list
names the port (DEDUCED, log entry 165). -/
def execCrookIdentification (p : Fin 8) (s : State) : Host.Outcome State Fault Refusal :=
  let k := p.val
  done (if s.portReady k && s.callDue k then
    (s.setPort k { s.port k with use := .crook, called := true }).lineStart k else s)

/-- The result of an identification (Table 15-6). -/
def crookResult (acked : Bool) (byte : Byte) : Nat :=
  let b := byte.toNat
  if acked && b % 2 == 0 && decide (0x08 ≤ b / 2) && decide (b / 2 ≤ 0x77) then b / 2 else 0x7F

/-- R825: the identification ends: CRK.ADDR, EVT.CRK, CROOK_CALL. -/
def execCrookIdentificationEnd (p : Fin 8) (acked : Bool) (byte : Byte) (s : State) : Host.Outcome State Fault Refusal :=
  let k := p.val
  if s.runs gTW && s.use k == .crook then
    let r := crookResult acked byte
    let s := (s.portFree k).wr (Reg.TW_CRK k) (BitVec.ofNat 32 r)
    done ((s.twEvt k 3).event evCROOK_CALL k (BitVec.ofNat 32 r))
  else done s

/-! ### Stuck lines -/

/-- Step 1 of Table 15-10: CLEARING ends the port's transaction at once; an attempt ends with FRAME and its retry waits
(R853, R858). -/
def State.twClearing (s : State) (p : Nat) : State :=
  let s := match s.use p with
    | .entry l e _ => s.entEnd l e 4 [] true
    | .bell l => s.bellEnd l p false
    | _ => s
  s.portQuiet p 4

/-- Step 2 or 3 of Table 15-10: a power cycle with PCYC and a bound channel, else the pen (R857, R937). -/
def State.twEscalate (s : State) (p : Nat) : State :=
  let s := s.portQuiet p 4
  if s.bit (Reg.TW_CFG p) 2 && (s.chanOf p).isSome then
    (s.setPort p { s.port p with cycling := true }).powerCycle p
  else s.portPen p (if s.bit (Reg.TW_PSTAT p) 10 then 0x20 else 0x21)

/-- R857: a line of TWp has been low for TSTUCK ms. `cleared`: the pulses of step 1 freed SDA. -/
def execStuckLine (p : Fin 8) (scl sda cleared : Bool) (s : State) : Host.Outcome State Fault Refusal :=
  let k := p.val
  if !s.runs gTW || !s.portEn k || s.portPenned k || (s.port k).cycling || s.use k == .proof || (scl && sda) then done s
  else
    let s := (s.twLevels k scl sda).twEvt k 4
    if scl then
      let s := s.twClearing k
      if cleared then
        done (((s.twLevels k true true).tally (Reg.TW_STUCKTALLY k)).setFld (Reg.TW_PSTAT k) 12 4 0)
      else done (s.twEscalate k)
    else done (s.twEscalate k)

/-- R857: SETTLE after the switch-on of a power cycle ends: both lines high is suspect, else the port is penned; CONSEC at
PERMN pens it with RECUR (R859). -/
def execPortSettleExpiry (p : Fin 8) (scl sda : Bool) (s : State) : Host.Outcome State Fault Refusal :=
  let k := p.val
  let on := match s.chanOf k with
    | some n => s.ppIsOn n && s.ppPast n (max 1 (s.fld (Reg.TW_STUCK k) 8 8))
    | none => false
  if !s.runs gTW || !(s.port k).cycling || !on then done s
  else
    let s := s.twLevels k scl sda
    if scl && sda then
      let s := s.tallyHi (Reg.TW_STUCKTALLY k)
      let c := min 15 (s.twConsec k + 1)
      let s := s.setFld (Reg.TW_PSTAT k) 12 4 c
      done (if s.twPermn ≤ c then s.portPen k 0x22 else s.setPort k { s.port k with cycling := false })
    else done (s.cycleFail k)

/-- R859: 60 s without an episode return CONSEC to 0. -/
def execStuckConsecDecay (p : Fin 8) (s : State) : Host.Outcome State Fault Refusal :=
  done (if s.runs gTW && !(s.port p.val).cycling then s.setFld (Reg.TW_PSTAT p.val) 12 4 0 else s)

/-- R861: a probe of a port penned with STUCK_SDA, STUCK_SCL or RECUR: both lines high set CLEAR once for each pen. -/
def execPortProbe (p : Fin 8) (scl sda : Bool) (s : State) : Host.Outcome State Fault Refusal :=
  let k := p.val
  let r := s.portReason k
  if s.runs gTW && decide (0x20 ≤ r) && decide (r ≤ 0x22) && s.use k != .proof then
    let s := s.twLevels k scl sda
    done (if scl && sda && !s.bit (Reg.TW_PSTAT k) 9 then
      ((s.setBit (Reg.TW_PSTAT k) 9 true).twEvt k 1).event evPORT_CLEAR k 0 else s)
  else done s

/-- R863, R865, R867: an adaptation window ends. -/
def execAdaptWindowEnd (p : Fin 8) (s : State) : Host.Outcome State Fault Refusal :=
  let k := p.val
  if !s.runs gTW || !s.portEn k then done s
  else
    let x := s.port k
    if x.errs ≠ 0 then done (s.setPort k { x with errs := 0, clean := 0 })
    else
      let s := s.setBit (Reg.TW_PSTAT k) 8 false
      let up := W.fld x.adaptIn 24 4
      if up ≠ 0 && decide (up ≤ x.clean + 1) then
        let r := if s.twFixed k || decide (x.rate ≤ s.twRate k) then x.rate else x.rate - 1
        done (s.setPort k { x with clean := 0, rate := r })
      else done (s.setPort k { x with clean := min 15 (x.clean + 1) })

/-- A write of TW.CTRL: CRKQ must be even and none of 0x00, 0x04, 0x06; else CRKQ stays and CFGERR is set (R826). -/
def State.twCtrlWrite (s : State) (val : Word) : State :=
  let q := W.fld val 24 8
  let s := s.wr Reg.TW_CTRL (W.setFld (val &&& 0xFF3F000F) 24 8 (if q % 2 = 1 || q = 0 || q = 4 || q = 6 then s.fld Reg.TW_CTRL 24 8 else q))
  if q % 2 = 1 || q = 0 || q = 4 || q = 6 then s.setBit Reg.TW_STATUS 0 true else s

end Sys2Proof.Machine
end

