-- ==== Sys2Proof/Machine/Muster.lean ====
section
/-!
DEFINITION. Chapter 14: musters, their bellwether, read and commit phases, run-ahead, the drover; loading and starting a list.
-/
namespace Sys2Proof.Machine

/-! ### Triggers and the bellwether -/

/-- The scheduled T0 of list l has come: the first is a TICK edge, once the completion of MUSTERSTART has been written (R748). -/
def State.tickDue (s : State) (l : Nat) : Bool :=
  s.runs gMBM && s.listActive l && s.rd (Reg.MBM_LIST_PERIOD l) != 0 && !s.startHeld l &&
    (if (s.ml l).next = 0 then s.clk.tickPhase == 0 else decide ((s.ml l).next ≤ s.clk.tb.toNat))

/-- The T0 of that tick. -/
def State.tickT0 (s : State) (l : Nat) : Nat := if (s.ml l).next = 0 then s.clk.tb.toNat else (s.ml l).next

/-- R748, R749: a period tick of list l starts a muster, or counts as skipped, and the next one is a period later; one together
with a MUSTERNOW of its CORE cycle or a TRIG write of its PERI cycle is that muster's (R280, R783). -/
def execMusterPeriodTick (n : Fin 4) (s : State) : Host.Outcome State Fault Refusal :=
  let l := n.val
  if s.tickDue l then
    let t0 := s.tickT0 l
    let x := s.ml l
    let same := match x.by_ with
      | .tick => false
      | .trig => x.t0 == t0
      | .now => x.at_ == t0
    let s := s.setMl l { x with next := t0 + 400 * s.fld (Reg.MBM_LIST_PERIOD l) 0 24, late := x.late || (s.listRunning l && !same) }
    done (s.musterTrigger l t0 .tick same)
  else done s

/-- A write of MBM.TRIG triggers each named list (R747). -/
def State.mbmTrig (s : State) (val : Word) : State :=
  forN 4 (fun l s =>
    if W.bit val l then s.musterTrigger l s.periEdge .trig ((s.ml l).by_ == .tick && (s.ml l).t0 == s.periEdge) else s) s

/-- R747: a write of MBM.TRIG. -/
def execMbmTrig (val : Word) (s : State) : Host.Outcome State Fault Refusal := done (if s.live then s.mbmTrig val else s)

/-- SKEWLIM of list l in PERI cycles; 0 acts as 2. -/
def State.skewLim (s : State) (l : Nat) : Nat :=
  let v := s.fld (Reg.MBM_LIST_SKEWLIM l) 0 12
  if v = 0 then 2 else v

/-- PERI cycles after BWT at which the defining edge of list l's bellwether on port p falls, where it starts now (R753, R754). -/
def State.bellLate (s : State) (l p : Nat) : Nat := (s.clk.tb.toNat + 4 * s.bellLen p - s.bwtNow l + 3) / 4

/-- R753, R754, R890: a taking part port sends list l's bellwether, at BWT less its own length or when it is free, with its defining
edge at least `late` PERI cycles after BWT. -/
def execBellwetherPortStart (n : Fin 4) (port : BitVec 8) (late : Nat) (s : State) : Host.Outcome State Fault Refusal :=
  let l := n.val
  let p := port.toNat
  if s.runs gMBM && s.listRunning l && tget Bell.none (s.ml l).bells p == .waiting && s.portReady p &&
      decide (s.bwtNow l ≤ s.clk.tb.toNat + 4 * s.bellLen p) then
    let b : Bell := if s.skewLim l < max late (s.bellLate l p) then .late else .running
    let s := (s.setMl l { s.ml l with bells := tset Bell.none (s.ml l).bells p b }).setUse p (.bell l)
    done (if isSe p then s.seBellwether (p - 0x20) else (s.lineStart p).dsTake p)
  else done s

/-- The sample action of an SE port named a defining edge within SKEWLIM of BWT (R754, R891). -/
def State.seBellGood (s : State) (l p : Nat) : Bool :=
  match (s.eng (p - 0x20)).mark with
  | some t => decide (t ≤ s.bwtNow l + 4 * s.skewLim l)
  | none => false

/-- The engine of SE port p has still to take its bellwether request, or its handler to name an edge or to return (R890, R891). -/
def State.seAsked (s : State) (p : Nat) : Bool :=
  let n := p - 0x20
  s.seSt n == seRUNNING && (s.eng n).mark.isNone && (s.bit (Reg.SE_STAT n) seBW || s.bit (Reg.SE_STAT n) seINBW)

/-- R754: the bellwether of a port ends: its acknowledge or its sample action is judged, and the port is free. That of a stencil port
ends no sooner than its handler has named an edge or returned. -/
def execBellwetherEnd (n : Fin 4) (port : BitVec 8) (acked : Bool) (s : State) : Host.Outcome State Fault Refusal :=
  let l := n.val
  let p := port.toNat
  if s.use p = .bell l && s.runs (portGate p) && !(isSe p && s.seAsked p) then
    let s := s.portFree p
    let b := tget Bell.none (s.ml l).bells p
    if s.listRunning l && b.open then
      done (s.bellEnd l p (b == .running && (if isTw p then acked else if isSe p then s.seBellGood l p else true)))
    else done s
  else done s

/-! ### The read phase -/

/-- R756, R757, R790, R792: entry e of list l starts on its free port, or its waiting retry does. -/
def execEntryStart (n : Fin 4) (e : BitVec 8) (s : State) : Host.Outcome State Fault Refusal :=
  let l := n.val
  let i := e.toNat
  let p := s.entPort l i
  let ph := (s.ent l i).ph
  if s.runs gMBM && s.listRunning l && decide (i < s.nent l) && (decide (ph = .waiting) || decide (ph = .again))
      && s.entMay l i && s.portReady p && s.entNext l i && !s.othersFirst l p && !(tget Bell.none (s.ml l).bells p).open then
    done (s.entStart l i)
  else done s

/-- A run-ahead attempt or result is held for port p (R760). -/
def State.portAhead (s : State) (p : Nat) : Bool :=
  (List.range 4).any (fun l => !s.listRunning l &&
    (List.range (s.nent l)).any (fun e => (s.ent l e).ahead && s.entPort l e == p))

/-- Now lies at most RUNAHEAD µs before the next scheduled T0 of list l (R760). -/
def State.aheadMay (s : State) (l : Nat) : Bool :=
  let x := s.ml l
  x.next != 0 && decide (s.clk.tb.toNat < x.next) &&
    decide (x.next ≤ s.clk.tb.toNat + 400 * s.fld (Reg.MBM_LIST_RUNAHEAD l) 0 16)

/-- R760, R762, R790: an idempotent entry of an active list starts ahead of its next scheduled muster, after the present one has
committed, on an idle port; or its retry does, which waited for the bus. -/
def execRunaheadStart (n : Fin 4) (e : BitVec 8) (s : State) : Host.Outcome State Fault Refusal :=
  let l := n.val
  let i := e.toNat
  let p := s.entPort l i
  if s.runs gMBM && s.listActive l && !(s.ml l).stopping && !s.listRunning l && decide (i < s.nent l)
      && s.rd (Reg.MBM_LIST_RUNAHEAD l) != 0 && s.rd (Reg.MBM_LIST_PERIOD l) != 0 && s.aheadMay l
      && s.entIdem l i && !s.entBw l i && decide (s.entLen l i ≤ 8) && !s.entPenned l i
      && (if (s.ent l i).ahead then decide ((s.ent l i).ph = .again) else decide ((s.ent l i).ph = .idle) && !s.portAhead p)
      && s.portReady p && !s.swBusy p then
    done ((s.setEnt l i { s.ent l i with ahead := true }).entStart l i)
  else done s

/-- The statuses with which the attempt of entry e on its port's wire can end (Table 14-5); CRC comes from the bytes alone (R806), and a
DDR serial frame is rejected with FRAME where it is a partial DDR frame (R833). -/
def State.wireStatus (s : State) (l e st : Nat) : Bool :=
  let p := s.entPort l e
  if isTw p then decide (st ≤ 5) && st != 3 else isDs p && (st == 0 || st == 2 || (st == 4 && profDdr (s.entProf l e)))

/-- A line error of an attempt on a two-wire port: a data NACK, which a form that writes a byte can meet, CRC or FRAME (R808, R863). -/
def lineError (x : Word) (p st : Nat) (dataNack : Bool) : Bool :=
  isTw p && ((st == 1 && dataNack && xForm x != 0) || st == 3 || st == 4)

/-- The attempt of entry e on its stencil port ends with the result handed to it (R886, R887). -/
def State.seEntryEnd (s : State) (l e : Nat) (r : SeRes) : State :=
  let n := s.entPort l e - 0x20
  let x := s.ent l e
  let x := if r.status = 6 && r.vals.isEmpty && r.first = 0 then { x with started := false }
    else { x with started := true, t0 := r.first, t1 := r.last, seen := some (s.fld (Reg.SE_CHSTAT n (s.seAddr l e)) 16 16) }
  (s.setEnt l e x).entEnd l e r.status (r.vals.take (s.entLen l e)) false

/-- The status and value words of an attempt whose wire part ended with `st` and brought `bytes` in their order: a check byte that
does not match ends a two-wire attempt with CRC (R805, R806); a DDR serial frame's words come as four bytes each, the lowest
byte first, each word with the bit that came first as its most significant (R830, R836). -/
def State.wireVals (s : State) (l e st : Nat) (bytes : List Byte) : Nat × List Half :=
  let x := s.entXarg l e
  if st ≠ 0 then (st, [])
  else if isTw (s.entPort l e) then
    match groupWords (xBe x) (xCrc x) bytes (s.entLen l e) with
    | some vs => (0, vs)
    | none => (3, [])
  else
    let pr := s.entProf l e
    (0, (dsValues pr x ((packBytes bytes).map (dsReceived pr (profWs pr)))).take (s.entLen l e))

/-- The deadline ends the read phase of list l: every entry that is not finished is stale (R759, R792). -/
def State.deadlineCut (s : State) (l : Nat) : State :=
  let bad := (s.ml l).bells.map (fun b => (b.1, if b.2.open then Bell.bad else b.2))
  let ps := ((s.ml l).bells.filter (fun b => b.2.open)).map (·.1)
  let s := (s.setMl l { s.ml l with cut := true, bells := bad }).setPhase l 2
  (ps.foldl (fun s p => s.bellMark l p) s).forEnts l (fun e s => s.entCut l e)

/-- A bellwether of list l is open, or its read phase has entries that are not finished. -/
def State.readOpen (s : State) (l : Nat) : Bool :=
  s.listRunning l && (s.listPhase l == 1
    || (s.listPhase l == 2 && !(List.range (s.nent l)).all (fun e => decide ((s.ent l e).ph = .finished))))

/-- What a deadline that has passed before this CORE cycle has cut, so that an attempt that ends now is judged by it (R759). -/
def State.cutPast (s : State) (l : Nat) : State := if s.readOpen l && s.deadlineAt l 1 then s.deadlineCut l else s

/-- R790 to R795: the attempt of entry e of list l ends on the wire; on a stencil port, with the result handed to it. One that has
taken longer than TMO ends with TIMEOUT (Table 14-5). -/
def execEntryAttemptEnd (n : Fin 4) (e status : BitVec 8) (dataNack : Bool) (bytes : List Byte) (s : State) :
    Host.Outcome State Fault Refusal :=
  let l := n.val
  let i := e.toNat
  let p := s.entPort l i
  let st := status.toNat
  let s := if s.runs (portGate p) then s.cutPast l else s
  let gone := s.tmoGone l i 1
  match s.use p with
  | .entry l' e' _ =>
    if l' ≠ l || e' ≠ i || !s.runs (portGate p) then done s
    else if isSe p then
      match (s.port p).got with
      | some r => done (if gone then s.attemptTimeout l i else s.seEntryEnd l i r)
      | none => done s
    else if !s.wireStatus l i st || (st == 0 && (s.port p).conv) || (st == 2 && !s.tmoGone l i 0) then done s
    else if gone then done (s.attemptTimeout l i)
    else
      let (st, vals) := s.wireVals l i st bytes
      let s := if lineError (s.entXarg l i) p st dataNack then s.twLineError p else if isDs p && st == 4 then s.strb (p - 0x10) else s
      done (s.entEnd l i st vals (st == 5))
  | _ => done s

/-- R759, R792: T0 + DEADLINE ends the read phase: every entry that is not finished is stale. -/
def execMusterDeadlineExpiry (n : Fin 4) (s : State) : Host.Outcome State Fault Refusal :=
  let l := n.val
  done (if s.runs gMBM && s.readOpen l && s.deadlineAt l 0 then s.deadlineCut l else s)

/-! ### Commit and flip -/

/-- Reads words coherently for a stale copy: none for an uncorrectable one. -/
def State.readFront : Nat → Nat → State → List (Option Word) × State
  | 0, _, s => ([], s)
  | k + 1, a, s =>
    let (w, s) := s.coRd 5 a
    let (ws, s) := State.readFront k (a + 4) s
    (w :: ws, s)

/-- A stale entry's value words and LASTGOOD, from the front buffer, or zero in the first muster (R766 step 3). A copy that
meets an uncorrectable error takes status ECC and zero values; its LASTGOOD is kept (R784). -/
def State.staleCopy (s : State) (l e : Nat) : State :=
  let off := 4 * s.entOff l e
  let a := s.back l + off
  let k := (s.entLen l e + 1) / 2
  if !s.hasFront l then (s.foldWr l (a + 4) 0).foldWrs l (a + 16) (List.replicate k 0)
  else
    let f := s.front l + off
    let lg := s.rdWord (f + 4)
    let (g, s) := ((s.mbmSpend l (f + 4) 1).mbmSpend l (f + 16) k).coRd 5 (f + 4)
    let (ws, s) := State.readFront k (f + 16) s
    let s := s.foldWr l (a + 4) (g.getD lg)
    if g.isSome && ws.all Option.isSome then s.foldWrs l (a + 16) (ws.map (·.getD 0))
    else
      let s := s.setEnt l e { s.ent l e with status := 0x0B }
      let s := s.setFld (Reg.MBM_ENTSTAT l e) 0 8 0x0B
      (s.foldWr l a (s.entE0 l e)).foldWrs l (a + 16) (List.replicate k 0)

/-- How many entries of list l satisfy a test. -/
def State.entCount (s : State) (l : Nat) (p : Nat → Bool) : Nat := ((List.range (s.nent l)).filter p).length

/-- MUSTER_DEADLINE is raised for the muster: the deadline cut it, or the list's next scheduled T0 has passed (R796). -/
def State.musterLate (s : State) (l : Nat) : Bool :=
  let x := s.ml l
  x.cut || x.late || (x.next != 0 && decide (x.next < s.clk.tb.toNat))

/-- B0 of list l (Table 14-3). -/
def State.bodyB0 (s : State) (l : Nat) : Word :=
  let b (i : Nat) (v : Bool) : Nat := if v then 2 ^ i else 0
  BitVec.ofNat 32 (1 + 256 * l + b 10 (s.entCount l (fun e => (s.ent l e).status != 0) != 0) + b 11 (s.musterLate l)
    + b 12 (s.entCount l (fun e => s.entBwbad l e) != 0) + 65536 * s.nent l)

/-- The header words B2 to B7 of list l (Table 14-3). -/
def State.bodyHeader (s : State) (l : Nat) : List Word :=
  let x := s.ml l
  let stale := s.entCount l (fun e => (s.ent l e).status != 0)
  let ret := s.entCount l (fun e => (s.ent l e).retried)
  [BitVec.ofNat 32 x.t0, BitVec.ofNat 32 (x.t0 / 2 ^ 32), BitVec.ofNat 32 x.bwt, BitVec.ofNat 32 (x.bwt / 2 ^ 32),
   BitVec.ofNat 32 (stale + 65536 * ret), BitVec.ofNat 32 (s.clk.tb.toNat - x.t0)]

/-- A DS or SE port that this muster tried is judged: OK sets its CONSEC to 0; all attempted entries failing in their retry
is suspect (R940), and CONSEC at PERMN pens it with SILENT (R941). -/
def State.silent (s : State) (l p : Nat) : State :=
  let es := (List.range (s.nent l)).filter (fun e => s.entPort l e == p && (s.ent l e).tried)
  let a := Reg.PPW_PSIL_ID p
  if es.isEmpty then s
  else if es.any (fun e => (s.ent l e).status == 0) then s.setFld a 0 4 0
  else if es.all (fun e => (s.ent l e).retried && retryable (s.ent l e).status) then
    let c := min 15 (s.fld a 0 4 + 1)
    let s := s.setFld a 0 4 c
    if s.ppPermn ≤ c && !s.portPenned p then s.portPen p 0x23 else s
  else s

/-- R766 steps 3 and 4, R751, R940: once the bellwether is over and every entry is finished, the commit phase of list l: stale copies, header and TAIL in the back buffer. -/
def execCommit (n : Fin 4) (s : State) : Host.Outcome State Fault Refusal :=
  let l := n.val
  let allOver := (List.range (s.nent l)).all (fun e => decide ((s.ent l e).ph = .finished))
  if s.runs gMBM && s.listRunning l && s.listPhase l == 2 && allOver then
    let s := s.setPhase l 3
    let hdr := s.bodyHeader l
    let s := s.forEnts l (fun e s => if (s.ent l e).status = 0 then s else s.staleCopy l e)
    let b := s.back l
    let s := (s.foldWr l b (s.bodyB0 l)).foldWrs l (b + 8) hdr
    let s := s.foldWr l (b + 4 * (s.bodyLen l - 1)) (~~~ BitVec.ofNat 32 (s.ml l).num)
    done ((portIds.filter (fun p => !isTw p)).foldl (fun s p => s.silent l p) s)
  else done s

/-- The value words of entry e for its queue, where the entry is fresh and has QEN (R768). -/
def State.entWords (s : State) (l e : Nat) : List PoolWord :=
  let x := s.ent l e
  if x.status = 0 && s.entQen l e then
    let w := s.entW l e 2
    (List.range (s.entLen l e)).map (fun i => ⟨W.fld w 8 6, W.fld w 16 6, x.vals.getD i 0⟩)
  else []

/-- The engine has the value words of list l's fresh QEN entries to push through port 5, in entry order and then value order (R768).
It pushes one word in a PERI cycle: a full staging FIFO loses a word, and the pool drains the FIFO between them (R475; DESIGN CHOICE,
log entry 163). -/
def State.mbmWords (s : State) (l : Nat) : State :=
  { s with mbm := { s.mbm with pushes := s.mbm.pushes ++ (List.range (s.nent l)).flatMap (fun e => s.entWords l e) } }

/-- The flip queues the front buffer for the drover where the list's ring is enabled with its SRC and the device may write
(R773, R774). The record goes whole even where its ring has been enabled afresh with smaller slots since MUSTERSTART: no rule
checks it again, and none is truncated (R199; DESIGN CHOICE, log entry 109). -/
def State.copyQueue (s : State) (l : Nat) : State :=
  match (s.ml l).ring with
  | some k =>
    if s.recOpen k && s.fld (Reg.HIF_REC_CFG k) 8 4 == l + 1 then
      { s with mbm := { s.mbm with copies := s.mbm.copies ++ [⟨l, k, s.front l, s.bodyLen l⟩] } }
    else s
  | none => s

/-- MUSTER_DEADLINE, else MUSTER_PARTIAL with a stale entry: at most one (R796). -/
def State.musterEvents (s : State) (l : Nat) : State :=
  let num := BitVec.ofNat 32 (s.ml l).num
  if s.musterLate l then
    ((s.tally (Reg.MBM_LIST_DEADTALLY l)).mbmEvt 10 38).event evMUSTER_DEADLINE l num
  else if s.entCount l (fun e => (s.ent l e).status != 0) ≠ 0 then
    ((s.tally (Reg.MBM_LIST_PARTTALLY l)).mbmEvt 9 38).event evMUSTER_PARTIAL l num
  else s

/-- R766 steps 5 and 6, R768, R796: the flip of list l. -/
def execFoldFlip (n : Fin 4) (s : State) : Host.Outcome State Fault Refusal :=
  let l := n.val
  if s.runs gMBM && s.listRunning l && s.listPhase l == 3 then
    let b := s.back l
    let i := s.backIdx l
    let num := BitVec.ofNat 32 (s.ml l).num
    let s := if s.rdWord b = s.bodyB0 l then s else s.foldWr l b (s.bodyB0 l)
    let s := s.foldWr l (b + 4) num
    let s := ((s.wr (Reg.MBM_LIST_FRONT l) (BitVec.ofNat 32 b)).setFld (Reg.MBM_LIST_STAT l) 6 1 i).wr (Reg.MBM_LIST_NUM l) num
    let s := ((((s.mbmEvt l (34 + l)).slotTrigger (0x30 + l)).copyQueue l).droverBegin.mbmWords l).musterEvents l
    let s := s.forEnts l (fun e s => s.setEnt l e { seen := (s.ent l e).seen })
    let s := ((s.setRunning l false).setPhase l 0).setMl l { s.ml l with bells := [] }
    done (s.stopCheck l)
  else done s

/-- R773, R774: the drover ends the copy of the oldest committed buffer, which is list l's, into its record ring, and begins the next;
a record that cannot be delivered any more is dropped. -/
def execDroverCopy (n : Fin 4) (s : State) : Host.Outcome State Fault Refusal :=
  match s.mbm.copies with
  | c :: r =>
    if c.list ≠ n.val || !s.runs gMBM || s.startHeld c.list then done s
    else
      let s := s.droverBegin
      let go := s.mbm.begun && s.copyOpen c
      let s := { s with mbm := { s.mbm with copies := r, begun := false } }
      let s := if go then
          let (body, s) := State.readBody c.len c.addr (s.mbmSpend c.list c.addr c.len)
          s.recEnd c.ring c.list 1 body
        else s
      done (s.droverBegin.stopCheck c.list)
  | [] => done s

/-! ### Loading and starting a list -/

/-- The XARG checks of a two-wire entry (R812). -/
def twXargOk (x : Word) : Bool :=
  let form := W.fld x 0 2
  let crc := W.bit x 3
  let wrap := W.fld x 4 4
  let mb := W.fld x 8 8
  decide (wrap ≤ 8) && (wrap == 0 || ((form == 1 || form == 2) && !crc))
    && (mb == 0 || decide ((if crc then 3 else 2) ≤ mb)) && (W.fld x 16 8 == 0 || form == 2) && (W.fld x 24 8 == 0 || form == 3)

/-- The XARG checks of a stencil entry (R888). -/
def seXargOk (x : Word) (len : Nat) : Bool :=
  W.fld x 2 6 == 0 && W.fld x 16 16 == 0 && W.fld x 0 2 != 3 && (W.fld x 8 8 == 0 || W.fld x 0 2 == 2) && decide (len ≤ 16)

/-- The checks of an entry descriptor (R746). -/
def State.entOk (s : State) (w0 w1 w2 x : Word) : Bool :=
  let p := W.fld w0 0 8
  let len := W.fld w0 8 8 + 1
  let addr := W.fld w0 24 7
  isPort p && w0 &&& 0x80F80000 == 0 && w1 &&& 0xF000 == 0 && w2 &&& 0xFFC0C000 == 0
    && (!W.bit w0 18 || decide (len ≤ 7))
    && (if isTw p then decide (0x08 ≤ addr) && decide (addr ≤ 0x77) && twXargOk x
        else if isDs p then
          decide (addr ≤ 3) && dsEntryOk (s.rd (Reg.DS_PROF (p - 0x10) (W.fld x 0 2))) x len
        else decide (addr ≤ 7) && seXargOk x len)

/-- The first faulty descriptor of a list, counting from i (R746). -/
def State.entFault (s : State) : List Word → Nat → Option Nat
  | w0 :: w1 :: w2 :: x :: r, i => if s.entOk w0 w1 w2 x then State.entFault s r (i + 1) else some i
  | _, _ => none

/-- Descriptors of lists other than l, which are loaded (R744). -/
def State.entsElsewhere (s : State) (l : Nat) : Nat :=
  (List.range 4).foldl (fun k m => if m = l then k else k + s.nent m) 0

/-- List l is loaded whole: descriptors; entries in service with tallies cleared; numbering from 1 (R263, R744, R750, R765). -/
def State.listLoad (s : State) (l cnt : Nat) (ws : List Word) : State :=
  let inR (a lo n : Nat) : Bool := decide (lo ≤ a) && decide (a < lo + n)
  let s := { s with regs := tkeep (fun a => !(inR a (Reg.MBM_ENTDESC l 0 0) 0x1000 || inR a (Reg.MBM_ENTSTAT l 0) 0x400
    || inR a (Reg.MBM_ENTTALLY l 0) 0x400)) s.regs }
  let s := (s.wrRegs (Reg.MBM_ENTDESC l 0 0) ws).setMl l {}
  let s := s.wr (Reg.MBM_LIST_STAT l) (BitVec.ofNat 32 (1 + 65536 * cnt))
  let s := (s.wr (Reg.MBM_LIST_FRONT l) 0).wr (Reg.MBM_LIST_NUM l) 0
  let s := s.wr (Reg.MBM_LIST_LEN l) (BitVec.ofNat 32 (s.bodyLen l % 2048))
  s.wr Reg.MBM_ENTFREE (BitVec.ofNat 32 (512 - (s.entsElsewhere l + cnt)))

/-- The bytes of list l's fold: its two buffers (R765). -/
def State.foldSize (s : State) (l : Nat) : Nat := s.foldBuf l 2 - s.foldBuf l 0

/-- The fold of list l lies in shared SRAM and overlaps no other active list's (R780). -/
def State.foldOk (s : State) (l : Nat) : Bool :=
  decide (s.foldBuf l 2 ≤ 0x200000) &&
    (List.range 4).all (fun m => m == l || !s.listActive m || decide (s.foldBuf l 2 ≤ s.foldBuf m 0)
      || decide (s.foldBuf m 2 ≤ s.foldBuf l 0))

/-- The list names a DDR serial port in target mode (R849). -/
def State.listTarget (s : State) (l : Nat) : Bool := (List.range (s.nent l)).any (fun e => s.portTarget (s.entPort l e))

/-- The booking of list l at a period (R439). -/
def State.listBooking (s : State) (l period : Nat) : Nat :=
  let p := if period = 0 then 100 else period
  max 1 ((8 * (s.bodyLen l + 4) + p - 1) / p)

/-- List l becomes active and booked (R264). -/
def State.listStart (s : State) (l : Nat) (ring : Option Nat) (period book : Nat) : State :=
  let s := (s.setActive l true).setMl l { s.ml l with ring := ring, stopping := false, next := 0, tokens := [] }
  let s := { s with mbm := { s.mbm with last := some l } }
  let s := (s.wr (Reg.MBM_LIST_PERIOD l) (BitVec.ofNat 32 period)).wr (Reg.MBM_LIST_BOOK l) (BitVec.ofNat 32 book)
  s.setFld Reg.XLT_LEDGER 0 16 (s.ledger + book)

/-- A write of MBM.CTRL; BWCODE 0x00, 0x04 and 0x06 leave BWCODE unchanged and set CFGERR (R782). -/
def State.mbmCtrlWrite (s : State) (val : Word) : State :=
  let q := W.fld val 16 8
  let bad := q = 0 || q = 4 || q = 6
  let s := s.wr Reg.MBM_CTRL (W.setFld (val &&& 0x00FF000F) 16 8 (if bad then s.fld Reg.MBM_CTRL 16 8 else q))
  if bad then s.setBit Reg.MBM_STATUS 8 true else s

end Sys2Proof.Machine
end

