-- ==== Sys2Proof/Machine/Pwm.lean ====
section
/-!
DEFINITION. Chapter 13, the PWM modules: counters and events, load points, synchronisation, output enables, trips, the
delay line, and open-load diagnosis.
-/
namespace Sys2Proof.Machine

/-! ### Counting (R684 to R688) -/

/-- MODE of module m; 3 acts as UP (Table 13-1). -/
def State.pwmMode (s : State) (m : Nat) : Nat := let v := s.fld (Reg.PWM_CFG m) 0 2; if v = 3 then 0 else v

/-- The active period; below 2 acts as 2 (R685). -/
def State.pwmPrd (s : State) (m : Nat) : Nat := max 2 (s.pm m).prd

/-- The present count and slope (COUNT bits 15:0 and 16, R684). -/
def State.pwmCount (s : State) (m : Nat) : Nat := s.fld (Reg.PWM_COUNT m) 0 16
def State.pwmDown (s : State) (m : Nat) : Bool := s.bit (Reg.PWM_COUNT m) 16

/-- The counter of module m stands at the HRT edge at which it came to count `c`. -/
def State.pwmAt (s : State) (m c : Nat) : Bool := s.pwmCount m == c && (s.pm m).since == 0

/-- The count and slope set at an HRT edge: the edge in hand where the count stands there already, else a new one. -/
def State.setCount (s : State) (m c : Nat) (down : Bool) : State :=
  ((s.setFld (Reg.PWM_COUNT m) 0 16 c).setBit (Reg.PWM_COUNT m) 16 down).setPm m
    { s.pm m with since := 0, fired := if s.pwmAt m c then (s.pm m).fired else 0 }

/-- Event e of module m has been raised at the HRT edge in hand. -/
def State.pwmRaised (s : State) (m e : Nat) : Bool := (s.pm m).since == 0 && (s.pm m).fired.testBit e

/-- The slope on which the counter of module m came to its count: in UPDOWN the edge that raises ZERO ends a down slope and the
one that raises PERIOD an up slope (Table 13-1). -/
def State.edgeDown (s : State) (m : Nat) : Bool :=
  if s.pwmMode m = 2 && s.pwmRaised m 0 then true
  else if s.pwmMode m = 2 && s.pwmRaised m 1 then false
  else s.pwmDown m

/-- The counter of module m comes to `c` on a slope that it is on, before it turns or wraps, or stands there at this edge. -/
def State.pwmAhead (s : State) (m c : Nat) (down : Bool) : Bool :=
  if s.pwmAt m c then s.edgeDown m == down
  else if s.pwmMode m = 2 && s.pwmDown m != down then false
  else if down then decide (c < s.pwmCount m) else decide (s.pwmCount m < c)

/-- A compare as it acts: its fine field acts as 0 until DLLOCK (R707). -/
def State.fine (s : State) (c : Nat) : Nat := if s.bit Reg.PWM_DLSTAT 0 then c else c / 16 * 16

/-- A channel at a position whose compare lies above it (`below`), on an up or a down slope (R687, R688). -/
def PwmCh.at (x : PwmCh) (down below : Bool) (edge : Int := 0) : PwmCh :=
  let a := if down then x.turned || below else !x.turned && below
  { x with act := a, turned := x.turned || (if down then !x.act && a else x.act && !a),
           edge := if x.act = a then x.edge else edge }

/-- Both channels of module m follow the count (R687); a fresh slope forgets what turned on the last. -/
def State.pwmFollow (s : State) (m : Nat) (fresh : Bool) : State :=
  let x := s.pm m
  let p := 16 * s.pwmCount m
  let d := s.pwmDown m
  let f (c : PwmCh) (cmp : Nat) : PwmCh :=
    if fresh then { c with act := decide (p < s.fine cmp), turned := false, edge := 0 } else c.at d (decide (p < s.fine cmp))
  s.setPm m { x with chA := f x.chA x.ca, chB := f x.chB x.cb }

/-- HRT cycles in which the counter of module m goes from its present count to `c` by its mode (Table 13-1). -/
def State.pwmGap (s : State) (m c : Nat) : Nat :=
  let c0 := s.pwmCount m
  let p := s.pwmPrd m
  match s.pwmMode m with
  | 0 => if c0 < c then c - c0 else p + 1 - c0 + c
  | 1 => if c < c0 then c0 - c else c0 + p + 1 - c
  | _ => if s.pwmDown m then c0 - c else c - c0

/-! ### Pulses at the output balls: dead-time and stretching (R691, R703, R710, R712, R715) -/

/-- Output o's diagnosis beside its registers. -/
def State.dg (s : State) (o : Nat) : Diag := tget {} s.diag o
def State.setDg (s : State) (o : Nat) (x : Diag) : State := { s with diag := tset {} s.diag o x }

/-- BLANK + SETTLE in HRT cycles, SETTLE brought into 160–8000 (R708). -/
def State.diagLimit (s : State) (o : Nat) : Nat :=
  s.fld (Reg.PWM_DIAGCFG o) 16 10 + min 8000 (max 160 (s.fld (Reg.PWM_DIAGTIM o) 0 13))

/-- The on-time of a stretched pulse of output o (R710). -/
def State.stretchLen (s : State) (o : Nat) : Nat := s.diagLimit o + 16

/-- That on-time fits in the period of the output's module (R710). -/
def State.stretchFits (s : State) (o : Nat) : Bool :=
  let m := o / 2
  decide (s.stretchLen o ≤ if s.pwmMode m = 2 then 2 * s.pwmPrd m else s.pwmPrd m + 1)

/-- PWM.PROBEINT in CORE cycles: 0 acts as 1 s, above 60 as 60 s. -/
def State.probeInt (s : State) : Nat := min 60 (max 1 (s.fld Reg.PWM_PROBEINT 0 6)) * 400000000

/-- Pulses of output o can be stretched: its diagnosis runs with PROBE, and the stretched on-time fits (R710). -/
def State.mayStretch (s : State) (o : Nat) : Bool :=
  s.bit (Reg.PWM_DIAGCFG o) 0 && s.bit (Reg.PWM_DIAGCFG o) 6 && s.stretchFits o

/-- A pulse of output o that begins now is to be a probe (R710). -/
def State.probeWanted (s : State) (o : Nat) : Bool :=
  let run := decide (max 1 (s.fld (Reg.PWM_DIAGTIM o) 16 16) ≤ s.fld (Reg.PWM_DIAGSTAT o) 16 16)
  let past := match (s.dg o).probed with
    | none => true
    | some t => decide (t + s.probeInt ≤ s.clk.tb.toNat)
  s.bit (Reg.PWM_DIAGCFG o) 0 && s.bit (Reg.PWM_DIAGCFG o) 6 && run && past

/-- A pulse of output o that begins now is a probe: it is to be one, and its stretched on-time fits (R710). -/
def State.probeDue (s : State) (o : Nat) : Bool := s.probeWanted o && s.stretchFits o

/-- A probe of output o began at a timebase: its start is remembered, and the run of UNVERIFIED pulses starts afresh (R709,
R710). -/
def State.probeMark (s : State) (o t0 : Nat) : State :=
  (s.setDg o { s.dg o with probed := some t0 }).setFld (Reg.PWM_DIAGSTAT o) 16 16 0

/-- Starved (R711): the flag, and OUTPUT_DIAG with DATA 2 once per run. -/
def State.diagStarve (s : State) (o : Nat) : State :=
  if s.bit (Reg.PWM_DIAGSTAT o) 3 then s else (s.setBit (Reg.PWM_DIAGSTAT o) 3 true).event evOUTPUT_DIAG o 2

/-- The turn-on edge of output ch of module m comes, `k` HRT cycles ago: a probe, which is stretched; the retry of a FAIL, which
is stretched where it would be UNVERIFIED (R710, R712); or any other pulse. A probe that does not fit leaves the output starved (R711). -/
def State.pwmTurnOn (s : State) (m ch k : Nat) : State :=
  let o := 2 * m + ch
  let due := s.probeDue o
  let below := if due then s.stretchLen o else if s.mayStretch o && (s.dg o).retry then s.diagLimit o else 0
  let s := s.setPwmCh m ch { s.pwmCh m ch with wait := 0, on := k, t0 := s.clk.tb.toNat, probe := below }
  let s := s.setDg o { s.dg o with judged := false }
  if due then s.probeMark o s.clk.tb.toNat else if s.probeWanted o then s.diagStarve o else s

/-- The channel of output ch of module m turns off in a pulse that is to be stretched: the pulse goes on (R710), and a stretched
retry is a probe (R712). -/
def State.pwmStretch (s : State) (m ch : Nat) : State :=
  let o := 2 * m + ch
  let x := s.pwmCh m ch
  let s := s.setPwmCh m ch { x with hold := s.stretchLen o - x.on }
  if x.probe = s.stretchLen o then s else s.probeMark o x.t0

/-- The dead-time of output ch of module m in HRT cycles (R691). -/
def State.deadTime (s : State) (m ch : Nat) : Nat := s.fld (Reg.PWM_DT m) (16 * ch) 10

/-- A pulse of output ch of module m ends at its turn-off edge after `t` HRT cycles; where its diagnosis runs, a pulse that has not been
classified is now (R708). -/
def State.pulseEnd (s : State) (m ch t : Nat) : State :=
  let o := 2 * m + ch
  let d := s.dg o
  if !s.bit (Reg.PWM_DIAGCFG o) 0 then s
  else s.setDg o { d with judged := false, ended := if d.judged then d.ended else d.ended ++ [t] }

/-- Output ch of module m after a change; `was`: its channel was live before. A turn-on edge waits for the dead-time, and that of
B under COMPL for a stretched pulse of A as well (R691, R703, R715). A pulse to be stretched goes on after its channel has
turned off (R710). -/
def State.pwmTurn (s : State) (m ch : Nat) (was : Bool) : State :=
  let x := s.pwmCh m ch
  if !s.pwmFree m ch then s.setPwmCh m ch x.safe
  else if s.pwmLive m ch then
    if was then s
    else
      let d := s.deadTime m ch + (if ch = 1 && s.bit (Reg.PWM_CFG m) 2 then (s.pwmCh m 0).hold else 0)
      if d = 0 then (if x.hold = 0 then s.pwmTurnOn m ch 0 else s) else s.setPwmCh m ch { x with wait := d + 1 }
  else if !was then s
  else if x.wait = 0 && decide (x.on < x.probe) then s.pwmStretch m ch
  else if x.hold ≠ 0 then s.setPwmCh m ch { x with wait := 0 }
  else (if x.wait = 0 then s.pulseEnd m ch x.on else s).setPwmCh m ch x.safe

/-- `k` HRT cycles pass at output ch of module m. -/
def State.pwmAgeCh (s : State) (m ch k : Nat) : State :=
  let x := s.pwmCh m ch
  let on := if s.pwmDriven m ch then x.on + k else x.on
  let y := { x with wait := x.wait - k, hold := x.hold - k, on := on }
  if x.wait ≠ 0 && y.wait = 0 && s.pwmLive m ch then
    (if y.hold = 0 then (s.setPwmCh m ch y).pwmTurnOn m ch (k + 1 - x.wait) else s.setPwmCh m ch y)
  else if x.hold ≠ 0 && y.hold = 0 && !s.pwmLive m ch then (s.pulseEnd m ch (x.on + x.hold)).setPwmCh m ch y.safe
  else s.setPwmCh m ch y

/-- `k` HRT cycles pass at the outputs of module m. -/
def State.pwmPass (s : State) (m k : Nat) : State :=
  let t := (s.pwmAgeCh m 0 k).pwmAgeCh m 1 k
  (t.setPm m { t.pm m with since := (t.pm m).since + k, fired := if k = 0 then (t.pm m).fired else 0 }).pwmBlank m s

/-- HRT cycles to a count that the counter of module m comes to before it turns or wraps, or as it wraps (Table 13-1). -/
def State.pwmAway (s : State) (m c : Nat) : Option Nat :=
  let c0 := s.pwmCount m
  let p := s.pwmPrd m
  if s.pwmMode m = 0 ∨ (s.pwmMode m = 2 ∧ !s.pwmDown m) then
    (if c0 < c ∧ c ≤ p then some (c - c0) else if c = 0 ∧ s.pwmMode m = 0 then some (p + 1 - c0) else none)
  else (if c < c0 then some (c0 - c) else if c = p ∧ s.pwmMode m = 1 then some (c0 + 1) else none)

/-- HRT cycles for which the counter of module m counts on without an event: those before its next ZERO, PERIOD or compare. -/
def State.pwmRoom (s : State) (m : Nat) : Nat :=
  match ([0, s.pwmPrd m, (s.pm m).ca / 16, (s.pm m).cb / 16].filterMap (s.pwmAway m)).foldl
      (fun (b : Option Nat) g => some (match b with | none => g | some x => min x g)) none with
  | some g => g - 1
  | none => 0

/-- The counter of module m counts `k` HRT cycles, up to the one before its next event, whose command brings the count (R684). -/
def State.pwmCountOn (s : State) (m k : Nat) : State :=
  let n := (s.pm m).excess + k
  let j := min n (s.pwmRoom m)
  let c := if s.pwmMode m = 1 || (s.pwmMode m = 2 && s.pwmDown m) then s.pwmCount m - j else s.pwmCount m + j
  (s.setFld (Reg.PWM_COUNT m) 0 16 c).setPm m { s.pm m with excess := n - j }

/-- `k` HRT cycles pass at module m, which counts or ends a stretched pulse. -/
def State.pwmAge (s : State) (m k : Nat) : State :=
  if s.runs gPWM && (s.pwmRun m || (s.pm m).chA.hold != 0 || (s.pm m).chB.hold != 0) then
    let t := s.pwmPass m k
    if t.pwmRun m then t.pwmCountOn m k else t
  else s

/-- The HRT cycles up to the count `c` that no idle step has counted have passed as the counter of module m reaches it. -/
def State.pwmReach (s : State) (m c : Nat) : State :=
  if s.pwmAt m c then s
  else
    let g := s.pwmGap m c
    let o := (s.pm m).excess
    (s.setPm m { s.pm m with excess := o - g }).pwmPass m (g - o)

/-- The state after a change at module m from `s`: the outputs take their turn-on and turn-off edges (R691, R533). -/
def State.pwmEdges (t : State) (m : Nat) (s : State) : State :=
  ((t.pwmTurn m 0 (s.pwmLive m 0)).pwmTurn m 1 (s.pwmLive m 1)).pwmBlank m s

/-! ### Events (R695 to R697) -/

/-- Event output k of module m fires: INT, TRG0, TRG1, STRG (Table 13-3). -/
def State.pwmFire (s : State) (m k : Nat) : State :=
  match k with
  | 0 => s.source (8 + m)
  | 1 => s.trigger (0x01 + m)
  | 2 => s.trigger (0x11 + m)
  | _ => s.slotTrigger (0x10 + m)

/-- A selected event reaches event output k: every PRE-th fires it, at the HRT edge of the event (R696, R697). -/
def State.pwmSelected (s : State) (m e k : Nat) : State :=
  let pre := s.fld (Reg.PWM_EVPRE m) (8 * k) 4
  if !s.bit (Reg.PWM_EVSEL m) (8 * k + e) || pre = 0 then s
  else
    let x := s.pm m
    let c := tget 0 x.pre k + 1
    if pre ≤ c then
      let t := s.setPm m { x with pre := tset 0 x.pre k 0, fired := bitSet x.fired (6 + k) true }
      if x.fired.testBit (6 + k) then t else t.pwmFire m k
    else s.setPm m { x with pre := tset 0 x.pre k c }

/-- Module m raises event e: 0 ZERO, 1 PERIOD, 2 CAU, 3 CAD, 4 CBU, 5 CBD. Its SYNCOUT reaches the next module (R698). -/
def State.pwmEvent (s : State) (m e : Nat) : State :=
  let so := s.fld (Reg.PWM_CFG m) 11 2
  let s := if (so == 1 && e == 0) || (so == 2 && e == 1) || (so == 3 && e == 2) then
      (if m < 11 then s.setPm (m + 1) { s.pm (m + 1) with sync := true } else s)
    else s
  let s := s.setPm m { s.pm m with fired := bitSet (s.pm m).fired e true }
  (((s.pwmSelected m e 0).pwmSelected m e 1).pwmSelected m e 2).pwmSelected m e 3

/-- The event prescalers count from the first selected event again (R696). -/
def State.pwmPreReset (s : State) (m : Nat) : State := s.setPm m { s.pm m with pre := [] }

/-! ### Load points (R692 to R694) -/

/-- The last value sent to shadow k of module m that meets a condition; where none has been sent, the shadow's own (R693). -/
def State.shadowVal (s : State) (m k : Nat) (ok : Shadow → Bool) : Option Nat :=
  let l := tget [] (s.pm m).sh k
  if l.isEmpty then some (s.rd (shadowReg m k)).toNat else ((l.filter ok).getLast?).map (·.val)

/-- A value of shadow k (0 PRD, 1 CMPA, 2 CMPB) of module m is copied to its active register. -/
def State.pwmLoad (s : State) (m k : Nat) (v : Option Nat) : State :=
  match v with
  | none => s
  | some v =>
    let x := s.pm m
    s.setPm m (match k with
      | 0 => { x with prd := v % 2 ^ 16 }
      | 1 => { x with ca := v % 2 ^ 20 }
      | _ => { x with cb := v % 2 ^ 20 })

/-- The load point of shadow k: 0 ZERO, 1 PERIOD, 2 both, 3 IMMEDIATE. -/
def State.pwmLd (s : State) (m k : Nat) : Nat := s.fld (Reg.PWM_CFG m) (5 + 2 * k) 2

/-- A load point of kind `z` (0 ZERO, 1 PERIOD): every shadow that selects it is copied, with the last value that reached it 20 ns
before (R693). -/
def State.pwmLoads (s : State) (m z : Nat) : State :=
  forN 3 (fun k s =>
    if s.pwmLd m k == z || s.pwmLd m k == 2 then
      s.pwmLoad m k (s.shadowVal m k (fun e => decide (e.pt ≤ s.clk.tb.toNat)))
    else s) s

/-- The value of shadow k of module m that an IMMEDIATE load takes: the last one whose 20 ns have passed (R693). -/
def State.pwmImm (s : State) (m k : Nat) : Option Nat :=
  if s.pwmLd m k = 3 then s.shadowVal m k (fun e => decide (e.imm ≤ s.clk.tb.toNat)) else none

/-! ### ZERO and PERIOD -/

/-- No trip line that module m selects is active (R704). -/
def State.tripQuiet (s : State) (m : Nat) : Bool := s.tripLines &&& s.fld (Reg.PWM_TRIPSEL m) 0 24 == 0

/-- The trip of module m lets go at a ZERO event: cycle-by-cycle with no selected line active, one-shot with TRIPPED clear
(R705). -/
def State.tripRelease (s : State) (m : Nat) : State :=
  let go := if s.bit (Reg.PWM_CFG m) 15 then !s.bit Reg.PWM_TRIPPED m else s.tripQuiet m
  if s.pwmTripped m && go then s.setBit (Reg.PWM_COUNT m) 17 false else s

/-- Enable requests of module m take effect (R702). -/
def State.enTake (s : State) (m : Nat) : State :=
  let x := s.pm m
  (s.setFld (Reg.PWM_OUT m) 0 2 (s.fld (Reg.PWM_OUT m) 0 2 ||| x.enReq)).setPm m { x with enReq := 0 }

/-- The ZERO event of module m: loads, trip release, enables, event outputs (R692, R695, R702, R705). -/
def State.pwmZeroEv (s : State) (m : Nat) : State :=
  let s := ((s.pwmLoads m 0).tripRelease m).enTake m
  let x := s.pm m
  let s := s.setPm m { x with tripLast := x.tripCur, tripCur := s.pwmTripped m }
  s.pwmEvent m 0

/-- The PERIOD event of module m. -/
def State.pwmPeriodEv (s : State) (m : Nat) : State := (s.pwmLoads m 1).pwmEvent m 1

/-- Module m counts: its block runs and RUN is 1. -/
def State.pwmCounts (s : State) (m : Nat) : Bool := s.runs gPWM && s.pwmRun m

/-- A channel whose compare a load point has replaced: the old one governs up to the next HRT edge, at position `p` on the same
slope, the new one from it (R688, R692). -/
def PwmCh.reload (x : PwmCh) (down : Bool) (p old new : Nat) : PwmCh :=
  if old = new then x else (x.at down (decide (p < old))).at down (decide (p < new))

/-- The channels of module m at the HRT edge after a load point that begins a slope; `s`: the state before the load (R692). -/
def State.pwmReload (t : State) (m : Nat) (s : State) : State :=
  let x := t.pm m
  let d := t.pwmDown m
  let p := if d then 16 * (t.pwmCount m - 1) else 16 * (t.pwmCount m + 1)
  t.setPm m { x with chA := x.chA.reload d p (s.fine (s.pm m).ca) (t.fine x.ca)
                     chB := x.chB.reload d p (s.fine (s.pm m).cb) (t.fine x.cb) }

/-- Module m counts into 0: an up slope starts in UP and UPDOWN. -/
def State.pwmZero (s : State) (m : Nat) : State :=
  let down := s.pwmMode m == 1
  let s := s.pwmReach m 0
  let t := ((s.setCount m 0 down).pwmFollow m (!down)).pwmZeroEv m
  (if down then t else t.pwmReload m s).pwmEdges m s

/-- Module m counts into PRD: a down slope starts in DOWN and UPDOWN. -/
def State.pwmPeriod (s : State) (m : Nat) : State :=
  let down := s.pwmMode m != 0
  let s := s.pwmReach m (s.pwmPrd m)
  let t := ((s.setCount m (s.pwmPrd m) down).pwmFollow m down).pwmPeriodEv m
  (if down then t.pwmReload m s else t).pwmEdges m s

/-- Module m counts into 0 or PRD, on a slope that leads there; the edge in hand raises each event once. -/
def State.zeroDue (s : State) (m : Nat) : Bool :=
  s.pwmCounts m && !s.pwmRaised m 0 && (s.pwmMode m != 2 || s.pwmAhead m 0 true)
def State.periodDue (s : State) (m : Nat) : Bool :=
  s.pwmCounts m && !s.pwmRaised m 1 && (s.pwmMode m != 2 || s.pwmAhead m (s.pwmPrd m) false)

/-- R684, R692, R695, R702, R705: PWMm counts into 0. -/
def execZero (m : Fin 12) (s : State) : Host.Outcome State Fault Refusal :=
  done (if s.zeroDue m.val then s.pwmZero m.val else s)

/-- R684, R692, R695: PWMm counts into PRD. -/
def execPeriod (m : Fin 12) (s : State) : Host.Outcome State Fault Refusal :=
  done (if s.periodDue m.val then s.pwmPeriod m.val else s)

/-! ### Compare events -/

/-- The active compare of channel A (0) or B (1). -/
def State.pwmCmp (s : State) (m ch : Nat) : Nat := if ch = 0 then (s.pm m).ca else (s.pm m).cb

/-- Event of a compare: 2 CAU, 3 CAD, 4 CBU, 5 CBD. -/
def cmpEvent (ch : Nat) (down : Bool) : Nat := 2 + 2 * ch + if down then 1 else 0

/-- Module m counts into the coarse part of a compare on a slope of its mode (R695). -/
def State.matchDue (s : State) (m ch : Nat) (down : Bool) : Bool :=
  let c := s.pwmCmp m ch / 16
  s.pwmCounts m && (if down then s.pwmMode m != 0 else s.pwmMode m != 1) && decide (c ≤ s.pwmPrd m) &&
    !s.pwmRaised m (cmpEvent ch down) && s.pwmAhead m c down

/-- Module m counts into the coarse part of a compare (R687, R695): the channel ends its pulse on an up slope and starts it on a
down slope, but for an edge that has begun the next slope already. The edge lies the fine part after the count on an up slope, and
before it on a down slope. -/
def State.pwmMatch (s : State) (m ch : Nat) (down : Bool) : State :=
  let c := s.pwmCmp m ch
  let f := s.fine c
  if !s.matchDue m ch down then s
  else if s.pwmAt m (c / 16) && s.pwmDown m != down then s.pwmEvent m (cmpEvent ch down)
  else
    let s := s.pwmReach m (c / 16)
    let t := s.setCount m (c / 16) down
    let x := t.pm m
    let e : Int := if down then -(f % 16 : Nat) else (f % 16 : Nat)
    let t := if ch = 0 then t.setPm m { x with chA := x.chA.at down (down && f != 0) e }
      else t.setPm m { x with chB := x.chB.at down (down && f != 0) e }
    (t.pwmEvent m (cmpEvent ch down)).pwmEdges m s

/-- R695: the count becomes CA[19:4] on an up slope. -/
def execCau (m : Fin 12) (s : State) : Host.Outcome State Fault Refusal := done (s.pwmMatch m.val 0 false)
/-- R695: the count becomes CA[19:4] on a down slope. -/
def execCad (m : Fin 12) (s : State) : Host.Outcome State Fault Refusal := done (s.pwmMatch m.val 0 true)
/-- R695: the count becomes CB[19:4] on an up slope. -/
def execCbu (m : Fin 12) (s : State) : Host.Outcome State Fault Refusal := done (s.pwmMatch m.val 1 false)
/-- R695: the count becomes CB[19:4] on a down slope. -/
def execCbd (m : Fin 12) (s : State) : Host.Outcome State Fault Refusal := done (s.pwmMatch m.val 1 true)

/-- R693, R694: values with IMMEDIATE load become active 20 ns after they came; a PRD at or below the count turns the counter. -/
def execImmediateLoad (m : Fin 12) (s : State) : Host.Outcome State Fault Refusal :=
  let m := m.val
  if !s.runs gPWM then done s
  else
    let t := forN 3 (fun k s => s.pwmLoad m k (s.pwmImm m k)) s
    let turns := (s.pwmImm m 0).isSome && t.pwmCounts m && decide (t.pwmPrd m ≤ t.pwmCount m) && t.pwmPrd m != s.pwmPrd m
    let t :=
      if turns && t.pwmMode m == 0 then (((t.setCount m 0 false).pwmFollow m true).pwmZeroEv m).pwmReload m t
      else if turns && t.pwmMode m == 2 && !t.pwmDown m then
        (((t.setCount m (t.pwmCount m) true).pwmFollow m true).pwmPeriodEv m).pwmReload m t
      else t.pwmFollow m false
    done (t.pwmEdges m s)

/-! ### Synchronisation and start -/

/-- The slope of module m by its mode; `dir` in UPDOWN (R698). -/
def State.pwmSlope (s : State) (m : Nat) (dir : Bool) : Bool :=
  if s.pwmMode m = 0 then false else if s.pwmMode m = 1 then true else dir

/-- A count and slope are loaded: a loaded count raises no event (R695), and the channels follow it. -/
def State.countLoad (s : State) (m c : Nat) (down : Bool) : State :=
  let s := s.setCount m c down
  (s.setPm m { s.pm m with fired := 0x3F, excess := 0 }).pwmFollow m true

/-- PHASE loads into the counter of module m (R698); `dir` is the slope in UPDOWN. -/
def State.pwmPhase (s : State) (m : Nat) (dir : Bool) : State :=
  s.countLoad m (s.fld (Reg.PWM_PHASE m) 0 16) (s.pwmSlope m dir)

/-- R698, R737: a SYNCIN reaches PWMm and loads PHASE where SYNCEN is set. -/
def execSyncin (m : Fin 12) (s : State) : Host.Outcome State Fault Refusal :=
  let m := m.val
  if !s.runs gPWM || !(s.pm m).sync then done s
  else
    let t := s.setPm m { s.pm m with sync := false }
    if t.bit (Reg.PWM_CFG m) 13 && t.pwmRun m then done ((t.pwmPhase m (t.bit (Reg.PWM_CFG m) 14)).pwmEdges m s) else done t

/-- A write of PWM.GSYNC (R698). -/
def State.gsync (s : State) (val : Word) : State :=
  if W.bit val 0 && s.runs gPWM then s.setPm 0 { s.pm 0 with sync := true } else s

/-- R698: a write of PWM.GSYNC. -/
def execGsync (val : Word) (s : State) : Host.Outcome State Fault Refusal := done (s.gsync val)

/-- Module m starts from PHASE (R699, R696). -/
def State.pwmStart (s : State) (m : Nat) : State :=
  (((s.setBit (Reg.PWM_CFG m) 16 true).pwmPhase m false).pwmPreReset m).pwmEdges m s

/-- RUN of module m has been set by a write of CFG: the counter goes on from its value in its mode (R684, R686, R696). -/
def State.pwmResume (s : State) (m : Nat) : State :=
  (s.countLoad m (s.pwmCount m) (s.pwmSlope m (s.pwmDown m))).pwmPreReset m

/-- A write of PWM.GSTART; in a gated block it would make modules busy (R80). -/
def State.gstart (s : State) (val : Word) : State :=
  if s.gatedBit gPWM then (if W.fld val 0 12 = 0 then s else s.wlrej Reg.PWM_GSTART)
  else forN 12 (fun m s => if W.bit val m then s.pwmStart m else s) s

/-- R699: a write of PWM.GSTART. -/
def execGstart (val : Word) (s : State) : Host.Outcome State Fault Refusal := done (if s.live then s.gstart val else s)

/-! ### Output enables and trips -/

/-- A halt of Table 13-4 holds, from its request on: of the engine, or of a core in SAFECFG. -/
def State.haltHolds (s : State) : Bool :=
  s.kleHalted || (List.range 4).any fun n => s.bit Reg.DBG_SAFECFG n && (s.bit Reg.DBG_STATUS n || s.bit Reg.DBG_HALTREQ n)

/-- A write of OUT of module m (R702): a 0 clears at once, a 1 waits for ZERO or is ignored, with REENREJ. -/
def State.outWrite (s : State) (m : Nat) (val : Word) : State :=
  let now := s.fld (Reg.PWM_OUT m) 0 2
  let want := W.fld val 0 2
  let x := s.pm m
  let refused := s.haltHolds || s.bit Reg.PWM_TRIPPED m || !s.pwmRun m
  let rising := want &&& (3 - now)
  let s := s.setFld (Reg.PWM_OUT m) 0 2 (now &&& want)
  if refused && want != 0 then (s.setPm m { x with enReq := x.enReq &&& want }).setBit Reg.PWM_STATUS 16 true
  else s.setPm m { x with enReq := rising }

/-- R702: a write of OUT of PWMm. -/
def execOutEnableWrite (m : Fin 12) (val : Word) (s : State) : Host.Outcome State Fault Refusal :=
  done (if s.live then (s.outWrite m.val val).pwmEdges m.val s else s)

/-- Module m trips (R704 to R706): outputs safe, TRIPPED for one-shot, PWM_TRIP with the comparators active. -/
def State.pwmTrip (s : State) (m : Nat) : State :=
  let x := s.pm m
  let oneShot := s.bit (Reg.PWM_CFG m) 15
  let raise := if oneShot then !s.bit Reg.PWM_TRIPPED m else !x.tripCur && !x.tripLast
  let t := (s.setBit (Reg.PWM_COUNT m) 17 true).setPm m { x with tripCur := true }
  let t := if oneShot then t.setBit Reg.PWM_TRIPPED m true else t
  let t := if raise then t.event evPWM_TRIP m (BitVec.ofNat 32 (s.tripLines % 65536)) else t
  t.pwmEdges m s

/-- A write of SWTRIP of module m (R704). -/
def State.swtrip (s : State) (m : Nat) (val : Word) : State := if W.bit val 0 && s.runs gPWM then s.pwmTrip m else s

/-- R704: a write of SWTRIP of PWMm. -/
def execSwtrip (m : Fin 12) (val : Word) (s : State) : Host.Outcome State Fault Refusal := done (s.swtrip m.val val)

/-- R704: a trip line that PWMm selects is active. -/
def execPwmTrip (m : Fin 12) (s : State) : Host.Outcome State Fault Refusal :=
  done (if s.runs gPWM && !s.tripQuiet m.val then s.pwmTrip m.val else s)

/-- A W1C write of TRIPPED; a bit with a selected line active stays set (R705). -/
def State.trippedClear (s : State) (val : Word) : State :=
  forN 12 (fun m s => if W.bit val m && s.tripQuiet m then s.setBit Reg.PWM_TRIPPED m false else s) s

/-- R707: the delay line locks. -/
def execDelayLineLock (s : State) : Host.Outcome State Fault Refusal :=
  done (if s.live then s.setBit Reg.PWM_DLSTAT 0 true else s)

/-! ### Open-load diagnosis (R708 to R715) -/

/-- An UNVERIFIED pulse of output o (R709, R711). -/
def State.diagUnverified (s : State) (o : Nat) : State :=
  let a := Reg.PWM_DIAGSTAT o
  let c := min 65535 (s.fld a 16 16 + 1)
  let s := (s.setFld a 16 16 c).setFld a 0 2 2
  let n := max 1 (s.fld (Reg.PWM_DIAGTIM o) 16 16)
  if n ≤ c ∧ !s.bit (Reg.PWM_DIAGCFG o) 6 then s.diagStarve o else s

/-- An OK pulse of output o (R709, R711, R713). -/
def State.diagOk (s : State) (o : Nat) : State :=
  let a := Reg.PWM_DIAGSTAT o
  let s := if (s.dg o).retry then s.tallyHi (Reg.PWM_DIAGTALLY o) else s
  let s := s.setDg o { s.dg o with retry := false }
  s.wr a 1

/-- A FAIL pulse of output o: the first is retried; a FAIL retry is suspect, and permanent at PERMN (R712, R713). -/
def State.diagFail (s : State) (o : Nat) : State :=
  let a := Reg.PWM_DIAGSTAT o
  let s := ((s.setFld a 0 2 3).setFld a 16 16 0).setBit a 3 false
  if (s.dg o).retry then
    let c := min 15 (s.fld a 4 4 + 1)
    let s := ((s.setDg o { s.dg o with retry := false }).setFld a 4 4 c).tally (Reg.PWM_DIAGTALLY o)
    if max 1 (s.fld Reg.PWM_DIAGPERM 0 4) ≤ c ∧ !s.bit a 2 then (s.setBit a 2 true).event evOUTPUT_DIAG o 1 else s
  else s.setDg o { s.dg o with retry := true }

/-- A pulse of output o is classified after an on-time with the sense input at `sense` (Table 13-5). -/
def State.diagClass (s : State) (o onTime : Nat) (sense : Bool) : State :=
  if onTime < s.diagLimit o then s.diagUnverified o
  else if sense = s.bit (Reg.PWM_DIAGCFG o) 5 then s.diagOk o
  else s.diagFail o

/-- The pulse of output o in hand has reached BLANK + SETTLE after its turn-on edge and has not been classified (R708). -/
def State.diagReady (s : State) (o : Nat) : Bool :=
  s.pwmDriven (o / 2) (o % 2) && !(s.dg o).judged && decide (s.diagLimit o ≤ (s.pwmCh (o / 2) (o % 2)).on)

/-- R708 to R713: a pulse of output o is classified: one that has ended, the oldest first, else the one in hand at BLANK + SETTLE.
Where neither is there, nothing is. -/
def execDiagPulse (o : Fin 24) (sense : Bool) (s : State) : Host.Outcome State Fault Refusal :=
  let o := o.val
  if !s.runs gPWM || !s.bit (Reg.PWM_DIAGCFG o) 0 then done s
  else
    match (s.dg o).ended with
    | t :: rest => done ((s.setDg o { s.dg o with ended := rest }).diagClass o t sense)
    | [] =>
      if s.diagReady o then done ((s.setDg o { s.dg o with judged := true }).diagClass o (s.diagLimit o) sense)
      else done s

/-- DIAGCFGo.EN has been set: no probe has been made since (R710). -/
def State.diagEnable (s : State) (o : Nat) : State := s.setDg o {}

end Sys2Proof.Machine
end

