-- ==== Sys2Proof/Machine/Shared.lean ====
section
/-!
DEFINITION. Operations that reach every block: what the blocks do when the root-derived clocks stop and start, which blocks are
busy for clock gating, the masks of a last-gasp record; a core's start.
-/
namespace Sys2Proof.Machine

/-- The ICU registers of core n at reset. -/
def State.icuReset (s : State) (n : Nat) : State :=
  let lo := Reg.ICU_PENDLO n
  { s with regs := tkeep (fun a => decide (a < lo) || decide (lo + 0x400 ≤ a)) s.regs }

/-- Core n starts at its entry address, halted where a halt request stands (R108, R109, R398). -/
def State.coreStart (s : State) (n : Nat) : State :=
  let h := s.bit Reg.DBG_HALTREQ n
  let s := if n = 0 then { s with boot := { s.boot with waits := false } } else s
  let s := s.setCore n { started := true, pc := (s.rd (Reg.SYS_COREENTRY n)).setWidth 16, halted := h }
  let s := s.setBit Reg.DBG_STATUS n h
  if h then s.setFld Reg.DBG_HALTCAUSE (4 * n) 4 1 else s

/-- The root-derived clocks stop, at this timebase value; `lost`: on root loss. The delay line loses its lock with the PLL; root
loss cancels the running musters (R786, R1000). -/
def State.rootStops (s : State) (lost : Bool) : State :=
  let s := { s with clk := { s.clk with stopTb := s.clk.tb.toNat } }
  let s := s.setBit Reg.PWM_DLSTAT 0 false
  if lost then s.mbmRootLost else s

/-- The root-derived clocks run again: every decoder has lost edges (R82, R742); after a root loss every stencil engine that was
running is STOPPED with its pins released (R913). Every interval that runs is lengthened by the stop (R1000). -/
def State.rootResumes (s : State) : State :=
  let lost := s.clk.wasLost
  let s := { s with clk := { s.clk with stops := s.clk.stops ++ [(s.clk.stopTb, s.clk.tb.toNat)], wasLost := false } }
  let s := s.qdLost
  if lost then forN 8 (fun n s => if s.seSt n = seRUNNING then s.seLeave n seSTOPPED else s) s else s

/-- The block of CLKGATE bit `g` is busy (R79). -/
def State.gateBusy (s : State) (g : Nat) : Bool :=
  let any (k : Nat) (p : Nat → Bool) : Bool := (List.range k).any p
  match g with
  | 3 => any 4 (fun n => any 4 (fun j => s.bit (Reg.ADC_SEQ n j) 31) || (s.ad n).cal.isSome || (s.ad n).proof.isSome)
  | 4 => any 8 (fun n => s.bit (Reg.SDF_SDCFG n) 0)
  | 5 => any 16 (fun k => s.bit (Reg.CMP_CMP_CFG k) 0)
  | 6 => any 12 (fun m => s.pwmRun m)
  | 7 => any 16 (fun n => s.bit (Reg.CAPQD_CFG n) 0) || any 4 (fun d => s.bit (Reg.CAPQD_QCFG d) 0)
  | 8 => any 32 (fun n => s.slotOn n)
  | 9 => any 4 (fun l => s.listActive l)
  | 10 => any 8 (fun p => s.bit (Reg.TW_CFG p) 0)
  | 11 => any 3 (fun i => s.bit (Reg.DS_CFG (1 + i)) 0)
  | 12 => any 8 (fun n => s.seSt n != seSTOPPED)
  | 13 => any 16 (fun c => s.fld (Reg.XLT_DMA_STATUS c) 0 2 != 0)
  | _ => false

/-- Word 14 of a last-gasp record: penned ports and channels (Table 2-5). -/
def State.lgPortMask (s : State) : Word :=
  let bits := (portIds.filter (fun p => s.portPenned p)).map (fun p => if isSe p then 16 + (p - 0x20) else bindBit p)
    ++ ((List.range 8).filter (fun n => s.pst n == ppPENNED)).map (24 + ·)
  bits.foldl (fun w b => W.setBit w b true) 0

/-- Words 16 to 19 of a last-gasp record: last committed muster numbers (Table 2-5). -/
def State.lgMuster (s : State) (i : Nat) : Word := s.rd (Reg.MBM_LIST_NUM i)

end Sys2Proof.Machine
end

