-- ==== Sys2Proof/Machine/Power.lean ====
section
/-!
DEFINITION. Chapter 2: the clocks and their monitor, the timebase and timers, rail supervision and the sequencer, FAULT_N,
collapse and the last-gasp record, and the power states.
-/
namespace Sys2Proof.Machine

/-! ### FAULT_N -/

/-- The part drives FAULT_N low (R61). -/
def State.drivesFaultn (s : State) : Bool :=
  s.sup.faultnHold || s.rd Reg.SUP_FAULT != 0 || s.bit Reg.SUP_STATUS 18 || s.clk.rootLost || s.clk.lg.collapse

/-- SUP.STATUS shows the drive and the level of FAULT_N as they now are (R61, Table 2-16). -/
def State.faultn (s : State) : State :=
  let d := s.drivesFaultn
  (s.setBit Reg.SUP_STATUS 21 d).setBit Reg.SUP_STATUS 20 (!d && !s.sup.faultnLow)

/-! ### The sequencer -/

/-- Rails 0–7 that satisfy a test. -/
def rails (p : Nat → Bool) : List Nat := (List.range 8).filter p

/-- A rail's ORDER and SEQ_EN (Table 2-15). -/
def State.railOrder (s : State) (r : Nat) : Nat := s.fld (Reg.SUP_RAIL_CFG r) 0 3
def State.railSeqEn (s : State) (r : Nat) : Bool := s.bit (Reg.SUP_RAIL_CFG r) 3
/-- RAILn_EN is asserted. -/
def State.railOn (s : State) (r : Nat) : Bool := s.sup.railEn.testBit r

/-- The mask of a list of rails. -/
def railMask (rs : List Nat) : Nat := rs.foldl (fun m r => m ||| 1 <<< r) 0

/-- Asserts RAILn_EN of the listed rails together (R55); those that show power good already have shown it. -/
def State.enableRails (s : State) (rs : List Nat) : State :=
  let good := railMask (rs.filter (fun r => s.bit Reg.SUP_STATUS r))
  let age := rs.foldl (fun t r => tset 0 t r 0) s.sup.pgAge
  { s with sup := { s.sup with railEn := s.sup.railEn ||| railMask rs,
                               pgSeen := (s.sup.pgSeen &&& (255 ^^^ (railMask rs &&& 255))) ||| good, pgAge := age } }

/-- Deasserts RAILn_EN of the listed rails together (R58). -/
def State.disableRails (s : State) (rs : List Nat) : State :=
  let keep := 255 ^^^ (railMask rs &&& 255)
  { s with sup := { s.sup with railEn := s.sup.railEn &&& keep, pgExpired := s.sup.pgExpired &&& keep,
                               pgSeen := s.sup.pgSeen &&& keep } }

/-- Raises a supervisor event and the SUP interrupt source (Table 5-6, Table 7-2). -/
def State.supEvent (s : State) (code src : Nat) (data : Word) : State := (s.event code src data).source 60

/-- The last sample of a rail, as event data. -/
def State.railSampleOf (s : State) (r : Nat) : Nat := s.fld (Reg.SUP_RAIL_MEAS r) 0 10

/-- The words of a last-gasp record from word 5 to word 55 as they stand at the latch (Table 2-5, R1008). -/
def State.lgFields (s : State) : List Word :=
  let two (i : Nat) : Word := BitVec.ofNat 32 (s.railSampleOf i + 65536 * s.railSampleOf (i + 1))
  let tb := s.rd Reg.SUP_VINMEAS
  [tb, two 0, two 2, two 4, two 6, s.rd Reg.SUP_FAULT, s.rd Reg.KLE_ENABLED, s.rd Reg.KLE_PENNED, s.rd Reg.KLE_OVRLAST,
   s.lgPortMask, BitVec.ofNat 32 (s.fld Reg.PPW_ONMAP 0 8),
   s.lgMuster 0, s.lgMuster 1, s.lgMuster 2, s.lgMuster 3,
   BitVec.ofNat 32 (s.fld Reg.PWM_TRIPPED 0 12 + 65536 * s.fld Reg.CMP_TRIPPED 0 16),
   s.rd Reg.SYS_STATUS, (if s.bit Reg.HIF_STATUS 0 then 1 else 0), 0]
  ++ (List.range 32).map (fun i => s.rd (Reg.SYS_LGUSER i))

/-- The latched words 0 and 2 to 61 of a record with a cause, a timebase, a state and a last cause (Table 2-5). Word 1 is
left zero; `SEQ` enters it when the record is written. -/
def State.lgLatch (s : State) (cause : Nat) (tb : Word64) (st lastCause : Nat) : List Word :=
  let unt := if s.bit Reg.SYS_IDENT 31 then 128 else 0
  [BitVec.ofNat 32 (0x4C47 + 0x10000 + cause <<< 24), 0, W.lo32 tb, W.hi32 tb,
   BitVec.ofNat 32 (st + lastCause <<< 4 + unt)]
  ++ s.lgFields ++ [0, 0, 0, 0, 0, 0]

/-- The sequencer ends a shutdown: SEQ_END with SRC 2; a commanded OFF then latches its record (R58, Table 2-7, R1007). Its words 2
to 4 are those of this instant, since it has no declaration of collapse (R1008; DESIGN CHOICE, log entry 147). -/
def State.endShutdown (s : State) : State :=
  let s := { s with sup := { s.sup with seq := .idle, seqOwns := false } }
  let s := s.setBit Reg.SUP_STATUS 16 false
  let s := s.supEvent evSEQ_END 2 (s.rd Reg.SUP_STATUS)
  match s.clk.trans, s.clk.lg with
  | .toOff cause, .idle =>
    { s with clk := { s.clk with lg := .latched (s.lgLatch 4 s.clk.tb s.pwr cause) false } }
  | _, _ => s

/-- FILTER of a rail (Table 2-15). -/
def State.railFilter (s : State) (r : Nat) : Nat := max 1 (s.fld (Reg.SUP_RAIL_CFG r) 8 8)

/-- A rail reads below THOFF.OFF, reported after FILTER consecutive samples (R51). -/
def State.railOff (s : State) (r : Nat) : Bool := decide (s.railFilter r ≤ (tget {} s.sup.cond (40 + r)).held)

/-- Disables the highest position of the rails left, or ends the shutdown (R58). -/
def State.shutdownStep (s : State) (left : List (Nat × Nat)) : State :=
  match left with
  | [] => s.endShutdown
  | _ =>
    let pos := left.foldl (fun m e => max m e.2) 0
    let rs := (left.filter (fun e => e.2 == pos)).map Prod.fst
    let s := s.disableRails rs
    { s with sup := { s.sup with seq := .down left pos, offSeen := railMask (rs.filter s.railOff) } }

/-- Ordered shutdown starts: it covers every rail whose RAILn_EN is asserted, by its ORDER as it stands (R58). A shutdown
that runs already goes on. -/
def State.startShutdown (s : State) : State :=
  match s.sup.seq with
  | .down _ _ => s
  | _ =>
    let s := (s.setBit Reg.SUP_STATUS 17 false).setBit Reg.SUP_STATUS 16 true
    s.shutdownStep ((rails s.railOn).map (fun r => (r, s.railOrder r)))

/-- Enables the next position above `after` (or the first), or completes power-up (R54, R55, R57). -/
def State.powerUpStep (s : State) (after : Option Nat) : State :=
  let cand := (rails s.railSeqEn).filter (fun r => match after with | none => true | some p => decide (p < s.railOrder r))
  match cand with
  | [] =>
    let s := { s with sup := { s.sup with seq := .idle, seqOwns := false } }
    let s := (s.setBit Reg.SUP_STATUS 16 false).setBit Reg.SUP_STATUS 17 true
    s.supEvent evSEQ_END 0 (s.rd Reg.SUP_STATUS)
  | _ =>
    let pos := cand.foldl (fun m r => min m (s.railOrder r)) 7
    let s := s.enableRails (cand.filter (fun r => s.railOrder r == pos))
    { s with sup := { s.sup with seq := .up pos } }

/-- SEQCMD = UP (R54, R88). -/
def State.seqUp (s : State) : State :=
  if decide (s.sup.seq = .idle) && !s.bit Reg.SUP_STATUS 17 then
    let s := { s with sup := { s.sup with seq := .waitFaultn, faultnHold := false, seqOwns := true } }
    (s.setBit Reg.SUP_STATUS 16 true).faultn
  else s.setBit Reg.SUP_STATUS 22 true

/-- R54, R88: SEQCMD UP. -/
def execSeqcmdUp (s : State) : Host.Outcome State Fault Refusal := done (if s.sysServed then s.seqUp else s)

/-- SEQCMD = DOWN (R58, R88). -/
def State.seqDown (s : State) : State :=
  if s.sup.seq = .idle then ({ s with sup := { s.sup with seqOwns := true } }).startShutdown
  else s.setBit Reg.SUP_STATUS 22 true

/-- R58, R88: SEQCMD DOWN. -/
def execSeqcmdDown (s : State) : Host.Outcome State Fault Refusal := done (if s.sysServed then s.seqDown else s)

/-- R54, R55: FAULT_N has read high for 1 µs after UP; the first position is enabled. -/
def execSeqFaultnReleased (s : State) : Host.Outcome State Fault Refusal :=
  if decide (s.sup.seq = .waitFaultn) && !s.drivesFaultn && s.alwaysOn then
    let s := ({ s with sup := { s.sup with faultnLow := false } }).faultn
    done (s.powerUpStep none)
  else done s

/-- PGDELAY of a rail in µs (Table 2-15). -/
def State.railPgDelay (s : State) (r : Nat) : Nat := s.fld (Reg.SUP_RAIL_CFG r) 16 16

/-- Every listed rail has shown power good, and the longest of their PGDELAYs has elapsed since the last of them did (R55). -/
def State.positionGood (s : State) (rs : List Nat) : Bool :=
  let d := rs.foldl (fun m r => max m (s.railPgDelay r)) 0
  rs.all (fun r => s.sup.pgSeen.testBit r && decide (d ≤ tget 0 s.sup.pgAge r))

/-- R55, R57: every rail of the position has shown power good and the longest PGDELAY has elapsed. -/
def execSeqPositionAdvance (s : State) : Host.Outcome State Fault Refusal :=
  match s.sup.seq with
  | .up pos =>
    let rs := rails (fun r => s.railSeqEn r && s.railOrder r == pos)
    if s.positionGood rs && s.alwaysOn then
      let s := { s with sup := { s.sup with pgExpired := s.sup.pgExpired ||| railMask rs } }
      done (s.powerUpStep (some pos))
    else done s
  | _ => done s

/-- A rail of position `pos` has not shown power good since its enable (R56). -/
def State.pgMissing (s : State) (pos r : Nat) : Bool :=
  s.railSeqEn r && s.railOrder r == pos && !s.sup.pgSeen.testBit r

/-- PGTMO of a rail in ms (Table 2-15). -/
def State.pgTmoMs (s : State) (r : Nat) : Nat := max 1 (s.fld (Reg.SUP_RAIL_PGTMO r) 0 16)

/-- Rail r sets a time-out bit of SUP.FAULT: its tally counts and its event is raised with kind 2 or 3 (R56, R59, R95). -/
def State.railTimedOut (s : State) (bit0 kind r : Nat) : State :=
  ((s.setBit Reg.SUP_FAULT (bit0 + r) true).tally (Reg.SUP_RAIL_TALLY r)).supEvent evRAIL_FAULT r
    (BitVec.ofNat 32 (s.railSampleOf r + kind <<< 16))

/-- R56, R95: a rail of the position misses power good within PGTMO, and with it every rail of the position, all enabled
together, that misses it with the same PGTMO. -/
def execPgTmo (rail : Fin 8) (s : State) : Host.Outcome State Fault Refusal :=
  match s.sup.seq with
  | .up pos =>
    if s.pgMissing pos rail.val && s.alwaysOn then
      let rs := rails (fun r => s.pgMissing pos r && s.pgTmoMs r == s.pgTmoMs rail.val)
      let s := rs.foldl (fun s r => s.railTimedOut 24 3 r) s
      let s := ({ (s.setBit Reg.SUP_STATUS 18 true) with sup := { s.sup with seqOwns := false } }).faultn
      let s := s.supEvent evSEQ_END 1 (s.rd Reg.SUP_STATUS)
      done s.startShutdown
    else done s
  | _ => done s

/-- STEP_TMO of a rail in ms (Table 2-15). -/
def State.stepTmoMs (s : State) (r : Nat) : Nat := max 1 (s.fld (Reg.SUP_RAIL_THOFF r) 16 16)

/-- R58: every rail of the position has read below THOFF.OFF since its disable. -/
def execShutdownPositionAdvance (s : State) : Host.Outcome State Fault Refusal :=
  match s.sup.seq with
  | .down left pos =>
    if (left.filter (fun e => e.2 == pos)).all (fun e => s.sup.offSeen.testBit e.1) && s.alwaysOn then
      done (s.shutdownStep (left.filter (fun e => e.2 != pos)))
    else done s
  | _ => done s

/-- R59, R95: a rail of the position has not fallen below its off threshold within STEP_TMO, and with it every rail of the
position, all disabled together, that has not within the same STEP_TMO. -/
def execStepTmo (rail : Fin 8) (s : State) : Host.Outcome State Fault Refusal :=
  match s.sup.seq with
  | .down left pos =>
    let hung (r : Nat) : Bool := left.any (fun e => e.1 == r && e.2 == pos) && !s.sup.offSeen.testBit r
    if hung rail.val && s.alwaysOn then
      let rs := rails (fun r => hung r && s.stepTmoMs r == s.stepTmoMs rail.val)
      let s := rs.foldl (fun s r => s.railTimedOut 16 2 r) s
      done (s.faultn.shutdownStep (left.filter (fun e => e.2 != pos)))
    else done s
  | _ => done s

/-! ### Power states -/

/-- Sets SYS.PWRSTATE's STATE and CAUSE. -/
def State.setPwr (s : State) (st cause : Nat) : State :=
  (s.setFld Reg.SYS_PWRSTATE 0 3 st).setFld Reg.SYS_PWRSTATE 4 3 cause

/-- Ends the commanded transition in progress with a result (R86, Table 2-13). -/
def State.endTrans (s : State) (result : Nat) : State :=
  let s := { s with clk := { s.clk with trans := .none } }
  (s.setBit Reg.SYS_PWRSTATE 8 false).setFld Reg.SYS_PWRSTATE 16 8 result

/-- Entry to STANDBY: outputs safe and their enables cleared before the PLL stops, then every block outside the
always-on domain stands still, and the link is in L1 where Link Control enables it (R74, R82, R1000). -/
def State.enterStandby (s : State) (cause : Nat) (lost : Bool) : State :=
  let s := (s.pwmSafeAll).rootStops lost
  let s := { s with clk := { s.clk with pll := .off, gated := 0 } }
  let s := if s.bit Reg.HIF_LINKSTAT 0 && W.bit (s.cfgRd 0x24) 1 then s.setBit Reg.HIF_LINKSTAT 7 true else s
  (s.setBit Reg.SYS_STATUS 0 false).setPwr pwrSTANDBY cause

/-- What the running command holds of a port, of the ADCs, of the memories and of a list that it stops is given up (R279). -/
def State.cmdDrop (s : State) (c : Cmd) : State :=
  let s := s.setProofMask 0
  if c.op = 0x32 then
    let p := W.fld (c.arg 0) 8 8
    if s.use p = .proof then s.portFree p else s
  else if c.op = 0x40 then
    forN 4 (fun n s => (s.setAd n { s.ad n with cal := none }).setBit Reg.ADC_STATUS n false) s
  else if c.op = 0x22 then
    let l := W.fld (c.arg 0) 0 2
    s.setMl l { s.ml l with stopping := false }
  else s

/-- A protective transition ends the running command with FAULTED; its completion is held for the return to RUN (R279). -/
def State.cmdFault (s : State) : State :=
  match s.hif.cmd with
  | some c => (s.cmdDrop c).finishHeld c 9
  | none => s

/-- A protective transition to STANDBY with a cause code of Table 2-8. It takes precedence over a commanded transition
(R87); a commanded OFF goes on and keeps the cause for its record. -/
def State.protectStandby (s : State) (cause : Nat) (lost : Bool) : State :=
  match s.clk.trans with
  | .toOff _ =>
    let s := { s with clk := { s.clk with trans := .toOff cause } }
    if lost then
      { (s.rootStops true) with clk := { s.clk with pll := .off } } |>.setBit Reg.SYS_STATUS 0 false
    else s
  | _ =>
    let was := s.pwr
    let s := if s.clk.trans = .none then s else s.endTrans 9
    let s := if was = pwrSTANDBY then
        ({ (if lost then s.mbmRootLost else s) with clk := { s.clk with pll := .off } }).setPwr pwrSTANDBY cause
      else s.cmdFault.enterStandby cause lost
    if was = pwrSTANDBY then s
    else s.event evPOWER_STATE pwrSTANDBY (BitVec.ofNat 32 cause)

/-- A fault action of Table 2-3 with the cause its SHUTDOWN gives (R52, R62, R1007). -/
def State.faultAction (s : State) (act cause : Nat) : State :=
  if act = 0 then s
  else
    let s := s.pwmSafeAll.slotsProtect (some 1)
    if act = 1 then s else s.startShutdown.protectStandby cause false

/-- R62: FAULT_N low for 1 µs after SEQ_DONE while undriven. -/
def execExtFault (s : State) : Host.Outcome State Fault Refusal :=
  if s.alwaysOn && s.bit Reg.SUP_STATUS 17 && !s.drivesFaultn then
    let act := s.fld Reg.SUP_CTRL 0 2
    let s := ({ s with sup := { s.sup with faultnLow := true } }).setBit Reg.SUP_STATUS 19 true
    let s := s.faultn.supEvent evEXT_FAULT 0 (BitVec.ofNat 32 act)
    done (s.faultAction act 4)
  else done s

/-! ### Rail supervision -/

/-- Does condition `c` of Table 2-2 hold on a sample of rail r? 0 warning low, 1 warning high, 2 fault low, 3 fault high,
4 power good, 5 off. -/
def State.railCond (s : State) (r c code : Nat) : Bool :=
  let wl := s.fld (Reg.SUP_RAIL_THWARN r) 0 10
  let wh := s.fld (Reg.SUP_RAIL_THWARN r) 16 10
  let fl := s.fld (Reg.SUP_RAIL_THFAULT r) 0 10
  let fh := s.fld (Reg.SUP_RAIL_THFAULT r) 16 10
  match c with
  | 0 => decide (code < wl)
  | 1 => decide (wh < code)
  | 2 => decide (code < fl) && s.railOn r && s.sup.pgExpired.testBit r
  | 3 => decide (fh < code)
  | 5 => decide (code < s.fld (Reg.SUP_RAIL_THOFF r) 0 10)
  | _ => decide (fl ≤ code) && decide (code ≤ fh)

/-- The run of one condition after one more sample (R51, R1009). -/
def CondRun.sample (c : CondRun) (holds : Bool) : CondRun :=
  if holds then { c with held := min 255 (c.held + 1), failed := 0 }
  else { c with failed := min 255 (c.failed + 1), held := 0 }

/-- A TICK of the power-good delay of a rail that is enabled and has shown power good: it expires after PGDELAY µs
(Table 2-2); its age counts on, for the longest PGDELAY of the position (R55). -/
def State.pgDelay (s : State) (r : Nat) : State :=
  if s.railOn r && s.sup.pgSeen.testBit r then
    let n := min 65535 (tget 0 s.sup.pgAge r + 1)
    let e := if s.railPgDelay r ≤ n then s.sup.pgExpired ||| railMask [r] else s.sup.pgExpired
    { s with sup := { s.sup with pgAge := tset 0 s.sup.pgAge r n, pgExpired := e } }
  else s

/-- One sample of one rail: RAILn_MEAS, the power-good delay, the runs of its conditions, and whether a rail that is shut down
has read below OFF (R51, R58). -/
def State.sampleRail (s : State) (r code : Nat) : State :=
  let s := (s.wr (Reg.SUP_RAIL_MEAS r) (BitVec.ofNat 32 code)).pgDelay r
  let key (c : Nat) : Nat := if c < 5 then 5 * r + c else 40 + r
  let upd (t : Tab CondRun) (c : Nat) : Tab CondRun := tset {} t (key c) ((tget {} t (key c)).sample (s.railCond r c code))
  let s := { s with sup := { s.sup with cond := (List.range 6).foldl upd s.sup.cond } }
  let downs := match s.sup.seq with | .down left pos => left.any (fun e => e.1 == r && e.2 == pos) | _ => false
  if downs && s.railOff r then { s with sup := { s.sup with offSeen := s.sup.offSeen ||| railMask [r] } } else s

/-- R51: one sample of every sense ball, VIN_SENSE and VDD33. No rail is sampled in OFF. -/
def execRailSample (codes : List (BitVec 10)) (vin : BitVec 10) (vdd33mV : BitVec 16) (s : State) :
    Host.Outcome State Fault Refusal :=
  if s.alwaysOn then
    let s := s.wr Reg.SUP_VINMEAS (BitVec.ofNat 32 (vin.toNat + 65536 * vdd33mV.toNat))
    done (forN 8 (fun r s => s.sampleRail r (codes.getD r 0).toNat) s)
  else done s

/-- What the report of a condition does (Table 2-2, R52, R90, R95). -/
def State.railReport (s : State) (r c : Nat) : State :=
  let smp := s.railSampleOf r
  match c with
  | 0 =>
    ((s.setBit Reg.SUP_WARN r true).tally (Reg.SUP_RAIL_TALLY r)).supEvent evRAIL_WARN r (BitVec.ofNat 32 smp)
  | 1 =>
    ((s.setBit Reg.SUP_WARN (8 + r) true).tally (Reg.SUP_RAIL_TALLY r)).supEvent evRAIL_WARN r
      (BitVec.ofNat 32 (smp + 1 <<< 16))
  | 2 =>
    let s := ((s.setBit Reg.SUP_FAULT r true).tally (Reg.SUP_RAIL_TALLY r)).supEvent evRAIL_FAULT r (BitVec.ofNat 32 smp)
    s.faultn.faultAction (s.fld (Reg.SUP_RAIL_CFG r) 4 2) 2
  | 3 =>
    let s := ((s.setBit Reg.SUP_FAULT (8 + r) true).tally (Reg.SUP_RAIL_TALLY r)).supEvent evRAIL_FAULT r
      (BitVec.ofNat 32 (smp + 1 <<< 16))
    s.faultn.faultAction (s.fld (Reg.SUP_RAIL_CFG r) 4 2) 2
  | _ =>
    let s := s.setBit Reg.SUP_STATUS r true
    if s.railOn r then { s with sup := { s.sup with pgSeen := s.sup.pgSeen ||| railMask [r] } } else s

/-- R1009: a condition that has held, or failed, in FILTER consecutive samples is reported, or its report ends. -/
def execRailConditionReport (rail : Fin 8) (cond : Fin 5) (s : State) : Host.Outcome State Fault Refusal :=
  if !s.alwaysOn then done s
  else
    let k := 5 * rail.val + cond.val
    let c := tget {} s.sup.cond k
    let f := s.railFilter rail.val
    let put (b : Bool) : State := { s with sup := { s.sup with cond := tset {} s.sup.cond k { c with reported := b } } }
    if !c.reported && decide (f ≤ c.held) then done ((put true).railReport rail.val cond.val)
    else if c.reported && decide (f ≤ c.failed) then
      done (if cond.val = 4 then (put false).setBit Reg.SUP_STATUS rail.val false else put false)
    else done s

/-! ### Clocks -/

/-- A CLOCK event and the SYS interrupt source (Table 5-6, Table 7-2). -/
def State.clockEvent (s : State) (src : Nat) : State := (s.event evCLOCK src 0).source 61

/-- R38, R91: the crystal's edges are first seen and the PLL waiting for them starts, or they are seen again after a stop that
was never declared, and every domain resumes where it stood. -/
def execCrystalEdgesSeen (s : State) : Host.Outcome State Fault Refusal :=
  if decide (s.clk.phase = .run) && !s.clk.rootLost && s.pwr != pwrOFF && decide (s.clk.lg ≠ .held) then
    let s := ({ s with clk := { s.clk with stopped := false } }).setBit Reg.SYS_STATUS 1 true
    done (if s.clk.pll = .waitXtal then { s with clk := { s.clk with pll := .starting 1 } } else s)
  else done s

/-- Link training starts, where PERST_N is high and the PHY supplies are valid (R1011, R972). -/
def State.trainNow (s : State) : State :=
  if !s.hif.perstLow && s.hif.phyOk && !s.bit Reg.HIF_LINKSTAT 0 then { s with hif := { s.hif with training := true } } else s

/-- Link training that waits for the PLL's lock (R1011). -/
def State.startTraining (s : State) : State := if s.clk.pll = .locked then s.trainNow else s

/-- R38, R36, R91, R93, R1004, R1011: the PLL locks, and training that waited for it starts. A transition to RUN completes, and
the blocks resume; after a stop that was never declared they resume where they stood. -/
def execPllLock (s : State) : Host.Outcome State Fault Refusal :=
  match s.clk.pll with
  | .starting k =>
    if s.clk.stopped then done s
    else
    let s := { s with clk := { s.clk with pll := .locked, armed := true, tickPhase := 0, slowPhase := 0 } }
    let s := s.setBit Reg.SYS_STATUS 0 true
    let s := (if k = 2 then (s.tally Reg.SYS_PLLTALLY).clockEvent 3 else s).startTraining
    match s.clk.trans with
    | .toRun =>
      let s := ((s.setPwr pwrRUN 0).endTrans 0).setBit Reg.HIF_LINKSTAT 7 false
      done (s.mbmReturn.rootResumes.ackResume)
    | _ => done s
  | .reacquire =>
    done (if s.clk.stopped then s
      else (({ s with clk := { s.clk with pll := .locked } }).setBit Reg.SYS_STATUS 0 true).startTraining)
  | _ => done s

/-- R93, R94: no lock 100 µs after the start: one restart, then PLLUNLOCK and the RUN command ends with FAULTED. After a start
by power-on or device reset, of which R94 does not speak, the PLL is off and the state stays RUN (DESIGN CHOICE, log entry
100). -/
def execPllLockTimeout (s : State) : Host.Outcome State Fault Refusal :=
  match s.clk.pll with
  | .starting k =>
    if s.clk.stopped then done s
    else if k = 1 then done { s with clk := { s.clk with pll := .starting 2 } }
    else
      let s := { s with clk := { s.clk with pll := .off } }
      let s := s.setBit Reg.SYS_STATUS 9 true
      done (if s.clk.trans = .toRun then s.endTrans 9 else s)
  | _ => done s

/-- The crystal stops while the guard is lost: nothing is declared, and every domain stands until its edges come again; the PLL
is out of lock (R91). -/
def State.crystalStops (s : State) : State :=
  let p := if s.clk.pll = .locked then Pll.reacquire else s.clk.pll
  ({ s with clk := { s.clk with stopped := true, pll := p } }).setBit Reg.SYS_STATUS 0 false

/-- R39 to R42, R1004: root loss is declared. While the guard is lost none is declared (R91). The slots are disabled before the
transition, so that an INJECT that waits on one ends with WRONG_STATE (R284) and not with FAULTED (R279; DESIGN CHOICE, log entry
157). -/
def execRootLoss (s : State) : Host.Outcome State Fault Refusal :=
  if s.alwaysOn && s.clk.onCrystal && !s.clk.rootLost then done s.crystalStops
  else if s.alwaysOn && s.clk.armed && !s.clk.rootLost && !s.clk.lg.collapse then
    let s := s.slotsProtect none
    let s := { s with clk := { s.clk with rootLost := true, wasLost := true } }
    let s := s.pwmSafeAll.cmpBypass
    let s := ((s.setBit Reg.SYS_STATUS 8 true).setBit Reg.SYS_STATUS 1 false).setBit Reg.SYS_STATUS 0 false
    let s := s.faultn.clockEvent 0
    done (s.protectStandby 1 true)
  else done s

/-- R93, R49: the root returns. It starts nothing else. -/
def execRootReturn (s : State) : Host.Outcome State Fault Refusal :=
  if s.clk.rootLost && s.alwaysOn then
    let s := { s with clk := { s.clk with rootLost := false } }
    let s := (s.setBit Reg.SYS_STATUS 1 true).setBit Reg.TMB_STATUS 0 true
    done (s.faultn.clockEvent 1)
  else done s

/-- R92, R1006: the root-clocked check loses the guard. -/
def execGuardLoss (s : State) : Host.Outcome State Fault Refusal :=
  if s.live && !s.clk.onCrystal then
    let s := { s with clk := { s.clk with onCrystal := true } }
    done (((s.setBit Reg.SYS_STATUS 10 true).setBit Reg.SYS_STATUS 2 false).clockEvent 2)
  else done s

/-! ### Timers -/

/-- Timer n is at zero: its flag, its interrupt source and its triggers; it reloads, or clears EN (R98). -/
def State.timerExpire (s : State) (n : Nat) : State :=
  let s := (s.setBit Reg.TMB_STATUS (8 + n) true).source n
  let s :=
    if s.bit (Reg.TMB_TMR_CTRL n) 1 then
      s.wr (Reg.TMB_TMR_COUNT n) (BitVec.ofNat 32 (max 1 (s.rd (Reg.TMB_TMR_LOAD n)).toNat))
    else (s.wr (Reg.TMB_TMR_COUNT n) 0).setBit (Reg.TMB_TMR_CTRL n) 0 false
  (s.trigger (0x20 + n)).slotTrigger (0x20 + n)

/-- R98: the edge of its clock that brings timer n to zero. -/
def execTimerExpiry (n : Fin 8) (s : State) : Host.Outcome State Fault Refusal :=
  done (if s.live && s.bit (Reg.TMB_TMR_CTRL n.val) 0 && decide ((s.rd (Reg.TMB_TMR_COUNT n.val)).toNat ≤ 1) then
    s.timerExpire n.val else s)

/-! ### Collapse and the last-gasp record -/

/-- R64, R66, R87, R89, R142, R1008: collapse is declared; outputs go safe, the record fields are latched, every clock but the
always-on one stops, and a transition in progress ends with FAULTED. A reset that was asked for and has not taken hold does
not cut the sequence. -/
def execCollapse (byVdd33 byVin : Bool) (s : State) : Host.Outcome State Fault Refusal :=
  let vin := byVin && s.bit Reg.SUP_CTRL 2
  if s.alwaysOn && (byVdd33 || vin) && !s.clk.lg.collapse then
    let cause := (if byVdd33 then 1 else 0) + (if vin then 2 else 0)
    let tb := s.clk.tb
    let st := s.pwr
    let lastCause := s.fld Reg.SYS_PWRSTATE 4 3
    let s := s.pwmSafeAll
    let words := s.lgLatch cause tb st lastCause
    let s := s.rootStops true
    let s := if s.clk.trans = .none then s else s.endTrans 9
    let s := { s with clk := { s.clk with lg := .latched words true, pll := .off, resetReq := false, pinReq := false },
                      hif := { s.hif with training := false } }
    let s := ((s.setBit Reg.SYS_STATUS 0 false).setBit Reg.HIF_LINKSTAT 0 false).setBit Reg.HIF_LINKSTAT 7 false
    done s.faultn
  else done s

/-- The SEQ after another one, never 0 (R68). -/
def nextSeq (q : Word) : Word := if q = 0xFFFFFFFF then 1 else q + 1

/-- Address of the record slot of a sequence number (R67). -/
def lgSlotAddr (i : Nat) : Nat := 0x0307E000 + 256 * (i % 32)

/-- The 64 words of a record from its latched words 0–61 and its SEQ (Table 2-5). -/
def lgRecord (words : List Word) (q : Word) : List Word :=
  let body := (words.take 1 ++ [q] ++ words.drop 2)
  body ++ [crc32 body, ~~~ q]

/-- R64, R67, R69: the record is written word by word; LGSEQ takes its SEQ with word 63. After a collapse the part is
held in reset, every RAILn_EN low; after a commanded OFF it is in OFF, which a reset that RESET_N did not ask for leaves no more
(R78). -/
def execLastGaspWrite (s : State) : Host.Outcome State Fault Refusal :=
  if s.clk.stopped then done s
  else match s.clk.lg with
  | .latched words hold =>
    let q := nextSeq (s.rd Reg.SYS_LGSEQ)
    let a := lgSlotAddr q.toNat
    let s := s.wrWords a (lgRecord words q)
    let s := { s with ecc := tkeep (fun k => decide (k < a) || decide (a + 256 ≤ k)) s.ecc }
    let s := s.wr Reg.SYS_LGSEQ q
    if hold then
      let sup := { s.sup with railEn := 0, pgExpired := 0, pgSeen := 0, seq := .idle, seqOwns := false }
      done (({ s with clk := { s.clk with lg := .held }, sup := sup }).setPwr pwrOFF 3)
    else
      let s := { s with clk := { s.clk with lg := .idle, pll := .off, resetReq := s.clk.resetReq && s.clk.pinReq } }
      done (((s.rootStops true).endTrans 0).setPwr pwrOFF 0)
  | _ => done s

/-- Is newer than: (s − t) mod 2^32 lies in 1 to 2^31 − 1 (R68). -/
def newer (a b : Word) : Bool := decide (1 ≤ (a - b).toNat) && decide ((a - b).toNat ≤ 0x7FFFFFFF)

/-- The newest of the valid SEQs: the one newer than the largest number of others, the largest among equals; 0 when
there is none (R68). -/
def newestSeq (qs : List Word) : Word :=
  let score (q : Word) : Nat := (qs.filter (fun t => newer q t)).length
  let better (best q : Word) : Word :=
    if score best < score q then q
    else if score best = score q ∧ best.toNat < q.toNat then q else best
  match qs with
  | [] => 0
  | q :: qs => qs.foldl better q

/-- Reads the 64 words of a record slot as every MRAM reader does; none where a word holds an uncorrectable error
(R465, R1018). -/
def State.readSlot : Nat → Nat → State → Option (List Word) × State
  | 0, _, s => (some [], s)
  | n + 1, a, s =>
    let (w, s) := s.mramCheck a
    let (r, s) := State.readSlot n (a + 4) s
    match w, r with
    | some w, some r => (some (w :: r), s)
    | _, _ => (none, s)

/-- A record slot is valid: MAGIC and FORMAT match, COMMIT is the inverse of SEQ, and the CRC matches (R70). -/
def lgValid (ws : List Word) : Bool :=
  W.fld (ws.getD 0 0) 0 24 == 0x014C47 && ws.getD 63 0 == ~~~ (ws.getD 1 0) && ws.getD 62 0 == crc32 (ws.take 62)

/-- The check of all 32 slots, and LGSEQ (R68). -/
def State.lgseqCheck (s : State) : State :=
  let step (acc : List Word × State) (i : Nat) : List Word × State :=
    let (r, s) := State.readSlot 64 (lgSlotAddr i) acc.2
    match r with
    | some ws => if lgValid ws then (acc.1 ++ [ws.getD 1 0], s) else (acc.1, s)
    | none => (acc.1, s)
  let (qs, s) := (List.range 32).foldl step ([], s)
  s.wr Reg.SYS_LGSEQ (newestSeq qs)

/-! ### Power commands -/

/-- Evaluates every set CLKGATE bit: a busy block's bit is not applied and sets WLREJ, the others are (R79). -/
def State.evalGates (s : State) : State :=
  let g := s.rd Reg.SYS_CLKGATE
  let busy (i : Nat) : Bool := !W.bit s.clk.gated i && s.gateBusy i
  let step (acc : Word × Bool) (i : Nat) : Word × Bool :=
    if W.bit g i then (if busy i then (acc.1, true) else (W.setBit acc.1 i true, acc.2)) else acc
  let (m, rej) := (List.range 14).foldl step (0, false)
  let s := if W.bit m gPWM && !W.bit s.clk.gated gPWM then s.pwmHoldAll else s
  let s := { s with clk := { s.clk with gated := m } }
  if rej then s.setBit Reg.SYS_STATUS 31 true else s

/-- No slot is enabled, no list is active, and every DMA channel is idle (Table 2-7). -/
def State.quiet (s : State) : Bool :=
  s.rd Reg.KLE_ENABLED == 0
    && (List.range 4).all (fun i => !s.bit (Reg.MBM_LIST_STAT i) 1)
    && (List.range 16).all (fun c => s.fld (Reg.XLT_DMA_STATUS c) 0 2 == 0)

/-- A power-state command to a target code: its completion status and the state it leaves (Table 2-7, R77, R86, R251). -/
def State.powerCmd (s : State) (target : Nat) : Nat × State :=
  let st := s.pwr
  let res (code : Nat) (s : State) : Nat × State := (code, s.setFld Reg.SYS_PWRSTATE 16 8 code)
  if s.bit Reg.SYS_PWRSTATE 8 then res 3 s
  else if target = 0 ∨ 4 < target then res 2 s
  else if target = st then res 0 s
  else if target = pwrRUN then
    if st = pwrTRIM then res 0 (({ s with clk := { s.clk with gated := 0 } }).setPwr pwrRUN 0)
    else if s.clk.rootLost then res 9 s
    else
      let s := { s with clk := { s.clk with trans := .toRun, pll := .starting 1 } }
      res 0 (s.setBit Reg.SYS_PWRSTATE 8 true)
  else if target = pwrTRIM then
    if st = pwrRUN then res 0 (s.setPwr pwrTRIM 0).evalGates else res 3 s
  else if target = pwrSTANDBY then
    if s.quiet then res 0 (s.enterStandby 0 false) else res 4 s
  else
    let s := { s with clk := { s.clk with trans := .toOff (s.fld Reg.SYS_PWRSTATE 4 3) } }
    let s := (s.setFld Reg.SYS_PWRSTATE 16 8 0).setBit Reg.SYS_PWRSTATE 8 true
    (0, s.startShutdown)

/-- A write of SYS.PWRCMD with a target. -/
def State.pwrcmd (s : State) (target : Nat) : State :=
  if s.sysServed then (s.powerCmd target).2 else s

/-- R75, R77, R93: a power command to RUN. -/
def execPwrcmdRun (s : State) : Host.Outcome State Fault Refusal := done (s.pwrcmd pwrRUN)
/-- R75, R79: a power command to TRIM. -/
def execPwrcmdTrim (s : State) : Host.Outcome State Fault Refusal := done (s.pwrcmd pwrTRIM)
/-- R75, R82: a power command to STANDBY. -/
def execPwrcmdStandby (s : State) : Host.Outcome State Fault Refusal := done (s.pwrcmd pwrSTANDBY)
/-- R75, R60: a power command to OFF. -/
def execPwrcmdOff (s : State) : Host.Outcome State Fault Refusal := done (s.pwrcmd pwrOFF)

/-- R79: a CLKGATE write; in TRIM every set bit is evaluated. -/
def State.clkgate (s : State) (val : Word) : State :=
  let s := s.wr Reg.SYS_CLKGATE (val &&& 0x3FFF)
  if s.pwr = pwrTRIM then s.evalGates else s

/-- R79: a CLKGATE write. -/
def execClkgateWrite (val : Word) (s : State) : Host.Outcome State Fault Refusal :=
  done (if s.sysServed then s.clkgate val else s)

end Sys2Proof.Machine
end

