-- ==== Sys2Proof/Machine/Reset.lean ====
section
/-!
DEFINITION. Chapter 3, resets: power-on, pin and device reset, their release, and memory initialisation (R99 to R114).
-/
namespace Sys2Proof.Machine

/-- First and last byte of MRAM (Table 8-1). -/
abbrev mramLo : Nat := 0x03000000
abbrev mramHi : Nat := 0x03080000

/-- Is a register kept by a device reset: a PWM safe-level field, SYS.RSTCAUSE (Table 3-1, R105), or SYS.LGSEQ, whose reset
value is the SEQ of the newest valid record in MRAM (Table 2-10; DEDUCED, log entry 101)? -/
def keptByDeviceReset (a : Nat) : Bool :=
  a == Reg.SYS_RSTCAUSE || a == Reg.SYS_LGSEQ || (List.range 12).any (fun m => a == Reg.PWM_SAFE m)

/-- Everything at its reset value but MRAM and what lies outside the part: the queue, what has left the part, the levels
of PERST_N and of the PHY supplies, and the VDDIO_D setting. -/
def State.allReset (s : State) (phase : Phase) : State :=
  let inMram (a : Nat) : Bool := decide (mramLo ≤ a) && decide (a < mramHi)
  { pending := s.pending, mem := tkeep inMram s.mem, ecc := tkeep inMram s.ecc, out := s.out, free := s.free,
    clk := { phase := phase, bank18 := s.clk.bank18, vddioOk := s.clk.vddioOk },
    hif := { perstLow := s.hif.perstLow, phyOk := s.hif.phyOk } }

/-- A device reset takes hold (R99, R104, R106, R47): everything but MRAM, the PWM safe levels and RSTCAUSE returns to
its reset value. -/
def State.deviceReset (s : State) : State :=
  { s.allReset .devHold with regs := tkeep keptByDeviceReset s.regs }

/-- Starts a device reset whose cause is bit `b` of RSTCAUSE (R113). During a collapse sequence it does not cut the
sequence, and the part stays held after it (R142). -/
def State.requestReset (s : State) (b : Nat) : State :=
  if s.clk.lg.collapse then s
  else ({ s with clk := { s.clk with resetReq := true, pinReq := s.clk.pinReq || b == 1 } }).setBit Reg.SYS_RSTCAUSE b true

/-- R111, R962, R998, R999: a watched supply below its level, or a TEST ball high. Only MRAM is kept; a record cut before
word 63 leaves LGSEQ to the next check. -/
def execPowerOnReset (_testHigh : Bool) (s : State) : Host.Outcome State Fault Refusal :=
  let t := s.allReset .porHold
  done { t with clk := { t.clk with bank18 := false, vddioOk := false } }

/-- R965: VDDIO_D has been held at 1.62–2.50 V for 1 000 000 guard periods. -/
def execVddioDReleaseTimer (s : State) : Host.Outcome State Fault Refusal :=
  if decide (s.clk.phase = .porHold) && !s.clk.vddioOk then
    done { s with clk := { s.clk with vddioOk := true, bank18 := true } }
  else done s

/-- R112, R78, R100, R142: a low pulse on RESET_N. -/
def execPinReset (ns : Nat) (vdd33Ok amid : Bool) (s : State) : Host.Outcome State Fault Refusal :=
  let takes := decide (1000 ≤ ns) || (decide (100 ≤ ns) && amid)
  if !takes || decide (s.clk.phase = .porHold) then done s
  else match s.clk.lg with
    | .held =>
      if vdd33Ok then
        done (({ s with clk := { s.clk with lg := .idle, resetReq := true, pinReq := true } }).setBit Reg.SYS_RSTCAUSE 1 true)
      else done s
    | _ => done (s.requestReset 1)

/-- R113: a SYS.RSTCMD write: KEY, and the cause by its writer. -/
def State.rstcmd (s : State) (src : Requester) (val : Word) : State :=
  if s.sysServed && W.fld val 16 16 == 0xA5C3 && W.bit val 0 then
    s.requestReset (match src with | .host => 2 | .core _ => 3 | .dma _ => 3 | .debug => 4)
  else s

/-- R113: a SYS.RSTCMD write. -/
def execRstcmdDevice (src : Requester) (val : Word) (s : State) : Host.Outcome State Fault Refusal :=
  done (s.rstcmd src val)

/-- R99: the device reset that was started takes hold. -/
def execDeviceReset (s : State) : Host.Outcome State Fault Refusal :=
  done (if s.clk.resetReq then s.deviceReset else s)

/-- R114, R964, R68: reset is released: the straps are sampled, the PLL waits for the crystal's edges, and after power-on
the last-gasp slots are checked. -/
def execResetRelease (bootsel : BitVec 2) (vddioD33 : Bool) (s : State) : Host.Outcome State Fault Refusal :=
  let sample (s : State) : State :=
    ({ s with clk := { s.clk with phase := .run } }).setFld Reg.SYS_BOOTSTAT 4 2 bootsel.toNat
  match s.clk.phase with
  | .porHold =>
    if vddioD33 || s.clk.vddioOk then
      let s := { s with clk := { s.clk with vddioOk := true, bank18 := s.clk.bank18 && !vddioD33 } }
      done (sample s).lgseqCheck
    else done s
  | .devHold => done (sample s)
  | .run => done s

/-- R114, R121, R123: memory initialisation ends; the boot ROM starts on Tsuvo 0. -/
def execMemoryInitDone (s : State) : Host.Outcome State Fault Refusal :=
  if s.clk.memInit && s.live then
    let s := ((s.zeroRange 0 0x200000).zeroRange 0x01000000 0x01040000).zeroRange 0x02000000 0x02040000
    let s := { s with clk := { s.clk with memInit := false } }
    match s.fld Reg.SYS_BOOTSTAT 4 2 with
    | 2 => done (({ s with boot := { s.boot with waits := true } }).setFld Reg.SYS_BOOTSTAT 0 4 5)
    | 3 => done (({ s with boot := { s.boot with waits := true } }).setFld Reg.SYS_BOOTSTAT 0 4 6)
    | _ => done { s with boot := { s.boot with stage := .header } }
  else done s

end Sys2Proof.Machine
end

