-- ==== Sys2Proof/Machine/Boot.lean ====
section
/-!
DEFINITION. Chapter 3, boot: the image format, the malformed and epoch checks, and the boot ROM's items, outcomes,
forcing and restart (R118 to R136, R145, R149 to R153, R1010, R1014).
-/
namespace Sys2Proof.Machine

/-- One entry of the section table (Table 3-6) with its tested-combination words. -/
structure Section where
  type : Nat
  epoch : Nat
  off : Nat
  len : Nat
  load : Nat
  siMin : Nat
  siMax : Nat
  brMin : Nat
  brMax : Nat
  fwMin : Nat
  fwMax : Nat
  scrc : Word
  combos : List Word
  /-- A reserved field of the entry or of its list is non-zero (R128). -/
  resv : Bool
  deriving DecidableEq, Repr

/-- NSECT of a header (Table 3-5). -/
def hdrNsect (h : List Word) : Nat := W.fld (h.getD 2 0) 0 8

/-- NCOMBO of entry i of a section table. -/
def secNcombo (t : List Word) (i : Nat) : Nat := W.fld (t.getD (8 * i) 0) 16 8

/-- Words of the section table and of all its lists (R125). -/
def tableWords (h t : List Word) : Nat :=
  8 * hdrNsect h + (List.range (hdrNsect h)).foldl (fun n i => n + secNcombo t i) 0

/-- Entry i of a section table with its list; lists follow the table in table order (R125). -/
def sectionOf (h t : List Word) (i : Nat) : Section :=
  let w (k : Nat) : Word := t.getD (8 * i + k) 0
  let before := (List.range i).foldl (fun n j => n + secNcombo t j) 0
  let cs := (t.drop (8 * hdrNsect h + before)).take (secNcombo t i)
  { type := W.fld (w 0) 0 8, epoch := W.fld (w 0) 8 8, off := (w 1).toNat, len := (w 2).toNat, load := (w 3).toNat,
    siMin := W.fld (w 4) 0 8, siMax := W.fld (w 4) 8 8, brMin := W.fld (w 4) 16 8, brMax := W.fld (w 4) 24 8,
    fwMin := W.fld (w 5) 0 8, fwMax := W.fld (w 5) 8 8, scrc := w 7, combos := cs,
    resv := W.fld (w 0) 24 8 != 0 || W.fld (w 5) 16 16 != 0 || w 6 != 0 || cs.any (fun c => W.fld c 24 8 != 0) }

/-- The sections of an image. -/
def sections (h t : List Word) : List Section := (List.range (hdrNsect h)).map (sectionOf h t)

/-- Is a section of type CODE (Table 3-7)? -/
def Section.isCode (x : Section) : Bool := x.type == 1

/-- A load range lies within shared SRAM or within one Tsuvo local scratch (R128). -/
def loadFits (lo len : Nat) : Bool :=
  decide (lo + len ≤ 0x200000)
    || (List.range 4).any (fun n => decide (0x04000000 + 0x10000 * n ≤ lo)
        && decide (lo + len ≤ 0x04000000 + 0x10000 * n + 0x4000))

/-- Two byte ranges overlap. -/
def overlap (a la b lb : Nat) : Bool := decide (a < b + lb) && decide (b < a + la)

/-- A list in which two members at different places satisfy a test. -/
def somePair (p : Section → Section → Bool) : List Section → Bool
  | [] => false
  | x :: xs => xs.any (p x) || somePair p xs

/-- The header alone is malformed: MAGIC, FORMAT, NSECT, a reserved field, an offset, or a length beyond the source
(R128). -/
def hdrBad (h : List Word) (avail : Nat) : Bool :=
  let len := (h.getD 1 0).toNat
  let off := (h.getD 3 0).toNat
  W.fld (h.getD 0 0) 0 16 != 0x5357 || W.fld (h.getD 0 0) 16 8 != 1 || W.fld (h.getD 0 0) 24 8 != 0
    || hdrNsect h == 0 || decide (32 < hdrNsect h) || W.fld (h.getD 2 0) 8 24 != 0
    || ((h.drop 7).take 8).any (fun w => w != 0)
    || off % 4 != 0 || decide (len < 64) || decide (len < off + 32 * hdrNsect h) || decide (avail < len)

/-- A copy of an image is malformed (R128). `avail` bytes are available at its source; a host-staged image lies at
`staged`. -/
def malformed (h t : List Word) (avail : Nat) (staged : Option Nat) : Bool :=
  let len := (h.getD 1 0).toNat
  let ss := sections h t
  let code := ss.filter Section.isCode
  let entry := (h.getD 4 0).toNat
  hdrBad h avail
    || decide (len < (h.getD 3 0).toNat + 4 * tableWords h t)
    || ss.any (fun x => x.type == 0 || (decide (6 ≤ x.type) && decide (x.type ≤ 0x7F)) || x.resv
        || x.off % 4 != 0 || x.len == 0 || x.len % 4 != 0 || x.load % 4 != 0 || decide (len < x.off + x.len)
        || !loadFits x.load x.len || overlap x.load x.len 0x04003800 0x800
        || (match staged with | some b => overlap x.load x.len b len | none => false))
    || decide (1 < code.length)
    || code.any (fun x => decide (entry < x.load) || decide (x.load + x.len ≤ entry))
    || somePair (fun x y => overlap x.load x.len y.load y.len) ss

/-- The epochs of the part (R1). -/
abbrev siEpoch : Nat := 3
abbrev brEpoch : Nat := 2

/-- FWE: the EPOCH of the image's CODE section, else the epoch of the CODE section loaded last (R129). -/
def State.fwe (s : State) (ss : List Section) : Nat :=
  match ss.find? Section.isCode with
  | some c => c.epoch
  | none => s.fld Reg.SYS_BOOTSTAT 16 8

/-- Result of the epoch check of one section (R130): 0 TESTED, 1 UNTESTED, 2 INCOMPATIBLE. -/
def Section.check (x : Section) (fwe : Nat) : Nat :=
  let within (v lo hi : Nat) : Bool := decide (lo ≤ v) && decide (v ≤ hi)
  if !within siEpoch x.siMin x.siMax || !within brEpoch x.brMin x.brMax
      || (!x.isCode && !within fwe x.fwMin x.fwMax) then 2
  else if x.combos.any (fun c => W.fld c 0 8 == siEpoch && W.fld c 8 8 == brEpoch && (x.isCode || W.fld c 16 8 == fwe))
  then 0 else 1

/-- The image outcome and the index of the first section with the deciding result (R131). -/
def imageOutcome (ss : List Section) (fwe : Nat) : Nat × Nat :=
  let rs := ss.map (fun x => x.check fwe)
  if rs.contains 2 then (boHOLD_INCOMPATIBLE, rs.findIdx (· == 2))
  else if rs.contains 1 then (boHOLD_UNTESTED, rs.findIdx (· == 1))
  else (boREADY, 0)

/-! ### The boot ROM -/

/-- The boot source field (Table 3-4). -/
def State.bootSource (s : State) : Nat := s.fld Reg.SYS_BOOTSTAT 4 2

/-- The image at the source is host-staged. -/
def State.hostStaged (s : State) : Bool := s.bootSource == 2

/-- Bytes available at the boot source (R128, R120): 8 MiB for a flash copy, and for a host-staged image 1 MiB, or what shared
SRAM holds from its base on (R122; DEDUCED, log entry 102). -/
def State.bootAvail (s : State) : Nat :=
  if s.hostStaged then min 0x100000 (0x200000 - (s.rd Reg.SYS_BOOTADDR).toNat) else 0x800000

/-- The boot ROM reads `n` words of the flash copy in hand from an image offset (Table 3-4, R120). -/
def State.flashRead (s : State) (off n : Nat) : State :=
  let a := (if s.bit Reg.SYS_BOOTSTAT 6 then 0x800000 else 0) + off
  if s.bootSource = 0 then s.emit (.flashRead 0x03 a 24 0 (4 * n)) else s.emit (.flashRead 0xEE a 32 8 (4 * n))

/-- Base of a host-staged image, where the source is one. -/
def State.staged (s : State) : Option Nat :=
  if s.hostStaged then some (s.rd Reg.SYS_BOOTADDR).toNat else none

/-- Reads `n` words of a host-staged image; `none` where a word holds an uncorrectable error, which is reported, or lies
outside shared SRAM, which no image that passed the header's check reaches (R122, R153; log entry 102). -/
def State.readStaged : Nat → Nat → State → Option (List Word) × State
  | 0, _, s => (some [], s)
  | n + 1, a, s =>
    if 0x200000 ≤ a then (none, s)
    else
      let (w, s) := s.coRd 0 a
      let (r, s) := State.readStaged n (a + 4) s
      match w, r with
      | some w, some r => (some (w :: r), s)
      | _, _ => (none, s)

/-- The end of a boot from flash leaves DS0 enabled with its window in the boot form (R844). -/
def State.bootFlash (s : State) : State :=
  if s.bootSource = 0 then
    (s.wr Reg.DS_FLASHCFG0 0x00000003).wr (Reg.DS_CFG 0) (W.setBit (W.setFld (s.rd (Reg.DS_CFG 0)) 12 9 16) 0 true)
  else if s.bootSource = 1 then
    (s.wr Reg.DS_FLASHCFG0 0x000191EE).wr (Reg.DS_CFG 0) (W.setBit (W.setFld (s.rd (Reg.DS_CFG 0)) 12 9 8) 0 true)
  else s

/-- Sets OUTCOME and leaves Tsuvo 0 waiting in the boot ROM. -/
def State.bootHold (s : State) (oc : Nat) : State :=
  let s := s.bootFlash
  ({ s with boot := { s.boot with stage := .idle, waits := true, forcing := false } }).setFld Reg.SYS_BOOTSTAT 0 4 oc

/-- The boot ROM starts on an image's header afresh. -/
def State.bootFresh (s : State) : State :=
  { s with boot := { s.boot with stage := .header, failedOnce := false, bad := false, hdr := [], tbl := [], waits := false } }

/-- The copy in hand is discarded: the alternate copy of a flash, else NO_IMAGE (R150, R151, R153). -/
def State.bootFallback (s : State) : State :=
  if !s.hostStaged && !s.bit Reg.SYS_BOOTSTAT 6 then
    let s := s.setBit Reg.SYS_BOOTSTAT 6 true
    let s := { s with boot := { s.boot with forcing := false } }
    s.bootFresh
  else s.bootHold boNO_IMAGE

/-- An item has failed: the read is repeated once, but a host-staged image is not reread (R149, R153). -/
def State.itemFailed (s : State) : State :=
  if s.boot.failedOnce || s.hostStaged then
    { s with boot := { s.boot with failedOnce := false, bad := true, stage := .check } }
  else { s with boot := { s.boot with failedOnce := true } }

/-- Draws `n` free words. -/
def State.drawWords : Nat → State → List Word × State
  | 0, s => ([], s)
  | n + 1, s =>
    let (w, s) := s.drawWord
    let (ws, s) := State.drawWords n s
    (w :: ws, s)

/-- Writes whole words with fresh check bits from an address upwards (R462). -/
def State.fullWrites (s : State) (a : Nat) : List Word → State
  | [] => s
  | w :: ws => (s.fullWrite a w).fullWrites (a + 4) ws

/-- Writes words that are copied to LOAD, by port p: coherently into shared SRAM, else into a local scratch (R127, R258, R462). -/
def State.loadWords (s : State) (p a : Nat) (ws : List Word) : State :=
  if a < 0x200000 then s.coWrs p a ws else s.fullWrites a ws

/-- A section fails for good while it is copied: its load range holds free values, and the copy is discarded (R1010,
R150). -/
def State.sectFailed (s : State) (x : Section) : State :=
  if s.boot.failedOnce || s.hostStaged then
    let (ws, s) := State.drawWords (x.len / 4) s
    ({ (s.loadWords 0 x.load ws) with boot := { s.boot with failedOnce := false } }).bootFallback
  else { s with boot := { s.boot with failedOnce := true } }

/-- An item has been read: a success on the second read counts in BOOTTALLY (R149). -/
def State.itemOk (s : State) : State :=
  let s := if s.boot.failedOnce then s.tally Reg.SYS_BOOTTALLY else s
  { s with boot := { s.boot with failedOnce := false } }

/-- The words of an item of `n` words at image offset `off`: from the flash read, or from shared SRAM. -/
def State.itemWords (s : State) (item : ItemRead) (off n : Nat) : Option (List Word) × State :=
  match s.staged with
  | some b => State.readStaged n (b + off) s
  | none => (if !item.partialFrame && item.words.length == n then some item.words else none, s.flashRead off n)

/-- R149, R150, R1010: the boot ROM finishes reading an item. -/
def execBootItemRead (item : ItemRead) (s : State) : Host.Outcome State Fault Refusal :=
  if !s.live then done s
  else match s.boot.stage with
  | .header =>
    let (r, s) := s.itemWords item 0 16
    match r with
    | some ws =>
      if crc32 (ws.take 15) = ws.getD 15 0 then
        let s := s.itemOk
        if hdrBad ws s.bootAvail then
          done { s with boot := { s.boot with hdr := ws, bad := true, stage := .check } }
        else done { s with boot := { s.boot with hdr := ws, stage := .table } }
      else done s.itemFailed
    | none => done s.itemFailed
  | .table =>
    let h := s.boot.hdr
    let off := (h.getD 3 0).toNat
    let (t0, s1) := s.itemWords { item with words := item.words.take (8 * hdrNsect h) } off (8 * hdrNsect h)
    match t0 with
    | some t =>
      let k := 8 * hdrNsect h
      let (r, s) := s1.itemWords { item with words := item.words.drop k } (off + 4 * k) (tableWords h t - k)
      match r with
      | some cs =>
        let ws := t ++ cs
        if crc32 ws = h.getD 6 0 then
          done { s.itemOk with boot := { s.itemOk.boot with tbl := ws, stage := .check } }
        else done s.itemFailed
      | none => done s.itemFailed
    | none => done s1.itemFailed
  | .sect i =>
    let x := sectionOf s.boot.hdr s.boot.tbl i
    let (r, s) := s.itemWords item x.off (x.len / 4)
    match r with
    | some ws =>
      if crc32 ws = x.scrc then
        let s := s.itemOk.loadWords 0 x.load ws
        let nxt := if i + 1 < hdrNsect s.boot.hdr then BootStage.sect (i + 1) else .done
        done { s with boot := { s.boot with stage := nxt } }
      else done (s.sectFailed x)
    | none => done (s.sectFailed x)
  | _ => done s

/-- R133, R128 to R131, R134, R150: the malformed and epoch checks and their outcome. -/
def execBootCheckOutcome (s : State) : Host.Outcome State Fault Refusal :=
  if !s.live || s.boot.stage ≠ .check then done s
  else if s.boot.bad || malformed s.boot.hdr s.boot.tbl s.bootAvail s.staged then done s.bootFallback
  else
    let ss := sections s.boot.hdr s.boot.tbl
    let (oc, sect) := imageOutcome ss (s.fwe ss)
    let s := s.setFld Reg.SYS_BOOTSTAT 8 5 sect
    let copy (s : State) : State := { s with boot := { s.boot with stage := .sect 0, failedOnce := false } }
    if oc = boREADY then done (copy s)
    else if oc = boHOLD_UNTESTED ∧ s.boot.forcing then
      done (copy ((s.setBit Reg.SYS_IDENT 31 true).setBit Reg.SYS_BOOTSTAT 7 true))
    else done (s.bootHold oc)

/-- What a copied image changes: ENTRY and the firmware epoch of its CODE section (R133, R257, R1014). A boot makes the change
with the end of the whole copy, IMGLOAD with the copy of the CODE section (DESIGN CHOICE, log entry 103). -/
def State.codeLoaded (s : State) (h : List Word) (ss : List Section) : State :=
  match ss.find? Section.isCode with
  | some c => (s.wr (Reg.SYS_COREENTRY 0) (h.getD 4 0 &&& 0xFFFFFFFC)).setFld Reg.SYS_BOOTSTAT 16 8 c.epoch
  | none => s

/-- R133, R1014: every section is copied; Tsuvo 0 starts at ENTRY, or waits where the image has no CODE section. -/
def execBootCopyDone (s : State) : Host.Outcome State Fault Refusal :=
  if !s.live || s.boot.stage ≠ .done then done s
  else
    let ss := sections s.boot.hdr s.boot.tbl
    let s := (s.codeLoaded s.boot.hdr ss).bootFlash
    let code := ss.any Section.isCode
    let s := { s with boot := { s.boot with stage := .idle, forcing := false, waits := !code } }
    let s := s.setFld Reg.SYS_BOOTSTAT 0 4 boREADY
    done (if code then s.coreStart 0 else s)

/-- R145: a BOOTGO write. -/
def State.bootgo (s : State) (val : Word) : State :=
  if !W.bit val 0 then s
  else
    let oc := s.outcome
    if s.hostStaged && (oc == boWAIT_HOST || oc == boNO_IMAGE || oc == boHOLD_UNTESTED || oc == boHOLD_INCOMPATIBLE) then
      (s.setFld Reg.SYS_BOOTSTAT 0 4 boBOOTING).bootFresh
    else s.setBit Reg.SYS_BOOTSTAT 14 true

/-- R145: a BOOTGO write. -/
def execBootgo (val : Word) (s : State) : Host.Outcome State Fault Refusal :=
  done (if s.sysServed then s.bootgo val else s)

/-- R134, R135: a BOOTFORCE write. -/
def State.bootforce (s : State) (val : Word) : State :=
  if W.fld val 0 16 == 0xF0CE && s.outcome == boHOLD_UNTESTED then
    let s := (s.setFld Reg.SYS_BOOTSTAT 0 4 boBOOTING).bootFresh
    { s with boot := { s.boot with forcing := true } }
  else s.setBit Reg.SYS_BOOTSTAT 13 true

/-- R134, R135: a BOOTFORCE write. -/
def execBootforce (val : Word) (s : State) : Host.Outcome State Fault Refusal :=
  done (if s.sysServed then s.bootforce val else s)

end Sys2Proof.Machine
end

