-- ==== Sys2Proof/Machine/Link.lean ====
section
/-!
DEFINITION. Chapter 4, the link: configuration space, link and function-level resets, host loss and the heartbeat, BAR2
and the outbound window, and interrupt messages that software asks for.
-/
namespace Sys2Proof.Machine

/-! ### Configuration space (R156; the layout of the standard structures is PRESUMED) -/

/-- The bits of a configuration dword that a write changes. -/
def cfgWritable (d : Nat) : Word :=
  match d with
  | 0x01 => 0x00000546
  | 0x03 => 0x000000FF
  | 0x04 => 0xFFFF0000
  | 0x06 => 0xFFE00000
  | 0x07 => 0xFFFFFFFF
  | 0x0F => 0x000000FF
  | 0x11 => 0x00000003
  | 0x14 => 0x00710000
  | 0x15 => 0xFFFFFFFC
  | 0x16 => 0xFFFFFFFF
  | 0x17 => 0x0000FFFF
  | 0x18 => 0x0000FFFF
  | 0x1C => 0xC0000000
  | 0x22 => 0x000070EF
  | 0x24 => 0x000000CB
  | 0x2A => 0x0000001F
  | 0x2C => 0x0000000F
  | 0x42 => 0x0017F010
  | 0x43 => 0x0017F010
  | 0x45 => 0x000031C1
  | _ => 0

/-- The bits of a configuration dword that a write of one clears. -/
def cfgW1C (d : Nat) : Word :=
  match d with
  | 0x01 => 0xF9000000
  | 0x22 => 0x000F0000
  | 0x41 => 0x0017F010
  | 0x44 => 0x000031C1
  | _ => 0

/-- The bits of a configuration dword that PCI Express preserves across a function-level reset (R240): Max_Payload_Size, the link
settings and Link Status, Link Control 2, and the sticky error registers. -/
def cfgSticky (d : Nat) : Word :=
  match d with
  | 0x22 => 0x000000E0
  | 0x24 => 0xFFFF00CB
  | _ => 0xFFFFFFFF

/-- Configuration space after a function-level reset (R240). -/
def State.cfgFlr (s : State) : State :=
  [0x22, 0x24, 0x2C, 0x41, 0x42, 0x43, 0x44, 0x45, 0x46, 0x47, 0x48, 0x49, 0x4A].foldl
    (fun t d => t.cfgWr d ((s.cfgRd d &&& cfgSticky d) ||| (Config.cfgReset d &&& ~~~ cfgSticky d)))
    { s with hif := { s.hif with cfg := [] } }

/-! ### Host loss -/

/-- Host loss is declared with a source of Table 5-6 (R212, R218, R232): HOSTLOSS, the slots' policies unless host loss
holds already, the interrupt source and the event. -/
def State.hostLoss (s : State) (src : Nat) : State :=
  let s := s.setBit Reg.HIF_STATUS 0 true
  let s := if s.hif.hostLost then s else ({ s with hif := { s.hif with hostLost := true } }).hostLossSlots
  (s.source 54).event evHOST_LOSS src 0

/-- Every ring disabled, its indices and doorbells zero; records queued for a ring are not delivered, and a pending post is
discarded without POSTERR, since no write of CFG cleared its EN (R240; DESIGN CHOICE, log entry 108). -/
def State.ringsReset (s : State) : State :=
  let z (lo hi : Nat) (t : Tab Word) : Tab Word := tkeep (fun a => decide (a < lo) || decide (hi ≤ a)) t
  let regs := z Reg.HIF_CMD_BASE_LO (Reg.HIF_EV_IDX + 4) (z (Reg.HIF_REC_BASE_LO 0) (Reg.HIF_REC_BASE_LO 8) s.regs)
  { s with regs := regs,
           hif := { s.hif with d1 := [], fetch := .none, cplPhase := true, evPhase := true, vcnt := [], kept := [],
                               posts := [], cplHeld := [], needDb := false },
           mbm := { s.mbm with copies := [] } }

/-- A fetched command that has not started is discarded; a running one finishes its device-side effects and writes no completion
(R144, R221). -/
def State.muteCmd (s : State) : State :=
  { s with hif := { s.hif with cmd := s.hif.cmd.bind (fun c => if c.started then some { c with mute := true } else none) } }

/-- The MSI-X table, its pending bits and the MSI state at reset (R240). -/
def State.msiReset (s : State) : State :=
  let regs := tkeep (fun a => decide (a < Reg.HIF_MSIX_ADDRLO 0) || decide (Reg.HIF_MSIXPBA + 4 ≤ a)) s.regs
  { s with regs := regs, hif := { s.hif with cfg := tkeep (fun d => decide (d < 0x14) || decide (0x1E < d)) s.hif.cfg } }

/-- Lists that waited for records of the rings end (R276). -/
def State.stopChecks (s : State) : State := forN 4 (fun l s => s.stopCheck l) s

/-- A link reset: PHY, configuration space and HIF return to reset, the always-on registers apart; it counts as host loss
(R99, R101, R103, R212, R213, R240, R241). -/
def State.linkReset (s : State) : State :=
  let s := s.muteCmd.ringsReset.msiReset.poolLinkReset.stopChecks
  let keep (a : Nat) : Bool :=
    decide (a < Reg.HIF_LINKSTAT) || decide (Reg.HIF_LINKSTAT + 0x10000 ≤ a) || hifAlwaysOn a
  let s := { s with regs := tkeep keep s.regs, hif := { s.hif with cfg := [], training := false } }
  (s.tally Reg.HIF_LRTALLY).hostLoss 1

/-- R1011: PERST_N low. -/
def execLinkReset (s : State) : Host.Outcome State Fault Refusal :=
  let s := { s with hif := { s.hif with perstLow := true } }
  done (if s.alwaysOn then s.linkReset else s)

/-- R1011: PERST_N is released; training starts at once, or at the PLL's lock. -/
def execPerstRelease (s : State) : Host.Outcome State Fault Refusal :=
  done ({ s with hif := { s.hif with perstLow := false } }).startTraining

/-- R213, R1011: the data link goes down. -/
def execDataLinkDown (s : State) : Host.Outcome State Fault Refusal :=
  done (if s.linkServes then s.linkReset.trainNow else s)

/-- R213, R1011: an in-band hot reset. -/
def execInBandHotReset (s : State) : Host.Outcome State Fault Refusal :=
  done (if s.linkServes then s.linkReset.trainNow else s)

/-- R1011: training ends at a speed and a width; the data link is up. -/
def execLinkTrainingDone (speed : BitVec 2) (width : BitVec 3) (s : State) : Host.Outcome State Fault Refusal :=
  if s.hif.training && s.alwaysOn then
    let s := { s with hif := { s.hif with training := false } }
    let s := ((s.setBit Reg.HIF_LINKSTAT 0 true).setFld Reg.HIF_LINKSTAT 1 2 speed.toNat).setFld Reg.HIF_LINKSTAT 3 3 width.toNat
    done (s.cfgWr 0x24 (W.setFld (W.setFld (s.cfgRd 0x24) 16 4 speed.toNat) 20 6 width.toNat))
  else done s

/-- R972: VDDPX09 and VDDPX18 come within range. -/
def execPhySuppliesValid (s : State) : Host.Outcome State Fault Refusal :=
  done ({ s with hif := { s.hif with phyOk := true } }).startTraining

/-- The steps of a function-level reset (R221, R144, R222, R1012). -/
def State.flr (s : State) : State :=
  let s := s.muteCmd.ringsReset.msiReset.poolLinkReset.stopChecks.cfgFlr
  let s := (s.setBit Reg.HIF_STATUS 1 false).tally Reg.HIF_FLRTALLY
  s.hostLoss 2

/-- R221: a function-level reset. -/
def execFunctionLevelReset (s : State) : Host.Outcome State Fault Refusal :=
  done (if s.linkServes then s.flr else s)

/-! ### Interrupt messages and held requests -/

/-- R205: the messages that FWIRQ bits ask for; a bit reads 1 while its message is pending. -/
def State.fwirq (s : State) (val : Word) : State :=
  forN 6 (fun k s =>
    if W.bit val k then
      let s := s.sendVector (10 + k)
      s.setBit Reg.HIF_FWIRQ k (s.vectorPends (10 + k))
    else s) s

/-- R205: a FWIRQ write. -/
def execFwirqWrite (val : Word) (s : State) : Host.Outcome State Fault Refusal :=
  done (if s.live && !s.hif.perstLow then s.fwirq val else s)

/-- R204: VMODv.TIME has passed since the first entry counted. -/
def execVectorModerationTimeout (v : Fin 10) (s : State) : Host.Outcome State Fault Refusal :=
  if s.live && tget 0 s.hif.vcnt v.val != 0 && s.fld (Reg.HIF_VMOD v.val) 8 16 != 0 then
    done (({ s with hif := { s.hif with vcnt := tset 0 s.hif.vcnt v.val 0 } }).sendVector v.val)
  else done s

/-! ### Configuration requests -/

/-- A write of a configuration dword: the function-level reset bit, entry to D3hot, and unmasking act at once (R156,
R157, R205, R221, R230); in STANDBY Link Control decides whether the link is in L1 (R74). -/
def State.cfgWrite (s : State) (d : Nat) (val : Word) (be : BitVec 4) : State :=
  let old := s.cfgRd d
  let v := mergeBE old val be
  let w1c := mergeBE 0 val be &&& cfgW1C d
  let new := ((old &&& ~~~ cfgWritable d) ||| (v &&& cfgWritable d)) &&& ~~~ w1c
  if d = 0x22 ∧ be.getLsbD 1 ∧ W.bit val 15 then s.flr
  else
    let d3 := decide (d = 0x11) && W.fld old 0 2 == 0 && W.fld new 0 2 == 3
    let new := if decide (d = 0x11) && W.fld new 0 2 != 0 && W.fld new 0 2 != 3 then W.setFld new 0 2 (W.fld old 0 2) else new
    let s := s.cfgWr d new
    let s := if decide (d = 0x24) && s.pwr == pwrSTANDBY && s.linkUp then s.setBit Reg.HIF_LINKSTAT 7 (W.bit new 1) else s
    let s := if d3 then s.hostLoss 3 else s
    s.sendPending

/-- R156, R1011: a configuration request. -/
def execConfigRequest (write : Bool) (dword : BitVec 10) (val : Word) (be : BitVec 4) (s : State) :
    Host.Outcome State Fault Refusal :=
  if !s.linkServes then done s
  else if write then done ((s.cfgWrite dword.toNat val be).ackResume)
  else done { s with reply := .word (s.cfgRd dword.toNat) }

/-- R155: an I/O or locked request is answered with Unsupported Request. -/
def execIoOrLockedRequest (_locked : Bool) (s : State) : Host.Outcome State Fault Refusal :=
  done (if s.linkServes then s.ur else s)

/-! ### Heartbeat -/

/-- R219, R231: a HEARTBEAT write restarts the watch; after a heartbeat timeout it ends the host loss, and every ramp stops
at its present value. A host loss that another event declared ends with the heartbeat after the next heartbeat timeout, since
the spec names no other end (DESIGN CHOICE, log entry 104). -/
def State.heartbeat (s : State) : State :=
  if s.hif.hbOut then ({ s with hif := { s.hif with hbOut := false, hostLost := false } }).rampsStop else s

/-- R219: a HEARTBEAT write. -/
def execHeartbeat (s : State) : Host.Outcome State Fault Refusal :=
  done (if s.hostReg Reg.HIF_HEARTBEAT then s.heartbeat else s)

/-- R214, R231, R234: no heartbeat for TMO ms. A heartbeat in the same SLOW cycle prevents it; the watch stops in STANDBY. -/
def execHeartbeatTimeout (inSlowCycle : Bool) (s : State) : Host.Outcome State Fault Refusal :=
  if s.live && s.bit Reg.HIF_HBCFG 0 && !inSlowCycle then
    done (({ s with hif := { s.hif with hbOut := true } }).hostLoss 0)
  else done s

/-! ### BAR2 and the outbound window -/

/-- BAR2 is closed: in STANDBY, while the part boots, and while a memory proof runs (R170, R269). -/
def State.bar2Closed (s : State) : Bool := !s.live || s.outcome == boBOOTING || s.hif.proof != 0

/-- R166 to R170, R239: a host read of shared SRAM through BAR2. A poisoned or malformed request is judged first, by R239 and not as
an Unsupported Request (DESIGN CHOICE, log entry 151). -/
def execBar2Read (addr : BitVec 21) (tlp : Tlp) (s : State) : Host.Outcome State Fault Refusal :=
  if !s.linkServes then done { s with reply := .none }
  else if tlp ≠ .good then done { s.tlpError tlp with reply := .none }
  else if !s.memServed then done s.ur
  else if s.bar2Closed then done { s with reply := .word 0 }
  else
    let (r, s) := s.coRd 6 (addr.toNat / 4 * 4)
    match r with
    | some w => done { s with reply := .word w }
    | none => done { (s.setBit Reg.HIF_STATUS 5 true) with reply := .poisoned 0xFFFFFFFF }

/-- R167, R170, R239: a host write of one word through BAR2, merged under its byte enables; R239 is judged first (DESIGN CHOICE, log
entry 151). -/
def execBar2Write (addr : BitVec 21) (val : Word) (be : BitVec 4) (tlp : Tlp) (s : State) :
    Host.Outcome State Fault Refusal :=
  if !s.linkServes then done s
  else if tlp ≠ .good then done (s.tlpError tlp)
  else if !s.memServed then done s.urWrite
  else if s.bar2Closed then done s
  else done (s.coWr 6 (addr.toNat / 4 * 4) val be).2

/-- Host address of byte `y` of the outbound window (R171). -/
def State.obAddr (s : State) (y : Nat) : Word64 :=
  W.of32 (s.rd Reg.HIF_OBBASE_LO) (s.rd Reg.HIF_OBBASE_HI) + BitVec.ofNat 64 y

/-- A write of bytes to the outbound window at byte `y` (R171, R172); false where it fails at the issuer. With the link down or in
D3hot it fails as with Bus Master Enable clear (DESIGN CHOICE, log entry 105). -/
def State.outboundWrite (s : State) (y : Nat) (bytes : List Byte) : Bool × State :=
  if s.canIssue then (true, s.emit (.writeBytes (s.obAddr y) bytes)) else (false, s)

end Sys2Proof.Machine
end

