-- ==== Sys2Proof/Machine/Control.lean ====
section
/-!
DEFINITION. Controls of the cores, the debug unit and the DMA channels that a register write reaches: core reset, interrupt and
halt requests, the special registers, and the commands of a DMA channel.
-/
namespace Sys2Proof.Machine

/-! ### Core reset -/

/-- A write of 1 to CORERST bit n (R107, R146): the core issues nothing more and its steps begin. -/
def State.coreResetAssert (s : State) (n : Nat) : State :=
  if n = 0 ∧ s.outcome = boBOOTING then s.setBit Reg.SYS_STATUS 31 true
  else if s.bit Reg.SYS_CORERST n then s
  else (s.setBit Reg.SYS_CORERST n true).setCore n { s.core n with resetting := true }

/-- A write of 0 to CORERST bit n (R108, R109); steps of R107 that have begun end first. -/
def State.coreResetRelease (s : State) (n : Nat) : State :=
  if s.bit Reg.SYS_CORERST n then
    let s := (s.setBit Reg.SYS_CORERST n false).setBit Reg.SYS_CORERST (8 + n) false
    if (s.core n).resetting then s else s.coreStart n
  else s

/-- A write of SYS.CORERST (R107, R108). Where bit 0 is ignored in BOOTING, the other bits act all the same (DEDUCED, log entry
106). -/
def State.corerst (s : State) (val : Word) : State :=
  forN 4 (fun n s => if W.bit val n then s.coreResetAssert n else s.coreResetRelease n) s

/-- R107: a write of 1 to CORERST bit n. -/
def execCoreResetAssert (n : Fin 4) (s : State) : Host.Outcome State Fault Refusal :=
  done (if s.sysServed then s.coreResetAssert n.val else s)
/-- R108: a write of 0 to CORERST bit n. -/
def execCoreResetRelease (n : Fin 4) (s : State) : Host.Outcome State Fault Refusal :=
  done (if s.sysServed then s.coreResetRelease n.val else s)

/-! ### Time and the exposed units -/

/-- An operation of the multiplier or accumulator lands (R316, R322, R334). -/
def Core.landMul (c : Core) (op : MulOp) : Core :=
  match op with
  | .product p => { c with ml := p.setWidth 16, mh := (p >>> 16).setWidth 16 }
  | .ma v wraps => { c with ma := v, status := if wraps then c.status ||| 0x0008 else c.status }

/-- The multiplier operations whose time has come land, the oldest first (R316, R318). -/
def Core.landDue (c : Core) : List (Nat × MulOp) → Core
  | [] => { c with mulq := [] }
  | (0, op) :: q => (c.landMul op).landDue q
  | q => { c with mulq := q }

/-- The division in flight lands (R319). -/
def Core.landDiv (c : Core) : Core :=
  match c.div with
  | some (_, q, r) => { c with dq := q, dm := r, div := none }
  | none => c

/-- `k` CORE cycles pass at core n: results land, and pending values arrive (R311, R316 to R320, R323). -/
def Core.age (c : Core) (k : Nat) : Core :=
  let c := { c with marks := if c.markT ≤ k then [] else c.marks, markT := c.markT - k }
  let c := c.landDue (c.mulq.map (fun e => (e.1 - k, e.2)))
  match c.div with
  | some (t, q, r) => if t ≤ k then { c with dq := q, dm := r, div := none } else { c with div := some (t - k, q, r) }
  | none => c

/-- Every operation of the multiplier and accumulator lands (R335). -/
def Core.landAll (c : Core) : Core := c.landDue (c.mulq.map (fun e => (0, e.2)))

/-! ### Debug and interrupt control -/

/-- A write of ICU.SWI: source 56 + m at every core for each bit m. -/
def State.swi (s : State) (val : Word) : State := forN 4 (fun m s => if W.bit val m then s.source (56 + m) else s) s

/-- R357: a write of ICU.SWI. -/
def execSwi (val : Word) (s : State) : Host.Outcome State Fault Refusal := done (if s.live then s.swi val else s)

/-- Core n's pending register, low or high half. -/
def pendReg (n : Nat) (hi : Bool) : Nat := if hi then Reg.ICU_PENDHI n else Reg.ICU_PENDLO n

/-- R358, R394: a SETPEND write. -/
def execSetpend (n : Fin 4) (hi : Bool) (val : Word) (s : State) : Host.Outcome State Fault Refusal :=
  done (if s.live then s.wr (pendReg n.val hi) (s.rd (pendReg n.val hi) ||| val) else s)
/-- R358: a CLRPEND write. -/
def execClrpend (n : Fin 4) (hi : Bool) (val : Word) (s : State) : Host.Outcome State Fault Refusal :=
  done (if s.live then s.wr (pendReg n.val hi) (s.rd (pendReg n.val hi) &&& ~~~ val) else s)


/-- Action SAFE for a halt of a core whose SAFECFG bit is set (R383). -/
def State.haltSafe (s : State) (n : Nat) : State :=
  if s.bit Reg.DBG_SAFECFG n then s.pwmSafeAll.slotsProtect (some 1) else s

/-- A write of 1 to HALTREQ bit n: the outputs reach their safe levels before the core stops (R380, R383). -/
def State.haltRequest (s : State) (n : Nat) : State :=
  if s.bit Reg.DBG_HALTREQ n then s
  else
    let s := s.setBit Reg.DBG_HALTREQ n true
    if (s.core n).halted then s else s.haltSafe n

/-- R380: a write of 1 to a core's HALTREQ bit. -/
def execHaltRequest (n : Fin 4) (s : State) : Host.Outcome State Fault Refusal :=
  done (if s.live then s.haltRequest n.val else s)


/-- A write of 0 to a core's HALTREQ bit resumes a halted core: its first operation issues, whatever breakpoint stands there and
whatever the core waited for when it halted (R384). -/
def State.haltRelease (s : State) (n : Nat) : State :=
  let s := s.setBit Reg.DBG_HALTREQ n false
  if (s.core n).halted then
    (s.setCore n { s.core n with halted := false, bpPass := true, waiting := .none }).setBit Reg.DBG_STATUS n false
  else s

/-- A STEP write for core n: exactly one operation issues, whatever the core waited for when it halted (R385, R398). The steps of a
debugger are so far apart that every result in flight has landed: each step reads the landed result (R386). -/
def State.stepCore (s : State) (n : Nat) : State :=
  if (s.core n).halted then
    (s.setCore n { (s.core n).landAll.landDiv with halted := false, stepping := true, bpPass := true,
                                                          waiting := .none }).setBit
      Reg.DBG_STATUS n false
  else s.setBit Reg.DBG_STATUS 5 true

/-- A STEP write (R385). -/
def State.debugStep (s : State) (val : Word) : State := forN 4 (fun n s => if W.bit val n then s.stepCore n else s) s

/-- R385, R398: a write of STEP. -/
def execDebugStep (val : Word) (s : State) : Host.Outcome State Fault Refusal :=
  done (if s.live then s.debugStep val else s)


/-- The core is in system mode (Table 6-8). -/
def Core.sys (c : Core) : Bool := c.status.getLsbD 8

/-! ### Special registers (Table 6-10) -/

/-- STATUS as it reads, with DBUSY (Table 6-8). -/
def Core.statusRead (c : Core) : Half := if c.div.isSome then c.status ||| 0x0040 else c.status

/-- Special register `r` of core n; none for a number that the table lacks (R337, R343). -/
def State.srRead (s : State) (n r : Nat) : Option Half :=
  let c := s.core n
  match r with
  | 0 => some c.statusRead
  | 1 => some (c.cbr.setWidth 16)
  | 2 => some (c.dbr.setWidth 16)
  | 3 => some (c.sbr.setWidth 16)
  | 4 => some c.dsp
  | 5 => some c.dstop
  | 6 => some c.dslim
  | 7 => some c.rsp
  | 8 => some c.rstop
  | 9 => some c.rslim
  | 10 => some (BitVec.ofNat 16 (c.dstk.length + 256 * c.rstk.length))
  | 11 => some c.ml
  | 12 => some c.mh
  | 13 => some (c.ma.setWidth 16)
  | 14 => some ((c.ma >>> 16).setWidth 16)
  | 15 => some (((c.ma >>> 32).setWidth 8).signExtend 16)
  | 16 => some c.dq
  | 17 => some c.dm
  | 18 => some (c.asid.setWidth 16)
  | 19 => some (BitVec.ofNat 16 n)
  | 20 => some (s.clk.tb.setWidth 16)
  | 24 => some c.epcl
  | 25 => some c.epch
  | 26 => some c.cause
  | 27 => some c.fal
  | 28 => some c.fah
  | 29 => some c.vbrl
  | 30 => some c.vbrh
  | _ => none

/-- A special register that only system mode may write (Table 6-10). -/
def srSystem (r : Nat) : Bool :=
  r == 3 || r == 5 || r == 6 || r == 8 || r == 9 || r == 18 || r == 24 || r == 25 || r == 29 || r == 30

/-- MA with its bits from `lo` on, `n` of them, replaced. -/
def maPart (ma : BitVec 40) (lo n v : Nat) : BitVec 40 :=
  BitVec.ofNat 40 (ma.toNat % 2 ^ lo + v % 2 ^ n * 2 ^ lo + ma.toNat / 2 ^ (lo + n) * 2 ^ (lo + n))

/-- A write of special register `r`; read-only registers ignore it (R328, R331 to R334, R337). -/
def Core.srWrite (c : Core) (r : Nat) (v : Half) : Core :=
  match r with
  | 0 =>
    let m : Half := if c.sys then 0x023F else 0x003F
    { c with status := (c.status &&& ~~~ m) ||| (v &&& m) }
  | 2 => { c with dbr := v.setWidth 8 }
  | 3 => { c with sbr := v.setWidth 8 }
  | 4 => { c with dsp := v &&& 0xFFFE }
  | 5 => { c with dstop := v &&& 0xFFFE }
  | 6 => { c with dslim := v &&& 0xFFFE }
  | 7 => { c with rsp := v &&& 0xFFFC }
  | 8 => { c with rstop := v &&& 0xFFFC }
  | 9 => { c with rslim := v &&& 0xFFFC }
  | 11 => { c with ml := v }
  | 12 => { c with mh := v }
  | 13 => { c with ma := maPart c.ma 0 16 v.toNat }
  | 14 => { c with ma := maPart c.ma 16 16 v.toNat }
  | 15 => { c with ma := maPart c.ma 32 8 v.toNat }
  | 16 => { c with dq := v }
  | 17 => { c with dm := v }
  | 18 => { c with asid := v.setWidth 6 }
  | 24 => { c with epcl := v }
  | 25 => { c with epch := v &&& 0x03FF }
  | 29 => { c with vbrl := v }
  | 30 => { c with vbrh := v &&& 0x00FF }
  | _ => c

/-! ### DMA channels -/

/-- DMA channel c beside its registers. -/
def State.ch (s : State) (c : Nat) : Dma := tget {} s.dma c
/-- The state with channel c replaced. -/
def State.setCh (s : State) (c : Nat) (x : Dma) : State := { s with dma := tset {} s.dma c x }

/-- A channel's tokens after a change of its booking: a new booking starts with none, and none exceed the new depth
(R444, R458). -/
def Dma.rebook (x : Dma) (old new : Nat) : Dma :=
  { x with tokens := if old = 0 ∨ new = 0 then [] else x.tokens.map (fun e => (e.1, min e.2 (tokenDepth new))) }

/-- STATE of a channel (Table 8-14). -/
def State.dmaState (s : State) (c : Nat) : Nat := s.fld (Reg.XLT_DMA_STATUS c) 0 2
abbrev dmaIDLE : Nat := 0
abbrev dmaRUN : Nat := 1
abbrev dmaFAULT : Nat := 2
abbrev dmaERR : Nat := 3

/-- The interrupt source of a channel's group (Table 7-2). -/
def State.dmaSource (s : State) (c : Nat) : State := s.source (48 + c / 4)

/-- Why an access of a channel failed: KIND of Table 8-14 and the address. -/
structure DmaFail where
  kind : Nat
  va : Nat

/-- Takes the entries that match an ASID (64: every entry) out of a channel's TLB; one with G set matches every ASID (R456, Table
8-3). -/
def Dma.invalidate (x : Dma) (asid : Nat) : Dma :=
  { x with tlb := x.tlb.filter (fun e => match e.2 with | some t => asid != 64 && t.asid != asid && !t.g | none => false) }

/-- The pending removals of a channel take place at an element boundary (R456). -/
def State.dmaInvNow (s : State) (c : Nat) : State :=
  let x := s.ch c
  s.setCh c { x.inv.foldl Dma.invalidate x with inv := [] }

/-- DMAINVBUSY clears when every channel has removed its entries (R456). -/
def State.dmaInvCheck (s : State) : State :=
  if (List.range 16).all (fun c => (s.ch c).inv.isEmpty) then s.setBit Reg.XLT_STATUS 0 false else s

/-- A channel that does not run any more removes at once what it was to remove (R456). -/
def State.dmaInvIdle (s : State) (c : Nat) : State := (s.dmaInvNow c).dmaInvCheck

/-- A channel stops on a fault at an element boundary; what it has read ahead is dropped (R423, R424). -/
def State.dmaStopOn (s : State) (c : Nat) (f : DmaFail) (wrSide desc : Bool) : State :=
  let a := Reg.XLT_DMA_STATUS c
  let s := s.setCh c { s.ch c with ahead := [] }
  let s := s.setFld a 0 2 (if f.kind ≤ 4 then dmaFAULT else dmaERR)
  let s := ((s.setBit a 7 wrSide).setFld a 8 4 f.kind).setBit a 12 desc
  ((s.wr (Reg.XLT_DMA_FAULTVA c) (BitVec.ofNat 32 f.va)).dmaSource c).dmaInvIdle c


/-- Element size by ESIZE; none for the refused code (Table 8-5). -/
def esizeBytes (e : Nat) : Option Nat :=
  match e with | 0 => some 2 | 1 => some 4 | 2 => some 32 | _ => none

/-- A descriptor ends: IRQ, and LAST with DONE (R421). -/
def State.dmaDescEnd (s : State) (c : Nat) : State :=
  let x := s.ch c
  let s := if x.irq then s.dmaSource c else s
  let s := s.setCh c { x with have_ := false }
  if x.last then
    (((s.setFld (Reg.XLT_DMA_STATUS c) 0 2 dmaIDLE).setBit (Reg.XLT_DMA_STATUS c) 4 true).dmaSource c).dmaInvIdle c
  else s

/-- A descriptor is taken: a COUNT of 0 ends it at once (R420). -/
def State.dmaTake (s : State) (c : Nat) (x : Dma) (src dst count : Nat) : State :=
  let s := s.setCh c { x with have_ := true }
  let s := (s.wr (Reg.XLT_DMA_CURSRC c) (BitVec.ofNat 32 src)).wr (Reg.XLT_DMA_CURDST c) (BitVec.ofNat 32 dst)
  let s := s.wr (Reg.XLT_DMA_RESID c) (BitVec.ofNat 32 count)
  if count = 0 then s.dmaDescEnd c else s

/-- Takes the register form of a descriptor (R418, R419); ESIZE 0b11 is refused with kind BADCFG, with no element written
(R424). -/
def State.dmaTakeRegs (s : State) (c : Nat) : State :=
  let cfg := s.rd (Reg.XLT_DMA_CFG c)
  match esizeBytes (W.fld cfg 11 2) with
  | none =>
    let s := (s.wr (Reg.XLT_DMA_CURSRC c) (s.rd (Reg.XLT_DMA_SRC c))).wr (Reg.XLT_DMA_CURDST c) (s.rd (Reg.XLT_DMA_DST c))
    (s.wr (Reg.XLT_DMA_RESID c) (BitVec.ofNat 32 (s.fld (Reg.XLT_DMA_COUNT c) 0 16))).dmaStopOn c
      ⟨9, (s.rd (Reg.XLT_DMA_SRC c)).toNat⟩ false false
  | some e =>
    let x := { s.ch c with esize := e, sinc := W.bit cfg 13, dinc := W.bit cfg 14, irq := W.bit cfg 15, last := !W.bit cfg 2,
                           fromMem := false }
    s.dmaTake c x (s.rd (Reg.XLT_DMA_SRC c)).toNat (s.rd (Reg.XLT_DMA_DST c)).toNat (s.fld (Reg.XLT_DMA_COUNT c) 0 16)

/-- The DMA engine's clock runs (Table 2-14). -/
def State.dmaRuns (s : State) : Bool := s.runs gDMA

/-- A START command (R418, R454); on a gated engine it is refused with WLREJ (R80). -/
def State.dmaStart (s : State) (c : Nat) : State :=
  if s.gatedBit gDMA then s.wlrej Reg.XLT_CTRL
  else if s.dmaState c = dmaRUN then s.setBit Reg.XLT_STATUS 2 true
  else
    let a := Reg.XLT_DMA_STATUS c
    let s := (((s.setFld a 0 2 dmaRUN).setFld a 6 2 0).setFld a 8 4 0).setBit a 12 false
    let s := s.setCh c { s.ch c with have_ := false, heldData := [], ahead := [], fromMem := s.bit (Reg.XLT_DMA_CFG c) 2 }
    if s.bit (Reg.XLT_DMA_CFG c) 2 then s else s.dmaTakeRegs c

/-- A STOP command (R425, R454, R455). -/
def State.dmaStop (s : State) (c : Nat) : State :=
  if s.dmaState c = dmaIDLE then s.setBit Reg.XLT_STATUS 2 true
  else
    let a := Reg.XLT_DMA_STATUS c
    let s := ((s.setFld a 0 2 dmaIDLE).setBit a 5 true).setBit a 6 false
    (s.setCh c { s.ch c with heldData := [], ahead := [], have_ := false }).dmaInvIdle c

/-- A RESUME command (R426, R454): the registers act as they stand. -/
def State.dmaResume (s : State) (c : Nat) : State :=
  if s.dmaState c = dmaRUN ∨ s.dmaState c = dmaIDLE then s.setBit Reg.XLT_STATUS 2 true
  else
    let a := Reg.XLT_DMA_STATUS c
    let s := (((s.setFld a 0 2 dmaRUN).setBit a 7 false).setFld a 8 4 0).setBit a 12 false
    let x := s.ch c
    if x.fromMem then
      if x.have_ then
        s.dmaTake c x (s.rd (Reg.XLT_DMA_SRC c)).toNat (s.rd (Reg.XLT_DMA_DST c)).toNat (s.fld (Reg.XLT_DMA_COUNT c) 0 16)
      else s
    else if s.bit (Reg.XLT_DMA_CFG c) 2 && !x.have_ then s
    else s.dmaTakeRegs c

/-- R418: START. -/
def execDmaStart (c : Fin 16) (s : State) : Host.Outcome State Fault Refusal :=
  done (if s.live then s.dmaStart c.val else s)
/-- R455: STOP. -/
def execDmaStop (c : Fin 16) (s : State) : Host.Outcome State Fault Refusal :=
  done (if s.live then s.dmaStop c.val else s)
/-- R426: RESUME. -/
def execDmaResume (c : Fin 16) (s : State) : Host.Outcome State Fault Refusal :=
  done (if s.live then s.dmaResume c.val else s)

/-- A write of DMAc_CMD (Table 8-13). -/
def State.dmaCmd (s : State) (c : Nat) (val : Word) : State :=
  if W.bit val 0 then s.dmaStart c
  else if W.bit val 1 then s.dmaStop c
  else if W.bit val 2 then s.dmaResume c
  else s


/-- A write of XLT.DMAINV (R456): a channel that runs removes its entries at its next element boundary. -/
def State.dmainv (s : State) (val : Word) : State :=
  let k := if W.bit val 8 then 64 else W.fld val 0 6
  let s := s.setBit Reg.XLT_STATUS 0 true
  let s := forN 16 (fun c s =>
    if s.dmaState c = dmaRUN then s.setCh c { s.ch c with inv := (s.ch c).inv ++ [k] }
    else s.setCh c ((s.ch c).invalidate k)) s
  s.dmaInvCheck

/-- R456: a write of XLT.DMAINV. -/
def execDmainv (val : Word) (s : State) : Host.Outcome State Fault Refusal := done (if s.live then s.dmainv val else s)


end Sys2Proof.Machine
end

