-- ==== Sys2Proof/Machine/RegWrite.lean ====
section
/-!
DEFINITION. The register interface (R6 to R14, R20, R29, R80, R81, R115, R158 to R163): who may reach a register, how a write is
applied or refused, the registers whose writes and reads have an effect of their own, and the words of KLE state memory.
-/
namespace Sys2Proof.Machine

/-! ### Who reaches a register -/

/-- The index of an array element by its offset: base, stride and count of the array. -/
def pick (o base stride count : Nat) : Option Nat :=
  if base ≤ o ∧ (o - base) % stride = 0 ∧ (o - base) / stride < count then some ((o - base) / stride) else none

/-- The index of the element that holds an offset within `span` bytes of its start. -/
def within (o base stride count span : Nat) : Option Nat :=
  if base ≤ o ∧ (o - base) / stride < count ∧ (o - base) % stride < span then some ((o - base) / stride) else none

/-! ### Owners of WL registers -/

/-- The owner of the WL register at an offset of a block is busy (R84, R224, R400, R448, R490, R541 to R543, R607, R731 to R733,
R779, R847, R908, R951, Table 2-17). -/
def State.wlBusy (s : State) (blk o : Nat) : Bool :=
  let at_ (k : Option Nat) (p : Nat → Bool) : Bool := match k with | some n => p n | none => false
  match blk with
  | 0x1 => s.sup.seqOwns
  | 0x2 => at_ (within o 0x1000 0x80 8 0x80) fun n => decide (2 ≤ s.pst n) && decide (s.pst n ≤ 7)
  | 0x3 => at_ (within o 0x40 0x10 8 0x10) fun n => s.bit (Reg.TMB_TMR_CTRL n) 0
  | 0x5 => at_ (within o 0x1000 0x40 16 0x40) fun c => s.dmaState c == dmaRUN
  | 0x6 => at_ (within o 0x1000 0x10 64 0x10) fun q => s.qEn q || s.qRelBusy q
  | 0x8 => at_ (within o 0x1000 0x400 4 0x400) fun n => (List.range 4).any fun j => s.bit (Reg.ADC_SEQ n j) 31
  | 0x9 => at_ (within o 0x100 0x20 8 0x20) fun n => s.bit (Reg.SDF_SDCFG n) 0
  | 0xA => at_ (within o 0x100 0x10 16 0x10) fun k => s.bit (Reg.CMP_CMP_CFG k) 0
  | 0xB => at_ (within o 0x1000 0x100 12 0x100) s.pwmRun || at_ (within o 0x2000 0x20 24 0x20) fun i => s.bit (Reg.PWM_DIAGCFG i) 0
  | 0xC => at_ (within o 0x1000 0x40 16 0x40) (fun n => s.bit (Reg.CAPQD_CFG n) 0)
      || at_ (within o 0x2000 0x80 4 0x80) fun d => s.bit (Reg.CAPQD_QCFG d) 0
  | 0xD => at_ (within o 0x100 0x40 4 0x40) s.listActive
  | 0xE => at_ (within o 0x1000 0x100 8 0x100) s.portBusy
  | 0xF => at_ (within o 0x1000 0x200 4 0x200) fun d => s.portBusy (0x10 + d)
  | 0x10 => at_ (within o 0x1000 0x400 8 0x400) s.seBusy
  | 0x11 => (decide (0x80 ≤ o) && decide (o < 0x90) && s.bit Reg.HIF_CMD_CFG 31)
      || (decide (0x90 ≤ o) && decide (o < 0xA0) && s.bit Reg.HIF_CPL_CFG 31)
      || (decide (0xA0 ≤ o) && decide (o < 0xB0) && s.bit Reg.HIF_EV_CFG 31)
      || at_ (within o 0x100 0x20 8 0x20) fun k => s.bit (Reg.HIF_REC_CFG k) 31
  | 0x12 => at_ (within o 0x100 0x100 4 0x20) fun n => !(s.core n).halted
  | _ => false

/-- CLKGATE bit of a block whose registers can make it busy (Table 2-14). -/
def blockGate (blk : Nat) : Option Nat :=
  match blk with
  | 0x7 => some gKLE | 0x8 => some gADC | 0x9 => some gSDF | 0xA => some gCMP | 0xB => some gPWM | 0xC => some gCAPQD
  | 0xE => some gTW | 0xF => some gDS | _ => none

/-! ### A plain write -/

/-- The value that a plain write leaves; the W1C bits in `coin`, which hardware set in the same cycle, remain set (R6, R9, R11,
R13). -/
def RegRow.apply (r : RegRow) (coin old v : Word) : Word :=
  let m := BitVec.ofNat 32 (r.rw ||| r.wl)
  ((old &&& ~~~ m) ||| (v &&& m)) &&& ~~~ (v &&& BitVec.ofNat 32 r.w1c &&& ~~~ coin)

/-- A plain write is refused: its owner is busy, and it would change a WL bit or the register has no other bit (R6 to R8). -/
def RegRow.refuses (r : RegRow) (busy : Bool) (old v : Word) : Bool :=
  let wl := BitVec.ofNat 32 r.wl
  busy && r.wl != 0 && (r.rw == 0 || (old &&& wl) != (v &&& wl))

/-- A write of a tally or of another value that only zero clears (R20). -/
def clearWrite (k : RegKind) (old v : Word) : Word :=
  match k with
  | .tally => if W.fld v 0 16 = 0 then 0 else old
  | .halves =>
    let lo := if W.fld v 0 16 = 0 then old &&& 0xFFFF0000 else old
    if W.fld v 16 16 = 0 then lo &&& 0x0000FFFF else lo
  | _ => if v = 0 then 0 else old

/-! ### Effects that follow a plain write -/

/-- MIR_EN stands with a source or a destination outside its memory: it clears and CFGERR is set (R447, R450). -/
def State.mirCheck (s : State) : State :=
  let n := 4096 * mirSize (s.fld Reg.XLT_MIRCFG 0 5)
  let src := (s.rd Reg.XLT_MIRSRC).toNat
  let dst := (s.rd Reg.XLT_MIRDST).toNat
  if s.bit Reg.XLT_CTRL 1 && !(decide (mramLo ≤ src) && decide (src + n ≤ mramHi) && decide (dst + n ≤ 0x200000)) then
    (s.setBit Reg.XLT_CTRL 1 false).setBit Reg.XLT_STATUS 3 true
  else s

/-- EN of SDn with R3 or R1 outside its range stays 0 and sets WLREJ (Table 10-8). -/
def State.sdCheck (s : State) (n : Nat) : State :=
  let f := s.rd (Reg.SDF_SDFILT n)
  if s.bit (Reg.SDF_SDCFG n) 0 && (decide (W.fld f 0 9 < 16) || decide (256 < W.fld f 0 9) || decide (W.fld f 16 5 < 3)) then
    (s.setBit (Reg.SDF_SDCFG n) 0 false).wlrej (Reg.SDF_SDCFG n)
  else s

/-- TMODE of DS0 and DS1 cannot be set; the write sets CFGERR (R840). -/
def State.dsCheck (s : State) (d : Nat) : State :=
  if decide (d < 2) && s.bit (Reg.DS_CFG d) 1 then (s.setBit (Reg.DS_CFG d) 1 false).setBit Reg.DS_STATUS 0 true else s

/-- What follows a plain write to an offset of a block; `old` is the value before it. -/
def State.afterWrite (s : State) (blk o : Nat) (old : Word) : State :=
  let on (k : Option Nat) (f : Nat → State) (rest : State) : State := match k with | some n => f n | none => rest
  match blk with
  | 0x1 => if o = 4 ∨ o = 0x10 then s.faultn else s
  | 0x3 => on (pick o 0x40 0x10 8) (fun n =>
      if s.bit (Reg.TMB_TMR_CTRL n) 0 && !W.bit old 0 then
        s.wr (Reg.TMB_TMR_COUNT n) (if s.rd (Reg.TMB_TMR_LOAD n) = 0 then 1 else s.rd (Reg.TMB_TMR_LOAD n))
      else s) s
  | 0x5 => if o = 0 ∨ (0x24 ≤ o ∧ o ≤ 0x2C) then s.mirCheck else s
  | 0x8 => on (within o 0x1000 0x400 4 0x10) (fun n =>
      let j := o % 0x400 / 4
      if W.bit old 31 && !s.bit (Reg.ADC_SEQ n j) 31 then s.seqOff n j else s) s
  | 0x9 => on (pick o 0x100 0x20 8) (fun n =>
      let s := s.sdCheck n
      if s.bit (Reg.SDF_SDCFG n) 0 && !W.bit old 0 then s.setSd n { s.sdu n with base := 0 } else s) s
  | 0xA => on (pick o 0x100 0x10 16) (fun k =>
      let s := if W.fld old 2 4 = s.fld (Reg.CMP_CMP_CFG k) 2 4 then s else s.cmpBlank k
      if W.bit old 0 && !s.bit (Reg.CMP_CMP_CFG k) 0 then s.cmpOff k else s) s
  | 0xB => on (pick o 0x1000 0x100 12) (fun m =>
      if s.pwmRun m && !W.bit old 16 then s.pwmResume m else s)
      (on (pick o 0x1004 0x100 12) (fun m => s.pwmShadow m 0)
      (on (pick o 0x1008 0x100 12) (fun m => s.pwmShadow m 1)
      (on (pick o 0x100C 0x100 12) (fun m => s.pwmShadow m 2)
      (on (pick o 0x1020 0x100 12) s.pwmPreReset
      (on (pick o 0x2000 0x20 24) (fun d => if s.bit (Reg.PWM_DIAGCFG d) 0 && !W.bit old 0 then s.diagEnable d else s) s)))))
  | 0xC => on (pick o 0x1000 0x40 16) (fun n => if s.bit (Reg.CAPQD_CFG n) 0 && !W.bit old 0 then s.capEnable n else s)
      (on (pick o 0x2000 0x80 4) (fun d => if s.bit (Reg.CAPQD_QCFG d) 0 && !W.bit old 0 then s.qdEnable d else s) s)
  | 0xF => on (pick o 0x1000 0x200 4) s.dsCheck s
  | _ => s

/-- A write that the masks of its row decide, with what follows it; one that would make a gated block busy is refused (R80). -/
def State.plainWrite (s : State) (coin : Word) (r : RegRow) (a : Nat) (v : Word) : State :=
  let blk := regBlock a
  let o := a % 0x10000
  let old := s.rd a
  match r.kind with
  | .plain =>
    if r.refuses (s.wlBusy blk o) old v then s.wlrej a
    else
      let t := (s.wr a (r.apply coin old v)).afterWrite blk o old
      match blockGate blk with
      | some g => if s.gatedBit g && t.gateBusy g && !s.gateBusy g then s.wlrej a else t
      | none => t
  | k => s.wr a (clearWrite k old v)

/-! ### Registers whose writes have an effect of their own -/

/-- Level changes at the balls of module m open blanking windows, after a register write. -/
def State.withEdges (t s : State) (m : Nat) : State := t.pwmEdges m s

/-- The debug registers of core n at offset `o` of its window: PC, SRDATA and STKDATA stand for the core's own state. -/
def State.dbgWrite (s : State) (n o : Nat) (v : Word) : State :=
  if !(s.core n).halted then s.wlrej Reg.DBG_CTRL
  else
    let c := s.core n
    match o with
    | 0x0 => s.setCore n { c with pc := v.setWidth 16, cbr := (v >>> 16).setWidth 8, slot := W.bit v 24 }
    | 0x4 => s.wr (Reg.DBG_CORE_SRSEL n) (v &&& 0x1F)
    | 0x8 => s.setCore n (c.srWrite (s.fld (Reg.DBG_CORE_SRSEL n) 0 5) (v.setWidth 16))
    | 0xC => s.wr (Reg.DBG_CORE_STKSEL n) (v &&& 0x1F)
    | 0x10 =>
      let e := s.fld (Reg.DBG_CORE_STKSEL n) 1 4
      if s.bit (Reg.DBG_CORE_STKSEL n) 0 then s.setCore n { c with rstk := c.rstk.set e (v.setWidth 24) }
      else s.setCore n { c with dstk := c.dstk.set e (v.setWidth 16) }
    | _ => s

/-- What a read of the debug registers of core n shows (R400). -/
def State.dbgRead (s : State) (n o : Nat) : Word :=
  let c := s.core n
  if !c.halted then 0
  else match o with
    | 0x0 => BitVec.ofNat 32 (c.pc.toNat + 65536 * c.cbr.toNat + if c.slot then 2 ^ 24 else 0)
    | 0x4 => s.rd (Reg.DBG_CORE_SRSEL n)
    | 0x8 => ((s.srRead n (s.fld (Reg.DBG_CORE_SRSEL n) 0 5)).getD 0).setWidth 32
    | 0xC => s.rd (Reg.DBG_CORE_STKSEL n)
    | 0x10 =>
      let e := s.fld (Reg.DBG_CORE_STKSEL n) 1 4
      if s.bit (Reg.DBG_CORE_STKSEL n) 0 then (c.rstk.getD e 0).setWidth 32 else (c.dstk.getD e 0).setWidth 32
    | _ => 0

/-- A write of HALTREQ: each core's bit and the engine's (R380, R384, R388). -/
def State.haltreq (s : State) (v : Word) : State :=
  let s := forN 4 (fun n s => if W.bit v n then s.haltRequest n else s.haltRelease n) s
  if W.bit v 4 then s.kleHalt else s.kleRelease

/-- A word of a slot's context (Table 11-1): an input latch, the parameter window, or a state word (WL). -/
def State.ctxWrite (s : State) (host : Bool) (n r : Nat) (v : Word) : State :=
  let w := r % 0x100 / 4
  match r / 0x100 with
  | 0 => s.setLatch n w (some v)
  | 1 => s.paramWr host n w v
  | 2 => s
  | k => if s.slotOn n then s.wlrej Reg.KLE_CTRL else (s.wr (ctxAddr n (0x100 * k) w) v).setEcc (ctxAddr n (0x100 * k) w) 0

/-! The effect of a write to a register whose rule gives it one of its own, block by block; none for every other register. -/

/-- A write to offset `o` of SYS (chapters 2 and 3). -/
def State.hookSys (s : State) (src : Requester) (o : Nat) (v : Word) : Option State :=
  match o with
  | 0x0C => some (s.pwrcmd (W.fld v 0 3))
  | 0x10 => some (s.clkgate v)
  | 0x100 => some (s.rstcmd src v)
  | 0x108 => some (s.corerst v)
  | 0x124 => some (s.bootforce v)
  | 0x12C => some (s.bootgo v)
  | _ => none

/-- A write to offset `o` of the supervisor. -/
def State.hookSup (s : State) (o : Nat) (v : Word) : Option State :=
  if o = 8 then some (match W.fld v 0 2 with | 1 => s.seqUp | 2 => s.seqDown | _ => s) else none

/-- A write to offset `o` of port power. -/
def State.hookPpw (s : State) (o : Nat) (v : Word) : Option State :=
  (pick o 0x1000 0x80 8).map (fun n =>
      if W.bit v 0 then s.ppOn n (s.bit (Reg.PPW_STAT n) 16) else if s.bit (Reg.PPW_CTRLn n) 0 then s.ppOff n else s)
    <|> (pick o 0x1008 0x80 8).map (fun n => if s.wlBusy 0x2 o then s.wlrej (Reg.PPW_BIND n) else s.ppBind n v)

/-- A write to offset `o` of the interrupt controllers. -/
def State.hookIcu (s : State) (o : Nat) (v : Word) : Option State :=
  if o = 0 then some (s.swi v)
    else (pick o 0x1008 0x400 4).map (fun n => s.wr (Reg.ICU_PENDLO n) (s.rd (Reg.ICU_PENDLO n) ||| v))
      <|> (pick o 0x100C 0x400 4).map (fun n => s.wr (Reg.ICU_PENDHI n) (s.rd (Reg.ICU_PENDHI n) ||| v))
      <|> (pick o 0x1010 0x400 4).map (fun n => s.wr (Reg.ICU_PENDLO n) (s.rd (Reg.ICU_PENDLO n) &&& ~~~ v))
      <|> (pick o 0x1014 0x400 4).map (fun n => s.wr (Reg.ICU_PENDHI n) (s.rd (Reg.ICU_PENDHI n) &&& ~~~ v))

/-- A write to offset `o` of address translation and DMA. -/
def State.hookXlt (s : State) (o : Nat) (v : Word) : Option State :=
  if o = 0 then some ((s.wr Reg.XLT_CTRL (v &&& 3)).mirCheck)
    else if o = 0xC then some (s.dmainv v)
    else (pick o 0x1000 0x40 16).map fun c => s.dmaCmd c v

/-- A write to offset `o` of the cell pool. -/
def State.hookPool (s : State) (o : Nat) (v : Word) : Option State :=
  if o = 0x40 then some (s.hqpush v) else (pick o 0x1000 0x10 64).map fun q => s.qcfgWrite q v

/-- A write to offset `o` of the law engine. -/
def State.hookKle (s : State) (src : Requester) (o : Nat) (v : Word) : Option State :=
  match o with
  | 0x0C => some (s.enset v)
  | 0x10 => some (s.enclr v)
  | 0x14 => some (s.kleDoorbell v)
  | 0x18 => some (s.slotrst v)
  | 0x30 => some (s.platechk v)
  | _ => (pick o 0x200C 0x20 32).map (fun n => s.injctl n v) <|> (pick o 0x2400 0x20 32).map (fun n => s.lctl n v)
      <|> (within o 0x4000 0x600 32 0x600).map fun n => s.ctxWrite (decide (src = .host)) n ((o - 0x4000) % 0x600) v

/-- A write to offset `o` of the ADCs. -/
def State.hookAdc (s : State) (o : Nat) (v : Word) : Option State :=
  if o = 8 then some (s.adcSwtrig v) else if o = 0x10 then some (s.adcProof v) else none

/-- A write to offset `o` of the sigma-delta inputs. -/
def State.hookSdf (s : State) (o : Nat) (v : Word) : Option State :=
  if o = 0 then some (s.swsync v) else none

/-- A write to offset `o` of the comparators. -/
def State.hookCmp (s : State) (o : Nat) (v : Word) : Option State :=
  if o = 0xC then
      let (w, t) := s.drawWord
      some (if s.live then t.cmpProof v (w.setWidth 16) else s)
    else (pick o 0x104 0x10 16).map fun k => s.cmpThr k v

/-- A write to offset `o` of PWM. -/
def State.hookPwm (s : State) (o : Nat) (v : Word) : Option State :=
  match o with
  | 0x08 => some (s.gstart v)
  | 0x0C => some (s.gsync v)
  | 0x10 => some (s.trippedClear v)
  | _ => (pick o 0x1024 0x100 12).map (fun m => (s.outWrite m v).withEdges s m)
      <|> (pick o 0x1030 0x100 12).map (fun m => s.swtrip m v)

/-- A write to offset `o` of the capture channels. -/
def State.hookCap (s : State) (o : Nat) (v : Word) : Option State :=
  (pick o 0x1004 0x40 16).map fun n => s.capArm n v

/-- A write to offset `o` of the Morium engine. -/
def State.hookMbm (s : State) (o : Nat) (v : Word) : Option State :=
  if o = 0 then some (s.mbmCtrlWrite v) else if o = 8 then some (s.mbmTrig v) else none

/-- A write to offset `o` of the two-wire ports. -/
def State.hookTw (s : State) (o : Nat) (v : Word) : Option State :=
  if o = 0 then some (s.twCtrlWrite v)
    else (pick o 0x1004 0x100 8).map (fun p => s.twRateWrite p v) <|> (pick o 0x1040 0x100 8).map (fun p => s.twSwctl p v)

/-- A write to offset `o` of the DDR serial ports. -/
def State.hookDs (s : State) (o : Nat) (v : Word) : Option State :=
  (pick o 0x1038 0x200 4).map (fun d => s.dsTx d v) <|> (pick o 0x1040 0x200 4).map (fun d => s.dsSwctl d v)
    <|> (within o 0x1010 0x200 4 0x10).map fun d => s.dsProf d ((o - 0x1010) % 0x200 / 4) v

/-- A write to offset `o` of the stencil engines. -/
def State.hookSe (s : State) (o : Nat) (v : Word) : Option State :=
  match o with
  | 0x08 => some (s.seGstart v)
  | 0x0C => some (s.phrst v)
  | _ => (pick o 0x1000 0x400 8).map (fun n =>
        if W.bit v 0 then s.seRun n else if s.bit (Reg.SE_CTRL n) 0 then s.seStopRun n else s)
      <|> (pick o 0x1024 0x400 8).map (fun n => s.seLoad n v)
      <|> (within o 0x1080 0x400 8 0x80).map fun n => s.seParam n ((o - 0x1080) % 0x400 / 4) v

/-- A write of a ring's CFG; a record ring that is stopped may end the lists that waited for its records (R228, R229, R763). -/
def State.ringCfgWrite (s : State) (r : Nat) (v : Word) : State :=
  let t := s.ringCfg r v
  if s.bit (ringCfgA r) 31 && !t.bit (ringCfgA r) 31 then t.stopChecks else t

/-- R1016: a ring CFG write. -/
def execRingCfgWrite (ring : Fin 11) (val : Word) (s : State) : Host.Outcome State Fault Refusal :=
  done (if s.hostReg (ringCfgA ring.val) then s.ringCfgWrite ring.val val else s)

/-- A write to offset `o` of the host interface. -/
def State.hookHif (s : State) (src : Requester) (o : Nat) (v : Word) : Option State :=
  match o with
  | 0x0C => some (if src = .host then s.wr Reg.HIF_REGWIN (v &&& 0x3F) else s)
  | 0x14 => some s.heartbeat
  | 0x34 => some (s.fwirq v)
  | 0x88 => some (s.ringCfgWrite 0 v)
  | 0x98 => some (s.ringCfgWrite 1 v)
  | 0xA8 => some (s.ringCfgWrite 2 v)
  | _ => (pick o 0x108 0x20 8).map (fun k => s.ringCfgWrite (3 + k) v) <|> (pick o 0x11C 0x20 8).map (fun k => s.post k v)
      <|> (pick o 0x1000 8 11).map (fun n => s.doorbell n v)
      <|> (pick o 0x200C 0x10 16).map (fun i => (s.wr (Reg.HIF_MSIX_CTRL i) (v &&& 1)).sendPending)

/-- A write to offset `o` of debug. -/
def State.hookDbg (s : State) (o : Nat) (v : Word) : Option State :=
  if o = 8 then some (s.haltreq v) else if o = 0xC then some (s.debugStep v)
    else (within o 0x100 0x100 4 0x14).map fun n => s.dbgWrite n (o % 0x100) v

/-- The effect of a write to a register whose rule gives it one of its own; none for every other register. -/
def State.hookWrite (s : State) (src : Requester) (blk o : Nat) (v : Word) : Option State :=
  match blk with
  | 0x0 => s.hookSys src o v
  | 0x1 => s.hookSup o v
  | 0x2 => s.hookPpw o v
  | 0x4 => s.hookIcu o v
  | 0x5 => s.hookXlt o v
  | 0x6 => s.hookPool o v
  | 0x7 => s.hookKle src o v
  | 0x8 => s.hookAdc o v
  | 0x9 => s.hookSdf o v
  | 0xA => s.hookCmp o v
  | 0xB => s.hookPwm o v
  | 0xC => s.hookCap o v
  | 0xD => s.hookMbm o v
  | 0xE => s.hookTw o v
  | 0xF => s.hookDs o v
  | 0x10 => s.hookSe o v
  | 0x11 => s.hookHif src o v
  | 0x12 => s.hookDbg o v
  | _ => none

/-- APPLIES A REGISTER WRITE at a physical address (R29, R12); `coin`: the W1C bits that hardware set in the same cycle (R13). -/
def State.regWriteC (s : State) (coin : Word) (src : Requester) (a : Nat) (v : Word) : State :=
  if !s.regServed src a then s
  else
    match s.hookWrite src (regBlock a) (a % 0x10000) (if a = Reg.PWM_TRIPPED then v &&& ~~~ coin else v) with
    | some t => t
    | none =>
      match regRow a with
      | some r =>
        let t := s.plainWrite coin r a v
        if regBlock a = 0xB then (match within (a % 0x10000) 0x1000 0x100 12 0x100 with | some m => t.withEdges s m | none => t) else t
      | none => s

/-- Applies a register write with which no hardware event coincides. -/
def State.regWrite (s : State) (src : Requester) (a : Nat) (v : Word) : State := s.regWriteC 0 src a v

/-! ### Reads -/

/-- A read of a context word: a correctable error is counted and the word written back (R618). A register read has no failing answer:
of an uncorrectable word it shows the bits as they stand (DESIGN CHOICE, log entry 161). -/
def State.ctxRead (s : State) (a : Nat) : Word × State :=
  (s.rd a, if s.eccAt a = 1 then (s.setEcc a 0).eccCorrected 2 Reg.KLE_ECCTALLY else s)

/-- The latch of TBHI that belongs to a requester (R45). -/
def tbLatchOf (src : Requester) : Nat :=
  match src with | .host => 0 | .core n => 1 + n.val | .debug => 5 | .dma c => 6 + c.val

/-- A read of TBLO: the low half, and the high half into the requester's latch (R44). -/
def State.tblo (s : State) (src : Requester) : Word × State :=
  (W.lo32 s.clk.tb, { s with clk := { s.clk with tbLatch := tset 0 s.clk.tbLatch (tbLatchOf src) (W.hi32 s.clk.tb) } })

/-- A pop of queue q by a load of HPOPq, which waits for its grant: the pushes and the reads before it are granted first (R478,
R489). Where an incomplete item or such a read holds it up for good, it is withdrawn with the empty reply (DESIGN CHOICE, log entry
158). -/
def State.hpopRead (s : State) (q : Nat) : Word × State :=
  let t := repeatN 8 (fun s => s.poolPush 6) s
  let t := repeatN ((t.pport 6).more.length + 1) (fun s => s.poolPop 6) t
  match (t.pport 6).req with
  | some _ => (t.emptyReply q, { t with reply := s.reply })
  | none =>
    let t := ({ t with reply := .none }.popRequest 6 q).poolPop 6
    match t.reply with
    | .word w => (w, { t with reply := s.reply })
    | _ => (t.emptyReply q, { (t.setPport 6 { t.pport 6 with req := none }) with reply := s.reply })

/-- The answer to a read of a register whose read has an effect of its own or shows a computed value; none for the others. -/
def State.hookRead (s : State) (src : Requester) (blk o : Nat) : Option (Word × State) :=
  match blk with
  | 0x2 => (pick o 0x1038 0x80 8).map fun n => s.ipeak n false
  | 0x3 => if o = 0 then some (s.tblo src) else if o = 8 then some (tget 0 s.clk.tbLatch (tbLatchOf src), s) else none
  | 0x6 => if regSpaceBase + 0x60000 + o = Reg.POOL_HSTAT then some s.hstatRead else (pick o 0x400 4 64).map s.hpopRead
  | 0x7 => (within o 0x4000 0x600 32 0x600).map fun _ => s.ctxRead (regSpaceBase + 0x70000 + o)
  | 0x8 => (pick o 0x1018 0x400 4).map fun n => s.adcFifoGet n false
  | 0xC => (within o 0x1020 0x40 16 0x20).map (fun n =>
        let w := (o - 0x1020) % 0x40 / 4
        if w = 7 then s.capRead n false else (s.capWord n w, s))
      <|> (pick o 0x2020 0x80 4).map (fun d => (s.qdAngle d, s))
  | 0xE => (pick o 0x1014 0x100 8).map fun p => (W.setFld (s.rd (Reg.TW_PSTAT p)) 0 3 (s.portState p), s)
  | 0xF => (pick o 0x1008 0x200 4).map (fun d => (W.setFld (s.rd (Reg.DS_DSTAT d)) 0 3 (s.portState (0x10 + d)), s))
      <|> (pick o 0x1030 0x200 4).map (fun d => s.dsRxdata d false) <|> (pick o 0x1034 0x200 4).map fun d => s.dsRxlen d false
  | 0x10 => (pick o 0x1054 0x400 8).map fun n => (s.seTmr n, s)
  | 0x11 => if o = 0xC then some (if src = .host then s.rd Reg.HIF_REGWIN else 0, s)
      else (pick o 0x10C 0x20 8).map fun k => s.recIdx k false
  | 0x12 => (within o 0x100 0x100 4 0x14).map fun n => (s.dbgRead n (o % 0x100), s)
  | _ => none

/-- A READ OF A REGISTER at a physical address: its value and what the read changes (R6, R12). -/
def State.regRead (s : State) (src : Requester) (a : Nat) : Word × State :=
  if !s.regServed src a then (0, s)
  else
    match s.hookRead src (regBlock a) (a % 0x10000) with
    | some r => r
    | none => (s.rd a, s)

/-! ### The host's view -/

/-- Physical address that a BAR0 offset reaches (Table 4-3, R158, R160). -/
def State.bar0 (s : State) (o : Nat) : Option Nat :=
  if o < 0x8000 then some (0x10110000 + o)
  else
    let b := s.fld Reg.HIF_REGWIN 0 5
    if 0x12 < b then none else some (regSpaceBase + 0x10000 * b + (if s.bit Reg.HIF_REGWIN 5 then 0x8000 else 0) + (o - 0x8000))

/-- A host access reaches REGWIN, the MSI-X table and the doorbells in every state (R162). -/
def hostAlways (o : Nat) : Bool := o == 0xC || (decide (0x1000 ≤ o) && decide (o < 0x2108))

/-- A host read of BAR0 at byte `o`, whatever its byte enables: the whole word (R158 to R163, R1012). A window without a block
reads as zero. The rows of single registers stand for reads whose window is set. -/
def State.hostRead (s : State) (o : Nat) : State :=
  if !s.linkServes then { s with reply := .none }
  else if !s.memServed then s.ur
  else
    let o := o % 0x10000 / 4 * 4
    let (w, t) : Word × State := match s.bar0 o with
      | none => (0, s)
      | some a =>
        if hostAlways o then (match s.hookRead .host 0x11 (a % 0x10000) with | some r => r | none => (s.rd a, s))
        else s.regRead .host a
    { t with reply := .word w }

/-- A host write of a register through BAR0 (R158 to R163, R239, R1012). A poisoned or malformed request is judged first, by R239 and
not as an Unsupported Request (DESIGN CHOICE, log entry 151). -/
def State.hostWrite (s : State) (coin : Word) (o : Nat) (v : Word) (be : BitVec 4) (tlp : Tlp) : State :=
  if !s.linkServes then s
  else if tlp ≠ .good then s.tlpError tlp
  else if !s.memServed then s.urWrite
  else if be ≠ 0xF then s.setBit Reg.HIF_STATUS 4 true
  else
    match s.bar0 (o % 0x10000 / 4 * 4) with
    | none => s
    | some a =>
      if hostAlways (o % 0x10000) then
        match s.hookWrite .host 0x11 (a % 0x10000) v with
        | some t => t
        | none => match regRow a with | some r => s.plainWrite coin r a v | none => s
      else s.regWriteC coin .host a v

/-- R29, R13, R158, R239: a register write: the host's through BAR0, the others' at a physical address. -/
def execRegisterWrite (src : Requester) (addr val : Word) (be : BitVec 4) (tlp : Tlp) (coin : Word) (s : State) :
    Host.Outcome State Fault Refusal :=
  done (match src with
    | .host => s.hostWrite coin addr.toNat val be tlp
    | _ => if be = 0xF then s.regWriteC coin src (addr.toNat / 4 * 4) val else s)

/-- R44: a read of TMB.TBLO. -/
def execTbloRead (src : Requester) (tlp : Tlp) (s : State) : Host.Outcome State Fault Refusal :=
  done (s.readBy src tlp Reg.TMB_TBLO (fun s => let (w, t) := s.tblo src; (.word w, t)))

/-- R14: a read of IPEAKn. -/
def execIpeakRead (src : Requester) (n : Fin 8) (same : Bool) (tlp : Tlp) (s : State) : Host.Outcome State Fault Refusal :=
  done (s.readBy src tlp (Reg.PPW_IPEAK n.val) (fun s => let (w, t) := s.ipeak n.val same; (.word w, t)))

/-- R384: a write of 0 to a HALTREQ bit. -/
def execHaltRelease (i : Fin 5) (s : State) : Host.Outcome State Fault Refusal :=
  done (if s.live then (if i.val = 4 then s.kleRelease else s.haltRelease i.val) else s)

/-! ### KLE state memory -/

/-- Reads a word of KLE state memory; none where it holds an uncorrectable error (R618). -/
def State.kleRead (s : State) (a : Nat) : Option Word × State :=
  match s.eccAt a with
  | 0 => (some (s.rdWord a), s)
  | 1 => (some (s.rdWord a), (s.setEcc a 0).eccCorrected 2 Reg.KLE_ECCTALLY)
  | _ => (none, s)

/-- Writes a word of KLE state memory: a plate word, which fails for an enabled slot, or a word of the learning pool (R556 to
R558, R625). -/
def State.kleWrite (s : State) (a : Nat) (v : Word) (be : BitVec 4) : Bool × State :=
  let w := mergeBE (s.rdWord a) v be
  if a < 0x01020000 then s.plateWr ((a - 0x01000000) / 0x1000) (a % 0x1000 / 4) w
  else (true, s.fullWrite a w)

end Sys2Proof.Machine
end

