-- ==== Sys2Proof/Machine/Bus.lean ====
section
/-!
DEFINITION. The physical address map (Table 8-1) and accesses of a core or a DMA channel to a physical address.
-/
namespace Sys2Proof.Machine

/-- A range of Table 8-1. -/
inductive Region where
  | sram | kle | pool | mram
  | scratch (m : Nat)
  | flash | regs | outbound
  deriving DecidableEq, Repr

/-- The range of Table 8-1 that holds a physical address; none where nothing lies there (R401). -/
def regionOf (a : Nat) : Option Region :=
  if a < 0x00200000 then some .sram
  else if 0x01000000 ≤ a ∧ a < 0x01040000 then some .kle
  else if 0x02000000 ≤ a ∧ a < 0x02040000 then some .pool
  else if 0x03000000 ≤ a ∧ a < 0x03080000 then some .mram
  else if 0x04000000 ≤ a ∧ a < 0x04040000 ∧ a % 0x10000 < 0x4000 then some (.scratch ((a - 0x04000000) / 0x10000))
  else if 0x08000000 ≤ a ∧ a < 0x0C000000 then some .flash
  else if 0x10000000 ≤ a ∧ a < 0x10130000 then some .regs
  else if 0x40000000 ≤ a ∧ a < 0x50000000 then some .outbound
  else none

/-- A range is of type Device (Table 8-1). -/
def Region.device : Region → Bool
  | .sram => false
  | .scratch _ => false
  | .flash => false
  | _ => true

/-- How an access at a physical address ended: its bytes, a bus error, or an uncorrectable error. -/
inductive BusRes where
  | ok (bytes : List Byte)
  | bus
  | ecc
  deriving DecidableEq, Repr

/-- The words that an answer from outside the model gives, `n` of them; a bus error where it holds fewer. -/
def devBytes (dev : BusRead) (n : Nat) : BusRes :=
  match dev with
  | .data ws => if n ≤ ws.length then .ok ((ws.take n).flatMap wordBytes) else .bus
  | .busError => .bus

/-- The bytes of a word that a checked read gives; an uncorrectable error where it gives none. -/
def wordAns (o : Option Word) : BusRes :=
  match o with
  | some w => .ok (wordBytes w)
  | none => .ecc

/-- Reads one aligned word of a range that the model holds. A correctable word of the pool's raw view is counted and not written back
(R501). -/
def State.wordRead (s : State) (src : Requester) (r : Region) (a : Nat) : BusRes × State :=
  match r with
  | .sram => let p := s.coRd (cohPort src) a; (wordAns p.1, p.2)
  | .mram => let p := s.mramCheck a; (wordAns p.1, p.2)
  | .kle => let p := s.kleRead a; (wordAns p.1, p.2)
  | .pool =>
    if s.eccAt a = 2 then (.ecc, s)
    else (.ok (wordBytes (s.rdWord a)), if s.eccAt a = 1 then s.eccCorrected 1 Reg.POOL_ECCTALLY else s)
  | .scratch _ => (.ok (wordBytes (s.rdWord a)), s)
  | .regs => let p := s.regRead src a; (.ok (wordBytes p.1), p.2)
  | _ => (.bus, s)

/-- Reads `k` words one after another. -/
def State.wordsRead (s : State) (src : Requester) (r : Region) (a : Nat) : Nat → BusRes × State
  | 0 => (.ok [], s)
  | k + 1 =>
    let (x, s) := s.wordRead src r a
    match x with
    | .ok bs =>
      let (y, s) := s.wordsRead src r (a + 4) k
      match y with
      | .ok cs => (.ok (bs ++ cs), s)
      | e => (e, s)
    | e => (e, s)

/-- A read of `size` bytes (1, 2, 4 or 32, aligned) at a physical address; `dev` answers for what the model does not hold:
the flash window and, while requests can be issued, the outbound window (R171, R401). -/
def State.busRead (s : State) (src : Requester) (a size : Nat) (dev : BusRead) : BusRes × State :=
  let k := (size + 3) / 4
  let (x, s) := match regionOf a with
    | some .flash => if s.flashOn then (devBytes dev k, s.flashFrame (a - 0x08000000) size) else (.bus, s)
    | some .outbound =>
      if s.canIssue then (devBytes dev k, s.emit (.read (s.obAddr (a - 0x40000000)) size)) else (.bus, s)
    | some r => s.wordsRead src r (a / 4 * 4) k
    | none => (.bus, s)
  match x with
  | .ok bs => (.ok ((bs.drop (if size < 4 then a % 4 else 0)).take size), s)
  | e => (e, s)

/-- A word from four bytes, the lowest-addressed first. -/
def bytesWord (bs : List Byte) : Word := bs.getD 3 0 ++ bs.getD 2 0 ++ bs.getD 1 0 ++ bs.getD 0 0

/-- How a write at a physical address ended. -/
inductive BusW where
  | ok | bus | ecc
  deriving DecidableEq, Repr

/-- Writes bytes inside one aligned word. -/
def State.wordWrite (s : State) (src : Requester) (a : Nat) (bs : List Byte) : BusW × State :=
  let o := a % 4
  let v : Word := bytesWord (List.replicate o 0 ++ bs)
  let be : BitVec 4 := BitVec.ofNat 4 ((2 ^ bs.length - 1) <<< o)
  let w := a / 4 * 4
  match regionOf a with
  | some .sram => let (ok, s) := s.coWr (cohPort src) w v be; (if ok then .ok else .ecc, s)
  | some .mram => let (ok, s) := s.mramWrite w v be; (if ok then .ok else .ecc, s)
  | some .kle => let (ok, s) := s.kleWrite w v be; (if ok then .ok else .bus, s)
  | some .pool => let (ok, s) := s.rawViewWrite w v be; (if ok then .ok else .bus, s)
  | some (.scratch _) => (.ok, s.wrBytes a bs)
  | some .regs =>
    (.ok, if bs.length = 4 then s.regWrite src w v else s)
  | some .outbound => let (ok, s) := s.outboundWrite (a - 0x40000000) bs; (if ok then .ok else .bus, s)
  | _ => (.bus, s)

/-- Writes bytes from a physical address on, word by word; the first failure ends it. -/
def State.busWriteN (s : State) (src : Requester) (a : Nat) (bs : List Byte) : Nat → BusW × State
  | 0 => (.ok, s)
  | k + 1 =>
    let (r, s) := s.wordWrite src a (bs.take 4)
    match r with
    | .ok => s.busWriteN src (a + 4) (bs.drop 4) k
    | e => (e, s)

/-- A write of 1, 2, 4 or 32 bytes, aligned, at a physical address. -/
def State.busWrite (s : State) (src : Requester) (a : Nat) (bs : List Byte) : BusW × State :=
  s.busWriteN src a bs ((bs.length + 3) / 4)

end Sys2Proof.Machine
end

