-- ==== Sys2Proof/Machine/TsuvoMem.lean ====
section
/-!
DEFINITION. Memory accesses of a Tsuvo core (chapters 6 to 8): virtual addresses, the bare map, the TLB and its walks,
loads, the write buffer, and the spills and fills of the two stacks.
-/
namespace Sys2Proof.Machine

/-- An exception: its cause (Table 7-6), the virtual address that FAL and FAH take where it has one, and the detail of an
access fault (R379). `dfault` stands for a double fault (R377), which takes no vector. -/
structure Exc where
  cause : Nat
  va : Option Nat := none
  det : Nat := 0
  dfault : Bool := false
  deriving DecidableEq, Repr

/-- The end of a piece of an operation: a value and the state, or an exception. -/
inductive Res (α : Type) where
  | ok (a : α) (s : State)
  | exc (e : Exc) (s : State)

/-- Goes on where the piece before ended without an exception. -/
def Res.bind {α β : Type} (r : Res α) (f : α → State → Res β) : Res β :=
  match r with
  | .ok a s => f a s
  | .exc e s => .exc e s

/-- Causes of Table 7-6. -/
abbrev cILLEGAL : Nat := 0x01
abbrev cPRIV : Nat := 0x02
abbrev cALIGN : Nat := 0x03
abbrev cSTACK_LIMIT : Nat := 0x04
abbrev cSTACK_EMPTY : Nat := 0x05
abbrev cATOMIC : Nat := 0x06
abbrev cPAGE_FETCH : Nat := 0x07
abbrev cPAGE_READ : Nat := 0x08
abbrev cPAGE_WRITE : Nat := 0x09
abbrev cACCESS : Nat := 0x0A
abbrev cWBUS_ASYNC : Nat := 0x0B
abbrev cENTRY_FAULT : Nat := 0x0C
abbrev cBRK : Nat := 0x0D

/-- The kind of an access for the checks of Table 8-4; `cacheOp` raises no permission fault. -/
inductive Acc where
  | fetch | read | write | cacheOp
  deriving DecidableEq, Repr

/-- The page fault of an access kind (R410). -/
def Acc.pageFault : Acc → Nat
  | .fetch => cPAGE_FETCH
  | .read => cPAGE_READ
  | .write => cPAGE_WRITE
  | .cacheOp => cPAGE_READ

/-- A translated address: physical address, and the effective type (R409). -/
structure Xl where
  pa : Nat
  device : Bool
  cached : Bool
  deriving DecidableEq, Repr

/-- The virtual address of an offset in a bank (R302). -/
def vaOf (bank off : Nat) : Nat := bank * 65536 + off % 65536

/-- Virtual address of the operation that issues next (Table 6-1). -/
def Core.at_ (c : Core) : Nat := vaOf c.cbr.toNat c.pc.toNat

/-! ### Translation -/

/-- The bare map (Table 6-2): the physical address of a bank's offset, or the detail of the access fault (R304, R379). -/
def State.bareMap (s : State) (n bank off : Nat) : Option Nat × Nat :=
  if bank = 0 then
    let a := (s.rd (Reg.SYS_COREENTRY n)).toNat / 65536 * 65536 + off
    match regionOf a with
    | some _ => (some a, 0)
    | none => (none, if 0x04000000 ≤ a ∧ a < 0x04040000 then 2 else 1)
  else if bank < 0x20 then (some (bank * 65536 + off), 0)
  else if bank = 0x20 then (some off, 0)
  else if 0x24 ≤ bank ∧ bank < 0x28 then (some (0x01000000 + (bank - 0x24) * 65536 + off), 0)
  else if 0x28 ≤ bank ∧ bank < 0x2C then (some (0x02000000 + (bank - 0x28) * 65536 + off), 0)
  else if 0x30 ≤ bank ∧ bank < 0x38 then (some (0x03000000 + (bank - 0x30) * 65536 + off), 0)
  else if 0x40 ≤ bank ∧ bank < 0x44 then
    if off < 0x4000 then (some (0x04000000 + (bank - 0x40) * 65536 + off), 0) else (none, 2)
  else if 0x80 ≤ bank ∧ bank < 0x93 then (some (regSpaceBase + (bank - 0x80) * 65536 + off), 0)
  else (none, 1)

/-- Does a TLB entry match a page under an ASID (R411)? -/
def TlbEntry.hits (e : TlbEntry) (bank page asid : Nat) : Bool :=
  e.bank == bank && e.page == page && (e.g || e.asid == asid)

/-- The entry of a TLB that matches. -/
def tlbFind (t : Tab (Option TlbEntry)) (bank page asid : Nat) : Option TlbEntry :=
  (t.filterMap (fun e => e.2)).find? (fun e => e.hits bank page asid)

/-- The result of a walk's two reads (R412, Table 8-4, order 1 and 2): an entry, the reason of a page fault (1 or 2), or the
detail of an access fault (R408, Table 8-11). -/
inductive Walked where
  | entry (e : TlbEntry)
  | invalid (reason : Nat)
  | access (det : Nat)

/-- The entry that a page-table entry makes (Table 8-3). -/
def pteEntry (w : Word) (bank page asid : Nat) : TlbEntry :=
  { bank := bank, page := page, asid := asid, w := W.bit w 1, x := W.bit w 2, c := W.bit w 3, d := W.bit w 4,
    g := W.bit w 5, p := W.bit w 6, frame := W.fld w 12 20 }

/-- A walk by port p (R408, R412, R413): directory entry, then page-table entry, both coherent reads in shared SRAM. -/
def State.walk (s : State) (p dir asid bank page : Nat) : Walked × State :=
  let a := dir + 4 * bank
  if regionOf a ≠ some .sram then (.access 1, s)
  else
    let (o, s) := s.coRd p a
    match o with
    | none => (.access 4, s)
    | some de =>
      if !W.bit de 0 then (.invalid 1, s)
      else
        let b := W.fld de 6 26 * 64 + 4 * page
        if regionOf b ≠ some .sram then (.access 1, s)
        else
          let (o, s) := s.coRd p b
          match o with
          | none => (.access 4, s)
          | some pe => if W.bit pe 0 then (.entry (pteEntry pe bank page asid), s) else (.invalid 2, s)

/-- Effective type of an access through a TLB entry (R409). -/
def TlbEntry.xl (e : TlbEntry) (r : Region) (off : Nat) : Xl :=
  let dev := e.d || r.device
  ⟨e.frame * 4096 + off % 4096, dev, decide (r = .sram) && e.c && !dev⟩

/-- Checks 3 to 6 of Table 8-4: the translated address, or the PFDET reason and exception. -/
def TlbEntry.check (e : TlbEntry) (sys : Bool) (k : Acc) (off : Nat) : Xl ⊕ (Nat × Nat) :=
  let a := e.frame * 4096 + off % 4096
  let r := regionOf a
  let dev := e.d || (match r with | some q => q.device | none => false)
  if e.p && !sys && decide (k ≠ .cacheOp) then .inr (5, k.pageFault)
  else if !e.w && decide (k = .write) then .inr (3, cPAGE_WRITE)
  else if (!e.x || dev) && decide (k = .fetch) then .inr (4, cPAGE_FETCH)
  else match r with
    | some q => .inl (e.xl q off)
    | none => .inr (0, cACCESS)

/-- Records the reason of a translation fault and raises it (R410). -/
def State.xlFault {α : Type} (s : State) (n va reason cause : Nat) : Res α :=
  .exc ⟨cause, some va, if cause = cACCESS then 1 else 0, false⟩ (s.setFld (Reg.XLT_PFDET n) 0 3 reason)

/-- Translates a virtual address of core n for an access (R303 to R305, R356, R403, R408 to R414). -/
def State.xlate (s : State) (n va : Nat) (k : Acc) : Res Xl :=
  let c := s.core n
  let bank := va / 65536 % 256
  let off := va % 65536
  if !c.ten then
    match s.bareMap n bank off with
    | (some a, _) =>
      match regionOf a with
      | some r =>
        if r.device && decide (k = .fetch) then .exc ⟨cACCESS, some va, 5, false⟩ s
        else .ok ⟨a, r.device, decide (r = .sram)⟩ s
      | none => .exc ⟨cACCESS, some va, 1, false⟩ s
    | (none, det) => .exc ⟨cACCESS, some va, det, false⟩ s
  else
    let page := off / 4096
    match tlbFind c.tlb bank page c.asid.toNat with
    | some e =>
      match e.check c.sys k off with
      | .inl x => .ok x s
      | .inr (r, cause) => s.xlFault n va r cause
    | none =>
      let (w, s) := s.walk n c.dir c.asid.toNat bank page
      match w with
      | .invalid r => s.xlFault n va r k.pageFault
      | .access det => .exc ⟨cACCESS, some va, det, false⟩ s
      | .entry e =>
        match e.check c.sys k off with
        | .inl x =>
          let c := s.core n
          .ok x (s.setCore n { c with tlb := tset none c.tlb c.tlbNext (some e), tlbNext := (c.tlbNext + 1) % 32 })
        | .inr (r, cause) => s.xlFault n va r cause

/-- Where an instruction fetch that must start no page walk reads a virtual address: nothing on a Device page, on a page without X,
or on a page that translation does not hold (R355). -/
def State.fetchAddr (s : State) (n va : Nat) : Option Nat :=
  let c := s.core n
  let bank := va / 65536 % 256
  let off := va % 65536
  let at_ : Option Nat :=
    if !c.ten then (s.bareMap n bank off).1
    else match tlbFind c.tlb bank (off / 4096) c.asid.toNat with
      | some e => match e.check c.sys .fetch off with
        | .inl x => some x.pa
        | .inr _ => none
      | none => none
  at_.bind fun a => match regionOf a with
    | some r => if r.device then none else some a
    | none => none

/-- The word that a fetch would find at a physical address now, an M copy included; it reports nothing. -/
def State.peekWord (s : State) (a : Nat) : Word :=
  match s.owner (a / 32) with
  | some k => (s.line k (a / 32)).data.getD (a % 32 / 4) 0
  | none => s.rdWord (a / 4 * 4)

/-- An instruction fill of core n reads at most the rest of the line of the operation in issue and the following line (R355). -/
def State.mayFill (s : State) (n l : Nat) : Bool :=
  let v := (s.core n).at_ / 32 * 32
  let next := v / 65536 * 65536 + (v + 32) % 65536
  (s.fetchAddr n v).any (fun a => a / 32 == l) || (s.fetchAddr n next).any (fun a => a / 32 == l)

/-- Core n's I-cache holds the line of an address. -/
def State.iHeld (s : State) (n a : Nat) : Bool := !(tget ([], 0) (s.core n).icache (a / 32)).1.isEmpty

/-- The word that core n fetches at a physical address holds an uncorrectable error, in its I-cache line or at the home (Table
8-11). -/
def State.fetchBad (s : State) (n a : Nat) : Bool :=
  decide (regionOf a = some .sram)
    && (if s.iHeld n a then (tget ([], 0) (s.core n).icache (a / 32)).2.testBit (a % 32 / 4)
        else match s.owner (a / 32) with
          | some k => (s.line k (a / 32)).bad.testBit (a % 32 / 4)
          | none => s.eccAt a == 2)

/-! ### The write buffer -/

/-- A store failed after its retirement (R350, R351). -/
def State.storeFailed (s : State) (n : Nat) (e : StoreEnt) : State :=
  let s := s.tally (Reg.ICU_WBETALLY n)
  match (s.core n).wbe with
  | some _ => s.setBit (Reg.ICU_CSTAT n) 3 true
  | none => (s.setCore n { s.core n with wbe := some (e.va, e.pa) }).wr (Reg.ICU_WBEADDR n) (BitVec.ofNat 32 e.pa)

/-- Replaces bytes of a list of words from byte offset `o` on. -/
def patchWords (ws : List Word) (o : Nat) (bs : List Byte) : List Word :=
  let all := ws.flatMap wordBytes
  let new := all.take o ++ bs ++ all.drop (o + bs.length)
  (List.range ws.length).map (fun i => bytesWord (new.drop (4 * i)))

/-- A cached store at its D-cache line (Table 8-8, Table 8-11): false where it meets a word marked uncorrectable. -/
def State.lineStore (s : State) (n : Nat) (e : StoreEnt) : Bool × State :=
  let l := e.pa / 32
  let s := s.ownLine n l
  let x := s.line n l
  let i := e.pa % 32 / 4
  if x.bad.testBit i && e.bytes.length != 4 then (false, s)
  else
    let bad := if x.bad.testBit i then x.bad - 2 ^ i else x.bad
    (true, s.setLine n l { x with data := patchWords x.data (e.pa % 32) e.bytes, bad := bad })

/-- Performs one store now. -/
def State.storeNow (s : State) (n : Nat) (e : StoreEnt) : BusW × State :=
  if e.cached then
    let (ok, s) := s.lineStore n e
    (if ok then .ok else .ecc, s)
  else s.busWrite (.core (Fin.ofNat 4 n)) e.pa e.bytes

/-- An entry of the write buffer drains: a store to memory, a push into the port's staging FIFO (R346). -/
def State.drainEnt (s : State) (n : Nat) : WbufEnt → State
  | .store e =>
    let (r, s) := s.storeNow n e
    if r = .ok then s else s.storeFailed n e
  | .push w => s.enterFifo n w

/-- The oldest entry of core n's write buffer drains (R346). -/
def State.drainOne (s : State) (n : Nat) : State :=
  match (s.core n).wbuf with
  | [] => s
  | e :: es => (s.setCore n { s.core n with wbuf := es }).drainEnt n e

/-- Every entry of core n's write buffer drains. -/
def State.drainAll (s : State) (n : Nat) : State :=
  ((s.drainOne n).drainOne n |>.drainOne n).drainOne n

/-- A store of the write buffer goes to a line. -/
def WbufEnt.toLine (l : Nat) : WbufEnt → Bool
  | .store e => e.pa / 32 == l
  | .push _ => false

/-- Drains the write buffer where it holds a store to the line of an address (R435). -/
def State.drainFor (s : State) (n a : Nat) : State :=
  if (s.core n).wbuf.any (WbufEnt.toLine (a / 32)) then s.drainAll n else s

/-- An entry goes into the write buffer, the oldest draining first where it is full (R346). -/
def State.buffer (s : State) (n : Nat) (e : WbufEnt) : State :=
  let s := if 4 ≤ (s.core n).wbuf.length then s.drainOne n else s
  s.setCore n { s.core n with wbuf := (s.core n).wbuf ++ [e] }

/-! ### Loads and stores -/

/-- A hit on an enabled watchpoint halts the core after the access (R387). -/
def State.watch (s : State) (n va : Nat) (isWrite : Bool) : State :=
  let hit (w : Nat) : Bool :=
    let a := s.rd (Reg.DBG_CORE_WP_ADDR n w)
    let m := s.fld (Reg.DBG_CORE_WP_MASK n w) 0 24
    W.bit a 31 && W.bit a (if isWrite then 29 else 28) && (W.fld a 0 24 ^^^ va) &&& m == 0
  if hit 0 || hit 1 then s.setCore n { s.core n with haltPend := 4 } else s

/-- Reads `size` bytes at a translated address (R347, R411, R435, R436, Table 8-11). -/
def State.readAt (s : State) (n va : Nat) (x : Xl) (size : Nat) (dev : BusRead) : Res (List Byte) :=
  if x.cached then
    let s := (s.drainFor n x.pa).holdLine n (x.pa / 32)
    let l := s.line n (x.pa / 32)
    if l.bad.testBit (x.pa % 32 / 4) then .exc ⟨cACCESS, some va, 4, false⟩ s
    else .ok (((l.data.flatMap wordBytes).drop (x.pa % 32)).take size) s
  else
    let s := if x.device then s.drainAll n else s.drainFor n x.pa
    let (r, s) := s.busRead (.core (Fin.ofNat 4 n)) x.pa size dev
    match r with
    | .ok bs => .ok bs s
    | .bus => .exc ⟨cACCESS, some va, 3, false⟩ s
    | .ecc => .exc ⟨cACCESS, some va, 4, false⟩ s

/-- A load of `size` bytes (R302, R312). -/
def State.load (s : State) (n va size : Nat) (dev : BusRead) : Res (List Byte) :=
  if va % size ≠ 0 then .exc ⟨cALIGN, some va, 0, false⟩ s
  else (s.xlate n va .read).bind fun x s =>
    (s.readAt n va x size dev).bind fun bs s => .ok bs (s.watch n va false)

/-- A store: it retires into the 4-entry write buffer (R302, R312, R346). -/
def State.store (s : State) (n va : Nat) (bytes : List Byte) : Res Unit :=
  if va % bytes.length ≠ 0 then .exc ⟨cALIGN, some va, 0, false⟩ s
  else (s.xlate n va .write).bind fun x s =>
    .ok () ((s.buffer n (.store ⟨va, x.pa, bytes, x.cached⟩)).watch n va true)

/-- An atomic on an aligned 16-bit word of shared SRAM (R312, R313, R431). -/
def State.atomic (s : State) (n : Nat) (op : AtomicOp) (va : Nat) (v cmp : Half) : Res Half :=
  if va % 2 ≠ 0 then .exc ⟨cALIGN, some va, 0, false⟩ s
  else (s.xlate n va .write).bind fun x s =>
    if regionOf x.pa ≠ some .sram then .exc ⟨cATOMIC, some va, 0, false⟩ s
    else
      let (o, s) := ((s.drainAll n).atHome n (x.pa / 32)).doAtm op x.pa v cmp
      match o with
      | some old => .ok old ((s.watch n va false).watch n va true)
      | none => .exc ⟨cACCESS, some va, 4, false⟩ s

/-- The 16-bit word of two bytes. -/
def bytesHalf (bs : List Byte) : Half := bs.getD 1 0 ++ bs.getD 0 0
/-- The bytes of a 16-bit word. -/
def halfBytes (h : Half) : List Byte := [h.setWidth 8, (h >>> 8).setWidth 8]

/-! ### Time and the exposed units -/

/-- `k` CORE cycles pass at core n. -/
def State.age (s : State) (n k : Nat) : State := s.setCore n ((s.core n).age k)

/-- An operation that reads a pending entry, or would write it to memory, waits for its value (R311, R348). -/
def State.await (s : State) (n : Nat) (pending : Bool) : State :=
  if pending then s.age n (max 1 (s.core n).markT) else s

/-! ### The stacks -/

/-- The exception of a spill write that fails at its target. -/
def spillFail (va : Nat) (r : BusW) : Exc := ⟨cACCESS, some va, if r = .ecc then 4 else 3, false⟩

/-- Writes the words of a spill from an address upwards, each of `w` bytes (R294, R298). -/
def State.spillWords (s : State) (n bank off : Nat) : List (List Byte) → Res Unit
  | [] => .ok () s
  | bs :: rest =>
    let va := vaOf bank off
    (s.xlate n va .write).bind fun x s =>
      let (r, s) := s.storeNow n ⟨va, x.pa, bs, x.cached⟩
      if r = .ok then s.spillWords n bank (off + bs.length) rest else .exc (spillFail va r) s

/-- What stands outside the model behind an address that a fill reads: in the flash and outbound windows two free values, one of
which tells whether the access fails (DESIGN CHOICE, log entry 111). -/
def State.outsideAnswer (s : State) (pa : Nat) : BusRead × State :=
  match regionOf pa with
  | some .flash | some .outbound =>
    let (w, s) := s.drawWord
    let (e, s) := s.drawWord
    (if W.bit e 0 then .busError else .data [w], s)
  | _ => (.busError, s)

/-- Reads `k` words of a fill, each of `w` bytes, from an address upwards (R295, R298). -/
def State.fillWords (s : State) (n bank off w : Nat) : Nat → Res (List (List Byte))
  | 0 => .ok [] s
  | k + 1 =>
    let va := vaOf bank off
    (s.xlate n va .read).bind fun x s =>
      let (dev, s) := s.outsideAnswer x.pa
      (s.readAt n va x w dev).bind fun bs s =>
        (s.fillWords n bank (off + w) w k).bind fun rest s => .ok (bs :: rest) s

/-- Spills the `k` oldest data entries (R294, R299, R301). -/
def State.spillD (s : State) (n k : Nat) : Res Unit :=
  let c := s.core n
  let d := c.dsp.toNat
  if d < 2 * k ∨ d - 2 * k < c.dslim.toNat then .exc ⟨cSTACK_LIMIT, none, 0, false⟩ s
  else
    let keep := c.dstk.length - k
    let s := s.await n ((c.marks.drop keep).any id)
    ((s.drainAll n).spillWords n c.sbr.toNat (d - 2 * k) ((c.dstk.drop keep).map halfBytes)).bind fun _ s =>
      let c := s.core n
      .ok () ((s.setCore n { c with dstk := c.dstk.take keep, marks := c.marks.take keep,
                                    dsp := BitVec.ofNat 16 (d - 2 * k) }).age n 2)

/-- Data entries that memory holds (R295). -/
def Core.dMem (c : Core) : Nat := (c.dstop.toNat - c.dsp.toNat) / 2

/-- Fills up to 4 data entries from memory (R295). -/
def State.fillD (s : State) (n : Nat) : Res Unit :=
  let c := s.core n
  let k := min (min 4 c.dMem) (8 - c.dstk.length)
  ((s.drainAll n).fillWords n c.sbr.toNat c.dsp.toNat 2 k).bind fun ws s =>
    let c := s.core n
    .ok () ((s.setCore n { c with dstk := c.dstk ++ ws.map bytesHalf, dsp := c.dsp + BitVec.ofNat 16 (2 * k) }).age n 3)

/-- At least `k` data entries stand in registers, after fills as needed (R295, R300). -/
def State.needD (s : State) (n k : Nat) : Res Unit :=
  let c := s.core n
  if k ≤ c.dstk.length then .ok () s
  else if c.dstk.length + c.dMem < k then .exc ⟨cSTACK_EMPTY, none, 0, false⟩ s
  else (s.fillD n).bind fun _ s =>
    if k ≤ (s.core n).dstk.length then .ok () s else s.fillD n

/-- Room for the data entries of an operation that takes `k` and leaves `r` (R294). -/
def State.roomD (s : State) (n k r : Nat) : Res Unit :=
  if 8 < (s.core n).dstk.length - k + r then s.spillD n 4 else .ok () s

/-- Base of core n's local scratch (Table 8-1). -/
def scratchBase (n : Nat) : Nat := 0x04000000 + n * 0x10000

/-- A return-stack entry as its memory word (R297). -/
def rBytes (e : BitVec 24) : List Byte := wordBytes (e.setWidth 32)
/-- A return-stack entry from its memory word. -/
def rEntry (bs : List Byte) : BitVec 24 := (bytesWord bs).setWidth 24

/-- The emergency stack is in use (R375). -/
def State.emerg (s : State) (n : Nat) : Bool := s.bit (Reg.ICU_CSTAT n) 0
/-- Bytes in use in the emergency stack (R376). -/
def State.ersp (s : State) (n : Nat) : Nat := s.fld (Reg.ICU_ERSP n) 0 9

/-- A spill of the `k` oldest return entries to the emergency stack; past 256 bytes it is a double fault (R375, R377). -/
def State.spillE (s : State) (n k : Nat) : Res Unit :=
  let c := s.core n
  let e := s.ersp n + 4 * k
  if 256 < e then .exc ⟨0, none, 0, true⟩ s
  else
    let keep := c.rstk.length - k
    let s := s.wrBytes (scratchBase n + 0x4000 - e) ((c.rstk.drop keep).flatMap rBytes)
    let s := (s.setCore n { c with rstk := c.rstk.take keep }).setFld (Reg.ICU_ERSP n) 0 9 e
    .ok () (s.age n 4)

/-- Spills the `k` oldest return entries (R296, R299, R375). -/
def State.spillR (s : State) (n k : Nat) : Res Unit :=
  if s.emerg n then s.spillE n k
  else
    let c := s.core n
    let d := c.rsp.toNat
    if d < 4 * k ∨ d - 4 * k < c.rslim.toNat then
      .exc ⟨cSTACK_LIMIT, some (vaOf c.sbr.toNat (d + 65536 - 4 * k)), 0, false⟩ s
    else
      let keep := c.rstk.length - k
      ((s.drainAll n).spillWords n c.sbr.toNat (d - 4 * k) ((c.rstk.drop keep).map rBytes)).bind fun _ s =>
        let c := s.core n
        .ok () ((s.setCore n { c with rstk := c.rstk.take keep, rsp := BitVec.ofNat 16 (d - 4 * k) }).age n 4)

/-- Return entries that memory holds, the emergency stack included (R296, R376). -/
def State.rMem (s : State) (n : Nat) : Nat :=
  let c := s.core n
  (c.rstop.toNat - c.rsp.toNat) / 4 + (if s.emerg n then s.ersp n / 4 else 0)

/-- Fills up to 8 return entries, from the emergency stack while it is in use (R296, R376). -/
def State.fillR (s : State) (n : Nat) : Res Unit :=
  let c := s.core n
  let room := 16 - c.rstk.length
  if s.emerg n then
    let k := min (min 8 (s.ersp n / 4)) room
    let a := scratchBase n + 0x4000 - s.ersp n
    let es := (List.range k).map (fun i => ((s.rdWord (a + 4 * i)).setWidth 24 : BitVec 24))
    let s := (s.setCore n { c with rstk := c.rstk ++ es }).setFld (Reg.ICU_ERSP n) 0 9 (s.ersp n - 4 * k)
    let s := if s.ersp n = 0 then s.setBit (Reg.ICU_CSTAT n) 0 false else s
    .ok () (s.age n 5)
  else
    let k := min (min 8 ((c.rstop.toNat - c.rsp.toNat) / 4)) room
    ((s.drainAll n).fillWords n c.sbr.toNat c.rsp.toNat 4 k).bind fun ws s =>
      let c := s.core n
      .ok () ((s.setCore n { c with rstk := c.rstk ++ ws.map rEntry, rsp := c.rsp + BitVec.ofNat 16 (4 * k) }).age n 5)

/-- At least `k` return entries stand in registers (R296, R300). -/
def State.needR (s : State) (n k : Nat) : Res Unit :=
  let c := s.core n
  if k ≤ c.rstk.length then .ok () s
  else if c.rstk.length + s.rMem n < k then .exc ⟨cSTACK_EMPTY, none, 0, false⟩ s
  else (s.fillR n).bind fun _ s =>
    if k ≤ (s.core n).rstk.length then .ok () s else s.fillR n

/-- Pushes one return entry (R296). -/
def State.pushR (s : State) (n : Nat) (e : BitVec 24) : Res Unit :=
  (if 16 ≤ (s.core n).rstk.length then s.spillR n 8 else .ok () s).bind fun _ s =>
    let c := s.core n
    .ok () (s.setCore n { c with rstk := e :: c.rstk })

end Sys2Proof.Machine
end

