-- ==== Sys2Proof/Machine/TsuvoCtl.lean ====
section
/-!
DEFINITION. Issue of an operation by a Tsuvo core, exception and interrupt entry, RETI, core reset, and debug halt
(chapters 3, 6 and 7).
-/
namespace Sys2Proof.Machine

/-! ### Interrupt sources -/

/-- Running priority of core n (R359). -/
def State.rpri (s : State) (n : Nat) : Nat := s.fld (Reg.ICU_ACTIVE n) 16 4

/-- Source `i` is pending at core n and enabled, with a priority below `lim` (R359). -/
def State.eligible (s : State) (n lim i : Nat) : Bool :=
  (if i < 32 then s.bit (Reg.ICU_PENDLO n) i else s.bit (Reg.ICU_PENDHI n) (i - 32))
    && s.bit (Reg.ICU_SRCCFG n i) 0 && decide (s.fld (Reg.ICU_SRCCFG n i) 1 3 < lim)

/-- The better of two candidates: the lower priority number, then the lower source number (R359). -/
def betterSrc (s : State) (n : Nat) (best : Option Nat) (i : Nat) : Option Nat :=
  match best with
  | none => some i
  | some b => if s.fld (Reg.ICU_SRCCFG n i) 1 3 < s.fld (Reg.ICU_SRCCFG n b) 1 3 then some i else best

/-- The source that core n would take against a running priority (R359). -/
def State.bestSource (s : State) (n lim : Nat) : Option Nat :=
  ((List.range 64).filter (s.eligible n lim)).foldl (betterSrc s n) none

/-- Clears the pending bit of a source at core n (R358). -/
def State.unpend (s : State) (n i : Nat) : State :=
  if i < 32 then s.setBit (Reg.ICU_PENDLO n) i false else s.setBit (Reg.ICU_PENDHI n) (i - 32) false

/-- ICU.ACTIVEn shows the running handler's source and RPRI (Table 7-7). -/
def State.showActive (s : State) (n pri : Nat) : State :=
  let a := (s.core n).active
  s.wr (Reg.ICU_ACTIVE n) (BitVec.ofNat 32 (pri % 16 * 65536 + (match a with | [] => 0 | x :: _ => 256 + x % 64)))

/-! ### Entry -/

/-- STATUS with SYS set or cleared. -/
def statusSys (st : Half) (sys : Bool) : Half := if sys then st ||| 0x0100 else st &&& 0xFEFF

/-- The frame of an entry (Table 7-4), FRAME0 first. -/
def State.frame0 (s : State) (n : Nat) : BitVec 24 :=
  let c := s.core n
  BitVec.ofNat 24 (c.epcl.toNat + c.epch.toNat % 256 * 65536)
def State.frame1 (s : State) (n : Nat) : BitVec 24 :=
  let c := s.core n
  let st := if c.div.isSome then c.status ||| 0x0040 else c.status
  BitVec.ofNat 24 (st.toNat + c.epch.toNat / 256 % 2 * 2 ^ 16 + c.epch.toNat / 512 % 2 * 2 ^ 17 + s.rpri n % 16 * 2 ^ 18)

/-- Pushes the two frame entries (R363). -/
def State.pushFrame (s : State) (n : Nat) : Res Unit :=
  let f1 := s.frame1 n
  (s.pushR n (s.frame0 n)).bind fun _ s => s.pushR n f1

/-- A double fault: core n stops issuing (R377). -/
def State.doubleFault (s : State) (n : Nat) : State :=
  let s := (s.setBit (Reg.ICU_CSTAT n) 1 true).setBit Reg.ICU_STATUS n true
  ({ s with cores := tset {} s.cores n { s.core n with started := false } }).source (56 + n)

/-- Offset of vector v in bank VBRH (R378). -/
def Core.vectorPc (c : Core) (v : Nat) : Half := (c.vbrl &&& 0xFE00) + BitVec.ofNat 16 (4 * v)

/-- EPCL, EPCH and STATUS of an entry, and the jump to a vector (R364, R365, R378). A breakpoint at the vector slot has not been
passed (R387). -/
def State.vectorTo (s : State) (n v : Nat) : State :=
  let c := s.core n
  let epch := c.cbr.toNat + (if c.sys then 256 else 0) + (if c.slot then 512 else 0)
  s.setCore n { c with
    epcl := c.pc, epch := BitVec.ofNat 16 epch, status := statusSys c.status true,
    cbr := c.vbrh.setWidth 8, pc := c.vectorPc v, slot := false, waiting := .none, bpPass := false }

/-- FAL and FAH take a virtual address; where the exception has none, a free value (R365). -/
def State.setFa (s : State) (n : Nat) (va : Option Nat) : State :=
  match va with
  | some a => s.setCore n { s.core n with fal := BitVec.ofNat 16 a, fah := BitVec.ofNat 16 (a / 65536 % 256) }
  | none =>
    let (w, s) := s.drawWord
    s.setCore n { s.core n with fal := w.setWidth 16, fah := (w >>> 16) &&& 0x00FF |>.setWidth 16 }

/-- CAUSE of core n. -/
def State.setCause (s : State) (n cause : Nat) : State :=
  s.setCore n { s.core n with cause := BitVec.ofNat 16 cause }

/-- An entry whose frame push has faulted (R375): the frame goes to the emergency stack and the core enters ENTRY_FAULT. -/
def State.entryFault (s : State) (n : Nat) (e : Exc) : State :=
  let s := (s.setBit (Reg.ICU_CSTAT n) 0 true).wr (Reg.ICU_ENTRYCAUSE n) (BitVec.ofNat 32 e.cause)
  match s.pushFrame n with
  | .ok _ s => (((s.vectorTo n cENTRY_FAULT).setCause n cENTRY_FAULT).setFa n e.va).age n 8
  | .exc _ s => s.doubleFault n

/-- Takes back to `pre` what an operation changes but its caches, TLB, write buffer and the units in flight: an MAV that a result
has set meanwhile stays, and so does the arrival of pending values (R298, R322, R340). -/
def Core.undo (c pre : Core) : Core :=
  { c with dstk := pre.dstk, marks := if c.markT = 0 then [] else pre.marks, rstk := pre.rstk, dsp := pre.dsp, rsp := pre.rsp,
           pc := pre.pc, slot := pre.slot, cbr := pre.cbr, status := pre.status ||| (c.status &&& 0x0008),
           haltPend := pre.haltPend, waiting := pre.waiting }

/-- Takes an operation back: the core, and the bytes that stand in the emergency stack (R340, R376, R427). -/
def State.undo (s : State) (n : Nat) (pre : State) : State :=
  ((s.setCore n ((s.core n).undo (pre.core n))).setBit (Reg.ICU_CSTAT n) 0 (pre.emerg n)).setFld (Reg.ICU_ERSP n) 0 9
    (pre.ersp n)

/-- CORE cycles from the acceptance of an entry to the issue of the handler's first instruction (Table 7-3, R361), beside the 4
of a frame spill, of which 2 overlap the vector fetch. -/
def Core.entryCycles (c : Core) : Nat := if 14 < c.rstk.length then 6 else 8

/-- Pushes the frame of an entry, then goes on with `f`, and its cycles pass; a faulted spill leaves the stacks as they were
(R360, R363, R375). -/
def State.enter (s : State) (n : Nat) (f : State → State) : State :=
  let pre := s.core n
  match s.pushFrame n with
  | .ok _ s => (f s).age n pre.entryCycles
  | .exc e s =>
    if e.dfault then s.doubleFault n
    else (s.setCore n { s.core n with rstk := pre.rstk, rsp := pre.rsp }).entryFault n e

/-- TAKING AN EXCEPTION at the present resumption address (R365, R378, R379). -/
def State.takeExc (s : State) (n : Nat) (e : Exc) : State :=
  if e.dfault then s.doubleFault n
  else s.enter n fun s =>
    let s := (s.vectorTo n e.cause).setCause n e.cause
    let s := if e.cause = cACCESS then s.wr (Reg.ICU_EXDET n) (BitVec.ofNat 32 e.det) else s
    s.setFa n e.va

/-- A wait of FENCE that an entry breaks off is taken up again after the return: FENCE is next (R352, R362). -/
def Core.fenceBack (c : Core) : Core :=
  match c.waiting with
  | .fence pc slot => { c with pc := pc, slot := slot }
  | _ => c

/-- Core n as an entry finds it: a wait ends, FENCE's with its pushes still under way by going back to it (R352, R362). -/
def State.waitLeft (s : State) (n : Nat) : Core :=
  { (if s.pushesDone n then s.core n else (s.core n).fenceBack) with waiting := .none }

/-- WBUS_ASYNC is entered where a store has failed (R350); in the wait of FENCE it comes before FENCE is complete (R352). -/
def State.enterAsync (s : State) (n : Nat) : State :=
  match (s.core n).wbe with
  | some (va, _) =>
    let s := s.setCore n { s.waitLeft n with wbe := none }
    s.takeExc n ⟨cWBUS_ASYNC, some va, 0, false⟩
  | none => s

/-- Source `i` is a constant-latency line of core n (R371, R373). -/
def State.isCl (s : State) (n i : Nat) : Bool :=
  let cfg := s.rd (Reg.ICU_SRCCFG n i)
  W.bit cfg 4 && W.fld cfg 1 3 == 0

/-- A constant-latency line that could not make 14 cycles is shown and counted (R372). -/
def State.clLate (s : State) (n i : Nat) (late : Bool) : State :=
  if late && s.isCl n i then (s.setBit (Reg.ICU_CSTAT n) 2 true).tally (Reg.ICU_CLTALLY n) else s

/-- The chain buffer keeps the vector slot of the highest-ranked pending enabled source while a handler runs (R368, R396). Its
fetch starts no page walk and reads no Device page; a slot that it cannot reach is not kept (DEDUCED, log entry 112). -/
def State.chainFetch (s : State) (n : Nat) : State :=
  let c := s.core n
  let want : Option (Nat × Nat) :=
    if c.active.isEmpty then none
    else (s.bestSource n 8).map (fun i => (i, vaOf c.vbrh.toNat (c.vectorPc (0x20 + i)).toNat))
  match want with
  | none => s.setCore n { c with chain := none }
  | some (i, va) =>
    if c.chain.any (fun x => x.src == i && x.va == va) then s
    else s.setCore n { c with chain := (s.fetchAddr n va).map (fun pa => ⟨i, va, s.peekWord pa⟩) }

/-- TAKING AN INTERRUPT of source `i` (R335, R358, R360, R362, R364, R370 to R373). A constant-latency line that makes its 14
cycles is padded. -/
def State.takeIrq (s : State) (n i : Nat) (late : Bool) : State :=
  let s := s.setCore n (s.waitLeft n).landAll
  let pad := if 14 < (s.core n).rstk.length then 3 else 5
  (s.enter n fun s =>
    let cfg := s.rd (Reg.ICU_SRCCFG n i)
    let s := (s.vectorTo n (0x20 + i)).unpend n i
    let s := (s.setCore n { s.core n with active := i :: (s.core n).active, inEntry := true }).showActive n (W.fld cfg 1 3)
    let s := if !late && s.isCl n i then s.age n pad else s
    s.clLate n i late).chainFetch n

/-! ### Issue -/

/-- An enabled breakpoint stands at the word that issues next (R387). -/
def State.atBreakpoint (s : State) (n : Nat) : Bool :=
  let c := s.core n
  (List.range 4).any (fun k =>
    let a := s.rd (Reg.DBG_CORE_BP_ADDR n k)
    let m := s.rd (Reg.DBG_CORE_BP_ASID n k)
    W.bit a 31 && W.fld a 0 24 == c.at_ && !c.slot && (!W.bit m 8 || W.fld m 0 6 == c.asid.toNat))

/-- The core executes: released, clocked, and not stopped by a double fault. -/
def State.coreRuns (s : State) (n : Nat) : Bool :=
  s.live && (s.core n).started && !s.bit Reg.SYS_CORERST n && !(s.core n).resetting && !(decide (0 < n) && s.gatedBit (gCORE n))

/-- Whether a wait lets the operation after it issue: WAIT ends with a pending source, IE = 0 (R374), FENCE with the core's pushes
complete (R352). -/
def State.waitOver (s : State) (n : Nat) : Bool :=
  match (s.core n).waiting with
  | .none => true
  | .wait => (s.bestSource n (s.rpri n)).isSome && !(s.core n).status.getLsbD 9
  | .qpop _ => false
  | .fence _ _ => s.pushesDone n

/-- Core n does not wait in FENCE (R352). -/
def State.fenceOver (s : State) (n : Nat) : Bool :=
  match (s.core n).waiting with | .fence _ _ => s.pushesDone n | _ => true

/-- No push of core n is in its write buffer or its port's FIFO any more (R147, R381). -/
def State.pushesGone (s : State) (n : Nat) : Bool :=
  s.pushesDone n && (s.core n).wbuf.all (fun e => match e with | .push _ => false | .store _ => true)

/-- Core n can issue an operation now; a word of its own needs the first position of a pair (R305, R344, R380, R387). -/
def State.canIssueOp (s : State) (n : Nat) (word : Bool) : Bool :=
  let c := s.core n
  s.coreRuns n && !c.halted && c.haltPend == 0 && s.waitOver n && (!s.bit Reg.DBG_HALTREQ n || c.stepping)
    && (c.bpPass || !s.atBreakpoint n) && !(word && c.slot)

/-- Where an operation leaves the program counter: at the next operation, or at an offset of a bank. -/
inductive Flow where
  | next
  | jump (bank : Byte) (pc : Half) (slot : Bool := false)
  /-- The next operation, after the entry of an exception that resumes there (TRAP, BRK). -/
  | trap (cause : Nat)

/-- The offset of the word after the present one (R303, R308, R315). -/
def Core.nextWord (c : Core) : Half := c.pc + 2

/-- The program counter after an operation (R303, R306, R307): a short operation leads to the pair's second, then to the
next word. -/
def Core.advance (c : Core) (word : Bool) (f : Flow) : Core :=
  match f with
  | .jump b p sl => { c with cbr := b, pc := p, slot := sl }
  | _ => if word || c.slot then { c with pc := c.nextWord, slot := false } else { c with slot := true }

/-- The core waits for the reply of a pop (R362). -/
def Core.popWaits (c : Core) : Bool := match c.waiting with | .qpop _ => true | _ => false

/-- The end of a step: the core halts again (R385). -/
def Core.endStep (c : Core) : Core :=
  if c.stepping && !c.popWaits then { c with stepping := false, haltPend := if c.haltPend = 0 then 5 else c.haltPend } else c

/-- The fetch check of the operation that is to execute: its translation (R303, R304, R356, R410), and an uncorrectable error in
its word, which a fill of its I-cache line has reported (R462, Table 8-11). -/
def State.fetchCheck (s : State) (n : Nat) : Res Xl :=
  let va := (s.core n).at_
  (s.xlate n va .fetch).bind fun x s =>
    if s.fetchBad n x.pa then
      .exc ⟨cACCESS, some va, 4, false⟩
        (if s.iHeld n x.pa then s else s.eccUncorrected 0 Reg.XLT_STATUS 1 Reg.XLT_ECCADDR x.pa)
    else .ok x s

/-- An exception, or a trap, of the operation that stood in state `pre`: a store that has failed meanwhile is entered first, and
the operation issues again after it (R340, R350, R392). -/
def State.opExc (s : State) (n : Nat) (pre : State) (stands : Bool) (e : Exc) : State :=
  if (s.core n).wbe.isSome then (s.undo n pre).enterAsync n
  else (if stands then s else s.undo n pre).takeExc n e

/-- ISSUES ONE OPERATION of core n: `cyc` its cycle count, `body` its effect. WBUS_ASYNC is entered first where a store
has failed; an exception leaves the state before the operation and is entered (R340, R344, R349, R350, R385). -/
def State.issue (s : State) (n : Nat) (word : Bool) (cyc : Nat) (body : State → Res Flow) : State :=
  if !s.canIssueOp n word then s
  else if (s.core n).wbe.isSome then s.enterAsync n
  else
    let s := s.setCore n { s.core n with waiting := .none, bpPass := false, inEntry := false }
    match (s.fetchCheck n).bind fun _ s => body s with
    | .ok f t =>
      let t := t.setCore n (((t.core n).age cyc).advance word f)
      let t := match f with
        | .trap c => t.opExc n s true ⟨c, none, 0, false⟩
        | _ => t
      (t.setCore n (t.core n).endStep).chainFetch n
    | .exc e t =>
      let t := t.opExc n s false e
      (t.setCore n (t.core n).endStep).chainFetch n

/-- Pushes data entries with their pending marks, the top first, for an operation that has taken its operands and made room
(R294, R348). -/
def State.pushM (s : State) (n : Nat) (xs : List Half) (ms : List Bool) : State :=
  let c := s.core n
  s.setCore n { c with dstk := xs ++ c.dstk, marks := if ms.any id || !c.marks.isEmpty then ms ++ c.marks else [] }

/-- Pushes data entries that are not pending. -/
def State.pushD (s : State) (n : Nat) (xs : List Half) : State := s.pushM n xs (xs.map fun _ => false)

/-- Pushes the result of a load or an atomic: it reaches an operation that issues 2 or more cycles later (R311, R348). -/
def State.pushLate (s : State) (n : Nat) (xs : List Half) : State :=
  (s.setCore n { s.core n with markT := 2 }).pushM n xs (xs.map fun _ => true)

/-- Takes `k` data entries with their pending marks, the top first, with fills, for an operation that leaves `r`; one that reads
them waits for their values (R294, R295, R300, R348). -/
def State.takeD (s : State) (n k r : Nat) (reads : Bool) (f : List Half → List Bool → State → Res Flow) : Res Flow :=
  (s.needD n k).bind fun _ s =>
    ((s.await n (reads && ((s.core n).marks.take k).any id)).roomD n k r).bind fun _ s =>
      let c := s.core n
      f (c.dstk.take k) (c.marks.take k) (s.setCore n { c with dstk := c.dstk.drop k, marks := c.marks.drop k })

/-- Takes `k` data entries as operands. -/
def State.popD (s : State) (n k r : Nat) (f : List Half → State → Res Flow) : Res Flow :=
  s.takeD n k r true fun xs _ s => f xs s

/-- An operation that moves or copies data entries: it takes `k` and leaves those named by their places from the top, with their
pending marks (R348). -/
def State.moveOp (s : State) (n k : Nat) (ix : List Nat) : State :=
  s.issue n false 1 fun s => s.takeD n k ix.length false fun xs ms s =>
    .ok .next (s.pushM n (ix.map (xs.getD · 0)) (ix.map (ms.getD · false)))

/-- An operation that takes `k` data entries, the top first, and leaves `r`, computed with the core's other registers. -/
def State.stackOp (s : State) (n cyc k r : Nat) (f : List Half → Core → List Half × Core) : State :=
  s.issue n false cyc fun s => s.popD n k r fun xs s =>
    let (ys, c) := f xs (s.core n)
    .ok .next ((s.setCore n c).pushD n ys)

/-- Raises ILLEGAL (R310, R326, R337). -/
def illegal {α : Type} (s : State) : Res α := .exc ⟨cILLEGAL, none, 0, false⟩ s
/-- Raises PRIV (R327). -/
def privExc {α : Type} (s : State) : Res α := .exc ⟨cPRIV, none, 0, false⟩ s

/-! ### RETI -/

/-- STATUS that FRAME1 restores: its writable bits, with SYS as given (R367, R369). -/
def statusFrom (f1 : BitVec 24) (sys : Bool) : Half := statusSys ((f1.setWidth 16) &&& 0x023F) sys

/-- No interrupt is taken while the core steps with STEPIRQ at 0 (R385). -/
def State.stepHolds (s : State) (n : Nat) : Bool := (s.core n).stepping && !s.bit Reg.DBG_CTRL (4 + n)

/-- THE RETURN FROM AN EXCEPTION or interrupt with the frame on the return stack, FRAME1 on top: tail-chaining where a
source outranks the frame's priority, else the restored state (R335, R367, R369, R372, R385). Its cycles are 3 or 5, of which the
operation counts one. -/
def State.reti (s : State) (n : Nat) (late : Bool) : Res Flow :=
  (s.needR n 2).bind fun _ s =>
    let c := s.core n
    let f1 := c.rstk.getD 0 0
    let f0 := c.rstk.getD 1 0
    let rp := f1.toNat / 2 ^ 18 % 16
    let chain := if f1.getLsbD 9 && !s.stepHolds n then s.bestSource n rp else none
    let outer := if s.rpri n < rp then c.active.drop 1 else c.active
    match chain with
    | some i =>
      let p := s.fld (Reg.ICU_SRCCFG n i) 1 3
      let c := { c with status := statusFrom f1 true, active := i :: outer, inEntry := true }
      .ok (.jump (c.vbrh.setWidth 8) (c.vectorPc (0x20 + i)))
        (((((s.setCore n c).unpend n i).showActive n p).clLate n i late).age n 2)
    | none =>
      let c' := { c with
        status := statusFrom f1 (c.epch.getLsbD 8), active := outer, rstk := c.rstk.drop 2,
        epcl := f0.setWidth 16,
        epch := BitVec.ofNat 16 (f0.toNat / 65536 % 256 + f1.toNat / 65536 % 4 * 256) }
      .ok (.jump (c.epch.setWidth 8) c.epcl (c.epch.getLsbD 9)) (((s.setCore n c').showActive n rp).age n 4)

/-! ### Core reset (R107 to R109, R342, R399) -/

/-- Dirty lines are written back and the caches and TLB emptied (R107). -/
def State.cacheClean (s : State) (n : Nat) : State :=
  (s.core n).dcache.foldl (fun s e => s.backLine n e.1 .i) s

/-- Core n is at its reset state (R107, R342, R399, R495). -/
def State.coreReset (s : State) (n : Nat) : State :=
  let s := ((s.drainAll n).cacheClean n).icuReset n
  ((s.poolCoreReset n).setCore n {}).setBit Reg.DBG_STATUS n false

end Sys2Proof.Machine
end

