-- ==== Sys2Proof/Machine/Flags.lean ====
section
/-!
DEFINITION. Flag computations and corner cases of Tsuvo arithmetic: C, V, SAT, DZ, DV (Tables 6-5, 6-6, 6-8).
-/
namespace Sys2Proof.Machine

/-- STATUS with C and V set as given (Table 6-8). -/
def stCV (st : Half) (c v : Bool) : Half :=
  (st &&& 0xFFFC) ||| (if c then 1 else 0) ||| (if v then 2 else 0)

/-- STATUS with SAT set where `b`; it is sticky. -/
def stSat (st : Half) (b : Bool) : Half := if b then st ||| 0x0004 else st

/-- A signed value outside 16 bits. -/
def outside16 (v : Int) : Bool := decide (v < -32768) || decide (32767 < v)

/-- A flag value: 0xFFFF for true, 0x0000 for false (chapter 6). -/
def flag (b : Bool) : Half := if b then 0xFFFF else 0

/-- a + b + carry: the sum, carry out, and signed overflow (ADD, ADC). -/
def addCV (a b : Half) (cin : Bool) : Half × Bool × Bool :=
  let k := if cin then 1 else 0
  (BitVec.ofNat 16 (a.toNat + b.toNat + k), decide (65536 ≤ a.toNat + b.toNat + k), outside16 (a.toInt + b.toInt + k))

/-- a − b − borrow: the difference, 1 for no borrow, and signed overflow (SUB, SBC). -/
def subCV (a b : Half) (borrow : Bool) : Half × Bool × Bool :=
  let k := if borrow then 1 else 0
  (BitVec.ofInt 16 (a.toInt - b.toInt - k), decide (b.toNat + k ≤ a.toNat), outside16 (a.toInt - b.toInt - k))

/-- Signed saturation to 16 bits, and whether it saturates. -/
def sat16 (v : Int) : Half × Bool :=
  if v < -32768 then (0x8000, true) else if 32767 < v then (0x7FFF, true) else (BitVec.ofInt 16 v, false)

/-- The results of DIV and LDIV: quotient, remainder, DZ, DV (R314, Table 6-6). The quotient truncates towards zero and the
remainder takes the sign of the dividend. -/
def divSigned (n : Int) (d : Half) (long : Bool) : Half × Half × Bool × Bool :=
  if d = 0 then (if n < 0 then 0x8000 else 0x7FFF, BitVec.ofInt 16 n, true, false)
  else
    let q := n.tdiv d.toInt
    let r := n.tmod d.toInt
    if outside16 q then (if q < 0 then 0x8000 else 0x7FFF, if long then BitVec.ofInt 16 r else 0, false, true)
    else (BitVec.ofInt 16 q, BitVec.ofInt 16 r, false, false)

/-- The results of UDIV: quotient, remainder, DZ (R314, Table 6-6). -/
def divUnsigned (n d : Half) : Half × Half × Bool :=
  if d = 0 then (0xFFFF, n, true) else (BitVec.ofNat 16 (n.toNat / d.toNat), BitVec.ofNat 16 (n.toNat % d.toNat), false)

/-- MAS: MA rounded and shifted right by `n`, saturated (R321). -/
def masResult (ma : BitVec 40) (n : Nat) : Half × Bool :=
  let n := min n 39
  let v := if n = 0 then ma.toInt else (ma.toInt + 2 ^ (n - 1)) / 2 ^ n
  sat16 v

end Sys2Proof.Machine
end

