-- ==== Sys2Proof/Machine/Tsuvo.lean ====
section
/-!
DEFINITION. Chapter 6: the meaning of every operation that a Tsuvo core issues (Tables 6-4 and 6-5). A stack effect is
written with the top rightmost; an operand list has the top first.
-/
namespace Sys2Proof.Machine

open Host

/-- R305, R306: a literal word pushes its value, sign-extended. -/
def execLiteral (n : Fin 4) (v : BitVec 14) (s : State) : Outcome State Fault Refusal :=
  done (s.issue n true 1 fun s => (s.roomD n 0 1).bind fun _ s => .ok .next (s.pushD n [v.signExtend 16]))

/-- Target of a branch word: PC + 2 + 2 × offset, within the bank (R303, R308). -/
def Core.branchTo (c : Core) (off : BitVec 12) : Flow := .jump c.cbr (c.pc + 2 + 2 * off.signExtend 16)

/-- A taken branch takes one more cycle (R308). -/
def State.taken (s : State) (n : Nat) (off : BitVec 12) : Res Flow := .ok ((s.core n).branchTo off) (s.age n 1)

/-- R308, BR: always taken. -/
def execBr (n : Fin 4) (off : BitVec 12) (s : State) : Outcome State Fault Refusal :=
  done (s.issue n true 1 fun s => s.taken n off)

/-- R308, BZ ( x -- ): taken when x = 0. -/
def execBz (n : Fin 4) (off : BitVec 12) (s : State) : Outcome State Fault Refusal :=
  done (s.issue n true 1 fun s => s.popD n 1 0 fun xs s =>
    if xs.getD 0 0 = 0 then s.taken n off else .ok .next s)

/-- R308, BNZ ( x -- ): taken when x ≠ 0. -/
def execBnz (n : Fin 4) (off : BitVec 12) (s : State) : Outcome State Fault Refusal :=
  done (s.issue n true 1 fun s => s.popD n 1 0 fun xs s =>
    if xs.getD 0 0 = 0 then .ok .next s else s.taken n off)

/-- R308, LOOP: bits 15:0 of the return-stack top minus 1; taken while the result is non-zero. -/
def execLoop (n : Fin 4) (off : BitVec 12) (s : State) : Outcome State Fault Refusal :=
  done (s.issue n true 1 fun s => (s.needR n 1).bind fun _ s =>
    let c := s.core n
    let e := c.rstk.getD 0 0
    let v : Half := e.setWidth 16 - 1
    if v = 0 then .ok .next (s.setCore n { c with rstk := c.rstk.drop 1 })
    else (s.setCore n { c with rstk := ((e &&& 0xFF0000) ||| v.setWidth 24) :: c.rstk.drop 1 }).taken n off)

/-- The return-stack entry of a call: the offset of the next word with bank CBR (R309, R315). -/
def Core.retEntry (c : Core) : BitVec 24 := c.cbr ++ c.nextWord

/-- R309: a call word; the target is 4 × bits 13:0 in bank CBR. -/
def execCall (n : Fin 4) (target : BitVec 14) (s : State) : Outcome State Fault Refusal :=
  done (s.issue n true 2 fun s => (s.pushR n (s.core n).retEntry).bind fun _ s =>
    .ok (.jump (s.core n).cbr (target ++ (0 : BitVec 2))) s)

/-- R310, 0x00: NOP. -/
def execNopOperation (n : Fin 4) (s : State) : Outcome State Fault Refusal :=
  done (s.issue n false 1 fun s => .ok .next s)

/-- R310, 0x01: DUP ( a -- a a ). -/
def execDup (n : Fin 4) (s : State) : Outcome State Fault Refusal :=
  done (s.moveOp n 1 [0, 0])

/-- R310, 0x02: DROP ( a -- ). -/
def execDrop (n : Fin 4) (s : State) : Outcome State Fault Refusal :=
  done (s.moveOp n 1 [])

/-- R310, 0x03: SWAP ( a b -- b a ). -/
def execSwap (n : Fin 4) (s : State) : Outcome State Fault Refusal :=
  done (s.moveOp n 2 [1, 0])

/-- R310, 0x04: OVER ( a b -- a b a ). -/
def execOverWord (n : Fin 4) (s : State) : Outcome State Fault Refusal :=
  done (s.moveOp n 2 [1, 0, 1])

/-- R310, 0x05: ROT ( a b c -- b c a ). -/
def execRot (n : Fin 4) (s : State) : Outcome State Fault Refusal :=
  done (s.moveOp n 3 [2, 0, 1])

/-- R310, 0x06: NIP ( a b -- b ). -/
def execNip (n : Fin 4) (s : State) : Outcome State Fault Refusal :=
  done (s.moveOp n 2 [0])

/-- R310, 0x07: TUCK ( a b -- b a b ). -/
def execTuck (n : Fin 4) (s : State) : Outcome State Fault Refusal :=
  done (s.moveOp n 2 [0, 1, 0])

/-- R310, 0x08: 2DUP ( a b -- a b a b ). -/
def execTwoDup (n : Fin 4) (s : State) : Outcome State Fault Refusal :=
  done (s.moveOp n 2 [0, 1, 0, 1])

/-- R310, 0x09: 2DROP ( a b -- ). -/
def execTwoDrop (n : Fin 4) (s : State) : Outcome State Fault Refusal :=
  done (s.moveOp n 2 [])

/-- R310, R348, 0x0A: PICK ( xn … x0 n -- xn … x0 xn ); n above 6 raises ILLEGAL. -/
def execPick (n : Fin 4) (s : State) : Outcome State Fault Refusal :=
  done (s.issue n false 1 fun s => (s.needD n 1).bind fun _ s =>
    let s := s.await n ((s.core n).marks.getD 0 false)
    let i := ((s.core n).dstk.getD 0 0).toNat
    if 6 < i then illegal s
    else (s.needD n (i + 2)).bind fun _ s =>
      let c := s.core n
      let t := s.setCore n { c with dstk := c.dstk.drop 1, marks := c.marks.drop 1 }
      .ok .next (t.pushM n [c.dstk.getD (i + 1) 0] [c.marks.getD (i + 1) false]))

/-- R310, 0x0B: >R ( a -- ) R: ( -- a ), with bank 0x00 (R297). -/
def execToR (n : Fin 4) (s : State) : Outcome State Fault Refusal :=
  done (s.issue n false 1 fun s => s.popD n 1 0 fun xs s =>
    (s.pushR n ((xs.getD 0 0).setWidth 24)).bind fun _ s => .ok .next s)

/-- Takes `k` entries off the return stack and pushes one data entry of the top (R310). -/
def State.fromR (s : State) (n k : Nat) : Res Flow :=
  (s.needR n 1).bind fun _ s => (s.roomD n 0 1).bind fun _ s =>
    let c := s.core n
    .ok .next ((s.setCore n { c with rstk := c.rstk.drop k }).pushD n [(c.rstk.getD 0 0).setWidth 16])

/-- R310, 0x0C: R> ( -- a ) R: ( a -- ). -/
def execRFrom (n : Fin 4) (s : State) : Outcome State Fault Refusal :=
  done (s.issue n false 1 fun s => s.fromR n 1)

/-- R310, 0x0D: R@ ( -- a ). -/
def execRFetch (n : Fin 4) (s : State) : Outcome State Fault Refusal :=
  done (s.issue n false 1 fun s => s.fromR n 0)

/-- R310, 0x0E: RDROP R: ( a -- ). -/
def execRdrop (n : Fin 4) (s : State) : Outcome State Fault Refusal :=
  done (s.issue n false 1 fun s => (s.needR n 1).bind fun _ s =>
    .ok .next (s.setCore n { s.core n with rstk := (s.core n).rstk.drop 1 }))

/-- R310, 0x0F: -ROT ( a b c -- c a b ). -/
def execMinusRot (n : Fin 4) (s : State) : Outcome State Fault Refusal :=
  done (s.moveOp n 3 [1, 2, 0])

/-- R310, 0x10: ADD ( a b -- a+b ), sets C and V. -/
def execAdd (n : Fin 4) (s : State) : Outcome State Fault Refusal :=
  done (s.stackOp n 1 2 1 fun xs c => let (v, cy, ov) := addCV (xs.getD 1 0) (xs.getD 0 0) false; ([v], { c with status := stCV c.status cy ov }))

/-- R310, 0x11: SUB ( a b -- a−b ), sets C (1 for no borrow) and V. -/
def execSub (n : Fin 4) (s : State) : Outcome State Fault Refusal :=
  done (s.stackOp n 1 2 1 fun xs c => let (v, cy, ov) := subCV (xs.getD 1 0) (xs.getD 0 0) false; ([v], { c with status := stCV c.status cy ov }))

/-- R310, 0x12: ADC ( a b -- a+b+C ), sets C and V. -/
def execAdc (n : Fin 4) (s : State) : Outcome State Fault Refusal :=
  done (s.stackOp n 1 2 1 fun xs c => let (v, cy, ov) := addCV (xs.getD 1 0) (xs.getD 0 0) (c.status.getLsbD 0); ([v], { c with status := stCV c.status cy ov }))

/-- R310, 0x13: SBC ( a b -- a−b−(1−C) ), sets C and V. -/
def execSbc (n : Fin 4) (s : State) : Outcome State Fault Refusal :=
  done (s.stackOp n 1 2 1 fun xs c => let (v, cy, ov) := subCV (xs.getD 1 0) (xs.getD 0 0) (!c.status.getLsbD 0); ([v], { c with status := stCV c.status cy ov }))

/-- R310, 0x14: ADDS ( a b -- s ), signed saturating. -/
def execAdds (n : Fin 4) (s : State) : Outcome State Fault Refusal :=
  done (s.stackOp n 1 2 1 fun xs c => let (v, o) := sat16 ((xs.getD 1 0).toInt + (xs.getD 0 0).toInt); ([v], { c with status := stSat c.status o }))

/-- R310, 0x15: SUBS ( a b -- s ), signed saturating. -/
def execSubs (n : Fin 4) (s : State) : Outcome State Fault Refusal :=
  done (s.stackOp n 1 2 1 fun xs c => let (v, o) := sat16 ((xs.getD 1 0).toInt - (xs.getD 0 0).toInt); ([v], { c with status := stSat c.status o }))

/-- R310, 0x16: NEG ( a -- −a ). -/
def execNeg (n : Fin 4) (s : State) : Outcome State Fault Refusal :=
  done (s.stackOp n 1 1 1 fun xs c => let a := xs.getD 0 0; ([-a], c))

/-- R310, 0x17: ABS ( a -- |a| ); 0x8000 gives 0x7FFF and sets SAT. -/
def execAbs (n : Fin 4) (s : State) : Outcome State Fault Refusal :=
  done (s.stackOp n 1 1 1 fun xs c => let (v, o) := sat16 ((xs.getD 0 0).toInt.natAbs : Int); ([v], { c with status := stSat c.status o }))

/-- R310, 0x18: AND. -/
def execAnd (n : Fin 4) (s : State) : Outcome State Fault Refusal :=
  done (s.stackOp n 1 2 1 fun xs c => let a := xs.getD 1 0; let b := xs.getD 0 0; ([a &&& b], c))

/-- R310, 0x19: OR. -/
def execOr (n : Fin 4) (s : State) : Outcome State Fault Refusal :=
  done (s.stackOp n 1 2 1 fun xs c => let a := xs.getD 1 0; let b := xs.getD 0 0; ([a ||| b], c))

/-- R310, 0x1A: XOR. -/
def execXor (n : Fin 4) (s : State) : Outcome State Fault Refusal :=
  done (s.stackOp n 1 2 1 fun xs c => let a := xs.getD 1 0; let b := xs.getD 0 0; ([a ^^^ b], c))

/-- R310, 0x1B: INV ( a -- ~a ). -/
def execInv (n : Fin 4) (s : State) : Outcome State Fault Refusal :=
  done (s.stackOp n 1 1 1 fun xs c => let a := xs.getD 0 0; ([~~~a], c))

/-- R310, 0x1C: 1+. -/
def execOnePlus (n : Fin 4) (s : State) : Outcome State Fault Refusal :=
  done (s.stackOp n 1 1 1 fun xs c => let a := xs.getD 0 0; ([a + 1], c))

/-- R310, 0x1D: 1-. -/
def execOneMinus (n : Fin 4) (s : State) : Outcome State Fault Refusal :=
  done (s.stackOp n 1 1 1 fun xs c => let a := xs.getD 0 0; ([a - 1], c))

/-- R310, 0x1E: 2*. -/
def execTwoStar (n : Fin 4) (s : State) : Outcome State Fault Refusal :=
  done (s.stackOp n 1 1 1 fun xs c => let a := xs.getD 0 0; ([a <<< 1], c))

/-- R310, 0x1F: 2/, arithmetic. -/
def execTwoSlash (n : Fin 4) (s : State) : Outcome State Fault Refusal :=
  done (s.stackOp n 1 1 1 fun xs c => let a := xs.getD 0 0; ([a.sshiftRight 1], c))

/-- R310, 0x20: SHL ( a n -- a<<n ); n of 16 or more gives 0. -/
def execShl (n : Fin 4) (s : State) : Outcome State Fault Refusal :=
  done (s.stackOp n 1 2 1 fun xs c => let a := xs.getD 1 0; let k := xs.getD 0 0; ([a <<< k.toNat], c))

/-- R310, 0x21: SHR ( a n -- a>>n ), logical; n of 16 or more gives 0. -/
def execShr (n : Fin 4) (s : State) : Outcome State Fault Refusal :=
  done (s.stackOp n 1 2 1 fun xs c => let a := xs.getD 1 0; let k := xs.getD 0 0; ([a >>> k.toNat], c))

/-- R310, 0x22: ASR ( a n -- a>>n ), arithmetic; n of 16 or more gives 16 copies of bit 15. -/
def execAsr (n : Fin 4) (s : State) : Outcome State Fault Refusal :=
  done (s.stackOp n 1 2 1 fun xs c => let a := xs.getD 1 0; let k := xs.getD 0 0; ([a.sshiftRight k.toNat], c))

/-- R310, 0x23: ROL ( a n -- r ), by n mod 16. -/
def execRol (n : Fin 4) (s : State) : Outcome State Fault Refusal :=
  done (s.stackOp n 1 2 1 fun xs c => let a := xs.getD 1 0; let k := xs.getD 0 0; ([a.rotateLeft (k.toNat % 16)], c))

/-- R310, 0x24: MIN, signed. -/
def execMin (n : Fin 4) (s : State) : Outcome State Fault Refusal :=
  done (s.stackOp n 1 2 1 fun xs c => let a := xs.getD 1 0; let b := xs.getD 0 0; ([if a.slt b then a else b], c))

/-- R310, 0x25: MAX, signed. -/
def execMax (n : Fin 4) (s : State) : Outcome State Fault Refusal :=
  done (s.stackOp n 1 2 1 fun xs c => let a := xs.getD 1 0; let b := xs.getD 0 0; ([if a.slt b then b else a], c))

/-- The signed minimum and maximum. -/
def smin (a b : Half) : Half := if a.slt b then a else b
def smax (a b : Half) : Half := if a.slt b then b else a

/-- R310, 0x26: CLIP ( x lo hi -- y ), y = MIN(MAX(x, lo), hi), signed. -/
def execClip (n : Fin 4) (s : State) : Outcome State Fault Refusal :=
  done (s.stackOp n 1 3 1 fun xs c => let x := xs.getD 2 0; let lo := xs.getD 1 0; let hi := xs.getD 0 0; ([smin (smax x lo) hi], c))

/-- R310, 0x27: EXT ( hi lo -- (hi<<14) | (lo & 0x3FFF) ). -/
def execExt (n : Fin 4) (s : State) : Outcome State Fault Refusal :=
  done (s.stackOp n 1 2 1 fun xs c => let hi := xs.getD 1 0; let lo := xs.getD 0 0; ([(hi <<< 14) ||| (lo &&& 0x3FFF)], c))

/-- R310, 0x28: =. -/
def execEqual (n : Fin 4) (s : State) : Outcome State Fault Refusal :=
  done (s.stackOp n 1 2 1 fun xs c => let a := xs.getD 1 0; let b := xs.getD 0 0; ([flag (a == b)], c))

/-- R310, 0x29: <>. -/
def execNotEqual (n : Fin 4) (s : State) : Outcome State Fault Refusal :=
  done (s.stackOp n 1 2 1 fun xs c => let a := xs.getD 1 0; let b := xs.getD 0 0; ([flag (a != b)], c))

/-- R310, 0x2A: <, signed. -/
def execLess (n : Fin 4) (s : State) : Outcome State Fault Refusal :=
  done (s.stackOp n 1 2 1 fun xs c => let a := xs.getD 1 0; let b := xs.getD 0 0; ([flag (a.slt b)], c))

/-- R310, 0x2B: >, signed. -/
def execGreater (n : Fin 4) (s : State) : Outcome State Fault Refusal :=
  done (s.stackOp n 1 2 1 fun xs c => let a := xs.getD 1 0; let b := xs.getD 0 0; ([flag (b.slt a)], c))

/-- R310, 0x2C: U<. -/
def execULess (n : Fin 4) (s : State) : Outcome State Fault Refusal :=
  done (s.stackOp n 1 2 1 fun xs c => let a := xs.getD 1 0; let b := xs.getD 0 0; ([flag (a.ult b)], c))

/-- R310, 0x2D: U>. -/
def execUGreater (n : Fin 4) (s : State) : Outcome State Fault Refusal :=
  done (s.stackOp n 1 2 1 fun xs c => let a := xs.getD 1 0; let b := xs.getD 0 0; ([flag (b.ult a)], c))

/-- R310, 0x2E: 0=. -/
def execZeroEqual (n : Fin 4) (s : State) : Outcome State Fault Refusal :=
  done (s.stackOp n 1 1 1 fun xs c => let a := xs.getD 0 0; ([flag (a == 0)], c))

/-- R310, 0x2F: 0<. -/
def execZeroLess (n : Fin 4) (s : State) : Outcome State Fault Refusal :=
  done (s.stackOp n 1 1 1 fun xs c => let a := xs.getD 0 0; ([flag (a.slt 0)], c))

/-- Starts an operation of the multiplier or accumulator: it lands at the end of the third cycle after (R316). -/
def Core.mulStart (c : Core) (op : MulOp) : Core := { c with mulq := c.mulq ++ [(3, op)] }

/-- The value of MA onto which a MAC or MSC accumulates: the result of the operation before it, which may be in flight, or MA
(R318, R334). -/
def Core.maBefore (c : Core) : BitVec 40 :=
  c.mulq.foldl (fun m e => match e.2 with | .ma v _ => v | .product _ => m) c.ma

/-- Starts an accumulation of a product onto MA; a result outside 40 bits wraps and sets MAV (R322). -/
def Core.macStart (c : Core) (p : Int) : Core :=
  let t := c.maBefore.toInt + p
  c.mulStart (.ma (BitVec.ofInt 40 t) (decide (t < -(2 ^ 39)) || decide (2 ^ 39 ≤ t)))

/-- Starts a division: it cancels one in flight and lands 18 cycles later; DZ and DV are sticky (R319, R320, Table 6-6). -/
def Core.divStart (c : Core) (q r : Half) (dz dv : Bool) : Core :=
  { c with div := some (18, q, r),
           status := c.status ||| (if dz then 0x0010 else 0) ||| (if dv then 0x0020 else 0) }

/-- R310, 0x30: MUL ( a b -- ), signed product to MH:ML. -/
def execMul (n : Fin 4) (s : State) : Outcome State Fault Refusal :=
  done (s.stackOp n 1 2 0 fun xs c => ([], c.mulStart (.product (BitVec.ofInt 32 ((xs.getD 1 0).toInt * (xs.getD 0 0).toInt)))))

/-- R310, 0x31: UMUL ( a b -- ), unsigned product to MH:ML. -/
def execUmul (n : Fin 4) (s : State) : Outcome State Fault Refusal :=
  done (s.stackOp n 1 2 0 fun xs c => ([], c.mulStart (.product (BitVec.ofNat 32 ((xs.getD 1 0).toNat * (xs.getD 0 0).toNat)))))

/-- R310, 0x32: MAC ( a b -- ), MA += a×b, signed. -/
def execMac (n : Fin 4) (s : State) : Outcome State Fault Refusal :=
  done (s.stackOp n 1 2 0 fun xs c => ([], c.macStart ((xs.getD 1 0).toInt * (xs.getD 0 0).toInt)))

/-- R310, 0x33: MSC ( a b -- ), MA −= a×b, signed. -/
def execMsc (n : Fin 4) (s : State) : Outcome State Fault Refusal :=
  done (s.stackOp n 1 2 0 fun xs c => ([], c.macStart (-((xs.getD 1 0).toInt * (xs.getD 0 0).toInt))))

/-- R310, 0x34: MACZ ( a b -- ), MA = a×b sign-extended. -/
def execMacz (n : Fin 4) (s : State) : Outcome State Fault Refusal :=
  done (s.stackOp n 1 2 0 fun xs c => ([], c.mulStart (.ma (BitVec.ofInt 40 ((xs.getD 1 0).toInt * (xs.getD 0 0).toInt)) false)))

/-- R310, 0x35: DIV ( n d -- ), signed. -/
def execDiv (n : Fin 4) (s : State) : Outcome State Fault Refusal :=
  done (s.stackOp n 1 2 0 fun xs c => let (q, r, dz, dv) := divSigned (xs.getD 1 0).toInt (xs.getD 0 0) false; ([], c.divStart q r dz dv))

/-- R310, 0x36: UDIV ( n d -- ), unsigned. -/
def execUdiv (n : Fin 4) (s : State) : Outcome State Fault Refusal :=
  done (s.stackOp n 1 2 0 fun xs c => let (q, r, dz) := divUnsigned (xs.getD 1 0) (xs.getD 0 0); ([], c.divStart q r dz false))

/-- R310, 0x37: LDIV ( lo hi d -- ), signed 32 ÷ 16. -/
def execLdiv (n : Fin 4) (s : State) : Outcome State Fault Refusal :=
  done (s.stackOp n 1 3 0 fun xs c => let (q, r, dz, dv) := divSigned ((xs.getD 1 0 ++ xs.getD 2 0 : BitVec 32)).toInt (xs.getD 0 0) true; ([], c.divStart q r dz dv))

/-- R316, R318: the CORE cycle at whose end the oldest multiplier operation in flight lands, the third after its issue; before that
cycle nothing lands (DEDUCED, log entry 160). -/
def execMultiplierResult (n : Fin 4) (s : State) : Outcome State Fault Refusal :=
  match (s.core n).mulq with
  | (t, _) :: _ => done (if s.live && decide (t ≤ 1) then s.age n 1 else s)
  | [] => done s

/-- R319: the CORE cycle at whose end the division in flight lands, the eighteenth after its issue (DEDUCED, log entry 160). -/
def execDividerResult (n : Fin 4) (s : State) : Outcome State Fault Refusal :=
  match (s.core n).div with
  | some (t, _) => done (if s.live && decide (t ≤ 1) then s.age n 1 else s)
  | none => done s

/-- R310, 0x38: ML@ ( -- x ): the value ML holds now (R317). -/
def execMlFetch (n : Fin 4) (s : State) : Outcome State Fault Refusal :=
  done (s.stackOp n 1 0 1 fun _ c => ([c.ml], c))

/-- R310, 0x39: MH@ ( -- x ). -/
def execMhFetch (n : Fin 4) (s : State) : Outcome State Fault Refusal :=
  done (s.stackOp n 1 0 1 fun _ c => ([c.mh], c))

/-- R310, 0x3A: DQ@ ( -- x ). -/
def execDqFetch (n : Fin 4) (s : State) : Outcome State Fault Refusal :=
  done (s.stackOp n 1 0 1 fun _ c => ([c.dq], c))

/-- R310, 0x3B: DM@ ( -- x ). -/
def execDmFetch (n : Fin 4) (s : State) : Outcome State Fault Refusal :=
  done (s.stackOp n 1 0 1 fun _ c => ([c.dm], c))

/-- R310, 0x3C: MAS ( n -- x ): rounded, saturated MA >> n (R321). -/
def execMas (n : Fin 4) (s : State) : Outcome State Fault Refusal :=
  done (s.stackOp n 1 1 1 fun xs c => let (v, o) := masResult c.ma (xs.getD 0 0).toNat; ([v], { c with status := stSat c.status o }))

/-- R310, 0x3D: MACLR ( -- ): MA = 0 after 3 cycles. -/
def execMaclr (n : Fin 4) (s : State) : Outcome State Fault Refusal :=
  done (s.stackOp n 1 0 0 fun _ c => ([], c.mulStart (.ma 0 false)))

/-- Virtual address of a short-address operand (Table 6-1). -/
def State.nearVa (s : State) (n : Nat) (a : Half) : Nat := vaOf (s.core n).dbr.toNat a.toNat
/-- Virtual address of an address and bank operand; bits 15:8 of the bank are ignored (R302). -/
def farVa (a bank : Half) : Nat := vaOf (bank.toNat % 256) a.toNat

/-- A load of one 16-bit word to the stack. -/
def State.loadHalf (s : State) (n va : Nat) (dev : BusRead) : Res Flow :=
  (s.load n va 2 dev).bind fun bs s => .ok .next (s.pushLate n [bytesHalf bs])
/-- A load of 32 bits to the stack, the high half on top. -/
def State.loadPair (s : State) (n va : Nat) (dev : BusRead) : Res Flow :=
  (s.load n va 4 dev).bind fun bs s => .ok .next (s.pushLate n [bytesHalf (bs.drop 2), bytesHalf bs])
/-- A store that ends its operation. -/
def State.storeOp (s : State) (n va : Nat) (bs : List Byte) : Res Flow :=
  (s.store n va bs).bind fun _ s => .ok .next s

/-- R310, 0x40: @ ( a -- x ), 16-bit load. -/
def execFetch (n : Fin 4) (dev : BusRead) (s : State) : Outcome State Fault Refusal :=
  done (s.issue n false 1 fun s => s.popD n 1 1 fun xs s =>
    s.loadHalf n (s.nearVa n (xs.getD 0 0)) dev)

/-- R310, 0x41: ! ( x a -- ), 16-bit store. -/
def execStore (n : Fin 4) (s : State) : Outcome State Fault Refusal :=
  done (s.issue n false 1 fun s => s.popD n 2 0 fun xs s =>
    s.storeOp n (s.nearVa n (xs.getD 0 0)) (halfBytes (xs.getD 1 0)))

/-- R310, 0x42: C@ ( a -- b ), byte load, zero-extended. -/
def execCFetch (n : Fin 4) (dev : BusRead) (s : State) : Outcome State Fault Refusal :=
  done (s.issue n false 1 fun s => s.popD n 1 1 fun xs s =>
    (s.load n (s.nearVa n (xs.getD 0 0)) 1 dev).bind fun bs s => .ok .next (s.pushLate n [(bs.getD 0 0).setWidth 16]))

/-- R310, 0x43: C! ( b a -- ), stores bits 7:0. -/
def execCStore (n : Fin 4) (s : State) : Outcome State Fault Refusal :=
  done (s.issue n false 1 fun s => s.popD n 2 0 fun xs s =>
    s.storeOp n (s.nearVa n (xs.getD 0 0)) [(xs.getD 1 0).setWidth 8])

/-- R310, 0x44: 2@ ( a -- lo hi ), 32-bit load. -/
def execTwoFetch (n : Fin 4) (dev : BusRead) (s : State) : Outcome State Fault Refusal :=
  done (s.issue n false 1 fun s => s.popD n 1 2 fun xs s =>
    s.loadPair n (s.nearVa n (xs.getD 0 0)) dev)

/-- R310, 0x45: 2! ( lo hi a -- ), 32-bit store. -/
def execTwoStore (n : Fin 4) (s : State) : Outcome State Fault Refusal :=
  done (s.issue n false 1 fun s => s.popD n 3 0 fun xs s =>
    s.storeOp n (s.nearVa n (xs.getD 0 0)) (halfBytes (xs.getD 2 0) ++ halfBytes (xs.getD 1 0)))

/-- R310, 0x46: F@ ( a bank -- x ). -/
def execFFetch (n : Fin 4) (dev : BusRead) (s : State) : Outcome State Fault Refusal :=
  done (s.issue n false 1 fun s => s.popD n 2 1 fun xs s =>
    s.loadHalf n (farVa (xs.getD 1 0) (xs.getD 0 0)) dev)

/-- R310, 0x47: F! ( x a bank -- ). -/
def execFStore (n : Fin 4) (s : State) : Outcome State Fault Refusal :=
  done (s.issue n false 1 fun s => s.popD n 3 0 fun xs s =>
    s.storeOp n (farVa (xs.getD 1 0) (xs.getD 0 0)) (halfBytes (xs.getD 2 0)))

/-- R310, 0x48: F2@ ( a bank -- lo hi ). -/
def execF2Fetch (n : Fin 4) (dev : BusRead) (s : State) : Outcome State Fault Refusal :=
  done (s.issue n false 1 fun s => s.popD n 2 2 fun xs s =>
    s.loadPair n (farVa (xs.getD 1 0) (xs.getD 0 0)) dev)

/-- R310, 0x49: F2! ( lo hi a bank -- ). -/
def execF2Store (n : Fin 4) (s : State) : Outcome State Fault Refusal :=
  done (s.issue n false 1 fun s => s.popD n 4 0 fun xs s =>
    s.storeOp n (farVa (xs.getD 1 0) (xs.getD 0 0)) (halfBytes (xs.getD 3 0) ++ halfBytes (xs.getD 2 0)))

/-- R310, 0x4A: +! ( n a -- ): load, add, store; not atomic. -/
def execPlusStore (n : Fin 4) (dev : BusRead) (s : State) : Outcome State Fault Refusal :=
  done (s.issue n false 2 fun s => s.popD n 2 0 fun xs s =>
    let va := s.nearVa n (xs.getD 0 0)
    (s.load n va 2 dev).bind fun bs s => s.storeOp n va (halfBytes (bytesHalf bs + (xs.getD 1 0))))

/-- R310, 0x4B: XCHG ( x a -- old ), atomic at the home. -/
def execXchg (n : Fin 4) (s : State) : Outcome State Fault Refusal :=
  done (s.issue n false 1 fun s => s.popD n 2 1 fun xs s =>
    (s.atomic n .xchg (s.nearVa n (xs.getD 0 0)) (xs.getD 1 0) 0).bind fun o s => .ok .next (s.pushLate n [o]))

/-- R310, 0x4C: CAS ( new exp a -- old ), stores new only when old = exp. -/
def execCas (n : Fin 4) (s : State) : Outcome State Fault Refusal :=
  done (s.issue n false 1 fun s => s.popD n 3 1 fun xs s =>
    (s.atomic n .cas (s.nearVa n (xs.getD 0 0)) (xs.getD 2 0) (xs.getD 1 0)).bind fun o s => .ok .next (s.pushLate n [o]))

/-- R310, 0x4D: FADD ( n a -- old ), atomic add. -/
def execFadd (n : Fin 4) (s : State) : Outcome State Fault Refusal :=
  done (s.issue n false 1 fun s => s.popD n 2 1 fun xs s =>
    (s.atomic n .fadd (s.nearVa n (xs.getD 0 0)) (xs.getD 1 0) 0).bind fun o s => .ok .next (s.pushLate n [o]))

/-- R310, R352, 0x4E: FENCE waits until every earlier store and queue push of this core is complete; an atomic completes in its
own step. -/
def execFence (n : Fin 4) (s : State) : Outcome State Fault Refusal :=
  done (s.issue n false 1 fun s =>
    let s := s.drainAll n
    let c := s.core n
    .ok .next (if s.pushesDone n then s else s.setCore n { c with waiting := .fence c.pc c.slot }))

/-- Translates the address of a cache operation: an unmapped page has no effect, an access fault of the translation is raised
(R408, R410). A bank that the bare map lacks is an unmapped page (DEDUCED, log entry 115). -/
def State.cacheXl (s : State) (n va : Nat) : Res (Option Xl) :=
  match s.xlate n va .cacheOp with
  | .ok x s' => .ok (some x) s'
  | .exc e s' => if e.cause = cACCESS ∧ (s.core n).ten then .exc e s' else .ok none s

/-- A cache operation ( a bank -- ) on the line that holds the address. -/
def State.cacheOp (s : State) (n : Nat) (f : State → Nat → State) : Res Flow :=
  s.popD n 2 0 fun xs s =>
    (s.cacheXl n (farVa (xs.getD 1 0) (xs.getD 0 0))).bind fun x s =>
      match x with
      | some x => .ok .next (f (s.drainAll n) (x.pa / 32))
      | none => .ok .next s

/-- R310, R430, 0x4F: DCWB writes back the line that holds the address. -/
def execDcwb (n : Fin 4) (s : State) : Outcome State Fault Refusal :=
  done (s.issue n false 2 fun s => s.cacheOp n fun s l => s.backLine n l .e)

/-- R310, R327, R430, 0x50: DCINV discards the line, dirty or not; system mode. -/
def execDcinv (n : Fin 4) (s : State) : Outcome State Fault Refusal :=
  done (s.issue n false 2 fun s =>
    if (s.core n).sys then s.cacheOp n fun s l => s.setLine n l {} else privExc s)

/-- R310, 0x51: ICINV invalidates the I-cache line that holds the address. -/
def execIcinv (n : Fin 4) (s : State) : Outcome State Fault Refusal :=
  done (s.issue n false 2 fun s => s.cacheOp n fun s l =>
    s.setCore n { s.core n with icache := tset ([], 0) (s.core n).icache l ([], 0) })

/-- R310, R404, 0x52: ISYNC; the translation settings of XLT take effect. -/
def execIsync (n : Fin 4) (s : State) : Outcome State Fault Refusal :=
  done (s.issue n false 3 fun s => .ok .next (s.setCore n { s.core n with
    ten := s.bit (Reg.XLT_XCTRL n) 0, dir := (s.rd (Reg.XLT_DIRBASE n)).toNat }))

/-- The full flag that core n sees: pushes on their way through the write buffer have their places (R324, R346, R474). -/
def State.pushFull (s : State) (n : Nat) : Bool × State :=
  let held := (s.core n).wbuf.filter (fun e => match e with | .push _ => true | .store _ => false)
  s.portFlag n held.length

/-- Takes a queue push of core n into the write buffer; false where the full flag is set, which counts (R324, R346, R475). -/
def State.offer (s : State) (n : Nat) (w : PoolWord) : Bool × State :=
  let (full, s) := s.pushFull n
  if full then (false, s.tally (Reg.POOL_FULLTALLY n)) else (true, s.buffer n (.push w))

/-- R310, R324, R326, 0x53: QPUSH ( data tag q -- f ). -/
def execQpush (n : Fin 4) (s : State) : Outcome State Fault Refusal :=
  done (s.issue n false 1 fun s => s.popD n 3 1 fun xs s =>
    let q := (xs.getD 0 0).toNat
    let tag := (xs.getD 1 0).toNat
    if 63 < q ∨ 63 < tag then illegal s
    else
      let (ok, s) := s.offer n ⟨q, tag, xs.getD 2 0⟩
      .ok .next (s.pushD n [flag ok]))

/-- R310, R325, R326, R478, 0x54: QPOP ( q -- data meta ) sends its request behind the core's pushes and waits for the reply. -/
def execQpop (n : Fin 4) (s : State) : Outcome State Fault Refusal :=
  done (s.issue n false 1 fun s => s.popD n 1 2 fun xs s =>
    let q := (xs.getD 0 0).toNat
    if 63 < q then illegal s
    else
      let s := (s.drainAll n).popRequest n q
      .ok .next (s.setCore n { s.core n with waiting := .qpop q }))

/-- R325, R479: the reply of a granted pop reaches the core, which pushes data and meta. -/
def execQpopReply (n : Fin 4) (s : State) : Outcome State Fault Refusal :=
  match (s.pport n).rep with
  | some w =>
    if (s.core n).popWaits && s.live then
      let s := s.setPport n { s.pport n with rep := none }
      let s := s.pushD n [(w >>> 16).setWidth 16, w.setWidth 16]
      done (s.setCore n ({ s.core n with waiting := .none }).endStep)
    else done s
  | none => done s

/-- FLUSH of the data stack: groups of 4, then one at a time (R301). -/
def State.flushD (s : State) (n : Nat) : Nat → Res Unit
  | 0 => .ok () s
  | k + 1 =>
    let l := (s.core n).dstk.length
    if l = 0 then .ok () s
    else (s.spillD n (if 4 ≤ l then 4 else 1)).bind fun _ s => s.flushD n k

/-- FLUSH of the return stack: groups of 8, then one at a time (R301). -/
def State.flushR (s : State) (n : Nat) : Nat → Res Unit
  | 0 => .ok () s
  | k + 1 =>
    let l := (s.core n).rstk.length
    if l = 0 then .ok () s
    else (s.spillR n (if 8 ≤ l then 8 else 1)).bind fun _ s => s.flushR n k

/-- R301, 0x55: FLUSH writes every register entry of both stacks to memory. -/
def execFlush (n : Fin 4) (s : State) : Outcome State Fault Refusal :=
  done (s.issue n false 1 fun s => (s.flushD n 8).bind fun _ s => (s.flushR n 16).bind fun _ s => .ok .next s)

/-- R310, 0x60: RET restores CBR and PC from the return-stack entry. -/
def execRet (n : Fin 4) (s : State) : Outcome State Fault Refusal :=
  done (s.issue n false 3 fun s => (s.needR n 1).bind fun _ s =>
    let c := s.core n
    let e := c.rstk.getD 0 0
    .ok (.jump ((e >>> 16).setWidth 8) (e.setWidth 16)) (s.setCore n { c with rstk := c.rstk.drop 1 }))

/-- A transfer to an offset of a bank, with the return address pushed for a call; an odd offset raises ALIGN (R312). -/
def State.goTo (s : State) (n : Nat) (bank : Byte) (a : Half) (call : Bool) : Res Flow :=
  if a.getLsbD 0 then .exc ⟨cALIGN, some (vaOf bank.toNat a.toNat), 0, false⟩ s
  else if call then (s.pushR n (s.core n).retEntry).bind fun _ s => .ok (.jump bank a) s
  else .ok (.jump bank a) s

/-- R310, 0x61: EXEC ( a -- ), a call in bank CBR. -/
def execExec (n : Fin 4) (s : State) : Outcome State Fault Refusal :=
  done (s.issue n false 2 fun s => s.popD n 1 0 fun xs s =>
    s.goTo n (s.core n).cbr (xs.getD 0 0) true)

/-- R310, 0x62: FEXEC ( a bank -- ), a far call (R315). -/
def execFexec (n : Fin 4) (s : State) : Outcome State Fault Refusal :=
  done (s.issue n false 3 fun s => s.popD n 2 0 fun xs s =>
    s.goTo n ((xs.getD 0 0).setWidth 8) (xs.getD 1 0) true)

/-- R310, 0x63: JMP ( a -- ). -/
def execJmp (n : Fin 4) (s : State) : Outcome State Fault Refusal :=
  done (s.issue n false 2 fun s => s.popD n 1 0 fun xs s =>
    s.goTo n (s.core n).cbr (xs.getD 0 0) false)

/-- R310, 0x64: FJMP ( a bank -- ). -/
def execFjmp (n : Fin 4) (s : State) : Outcome State Fault Refusal :=
  done (s.issue n false 3 fun s => s.popD n 2 0 fun xs s =>
    s.goTo n ((xs.getD 0 0).setWidth 8) (xs.getD 1 0) false)

/-- R310, 0x65: TRAP ( n -- ), n 0–15; the exception 0x10 + n, resuming at the next operation (Table 7-6). -/
def execTrap (n : Fin 4) (s : State) : Outcome State Fault Refusal :=
  done (s.issue n false 1 fun s => s.popD n 1 0 fun xs s =>
    if 15 < (xs.getD 0 0).toNat then illegal s else .ok (.trap (0x10 + (xs.getD 0 0).toNat)) s)

/-- R310, R327, R367, R369, R372, 0x66: RETI; system mode. `late` tells of a constant-latency line to which it tail-chains that
it could not make its 14 cycles. -/
def execReti (n : Fin 4) (late : Bool) (s : State) : Outcome State Fault Refusal :=
  done (s.issue n false 1 fun s => if (s.core n).sys then s.reti n late else privExc s)

/-- R310, R327, R374, 0x67: WAIT; system mode. -/
def execWait (n : Fin 4) (s : State) : Outcome State Fault Refusal :=
  done (s.issue n false 1 fun s =>
    if (s.core n).sys then .ok .next (s.setCore n { s.core n with waiting := .wait }) else privExc s)

/-- R310, R380, 0x68: BRK halts the core where BRKHALT is set, else enters its exception. -/
def execBrk (n : Fin 4) (s : State) : Outcome State Fault Refusal :=
  done (s.issue n false 1 fun s =>
    if s.bit Reg.DBG_CTRL n then .ok .next (s.setCore n { s.core n with haltPend := 2 }) else .ok (.trap cBRK) s)

/-- R310, 0x70: SR@ ( n -- x ); a number absent from Table 6-10 raises ILLEGAL (R337). -/
def execSrFetch (n : Fin 4) (s : State) : Outcome State Fault Refusal :=
  done (s.issue n false 1 fun s => s.popD n 1 1 fun xs s =>
    match (s.pushD n xs).srRead n (xs.getD 0 0).toNat with
    | some x => .ok .next (s.pushD n [x])
    | none => illegal s)

/-- R310, 0x71: SR! ( x n -- ) (R327, R328, R332 to R334, R337). -/
def execSrStore (n : Fin 4) (s : State) : Outcome State Fault Refusal :=
  done (s.issue n false 1 fun s => s.popD n 2 0 fun xs s =>
    let r := (xs.getD 0 0).toNat
    match s.srRead n r with
    | none => illegal s
    | some _ =>
      if srSystem r && !(s.core n).sys then privExc s else .ok .next (s.setCore n ((s.core n).srWrite r (xs.getD 1 0))))

/-- R310, 0x72: DBR@ ( -- b ). -/
def execDbrFetch (n : Fin 4) (s : State) : Outcome State Fault Refusal :=
  done (s.stackOp n 1 0 1 fun _ c => ([c.dbr.setWidth 16], c))

/-- R310, 0x73: DBR! ( b -- ), bits 7:0 used. -/
def execDbrStore (n : Fin 4) (s : State) : Outcome State Fault Refusal :=
  done (s.stackOp n 1 1 0 fun xs c => ([], { c with dbr := (xs.getD 0 0).setWidth 8 }))

/-- R310, R327, R416, 0x74: TLBI ( a bank -- ) removes every entry of the virtual page; system mode. -/
def execTlbi (n : Fin 4) (s : State) : Outcome State Fault Refusal :=
  done (s.issue n false 2 fun s =>
    if !(s.core n).sys then privExc s
    else s.popD n 2 0 fun xs s =>
      let bank := (xs.getD 0 0).toNat % 256
      let page := (xs.getD 1 0).toNat / 4096
      let c := s.core n
      let keep (e : Nat × Option TlbEntry) : Bool :=
        match e.2 with | some t => !(t.bank == bank && t.page == page) | none => false
      .ok .next (s.setCore n { c with tlb := c.tlb.filter keep }))

/-- R310, R327, R416, 0x75: TLBIA removes every entry of the issuing core's TLB; system mode. -/
def execTlbia (n : Fin 4) (s : State) : Outcome State Fault Refusal :=
  done (s.issue n false 2 fun s =>
    if (s.core n).sys then .ok .next (s.setCore n { s.core n with tlb := [] }) else privExc s)

/-- R346: the oldest store or queue push of core n's write buffer drains. -/
def execStoreDrain (n : Fin 4) (s : State) : Outcome State Fault Refusal :=
  done (if s.live then s.drainOne n else s)

/-- R350, R392: WBUS_ASYNC is taken at an operation boundary. -/
def execWbusAsync (n : Fin 4) (s : State) : Outcome State Fault Refusal :=
  let c := s.core n
  done (if s.coreRuns n && !c.halted && !c.popWaits && s.fenceOver n && c.wbe.isSome then s.enterAsync n else s)

/-- R428, R437: an RDO. An instruction fill of a core stays within the bounds of its run-ahead (R355). -/
def execRdo (k : RdoKind) (n : Fin 4) (line : BitVec 16) (s : State) : Outcome State Fault Refusal :=
  let fetches := match k with | .ifill => s.coreRuns n && s.mayFill n line.toNat | _ => true
  done (if s.live && fetches then s.request (rdoPort k n.val) (.rdo k n.val line.toNat) else s)

/-- R355, R411 to R414: a TLB miss of core n walks its tables; a walk that finds a bad entry raises the fault of its access. Run-ahead
fetch starts no walk: a fetch walks for the word that is to execute only. -/
def execPageWalk (n : Fin 4) (va : BitVec 24) (kind : Fin 3) (s : State) : Outcome State Fault Refusal :=
  let k : Acc := match kind with | 0 => .fetch | 1 => .read | 2 => .write
  let c := s.core n
  let hit := (tlbFind c.tlb (va.toNat / 65536) (va.toNat % 65536 / 4096) c.asid.toNat).isSome
  if s.canIssueOp n false && c.ten && !hit && (decide (k ≠ .fetch) || va.toNat == c.at_) then
    if c.wbe.isSome then done (s.enterAsync n)
    else match s.xlate n va.toNat k with
      | .ok _ s => done s
      | .exc e s =>
        let s := s.takeExc n e
        done (s.setCore n (s.core n).endStep)
  else done s

/-- The codes of Table 6-5. -/
def shortOpCode (k : Nat) : Bool :=
  decide (k ≤ 0x3D) || (decide (0x40 ≤ k) && decide (k ≤ 0x55)) || (decide (0x60 ≤ k) && decide (k ≤ 0x68))
    || (decide (0x70 ≤ k) && decide (k ≤ 0x75))

/-- R310: a code not in Table 6-5 raises ILLEGAL. -/
def execUndefinedOperation (n : Fin 4) (code : BitVec 7) (s : State) : Outcome State Fault Refusal :=
  done (if shortOpCode code.toNat then s else s.issue n false 1 fun s => illegal s)

end Sys2Proof.Machine
end

