-- ==== Sys2Proof/Machine/Debug.lean ====
section
/-!
DEFINITION. Chapters 3 and 7: core reset, interrupt entry and the interrupt controllers' commands, debug halt, step and
resume.
-/
namespace Sys2Proof.Machine

/-! ### Core reset -/

/-- The steps of R107 have ended: the core is held in reset, or starts where it has been released meanwhile. -/
def State.coreResetHeld (s : State) (n : Nat) : State :=
  let s := s.coreReset n
  if s.bit Reg.SYS_CORERST n then s.setBit Reg.SYS_CORERST (8 + n) true else s.coreStart n

/-- Core n has no access outstanding: its pushes are gone, a granted pop has been answered, and no request of it waits at a home
(R107, R147, R495). -/
def State.coreQuiet (s : State) (n : Nat) : Bool :=
  s.pushesGone n && (s.pport n).rep.isNone && !s.reqOut n

/-- R107, R147: the core-reset steps of Tsuvo n complete. -/
def execCoreResetHeld (n : Fin 4) (s : State) : Host.Outcome State Fault Refusal :=
  done (if s.live && (s.core n.val).resetting && s.coreQuiet n.val then s.coreResetHeld n.val else s)

/-! ### Interrupts -/

/-- Core n can accept an interrupt now (R359, R362, R370, R385, R393). -/
def State.canInterrupt (s : State) (n : Nat) : Bool :=
  let c := s.core n
  s.coreRuns n && !c.halted && c.haltPend == 0 && !c.popWaits && !c.inEntry && c.status.getLsbD 9
    && !s.stepHolds n && (c.stepping || !s.bit Reg.DBG_HALTREQ n)

/-- R359, R360, R391, R392: core n's arbiter accepts an interrupt; WBUS_ASYNC is entered before it. -/
def execInterruptEntry (n : Fin 4) (late : Bool) (s : State) : Host.Outcome State Fault Refusal :=
  if s.canInterrupt n.val then
    match s.bestSource n.val (s.rpri n.val) with
    | some i => done ((if (s.core n.val).wbe.isSome then s.enterAsync n.val else s).takeIrq n.val i late)
    | none => done s
  else done s

/-! ### Debug halt -/

/-- Core n has the reason `cause` to halt at this boundary (R380, R387). -/
def State.haltDue (s : State) (n cause : Nat) : Bool :=
  let c := s.core n
  match cause with
  | 1 => s.bit Reg.DBG_HALTREQ n && !c.stepping
  | 3 => c.haltPend == 0 && !c.bpPass && s.atBreakpoint n
  | 0 => false
  | k => c.haltPend == k

/-- R380, R381, R383: core n halts at an operation boundary, its accesses complete. -/
def execCoreHalt (n : Fin 4) (cause : Fin 6) (s : State) : Host.Outcome State Fault Refusal :=
  let k := n.val
  let c := s.core k
  if s.coreRuns k && !c.halted && !c.popWaits && s.haltDue k cause.val && s.pushesGone k && !s.reqOut k then
    let s := s.drainAll k
    let s := s.setCore k { s.core k with halted := true, haltPend := 0, stepping := false, marks := [], markT := 0 }
    let s := (s.setBit Reg.DBG_STATUS k true).setFld Reg.DBG_HALTCAUSE (4 * k) 4 cause.val
    done (if cause.val = 1 then s else s.haltSafe k)
  else done s

end Sys2Proof.Machine
end

