-- ==== Sys2Proof/Machine/Commands.lean ====
section
/-!
DEFINITION. Chapter 5: the commands of the command ring. A row of the table acts where its command is the running one: fetched,
live, and not started. Refusals stand in the order of R245.
-/
namespace Sys2Proof.Machine

/-! ### The running command -/

/-- The fetched command with opcode `op` that has not started. -/
def State.cmdNew (s : State) (op : Nat) : Option Cmd :=
  if s.live then s.hif.cmd.bind (fun c => if !c.started && c.op == op then some c else none) else none

/-- The command with opcode `op` that has started and not ended. -/
def State.cmdRun (s : State) (op : Nat) : Option Cmd :=
  if s.live then s.hif.cmd.bind (fun c => if c.started && c.op == op then some c else none) else none

/-- The state with the running command replaced. -/
def State.setCmd (s : State) (c : Cmd) : State := { s with hif := { s.hif with cmd := some c } }

/-- The running command has started. -/
def State.begun (s : State) (c : Cmd) : State := s.setCmd { c with started := true }

/-- Ends the running command with a status and zero result words. -/
def State.refuse (s : State) (status : Nat) : State := s.finish status 0 0

/-- The 64-bit host address in arguments k and k + 1 (R247). -/
def Cmd.addr (c : Cmd) (k : Nat) : Word64 := W.of32 (c.arg k) (c.arg (k + 1))

/-- The host address in arguments k and k + 1 is a multiple of 4 (R247). -/
def Cmd.addrOk (c : Cmd) (k : Nat) : Bool := W.fld (c.arg k) 0 2 == 0

/-- Argument k has no bit outside a mask (R244). -/
def Cmd.within (c : Cmd) (k : Nat) (m : Word) : Bool := c.arg k &&& ~~~ m == 0

/-- The running command reads `n` words of host memory at an address, as its step `stage` (R246, R286). -/
def State.startRead (s : State) (c : Cmd) (stage : Nat) (addr : Word64) (n : Nat) : State :=
  (s.setCmd { c with started := true, stage := stage, failedOnce := false, rdAddr := addr, rdLen := n, rdGot := [], rdCh := 0,
                     rdOut := false }).cmdIssue

/-! ### NOP, ECHO, LEDGERQUERY -/

/-- R249: NOP completes at once. -/
def execNop (s : State) : Host.Outcome State Fault Refusal :=
  match s.cmdNew 0x00 with
  | some _ => done (s.finish 0 0 0)
  | none => done s

/-- D1 and D2 of an ECHO as its result words carry them (R250, Table 5-2). -/
def Cmd.echoCpl (c : Cmd) : Cpl := c.cpl 0 (W.lo32 c.d1) (BitVec.ofNat 32 c.aux)

/-- R250: ECHO fixes D2 as the timebase at the issue of words 0–2 plus 64. It waits while its completion cannot be written. -/
def execEcho (s : State) : Host.Outcome State Fault Refusal :=
  match s.cmdNew 0x01 with
  | some c =>
    let c := { c with started := true, stage := 1, aux := (s.clk.tb + 64).toNat }
    if c.silent 0 then done (s.setCmd c)
    else if s.cplRoom then done ((s.setCmd c).cplHead c.echoCpl)
    else done s
  | none => done s

/-- R250, R211, R228: the timebase reaches D2: word 3 is issued. Where it cannot be, D2 is the value at which it will be: words 0–2 are
written again, as soon as they can be, with a D2 fixed afresh. -/
def execEchoWord3 (s : State) : Host.Outcome State Fault Refusal :=
  match s.cmdRun 0x01 with
  | some c =>
    if s.clk.tb.toNat < c.aux then done s
    else if c.silent 0 then done (s.finish 0 0 0)
    else if !s.cplRoom then done (s.setCmd { c with stage := 2 })
    else if c.stage = 1 then done ((s.cmdEnd c).cplTail c.echoCpl)
    else
      let c := { c with stage := 1, aux := (s.clk.tb + 64).toNat }
      done ((s.setCmd c).cplHead c.echoCpl)
  | none => done s

/-- R249: LEDGERQUERY. -/
def execLedgerquery (s : State) : Host.Outcome State Fault Refusal :=
  match s.cmdNew 0x51 with
  | some _ => done (s.finish 0 (BitVec.ofNat 32 s.ledger) 9000)
  | none => done s

/-! ### SETPOWER, DEVRESET -/

/-- SYS.PWRSTATE.RESULT takes a status (R251). -/
def State.pwrResult (s : State) (status : Nat) : State := s.setFld Reg.SYS_PWRSTATE 16 8 status

/-- RESULT0 of SETPOWER: state and cause (Table 5-2). -/
def State.pwrWord (s : State) : Word := BitVec.ofNat 32 (s.pwr + 16 * s.fld Reg.SYS_PWRSTATE 4 3)

/-- SETPOWER ends with a status that refuses it (R251). -/
def State.pwrRefuse (s : State) (status : Nat) : State :=
  let s := s.pwrResult status
  s.finish status s.pwrWord 0

/-- Every Tsuvo core is in core reset, as CORERST says: HELD is not asked, since R253 names the state and not the end of its entry (DESIGN
CHOICE, log entry 154). -/
def State.allHeld (s : State) : Bool := s.fld Reg.SYS_CORERST 0 4 == 15

/-- The running command's completion with a status can be written now, or it has none. -/
def State.cplReady (s : State) (status : Nat) : Bool :=
  match s.hif.cmd with
  | some c => c.silent status || (s.cplRoom && s.hif.cplHeld.isEmpty)
  | none => true

/-- SETPOWER to STANDBY with its conditions met: the completion is written, then the PLL stops (R252). -/
def State.setStandby (s : State) (r1 : Word) : State :=
  (((s.pwrResult 0).finish 0 3 r1).enterStandby 0 false)

/-- SETPOWER with PROOF (R253): the memories are proved first. -/
def State.setProof (s : State) (c : Cmd) : State :=
  if s.bit Reg.SYS_PWRSTATE 8 then s.pwrRefuse 3
  else if !s.quiet || !s.allHeld then s.pwrRefuse 4
  else
    let s := (s.begun c).setBit Reg.SYS_PWRSTATE 8 true
    ({ s with clk := { s.clk with trans := .proofStandby } }).setProofMask 7

/-- The command SETPOWER (R251 to R253, Table 2-7). To STANDBY and OFF it waits until its completion can be written (R252). -/
def State.setPower (s : State) (c : Cmd) : State :=
  let t := W.fld (c.arg 0) 0 3
  let proof := W.bit (c.arg 0) 8
  if !c.within 0 0x107 || t == 0 || decide (4 < t) || (proof && t != pwrSTANDBY) then s.pwrRefuse 2
  else if proof then s.setProof c
  else if s.bit Reg.SYS_PWRSTATE 8 then s.pwrRefuse 3
  else if t = pwrSTANDBY then (if !s.quiet then s.pwrRefuse 4 else if s.cplReady 0 then s.setStandby 0 else s)
  else if t = pwrOFF then (if s.cplReady 0 then ((s.finish 0 4 0).powerCmd pwrOFF).2 else s)
  else
    let (code, s) := s.powerCmd t
    s.finish code s.pwrWord 0

/-- R251: SETPOWER. -/
def execSetpower (s : State) : Host.Outcome State Fault Refusal :=
  match s.cmdNew 0x02 with
  | some c => done (s.setPower c)
  | none => done s

/-- R254: DEVRESET writes no completion, and nothing is fetched after it. -/
def execDevreset (s : State) : Host.Outcome State Fault Refusal :=
  match s.cmdNew 0x03 with
  | some c =>
    if W.fld (c.arg 0) 0 16 = 0xA5C3 ∧ c.within 0 0xFFFF then
      done (({ s with hif := { s.hif with cmd := none, fetchOff := true } }).requestReset 2)
    else done (s.refuse 2)
  | none => done s

/-! ### IMGLOAD -/

/-- RESULT0 of IMGLOAD: outcome, deciding section, FWE (Table 5-2). -/
def imgWord (oc sect fwe : Nat) : Word := BitVec.ofNat 32 (oc + 2 ^ 8 * sect + 2 ^ 16 * fwe)

/-- IMGLOAD ends with BAD_ARG and RESULT0 showing NO_IMAGE (R255). -/
def State.imgBad (s : State) (ss : List Section) : State := s.finish 2 (imgWord boNO_IMAGE 0 (s.fwe ss)) 0

/-- R255: IMGLOAD starts with its header's read. -/
def execImgload (s : State) : Host.Outcome State Fault Refusal :=
  match s.cmdNew 0x04 with
  | some c =>
    let len := (c.arg 2).toNat
    let force := (c.arg 3).toNat
    if !c.addrOk 0 || decide (len < 64) || decide (0x800000 < len) || (force != 0 && force != 0xF0CE) then done (s.refuse 2)
    else done (s.startRead c 1 (c.addr 0) 16)
  | none => done s

/-- Header, section table and lists of the image in hand. -/
def Cmd.imgHdr (c : Cmd) : List Word := c.buf.take 16
def Cmd.imgTbl (c : Cmd) : List Word := c.buf.drop 16

/-- Host address of the byte at an offset of the image in hand. -/
def Cmd.imgAt (c : Cmd) (off : Nat) : Word64 := c.addr 0 + BitVec.ofNat 64 off

/-- The read of the first or next section. -/
def State.imgNext (s : State) (c : Cmd) : State :=
  let x := sectionOf c.imgHdr c.imgTbl c.aux
  s.startRead c 4 (c.imgAt x.off) (x.len / 4)

/-- Header, table and lists have been read: the checks of R255 and R256. -/
def State.imgDecide (s : State) (c : Cmd) : State :=
  let h := c.imgHdr
  let t := c.imgTbl
  let ss := sections h t
  if crc32 t != h.getD 6 0 || malformed h t (c.arg 2).toNat none then s.imgBad ss
  else
    let fwe := s.fwe ss
    let (oc, sect) := imageOutcome ss fwe
    let r0 := imgWord oc sect fwe
    if oc = boHOLD_INCOMPATIBLE then s.finish 2 r0 0
    else if ss.any Section.isCode && !(s.allHeld || (s.boot.waits && decide (2 ≤ s.outcome) && decide (s.outcome ≤ 5))) then
      s.finish 3 r0 0
    else if oc = boHOLD_UNTESTED ∧ W.fld (c.arg 3) 0 16 ≠ 0xF0CE then s.finish 8 r0 0
    else s.imgNext { c with aux := 0, aux2 := r0.toNat }

/-- The first words of an untested image that is forced have come: UNTESTED and FORCED are set as the copying begins (R255,
R136, R287). -/
def State.imgMark (s : State) (c : Cmd) : State :=
  if c.op = 0x04 ∧ c.stage = 4 ∧ c.aux = 0 ∧ c.rdGot = [] ∧ c.aux2 % 16 = boHOLD_UNTESTED then
    (s.setBit Reg.SYS_IDENT 31 true).setBit Reg.SYS_BOOTSTAT 7 true
  else s

/-- A section fails: its load range holds free values, and the command ends with a status and the count of sections copied
whole (R259, R287). -/
def State.imgFail (s : State) (c : Cmd) (status : Nat) : State :=
  let x := sectionOf c.imgHdr c.imgTbl c.aux
  let (ws, s) := State.drawWords (x.len / 4) s
  (s.loadWords 6 x.load ws).finish status (BitVec.ofNat 32 c.aux2) (BitVec.ofNat 32 c.aux)

/-- Every section is copied: Tsuvo 0 starts where it waited in the boot ROM and the image has a CODE section (R257). -/
def State.imgDone (s : State) (c : Cmd) : State :=
  let code := (sections c.imgHdr c.imgTbl).any Section.isCode
  let s := if code && s.boot.waits && !s.bit Reg.SYS_CORERST 0 then (s.setFld Reg.SYS_BOOTSTAT 0 4 boREADY).coreStart 0 else s
  s.finish 0 (BitVec.ofNat 32 c.aux2) (BitVec.ofNat 32 c.aux)

/-- A section has been read: it is copied, and its SCRC decides (R255, R257, R259). -/
def State.imgSection (s : State) (c : Cmd) (ws : List Word) : State :=
  let x := sectionOf c.imgHdr c.imgTbl c.aux
  if crc32 ws ≠ x.scrc then s.imgFail c 9
  else
    let s := s.loadWords 6 x.load ws
    let s := if x.isCode then s.codeLoaded c.imgHdr [x] else s
    let c := { c with aux := c.aux + 1 }
    if c.aux < hdrNsect c.imgHdr then s.imgNext c else (s.setCmd c).imgDone c

/-- A read of IMGLOAD has brought its words. -/
def State.imgRead (s : State) (c : Cmd) (ws : List Word) : State :=
  if c.stage = 1 then
    let off := (ws.getD 3 0).toNat
    if crc32 (ws.take 15) ≠ ws.getD 15 0 ∨ hdrBad ws (c.arg 2).toNat then s.imgBad []
    else s.startRead { c with buf := ws } 2 (c.imgAt off) (8 * hdrNsect ws)
  else if c.stage = 2 then
    let h := c.imgHdr
    let off := (h.getD 3 0).toNat
    let c := { c with buf := c.buf ++ ws }
    let n := tableWords h ws
    if (h.getD 1 0).toNat < off + 4 * n then s.imgBad (sections h ws)
    else if n = 8 * hdrNsect h then s.imgDecide c
    else s.startRead c 3 (c.imgAt (off + 32 * hdrNsect h)) (n - 8 * hdrNsect h)
  else if c.stage = 3 then s.imgDecide { c with buf := c.buf ++ ws }
  else s.imgSection c ws

/-! ### Slots -/

/-- R260: PLATELOAD starts with its read. -/
def execPlateload (s : State) : Host.Outcome State Fault Refusal :=
  match s.cmdNew 0x10 with
  | some c =>
    let n := (c.arg 3).toNat
    if !c.within 0 0x1F || !c.addrOk 1 || n == 0 || decide (1024 < n) then done (s.refuse 2)
    else done (s.startRead c 1 (c.addr 1) n)
  | none => done s

/-- The first faulty word of a plate given as words (R576, R580). A count that is not the plate's length is a fault of the first
missing or first extra word. -/
def State.plateGiven (s : State) (n : Nat) (ws : List Word) : Option Nat :=
  let t := (s.zeroRange (plateAddr n 0) (plateAddr n 1024)).wrWords (plateAddr n 0) ws
  let f := t.plateFault n
  let len := t.plateLen n
  match f with
  | some i =>
    if i ≤ 1 ∨ len = ws.length then some i
    else if i = 31 then some (min len ws.length) else some (min i (min len ws.length))
  | none => if len = ws.length then none else some (min len ws.length)

/-- PLATELOAD has read its plate (R260, R271, R580). -/
def State.plateLoad (s : State) (c : Cmd) (ws : List Word) : State :=
  let n := W.fld (c.arg 0) 0 5
  match s.plateGiven n ws with
  | some i => s.finish 2 (BitVec.ofNat 32 i) 0
  | none =>
    if s.slotOn n then s.refuse 4
    else
      let a := plateAddr n 0
      let s := s.wrWords a ws
      let s := { s with ecc := tkeep (fun k => decide (k < a) || decide (a + 4 * ws.length ≤ k)) s.ecc }
      let s := (s.plateCheck n).2.ctxClear n
      s.finish 0 (BitVec.ofNat 32 (s.nblk n)) 0

/-- R277: PARAMWRITE starts with its read. -/
def execParamwrite (s : State) : Host.Outcome State Fault Refusal :=
  match s.cmdNew 0x11 with
  | some c =>
    let cnt := W.fld (c.arg 0) 16 7
    if !c.within 0 0x807F3F1F || !c.addrOk 1 || cnt == 0 || decide (64 < W.fld (c.arg 0) 8 6 + cnt) then done (s.refuse 2)
    else done (s.startRead c 1 (c.addr 1) cnt)
  | none => done s

/-- Writes words into slot n's inactive page from word w on. -/
def State.paramWrs (s : State) (n w : Nat) : List Word → State
  | [] => s
  | v :: vs => (s.paramWr true n w v).paramWrs n (w + 1) vs

/-- PARAMWRITE has read its words; with WAIT it waits for the page flip (Table 5-2). -/
def State.paramLoad (s : State) (c : Cmd) (ws : List Word) : State :=
  let s := s.paramWrs (W.fld (c.arg 0) 0 5) (W.fld (c.arg 0) 8 6) ws
  if W.bit (c.arg 0) 31 then s.setCmd { c with stage := 2, rdLen := 0 } else s.finish 0 0 0

/-- R273: PARAMWRITE with WAIT has seen no flip for 100 ms. -/
def execParamwriteWaitTimeout (s : State) : Host.Outcome State Fault Refusal :=
  match s.cmdRun 0x11 with
  | some c => done (if c.stage = 2 then s.refuse 0x0B else s)
  | none => done s

/-- R261, R285: SETPOINT. Its RESULT0 is the host set-point that the inactive page held, where the new one goes (DESIGN CHOICE, log
entry 152). -/
def execSetpoint (s : State) : Host.Outcome State Fault Refusal :=
  match s.cmdNew 0x12 with
  | some c =>
    let n := W.fld (c.arg 0) 0 5
    if !c.within 0 0x1F then done (s.refuse 2)
    else if !s.bit Reg.KLE_VALID n || !s.bit (Reg.KLE_SINFO n) 23 then done (s.refuse 6)
    else
      let w := s.fld (Reg.KLE_SINFO n) 16 6
      let old := s.rd (ctxAddr n 0x200 w)
      done ((s.paramWr true n w (c.arg 1)).finish 0 old 0)
  | none => done s

/-- R262, R53: SLOTEN. With EN = 0 a slot that is not enabled is left as it is: there is nothing to stop (DESIGN CHOICE, log entry
153). -/
def execSloten (s : State) : Host.Outcome State Fault Refusal :=
  match s.cmdNew 0x13 with
  | some c =>
    let n := W.fld (c.arg 0) 0 5
    let tb := W.lo32 s.clk.tb
    if !c.within 0 0x11F then done (s.refuse 2)
    else if W.bit (c.arg 0) 8 then
      if !s.bit Reg.KLE_VALID n then done (s.refuse 6)
      else if s.gatedBit gKLE then done (s.refuse 3)
      else if s.sst n = stPENNED then done (s.refuse 7)
      else done ((s.slotArm n).finish 0 tb 0)
    else done ((if s.slotOn n then (s.toBoundary (· == n)).slotStop n stDISABLED else s).finish 0 tb 0)
  | none => done s

/-- R110: SLOTRESET; the reset of a running slot takes effect at its block boundary. -/
def execSlotreset (s : State) : Host.Outcome State Fault Refusal :=
  match s.cmdNew 0x14 with
  | some c =>
    let n := W.fld (c.arg 0) 0 5
    if !c.within 0 0x1F then done (s.refuse 2)
    else
      let s := (s.begun c).slotReset n
      done (if (s.ks n).rstReq then s else s.finish 0 0 0)
  | none => done s

/-- R267, R673: INJECT. -/
def execInject (s : State) : Host.Outcome State Fault Refusal :=
  match s.cmdNew 0x15 with
  | some c =>
    let a := c.arg 0
    let n := W.fld a 0 5
    let p := W.fld a 8 2
    let w := W.fld a 16 6
    if !c.within 0 0x003F031F || decide (p < 2) || c.arg 1 == 0 then done (s.refuse 2)
    else if !s.bit Reg.KLE_VALID n then done (s.refuse 6)
    else if s.sst n = stDISABLED ∨ s.slotPasses n < 2 ∨ s.slotPasses n < p then done (s.refuse 3)
    else if s.sst n = stPENNED then done (s.refuse 7)
    else
      let s := s.begun { c with aux := (s.rd (Reg.KLE_INJCTL n)).toNat, aux2 := (s.rd (Reg.KLE_INJPAT n)).toNat }
      let s := (s.wr (Reg.KLE_INJCTL n) (BitVec.ofNat 32 (p + 2 ^ 8 * w + 2 ^ 31))).wr (Reg.KLE_INJPAT n) (c.arg 1)
      done (s.setKs n { s.ks n with injCmd := true })
  | none => done s

/-- R273: INJECT has seen no trigger of its slot for 100 ms: the injection is withdrawn. -/
def execInjectTimeout (s : State) : Host.Outcome State Fault Refusal :=
  match s.cmdRun 0x15 with
  | some c =>
    let n := W.fld (c.arg 0) 0 5
    if (s.ks n).injCmd && s.bit (Reg.KLE_INJCTL n) 31 then
      done (((s.setBit (Reg.KLE_INJCTL n) 31 false).setKs n { s.ks n with injCmd := false }).refuse 0x0B)
    else done s
  | none => done s

/-! ### Musters -/

/-- R744, R746: MUSTERLOAD starts with its read. -/
def execMusterload (s : State) : Host.Outcome State Fault Refusal :=
  match s.cmdNew 0x20 with
  | some c =>
    let cnt := (c.arg 3).toNat
    if !c.within 0 3 || !c.addrOk 1 || cnt == 0 || decide (256 < cnt) then done (s.refuse 2)
    else if 512 < s.entsElsewhere (W.fld (c.arg 0) 0 2) + cnt then done (s.finish 2 0xFFFFFFFF 0)
    else done (s.startRead c 1 (c.addr 1) (4 * cnt))
  | none => done s

/-- MUSTERLOAD has read its descriptors (R263, R271, R746). -/
def State.musterLoad (s : State) (c : Cmd) (ws : List Word) : State :=
  let l := W.fld (c.arg 0) 0 2
  match s.entFault ws 0 with
  | some i => s.finish 2 (BitVec.ofNat 32 i) 0
  | none =>
    if s.listActive l then s.refuse 4
    else
      let s := s.listLoad l (c.arg 3).toNat ws
      s.finish 0 (c.arg 3) (BitVec.ofNat 32 (s.bodyLen l))

/-- The record ring that MUSTERSTART names serves list l (R264). -/
def State.ringServes (s : State) (k l : Nat) : Bool :=
  s.bit (Reg.HIF_REC_CFG k) 31 && s.fld (Reg.HIF_REC_CFG k) 8 4 == l + 1
    && decide (s.bodyLen l + 4 ≤ s.recSlotWords k)

/-- R264, R270, R780, R849: MUSTERSTART. -/
def execMusterstart (s : State) : Host.Outcome State Fault Refusal :=
  match s.cmdNew 0x21 with
  | some c =>
    let l := W.fld (c.arg 0) 0 2
    let k := W.fld (c.arg 0) 8 3
    let noring := W.bit (c.arg 0) 15
    let period := (c.arg 1).toNat
    if !c.within 0 0x8703 || (period != 0 && (decide (period < 100) || decide (10000000 < period)))
        || !(noring || s.ringServes k l) || !s.foldOk l || s.listTarget l then done (s.refuse 2)
    else if !s.listLoaded l then done (s.refuse 6)
    else if s.listActive l || s.gatedBit gMBM then done (s.refuse 3)
    else
      let b := s.listBooking l period
      if 9000 < s.ledger + b then done (s.refuse 5)
      else
        let s := s.listStart l (if noring then none else some k) period b
        done (s.finish 0 (BitVec.ofNat 32 b) (BitVec.ofNat 32 s.ledger))
  | none => done s

/-- R763, R276: MUSTERSTOP: after the last record, or with CANCEL at once. -/
def execMusterstop (s : State) : Host.Outcome State Fault Refusal :=
  match s.cmdNew 0x22 with
  | some c =>
    let l := W.fld (c.arg 0) 0 2
    if !c.within 0 0x103 then done (s.refuse 2)
    else if !s.listLoaded l then done (s.refuse 6)
    else if !s.listActive l then done (s.refuse 3)
    else
      let s := s.begun c
      if W.bit (c.arg 0) 8 then done (((s.musterCancel l).aheadsDrop l).stopDone l 0)
      else
        let s := (s.setMl l { s.ml l with stopping := true }).aheadsDrop l
        done (s.stopCheck l)
  | none => done s

/-- R273: MUSTERSTOP has waited 1 s: the running muster is cancelled, and the list stops. -/
def execMusterstopTimeout (s : State) : Host.Outcome State Fault Refusal :=
  match s.cmdRun 0x22 with
  | some c =>
    let l := W.fld (c.arg 0) 0 2
    done (((s.musterCancel l).aheadsDrop l).stopDone l 0x0B)
  | none => done s

/-- R280: MUSTERNOW; the muster that a period tick of the same CORE cycle has started is its own. -/
def execMusternow (s : State) : Host.Outcome State Fault Refusal :=
  match s.cmdNew 0x23 with
  | some c =>
    let l := W.fld (c.arg 0) 0 2
    if !c.within 0 3 then done (s.refuse 2)
    else if !s.listLoaded l then done (s.refuse 6)
    else if !s.listActive l ||
        (s.listRunning l && !((s.ml l).by_ == .tick && (s.ml l).t0 == s.clk.tb.toNat)) then done (s.refuse 3)
    else
      let s := if s.listRunning l then s else s.musterStart l s.periEdge .now
      done (s.finish 0 (BitVec.ofNat 32 (s.ml l).num) 0)
  | none => done s

/-! ### ADMIT and PEN -/

/-- The object that ADMIT and PEN name (Table 5-1). -/
inductive PenObj where
  | slot (n : Nat)
  | port (p : Nat)
  | entry (l e : Nat)
  | chan (n : Nat)
  deriving DecidableEq, Repr

/-- The named object; none where an argument is invalid (R244, R248). -/
def Cmd.obj (c : Cmd) : Option PenObj :=
  let id := W.fld (c.arg 0) 8 8
  if !c.within 0 0xFF0F then none
  else match W.fld (c.arg 0) 0 4 with
    | 0 => if id < 32 then some (.slot id) else none
    | 1 => if isPort id then some (.port id) else none
    | 2 => if id < 4 ∧ c.within 1 0xFF then some (.entry id (W.fld (c.arg 1) 0 8)) else none
    | 3 => if id < 8 then some (.chan id) else none
    | _ => none

/-- The object exists (Table 5-3). -/
def State.objFound (s : State) : PenObj → Bool
  | .entry l e => s.listLoaded l && decide (e < s.nent l)
  | _ => true

/-- The object is penned. -/
def State.objPenned (s : State) : PenObj → Bool
  | .slot n => s.sst n == stPENNED
  | .port p => s.portPenned p
  | .entry l e => s.entPenned l e
  | .chan n => s.pst n == ppPENNED

/-- Entry e of list l returns to service: CONSEC and its pen status clear (R794). -/
def State.entAdmit (s : State) (l e : Nat) : State :=
  let a := Reg.MBM_ENTSTAT l e
  ((s.setFld a 8 4 0).setBit a 12 false).setFld a 16 8 0

/-- PEN of entry e of list l (R793, R794): an attempt that has not begun in a running muster is not made, and a run-ahead one is
discarded. -/
def State.entPenHost (s : State) (l e : Nat) : State :=
  let s := s.entPen l e 0x10
  let ph := (s.ent l e).ph
  if !s.listRunning l then s.aheadDrop l e
  else if ph = .waiting || ph = .again then s.entFinish l e 8 false
  else s

/-- The object returns to service. -/
def State.objAdmit (s : State) : PenObj → State
  | .slot n => s.slotAdmit n
  | .port p => s.portAdmit p
  | .entry l e => s.entAdmit l e
  | .chan n => s.ppAdmit n

/-- The object is penned with reason HOST (Table 11-8, Table 17-3, R793). -/
def State.objPen (s : State) : PenObj → State
  | .slot n => (s.toBoundary (· == n)).slotPen n 1
  | .port p => s.portPen p 0x10
  | .entry l e => s.entPenHost l e
  | .chan n => s.ppPen n 0x10

/-- R266: ADMIT. -/
def execAdmitObject (s : State) : Host.Outcome State Fault Refusal :=
  match s.cmdNew 0x30 with
  | some c =>
    match c.obj with
    | none => done (s.refuse 2)
    | some o =>
      if !s.objFound o then done (s.refuse 6)
      else if !s.objPenned o then done (s.refuse 3)
      else done ((s.objAdmit o).finish 0 0 0)
  | none => done s

/-- R266, R282: PEN. -/
def execPen (s : State) : Host.Outcome State Fault Refusal :=
  match s.cmdNew 0x31 with
  | some c =>
    match c.obj with
    | none => done (s.refuse 2)
    | some o =>
      if !s.objFound o then done (s.refuse 6)
      else done ((if s.objPenned o then s else s.objPen o).finish 0 0 0)
  | none => done s

/-! ### Port proof -/

/-- Port p is idle, an identity transaction apart (R271, R950). -/
def State.portIdle (s : State) (p : Nat) : Bool :=
  !s.portListed p && !s.swBusy p && (match s.use p with | .none => true | .ident _ => true | _ => false)

/-- R946, R950: PORTPROOF; it waits for an identity transaction in progress. -/
def execPortproof (s : State) : Host.Outcome State Fault Refusal :=
  match s.cmdNew 0x32 with
  | some c =>
    let p := W.fld (c.arg 0) 8 8
    if !c.within 0 0xFF00 || !isPort p then done (s.refuse 2)
    else if !s.portPenned p && !s.portIdle p then done (s.refuse 4)
    else
      let wait := match s.use p with | .ident _ => true | _ => false
      let s := s.setCmd { c with started := true, stage := if wait then 1 else 2 }
      done (if wait then s else s.portProofStart p)
  | none => done s

/-- The steps of a proof of port p (Table 17-5). -/
def State.proofSteps (s : State) (p : Nat) : Nat :=
  if isTw p then 4 else if isDs p then 18 else 2 * s.sePwid (p - 0x20)

/-- A proof of port p is over: its engine restarts, and an identity check that waited for the port starts (R948, R949). -/
def State.proofFree (s : State) (p : Nat) : State :=
  let s := if s.use p = .proof then s.portFree p else s
  let s := if isSe p then s.seUnhold (p - 0x20) else s
  forN 8 (fun n s => if s.pst n = ppIDCHECK && s.fld (Reg.PPW_IDCFG n) 0 8 == p then s.identStart n else s) s

/-- R947: the running port proof ends with its failed steps. -/
def execPortProofDone (failed : Word) (s : State) : Host.Outcome State Fault Refusal :=
  match s.cmdRun 0x32 with
  | some c =>
    let p := W.fld (c.arg 0) 8 8
    if s.use p ≠ .proof || !s.runs (portGate p) then done s
    else
      let f : Nat := failed.toNat % 2 ^ s.proofSteps p
      done ((s.proofFree p).finish 0 (if f = 0 then 1 else 0) (BitVec.ofNat 32 f))
  | none => done s

/-- R273: a port proof has waited 100 ms: it is abandoned, and the port is left as before. -/
def execPortproofTimeout (s : State) : Host.Outcome State Fault Refusal :=
  match s.cmdRun 0x32 with
  | some c => done ((s.proofFree (W.fld (c.arg 0) 8 8)).refuse 0x0B)
  | none => done s

/-! ### ADCs and memories -/

/-- R268: ADCCAL selects its ADCs. -/
def execAdccal (s : State) : Host.Outcome State Fault Refusal :=
  match s.cmdNew 0x40 with
  | some c =>
    let m := c.arg 0
    if !c.within 0 0xF || m == 0 then done (s.refuse 2)
    else if s.gatedBit gADC then done (s.refuse 3)
    else
      let s := s.begun c
      done (forN 4 (fun n s =>
        if W.bit m n then (s.setAd n { s.ad n with cal := some {} }).setBit Reg.ADC_STATUS n true else s) s)
  | none => done s

/-- R269: MEMPROOF. -/
def execMemproof (s : State) : Host.Outcome State Fault Refusal :=
  match s.cmdNew 0x41 with
  | some c =>
    if !c.within 0 7 || c.arg 0 == 0 then done (s.refuse 2)
    else if s.outcome ≠ boMAINT then done (s.refuse 4)
    else
      let s := s.begun c
      done (s.setProofMask (W.fld (c.arg 0) 0 3))
  | none => done s

/-- The proved memories hold zero with valid check bits (R253, R269, R499); a plate area so written loses VALID (R558). -/
def State.memZero (s : State) (mask : Nat) : State :=
  let s := if mask.testBit 0 then s.zeroRange 0 0x200000 else s
  let s := if mask.testBit 1 then s.poolProved else s
  if mask.testBit 2 then
    forN 32 (fun n s => if s.slotOn n then s else s.setBit Reg.KLE_VALID n false) (s.zeroRange 0x01000000 0x01040000)
  else s

/-- R269, R253: the running memory proof ends; that of SETPOWER once its completion can be written, before the PLL stops (R252). -/
def execMemproofDone (failed : BitVec 3) (addr : Word) (s : State) : Host.Outcome State Fault Refusal :=
  match s.hif.cmd with
  | none => done s
  | some c =>
    let mask := s.hif.proof
    if !s.live || mask = 0 || (decide (c.op = 0x02) && !s.cplReady 0) then done s
    else
      let s := s.memZero mask
      let s := s.setProofMask 0
      let f : Word := BitVec.ofNat 32 (failed.toNat &&& mask)
      if c.op = 0x02 then
        let s := ({ s with clk := { s.clk with trans := .none } }).setBit Reg.SYS_PWRSTATE 8 false
        done (s.setStandby f)
      else done (s.finish 0 f addr)

/-! ### The ledger -/

/-- R270, R440, R441, R458: DMARESERVE. -/
def execDmareserve (s : State) : Host.Outcome State Fault Refusal :=
  match s.cmdNew 0x50 with
  | some c =>
    let ch := W.fld (c.arg 0) 0 4
    let rate := (c.arg 1).toNat
    let total := s.ledger - s.fld (Reg.XLT_DMA_BOOK ch) 0 14 + rate
    if !c.within 0 0xF || decide (9000 < rate) then done (s.refuse 2)
    else if s.fld (Reg.XLT_DMA_STATUS ch) 0 2 = 1 then done (s.refuse 4)
    else if 9000 < total then done (s.refuse 5)
    else
      let s := s.setCh ch ((s.ch ch).rebook (s.fld (Reg.XLT_DMA_BOOK ch) 0 14) rate)
      let s := (s.wr (Reg.XLT_DMA_BOOK ch) (c.arg 1)).setFld Reg.XLT_LEDGER 0 16 total
      done (s.finish 0 (c.arg 1) (BitVec.ofNat 32 total))
  | none => done s

/-! ### Host memory -/

/-- A read of the running command has brought its words. -/
def State.cmdData (s : State) (c : Cmd) (ws : List Word) : State :=
  let c := { c with rdLen := 0, rdOut := false, failedOnce := false }
  let s := s.setCmd c
  match c.op with
  | 0x04 => s.imgRead c ws
  | 0x10 => s.plateLoad c ws
  | 0x11 => s.paramLoad c ws
  | _ => s.musterLoad c ws

/-- A read of the running command has failed for good: without an effect before an IMGLOAD begins to copy (R287). -/
def State.cmdDmaError (s : State) (c : Cmd) : State :=
  if c.op = 0x04 ∧ c.stage = 4 then
    if c.aux = 0 ∧ c.rdGot = [] then s.finish 0x0A (BitVec.ofNat 32 c.aux2) 0 else s.imgFail c 0x0A
  else s.refuse 0x0A

/-- R246, R286, R287: a read of host memory by the running command completes, and the next of its item follows, or it fails and is
issued once more, or fails for good. A command that a reset has muted reads no more (R221). -/
def execCommandHostRead (r : HostRead) (s : State) : Host.Outcome State Fault Refusal :=
  match s.hif.cmd with
  | none => done s
  | some c =>
    if !s.live || !c.started || c.rdLen = 0 || !(c.rdOut || c.mute) then done s
    else if c.mute then done (s.cmdDmaError c)
    else
      match r with
      | .ok ws =>
        if ws.length = c.rdCh then
          let s := (if c.failedOnce then s.tally Reg.HIF_FETCHTALLY else s).imgMark c
          let got := c.rdGot ++ ws
          if got.length < c.rdLen then
            done (s.setCmd { c with rdGot := got, failedOnce := false, rdOut := false }).cmdIssue
          else done (s.cmdData { c with rdGot := [], rdCh := 0 } got)
        else done s
      | .failed =>
        if c.failedOnce then done (s.cmdDmaError c)
        else done (s.setCmd { c with failedOnce := true, rdOut := false }).cmdIssue

end Sys2Proof.Machine
end

