-- ==== Sys2Proof/Machine/Dma.lean ====
section
/-!
DEFINITION. Chapter 8, the general DMA channels: descriptors, elements, faults, STOP and RESUME, and DMAINV.
-/
namespace Sys2Proof.Machine

/-- Translates an address of a channel (R408, R417, Table 8-4). -/
def State.dmaXlate (s : State) (c a : Nat) (k : Acc) : Except DmaFail Nat × State :=
  let cfg := s.rd (Reg.XLT_DMA_CFG c)
  if W.bit cfg 0 then
    match regionOf a with
    | some _ => (.ok a, s)
    | none => (.error ⟨5, a⟩, s)
  else
    let va := a % 2 ^ 24
    let bank := va / 65536
    let page := va % 65536 / 4096
    let asid := W.fld cfg 5 6
    let chk (e : TlbEntry) : Except DmaFail Nat :=
      match e.check (W.bit cfg 1) k (va % 65536) with
      | .inl x => .ok x.pa
      | .inr (r, _) => .error ⟨if r = 5 then 4 else if r = 3 then 3 else 5, va⟩
    match tlbFind (s.ch c).tlb bank page asid with
    | some e => (chk e, s)
    | none =>
      let (w, s) := s.walk 4 (s.rd (Reg.XLT_DMA_DIRBASE c)).toNat asid bank page
      match w with
      | .invalid r => (.error ⟨r, va⟩, s)
      | .access det => (.error ⟨if det = 4 then 6 else 5, va⟩, s)
      | .entry e =>
        match chk e with
        | .ok pa =>
          let x := s.ch c
          (.ok pa, s.setCh c { x with tlb := tset none x.tlb x.tlbNext (some e), tlbNext := (x.tlbNext + 1) % 16 })
        | .error f => (.error f, s)

/-- An access of a booked channel to shared SRAM spends tokens of its bank (R440, R444). -/
def State.dmaSpend (s : State) (c pa size : Nat) : State :=
  if regionOf pa = some .sram ∧ s.fld (Reg.XLT_DMA_BOOK c) 0 16 ≠ 0 then
    let x := s.ch c
    s.setCh c { x with tokens := spendBank x.tokens pa size }
  else s

/-- An access that succeeds on its second attempt is transient, and counts (R463). -/
def State.transient (s : State) (yes : Bool) : State := if yes then s.tally Reg.XLT_DMATALLY else s

/-- Reads bytes for a channel; a bus error or an uncorrectable error is tried once more (R463). -/
def State.dmaRead (s : State) (c a size : Nat) (dev : BusRead) (retry : Bool) : Except DmaFail (List Byte) × State :=
  let (x, s) := s.dmaXlate c a .read
  match x with
  | .error f => (.error f, s)
  | .ok pa =>
    let (r, s) := (s.dmaSpend c pa size).busRead (.dma (Fin.ofNat 16 c)) pa size dev
    let (r, s) := match r with
      | .ok bs => (BusRes.ok bs, s)
      | e => if retry then s.busRead (.dma (Fin.ofNat 16 c)) pa size dev else (e, s)
    match r with
    | .ok bs => (.ok bs, s)
    | .bus => (.error ⟨7, a⟩, s)
    | .ecc => (.error ⟨6, a⟩, s)

/-- Writes an element for a channel, with one more attempt (R402, R463, R1017). -/
def State.dmaWrite (s : State) (c a : Nat) (bs : List Byte) : Except DmaFail Unit × State :=
  let (x, s) := s.dmaXlate c a .write
  match x with
  | .error f => (.error f, s)
  | .ok pa =>
    let (r, s) := (s.dmaSpend c pa bs.length).busWrite (.dma (Fin.ofNat 16 c)) pa bs
    let (r, s) := if r = .ok then (r, s) else s.busWrite (.dma (Fin.ofNat 16 c)) pa bs
    match r with
    | .ok => (.ok (), s)
    | .bus => (.error ⟨7, a⟩, s)
    | .ecc => (.error ⟨6, a⟩, s)

/-- R418, R424, Table 8-5: channel c fetches its next descriptor. -/
def execDmaDescriptorFetch (c : Fin 16) (dev : BusRead) (s : State) : Host.Outcome State Fault Refusal :=
  let k := c.val
  if s.dmaRuns && s.dmaState k == dmaRUN && !(s.ch k).have_ then
    let a := (s.rd (Reg.XLT_DMA_LINK k)).toNat / 16 * 16
    let (r, s) := s.dmaRead k a 16 dev false
    let s := s.setCh k { s.ch k with fromMem := true }
    match r with
    | .error f => done (s.dmaStopOn k f false true)
    | .ok bs =>
      let w (i : Nat) : Word := bytesWord (bs.drop (4 * i))
      match esizeBytes (W.fld (w 2) 16 2) with
      | none => done (s.dmaStopOn k ⟨9, a⟩ false true)
      | some e =>
        let x := { s.ch k with esize := e, sinc := W.bit (w 2) 18, dinc := W.bit (w 2) 19, irq := W.bit (w 2) 20,
                               last := W.bit (w 2) 21 }
        let n := W.fld (w 2) 0 16
        let s := (s.wr (Reg.XLT_DMA_SRC k) (w 0)).wr (Reg.XLT_DMA_DST k) (w 1)
        let s := s.wr (Reg.XLT_DMA_COUNT k) (BitVec.ofNat 32 n)
        let s := if x.last then s else s.wr (Reg.XLT_DMA_LINK k) (w 3 &&& 0xFFFFFFF0)
        done (s.dmaTake k x (w 0).toNat (w 1).toNat n)
  else done s

/-! ### Elements -/

/-- Advances an address register of a channel, and its programmed copy where software has not written it meanwhile. -/
def State.dmaAdvance (s : State) (cur prog : Nat) (v : Word) : State :=
  let old := s.rd cur
  let s := if s.rd prog = old then s.wr prog v else s
  s.wr cur v

/-- An address after one element: virtual addresses wrap at 24 bits (R417, R420). -/
def dmaNext (phys inc : Bool) (a : Word) (size : Nat) : Word :=
  if inc then (if phys then a + BitVec.ofNat 32 size else (a + BitVec.ofNat 32 size) &&& 0x00FFFFFF) else a

/-- One element has been written: the registers advance, and the descriptor may end (R421, R424). -/
def State.dmaElementDone (s : State) (c : Nat) : State :=
  let x := s.ch c
  let phys := s.bit (Reg.XLT_DMA_CFG c) 0
  let s := s.setCh c { x with heldData := [] }
  let s := s.setBit (Reg.XLT_DMA_STATUS c) 6 false
  let s := s.dmaAdvance (Reg.XLT_DMA_CURSRC c) (Reg.XLT_DMA_SRC c) (dmaNext phys x.sinc (s.rd (Reg.XLT_DMA_CURSRC c)) x.esize)
  let s := s.dmaAdvance (Reg.XLT_DMA_CURDST c) (Reg.XLT_DMA_DST c) (dmaNext phys x.dinc (s.rd (Reg.XLT_DMA_CURDST c)) x.esize)
  let s := s.dmaAdvance (Reg.XLT_DMA_RESID c) (Reg.XLT_DMA_COUNT c) (s.rd (Reg.XLT_DMA_RESID c) - 1)
  if s.rd (Reg.XLT_DMA_RESID c) = 0 then s.dmaDescEnd c else s

/-- Writes an element's bytes; a failure holds them (R424, R425). `again` tells of a write that succeeds on its second attempt
only. -/
def State.dmaWriteElement (s : State) (c : Nat) (bs : List Byte) (again : Bool) : State :=
  let (r, s) := s.dmaWrite c (s.rd (Reg.XLT_DMA_CURDST c)).toNat bs
  match r with
  | .ok _ => (s.transient again).dmaElementDone c
  | .error f =>
    let s := (s.setCh c { s.ch c with heldData := bs }).setBit (Reg.XLT_DMA_STATUS c) 6 true
    s.dmaStopOn c f true false

/-! ### Run-ahead reads (R423) -/

/-- Where a run-ahead read of a channel finds a virtual or physical source address: no walk, no Device page, and nothing that
would fault. -/
def State.dmaPeek (s : State) (c a : Nat) : Option Nat :=
  let cfg := s.rd (Reg.XLT_DMA_CFG c)
  let at_ : Option Xl :=
    if W.bit cfg 0 then (regionOf a).map (fun r => ⟨a, r.device, false⟩)
    else
      let va := a % 2 ^ 24
      match tlbFind (s.ch c).tlb (va / 65536) (va % 65536 / 4096) (W.fld cfg 5 6) with
      | some e => match e.check (W.bit cfg 1) .read (va % 65536) with
        | .inl x => some x
        | .inr _ => none
      | none => none
  at_.bind fun x => if x.device || decide (regionOf x.pa = some .flash) then none else some x.pa

/-- One read of a channel that is not due: the present element, or one up to 64 bytes after it; a read that would fault is dropped. The flash window's answer comes with the element when it is due. -/
def State.dmaReadAhead (s : State) (c : Nat) : State :=
  let x := s.ch c
  let i := x.ahead.length
  let phys := s.bit (Reg.XLT_DMA_CFG c) 0
  let a := dmaNext phys x.sinc (s.rd (Reg.XLT_DMA_CURSRC c)) (i * x.esize)
  if s.bit (Reg.XLT_DMA_STATUS c) 6 ∨ 64 < i * x.esize ∨ (s.rd (Reg.XLT_DMA_RESID c)).toNat ≤ i ∨ a.toNat % x.esize ≠ 0 then s
  else match s.dmaPeek c a.toNat with
    | none => s
    | some pa =>
      let (r, s) := (s.dmaSpend c pa x.esize).busRead (.dma (Fin.ofNat 16 c)) pa x.esize .busError
      match r with
      | .ok bs => s.setCh c { s.ch c with ahead := (s.ch c).ahead ++ [bs] }
      | _ => s

/-- Run-ahead reads of a running channel with a descriptor in hand, at most `k` of them. -/
def State.dmaRunAhead (s : State) (c : Nat) : Nat → State
  | 0 => s
  | k + 1 => if s.dmaState c = dmaRUN ∧ (s.ch c).have_ then (s.dmaReadAhead c).dmaRunAhead c k else s

/-! ### The grant (R422, R444) -/

/-- Bytes that an access of a channel moves. -/
def State.dmaBytes (s : State) (c : Nat) : Nat := max 1 (s.ch c).esize

/-- A channel with a booking holds tokens for its next access in some bank (R422, R444; DEDUCED, log entry 114). -/
def State.dmaTokens (s : State) (c : Nat) : Bool :=
  decide (s.fld (Reg.XLT_DMA_BOOK c) 0 16 ≠ 0) && (s.ch c).tokens.any (fun e => decide (3200 * s.dmaBytes c ≤ e.2))

/-- The rank of a channel in the grant, the lower first: tokens, then CFG.PRI, then its place after the channel granted last. -/
def State.dmaRank (s : State) (c : Nat) : Nat :=
  (if s.dmaTokens c then 0 else 64) + 16 * s.fld (Reg.XLT_DMA_CFG c) 3 2 + (c + 15 - s.coh.dmaLast % 16) % 16

/-- Channel c can use an access: it runs with a descriptor in hand. -/
def State.dmaAsks (s : State) (c : Nat) : Bool := s.dmaState c == dmaRUN && (s.ch c).have_

/-- The grant goes to channel c, where the channels of `req` ask for an access in the same FABRIC cycle (R422). -/
def State.dmaGrants (s : State) (c : Nat) (req : BitVec 16) : Bool :=
  (List.range 16).all (fun d => d == c || !(req.getLsbD d && s.dmaAsks d) || decide (s.dmaRank c < s.dmaRank d))

/-! ### One element -/

/-- One element of a running channel (R420, R423 to R425). `again` tells of its read (bit 0) and its write (bit 1) whether it succeeds
on its second attempt only (R463). -/
def State.dmaElement (s : State) (c : Nat) (dev : BusRead) (again : BitVec 2) : State :=
  let x := s.ch c
  let src := (s.rd (Reg.XLT_DMA_CURSRC c)).toNat
  let dst := (s.rd (Reg.XLT_DMA_CURDST c)).toNat
  if s.bit (Reg.XLT_DMA_STATUS c) 6 then
    if dst % x.heldData.length ≠ 0 then s.dmaStopOn c ⟨8, dst⟩ true false
    else s.dmaWriteElement c x.heldData (again.getLsbD 1)
  else if src % x.esize ≠ 0 then s.dmaStopOn c ⟨8, src⟩ false false
  else if dst % x.esize ≠ 0 then s.dmaStopOn c ⟨8, dst⟩ true false
  else match x.ahead with
    | bs :: rest => ((s.setCh c { x with ahead := rest }).transient (again.getLsbD 0)).dmaWriteElement c bs (again.getLsbD 1)
    | [] =>
      let (r, s) := s.dmaRead c src x.esize dev true
      match r with
      | .ok bs => (s.transient (again.getLsbD 0)).dmaWriteElement c bs (again.getLsbD 1)
      | .error f => s.dmaStopOn c f false false

/-- R420, R422, R423, R456: channel c is granted one element, `req` being the channels that ask in the same FABRIC cycle; it has
read `ahead` elements ahead of the write, the present one among them. -/
def execDmaElement (c : Fin 16) (dev : BusRead) (again : BitVec 2) (req : BitVec 16) (ahead : Fin 34) (s : State) :
    Host.Outcome State Fault Refusal :=
  if s.dmaRuns && s.dmaAsks c.val && s.dmaGrants c.val req then
    let s := { s.dmaRunAhead c.val ahead.val with coh := { s.coh with dmaLast := c.val } }
    done ((s.dmaElement c.val dev again).dmaInvNow c.val).dmaInvCheck
  else done s

/-- R456: every running channel has reached an element boundary. -/
def execDmainvDone (s : State) : Host.Outcome State Fault Refusal :=
  done (if s.live then (forN 16 (fun c s => s.dmaInvNow c) s).dmaInvCheck else s)

/-! ### The outbound window -/

/-- The bus error of an access to byte `y` of the outbound window reaches its issuer: a core's store as its write-bus error
(R350, its virtual address `va`), a running channel as kind BUS (Table 8-14), a read as its answer. -/
def State.outboundError (s : State) (src : Requester) (write : Bool) (y va : Nat) : State :=
  let a := 0x40000000 + y
  match src, write with
  | .core n, true => s.storeFailed n.val { va := va, pa := a, bytes := [], cached := false }
  | .dma c, w => if s.dmaState c.val = dmaRUN then s.dmaStopOn c.val ⟨7, a⟩ w false else s
  | _, true => s
  | _, false => { s with reply := .busError 0xFFFFFFFF }

/-- R171, R172: a device access of one word to the outbound window; `val` is the word written, or the word that the host
answers a read with, and `va` the virtual address of a core's access. -/
def execOutboundAccess (src : Requester) (write : Bool) (y : BitVec 28) (val : Word) (va : BitVec 24) (s : State) :
    Host.Outcome State Fault Refusal :=
  if !s.live then done s
  else
    let b := y.toNat / 4 * 4
    if write then
      let (ok, t) := s.outboundWrite b (wordBytes val)
      done (if ok then t else t.outboundError src true b va.toNat)
    else if s.canIssue then done { (s.emit (.read (s.obAddr b) 4)) with reply := .word val }
    else done (s.outboundError src false b va.toNat)

end Sys2Proof.Machine
end

