-- ==== Sys2Proof/Machine/Tick.lean ====
section
/-!
DEFINITION. One CORE cycle with no command waiting: the timebase, the timers' counts, what counts CORE cycles in the cores and at
the homes of the lines, and the TMR counts of the stencil engines (R35, R47 to R49, R98, R316, R432, R873, R1000).
-/
namespace Sys2Proof.Machine

/-- Timer n counts one edge of its clock; at zero it expires (R98). -/
def State.timerCount (s : State) (slow : Bool) (n : Nat) : State :=
  let c := s.rd (Reg.TMB_TMR_COUNT n)
  if s.bit (Reg.TMB_TMR_CTRL n) 0 && s.bit (Reg.TMB_TMR_CTRL n) 2 == slow then
    (if 1 < c.toNat then s.wr (Reg.TMB_TMR_COUNT n) (c - 1) else s.timerExpire n)
  else s

/-- An edge of TICK, or of SLOW, at every timer. -/
def State.timersCount (s : State) (slow : Bool) : State := forN 8 (fun n s => s.timerCount slow n) s

/-- TMR of a running engine counts one PERI cycle (R873). -/
def State.seCount (s : State) (n : Nat) : State := if s.seRuns n then s.seReach n else s

/-- The homes' busy times run down (R432). -/
def busyDown (t : Tab Busy) : Tab Busy :=
  t.filterMap (fun e => if e.2.left ≤ 1 then none else some (e.1, { e.2 with left := e.2.left - 1 }))

/-- A booked channel gains the tokens of one CORE cycle in every bank, up to its depth (R444). -/
def State.dmaGain (s : State) (c : Nat) : State :=
  let r := s.fld (Reg.XLT_DMA_BOOK c) 0 16
  if r = 0 then s
  else
    let x := s.ch c
    s.setCh c { x with tokens := gainBanks x.tokens r }

/-- A booked list gains the tokens of one CORE cycle (R444). -/
def State.mbmGain (s : State) (l : Nat) : State :=
  let r := s.fld (Reg.MBM_LIST_BOOK l) 0 16
  if r = 0 then s else s.setMl l { s.ml l with tokens := gainBanks (s.ml l).tokens r }

/-- The Morium engine pushes the next value word of a committed muster, one in a PERI cycle (R473, R475, R768). -/
def State.mbmPush (s : State) : State :=
  match s.mbm.pushes with
  | [] => s
  | w :: r => if s.runs gMBM then (({ s with mbm := { s.mbm with pushes := r } }).stage 5 w.q w.tag w.data).2 else s

/-- The dividers after one CORE cycle, with the edges of TICK and SLOW that it brings (R35, R36). -/
def State.dividers (s : State) : State :=
  let p := (s.clk.tickPhase + 1) % 400
  let s := { s with clk := { s.clk with tickPhase := p } }
  let s := if p % 4 = 0 then (forN 8 (fun n s => s.seCount n) s).mbmPush else s
  if p ≠ 0 then s
  else
    let s := s.timersCount false
    let q := (s.clk.slowPhase + 1) % 1000
    let s := { s with clk := { s.clk with slowPhase := q } }
    if q = 0 then ({ s with clk := { s.clk with slow := s.clk.slow + 1 } }).timersCount true else s

/-- One CORE cycle of the running part. -/
def State.coreCycle (s : State) : State :=
  let s := { s with clk := { s.clk with tb := s.clk.tb + 1 }, coh := { s.coh with busy := busyDown s.coh.busy } }
  let s := forN 7 (fun p s => s.portAge p) (forN 12 (fun m s => (s.pwmAge m 2).pwmReached m) s)
  (forN 4 (fun l s => s.mbmGain l) (forN 16 (fun c s => s.dmaGain c) (forN 4 (fun n s => (s.age n 1).chainFetch n) s))).dividers

/-- The timebase advances with the crystal: in STANDBY, or in a commanded OFF whose root was lost and has come back, with the
root present and no collapse (R48, R49, R64). -/
def State.tbOnCrystal (s : State) : Bool :=
  s.alwaysOn && !s.clk.rootLost && !s.clk.lg.collapse
    && (s.pwr == pwrSTANDBY || (decide (s.clk.pll = .off) && match s.clk.trans with | .toOff _ => true | _ => false))

/-- An idle step: one CORE cycle, or one crystal period, in which the timebase advances by 16 (R48, R49). In every other state
the clocks stand. -/
def State.idle (s : State) : State :=
  if s.live then s.coreCycle
  else if s.tbOnCrystal then { s with clk := { s.clk with tb := s.clk.tb + 16 } }
  else s

end Sys2Proof.Machine
end

