-- ==== Sys2Proof/Machine/Dispatch.lean ====
section
/-!
DEFINITION. The meaning of every command: one arm per row of the table.
-/
namespace Sys2Proof.Machine

/-- The effect of a command on everything but the queue. -/
def exec (i : Instr) (s : State) : Host.Outcome State Fault Refusal :=
  match i with
  | .registerWrite src addr val be tlp coin => Sys2Proof.Machine.execRegisterWrite src addr val be tlp coin s
  | .powerOnReset testHigh => Sys2Proof.Machine.execPowerOnReset testHigh s
  | .vddioDReleaseTimer => Sys2Proof.Machine.execVddioDReleaseTimer s
  | .pinReset ns vdd33Ok amid => Sys2Proof.Machine.execPinReset ns vdd33Ok amid s
  | .resetRelease bootsel vddioD33 => Sys2Proof.Machine.execResetRelease bootsel vddioD33 s
  | .crystalEdgesSeen => Sys2Proof.Machine.execCrystalEdgesSeen s
  | .pllLock => Sys2Proof.Machine.execPllLock s
  | .pllLockTimeout => Sys2Proof.Machine.execPllLockTimeout s
  | .memoryInitDone => Sys2Proof.Machine.execMemoryInitDone s
  | .rootLoss => Sys2Proof.Machine.execRootLoss s
  | .rootReturn => Sys2Proof.Machine.execRootReturn s
  | .guardLoss => Sys2Proof.Machine.execGuardLoss s
  | .tbloRead src tlp => Sys2Proof.Machine.execTbloRead src tlp s
  | .timerExpiry n => Sys2Proof.Machine.execTimerExpiry n s
  | .railSample codes vin vdd33mV => Sys2Proof.Machine.execRailSample codes vin vdd33mV s
  | .railConditionReport rail cond => Sys2Proof.Machine.execRailConditionReport rail cond s
  | .seqcmdUp => Sys2Proof.Machine.execSeqcmdUp s
  | .seqcmdDown => Sys2Proof.Machine.execSeqcmdDown s
  | .seqFaultnReleased => Sys2Proof.Machine.execSeqFaultnReleased s
  | .seqPositionAdvance => Sys2Proof.Machine.execSeqPositionAdvance s
  | .pgTmo rail => Sys2Proof.Machine.execPgTmo rail s
  | .shutdownPositionAdvance => Sys2Proof.Machine.execShutdownPositionAdvance s
  | .stepTmo rail => Sys2Proof.Machine.execStepTmo rail s
  | .extFault => Sys2Proof.Machine.execExtFault s
  | .collapse byVdd33 byVin => Sys2Proof.Machine.execCollapse byVdd33 byVin s
  | .lastGaspWrite => Sys2Proof.Machine.execLastGaspWrite s
  | .pwrcmdRun => Sys2Proof.Machine.execPwrcmdRun s
  | .pwrcmdTrim => Sys2Proof.Machine.execPwrcmdTrim s
  | .pwrcmdStandby => Sys2Proof.Machine.execPwrcmdStandby s
  | .pwrcmdOff => Sys2Proof.Machine.execPwrcmdOff s
  | .clkgateWrite val => Sys2Proof.Machine.execClkgateWrite val s
  | .rstcmdDevice src val => Sys2Proof.Machine.execRstcmdDevice src val s
  | .deviceReset => Sys2Proof.Machine.execDeviceReset s
  | .linkReset => Sys2Proof.Machine.execLinkReset s
  | .perstRelease => Sys2Proof.Machine.execPerstRelease s
  | .dataLinkDown => Sys2Proof.Machine.execDataLinkDown s
  | .inBandHotReset => Sys2Proof.Machine.execInBandHotReset s
  | .functionLevelReset => Sys2Proof.Machine.execFunctionLevelReset s
  | .coreResetAssert n => Sys2Proof.Machine.execCoreResetAssert n s
  | .coreResetHeld n => Sys2Proof.Machine.execCoreResetHeld n s
  | .coreResetRelease n => Sys2Proof.Machine.execCoreResetRelease n s
  | .bootItemRead item => Sys2Proof.Machine.execBootItemRead item s
  | .bootCheckOutcome => Sys2Proof.Machine.execBootCheckOutcome s
  | .bootCopyDone => Sys2Proof.Machine.execBootCopyDone s
  | .bootgo val => Sys2Proof.Machine.execBootgo val s
  | .bootforce val => Sys2Proof.Machine.execBootforce val s
  | .configRequest write dword val be => Sys2Proof.Machine.execConfigRequest write dword val be s
  | .bar2Read addr tlp => Sys2Proof.Machine.execBar2Read addr tlp s
  | .bar2Write addr val be tlp => Sys2Proof.Machine.execBar2Write addr val be tlp s
  | .outboundAccess src write y val va => Sys2Proof.Machine.execOutboundAccess src write y val va s
  | .cmdDoorbell val => Sys2Proof.Machine.execCmdDoorbell val s
  | .cplDoorbell val => Sys2Proof.Machine.execCplDoorbell val s
  | .evDoorbell val => Sys2Proof.Machine.execEvDoorbell val s
  | .recDoorbell k val => Sys2Proof.Machine.execRecDoorbell k val s
  | .recIdxRead k same tlp => Sys2Proof.Machine.execRecIdxRead k same tlp s
  | .ringCfgWrite ring val => Sys2Proof.Machine.execRingCfgWrite ring val s
  | .descriptorFetch => Sys2Proof.Machine.execDescriptorFetch s
  | .descriptorFetchDone r => Sys2Proof.Machine.execDescriptorFetchDone r s
  | .eventHoldDrain => Sys2Proof.Machine.execEventHoldDrain s
  | .recordPost k val => Sys2Proof.Machine.execRecordPost k val s
  | .postReadDone k => Sys2Proof.Machine.execPostReadDone k s
  | .vectorModerationTimeout v => Sys2Proof.Machine.execVectorModerationTimeout v s
  | .fwirqWrite val => Sys2Proof.Machine.execFwirqWrite val s
  | .heartbeat => Sys2Proof.Machine.execHeartbeat s
  | .heartbeatTimeout inSlowCycle => Sys2Proof.Machine.execHeartbeatTimeout inSlowCycle s
  | .hostLossPolicyApply x => Sys2Proof.Machine.execHostLossPolicyApply x s
  | .nop => Sys2Proof.Machine.execNop s
  | .echo => Sys2Proof.Machine.execEcho s
  | .echoWord3 => Sys2Proof.Machine.execEchoWord3 s
  | .setpower => Sys2Proof.Machine.execSetpower s
  | .devreset => Sys2Proof.Machine.execDevreset s
  | .imgload => Sys2Proof.Machine.execImgload s
  | .commandHostRead r => Sys2Proof.Machine.execCommandHostRead r s
  | .plateload => Sys2Proof.Machine.execPlateload s
  | .paramwrite => Sys2Proof.Machine.execParamwrite s
  | .paramwriteWaitTimeout => Sys2Proof.Machine.execParamwriteWaitTimeout s
  | .setpoint => Sys2Proof.Machine.execSetpoint s
  | .sloten => Sys2Proof.Machine.execSloten s
  | .slotreset => Sys2Proof.Machine.execSlotreset s
  | .inject => Sys2Proof.Machine.execInject s
  | .injectTimeout => Sys2Proof.Machine.execInjectTimeout s
  | .musterload => Sys2Proof.Machine.execMusterload s
  | .musterstart => Sys2Proof.Machine.execMusterstart s
  | .musterstop => Sys2Proof.Machine.execMusterstop s
  | .musterstopTimeout => Sys2Proof.Machine.execMusterstopTimeout s
  | .musternow => Sys2Proof.Machine.execMusternow s
  | .admitObject => Sys2Proof.Machine.execAdmitObject s
  | .pen => Sys2Proof.Machine.execPen s
  | .portproof => Sys2Proof.Machine.execPortproof s
  | .portProofDone failed => Sys2Proof.Machine.execPortProofDone failed s
  | .portproofTimeout => Sys2Proof.Machine.execPortproofTimeout s
  | .adccal => Sys2Proof.Machine.execAdccal s
  | .memproof => Sys2Proof.Machine.execMemproof s
  | .memproofDone failed addr => Sys2Proof.Machine.execMemproofDone failed addr s
  | .dmareserve => Sys2Proof.Machine.execDmareserve s
  | .ledgerquery => Sys2Proof.Machine.execLedgerquery s
  | .literal n v => Sys2Proof.Machine.execLiteral n v s
  | .br n off => Sys2Proof.Machine.execBr n off s
  | .bz n off => Sys2Proof.Machine.execBz n off s
  | .bnz n off => Sys2Proof.Machine.execBnz n off s
  | .loop n off => Sys2Proof.Machine.execLoop n off s
  | .call n target => Sys2Proof.Machine.execCall n target s
  | .dup n => Sys2Proof.Machine.execDup n s
  | .drop n => Sys2Proof.Machine.execDrop n s
  | .swap n => Sys2Proof.Machine.execSwap n s
  | .overWord n => Sys2Proof.Machine.execOverWord n s
  | .rot n => Sys2Proof.Machine.execRot n s
  | .nip n => Sys2Proof.Machine.execNip n s
  | .tuck n => Sys2Proof.Machine.execTuck n s
  | .twoDup n => Sys2Proof.Machine.execTwoDup n s
  | .twoDrop n => Sys2Proof.Machine.execTwoDrop n s
  | .pick n => Sys2Proof.Machine.execPick n s
  | .toR n => Sys2Proof.Machine.execToR n s
  | .rFrom n => Sys2Proof.Machine.execRFrom n s
  | .rFetch n => Sys2Proof.Machine.execRFetch n s
  | .rdrop n => Sys2Proof.Machine.execRdrop n s
  | .minusRot n => Sys2Proof.Machine.execMinusRot n s
  | .add n => Sys2Proof.Machine.execAdd n s
  | .sub n => Sys2Proof.Machine.execSub n s
  | .adc n => Sys2Proof.Machine.execAdc n s
  | .sbc n => Sys2Proof.Machine.execSbc n s
  | .adds n => Sys2Proof.Machine.execAdds n s
  | .subs n => Sys2Proof.Machine.execSubs n s
  | .neg n => Sys2Proof.Machine.execNeg n s
  | .abs n => Sys2Proof.Machine.execAbs n s
  | .and n => Sys2Proof.Machine.execAnd n s
  | .or n => Sys2Proof.Machine.execOr n s
  | .xor n => Sys2Proof.Machine.execXor n s
  | .inv n => Sys2Proof.Machine.execInv n s
  | .onePlus n => Sys2Proof.Machine.execOnePlus n s
  | .oneMinus n => Sys2Proof.Machine.execOneMinus n s
  | .twoStar n => Sys2Proof.Machine.execTwoStar n s
  | .twoSlash n => Sys2Proof.Machine.execTwoSlash n s
  | .shl n => Sys2Proof.Machine.execShl n s
  | .shr n => Sys2Proof.Machine.execShr n s
  | .asr n => Sys2Proof.Machine.execAsr n s
  | .rol n => Sys2Proof.Machine.execRol n s
  | .min n => Sys2Proof.Machine.execMin n s
  | .max n => Sys2Proof.Machine.execMax n s
  | .clip n => Sys2Proof.Machine.execClip n s
  | .ext n => Sys2Proof.Machine.execExt n s
  | .equal n => Sys2Proof.Machine.execEqual n s
  | .notEqual n => Sys2Proof.Machine.execNotEqual n s
  | .less n => Sys2Proof.Machine.execLess n s
  | .greater n => Sys2Proof.Machine.execGreater n s
  | .uLess n => Sys2Proof.Machine.execULess n s
  | .uGreater n => Sys2Proof.Machine.execUGreater n s
  | .zeroEqual n => Sys2Proof.Machine.execZeroEqual n s
  | .zeroLess n => Sys2Proof.Machine.execZeroLess n s
  | .mul n => Sys2Proof.Machine.execMul n s
  | .umul n => Sys2Proof.Machine.execUmul n s
  | .mac n => Sys2Proof.Machine.execMac n s
  | .msc n => Sys2Proof.Machine.execMsc n s
  | .macz n => Sys2Proof.Machine.execMacz n s
  | .div n => Sys2Proof.Machine.execDiv n s
  | .udiv n => Sys2Proof.Machine.execUdiv n s
  | .ldiv n => Sys2Proof.Machine.execLdiv n s
  | .multiplierResult n => Sys2Proof.Machine.execMultiplierResult n s
  | .dividerResult n => Sys2Proof.Machine.execDividerResult n s
  | .mlFetch n => Sys2Proof.Machine.execMlFetch n s
  | .mhFetch n => Sys2Proof.Machine.execMhFetch n s
  | .dqFetch n => Sys2Proof.Machine.execDqFetch n s
  | .dmFetch n => Sys2Proof.Machine.execDmFetch n s
  | .mas n => Sys2Proof.Machine.execMas n s
  | .maclr n => Sys2Proof.Machine.execMaclr n s
  | .fetch n dev => Sys2Proof.Machine.execFetch n dev s
  | .store n => Sys2Proof.Machine.execStore n s
  | .cFetch n dev => Sys2Proof.Machine.execCFetch n dev s
  | .cStore n => Sys2Proof.Machine.execCStore n s
  | .twoFetch n dev => Sys2Proof.Machine.execTwoFetch n dev s
  | .twoStore n => Sys2Proof.Machine.execTwoStore n s
  | .fFetch n dev => Sys2Proof.Machine.execFFetch n dev s
  | .fStore n => Sys2Proof.Machine.execFStore n s
  | .f2Fetch n dev => Sys2Proof.Machine.execF2Fetch n dev s
  | .f2Store n => Sys2Proof.Machine.execF2Store n s
  | .plusStore n dev => Sys2Proof.Machine.execPlusStore n dev s
  | .xchg n => Sys2Proof.Machine.execXchg n s
  | .cas n => Sys2Proof.Machine.execCas n s
  | .fadd n => Sys2Proof.Machine.execFadd n s
  | .fence n => Sys2Proof.Machine.execFence n s
  | .dcwb n => Sys2Proof.Machine.execDcwb n s
  | .dcinv n => Sys2Proof.Machine.execDcinv n s
  | .icinv n => Sys2Proof.Machine.execIcinv n s
  | .isync n => Sys2Proof.Machine.execIsync n s
  | .qpush n => Sys2Proof.Machine.execQpush n s
  | .qpop n => Sys2Proof.Machine.execQpop n s
  | .qpopReply n => Sys2Proof.Machine.execQpopReply n s
  | .flush n => Sys2Proof.Machine.execFlush n s
  | .ret n => Sys2Proof.Machine.execRet n s
  | .exec n => Sys2Proof.Machine.execExec n s
  | .fexec n => Sys2Proof.Machine.execFexec n s
  | .jmp n => Sys2Proof.Machine.execJmp n s
  | .fjmp n => Sys2Proof.Machine.execFjmp n s
  | .trap n => Sys2Proof.Machine.execTrap n s
  | .reti n late => Sys2Proof.Machine.execReti n late s
  | .wait n => Sys2Proof.Machine.execWait n s
  | .brk n => Sys2Proof.Machine.execBrk n s
  | .srFetch n => Sys2Proof.Machine.execSrFetch n s
  | .srStore n => Sys2Proof.Machine.execSrStore n s
  | .dbrFetch n => Sys2Proof.Machine.execDbrFetch n s
  | .dbrStore n => Sys2Proof.Machine.execDbrStore n s
  | .tlbi n => Sys2Proof.Machine.execTlbi n s
  | .tlbia n => Sys2Proof.Machine.execTlbia n s
  | .storeDrain n => Sys2Proof.Machine.execStoreDrain n s
  | .wbusAsync n => Sys2Proof.Machine.execWbusAsync n s
  | .pageWalk n va kind => Sys2Proof.Machine.execPageWalk n va kind s
  | .interruptEntry n late => Sys2Proof.Machine.execInterruptEntry n late s
  | .swi val => Sys2Proof.Machine.execSwi val s
  | .setpend n hi val => Sys2Proof.Machine.execSetpend n hi val s
  | .clrpend n hi val => Sys2Proof.Machine.execClrpend n hi val s
  | .haltRequest n => Sys2Proof.Machine.execHaltRequest n s
  | .coreHalt n cause => Sys2Proof.Machine.execCoreHalt n cause s
  | .haltRelease k => Sys2Proof.Machine.execHaltRelease k s
  | .debugStep val => Sys2Proof.Machine.execDebugStep val s
  | .kleHaltRequest => Sys2Proof.Machine.execKleHaltRequest s
  | .dmaStart c => Sys2Proof.Machine.execDmaStart c s
  | .dmaStop c => Sys2Proof.Machine.execDmaStop c s
  | .dmaResume c => Sys2Proof.Machine.execDmaResume c s
  | .dmaDescriptorFetch c dev => Sys2Proof.Machine.execDmaDescriptorFetch c dev s
  | .dmaElement c dev again req ahead => Sys2Proof.Machine.execDmaElement c dev again req ahead s
  | .dmainv val => Sys2Proof.Machine.execDmainv val s
  | .dmainvDone => Sys2Proof.Machine.execDmainvDone s
  | .rds n line => Sys2Proof.Machine.execRds n line s
  | .rdu n line => Sys2Proof.Machine.execRdu n line s
  | .upg n line => Sys2Proof.Machine.execUpg n line s
  | .wbk n line => Sys2Proof.Machine.execWbk n line s
  | .rdo k n line => Sys2Proof.Machine.execRdo k n line s
  | .wri p addr val be => Sys2Proof.Machine.execWri p addr val be s
  | .atm n op addr x cmp => Sys2Proof.Machine.execAtm n op addr x cmp s
  | .go p => Sys2Proof.Machine.execGo p s
  | .ledgerWindow stage => Sys2Proof.Machine.execLedgerWindow stage s
  | .scrub => Sys2Proof.Machine.execScrub s
  | .mramMirror => Sys2Proof.Machine.execMramMirror s
  | .poolPush p => Sys2Proof.Machine.execPoolPush p s
  | .poolPop p => Sys2Proof.Machine.execPoolPop p s
  | .cellRelease q => Sys2Proof.Machine.execCellRelease q s
  | .freeListRebuild => Sys2Proof.Machine.execFreeListRebuild s
  | .poolScrub => Sys2Proof.Machine.execPoolScrub s
  | .hqpush val => Sys2Proof.Machine.execHqpush val s
  | .hpop q tlp => Sys2Proof.Machine.execHpop q tlp s
  | .qcfgWrite q val => Sys2Proof.Machine.execQcfgWrite q val s
  | .rawViewWrite off val => Sys2Proof.Machine.execRawViewWrite off val s
  | .adcTrigger n j code ready => Sys2Proof.Machine.execAdcTrigger n j code ready s
  | .adcSwtrig val => Sys2Proof.Machine.execAdcSwtrig val s
  | .adcSample n => Sys2Proof.Machine.execAdcSample n s
  | .adcConversionEnd n code => Sys2Proof.Machine.execAdcConversionEnd n code s
  | .adcFifoRead n same tlp => Sys2Proof.Machine.execAdcFifoRead n same tlp s
  | .adcCalibrationStep n aborted off gain => Sys2Proof.Machine.execAdcCalibrationStep n aborted off gain s
  | .adcProof val => Sys2Proof.Machine.execAdcProof val s
  | .sinc3Result n clocks bits => Sys2Proof.Machine.execSinc3Result n clocks bits s
  | .sdSync n clocks => Sys2Proof.Machine.execSdSync n clocks s
  | .swsync val => Sys2Proof.Machine.execSwsync val s
  | .sdtTrip n bits => Sys2Proof.Machine.execSdtTrip n bits s
  | .sdClkmiss n => Sys2Proof.Machine.execSdClkmiss n s
  | .sdStuck n bits => Sys2Proof.Machine.execSdStuck n bits s
  | .comparatorActive k code edges => Sys2Proof.Machine.execComparatorActive k code edges s
  | .blankingEnd k => Sys2Proof.Machine.execBlankingEnd k s
  | .cmpThrWrite k val => Sys2Proof.Machine.execCmpThrWrite k val s
  | .cmpProof val follows => Sys2Proof.Machine.execCmpProof val follows s
  | .kleDoorbell val => Sys2Proof.Machine.execKleDoorbell val s
  | .slotStart => Sys2Proof.Machine.execSlotStart s
  | .preemption => Sys2Proof.Machine.execPreemption s
  | .deadlineOverrun x => Sys2Proof.Machine.execDeadlineOverrun x s
  | .hatchVote coin => Sys2Proof.Machine.execHatchVote coin s
  | .slotResetEffect x => Sys2Proof.Machine.execSlotResetEffect x s
  | .lin => Sys2Proof.Machine.execLin s
  | .pi => Sys2Proof.Machine.execPi s
  | .pid => Sys2Proof.Machine.execPid s
  | .leadlag => Sys2Proof.Machine.execLeadlag s
  | .biquad => Sys2Proof.Machine.execBiquad s
  | .pr => Sys2Proof.Machine.execPr s
  | .ss => Sys2Proof.Machine.execSs s
  | .clarke => Sys2Proof.Machine.execClarke s
  | .park => Sys2Proof.Machine.execPark s
  | .ipark => Sys2Proof.Machine.execIpark s
  | .iclarke => Sys2Proof.Machine.execIclarke s
  | .svm => Sys2Proof.Machine.execSvm s
  | .sincos => Sys2Proof.Machine.execSincos s
  | .table => Sys2Proof.Machine.execTable s
  | .cmpsel => Sys2Proof.Machine.execCmpsel s
  | .clipBlock => Sys2Proof.Machine.execClipBlock s
  | .integ => Sys2Proof.Machine.execInteg s
  | .learn => Sys2Proof.Machine.execLearn s
  | .outpwm => Sys2Proof.Machine.execOutpwm s
  | .outq => Sys2Proof.Machine.execOutq s
  | .latch coin => Sys2Proof.Machine.execLatch coin s
  | .divsqrt => Sys2Proof.Machine.execDivsqrt s
  | .paramWindowWrite x w val => Sys2Proof.Machine.execParamWindowWrite x w val s
  | .signalWordWrite x w val => Sys2Proof.Machine.execSignalWordWrite x w val s
  | .plateWrite src x w val => Sys2Proof.Machine.execPlateWrite src x w val s
  | .platechk val => Sys2Proof.Machine.execPlatechk val s
  | .enset val => Sys2Proof.Machine.execEnset val s
  | .enclr val => Sys2Proof.Machine.execEnclr val s
  | .slotrst val => Sys2Proof.Machine.execSlotrst val s
  | .learnClear x => Sys2Proof.Machine.execLearnClear x s
  | .learnClearDone x => Sys2Proof.Machine.execLearnClearDone x s
  | .injctlWrite x val => Sys2Proof.Machine.execInjctlWrite x val s
  | .zero m => Sys2Proof.Machine.execZero m s
  | .period m => Sys2Proof.Machine.execPeriod m s
  | .cau m => Sys2Proof.Machine.execCau m s
  | .cad m => Sys2Proof.Machine.execCad m s
  | .cbu m => Sys2Proof.Machine.execCbu m s
  | .cbd m => Sys2Proof.Machine.execCbd m s
  | .immediateLoad m => Sys2Proof.Machine.execImmediateLoad m s
  | .syncin m => Sys2Proof.Machine.execSyncin m s
  | .gsync val => Sys2Proof.Machine.execGsync val s
  | .gstart val => Sys2Proof.Machine.execGstart val s
  | .swtrip m val => Sys2Proof.Machine.execSwtrip m val s
  | .pwmTrip m => Sys2Proof.Machine.execPwmTrip m s
  | .outEnableWrite m val => Sys2Proof.Machine.execOutEnableWrite m val s
  | .delayLineLock => Sys2Proof.Machine.execDelayLineLock s
  | .diagPulse o sense => Sys2Proof.Machine.execDiagPulse o sense s
  | .captureEdge b rise held back => Sys2Proof.Machine.execCaptureEdge b rise held back s
  | .captureRecordRead n same tlp => Sys2Proof.Machine.execCaptureRecordRead n same tlp s
  | .captureArm n val => Sys2Proof.Machine.execCaptureArm n val s
  | .qdEdge d onB both held back => Sys2Proof.Machine.execQdEdge d onB both held back s
  | .qdIndex d => Sys2Proof.Machine.execQdIndex d s
  | .qdSpeedDecay d => Sys2Proof.Machine.execQdSpeedDecay d s
  | .qdStall d edge => Sys2Proof.Machine.execQdStall d edge s
  | .qdRouteSample d => Sys2Proof.Machine.execQdRouteSample d s
  | .musterPeriodTick n => Sys2Proof.Machine.execMusterPeriodTick n s
  | .mbmTrig val => Sys2Proof.Machine.execMbmTrig val s
  | .bellwetherPortStart n port late => Sys2Proof.Machine.execBellwetherPortStart n port late s
  | .entryStart n e => Sys2Proof.Machine.execEntryStart n e s
  | .runaheadStart n e => Sys2Proof.Machine.execRunaheadStart n e s
  | .entryAttemptEnd n e status dataNack bytes => Sys2Proof.Machine.execEntryAttemptEnd n e status dataNack bytes s
  | .musterDeadlineExpiry n => Sys2Proof.Machine.execMusterDeadlineExpiry n s
  | .commit n => Sys2Proof.Machine.execCommit n s
  | .foldFlip n => Sys2Proof.Machine.execFoldFlip n s
  | .droverCopy n => Sys2Proof.Machine.execDroverCopy n s
  | .twStretchTimeout p => Sys2Proof.Machine.execTwStretchTimeout p s
  | .attemptTimeout port => Sys2Proof.Machine.execAttemptTimeout port s
  | .cmdrdConvWait p => Sys2Proof.Machine.execCmdrdConvWait p s
  | .twSwctlGo p val => Sys2Proof.Machine.execTwSwctlGo p val s
  | .twTransactionEnd p e bytes => Sys2Proof.Machine.execTwTransactionEnd p e bytes s
  | .crookCallDetect p => Sys2Proof.Machine.execCrookCallDetect p s
  | .crookIdentification p => Sys2Proof.Machine.execCrookIdentification p s
  | .crookIdentificationEnd p acked byte => Sys2Proof.Machine.execCrookIdentificationEnd p acked byte s
  | .stuckLine p scl sda cleared => Sys2Proof.Machine.execStuckLine p scl sda cleared s
  | .portSettleExpiry p scl sda => Sys2Proof.Machine.execPortSettleExpiry p scl sda s
  | .stuckConsecDecay p => Sys2Proof.Machine.execStuckConsecDecay p s
  | .portProbe p scl sda => Sys2Proof.Machine.execPortProbe p scl sda s
  | .adaptWindowEnd p => Sys2Proof.Machine.execAdaptWindowEnd p s
  | .dsSwctlGo p val => Sys2Proof.Machine.execDsSwctlGo p val s
  | .dsFrameEnd p edges words => Sys2Proof.Machine.execDsFrameEnd p edges words s
  | .dsTargetFrame k bits cut words => Sys2Proof.Machine.execDsTargetFrame k bits cut words s
  | .dsRxdataRead p same tlp => Sys2Proof.Machine.execDsRxdataRead p same tlp s
  | .dsRxlenRead p same tlp => Sys2Proof.Machine.execDsRxlenRead p same tlp s
  | .dsTxdata p val => Sys2Proof.Machine.execDsTxdata p val s
  | .flashWindowRead src f size bytes => Sys2Proof.Machine.execFlashWindowRead src f size bytes s
  | .seRun n => Sys2Proof.Machine.execSeRun n s
  | .seRunClear n => Sys2Proof.Machine.execSeRunClear n s
  | .seGstart val => Sys2Proof.Machine.execSeGstart val s
  | .phrst val => Sys2Proof.Machine.execPhrst val s
  | .seLoad n addr => Sys2Proof.Machine.execSeLoad n addr s
  | .seLoadDone n => Sys2Proof.Machine.execSeLoadDone n s
  | .seParamWrite n w val => Sys2Proof.Machine.execSeParamWrite n w val s
  | .seWaitSatisfied n gaveUp back => Sys2Proof.Machine.execSeWaitSatisfied n gaveUp back s
  | .seNop n => Sys2Proof.Machine.execSeNop n s
  | .seSet n => Sys2Proof.Machine.execSeSet n s
  | .seWaite n => Sys2Proof.Machine.execSeWaite n s
  | .seWaitl n lvl => Sys2Proof.Machine.execSeWaitl n lvl s
  | .seDelay n => Sys2Proof.Machine.execSeDelay n s
  | .seAt n => Sys2Proof.Machine.execSeAt n s
  | .seSince n => Sys2Proof.Machine.execSeSince n s
  | .seLdi n => Sys2Proof.Machine.execSeLdi n s
  | .seLdh n => Sys2Proof.Machine.execSeLdh n s
  | .seMov n => Sys2Proof.Machine.execSeMov n s
  | .seAdd n => Sys2Proof.Machine.execSeAdd n s
  | .seSub n => Sys2Proof.Machine.execSeSub n s
  | .seCmp n => Sys2Proof.Machine.execSeCmp n s
  | .seAnd n => Sys2Proof.Machine.execSeAnd n s
  | .seShr n => Sys2Proof.Machine.execSeShr n s
  | .seMul n => Sys2Proof.Machine.execSeMul n s
  | .seDivr n => Sys2Proof.Machine.execSeDivr n s
  | .seRev n => Sys2Proof.Machine.execSeRev n s
  | .seJmp n => Sys2Proof.Machine.execSeJmp n s
  | .seShi n lvl => Sys2Proof.Machine.execSeShi n lvl s
  | .seSho n => Sys2Proof.Machine.execSeSho n s
  | .seCrci n => Sys2Proof.Machine.execSeCrci n s
  | .seCrcf n => Sys2Proof.Machine.execSeCrcf n s
  | .seOpen n => Sys2Proof.Machine.execSeOpen n s
  | .seOut n => Sys2Proof.Machine.execSeOut n s
  | .seCmt n => Sys2Proof.Machine.execSeCmt n s
  | .sePushq n => Sys2Proof.Machine.execSePushq n s
  | .seGetk n => Sys2Proof.Machine.execSeGetk n s
  | .seRdc n => Sys2Proof.Machine.execSeRdc n s
  | .seBwpt n => Sys2Proof.Machine.execSeBwpt n s
  | .seMark n => Sys2Proof.Machine.execSeMark n s
  | .seRet n => Sys2Proof.Machine.execSeRet n s
  | .seLdp n => Sys2Proof.Machine.execSeLdp n s
  | .sePload n => Sys2Proof.Machine.execSePload n s
  | .seIrq n => Sys2Proof.Machine.execSeIrq n s
  | .seStop n => Sys2Proof.Machine.execSeStop n s
  | .ppOn n present => Sys2Proof.Machine.execPpOn n present s
  | .ppOff n => Sys2Proof.Machine.execPpOff n s
  | .ppCurrentSample n code => Sys2Proof.Machine.execPpCurrentSample n code s
  | .ppWarning n => Sys2Proof.Machine.execPpWarning n s
  | .ppTrip n => Sys2Proof.Machine.execPpTrip n s
  | .inrushEnd n => Sys2Proof.Machine.execInrushEnd n s
  | .insertion n => Sys2Proof.Machine.execInsertion n s
  | .removal n => Sys2Proof.Machine.execRemoval n s
  | .ppSettleEnd n => Sys2Proof.Machine.execPpSettleEnd n s
  | .identityCheckDone n value failed => Sys2Proof.Machine.execIdentityCheckDone n value failed s
  | .backoffEnd n => Sys2Proof.Machine.execBackoffEnd n s
  | .holdExpiry n => Sys2Proof.Machine.execHoldExpiry n s
  | .powerCycleRequest p => Sys2Proof.Machine.execPowerCycleRequest p s
  | .cycleOffEnd n => Sys2Proof.Machine.execCycleOffEnd n s
  | .ipeakRead src n same tlp => Sys2Proof.Machine.execIpeakRead src n same tlp s
  | .linkTrainingDone speed width => Sys2Proof.Machine.execLinkTrainingDone speed width s
  | .phySuppliesValid => Sys2Proof.Machine.execPhySuppliesValid s
  | .edgeCounterEdge n rise back => Sys2Proof.Machine.execEdgeCounterEdge n rise back s
  | .bellwetherEnd n port acked => Sys2Proof.Machine.execBellwetherEnd n port acked s
  | .adcProofConversion n code => Sys2Proof.Machine.execAdcProofConversion n code s
  | .nopOperation n => Sys2Proof.Machine.execNopOperation n s
  | .undefinedOperation n code => Sys2Proof.Machine.execUndefinedOperation n code s
  | .seUndefinedOperation n => Sys2Proof.Machine.execSeUndefinedOperation n s
  | .ioOrLockedRequest locked => Sys2Proof.Machine.execIoOrLockedRequest locked s

end Sys2Proof.Machine
end

