-- ==== Sys2Proof/Machine/Balls.lean ====
section
/-!
DEFINITION. Table 18-1, Table 3-3, R980, R997, R998: the signal balls and what the part does with each of them in a state.
-/
namespace Sys2Proof.Machine

/-- The signal balls (Table 18-1) and the reserved ones (R961). -/
inductive Ball where
  | ain (n : Fin 32) | vrefp | vrefn | thermP | thermN | xtalIn | xtalOut
  | railSense (r : Fin 8) | vinSense | railEn (r : Fin 8)
  | twScl (n : Fin 8) | twSda (n : Fin 8)
  | sdD (n : Fin 8) | sdClk (n : Fin 8)
  | pwmA (m : Fin 12) | pwmB (m : Fin 12)
  | capIn (n : Fin 16)
  | qdA (d : Fin 4) | qdB (d : Fin 4) | qdI (d : Fin 4)
  | sp (b : Fin 32)
  | ppEn (n : Fin 8) | pres (n : Fin 8) | ppIsense (n : Fin 8)
  | pcieRx (lane : Fin 2) (neg : Bool) | pcieTx (lane : Fin 2) (neg : Bool) | pcieRefclk (neg : Bool) | pcieRref
  | clkreqN | resetN | perstN | bootsel (i : Fin 2) | faultN | tck | tms | tdi | tdo | trstN | test (i : Fin 6)
  | dsClk (d : Fin 4) | dsDqs (d : Fin 4) | dsD (d : Fin 4) (lane : Fin 4) | dsCsN (d : Fin 4) (c : Fin 4)
  | reserved (i : Fin 4)
  deriving DecidableEq, Repr

/-- Position of a ball on the package: its row counted from A (E is 5, H 8, N 13, P 14, T 15, W 18, Y 19, AA 20, AC 22) and its
column (Table 18-1). -/
def Ball.pos : Ball → Nat × Nat
  | .ain n => (1 + n.val / 16, 1 + n.val % 16)
  | .vrefp => (1, 17)
  | .vrefn => (1, 18)
  | .thermP => (1, 19)
  | .thermN => (1, 20)
  | .xtalIn => (1, 21)
  | .xtalOut => (1, 22)
  | .railSense r => (3, 1 + r.val)
  | .vinSense => (3, 9)
  | .railEn r => (3, 11 + r.val)
  | .twScl n => if n.val < 3 then (4, 17 + 2 * n.val) else if n.val < 6 then (2, 11 + 2 * n.val) else (3, 7 + 2 * n.val)
  | .twSda n => if n.val < 3 then (4, 18 + 2 * n.val) else if n.val < 6 then (2, 12 + 2 * n.val) else (3, 8 + 2 * n.val)
  | .sdD n => (4, 2 * n.val + 1)
  | .sdClk n => (4, 2 * n.val + 2)
  | .pwmA m => (packRow m.val, 1)
  | .pwmB m => (packRow m.val, 2)
  | .capIn n => if n.val < 14 then (packRow n.val, 3) else (17, n.val - 13)
  | .qdA d => (packRow (3 * d.val), 4)
  | .qdB d => (packRow (3 * d.val + 1), 4)
  | .qdI d => (packRow (3 * d.val + 2), 4)
  | .sp b => if b.val < 14 then (packRow b.val, 22) else if b.val < 28 then (packRow (b.val - 14), 21) else (5 + (b.val - 28), 20)
  | .ppEn n => (packRow n.val, 19)
  | .pres n => if n.val < 6 then (packRow (8 + n.val), 19) else (17 + (n.val - 6), 20)
  | .ppIsense n => (packRow (4 + n.val), 20)
  | .pcieRx lane neg => (19, 13 + 3 * lane.val + neg.toNat)
  | .pcieRefclk neg => (19, 19 + neg.toNat)
  | .pcieRref => (19, 22)
  | .pcieTx lane neg => (20, 17 + 3 * lane.val + neg.toNat)
  | .clkreqN => (20, 22)
  | .resetN => (20, 1)
  | .perstN => (20, 2)
  | .bootsel i => (20, 3 + i.val)
  | .faultN => (20, 5)
  | .tck => (20, 6)
  | .tms => (20, 7)
  | .tdi => (20, 8)
  | .tdo => (20, 9)
  | .trstN => (20, 10)
  | .test i => (20, 11 + i.val)
  | .dsClk d => dsPos d.val 0
  | .dsDqs d => dsPos d.val 1
  | .dsD d lane => dsPos d.val (2 + lane.val)
  | .dsCsN d c => dsPos d.val (6 + c.val)
  | .reserved i => (19, 1 + i.val)
where
  /-- The rows E–H, J–N, P, T–W in order: those of the columns of balls at the package's sides. -/
  packRow (k : Nat) : Nat := 5 + k
  /-- Ball k of DSd, in ascending column order. -/
  dsPos (d k : Nat) : Nat × Nat := (if d < 2 then 22 else 21, 1 + 10 * (d % 2) + k)

/-- Banks, and types of pad (Table 18-3). -/
inductive Bank where
  | aon | top | left | right | dsb | analog | clock | phy
  deriving DecidableEq, Repr
inductive Pad where
  | d33 | odf | supa | dsx | ain | ref | xtl | phy
  deriving DecidableEq, Repr

/-- Bank and pad type of a signal ball; none for a reserved one (R961, R963). -/
def Ball.bank : Ball → Option (Bank × Pad)
  | .resetN | .perstN | .bootsel _ | .tck | .tms | .tdi | .tdo | .trstN | .test _ | .railEn _ => some (.aon, .d33)
  | .faultN | .clkreqN => some (.aon, .odf)
  | .railSense _ | .vinSense => some (.aon, .supa)
  | .sdD _ | .sdClk _ => some (.top, .d33)
  | .twScl _ | .twSda _ => some (.top, .odf)
  | .pwmA _ | .pwmB _ | .capIn _ | .qdA _ | .qdB _ | .qdI _ => some (.left, .d33)
  | .sp _ | .ppEn _ => some (.right, .d33)
  | .pres _ => some (.right, .odf)
  | .dsClk _ | .dsDqs _ | .dsD _ _ | .dsCsN _ _ => some (.dsb, .dsx)
  | .ain _ | .ppIsense _ => some (.analog, .ain)
  | .vrefp | .vrefn | .thermP | .thermN => some (.analog, .ref)
  | .xtalIn | .xtalOut => some (.clock, .xtl)
  | .pcieRx _ _ | .pcieTx _ _ | .pcieRefclk _ | .pcieRref => some (.phy, .phy)
  | .reserved _ => none

/-- Supplies and grounds of the package (Table 18-2). -/
inductive Supply where
  | vdd | vss | vssa | vdda | vddioT | vddioL | vddioR | vddioD | vdd33 | vddpll | vddm | vddpx09 | vddpx18
  deriving DecidableEq, Repr

/-- The positions of a supply outside the core block (Table 18-2), by row and columns. -/
def supplyRows : Supply → List (Nat × List Nat)
  | .vdd => [(18, [5, 7, 9, 11, 13, 15, 17]), (6, [5, 18]), (8, [5, 18]), (10, [5, 18]), (12, [5, 18]), (14, [5, 18]), (16, [5, 18])]
  | .vss =>
    (7, [5, 7, 8, 9, 10, 11, 12, 13, 14, 15, 16, 18]) :: (16, [6, 7, 8, 9, 10, 11, 12, 13, 14, 15, 16, 17]) ::
    [(8, [6, 7, 16, 17]), (9, [5, 7, 16, 18]), (10, [6, 7, 16, 17]), (11, [5, 7, 16, 18]), (12, [6, 7, 16, 17]), (13, [5, 7, 16, 18]),
     (14, [6, 7, 16, 17]), (15, [5, 7, 16, 18])] ++
    [(18, [6, 8, 10, 12, 14, 16, 18]), (5, [6, 8, 10, 12, 14, 16, 18]), (17, [5, 7, 9, 11, 13, 16, 18])] ++
    [(18, [1, 2, 4]), (17, [4]), (19, [6, 8, 10, 12, 15, 18, 21]), (20, [19]), (21, [22]), (22, [22])]
  | .vssa => [(6, [7, 9, 11, 13, 15, 17]), (3, [10])]
  | .vdda => [(6, [6, 8, 10, 12, 14, 16])]
  | .vddioT => [(5, [5, 7, 9, 11, 13, 15, 17])]
  | .vddioL => [(7, [6]), (9, [6]), (11, [6]), (13, [6]), (15, [6])]
  | .vddioR => [(7, [17]), (9, [17]), (11, [17]), (13, [17]), (15, [17])]
  | .vddioD => [(17, [6, 8, 10])]
  | .vdd33 => [(19, [5, 7])]
  | .vddpll => [(19, [9])]
  | .vddm => [(19, [11])]
  | .vddpx09 => [(17, [12, 14]), (22, [21])]
  | .vddpx18 => [(17, [15, 17]), (21, [21])]

/-- The ball at a position belongs to a supply (Table 18-2): in the core block VDD on even sums of row and column, VSS on odd ones. -/
def Supply.at_ (p : Supply) (row col : Nat) : Bool :=
  if 8 ≤ row && row ≤ 15 && 8 ≤ col && col ≤ 15 then
    decide (p = if (row + col) % 2 = 0 then .vdd else .vss)
  else (supplyRows p).any (fun e => e.1 == row && e.2.contains col)

/-- What the part does with a ball: it drives a level, leaves it at high impedance, with a weak pull or without, reads it, keeps a
transmitter in electrical idle, or gives it to the function of its block. -/
inductive Drive where
  | level (l : Bool)
  | highZ
  | weakDown
  | weakUp
  | input
  | electricalIdle
  | function
  deriving DecidableEq, Repr

/-- An open-drain ball: driven low, or released (R799). -/
def Drive.openDrain (low : Bool) : Drive := if low then .level false else .highZ

/-- Supplies ramp: power-on reset has not released (Table 3-3, R998). -/
def State.ramps (s : State) : Bool := decide (s.clk.phase = .porHold)

/-- The part is held in a reset. -/
def State.held (s : State) : Bool := decide (s.clk.phase ≠ .run)

/-- A ball of DDR serial port d, given what an enabled port does with it: until the port is enabled, DS0 keeps its clock low and its
selects high, and the rest are at high impedance with their weak pull-ups (Table 3-3). -/
def State.dsBall (s : State) (d : Nat) (rest on : Drive) : Drive :=
  if s.ramps then .highZ else if s.held || !s.portEn (dsId d) then rest else on

/-- The frame that port d sends, with its present half-period. -/
def State.dsNow (s : State) (d : Nat) : Option (DsFrame × Nat) :=
  match s.dsFrame (dsId d) with
  | some f => (s.dsHalf (dsId d) f).map (fun h => (f, h))
  | none => none

/-- DSCLK of an enabled port: in target mode an input (R840); else the clock of its frame, or idle in the mode of its frame, and
without one of profile 0 (R830; DESIGN CHOICE, log entry 164). -/
def State.dsClkBall (s : State) (d : Nat) : Drive :=
  if s.portTarget (dsId d) then .input
  else match s.dsNow d with
  | some (f, h) => .level (f.clk h)
  | none => .level (dsClkIdle (s.rd (Reg.DS_PROF d 0)))

/-- Select c of an enabled port: low through the frames that assert it; CS0_N of a target is an input (R827, R829, R838, R840). -/
def State.dsCsBall (s : State) (d c : Nat) : Drive :=
  if s.portTarget (dsId d) && c == 0 then .input
  else match s.dsNow d with
  | some (f, h) => .level !(f.selects.contains c && (f.phaseAt h).isSome)
  | none => .level true

/-- Lane D0 to D3 of an enabled port: its direction in the present phase (R831, R840), and the bit that it sends where one lane
carries the phase; which of several lanes carries which bit no rule says. -/
def State.dsLaneBall (s : State) (d lane : Nat) : Drive :=
  let dir (x : LaneDir) (b : Option Bool) : Drive :=
    match x with
    | .output => (b.map Drive.level).getD .function
    | .input => .input
    | .released => .highZ
  if s.portTarget (dsId d) then dir (targetLane (profLanes (s.rd (Reg.DS_PROF d 0))) lane) none
  else match s.dsNow d with
  | some (f, h) =>
    match f.phaseAt h with
    | some (ph, k) => dir (laneDir (profLanes f.prof) f.write ph lane) (if lane = 0 then f.bitAt ph k else none)
    | none => .function
  | none => .function

/-- What the part does with a ball (Table 3-3, R980, R995 to R998). -/
def State.ballAt (s : State) : Ball → Drive
  | .pwmA m => if s.ramps then .weakDown else .level (s.pwmOut m.val 0)
  | .pwmB m => if s.ramps then .weakDown else .level (s.pwmOut m.val 1)
  | .railEn r => if s.ramps then .weakDown else .level (s.railOn r.val)
  | .faultN => if s.ramps then .highZ else .openDrain (s.held || s.drivesFaultn)
  | .twScl n | .twSda n =>
    if s.held || s.use n.val = .none || s.use n.val = .proof then .highZ else .function
  | .dsClk d => s.dsBall d.val (if d.val = 0 then .level false else .weakUp) (s.dsClkBall d.val)
  | .dsCsN d c => s.dsBall d.val (if d.val = 0 then .level true else .weakUp) (s.dsCsBall d.val c.val)
  | .dsD d lane => s.dsBall d.val .weakUp (s.dsLaneBall d.val lane.val)
  | .dsDqs d => s.dsBall d.val .weakUp .input
  | .sp b =>
    if s.ramps then .highZ
    else match (if s.held then [] else s.ballDrivers b.val) with
      | [] => .input
      | l :: _ => .level l
  | .ppEn n => if s.ramps then .weakDown else .level (!s.held && s.ppIsOn n.val)
  | .pcieTx _ _ => if s.held || !(s.hif.training || s.linkUp) then .electricalIdle else .function
  | .clkreqN => if s.held || s.pwr = pwrOFF then .highZ else .level false
  | .tdo | .reserved _ => .highZ
  | .vrefp => if s.ramps then .highZ else .function
  | .xtalOut => .function
  | .sdClk n =>
    if !s.held && s.bit (Reg.SDF_SDCFG n.val) 1 then .function else .input
  | .ain _ | .vrefn | .thermP | .thermN | .xtalIn | .railSense _ | .vinSense | .sdD _ | .capIn _ | .qdA _ | .qdB _ | .qdI _
  | .pres _ | .ppIsense _ | .pcieRx _ _ | .pcieRefclk _ | .pcieRref | .resetN | .perstN | .bootsel _ | .tck | .tms | .tdi | .trstN
  | .test _ => .input

end Sys2Proof.Machine
end

