-- ==== Sys2Proof/Machine/Words.lean ====
section
/-!
DEFINITION. The instruction words of the Tsuvo cores (Tables 6-3, 6-4 and 6-5): the form of a word, and the command that an
operation of it stands for. A command of the queue is the issue of one operation; what these definitions add is which words
spell it.
-/
namespace Sys2Proof.Machine

open Sys2Proof (Instr)

/-- The four forms of an instruction word (R305, Table 6-3). -/
inductive WordForm where
  | pair (first second : BitVec 7)
  | literal (v : BitVec 14)
  | branch (cond : BitVec 2) (off : BitVec 12)
  | call (target : BitVec 14)
  deriving DecidableEq, Repr

/-- The form that bits 15:14 select, with its fields (R305). -/
def wordForm (w : Half) : WordForm :=
  match w.toNat / 2 ^ 14 with
  | 0 => .pair (w.extractLsb' 7 7) (w.extractLsb' 0 7)
  | 1 => .literal (w.extractLsb' 0 14)
  | 2 => .branch (w.extractLsb' 12 2) (w.extractLsb' 0 12)
  | _ => .call (w.extractLsb' 0 14)

/-- Codes that Table 6-5 lacks (R310). -/
def absentCode (c : BitVec 7) : Bool :=
  let k := c.toNat
  k == 0x3E || k == 0x3F || (decide (0x56 ≤ k) && decide (k < 0x60)) || (decide (0x69 ≤ k) && decide (k < 0x70)) || decide (0x76 ≤ k)

/-- The 7-bit code of a short operation (Table 6-5); a code that the table lacks is that of an undefined operation (R310). -/
def shortCode (i : Instr) : Option (BitVec 7) :=
  match i with
  | .nopOperation _ => some 0x00
  | .dup _ => some 0x01
  | .drop _ => some 0x02
  | .swap _ => some 0x03
  | .overWord _ => some 0x04
  | .rot _ => some 0x05
  | .nip _ => some 0x06
  | .tuck _ => some 0x07
  | .twoDup _ => some 0x08
  | .twoDrop _ => some 0x09
  | .pick _ => some 0x0A
  | .toR _ => some 0x0B
  | .rFrom _ => some 0x0C
  | .rFetch _ => some 0x0D
  | .rdrop _ => some 0x0E
  | .minusRot _ => some 0x0F
  | .add _ => some 0x10
  | .sub _ => some 0x11
  | .adc _ => some 0x12
  | .sbc _ => some 0x13
  | .adds _ => some 0x14
  | .subs _ => some 0x15
  | .neg _ => some 0x16
  | .abs _ => some 0x17
  | .and _ => some 0x18
  | .or _ => some 0x19
  | .xor _ => some 0x1A
  | .inv _ => some 0x1B
  | .onePlus _ => some 0x1C
  | .oneMinus _ => some 0x1D
  | .twoStar _ => some 0x1E
  | .twoSlash _ => some 0x1F
  | .shl _ => some 0x20
  | .shr _ => some 0x21
  | .asr _ => some 0x22
  | .rol _ => some 0x23
  | .min _ => some 0x24
  | .max _ => some 0x25
  | .clip _ => some 0x26
  | .ext _ => some 0x27
  | .equal _ => some 0x28
  | .notEqual _ => some 0x29
  | .less _ => some 0x2A
  | .greater _ => some 0x2B
  | .uLess _ => some 0x2C
  | .uGreater _ => some 0x2D
  | .zeroEqual _ => some 0x2E
  | .zeroLess _ => some 0x2F
  | .mul _ => some 0x30
  | .umul _ => some 0x31
  | .mac _ => some 0x32
  | .msc _ => some 0x33
  | .macz _ => some 0x34
  | .div _ => some 0x35
  | .udiv _ => some 0x36
  | .ldiv _ => some 0x37
  | .mlFetch _ => some 0x38
  | .mhFetch _ => some 0x39
  | .dqFetch _ => some 0x3A
  | .dmFetch _ => some 0x3B
  | .mas _ => some 0x3C
  | .maclr _ => some 0x3D
  | .fetch _ _ => some 0x40
  | .store _ => some 0x41
  | .cFetch _ _ => some 0x42
  | .cStore _ => some 0x43
  | .twoFetch _ _ => some 0x44
  | .twoStore _ => some 0x45
  | .fFetch _ _ => some 0x46
  | .fStore _ => some 0x47
  | .f2Fetch _ _ => some 0x48
  | .f2Store _ => some 0x49
  | .plusStore _ _ => some 0x4A
  | .xchg _ => some 0x4B
  | .cas _ => some 0x4C
  | .fadd _ => some 0x4D
  | .fence _ => some 0x4E
  | .dcwb _ => some 0x4F
  | .dcinv _ => some 0x50
  | .icinv _ => some 0x51
  | .isync _ => some 0x52
  | .qpush _ => some 0x53
  | .qpop _ => some 0x54
  | .flush _ => some 0x55
  | .ret _ => some 0x60
  | .exec _ => some 0x61
  | .fexec _ => some 0x62
  | .jmp _ => some 0x63
  | .fjmp _ => some 0x64
  | .trap _ => some 0x65
  | .reti _ _ => some 0x66
  | .wait _ => some 0x67
  | .brk _ => some 0x68
  | .srFetch _ => some 0x70
  | .srStore _ => some 0x71
  | .dbrFetch _ => some 0x72
  | .dbrStore _ => some 0x73
  | .tlbi _ => some 0x74
  | .tlbia _ => some 0x75
  | .undefinedOperation _ code => if absentCode code then some code else none
  | _ => none

/-- The condition code and the offset of a branch (Table 6-4). -/
def branchCode (i : Instr) : Option (BitVec 2 × BitVec 12) :=
  match i with
  | .br _ off => some (0, off)
  | .bz _ off => some (1, off)
  | .bnz _ off => some (2, off)
  | .loop _ off => some (3, off)
  | _ => none

/-- The operation at a word is the command `i`: the word's only one, or the first or second of a pair (R305, R306). -/
def spells (w : Half) (second : Bool) (i : Instr) : Bool :=
  match wordForm w with
  | .pair a b => shortCode i == some (if second then b else a)
  | .literal v => match i with | .literal _ u => u == v | _ => false
  | .branch c off => branchCode i == some (c, off)
  | .call t => match i with | .call _ u => u == t | _ => false

end Sys2Proof.Machine
end

