-- ==== Sys2Proof/Safety.lean ====
section
/-!
DEFINITION. What counts as a sound state and a safe step, in the terms in which claims are stated.
-/
namespace Sys2Proof.Machine

/-- Memory is in canonical form: addresses strictly rising, and no listed byte equal to zero, which an unlisted byte reads as. -/
def Memory.wf (m : Tab Byte) : Bool := Tab.wf (fun _ => 0) m

/-- The register file is in canonical form: no listed register holds its reset value. -/
def Regs.wf (t : Tab Word) : Bool := Tab.wf regReset t

/-- The SECDED states are in canonical form: no listed word is good. -/
def Ecc.wf (t : Tab Nat) : Bool := Tab.wf (fun _ => 0) t

/-- Memory, registers and SECDED states are in canonical form. -/
def State.Sound (s : State) : Prop := Memory.wf s.mem = true ∧ Regs.wf s.regs = true ∧ Ecc.wf s.ecc = true

/-- The parts of the state, apart from the queue. -/
inductive Part where
  | regs | mem | ecc | clk | sup | boot | hif | cores | coh
  | dma | pool | adc | sd | cmp | pwm | diag | cap | qd
  | kle | ports | se | mbm | pp | out | reply | free
  deriving DecidableEq, Repr

/-- `t` differs from `s` in the parts `F` only, has the queue of `s`, and is sound where `s` is. -/
structure Keeps (F : List Part) (s t : State) : Prop where
  ok : s.Sound → t.Sound
  pending : t.pending = s.pending
  regs : Part.regs ∉ F → t.regs = s.regs
  mem : Part.mem ∉ F → t.mem = s.mem
  ecc : Part.ecc ∉ F → t.ecc = s.ecc
  clk : Part.clk ∉ F → t.clk = s.clk
  sup : Part.sup ∉ F → t.sup = s.sup
  boot : Part.boot ∉ F → t.boot = s.boot
  hif : Part.hif ∉ F → t.hif = s.hif
  cores : Part.cores ∉ F → t.cores = s.cores
  coh : Part.coh ∉ F → t.coh = s.coh
  dma : Part.dma ∉ F → t.dma = s.dma
  pool : Part.pool ∉ F → t.pool = s.pool
  adc : Part.adc ∉ F → t.adc = s.adc
  sd : Part.sd ∉ F → t.sd = s.sd
  cmp : Part.cmp ∉ F → t.cmp = s.cmp
  pwm : Part.pwm ∉ F → t.pwm = s.pwm
  diag : Part.diag ∉ F → t.diag = s.diag
  cap : Part.cap ∉ F → t.cap = s.cap
  qd : Part.qd ∉ F → t.qd = s.qd
  kle : Part.kle ∉ F → t.kle = s.kle
  ports : Part.ports ∉ F → t.ports = s.ports
  se : Part.se ∉ F → t.se = s.se
  mbm : Part.mbm ∉ F → t.mbm = s.mbm
  pp : Part.pp ∉ F → t.pp = s.pp
  out : Part.out ∉ F → t.out = s.out
  reply : Part.reply ∉ F → t.reply = s.reply
  free : Part.free ∉ F → t.free = s.free

/-- An outcome is a next state, neither a fault nor a refusal. -/
def Safe (o : Host.Outcome State Fault Refusal) : Prop := ∃ t, o = .next t

/-- The command `c` in the state `s` answers a next state, and that state satisfies `P`. -/
def Runs (c : Instr) (s : State) (P : State → Prop) : Prop := ∃ t, exec c s = .next t ∧ P t

/-- Every register outside the addresses `A` holds what it held. -/
def RegsBut (A : List Nat) (s t : State) : Prop := ∀ a, a ∉ A → t.rd a = s.rd a

/-- The registers that an event may change. -/
abbrev evRegs : List Nat := [Reg.HIF_EV_IDX, Reg.HIF_EVLOST, Reg.HIF_MSIXPBA]

/-- The registers that an interrupt source may change. -/
abbrev icuRegs : List Nat :=
  [Reg.ICU_PENDLO 0, Reg.ICU_PENDHI 0, Reg.ICU_PENDLO 1, Reg.ICU_PENDHI 1, Reg.ICU_PENDLO 2, Reg.ICU_PENDHI 2,
   Reg.ICU_PENDLO 3, Reg.ICU_PENDHI 3]

/-- An interrupt source is pending in the controller of every core (R357, R358). -/
def State.asserted (t : State) (src : Nat) : Bool :=
  (List.range 4).all fun n => if src < 32 then t.bit (Reg.ICU_PENDLO n) src else t.bit (Reg.ICU_PENDHI n) (src - 32)

/-- Words have been written to host memory, at some address, with one request. -/
def State.wrote (t : State) (ws : List Word) : Prop := ∃ a, Out.write a ws ∈ t.out

/-- An event with a code, SRC and DATA has been raised: it stands in the event hold, or its words 0 to 2 have been written
to host memory, or events have been lost (R190 to R192). -/
def State.raised (t : State) (code src : Nat) (data : Word) : Prop :=
  (∃ tb, Event.mk code src data tb ∈ t.hif.evHold) ∨
  (∃ a lo, Out.write a [BitVec.ofNat 32 (code % 65536 + 65536 * (src % 65536)), data, lo] ∈ t.out) ∨ 0 < t.hif.evLost

/-- The command `c` has ended with a status and results: no command runs, and its completion is written or held, or none is
due (R144, R181, R186, R208, R228). -/
def State.answered (t : State) (c : Cmd) (status : Nat) (r0 r1 : Word) : Prop :=
  t.hif.cmd = none ∧
  (c.silent status = true ∨ c.cpl status r0 r1 ∈ t.hif.cplHeld ∨
    t.wrote [BitVec.ofNat 32 (status + 256 * c.op + 65536 * W.fld (c.word 0) 16 16), r0, r1])

/-- The translation of a virtual address of core n that needs no walk: with translation off, or by a TLB entry (R403, R411). -/
def State.xlHit (s : State) (n va : Nat) (k : Acc) : Option Xl :=
  let c := s.core n
  if c.ten && (tlbFind c.tlb (va / 65536 % 256) (va % 65536 / 4096) c.asid.toNat).isNone then none
  else match s.xlate n va k with
    | .ok x _ => some x
    | .exc _ _ => none

/-- Core n issues an operation, a word of its own or one of a pair: it can, no store of it has failed, the fetch of the operation
meets no walk and no fault, and no data entry is pending. -/
def State.issues (s : State) (n : Nat) (word : Bool) : Bool :=
  s.canIssueOp n word && (s.core n).wbe.isNone && (s.core n).marks.isEmpty &&
    (match s.xlHit n (s.core n).at_ .fetch with | some x => !s.fetchBad n x.pa | none => false)

/-- Core n as an operation that issues finds it. -/
def State.opCore (s : State) (n : Nat) : Core :=
  { s.core n with waiting := .none, bpPass := false, inEntry := false, marks := [] }

/-- The state after an operation of core n that leaves the core `c`, took `cyc` cycles, and goes on at `f`. -/
def State.opEnd (s : State) (n : Nat) (c : Core) (cyc : Nat) (word : Bool := false) (f : Flow := .next) : State :=
  (s.setCore n (((c.age cyc).advance word f).endStep)).chainFetch n

/-- No watchpoint of core n is enabled (R387). -/
def State.noWatch (s : State) (n : Nat) : Bool :=
  !W.bit (s.rd (Reg.DBG_CORE_WP_ADDR n 0)) 31 && !W.bit (s.rd (Reg.DBG_CORE_WP_ADDR n 1)) 31

/-- The physical address in a local scratch that a virtual address of core n has, where it needs no walk. -/
def State.scratchAt (s : State) (n va : Nat) (k : Acc) : Option Nat :=
  match s.xlHit n va k with
  | some x => match regionOf x.pa with
    | some (.scratch _) => if x.device || x.cached then none else some x.pa
    | _ => none
  | none => none

/-- In `t`, core n has entered an exception from the state `s` and the core `c`: the vector of its cause, system mode, the
resumption address in EPCL and EPCH, and the two words of its frame on the return stack; an accumulation that lands meanwhile
may have set MAV (R322, R363 to R365, R378). -/
def State.entered (s t : State) (n cause : Nat) (c : Core) : Prop :=
  (t.core n).cause = BitVec.ofNat 16 cause ∧ (t.core n).cbr = c.vbrh.setWidth 8 ∧
  (t.core n).pc = (c.vbrl &&& 0xFE00) + BitVec.ofNat 16 (4 * cause) ∧ (t.core n).slot = false ∧
  (t.core n).status ||| 0x0008 = c.status ||| 0x0108 ∧ (c.mulq = [] → (t.core n).status = c.status ||| 0x0100) ∧
  (t.core n).epcl = c.pc ∧
  (t.core n).epch = BitVec.ofNat 16 (c.cbr.toNat + (if c.sys then 256 else 0) + (if c.slot then 512 else 0)) ∧
  (t.core n).rstk = (s.setCore n c).frame1 n :: (s.setCore n c).frame0 n :: c.rstk ∧ (t.core n).dstk = c.dstk

/-- Input i, parameter i and state word i of the next block of slot n in its first pass (R578, R650). -/
def State.kleU (s : State) (n : Nat) (r : KRun) (i : Nat) : Word :=
  let f := W.fld (s.desc n r.blk 1) (8 * i) 7
  if 64 ≤ f then s.rd (ctxAddr n 0x100 (f - 64))
  else if r.work.any (fun e => e.1 == f) then tget 0 r.work f else tget 0 r.base f
def State.kleP (s : State) (n : Nat) (r : KRun) (i : Nat) : Word :=
  s.rd (ctxAddr n 0x100 (W.fld (s.desc n r.blk 0) 8 6 + i))
def State.kleX (s : State) (n : Nat) (r : KRun) (i : Nat) : Word :=
  s.rd (ctxAddr n 0x300 (W.fld (s.desc n r.blk 0) 16 6 + i))

/-- Addresses of output i and of state word i of the next block of slot n in its first pass. -/
def State.kleYa (s : State) (n : Nat) (r : KRun) (i : Nat) : Nat := ctxAddr n 0 (W.fld (s.desc n r.blk 2) (8 * i) 6)
def State.kleXa (s : State) (n : Nat) (r : KRun) (i : Nat) : Nat :=
  ctxAddr n 0x300 (W.fld (s.desc n r.blk 0) 16 6 + i)

/-- The engine can run the next block of slot n, which has OP `op` and is not the last of its plate, in the one pass of the
sample `r`; no memory word holds an error. -/
def State.atBlock (s : State) (op n : Nat) (r : KRun) : Bool :=
  decide (s.blkNext op = some (n, r)) && decide (n < 32) && decide (s.slotPasses n ≤ 1) && r.pass == 1 && r.src1.isNone &&
    r.inj.isNone && s.ecc.isEmpty && decide (r.blk + 1 < s.nblk n)

/-- A product fused into a term, a sum and a difference, each with one rounding (R581). -/
abbrev fmaW (a b c : Word) : Word := (F32.fma a b c).1
abbrev addW (a b : Word) : Word := (F32.add a b).1
abbrev subW (a b : Word) : Word := (F32.sub a b).1

/-- In `t`, slot n has gone on to its next block, with nothing but the registers `A`, its flags and its status, and the parts `F`
changed. -/
def State.blockDone (s t : State) (n : Nat) (r : KRun) (A : List Nat) (F : List Part := []) : Prop :=
  (t.ks n).run.map (fun q => (q.pass, q.blk, q.row)) = some (1, r.blk + 1, 0) ∧
  RegsBut (Reg.KLE_FLAGS n :: Reg.KLE_SSTAT n :: A) s t ∧ Keeps (.regs :: .kle :: F) s t

/-- The sample `r` of slot n, of `k` passes with nothing left out or injected, is at its vote within its deadline; its plate is not
EARLY. -/
def State.atVote (s : State) (n : Nat) (r : KRun) (k : Nat) : Bool :=
  s.runs gKLE && !s.kleHalted && decide (s.kleCur = some n) && decide ((s.ks n).run = some r) && decide (n < 32) &&
    s.slotPasses n == k && decide (2 ≤ k) && r.pass == k + 1 && r.unv == 0 && r.inj.isNone && !s.slotEarly n &&
    s.boundaryFree n && !s.deadlineGone n 1

/-- SEn issues an instruction with OP `op`: it is ready, and PC is at no wrap (R877, R879). -/
def State.seAt (s : State) (n op : Nat) : Bool :=
  s.seReady n && iOp (s.seInstr n) == op && !s.bit (Reg.SE_CFG1 n) 15 && !s.bit (Reg.SE_CFG0 n) 23

/-- What register d of SEn shows after a write of v (Table 16-1, R875). -/
def State.seShows (s : State) (n d : Nat) (v : Word) : Word :=
  if d = 5 then s.seTmr n else if d = 7 then v &&& W.mask 0 (s.seCrcW n) else v

/-- In `t`, SEn has gone on to the next address, and no register but the `A` and PC has changed. -/
def State.seNext (s t : State) (n : Nat) (A : List Nat) : Prop :=
  t.rd (Reg.SE_STAT n) = W.setFld (s.rd (Reg.SE_STAT n)) 8 6 ((s.sePc n + 1) % 64) ∧
  RegsBut (Reg.SE_STAT n :: A) s t ∧ Keeps [.regs, .se] s t

/-- The parts of the state that a command may change. -/
def footprint (c : Instr) : List Part :=
  match c with
  | .registerWrite .. | .coreResetHeld .. | .literal .. | .br .. | .call .. | .fence .. | .isync .. | .flush .. | .wait ..
  | .brk .. | .tlbia .. | .storeDrain .. | .wbusAsync .. | .pageWalk .. | .interruptEntry .. | .coreHalt ..
  | .nopOperation .. | .undefinedOperation .. =>
    [.regs, .mem, .ecc, .clk, .sup, .boot, .hif, .cores, .coh, .dma, .pool, .adc, .sd, .cmp, .pwm, .diag, .cap, .qd, .kle,
      .ports, .se, .mbm, .pp, .out, .free]
  | .powerOnReset .. | .deviceReset =>
    [.regs, .mem, .ecc, .clk, .sup, .boot, .hif, .cores, .coh, .dma, .pool, .adc, .sd, .cmp, .pwm, .diag, .cap, .qd, .kle,
      .ports, .se, .mbm, .pp, .reply]
  | .vddioDReleaseTimer =>
    [.clk]
  | .pinReset .. | .crystalEdgesSeen | .pllLockTimeout | .rstcmdDevice .. =>
    [.regs, .clk]
  | .resetRelease .. | .rootReturn | .guardLoss | .devreset =>
    [.regs, .clk, .hif, .out]
  | .pllLock =>
    [.regs, .clk, .hif, .se, .mbm, .out]
  | .memoryInitDone =>
    [.regs, .mem, .ecc, .clk, .boot]
  | .rootLoss =>
    [.regs, .clk, .hif, .adc, .cmp, .pwm, .kle, .ports, .mbm, .out]
  | .tbloRead .. =>
    [.clk, .hif, .out, .reply, .free]
  | .timerExpiry .. =>
    [.regs, .hif, .adc, .sd, .cmp, .pwm, .qd, .kle, .out]
  | .railSample .. | .seqcmdUp =>
    [.regs, .sup]
  | .railConditionReport .. | .extFault =>
    [.regs, .clk, .sup, .hif, .adc, .cmp, .pwm, .kle, .ports, .mbm, .out]
  | .seqcmdDown | .pgTmo .. | .shutdownPositionAdvance | .stepTmo .. =>
    [.regs, .clk, .sup, .hif, .out]
  | .seqFaultnReleased | .seqPositionAdvance =>
    [.regs, .sup, .hif, .out]
  | .collapse .. =>
    [.regs, .clk, .hif, .cmp, .pwm, .ports, .mbm, .out]
  | .lastGaspWrite =>
    [.regs, .mem, .ecc, .clk, .sup, .hif, .ports, .mbm, .out]
  | .pwrcmdRun | .pwrcmdTrim | .pwrcmdStandby | .pwrcmdOff | .setpower =>
    [.regs, .clk, .sup, .hif, .cmp, .pwm, .ports, .mbm, .out]
  | .clkgateWrite .. =>
    [.regs, .clk, .pwm]
  | .linkReset | .dataLinkDown | .inBandHotReset | .functionLevelReset =>
    [.regs, .hif, .pool, .kle, .mbm, .out]
  | .perstRelease | .phySuppliesValid =>
    [.hif]
  | .coreResetAssert .. | .debugStep .. =>
    [.regs, .cores]
  | .coreResetRelease .. | .bootCopyDone =>
    [.regs, .boot, .cores]
  | .bootItemRead .. =>
    [.regs, .mem, .ecc, .boot, .hif, .cores, .coh, .out, .free]
  | .bootCheckOutcome | .bootgo .. | .bootforce .. =>
    [.regs, .boot]
  | .configRequest .. =>
    [.regs, .hif, .pool, .kle, .mbm, .out, .reply]
  | .bar2Read .. =>
    [.regs, .mem, .ecc, .hif, .cores, .coh, .out, .reply, .free]
  | .bar2Write .. =>
    [.regs, .mem, .ecc, .hif, .cores, .coh, .out, .free]
  | .outboundAccess .. =>
    [.regs, .cores, .dma, .out, .reply]
  | .cmdDoorbell .. | .cplDoorbell .. | .evDoorbell .. | .recDoorbell .. | .descriptorFetchDone .. | .eventHoldDrain
  | .vectorModerationTimeout .. | .fwirqWrite .. | .nop | .echoWord3 | .imgload | .plateload | .paramwrite
  | .paramwriteWaitTimeout | .musterload | .memproof | .ledgerquery | .ledgerWindow .. | .portProbe .. | .ppWarning .. =>
    [.regs, .hif, .out]
  | .recIdxRead .. | .ipeakRead .. =>
    [.regs, .hif, .out, .reply, .free]
  | .ringCfgWrite .. | .musterstart =>
    [.regs, .hif, .mbm, .out]
  | .descriptorFetch | .echo =>
    [.hif, .out]
  | .recordPost .. | .linkTrainingDone .. =>
    [.regs, .hif]
  | .postReadDone .. | .mramMirror =>
    [.regs, .mem, .ecc, .hif, .cores, .coh, .out]
  | .heartbeat =>
    [.hif, .kle]
  | .heartbeatTimeout .. | .inject | .injectTimeout | .injctlWrite .. =>
    [.regs, .hif, .kle, .out]
  | .hostLossPolicyApply .. | .haltRequest .. | .kleDoorbell .. | .deadlineOverrun .. | .enclr .. =>
    [.regs, .hif, .cmp, .pwm, .kle, .out]
  | .commandHostRead .. =>
    [.regs, .mem, .ecc, .boot, .hif, .cores, .coh, .kle, .mbm, .out, .free]
  | .setpoint =>
    [.regs, .ecc, .hif, .kle, .out]
  | .sloten | .kleHaltRequest | .hatchVote .. | .lin | .pi | .pid | .leadlag | .biquad | .pr | .ss | .clarke | .park
  | .ipark | .iclarke | .svm | .sincos | .table | .cmpsel | .clipBlock | .integ | .learn | .outpwm | .outq | .latch ..
  | .divsqrt =>
    [.regs, .mem, .ecc, .hif, .pool, .cmp, .pwm, .kle, .out, .free]
  | .slotreset | .slotStart | .slotResetEffect .. | .slotrst .. =>
    [.regs, .ecc, .hif, .cmp, .pwm, .kle, .out]
  | .musterstop | .musterstopTimeout =>
    [.regs, .hif, .ports, .mbm, .out]
  | .musternow | .musterPeriodTick .. | .mbmTrig .. | .droverCopy .. =>
    [.regs, .mem, .ecc, .hif, .cores, .coh, .mbm, .out]
  | .admitObject | .stuckLine .. | .dsFrameEnd .. | .ppOn .. | .ppOff .. | .ppTrip .. | .insertion .. | .removal ..
  | .ppSettleEnd .. | .identityCheckDone .. | .backoffEnd .. | .powerCycleRequest .. =>
    [.regs, .mem, .ecc, .hif, .cores, .coh, .ports, .se, .mbm, .pp, .out]
  | .pen =>
    [.regs, .mem, .ecc, .hif, .cores, .coh, .pool, .cmp, .pwm, .kle, .ports, .se, .mbm, .pp, .out, .free]
  | .portproof =>
    [.regs, .hif, .ports, .se, .out]
  | .portProofDone .. | .portproofTimeout =>
    [.regs, .hif, .ports, .se, .pp, .out]
  | .adccal | .adcCalibrationStep .. =>
    [.regs, .hif, .adc, .out]
  | .memproofDone .. =>
    [.regs, .mem, .ecc, .clk, .hif, .pool, .cmp, .pwm, .ports, .mbm, .out]
  | .dmareserve =>
    [.regs, .hif, .dma, .out]
  | .bz .. | .bnz .. | .loop .. | .dup .. | .drop .. | .swap .. | .overWord .. | .rot .. | .nip .. | .tuck .. | .twoDup ..
  | .twoDrop .. | .pick .. | .toR .. | .rFrom .. | .rFetch .. | .rdrop .. | .minusRot .. | .add .. | .sub .. | .adc ..
  | .sbc .. | .adds .. | .subs .. | .neg .. | .abs .. | .and .. | .or .. | .xor .. | .inv .. | .onePlus .. | .oneMinus ..
  | .twoStar .. | .twoSlash .. | .shl .. | .shr .. | .asr .. | .rol .. | .min .. | .max .. | .clip .. | .ext .. | .equal ..
  | .notEqual .. | .less .. | .greater .. | .uLess .. | .uGreater .. | .zeroEqual .. | .zeroLess .. | .mul .. | .umul ..
  | .mac .. | .msc .. | .macz .. | .div .. | .udiv .. | .ldiv .. | .mlFetch .. | .mhFetch .. | .dqFetch .. | .dmFetch ..
  | .mas .. | .maclr .. | .fetch .. | .store .. | .cFetch .. | .cStore .. | .twoFetch .. | .twoStore .. | .fFetch ..
  | .fStore .. | .f2Fetch .. | .f2Store .. | .plusStore .. | .xchg .. | .cas .. | .fadd .. | .dcwb .. | .dcinv ..
  | .icinv .. | .qpush .. | .qpop .. | .ret .. | .exec .. | .fexec .. | .jmp .. | .fjmp .. | .trap .. | .reti ..
  | .srFetch .. | .srStore .. | .dbrFetch .. | .dbrStore .. | .tlbi .. | .dmaElement .. =>
    [.regs, .mem, .ecc, .clk, .sup, .boot, .hif, .cores, .coh, .dma, .pool, .adc, .sd, .cmp, .pwm, .diag, .cap, .qd, .kle,
      .ports, .se, .mbm, .pp, .out, .reply, .free]
  | .multiplierResult .. | .dividerResult .. =>
    [.cores]
  | .qpopReply .. =>
    [.regs, .cores, .pool]
  | .swi .. | .setpend .. | .clrpend .. | .sdClkmiss .. | .sdStuck .. | .cmpProof .. | .preemption | .delayLineLock
  | .qdSpeedDecay .. | .stuckConsecDecay .. =>
    [.regs]
  | .haltRelease .. =>
    [.regs, .cores, .kle]
  | .dmaStart .. | .dmaStop .. | .dmaResume .. | .dmainv .. | .dmainvDone =>
    [.regs, .dma]
  | .dmaDescriptorFetch .. =>
    [.regs, .mem, .ecc, .clk, .hif, .cores, .coh, .dma, .pool, .adc, .cap, .ports, .out, .reply, .free]
  | .rds .. | .rdu .. | .upg .. | .wbk .. | .rdo .. | .wri .. | .atm .. | .go .. =>
    [.regs, .mem, .ecc, .hif, .cores, .coh, .out, .reply]
  | .scrub =>
    [.regs, .ecc, .hif, .coh, .out]
  | .poolPush .. | .poolScrub =>
    [.regs, .mem, .ecc, .hif, .pool, .out]
  | .poolPop .. =>
    [.regs, .ecc, .hif, .pool, .out, .reply]
  | .cellRelease .. | .qcfgWrite .. =>
    [.regs, .pool]
  | .freeListRebuild =>
    [.regs, .ecc, .pool]
  | .hqpush .. =>
    [.regs, .pool, .free]
  | .hpop .. =>
    [.regs, .ecc, .hif, .pool, .out, .reply, .free]
  | .rawViewWrite .. =>
    [.mem, .ecc, .reply]
  | .adcTrigger .. | .adcSwtrig .. | .adcSample .. | .adcProof .. | .adcProofConversion .. =>
    [.regs, .adc]
  | .adcConversionEnd .. =>
    [.regs, .hif, .pool, .adc, .cmp, .pwm, .kle, .out, .free]
  | .adcFifoRead .. =>
    [.hif, .adc, .out, .reply, .free]
  | .sinc3Result .. =>
    [.regs, .hif, .pool, .sd, .cmp, .pwm, .kle, .out, .free]
  | .sdSync .. | .swsync .. | .sdtTrip .. =>
    [.sd]
  | .comparatorActive .. | .blankingEnd .. | .cmpThrWrite .. =>
    [.regs, .cmp]
  | .paramWindowWrite .. =>
    [.regs, .ecc, .kle]
  | .signalWordWrite .. =>
    [.kle]
  | .plateWrite .. =>
    [.regs, .mem, .ecc, .reply]
  | .platechk .. =>
    [.regs, .ecc, .hif, .out]
  | .enset .. | .learnClear .. =>
    [.regs, .kle]
  | .learnClearDone .. =>
    [.regs, .mem, .ecc, .kle]
  | .zero .. | .period .. | .cau .. | .cad .. | .cbu .. | .cbd .. | .immediateLoad .. =>
    [.regs, .hif, .adc, .sd, .cmp, .pwm, .diag, .qd, .kle, .out]
  | .syncin .. | .gstart .. | .swtrip .. | .pwmTrip .. | .outEnableWrite .. =>
    [.regs, .hif, .cmp, .pwm, .diag, .out]
  | .gsync .. =>
    [.pwm]
  | .diagPulse .. =>
    [.regs, .hif, .diag, .out]
  | .captureEdge .. =>
    [.regs, .cap]
  | .captureRecordRead .. =>
    [.regs, .hif, .cap, .out, .reply, .free]
  | .captureArm .. =>
    [.cap]
  | .qdEdge .. =>
    [.regs, .hif, .qd, .out, .free]
  | .qdIndex .. =>
    [.regs, .qd]
  | .qdStall .. =>
    [.regs, .hif, .qd, .out]
  | .qdRouteSample .. =>
    [.regs, .qd, .kle]
  | .bellwetherPortStart .. =>
    [.regs, .ports, .se, .mbm]
  | .entryStart .. | .runaheadStart .. | .entryAttemptEnd .. | .commit .. | .twStretchTimeout .. | .attemptTimeout ..
  | .portSettleExpiry .. =>
    [.regs, .mem, .ecc, .hif, .cores, .coh, .ports, .se, .mbm, .out]
  | .musterDeadlineExpiry .. | .bellwetherEnd .. =>
    [.regs, .mem, .ecc, .hif, .cores, .coh, .ports, .mbm, .out]
  | .foldFlip .. =>
    [.regs, .mem, .ecc, .hif, .cores, .coh, .cmp, .pwm, .kle, .mbm, .out]
  | .cmdrdConvWait .. | .dsTxdata .. =>
    [.ports]
  | .twSwctlGo .. | .twTransactionEnd .. | .crookCallDetect .. | .crookIdentification .. | .adaptWindowEnd ..
  | .dsSwctlGo .. | .dsTargetFrame .. =>
    [.regs, .ports]
  | .crookIdentificationEnd .. =>
    [.regs, .hif, .ports, .out]
  | .dsRxdataRead .. | .dsRxlenRead .. =>
    [.hif, .ports, .out, .reply, .free]
  | .flashWindowRead .. =>
    [.out, .reply]
  | .seRun .. | .seRunClear .. | .seGstart .. | .seLoad .. | .seParamWrite .. | .seWaitSatisfied .. | .seNop .. | .seSet ..
  | .seWaite .. | .seWaitl .. | .seDelay .. | .seAt .. | .seSince .. | .seLdi .. | .seLdh .. | .seMov .. | .seAdd ..
  | .seSub .. | .seCmp .. | .seAnd .. | .seShr .. | .seMul .. | .seDivr .. | .seRev .. | .seJmp .. | .seShi .. | .seSho ..
  | .seCrci .. | .seCrcf .. | .seOut .. | .seGetk .. | .seRdc .. | .seBwpt .. | .seMark .. | .seRet .. | .seLdp ..
  | .sePload .. | .seIrq .. | .seStop .. | .edgeCounterEdge .. | .seUndefinedOperation .. =>
    [.regs, .se]
  | .phrst .. =>
    [.se]
  | .seLoadDone .. =>
    [.regs, .mem, .ecc, .hif, .cores, .coh, .se, .out]
  | .seOpen .. =>
    [.regs, .se, .free]
  | .seCmt .. =>
    [.regs, .ports, .se]
  | .sePushq .. =>
    [.regs, .pool, .se, .free]
  | .ppCurrentSample .. | .holdExpiry .. | .cycleOffEnd .. =>
    [.regs, .pp]
  | .inrushEnd .. =>
    [.pp]
  | .ioOrLockedRequest .. =>
    [.hif, .out, .reply, .free]

end Sys2Proof.Machine
end

