-- ==== Sys2Proof/Certificates/Slice0/Obligations.lean ====
section
/-!
DEFINITION. The statements about the model, for the provers: one definition each, after the rules of the spec.
-/
open Sys2Proof Sys2Proof.Machine

/-- Chapter 2 (R38, R39, R44, R92, R93, R98, R114): the clock, lock and timer events run and have the effect that the rule
of each gives it. -/
def Obligations.ClockEvents : Prop :=
  (∀ s : State, s.alwaysOn = true → s.clk.rootLost = false → s.clk.pll = .waitXtal →
    Runs .crystalEdgesSeen s fun t =>
      t.clk.pll = .starting 1 ∧ t.bit Reg.SYS_STATUS 1 = true ∧ RegsBut [Reg.SYS_STATUS] s t ∧ Keeps [.regs, .clk] s t) ∧
  (∀ (s : State) (k : Nat), s.clk.pll = .starting k → s.clk.stopped = false → s.clk.trans ≠ .toRun →
    Runs .pllLock s fun t =>
      t.clk.pll = .locked ∧ t.clk.armed = true ∧ t.clk.tickPhase = 0 ∧ t.clk.slowPhase = 0 ∧ t.bit Reg.SYS_STATUS 0 = true ∧
      t.fld Reg.SYS_PLLTALLY 0 16 = (if k = 2 then min 0xFFFF (s.fld Reg.SYS_PLLTALLY 0 16 + 1) else s.fld Reg.SYS_PLLTALLY 0 16) ∧
      (k = 2 → t.asserted 61 = true)) ∧
  (∀ (s : State) (k : Nat), s.clk.pll = .starting k → s.clk.stopped = false → s.clk.trans = .toRun →
    Runs .pllLock s fun t =>
      t.clk.pll = .locked ∧ t.clk.trans = .none ∧ t.pwr = pwrRUN ∧ t.fld Reg.SYS_PWRSTATE 4 3 = 0 ∧
      t.bit Reg.SYS_PWRSTATE 8 = false ∧ t.fld Reg.SYS_PWRSTATE 16 8 = 0) ∧
  (∀ s : State, s.clk.pll = .starting 1 → s.clk.stopped = false →
    Runs .pllLockTimeout s fun t => t = { s with clk := { s.clk with pll := .starting 2 } }) ∧
  (∀ s : State, s.clk.pll = .starting 2 → s.clk.stopped = false → s.clk.trans ≠ .toRun →
    Runs .pllLockTimeout s fun t =>
      t.clk.pll = .off ∧ t.bit Reg.SYS_STATUS 9 = true ∧ RegsBut [Reg.SYS_STATUS] s t ∧ Keeps [.regs, .clk] s t) ∧
  (∀ s : State, s.clk.pll = .starting 2 → s.clk.stopped = false → s.clk.trans = .toRun →
    Runs .pllLockTimeout s fun t =>
      t.clk.pll = .off ∧ t.clk.trans = .none ∧ t.bit Reg.SYS_STATUS 9 = true ∧ t.bit Reg.SYS_PWRSTATE 8 = false ∧
      t.fld Reg.SYS_PWRSTATE 16 8 = 9 ∧ RegsBut [Reg.SYS_STATUS, Reg.SYS_PWRSTATE] s t) ∧
  (∀ s : State, s.live = true → s.clk.memInit = true →
    Runs .memoryInitDone s fun t =>
      t.clk.memInit = false ∧
      (∀ a, a < 0x200000 ∨ (0x01000000 ≤ a ∧ a < 0x01040000) ∨ (0x02000000 ≤ a ∧ a < 0x02040000) → t.rdByte a = 0) ∧
      (∀ a, 0x200000 ≤ a → ¬ (0x01000000 ≤ a ∧ a < 0x01040000) → ¬ (0x02000000 ≤ a ∧ a < 0x02040000) →
        t.rdByte a = s.rdByte a) ∧
      (s.fld Reg.SYS_BOOTSTAT 4 2 < 2 → t.boot.stage = .header) ∧
      (s.fld Reg.SYS_BOOTSTAT 4 2 = 2 → t.fld Reg.SYS_BOOTSTAT 0 4 = 5 ∧ t.boot.waits = true) ∧
      (s.fld Reg.SYS_BOOTSTAT 4 2 = 3 → t.fld Reg.SYS_BOOTSTAT 0 4 = 6 ∧ t.boot.waits = true)) ∧
  (∀ s : State, s.alwaysOn = true → s.clk.armed = true → s.clk.rootLost = false → s.clk.onCrystal = false →
    s.clk.lg = .idle → s.clk.trans = .none → s.pwr ≠ pwrSTANDBY →
    Runs .rootLoss s fun t => t.clk.rootLost = true ∧ t.clk.pll = .off) ∧
  (∀ s : State, s.alwaysOn = true → s.clk.onCrystal = true → s.clk.rootLost = false →
    Runs .rootLoss s fun t =>
      t.clk.stopped = true ∧ t.clk.rootLost = false ∧ t.clk.tb = s.clk.tb ∧ t.bit Reg.SYS_STATUS 0 = false ∧
      RegsBut [Reg.SYS_STATUS] s t ∧ Keeps [.regs, .clk] s t) ∧
  (∀ s : State, s.clk.rootLost = true → s.alwaysOn = true →
    Runs .rootReturn s fun t =>
      t.clk.rootLost = false ∧ t.bit Reg.SYS_STATUS 1 = true ∧ t.bit Reg.TMB_STATUS 0 = true ∧ t.clk.pll = s.clk.pll ∧
      t.asserted 61 = true ∧ t.raised evCLOCK 1 0) ∧
  (∀ s : State, s.live = true → s.clk.onCrystal = false →
    Runs .guardLoss s fun t =>
      t.clk.onCrystal = true ∧ t.bit Reg.SYS_STATUS 10 = true ∧ t.bit Reg.SYS_STATUS 2 = false ∧ t.asserted 61 = true ∧
      t.raised evCLOCK 2 0 ∧ RegsBut ([Reg.SYS_STATUS] ++ evRegs ++ icuRegs) s t) ∧
  (∀ (s : State) (src : Requester) (tlp : Tlp), s.alwaysOn = true → s.regServed src Reg.TMB_TBLO = true →
    (src = .host → s.linkUp = true ∧ s.memServed = true ∧ tlp = .good) →
    Runs (.tbloRead src tlp) s fun t =>
      t.reply = .word (W.lo32 s.clk.tb) ∧ tget 0 t.clk.tbLatch (tbLatchOf src) = W.hi32 s.clk.tb ∧ t.clk.tb = s.clk.tb ∧
      Keeps [.clk, .reply] s t) ∧
  (∀ s : State, s.alwaysOn = true → s.linkUp = true → s.memServed = false →
    Runs (.tbloRead .host .good) s fun t =>
      t.reply = .unsupported ∧ t.clk = s.clk ∧ W.bit (t.cfgRd 0x41) 20 = true ∧ Keeps [.hif, .out, .reply, .free] s t) ∧
  (∀ (s : State) (n : Fin 8), s.live = true → s.bit (Reg.TMB_TMR_CTRL n.val) 0 = true →
    1 < (s.rd (Reg.TMB_TMR_COUNT n.val)).toNat → Runs (.timerExpiry n) s fun t => t = s) ∧
  (∀ (s : State) (n : Fin 8), s.live = true → s.bit (Reg.TMB_TMR_CTRL n.val) 0 = true →
    (s.rd (Reg.TMB_TMR_COUNT n.val)).toNat ≤ 1 →
    Runs (.timerExpiry n) s fun t =>
      t.bit Reg.TMB_STATUS (8 + n.val) = true ∧
      (s.bit (Reg.TMB_TMR_CTRL n.val) 1 = true →
        t.rd (Reg.TMB_TMR_COUNT n.val) = BitVec.ofNat 32 (max 1 (s.rd (Reg.TMB_TMR_LOAD n.val)).toNat) ∧
        t.bit (Reg.TMB_TMR_CTRL n.val) 0 = true) ∧
      (s.bit (Reg.TMB_TMR_CTRL n.val) 1 = false →
        t.rd (Reg.TMB_TMR_COUNT n.val) = 0 ∧ t.bit (Reg.TMB_TMR_CTRL n.val) 0 = false))

/-- Chapter 3 (R99, R104, R105, R111 to R114, R965): what the resets leave, what starts a device reset, and release. That a
device reset keeps LGSEQ is the model's reading (log entry 101). -/
def Obligations.ResetEvents : Prop :=
  (∀ (s : State) (high : Bool),
    Runs (.powerOnReset high) s fun t =>
      t.clk.phase = .porHold ∧ (∀ a, t.rd a = regReset a) ∧
      (∀ a, mramLo ≤ a → a < mramHi → t.rdByte a = s.rdByte a) ∧
      (∀ a, ¬ (mramLo ≤ a ∧ a < mramHi) → t.rdByte a = 0) ∧
      t.cores = [] ∧ t.kle = {} ∧ t.ports = [] ∧ t.mbm = {} ∧ t.dma = [] ∧ t.pool = {} ∧ t.out = s.out ∧
        t.pending = s.pending) ∧
  (∀ s : State, s.clk.phase = .porHold → s.clk.vddioOk = false →
    Runs .vddioDReleaseTimer s fun t => t.clk.vddioOk = true ∧ t.clk.bank18 = true ∧ Keeps [.clk] s t) ∧
  (∀ (s : State) (ns : Nat) (ok amid : Bool), 1000 ≤ ns → s.clk.phase ≠ .porHold → s.clk.lg = .idle →
    Runs (.pinReset ns ok amid) s fun t =>
      t.clk.resetReq = true ∧ t.bit Reg.SYS_RSTCAUSE 1 = true ∧ RegsBut [Reg.SYS_RSTCAUSE] s t ∧ Keeps [.regs, .clk] s t) ∧
  (∀ (s : State) (ns : Nat) (ok amid : Bool), ns < 100 → Runs (.pinReset ns ok amid) s fun t => t = s) ∧
  (∀ (s : State) (ns : Nat) (amid : Bool), 1000 ≤ ns → s.clk.phase ≠ .porHold → s.clk.lg = .held →
    Runs (.pinReset ns true amid) s fun t =>
      t.clk.resetReq = true ∧ t.clk.lg = .idle ∧ t.bit Reg.SYS_RSTCAUSE 1 = true ∧ RegsBut [Reg.SYS_RSTCAUSE] s t) ∧
  (∀ (s : State) (src : Requester) (val : Word), s.sysServed = true →
    W.fld val 16 16 = 0xA5C3 → W.bit val 0 = true →
    Runs (.rstcmdDevice src val) s fun t =>
      t.clk.resetReq = true ∧ (src = .host → t.bit Reg.SYS_RSTCAUSE 2 = true) ∧
      (∀ n, src = .core n → t.bit Reg.SYS_RSTCAUSE 3 = true) ∧ (src = .debug → t.bit Reg.SYS_RSTCAUSE 4 = true) ∧
      RegsBut [Reg.SYS_RSTCAUSE] s t ∧ Keeps [.regs, .clk] s t) ∧
  (∀ (s : State) (src : Requester) (val : Word), W.fld val 16 16 ≠ 0xA5C3 ∨ W.bit val 0 = false →
    Runs (.rstcmdDevice src val) s fun t => t = s) ∧
  (∀ s : State, s.clk.resetReq = true →
    Runs .deviceReset s fun t =>
      t.clk.phase = .devHold ∧ t.clk.resetReq = false ∧ t.rd Reg.SYS_RSTCAUSE = s.rd Reg.SYS_RSTCAUSE ∧
      t.rd Reg.SYS_LGSEQ = s.rd Reg.SYS_LGSEQ ∧
      (∀ m : Fin 12, t.rd (Reg.PWM_SAFE m.val) = s.rd (Reg.PWM_SAFE m.val)) ∧
      (∀ a, a ≠ Reg.SYS_RSTCAUSE → a ≠ Reg.SYS_LGSEQ → (∀ m : Fin 12, a ≠ Reg.PWM_SAFE m.val) → t.rd a = regReset a) ∧
      (∀ a, mramLo ≤ a → a < mramHi → t.rdByte a = s.rdByte a) ∧
      (∀ a, ¬ (mramLo ≤ a ∧ a < mramHi) → t.rdByte a = 0) ∧
      t.cores = [] ∧ t.kle = {} ∧ t.ports = [] ∧ t.mbm = {} ∧ t.dma = [] ∧ t.pool = {}) ∧
  (∀ (s : State) (sel : BitVec 2) (v33 : Bool), s.clk.phase = .devHold →
    Runs (.resetRelease sel v33) s fun t =>
      t.clk.phase = .run ∧ t.fld Reg.SYS_BOOTSTAT 4 2 = sel.toNat ∧ RegsBut [Reg.SYS_BOOTSTAT] s t ∧
        Keeps [.regs, .clk] s t) ∧
  (∀ (s : State) (sel : BitVec 2) (v33 : Bool), s.clk.phase = .porHold → v33 = true ∨ s.clk.vddioOk = true →
    Runs (.resetRelease sel v33) s fun t =>
      t.clk.phase = .run ∧ t.clk.vddioOk = true ∧ t.clk.bank18 = (s.clk.bank18 && !v33) ∧
      t.fld Reg.SYS_BOOTSTAT 4 2 = sel.toNat)

/-- Chapter 2 (R51, R52, R54 to R59, R62, R88, R95, R1009): samples, reports, the sequencer and the external fault. -/
def Obligations.SupervisorEvents : Prop :=
  (∀ (s : State) (codes : List (BitVec 10)) (vin : BitVec 10) (mv : BitVec 16), s.alwaysOn = true →
    Runs (.railSample codes vin mv) s fun t =>
      t.rd Reg.SUP_VINMEAS = BitVec.ofNat 32 (vin.toNat + 65536 * mv.toNat) ∧
      (∀ r : Fin 8, t.rd (Reg.SUP_RAIL_MEAS r.val) = BitVec.ofNat 32 (codes.getD r.val 0).toNat) ∧
      (∀ r : Fin 8, (tget {} t.sup.cond (5 * r.val + 3)).held =
        if s.fld (Reg.SUP_RAIL_THFAULT r.val) 16 10 < (codes.getD r.val 0).toNat then
          min 255 ((tget {} s.sup.cond (5 * r.val + 3)).held + 1) else 0) ∧
      (∀ r : Fin 8, (tget {} t.sup.cond (40 + r.val)).held =
        if (codes.getD r.val 0).toNat < s.fld (Reg.SUP_RAIL_THOFF r.val) 0 10 then
          min 255 ((tget {} s.sup.cond (40 + r.val)).held + 1) else 0) ∧
      RegsBut (Reg.SUP_VINMEAS :: (List.range 8).map Reg.SUP_RAIL_MEAS) s t ∧ Keeps [.regs, .sup] s t) ∧
  (∀ (s : State) (r : Fin 8) (hi : Bool), s.alwaysOn = true →
    (tget {} s.sup.cond (5 * r.val + hi.toNat)).reported = false →
    max 1 (s.fld (Reg.SUP_RAIL_CFG r.val) 8 8) ≤ (tget {} s.sup.cond (5 * r.val + hi.toNat)).held →
    Runs (.railConditionReport r (if hi then 1 else 0)) s fun t =>
      t.bit Reg.SUP_WARN (8 * hi.toNat + r.val) = true ∧
      t.fld (Reg.SUP_RAIL_TALLY r.val) 0 16 = min 0xFFFF (s.fld (Reg.SUP_RAIL_TALLY r.val) 0 16 + 1) ∧
      t.asserted 60 = true ∧
      t.raised evRAIL_WARN r.val (BitVec.ofNat 32 (s.fld (Reg.SUP_RAIL_MEAS r.val) 0 10 + hi.toNat <<< 16)) ∧
      (tget {} t.sup.cond (5 * r.val + hi.toNat)).reported = true ∧
      RegsBut ([Reg.SUP_WARN, Reg.SUP_RAIL_TALLY r.val] ++ evRegs ++ icuRegs) s t) ∧
  (∀ (s : State) (r : Fin 8) (hi : Bool), s.alwaysOn = true →
    (tget {} s.sup.cond (5 * r.val + 2 + hi.toNat)).reported = false →
    max 1 (s.fld (Reg.SUP_RAIL_CFG r.val) 8 8) ≤ (tget {} s.sup.cond (5 * r.val + 2 + hi.toNat)).held →
    Runs (.railConditionReport r (if hi then 3 else 2)) s fun t =>
      t.bit Reg.SUP_FAULT (8 * hi.toNat + r.val) = true ∧ t.bit Reg.SUP_STATUS 21 = true ∧
      t.fld (Reg.SUP_RAIL_TALLY r.val) 0 16 = min 0xFFFF (s.fld (Reg.SUP_RAIL_TALLY r.val) 0 16 + 1) ∧
      t.asserted 60 = true ∧
      t.raised evRAIL_FAULT r.val (BitVec.ofNat 32 (s.fld (Reg.SUP_RAIL_MEAS r.val) 0 10 + hi.toNat <<< 16)) ∧
      (s.fld (Reg.SUP_RAIL_CFG r.val) 4 2 = 0 →
        RegsBut ([Reg.SUP_FAULT, Reg.SUP_STATUS, Reg.SUP_RAIL_TALLY r.val] ++ evRegs ++ icuRegs) s t)) ∧
  (∀ (s : State) (r : Fin 8), s.alwaysOn = true → (tget {} s.sup.cond (5 * r.val + 4)).reported = false →
    max 1 (s.fld (Reg.SUP_RAIL_CFG r.val) 8 8) ≤ (tget {} s.sup.cond (5 * r.val + 4)).held →
    Runs (.railConditionReport r 4) s fun t =>
      t.bit Reg.SUP_STATUS r.val = true ∧ (s.railOn r.val = true → t.sup.pgSeen.testBit r.val = true) ∧
      RegsBut [Reg.SUP_STATUS] s t ∧ Keeps [.regs, .sup] s t) ∧
  (∀ (s : State) (r : Fin 8), s.alwaysOn = true → (tget {} s.sup.cond (5 * r.val + 4)).reported = true →
    max 1 (s.fld (Reg.SUP_RAIL_CFG r.val) 8 8) ≤ (tget {} s.sup.cond (5 * r.val + 4)).failed →
    Runs (.railConditionReport r 4) s fun t =>
      t.bit Reg.SUP_STATUS r.val = false ∧ (tget {} t.sup.cond (5 * r.val + 4)).reported = false ∧
      RegsBut [Reg.SUP_STATUS] s t) ∧
  (∀ s : State, s.sysServed = true → s.sup.seq = .idle → s.bit Reg.SUP_STATUS 17 = false →
    Runs .seqcmdUp s fun t =>
      t.sup.seq = .waitFaultn ∧ t.sup.faultnHold = false ∧ t.bit Reg.SUP_STATUS 16 = true ∧ t.sup.railEn = s.sup.railEn ∧
      RegsBut [Reg.SUP_STATUS] s t ∧ Keeps [.regs, .sup] s t) ∧
  (∀ s : State, s.sysServed = true → s.sup.seq ≠ .idle ∨ s.bit Reg.SUP_STATUS 17 = true →
    Runs .seqcmdUp s fun t => t = s.setBit Reg.SUP_STATUS 22 true) ∧
  (∀ s : State, s.alwaysOn = true → s.sup.seq = .waitFaultn → s.drivesFaultn = false →
    (∃ r : Fin 8, s.railSeqEn r.val = true) →
    Runs .seqFaultnReleased s fun t =>
      (∃ pos, t.sup.seq = Seq.up pos) ∧ (∀ r : Fin 8, s.railOn r.val = true → t.railOn r.val = true) ∧
      (∀ r : Fin 8, s.railSeqEn r.val = true → (∀ q : Fin 8, s.railSeqEn q.val = true →
        s.railOrder r.val ≤ s.railOrder q.val) →
        t.railOn r.val = true) ∧
      (∀ r : Fin 8, s.railSeqEn r.val = false → t.railOn r.val = s.railOn r.val) ∧ RegsBut [Reg.SUP_STATUS] s t) ∧
  (∀ (s : State) (pos : Nat), s.alwaysOn = true → s.sup.seq = .up pos →
    (∀ r : Fin 8, s.railSeqEn r.val = true → s.railOrder r.val = pos → s.sup.pgSeen.testBit r.val = true) →
    Runs .seqPositionAdvance s fun t =>
      (∀ r : Fin 8, s.railSeqEn r.val = true → s.railOrder r.val = pos → t.sup.pgExpired.testBit r.val = true) ∧
      ((∀ r : Fin 8, s.railSeqEn r.val = true → s.railOrder r.val ≤ pos) →
        t.sup.seq = .idle ∧ t.bit Reg.SUP_STATUS 16 = false ∧ t.bit Reg.SUP_STATUS 17 = true ∧ t.sup.railEn = s.sup.railEn ∧
        t.raised evSEQ_END 0 (t.rd Reg.SUP_STATUS)) ∧
      (∀ q : Fin 8, s.railSeqEn q.val = true → pos < s.railOrder q.val →
        (∀ r : Fin 8, s.railSeqEn r.val = true → pos < s.railOrder r.val → s.railOrder q.val ≤ s.railOrder r.val) →
        t.sup.seq = .up (s.railOrder q.val) ∧ t.railOn q.val = true)) ∧
  (∀ (s : State) (r : Fin 8) (pos : Nat), s.alwaysOn = true → s.sup.seq = .up pos → s.railSeqEn r.val = true →
    s.railOrder r.val = pos → s.sup.pgSeen.testBit r.val = false →
    Runs (.pgTmo r) s fun t =>
      t.bit Reg.SUP_FAULT (24 + r.val) = true ∧ t.bit Reg.SUP_STATUS 18 = true ∧ t.bit Reg.SUP_STATUS 21 = true ∧
      t.fld (Reg.SUP_RAIL_TALLY r.val) 0 16 = min 0xFFFF (s.fld (Reg.SUP_RAIL_TALLY r.val) 0 16 + 1) ∧
      t.raised evRAIL_FAULT r.val (BitVec.ofNat 32 (s.fld (Reg.SUP_RAIL_MEAS r.val) 0 10 + 3 <<< 16)) ∧
      t.bit Reg.SUP_STATUS 17 = false ∧ t.sup.seq ≠ .up pos) ∧
  (∀ s : State, s.sysServed = true → s.sup.seq = .idle → s.sup.railEn % 256 = 0 → s.clk.trans = .none →
    Runs .seqcmdDown s fun t =>
      t.sup.seq = .idle ∧ t.bit Reg.SUP_STATUS 16 = false ∧ t.bit Reg.SUP_STATUS 17 = false ∧
      t.raised evSEQ_END 2 (t.rd Reg.SUP_STATUS) ∧ t.asserted 60 = true ∧
      RegsBut ([Reg.SUP_STATUS] ++ evRegs ++ icuRegs) s t) ∧
  (∀ (s : State) (r : Fin 8), s.sysServed = true → s.sup.seq = .idle → s.railOn r.val = true →
    (∀ q : Fin 8, s.railOn q.val = true → s.railOrder q.val ≤ s.railOrder r.val) →
    Runs .seqcmdDown s fun t =>
      t.railOn r.val = false ∧ (∃ left, t.sup.seq = Seq.down left (s.railOrder r.val)) ∧ t.bit Reg.SUP_STATUS 16 = true ∧
      t.bit Reg.SUP_STATUS 17 = false ∧ (∀ q : Fin 8, s.railOrder q.val < s.railOrder r.val →
        t.railOn q.val = s.railOn q.val) ∧
      RegsBut [Reg.SUP_STATUS] s t ∧ Keeps [.regs, .sup] s t) ∧
  (∀ (s : State) (r : Fin 8) (pos : Nat), s.alwaysOn = true → s.clk.trans = .none →
    s.sup.seq = .down [(r.val, pos)] pos → s.sup.offSeen.testBit r.val = true →
    Runs .shutdownPositionAdvance s fun t =>
      t.sup.seq = .idle ∧ t.bit Reg.SUP_STATUS 16 = false ∧ t.raised evSEQ_END 2 (t.rd Reg.SUP_STATUS) ∧
      RegsBut ([Reg.SUP_STATUS] ++ evRegs ++ icuRegs) s t) ∧
  (∀ (s : State) (r : Fin 8) (pos : Nat), s.alwaysOn = true → s.sup.seq = .down [(r.val, pos)] pos →
    s.sup.offSeen.testBit r.val = false →
    Runs (.stepTmo r) s fun t =>
      t.bit Reg.SUP_FAULT (16 + r.val) = true ∧ t.bit Reg.SUP_STATUS 21 = true ∧
      t.fld (Reg.SUP_RAIL_TALLY r.val) 0 16 = min 0xFFFF (s.fld (Reg.SUP_RAIL_TALLY r.val) 0 16 + 1) ∧
      t.raised evRAIL_FAULT r.val (BitVec.ofNat 32 (s.fld (Reg.SUP_RAIL_MEAS r.val) 0 10 + 2 <<< 16)) ∧ t.sup.seq = .idle) ∧
  (∀ s : State, s.alwaysOn = true → s.bit Reg.SUP_STATUS 17 = true → s.drivesFaultn = false →
    Runs .extFault s fun t =>
      t.bit Reg.SUP_STATUS 19 = true ∧ t.sup.faultnLow = true ∧ t.asserted 60 = true ∧
      t.raised evEXT_FAULT 0 (BitVec.ofNat 32 (s.fld Reg.SUP_CTRL 0 2)) ∧
      (s.fld Reg.SUP_CTRL 0 2 = 0 → RegsBut ([Reg.SUP_STATUS] ++ evRegs ++ icuRegs) s t))

/-- Chapter 2 (R64, R66 to R69, R75, R77, R79, R82, R86, R93): power commands, gates, collapse and the record. -/
def Obligations.PowerEvents : Prop :=
  (∀ s : State, s.sysServed = true → s.bit Reg.SYS_PWRSTATE 8 = false → s.pwr = pwrTRIM →
    Runs .pwrcmdRun s fun t =>
      t.pwr = pwrRUN ∧ t.clk.gated = 0 ∧ t.fld Reg.SYS_PWRSTATE 4 3 = 0 ∧ t.fld Reg.SYS_PWRSTATE 16 8 = 0 ∧
      RegsBut [Reg.SYS_PWRSTATE] s t ∧ Keeps [.regs, .clk] s t) ∧
  (∀ s : State, s.sysServed = true → s.bit Reg.SYS_PWRSTATE 8 = false → s.pwr = pwrSTANDBY →
    s.clk.rootLost = false →
    Runs .pwrcmdRun s fun t =>
      t.pwr = pwrSTANDBY ∧ t.clk.pll = .starting 1 ∧ t.clk.trans = .toRun ∧ t.bit Reg.SYS_PWRSTATE 8 = true ∧
      t.fld Reg.SYS_PWRSTATE 16 8 = 0 ∧ RegsBut [Reg.SYS_PWRSTATE] s t ∧ Keeps [.regs, .clk] s t) ∧
  (∀ s : State, s.sysServed = true → s.bit Reg.SYS_PWRSTATE 8 = false → s.pwr = pwrSTANDBY →
    s.clk.rootLost = true →
    Runs .pwrcmdRun s fun t => t = s.setFld Reg.SYS_PWRSTATE 16 8 9) ∧
  (∀ s : State, s.sysServed = true → s.bit Reg.SYS_PWRSTATE 8 = true →
    Runs .pwrcmdRun s (fun t => t = s.setFld Reg.SYS_PWRSTATE 16 8 3) ∧
    Runs .pwrcmdTrim s (fun t => t = s.setFld Reg.SYS_PWRSTATE 16 8 3) ∧
    Runs .pwrcmdStandby s (fun t => t = s.setFld Reg.SYS_PWRSTATE 16 8 3) ∧
    Runs .pwrcmdOff s (fun t => t = s.setFld Reg.SYS_PWRSTATE 16 8 3)) ∧
  (∀ s : State, s.sysServed = true → s.bit Reg.SYS_PWRSTATE 8 = false → s.pwr = pwrRUN →
    s.rd Reg.SYS_CLKGATE = 0 →
    Runs .pwrcmdTrim s fun t =>
      t.pwr = pwrTRIM ∧ t.clk.gated = 0 ∧ t.fld Reg.SYS_PWRSTATE 4 3 = 0 ∧ t.fld Reg.SYS_PWRSTATE 16 8 = 0 ∧
      RegsBut [Reg.SYS_PWRSTATE] s t ∧ Keeps [.regs, .clk] s t) ∧
  (∀ s : State, s.sysServed = true → s.bit Reg.SYS_PWRSTATE 8 = false →
    s.pwr = pwrRUN ∨ s.pwr = pwrTRIM → s.quiet = true →
    Runs .pwrcmdStandby s fun t =>
      t.pwr = pwrSTANDBY ∧ t.clk.pll = .off ∧ t.clk.gated = 0 ∧ t.bit Reg.SYS_STATUS 0 = false ∧
      t.fld Reg.SYS_PWRSTATE 4 3 = 0 ∧ t.fld Reg.SYS_PWRSTATE 16 8 = 0 ∧ t.bit Reg.PWM_DLSTAT 0 = false ∧
        t.clk.tb = s.clk.tb ∧
      (s.bit Reg.HIF_LINKSTAT 0 = true → W.bit (s.cfgRd 0x24) 1 = true → t.bit Reg.HIF_LINKSTAT 7 = true)) ∧
  (∀ s : State, s.sysServed = true → s.bit Reg.SYS_PWRSTATE 8 = false →
    s.pwr = pwrRUN ∨ s.pwr = pwrTRIM → s.quiet = false →
    Runs .pwrcmdStandby s fun t => t = s.setFld Reg.SYS_PWRSTATE 16 8 4) ∧
  (∀ s : State, s.sysServed = true → s.bit Reg.SYS_PWRSTATE 8 = false → s.sup.railEn % 256 ≠ 0 →
    s.sup.seq = .idle →
    Runs .pwrcmdOff s fun t =>
      t.clk.trans = .toOff (s.fld Reg.SYS_PWRSTATE 4 3) ∧ t.bit Reg.SYS_PWRSTATE 8 = true ∧ t.fld Reg.SYS_PWRSTATE 16 8 = 0 ∧
        t.pwr = s.pwr ∧
      t.bit Reg.SUP_STATUS 16 = true ∧ t.sup.seq ≠ .idle ∧ RegsBut [Reg.SYS_PWRSTATE, Reg.SUP_STATUS] s t) ∧
  (∀ (s : State) (val : Word), s.sysServed = true → s.pwr = pwrRUN ∨ s.pwr = pwrSTANDBY →
    Runs (.clkgateWrite val) s fun t =>
      t.rd Reg.SYS_CLKGATE = val &&& 0x3FFF ∧ RegsBut [Reg.SYS_CLKGATE] s t ∧ Keeps [.regs] s t) ∧
  (∀ (s : State) (val : Word), s.sysServed = true → s.pwr = pwrTRIM → s.bit Reg.SYS_STATUS 31 = false →
    Runs (.clkgateWrite val) s fun t =>
      t.rd Reg.SYS_CLKGATE = val &&& 0x3FFF ∧
      (∀ i : Fin 14, W.bit val i.val = false → W.bit t.clk.gated i.val = false) ∧
      (∀ i : Fin 14, W.bit val i.val = true → s.gateBusy i.val = false → W.bit t.clk.gated i.val = true) ∧
      (∀ i : Fin 14, W.bit val i.val = true → W.bit s.clk.gated i.val = true → W.bit t.clk.gated i.val = true) ∧
      (∀ i : Fin 14, W.bit val i.val = true → W.bit s.clk.gated i.val = false → s.gateBusy i.val = true →
        W.bit t.clk.gated i.val = false ∧ t.bit Reg.SYS_STATUS 31 = true) ∧
      RegsBut [Reg.SYS_CLKGATE, Reg.SYS_STATUS] s t ∧ Keeps [.regs, .clk] s t) ∧
  (∀ (s : State) (vdd vin : Bool), s.alwaysOn = true → s.clk.lg = .idle → vdd = true ∨ (vin = true ∧
    s.bit Reg.SUP_CTRL 2 = true) →
    Runs (.collapse vdd vin) s fun t =>
      t.clk.lg.collapse = true ∧ t.clk.pll = .off ∧ t.clk.trans = .none ∧ t.bit Reg.SYS_STATUS 0 = false ∧
      t.bit Reg.HIF_LINKSTAT 0 = false ∧ t.bit Reg.SUP_STATUS 21 = true ∧ t.pwr = s.pwr ∧ t.clk.tb = s.clk.tb ∧
        t.mem = s.mem) ∧
  (∀ (s : State) (ws : List Word), s.clk.stopped = false → s.clk.lg = .latched ws true → ws.length = 62 →
    Runs .lastGaspWrite s fun t =>
      t.rd Reg.SYS_LGSEQ = nextSeq (s.rd Reg.SYS_LGSEQ) ∧ t.rd Reg.SYS_LGSEQ ≠ 0 ∧ t.clk.lg = .held ∧ t.pwr = pwrOFF ∧
      t.fld Reg.SYS_PWRSTATE 4 3 = 3 ∧
      (let a := lgSlotAddr (t.rd Reg.SYS_LGSEQ).toNat
       t.rdWord a = ws.headD 0 ∧ t.rdWord (a + 4) = t.rd Reg.SYS_LGSEQ ∧ t.rdWord (a + 252) = ~~~ t.rd Reg.SYS_LGSEQ ∧
       t.rdWord (a + 248) = crc32 (t.rdWords a 62) ∧ (∀ b, b < a ∨ a + 256 ≤ b → t.rdByte b = s.rdByte b)) ∧
      t.sup.railEn = 0 ∧ RegsBut [Reg.SYS_LGSEQ, Reg.SYS_PWRSTATE] s t ∧ Keeps [.regs, .mem, .ecc, .clk, .sup] s t) ∧
  (∀ (s : State) (ws : List Word), s.clk.stopped = false → s.clk.lg = .latched ws false →
    Runs .lastGaspWrite s fun t =>
      t.rd Reg.SYS_LGSEQ = nextSeq (s.rd Reg.SYS_LGSEQ) ∧ t.clk.lg = .idle ∧ t.clk.pll = .off ∧ t.pwr = pwrOFF ∧
      t.fld Reg.SYS_PWRSTATE 4 3 = 0 ∧ t.bit Reg.SYS_PWRSTATE 8 = false ∧ t.fld Reg.SYS_PWRSTATE 16 8 = 0)

/-- Chapter 4 (R99, R101, R144, R155, R156, R213, R220, R221, R240, R972, R1011): the link and configuration space. -/
def Obligations.LinkEvents : Prop :=
  (∀ s : State, s.alwaysOn = true →
    Runs .linkReset s fun t =>
      t.hif.perstLow = true ∧ t.hif.cfg = [] ∧ t.hif.fetch = .none ∧ t.hif.cplHeld = [] ∧ t.hif.training = false ∧
      t.hif.hostLost = true ∧ t.bit Reg.HIF_STATUS 0 = true ∧ t.bit Reg.HIF_LINKSTAT 0 = false ∧
      t.fld Reg.HIF_LRTALLY 0 16 = min 0xFFFF (s.fld Reg.HIF_LRTALLY 0 16 + 1) ∧ t.asserted 54 = true ∧
      (∀ c, t.hif.cmd = some c → c.mute = true) ∧
      (∀ n : Fin 32, t.rd (Reg.HIF_HLTGT n.val) = s.rd (Reg.HIF_HLTGT n.val)) ∧
      (∀ k : Fin 8, t.rd (Reg.HIF_REC_CFG k.val) = regReset (Reg.HIF_REC_CFG k.val)) ∧
      t.rd Reg.HIF_CMD_CFG = regReset Reg.HIF_CMD_CFG ∧ t.mem = s.mem ∧ t.cores = s.cores) ∧
  (∀ s : State, s.alwaysOn = false →
    Runs .linkReset s fun t => t = { s with hif := { s.hif with perstLow := true } }) ∧
  (∀ s : State, s.alwaysOn = true → s.bit Reg.HIF_LINKSTAT 0 = true →
    Runs .dataLinkDown s (fun t =>
      t.bit Reg.HIF_LINKSTAT 0 = false ∧ t.hif.cfg = [] ∧ t.hif.hostLost = true ∧ t.asserted 54 = true ∧
      t.fld Reg.HIF_LRTALLY 0 16 = min 0xFFFF (s.fld Reg.HIF_LRTALLY 0 16 + 1) ∧
      t.hif.training = (!s.hif.perstLow && s.hif.phyOk)) ∧
    Runs .inBandHotReset s (fun t =>
      t.bit Reg.HIF_LINKSTAT 0 = false ∧ t.hif.cfg = [] ∧ t.hif.hostLost = true ∧ t.asserted 54 = true ∧
      t.fld Reg.HIF_LRTALLY 0 16 = min 0xFFFF (s.fld Reg.HIF_LRTALLY 0 16 + 1) ∧
      t.hif.training = (!s.hif.perstLow && s.hif.phyOk))) ∧
  (∀ s : State, s.alwaysOn = true → s.bit Reg.HIF_LINKSTAT 0 = true →
    Runs .functionLevelReset s fun t =>
      t.bit Reg.HIF_LINKSTAT 0 = true ∧ t.hif.hostLost = true ∧ t.bit Reg.HIF_STATUS 0 = true ∧
        t.bit Reg.HIF_STATUS 1 = false ∧
      t.fld Reg.HIF_FLRTALLY 0 16 = min 0xFFFF (s.fld Reg.HIF_FLRTALLY 0 16 + 1) ∧ t.asserted 54 = true ∧
      t.cfgRd 1 = Config.cfgReset 1 ∧ t.cfgRd 0x41 = s.cfgRd 0x41 ∧
      (∀ c, t.hif.cmd = some c → c.mute = true) ∧ t.rd Reg.HIF_CMD_CFG = regReset Reg.HIF_CMD_CFG ∧ t.mem = s.mem) ∧
  (∀ s : State, s.hif.phyOk = true → s.clk.pll = .locked → s.bit Reg.HIF_LINKSTAT 0 = false →
    Runs .perstRelease s fun t => t = { s with hif := { s.hif with perstLow := false, training := true } }) ∧
  (∀ s : State, s.hif.phyOk = false ∨ s.clk.pll ≠ .locked ∨ s.bit Reg.HIF_LINKSTAT 0 = true →
    Runs .perstRelease s fun t => t = { s with hif := { s.hif with perstLow := false } }) ∧
  (∀ s : State, s.hif.perstLow = false → s.clk.pll = .locked → s.bit Reg.HIF_LINKSTAT 0 = false →
    Runs .phySuppliesValid s fun t => t = { s with hif := { s.hif with phyOk := true, training := true } }) ∧
  (∀ (s : State) (sp : BitVec 2) (w : BitVec 3), s.hif.training = true → s.alwaysOn = true →
    Runs (.linkTrainingDone sp w) s fun t =>
      t.hif.training = false ∧ t.bit Reg.HIF_LINKSTAT 0 = true ∧ t.fld Reg.HIF_LINKSTAT 1 2 = sp.toNat ∧
      t.fld Reg.HIF_LINKSTAT 3 3 = w.toNat ∧ RegsBut [Reg.HIF_LINKSTAT] s t ∧ Keeps [.regs, .hif] s t) ∧
  (∀ (s : State) (d : BitVec 10) (val : Word) (be : BitVec 4), s.alwaysOn = true → s.bit Reg.HIF_LINKSTAT 0 = true →
    Runs (.configRequest false d val be) s fun t => t = { s with reply := .word (s.cfgRd d.toNat) }) ∧
  (∀ (s : State) (d : BitVec 10) (val : Word), s.alwaysOn = true → s.bit Reg.HIF_LINKSTAT 0 = true →
    d.toNat ≠ 0x22 → d.toNat ≠ 0x11 → d.toNat ≠ 0x19 →
    Runs (.configRequest true d val 0xF) s fun t =>
      t.cfgRd d.toNat = ((s.cfgRd d.toNat &&& ~~~ cfgWritable d.toNat) ||| (val &&& cfgWritable d.toNat)) &&& ~~~ (val &&& cfgW1C d.toNat)) ∧
  (∀ (s : State) (locked : Bool), s.alwaysOn = true → s.bit Reg.HIF_LINKSTAT 0 = true →
    Runs (.ioOrLockedRequest locked) s fun t =>
      t.reply = .unsupported ∧ t.out = s.out ++ [Out.unsupported] ∧ W.bit (t.cfgRd 0x41) 20 = true ∧
      (∀ d, d < 0x41 ∨ 0x4A < d → t.cfgRd d = s.cfgRd d) ∧ Keeps [.hif, .out, .reply, .free] s t)

/-- Chapters 1 and 4 (R6 to R11, R29, R158 to R163, R166 to R172, R239): accesses from outside. -/
def Obligations.RegisterAccess : Prop :=
  (∀ (s : State) (src : Requester) (i : Fin 32) (val : Word) (tlp : Tlp) (coin : Word), src ≠ .host → s.sysServed = true →
    Runs (.registerWrite src (BitVec.ofNat 32 (Reg.SYS_LGUSER i.val)) val 0xF tlp coin) s fun t =>
      t.rd (Reg.SYS_LGUSER i.val) = val ∧ RegsBut [Reg.SYS_LGUSER i.val] s t ∧ Keeps [.regs] s t) ∧
  (∀ (s : State) (src : Requester) (val : Word) (tlp : Tlp) (coin : Word), src ≠ .host → s.sysServed = true →
    Runs (.registerWrite src (BitVec.ofNat 32 Reg.SYS_STATUS) val 0xF tlp coin) s fun t =>
      (∀ i : Fin 32, W.bit (BitVec.ofNat 32 ((regRow Reg.SYS_STATUS).map (·.w1c) |>.getD 0)) i.val = true →
        t.bit Reg.SYS_STATUS i.val = (s.bit Reg.SYS_STATUS i.val && !W.bit (val &&& ~~~coin) i.val)) ∧
      (∀ i : Fin 32, W.bit (BitVec.ofNat 32 ((regRow Reg.SYS_STATUS).map (·.w1c) |>.getD 0)) i.val = false →
        t.bit Reg.SYS_STATUS i.val = s.bit Reg.SYS_STATUS i.val) ∧
      RegsBut [Reg.SYS_STATUS] s t ∧ Keeps [.regs] s t) ∧
  (∀ (s : State) (src : Requester) (r : Fin 8) (val : Word) (tlp : Tlp) (coin : Word), src ≠ .host → s.sysServed = true →
    s.sup.seqOwns = true →
    Runs (.registerWrite src (BitVec.ofNat 32 (Reg.SUP_RAIL_THWARN r.val)) val 0xF tlp coin) s fun t =>
      t = s.setBit Reg.SUP_STATUS 31 true) ∧
  (∀ (s : State) (src : Requester) (addr val : Word) (be : BitVec 4) (tlp : Tlp) (coin : Word), src ≠ .host → be ≠ 0xF →
    Runs (.registerWrite src addr val be tlp coin) s fun t => t = s) ∧
  (∀ (s : State) (addr val : Word) (be : BitVec 4) (coin : Word), s.alwaysOn = true → s.bit Reg.HIF_LINKSTAT 0 = true →
    s.memServed = true → be ≠ 0xF →
    Runs (.registerWrite .host addr val be .good coin) s fun t => t = s.setBit Reg.HIF_STATUS 4 true) ∧
  (∀ (s : State) (addr val : Word) (be : BitVec 4) (coin : Word), s.alwaysOn = true → s.bit Reg.HIF_LINKSTAT 0 = true →
    Runs (.registerWrite .host addr val be .poisoned coin) s (fun t =>
      W.bit (t.cfgRd 0x41) 12 = true ∧ (∀ d, d < 0x41 ∨ 0x4A < d → t.cfgRd d = s.cfgRd d) ∧ Keeps [.hif, .free] s t) ∧
    Runs (.registerWrite .host addr val be .malformed coin) s (fun t =>
      W.bit (t.cfgRd 0x41) 18 = true ∧ (∀ d, d < 0x41 ∨ 0x4A < d → t.cfgRd d = s.cfgRd d) ∧ Keeps [.hif, .free] s t)) ∧
  (∀ (s : State) (i : Fin 32) (val : Word) (coin : Word), s.sysServed = true → s.bit Reg.HIF_LINKSTAT 0 = true →
    s.memServed = true →
    s.fld Reg.HIF_REGWIN 0 6 = 0 →
    Runs (.registerWrite .host (BitVec.ofNat 32 (0x8020 + 4 * i.val)) val 0xF .good coin) s fun t =>
      t.rd (Reg.SYS_LGUSER i.val) = val ∧ RegsBut [Reg.SYS_LGUSER i.val] s t ∧ Keeps [.regs] s t) ∧
  (∀ (s : State) (a : BitVec 21), s.alwaysOn = true → s.bit Reg.HIF_LINKSTAT 0 = true → s.memServed = true →
    s.bar2Closed = false → (s.atHome 6 (a.toNat / 32)).eccAt a.toNat = 0 →
      (s.atHome 6 (a.toNat / 32)).owner (a.toNat / 32) = none →
    Runs (.bar2Read a .good) s fun t =>
      t = { s.atHome 6 (a.toNat / 32) with reply := .word ((s.atHome 6 (a.toNat / 32)).rdWord (a.toNat / 4 * 4)) }) ∧
  (∀ (s : State) (a : BitVec 21), s.alwaysOn = true → s.bit Reg.HIF_LINKSTAT 0 = true → s.memServed = true →
    s.bar2Closed = true → Runs (.bar2Read a .good) s fun t => t = { s with reply := .word 0 }) ∧
  (∀ (s : State) (a : BitVec 21), s.alwaysOn = true → s.bit Reg.HIF_LINKSTAT 0 = true → s.memServed = false →
    Runs (.bar2Read a .good) s fun t => t.reply = .unsupported ∧ t.out = s.out ++ [Out.unsupported]) ∧
  (∀ (s : State) (a : BitVec 21) (val : Word) (be : BitVec 4), s.alwaysOn = true → s.bit Reg.HIF_LINKSTAT 0 = true →
    s.memServed = true → s.bar2Closed = false → (s.atHome 6 (a.toNat / 32)).eccAt a.toNat = 0 →
    (∀ n : Fin 4, ((s.atHome 6 (a.toNat / 32)).line n.val (a.toNat / 32)).st = .i) →
    Runs (.bar2Write a val be .good) s fun t =>
      t.rdWord (a.toNat / 4 * 4) = mergeBE ((s.atHome 6 (a.toNat / 32)).rdWord (a.toNat / 4 * 4)) val be ∧
      (∀ b, b < a.toNat / 4 * 4 ∨ a.toNat / 4 * 4 + 4 ≤ b → t.rdByte b = (s.atHome 6 (a.toNat / 32)).rdByte b) ∧
      t.regs = (s.atHome 6 (a.toNat / 32)).regs) ∧
  (∀ (s : State) (a : BitVec 21) (val : Word) (be : BitVec 4), s.alwaysOn = true → s.bit Reg.HIF_LINKSTAT 0 = true →
    Runs (.bar2Write a val be .poisoned) s (fun t => t = s.aerError 12) ∧
    Runs (.bar2Write a val be .malformed) s (fun t => t = s.aerError 18)) ∧
  (∀ (s : State) (src : Requester) (y : BitVec 28) (val : Word) (va : BitVec 24), s.live = true → s.canIssue = true →
    Runs (.outboundAccess src true y val va) s (fun t =>
      t = s.emit (.writeBytes (s.obAddr (y.toNat / 4 * 4)) (wordBytes val))) ∧
    Runs (.outboundAccess src false y val va) s (fun t =>
      t = { (s.emit (.read (s.obAddr (y.toNat / 4 * 4)) 4)) with reply := .word val }))

/-- Chapter 3 (R128 to R136, R145, R149 to R151, R1014): the boot ROM. -/
def Obligations.BootEvents : Prop :=
  (∀ (s : State) (ws : List Word), s.live = true → s.boot.stage = .header → s.bootSource ≠ 2 → ws.length = 16 →
    crc32 (ws.take 15) = ws.getD 15 0 → hdrBad ws 0x800000 = false →
    Runs (.bootItemRead ⟨ws, false⟩) s fun t =>
      t.boot.stage = .table ∧ t.boot.hdr = ws ∧ t.boot.failedOnce = false ∧
      t.fld Reg.SYS_BOOTTALLY 0 16 =
        (if s.boot.failedOnce then min 0xFFFF (s.fld Reg.SYS_BOOTTALLY 0 16 + 1) else s.fld Reg.SYS_BOOTTALLY 0 16) ∧
      t.out = (s.flashRead 0 16).out ∧ RegsBut [Reg.SYS_BOOTTALLY] s t ∧ Keeps [.regs, .boot, .out] s t) ∧
  (∀ (s : State) (item : ItemRead), s.live = true → s.boot.stage = .header ∨ s.boot.stage = .table → s.bootSource ≠ 2 →
    item.partialFrame = true → 0 < hdrNsect s.boot.hdr →
    Runs (.bootItemRead item) s fun t =>
      Keeps [.boot, .out] s t ∧ (s.boot.failedOnce = false → t.boot = { s.boot with failedOnce := true }) ∧
      (s.boot.failedOnce = true → t.boot = { s.boot with failedOnce := false, bad := true, stage := .check })) ∧
  (∀ (s : State) (ws : List Word) (i : Nat), s.live = true → s.boot.stage = .sect i → s.bootSource ≠ 2 →
    ws.length = (sectionOf s.boot.hdr s.boot.tbl i).len / 4 → crc32 ws = (sectionOf s.boot.hdr s.boot.tbl i).scrc →
    (sectionOf s.boot.hdr s.boot.tbl i).load % 4 = 0 → s.coh.credits = [] →
    Runs (.bootItemRead ⟨ws, false⟩) s fun t =>
      (let a := (sectionOf s.boot.hdr s.boot.tbl i).load
       t.rdWords a ws.length = ws ∧ ∀ b, b < a ∨ a + 4 * ws.length ≤ b → (∀ n : Fin 4, (s.line n.val (b / 32)).st ≠ .m) →
         t.rdByte b = s.rdByte b) ∧
      t.boot.stage = (if i + 1 < hdrNsect s.boot.hdr then .sect (i + 1) else .done) ∧ RegsBut [Reg.SYS_BOOTTALLY] s t) ∧
  (∀ s : State, s.live = true → s.boot.stage = .check → s.boot.bad = true →
    Runs .bootCheckOutcome s fun t =>
      (s.bootSource ≠ 2 → s.bit Reg.SYS_BOOTSTAT 6 = false →
        t.boot.stage = .header ∧ t.boot.bad = false ∧ t.bit Reg.SYS_BOOTSTAT 6 = true ∧ RegsBut [Reg.SYS_BOOTSTAT] s t) ∧
      (s.bootSource = 2 ∨ s.bit Reg.SYS_BOOTSTAT 6 = true →
        t.fld Reg.SYS_BOOTSTAT 0 4 = boNO_IMAGE ∧ t.boot.waits = true ∧ t.boot.stage = .idle)) ∧
  (∀ s : State, s.live = true → s.boot.stage = .check → s.boot.bad = false →
    malformed s.boot.hdr s.boot.tbl s.bootAvail s.staged = false →
    (imageOutcome (sections s.boot.hdr s.boot.tbl) (s.fwe (sections s.boot.hdr s.boot.tbl))).1 = boREADY →
    Runs .bootCheckOutcome s fun t =>
      t.boot.stage = .sect 0 ∧ t.fld Reg.SYS_BOOTSTAT 8 5 = 0 ∧ t.fld Reg.SYS_BOOTSTAT 0 4 = s.fld Reg.SYS_BOOTSTAT 0 4 ∧
      RegsBut [Reg.SYS_BOOTSTAT] s t ∧ Keeps [.regs, .boot] s t) ∧
  (∀ (s : State) (oc sect : Nat), s.live = true → s.boot.stage = .check → s.boot.bad = false → s.boot.forcing = false →
    malformed s.boot.hdr s.boot.tbl s.bootAvail s.staged = false →
    imageOutcome (sections s.boot.hdr s.boot.tbl) (s.fwe (sections s.boot.hdr s.boot.tbl)) = (oc, sect) → oc ≠ boREADY →
    Runs .bootCheckOutcome s fun t =>
      t.fld Reg.SYS_BOOTSTAT 0 4 = oc ∧ t.fld Reg.SYS_BOOTSTAT 8 5 = sect % 32 ∧ t.boot.waits = true ∧ t.boot.stage = .idle ∧
      Keeps [.regs, .boot] s t) ∧
  (∀ (s : State) (c : Section), s.live = true → s.boot.stage = .done →
    (sections s.boot.hdr s.boot.tbl).find? Section.isCode = some c →
    Runs .bootCopyDone s fun t =>
      t.fld Reg.SYS_BOOTSTAT 0 4 = boREADY ∧ t.rd (Reg.SYS_COREENTRY 0) = s.boot.hdr.getD 4 0 &&& 0xFFFFFFFC ∧
      t.fld Reg.SYS_BOOTSTAT 16 8 = c.epoch % 256 ∧ t.boot.waits = false ∧ t.boot.stage = .idle ∧
      (t.core 0).started = true ∧ (t.core 0).pc = (s.boot.hdr.getD 4 0 &&& 0xFFFFFFFC).setWidth 16 ∧
      (t.core 0).dstk = [] ∧ (t.core 0).status = 0x0100) ∧
  (∀ s : State, s.live = true → s.boot.stage = .done → (sections s.boot.hdr s.boot.tbl).any Section.isCode = false →
    Runs .bootCopyDone s fun t =>
      t.fld Reg.SYS_BOOTSTAT 0 4 = boREADY ∧ t.boot.waits = true ∧ t.cores = s.cores) ∧
  (∀ (s : State) (val : Word), s.sysServed = true → W.bit val 0 = true → s.bootSource = 2 → 2 ≤ s.outcome → s.outcome ≤ 5 →
    Runs (.bootgo val) s fun t =>
      t.outcome = boBOOTING ∧ t.boot.stage = .header ∧ t.boot.bad = false ∧ RegsBut [Reg.SYS_BOOTSTAT] s t ∧
        Keeps [.regs, .boot] s t) ∧
  (∀ (s : State) (val : Word), s.sysServed = true → W.bit val 0 = true →
    s.bootSource ≠ 2 ∨ s.outcome = boBOOTING ∨ s.outcome = boREADY →
    Runs (.bootgo val) s fun t => t = s.setBit Reg.SYS_BOOTSTAT 14 true) ∧
  (∀ (s : State) (val : Word), s.sysServed = true → W.fld val 0 16 = 0xF0CE → s.outcome = boHOLD_UNTESTED →
    Runs (.bootforce val) s fun t =>
      t.outcome = boBOOTING ∧ t.boot.stage = .header ∧ t.boot.forcing = true ∧ RegsBut [Reg.SYS_BOOTSTAT] s t ∧
      Keeps [.regs, .boot] s t) ∧
  (∀ (s : State) (val : Word), s.sysServed = true → W.fld val 0 16 ≠ 0xF0CE ∨ s.outcome ≠ boHOLD_UNTESTED →
    Runs (.bootforce val) s fun t => t = s.setBit Reg.SYS_BOOTSTAT 13 true)

/-- Chapter 4 (R176 to R180, R184, R198, R200, R201, R204, R205, R224, R225, R228, R229, R1016). -/
def Obligations.RingEvents : Prop :=
  (∀ (s : State) (val : Word), s.live = true → s.linkServes = true → s.memServed = true → s.hif.perstLow = false →
    s.bit Reg.HIF_CMD_CFG 31 = true →
    W.fld val 0 12 < ringSize (s.rd Reg.HIF_CMD_CFG) →
    Runs (.cmdDoorbell val) s fun t =>
      t.fld Reg.HIF_CMD_IDX 16 12 = W.fld val 0 12 ∧ t.fld Reg.HIF_CMD_IDX 0 12 = s.fld Reg.HIF_CMD_IDX 0 12 ∧
      RegsBut [Reg.HIF_CMD_IDX] s t ∧ Keeps [.regs, .hif] s t) ∧
  (∀ (s : State) (val : Word), s.live = true → s.linkServes = true → s.memServed = true → s.hif.perstLow = false →
    s.bit Reg.HIF_CMD_CFG 31 = false ∨ ringSize (s.rd Reg.HIF_CMD_CFG) ≤ W.fld val 0 12 →
    Runs (.cmdDoorbell val) s fun t =>
      t.bit Reg.HIF_STATUS 2 = true ∧ t.asserted 55 = true ∧ RegsBut (Reg.HIF_STATUS :: icuRegs) s t ∧ Keeps [.regs] s t) ∧
  (∀ (s : State) (val : Word), s.linkServes = true → s.memServed = true → s.pwr = pwrSTANDBY → s.hif.perstLow = false →
    Runs (.cmdDoorbell val) s (fun t => tget none t.hif.kept 0 = some val ∧ Keeps [.hif] s t) ∧
    Runs (.cplDoorbell val) s (fun t => tget none t.hif.kept 1 = some val ∧ Keeps [.hif] s t) ∧
    Runs (.evDoorbell val) s (fun t => tget none t.hif.kept 2 = some val ∧ Keeps [.hif] s t) ∧
    ∀ k : Fin 8, Runs (.recDoorbell k val) s fun t => tget none t.hif.kept (3 + k.val) = some val ∧ Keeps [.hif] s t) ∧
  (∀ (s : State) (val : Word), s.live = true → s.linkServes = true → s.memServed = true → s.hif.perstLow = false →
    s.bit Reg.HIF_CPL_CFG 31 = true → s.hif.cplHeld = [] →
    (let n := ringSize (s.rd Reg.HIF_CPL_CFG)
     W.fld val 0 12 < n ∧ (W.fld val 0 12 + n - s.fld Reg.HIF_CPL_IDX 0 12) % n ≤ (s.fld Reg.HIF_CPL_IDX 16 12 + n - s.fld Reg.HIF_CPL_IDX 0 12) % n) →
    Runs (.cplDoorbell val) s fun t => t = s.setFld Reg.HIF_CPL_IDX 0 12 (W.fld val 0 12)) ∧
  (∀ (s : State) (val : Word), s.live = true → s.linkServes = true → s.memServed = true → s.hif.perstLow = false →
    s.bit Reg.HIF_EV_CFG 31 = true →
    (let n := ringSize (s.rd Reg.HIF_EV_CFG)
     W.fld val 0 12 < n ∧ (W.fld val 0 12 + n - s.fld Reg.HIF_EV_IDX 0 12) % n ≤ (s.fld Reg.HIF_EV_IDX 16 12 + n - s.fld Reg.HIF_EV_IDX 0 12) % n) →
    Runs (.evDoorbell val) s fun t => t = s.setFld Reg.HIF_EV_IDX 0 12 (W.fld val 0 12)) ∧
  (∀ (s : State) (k : Fin 8) (val : Word), s.live = true → s.linkServes = true → s.memServed = true → s.hif.perstLow = false →
    s.bit (Reg.HIF_REC_CFG k.val) 31 = true → s.bit (Reg.HIF_REC_IDX k.val) 30 = false →
    (let n := ringSize (s.rd (Reg.HIF_REC_CFG k.val))
     W.fld val 0 12 < n ∧ (s.bit (Reg.HIF_REC_IDX k.val) 31 = true ∨
      (W.fld val 0 12 + n - s.fld (Reg.HIF_REC_IDX k.val) 0 12) % n ≤
        (s.fld (Reg.HIF_REC_IDX k.val) 16 12 + n - s.fld (Reg.HIF_REC_IDX k.val) 0 12) % n)) →
    Runs (.recDoorbell k val) s fun t =>
      t.fld (Reg.HIF_REC_IDX k.val) 0 12 = W.fld val 0 12 ∧ t.bit (Reg.HIF_REC_IDX k.val) 31 = false ∧
      t.fld (Reg.HIF_REC_IDX k.val) 16 12 = s.fld (Reg.HIF_REC_IDX k.val) 16 12 ∧ RegsBut [Reg.HIF_REC_IDX k.val] s t) ∧
  (∀ (s : State) (k : Fin 8), s.linkServes = true → s.memServed = true →
    s.regServed .host (Reg.HIF_REC_IDX k.val) = true →
    Runs (.recIdxRead k false .good) s (fun t =>
      t = { (s.setBit (Reg.HIF_REC_IDX k.val) 30 false) with reply := .word (s.rd (Reg.HIF_REC_IDX k.val)) }) ∧
    Runs (.recIdxRead k true .good) s (fun t =>
      t = { s with reply := .word (W.setBit (s.rd (Reg.HIF_REC_IDX k.val)) 30 (s.hif.movedWas.testBit k.val)) })) ∧
  (∀ (s : State) (r : Fin 11) (val : Word), s.hostReg (ringCfgA r.val) = true → s.bit (ringCfgA r.val) 31 = false →
    W.bit val 31 = true →
    ringCfgOk r.val val = true → s.hif.cplHeld = [] →
    Runs (.ringCfgWrite r val) s fun t =>
      t.bit (ringCfgA r.val) 31 = true ∧ t.fld (ringCfgA r.val) 0 4 = W.fld val 0 4 ∧ t.rd (ringIdxA r.val) = 0 ∧
      (∀ k : Fin 8, r.val = 3 + k.val → t.rd (Reg.HIF_REC_SEQ k.val) = 1) ∧ (r = 2 → t.hif.evPhase = true) ∧
      (r = 1 → t.hif.cplPhase = true)) ∧
  (∀ (s : State) (r : Fin 11) (val : Word), s.hostReg (ringCfgA r.val) = true → s.bit (ringCfgA r.val) 31 = false →
    W.bit val 31 = true →
    ringCfgOk r.val val = false →
    Runs (.ringCfgWrite r val) s fun t =>
      t.bit (ringCfgA r.val) 31 = false ∧ t.bit Reg.HIF_STATUS 3 = true ∧ RegsBut [ringCfgA r.val, Reg.HIF_STATUS] s t) ∧
  (∀ (s : State) (r : Fin 11) (val : Word), s.hostReg (ringCfgA r.val) = true → s.bit (ringCfgA r.val) 31 = true →
    s.rd (ringCfgA r.val) &&& ringCfgMask r.val ≠ val &&& ringCfgMask r.val →
    Runs (.ringCfgWrite r val) s fun t => t = s.setBit Reg.HIF_STATUS 31 true) ∧
  (∀ (s : State) (k : Fin 8) (val : Word), s.live = true → s.hif.perstLow = false →
    s.bit (Reg.HIF_REC_POSTLEN k.val) 31 = false →
    s.bit (Reg.HIF_REC_CFG k.val) 31 = true → s.fld (Reg.HIF_REC_CFG k.val) 8 4 = 8 → W.fld val 0 10 ≠ 0 →
    W.fld val 0 10 + 4 ≤ s.recSlotWords k.val →
    Runs (.recordPost k val) s fun t =>
      tget none t.hif.posts k.val = some ⟨s.fld (Reg.HIF_REC_POSTADDR k.val) 0 21, W.fld val 0 10⟩ ∧
      t.bit (Reg.HIF_REC_POSTLEN k.val) 31 = true ∧ RegsBut [Reg.HIF_REC_POSTLEN k.val] s t ∧ Keeps [.regs, .hif] s t) ∧
  (∀ (s : State) (k : Fin 8) (val : Word), s.live = true → s.hif.perstLow = false →
    s.bit (Reg.HIF_REC_POSTLEN k.val) 31 = true ∨ W.fld val 0 10 = 0 ∨ s.bit (Reg.HIF_REC_CFG k.val) 31 = false ∨
      s.recSlotWords k.val < W.fld val 0 10 + 4 →
    Runs (.recordPost k val) s fun t => t = s.setBit Reg.HIF_STATUS 6 true) ∧
  (∀ (s : State) (v : Fin 10), s.live = true → tget 0 s.hif.vcnt v.val ≠ 0 → s.fld (Reg.HIF_VMOD v.val) 8 16 ≠ 0 →
    W.bit (s.cfgRd 0x1C) 31 = true → W.bit (s.cfgRd 0x1C) 30 = false → s.bit (Reg.HIF_MSIX_CTRL v.val) 0 = false →
    s.canIssue = true →
    Runs (.vectorModerationTimeout v) s fun t =>
      tget 0 t.hif.vcnt v.val = 0 ∧ t.bit Reg.HIF_MSIXPBA v.val = false ∧
      t.out = s.out ++ [Out.message v.val (W.of32 (s.rd (Reg.HIF_MSIX_ADDRLO v.val)) (s.rd (Reg.HIF_MSIX_ADDRHI v.val)))
        (s.rd (Reg.HIF_MSIX_DATA v.val))] ∧ RegsBut [Reg.HIF_MSIXPBA] s t ∧ Keeps [.regs, .hif, .out] s t) ∧
  (∀ (s : State) (val : Word), s.live = true → s.hif.perstLow = false → W.bit (s.cfgRd 0x1C) 31 = true →
    W.bit (s.cfgRd 0x1C) 30 = true →
    Runs (.fwirqWrite val) s fun t =>
      (∀ k : Fin 6, t.bit Reg.HIF_MSIXPBA (10 + k.val) = (s.bit Reg.HIF_MSIXPBA (10 + k.val) || W.bit val k.val)) ∧
      (∀ k : Fin 6, t.bit Reg.HIF_FWIRQ k.val = (s.bit Reg.HIF_FWIRQ k.val || W.bit val k.val)) ∧
      RegsBut [Reg.HIF_MSIXPBA, Reg.HIF_FWIRQ] s t ∧ Keeps [.regs] s t)

/-- Chapters 4 and 5 (R182, R183, R190, R191, R201, R214, R215, R219, R227, R236, R237, R246, R249, R250, R286, R1015). -/
def Obligations.CommandRing : Prop :=
  (∀ s : State, s.canIssue = true → s.bit Reg.HIF_CMD_CFG 31 = true → s.hif.fetch = .none → s.hif.cmd = none →
    s.hif.cplHeld = [] → s.bit Reg.HIF_STATUS 1 = false → s.hif.fetchOff = false → s.hif.needDb = false → s.cplRoom = true →
    s.fld Reg.HIF_CMD_IDX 16 12 ≠ s.fld Reg.HIF_CMD_IDX 0 12 →
    Runs .descriptorFetch s fun t =>
      t.hif.fetch = .reading (s.fld Reg.HIF_CMD_IDX 0 12) false ∧
      t.out = s.out ++ [Out.read (s.descAddr (s.fld Reg.HIF_CMD_IDX 0 12)) 32] ∧ Keeps [.hif, .out] s t) ∧
  (∀ (s : State) (i : Nat) (second : Bool) (ws : List Word), s.hif.fetch = .reading i second →
    knownOpcode (W.fld (ws.getD 0 0) 0 8) = true → W.fld (ws.getD 0 0) 10 6 = 0 →
    Runs (.descriptorFetchDone (.ok ws)) s fun t =>
      t.hif.fetch = .none ∧ t.hif.cmd = some { words := ws, cidx := i, d1 := tget 0 s.hif.d1 i } ∧
      RegsBut [Reg.HIF_FETCHTALLY] s t ∧ Keeps [.regs, .hif] s t) ∧
  (∀ (s : State) (i : Nat) (second : Bool) (ws : List Word), s.hif.fetch = .reading i second →
    knownOpcode (W.fld (ws.getD 0 0) 0 8) = false ∨ W.fld (ws.getD 0 0) 10 6 ≠ 0 →
    Runs (.descriptorFetchDone (.ok ws)) s fun t =>
      t.answered { words := ws, cidx := i, d1 := tget 0 s.hif.d1 i } (if knownOpcode (W.fld (ws.getD 0 0) 0 8) then 2 else 1) 0 0 ∧
      t.hif.fetch = .none) ∧
  (∀ (s : State) (i : Nat), s.hif.fetch = .reading i false →
    Runs (.descriptorFetchDone .failed) s fun t =>
      (s.canIssue = true →
        t = { s with hif := { s.hif with fetch := .reading i true }, out := s.out ++ [Out.read (s.descAddr i) 32] }) ∧
      (s.canIssue = false → t = { s with hif := { s.hif with fetch := .again i } })) ∧
  (∀ (s : State) (i : Nat), s.hif.fetch = .again i → s.canIssue = true →
    Runs .descriptorFetch s fun t =>
      t = { s with hif := { s.hif with fetch := .reading i true }, out := s.out ++ [Out.read (s.descAddr i) 32] }) ∧
  (∀ (s : State) (i : Nat), s.hif.fetch = .reading i true →
    Runs (.descriptorFetchDone .failed) s fun t =>
      t.hif.fetch = .none ∧ t.hif.needDb = true ∧ t.bit Reg.HIF_STATUS 1 = true ∧ t.asserted 55 = true) ∧
  (∀ (s : State) (c : Cmd), s.live = true → s.hif.cmd = some c → c.started = true → c.rdLen ≠ 0 → c.rdOut = true →
    c.mute = false → c.failedOnce = false →
    Runs (.commandHostRead .failed) s fun t =>
      (∃ d, t.hif.cmd = some d ∧ d.failedOnce = true ∧ d.words = c.words ∧ d.rdLen = c.rdLen ∧ d.stage = c.stage ∧
        d.rdOut = s.canIssue) ∧
      (s.canIssue = true → t.out = s.out ++ [Out.read c.rdNext (4 * s.rdChunk c)]) ∧ Keeps [.hif, .out] s t) ∧
  (∀ (s : State) (c : Cmd), s.live = true → s.hif.cmd = some c → c.started = true → c.rdLen ≠ 0 → c.rdOut = true →
    c.mute = false → c.failedOnce = true → c.op ≠ 0x04 →
    Runs (.commandHostRead .failed) s fun t => t.answered c 0x0A 0 0 ∧ t.mem = s.mem) ∧
  (∀ (s : State) (c : Cmd), s.cmdNew 0x00 = some c →
    Runs .nop s fun t =>
      t.answered c 0 0 0 ∧
      (c.mute = false → c.old = false →
        t.fld Reg.HIF_CMD_IDX 0 12 = (c.cidx + 1) % ringSize (s.rd Reg.HIF_CMD_CFG) % 4096)) ∧
  (∀ (s : State) (c : Cmd), s.cmdNew 0x01 = some c → s.cplRoom = true →
    Runs .echo s fun t =>
      t.hif.cmd = some { c with started := true, stage := 1, aux := (s.clk.tb + 64).toNat } ∧
      (c.silent 0 = false → t.wrote [BitVec.ofNat 32 (256 * c.op + 65536 * W.fld (c.word 0) 16 16),
        W.lo32 c.d1, BitVec.ofNat 32 (s.clk.tb + 64).toNat]) ∧ Keeps [.hif, .out] s t) ∧
  (∀ (s : State) (c : Cmd), s.cmdRun 0x01 = some c → c.aux ≤ s.clk.tb.toNat →
    Runs .echoWord3 s fun t =>
      (c.silent 0 = true → t.hif.cmd = none ∧ t.out = s.out) ∧
      (c.silent 0 = false → s.cplRoom = false → t = s.setCmd { c with stage := 2 }) ∧
      (c.silent 0 = false → s.cplRoom = true → c.stage = 1 →
        t.hif.cmd = none ∧ t.out.take (s.out.length + 1) =
          s.out ++ [Out.write (s.cplAddr + 12) [W.setBit (BitVec.ofNat 32 (c.cidx % 4096)) 31 s.hif.cplPhase]]) ∧
      (c.silent 0 = false → s.cplRoom = true → c.stage ≠ 1 →
        t.hif.cmd = some { c with stage := 1, aux := (s.clk.tb + 64).toNat } ∧
        t.wrote [BitVec.ofNat 32 (256 * c.op + 65536 * W.fld (c.word 0) 16 16), W.lo32 c.d1, BitVec.ofNat 32 (s.clk.tb + 64).toNat])) ∧
  (∀ (s : State) (c : Cmd), s.cmdNew 0x51 = some c →
    Runs .ledgerquery s fun t => t.answered c 0 (BitVec.ofNat 32 (s.fld Reg.XLT_LEDGER 0 16)) 9000) ∧
  (∀ (s : State) (e : Event), s.hif.evLost = 0 → s.hif.evHold = [e] → s.evRoom = true →
    Runs .eventHoldDrain s fun t =>
      t.hif.evHold = [] ∧ t.fld Reg.HIF_EV_IDX 16 12 = (s.fld Reg.HIF_EV_IDX 16 12 + 1) % ringSize (s.rd Reg.HIF_EV_CFG) % 4096 ∧
      t.wrote [BitVec.ofNat 32 (e.code % 65536 + 65536 * (e.src % 65536)), e.data, W.lo32 e.tb]) ∧
  (∀ s : State, s.evRoom = false → Runs .eventHoldDrain s fun t => t.hif.evHold = s.hif.evHold ∧ t.out = s.out) ∧
  (∀ (s : State) (k : Fin 8) (p : Post), tget none s.hif.posts k.val = some p → s.recOpen k.val = true →
    Runs (.postReadDone k) s fun t =>
      tget none t.hif.posts k.val = none ∧ t.bit (Reg.HIF_REC_POSTLEN k.val) 31 = false ∧ t.asserted 55 = true ∧
      t.fld (Reg.HIF_REC_IDX k.val) 16 12 =
        (s.fld (Reg.HIF_REC_IDX k.val) 16 12 + 1) % ringSize (s.rd (Reg.HIF_REC_CFG k.val)) % 4096 ∧
      t.rd (Reg.HIF_REC_SEQ k.val) =
        (if s.rd (Reg.HIF_REC_SEQ k.val) = 0xFFFFFFFF then 1 else s.rd (Reg.HIF_REC_SEQ k.val) + 1) ∧ (s.coh.credits = [] →
          t.mem = s.mem)) ∧
  (∀ s : State, s.hostReg Reg.HIF_HEARTBEAT = true → s.hif.hbOut = true →
    Runs .heartbeat s fun t =>
      t.hif = { s.hif with hbOut := false, hostLost := false } ∧ (∀ n : Fin 32, (t.ks n.val).ramp = none) ∧
      Keeps [.hif, .kle] s t) ∧
  (∀ s : State, s.hif.hbOut = false → Runs .heartbeat s fun t => t = s) ∧
  (∀ s : State, s.live = true → s.bit Reg.HIF_HBCFG 0 = true →
    Runs (.heartbeatTimeout false) s fun t =>
      t.hif.hbOut = true ∧ t.hif.hostLost = true ∧ t.bit Reg.HIF_STATUS 0 = true ∧ t.asserted 54 = true ∧
      t.raised evHOST_LOSS 0 0 ∧
      (s.hif.hostLost = false → ∀ n : Fin 32, s.slotOn n.val = true → 2 ≤ s.hlPolicy n.val → (t.ks n.val).hl = true)) ∧
  (∀ (s : State) (n : Fin 32), (s.ks n.val).hl = true → (s.ks n.val).ramp = none → s.slotOn n.val = true →
    s.midBlock n.val = false → (s.ks n.val).penReq = none → s.hif.cmd = none →
    Runs (.hostLossPolicyApply n) s fun t =>
      t.sst n.val = stDISABLED ∧ (t.ks n.val).hl = false ∧ (t.ks n.val).run = none ∧ t.raised evSLOT_STOPPED n.val 2) ∧
  (∀ (s : State) (n : Fin 32), (s.ks n.val).hl = true → (s.ks n.val).ramp ≠ none → s.midBlock n.val = false →
    Runs (.hostLossPolicyApply n) s fun t =>
      (t.ks n.val).hl = false ∧ (t.ks n.val).ramp = (s.ks n.val).ramp ∧ t.sst n.val = s.sst n.val ∧ Keeps [.kle] s t)

/-- Chapter 5 (R244, R245, R247, R251, R252, R254, R255, R268, R269, R270, R440): commands about the device. -/
def Obligations.DeviceCommands : Prop :=
  (∀ (s : State) (c : Cmd), s.cmdNew 0x02 = some c → c.arg 0 = 1 → s.pwr = pwrTRIM → s.bit Reg.SYS_PWRSTATE 8 = false →
    Runs .setpower s fun t => t.pwr = pwrRUN ∧ t.clk.gated = 0 ∧ t.fld Reg.SYS_PWRSTATE 16 8 = 0 ∧ t.answered c 0 1 0) ∧
  (∀ (s : State) (c : Cmd), s.cmdNew 0x02 = some c → c.arg 0 &&& 0xFFFFFEF8 ≠ 0 ∨ W.fld (c.arg 0) 0 3 = 0 →
    Runs .setpower s fun t =>
      t.fld Reg.SYS_PWRSTATE 16 8 = 2 ∧ t.pwr = s.pwr ∧
      t.answered c 2 (BitVec.ofNat 32 (s.pwr + 16 * s.fld Reg.SYS_PWRSTATE 4 3)) 0) ∧
  (∀ (s : State) (c : Cmd), s.cmdNew 0x02 = some c → c.arg 0 = 3 → s.bit Reg.SYS_PWRSTATE 8 = false → s.quiet = false →
    Runs .setpower s fun t =>
      t.fld Reg.SYS_PWRSTATE 16 8 = 4 ∧ t.pwr = s.pwr ∧
      t.answered c 4 (BitVec.ofNat 32 (s.pwr + 16 * s.fld Reg.SYS_PWRSTATE 4 3)) 0) ∧
  (∀ (s : State) (c : Cmd), s.cmdNew 0x02 = some c → c.arg 0 = 3 → s.bit Reg.SYS_PWRSTATE 8 = false → s.quiet = true →
    Runs .setpower s fun t =>
      (s.cplReady 0 = true →
        t.pwr = pwrSTANDBY ∧ t.clk.pll = .off ∧ t.fld Reg.SYS_PWRSTATE 16 8 = 0 ∧ t.answered c 0 3 0) ∧
      (s.cplReady 0 = false → t = s)) ∧
  (∀ (s : State) (c : Cmd), s.cmdNew 0x03 = some c → c.arg 0 = 0xA5C3 → s.clk.lg.collapse = false →
    Runs .devreset s fun t =>
      t.hif.cmd = none ∧ t.hif.fetchOff = true ∧ t.clk.resetReq = true ∧ t.bit Reg.SYS_RSTCAUSE 2 = true ∧ t.out = s.out ∧
      t.hif.cplHeld = s.hif.cplHeld ∧ RegsBut [Reg.SYS_RSTCAUSE] s t) ∧
  (∀ (s : State) (c : Cmd), s.cmdNew 0x03 = some c → c.arg 0 ≠ 0xA5C3 →
    Runs .devreset s fun t => t.answered c 2 0 0 ∧ t.clk = s.clk) ∧
  (∀ (s : State) (c : Cmd), s.cmdNew 0x04 = some c → W.fld (c.arg 0) 0 2 = 0 → 64 ≤ (c.arg 2).toNat →
    (c.arg 2).toNat ≤ 0x800000 → c.arg 3 = 0 ∨ c.arg 3 = 0xF0CE → c.mute = false →
    Runs .imgload s fun t =>
      (∃ d, t.hif.cmd = some d ∧ d.words = c.words ∧ d.started = true ∧ d.stage = 1 ∧ d.rdAddr = W.of32 (c.arg 0) (c.arg 1) ∧
        d.rdLen = 16 ∧ d.rdOut = s.canIssue) ∧
      (s.canIssue = true → ∃ k, k ≤ min 64 s.readLimit ∧ 4 ∣ k ∧ 0 < k ∧
        t.out = s.out ++ [Out.read (W.of32 (c.arg 0) (c.arg 1)) k]) ∧ Keeps [.hif, .out] s t) ∧
  (∀ (s : State) (c : Cmd), s.cmdNew 0x04 = some c →
    W.fld (c.arg 0) 0 2 ≠ 0 ∨ (c.arg 2).toNat < 64 ∨ 0x800000 < (c.arg 2).toNat ∨ (c.arg 3 ≠ 0 ∧ c.arg 3 ≠ 0xF0CE) →
    Runs .imgload s fun t => t.answered c 2 0 0 ∧ t.mem = s.mem) ∧
  (∀ (s : State) (c : Cmd), s.cmdNew 0x40 = some c → c.arg 0 &&& 0xFFFFFFF0 = 0 → c.arg 0 ≠ 0 → s.gatedBit gADC = false →
    Runs .adccal s fun t =>
      (∃ d, t.hif.cmd = some d ∧ d.started = true ∧ d.words = c.words) ∧
      (∀ n : Fin 4, W.bit (c.arg 0) n.val = true → (t.ad n.val).cal = some {} ∧ t.bit Reg.ADC_STATUS n.val = true) ∧
      (∀ n : Fin 4, W.bit (c.arg 0) n.val = false → t.ad n.val = s.ad n.val) ∧ RegsBut [Reg.ADC_STATUS] s t ∧
      Keeps [.regs, .hif, .adc] s t) ∧
  (∀ (s : State) (c : Cmd), s.cmdNew 0x41 = some c → c.arg 0 &&& 0xFFFFFFF8 = 0 → c.arg 0 ≠ 0 → s.outcome = boMAINT →
    Runs .memproof s fun t =>
      t.hif.proof = (c.arg 0).toNat ∧ t.bit Reg.POOL_STATUS 4 = W.bit (c.arg 0) 1 ∧ (∃ d, t.hif.cmd = some d ∧
        d.started = true) ∧
      RegsBut [Reg.POOL_STATUS] s t ∧ Keeps [.regs, .hif] s t) ∧
  (∀ (s : State) (c : Cmd), s.cmdNew 0x41 = some c → c.arg 0 &&& 0xFFFFFFF8 = 0 → c.arg 0 ≠ 0 → s.outcome ≠ boMAINT →
    Runs .memproof s fun t => t.answered c 4 0 0 ∧ t.hif.proof = s.hif.proof) ∧
  (∀ (s : State) (c : Cmd) (failed : BitVec 3) (addr : Word), s.live = true → s.hif.cmd = some c → c.op = 0x41 →
    s.hif.proof = 1 →
    Runs (.memproofDone failed addr) s fun t =>
      t.answered c 0 (BitVec.ofNat 32 (failed.toNat % 2)) addr ∧ t.hif.proof = 0 ∧ (∀ a, a < 0x200000 → t.rdByte a = 0) ∧
      (∀ a, 0x200000 ≤ a → t.rdByte a = s.rdByte a)) ∧
  (∀ (s : State) (c : Cmd), s.cmdNew 0x50 = some c → c.arg 0 &&& 0xFFFFFFF0 = 0 → (c.arg 1).toNat ≤ 9000 →
    s.fld (Reg.XLT_DMA_STATUS (c.arg 0).toNat) 0 2 ≠ 1 →
    s.ledger - s.fld (Reg.XLT_DMA_BOOK (c.arg 0).toNat) 0 14 + (c.arg 1).toNat ≤ 9000 →
    Runs .dmareserve s fun t =>
      t.rd (Reg.XLT_DMA_BOOK (c.arg 0).toNat) = c.arg 1 ∧
      t.ledger = s.ledger - s.fld (Reg.XLT_DMA_BOOK (c.arg 0).toNat) 0 14 + (c.arg 1).toNat ∧
      t.answered c 0 (c.arg 1) (BitVec.ofNat 32 t.ledger)) ∧
  (∀ (s : State) (c : Cmd), s.cmdNew 0x50 = some c → c.arg 0 &&& 0xFFFFFFF0 = 0 → (c.arg 1).toNat ≤ 9000 →
    s.fld (Reg.XLT_DMA_STATUS (c.arg 0).toNat) 0 2 ≠ 1 →
    9000 < s.ledger - s.fld (Reg.XLT_DMA_BOOK (c.arg 0).toNat) 0 14 + (c.arg 1).toNat →
    Runs .dmareserve s fun t => t.answered c 5 0 0 ∧ t.ledger = s.ledger)

/-- Chapters 5 and 11 (R110, R244, R247, R260, R261, R262, R267, R273, R277, R285, R673): commands about a slot. -/
def Obligations.SlotCommands : Prop :=
  (∀ (s : State) (c : Cmd), s.cmdNew 0x10 = some c → c.arg 0 &&& 0xFFFFFFE0 = 0 → W.fld (c.arg 1) 0 2 = 0 →
    0 < (c.arg 3).toNat → (c.arg 3).toNat ≤ 1024 → c.mute = false →
    Runs .plateload s fun t =>
      (∃ d, t.hif.cmd = some d ∧ d.words = c.words ∧ d.started = true ∧ d.rdAddr = W.of32 (c.arg 1) (c.arg 2) ∧
        d.rdLen = (c.arg 3).toNat ∧ d.rdOut = s.canIssue) ∧
      (s.canIssue = true → ∃ k, k ≤ min (4 * (c.arg 3).toNat) s.readLimit ∧ 4 ∣ k ∧ 0 < k ∧
        t.out = s.out ++ [Out.read (W.of32 (c.arg 1) (c.arg 2)) k]) ∧
      Keeps [.hif, .out] s t) ∧
  (∀ (s : State) (c : Cmd), s.cmdNew 0x10 = some c →
    c.arg 0 &&& 0xFFFFFFE0 ≠ 0 ∨ W.fld (c.arg 1) 0 2 ≠ 0 ∨ (c.arg 3).toNat = 0 ∨ 1024 < (c.arg 3).toNat →
    Runs .plateload s fun t => t.answered c 2 0 0 ∧ t.mem = s.mem) ∧
  (∀ (s : State) (c : Cmd), s.cmdNew 0x11 = some c → c.arg 0 &&& 0x7F80C0E0 = 0 → W.fld (c.arg 1) 0 2 = 0 →
    0 < W.fld (c.arg 0) 16 7 → W.fld (c.arg 0) 8 6 + W.fld (c.arg 0) 16 7 ≤ 64 → c.mute = false →
    Runs .paramwrite s fun t =>
      (∃ d, t.hif.cmd = some d ∧ d.words = c.words ∧ d.started = true ∧ d.rdAddr = W.of32 (c.arg 1) (c.arg 2) ∧
        d.rdLen = W.fld (c.arg 0) 16 7 ∧ d.rdOut = s.canIssue) ∧ Keeps [.hif, .out] s t) ∧
  (∀ (s : State) (c : Cmd) (w : Word), s.live = true → s.hif.cmd = some c → c.op = 0x11 → c.started = true → c.rdLen = 1 →
    c.rdCh = 1 → c.rdGot = [] → c.rdOut = true → c.mute = false → W.bit (c.arg 0) 31 = false →
    Runs (.commandHostRead (.ok [w])) s fun t =>
      t.rd (ctxAddr (W.fld (c.arg 0) 0 5) 0x200 (W.fld (c.arg 0) 8 6)) = w ∧
      t.bit Reg.KLE_PEND (W.fld (c.arg 0) 0 5) = true ∧ t.answered c 0 0 0 ∧ t.mem = s.mem) ∧
  (∀ (s : State) (c : Cmd), s.cmdRun 0x11 = some c → c.stage = 2 →
    Runs .paramwriteWaitTimeout s fun t => t.answered c 0x0B 0 0) ∧
  (∀ (s : State) (c : Cmd) (n : Fin 32), s.cmdNew 0x12 = some c → c.arg 0 = BitVec.ofNat 32 n.val →
    s.bit Reg.KLE_VALID n.val = true →
    s.bit (Reg.KLE_SINFO n.val) 23 = true →
    Runs .setpoint s fun t =>
      t.rd (ctxAddr n.val 0x200 (s.fld (Reg.KLE_SINFO n.val) 16 6)) = c.arg 1 ∧ t.bit Reg.KLE_PEND n.val = true ∧
      (t.ks n.val).ramp = none ∧ t.answered c 0 (s.rd (ctxAddr n.val 0x200 (s.fld (Reg.KLE_SINFO n.val) 16 6))) 0) ∧
  (∀ (s : State) (c : Cmd) (n : Fin 32), s.cmdNew 0x12 = some c → c.arg 0 = BitVec.ofNat 32 n.val →
    s.bit Reg.KLE_VALID n.val = false ∨ s.bit (Reg.KLE_SINFO n.val) 23 = false →
    Runs .setpoint s fun t => t.answered c 6 0 0 ∧ t.kle = s.kle) ∧
  (∀ (s : State) (c : Cmd) (n : Fin 32), s.cmdNew 0x13 = some c → c.arg 0 = BitVec.ofNat 32 (0x100 + n.val) →
    s.bit Reg.KLE_VALID n.val = true → s.gatedBit gKLE = false → s.sst n.val = stDISABLED →
    Runs .sloten s fun t =>
      t.sst n.val = stARMED ∧ t.bit Reg.KLE_ENABLED n.val = true ∧ t.bit Reg.KLE_PENNED n.val = false ∧
      (t.ks n.val).rd1 = 0 ∧ (t.ks n.val).rd2 = 1 ∧ (t.ks n.val).rd3 = 1 ∧ t.answered c 0 (W.lo32 s.clk.tb) 0 ∧
      (∀ m : Fin 32, m ≠ n → t.sst m.val = s.sst m.val)) ∧
  (∀ (s : State) (c : Cmd) (n : Fin 32), s.cmdNew 0x13 = some c → c.arg 0 = BitVec.ofNat 32 n.val → s.slotOn n.val = true →
    (s.ks n.val).injCmd = false → (∀ r, (s.ks n.val).run = some r → r.injCmd = false) →
    Runs .sloten s fun t =>
      (s.midBlock n.val = false → (s.ks n.val).penReq = none → t.sst n.val = stDISABLED) ∧
      t.bit Reg.KLE_ENABLED n.val = false ∧ (t.ks n.val).run = none ∧ (t.ks n.val).ramp = none ∧
      t.answered c 0 (W.lo32 s.clk.tb) 0 ∧ (∀ m : Fin 32, m ≠ n → t.sst m.val = s.sst m.val)) ∧
  (∀ (s : State) (c : Cmd) (n : Fin 32), s.cmdNew 0x14 = some c → c.arg 0 = BitVec.ofNat 32 n.val → s.sst n.val ≠ stRUNNING →
    s.midBlock n.val = false → s.runs gKLE = true → s.sst n.val ≠ stPENNED → (s.ks n.val).penReq = none →
    (s.ks n.val).injCmd = false → (∀ r, (s.ks n.val).run = some r → r.injCmd = false) →
    Runs .slotreset s fun t =>
      t.sst n.val = stDISABLED ∧ t.bit Reg.KLE_OVRLAST n.val = false ∧ t.fld (Reg.KLE_SSTAT n.val) 24 4 = 0 ∧
      (∀ w : Fin 64, t.rd (ctxAddr n.val 0 w.val) = 0 ∧ t.rd (ctxAddr n.val 0x300 w.val) = 0) ∧ t.hif.cmd = none) ∧
  (∀ (s : State) (c : Cmd) (n : Fin 32), s.cmdNew 0x14 = some c → c.arg 0 = BitVec.ofNat 32 n.val →
    s.sst n.val = stRUNNING ∨ s.midBlock n.val = true ∨ s.runs gKLE = false →
    Runs .slotreset s fun t =>
      (t.ks n.val).rstReq = true ∧ t.hif.cmd = some { c with started := true } ∧ Keeps [.hif, .kle] s t) ∧
  (∀ (s : State) (c : Cmd) (n : Fin 32) (w : Fin 64) (p : Fin 2), s.cmdNew 0x15 = some c →
    c.arg 0 = BitVec.ofNat 32 (n.val + 2 ^ 8 * (2 + p.val) + 2 ^ 16 * w.val) → c.arg 1 ≠ 0 →
      s.bit Reg.KLE_VALID n.val = true →
    1 ≤ s.sst n.val → s.sst n.val ≠ stPENNED → 2 + p.val ≤ s.slotPasses n.val →
    Runs .inject s fun t =>
      t.rd (Reg.KLE_INJCTL n.val) = BitVec.ofNat 32 (2 + p.val + 2 ^ 8 * w.val + 2 ^ 31) ∧
        t.rd (Reg.KLE_INJPAT n.val) = c.arg 1 ∧
      (t.ks n.val).injCmd = true ∧
      t.hif.cmd = some { c with started := true, aux := (s.rd (Reg.KLE_INJCTL n.val)).toNat, aux2 := (s.rd (Reg.KLE_INJPAT n.val)).toNat } ∧
      RegsBut [Reg.KLE_INJCTL n.val, Reg.KLE_INJPAT n.val] s t ∧ Keeps [.regs, .hif, .kle] s t) ∧
  (∀ (s : State) (c : Cmd), s.cmdRun 0x15 = some c → (s.ks (W.fld (c.arg 0) 0 5)).injCmd = true →
    s.bit (Reg.KLE_INJCTL (W.fld (c.arg 0) 0 5)) 31 = true →
    Runs .injectTimeout s fun t =>
      t.bit (Reg.KLE_INJCTL (W.fld (c.arg 0) 0 5)) 31 = false ∧ (t.ks (W.fld (c.arg 0) 0 5)).injCmd = false ∧
      t.answered c 0x0B 0 0)

/-- Chapters 5, 14 and 17 (R244, R247, R248, R263, R264, R266, R271, R273, R276, R280, R282, R744, R746, R751, R763, R944 to R947,
R950): commands about musters, pens and port proofs. -/
def Obligations.ObjectCommands : Prop :=
  (∀ (s : State) (c : Cmd), s.cmdNew 0x20 = some c → c.arg 0 &&& 0xFFFFFFFC = 0 → W.fld (c.arg 1) 0 2 = 0 →
    0 < (c.arg 3).toNat → (c.arg 3).toNat ≤ 256 → c.mute = false →
    s.entsElsewhere (c.arg 0).toNat + (c.arg 3).toNat ≤ 512 →
    Runs .musterload s fun t =>
      (∃ d, t.hif.cmd = some d ∧ d.words = c.words ∧ d.started = true ∧ d.rdAddr = W.of32 (c.arg 1) (c.arg 2) ∧
        d.rdLen = 4 * (c.arg 3).toNat ∧ d.rdOut = s.canIssue) ∧ Keeps [.hif, .out] s t) ∧
  (∀ (s : State) (c : Cmd), s.cmdNew 0x20 = some c → (c.arg 3).toNat = 0 ∨ 256 < (c.arg 3).toNat →
    Runs .musterload s fun t => t.answered c 2 0 0 ∧ t.mbm = s.mbm) ∧
  (∀ (s : State) (c : Cmd) (l : Fin 4) (ws : List Word), s.cmdRun 0x20 = some c → c.mute = false → c.rdOut = true →
    c.arg 0 = BitVec.ofNat 32 l.val → 0 < (c.arg 3).toNat → (c.arg 3).toNat ≤ 256 → c.rdLen = 4 * (c.arg 3).toNat →
      ws.length = c.rdCh →
    c.rdGot.length + ws.length = c.rdLen → s.entFault (c.rdGot ++ ws) 0 = none → s.listActive l.val = false →
    Runs (.commandHostRead (.ok ws)) s fun t =>
      t.listLoaded l.val = true ∧ t.listActive l.val = false ∧ t.nent l.val = (c.arg 3).toNat ∧ t.ml l.val = {} ∧
      (∀ k : Fin 1024, k.val < c.rdLen → t.rd (Reg.MBM_ENTDESC l.val 0 0 + 4 * k.val) = (c.rdGot ++ ws).getD k.val 0) ∧
      (∀ e : Fin 256, t.rd (Reg.MBM_ENTSTAT l.val e.val) = 0 ∧ t.rd (Reg.MBM_ENTTALLY l.val e.val) = 0) ∧
      t.answered c 0 (c.arg 3) (BitVec.ofNat 32 (t.bodyLen l.val))) ∧
  (∀ (s : State) (c : Cmd) (l : Fin 4) (k : Fin 8) (none' : Bool) (period : Fin 10000001), s.cmdNew 0x21 = some c →
    c.arg 0 = BitVec.ofNat 32 (l.val + 2 ^ 8 * k.val + if none' then 2 ^ 15 else 0) → c.arg 1 = BitVec.ofNat 32 period.val →
    period.val = 0 ∨ 100 ≤ period.val → none' = true ∨ s.ringServes k.val l.val = true →
    s.foldOk l.val = true → s.listTarget l.val = false → s.listLoaded l.val = true → s.listActive l.val = false →
    s.gatedBit gMBM = false → s.ledger + s.listBooking l.val period.val ≤ 9000 →
    Runs .musterstart s fun t =>
      t.listActive l.val = true ∧ t.bit Reg.MBM_STATUS l.val = true ∧ t.rd (Reg.MBM_LIST_PERIOD l.val) = c.arg 1 ∧
      (t.ml l.val).ring = (if none' then none else some k.val) ∧ (t.ml l.val).stopping = false ∧
      t.fld (Reg.MBM_LIST_BOOK l.val) 0 16 = s.listBooking l.val period.val ∧
      t.ledger = s.ledger + s.listBooking l.val period.val ∧
      t.answered c 0 (BitVec.ofNat 32 (s.listBooking l.val period.val)) (BitVec.ofNat 32 t.ledger)) ∧
  (∀ (s : State) (c : Cmd) (l : Fin 4), s.cmdNew 0x22 = some c → c.arg 0 = BitVec.ofNat 32 (l.val + 2 ^ 8) →
    s.listLoaded l.val = true → s.listActive l.val = true →
    Runs .musterstop s fun t =>
      t.listActive l.val = false ∧ t.listRunning l.val = false ∧ t.bit Reg.MBM_STATUS l.val = false ∧
      t.rd (Reg.MBM_LIST_BOOK l.val) = 0 ∧ t.ledger = s.ledger - s.fld (Reg.MBM_LIST_BOOK l.val) 0 16 ∧
      t.fld (Reg.MBM_LIST_CANCTALLY l.val) 0 16 =
        (if s.listRunning l.val then min 0xFFFF (s.fld (Reg.MBM_LIST_CANCTALLY l.val) 0 16 + 1)
         else s.fld (Reg.MBM_LIST_CANCTALLY l.val) 0 16) ∧
      t.answered c 0 (s.rd (Reg.MBM_LIST_NUM l.val)) 0) ∧
  (∀ (s : State) (c : Cmd) (l : Fin 4), s.cmdNew 0x22 = some c → c.arg 0 = BitVec.ofNat 32 l.val →
    s.listLoaded l.val = true → s.listActive l.val = true → s.listRunning l.val = false →
    s.mbm.copies.any (fun x => x.list == l.val) = false →
    Runs .musterstop s fun t =>
      t.listActive l.val = false ∧ t.bit Reg.MBM_STATUS l.val = false ∧ t.rd (Reg.MBM_LIST_BOOK l.val) = 0 ∧
      t.ledger = s.ledger - s.fld (Reg.MBM_LIST_BOOK l.val) 0 16 ∧ t.answered c 0 (s.rd (Reg.MBM_LIST_NUM l.val)) 0) ∧
  (∀ (s : State) (c : Cmd) (l : Fin 4), s.cmdNew 0x22 = some c → c.arg 0 = BitVec.ofNat 32 l.val →
    s.listLoaded l.val = true → s.listActive l.val = true →
    s.listRunning l.val = true ∨ s.mbm.copies.any (fun x => x.list == l.val) = true →
    Runs .musterstop s fun t =>
      (t.ml l.val).stopping = true ∧ t.listActive l.val = true ∧ t.hif.cmd = some { c with started := true } ∧
      (s.listRunning l.val = true → Keeps [.hif, .mbm] s t)) ∧
  (∀ (s : State) (c : Cmd) (l : Fin 4), s.cmdNew 0x22 = some c ∨ s.cmdNew 0x23 = some c → c.arg 0 = BitVec.ofNat 32 l.val →
    s.listLoaded l.val = false →
    (s.cmdNew 0x22 = some c → Runs .musterstop s fun t => t.answered c 6 0 0 ∧ t.mbm = s.mbm) ∧
    (s.cmdNew 0x23 = some c → Runs .musternow s fun t => t.answered c 6 0 0 ∧ t.mbm = s.mbm)) ∧
  (∀ (s : State) (c : Cmd) (l : Fin 4), s.cmdRun 0x22 = some c → W.fld (c.arg 0) 0 5 = l.val →
    Runs .musterstopTimeout s fun t =>
      t.listActive l.val = false ∧ t.listRunning l.val = false ∧ t.bit Reg.MBM_STATUS l.val = false ∧
      t.rd (Reg.MBM_LIST_BOOK l.val) = 0 ∧ t.ledger = s.ledger - s.fld (Reg.MBM_LIST_BOOK l.val) 0 16 ∧
      t.answered c 0x0B (s.rd (Reg.MBM_LIST_NUM l.val)) 0) ∧
  (∀ (s : State) (c : Cmd) (l : Fin 4), s.cmdNew 0x23 = some c → c.arg 0 = BitVec.ofNat 32 l.val →
    s.listLoaded l.val = true → s.listActive l.val = true → s.listRunning l.val = false →
    Runs .musternow s fun t =>
      t.listRunning l.val = true ∧ t.bit Reg.MBM_STATUS (4 + l.val) = true ∧
      t.listPhase l.val = (if portIds.any (fun p => s.takesPart l.val p &&
        !(s.portPenned p || s.portQuar p || (s.port p).cycling)) then 1 else 2) ∧
      (t.ml l.val).num = (if (s.ml l.val).num = 0xFFFFFFFF then 1 else (s.ml l.val).num + 1) ∧ (t.ml l.val).t0 = s.periEdge ∧
      t.answered c 0 (BitVec.ofNat 32 (t.ml l.val).num) 0) ∧
  (∀ (s : State) (c : Cmd) (l : Fin 4), s.cmdNew 0x23 = some c → c.arg 0 = BitVec.ofNat 32 l.val →
    s.listLoaded l.val = true → s.listActive l.val = true → s.listRunning l.val = true →
    ((s.ml l.val).by_ ≠ .tick ∨ (s.ml l.val).t0 ≠ s.clk.tb.toNat → Runs .musternow s fun t => t.answered c 3 0 0 ∧
      t.mbm = s.mbm) ∧
    ((s.ml l.val).by_ = .tick → (s.ml l.val).t0 = s.clk.tb.toNat →
      Runs .musternow s fun t => t.answered c 0 (BitVec.ofNat 32 (s.ml l.val).num) 0 ∧ t.mbm = s.mbm)) ∧
  (∀ (s : State) (c : Cmd), s.cmdNew 0x30 = some c ∨ s.cmdNew 0x31 = some c →
    (s.cmdNew 0x30 = some c →
      (c.obj = none → Runs .admitObject s fun t => t.answered c 2 0 0 ∧ Keeps [.regs, .hif, .out] s t) ∧
      (∀ o, c.obj = some o → s.objFound o = false →
        Runs .admitObject s fun t => t.answered c 6 0 0 ∧ Keeps [.regs, .hif, .out] s t) ∧
      (∀ o, c.obj = some o → s.objFound o = true → s.objPenned o = false →
        Runs .admitObject s fun t => t.answered c 3 0 0 ∧ Keeps [.regs, .hif, .out] s t)) ∧
    (s.cmdNew 0x31 = some c →
      (c.obj = none → Runs .pen s fun t => t.answered c 2 0 0 ∧ Keeps [.regs, .hif, .out] s t) ∧
      (∀ o, c.obj = some o → s.objFound o = false →
        Runs .pen s fun t => t.answered c 6 0 0 ∧ Keeps [.regs, .hif, .out] s t) ∧
      (∀ o, c.obj = some o → s.objFound o = true → s.objPenned o = true →
        Runs .pen s fun t => t.answered c 0 0 0 ∧ Keeps [.regs, .hif, .out] s t))) ∧
  (∀ (s : State) (c : Cmd) (n : Fin 32), s.cmdNew 0x30 = some c → c.arg 0 = BitVec.ofNat 32 (2 ^ 8 * n.val) →
    s.sst n.val = stPENNED →
    Runs .admitObject s fun t =>
      t.sst n.val = stDISABLED ∧ t.bit Reg.KLE_PENNED n.val = false ∧ t.fld (Reg.KLE_SSTAT n.val) 16 8 = 0 ∧
      t.fld (Reg.KLE_SSTAT n.val) 24 4 = 0 ∧ t.answered c 0 0 0) ∧
  (∀ (s : State) (c : Cmd) (n : Fin 32), s.cmdNew 0x31 = some c → c.arg 0 = BitVec.ofNat 32 (2 ^ 8 * n.val) →
    s.sst n.val ≠ stPENNED → (s.ks n.val).injCmd = false → (∀ r, (s.ks n.val).run = some r → r.injCmd = false) →
    Runs .pen s fun t =>
      t.sst n.val = stPENNED ∧ t.bit Reg.KLE_PENNED n.val = true ∧ t.bit Reg.KLE_ENABLED n.val = false ∧
      t.fld (Reg.KLE_SSTAT n.val) 16 8 = 1 ∧ (t.ks n.val).run = none ∧ t.bit (Reg.KLE_EVT n.val) 2 = true ∧
        t.answered c 0 0 0) ∧
  (∀ (s : State) (c : Cmd) (p : Fin 0x28), s.cmdNew 0x30 = some c ∨ s.cmdNew 0x31 = some c → isPort p.val = true →
    c.arg 0 = BitVec.ofNat 32 (1 + 2 ^ 8 * p.val) →
    (s.cmdNew 0x30 = some c → s.portPenned p.val = true →
      Runs .admitObject s fun t => t.portPenned p.val = false ∧ t.answered c 0 0 0) ∧
    (s.cmdNew 0x31 = some c → s.portPenned p.val = false →
      Runs .pen s fun t =>
        t.portReason p.val = 0x10 ∧ t.raised evPORT_PENNED p.val 0x10 ∧ t.answered c 0 0 0)) ∧
  (∀ (s : State) (c : Cmd) (l : Fin 4) (e : Fin 256), s.cmdNew 0x30 = some c ∨ s.cmdNew 0x31 = some c →
    c.arg 0 = BitVec.ofNat 32 (2 + 2 ^ 8 * l.val) → c.arg 1 = BitVec.ofNat 32 e.val → s.listLoaded l.val = true →
    e.val < s.nent l.val →
    (s.cmdNew 0x30 = some c → s.entPenned l.val e.val = true →
      Runs .admitObject s fun t => t.entPenned l.val e.val = false ∧ t.fld (Reg.MBM_ENTSTAT l.val e.val) 16 8 = 0 ∧
        t.answered c 0 0 0) ∧
    (s.cmdNew 0x31 = some c → s.entPenned l.val e.val = false →
      Runs .pen s fun t => t.entPenned l.val e.val = true ∧ t.fld (Reg.MBM_ENTSTAT l.val e.val) 16 8 = 0x10 ∧
        t.answered c 0 0 0)) ∧
  (∀ (s : State) (c : Cmd) (n : Fin 8), s.cmdNew 0x30 = some c ∨ s.cmdNew 0x31 = some c →
    c.arg 0 = BitVec.ofNat 32 (3 + 2 ^ 8 * n.val) →
    (s.cmdNew 0x30 = some c → s.pst n.val = ppPENNED →
      Runs .admitObject s fun t =>
        t.pst n.val ≠ ppPENNED ∧ t.bit Reg.PPW_PENMAP n.val = false ∧ t.fld (Reg.PPW_STAT n.val) 8 8 = 0 ∧
          t.answered c 0 0 0) ∧
    (s.cmdNew 0x31 = some c → s.pst n.val ≠ ppPENNED →
      Runs .pen s fun t =>
        t.pst n.val = ppPENNED ∧ t.bit Reg.PPW_PENMAP n.val = true ∧ t.fld (Reg.PPW_STAT n.val) 8 8 = 0x10 ∧
          t.answered c 0 0 0)) ∧
  (∀ (s : State) (c : Cmd) (p : Fin 0x28), s.cmdNew 0x32 = some c → c.arg 0 = BitVec.ofNat 32 (2 ^ 8 * p.val) →
    isPort p.val = true →
    (s.portPenned p.val = true ∨ s.portIdle p.val = true → (∀ n : Fin 8, s.use p.val ≠ .ident n.val) →
      Runs .portproof s fun t => t.use p.val = .proof ∧ t.hif.cmd = some { c with started := true, stage := 2 }) ∧
    (∀ n : Fin 8, s.portPenned p.val = true ∨ s.portIdle p.val = true → s.use p.val = .ident n.val →
      Runs .portproof s fun t => t.hif.cmd = some { c with started := true, stage := 1 } ∧ Keeps [.hif] s t) ∧
    (s.portPenned p.val = false → s.portIdle p.val = false →
      Runs .portproof s fun t => t.answered c 4 0 0 ∧ Keeps [.regs, .hif, .out] s t)) ∧
  (∀ (s : State) (c : Cmd), s.cmdNew 0x32 = some c → isPort (W.fld (c.arg 0) 8 8) = false ∨ c.arg 0 &&& 0xFFFF00FF ≠ 0 →
    Runs .portproof s fun t => t.answered c 2 0 0 ∧ Keeps [.regs, .hif, .out] s t) ∧
  (∀ (s : State) (c : Cmd) (p : Fin 0x28) (failed : Word), s.cmdRun 0x32 = some c → isPort p.val = true →
    W.fld (c.arg 0) 8 8 = p.val → s.use p.val = .proof → s.runs (portGate p.val) = true →
    Runs (.portProofDone failed) s fun t =>
      (let f : Nat := failed.toNat % 2 ^ s.proofSteps p.val
       t.answered c 0 (if f = 0 then 1 else 0) (BitVec.ofNat 32 f)) ∧
      ((∀ n : Fin 8, s.pst n.val ≠ ppIDCHECK) → t.use p.val = .none)) ∧
  (∀ (s : State) (c : Cmd) (p : Fin 0x28), s.cmdRun 0x32 = some c → isPort p.val = true → W.fld (c.arg 0) 8 8 = p.val →
    s.use p.val = .proof →
    Runs .portproofTimeout s fun t =>
      t.answered c 0x0B 0 0 ∧ ((∀ n : Fin 8, s.pst n.val ≠ ppIDCHECK) → t.use p.val = .none))

/-- Chapter 6 (R292, R294, R295, R297, R305, R306, R310): the stack operations. -/
def Obligations.TsuvoStack : Prop :=
  (∀ (s : State) (n : Fin 4), s.issues n.val false = true →
    Runs (.nopOperation n) s fun t => t = s.opEnd n.val (s.opCore n.val) 1) ∧
  (∀ (s : State) (n : Fin 4) (v : BitVec 14), s.issues n.val true = true → (s.core n.val).dstk.length < 8 →
    Runs (.literal n v) s fun t =>
      t = s.opEnd n.val { s.opCore n.val with dstk := v.signExtend 16 :: (s.core n.val).dstk } 1 true) ∧
  (∀ (s : State) (n : Fin 4) (a : Half) (r : List Half), s.issues n.val false = true → (s.core n.val).dstk = a :: r →
    r.length ≤ 6 →
    Runs (.dup n) s (fun t => t = s.opEnd n.val { s.opCore n.val with dstk := [a, a] ++ r } 1) ∧
    Runs (.drop n) s (fun t => t = s.opEnd n.val { s.opCore n.val with dstk := [] ++ r } 1)) ∧
  (∀ (s : State) (n : Fin 4) (a b : Half) (r : List Half), s.issues n.val false = true → (s.core n.val).dstk = b :: a :: r →
    r.length ≤ 4 →
    Runs (.swap n) s (fun t => t = s.opEnd n.val { s.opCore n.val with dstk := [a, b] ++ r } 1) ∧
    Runs (.overWord n) s (fun t => t = s.opEnd n.val { s.opCore n.val with dstk := [a, b, a] ++ r } 1) ∧
    Runs (.nip n) s (fun t => t = s.opEnd n.val { s.opCore n.val with dstk := [b] ++ r } 1) ∧
    Runs (.tuck n) s (fun t => t = s.opEnd n.val { s.opCore n.val with dstk := [b, a, b] ++ r } 1) ∧
    Runs (.twoDup n) s (fun t => t = s.opEnd n.val { s.opCore n.val with dstk := [b, a, b, a] ++ r } 1) ∧
    Runs (.twoDrop n) s (fun t => t = s.opEnd n.val { s.opCore n.val with dstk := [] ++ r } 1)) ∧
  (∀ (s : State) (n : Fin 4) (a b c : Half) (r : List Half), s.issues n.val false = true →
    (s.core n.val).dstk = c :: b :: a :: r → r.length ≤ 5 →
    Runs (.rot n) s (fun t => t = s.opEnd n.val { s.opCore n.val with dstk := [a, c, b] ++ r } 1) ∧
    Runs (.minusRot n) s (fun t => t = s.opEnd n.val { s.opCore n.val with dstk := [b, a, c] ++ r } 1)) ∧
  (∀ (s : State) (n : Fin 4) (i : Fin 7) (r : List Half), s.issues n.val false = true →
    (s.core n.val).dstk = BitVec.ofNat 16 i.val :: r → i.val < r.length →
    Runs (.pick n) s fun t => t = s.opEnd n.val { s.opCore n.val with dstk := r.getD i.val 0 :: r } 1) ∧
  (∀ (s : State) (n : Fin 4) (a : Half) (r : List Half), s.issues n.val false = true → (s.core n.val).dstk = a :: r →
    r.length < 8 → (s.core n.val).rstk.length < 16 →
    Runs (.toR n) s fun t =>
      t = s.opEnd n.val { s.opCore n.val with dstk := r, rstk := a.setWidth 24 :: (s.core n.val).rstk } 1) ∧
  (∀ (s : State) (n : Fin 4) (e : BitVec 24) (q : List (BitVec 24)), s.issues n.val false = true →
    (s.core n.val).rstk = e :: q → (s.core n.val).dstk.length < 8 →
    Runs (.rFrom n) s (fun t =>
      t = s.opEnd n.val { s.opCore n.val with dstk := e.setWidth 16 :: (s.core n.val).dstk, rstk := q } 1) ∧
    Runs (.rFetch n) s (fun t =>
      t = s.opEnd n.val { s.opCore n.val with dstk := e.setWidth 16 :: (s.core n.val).dstk } 1) ∧
    Runs (.rdrop n) s (fun t => t = s.opEnd n.val { s.opCore n.val with rstk := q } 1)) ∧
  (∀ (s : State) (n : Fin 4) (a : Half) (r : List Half), s.issues n.val false = true → (s.core n.val).dstk = a :: r →
    r.length = 7 → (s.core n.val).wbuf = [] → 8 + (s.core n.val).dslim.toNat ≤ (s.core n.val).dsp.toNat →
    (s.core n.val).ten = false → (s.core n.val).sbr = BitVec.ofNat 8 (0x40 + n.val) → (s.core n.val).dsp.toNat ≤ 0x4000 →
    (s.core n.val).dsp.toNat % 2 = 0 →
    Runs (.dup n) s fun t =>
      (t.core n.val).dstk = a :: a :: r.take 3 ∧ (t.core n.val).dsp = (s.core n.val).dsp - 8 ∧
      (∀ i : Fin 4, t.rdHalf (scratchBase n.val + (s.core n.val).dsp.toNat - 8 + 2 * i.val) = r.getD (3 + i.val) 0) ∧
        t.regs = s.regs) ∧
  (∀ (s : State) (n : Fin 4), s.issues n.val false = true → (s.core n.val).dstk = [] → (s.core n.val).wbuf = [] →
    (s.core n.val).dsp.toNat + 8 ≤ (s.core n.val).dstop.toNat → (s.core n.val).ten = false →
    (s.core n.val).sbr = BitVec.ofNat 8 (0x40 + n.val) → (s.core n.val).dstop.toNat ≤ 0x4000 →
      (s.core n.val).dsp.toNat % 2 = 0 →
    Runs (.drop n) s fun t =>
      (t.core n.val).dstk.length = 3 ∧ (t.core n.val).dsp = (s.core n.val).dsp + 8 ∧
      (∀ i : Fin 3, (t.core n.val).dstk.getD i.val 0 = s.rdHalf (scratchBase n.val + (s.core n.val).dsp.toNat + 2 * (i.val + 1))) ∧
      t.regs = s.regs ∧ t.mem = s.mem)

/-- Chapter 6 (R310, Tables 6-5 and 6-8): additive and unary operations, with the flags. -/
def Obligations.TsuvoArithmetic : Prop :=
  (∀ (s : State) (n : Fin 4) (a b : Half) (r : List Half), s.issues n.val false = true → (s.core n.val).dstk = b :: a :: r →
    r.length ≤ 6 →
    Runs (.add n) s (fun t => t = s.opEnd n.val { s.opCore n.val with
      dstk := (a + b) :: r
      status := stCV (s.core n.val).status (decide (65536 ≤ a.toNat + b.toNat)) (decide ((a + b).toInt ≠ a.toInt + b.toInt)) } 1) ∧
    Runs (.sub n) s (fun t => t = s.opEnd n.val { s.opCore n.val with
      dstk := (a - b) :: r
      status := stCV (s.core n.val).status (decide (b.toNat ≤ a.toNat)) (decide ((a - b).toInt ≠ a.toInt - b.toInt)) } 1) ∧
    Runs (.adc n) s (fun t => t = s.opEnd n.val { s.opCore n.val with
      dstk := (a + b + (if (s.core n.val).status.getLsbD 0 then 1 else 0)) :: r
      status := stCV (s.core n.val).status (decide (65536 ≤ a.toNat + b.toNat + (if (s.core n.val).status.getLsbD 0 then 1 else 0))) (decide ((a + b + (if (s.core n.val).status.getLsbD 0 then 1 else 0)).toInt ≠ a.toInt + b.toInt + (if (s.core n.val).status.getLsbD 0 then 1 else 0))) } 1) ∧
    Runs (.sbc n) s (fun t => t = s.opEnd n.val { s.opCore n.val with
      dstk := (a - b - (if (s.core n.val).status.getLsbD 0 then 0 else 1)) :: r
      status := stCV (s.core n.val).status (decide (b.toNat + (if (s.core n.val).status.getLsbD 0 then 0 else 1) ≤ a.toNat)) (decide ((a - b - (if (s.core n.val).status.getLsbD 0 then 0 else 1)).toInt ≠ a.toInt - b.toInt - (if (s.core n.val).status.getLsbD 0 then 0 else 1))) } 1) ∧
    Runs (.adds n) s (fun t => t = s.opEnd n.val { s.opCore n.val with
      dstk := BitVec.ofInt 16 (max (-32768) (min 32767 (a.toInt + b.toInt))) :: r
      status := stSat (s.core n.val).status (decide (a.toInt + b.toInt < -32768) || decide (32767 < a.toInt + b.toInt)) } 1) ∧
    Runs (.subs n) s (fun t => t = s.opEnd n.val { s.opCore n.val with
      dstk := BitVec.ofInt 16 (max (-32768) (min 32767 (a.toInt - b.toInt))) :: r
      status := stSat (s.core n.val).status (decide (a.toInt - b.toInt < -32768) || decide (32767 < a.toInt - b.toInt)) } 1)) ∧
  (∀ (s : State) (n : Fin 4) (a : Half) (r : List Half), s.issues n.val false = true → (s.core n.val).dstk = a :: r →
    r.length ≤ 7 →
    Runs (.neg n) s (fun t => t = s.opEnd n.val { s.opCore n.val with dstk := (-a) :: r } 1) ∧
    Runs (.abs n) s (fun t => t = s.opEnd n.val { s.opCore n.val with
      dstk := (if a = 0x8000 then 0x7FFF else if a.toInt < 0 then -a else a) :: r
      status := stSat (s.core n.val).status (a == 0x8000) } 1) ∧
    Runs (.inv n) s (fun t => t = s.opEnd n.val { s.opCore n.val with dstk := (~~~a) :: r } 1) ∧
    Runs (.onePlus n) s (fun t => t = s.opEnd n.val { s.opCore n.val with dstk := (a + 1) :: r } 1) ∧
    Runs (.oneMinus n) s (fun t => t = s.opEnd n.val { s.opCore n.val with dstk := (a - 1) :: r } 1) ∧
    Runs (.twoStar n) s (fun t => t = s.opEnd n.val { s.opCore n.val with dstk := (a + a) :: r } 1) ∧
    Runs (.twoSlash n) s (fun t => t = s.opEnd n.val { s.opCore n.val with dstk := BitVec.ofInt 16 (a.toInt / 2) :: r } 1) ∧
    Runs (.zeroEqual n) s (fun t => t = s.opEnd n.val { s.opCore n.val with dstk := (if a = 0 then 0xFFFF else 0) :: r } 1) ∧
    Runs (.zeroLess n) s (fun t => t = s.opEnd n.val { s.opCore n.val with dstk := (if a.toInt < 0 then 0xFFFF else 0) :: r } 1))

/-- Chapter 6 (R310, Table 6-5): logic, shifts, comparisons, MIN, MAX, CLIP and EXT. -/
def Obligations.TsuvoLogic : Prop :=
  (∀ (s : State) (n : Fin 4) (a b : Half) (r : List Half), s.issues n.val false = true → (s.core n.val).dstk = b :: a :: r →
    r.length ≤ 6 →
    Runs (.and n) s (fun t => t = s.opEnd n.val { s.opCore n.val with dstk := (a &&& b) :: r } 1) ∧
    Runs (.or n) s (fun t => t = s.opEnd n.val { s.opCore n.val with dstk := (a ||| b) :: r } 1) ∧
    Runs (.xor n) s (fun t => t = s.opEnd n.val { s.opCore n.val with dstk := (a ^^^ b) :: r } 1) ∧
    Runs (.shl n) s (fun t => t = s.opEnd n.val { s.opCore n.val with dstk := (if 16 ≤ b.toNat then 0 else a <<< b.toNat) :: r } 1) ∧
    Runs (.shr n) s (fun t => t = s.opEnd n.val { s.opCore n.val with dstk := (if 16 ≤ b.toNat then 0 else a >>> b.toNat) :: r } 1) ∧
    Runs (.asr n) s (fun t => t = s.opEnd n.val { s.opCore n.val with dstk := (if 16 ≤ b.toNat then (if a.toInt < 0 then 0xFFFF else 0) else BitVec.ofInt 16 (a.toInt / 2 ^ b.toNat)) :: r } 1) ∧
    Runs (.rol n) s (fun t => t = s.opEnd n.val { s.opCore n.val with dstk := ((a <<< (b.toNat % 16)) ||| (a >>> (16 - b.toNat % 16))) :: r } 1) ∧
    Runs (.min n) s (fun t => t = s.opEnd n.val { s.opCore n.val with dstk := BitVec.ofInt 16 (min a.toInt b.toInt) :: r } 1) ∧
    Runs (.max n) s (fun t => t = s.opEnd n.val { s.opCore n.val with dstk := BitVec.ofInt 16 (max a.toInt b.toInt) :: r } 1) ∧
    Runs (.ext n) s (fun t => t = s.opEnd n.val { s.opCore n.val with dstk := ((a <<< 14) ||| (b &&& 0x3FFF)) :: r } 1) ∧
    Runs (.equal n) s (fun t => t = s.opEnd n.val { s.opCore n.val with dstk := (if a = b then 0xFFFF else 0) :: r } 1) ∧
    Runs (.notEqual n) s (fun t => t = s.opEnd n.val { s.opCore n.val with dstk := (if a = b then 0 else 0xFFFF) :: r } 1) ∧
    Runs (.less n) s (fun t => t = s.opEnd n.val { s.opCore n.val with dstk := (if a.toInt < b.toInt then 0xFFFF else 0) :: r } 1) ∧
    Runs (.greater n) s (fun t => t = s.opEnd n.val { s.opCore n.val with dstk := (if b.toInt < a.toInt then 0xFFFF else 0) :: r } 1) ∧
    Runs (.uLess n) s (fun t => t = s.opEnd n.val { s.opCore n.val with dstk := (if a.toNat < b.toNat then 0xFFFF else 0) :: r } 1) ∧
    Runs (.uGreater n) s (fun t => t = s.opEnd n.val { s.opCore n.val with dstk := (if b.toNat < a.toNat then 0xFFFF else 0) :: r } 1)) ∧
  (∀ (s : State) (n : Fin 4) (a b c : Half) (r : List Half), s.issues n.val false = true →
    (s.core n.val).dstk = c :: b :: a :: r → r.length ≤ 5 →
    Runs (.clip n) s (fun t => t = s.opEnd n.val { s.opCore n.val with dstk := BitVec.ofInt 16 (min (max a.toInt b.toInt) c.toInt) :: r } 1))

/-- Chapter 6 (R310, R314, R316, R317, R319, R320, R321, R322, Table 6-6): the multiplier, the accumulator and the divider. -/
def Obligations.TsuvoUnits : Prop :=
  (∀ (s : State) (n : Fin 4) (a b : Half) (r : List Half), s.issues n.val false = true → (s.core n.val).dstk = b :: a :: r →
    r.length ≤ 6 →
    Runs (.mul n) s (fun t => t = s.opEnd n.val { s.opCore n.val with dstk := r, mulq := (s.core n.val).mulq ++ [(3, .product (BitVec.ofInt 32 (a.toInt * b.toInt)))] } 1) ∧
    Runs (.umul n) s (fun t => t = s.opEnd n.val { s.opCore n.val with dstk := r, mulq := (s.core n.val).mulq ++ [(3, .product (BitVec.ofNat 32 (a.toNat * b.toNat)))] } 1) ∧
    Runs (.macz n) s (fun t => t = s.opEnd n.val { s.opCore n.val with dstk := r, mulq := (s.core n.val).mulq ++ [(3, .ma (BitVec.ofInt 40 (a.toInt * b.toInt)) false)] } 1)) ∧
  (∀ (s : State) (n : Fin 4) (a b : Half) (r : List Half), s.issues n.val false = true → (s.core n.val).dstk = b :: a :: r →
    r.length ≤ 6 →
    Runs (.mac n) s (fun t => t = s.opEnd n.val { s.opCore n.val with dstk := r, mulq := (s.core n.val).mulq ++ [(3, .ma (BitVec.ofInt 40 ((s.core n.val).maBefore.toInt + a.toInt * b.toInt)) (decide ((s.core n.val).maBefore.toInt + a.toInt * b.toInt < -(2 ^ 39)) || decide (2 ^ 39 ≤ (s.core n.val).maBefore.toInt + a.toInt * b.toInt)))] } 1) ∧
    Runs (.msc n) s (fun t => t = s.opEnd n.val { s.opCore n.val with dstk := r, mulq := (s.core n.val).mulq ++ [(3, .ma (BitVec.ofInt 40 ((s.core n.val).maBefore.toInt - a.toInt * b.toInt)) (decide ((s.core n.val).maBefore.toInt - a.toInt * b.toInt < -(2 ^ 39)) || decide (2 ^ 39 ≤ (s.core n.val).maBefore.toInt - a.toInt * b.toInt)))] } 1)) ∧
  (∀ (s : State) (n : Fin 4) (a b : Half) (r : List Half), s.issues n.val false = true → (s.core n.val).dstk = b :: a :: r →
    r.length ≤ 6 →
    b ≠ 0 → ¬(a = 0x8000 ∧ b = 0xFFFF) →
    Runs (.div n) s (fun t => t = s.opEnd n.val { s.opCore n.val with dstk := r, div := some (18, BitVec.ofInt 16 (a.toInt.tdiv b.toInt), BitVec.ofInt 16 (a.toInt.tmod b.toInt)) } 1) ∧
    Runs (.udiv n) s (fun t => t = s.opEnd n.val { s.opCore n.val with dstk := r, div := some (18, BitVec.ofNat 16 (a.toNat / b.toNat), BitVec.ofNat 16 (a.toNat % b.toNat)) } 1)) ∧
  (∀ (s : State) (n : Fin 4) (a b : Half) (r : List Half), s.issues n.val false = true → (s.core n.val).dstk = b :: a :: r →
    r.length ≤ 6 →
    b = 0 →
    Runs (.div n) s (fun t => t = s.opEnd n.val { s.opCore n.val with dstk := r, div := some (18, if a.toInt < 0 then 0x8000 else 0x7FFF, a), status := (s.core n.val).status ||| 0x0010 } 1) ∧
    Runs (.udiv n) s (fun t => t = s.opEnd n.val { s.opCore n.val with dstk := r, div := some (18, 0xFFFF, a), status := (s.core n.val).status ||| 0x0010 } 1)) ∧
  (∀ (s : State) (n : Fin 4) (r : List Half), s.issues n.val false = true → (s.core n.val).dstk = 0xFFFF :: 0x8000 :: r →
    r.length ≤ 6 →
    Runs (.div n) s (fun t => t = s.opEnd n.val { s.opCore n.val with dstk := r, div := some (18, 0x7FFF, 0), status := (s.core n.val).status ||| 0x0020 } 1)) ∧
  (∀ (s : State) (n : Fin 4) (lo hi d : Half) (r : List Half), s.issues n.val false = true →
    (s.core n.val).dstk = d :: hi :: lo :: r →
    r.length ≤ 5 → d ≠ 0 → -32768 ≤ (hi ++ lo).toInt.tdiv d.toInt → (hi ++ lo).toInt.tdiv d.toInt ≤ 32767 →
    Runs (.ldiv n) s (fun t => t = s.opEnd n.val { s.opCore n.val with dstk := r, div := some (18, BitVec.ofInt 16 ((hi ++ lo).toInt.tdiv d.toInt), BitVec.ofInt 16 ((hi ++ lo).toInt.tmod d.toInt)) } 1)) ∧
  (∀ (s : State) (n : Fin 4) (lo hi d : Half) (r : List Half), s.issues n.val false = true →
    (s.core n.val).dstk = d :: hi :: lo :: r →
    r.length ≤ 5 → d ≠ 0 → (hi ++ lo).toInt.tdiv d.toInt < -32768 ∨ 32767 < (hi ++ lo).toInt.tdiv d.toInt →
    Runs (.ldiv n) s (fun t => t = s.opEnd n.val { s.opCore n.val with dstk := r, div := some (18, if (hi ++ lo).toInt.tdiv d.toInt < 0 then 0x8000 else 0x7FFF, BitVec.ofInt 16 ((hi ++ lo).toInt.tmod d.toInt)), status := (s.core n.val).status ||| 0x0020 } 1)) ∧
  (∀ (s : State) (n : Fin 4) (lo hi d : Half) (r : List Half), s.issues n.val false = true →
    (s.core n.val).dstk = d :: hi :: lo :: r →
    r.length ≤ 5 → d = 0 →
    Runs (.ldiv n) s (fun t => t = s.opEnd n.val { s.opCore n.val with dstk := r, div := some (18, if (hi ++ lo).toInt < 0 then 0x8000 else 0x7FFF, lo), status := (s.core n.val).status ||| 0x0010 } 1)) ∧
  (∀ (s : State) (n : Fin 4), s.issues n.val false = true → (s.core n.val).dstk.length < 8 →
    Runs (.mlFetch n) s (fun t => t = s.opEnd n.val { s.opCore n.val with dstk := (s.core n.val).ml :: (s.core n.val).dstk } 1) ∧
    Runs (.mhFetch n) s (fun t => t = s.opEnd n.val { s.opCore n.val with dstk := (s.core n.val).mh :: (s.core n.val).dstk } 1) ∧
    Runs (.dqFetch n) s (fun t => t = s.opEnd n.val { s.opCore n.val with dstk := (s.core n.val).dq :: (s.core n.val).dstk } 1) ∧
    Runs (.dmFetch n) s (fun t => t = s.opEnd n.val { s.opCore n.val with dstk := (s.core n.val).dm :: (s.core n.val).dstk } 1)) ∧
  (∀ (s : State) (n : Fin 4), s.issues n.val false = true → (s.core n.val).dstk.length ≤ 8 →
    Runs (.maclr n) s (fun t => t = s.opEnd n.val { s.opCore n.val with mulq := (s.core n.val).mulq ++ [(3, .ma 0 false)] } 1)) ∧
  (∀ (s : State) (n : Fin 4) (a : Half) (r : List Half) (v : Int), s.issues n.val false = true →
    (s.core n.val).dstk = a :: r → r.length ≤ 7 →
    v = (if min a.toNat 39 = 0 then (s.core n.val).ma.toInt
      else ((s.core n.val).ma.toInt + 2 ^ (min a.toNat 39 - 1)) / 2 ^ (min a.toNat 39)) →
    Runs (.mas n) s fun t => t = s.opEnd n.val { s.opCore n.val with
      dstk := BitVec.ofInt 16 (max (-32768) (min 32767 v)) :: r
      status := stSat (s.core n.val).status (decide (v < -32768) || decide (32767 < v)) } 1) ∧
  (∀ (s : State) (n : Fin 4) (k : Nat) (p : Word) (q : List (Nat × MulOp)), s.live = true →
    (s.core n.val).mulq = (k, .product p) :: q →
    q.all (fun e => decide (1 < e.1)) = true →
    Runs (.multiplierResult n) s fun t =>
      (k ≤ 1 → t.core n.val = { s.core n.val with
          ml := p.setWidth 16, mh := (p >>> 16).setWidth 16, mulq := q.map (fun e => (e.1 - 1, e.2)),
          dq := (t.core n.val).dq, dm := (t.core n.val).dm, div := (t.core n.val).div,
          marks := (t.core n.val).marks, markT := (t.core n.val).markT } ∧
        ((s.core n.val).div = none → (t.core n.val).div = none ∧ (t.core n.val).dq = (s.core n.val).dq ∧
          (t.core n.val).dm = (s.core n.val).dm) ∧
        (∀ m : Fin 4, m ≠ n → t.core m.val = s.core m.val) ∧ Keeps [.cores] s t) ∧
      (1 < k → t = s)) ∧
  (∀ (s : State) (n : Fin 4) (k : Nat) (v : BitVec 40) (w : Bool) (q : List (Nat × MulOp)), s.live = true →
    (s.core n.val).mulq = (k, .ma v w) :: q → q.all (fun e => decide (1 < e.1)) = true →
    Runs (.multiplierResult n) s fun t =>
      (k ≤ 1 → t.core n.val = { s.core n.val with
          ma := v, status := if w then (s.core n.val).status ||| 0x0008 else (s.core n.val).status
          mulq := q.map (fun e => (e.1 - 1, e.2))
          dq := (t.core n.val).dq, dm := (t.core n.val).dm, div := (t.core n.val).div,
          marks := (t.core n.val).marks, markT := (t.core n.val).markT } ∧
        (∀ m : Fin 4, m ≠ n → t.core m.val = s.core m.val) ∧ Keeps [.cores] s t) ∧
      (1 < k → t = s)) ∧
  (∀ (s : State) (n : Fin 4) (k : Nat) (q m : Half), s.live = true → (s.core n.val).div = some (k, q, m) →
    Runs (.dividerResult n) s fun t =>
      (k ≤ 1 → t.core n.val = { s.core n.val with
          dq := q, dm := m, div := none
          ml := (t.core n.val).ml, mh := (t.core n.val).mh, ma := (t.core n.val).ma, status := (t.core n.val).status
          mulq := (t.core n.val).mulq, marks := (t.core n.val).marks, markT := (t.core n.val).markT } ∧
        ((s.core n.val).mulq = [] → (t.core n.val).ml = (s.core n.val).ml ∧ (t.core n.val).ma = (s.core n.val).ma) ∧
        (∀ m : Fin 4, m ≠ n → t.core m.val = s.core m.val) ∧ Keeps [.cores] s t) ∧
      (1 < k → t = s))

/-- Chapters 6 and 8 (R4, R302, R310, R312, R313, R346, R350, R352, R428, R431, R435): loads, stores and atomics. -/
def Obligations.TsuvoMemory : Prop :=
  (∀ (s : State) (n : Fin 4) (a : Half) (r : List Half) (pa : Nat) (dev : BusRead), s.issues n.val false = true →
    (s.core n.val).dstk = a :: r → r.length ≤ 7 → (s.core n.val).wbuf = [] → s.noWatch n.val = true →
    s.scratchAt n.val (s.nearVa n.val a) .read = some pa →
    Runs (.cFetch n dev) s (fun t =>
      t = s.opEnd n.val { s.opCore n.val with dstk := (s.rdByte pa).setWidth 16 :: r, marks := [true], markT := 2 } 1) ∧
    (a.toNat % 2 = 0 → pa % 2 = 0 → Runs (.fetch n dev) s (fun t =>
      t = s.opEnd n.val { s.opCore n.val with dstk := s.rdHalf pa :: r, marks := [true], markT := 2 } 1)) ∧
    (a.toNat % 4 = 0 → pa % 4 = 0 → r.length ≤ 6 → Runs (.twoFetch n dev) s (fun t =>
      t = s.opEnd n.val { s.opCore n.val with dstk := s.rdHalf (pa + 2) :: s.rdHalf pa :: r, marks := [true, true], markT := 2 } 1))) ∧
  (∀ (s : State) (n : Fin 4) (a bank : Half) (r : List Half) (pa : Nat) (dev : BusRead), s.issues n.val false = true →
    (s.core n.val).dstk = bank :: a :: r → r.length ≤ 6 → (s.core n.val).wbuf = [] → s.noWatch n.val = true →
    s.scratchAt n.val (farVa a bank) .read = some pa →
    (a.toNat % 2 = 0 → pa % 2 = 0 → Runs (.fFetch n dev) s (fun t =>
      t = s.opEnd n.val { s.opCore n.val with dstk := s.rdHalf pa :: r, marks := [true], markT := 2 } 1)) ∧
    (a.toNat % 4 = 0 → pa % 4 = 0 → Runs (.f2Fetch n dev) s (fun t =>
      t = s.opEnd n.val { s.opCore n.val with dstk := s.rdHalf (pa + 2) :: s.rdHalf pa :: r, marks := [true, true], markT := 2 } 1))) ∧
  (∀ (s : State) (n : Fin 4) (a : Half) (r : List Half) (x : Xl) (dev : BusRead), s.issues n.val false = true →
    (s.core n.val).dstk = a :: r → r.length ≤ 7 → (s.core n.val).wbuf = [] → s.noWatch n.val = true →
    s.xlHit n.val (s.nearVa n.val a) .read = some x → x.cached = true → (s.line n.val (x.pa / 32)).st ≠ .i →
    (s.line n.val (x.pa / 32)).bad = 0 → a.toNat % 2 = 0 →
    Runs (.fetch n dev) s fun t => t = s.opEnd n.val { s.opCore n.val with
      dstk := bytesHalf (((s.line n.val (x.pa / 32)).data.flatMap wordBytes).drop (x.pa % 32)) :: r, marks := [true], markT := 2 } 1) ∧
  (∀ (s : State) (n : Fin 4) (v a : Half) (r : List Half) (x : Xl), s.issues n.val false = true →
    (s.core n.val).dstk = a :: v :: r → r.length ≤ 6 → (s.core n.val).wbuf.length < 4 → s.noWatch n.val = true →
    s.xlHit n.val (s.nearVa n.val a) .write = some x →
    Runs (.cStore n) s (fun t => t = s.opEnd n.val { s.opCore n.val with
      dstk := r
      wbuf := (s.core n.val).wbuf ++ [.store ⟨s.nearVa n.val a, x.pa, [v.setWidth 8], x.cached⟩] } 1) ∧
    (a.toNat % 2 = 0 → Runs (.store n) s (fun t => t = s.opEnd n.val { s.opCore n.val with
      dstk := r
      wbuf := (s.core n.val).wbuf ++ [.store ⟨s.nearVa n.val a, x.pa, halfBytes v, x.cached⟩] } 1))) ∧
  (∀ (s : State) (n : Fin 4) (lo hi a : Half) (r : List Half) (x : Xl), s.issues n.val false = true →
    (s.core n.val).dstk = a :: hi :: lo :: r → r.length ≤ 5 → (s.core n.val).wbuf.length < 4 → s.noWatch n.val = true →
    s.xlHit n.val (s.nearVa n.val a) .write = some x → a.toNat % 4 = 0 →
    Runs (.twoStore n) s fun t => t = s.opEnd n.val { s.opCore n.val with
      dstk := r
      wbuf := (s.core n.val).wbuf ++ [.store ⟨s.nearVa n.val a, x.pa, wordBytes (hi ++ lo), x.cached⟩] } 1) ∧
  (∀ (s : State) (n : Fin 4) (lo hi a bank : Half) (r : List Half) (x : Xl), s.issues n.val false = true →
    (s.core n.val).dstk = bank :: a :: hi :: lo :: r → r.length ≤ 4 → (s.core n.val).wbuf.length < 4 →
    s.noWatch n.val = true → s.xlHit n.val (farVa a bank) .write = some x →
    (a.toNat % 2 = 0 → Runs (.fStore n) s (fun t => t = s.opEnd n.val { s.opCore n.val with
      dstk := lo :: r
      wbuf := (s.core n.val).wbuf ++ [.store ⟨farVa a bank, x.pa, halfBytes hi, x.cached⟩] } 1)) ∧
    (a.toNat % 4 = 0 → Runs (.f2Store n) s (fun t => t = s.opEnd n.val { s.opCore n.val with
      dstk := r
      wbuf := (s.core n.val).wbuf ++ [.store ⟨farVa a bank, x.pa, wordBytes (hi ++ lo), x.cached⟩] } 1))) ∧
  (∀ (s : State) (n : Fin 4) (v a : Half) (r : List Half) (pa : Nat) (dev : BusRead), s.issues n.val false = true →
    (s.core n.val).dstk = a :: v :: r → r.length ≤ 6 → (s.core n.val).wbuf = [] → s.noWatch n.val = true →
    s.scratchAt n.val (s.nearVa n.val a) .read = some pa → s.scratchAt n.val (s.nearVa n.val a) .write = some pa →
    a.toNat % 2 = 0 → pa % 2 = 0 →
    Runs (.plusStore n dev) s fun t => t = s.opEnd n.val { s.opCore n.val with
      dstk := r
      wbuf := [.store ⟨s.nearVa n.val a, pa, halfBytes (s.rdHalf pa + v), false⟩] } 2) ∧
  (∀ (s : State) (n : Fin 4) (w v a : Half) (r : List Half) (x : Xl), s.issues n.val false = true →
    (s.core n.val).dstk = a :: v :: w :: r → r.length ≤ 5 → (s.core n.val).wbuf = [] → s.noWatch n.val = true →
      s.coh.credits = [] →
    s.xlHit n.val (s.nearVa n.val a) .write = some x → regionOf x.pa = some .sram → s.eccAt x.pa = 0 →
    (∀ k : Fin 4, (s.line k.val (x.pa / 32)).st ≠ .m) → a.toNat % 2 = 0 → x.pa % 2 = 0 →
    Runs (.xchg n) s (fun t =>
      (t.core n.val).dstk = s.rdHalf x.pa :: w :: r ∧ (t.core n.val).marks = [true] ∧ (t.core n.val).markT = 1 ∧
        t.rdHalf x.pa = v ∧ (∀ k : Fin 4, (t.line k.val (x.pa / 32)).st = .i) ∧
      (∀ p, p < x.pa ∨ x.pa + 2 ≤ p → t.rdByte p = s.rdByte p) ∧ Keeps [.cores, .mem, .ecc, .coh] s t) ∧
    Runs (.fadd n) s (fun t =>
      (t.core n.val).dstk = s.rdHalf x.pa :: w :: r ∧ (t.core n.val).marks = [true] ∧ (t.core n.val).markT = 1 ∧
        t.rdHalf x.pa = s.rdHalf x.pa + v ∧
      (∀ p, p < x.pa ∨ x.pa + 2 ≤ p → t.rdByte p = s.rdByte p) ∧ Keeps [.cores, .mem, .ecc, .coh] s t) ∧
    Runs (.cas n) s (fun t =>
      (t.core n.val).dstk = s.rdHalf x.pa :: r ∧ t.rdHalf x.pa = (if s.rdHalf x.pa = v then w else s.rdHalf x.pa) ∧
      (∀ p, p < x.pa ∨ x.pa + 2 ≤ p → t.rdByte p = s.rdByte p) ∧ Keeps [.cores, .mem, .ecc, .coh] s t)) ∧
  (∀ (s : State) (n : Fin 4) (a : Half) (r : List Half) (dev : BusRead), s.issues n.val false = true →
    (s.core n.val).dstk = a :: r → r.length ≤ 7 → (s.core n.val).rstk.length ≤ 14 → a.toNat % 2 = 1 →
    Runs (.fetch n dev) s fun t =>
      s.entered t n.val 3 (s.opCore n.val) ∧ (t.core n.val).fal = a ∧ (t.core n.val).fah = (s.core n.val).dbr.setWidth 16 ∧
      RegsBut [] s t ∧ Keeps [.cores, .regs] s t) ∧
  (∀ (s : State) (n : Fin 4), s.issues n.val false = true → s.pushesDone n.val = true → (s.core n.val).wbuf = [] →
    Runs (.fence n) s fun t => t = s.opEnd n.val (s.opCore n.val) 1) ∧
  (∀ (s : State) (n : Fin 4), s.issues n.val false = true → (s.core n.val).wbuf = [] → s.pushesDone n.val = false →
    Runs (.fence n) s fun t => t = s.opEnd n.val
      { s.opCore n.val with waiting := .fence (s.core n.val).pc (s.core n.val).slot } 1) ∧
  (∀ (s : State) (n : Fin 4) (va pa m : Nat) (v : Half), s.issues n.val false = true → s.pushesDone n.val = true →
    (s.core n.val).wbuf = [.store ⟨va, pa, halfBytes v, false⟩] → regionOf pa = some (.scratch m) →
    Runs (.fence n) s fun t =>
      (t.core n.val).wbuf = [] ∧ t.rdHalf pa = v ∧ (∀ p, p < pa ∨ pa + 2 ≤ p → t.rdByte p = s.rdByte p) ∧
        Keeps [.cores, .mem] s t) ∧
  (∀ (s : State) (n : Fin 4) (va pa m : Nat) (v : Half) (q : List WbufEnt), s.live = true →
    (s.core n.val).wbuf = .store ⟨va, pa, halfBytes v, false⟩ :: q → regionOf pa = some (.scratch m) →
    Runs (.storeDrain n) s fun t =>
      (t.core n.val).wbuf = q ∧ t.rdHalf pa = v ∧ (∀ p, p < pa ∨ pa + 2 ≤ p → t.rdByte p = s.rdByte p) ∧
        Keeps [.cores, .mem] s t) ∧
  (∀ (s : State) (n : Fin 4) (va pa : Nat) (v : Half) (q : List WbufEnt), s.live = true →
    (s.core n.val).wbuf = .store ⟨va, pa, halfBytes v, true⟩ :: q →
    (s.line n.val (pa / 32)).st = .e ∨ (s.line n.val (pa / 32)).st = .m → (s.line n.val (pa / 32)).bad = 0 →
    Runs (.storeDrain n) s fun t =>
      (t.core n.val).wbuf = q ∧ Keeps [.cores] s t ∧
      t.line n.val (pa / 32) = ⟨.m, patchWords (s.line n.val (pa / 32)).data (pa % 32) (halfBytes v), 0⟩) ∧
  (∀ (s : State) (n : Fin 4) (va pa : Nat) (v : Half) (q : List WbufEnt), s.live = true →
    (s.core n.val).wbuf = .store ⟨va, pa, halfBytes v, false⟩ :: q → regionOf pa = none → (s.core n.val).wbe = none →
    (s.rd (Reg.ICU_WBETALLY n.val)).toNat < 65535 →
    Runs (.storeDrain n) s fun t =>
      (t.core n.val).wbuf = q ∧ (t.core n.val).wbe = some (va, pa) ∧ t.rd (Reg.ICU_WBEADDR n.val) = BitVec.ofNat 32 pa ∧
      t.rd (Reg.ICU_WBETALLY n.val) = s.rd (Reg.ICU_WBETALLY n.val) + 1 ∧ t.mem = s.mem)

/-- Chapters 6 and 7 (R303, R306 to R310, R312, R315, R327, R359, R363 to R365, R367, R369, R374, R378, R380): flow of control. -/
def Obligations.TsuvoFlow : Prop :=
  (∀ (s : State) (n : Fin 4) (off : BitVec 12), s.issues n.val true = true →
    Runs (.br n off) s fun t => t = s.opEnd n.val ((s.opCore n.val).age 1) 1 true
      (.jump (s.core n.val).cbr ((s.core n.val).pc + 2 + 2 * off.signExtend 16))) ∧
  (∀ (s : State) (n : Fin 4) (off : BitVec 12) (a : Half) (r : List Half), s.issues n.val true = true →
    (s.core n.val).dstk = a :: r → r.length ≤ 7 →
    Runs (.bz n off) s (fun t => t =
      if a = 0 then s.opEnd n.val ({ s.opCore n.val with dstk := r }.age 1) 1 true
        (.jump (s.core n.val).cbr ((s.core n.val).pc + 2 + 2 * off.signExtend 16))
      else s.opEnd n.val { s.opCore n.val with dstk := r } 1 true) ∧
    Runs (.bnz n off) s (fun t => t =
      if a ≠ 0 then s.opEnd n.val ({ s.opCore n.val with dstk := r }.age 1) 1 true
        (.jump (s.core n.val).cbr ((s.core n.val).pc + 2 + 2 * off.signExtend 16))
      else s.opEnd n.val { s.opCore n.val with dstk := r } 1 true)) ∧
  (∀ (s : State) (n : Fin 4) (off : BitVec 12) (e : BitVec 24) (q : List (BitVec 24)), s.issues n.val true = true →
    (s.core n.val).rstk = e :: q →
    Runs (.loop n off) s fun t => t =
      if (e - 1).setWidth 16 = (0 : Half) then s.opEnd n.val { s.opCore n.val with rstk := q } 1 true
      else s.opEnd n.val (({ s.opCore n.val with rstk := ((e >>> 16).setWidth 8 ++ (e.setWidth 16 - 1 : Half) : BitVec 24) :: q } : Core).age 1) 1 true
        (.jump (s.core n.val).cbr ((s.core n.val).pc + 2 + 2 * off.signExtend 16))) ∧
  (∀ (s : State) (n : Fin 4) (target : BitVec 14), s.issues n.val true = true → (s.core n.val).rstk.length < 16 →
    Runs (.call n target) s fun t => t = s.opEnd n.val
      { s.opCore n.val with rstk := ((s.core n.val).cbr ++ ((s.core n.val).pc + 2) : BitVec 24) :: (s.core n.val).rstk } 2 true
      (.jump (s.core n.val).cbr (BitVec.ofNat 16 (4 * target.toNat)))) ∧
  (∀ (s : State) (n : Fin 4) (e : BitVec 24) (q : List (BitVec 24)), s.issues n.val false = true →
    (s.core n.val).rstk = e :: q →
    Runs (.ret n) s fun t => t = s.opEnd n.val { s.opCore n.val with rstk := q } 3 false
      (.jump ((e >>> 16).setWidth 8) (e.setWidth 16))) ∧
  (∀ (s : State) (n : Fin 4) (a : Half) (r : List Half), s.issues n.val false = true → (s.core n.val).dstk = a :: r →
    r.length ≤ 7 →
    a.toNat % 2 = 0 →
    Runs (.jmp n) s (fun t => t = s.opEnd n.val { s.opCore n.val with dstk := r } 2 false (.jump (s.core n.val).cbr a)) ∧
    ((s.core n.val).rstk.length < 16 → Runs (.exec n) s (fun t => t = s.opEnd n.val { s.opCore n.val with
      dstk := r
      rstk := ((s.core n.val).cbr ++ ((s.core n.val).pc + 2) : BitVec 24) :: (s.core n.val).rstk } 2 false
        (.jump (s.core n.val).cbr a)))) ∧
  (∀ (s : State) (n : Fin 4) (a bank : Half) (r : List Half), s.issues n.val false = true →
    (s.core n.val).dstk = bank :: a :: r → r.length ≤ 6 → a.toNat % 2 = 0 →
    Runs (.fjmp n) s (fun t =>
      t = s.opEnd n.val { s.opCore n.val with dstk := r } 3 false (.jump (bank.setWidth 8) a)) ∧
    ((s.core n.val).rstk.length < 16 → Runs (.fexec n) s (fun t => t = s.opEnd n.val { s.opCore n.val with
      dstk := r
      rstk := ((s.core n.val).cbr ++ ((s.core n.val).pc + 2) : BitVec 24) :: (s.core n.val).rstk } 3 false
        (.jump (bank.setWidth 8) a)))) ∧
  (∀ (s : State) (n : Fin 4) (a : Half) (r : List Half), s.issues n.val false = true → (s.core n.val).dstk = a :: r →
    r.length ≤ 7 →
    (s.core n.val).rstk.length ≤ 14 → a.toNat % 2 = 1 →
    Runs (.jmp n) s (fun t => s.entered t n.val 3 (s.opCore n.val) ∧ (t.core n.val).fal = a ∧ RegsBut [] s t ∧
      Keeps [.cores, .regs] s t) ∧
    Runs (.exec n) s (fun t => s.entered t n.val 3 (s.opCore n.val) ∧ (t.core n.val).fal = a ∧ RegsBut [] s t ∧
      Keeps [.cores, .regs] s t)) ∧
  (∀ (s : State) (n : Fin 4) (a : Half) (r : List Half), s.issues n.val false = true → (s.core n.val).dstk = a :: r →
    r.length ≤ 7 →
    (s.core n.val).rstk.length ≤ 14 → a.toNat ≤ 15 →
    Runs (.trap n) s fun t =>
      s.entered t n.val (0x10 + a.toNat) (Core.advance (Core.age { s.opCore n.val with dstk := r } 1) false .next) ∧
        RegsBut [] s t ∧ Keeps [.cores, .regs, .free] s t) ∧
  (∀ (s : State) (n : Fin 4) (a : Half) (r : List Half), s.issues n.val false = true → (s.core n.val).dstk = a :: r →
    r.length ≤ 7 →
    (s.core n.val).rstk.length ≤ 14 → 15 < a.toNat →
    Runs (.trap n) s fun t => s.entered t n.val 1 (s.opCore n.val) ∧ RegsBut [] s t ∧ Keeps [.cores, .regs, .free] s t) ∧
  (∀ (s : State) (n : Fin 4) (code : BitVec 7), s.issues n.val false = true → (s.core n.val).rstk.length ≤ 14 →
    shortOpCode code.toNat = false →
    Runs (.undefinedOperation n code) s fun t => s.entered t n.val 1 (s.opCore n.val) ∧ RegsBut [] s t ∧
      Keeps [.cores, .regs, .free] s t) ∧
  (∀ (s : State) (n : Fin 4), s.issues n.val false = true → (s.core n.val).rstk.length ≤ 14 →
    s.bit Reg.DBG_CTRL n.val = false →
    Runs (.brk n) s fun t => s.entered t n.val 0x0D (((s.opCore n.val).age 1).advance false .next) ∧ RegsBut [] s t ∧
      Keeps [.cores, .regs, .free] s t) ∧
  (∀ (s : State) (n : Fin 4), s.issues n.val false = true → s.bit Reg.DBG_CTRL n.val = true →
    Runs (.brk n) s fun t => t = s.opEnd n.val { s.opCore n.val with haltPend := 2 } 1) ∧
  (∀ (s : State) (n : Fin 4), s.issues n.val false = true → (s.core n.val).sys = true →
    Runs (.wait n) s fun t => t = s.opEnd n.val { s.opCore n.val with waiting := .wait } 1) ∧
  (∀ (s : State) (n : Fin 4), s.issues n.val false = true → (s.core n.val).sys = false → (s.core n.val).rstk.length ≤ 14 →
    Runs (.wait n) s (fun t => s.entered t n.val 2 (s.opCore n.val) ∧ RegsBut [] s t ∧ Keeps [.cores, .regs, .free] s t) ∧
    ∀ late, Runs (.reti n late) s (fun t => s.entered t n.val 2 (s.opCore n.val) ∧ RegsBut [] s t ∧
      Keeps [.cores, .regs, .free] s t)) ∧
  (∀ (s : State) (n : Fin 4) (f1 f0 : BitVec 24) (q : List (BitVec 24)) (late : Bool), s.issues n.val false = true →
    (s.core n.val).sys = true →
    (s.core n.val).rstk = f1 :: f0 :: q →
    f1.getLsbD 9 = false ∨ s.stepHolds n.val = true ∨ s.bestSource n.val (f1.toNat / 2 ^ 18 % 16) = none →
    Runs (.reti n late) s fun t =>
      (t.core n.val).pc = (s.core n.val).epcl ∧ (t.core n.val).cbr = (s.core n.val).epch.setWidth 8 ∧
      (t.core n.val).slot = (s.core n.val).epch.getLsbD 9 ∧ (t.core n.val).sys = (s.core n.val).epch.getLsbD 8 ∧
      (t.core n.val).rstk = q ∧ (t.core n.val).epcl = f0.setWidth 16 ∧
      (t.core n.val).epch = BitVec.ofNat 16 (f0.toNat / 65536 % 256 + f1.toNat / 65536 % 4 * 256) ∧
      (∀ i : Fin 16, i.val < 6 ∨ i.val = 9 → ((s.core n.val).mulq = [] ∨ i.val ≠ 3) →
        (t.core n.val).status.getLsbD i.val = f1.getLsbD i.val) ∧
      t.rpri n.val = f1.toNat / 2 ^ 18 % 16 ∧ (t.core n.val).dstk = (s.core n.val).dstk ∧
      (t.core n.val).active = (if s.rpri n.val < f1.toNat / 2 ^ 18 % 16 then (s.core n.val).active.drop 1 else (s.core n.val).active) ∧
      RegsBut [Reg.ICU_ACTIVE n.val] s t ∧ Keeps [.cores, .regs] s t) ∧
  (∀ (s : State) (n : Fin 4) (f1 f0 : BitVec 24) (q : List (BitVec 24)) (i : Fin 64) (late : Bool), s.issues n.val false = true →
    (s.core n.val).sys = true → (s.core n.val).rstk = f1 :: f0 :: q → f1.getLsbD 9 = true → s.stepHolds n.val = false →
    s.bestSource n.val (f1.toNat / 2 ^ 18 % 16) = some i.val →
    Runs (.reti n late) s fun t =>
      (t.core n.val).pc = ((s.core n.val).vbrl &&& 0xFE00) + BitVec.ofNat 16 (4 * (0x20 + i.val)) ∧
      (t.core n.val).cbr = (s.core n.val).vbrh.setWidth 8 ∧ (t.core n.val).slot = false ∧ (t.core n.val).sys = true ∧
      (t.core n.val).rstk = f1 :: f0 :: q ∧ t.rpri n.val = s.fld (Reg.ICU_SRCCFG n.val i.val) 1 3 ∧
      (t.core n.val).active.head? = some i.val ∧
      (if i.val < 32 then t.bit (Reg.ICU_PENDLO n.val) i.val else t.bit (Reg.ICU_PENDHI n.val) (i.val - 32)) = false ∧
      RegsBut [Reg.ICU_ACTIVE n.val, Reg.ICU_PENDLO n.val, Reg.ICU_PENDHI n.val, Reg.ICU_CSTAT n.val, Reg.ICU_CLTALLY n.val] s t ∧
      (late = true → s.isCl n.val i.val = true →
        t.bit (Reg.ICU_CSTAT n.val) 2 = true ∧
          t.fld (Reg.ICU_CLTALLY n.val) 0 16 = min 65535 (s.fld (Reg.ICU_CLTALLY n.val) 0 16 + 1)))

/-- Chapters 6 to 9 (R310, R324 to R328, R331 to R334, R337, R350, R404, R416, R430, R471, R475): system operations. -/
def Obligations.TsuvoSystem : Prop :=
  (∀ (s : State) (n : Fin 4) (a bank : Half) (r : List Half) (x : Xl), s.issues n.val false = true →
    (s.core n.val).dstk = bank :: a :: r → r.length ≤ 6 → (s.core n.val).wbuf = [] →
    s.xlHit n.val (farVa a bank) .cacheOp = some x →
    ((s.line n.val (x.pa / 32)).st = .m → (s.line n.val (x.pa / 32)).bad = 0 → s.coh.credits = [] →
      Runs (.dcwb n) s (fun t =>
        t.line n.val (x.pa / 32) = { s.line n.val (x.pa / 32) with st := .e } ∧
        (t.core n.val).dstk = r ∧ (∀ i : Fin 8, t.rdWord (32 * (x.pa / 32) + 4 * i.val) = (s.line n.val (x.pa / 32)).data.getD i.val 0) ∧
          (∀ p, p < 32 * (x.pa / 32) ∨ 32 * (x.pa / 32) + 32 ≤ p → t.rdByte p = s.rdByte p) ∧
            Keeps [.cores, .mem, .ecc, .coh] s t)) ∧
    ((s.line n.val (x.pa / 32)).st ≠ .m →
      Runs (.dcwb n) s (fun t => t = s.opEnd n.val { s.opCore n.val with dstk := r } 2)) ∧
    ((s.core n.val).sys = true →
      Runs (.dcinv n) s (fun t => t.line n.val (x.pa / 32) = {} ∧ (t.core n.val).dstk = r ∧ Keeps [.cores] s t)) ∧
    Runs (.icinv n) s (fun t =>
      tget ([], 0) (t.core n.val).icache (x.pa / 32) = ([], 0) ∧ (t.core n.val).dcache = (s.core n.val).dcache ∧
      (t.core n.val).dstk = r ∧ Keeps [.cores] s t)) ∧
  (∀ (s : State) (n : Fin 4), s.issues n.val false = true →
    Runs (.isync n) s fun t => t = s.opEnd n.val { s.opCore n.val with
      ten := s.bit (Reg.XLT_XCTRL n.val) 0, dir := (s.rd (Reg.XLT_DIRBASE n.val)).toNat } 3) ∧
  (∀ (s : State) (n : Fin 4) (q tag : Fin 64) (d : Half) (r : List Half), s.issues n.val false = true →
    (s.core n.val).dstk = BitVec.ofNat 16 q.val :: BitVec.ofNat 16 tag.val :: d :: r → r.length ≤ 5 →
      s.pushFull n.val = (false, s) →
    (s.core n.val).wbuf.length < 4 →
    Runs (.qpush n) s fun t =>
      t = s.opEnd n.val { s.opCore n.val with
        dstk := 0xFFFF :: r, wbuf := (s.core n.val).wbuf ++ [.push ⟨q.val, tag.val, d⟩] } 1) ∧
  (∀ (s : State) (n : Fin 4) (w : PoolWord) (q : List WbufEnt), s.live = true → (s.core n.val).wbuf = .push w :: q →
    (s.pport n.val).fifo = [] →
    Runs (.storeDrain n) s fun t =>
      (t.core n.val).wbuf = q ∧ (t.pport n.val).fifo = [w] ∧ Keeps [.cores, .pool] s t) ∧
  (∀ (s : State) (n : Fin 4) (q tag : Fin 64) (d : Half) (r : List Half), s.issues n.val false = true →
    (s.core n.val).dstk = BitVec.ofNat 16 q.val :: BitVec.ofNat 16 tag.val :: d :: r → r.length ≤ 5 →
    (s.pport n.val).fifo.length = 8 →
    Runs (.qpush n) s fun t =>
      (t.core n.val).dstk = 0 :: r ∧ t.pool = s.pool ∧
      t.fld (Reg.POOL_FULLTALLY n.val) 0 16 = min 65535 (s.fld (Reg.POOL_FULLTALLY n.val) 0 16 + 1) ∧
      RegsBut [Reg.POOL_FULLTALLY n.val] s t ∧ Keeps [.cores, .regs] s t) ∧
  (∀ (s : State) (n : Fin 4) (q : Fin 64) (r : List Half), s.issues n.val false = true →
    (s.core n.val).dstk = BitVec.ofNat 16 q.val :: r → r.length ≤ 6 → (s.pport n.val).req = none → (s.core n.val).wbuf = [] →
    Runs (.qpop n) s fun t =>
      (t.core n.val).waiting = .qpop q.val ∧ (t.core n.val).dstk = r ∧
      (t.pport n.val).req = some (q.val, (s.pport n.val).fifo.length) ∧ Keeps [.cores, .pool] s t) ∧
  (∀ (s : State) (n : Fin 4) (w : Word) (q : Nat), s.live = true → (s.core n.val).waiting = .qpop q →
    (s.pport n.val).rep = some w →
    Runs (.qpopReply n) s fun t =>
      (t.core n.val).dstk = (w >>> 16).setWidth 16 :: w.setWidth 16 :: (s.core n.val).dstk ∧ (t.core n.val).waiting = .none ∧
      (t.pport n.val).rep = none ∧ Keeps [.cores, .pool] s t) ∧
  (∀ (s : State) (n : Fin 4) (k d : Half) (r : List Half), s.issues n.val false = true →
    (s.core n.val).dstk = k :: d :: r → r.length ≤ 5 → (s.core n.val).rstk.length ≤ 14 → 63 < k.toNat →
    Runs (.qpop n) s (fun t => s.entered t n.val 1 (s.opCore n.val) ∧ RegsBut [] s t ∧ Keeps [.cores, .regs, .free] s t) ∧
    Runs (.srFetch n) s (fun t => s.entered t n.val 1 (s.opCore n.val) ∧ RegsBut [] s t ∧ Keeps [.cores, .regs, .free] s t) ∧
    Runs (.srStore n) s (fun t => s.entered t n.val 1 (s.opCore n.val) ∧ RegsBut [] s t ∧ Keeps [.cores, .regs, .free] s t)) ∧
  (∀ (s : State) (n : Fin 4) (k : Half) (r : List Half) (x : Half), s.issues n.val false = true →
    (s.core n.val).dstk = k :: r → r.length ≤ 7 → s.srRead n.val k.toNat = some x →
    Runs (.srFetch n) s fun t => t = s.opEnd n.val { s.opCore n.val with dstk := x :: r } 1) ∧
  (∀ (s : State) (n : Fin 4), s.srRead n.val 1 = some ((s.core n.val).cbr.setWidth 16) ∧
    s.srRead n.val 4 = some (s.core n.val).dsp ∧
    s.srRead n.val 7 = some (s.core n.val).rsp ∧ s.srRead n.val 19 = some (BitVec.ofNat 16 n.val) ∧
    s.srRead n.val 20 = some (s.clk.tb.setWidth 16) ∧ s.srRead n.val 24 = some (s.core n.val).epcl ∧
    s.srRead n.val 26 = some (s.core n.val).cause ∧ s.srRead n.val 21 = none ∧ s.srRead n.val 31 = none) ∧
  (∀ (s : State) (n : Fin 4) (k v : Half) (r : List Half), s.issues n.val false = true →
    (s.core n.val).dstk = k :: v :: r → r.length ≤ 6 → (s.srRead n.val k.toNat).isSome = true →
    srSystem k.toNat = false ∨ (s.core n.val).sys = true →
    Runs (.srStore n) s fun t =>
      (t.core n.val).dstk = r ∧ Keeps [.cores] s t ∧
      (k.toNat = 2 ∨ k.toNat = 3 → t.srRead n.val k.toNat = some (v &&& 0x00FF)) ∧
      (k.toNat = 4 ∨ k.toNat = 5 ∨ k.toNat = 6 → t.srRead n.val k.toNat = some (v &&& 0xFFFE)) ∧
      (k.toNat = 7 ∨ k.toNat = 8 ∨ k.toNat = 9 → t.srRead n.val k.toNat = some (v &&& 0xFFFC)) ∧
      (k.toNat = 18 → t.srRead n.val k.toNat = some (v &&& 0x003F)) ∧
      (k.toNat = 24 ∨ k.toNat = 29 → t.srRead n.val k.toNat = some v) ∧
      (k.toNat = 25 → t.srRead n.val k.toNat = some (v &&& 0x03FF)) ∧
      (k.toNat = 30 → t.srRead n.val k.toNat = some (v &&& 0x00FF)) ∧
      (k.toNat = 1 ∨ k.toNat = 19 ∨ k.toNat = 20 ∨ k.toNat = 26 ∨ k.toNat = 27 ∨ k.toNat = 28 →
        t.srRead n.val k.toNat = s.srRead n.val k.toNat)) ∧
  (∀ (s : State) (n : Fin 4) (k v : Half) (r : List Half), s.issues n.val false = true →
    (s.core n.val).dstk = k :: v :: r → r.length ≤ 6 → (s.core n.val).rstk.length ≤ 14 → (s.core n.val).sys = false →
    (srSystem k.toNat = true → Runs (.srStore n) s (fun t => s.entered t n.val 2 (s.opCore n.val) ∧ RegsBut [] s t ∧
      Keeps [.cores, .regs, .free] s t)) ∧
    Runs (.dcinv n) s (fun t => s.entered t n.val 2 (s.opCore n.val) ∧ RegsBut [] s t ∧ Keeps [.cores, .regs, .free] s t) ∧
    Runs (.tlbi n) s (fun t => s.entered t n.val 2 (s.opCore n.val) ∧ RegsBut [] s t ∧ Keeps [.cores, .regs, .free] s t) ∧
    Runs (.tlbia n) s (fun t => s.entered t n.val 2 (s.opCore n.val) ∧ RegsBut [] s t ∧ Keeps [.cores, .regs, .free] s t)) ∧
  (∀ (s : State) (n : Fin 4), s.issues n.val false = true → (s.core n.val).dstk.length < 8 →
    Runs (.dbrFetch n) s fun t => t = s.opEnd n.val
      { s.opCore n.val with dstk := (s.core n.val).dbr.setWidth 16 :: (s.core n.val).dstk } 1) ∧
  (∀ (s : State) (n : Fin 4) (a : Half) (r : List Half), s.issues n.val false = true → (s.core n.val).dstk = a :: r →
    r.length ≤ 7 →
    Runs (.dbrStore n) s fun t => t = s.opEnd n.val { s.opCore n.val with dstk := r, dbr := a.setWidth 8 } 1) ∧
  (∀ (s : State) (n : Fin 4) (a bank : Half) (r : List Half), s.issues n.val false = true →
    (s.core n.val).dstk = bank :: a :: r → r.length ≤ 6 → (s.core n.val).sys = true →
    Runs (.tlbi n) s (fun t =>
      (t.core n.val).dstk = r ∧ Keeps [.cores] s t ∧
      (∀ g, tlbFind (t.core n.val).tlb (bank.toNat % 256) (a.toNat / 4096) g = none) ∧
      (∀ b p g, (b ≠ bank.toNat % 256 ∨ p ≠ a.toNat / 4096) →
        tlbFind (t.core n.val).tlb b p g = tlbFind (s.core n.val).tlb b p g)) ∧
    Runs (.tlbia n) s (fun t => t = s.opEnd n.val { s.opCore n.val with tlb := [] } 2)) ∧
  (∀ (s : State) (n : Fin 4) (va pa : Nat), s.coreRuns n.val = true → (s.core n.val).halted = false →
    (s.core n.val).waiting = .none → (s.core n.val).wbe = some (va, pa) → (s.core n.val).rstk.length ≤ 14 →
    Runs (.wbusAsync n) s fun t =>
      s.entered t n.val 0x0B (s.core n.val) ∧ (t.core n.val).wbe = none ∧ (t.core n.val).fal = BitVec.ofNat 16 va ∧
      (t.core n.val).fah = BitVec.ofNat 16 (va / 65536 % 256) ∧ Keeps [.cores] s t)

/-- Chapters 3 and 7 (R107 to R109, R357 to R360, R364, R380, R381, R383 to R385, R388): cores, interrupts and halts. -/
def Obligations.CoresAndDebug : Prop :=
  (∀ (s : State) (n : Fin 4), s.sysServed = true → ¬(n.val = 0 ∧ s.outcome = boBOOTING) →
    s.bit Reg.SYS_CORERST n.val = false →
    Runs (.coreResetAssert n) s fun t =>
      t.bit Reg.SYS_CORERST n.val = true ∧ t.core n.val = { s.core n.val with resetting := true } ∧
      RegsBut [Reg.SYS_CORERST] s t ∧ Keeps [.cores, .regs] s t) ∧
  (∀ (s : State), s.sysServed = true → s.outcome = boBOOTING →
    Runs (.coreResetAssert 0) s fun t =>
      t.bit Reg.SYS_STATUS 31 = true ∧ t.cores = s.cores ∧ RegsBut [Reg.SYS_STATUS] s t ∧ Keeps [.regs] s t) ∧
  (∀ (s : State) (n : Fin 4), s.live = true → (s.core n.val).resetting = true → s.bit Reg.SYS_CORERST n.val = true →
    s.coreQuiet n.val = true →
    Runs (.coreResetHeld n) s fun t =>
      t.core n.val = {} ∧ t.bit Reg.SYS_CORERST n.val = true ∧ t.bit Reg.SYS_CORERST (8 + n.val) = true ∧
      t.rd (Reg.ICU_PENDLO n.val) = 0 ∧ t.rd (Reg.ICU_ACTIVE n.val) = regReset (Reg.ICU_ACTIVE n.val) ∧
      t.bit Reg.DBG_STATUS n.val = false ∧ (t.pport n.val).req = none ∧ (t.pport n.val).rep = none) ∧
  (∀ (s : State) (n : Fin 4), s.sysServed = true → s.bit Reg.SYS_CORERST n.val = true → (s.core n.val).resetting = false →
    Runs (.coreResetRelease n) s fun t =>
      t.core n.val = { started := true, pc := (s.rd (Reg.SYS_COREENTRY n.val)).setWidth 16, halted := s.bit Reg.DBG_HALTREQ n.val } ∧
      t.bit Reg.SYS_CORERST n.val = false ∧ t.bit Reg.SYS_CORERST (8 + n.val) = false ∧
      t.bit Reg.DBG_STATUS n.val = s.bit Reg.DBG_HALTREQ n.val ∧
      (s.bit Reg.DBG_HALTREQ n.val = true → t.fld Reg.DBG_HALTCAUSE (4 * n.val) 4 = 1) ∧
      RegsBut [Reg.SYS_CORERST, Reg.DBG_STATUS, Reg.DBG_HALTCAUSE] s t ∧ Keeps [.cores, .regs, .boot] s t) ∧
  (∀ (s : State) (n : Fin 4) (i : Fin 64), s.canInterrupt n.val = true → s.bestSource n.val (s.rpri n.val) = some i.val →
    (s.core n.val).wbe = none → (s.core n.val).rstk.length ≤ 14 →
    Runs (.interruptEntry n false) s fun t =>
      (t.core n.val).pc = ((s.core n.val).vbrl &&& 0xFE00) + BitVec.ofNat 16 (4 * (0x20 + i.val)) ∧
      (t.core n.val).cbr = (s.core n.val).vbrh.setWidth 8 ∧ (t.core n.val).slot = false ∧ (t.core n.val).sys = true ∧
      (t.core n.val).epcl = (s.core n.val).pc ∧
      (t.core n.val).epch = BitVec.ofNat 16 ((s.core n.val).cbr.toNat + (if (s.core n.val).sys then 256 else 0) +
        (if (s.core n.val).slot then 512 else 0)) ∧
      (t.core n.val).rstk.length = (s.core n.val).rstk.length + 2 ∧
      (t.core n.val).rstk.getD 1 0 = BitVec.ofNat 24 ((s.core n.val).epcl.toNat + (s.core n.val).epch.toNat % 256 * 65536) ∧
      (t.core n.val).mulq = [] ∧ (t.core n.val).active = i.val :: (s.core n.val).active ∧
      t.rpri n.val = s.fld (Reg.ICU_SRCCFG n.val i.val) 1 3 ∧ t.fld (Reg.ICU_ACTIVE n.val) 0 6 = i.val ∧
      (if i.val < 32 then t.bit (Reg.ICU_PENDLO n.val) i.val else t.bit (Reg.ICU_PENDHI n.val) (i.val - 32)) = false ∧
      RegsBut [Reg.ICU_ACTIVE n.val, Reg.ICU_PENDLO n.val, Reg.ICU_PENDHI n.val] s t ∧ Keeps [.cores, .regs] s t) ∧
  (∀ (s : State) (val : Word), s.live = true →
    Runs (.swi val) s fun t =>
      (∀ m : Fin 4, W.bit val m.val = true → t.asserted (56 + m.val) = true) ∧
      (∀ (k m : Fin 4), W.bit val m.val = false →
        t.bit (Reg.ICU_PENDHI k.val) (24 + m.val) = s.bit (Reg.ICU_PENDHI k.val) (24 + m.val)) ∧
      RegsBut icuRegs s t ∧ Keeps [.regs] s t) ∧
  (∀ (s : State) (n : Fin 4) (val : Word), s.live = true →
    Runs (.setpend n true val) s (fun t =>
      t.rd (Reg.ICU_PENDHI n.val) = s.rd (Reg.ICU_PENDHI n.val) ||| val ∧ RegsBut [Reg.ICU_PENDHI n.val] s t ∧
        Keeps [.regs] s t) ∧
    Runs (.setpend n false val) s (fun t =>
      t.rd (Reg.ICU_PENDLO n.val) = s.rd (Reg.ICU_PENDLO n.val) ||| val ∧ RegsBut [Reg.ICU_PENDLO n.val] s t ∧
        Keeps [.regs] s t) ∧
    Runs (.clrpend n true val) s (fun t =>
      t.rd (Reg.ICU_PENDHI n.val) = s.rd (Reg.ICU_PENDHI n.val) &&& ~~~ val ∧ RegsBut [Reg.ICU_PENDHI n.val] s t ∧
        Keeps [.regs] s t) ∧
    Runs (.clrpend n false val) s (fun t =>
      t.rd (Reg.ICU_PENDLO n.val) = s.rd (Reg.ICU_PENDLO n.val) &&& ~~~ val ∧ RegsBut [Reg.ICU_PENDLO n.val] s t ∧
      Keeps [.regs] s t)) ∧
  (∀ (s : State) (n : Fin 4), s.live = true → s.bit Reg.DBG_HALTREQ n.val = false → s.bit Reg.DBG_SAFECFG n.val = false →
    Runs (.haltRequest n) s fun t =>
      t.bit Reg.DBG_HALTREQ n.val = true ∧ RegsBut [Reg.DBG_HALTREQ] s t ∧ Keeps [.regs] s t) ∧
  (∀ (s : State) (n : Fin 4), s.live = true → s.bit Reg.DBG_HALTREQ n.val = false → s.bit Reg.DBG_SAFECFG n.val = true →
    (s.core n.val).halted = false →
    Runs (.haltRequest n) s fun t =>
      t.bit Reg.DBG_HALTREQ n.val = true ∧ (∀ m : Fin 12, t.fld (Reg.PWM_OUT m.val) 0 2 = 0) ∧
      (∀ k : Fin 32, s.slotOn k.val = true → t.slotOn k.val = false) ∧ t.cores = s.cores ∧ t.mem = s.mem) ∧
  (∀ (s : State) (n : Fin 4), s.coreRuns n.val = true → (s.core n.val).halted = false → (s.core n.val).waiting = .none →
    (s.core n.val).wbuf = [] → (s.pport n.val).fifo = [] → (s.core n.val).stepping = false → s.reqOut n.val = false →
      s.bit Reg.DBG_HALTREQ n.val = true →
    Runs (.coreHalt n 1) s fun t =>
      t.core n.val = { s.core n.val with halted := true, haltPend := 0, marks := [], markT := 0 } ∧
        t.bit Reg.DBG_STATUS n.val = true ∧
      t.fld Reg.DBG_HALTCAUSE (4 * n.val) 4 = 1 ∧ RegsBut [Reg.DBG_STATUS, Reg.DBG_HALTCAUSE] s t ∧
        Keeps [.cores, .regs] s t) ∧
  (∀ (s : State) (n : Fin 4), s.coreRuns n.val = true → (s.core n.val).halted = false → (s.core n.val).waiting = .none →
    (s.core n.val).wbuf = [] → (s.pport n.val).fifo = [] → s.reqOut n.val = false → (s.core n.val).haltPend = 2 →
      s.bit Reg.DBG_SAFECFG n.val = false →
    Runs (.coreHalt n 2) s fun t =>
      (t.core n.val).halted = true ∧ t.bit Reg.DBG_STATUS n.val = true ∧ t.fld Reg.DBG_HALTCAUSE (4 * n.val) 4 = 2 ∧
      RegsBut [Reg.DBG_STATUS, Reg.DBG_HALTCAUSE] s t) ∧
  (∀ (s : State) (n : Fin 4), s.live = true → (s.core n.val).halted = true →
    Runs (.haltRelease (n.castLE (by decide))) s (fun t =>
      t.core n.val = { s.core n.val with halted := false, bpPass := true, waiting := .none } ∧
        t.bit Reg.DBG_STATUS n.val = false ∧
      t.bit Reg.DBG_HALTREQ n.val = false ∧ RegsBut [Reg.DBG_STATUS, Reg.DBG_HALTREQ] s t ∧ Keeps [.cores, .regs] s t) ∧
    Runs (.debugStep (BitVec.ofNat 32 (2 ^ n.val))) s (fun t =>
      t.core n.val = { (s.core n.val).landAll.landDiv with halted := false, stepping := true, bpPass := true, waiting := .none } ∧
      t.bit Reg.DBG_STATUS n.val = false ∧ RegsBut [Reg.DBG_STATUS] s t ∧ Keeps [.cores, .regs] s t)) ∧
  (∀ (s : State) (n : Fin 4), s.live = true → (s.core n.val).halted = false →
    Runs (.debugStep (BitVec.ofNat 32 (2 ^ n.val))) s fun t =>
      t.bit Reg.DBG_STATUS 5 = true ∧ t.cores = s.cores ∧ RegsBut [Reg.DBG_STATUS] s t ∧ Keeps [.regs] s t) ∧
  (∀ (s : State), s.live = true → s.bit Reg.DBG_HALTREQ 4 = true → Runs .kleHaltRequest s fun t => t = s) ∧
  (∀ (s : State), s.live = true → s.bit Reg.DBG_HALTREQ 4 = false →
    Runs .kleHaltRequest s fun t =>
      t.bit Reg.KLE_STATUS 16 = true ∧ t.bit Reg.DBG_STATUS 4 = true ∧ t.bit Reg.DBG_HALTREQ 4 = true ∧
      (∀ m : Fin 12, t.fld (Reg.PWM_OUT m.val) 0 2 = 0) ∧ (∀ k : Fin 32, s.slotOn k.val = true → t.slotOn k.val = false) ∧
      t.cores = s.cores ∧ t.mem = s.mem)

/-- Chapters 6 and 8 (R294, R296, R297, R301, R408, R410 to R413, Tables 8-2 to 8-4): FLUSH and page walks. -/
def Obligations.FlushAndWalk : Prop :=
  (∀ (s : State) (n : Fin 4) (r : List Half) (q : List (BitVec 24)), s.issues n.val false = true → (s.core n.val).dstk = r →
    (s.core n.val).rstk = q → r.length ≤ 8 → q.length ≤ 16 → (s.core n.val).wbuf = [] → (s.core n.val).ten = false →
    (s.core n.val).sbr = BitVec.ofNat 8 (0x40 + n.val) → s.emerg n.val = false →
    2 * r.length + (s.core n.val).dslim.toNat ≤ (s.core n.val).dsp.toNat →
    4 * q.length + (s.core n.val).rslim.toNat ≤ (s.core n.val).rsp.toNat →
    (s.core n.val).dsp.toNat + 4 * q.length ≤ (s.core n.val).rsp.toNat → (s.core n.val).rsp.toNat ≤ 0x4000 →
    (s.core n.val).dsp.toNat % 2 = 0 → (s.core n.val).rsp.toNat % 4 = 0 →
    Runs (.flush n) s fun t =>
      (t.core n.val).dstk = [] ∧ (t.core n.val).rstk = [] ∧
        (t.core n.val).dsp.toNat = (s.core n.val).dsp.toNat - 2 * r.length ∧
      (t.core n.val).rsp.toNat = (s.core n.val).rsp.toNat - 4 * q.length ∧
      (∀ i : Fin 8, i.val < r.length →
        t.rdHalf (scratchBase n.val + (s.core n.val).dsp.toNat - 2 * r.length + 2 * i.val) = r.getD i.val 0) ∧
      (∀ i : Fin 16, i.val < q.length →
        t.rdWord (scratchBase n.val + (s.core n.val).rsp.toNat - 4 * q.length + 4 * i.val) = (q.getD i.val 0).setWidth 32) ∧
      (∀ p, p < scratchBase n.val ∨ scratchBase n.val + (s.core n.val).rsp.toNat ≤ p → t.rdByte p = s.rdByte p) ∧
      Keeps [.cores, .mem] s t) ∧
  (∀ (s : State) (n : Fin 4) (va : BitVec 24) (kind : Fin 3) (d b : Nat) (e : TlbEntry), s.canIssueOp n.val false = true →
    (s.core n.val).ten = true → s.coh.credits = [] → kind.val ≠ 0 ∨ va.toNat = (s.core n.val).at_ →
      (s.core n.val).wbe = none →
    tlbFind (s.core n.val).tlb (va.toNat / 65536) (va.toNat % 65536 / 4096) (s.core n.val).asid.toNat = none →
    d = (s.core n.val).dir + 4 * (va.toNat / 65536) →
      b = W.fld (s.rdWord (d / 4 * 4)) 6 26 * 64 + 4 * (va.toNat % 65536 / 4096) →
    regionOf d = some .sram → regionOf b = some .sram → s.owner (d / 32) = none → s.owner (b / 32) = none →
    s.eccAt d = 0 → s.eccAt b = 0 → W.bit (s.rdWord (d / 4 * 4)) 0 = true → W.bit (s.rdWord (b / 4 * 4)) 0 = true →
    e = pteEntry (s.rdWord (b / 4 * 4)) (va.toNat / 65536) (va.toNat % 65536 / 4096) (s.core n.val).asid.toNat →
    e.p = false → e.w = true → e.x = true → e.d = false → e.frame < 0x200 →
    Runs (.pageWalk n va kind) s fun t =>
      t.core n.val = { s.core n.val with
        tlb := tset none (s.core n.val).tlb (s.core n.val).tlbNext (some e), tlbNext := ((s.core n.val).tlbNext + 1) % 32 } ∧
      Keeps [.cores, .coh] s t) ∧
  (∀ (s : State) (n : Fin 4) (va : BitVec 24) (kind : Fin 3) (d : Nat), s.canIssueOp n.val false = true →
    (s.core n.val).ten = true → s.coh.credits = [] → kind.val ≠ 0 ∨ va.toNat = (s.core n.val).at_ →
      (s.core n.val).wbe = none →
    tlbFind (s.core n.val).tlb (va.toNat / 65536) (va.toNat % 65536 / 4096) (s.core n.val).asid.toNat = none →
    d = (s.core n.val).dir + 4 * (va.toNat / 65536) → regionOf d = some .sram → s.owner (d / 32) = none → s.eccAt d = 0 →
    W.bit (s.rdWord (d / 4 * 4)) 0 = false → (s.core n.val).rstk.length ≤ 14 →
    Runs (.pageWalk n va kind) s fun t =>
      s.entered t n.val (7 + kind.val) (s.core n.val) ∧ t.fld (Reg.XLT_PFDET n.val) 0 3 = 1 ∧
      (t.core n.val).fal = va.setWidth 16 ∧ (t.core n.val).fah.toNat = va.toNat / 65536 ∧
      RegsBut [Reg.XLT_PFDET n.val] s t ∧ Keeps [.cores, .regs, .coh] s t) ∧
  (∀ (s : State) (n : Fin 4) (va : BitVec 24) (kind : Fin 3) (d b : Nat), s.canIssueOp n.val false = true →
    (s.core n.val).ten = true → s.coh.credits = [] → kind.val ≠ 0 ∨ va.toNat = (s.core n.val).at_ →
      (s.core n.val).wbe = none →
    tlbFind (s.core n.val).tlb (va.toNat / 65536) (va.toNat % 65536 / 4096) (s.core n.val).asid.toNat = none →
    d = (s.core n.val).dir + 4 * (va.toNat / 65536) →
      b = W.fld (s.rdWord (d / 4 * 4)) 6 26 * 64 + 4 * (va.toNat % 65536 / 4096) →
    regionOf d = some .sram → regionOf b = some .sram → s.owner (d / 32) = none → s.owner (b / 32) = none →
    s.eccAt d = 0 → s.eccAt b = 0 → W.bit (s.rdWord (d / 4 * 4)) 0 = true → W.bit (s.rdWord (b / 4 * 4)) 0 = false →
    (s.core n.val).rstk.length ≤ 14 →
    Runs (.pageWalk n va kind) s fun t =>
      s.entered t n.val (7 + kind.val) (s.core n.val) ∧ t.fld (Reg.XLT_PFDET n.val) 0 3 = 2 ∧
      (t.core n.val).fal = va.setWidth 16 ∧ RegsBut [Reg.XLT_PFDET n.val] s t ∧ Keeps [.cores, .regs, .coh] s t)

/-- Chapter 8 (R80, R417 to R426, R454 to R456, Tables 8-5, 8-13, 8-14): the DMA channels. -/
def Obligations.DmaChannels : Prop :=
  (∀ (s : State) (c : Fin 16), s.live = true → s.gatedBit gDMA = false → s.dmaState c.val ≠ dmaRUN →
    s.bit (Reg.XLT_DMA_CFG c.val) 2 = false → s.fld (Reg.XLT_DMA_CFG c.val) 11 2 = 1 →
      s.fld (Reg.XLT_DMA_COUNT c.val) 0 16 ≠ 0 →
    Runs (.dmaStart c) s fun t =>
      t.dmaState c.val = dmaRUN ∧ (t.ch c.val).have_ = true ∧ (t.ch c.val).esize = 4 ∧
      (t.ch c.val).sinc = s.bit (Reg.XLT_DMA_CFG c.val) 13 ∧ (t.ch c.val).dinc = s.bit (Reg.XLT_DMA_CFG c.val) 14 ∧
      (t.ch c.val).last = true ∧ t.rd (Reg.XLT_DMA_CURSRC c.val) = s.rd (Reg.XLT_DMA_SRC c.val) ∧
      t.rd (Reg.XLT_DMA_CURDST c.val) = s.rd (Reg.XLT_DMA_DST c.val) ∧
      (t.rd (Reg.XLT_DMA_RESID c.val)).toNat = s.fld (Reg.XLT_DMA_COUNT c.val) 0 16 ∧
      t.bit (Reg.XLT_DMA_STATUS c.val) 6 = false ∧ t.fld (Reg.XLT_DMA_STATUS c.val) 8 4 = 0 ∧ Keeps [.regs, .dma] s t ∧
      RegsBut [Reg.XLT_DMA_STATUS c.val, Reg.XLT_DMA_CURSRC c.val, Reg.XLT_DMA_CURDST c.val, Reg.XLT_DMA_RESID c.val] s t) ∧
  (∀ (s : State) (c : Fin 16), s.live = true → s.gatedBit gDMA = false → s.dmaState c.val ≠ dmaRUN →
    s.bit (Reg.XLT_DMA_CFG c.val) 2 = true →
    Runs (.dmaStart c) s fun t =>
      t.dmaState c.val = dmaRUN ∧ (t.ch c.val).have_ = false ∧ RegsBut [Reg.XLT_DMA_STATUS c.val] s t ∧
        Keeps [.regs, .dma] s t) ∧
  (∀ (s : State) (c : Fin 16), s.live = true → s.gatedBit gDMA = false → s.dmaState c.val ≠ dmaRUN →
    s.bit (Reg.XLT_DMA_CFG c.val) 2 = false → s.fld (Reg.XLT_DMA_CFG c.val) 11 2 = 3 →
    Runs (.dmaStart c) s fun t =>
      t.dmaState c.val = dmaERR ∧ t.fld (Reg.XLT_DMA_STATUS c.val) 8 4 = 9 ∧ t.asserted (48 + c.val / 4) = true) ∧
  (∀ (s : State) (c : Fin 16), s.live = true → s.gatedBit gDMA = false → s.dmaState c.val = dmaRUN →
    Runs (.dmaStart c) s fun t => t.bit Reg.XLT_STATUS 2 = true ∧ RegsBut [Reg.XLT_STATUS] s t ∧ Keeps [.regs] s t) ∧
  (∀ (s : State) (c : Fin 16), s.live = true → s.gatedBit gDMA = true →
    Runs (.dmaStart c) s fun t => t.bit Reg.XLT_STATUS 31 = true ∧ RegsBut [Reg.XLT_STATUS] s t ∧ Keeps [.regs] s t) ∧
  (∀ (s : State) (c : Fin 16), s.live = true → s.dmaState c.val ≠ dmaIDLE →
    Runs (.dmaStop c) s fun t =>
      t.dmaState c.val = dmaIDLE ∧ t.bit (Reg.XLT_DMA_STATUS c.val) 5 = true ∧ t.bit (Reg.XLT_DMA_STATUS c.val) 6 = false ∧
      (t.ch c.val).heldData = [] ∧ RegsBut [Reg.XLT_DMA_STATUS c.val] s t ∧ Keeps [.regs, .dma] s t) ∧
  (∀ (s : State) (c : Fin 16), s.live = true → s.dmaState c.val = dmaIDLE →
    Runs (.dmaStop c) s (fun t => t.bit Reg.XLT_STATUS 2 = true ∧ RegsBut [Reg.XLT_STATUS] s t ∧ Keeps [.regs] s t) ∧
    Runs (.dmaResume c) s (fun t => t.bit Reg.XLT_STATUS 2 = true ∧ RegsBut [Reg.XLT_STATUS] s t ∧ Keeps [.regs] s t)) ∧
  (∀ (s : State) (c : Fin 16), s.live = true → s.dmaState c.val = dmaFAULT ∨ s.dmaState c.val = dmaERR →
    (s.ch c.val).fromMem = true → (s.ch c.val).have_ = true → s.fld (Reg.XLT_DMA_COUNT c.val) 0 16 ≠ 0 →
    Runs (.dmaResume c) s fun t =>
      t.dmaState c.val = dmaRUN ∧ (t.ch c.val).heldData = (s.ch c.val).heldData ∧
      t.rd (Reg.XLT_DMA_CURSRC c.val) = s.rd (Reg.XLT_DMA_SRC c.val) ∧
      t.rd (Reg.XLT_DMA_CURDST c.val) = s.rd (Reg.XLT_DMA_DST c.val) ∧
      (t.rd (Reg.XLT_DMA_RESID c.val)).toNat = s.fld (Reg.XLT_DMA_COUNT c.val) 0 16 ∧
        t.fld (Reg.XLT_DMA_STATUS c.val) 8 4 = 0 ∧
      Keeps [.regs, .dma] s t) ∧
  (∀ (s : State) (c : Fin 16) (dev : BusRead) (a : Nat) (m : Nat), s.dmaRuns = true → s.dmaState c.val = dmaRUN →
    (s.ch c.val).have_ = false → s.bit (Reg.XLT_DMA_CFG c.val) 0 = true →
    a = (s.rd (Reg.XLT_DMA_LINK c.val)).toNat / 16 * 16 → regionOf a = some (.scratch m) →
    W.fld (s.rdWord (a + 8)) 16 2 = 0 → W.fld (s.rdWord (a + 8)) 0 16 ≠ 0 →
    Runs (.dmaDescriptorFetch c dev) s fun t =>
      (t.ch c.val).have_ = true ∧ (t.ch c.val).esize = 2 ∧ (t.ch c.val).fromMem = true ∧
      (t.ch c.val).sinc = W.bit (s.rdWord (a + 8)) 18 ∧ (t.ch c.val).dinc = W.bit (s.rdWord (a + 8)) 19 ∧
      (t.ch c.val).irq = W.bit (s.rdWord (a + 8)) 20 ∧ (t.ch c.val).last = W.bit (s.rdWord (a + 8)) 21 ∧
      t.rd (Reg.XLT_DMA_CURSRC c.val) = s.rdWord a ∧ t.rd (Reg.XLT_DMA_CURDST c.val) = s.rdWord (a + 4) ∧
      (t.rd (Reg.XLT_DMA_RESID c.val)).toNat = W.fld (s.rdWord (a + 8)) 0 16 ∧
      t.rd (Reg.XLT_DMA_LINK c.val) = (if W.bit (s.rdWord (a + 8)) 21 then s.rd (Reg.XLT_DMA_LINK c.val)
        else s.rdWord (a + 12) &&& 0xFFFFFFF0) ∧
      t.dmaState c.val = dmaRUN ∧ Keeps [.regs, .dma] s t) ∧
  (∀ (s : State) (c : Fin 16) (dev : BusRead) (again : BitVec 2) (req : BitVec 16) (ahead : Fin 34) (src dst m k : Nat), s.dmaRuns = true → s.dmaState c.val = dmaRUN →
    (s.ch c.val).have_ = true → s.dmaGrants c.val req = true → (s.ch c.val).ahead = [] → (s.ch c.val).esize = 2 →
      s.bit (Reg.XLT_DMA_CFG c.val) 0 = true →
    s.bit (Reg.XLT_DMA_STATUS c.val) 6 = false → src = (s.rd (Reg.XLT_DMA_CURSRC c.val)).toNat →
    dst = (s.rd (Reg.XLT_DMA_CURDST c.val)).toNat → src % 2 = 0 → dst % 2 = 0 → regionOf src = some (.scratch m) →
    regionOf dst = some (.scratch k) → s.rd (Reg.XLT_DMA_RESID c.val) ≠ 1 →
    Runs (.dmaElement c dev again req ahead) s fun t =>
      t.rdHalf dst = s.rdHalf src ∧ (∀ p, p < dst ∨ dst + 2 ≤ p → t.rdByte p = s.rdByte p) ∧
      (t.rd (Reg.XLT_DMA_CURSRC c.val)).toNat = src + (if (s.ch c.val).sinc then 2 else 0) ∧
      (t.rd (Reg.XLT_DMA_CURDST c.val)).toNat = dst + (if (s.ch c.val).dinc then 2 else 0) ∧
      t.rd (Reg.XLT_DMA_RESID c.val) = s.rd (Reg.XLT_DMA_RESID c.val) - 1 ∧ t.dmaState c.val = dmaRUN ∧
      t.fld Reg.XLT_DMATALLY 0 16 =
        min 0xFFFF (s.fld Reg.XLT_DMATALLY 0 16 + (again.getLsbD 0).toNat + (again.getLsbD 1).toNat) ∧
      (t.ch c.val).have_ = true ∧ Keeps [.regs, .dma, .mem, .coh] s t) ∧
  (∀ (s : State) (c : Fin 16) (dev : BusRead) (again : BitVec 2) (req : BitVec 16) (ahead : Fin 34) (src dst m k : Nat), s.dmaRuns = true → s.dmaState c.val = dmaRUN →
    (s.ch c.val).have_ = true → s.dmaGrants c.val req = true → (s.ch c.val).ahead = [] → (s.ch c.val).esize = 2 →
      (s.ch c.val).last = true → s.bit (Reg.XLT_DMA_CFG c.val) 0 = true →
    s.bit (Reg.XLT_DMA_STATUS c.val) 6 = false → src = (s.rd (Reg.XLT_DMA_CURSRC c.val)).toNat →
    dst = (s.rd (Reg.XLT_DMA_CURDST c.val)).toNat → src % 2 = 0 → dst % 2 = 0 → regionOf src = some (.scratch m) →
    regionOf dst = some (.scratch k) → s.rd (Reg.XLT_DMA_RESID c.val) = 1 →
    Runs (.dmaElement c dev again req ahead) s fun t =>
      t.rdHalf dst = s.rdHalf src ∧ t.rd (Reg.XLT_DMA_RESID c.val) = 0 ∧ t.dmaState c.val = dmaIDLE ∧
      t.bit (Reg.XLT_DMA_STATUS c.val) 4 = true ∧ (t.ch c.val).have_ = false ∧ t.asserted (48 + c.val / 4) = true) ∧
  (∀ (s : State) (c : Fin 16) (dev : BusRead) (again : BitVec 2) (req : BitVec 16) (ahead : Fin 34) (src : Nat), s.dmaRuns = true → s.dmaState c.val = dmaRUN →
    (s.ch c.val).have_ = true → s.dmaGrants c.val req = true → (s.ch c.val).ahead = [] →
      s.bit (Reg.XLT_DMA_STATUS c.val) 6 = false →
    src = (s.rd (Reg.XLT_DMA_CURSRC c.val)).toNat → src % (s.ch c.val).esize ≠ 0 →
    Runs (.dmaElement c dev again req ahead) s fun t =>
      t.dmaState c.val = dmaERR ∧ t.fld (Reg.XLT_DMA_STATUS c.val) 8 4 = 8 ∧ t.bit (Reg.XLT_DMA_STATUS c.val) 7 = false ∧
      (t.rd (Reg.XLT_DMA_FAULTVA c.val)).toNat = src ∧ t.asserted (48 + c.val / 4) = true ∧ t.mem = s.mem) ∧
  (∀ (s : State) (val : Word), s.live = true → (∀ c : Fin 16, s.dmaState c.val ≠ dmaRUN ∧ (s.ch c.val).inv = []) →
    Runs (.dmainv val) s fun t =>
      t.bit Reg.XLT_STATUS 0 = false ∧ (W.bit val 8 = true → ∀ c : Fin 16, (t.ch c.val).tlb = []) ∧
      (∀ (c : Fin 16) (b p : Nat), tlbFind (t.ch c.val).tlb b p (W.fld val 0 6) = none) ∧
      RegsBut [Reg.XLT_STATUS] s t ∧ Keeps [.regs, .dma] s t) ∧
  (∀ (s : State) (val : Word) (c : Fin 16), s.live = true → s.dmaState c.val = dmaRUN → W.bit val 8 = false →
    Runs (.dmainv val) s fun t =>
      t.bit Reg.XLT_STATUS 0 = true ∧ (t.ch c.val).inv = (s.ch c.val).inv ++ [W.fld val 0 6] ∧
        (t.ch c.val).tlb = (s.ch c.val).tlb) ∧
  (∀ (s : State), s.live = true →
    Runs .dmainvDone s fun t =>
      t.bit Reg.XLT_STATUS 0 = false ∧ (∀ c : Fin 16, (t.ch c.val).inv = []) ∧ RegsBut [Reg.XLT_STATUS] s t ∧
      Keeps [.regs, .dma] s t)

/-- Chapter 8 (R428 to R433, R445 to R447, R461, Tables 8-7, 8-8): coherence and its maintenance. -/
def Obligations.CoherenceEvents : Prop :=
  (∀ (s : State) (n : Fin 4) (l : BitVec 16), s.live = true → s.reqOut n.val = false →
    s.lineBusy l.toNat = false → (∀ k : Fin 4, (s.line k.val l.toNat).st = .i) →
      (∀ i : Fin 8, s.eccAt (32 * l.toNat + 4 * i.val) = 0) →
    Runs (.rds n l) s (fun t =>
      t.line n.val l.toNat = ⟨.e, s.rdWords (32 * l.toNat) 8, 0⟩ ∧ tget {} t.coh.busy l.toNat = ⟨n.val, busyCycles⟩ ∧
        Keeps [.cores, .coh] s t) ∧
    Runs (.rdu n l) s (fun t =>
      t.line n.val l.toNat = ⟨.m, s.rdWords (32 * l.toNat) 8, 0⟩ ∧ (∀ k : Fin 4, k ≠ n → (t.line k.val l.toNat).st = .i) ∧
      tget {} t.coh.busy l.toNat = ⟨n.val, busyCycles⟩ ∧ Keeps [.cores, .coh] s t)) ∧
  (∀ (s : State) (n k : Fin 4) (l : BitVec 16) (d : List Word), s.live = true → s.reqOut n.val = false →
    s.reqOut k.val = false → s.lineBusy l.toNat = false → n ≠ k → d.length = 8 → s.line k.val l.toNat = ⟨.m, d, 0⟩ →
    (∀ j : Fin 4, j ≠ k → (s.line j.val l.toNat).st = .i) →
    Runs (.rds n l) s (fun t =>
      t.line n.val l.toNat = ⟨.s, d, 0⟩ ∧ t.line k.val l.toNat = ⟨.s, d, 0⟩ ∧ t.rdWords (32 * l.toNat) 8 = d ∧
      (∀ p, p < 32 * l.toNat ∨ 32 * l.toNat + 32 ≤ p → t.rdByte p = s.rdByte p) ∧ Keeps [.cores, .coh, .mem, .ecc] s t) ∧
    Runs (.rdu n l) s (fun t =>
      t.line n.val l.toNat = ⟨.m, d, 0⟩ ∧ (t.line k.val l.toNat).st = .i ∧ t.rdWords (32 * l.toNat) 8 = d ∧
      Keeps [.cores, .coh, .mem, .ecc] s t) ∧
    Runs (.wbk k l) s (fun t =>
      (t.line k.val l.toNat).st = .i ∧ t.rdWords (32 * l.toNat) 8 = d ∧
      (∀ p, p < 32 * l.toNat ∨ 32 * l.toNat + 32 ≤ p → t.rdByte p = s.rdByte p) ∧ Keeps [.cores, .coh, .mem, .ecc] s t)) ∧
  (∀ (s : State) (n : Fin 4) (l : BitVec 16), s.live = true → s.reqOut n.val = false →
    s.lineBusy l.toNat = false → (s.line n.val l.toNat).st = .s → (∀ k : Fin 4, (s.line k.val l.toNat).st ≠ .m) →
    Runs (.upg n l) s fun t =>
      t.line n.val l.toNat = { s.line n.val l.toNat with st := .m } ∧ (∀ k : Fin 4, k ≠ n → (t.line k.val l.toNat).st = .i) ∧
      Keeps [.cores, .coh] s t) ∧
  (∀ (s : State) (n : Fin 4) (l : BitVec 16), s.live = true → s.reqOut n.val = false →
    (s.line n.val l.toNat).st = .i →
    Runs (.upg n l) s fun t => t.coh.credits = s.coh.credits ++ [(n.val, CohReq.upg n.val l.toNat)] ∧ Keeps [.coh] s t) ∧
  (∀ (s : State) (n : Fin 4) (l : BitVec 16), s.live = true → s.reqOut n.val = false →
    s.lineBusy l.toNat = true →
    Runs (.rds n l) s fun t => t.coh.credits = s.coh.credits ++ [(n.val, CohReq.rds n.val l.toNat)] ∧ Keeps [.coh] s t) ∧
  (∀ (s : State) (n : Fin 4) (l : BitVec 16), s.reqOut n.val = true →
    Runs (.rds n l) s (fun t => t = s) ∧ Runs (.rdu n l) s (fun t => t = s) ∧ Runs (.upg n l) s (fun t => t = s)) ∧
  (∀ (s : State) (n : Fin 4) (l : BitVec 16), s.coreRuns n.val = true → s.mayFill n.val l.toNat = true →
    s.reqOut n.val = false →
    s.lineBusy l.toNat = false → s.owner l.toNat = none → (∀ i : Fin 8, s.eccAt (32 * l.toNat + 4 * i.val) = 0) →
    Runs (.rdo .ifill n l) s fun t =>
      tget ([], 0) (t.core n.val).icache l.toNat = (s.rdWords (32 * l.toNat) 8, 0) ∧
        (∀ k : Fin 4, (t.core k.val).dcache = (s.core k.val).dcache) ∧
      tget {} t.coh.busy l.toNat = ⟨n.val, busyCycles⟩ ∧ Keeps [.cores, .coh] s t) ∧
  (∀ (s : State) (n : Fin 4) (l : BitVec 16), s.live = true → s.reqOut 4 = false →
    s.lineBusy l.toNat = false → s.owner l.toNat = none → (∀ i : Fin 8, s.eccAt (32 * l.toNat + 4 * i.val) = 0) →
    Runs (.rdo .dma n l) s fun t => tget {} t.coh.busy l.toNat = ⟨4, busyCycles⟩ ∧ Keeps [.coh] s t) ∧
  (∀ (s : State) (p : Fin 7) (a : BitVec 21) (v : Word) (be : BitVec 4), s.live = true →
    s.reqOut p.val = false → s.lineBusy (a.toNat / 32) = false → s.eccAt a.toNat = 0 →
    (∀ k : Fin 4, (s.line k.val (a.toNat / 32)).st ≠ .m) →
    Runs (.wri p a v be) s fun t =>
      (∀ i : Fin 4, t.rdByte (a.toNat / 4 * 4 + i.val) =
        if be.getLsbD i.val then (v >>> (8 * i.val)).setWidth 8 else s.rdByte (a.toNat / 4 * 4 + i.val)) ∧
      (∀ q, q < a.toNat / 4 * 4 ∨ a.toNat / 4 * 4 + 4 ≤ q → t.rdByte q = s.rdByte q) ∧
      (∀ k : Fin 4, (t.line k.val (a.toNat / 32)).st = .i) ∧ Keeps [.cores, .coh, .mem, .ecc] s t) ∧
  (∀ (s : State) (n : Fin 4) (op : AtomicOp) (a : BitVec 21) (x cmp : Half), s.live = true → a.toNat % 2 = 0 →
    s.reqOut n.val = false → s.lineBusy (a.toNat / 32) = false → s.eccAt a.toNat = 0 →
    (∀ k : Fin 4, (s.line k.val (a.toNat / 32)).st ≠ .m) →
    Runs (.atm n op a x cmp) s fun t =>
      t.reply = .word ((s.rdHalf a.toNat).setWidth 32) ∧
      t.rdHalf a.toNat = (match op with
        | .xchg => x
        | .cas => if s.rdHalf a.toNat = cmp then x else s.rdHalf a.toNat
        | .fadd => s.rdHalf a.toNat + x) ∧
      (∀ q, q < a.toNat ∨ a.toNat + 2 ≤ q → t.rdByte q = s.rdByte q) ∧ Keeps [.cores, .coh, .mem, .ecc, .reply] s t) ∧
  (∀ (s : State) (p : Fin 7) (n : Fin 4) (l : BitVec 16) (q : List (Nat × CohReq)), s.live = true →
    s.lineBusy l.toNat = false →
    s.coh.credits = (p.val, .upg n.val l.toNat) :: q → (∀ k : Fin 4, (s.line k.val l.toNat).st = .i) →
    (∀ i : Fin 8, s.eccAt (32 * l.toNat + 4 * i.val) = 0) →
    Runs (.go p) s fun t =>
      t.line n.val l.toNat = ⟨.m, s.rdWords (32 * l.toNat) 8, 0⟩ ∧ t.coh.credits = q.filter (fun e => e.1 != p.val) ∧
      tget {} t.coh.busy l.toNat = ⟨p.val, busyCycles⟩ ∧ Keeps [.cores, .coh] s t) ∧
  (∀ (s : State) (k : Fin 5), s.live = true → s.fld Reg.XLT_LEDGER 16 3 < k.val →
    Runs (.ledgerWindow k) s fun t =>
      t.fld Reg.XLT_LEDGER 16 3 = k.val ∧ t.raised evLEDGER_DEGRADE k.val 0 ∧
      t.fld (Reg.XLT_STAGETALLY (k.val - 1)) 0 16 = min 65535 (s.fld (Reg.XLT_STAGETALLY (k.val - 1)) 0 16 + 1)) ∧
  (∀ (s : State) (k : Fin 5), s.live = true → k.val ≤ s.fld Reg.XLT_LEDGER 16 3 →
    Runs (.ledgerWindow k) s fun t =>
      t.fld Reg.XLT_LEDGER 16 3 = k.val ∧ RegsBut [Reg.XLT_LEDGER, Reg.XLT_STAGETALLY (k.val - 1)] s t ∧ Keeps [.regs] s t) ∧
  (∀ (s : State), s.live = true → s.bit Reg.XLT_CTRL 0 = true → s.ecc = [] →
    Runs .scrub s fun t => t.coh.scrubAt = (s.coh.scrubAt + 1) % 8192 ∧ Keeps [.coh] s t) ∧
  (∀ (s : State) (i : Fin 64), s.live = true → s.bit Reg.XLT_CTRL 0 = true → s.ecc = [(256 * s.coh.scrubAt + 4 * i.val, 1)] →
    (s.rd Reg.XLT_ECCTALLY).toNat < 255 →
    Runs .scrub s fun t =>
      t.eccAt (256 * s.coh.scrubAt + 4 * i.val) = 0 ∧ t.rd Reg.XLT_ECCTALLY = s.rd Reg.XLT_ECCTALLY + 1 ∧
      t.coh.scrubAt = (s.coh.scrubAt + 1) % 8192 ∧ t.mem = s.mem) ∧
  (∀ (s : State), s.live = true → s.bit Reg.XLT_CTRL 1 = false → Runs .mramMirror s (fun t => t = s)) ∧
  (∀ (s : State) (src dst : Nat), s.live = true → s.bit Reg.XLT_CTRL 1 = true → s.fld Reg.XLT_MIRCFG 0 5 = 1 →
    (s.rd Reg.XLT_MIRSRC).toNat = src → (s.rd Reg.XLT_MIRDST).toNat = dst → src % 4 = 0 → dst % 4 = 0 → 0x03000000 ≤ src →
    src + 4096 ≤ 0x03080000 → dst + 4096 ≤ 0x200000 → s.ecc = [] → s.coh.credits = [] →
      (∀ k : Fin 4, (s.core k.val).dcache = []) →
    Runs .mramMirror s fun t =>
      (∀ i : Fin 1024, t.rdWord (dst + 4 * i.val) = s.rdWord (src + 4 * i.val)) ∧
      (∀ q, q < dst ∨ dst + 4096 ≤ q → t.rdByte q = s.rdByte q) ∧ Keeps [.mem, .ecc, .cores, .coh] s t)

/-- Chapter 9 (R468, R471, R472, R475, R478, R481, R483, R484, R486, R488 to R492, R498, R501, R505, R506): the cell pool. -/
def Obligations.CellPool : Prop :=
  (∀ (s : State) (p : Fin 7) (q tag : Fin 64) (d : Half) (x : PoolQ), s.live = true → s.poolTurn p.val = true →
    s.poolProof = false →
    (s.pport p.val).fifo = [⟨q.val, tag.val, d⟩] → s.qEn q.val = true → s.qRelBusy q.val = false → s.qItemLen q.val = 1 →
    s.pq q.val = x → x.cells ≠ 0 → x.tailPos < 7 → s.qDepth q.val < 65535 →
      s.qDepth q.val + 1 ≠ max 1 (s.fld (Reg.POOL_QNOT q.val) 16 16) →
    Runs (.poolPush p) s fun t =>
      (t.pport p.val).fifo = [] ∧ t.pq q.val = { x with tailPos := x.tailPos + 1 } ∧
      (t.rdWord (cellAddr x.tail x.tailPos)).toNat = 2 ^ 31 + tag.val * 2 ^ 24 + s.qSeq q.val * 2 ^ 16 + d.toNat ∧
      (∀ a, a < cellAddr x.tail x.tailPos ∨ cellAddr x.tail x.tailPos + 4 ≤ a → t.rdByte a = s.rdByte a) ∧
      t.qDepth q.val = s.qDepth q.val + 1 ∧ t.qSeq q.val = (s.qSeq q.val + 1) % 256 ∧
      RegsBut [Reg.POOL_QSTAT q.val, Reg.POOL_HSTAT] s t ∧ Keeps [.regs, .mem, .ecc, .pool] s t) ∧
  (∀ (s : State) (p : Fin 7) (q tag : Fin 64) (d : Half) (x : PoolQ), s.live = true → s.poolTurn p.val = true →
    s.poolProof = false →
    (s.pport p.val).fifo = [⟨q.val, tag.val, d⟩] → s.qEn q.val = true → s.qRelBusy q.val = false → s.qItemLen q.val = 1 →
    s.pq q.val = x → x.cells ≠ 0 → x.tailPos < 7 → s.qDepth q.val + 1 = max 1 (s.fld (Reg.POOL_QNOT q.val) 16 16) →
    s.qDepth q.val < 65535 → s.bit (Reg.POOL_QNOT q.val) 3 = true →
    Runs (.poolPush p) s fun t =>
      t.qDepth q.val = s.qDepth q.val + 1 ∧ t.asserted (40 + s.fld (Reg.POOL_QNOT q.val) 0 3) = true) ∧
  (∀ (s : State) (p : Fin 7) (q tag : Fin 64) (d : Half) (c : Nat), s.live = true → s.poolTurn p.val = true →
    s.poolProof = false →
    (s.pport p.val).fifo = [⟨q.val, tag.val, d⟩] → s.qEn q.val = true → s.qRelBusy q.val = false → s.qItemLen q.val = 1 →
    (s.pq q.val).cells = 0 → s.canGrant q.val 0 (s.fld Reg.POOL_FREE 0 14) = true → c = s.freeHead →
    c < poolCells → s.eccAt (cellAddr c 7) ≠ 2 →
    Runs (.poolPush p) s fun t =>
      (t.pq q.val).cells = 1 ∧ (t.pq q.val).head = c ∧ (t.pq q.val).tail = c ∧ (t.pq q.val).tailPos = 1 ∧
      tget 0 t.pool.owner c = q.val + 1 ∧ t.fld Reg.POOL_FREE 0 14 = s.fld Reg.POOL_FREE 0 14 - 1 ∧
      (t.rdWord (cellAddr c 0)).toNat = 2 ^ 31 + tag.val * 2 ^ 24 + s.qSeq q.val * 2 ^ 16 + d.toNat) ∧
  (∀ (s : State) (p : Fin 7) (q tag : Fin 64) (d : Half) (x : PoolQ), s.live = true → s.poolTurn p.val = true →
    s.poolProof = false →
    (s.pport p.val).fifo = [⟨q.val, tag.val, d⟩] → s.qEn q.val = true → s.qRelBusy q.val = false → s.qItemLen q.val = 1 →
    s.roomFor q.val 1 = false → s.bit (Reg.POOL_QCFG q.val) 1 = false → s.pq q.val = x →
    Runs (.poolPush p) s fun t =>
      t.bit (Reg.POOL_QSTAT q.val) 24 = true ∧ t.qDepth q.val = s.qDepth q.val ∧ t.qSeq q.val = (s.qSeq q.val + 1) % 256 ∧
      t.fld (Reg.POOL_QTALLY q.val) 0 16 = min 65535 (s.fld (Reg.POOL_QTALLY q.val) 0 16 + 1) ∧ t.pq q.val = x ∧
        t.mem = s.mem) ∧
  (∀ (s : State) (p : Fin 7) (q tag : Fin 64) (d : Half), s.live = true → s.poolTurn p.val = true → s.poolProof = false →
    (s.pport p.val).fifo = [⟨q.val, tag.val, d⟩] → s.qEn q.val = true → 1 < s.qItemLen q.val →
    Runs (.poolPush p) s fun t => t = s) ∧
  (∀ (s : State) (p : Fin 7) (q : Fin 64) (x : PoolQ), s.live = true → s.poolTurn p.val = true → s.poolProof = false →
    p.val ≠ 6 →
    (s.pport p.val).req = some (q.val, 0) → s.qEn q.val = true → s.qRelBusy q.val = false → 1 < s.qDepth q.val →
      s.pq q.val = x →
    x.headPos < 6 → s.eccAt (cellAddr x.head x.headPos) = 0 →
    Runs (.poolPop p) s fun t =>
      (t.pport p.val).rep = some (s.rdWord (cellAddr x.head x.headPos)) ∧ (t.pport p.val).req = none ∧
      (t.pq q.val).headPos = x.headPos + 1 ∧ (t.pq q.val).cells = x.cells ∧ t.qDepth q.val = s.qDepth q.val - 1 ∧
      RegsBut [Reg.POOL_QSTAT q.val] s t ∧ Keeps [.regs, .pool] s t) ∧
  (∀ (s : State) (p : Fin 7) (q : Fin 64) (x : PoolQ), s.live = true → s.poolTurn p.val = true → s.poolProof = false →
    p.val ≠ 6 →
    (s.pport p.val).req = some (q.val, 0) → s.qEn q.val = true → s.qRelBusy q.val = false → s.qDepth q.val = 1 →
      s.pq q.val = x →
    x.cells = 1 → s.fld Reg.POOL_FREE 0 14 < 8192 → s.eccAt (cellAddr x.head x.headPos) = 0 →
    Runs (.poolPop p) s fun t =>
      (t.pport p.val).rep = some (s.rdWord (cellAddr x.head x.headPos)) ∧ (t.pq q.val).cells = 0 ∧ t.qDepth q.val = 0 ∧
      tget 0 t.pool.owner x.head = 0 ∧ t.fld Reg.POOL_FREE 0 14 = s.fld Reg.POOL_FREE 0 14 + 1 ∧ t.mem = s.mem) ∧
  (∀ (s : State) (p : Fin 7) (q : Fin 64), s.live = true → s.poolTurn p.val = true → p.val ≠ 6 →
    (s.pport p.val).req = some (q.val, 0) →
    s.qDepth q.val = 0 ∨ s.qEn q.val = false →
    Runs (.poolPop p) s fun t =>
      (t.pport p.val).rep = some (BitVec.ofNat 32 (0x3F000000 + s.qSeq q.val * 2 ^ 16)) ∧ (t.pport p.val).req = none ∧
        Keeps [.pool] s t) ∧
  (∀ (s : State) (val : Word), s.hostReg Reg.POOL_HQPUSH = true → (s.pport 6).fifo = [] → s.portFlag 6 0 = (false, s) →
    Runs (.hqpush val) s fun t =>
      (t.pport 6).fifo = [⟨W.fld val 24 6, W.fld val 16 6, val.setWidth 16⟩] ∧ t.fld Reg.POOL_HSTAT 0 4 = 7 ∧
      RegsBut [Reg.POOL_HSTAT] s t ∧ Keeps [.regs, .pool] s t) ∧
  (∀ (s : State) (val : Word), s.hostReg Reg.POOL_HQPUSH = true → 8 ≤ (s.pport 6).fifo.length →
    Runs (.hqpush val) s fun t =>
      t.pool = s.pool ∧ t.bit Reg.POOL_HSTAT 8 = true ∧
      t.fld (Reg.POOL_FULLTALLY 6) 0 16 = min 65535 (s.fld (Reg.POOL_FULLTALLY 6) 0 16 + 1) ∧
      RegsBut [Reg.POOL_HSTAT, Reg.POOL_FULLTALLY 6] s t) ∧
  (∀ (s : State) (q : Fin 64), s.linkServes = true → s.memServed = true → s.regServed .host (Reg.POOL_HPOP q.val) = true →
    (s.pport 6).fifo = [] → (s.pport 6).req = none →
    s.poolTurn 6 = true → s.qDepth q.val = 0 ∨ s.qEn q.val = false →
    Runs (.hpop q .good) s fun t => t.reply = .word (BitVec.ofNat 32 (0x3F000000 + s.qSeq q.val * 2 ^ 16)) ∧
      t.qDepth q.val = s.qDepth q.val) ∧
  (∀ (s : State) (q : Fin 64) (x : PoolQ), s.linkServes = true → s.memServed = true →
    s.regServed .host (Reg.POOL_HPOP q.val) = true → s.poolProof = false → (s.pport 6).fifo = [] → (s.pport 6).req = none →
    (s.pport 6).more = [] → s.poolTurn 6 = true → s.qEn q.val = true → s.qRelBusy q.val = false → 1 < s.qDepth q.val →
      s.pq q.val = x → x.headPos < 6 →
    s.eccAt (cellAddr x.head x.headPos) = 0 →
    Runs (.hpop q .good) s fun t =>
      t.reply = .word (s.rdWord (cellAddr x.head x.headPos)) ∧ (t.pport 6).req = none ∧ t.qDepth q.val = s.qDepth q.val - 1) ∧
  (∀ (s : State) (q : Fin 64) (val : Word), s.live = true → s.bit (Reg.POOL_QCFG q.val) 0 = false → s.qRelBusy q.val = false →
    W.bit val 0 = true → s.fld Reg.POOL_RESSUM 0 14 + s.qReserve q.val ≤ 8192 →
    Runs (.qcfgWrite q val) s fun t =>
      t.qEn q.val = true ∧ t.fld (Reg.POOL_QCFG q.val) 1 4 = W.fld val 1 4 ∧ t.qDepth q.val = 0 ∧ t.qSeq q.val = 0 ∧
      t.fld Reg.POOL_RESSUM 0 14 = s.fld Reg.POOL_RESSUM 0 14 + s.qReserve q.val ∧ (t.pq q.val).popSeq = 255 ∧
      RegsBut [Reg.POOL_QCFG q.val, Reg.POOL_QSTAT q.val, Reg.POOL_RESSUM] s t ∧ Keeps [.regs, .pool] s t) ∧
  (∀ (s : State) (q : Fin 64) (val : Word), s.live = true → s.bit (Reg.POOL_QCFG q.val) 0 = false → s.qRelBusy q.val = false →
    W.bit val 0 = true → 8192 < s.fld Reg.POOL_RESSUM 0 14 + s.qReserve q.val →
    Runs (.qcfgWrite q val) s fun t => t.bit Reg.POOL_STATUS 2 = true ∧ RegsBut [Reg.POOL_STATUS] s t ∧ Keeps [.regs] s t) ∧
  (∀ (s : State) (q : Fin 64) (val : Word), s.live = true → s.bit (Reg.POOL_QCFG q.val) 0 = true →
    s.fld (Reg.POOL_QCFG q.val) 1 4 ≠ W.fld val 1 4 →
    Runs (.qcfgWrite q val) s fun t => t.bit Reg.POOL_STATUS 31 = true ∧ RegsBut [Reg.POOL_STATUS] s t ∧ Keeps [.regs] s t) ∧
  (∀ (s : State) (q : Fin 64) (val : Word), s.live = true → s.bit (Reg.POOL_QCFG q.val) 0 = true →
    s.fld (Reg.POOL_QCFG q.val) 1 4 = W.fld val 1 4 → W.bit val 0 = false → (s.pq q.val).cells ≠ 0 →
    Runs (.qcfgWrite q val) s fun t =>
      t.qEn q.val = false ∧ t.qRelBusy q.val = true ∧ t.qDepth q.val = 0 ∧
      t.fld Reg.POOL_RESSUM 0 14 = s.fld Reg.POOL_RESSUM 0 14 - s.qReserve q.val ∧ Keeps [.regs] s t) ∧
  (∀ (s : State) (q : Fin 64) (c : Nat), s.live = true → s.poolTurn 7 = true → s.qRelBusy q.val = true →
    s.fld Reg.POOL_FREE 0 14 < 8192 →
    ownedFrom s.pool.owner q.val 0 poolCells = some c → ownedFrom s.pool.owner q.val (c + 1) (poolCells - (c + 1)) = none →
    Runs (.cellRelease q) s fun t =>
      tget 0 t.pool.owner c = 0 ∧ t.fld Reg.POOL_FREE 0 14 = s.fld Reg.POOL_FREE 0 14 + 1 ∧ (t.pq q.val).cells = 0 ∧
      t.qRelBusy q.val = false ∧ Keeps [.regs, .pool] s t) ∧
  (∀ (s : State) (q : Fin 64) (c d : Nat), s.live = true → s.poolTurn 7 = true → s.qRelBusy q.val = true →
    ownedFrom s.pool.owner q.val 0 poolCells = some c → ownedFrom s.pool.owner q.val (c + 1) (poolCells - (c + 1)) = some d →
    Runs (.cellRelease q) s fun t =>
      tget 0 t.pool.owner c = 0 ∧ (t.pq q.val).cells = (s.pq q.val).cells - 1 ∧ t.qRelBusy q.val = true ∧
      RegsBut [Reg.POOL_FREE] s t ∧ Keeps [.regs, .pool] s t) ∧
  (∀ (s : State), s.live = true → s.bit Reg.POOL_STATUS 0 = false →
    Runs .freeListRebuild s fun t => t.bit Reg.POOL_STATUS 0 = true ∧ RegsBut [Reg.POOL_STATUS] s t ∧ Keeps [.regs] s t) ∧
  (∀ (s : State), s.live = true → s.bit Reg.POOL_STATUS 0 = true → s.pool.owner.length ≤ poolCells →
    Runs .freeListRebuild s fun t =>
      t.bit Reg.POOL_STATUS 0 = false ∧ t.fld Reg.POOL_FREE 0 14 = poolCells - s.pool.owner.length ∧
      RegsBut [Reg.POOL_STATUS, Reg.POOL_FREE] s t ∧ Keeps [.regs, .ecc, .pool] s t) ∧
  (∀ (s : State), s.live = true → s.poolTurn 7 = true → s.bit Reg.POOL_CTRL 0 = true → s.ecc = [] →
    Runs .poolScrub s fun t => t.pool.scrubAt = (s.pool.scrubAt + 1) % 8192 ∧ Keeps [.pool] s t) ∧
  (∀ (s : State) (i : Fin 8), s.live = true → s.poolTurn 7 = true → s.bit Reg.POOL_CTRL 0 = true →
    s.ecc = [(cellAddr s.pool.scrubAt i.val, 1)] →
    (s.rd Reg.POOL_ECCTALLY).toNat < 255 →
    Runs .poolScrub s fun t =>
      t.eccAt (cellAddr s.pool.scrubAt i.val) = 0 ∧ t.rd Reg.POOL_ECCTALLY = s.rd Reg.POOL_ECCTALLY + 1 ∧ t.mem = s.mem) ∧
  (∀ (s : State) (off : BitVec 18) (val : Word), s.live = true → s.bit Reg.POOL_CTRL 1 = true →
    Runs (.rawViewWrite off val) s fun t =>
      t.rdWord (0x02000000 + off.toNat / 4 * 4) = val ∧ t.reply = .none ∧
      (∀ a, a < 0x02000000 + off.toNat / 4 * 4 ∨ 0x02000000 + off.toNat / 4 * 4 + 4 ≤ a → t.rdByte a = s.rdByte a) ∧
      Keeps [.mem, .ecc, .reply] s t) ∧
  (∀ (s : State) (off : BitVec 18) (val : Word), s.live = true → s.bit Reg.POOL_CTRL 1 = false →
    Runs (.rawViewWrite off val) s fun t => t.reply = .busError 0 ∧ Keeps [.reply] s t) ∧
  (∀ (s : State) (p : Fin 7), s.poolTurn p.val = false →
    Runs (.poolPush p) s (fun t => t = s) ∧ Runs (.poolPop p) s (fun t => t = s)) ∧
  (∀ (s : State) (q : Fin 64), s.poolTurn 7 = false →
    Runs (.cellRelease q) s (fun t => t = s) ∧ Runs .poolScrub s (fun t => t = s))

/-- Chapter 10 (R511, R512, R515 to R520, R522, R536 to R539, R544, R545): the ADCs. -/
def Obligations.AdcEvents : Prop :=
  (∀ (s : State) (val : Word) (n j : Fin 4), s.runs gADC = true → W.bit val n.val = true →
    s.seqTakes n.val j.val 0x30 = true →
    (s.ad n.val).fired = 0 →
    Runs (.adcSwtrig val) s fun t => (t.ad n.val).fired.testBit j.val = true ∧ t.mem = s.mem) ∧
  (∀ (s : State) (val : Word) (n : Fin 4), W.bit val n.val = false →
    Runs (.adcSwtrig val) s fun t => t.ad n.val = s.ad n.val ∧ Keeps [.adc, .regs] s t) ∧
  (∀ (s : State) (n j : Fin 4) (code : BitVec 7) (ready : Bool), s.runs gADC = true → (s.ad n.val).fired = 2 ^ j.val →
    s.fld (Reg.ADC_SEQ n.val j.val) 0 7 = code.toNat → (s.ad n.val).pend = 0 → (s.ad n.val).run = [] → (s.ad n.val).late = 0 →
    (s.ad n.val).step = none →
    Runs (.adcTrigger n j code ready) s fun t =>
      t.ad n.val = { s.ad n.val with fired := 0, pend := 2 ^ j.val, late := if ready then 0 else 2 ^ j.val } ∧
        Keeps [.adc] s t) ∧
  (∀ (s : State) (n j : Fin 4) (code : BitVec 7) (ready : Bool), s.runs gADC = true → (s.ad n.val).fired = 2 ^ j.val →
    s.fld (Reg.ADC_SEQ n.val j.val) 0 7 = code.toNat → (s.ad n.val).pend.testBit j.val = true →
    Runs (.adcTrigger n j code ready) s fun t =>
      t.ad n.val = { s.ad n.val with fired := 0 } ∧
      t.fld (Reg.ADC_TRIGLATETALLY n.val) 0 16 = min 65535 (s.fld (Reg.ADC_TRIGLATETALLY n.val) 0 16 + 1) ∧
      RegsBut [Reg.ADC_TRIGLATETALLY n.val] s t ∧ Keeps [.adc, .regs] s t) ∧
  (∀ (s : State) (n j : Fin 4), s.runs gADC = true → s.bit Reg.ADC_CTRL n.val = true → (s.ad n.val).step = none →
    (s.ad n.val).pend = 2 ^ j.val → (s.ad n.val).late = 0 → (s.ad n.val).run = [] → (s.ad n.val).coef = none →
    (s.ad n.val).last = none →
    Runs (.adcSample n) s fun t =>
      (t.ad n.val).step =
        some { seq := j.val, slot := s.fld (Reg.ADC_SEQ n.val j.val) 8 4, conv := true, at_ := s.clk.tb.toNat } ∧
      (t.ad n.val).pend = 0 ∧ tget 0 (t.ad n.val).run j.val = 1 ∧ Keeps [.adc] s t) ∧
  (∀ (s : State) (n j : Fin 4) (off gain : Word), s.runs gADC = true → s.bit Reg.ADC_CTRL n.val = true →
    (s.ad n.val).step = none → (s.ad n.val).pend = 2 ^ j.val → (s.ad n.val).late = 2 ^ j.val → (s.ad n.val).run = [] →
    (s.ad n.val).coef = some (off, gain) →
    Runs (.adcSample n) s fun t =>
      (t.ad n.val).step =
        some { seq := j.val, slot := s.fld (Reg.ADC_SEQ n.val j.val) 8 4, late := true, conv := true, at_ := s.clk.tb.toNat } ∧
      t.rd (Reg.ADC_CALOFF n.val) = off ∧ t.rd (Reg.ADC_CALGAIN n.val) = gain ∧ (t.ad n.val).coef = none ∧
      t.bit Reg.ADC_STATUS (4 + n.val) = true) ∧
  (∀ (s : State) (n : Fin 4) (st : AdcStep), s.runs gADC = true → s.bit Reg.ADC_CTRL n.val = true →
    (s.ad n.val).step = some st → st.conv = false →
    Runs (.adcSample n) s fun t => t.ad n.val = { s.ad n.val with step := some { st with conv := true } } ∧
      Keeps [.adc] s t) ∧
  (∀ (s : State) (n : Fin 4) (code : BitVec 16) (st : AdcStep), s.runs gADC = true → (s.ad n.val).step = some st →
    st.conv = true →
    st.cnt + 1 < 2 ^ s.stepOvs n.val st.slot →
    Runs (.adcConversionEnd n code) s fun t =>
      t.ad n.val = { s.ad n.val with step := some { st with sum := st.sum + code.toNat, cnt := st.cnt + 1, conv := false } } ∧
      Keeps [.adc] s t) ∧
  (∀ (s : State) (n j : Fin 4) (k : Fin 16) (code : BitVec 16), s.runs gADC = true →
    (s.ad n.val).step = some { seq := j.val, slot := k.val, conv := true } → s.fld (Reg.ADC_STEP n.val k.val) 4 7 = 0x20 →
    (s.ad n.val).fifo.length < 15 → (s.ad n.val).fifo.length + 1 ≠ s.adcThresh n.val →
    tget 0 (s.ad n.val).run j.val = 1 → 0 < s.fld (Reg.ADC_SEQ n.val j.val) 12 4 →
    Runs (.adcConversionEnd n code) s fun t =>
      (t.ad n.val).fifo = (s.ad n.val).fifo ++ [BitVec.ofNat 32 (code.toNat + k.val * 2 ^ 16 + 2 ^ 31)] ∧
      (t.ad n.val).step = none ∧ tget 0 (t.ad n.val).run j.val = 2 ∧ Keeps [.adc] s t) ∧
  (∀ (s : State) (n j : Fin 4) (k : Fin 16) (code : BitVec 16), s.runs gADC = true →
    (s.ad n.val).step = some { seq := j.val, slot := k.val, sum := 1000, cnt := 1, late := true, conv := true } →
    s.fld (Reg.ADC_STEP n.val k.val) 4 7 = 0x21 → (s.ad n.val).fifo.length < 16 →
    (s.ad n.val).fifo.length + 1 = s.adcThresh n.val →
      tget 0 (s.ad n.val).run j.val = s.fld (Reg.ADC_SEQ n.val j.val) 12 4 + 1 →
    Runs (.adcConversionEnd n code) s fun t =>
      (t.ad n.val).fifo = (s.ad n.val).fifo ++ [BitVec.ofNat 32 ((1000 + code.toNat + 1) / 2 + k.val * 2 ^ 16 + 2 ^ 30 + 2 ^ 31)] ∧
      (t.ad n.val).step = none ∧ tget 0 (t.ad n.val).run j.val = 0 ∧ t.asserted (28 + n.val) = true) ∧
  (∀ (s : State) (n j : Fin 4) (k : Fin 16) (code : BitVec 16), s.runs gADC = true →
    (s.ad n.val).step = some { seq := j.val, slot := k.val, conv := true } → s.fld (Reg.ADC_STEP n.val k.val) 4 7 = 0x20 →
    (s.ad n.val).fifo.length = 16 →
    Runs (.adcConversionEnd n code) s fun t =>
      (t.ad n.val).fifo = (s.ad n.val).fifo ∧ t.bit Reg.ADC_STATUS (8 + n.val) = true ∧
      t.fld (Reg.ADC_FIFODROP n.val) 0 16 = min 65535 (s.fld (Reg.ADC_FIFODROP n.val) 0 16 + 1)) ∧
  (∀ (s : State) (n j : Fin 4) (k : Fin 16) (code : BitVec 16), s.runs gADC = true →
    (s.ad n.val).step = some { seq := j.val, slot := k.val, conv := true } → s.fld (Reg.ADC_STEP n.val k.val) 4 7 = 0x08 →
    Runs (.adcConversionEnd n code) s fun t =>
      t.latch (s.fld (Reg.ADC_STEP n.val k.val) 16 5) (s.fld (Reg.ADC_STEP n.val k.val) 24 6) =
        some (F32.fma (s.rd (Reg.ADC_GAIN n.val k.val)) (F32.roundInt code.toNat 0 false).1 (s.rd (Reg.ADC_OFF n.val k.val))).1 ∧
      (s.latch (s.fld (Reg.ADC_STEP n.val k.val) 16 5) (s.fld (Reg.ADC_STEP n.val k.val) 24 6) ≠ none →
        t.fld (Reg.ADC_OVWRTALLY n.val) 0 16 = min 65535 (s.fld (Reg.ADC_OVWRTALLY n.val) 0 16 + 1))) ∧
  (∀ (s : State) (n : Fin 4), s.linkServes = true → s.memServed = true → s.regServed .host (Reg.ADC_FIFO n.val) = true →
    Runs (.adcFifoRead n false .good) s (fun t =>
      t.reply = .word ((s.ad n.val).fifo.headD 0) ∧ (t.ad n.val).fifo = (s.ad n.val).fifo.tail ∧ Keeps [.adc, .reply] s t) ∧
    ((s.ad n.val).fifo.length ≤ 1 → Runs (.adcFifoRead n true .good) s (fun t => t = { s with reply := .word 0 }))) ∧
  (∀ (s : State) (n : Fin 4) (c : AdcCal) (off gain : Word), s.runs gADC = true → (s.ad n.val).cal = some c → c.steps = 511 →
    (s.ad n.val).step = none →
    s.hif.cmd = none →
    Runs (.adcCalibrationStep n false off gain) s fun t =>
      (t.ad n.val).cal = none ∧ (t.ad n.val).coef = some (off, gain) ∧ t.bit Reg.ADC_STATUS n.val = false ∧
      RegsBut [Reg.ADC_STATUS] s t ∧ Keeps [.adc, .regs] s t) ∧
  (∀ (s : State) (n : Fin 4) (c : AdcCal) (off gain : Word), s.runs gADC = true → (s.ad n.val).cal = some c →
    c.windows = 4095 →
    c.steps < 511 → s.bit Reg.ADC_CTRL n.val = true → (s.ad n.val).step = none → (s.ad n.val).pend ≠ 0 →
      (s.ad n.val).pend < 16 →
    s.hif.cmd = none →
    Runs (.adcCalibrationStep n true off gain) s fun t =>
      (t.ad n.val).cal = none ∧ (t.ad n.val).step.any (·.conv) = true ∧ t.bit Reg.ADC_STATUS n.val = false ∧
        Keeps [.adc, .regs] s t) ∧
  (∀ (s : State) (n : Fin 4) (c : AdcCal) (aborted : Bool) (off gain : Word), s.runs gADC = true → (s.ad n.val).cal = some c →
    c.windows < 4095 → c.steps < 511 → (s.ad n.val).step = none → aborted = false ∨ s.adcSampleDue n.val = false →
    Runs (.adcCalibrationStep n aborted off gain) s fun t =>
      (t.ad n.val).cal = some ⟨c.windows + 1, c.steps + 1⟩ ∧ Keeps [.adc] s t) ∧
  (∀ (s : State) (n j : Fin 4) (c : AdcCal) (off gain : Word), s.runs gADC = true → (s.ad n.val).cal = some c →
    c.windows < 4095 → c.steps < 511 → s.bit Reg.ADC_CTRL n.val = true → (s.ad n.val).step = none →
    (s.ad n.val).pend = 2 ^ j.val → (s.ad n.val).late = 0 → (s.ad n.val).run = [] → (s.ad n.val).coef = none →
    (s.ad n.val).last = none →
    Runs (.adcCalibrationStep n true off gain) s fun t =>
      (t.ad n.val).cal = some ⟨c.windows + 1, c.steps⟩ ∧
      (t.ad n.val).step =
        some { seq := j.val, slot := s.fld (Reg.ADC_SEQ n.val j.val) 8 4, conv := true, at_ := s.clk.tb.toNat } ∧
      (t.ad n.val).pend = 0 ∧ Keeps [.adc] s t) ∧
  (∀ (s : State) (val : Word) (n : Fin 4), s.live = true → s.gatedBit gADC = false → W.bit val n.val = true →
    (s.ad n.val).proof = none →
    Runs (.adcProof val) s fun t =>
      (t.ad n.val).proof = some {} ∧ t.bit Reg.ADC_PROOFSTAT n.val = true ∧ t.bit Reg.ADC_PROOFSTAT (4 + n.val) = false ∧
      RegsBut [Reg.ADC_PROOFSTAT] s t ∧ Keeps [.adc, .regs] s t) ∧
  (∀ (s : State) (val : Word), s.live = true → s.gatedBit gADC = true → W.fld val 0 4 ≠ 0 →
    Runs (.adcProof val) s fun t => t.bit Reg.ADC_STATUS 31 = true ∧ t.adc = s.adc) ∧
  (∀ (s : State) (n : Fin 4) (code : BitVec 16) (p : AdcProof), s.runs gADC = true → (s.ad n.val).cal = none →
    (s.ad n.val).proof = some p → (s.ad n.val).step = none → p.made = 127 →
    Runs (.adcProofConversion n (some code)) s fun t =>
      (t.ad n.val).proof = none ∧ t.bit Reg.ADC_PROOFSTAT n.val = false ∧
      t.bit Reg.ADC_PROOFSTAT (4 + n.val) = (p.good && decide (code.toNat ≤ s.fld Reg.ADC_PROOFSTAT 16 8)) ∧
      RegsBut [Reg.ADC_PROOFSTAT] s t ∧ Keeps [.adc, .regs] s t) ∧
  (∀ (s : State) (n : Fin 4) (code : BitVec 16) (p : AdcProof), s.runs gADC = true → (s.ad n.val).cal = none →
    (s.ad n.val).proof = some p → (s.ad n.val).step = none → p.made < 64 → p.windows < 4095 →
    Runs (.adcProofConversion n (some code)) s fun t =>
      (t.ad n.val).proof = some ⟨p.windows + 1, p.made + 1, p.good && decide (code.toNat ≤ 0x8000 + s.fld Reg.ADC_PROOFSTAT 16 8) &&
        decide (0x8000 ≤ code.toNat + s.fld Reg.ADC_PROOFSTAT 16 8)⟩ ∧ Keeps [.adc] s t) ∧
  (∀ (s : State) (n : Fin 4) (p : AdcProof), s.runs gADC = true → (s.ad n.val).cal = none → (s.ad n.val).proof = some p →
    s.bit Reg.ADC_CTRL n.val = true → (s.ad n.val).step = none → (s.ad n.val).pend ≠ 0 → (s.ad n.val).pend < 16 →
    p.made < 128 → p.windows = 4095 →
    Runs (.adcProofConversion n none) s fun t =>
      (t.ad n.val).proof = none ∧ t.bit Reg.ADC_PROOFSTAT (4 + n.val) = false ∧ t.bit Reg.ADC_PROOFSTAT (8 + n.val) = true ∧
      Keeps [.adc, .regs] s t)

/-- Chapter 10 (R526 to R528, R530, R531, R533, R534, R540, R552): sigma-delta inputs and comparators. -/
def Obligations.FilterAndComparatorEvents : Prop :=
  (∀ (s : State) (n : Fin 8) (clocks : Nat) (bits : List Bool) (sum v : Int), s.runs gSDF = true →
    s.bit (Reg.SDF_SDCFG n.val) 0 = true →
    clocks = (s.sdu n.val).base + s.fld (Reg.SDF_SDFILT n.val) 0 9 →
    sum = sinc3 (s.fld (Reg.SDF_SDFILT n.val) 0 9) bits → v = sum / 2 ^ s.fld (Reg.SDF_SDFILT n.val) 9 4 →
      s.fld (Reg.SDF_SDROUTE n.val) 7 4 = 0 →
    Runs (.sinc3Result n clocks bits) s fun t =>
      t.fld (Reg.SDF_SDLAST n.val) 0 16 = (BitVec.ofInt 16 (max (-32768) (min 32767 v))).toNat ∧
      (t.sdu n.val).base = clocks ∧ (v < -32768 ∨ 32767 < v → t.bit Reg.SDF_STATUS n.val = true ∧ t.asserted 32 = true) ∧
      (-32768 ≤ v → v ≤ 32767 → RegsBut [Reg.SDF_SDLAST n.val] s t) ∧ Keeps [.sd, .regs] s t) ∧
  (∀ (s : State) (n : Fin 8) (clocks : Nat) (bits : List Bool) (v : Half), s.runs gSDF = true →
    s.bit (Reg.SDF_SDCFG n.val) 0 = true →
    clocks = (s.sdu n.val).base + s.fld (Reg.SDF_SDFILT n.val) 0 9 →
    s.fld (Reg.SDF_SDFILT n.val) 9 4 = 0 → s.fld (Reg.SDF_SDROUTE n.val) 7 4 = 1 →
    sinc3 (s.fld (Reg.SDF_SDFILT n.val) 0 9) bits = v.toInt →
    Runs (.sinc3Result n clocks bits) s fun t =>
      t.latch (s.fld (Reg.SDF_SDROUTE n.val) 16 5) (s.fld (Reg.SDF_SDROUTE n.val) 24 6) =
        some (F32.fma (s.rd (Reg.SDF_SDGAIN n.val)) (F32.roundInt v.toInt 0 false).1 (s.rd (Reg.SDF_SDOFF n.val))).1) ∧
  (∀ (s : State) (n : Fin 8) (clocks : Nat) (bits : List Bool), clocks ≠ (s.sdu n.val).base + s.fld (Reg.SDF_SDFILT n.val) 0 9 →
    Runs (.sinc3Result n clocks bits) s fun t => t = s) ∧
  (∀ (s : State) (n : Fin 8) (clocks : Nat), s.runs gSDF = true → (s.sdu n.val).fired = true →
    Runs (.sdSync n clocks) s fun t => t.sdu n.val = { s.sdu n.val with fired := false, base := clocks + 1 } ∧
      Keeps [.sd] s t) ∧
  (∀ (s : State) (n : Fin 8) (val : Word), s.runs gSDF = true → s.bit (Reg.SDF_SDCFG n.val) 0 = true →
    s.fld (Reg.SDF_SDCFG n.val) 8 7 = 0x30 → W.bit val n.val = true →
    Runs (.swsync val) s fun t => (t.sdu n.val).fired = true ∧ Keeps [.sd] s t) ∧
  (∀ (s : State) (n : Fin 8) (val : Word), W.bit val n.val = false →
    Runs (.swsync val) s fun t => t.sdu n.val = s.sdu n.val ∧ Keeps [.sd] s t) ∧
  (∀ (s : State) (n : Fin 8) (bits : List Bool) (sum : Int), s.runs gSDF = true → s.bit (Reg.SDF_SDCFG n.val) 0 = true →
    sum = ((bits.drop (bits.length - (s.fld (Reg.SDF_SDFILT n.val) 16 5 + 1))).map fun b => if b then 1 else -1).sum →
    Runs (.sdtTrip n bits) s fun t =>
      t.sdu n.val = { s.sdu n.val with trips :=
        (s.bit (Reg.SDF_SDTRIP n.val) 14 && decide ((BitVec.ofNat 6 (s.fld (Reg.SDF_SDTRIP n.val) 0 6)).toInt < sum)) ||
        (s.bit (Reg.SDF_SDTRIP n.val) 15 && decide (sum < (BitVec.ofNat 6 (s.fld (Reg.SDF_SDTRIP n.val) 8 6)).toInt)) } ∧
      Keeps [.sd] s t) ∧
  (∀ (s : State) (n : Fin 8), s.runs gSDF = true → s.bit (Reg.SDF_SDCFG n.val) 0 = true →
    s.bit (Reg.SDF_SDCFG n.val) 1 = false →
    Runs (.sdClkmiss n) s fun t => t.bit Reg.SDF_STATUS (8 + n.val) = true ∧ t.asserted 32 = true ∧
      RegsBut (Reg.SDF_STATUS :: icuRegs) s t ∧ Keeps [.regs] s t) ∧
  (∀ (s : State) (n : Fin 8) (b : Bool) (k : Nat) (bits : List Bool), s.runs gSDF = true →
    s.bit (Reg.SDF_SDCFG n.val) 0 = true →
    k = s.fld (Reg.SDF_SDCFG n.val) 16 8 → k ≠ 0 →
    Runs (.sdStuck n (bits ++ List.replicate k b)) s fun t => t.bit Reg.SDF_STATUS (16 + n.val) = true ∧
      t.asserted 32 = true ∧
      RegsBut (Reg.SDF_STATUS :: icuRegs) s t ∧ Keeps [.regs] s t) ∧
  (∀ (s : State) (k : Fin 16) (code : BitVec 10) (edges : BitVec 4), s.cmpWorks = true →
    s.bit (Reg.CMP_CMP_CFG k.val) 0 = true →
    s.bit (Reg.CMP_CMP_CFG k.val) 2 = false → s.fld (Reg.CMP_CMP_THR k.val) 0 10 < code.toNat →
    s.cmpu k.val = {} → s.fld (Reg.CMP_CMP_CFG k.val) 8 4 ≤ edges.toNat →
    Runs (.comparatorActive k code edges) s fun t =>
      t.bit Reg.CMP_STATUS k.val = true ∧ (t.cmpu k.val).line = true ∧ t.bit Reg.CMP_TRIPPED k.val = true ∧
      (s.bit Reg.CMP_IEN k.val = true → t.asserted 33 = true) ∧ RegsBut (Reg.CMP_STATUS :: Reg.CMP_TRIPPED :: icuRegs) s t ∧
      Keeps [.cmp, .regs] s t) ∧
  (∀ (s : State) (k : Fin 16) (code : BitVec 10) (edges : BitVec 4), s.cmpWorks = true →
    s.bit (Reg.CMP_CMP_CFG k.val) 0 = true →
    s.bit (Reg.CMP_CMP_CFG k.val) 2 = true → code.toNat < s.fld (Reg.CMP_CMP_THR k.val) 0 10 →
    (s.cmpu k.val).blank = true ∨ edges.toNat < s.fld (Reg.CMP_CMP_CFG k.val) 8 4 → (s.cmpu k.val).line = false →
      s.clk.rootLost = false →
    Runs (.comparatorActive k code edges) s fun t =>
      t.bit Reg.CMP_STATUS k.val = true ∧ t.cmpu k.val = s.cmpu k.val ∧ RegsBut [Reg.CMP_STATUS] s t ∧ Keeps [.regs] s t) ∧
  (∀ (s : State) (k : Fin 16) (code : BitVec 10) (edges : BitVec 4), s.cmpWorks = true →
    s.bit (Reg.CMP_CMP_CFG k.val) 0 = true →
    s.bit (Reg.CMP_CMP_CFG k.val) 2 = false →
    code.toNat + 2 * s.fld (Reg.CMP_CMP_CFG k.val) 3 3 < s.fld (Reg.CMP_CMP_THR k.val) 0 10 →
    Runs (.comparatorActive k code edges) s fun t =>
      t.bit Reg.CMP_STATUS k.val = false ∧ (t.cmpu k.val).line = false ∧ RegsBut [Reg.CMP_STATUS] s t ∧
        Keeps [.cmp, .regs] s t) ∧
  (∀ (s : State) (k : Fin 16) (code : BitVec 10) (edges : BitVec 4), s.cmpWorks = true →
    s.bit (Reg.CMP_CMP_CFG k.val) 0 = true →
    s.bit (Reg.CMP_CMP_CFG k.val) 2 = false → code.toNat ≤ s.fld (Reg.CMP_CMP_THR k.val) 0 10 →
    s.fld (Reg.CMP_CMP_THR k.val) 0 10 ≤ code.toNat + 2 * s.fld (Reg.CMP_CMP_CFG k.val) 3 3 →
    Runs (.comparatorActive k code edges) s fun t => t.bit Reg.CMP_STATUS k.val = s.bit Reg.CMP_STATUS k.val) ∧
  (∀ (s : State) (k : Fin 16), s.cmpWorks = true → (s.cmpu k.val).blank = true → s.bit (Reg.CMP_CMP_CFG k.val) 0 = true →
    s.bit Reg.CMP_STATUS k.val = true →
    Runs (.blankingEnd k) s fun t =>
      (t.cmpu k.val).blank = false ∧ (t.cmpu k.val).line = true ∧ t.bit Reg.CMP_TRIPPED k.val = true) ∧
  (∀ (s : State) (k : Fin 16), s.cmpWorks = true → (s.cmpu k.val).blank = true → s.bit Reg.CMP_STATUS k.val = false →
    Runs (.blankingEnd k) s fun t => t.cmpu k.val = { s.cmpu k.val with blank := false } ∧ Keeps [.cmp] s t) ∧
  (∀ (s : State) (k : Fin 16) (val : Word), s.live = true →
    Runs (.cmpThrWrite k val) s fun t =>
      t.rd (Reg.CMP_CMP_THR k.val) = val &&& 0x3FF ∧ (t.cmpu k.val).blank = true ∧ (t.cmpu k.val).line = false ∧
      RegsBut [Reg.CMP_CMP_THR k.val] s t ∧ Keeps [.cmp, .regs] s t) ∧
  (∀ (s : State) (k : Fin 16) (val : Word) (follows : BitVec 16), s.live = true → s.gatedBit gCMP = false →
    W.bit val k.val = true →
    s.bit (Reg.CMP_CMP_CFG k.val) 0 = false →
    Runs (.cmpProof val follows) s fun t =>
      t.bit Reg.CMP_PROOF (16 + k.val) = follows.getLsbD k.val ∧ RegsBut [Reg.CMP_PROOF, Reg.CMP_STATUS] s t ∧
        Keeps [.regs] s t) ∧
  (∀ (s : State) (k : Fin 16) (val : Word) (follows : BitVec 16), s.live = true → s.gatedBit gCMP = false →
    W.bit val k.val = true →
    s.bit (Reg.CMP_CMP_CFG k.val) 0 = true →
    Runs (.cmpProof val follows) s fun t =>
      t.bit Reg.CMP_STATUS 16 = true ∧ t.bit Reg.CMP_PROOF (16 + k.val) = s.bit Reg.CMP_PROOF (16 + k.val)) ∧
  (∀ (s : State) (val : Word) (follows : BitVec 16), s.live = true → s.gatedBit gCMP = true → W.fld val 0 16 ≠ 0 →
    Runs (.cmpProof val follows) s fun t => t.bit Reg.CMP_STATUS 31 = true ∧ t.rd Reg.CMP_PROOF = s.rd Reg.CMP_PROOF)

/-- Chapter 11 (R566, R578, R581 to R587, R594, R595, R602, Table 11-5): the computing blocks. -/
def Obligations.ControlBlocks : Prop :=
  (∀ (s : State) (n : Nat) (r : KRun), s.atBlock 0x01 n r = true →
    Runs .lin s fun t =>
      t.rd (s.kleYa n r 0) = fmaW (s.kleP n r 1) (s.kleU n r 1) (fmaW (s.kleP n r 0) (s.kleU n r 0) (s.kleP n r 2)) ∧
      s.blockDone t n r [s.kleYa n r 0] ∧
      t.rd (Reg.KLE_FLAGS n) = s.rd (Reg.KLE_FLAGS n) ||| BitVec.ofNat 32 (((F32.fma (s.kleP n r 0) (s.kleU n r 0) (s.kleP n r 2)).2 |||
        (F32.fma (s.kleP n r 1) (s.kleU n r 1) (fmaW (s.kleP n r 0) (s.kleU n r 0) (s.kleP n r 2))).2) % 32)) ∧
  (∀ (s : State) (n : Nat) (r : KRun) (e : Word), s.atBlock 0x02 n r = true →
    e = subW (s.kleU n r 0) (s.kleU n r 1) →
    Runs .pi s fun t =>
      t.rd (s.kleYa n r 0) = fmaW (s.kleP n r 0) e (s.kleX n r 0) ∧
      t.rd (s.kleXa n r 0) = fmaW (s.kleP n r 2) (subW (s.kleU n r 2) (s.kleX n r 1)) (fmaW (s.kleP n r 1) e (s.kleX n r 0)) ∧
      t.rd (s.kleXa n r 1) = fmaW (s.kleP n r 0) e (s.kleX n r 0) ∧
      s.blockDone t n r [s.kleYa n r 0, s.kleXa n r 0, s.kleXa n r 1]) ∧
  (∀ (s : State) (n : Nat) (r : KRun) (e : Word) (d : Word), s.atBlock 0x03 n r = true →
    e = subW (s.kleU n r 0) (s.kleU n r 1) →
    d = fmaW (s.kleP n r 4) (s.kleX n r 3) (fmaW (s.kleP n r 3) (subW e (s.kleX n r 2)) 0x80000000) →
    Runs .pid s fun t =>
      t.rd (s.kleYa n r 0) = addW (fmaW (s.kleP n r 0) e (s.kleX n r 0)) d ∧
      t.rd (s.kleXa n r 0) = fmaW (s.kleP n r 2) (subW (s.kleU n r 2) (s.kleX n r 1)) (fmaW (s.kleP n r 1) e (s.kleX n r 0)) ∧
      t.rd (s.kleXa n r 1) = addW (fmaW (s.kleP n r 0) e (s.kleX n r 0)) d ∧
      t.rd (s.kleXa n r 2) = e ∧
      t.rd (s.kleXa n r 3) = d ∧
      s.blockDone t n r [s.kleYa n r 0, s.kleXa n r 0, s.kleXa n r 1, s.kleXa n r 2, s.kleXa n r 3]) ∧
  (∀ (s : State) (n : Nat) (r : KRun) (y : Word), s.atBlock 0x04 n r = true →
    y = fmaW (s.kleP n r 0) (s.kleU n r 0) (s.kleX n r 0) →
    Runs .leadlag s fun t =>
      t.rd (s.kleYa n r 0) = y ∧
      t.rd (s.kleXa n r 0) = fmaW (F32.neg (s.kleP n r 2)) y (fmaW (s.kleP n r 1) (s.kleU n r 0) 0x80000000) ∧
      s.blockDone t n r [s.kleYa n r 0, s.kleXa n r 0]) ∧
  (∀ (s : State) (n : Nat) (r : KRun) (y : Word), s.atBlock 0x05 n r = true →
    y = fmaW (s.kleP n r 0) (s.kleU n r 0) (s.kleX n r 0) →
    Runs .biquad s fun t =>
      t.rd (s.kleYa n r 0) = y ∧
      t.rd (s.kleXa n r 0) = fmaW (F32.neg (s.kleP n r 3)) y (fmaW (s.kleP n r 1) (s.kleU n r 0) (s.kleX n r 1)) ∧
      t.rd (s.kleXa n r 1) = fmaW (F32.neg (s.kleP n r 4)) y (fmaW (s.kleP n r 2) (s.kleU n r 0) 0x80000000) ∧
      s.blockDone t n r [s.kleYa n r 0, s.kleXa n r 0, s.kleXa n r 1]) ∧
  (∀ (s : State) (n : Nat) (r : KRun) (e : Word) (q : Word), s.atBlock 0x06 n r = true →
    e = subW (s.kleU n r 0) (s.kleU n r 1) →
    q = fmaW (F32.neg (s.kleP n r 3)) (s.kleX n r 3) (fmaW (s.kleP n r 2) (s.kleX n r 2) (fmaW (s.kleP n r 1) (subW e (s.kleX n r 1)) 0x80000000)) →
    Runs .pr s fun t =>
      t.rd (s.kleYa n r 0) = fmaW (s.kleP n r 0) e q ∧
      t.rd (s.kleXa n r 0) = e ∧
      t.rd (s.kleXa n r 1) = (F32.copy (s.kleX n r 0)) ∧
      t.rd (s.kleXa n r 2) = q ∧
      t.rd (s.kleXa n r 3) = (F32.copy (s.kleX n r 2)) ∧
      s.blockDone t n r [s.kleYa n r 0, s.kleXa n r 0, s.kleXa n r 1, s.kleXa n r 2, s.kleXa n r 3]) ∧
  (∀ (s : State) (n : Nat) (r : KRun), s.atBlock 0x08 n r = true → s.blkArg n r.blk 0 = 0 → s.kleYa n r 0 ≠ s.kleYa n r 1 →
    Runs .clarke s fun t =>
      t.rd (s.kleYa n r 0) = (F32.copy (s.kleU n r 0)) ∧
      t.rd (s.kleYa n r 1) = fmaW 0x3F13CD3A (fmaW 0x40000000 (s.kleU n r 1) (s.kleU n r 0)) 0x80000000 ∧
      s.blockDone t n r [s.kleYa n r 0, s.kleYa n r 1]) ∧
  (∀ (s : State) (n : Nat) (r : KRun), s.atBlock 0x08 n r = true → s.blkArg n r.blk 0 = 1 → s.kleYa n r 0 ≠ s.kleYa n r 1 →
    Runs .clarke s fun t =>
      t.rd (s.kleYa n r 0) = fmaW (subW (fmaW 0x40000000 (s.kleU n r 0) (F32.neg (s.kleU n r 1))) (s.kleU n r 2)) 0x3EAAAAAB 0x80000000 ∧
      t.rd (s.kleYa n r 1) = fmaW (subW (s.kleU n r 1) (s.kleU n r 2)) 0x3F13CD3A 0x80000000 ∧
      s.blockDone t n r [s.kleYa n r 0, s.kleYa n r 1]) ∧
  (∀ (s : State) (n : Nat) (r : KRun), s.atBlock 0x09 n r = true → s.kleYa n r 0 ≠ s.kleYa n r 1 →
    Runs .park s fun t =>
      t.rd (s.kleYa n r 0) = fmaW (s.kleU n r 1) (s.kleU n r 2) (fmaW (s.kleU n r 0) (s.kleU n r 3) 0x80000000) ∧
      t.rd (s.kleYa n r 1) = fmaW (F32.neg (s.kleU n r 0)) (s.kleU n r 2) (fmaW (s.kleU n r 1) (s.kleU n r 3) 0x80000000) ∧
      s.blockDone t n r [s.kleYa n r 0, s.kleYa n r 1]) ∧
  (∀ (s : State) (n : Nat) (r : KRun), s.atBlock 0x0A n r = true → s.kleYa n r 0 ≠ s.kleYa n r 1 →
    Runs .ipark s fun t =>
      t.rd (s.kleYa n r 0) = fmaW (F32.neg (s.kleU n r 1)) (s.kleU n r 2) (fmaW (s.kleU n r 0) (s.kleU n r 3) 0x80000000) ∧
      t.rd (s.kleYa n r 1) = fmaW (s.kleU n r 1) (s.kleU n r 3) (fmaW (s.kleU n r 0) (s.kleU n r 2) 0x80000000) ∧
      s.blockDone t n r [s.kleYa n r 0, s.kleYa n r 1]) ∧
  (∀ (s : State) (n : Nat) (r : KRun), s.atBlock 0x0B n r = true → s.kleYa n r 0 ≠ s.kleYa n r 1 →
    s.kleYa n r 0 ≠ s.kleYa n r 2 → s.kleYa n r 1 ≠ s.kleYa n r 2 →
    Runs .iclarke s fun t =>
      t.rd (s.kleYa n r 0) = (F32.copy (s.kleU n r 0)) ∧
      t.rd (s.kleYa n r 1) = fmaW 0x3F5DB3D7 (s.kleU n r 1) (fmaW 0xBF000000 (s.kleU n r 0) 0x80000000) ∧
      t.rd (s.kleYa n r 2) = fmaW 0xBF5DB3D7 (s.kleU n r 1) (fmaW 0xBF000000 (s.kleU n r 0) 0x80000000) ∧
      s.blockDone t n r [s.kleYa n r 0, s.kleYa n r 1, s.kleYa n r 2]) ∧
  (∀ (s : State) (n : Nat) (r : KRun) (a : Word) (b : Word) (c : Word) (o : Word), s.atBlock 0x0C n r = true →
    a = (F32.copy (s.kleU n r 0)) →
    b = fmaW 0x3F5DB3D7 (s.kleU n r 1) (fmaW 0xBF000000 (s.kleU n r 0) 0x80000000) →
    c = fmaW 0xBF5DB3D7 (s.kleU n r 1) (fmaW 0xBF000000 (s.kleU n r 0) 0x80000000) →
    o = fmaW 0xBF000000 (addW (F32.copy (F32.max' (F32.max' a b) c)) (F32.copy (F32.min' (F32.min' a b) c))) 0x80000000 →
      s.kleYa n r 0 ≠ s.kleYa n r 1 → s.kleYa n r 0 ≠ s.kleYa n r 2 → s.kleYa n r 1 ≠ s.kleYa n r 2 →
    Runs .svm s fun t =>
      t.rd (s.kleYa n r 0) = addW (addW 0x3F000000 a) o ∧
      t.rd (s.kleYa n r 1) = addW (addW 0x3F000000 b) o ∧
      t.rd (s.kleYa n r 2) = addW (addW 0x3F000000 c) o ∧
      s.blockDone t n r [s.kleYa n r 0, s.kleYa n r 1, s.kleYa n r 2]) ∧
  (∀ (s : State) (n : Nat) (r : KRun), s.atBlock 0x0D n r = true → s.kleYa n r 0 ≠ s.kleYa n r 1 →
    Runs .sincos s fun t =>
      t.rd (s.kleYa n r 0) = (F32.sinPi (s.kleU n r 0)).1 ∧
      t.rd (s.kleYa n r 1) = (F32.cosPi (s.kleU n r 0)).1 ∧
      s.blockDone t n r [s.kleYa n r 0, s.kleYa n r 1]) ∧
  (∀ (s : State) (n : Nat) (r : KRun), s.atBlock 0x0D n r = true → s.kleU n r 0 = 0x3F000000 → s.kleYa n r 0 ≠ s.kleYa n r 1 →
    Runs .sincos s fun t =>
      t.rd (s.kleYa n r 0) = 0x3F800000 ∧
      t.rd (s.kleYa n r 1) = 0x00000000 ∧
      s.blockDone t n r [s.kleYa n r 0, s.kleYa n r 1]) ∧
  (∀ (s : State) (n : Nat) (r : KRun) (f : Word) (i : Nat), s.atBlock 0x0E n r = true →
    f = fmaW (subW (s.kleU n r 0) (s.kleP n r 0)) (s.kleP n r 1) 0x80000000 → F32.isNan f = false →
      i = floorClamp f (s.blkArg n r.blk 1 - 2) →
    Runs .table s fun t =>
      t.rd (s.kleYa n r 0) = fmaW (subW f (F32.ofNat i)) (subW (s.rdWord (s.tableWord n r.blk (i + 1))) (s.rdWord (s.tableWord n r.blk i))) (s.rdWord (s.tableWord n r.blk i)) ∧
      s.blockDone t n r [s.kleYa n r 0]) ∧
  (∀ (s : State) (n : Nat) (r : KRun) (f : Word), s.atBlock 0x0E n r = true →
    f = fmaW (subW (s.kleU n r 0) (s.kleP n r 0)) (s.kleP n r 1) 0x80000000 → F32.isNan f = true →
    Runs .table s fun t =>
      t.rd (s.kleYa n r 0) = 0x7FC00000 ∧
      s.blockDone t n r [s.kleYa n r 0]) ∧
  (∀ (s : State) (n : Nat) (r : KRun), s.atBlock 0x0F n r = true → s.blkArg n r.blk 0 = 0 → s.kleYa n r 0 ≠ s.kleYa n r 1 →
    Runs .cmpsel s fun t =>
      t.rd (s.kleYa n r 0) = F32.copy (if F32.lt (s.kleU n r 0) (s.kleU n r 1) then (s.kleU n r 2) else (s.kleU n r 3)) ∧
      t.rd (s.kleYa n r 1) = (if F32.lt (s.kleU n r 0) (s.kleU n r 1) then 0x3F800000 else 0) ∧
      s.blockDone t n r [s.kleYa n r 0, s.kleYa n r 1]) ∧
  (∀ (s : State) (n : Nat) (r : KRun), s.atBlock 0x0F n r = true → s.blkArg n r.blk 0 = 1 → s.kleYa n r 0 ≠ s.kleYa n r 1 →
    Runs .cmpsel s fun t =>
      t.rd (s.kleYa n r 0) = F32.copy (if (F32.lt (s.kleU n r 0) (s.kleU n r 1) || F32.eq (s.kleU n r 0) (s.kleU n r 1)) then (s.kleU n r 2) else (s.kleU n r 3)) ∧
      t.rd (s.kleYa n r 1) = (if (F32.lt (s.kleU n r 0) (s.kleU n r 1) || F32.eq (s.kleU n r 0) (s.kleU n r 1)) then 0x3F800000 else 0) ∧
      s.blockDone t n r [s.kleYa n r 0, s.kleYa n r 1]) ∧
  (∀ (s : State) (n : Nat) (r : KRun), s.atBlock 0x0F n r = true → s.blkArg n r.blk 0 = 2 → s.kleYa n r 0 ≠ s.kleYa n r 1 →
    Runs .cmpsel s fun t =>
      t.rd (s.kleYa n r 0) = F32.copy (if F32.eq (s.kleU n r 0) (s.kleU n r 1) then (s.kleU n r 2) else (s.kleU n r 3)) ∧
      t.rd (s.kleYa n r 1) = (if F32.eq (s.kleU n r 0) (s.kleU n r 1) then 0x3F800000 else 0) ∧
      s.blockDone t n r [s.kleYa n r 0, s.kleYa n r 1]) ∧
  (∀ (s : State) (n : Nat) (r : KRun), s.atBlock 0x0F n r = true → s.blkArg n r.blk 0 = 3 → s.kleYa n r 0 ≠ s.kleYa n r 1 →
    Runs .cmpsel s fun t =>
      t.rd (s.kleYa n r 0) = F32.copy (if !F32.eq (s.kleU n r 0) (s.kleU n r 1) then (s.kleU n r 2) else (s.kleU n r 3)) ∧
      t.rd (s.kleYa n r 1) = (if !F32.eq (s.kleU n r 0) (s.kleU n r 1) then 0x3F800000 else 0) ∧
      s.blockDone t n r [s.kleYa n r 0, s.kleYa n r 1]) ∧
  (∀ (s : State) (n : Nat) (r : KRun) (y : Word), s.atBlock 0x10 n r = true →
    y = F32.copy (F32.min' (F32.max' (s.kleU n r 0) (s.kleU n r 1)) (s.kleU n r 2)) → s.kleYa n r 0 ≠ s.kleYa n r 1 →
    Runs .clipBlock s fun t =>
      t.rd (s.kleYa n r 0) = y ∧
      t.rd (s.kleYa n r 1) = (if F32.eq y (s.kleU n r 0) then 0 else 0x3F800000) ∧
      s.blockDone t n r [s.kleYa n r 0, s.kleYa n r 1]) ∧
  (∀ (s : State) (n : Nat) (r : KRun) (g : BitVec 40), s.atBlock 0x11 n r = true → s.blkArg n r.blk 1 = 0 →
    g = (((s.kleX n r 1)).setWidth 8 ++ (s.kleX n r 0) : BitVec 40) + (F32.fix40 (fmaW (s.kleP n r 0) (s.kleU n r 0) 0x80000000) (s.blkArg n r.blk 0)).1 →
    Runs .integ s fun t =>
      t.rd (s.kleYa n r 0) = (F32.ofFix40 g (s.blkArg n r.blk 0)).1 ∧
      t.rd (s.kleXa n r 0) = g.setWidth 32 ∧
      t.rd (s.kleXa n r 1) = (g.sshiftRight 32).setWidth 32 ∧
      s.blockDone t n r [s.kleYa n r 0, s.kleXa n r 0, s.kleXa n r 1]) ∧
  (∀ (s : State) (n : Nat) (r : KRun) (g : BitVec 40), s.atBlock 0x11 n r = true → s.blkArg n r.blk 1 = 1 →
    F32.isZero (s.kleU n r 1) = false →
    g = (F32.fix40 (s.kleU n r 2) (s.blkArg n r.blk 0)).1 →
    Runs .integ s fun t =>
      t.rd (s.kleYa n r 0) = (F32.ofFix40 g (s.blkArg n r.blk 0)).1 ∧
      t.rd (s.kleXa n r 0) = g.setWidth 32 ∧
      t.rd (s.kleXa n r 1) = (g.sshiftRight 32).setWidth 32 ∧
      s.blockDone t n r [s.kleYa n r 0, s.kleXa n r 0, s.kleXa n r 1]) ∧
  (∀ (s : State) (n : Nat) (r : KRun), s.atBlock 0x16 n r = true → s.blkArg n r.blk 0 = 0 →
    Runs .divsqrt s fun t =>
      t.rd (s.kleYa n r 0) = (F32.div (s.kleU n r 0) (s.kleU n r 1)).1 ∧
      s.blockDone t n r [s.kleYa n r 0]) ∧
  (∀ (s : State) (n : Nat) (r : KRun), s.atBlock 0x16 n r = true → s.blkArg n r.blk 0 = 1 →
    Runs .divsqrt s fun t =>
      t.rd (s.kleYa n r 0) = (F32.sqrt (s.kleU n r 0)).1 ∧
      s.blockDone t n r [s.kleYa n r 0])

/-- Chapters 11 and 12 (R566, R568, R570, R574, R582, R600 to R602, R612, R629, R636): the other blocks, and the end of a sample. -/
def Obligations.BlockWrites : Prop :=
  (∀ (s : State) (n : Nat) (r : KRun) (j m q : Nat), s.atBlock 0x07 n r = true → s.blkArg n r.blk 0 = j →
    s.blkArg n r.blk 1 = m →
    s.blkArg n r.blk 2 = q → r.row < q →
    Runs .ss s fun t =>
      (t.ks n).run.map (fun k => (k.row, k.acc, k.blk)) = some (r.row + 1, r.acc ++
        [((List.range j).map (fun i => (s.kleP n r (j * j + j * m + r.row * j + i), s.kleX n r i)) ++
          (List.range m).map (fun i => (s.kleP n r (j * j + j * m + q * j + r.row * m + i), s.kleU n r i))).foldl
            (fun a e => fmaW e.1 e.2 a) 0x80000000], r.blk) ∧
      RegsBut [Reg.KLE_FLAGS n] s t ∧ Keeps [.regs, .kle] s t) ∧
  (∀ (s : State) (n : Nat) (r : KRun) (j m q : Nat), s.atBlock 0x07 n r = true → s.blkArg n r.blk 0 = j →
    s.blkArg n r.blk 1 = m →
    s.blkArg n r.blk 2 = q → q ≤ r.row → r.row + 1 < q + j →
    Runs .ss s fun t =>
      (t.ks n).run.map (fun k => (k.row, k.acc, k.blk)) = some (r.row + 1, r.acc ++
        [((List.range j).map (fun i => (s.kleP n r ((r.row - q) * j + i), s.kleX n r i)) ++
          (List.range m).map (fun i => (s.kleP n r (j * j + (r.row - q) * m + i), s.kleU n r i))).foldl
            (fun a e => fmaW e.1 e.2 a) 0x80000000], r.blk) ∧
      RegsBut [Reg.KLE_FLAGS n] s t ∧ Keeps [.regs, .kle] s t) ∧
  (∀ (s : State) (n : Nat) (r : KRun) (y : Word), s.atBlock 0x07 n r = true → s.blkArg n r.blk 0 = 1 →
    s.blkArg n r.blk 1 = 1 →
    s.blkArg n r.blk 2 = 1 → r.row = 1 → r.acc = [y] →
    Runs .ss s fun t =>
      t.rd (s.kleYa n r 0) = y ∧
      t.rd (s.kleXa n r 0) = fmaW (s.kleP n r 1) (s.kleU n r 0) (fmaW (s.kleP n r 0) (s.kleX n r 0) 0x80000000) ∧
      s.blockDone t n r [s.kleYa n r 0, s.kleXa n r 0]) ∧
  (∀ (s : State) (n : Nat) (r : KRun) (a j k : Nat), s.atBlock 0x12 n r = true → s.blkArg n r.blk 0 = a →
    s.blkArg n r.blk 1 = j →
    2 ≤ j → j ≤ 4096 → a + j ≤ 32768 → s.blkArg n r.blk 2 = 0 → s.blkArg n r.blk 3 < j → W.fld (s.kleX n r 0) 0 13 = k →
      k < j →
    r.freeze = false → s.bit (Reg.KLE_LCTL n) 2 = false → F32.isFinite (s.kleU n r 0) = true → s.kleYa n r 0 ≠ s.kleYa n r 1 →
    Runs .learn s fun t =>
      t.rd (s.kleYa n r 0) = F32.copy (s.rdWord (0x01020000 + 4 * (a + (k + s.blkArg n r.blk 3) % j))) ∧
      t.rd (s.kleYa n r 1) = 0x3F800000 ∧ W.fld (t.rd (s.kleXa n r 0)) 0 12 = (k + 1) % j % 4096 ∧
      t.rdWord (0x01020000 + 4 * (a + k)) =
        fmaW (s.kleP n r 2) (addW (s.rdWord (0x01020000 + 4 * (a + (k + j - 1) % j))) (s.rdWord (0x01020000 + 4 * (a + (k + 1) % j))))
          (fmaW (s.kleP n r 1) (s.rdWord (0x01020000 + 4 * (a + k))) (fmaW (s.kleP n r 0) (s.kleU n r 0) 0x80000000)) ∧
      (∀ p, p < 0x01020000 + 4 * (a + k) ∨ 0x01020000 + 4 * (a + k) + 4 ≤ p → t.rdByte p = s.rdByte p)) ∧
  (∀ (s : State) (n : Nat) (r : KRun) (a j k : Nat), s.atBlock 0x12 n r = true → s.blkArg n r.blk 0 = a →
    s.blkArg n r.blk 1 = j →
    2 ≤ j → j ≤ 4096 → a + j ≤ 32768 → s.blkArg n r.blk 2 = 0 → s.blkArg n r.blk 3 < j → W.fld (s.kleX n r 0) 0 13 = k →
      k < j →
    r.freeze = true → s.bit (Reg.KLE_LCTL n) 2 = false → s.kleYa n r 0 ≠ s.kleYa n r 1 →
    Runs .learn s fun t =>
      t.rd (s.kleYa n r 0) = F32.copy (s.rdWord (0x01020000 + 4 * (a + (k + s.blkArg n r.blk 3) % j))) ∧
      t.rd (s.kleYa n r 1) = 0 ∧ W.fld (t.rd (s.kleXa n r 0)) 0 12 = (k + 1) % j % 4096 ∧ t.mem = s.mem) ∧
  (∀ (s : State) (n : Nat) (r : KRun) (m : Fin 12) (c g : Nat), s.atBlock 0x13 n r = true → s.blkArg n r.blk 0 = m.val →
    s.blkArg n r.blk 1 = 1 → s.blkArg n r.blk 2 = 2 →
      F32.pwm (fmaW (s.kleP n r 0) (s.kleU n r 0) (s.kleP n r 1)) = some (c, g) →
    c < 2 ^ 20 →
    Runs .outpwm s fun t =>
      (tget [] (s.pm m.val).sh 1 = [] → t.rd (Reg.PWM_CMPA m.val) = s.rd (Reg.PWM_CMPA m.val)) ∧
      tget [] (t.pm m.val).sh 1 = shadowPut s.clk.tb.toNat ⟨c, s.clk.tb.toNat + 2, s.clk.tb.toNat + 10, s.clk.tb.toNat + 8⟩ (tget [] (s.pm m.val).sh 1) ∧
      tget [] (t.pm m.val).sh 2 = shadowPut s.clk.tb.toNat ⟨c, s.clk.tb.toNat + 2, s.clk.tb.toNat + 10, s.clk.tb.toNat + 8⟩ (tget [] (s.pm m.val).sh 2) ∧
      s.blockDone t n r [Reg.PWM_CMPA m.val, Reg.PWM_CMPB m.val] [.pwm]) ∧
  (∀ (s : State) (n : Nat) (r : KRun) (m : Fin 12) (c g : Nat), s.atBlock 0x13 n r = true → s.blkArg n r.blk 0 = m.val →
    s.blkArg n r.blk 1 = 1 → s.blkArg n r.blk 2 = 0 →
      F32.pwm (fmaW (s.kleP n r 0) (s.kleU n r 0) (s.kleP n r 1)) = some (c, g) →
    c < 2 ^ 20 →
    Runs .outpwm s fun t =>
      tget [] (t.pm m.val).sh 1 = shadowPut s.clk.tb.toNat ⟨c, s.clk.tb.toNat + 2, s.clk.tb.toNat + 10, s.clk.tb.toNat + 8⟩ (tget [] (s.pm m.val).sh 1) ∧
      s.blockDone t n r [Reg.PWM_CMPA m.val] [.pwm]) ∧
  (∀ (s : State) (n : Nat) (r : KRun) (m : Fin 12), s.atBlock 0x13 n r = true → s.blkArg n r.blk 0 = m.val →
    s.blkArg n r.blk 1 = 1 → F32.pwm (fmaW (s.kleP n r 0) (s.kleU n r 0) (s.kleP n r 1)) = none →
    Runs .outpwm s fun t =>
      t.bit (Reg.KLE_FLAGS n) 5 = true ∧ t.bit (Reg.KLE_EVT n) 3 = true ∧ t.raised evNAN_OUT n (BitVec.ofNat 32 m.val) ∧
      t.rd (Reg.PWM_CMPA m.val) = s.rd (Reg.PWM_CMPA m.val) ∧ t.rd (Reg.PWM_CMPB m.val) = s.rd (Reg.PWM_CMPB m.val)) ∧
  (∀ (s : State) (n : Nat) (r : KRun) (q tag : Fin 64), s.atBlock 0x14 n r = true → s.blkArg n r.blk 0 = q.val →
    s.blkArg n r.blk 1 = tag.val → (s.pport 4).fifo = [] → (s.pport 4).freed = [] →
    Runs .outq s fun t =>
      (t.pport 4).fifo = [⟨q.val, tag.val, (F32.int16 (fmaW (s.kleP n r 0) (s.kleU n r 0) 0x80000000)).1⟩] ∧
      RegsBut [Reg.KLE_FLAGS n, Reg.KLE_SSTAT n] s t ∧ Keeps [.regs, .kle, .pool] s t) ∧
  (∀ (s : State) (n : Nat) (r : KRun) (slot : Fin 32) (w : Fin 63) (coin : BitVec 4) (v : Word), s.atBlock 0x15 n r = true →
    s.blkArg n r.blk 0 = slot.val → s.blkArg n r.blk 1 = w.val → s.blkArg n r.blk 2 = 2 →
    s.latch slot.val w.val = none → s.latch slot.val (w.val + 1) = some v →
    Runs (.latch coin) s fun t =>
      t.latch slot.val w.val = some (F32.copy (s.kleU n r 0)) ∧
        t.latch slot.val (w.val + 1) = some (if coin.getLsbD 1 then v else F32.copy (s.kleU n r 1)) ∧
      s.blockDone t n r [Reg.KLE_LATOVWR slot.val]) ∧
  (∀ (s : State) (n : Nat) (r : KRun), s.blkNext 0x01 = some (n, r) → n < 32 → s.slotPasses n = 1 → r.pass = 1 →
    r.src1 = none →
    r.inj = none → s.ecc = [] → r.blk + 1 = s.nblk n → s.learnBlk n = none → (s.ks n).ovr = false →
    s.deadlineGone n 1 = false →
    (∀ k : Fin 32, s.slotTrig k.val ≠ 0x40 + n) →
    Runs .lin s fun t =>
      t.sst n = 1 ∧ t.bit Reg.KLE_ENABLED n = true ∧ t.bit Reg.KLE_STATUS 0 = false ∧ (t.ks n).run = none ∧
      t.rd (Reg.KLE_SAMPLES n) = s.rd (Reg.KLE_SAMPLES n) + 1 ∧
      t.rd (Reg.KLE_LASTLAT n) = BitVec.ofNat 32 (s.clk.ran (s.ks n).trig % 2 ^ 24) ∧
      t.bit (Reg.KLE_EVT n) 0 = true ∧ t.bit Reg.KLE_OVRLAST n = false ∧ t.fld (Reg.KLE_SSTAT n) 24 4 = 0)

/-- Chapters 11 and 12 (R80, R110, R555, R557, R558, R560, R563 to R565, R567, R571 to R574, R580, R589, R590, R606, R609, R617, R639, R640, R671, R673): slots. -/
def Obligations.SlotControl : Prop :=
  (∀ (s : State) (n : Fin 32), s.runs gKLE = true → s.kleHalted = false → s.sst n.val = 1 →
    (s.ks n.val).rstReq = false →
    Runs (.kleDoorbell (BitVec.ofNat 32 (2 ^ n.val))) s fun t =>
      t.sst n.val = 2 ∧ t.ks n.val = { s.ks n.val with trig := s.clk.tb.toNat, late := false, ovr := false, conv := none } ∧
      RegsBut [Reg.KLE_SSTAT n.val, Reg.KLE_ENABLED, Reg.KLE_PENNED] s t ∧ Keeps [.regs, .kle] s t) ∧
  (∀ (s : State) (n : Fin 32), s.runs gKLE = true → s.kleHalted = false → s.sst n.val = 2 →
    (s.ks n.val).rstReq = false → s.bit (Reg.KLE_SINFO n.val) 15 = false → s.fld (Reg.KLE_OVRTALLY n.val) 0 16 < 65535 →
    s.fld (Reg.KLE_SSTAT n.val) 24 4 < 15 →
    Runs (.kleDoorbell (BitVec.ofNat 32 (2 ^ n.val))) s fun t =>
      t.sst n.val = 2 ∧ t.fld (Reg.KLE_OVRTALLY n.val) 0 16 = s.fld (Reg.KLE_OVRTALLY n.val) 0 16 + 1 ∧
      t.bit Reg.KLE_OVRLAST n.val = true ∧ t.bit (Reg.KLE_EVT n.val) 1 = true ∧
      t.fld (Reg.KLE_SSTAT n.val) 24 4 = s.fld (Reg.KLE_SSTAT n.val) 24 4 + 1 ∧
      t.raised evSLOT_OVERRUN n.val (BitVec.ofNat 32 (s.fld (Reg.KLE_OVRTALLY n.val) 0 16 + 1)) ∧
      t.ks n.val = { s.ks n.val with ovr := true }) ∧
  (∀ (s : State) (n : Nat) (r : KRun), s.runs gKLE = true → s.kleHalted = false → s.kleCur = none → s.selectSlot = some n →
    (s.ks n).run = some r →
    Runs .slotStart s fun t =>
      t.sst n = 3 ∧ t.kleCur = some n ∧ t.kle = s.kle ∧
      RegsBut [Reg.KLE_SSTAT n, Reg.KLE_ENABLED, Reg.KLE_PENNED, Reg.KLE_STATUS] s t ∧ Keeps [.regs] s t) ∧
  (∀ (s : State) (n : Nat) (w : Fin 64) (v : Word), s.runs gKLE = true → s.kleHalted = false → s.kleCur = none →
    s.selectSlot = some n → (s.ks n).run = none → (s.ks n).ramp = none → s.convDue n = false → s.ecc = [] →
      s.latch n w.val = some v →
    s.bit Reg.KLE_PEND n = false →
    Runs .slotStart s fun t =>
      t.sst n = 3 ∧ t.kleCur = some n ∧ t.rd (ctxAddr n 0 w.val) = v ∧ t.latch n w.val = none ∧
      (t.ks n).run.map (fun r => (r.pass, r.blk, r.row, tget 0 r.base w.val)) = some (1, 0, 0, v) ∧
      t.rd (Reg.KLE_LASTSTART n) = W.lo32 s.clk.tb ∧ t.bit (Reg.KLE_INJCTL n) 31 = false ∧ t.fld (Reg.KLE_SSTAT n) 8 5 = 0 ∧
      (∀ p : Fin 64, t.rd (ctxAddr n 0x100 p.val) = s.rd (ctxAddr n 0x100 p.val)) ∧ t.mem = s.mem) ∧
  (∀ (s : State) (n : Nat) (w : Fin 64), s.runs gKLE = true → s.kleHalted = false → s.kleCur = none →
    s.selectSlot = some n → (s.ks n).run = none → (s.ks n).ramp = none → s.convDue n = false → s.ecc = [] →
      s.bit Reg.KLE_PEND n = true →
    s.bit Reg.KLE_PLOCK n = false →
    Runs .slotStart s fun t =>
      t.sst n = 3 ∧ t.bit Reg.KLE_PEND n = false ∧ t.rd (ctxAddr n 0x100 w.val) = s.rd (ctxAddr n 0x200 w.val) ∧
      t.rd (ctxAddr n 0x200 w.val) = s.rd (ctxAddr n 0x200 w.val)) ∧
  (∀ (s : State) (n : Nat), s.runs gKLE = true → s.kleCur = some n → s.preemptDue n = true →
    Runs .preemption s fun t =>
      t.sst n = 2 ∧ t.kleCur = none ∧ t.kle = s.kle ∧
      RegsBut [Reg.KLE_SSTAT n, Reg.KLE_ENABLED, Reg.KLE_PENNED, Reg.KLE_STATUS] s t ∧ Keeps [.regs] s t) ∧
  (∀ (s : State) (n : Nat), s.kleCur = some n → s.preemptDue n = false → Runs .preemption s (fun t => t = s)) ∧
  (∀ (s : State) (n : Fin 32) (r : KRun), s.runs gKLE = true → s.slotDeadline n.val ≠ 0 → s.sst n.val = 3 →
    (s.ks n.val).run = some r → (s.ks n.val).late = false → s.slotDeadline n.val ≤ s.clk.ran (s.ks n.val).trig →
    s.bit (Reg.KLE_SINFO n.val) 14 = false →
    s.bit (Reg.KLE_SINFO n.val) 15 = false → s.fld (Reg.KLE_OVRTALLY n.val) 0 16 < 65535 →
    Runs (.deadlineOverrun n) s fun t =>
      t.ks n.val = { s.ks n.val with late := true, ovr := true } ∧ t.sst n.val = 3 ∧
      t.fld (Reg.KLE_OVRTALLY n.val) 0 16 = s.fld (Reg.KLE_OVRTALLY n.val) 0 16 + 1 ∧ t.bit Reg.KLE_OVRLAST n.val = true ∧
      t.raised evSLOT_OVERRUN n.val (BitVec.ofNat 32 (s.fld (Reg.KLE_OVRTALLY n.val) 0 16 + 1))) ∧
  (∀ (s : State) (n : Fin 32) (r : KRun), s.runs gKLE = true → s.slotDeadline n.val ≠ 0 → s.sst n.val = 3 →
    (s.ks n.val).run = some r → (s.ks n.val).late = false → s.slotDeadline n.val ≤ s.clk.ran (s.ks n.val).trig →
    (s.ks n.val).penReq = none → s.bit (Reg.KLE_SINFO n.val) 14 = true →
    s.bit (Reg.KLE_SINFO n.val) 15 = false →
    Runs (.deadlineOverrun n) s fun t => (t.ks n.val).run = none ∧ t.sst n.val = 1) ∧
  (∀ (s : State) (n : Fin 32), (s.ks n.val).late = true ∨ s.clk.ran (s.ks n.val).trig < s.slotDeadline n.val →
    Runs (.deadlineOverrun n) s fun t => t = s) ∧
  (∀ (s : State) (n : Fin 32), s.live = true → s.gatedBit gKLE = false → s.sst n.val = 0 → s.bit Reg.KLE_VALID n.val = true →
    Runs (.enset (BitVec.ofNat 32 (2 ^ n.val))) s fun t =>
      t.sst n.val = 1 ∧ t.bit Reg.KLE_ENABLED n.val = true ∧
      t.ks n.val = { s.ks n.val with
        rd1 := 0, rd2 := 1, rd3 := 1, run := none, late := false, ovr := false, conv := none, hl := false, ramp := none } ∧
      RegsBut [Reg.KLE_SSTAT n.val, Reg.KLE_ENABLED, Reg.KLE_PENNED] s t ∧ Keeps [.regs, .kle] s t) ∧
  (∀ (s : State) (n : Fin 32), s.live = true → s.gatedBit gKLE = false → s.sst n.val = 4 ∨ s.bit Reg.KLE_VALID n.val = false →
    Runs (.enset (BitVec.ofNat 32 (2 ^ n.val))) s fun t => t.bit Reg.KLE_STATUS 18 = true ∧ RegsBut [Reg.KLE_STATUS] s t ∧
      Keeps [.regs] s t) ∧
  (∀ (s : State) (val : Word), s.live = true → s.gatedBit gKLE = true → val ≠ 0 →
    Runs (.enset val) s fun t => t.bit Reg.KLE_STATUS 31 = true ∧ RegsBut [Reg.KLE_STATUS] s t ∧ Keeps [.regs] s t) ∧
  (∀ (s : State) (n : Fin 32), s.live = true → s.slotOn n.val = true → (s.ks n.val).penReq = none →
    Runs (.enclr (BitVec.ofNat 32 (2 ^ n.val))) s fun t =>
      t.sst n.val = 0 ∧ t.bit Reg.KLE_ENABLED n.val = false ∧ (t.ks n.val).run = none ∧ t.mem = s.mem) ∧
  (∀ (s : State) (n : Fin 32), s.runs gKLE = true → s.sst n.val ≠ 3 → s.midBlock n.val = false → (s.ks n.val).injCmd = false →
    (s.ks n.val).penReq = none →
    Runs (.slotrst (BitVec.ofNat 32 (2 ^ n.val))) s fun t =>
      t.sst n.val = (if s.sst n.val = 4 then 4 else 0) ∧ (∀ w : Fin 64, t.rd (ctxAddr n.val 0 w.val) = 0) ∧
      (∀ w : Fin 192, t.rd (ctxAddr n.val 0x300 w.val) = 0) ∧
      (∀ w : Fin 64, t.rd (ctxAddr n.val 0x100 w.val) = s.rd (ctxAddr n.val 0x100 w.val)) ∧
      (t.ks n.val).run = none ∧ t.mem = s.mem) ∧
  (∀ (s : State) (n : Fin 32), s.live = true → s.sst n.val = 3 ∨ s.midBlock n.val = true ∨ s.gatedBit gKLE = true →
    Runs (.slotrst (BitVec.ofNat 32 (2 ^ n.val))) s fun t => t.ks n.val = { s.ks n.val with rstReq := true } ∧
      Keeps [.kle] s t) ∧
  (∀ (s : State) (n : Fin 32), s.runs gKLE = true → s.midBlock n.val = false → (s.ks n.val).rstReq = true →
    (s.ks n.val).injCmd = false →
    s.cmdWaits 0x14 n.val = false → (s.ks n.val).penReq = none →
    Runs (.slotResetEffect n) s fun t =>
      t.sst n.val = (if s.sst n.val = 4 then 4 else 0) ∧ (t.ks n.val).rstReq = false ∧ (t.ks n.val).run = none ∧
      (∀ w : Fin 64, t.rd (ctxAddr n.val 0 w.val) = 0) ∧ (∀ w : Fin 192, t.rd (ctxAddr n.val 0x300 w.val) = 0)) ∧
  (∀ (s : State) (n : Fin 32) (w : Fin 64) (val : Word), s.linkServes = true → s.memServed = true →
    s.regServed .host (ctxAddr n.val 0x200 w.val) = true → s.bit (Reg.KLE_SINFO n.val) 23 = false →
    Runs (.paramWindowWrite n w val) s fun t =>
      t.rd (ctxAddr n.val 0x200 w.val) = val ∧ t.bit Reg.KLE_PEND n.val = true ∧
      RegsBut [ctxAddr n.val 0x200 w.val, Reg.KLE_PEND] s t ∧ Keeps [.regs, .ecc] s t) ∧
  (∀ (s : State) (n : Fin 32) (w : Fin 64) (val : Word), s.linkServes = true → s.memServed = true →
    s.regServed .host (ctxAddr n.val 0 w.val) = true →
    Runs (.signalWordWrite n w val) s fun t => t.latch n.val w.val = some val ∧ Keeps [.kle] s t) ∧
  (∀ (s : State) (src : Requester) (n : Fin 32) (w : Fin 1024) (val : Word), s.live = true → s.slotOn n.val = false →
    Runs (.plateWrite src n w val) s fun t =>
      t.plate n.val w.val = val ∧ t.bit Reg.KLE_VALID n.val = false ∧
      (∀ p, p < plateAddr n.val w.val ∨ plateAddr n.val w.val + 4 ≤ p → t.rdByte p = s.rdByte p) ∧
      RegsBut [Reg.KLE_VALID] s t ∧ Keeps [.regs, .mem, .ecc] s t) ∧
  (∀ (s : State) (src : Requester) (n : Fin 32) (w : Fin 1024) (val : Word), s.live = true → s.slotOn n.val = true →
    Runs (.plateWrite src n w val) s fun t => t.reply = .busError 0 ∧ Keeps [.reply] s t) ∧
  (∀ (s : State) (n : Fin 32), s.runs gKLE = true → s.sst n.val = 0 → s.plateFault n.val = none →
    Runs (.platechk (BitVec.ofNat 32 (2 ^ 31 + n.val))) s fun t =>
      t.bit Reg.KLE_VALID n.val = true ∧ t.slotTrig n.val = W.fld (s.plate n.val 2) 0 7 ∧
      t.slotPri n.val = W.fld (s.plate n.val 2) 8 3 ∧ t.slotPasses n.val = W.fld (s.plate n.val 4) 0 2 ∧
      t.slotDeadline n.val = W.fld (s.plate n.val 3) 0 24 ∧ t.bit Reg.KLE_PCSTAT 31 = true ∧
      t.fld Reg.KLE_PCSTAT 0 8 = s.nblk n.val ∧ Keeps [.regs] s t) ∧
  (∀ (s : State) (n : Fin 32) (f : Nat), s.runs gKLE = true → s.sst n.val = 0 → s.plateFault n.val = some f → f < 1024 →
    Runs (.platechk (BitVec.ofNat 32 (2 ^ 31 + n.val))) s fun t =>
      t.bit Reg.KLE_VALID n.val = false ∧ t.bit Reg.KLE_PCSTAT 31 = false ∧ t.fld Reg.KLE_PCSTAT 8 10 = f ∧
      RegsBut [Reg.KLE_VALID, Reg.KLE_PCSTAT] s t ∧ Keeps [.regs] s t) ∧
  (∀ (s : State) (n : Fin 32), s.runs gKLE = true → s.sst n.val ≠ 0 →
    Runs (.platechk (BitVec.ofNat 32 (2 ^ 31 + n.val))) s fun t =>
      t.bit Reg.KLE_STATUS 17 = true ∧ RegsBut [Reg.KLE_STATUS] s t ∧ Keeps [.regs] s t) ∧
  (∀ (s : State) (n : Fin 32), s.live = true → s.bit (Reg.KLE_LCTL n.val) 2 = false →
    Runs (.learnClear n) s fun t =>
      t.bit (Reg.KLE_LCTL n.val) 2 = true ∧ t.bit (Reg.KLE_LCTL n.val) 0 = s.bit (Reg.KLE_LCTL n.val) 0 ∧
      (s.slotOn n.val = false → (t.ks n.val).clearRun = true) ∧ RegsBut [Reg.KLE_LCTL n.val] s t ∧ Keeps [.regs, .kle] s t) ∧
  (∀ (s : State) (n : Fin 32) (a j : Nat), s.runs gKLE = true → (s.ks n.val).clearRun = true → s.nblk n.val = 1 →
    s.blkOp n.val 0 = 0x12 → s.blkArg n.val 0 0 = a → s.blkArg n.val 0 1 = j → a + j ≤ 32768 →
    Runs (.learnClearDone n) s fun t =>
      t.bit (Reg.KLE_LCTL n.val) 2 = false ∧ (t.ks n.val).clearRun = false ∧
      (∀ p, 0x01020000 + 4 * a ≤ p → p < 0x01020000 + 4 * (a + j) → t.rdByte p = 0) ∧
      (∀ p, p < 0x01020000 + 4 * a ∨ 0x01020000 + 4 * (a + j) ≤ p → t.rdByte p = s.rdByte p)) ∧
  (∀ (s : State) (n : Fin 32) (val : Word), s.live = true → (s.ks n.val).injCmd = false → W.bit val 31 = true →
    s.rd (Reg.KLE_INJPAT n.val) ≠ 0 → 2 ≤ W.fld val 0 2 → W.fld val 0 2 ≤ s.slotPasses n.val →
    Runs (.injctlWrite n val) s fun t =>
      t.bit (Reg.KLE_INJCTL n.val) 31 = true ∧ t.fld (Reg.KLE_INJCTL n.val) 0 14 = W.fld val 0 14 &&& 0x3F03 ∧
      RegsBut [Reg.KLE_INJCTL n.val] s t ∧ Keeps [.regs] s t) ∧
  (∀ (s : State) (n : Fin 32) (val : Word), s.live = true → (s.ks n.val).injCmd = false → W.bit val 31 = true →
    s.rd (Reg.KLE_INJPAT n.val) ≠ 0 → W.fld val 0 2 < 2 ∨ s.slotPasses n.val < W.fld val 0 2 →
    Runs (.injctlWrite n val) s fun t =>
      t.bit (Reg.KLE_INJCTL n.val) 31 = false ∧ t.fld (Reg.KLE_INJRES n.val) 0 8 = 0xFF ∧
        t.bit (Reg.KLE_INJRES n.val) 31 = true ∧
      RegsBut [Reg.KLE_INJCTL n.val, Reg.KLE_INJRES n.val] s t ∧ Keeps [.regs] s t)

/-- Chapter 12 (R657 to R669, Table 12-6): the vote. -/
def Obligations.HatchVote : Prop :=
  (∀ (s : State) (n b : Nat) (r : KRun) (coin : BitVec 64) (w : Fin 64) (v : Word), s.atVote n r 3 = true →
    r.s1 = [⟨b, .sig w.val, v⟩] → r.s2 = r.s1 →
    r.s3 = r.s1 →
    Runs (.hatchVote coin) s fun t =>
      t.fld (Reg.KLE_HSTAT n) 0 8 = 0 ∧ t.rd (ctxAddr n 0 w.val) = v ∧ t.sst n = 1 ∧ (t.ks n).run = none ∧
      (t.ks n).rd1 = 0 ∧ (t.ks n).rd2 = 0 ∧ (t.ks n).rd3 = 0 ∧ t.fld (Reg.KLE_HSTAT n) 12 4 = 0 ∧
      t.rd (Reg.KLE_SAMPLES n) = s.rd (Reg.KLE_SAMPLES n) + 1) ∧
  (∀ (s : State) (n b : Nat) (r : KRun) (coin : BitVec 64) (w : Fin 64) (v v' : Word), s.atVote n r 3 = true → v ≠ v' →
    r.s1 = [⟨b, .sig w.val, v⟩] →
    r.s2 = [⟨b, .sig w.val, v'⟩] → r.s3 = r.s1 → (W.of32 (s.plate n 5) (s.plate n 6)).getLsbD w.val = true →
    s.fld (Reg.KLE_HSTAT n) 12 4 + 1 < s.klePermn → s.fld (Reg.KLE_HTALLY n) 0 16 < 65535 →
    Runs (.hatchVote coin) s fun t =>
      t.fld (Reg.KLE_HSTAT n) 0 8 = 3 ∧ t.fld (Reg.KLE_HSTAT n) 8 2 = 2 ∧ t.fld (Reg.KLE_HSTAT n) 24 6 = w.val ∧
      t.bit (Reg.KLE_HSTAT n) 20 = true ∧ t.rd (ctxAddr n 0 w.val) = v ∧ (t.ks n).rd1 = 0 ∧ (t.ks n).rd2 = 1 ∧
        (t.ks n).rd3 = 0 ∧
      t.fld (Reg.KLE_HSTAT n) 12 4 = s.fld (Reg.KLE_HSTAT n) 12 4 + 1 ∧
      t.fld (Reg.KLE_HTALLY n) 0 16 = s.fld (Reg.KLE_HTALLY n) 0 16 + 1 ∧
      t.raised evHATCH_MISMATCH n (BitVec.ofNat 32 (3 + 2 * 2 ^ 8 + w.val * 2 ^ 16)) ∧ t.sst n = 1) ∧
  (∀ (s : State) (n b : Nat) (r : KRun) (coin : BitVec 64) (w : Fin 64) (v v' : Word), s.atVote n r 2 = true → v ≠ v' →
    r.s1 = [⟨b, .sig w.val, v⟩] →
    r.s2 = [⟨b, .sig w.val, v'⟩] → (W.of32 (s.plate n 5) (s.plate n 6)).getLsbD w.val = true →
    s.fld (Reg.KLE_HSTAT n) 12 4 + 1 < s.klePermn →
    Runs (.hatchVote coin) s fun t =>
      t.fld (Reg.KLE_HSTAT n) 0 8 = 6 ∧ t.rd (ctxAddr n 0 w.val) = s.rd (ctxAddr n 0 w.val) ∧ (t.ks n).rd2 = 1 ∧
      t.raised evHATCH_MISMATCH n (BitVec.ofNat 32 (6 + 2 * 2 ^ 8 + w.val * 2 ^ 16)) ∧ t.sst n = 1) ∧
  (∀ (s : State) (n b : Nat) (r : KRun) (coin : BitVec 64) (w : Fin 64) (v v' : Word), s.atVote n r 2 = true → v ≠ v' →
    r.s1 = [⟨b, .sig w.val, v⟩] →
    r.s2 = [⟨b, .sig w.val, v'⟩] → (W.of32 (s.plate n 5) (s.plate n 6)).getLsbD w.val = false →
    s.fld (Reg.KLE_HSTAT n) 16 4 < 7 → s.fld (Reg.KLE_HTALLY2 n) 0 16 < 65535 →
    Runs (.hatchVote coin) s fun t =>
      t.fld (Reg.KLE_HSTAT n) 0 8 = 1 ∧ t.rd (ctxAddr n 0 w.val) = v ∧ (t.ks n).rd2 = 1 ∧
      t.fld (Reg.KLE_HSTAT n) 16 4 = s.fld (Reg.KLE_HSTAT n) 16 4 + 1 ∧
      t.fld (Reg.KLE_HTALLY2 n) 0 16 = s.fld (Reg.KLE_HTALLY2 n) 0 16 + 1 ∧ t.sst n = 1) ∧
  (∀ (s : State) (n b : Nat) (r : KRun) (coin : BitVec 64) (w : Fin 64) (v v' : Word), s.atVote n r 2 = true → v ≠ v' →
    r.s1 = [⟨b, .sig w.val, v⟩] →
    r.s2 = [⟨b, .sig w.val, v'⟩] → (W.of32 (s.plate n 5) (s.plate n 6)).getLsbD w.val = true →
    s.klePermn ≤ s.fld (Reg.KLE_HSTAT n) 12 4 + 1 → s.klePermn ≤ 15 →
    Runs (.hatchVote coin) s fun t =>
      t.sst n = 4 ∧ t.bit Reg.KLE_PENNED n = true ∧ t.bit Reg.KLE_ENABLED n = false ∧ t.fld (Reg.KLE_SSTAT n) 16 8 = 4 ∧
      t.raised evSLOT_PENNED n 4)

/-- Chapter 13 (R80, R684 to R688, R692 to R699, R702, R704 to R707): the PWM modules. -/
def Obligations.PwmEvents : Prop :=
  (∀ (s : State) (m : Fin 12), s.zeroDue m.val = true → s.rd (Reg.PWM_EVSEL m.val) = 0 →
    Runs (.zero m) s fun t =>
      t.pwmCount m.val = 0 ∧ t.pwmDown m.val = (s.pwmMode m.val == 1) ∧ t.bit (Reg.PWM_COUNT m.val) 17 =
        (s.pwmTripped m.val && !(if s.bit (Reg.PWM_CFG m.val) 15 then !s.bit Reg.PWM_TRIPPED m.val else s.tripQuiet m.val)) ∧
      t.fld (Reg.PWM_OUT m.val) 0 2 = (s.fld (Reg.PWM_OUT m.val) 0 2 ||| (s.pm m.val).enReq) % 4 ∧ (t.pm m.val).enReq = 0 ∧
      (t.pm m.val).prd = (if s.pwmLd m.val 0 = 0 ∨ s.pwmLd m.val 0 = 2 then
        (s.shadowVal m.val 0 (fun e => decide (e.pt ≤ s.clk.tb.toNat))).elim (s.pm m.val).prd (· % 2 ^ 16) else (s.pm m.val).prd) ∧
      (t.pm m.val).ca = (if s.pwmLd m.val 1 = 0 ∨ s.pwmLd m.val 1 = 2 then
        (s.shadowVal m.val 1 (fun e => decide (e.pt ≤ s.clk.tb.toNat))).elim (s.pm m.val).ca (· % 2 ^ 20) else (s.pm m.val).ca) ∧
      (t.pm m.val).cb = (if s.pwmLd m.val 2 = 0 ∨ s.pwmLd m.val 2 = 2 then
        (s.shadowVal m.val 2 (fun e => decide (e.pt ≤ s.clk.tb.toNat))).elim (s.pm m.val).cb (· % 2 ^ 20) else (s.pm m.val).cb) ∧
      (t.pm m.val).tripLast = (s.pm m.val).tripCur) ∧
  (∀ (s : State) (m : Fin 12), s.zeroDue m.val = true → s.pwmMode m.val ≠ 1 →
    (tget [] (s.pm m.val).sh 1 = [] ∧ s.fld (Reg.PWM_CMPA m.val) 0 20 = (s.pm m.val).ca) ∨ s.pwmLd m.val 1 % 2 = 1 →
    Runs (.zero m) s fun t =>
      (t.pm m.val).chA.act = decide (0 < s.fine (s.pm m.val).ca) ∧ (t.pm m.val).chA.turned = false) ∧
  (∀ (s : State) (m : Fin 12), s.zeroDue m.val = true → s.pwmMode m.val ≠ 1 → s.pwmLd m.val 2 % 2 = 0 →
    tget [] (s.pm m.val).sh 2 = [] →
    (s.pm m.val).cb = 0 → s.bit Reg.PWM_DLSTAT 0 = true →
    Runs (.zero m) s fun t =>
      (t.pm m.val).cb = s.fld (Reg.PWM_CMPB m.val) 0 20 ∧
      (t.pm m.val).chB.act = decide (16 < s.fld (Reg.PWM_CMPB m.val) 0 20)) ∧
  (∀ (s : State) (m : Fin 12), s.zeroDue m.val = true → s.pwmMode m.val ≠ 1 → s.bit (Reg.PWM_OUT m.val) 0 = true →
    s.pwmTripped m.val = false → (s.pm m.val).chA.act = false → (s.pm m.val).chA.hold = 0 → 0 < s.fine (s.pm m.val).ca →
    tget [] (s.pm m.val).sh 1 = [] → s.fld (Reg.PWM_CMPA m.val) 0 20 = (s.pm m.val).ca →
    Runs (.zero m) s fun t => t.pwmLive m.val 0 = true ∧ t.pwmDriven m.val 0 = decide (s.deadTime m.val 0 = 0) ∧
      (t.pm m.val).chA.wait = (if s.deadTime m.val 0 = 0 then 0 else s.deadTime m.val 0 + 1)) ∧
  (∀ (s : State) (m : Fin 12), s.zeroDue m.val = true → s.bit (Reg.PWM_EVSEL m.val) 0 = true →
    s.fld (Reg.PWM_EVPRE m.val) 0 4 = 1 → s.pwmAt m.val 0 = false →
    Runs (.zero m) s fun t => t.asserted (8 + m.val) = true) ∧
  (∀ (s : State) (m : Fin 12), s.zeroDue m.val = true → m.val < 11 → s.fld (Reg.PWM_CFG m.val) 11 2 = 1 →
    Runs (.zero m) s fun t => (t.pm (m.val + 1)).sync = true) ∧
  (∀ (s : State) (m : Fin 12), s.periodDue m.val = true →
    Runs (.period m) s fun t =>
      t.pwmCount m.val = s.pwmPrd m.val % 65536 ∧ t.pwmDown m.val = (s.pwmMode m.val != 0) ∧
      (t.pm m.val).prd = (if s.pwmLd m.val 0 = 1 ∨ s.pwmLd m.val 0 = 2 then
        (s.shadowVal m.val 0 (fun e => decide (e.pt ≤ s.clk.tb.toNat))).elim (s.pm m.val).prd (· % 2 ^ 16) else (s.pm m.val).prd) ∧
      (t.pm m.val).ca = (if s.pwmLd m.val 1 = 1 ∨ s.pwmLd m.val 1 = 2 then
        (s.shadowVal m.val 1 (fun e => decide (e.pt ≤ s.clk.tb.toNat))).elim (s.pm m.val).ca (· % 2 ^ 20) else (s.pm m.val).ca)) ∧
  (∀ (s : State) (m : Fin 12), s.matchDue m.val 0 false = true → s.pwmAt m.val ((s.pm m.val).ca / 16) = false →
    (s.pm m.val).ca < 2 ^ 20 →
    Runs (.cau m) s fun t =>
      t.pwmCount m.val = (s.pm m.val).ca / 16 ∧ t.pwmDown m.val = false ∧ (t.pm m.val).chA.act = false ∧
      (t.pm m.val).chB.act = (s.pm m.val).chB.act ∧ (t.pm m.val).chB.turned = (s.pm m.val).chB.turned) ∧
  (∀ (s : State) (m : Fin 12), s.matchDue m.val 0 true = true → s.pwmAt m.val ((s.pm m.val).ca / 16) = false →
    (s.pm m.val).ca < 2 ^ 20 → (s.pm m.val).ca ≠ 0 →
    Runs (.cad m) s fun t =>
      t.pwmCount m.val = (s.pm m.val).ca / 16 ∧ t.pwmDown m.val = true ∧ (t.pm m.val).chA.act = true ∧
      (t.pm m.val).chB.act = (s.pm m.val).chB.act ∧ (t.pm m.val).chB.turned = (s.pm m.val).chB.turned) ∧
  (∀ (s : State) (m : Fin 12), s.matchDue m.val 1 false = true → s.pwmAt m.val ((s.pm m.val).cb / 16) = false →
    (s.pm m.val).cb < 2 ^ 20 →
    Runs (.cbu m) s fun t =>
      t.pwmCount m.val = (s.pm m.val).cb / 16 ∧ t.pwmDown m.val = false ∧ (t.pm m.val).chB.act = false ∧
      (t.pm m.val).chA.act = (s.pm m.val).chA.act ∧ (t.pm m.val).chA.turned = (s.pm m.val).chA.turned) ∧
  (∀ (s : State) (m : Fin 12), s.matchDue m.val 1 true = true → s.pwmAt m.val ((s.pm m.val).cb / 16) = false →
    (s.pm m.val).cb < 2 ^ 20 → (s.pm m.val).cb ≠ 0 →
    Runs (.cbd m) s fun t =>
      t.pwmCount m.val = (s.pm m.val).cb / 16 ∧ t.pwmDown m.val = true ∧ (t.pm m.val).chB.act = true ∧
      (t.pm m.val).chA.act = (s.pm m.val).chA.act ∧ (t.pm m.val).chA.turned = (s.pm m.val).chA.turned) ∧
  (∀ (s : State) (m : Fin 12), s.runs gPWM = true → s.pwmLd m.val 1 = 3 → s.pwmLd m.val 2 = 3 → s.pwmLd m.val 0 ≠ 3 →
    tget [] (s.pm m.val).sh 1 = [] → tget [] (s.pm m.val).sh 2 = [] →
    Runs (.immediateLoad m) s fun t =>
      (t.pm m.val).ca = s.fld (Reg.PWM_CMPA m.val) 0 20 ∧ (t.pm m.val).cb = s.fld (Reg.PWM_CMPB m.val) 0 20 ∧
      (t.pm m.val).prd = (s.pm m.val).prd ∧ t.rd (Reg.PWM_COUNT m.val) = s.rd (Reg.PWM_COUNT m.val)) ∧
  (∀ (s : State) (m : Fin 12), s.pwmCounts m.val = true → s.pwmLd m.val 0 = 3 → s.pwmMode m.val = 0 →
    tget [] (s.pm m.val).sh 0 = [] →
    max 2 (s.fld (Reg.PWM_PRD m.val) 0 16) ≤ s.pwmCount m.val → max 2 (s.fld (Reg.PWM_PRD m.val) 0 16) ≠ s.pwmPrd m.val →
    Runs (.immediateLoad m) s fun t =>
      (t.pm m.val).prd = s.fld (Reg.PWM_PRD m.val) 0 16 ∧ t.pwmCount m.val = 0 ∧ t.pwmDown m.val = false) ∧
  (∀ (s : State) (m : Fin 12), s.runs gPWM = true → (s.pm m.val).sync = true → s.bit (Reg.PWM_CFG m.val) 13 = true →
    s.pwmRun m.val = true →
    Runs (.syncin m) s fun t =>
      (t.pm m.val).sync = false ∧ t.pwmCount m.val = s.fld (Reg.PWM_PHASE m.val) 0 16 ∧
      t.pwmDown m.val = (if s.pwmMode m.val = 0 then false else if s.pwmMode m.val = 1 then true else s.bit (Reg.PWM_CFG m.val) 14) ∧
      RegsBut [Reg.PWM_COUNT m.val, Reg.PWM_DIAGSTAT (2 * m.val), Reg.PWM_DIAGSTAT (2 * m.val + 1)] s t) ∧
  (∀ (s : State) (m : Fin 12), s.runs gPWM = true → (s.pm m.val).sync = true → s.bit (Reg.PWM_CFG m.val) 13 = false →
    Runs (.syncin m) s fun t => t.pm m.val = { s.pm m.val with sync := false } ∧ Keeps [.pwm] s t) ∧
  (∀ (s : State) (val : Word), s.runs gPWM = true → W.bit val 0 = true →
    Runs (.gsync val) s fun t => t.pm 0 = { s.pm 0 with sync := true } ∧ Keeps [.pwm] s t) ∧
  (∀ (s : State) (m : Fin 12), s.live = true → s.gatedBit gPWM = false →
    Runs (.gstart (BitVec.ofNat 32 (2 ^ m.val))) s fun t =>
      t.pwmRun m.val = true ∧ t.pwmCount m.val = s.fld (Reg.PWM_PHASE m.val) 0 16 ∧ t.pwmDown m.val = (s.pwmMode m.val == 1) ∧
      (t.pm m.val).pre = [] ∧ RegsBut [Reg.PWM_CFG m.val, Reg.PWM_COUNT m.val] s t ∧ Keeps [.regs, .pwm] s t) ∧
  (∀ (s : State) (m : Fin 12), s.live = true → s.gatedBit gPWM = true →
    Runs (.gstart (BitVec.ofNat 32 (2 ^ m.val))) s fun t => t.bit Reg.PWM_STATUS 31 = true ∧ t.pwm = s.pwm) ∧
  (∀ (s : State) (m : Fin 12) (val : Word), s.runs gPWM = true → W.bit val 0 = true → s.bit (Reg.PWM_CFG m.val) 15 = true →
    s.bit Reg.PWM_TRIPPED m.val = false →
    Runs (.swtrip m val) s fun t =>
      t.pwmTripped m.val = true ∧ t.bit Reg.PWM_TRIPPED m.val = true ∧
      t.raised evPWM_TRIP m.val (BitVec.ofNat 32 (s.tripLines % 65536)) ∧ (t.pm m.val).tripCur = true) ∧
  (∀ (s : State) (m : Fin 12), s.runs gPWM = true → s.tripQuiet m.val = false → s.bit (Reg.PWM_CFG m.val) 15 = false →
    (s.pm m.val).tripCur = true →
    Runs (.pwmTrip m) s fun t =>
      t.pwmTripped m.val = true ∧ t.rd Reg.PWM_TRIPPED = s.rd Reg.PWM_TRIPPED ∧ t.hif = s.hif ∧
        RegsBut [Reg.PWM_COUNT m.val] s t) ∧
  (∀ (s : State) (m : Fin 12), s.tripQuiet m.val = true → Runs (.pwmTrip m) s (fun t => t = s)) ∧
  (∀ (s : State) (m : Fin 12), s.live = true →
    Runs (.outEnableWrite m 0) s fun t =>
      t.fld (Reg.PWM_OUT m.val) 0 2 = 0 ∧ (t.pm m.val).enReq = 0 ∧ RegsBut [Reg.PWM_OUT m.val] s t) ∧
  (∀ (s : State) (m : Fin 12), s.live = true → s.haltHolds = false → s.bit Reg.PWM_TRIPPED m.val = false →
    s.pwmRun m.val = true →
    s.fld (Reg.PWM_OUT m.val) 0 2 = 0 →
    Runs (.outEnableWrite m 3) s fun t =>
      t.fld (Reg.PWM_OUT m.val) 0 2 = 0 ∧ (t.pm m.val).enReq = 3 ∧ RegsBut [Reg.PWM_OUT m.val] s t) ∧
  (∀ (s : State) (m : Fin 12), s.live = true → s.haltHolds = true ∨ s.bit Reg.PWM_TRIPPED m.val = true ∨
    s.pwmRun m.val = false →
    s.fld (Reg.PWM_OUT m.val) 0 2 = 0 →
    Runs (.outEnableWrite m 3) s fun t =>
      t.fld (Reg.PWM_OUT m.val) 0 2 = 0 ∧ (t.pm m.val).enReq = (s.pm m.val).enReq &&& 3 ∧ t.bit Reg.PWM_STATUS 16 = true) ∧
  (∀ (s : State) (m : Fin 12), s.zeroDue m.val = false → Runs (.zero m) s (fun t => t = s)) ∧
  (∀ (s : State) (m : Fin 12), s.periodDue m.val = false → Runs (.period m) s (fun t => t = s)) ∧
  (∀ (s : State) (m : Fin 12), s.matchDue m.val 0 false = false → Runs (.cau m) s (fun t => t = s)) ∧
  (∀ (s : State) (m : Fin 12), s.matchDue m.val 0 true = false → Runs (.cad m) s (fun t => t = s)) ∧
  (∀ (s : State) (m : Fin 12), s.matchDue m.val 1 false = false → Runs (.cbu m) s (fun t => t = s)) ∧
  (∀ (s : State) (m : Fin 12), s.matchDue m.val 1 true = false → Runs (.cbd m) s (fun t => t = s)) ∧
  (∀ (s : State), s.live = true →
    Runs .delayLineLock s fun t => t.bit Reg.PWM_DLSTAT 0 = true ∧ RegsBut [Reg.PWM_DLSTAT] s t ∧ Keeps [.regs] s t)

/-- Chapter 13 (R708, R709, R711 to R713): open-load diagnosis. -/
def Obligations.OutputDiagnosis : Prop :=
  (∀ (s : State) (o : Fin 24) (k : Nat) (rest : List Nat) (sense : Bool), s.runs gPWM = true →
    s.bit (Reg.PWM_DIAGCFG o.val) 0 = true →
    (s.dg o.val).ended = k :: rest → k < s.diagLimit o.val →
    s.fld (Reg.PWM_DIAGSTAT o.val) 16 16 + 1 < max 1 (s.fld (Reg.PWM_DIAGTIM o.val) 16 16) →
    Runs (.diagPulse o sense) s fun t =>
      t.fld (Reg.PWM_DIAGSTAT o.val) 0 2 = 2 ∧
        t.fld (Reg.PWM_DIAGSTAT o.val) 16 16 = s.fld (Reg.PWM_DIAGSTAT o.val) 16 16 + 1 ∧
      (t.dg o.val).ended = rest ∧ RegsBut [Reg.PWM_DIAGSTAT o.val] s t ∧ Keeps [.regs, .diag] s t) ∧
  (∀ (s : State) (o : Fin 24) (k : Nat) (rest : List Nat) (sense : Bool), s.runs gPWM = true →
    s.bit (Reg.PWM_DIAGCFG o.val) 0 = true →
    (s.dg o.val).ended = k :: rest → k < s.diagLimit o.val →
    max 1 (s.fld (Reg.PWM_DIAGTIM o.val) 16 16) ≤ min 65535 (s.fld (Reg.PWM_DIAGSTAT o.val) 16 16 + 1) →
    s.bit (Reg.PWM_DIAGCFG o.val) 6 = false → s.bit (Reg.PWM_DIAGSTAT o.val) 3 = false →
    Runs (.diagPulse o sense) s fun t =>
      t.bit (Reg.PWM_DIAGSTAT o.val) 3 = true ∧ t.raised evOUTPUT_DIAG o.val 2) ∧
  (∀ (s : State) (o : Fin 24) (k : Nat) (rest : List Nat), s.runs gPWM = true → s.bit (Reg.PWM_DIAGCFG o.val) 0 = true →
    (s.dg o.val).ended = k :: rest ∨ ((s.dg o.val).ended = [] ∧ rest = [] ∧ s.diagReady o.val = true ∧
      k = s.diagLimit o.val) → s.diagLimit o.val ≤ k →
    (s.dg o.val).retry = false →
    Runs (.diagPulse o (s.bit (Reg.PWM_DIAGCFG o.val) 5)) s fun t =>
      t.rd (Reg.PWM_DIAGSTAT o.val) = 1 ∧ (t.dg o.val).ended = rest ∧ RegsBut [Reg.PWM_DIAGSTAT o.val] s t ∧
        Keeps [.regs, .diag] s t) ∧
  (∀ (s : State) (o : Fin 24) (k : Nat) (rest : List Nat), s.runs gPWM = true → s.bit (Reg.PWM_DIAGCFG o.val) 0 = true →
    (s.dg o.val).ended = k :: rest ∨ ((s.dg o.val).ended = [] ∧ rest = [] ∧ s.diagReady o.val = true ∧
      k = s.diagLimit o.val) → s.diagLimit o.val ≤ k →
    (s.dg o.val).retry = false →
    Runs (.diagPulse o (!s.bit (Reg.PWM_DIAGCFG o.val) 5)) s fun t =>
      t.fld (Reg.PWM_DIAGSTAT o.val) 0 2 = 3 ∧ (t.dg o.val).retry = true ∧ (t.dg o.val).ended = rest ∧
        RegsBut [Reg.PWM_DIAGSTAT o.val] s t ∧
      Keeps [.regs, .diag] s t) ∧
  (∀ (s : State) (o : Fin 24) (k : Nat) (rest : List Nat), s.runs gPWM = true → s.bit (Reg.PWM_DIAGCFG o.val) 0 = true →
    (s.dg o.val).ended = k :: rest ∨ ((s.dg o.val).ended = [] ∧ rest = [] ∧ s.diagReady o.val = true ∧
      k = s.diagLimit o.val) → s.diagLimit o.val ≤ k →
    (s.dg o.val).retry = true → s.bit (Reg.PWM_DIAGSTAT o.val) 2 = false →
    max 1 (s.fld Reg.PWM_DIAGPERM 0 4) ≤ min 15 (s.fld (Reg.PWM_DIAGSTAT o.val) 4 4 + 1) →
    s.fld (Reg.PWM_DIAGTALLY o.val) 0 16 < 65535 →
    Runs (.diagPulse o (!s.bit (Reg.PWM_DIAGCFG o.val) 5)) s fun t =>
      t.bit (Reg.PWM_DIAGSTAT o.val) 2 = true ∧ (t.dg o.val).retry = false ∧
      t.fld (Reg.PWM_DIAGTALLY o.val) 0 16 = s.fld (Reg.PWM_DIAGTALLY o.val) 0 16 + 1 ∧ t.raised evOUTPUT_DIAG o.val 1) ∧
  (∀ (s : State) (o : Fin 24) (sense : Bool),
    s.bit (Reg.PWM_DIAGCFG o.val) 0 = false ∨ ((s.dg o.val).ended = [] ∧ s.diagReady o.val = false) →
    Runs (.diagPulse o sense) s (fun t => t = s))

/-- Chapter 13 (R718 to R728, R730, R734): capture channels and quadrature decoders. -/
def Obligations.CaptureAndDecoders : Prop :=
  (∀ (s : State) (b : Fin 16) (rise : Bool) (held : BitVec 4) (back : BitVec 9), s.runs gCAPQD = true →
    s.fld (Reg.CAPQD_CFG b.val) 0 2 = 1 →
    s.fld (Reg.CAPQD_CFG b.val) 8 4 ≤ held.toNat →
    s.bit (Reg.CAPQD_CFG (b.val ^^^ 1)) 0 = false → edgeSel (s.fld (Reg.CAPQD_CFG b.val) 2 2) rise = true →
    (s.cp b.val).fifo.length < 8 →
    Runs (.captureEdge b rise held back) s fun t =>
      (t.cp b.val).fifo = (s.cp b.val).fifo ++
        [[BitVec.ofNat 32 (1 + (if rise then 4 else 0) + (if (s.cp b.val).lost = 0 then 0 else 128) +
            (if s.bit Reg.PWM_DLSTAT 0 then 0 else 256) + (s.cp b.val).seq % 256 * 65536 + 2 ^ 31),
          (s.stepTime back.toNat).setWidth 32, (s.stepTime back.toNat >>> 32).setWidth 32, 0, 0, 0, BitVec.ofNat 32 (min 65535 (s.cp b.val).lost), 0]] ∧
      (t.cp b.val).seq = (s.cp b.val).seq + 1 ∧ (t.cp b.val).lost = 0 ∧
      t.fld (Reg.CAPQD_CSTAT b.val) 0 4 = (s.cp b.val).fifo.length + 1 ∧
      RegsBut (Reg.CAPQD_CSTAT b.val :: icuRegs) s t ∧ Keeps [.regs, .cap] s t ∧
      ((s.cp b.val).fifo.length + 1 = min 8 (max 1 (s.fld (Reg.CAPQD_CFG b.val) 12 4)) →
        t.asserted (20 + b.val / 4) = true)) ∧
  (∀ (s : State) (b : Fin 16) (rise : Bool) (held : BitVec 4) (back : BitVec 9), s.runs gCAPQD = true →
    s.fld (Reg.CAPQD_CFG b.val) 0 2 = 1 →
    s.fld (Reg.CAPQD_CFG b.val) 8 4 ≤ held.toNat →
    s.bit (Reg.CAPQD_CFG (b.val ^^^ 1)) 0 = false → edgeSel (s.fld (Reg.CAPQD_CFG b.val) 2 2) rise = true →
    8 ≤ (s.cp b.val).fifo.length → s.fld (Reg.CAPQD_LOSTTALLY b.val) 0 16 < 65535 →
    Runs (.captureEdge b rise held back) s fun t =>
      t.cp b.val = { s.cp b.val with seq := (s.cp b.val).seq + 1, lost := (s.cp b.val).lost + 1 } ∧
      t.fld (Reg.CAPQD_LOSTTALLY b.val) 0 16 = s.fld (Reg.CAPQD_LOSTTALLY b.val) 0 16 + 1 ∧
      t.bit (Reg.CAPQD_CSTAT b.val) 8 = true ∧
      RegsBut [Reg.CAPQD_LOSTTALLY b.val, Reg.CAPQD_CSTAT b.val] s t ∧ Keeps [.regs, .cap] s t) ∧
  (∀ (s : State) (b : Fin 16) (rise : Bool) (held : BitVec 4) (back : BitVec 9),
    s.bit (Reg.CAPQD_CFG b.val) 0 = false → s.bit (Reg.CAPQD_CFG (b.val ^^^ 1)) 0 = false →
    Runs (.captureEdge b rise held back) s (fun t => t = s)) ∧
  (∀ (s : State) (b : Fin 16) (rise : Bool) (held : BitVec 4) (back : BitVec 9), s.runs gCAPQD = true →
    s.fld (Reg.CAPQD_CFG b.val) 0 2 = 3 →
    s.fld (Reg.CAPQD_CFG b.val) 8 4 ≤ held.toNat →
    s.bit (Reg.CAPQD_CFG (b.val ^^^ 1)) 0 = false → edgeSel (s.fld (Reg.CAPQD_CFG b.val) 2 2) rise = true →
    s.bit (Reg.CAPQD_CFG b.val) 6 = true → (s.cp b.val).disarmed = false → (s.cp b.val).start = none →
      (s.cp b.val).stop = none →
    Runs (.captureEdge b rise held back) s fun t =>
      t.cp b.val = { s.cp b.val with start := some (s.stepTime back.toNat, rise) } ∧ RegsBut [] s t ∧ Keeps [.cap] s t) ∧
  (∀ (s : State) (b : Fin 16) (rise r0 : Bool) (t0 : StepTime) (held : BitVec 4) (back : BitVec 9), s.runs gCAPQD = true →
    s.fld (Reg.CAPQD_CFG (b.val ^^^ 1)) 0 2 = 3 → s.fld (Reg.CAPQD_CFG (b.val ^^^ 1)) 8 4 ≤ held.toNat →
      s.bit (Reg.CAPQD_CFG b.val) 0 = false →
    edgeSel (s.fld (Reg.CAPQD_CFG (b.val ^^^ 1)) 4 2) rise = true → s.bit (Reg.CAPQD_CFG (b.val ^^^ 1)) 6 = true →
    (s.cp (b.val ^^^ 1)).disarmed = false → (s.cp (b.val ^^^ 1)).start = some (t0, r0) → (s.cp (b.val ^^^ 1)).fifo = [] →
    t0.toNat < (s.stepTime back.toNat).toNat →
    Runs (.captureEdge b rise held back) s fun t =>
      ((t.cp (b.val ^^^ 1)).fifo.headD []).drop 1 =
        [t0.setWidth 32, (t0 >>> 32).setWidth 32, (s.stepTime back.toNat).setWidth 32, (s.stepTime back.toNat >>> 32).setWidth 32,
          (if (s.stepTime back.toNat).toNat - t0.toNat ≤ 0xFFFFFFFF then BitVec.ofNat 32 ((s.stepTime back.toNat).toNat - t0.toNat) else 0xFFFFFFFF),
          BitVec.ofNat 32 (min 65535 (s.cp (b.val ^^^ 1)).lost), 0] ∧
      W.fld (((t.cp (b.val ^^^ 1)).fifo.headD []).headD 0) 0 7 =
        2 + (if r0 then 4 else 0) + (if (s.stepTime back.toNat).toNat - t0.toNat ≤ 0xFFFFFFFF then 0 else 64) ∧
      (t.cp (b.val ^^^ 1)).start = none ∧ (t.cp (b.val ^^^ 1)).stop = none ∧
      (t.cp (b.val ^^^ 1)).disarmed = (!s.bit (Reg.CAPQD_CFG (b.val ^^^ 1)) 7) ∧
      RegsBut (Reg.CAPQD_CSTAT (b.val ^^^ 1) :: icuRegs) s t ∧ Keeps [.regs, .cap] s t) ∧
  (∀ (s : State) (b : Fin 16) (rise : Bool) (held : BitVec 4) (back : BitVec 9), s.bit (Reg.CAPQD_CFG b.val) 1 = true →
    (s.cp b.val).disarmed = true →
    s.bit (Reg.CAPQD_CFG (b.val ^^^ 1)) 0 = false →
    Runs (.captureEdge b rise held back) s (fun t => t = s)) ∧
  (∀ (s : State) (b : Fin 16) (rise : Bool) (held : BitVec 4) (back : BitVec 9), held.toNat < s.fld (Reg.CAPQD_CFG b.val) 8 4 →
    held.toNat < s.fld (Reg.CAPQD_CFG (b.val ^^^ 1)) 8 4 →
    Runs (.captureEdge b rise held back) s (fun t => t = s)) ∧
  (∀ (s : State) (n : Fin 16), s.linkServes = true → s.memServed = true → s.regServed .host (Reg.CAPQD_REC n.val 7) = true →
    ((s.cp n.val).fifo.length ≤ 1 → Runs (.captureRecordRead n true .good) s (fun t => t = { s with reply := .word 0 })) ∧
    Runs (.captureRecordRead n false .good) s fun t =>
      t.reply = .word (((s.cp n.val).fifo.headD []).getD 7 0) ∧
        t.cp n.val = { s.cp n.val with fifo := (s.cp n.val).fifo.tail } ∧
      t.fld (Reg.CAPQD_CSTAT n.val) 0 4 = ((s.cp n.val).fifo.length - 1) % 16 ∧
      RegsBut [Reg.CAPQD_CSTAT n.val] s t ∧ Keeps [.regs, .cap, .reply] s t) ∧
  (∀ (s : State) (n : Fin 16), s.live = true →
    Runs (.captureArm n 1) s fun t => t.cp n.val = { s.cp n.val with disarmed := false } ∧ Keeps [.cap] s t) ∧
  (∀ (s : State) (d : Fin 4) (fwd onB : Bool) (held : BitVec 4) (back : BitVec 9), s.runs gCAPQD = true →
    s.bit (Reg.CAPQD_QCFG d.val) 0 = true →
    fwd = (if onB then (s.qdu d.val).a != (s.qdu d.val).b else (s.qdu d.val).a == (s.qdu d.val).b) →
    s.fld (Reg.CAPQD_QCFG d.val) 4 4 ≤ held.toNat →
    s.bit (Reg.CAPQD_QSTAT d.val) 0 = (fwd == s.bit (Reg.CAPQD_QCFG d.val) 1) →
    Runs (.qdEdge d onB false held back) s fun t =>
      t.rd (Reg.CAPQD_POS d.val) = (if fwd = s.bit (Reg.CAPQD_QCFG d.val) 1 then s.rd (Reg.CAPQD_POS d.val) - 1
        else s.rd (Reg.CAPQD_POS d.val) + 1) ∧
      t.bit (Reg.CAPQD_QSTAT d.val) 1 = false ∧ t.bit (Reg.CAPQD_QSTAT d.val) 0 = s.bit (Reg.CAPQD_QSTAT d.val) 0 ∧
      (t.qdu d.val).times = (s.stepTime back.toNat :: (s.qdu d.val).times).take (s.fld (Reg.CAPQD_QCFG d.val) 8 4 + 2) ∧
        (t.qdu d.val).last = s.stepTime back.toNat ∧
      (t.qdu d.val).a = ((s.qdu d.val).a != !onB) ∧ (t.qdu d.val).b = ((s.qdu d.val).b != onB) ∧
      RegsBut [Reg.CAPQD_POS d.val, Reg.CAPQD_QSTAT d.val, Reg.CAPQD_SPEED d.val] s t ∧ Keeps [.regs, .qd, .free] s t) ∧
  (∀ (s : State) (d : Fin 4) (fwd onB : Bool) (t0 : StepTime) (held : BitVec 4) (back : BitVec 9), s.runs gCAPQD = true →
    s.bit (Reg.CAPQD_QCFG d.val) 0 = true →
    fwd = (if onB then (s.qdu d.val).a != (s.qdu d.val).b else (s.qdu d.val).a == (s.qdu d.val).b) →
    s.fld (Reg.CAPQD_QCFG d.val) 4 4 ≤ held.toNat →
    s.bit (Reg.CAPQD_QSTAT d.val) 0 = (fwd == s.bit (Reg.CAPQD_QCFG d.val) 1) → (s.qdu d.val).times = [t0] →
      t0.toNat < (s.stepTime back.toNat).toNat →
    Runs (.qdEdge d onB false held back) s fun t =>
      t.rd (Reg.CAPQD_SPEED d.val) = F32.ofRatio (fwd == s.bit (Reg.CAPQD_QCFG d.val) 1) 12800000000 ((s.stepTime back.toNat).toNat - t0.toNat)) ∧
  (∀ (s : State) (d : Fin 4) (fwd onB : Bool) (held : BitVec 4) (back : BitVec 9), s.runs gCAPQD = true →
    s.bit (Reg.CAPQD_QCFG d.val) 0 = true →
    fwd = (if onB then (s.qdu d.val).a != (s.qdu d.val).b else (s.qdu d.val).a == (s.qdu d.val).b) →
    s.fld (Reg.CAPQD_QCFG d.val) 4 4 ≤ held.toNat →
    s.bit (Reg.CAPQD_QSTAT d.val) 0 ≠ (fwd == s.bit (Reg.CAPQD_QCFG d.val) 1) →
    Runs (.qdEdge d onB false held back) s fun t =>
      t.rd (Reg.CAPQD_POS d.val) = (if fwd = s.bit (Reg.CAPQD_QCFG d.val) 1 then s.rd (Reg.CAPQD_POS d.val) - 1
        else s.rd (Reg.CAPQD_POS d.val) + 1) ∧
      t.bit (Reg.CAPQD_QSTAT d.val) 0 = (!s.bit (Reg.CAPQD_QSTAT d.val) 0) ∧ t.bit (Reg.CAPQD_QSTAT d.val) 8 = true ∧
      t.rd (Reg.CAPQD_SPEED d.val) = 0 ∧ (t.qdu d.val).times = [s.stepTime back.toNat] ∧
        (t.qdu d.val).last = s.stepTime back.toNat ∧
      t.raised evQD_MOTION d.val 1) ∧
  (∀ (s : State) (d : Fin 4) (onB : Bool) (held : BitVec 4) (back : BitVec 9), s.runs gCAPQD = true →
    s.bit (Reg.CAPQD_QCFG d.val) 0 = true →
    s.fld (Reg.CAPQD_ERRTALLY d.val) 0 16 < 65535 → s.fld (Reg.CAPQD_QCFG d.val) 4 4 ≤ held.toNat →
    Runs (.qdEdge d onB true held back) s fun t =>
      t.fld (Reg.CAPQD_ERRTALLY d.val) 0 16 = s.fld (Reg.CAPQD_ERRTALLY d.val) 0 16 + 1 ∧
        t.bit (Reg.CAPQD_QSTAT d.val) 11 = true ∧
      t.bit (Reg.CAPQD_QSTAT d.val) 0 = s.bit (Reg.CAPQD_QSTAT d.val) 0 ∧ (t.qdu d.val).times = [] ∧
      (t.qdu d.val).a = !(s.qdu d.val).a ∧ (t.qdu d.val).b = !(s.qdu d.val).b ∧
      (s.bit (Reg.CAPQD_IEN d.val) 3 = true → t.asserted (24 + d.val) = true) ∧
      RegsBut (Reg.CAPQD_ERRTALLY d.val :: Reg.CAPQD_QSTAT d.val :: icuRegs) s t ∧ Keeps [.regs, .qd] s t) ∧
  (∀ (s : State) (d : Fin 4), s.runs gCAPQD = true → s.bit (Reg.CAPQD_QCFG d.val) 0 = true →
    s.fld (Reg.CAPQD_QCFG d.val) 2 2 ≠ 0 → (s.qdu d.val).a = true → (s.qdu d.val).b = true →
    Runs (.qdIndex d) s fun t =>
      t.rd (Reg.CAPQD_IDXPOS d.val) = s.rd (Reg.CAPQD_POS d.val) ∧
      t.rd (Reg.CAPQD_POS d.val) = (if s.fld (Reg.CAPQD_QCFG d.val) 2 2 = 2 ∨
        (s.fld (Reg.CAPQD_QCFG d.val) 2 2 = 3 ∧ (s.qdu d.val).indexed = false) then 0 else s.rd (Reg.CAPQD_POS d.val)) ∧
      t.bit (Reg.CAPQD_QSTAT d.val) 10 = true ∧ (t.qdu d.val).indexed = true ∧
      RegsBut (Reg.CAPQD_IDXPOS d.val :: Reg.CAPQD_POS d.val :: Reg.CAPQD_QSTAT d.val :: icuRegs) s t ∧
        Keeps [.regs, .qd] s t) ∧
  (∀ (s : State) (d : Fin 4), s.runs gCAPQD = true → s.bit (Reg.CAPQD_QCFG d.val) 0 = true →
    s.rd (Reg.CAPQD_SPEED d.val) &&& 0x7FFFFFFF ≠ 0 → (s.qdu d.val).last.toNat < 32 * s.clk.tb.toNat →
    Runs (.qdSpeedDecay d) s fun t =>
      t.rd (Reg.CAPQD_SPEED d.val) =
        (if F32.lt (F32.ofRatio false 12800000000 (32 * s.clk.tb.toNat - (s.qdu d.val).last.toNat)) (s.rd (Reg.CAPQD_SPEED d.val) &&& 0x7FFFFFFF)
        then F32.ofRatio false 12800000000 (32 * s.clk.tb.toNat - (s.qdu d.val).last.toNat) ||| (s.rd (Reg.CAPQD_SPEED d.val) &&& 0x80000000)
        else s.rd (Reg.CAPQD_SPEED d.val)) ∧
      RegsBut [Reg.CAPQD_SPEED d.val] s t ∧ Keeps [.regs] s t) ∧
  (∀ (s : State) (d : Fin 4), s.runs gCAPQD = true → s.bit (Reg.CAPQD_QCFG d.val) 0 = true →
    s.bit (Reg.CAPQD_QSTAT d.val) 1 = false →
    12800 * max 1 (s.fld (Reg.CAPQD_STALLTMO d.val) 0 20) ≤ 32 * s.clk.tb.toNat - (s.qdu d.val).last.toNat →
    Runs (.qdStall d false) s fun t =>
      t.rd (Reg.CAPQD_SPEED d.val) = 0 ∧ t.bit (Reg.CAPQD_QSTAT d.val) 1 = true ∧ t.bit (Reg.CAPQD_QSTAT d.val) 9 = true ∧
      (t.qdu d.val).times = [] ∧ t.raised evQD_MOTION d.val 0 ∧ t.rd (Reg.CAPQD_POS d.val) = s.rd (Reg.CAPQD_POS d.val)) ∧
  (∀ (s : State) (d : Fin 4), (s.qdu d.val).a = false ∨ (s.qdu d.val).b = false → Runs (.qdIndex d) s (fun t => t = s)) ∧
  (∀ (s : State) (d : Fin 4) (onB both : Bool) (held : BitVec 4) (back : BitVec 9), held.toNat < s.fld (Reg.CAPQD_QCFG d.val) 4 4 →
    Runs (.qdEdge d onB both held back) s (fun t => t = s)) ∧
  (∀ (s : State) (d : Fin 4), Runs (.qdStall d true) s (fun t => t = s)) ∧
  (∀ (s : State) (d : Fin 4), (s.qdu d.val).sample = none → Runs (.qdRouteSample d) s (fun t => t = s)) ∧
  (∀ (s : State) (d : Fin 4),
    32 * s.clk.tb.toNat - (s.qdu d.val).last.toNat < 12800 * max 1 (s.fld (Reg.CAPQD_STALLTMO d.val) 0 20) →
    Runs (.qdStall d false) s (fun t => t = s)) ∧
  (∀ (s : State) (d : Fin 4) (x y : Word), s.runs gCAPQD = true → (s.qdu d.val).sample = some (x, y) →
    s.bit (Reg.CAPQD_QCFG d.val) 13 = false →
    Runs (.qdRouteSample d) s fun t =>
      t.latch (s.fld (Reg.CAPQD_ROUTE d.val) 8 5) (s.fld (Reg.CAPQD_ROUTE d.val) 16 6) = some x ∧
      (t.qdu d.val).sample = none ∧ RegsBut [] s t ∧ Keeps [.qd, .kle] s t) ∧
  (∀ (s : State) (d : Fin 4) (x y : Word), s.runs gCAPQD = true → (s.qdu d.val).sample = some (x, y) →
    s.bit (Reg.CAPQD_QCFG d.val) 13 = true →
    s.fld (Reg.CAPQD_ROUTE d.val) 16 6 ≤ 62 →
    Runs (.qdRouteSample d) s fun t =>
      t.latch (s.fld (Reg.CAPQD_ROUTE d.val) 8 5) (s.fld (Reg.CAPQD_ROUTE d.val) 16 6) = some x ∧
      t.latch (s.fld (Reg.CAPQD_ROUTE d.val) 8 5) (s.fld (Reg.CAPQD_ROUTE d.val) 16 6 + 1) = some y ∧
      RegsBut [] s t) ∧
  (∀ (s : State) (d : Fin 4) (x y : Word), s.runs gCAPQD = true → (s.qdu d.val).sample = some (x, y) →
    s.bit (Reg.CAPQD_QCFG d.val) 13 = true →
    s.fld (Reg.CAPQD_ROUTE d.val) 16 6 = 63 →
    Runs (.qdRouteSample d) s fun t => t.bit Reg.CAPQD_STATUS 0 = true ∧ RegsBut [Reg.CAPQD_STATUS] s t)

/-- Chapter 14 (R747 to R751, R753, R754, R756, R757, R759 to R761, R766, R768, R773, R774, R790 to R793, R796): musters. -/
def Obligations.Musters : Prop :=
  (∀ (s : State) (n : Fin 4), s.runs gMBM = true → s.listActive n.val = true → s.rd (Reg.MBM_LIST_PERIOD n.val) ≠ 0 →
    s.listRunning n.val = false → (s.ml n.val).stopping = false → (s.ml n.val).num < 0xFFFFFFFF → s.nent n.val ≤ 256 →
    s.startHeld n.val = false → (s.ml n.val).next ≠ 0 → (s.ml n.val).next ≤ s.clk.tb.toNat →
    Runs (.musterPeriodTick n) s fun t =>
      t.listRunning n.val = true ∧ (t.ml n.val).num = (s.ml n.val).num + 1 ∧ (t.ml n.val).t0 = (s.ml n.val).next ∧
      (t.ml n.val).next = (s.ml n.val).next + 400 * s.fld (Reg.MBM_LIST_PERIOD n.val) 0 24 ∧
      ((portIds.all fun p => !s.takesPart n.val p) = true → t.listPhase n.val = 2 ∧ (t.ml n.val).bells = [] ∧
        (t.ml n.val).bwt = 0)) ∧
  (∀ (s : State) (n : Fin 4), s.runs gMBM = true → s.listActive n.val = true → s.rd (Reg.MBM_LIST_PERIOD n.val) ≠ 0 →
    s.listRunning n.val = true → s.fld (Reg.MBM_LIST_SKIPTALLY n.val) 0 16 < 65535 →
    s.startHeld n.val = false → (s.ml n.val).next ≠ 0 → (s.ml n.val).next ≤ s.clk.tb.toNat → (s.ml n.val).by_ = .tick →
    Runs (.musterPeriodTick n) s fun t =>
      t.ml n.val = { s.ml n.val with
        next := (s.ml n.val).next + 400 * s.fld (Reg.MBM_LIST_PERIOD n.val) 0 24, late := true } ∧
      t.fld (Reg.MBM_LIST_SKIPTALLY n.val) 0 16 = s.fld (Reg.MBM_LIST_SKIPTALLY n.val) 0 16 + 1 ∧
      RegsBut [Reg.MBM_LIST_SKIPTALLY n.val] s t ∧ Keeps [.regs, .mbm] s t) ∧
  (∀ (s : State) (n : Fin 4), s.runs gMBM = true → s.listActive n.val = true → s.rd (Reg.MBM_LIST_PERIOD n.val) ≠ 0 →
    s.listRunning n.val = false → (s.ml n.val).stopping = false → s.nent n.val ≤ 256 →
    s.startHeld n.val = false → (s.ml n.val).next = 0 → s.clk.tickPhase = 0 →
    Runs (.musterPeriodTick n) s fun t => t.listRunning n.val = true ∧ (t.ml n.val).t0 = s.clk.tb.toNat) ∧
  (∀ (s : State) (n : Fin 4), s.listActive n.val = false ∨ s.rd (Reg.MBM_LIST_PERIOD n.val) = 0 ∨
    s.clk.tb.toNat < (s.ml n.val).next →
    Runs (.musterPeriodTick n) s (fun t => t = s)) ∧
  (∀ (s : State) (n : Fin 4), s.runs gMBM = true → s.listActive n.val = true → s.rd (Reg.MBM_LIST_PERIOD n.val) ≠ 0 →
    s.listRunning n.val = true → s.startHeld n.val = false → (s.ml n.val).next ≠ 0 → (s.ml n.val).next ≤ s.clk.tb.toNat →
    (s.ml n.val).by_ = .now → (s.ml n.val).at_ = (s.ml n.val).next →
    Runs (.musterPeriodTick n) s fun t =>
      t.ml n.val = { s.ml n.val with next := (s.ml n.val).next + 400 * s.fld (Reg.MBM_LIST_PERIOD n.val) 0 24 } ∧
      RegsBut [] s t ∧ Keeps [.mbm] s t) ∧
  (∀ (s : State) (n : Fin 4), s.runs gMBM = true → s.listActive n.val = true →
    s.listRunning n.val = false → (s.ml n.val).stopping = false → (s.ml n.val).num = 0xFFFFFFFF → s.nent n.val ≤ 256 →
    Runs (.mbmTrig (BitVec.ofNat 32 (2 ^ n.val))) s fun t =>
      t.listRunning n.val = true ∧ (t.ml n.val).num = 1 ∧ (t.ml n.val).t0 = s.periEdge) ∧
  (∀ (s : State) (n : Fin 4), s.runs gMBM = true → s.listActive n.val = true →
    s.listRunning n.val = true → (s.ml n.val).by_ ≠ .tick → s.fld (Reg.MBM_LIST_SKIPTALLY n.val) 0 16 < 65535 →
    Runs (.mbmTrig (BitVec.ofNat 32 (2 ^ n.val))) s fun t =>
      t.fld (Reg.MBM_LIST_SKIPTALLY n.val) 0 16 = s.fld (Reg.MBM_LIST_SKIPTALLY n.val) 0 16 + 1 ∧
      RegsBut [Reg.MBM_LIST_SKIPTALLY n.val] s t ∧ Keeps [.regs] s t) ∧
  (∀ (s : State) (n : Fin 4) (port : BitVec 8) (late : Nat), s.runs gMBM = true → s.listRunning n.val = true →
    tget Bell.none (s.ml n.val).bells port.toNat = .waiting → s.portReady port.toNat = true → isSe port.toNat = false →
    s.clk.tb.toNat + 4 * s.bellLen port.toNat = s.bwtNow n.val →
    Runs (.bellwetherPortStart n port late) s fun t =>
      tget Bell.none (t.ml n.val).bells port.toNat =
        (if (if s.fld (Reg.MBM_LIST_SKEWLIM n.val) 0 12 = 0 then 2 else s.fld (Reg.MBM_LIST_SKEWLIM n.val) 0 12) < late then .late
        else .running) ∧
      t.use port.toNat = .bell n.val ∧
      (isTw port.toNat = true → t.bit (Reg.TW_PSTAT port.toNat) 10 = true ∧ t.bit (Reg.TW_PSTAT port.toNat) 11 = true) ∧
      RegsBut [Reg.TW_PSTAT port.toNat] s t ∧ Keeps [.regs, .mbm, .ports] s t) ∧
  (∀ (s : State) (n : Fin 4) (port : BitVec 8) (acked : Bool), s.use port.toNat = .bell n.val → s.listRunning n.val = true →
    s.runs (portGate port.toNat) = true → tget Bell.none (s.ml n.val).bells port.toNat = .running → isTw port.toNat = true →
    Runs (.bellwetherEnd n port acked) s fun t =>
      tget Bell.none (t.ml n.val).bells port.toNat = (if acked then .good else .bad) ∧ t.use port.toNat = .none ∧
      RegsBut [Reg.MBM_LIST_STAT n.val] s t ∧ Keeps [.regs, .mbm, .ports] s t) ∧
  (∀ (s : State) (n : Fin 4) (port : BitVec 8) (acked : Bool), s.use port.toNat = .bell n.val → s.listRunning n.val = true →
    s.runs (portGate port.toNat) = true → tget Bell.none (s.ml n.val).bells port.toNat = .late →
    isSe port.toNat = false ∨ s.seAsked port.toNat = false →
    Runs (.bellwetherEnd n port acked) s fun t => tget Bell.none (t.ml n.val).bells port.toNat = .bad ∧
      t.use port.toNat = .none) ∧
  (∀ (s : State) (n : Fin 4) (e : BitVec 8), s.runs gMBM = true → s.listRunning n.val = true → e.toNat < s.nent n.val →
    (s.ent n.val e.toNat).ph = .waiting → isTw (s.entPort n.val e.toNat) = true →
      s.portReady (s.entPort n.val e.toNat) = true →
    s.entNext n.val e.toNat = true → s.othersFirst n.val (s.entPort n.val e.toNat) = false →
    tget Bell.none (s.ml n.val).bells (s.entPort n.val e.toNat) = .good → (s.ml n.val).t0 ≤ s.clk.tb.toNat →
    s.clk.tb.toNat < s.ticksFrom (s.ml n.val).t0 (s.listDeadline n.val) →
    (s.entBw n.val e.toNat = true → s.ticksFrom (s.bwtNow n.val) (W.fld (s.entW n.val e.toNat 1) 0 12) ≤ s.clk.tb.toNat) →
    Runs (.entryStart n e) s fun t =>
      t.ent n.val e.toNat = { s.ent n.val e.toNat with ph := .first, started := true, tried := true, t0 := s.clk.tb.toNat, t1 := s.clk.tb.toNat } ∧
      t.use (s.entPort n.val e.toNat) = .entry n.val e.toNat false ∧
      RegsBut [Reg.TW_PSTAT (s.entPort n.val e.toNat)] s t ∧ Keeps [.regs, .mbm, .ports] s t) ∧
  (∀ (s : State) (n : Fin 4) (e : BitVec 8), s.entNext n.val e.toNat = false ∨ s.portReady (s.entPort n.val e.toNat) = false ∨
      s.othersFirst n.val (s.entPort n.val e.toNat) = true ∨
        (tget Bell.none (s.ml n.val).bells (s.entPort n.val e.toNat)).open = true ∨
      s.ticksFrom (s.ml n.val).t0 (s.listDeadline n.val) ≤ s.clk.tb.toNat →
    Runs (.entryStart n e) s (fun t => t = s)) ∧
  (∀ (s : State) (n : Fin 4) (e : BitVec 8), s.runs gMBM = true → s.listActive n.val = true → (s.ml n.val).stopping = false →
    s.listRunning n.val = false → e.toNat < s.nent n.val → s.rd (Reg.MBM_LIST_RUNAHEAD n.val) ≠ 0 →
      s.rd (Reg.MBM_LIST_PERIOD n.val) ≠ 0 →
    s.entIdem n.val e.toNat = true → s.entBw n.val e.toNat = false → s.entLen n.val e.toNat ≤ 8 →
      s.entPenned n.val e.toNat = false →
    (s.ent n.val e.toNat).ph = .idle → isTw (s.entPort n.val e.toNat) = true → s.portReady (s.entPort n.val e.toNat) = true →
    s.swBusy (s.entPort n.val e.toNat) = false → s.portAhead (s.entPort n.val e.toNat) = false →
      s.clk.tb.toNat < (s.ml n.val).next →
    (s.ml n.val).next ≤ s.clk.tb.toNat + 400 * s.fld (Reg.MBM_LIST_RUNAHEAD n.val) 0 16 →
    Runs (.runaheadStart n e) s fun t =>
      t.ent n.val e.toNat = { s.ent n.val e.toNat with
        ahead := true, ph := .first, started := true, tried := true, t0 := s.clk.tb.toNat, t1 := s.clk.tb.toNat } ∧
      t.use (s.entPort n.val e.toNat) = .entry n.val e.toNat false ∧ Keeps [.regs, .mbm, .ports] s t) ∧
  (∀ (s : State) (n : Fin 4) (e : BitVec 8), s.entIdem n.val e.toNat = false ∨ s.entBw n.val e.toNat = true ∨
    8 < s.entLen n.val e.toNat ∨
      s.rd (Reg.MBM_LIST_RUNAHEAD n.val) = 0 ∨ s.listRunning n.val = true ∨
      s.clk.tb.toNat + 400 * s.fld (Reg.MBM_LIST_RUNAHEAD n.val) 0 16 < (s.ml n.val).next →
    Runs (.runaheadStart n e) s (fun t => t = s)) ∧
  (∀ (s : State) (n : Fin 4) (e : BitVec 8) (a b : Byte), s.use (s.entPort n.val e.toNat) = .entry n.val e.toNat false →
    s.runs (portGate (s.entPort n.val e.toNat)) = true → isTw (s.entPort n.val e.toNat) = true →
      (s.port (s.entPort n.val e.toNat)).conv = false →
    s.entLen n.val e.toNat = 1 → s.listRunning n.val = true → (s.ent n.val e.toNat).ph = .first → e.toNat = 0 →
    s.clk.tb.toNat ≤ s.ticksFrom (s.ml n.val).t0 (s.listDeadline n.val) → s.tmoGone n.val 0 1 = false →
    xCrc (s.entXarg n.val 0) = false →
    (s.rd (Reg.MBM_LIST_FOLD n.val)).toNat % 32 = 0 → s.back n.val + 64 ≤ 0x200000 → s.ecc = [] →
    Runs (.entryAttemptEnd n e 0 false [a, b]) s fun t =>
      (t.ent n.val 0).ph = .finished ∧ (t.ent n.val 0).status = 0 ∧ (t.ent n.val 0).retried = false ∧
      t.use (s.entPort n.val 0) = .none ∧ t.fld (Reg.MBM_ENTSTAT n.val 0) 0 8 = 0 ∧ t.fld (Reg.MBM_ENTSTAT n.val 0) 8 4 = 0 ∧
      t.rdWord (s.back n.val + 32 + 4) = BitVec.ofNat 32 (s.ml n.val).num ∧
        t.rdWord (s.back n.val + 32 + 16) = (groupWord (xBe (s.entXarg n.val 0)) a b).setWidth 32 ∧
      RegsBut [Reg.MBM_ENTSTAT n.val 0] s t) ∧
  (∀ (s : State) (n : Fin 4) (e status : BitVec 8) (bytes : List Byte), s.use (s.entPort n.val e.toNat) = .entry n.val e.toNat false →
    s.runs (portGate (s.entPort n.val e.toNat)) = true → isTw (s.entPort n.val e.toNat) = true →
    status = 1 ∨ status = 2 ∧ s.tmoGone n.val e.toNat 0 = true → (s.ent n.val e.toNat).ph = .first →
      s.tmoGone n.val e.toNat 1 = false →
    s.clk.tb.toNat < s.ticksFrom (s.ml n.val).t0 (s.listDeadline n.val) → s.entPenned n.val e.toNat = false →
    Runs (.entryAttemptEnd n e status false bytes) s fun t =>
      (t.ent n.val e.toNat).ph = .second ∧ (t.ent n.val e.toNat).status = status.toNat ∧
      t.use (s.entPort n.val e.toNat) = .entry n.val e.toNat false ∧
      RegsBut [Reg.TW_PSTAT (s.entPort n.val e.toNat)] s t ∧ Keeps [.regs, .mbm, .ports] s t) ∧
  (∀ (s : State) (n : Fin 4) (e status : BitVec 8) (bytes : List Byte), s.use (s.entPort n.val e.toNat) = .entry n.val e.toNat false →
    s.runs (portGate (s.entPort n.val e.toNat)) = true → isTw (s.entPort n.val e.toNat) = true →
    status = 1 ∨ status = 2 ∧ s.tmoGone n.val e.toNat 0 = true → (s.ent n.val e.toNat).ph = .second →
      s.listRunning n.val = false → s.tmoGone n.val e.toNat 1 = false →
    s.fld (Reg.MBM_ENTTALLY n.val e.toNat) 16 16 < 65535 →
    s.fld (Reg.MBM_ENTSTAT n.val e.toNat) 8 4 + 1 < max 1 (s.fld Reg.MBM_CTRL 0 4) →
    Runs (.entryAttemptEnd n e status false bytes) s fun t =>
      (t.ent n.val e.toNat).ph = .finished ∧ (t.ent n.val e.toNat).status = status.toNat ∧
        (t.ent n.val e.toNat).retried = true ∧
      t.use (s.entPort n.val e.toNat) = .none ∧ t.fld (Reg.MBM_ENTSTAT n.val e.toNat) 0 8 = status.toNat ∧
      t.fld (Reg.MBM_ENTSTAT n.val e.toNat) 8 4 = s.fld (Reg.MBM_ENTSTAT n.val e.toNat) 8 4 + 1 ∧
      t.fld (Reg.MBM_ENTTALLY n.val e.toNat) 16 16 = s.fld (Reg.MBM_ENTTALLY n.val e.toNat) 16 16 + 1 ∧
      t.bit (Reg.MBM_ENTSTAT n.val e.toNat) 12 = s.bit (Reg.MBM_ENTSTAT n.val e.toNat) 12) ∧
  (∀ (s : State) (n : Fin 4) (e status : BitVec 8) (bytes : List Byte), s.use (s.entPort n.val e.toNat) = .entry n.val e.toNat false →
    s.runs (portGate (s.entPort n.val e.toNat)) = true → isTw (s.entPort n.val e.toNat) = true →
    status = 1 ∨ status = 2 ∧ s.tmoGone n.val e.toNat 0 = true → (s.ent n.val e.toNat).ph = .second →
      s.listRunning n.val = false → s.tmoGone n.val e.toNat 1 = false →
    max 1 (s.fld Reg.MBM_CTRL 0 4) ≤ min 15 (s.fld (Reg.MBM_ENTSTAT n.val e.toNat) 8 4 + 1) →
      s.entPenned n.val e.toNat = false →
    Runs (.entryAttemptEnd n e status false bytes) s fun t =>
      t.bit (Reg.MBM_ENTSTAT n.val e.toNat) 12 = true ∧ t.fld (Reg.MBM_ENTSTAT n.val e.toNat) 16 8 = status.toNat ∧
      t.raised evENTRY_PENNED n.val (BitVec.ofNat 32 (e.toNat + 256 * status.toNat))) ∧
  (∀ (s : State) (n : Fin 4), s.runs gMBM = true → s.listRunning n.val = true → s.listPhase n.val = 2 → s.nent n.val = 1 →
    (s.ent n.val 0).ph = .waiting → s.ticksFrom (s.ml n.val).t0 (s.listDeadline n.val) ≤ s.clk.tb.toNat →
    Runs (.musterDeadlineExpiry n) s fun t =>
      (t.ml n.val).cut = true ∧ (t.ent n.val 0).ph = .finished ∧ (t.ent n.val 0).status = 7 ∧
        (t.ent n.val 0).retried = false ∧
      t.fld (Reg.MBM_ENTSTAT n.val 0) 0 8 = 7 ∧ t.listPhase n.val = 2 ∧
      RegsBut [Reg.MBM_ENTSTAT n.val 0, Reg.MBM_LIST_STAT n.val] s t) ∧
  (∀ (s : State) (n : Fin 4), s.runs gMBM = true → s.listRunning n.val = true → s.listPhase n.val = 2 → s.nent n.val = 1 →
    (s.ent n.val 0).ph = .finished → (s.ent n.val 0).status = 0 → s.entLen n.val 0 = 1 → isTw (s.entPort n.val 0) = true →
    (s.rd (Reg.MBM_LIST_FOLD n.val)).toNat % 32 = 0 → s.back n.val + 64 ≤ 0x200000 → s.ecc = [] →
    Runs (.commit n) s fun t =>
      t.listPhase n.val = 3 ∧ t.rdWord (s.back n.val + 4 * 13) = ~~~ BitVec.ofNat 32 (s.ml n.val).num ∧
      t.rdWord (s.back n.val + 8) = BitVec.ofNat 32 (s.ml n.val).t0 ∧ t.front n.val = s.front n.val ∧
      RegsBut [Reg.MBM_LIST_STAT n.val] s t) ∧
  (∀ (s : State) (n : Fin 4), s.runs gMBM = true → s.listRunning n.val = true → s.listPhase n.val = 3 → s.nent n.val = 1 →
    s.musterLate n.val = false → (s.ent n.val 0).status ≠ 0 → (s.ml n.val).ring = none → (s.ml n.val).stopping = false →
    (s.rd (Reg.MBM_LIST_FOLD n.val)).toNat % 32 = 0 → s.back n.val + 64 ≤ 0x200000 → s.ecc = [] →
    s.fld (Reg.MBM_LIST_PARTTALLY n.val) 0 16 < 65535 →
    Runs (.foldFlip n) s fun t =>
      t.listRunning n.val = false ∧ t.listPhase n.val = 0 ∧ t.rd (Reg.MBM_LIST_NUM n.val) = BitVec.ofNat 32 (s.ml n.val).num ∧
      t.front n.val = s.back n.val ∧ t.rdWord (s.back n.val + 4) = BitVec.ofNat 32 (s.ml n.val).num ∧
      t.bit Reg.MBM_EVT n.val = true ∧ (t.ent n.val 0).ph = .idle ∧
      t.fld (Reg.MBM_LIST_PARTTALLY n.val) 0 16 = s.fld (Reg.MBM_LIST_PARTTALLY n.val) 0 16 + 1 ∧ t.bit Reg.MBM_EVT 9 = true ∧
      t.raised evMUSTER_PARTIAL n.val (BitVec.ofNat 32 (s.ml n.val).num)) ∧
  (∀ (s : State) (n : Fin 4) (a k len : Nat) (r : List Copy), s.runs gMBM = true → s.mbm.copies = ⟨n.val, k, a, len⟩ :: r →
    s.recOpen k = false →
    (s.ml n.val).stopping = false → s.startHeld n.val = false → (r.all fun c => !s.copyOpen c) = true →
    Runs (.droverCopy n) s fun t => t.mbm.copies = r ∧ t.out = s.out ∧ Keeps [.mbm] s t) ∧
  (∀ (s : State) (n k : Fin 4) (a len : Nat) (r : List Copy), s.runs gMBM = true →
    s.mbm.copies = ⟨n.val, k.val, a, len⟩ :: r →
    s.recOpen k.val = true → s.fld (Reg.HIF_REC_CFG k.val) 8 4 = n.val + 1 →
    (s.ml n.val).stopping = false → s.startHeld n.val = false → s.coh.credits = [] →
    Runs (.droverCopy n) s fun t =>
      t.mbm.copies = r ∧ (if s.mbm.begun then s.out.length + 2 else s.out.length + 3) ≤ t.out.length ∧
      t.fld (Reg.HIF_REC_IDX k.val) 16 12 = (s.fld (Reg.HIF_REC_IDX k.val) 16 12 + 1) % ringSize (s.rd (Reg.HIF_REC_CFG k.val)) ∧
      t.rd (Reg.HIF_REC_SEQ k.val) =
        (if s.rd (Reg.HIF_REC_SEQ k.val) = 0xFFFFFFFF then 1 else s.rd (Reg.HIF_REC_SEQ k.val) + 1)) ∧
  (∀ (s : State) (n : Fin 4), s.runs gMBM = false → Runs (.droverCopy n) s (fun t => t = s)) ∧
  (∀ (s : State) (n : Fin 4), s.listPhase n.val ≠ 2 ∨ (s.ent n.val 0).ph ≠ .finished ∧ s.nent n.val = 1 →
    Runs (.commit n) s (fun t => t = s)) ∧
  (∀ (s : State) (n : Fin 4), s.listPhase n.val ≠ 3 → Runs (.foldFlip n) s (fun t => t = s)) ∧
  (∀ (s : State) (n : Fin 4) (port : BitVec 8) (late : Nat), s.portReady port.toNat = false ∨
      tget Bell.none (s.ml n.val).bells port.toNat ≠ .waiting ∨ s.clk.tb.toNat + 4 * s.bellLen port.toNat < s.bwtNow n.val →
    Runs (.bellwetherPortStart n port late) s (fun t => t = s)) ∧
  (∀ (s : State) (n : Fin 4), s.readOpen n.val = false ∨ s.clk.tb.toNat < s.ticksFrom (s.ml n.val).t0 (s.listDeadline n.val) →
    Runs (.musterDeadlineExpiry n) s (fun t => t = s))

/-- Chapter 15 (R810, R813, R814, R816, R817, R823 to R825, R853, R857, R859, R861, R863, R865, R867): the two-wire ports. -/
def Obligations.TwoWirePorts : Prop :=
  (∀ (s : State) (p : Fin 8) (l e : Nat), s.runs gTW = true → s.use p.val = .entry l e false → (s.ent l e).ph = .first →
    s.entPort l e = p.val → s.entPenned l e = false →
    s.listRunning l = false ∨ s.clk.tb.toNat < s.ticksFrom (s.ml l).t0 (s.listDeadline l) →
    Runs (.twStretchTimeout p) s fun t =>
      (t.ent l e).ph = .again ∧ (t.ent l e).status = 5 ∧ t.use p.val = .none ∧ t.bit (Reg.TW_PSTAT p.val) 10 = false ∧
      RegsBut [Reg.TW_PSTAT p.val] s t ∧ Keeps [.regs, .mbm, .ports] s t) ∧
  (∀ (s : State) (p : Fin 8), s.runs gTW = true → s.use p.val = .sw → s.bit (Reg.TW_SWCTL p.val) 31 = true →
    Runs (.twStretchTimeout p) s fun t =>
      t.use p.val = .none ∧ t.bit (Reg.TW_SWCTL p.val) 31 = false ∧ t.rd (Reg.TW_SWSTAT p.val) = 3 ∧
        t.bit (Reg.TW_EVT p.val) 5 = true) ∧
  (∀ (s : State) (port : BitVec 8) (l e : Nat), s.use port.toNat = .entry l e false → s.runs (portGate port.toNat) = true →
    s.tmoGone l e 0 = true → s.entPort l e = port.toNat → isTw port.toNat = true → (s.ent l e).ph = .first →
    s.entPenned l e = false → s.listRunning l = false ∨ s.clk.tb.toNat < s.ticksFrom (s.ml l).t0 (s.listDeadline l) →
    Runs (.attemptTimeout port) s fun t =>
      (t.ent l e).ph = .second ∧ (t.ent l e).status = 2 ∧ t.use port.toNat = .entry l e false ∧
        Keeps [.regs, .mbm, .ports] s t) ∧
  (∀ (s : State) (port : BitVec 8) (l e : Nat), s.use port.toNat = .entry l e false →
    W.fld (s.entW l e 1) 16 16 = 0 ∨ s.tmoGone l e 0 = false →
    Runs (.attemptTimeout port) s (fun t => t = s)) ∧
  (∀ (s : State) (p : Fin 8), s.runs gTW = true →
    Runs (.cmdrdConvWait p) s fun t => t.port p.val = { s.port p.val with conv := false } ∧ RegsBut [] s t ∧
      Keeps [.ports] s t) ∧
  (∀ (s : State) (p : Fin 8) (val : Word), s.live = true → s.bit (Reg.TW_SWCTL p.val) 31 = false → W.bit val 31 = true →
    W.fld val 8 2 ≠ 3 → s.portPenned p.val = false → s.portQuar p.val = false → (s.port p.val).cycling = false →
    s.bit (Reg.TW_CFG p.val) 0 = true → s.use p.val = .none → s.lineHeld p.val = false → s.entDue p.val = false →
      s.callDue p.val = false →
    Runs (.twSwctlGo p val) s fun t =>
      t.rd (Reg.TW_SWCTL p.val) = (val &&& 0x8F0F037F) ∧ t.use p.val = .sw ∧
      t.fld (Reg.TW_PSTAT p.val) 4 3 = (t.port p.val).rate ∧ (t.port p.val).rateIn = s.rd (Reg.TW_RATE p.val) ∧
      (t.port p.val).adaptIn = s.rd (Reg.TW_ADAPT p.val) ∧
      (t.port p.val).rate = (if s.fld (Reg.TW_RATE p.val) 0 3 ≠ W.fld (s.port p.val).rateIn 0 3 ∨
        s.bit (Reg.TW_RATE p.val) 7 = true
        then min 6 (s.fld (Reg.TW_RATE p.val) 0 3)
        else min (floorOf (s.rd (Reg.TW_RATE p.val))) (max (min 6 (s.fld (Reg.TW_RATE p.val) 0 3)) (s.port p.val).rate)) ∧
      RegsBut [Reg.TW_SWCTL p.val, Reg.TW_PSTAT p.val] s t ∧ Keeps [.regs, .ports] s t) ∧
  (∀ (s : State) (p : Fin 8) (val : Word), s.live = true → s.bit (Reg.TW_SWCTL p.val) 31 = false → W.bit val 31 = true →
    W.fld val 8 2 ≠ 3 → s.portPenned p.val = true →
    Runs (.twSwctlGo p val) s fun t =>
      t.bit (Reg.TW_SWCTL p.val) 31 = false ∧ t.rd (Reg.TW_SWSTAT p.val) = 5 ∧ t.bit (Reg.TW_EVT p.val) 5 = true ∧
        t.ports = s.ports) ∧
  (∀ (s : State) (p : Fin 8) (val : Word), s.live = true → s.bit (Reg.TW_SWCTL p.val) 31 = true →
    Runs (.twSwctlGo p val) s (fun t => t = s)) ∧
  (∀ (s : State) (p : Fin 8) (a b : Byte), s.runs gTW = true → s.bit (Reg.TW_SWCTL p.val) 31 = true → s.use p.val = .sw →
    s.fld (Reg.TW_SWCTL p.val) 8 2 ≠ 0 → s.fld (Reg.TW_SWCTL p.val) 24 4 = 2 →
    Runs (.twTransactionEnd p .ok [a, b]) s fun t =>
      t.rd (Reg.TW_SWDATA p.val 2) = BitVec.ofNat 32 (a.toNat + 256 * b.toNat) ∧ t.rd (Reg.TW_SWSTAT p.val) = 0 ∧
      t.bit (Reg.TW_SWCTL p.val) 31 = false ∧ t.bit (Reg.TW_EVT p.val) 5 = true ∧ t.use p.val = .none ∧
      RegsBut (Reg.TW_SWDATA p.val 2 :: Reg.TW_SWSTAT p.val :: Reg.TW_SWCTL p.val :: Reg.TW_EVT p.val :: icuRegs) s t ∧
      Keeps [.regs, .ports] s t) ∧
  (∀ (s : State) (p : Fin 8) (bytes : List Byte), s.runs gTW = true → s.bit (Reg.TW_SWCTL p.val) 31 = true →
    s.use p.val = .sw →
    Runs (.twTransactionEnd p .nackData bytes) s fun t =>
      t.rd (Reg.TW_SWSTAT p.val) = 2 ∧ t.bit (Reg.TW_SWCTL p.val) 31 = false ∧
      RegsBut (Reg.TW_SWSTAT p.val :: Reg.TW_SWCTL p.val :: Reg.TW_EVT p.val :: icuRegs) s t) ∧
  (∀ (s : State) (p : Fin 8), s.portReady p.val = true → s.swBusy p.val = false → s.bit (Reg.TW_CFG p.val) 1 = true →
    s.fld (Reg.TW_CRKTALLY p.val) 0 16 < 65535 →
    Runs (.crookCallDetect p) s fun t =>
      t.bit (Reg.TW_CRK p.val) 8 = true ∧ t.fld (Reg.TW_CRKTALLY p.val) 0 16 = s.fld (Reg.TW_CRKTALLY p.val) 0 16 + 1 ∧
      t.bit (Reg.TW_PSTAT p.val) 10 = true ∧ t.bit (Reg.TW_PSTAT p.val) 11 = false ∧
      t.port p.val = { s.port p.val with lowAt := some s.clk.tb.toNat } ∧
      RegsBut [Reg.TW_CRK p.val, Reg.TW_CRKTALLY p.val, Reg.TW_PSTAT p.val] s t ∧ Keeps [.regs, .ports] s t) ∧
  (∀ (s : State) (p : Fin 8), s.bit (Reg.TW_CFG p.val) 1 = false ∨ s.portReady p.val = false ∨ s.swBusy p.val = true →
    Runs (.crookCallDetect p) s (fun t => t = s)) ∧
  (∀ (s : State) (p : Fin 8), s.portReady p.val = true → s.bit (Reg.TW_CRK p.val) 8 = true → s.entsWait p.val = false →
    (s.port p.val).called = false ∨ s.portListed p.val = false →
    Runs (.crookIdentification p) s fun t =>
      t.use p.val = .crook ∧ (t.port p.val).called = true ∧ t.bit (Reg.TW_PSTAT p.val) 10 = true ∧
        t.bit (Reg.TW_PSTAT p.val) 11 = true ∧ RegsBut [Reg.TW_PSTAT p.val] s t ∧ Keeps [.regs, .ports] s t) ∧
  (∀ (s : State) (p : Fin 8) (acked : Bool) (byte : Byte), s.runs gTW = true → s.use p.val = .crook →
    Runs (.crookIdentificationEnd p acked byte) s fun t =>
      t.rd (Reg.TW_CRK p.val) = BitVec.ofNat 32 (if acked = true ∧ byte.toNat % 2 = 0 ∧ 0x10 ≤ byte.toNat ∧
        byte.toNat ≤ 0xEE then byte.toNat / 2 else 0x7F) ∧
      t.bit (Reg.TW_EVT p.val) 3 = true ∧ t.use p.val = .none ∧ t.raised evCROOK_CALL p.val (t.rd (Reg.TW_CRK p.val))) ∧
  (∀ (s : State) (p : Fin 8), s.runs gTW = true → s.bit (Reg.TW_CFG p.val) 0 = true → s.portPenned p.val = false →
    (s.port p.val).cycling = false → s.use p.val = .none → s.swBusy p.val = false →
      s.fld (Reg.TW_STUCKTALLY p.val) 0 16 < 65535 →
    Runs (.stuckLine p true false true) s fun t =>
      t.fld (Reg.TW_STUCKTALLY p.val) 0 16 = s.fld (Reg.TW_STUCKTALLY p.val) 0 16 + 1 ∧ t.fld (Reg.TW_PSTAT p.val) 12 4 = 0 ∧
      t.bit (Reg.TW_PSTAT p.val) 10 = true ∧ t.bit (Reg.TW_PSTAT p.val) 11 = true ∧ t.bit (Reg.TW_EVT p.val) 4 = true ∧
      t.portPenned p.val = false) ∧
  (∀ (s : State) (p : Fin 8), s.runs gTW = true → s.bit (Reg.TW_CFG p.val) 0 = true → s.portPenned p.val = false →
    (s.port p.val).cycling = false → s.use p.val = .none → s.bit (Reg.TW_CFG p.val) 2 = false →
    Runs (.stuckLine p true false false) s fun t =>
      t.fld (Reg.TW_PSTAT p.val) 16 8 = 0x20 ∧ t.bit (Reg.TW_EVT p.val) 0 = true ∧ t.bit (Reg.TW_EVT p.val) 4 = true ∧
      t.raised evPORT_PENNED p.val 0x20) ∧
  (∀ (s : State) (p : Fin 8) (cleared : Bool), s.runs gTW = true → s.bit (Reg.TW_CFG p.val) 0 = true →
    s.portPenned p.val = false →
    (s.port p.val).cycling = false → s.use p.val = .none → s.bit (Reg.TW_CFG p.val) 2 = false →
    Runs (.stuckLine p false true cleared) s fun t => t.fld (Reg.TW_PSTAT p.val) 16 8 = 0x21 ∧
      t.raised evPORT_PENNED p.val 0x21) ∧
  (∀ (s : State) (p : Fin 8) (k : Nat), s.runs gTW = true → (s.port p.val).cycling = true → s.chanOf p.val = some k →
    s.ppIsOn k = true →
    s.ppPast k (max 1 (s.fld (Reg.TW_STUCK p.val) 8 8)) = true → s.fld (Reg.TW_STUCKTALLY p.val) 16 16 < 65535 →
      s.fld (Reg.TW_PSTAT p.val) 12 4 + 1 < max 1 (s.fld Reg.TW_CTRL 0 4) →
    Runs (.portSettleExpiry p true true) s fun t =>
      t.fld (Reg.TW_STUCKTALLY p.val) 16 16 = s.fld (Reg.TW_STUCKTALLY p.val) 16 16 + 1 ∧
      t.fld (Reg.TW_PSTAT p.val) 12 4 = s.fld (Reg.TW_PSTAT p.val) 12 4 + 1 ∧ (t.port p.val).cycling = false ∧
      RegsBut [Reg.TW_STUCKTALLY p.val, Reg.TW_PSTAT p.val] s t ∧ Keeps [.regs, .ports] s t) ∧
  (∀ (s : State) (p : Fin 8) (k : Nat), s.runs gTW = true → (s.port p.val).cycling = true → s.chanOf p.val = some k →
    s.ppIsOn k = true →
    s.ppPast k (max 1 (s.fld (Reg.TW_STUCK p.val) 8 8)) = true →
      max 1 (s.fld Reg.TW_CTRL 0 4) ≤ min 15 (s.fld (Reg.TW_PSTAT p.val) 12 4 + 1) →
    Runs (.portSettleExpiry p true true) s fun t =>
      t.fld (Reg.TW_PSTAT p.val) 16 8 = 0x22 ∧ (t.port p.val).cycling = false ∧ t.raised evPORT_PENNED p.val 0x22) ∧
  (∀ (s : State) (p : Fin 8), s.runs gTW = true → (s.port p.val).cycling = false →
    Runs (.stuckConsecDecay p) s fun t => t.fld (Reg.TW_PSTAT p.val) 12 4 = 0 ∧ RegsBut [Reg.TW_PSTAT p.val] s t ∧
      Keeps [.regs] s t) ∧
  (∀ (s : State) (p : Fin 8), s.runs gTW = true → 0x20 ≤ s.fld (Reg.TW_PSTAT p.val) 16 8 →
    s.fld (Reg.TW_PSTAT p.val) 16 8 ≤ 0x22 →
    s.use p.val = .none → s.bit (Reg.TW_PSTAT p.val) 9 = false →
    Runs (.portProbe p true true) s fun t =>
      t.bit (Reg.TW_PSTAT p.val) 9 = true ∧ t.bit (Reg.TW_EVT p.val) 1 = true ∧ t.raised evPORT_CLEAR p.val 0 ∧
      t.fld (Reg.TW_PSTAT p.val) 16 8 = s.fld (Reg.TW_PSTAT p.val) 16 8) ∧
  (∀ (s : State) (p : Fin 8), s.runs gTW = true → s.bit (Reg.TW_CFG p.val) 0 = true → (s.port p.val).errs = 0 →
    W.fld (s.port p.val).adaptIn 24 4 ≠ 0 → W.fld (s.port p.val).adaptIn 24 4 ≤ (s.port p.val).clean + 1 →
    W.bit (s.port p.val).rateIn 7 = false →
    s.twRate p.val < (s.port p.val).rate →
    Runs (.adaptWindowEnd p) s fun t =>
      t.port p.val = { s.port p.val with clean := 0, rate := (s.port p.val).rate - 1 } ∧
        t.bit (Reg.TW_PSTAT p.val) 8 = false ∧
      RegsBut [Reg.TW_PSTAT p.val] s t ∧ Keeps [.regs, .ports] s t) ∧
  (∀ (s : State) (p : Fin 8), s.runs gTW = true → s.bit (Reg.TW_CFG p.val) 0 = true → (s.port p.val).errs ≠ 0 →
    Runs (.adaptWindowEnd p) s fun t => t.port p.val = { s.port p.val with errs := 0, clean := 0 } ∧ RegsBut [] s t ∧
      Keeps [.ports] s t) ∧
  (∀ (s : State) (p : Fin 8) (val : Word), s.live = true → s.bit (Reg.TW_SWCTL p.val) 31 = false → W.bit val 31 = true →
    W.fld val 8 2 ≠ 3 → s.portPenned p.val = false → s.portQuar p.val = false → (s.port p.val).cycling = false →
    s.bit (Reg.TW_CFG p.val) 0 = true → s.use p.val ≠ .none ∨ s.lineHeld p.val = true ∨ s.entDue p.val = true ∨
      s.callDue p.val = true →
    Runs (.twSwctlGo p val) s fun t =>
      t.rd (Reg.TW_SWCTL p.val) = (val &&& 0x8F0F037F) ∧ t.use p.val = s.use p.val ∧
      t.bit (Reg.TW_PSTAT p.val) 10 = s.bit (Reg.TW_PSTAT p.val) 10 ∧
        t.bit (Reg.TW_PSTAT p.val) 11 = s.bit (Reg.TW_PSTAT p.val) 11 ∧
      RegsBut [Reg.TW_SWCTL p.val, Reg.TW_PSTAT p.val] s t ∧ Keeps [.regs, .ports] s t) ∧
  (∀ (s : State) (p : Fin 8), s.portReady p.val = false ∨ s.bit (Reg.TW_CRK p.val) 8 = false ∨ s.entsWait p.val = true ∨
      (s.port p.val).called = true ∧ s.portListed p.val = true →
    Runs (.crookIdentification p) s (fun t => t = s)) ∧
  (∀ (s : State) (p : Fin 8) (k : Nat), s.chanOf p.val = some k →
    s.ppPast k (max 1 (s.fld (Reg.TW_STUCK p.val) 8 8)) = false →
    Runs (.portSettleExpiry p true true) s (fun t => t = s)) ∧
  (∀ (s : State) (p : Fin 8) (scl sda : Bool), s.fld (Reg.TW_PSTAT p.val) 16 8 < 0x20 ∨
    0x22 < s.fld (Reg.TW_PSTAT p.val) 16 8 →
    Runs (.portProbe p scl sda) s (fun t => t = s)) ∧
  (∀ (s : State) (p : Fin 8), s.runs gTW = true → s.bit (Reg.TW_CFG p.val) 0 = true → (s.port p.val).errs = 0 →
    W.fld (s.port p.val).adaptIn 24 4 = 0 ∨ (s.port p.val).clean + 1 < W.fld (s.port p.val).adaptIn 24 4 →
    Runs (.adaptWindowEnd p) s fun t =>
      t.port p.val = { s.port p.val with clean := min 15 ((s.port p.val).clean + 1) } ∧ t.bit (Reg.TW_PSTAT p.val) 8 = false ∧
      RegsBut [Reg.TW_PSTAT p.val] s t ∧ Keeps [.regs, .ports] s t)

/-- Chapter 15 (R833, R834, R839, R841 to R843, R845, R846, R853): the DDR serial ports. -/
def Obligations.DdrSerialPorts : Prop :=
  (∀ (s : State) (p : Fin 4) (val : Word), s.live = true → s.bit (Reg.DS_SWCTL p.val) 31 = false → W.bit val 31 = true →
    s.portPenned (0x10 + p.val) = false → s.portQuar (0x10 + p.val) = false → s.bit (Reg.DS_CFG p.val) 0 = true →
    s.bit (Reg.DS_CFG p.val) 1 = false → W.bit (s.rd (Reg.DS_PROF p.val (W.fld val 0 2))) 2 = false →
      s.use (0x10 + p.val) = .none →
    s.entDue (0x10 + p.val) = false →
    Runs (.dsSwctlGo p val) s fun t =>
      t.rd (Reg.DS_SWCTL p.val) = (val &&& 0x80001F1F) ∧ t.use (0x10 + p.val) = .sw ∧
      RegsBut [Reg.DS_SWCTL p.val] s t ∧ Keeps [.regs, .ports] s t) ∧
  (∀ (s : State) (p : Fin 4) (val : Word), s.live = true → s.bit (Reg.DS_SWCTL p.val) 31 = false → W.bit val 31 = true →
    s.portPenned (0x10 + p.val) = true →
    Runs (.dsSwctlGo p val) s fun t =>
      t.bit (Reg.DS_SWCTL p.val) 31 = false ∧ t.rd (Reg.DS_SWSTAT p.val) = 2 ∧ t.bit (Reg.DS_EVT p.val) 3 = true ∧
        t.ports = s.ports) ∧
  (∀ (s : State) (p : Fin 4) (val : Word), s.live = true → s.bit (Reg.DS_SWCTL p.val) 31 = true →
    Runs (.dsSwctlGo p val) s (fun t => t = s)) ∧
  (∀ (s : State) (p : Fin 4) (edges : Nat) (a b : Word), s.runs gDS = true → s.use (0x10 + p.val) = .sw →
    s.bit (Reg.DS_SWCTL p.val) 4 = false → s.fld (Reg.DS_SWCTL p.val) 8 5 = 2 →
    s.bit (Reg.DS_PROF p.val (s.fld (Reg.DS_SWCTL p.val) 0 2)) 2 = false →
    s.fld (Reg.DS_PROF p.val (s.fld (Reg.DS_SWCTL p.val) 0 2)) 14 5 = 15 →
    Runs (.dsFrameEnd p edges [a, b]) s fun t =>
      t.rd (Reg.DS_SWDATA p.val 0) = a &&& 0xFFFF ∧ t.rd (Reg.DS_SWDATA p.val 1) = b &&& 0xFFFF ∧
        t.rd (Reg.DS_SWSTAT p.val) = 0 ∧
      t.bit (Reg.DS_SWCTL p.val) 31 = false ∧ t.bit (Reg.DS_EVT p.val) 3 = true ∧ t.use (0x10 + p.val) = .none ∧
      RegsBut (Reg.DS_SWDATA p.val 0 :: Reg.DS_SWDATA p.val 1 :: Reg.DS_SWSTAT p.val :: Reg.DS_SWCTL p.val :: Reg.DS_EVT p.val :: icuRegs) s t ∧
      Keeps [.regs, .ports] s t) ∧
  (∀ (s : State) (p : Fin 4) (edges : Nat) (ws : List Word), s.runs gDS = true → s.use (0x10 + p.val) = .sw →
    s.bit (Reg.DS_SWCTL p.val) 4 = false → s.fld (Reg.DS_SWCTL p.val) 8 5 = 2 →
    s.fld (Reg.DS_PROF p.val (s.fld (Reg.DS_SWCTL p.val) 0 2)) 0 3 = 5 →
    s.fld (Reg.DS_PROF p.val (s.fld (Reg.DS_SWCTL p.val) 0 2)) 14 5 = 15 → edges < 16 →
    s.fld (Reg.DS_STRBTALLY p.val) 0 16 < 65535 →
    Runs (.dsFrameEnd p edges ws) s fun t =>
      t.fld (Reg.DS_STRBTALLY p.val) 0 16 = s.fld (Reg.DS_STRBTALLY p.val) 0 16 + 1 ∧ t.rd (Reg.DS_SWSTAT p.val) = 1 ∧
      t.rd (Reg.DS_SWDATA p.val 0) = s.rd (Reg.DS_SWDATA p.val 0) ∧ t.use (0x10 + p.val) = .none) ∧
  (∀ (s : State) (p : Fin 4) (edges : Nat) (ws : List Word), s.runs gDS = true → s.use (0x10 + p.val) = .none →
    s.bit (Reg.DS_SWCTL p.val) 31 = false →
    Runs (.dsFrameEnd p edges ws) s (fun t => t = s)) ∧
  (∀ (s : State) (i : Fin 2) (a b : Word), s.runs gDS = true → s.portTarget (0x12 + i.val) = true →
    s.portPenned (0x12 + i.val) = false → s.portQuar (0x12 + i.val) = false → s.bit (Reg.DS_CFG (2 + i.val)) 0 = true →
    s.fld (Reg.DS_PROF (2 + i.val) 0) 14 5 = 15 → s.fld (Reg.DS_PROF (2 + i.val) 0) 0 2 = 0 →
    (s.port (0x12 + i.val)).rx.length ≤ 62 → (s.port (0x12 + i.val)).rxlen.length < 16 →
    Runs (.dsTargetFrame i 32 false [a, b]) s fun t =>
      t.port (0x12 + i.val) = { s.port (0x12 + i.val) with
        tx := (s.port (0x12 + i.val)).tx.drop 2, rx := (s.port (0x12 + i.val)).rx ++ [a &&& 0xFFFF, b &&& 0xFFFF],
        rxlen := (s.port (0x12 + i.val)).rxlen ++ [2] } ∧
      t.bit (Reg.DS_EVT (2 + i.val)) 1 = true ∧ RegsBut (Reg.DS_EVT (2 + i.val) :: icuRegs) s t ∧ Keeps [.regs, .ports] s t) ∧
  (∀ (s : State) (i : Fin 2) (ws : List Word), s.runs gDS = true → s.portTarget (0x12 + i.val) = true →
    s.portPenned (0x12 + i.val) = false → s.portQuar (0x12 + i.val) = false → s.bit (Reg.DS_CFG (2 + i.val)) 0 = true →
    s.fld (Reg.DS_PROF (2 + i.val) 0) 14 5 = 15 → s.fld (Reg.DS_TGTTALLY (2 + i.val)) 0 16 < 65535 →
    Runs (.dsTargetFrame i 30 false ws) s fun t =>
      t.fld (Reg.DS_TGTTALLY (2 + i.val)) 0 16 = s.fld (Reg.DS_TGTTALLY (2 + i.val)) 0 16 + 1 ∧
      (t.port (0x12 + i.val)).rx = (s.port (0x12 + i.val)).rx ∧
        (t.port (0x12 + i.val)).rxlen = (s.port (0x12 + i.val)).rxlen ∧
      t.bit (Reg.DS_EVT (2 + i.val)) 2 = true) ∧
  (∀ (s : State) (i : Fin 2) (ws : List Word), s.runs gDS = true → s.portTarget (0x12 + i.val) = true →
    s.portPenned (0x12 + i.val) = false → s.portQuar (0x12 + i.val) = false → s.bit (Reg.DS_CFG (2 + i.val)) 0 = true →
    s.fld (Reg.DS_PROF (2 + i.val) 0) 14 5 = 15 → s.fld (Reg.DS_TGTTALLY (2 + i.val)) 16 16 < 65535 →
    (s.port (0x12 + i.val)).rx.length = 64 →
    Runs (.dsTargetFrame i 16 false ws) s fun t =>
      t.fld (Reg.DS_TGTTALLY (2 + i.val)) 16 16 = s.fld (Reg.DS_TGTTALLY (2 + i.val)) 16 16 + 1 ∧
      (t.port (0x12 + i.val)).rx = (s.port (0x12 + i.val)).rx) ∧
  (∀ (s : State) (i : Fin 2) (ws : List Word), s.runs gDS = true → s.portTarget (0x12 + i.val) = true →
    s.portPenned (0x12 + i.val) = false → s.portQuar (0x12 + i.val) = false → s.bit (Reg.DS_CFG (2 + i.val)) 0 = false →
    s.fld (Reg.DS_PROF (2 + i.val) 0) 14 5 = 15 → s.fld (Reg.DS_TGTTALLY (2 + i.val)) 0 16 < 65535 →
    Runs (.dsTargetFrame i 16 true ws) s fun t =>
      t.fld (Reg.DS_TGTTALLY (2 + i.val)) 0 16 = s.fld (Reg.DS_TGTTALLY (2 + i.val)) 0 16 + 1 ∧
      (t.port (0x12 + i.val)).rx = (s.port (0x12 + i.val)).rx ∧
        (t.port (0x12 + i.val)).rxlen = (s.port (0x12 + i.val)).rxlen ∧
      t.bit (Reg.DS_EVT (2 + i.val)) 2 = true ∧
      RegsBut (Reg.DS_TGTTALLY (2 + i.val) :: Reg.DS_EVT (2 + i.val) :: icuRegs) s t ∧ Keeps [.regs, .ports] s t) ∧
  (∀ (s : State) (i : Fin 2) (bits : Nat) (cut : Bool) (ws : List Word), s.bit (Reg.DS_CFG (2 + i.val)) 0 = cut →
    Runs (.dsTargetFrame i bits cut ws) s (fun t => t = s)) ∧
  (∀ (s : State) (p : Fin 4), s.linkServes = true → s.memServed = true → s.regServed .host (Reg.DS_RXDATA p.val) = true →
    Runs (.dsRxdataRead p false .good) s fun t =>
      t.reply = .word ((s.port (0x10 + p.val)).rx.headD 0) ∧
        t.port (0x10 + p.val) = { s.port (0x10 + p.val) with rx := (s.port (0x10 + p.val)).rx.drop 1 } ∧
      RegsBut [] s t ∧ Keeps [.ports, .reply] s t) ∧
  (∀ (s : State) (p : Fin 4) (k : Nat) (r : List Nat), s.linkServes = true → s.memServed = true →
    s.regServed .host (Reg.DS_RXLEN p.val) = true →
    (s.port (0x10 + p.val)).rxlen = k :: r →
    Runs (.dsRxlenRead p false .good) s fun t =>
      t.reply = .word (BitVec.ofNat 32 (2 ^ 31 + k)) ∧ t.port (0x10 + p.val) = { s.port (0x10 + p.val) with rxlen := r } ∧
      RegsBut [] s t ∧ Keeps [.ports, .reply] s t) ∧
  (∀ (s : State) (p : Fin 4), s.linkServes = true → s.memServed = true → s.regServed .host (Reg.DS_RXLEN p.val) = true →
    (s.port (0x10 + p.val)).rxlen = [] →
    Runs (.dsRxlenRead p false .good) s fun t => t.reply = .word 0 ∧ Keeps [.reply] s t) ∧
  (∀ (s : State) (p : Fin 4) (val : Word), s.live = true → (s.port (0x10 + p.val)).tx.length < 16 →
    Runs (.dsTxdata p val) s fun t =>
      t.port (0x10 + p.val) = { s.port (0x10 + p.val) with tx := (s.port (0x10 + p.val)).tx ++ [val] } ∧ RegsBut [] s t ∧
        Keeps [.ports] s t) ∧
  (∀ (s : State) (p : Fin 4) (val : Word), 16 ≤ (s.port (0x10 + p.val)).tx.length → Runs (.dsTxdata p val) s (fun t =>
    t = s)) ∧
  (∀ (s : State) (src : Requester) (f : BitVec 26) (a b : Byte), s.runs gDS = true → s.bit (Reg.DS_CFG 0) 0 = true →
    s.portPenned 0x10 = false → s.use 0x10 = .none →
    Runs (.flashWindowRead src f 2 [a, b]) s fun t => t.reply = .bytes [a, b] ∧ t.out = (s.flashFrame f.toNat 2).out ∧
      RegsBut [] s t ∧ Keeps [.reply, .out] s t) ∧
  (∀ (s : State) (src : Requester) (f : BitVec 26) (size : Nat) (bytes : List Byte), s.bit (Reg.DS_CFG 0) 0 = false →
    Runs (.flashWindowRead src f size bytes) s fun t => t.reply = .busError 0 ∧ RegsBut [] s t ∧ Keeps [.reply] s t) ∧
  (∀ (s : State) (src : Requester) (f : BitVec 26) (size : Nat) (bytes : List Byte), s.live = true →
    s.bit (Reg.DS_CFG 0) 0 = true →
    s.portPenned 0x10 = false → s.use 0x10 ≠ .none →
    Runs (.flashWindowRead src f size bytes) s (fun t => t = s)) ∧
  (∀ (s : State) (p : Fin 4), s.linkServes = true → s.memServed = true → s.regServed .host (Reg.DS_RXDATA p.val) = true →
    (s.port (0x10 + p.val)).rx.length ≤ 1 →
    Runs (.dsRxdataRead p true .good) s fun t => t.reply = .word 0 ∧ RegsBut [] s t ∧ Keeps [.reply] s t) ∧
  (∀ (s : State) (p : Fin 4), s.linkServes = true → s.memServed = true → s.regServed .host (Reg.DS_RXLEN p.val) = true →
    (s.port (0x10 + p.val)).rxlen.length ≤ 1 →
    Runs (.dsRxlenRead p true .good) s fun t => t.reply = .word 0 ∧ RegsBut [] s t ∧ Keeps [.reply] s t) ∧
  (∀ (s : State) (p : Fin 4) (a b : Word) (r : List Word), s.linkServes = true → s.memServed = true →
    s.regServed .host (Reg.DS_RXDATA p.val) = true → (s.port (0x10 + p.val)).rx = a :: b :: r →
    Runs (.dsRxdataRead p true .good) s fun t =>
      t.reply = .word a ∧ (t.port (0x10 + p.val)).rx = b :: r ∧ RegsBut [] s t ∧ Keeps [.ports, .reply] s t) ∧
  (∀ (s : State) (p : Fin 4) (edges : Nat) (ws : List Word) (n : Nat), s.runs gDS = true → s.use (0x10 + p.val) = .ident n →
    s.fld (Reg.DS_PROF p.val (s.fld (Reg.PPW_IDCFG n) 26 2)) 0 3 = 5 →
    s.fld (Reg.DS_PROF p.val (s.fld (Reg.PPW_IDCFG n) 26 2)) 14 5 = 15 → edges < 8 →
    s.fld (Reg.DS_STRBTALLY p.val) 0 16 < 65535 →
    Runs (.dsFrameEnd p edges ws) s fun t =>
      (t.ppc n).idBad = true ∧
      t.fld (Reg.DS_STRBTALLY p.val) 0 16 = s.fld (Reg.DS_STRBTALLY p.val) 0 16 + 1)

/-- Chapter 16 (R875 to R879, R881, R915, Table 16-3): data instructions. -/
def Obligations.StencilArithmetic : Prop :=
  (∀ (s : State) (n : Fin 8), s.seAt n.val 0x0 = true →
    Runs (.seNop n) s fun t => t.eng n.val = s.seIssued n.val 1 ∧ s.seNext t n.val []) ∧
  (∀ (s : State) (n : Fin 8), s.seAt n.val 0xa = true →
    Runs (.seAdd n) s fun t =>
      t.seReg n.val (iD (s.seInstr n.val)) = s.seShows n.val (iD (s.seInstr n.val)) (s.seReg n.val (iD (s.seInstr n.val)) + s.seSrc n.val (s.seInstr n.val)) ∧
      t.eng n.val = { s.seIssued n.val 1 with z := s.seReg n.val (iD (s.seInstr n.val)) + s.seSrc n.val (s.seInstr n.val) == 0, n := W.bit (s.seReg n.val (iD (s.seInstr n.val)) + s.seSrc n.val (s.seInstr n.val)) 31 } ∧
      s.seNext t n.val [Reg.SE_REG n.val (iD (s.seInstr n.val))]) ∧
  (∀ (s : State) (n : Fin 8), s.seAt n.val 0xb = true →
    Runs (.seSub n) s fun t =>
      t.seReg n.val (iD (s.seInstr n.val)) = s.seShows n.val (iD (s.seInstr n.val)) (s.seReg n.val (iD (s.seInstr n.val)) - s.seSrc n.val (s.seInstr n.val)) ∧
      t.eng n.val = { s.seIssued n.val 1 with z := s.seReg n.val (iD (s.seInstr n.val)) - s.seSrc n.val (s.seInstr n.val) == 0, n := W.bit (s.seReg n.val (iD (s.seInstr n.val)) - s.seSrc n.val (s.seInstr n.val)) 31 } ∧
      s.seNext t n.val [Reg.SE_REG n.val (iD (s.seInstr n.val))]) ∧
  (∀ (s : State) (n : Fin 8), s.seAt n.val 0xd = true →
    Runs (.seAnd n) s fun t =>
      t.seReg n.val (iD (s.seInstr n.val)) = s.seShows n.val (iD (s.seInstr n.val)) (s.seReg n.val (iD (s.seInstr n.val)) &&& s.seSrc n.val (s.seInstr n.val)) ∧
      t.eng n.val = { s.seIssued n.val 1 with z := s.seReg n.val (iD (s.seInstr n.val)) &&& s.seSrc n.val (s.seInstr n.val) == 0, n := W.bit (s.seReg n.val (iD (s.seInstr n.val)) &&& s.seSrc n.val (s.seInstr n.val)) 31 } ∧
      s.seNext t n.val [Reg.SE_REG n.val (iD (s.seInstr n.val))]) ∧
  (∀ (s : State) (n : Fin 8), s.seAt n.val 0xf = true →
    Runs (.seMul n) s fun t =>
      t.seReg n.val (iD (s.seInstr n.val)) = s.seShows n.val (iD (s.seInstr n.val)) (s.seReg n.val (iD (s.seInstr n.val)) * s.seSrc n.val (s.seInstr n.val)) ∧
      t.eng n.val = { s.seIssued n.val 4 with z := s.seReg n.val (iD (s.seInstr n.val)) * s.seSrc n.val (s.seInstr n.val) == 0, n := W.bit (s.seReg n.val (iD (s.seInstr n.val)) * s.seSrc n.val (s.seInstr n.val)) 31 } ∧
      s.seNext t n.val [Reg.SE_REG n.val (iD (s.seInstr n.val))]) ∧
  (∀ (s : State) (n : Fin 8), s.seAt n.val 0xe = true →
    Runs (.seShr n) s fun t =>
      t.seReg n.val (iD (s.seInstr n.val)) = s.seShows n.val (iD (s.seInstr n.val)) (s.seReg n.val (iD (s.seInstr n.val)) >>> ((s.seSrc n.val (s.seInstr n.val)).toNat % 32)) ∧
      t.eng n.val = { s.seIssued n.val 1 with z := s.seReg n.val (iD (s.seInstr n.val)) >>> ((s.seSrc n.val (s.seInstr n.val)).toNat % 32) == 0, n := W.bit (s.seReg n.val (iD (s.seInstr n.val)) >>> ((s.seSrc n.val (s.seInstr n.val)).toNat % 32)) 31 } ∧
      s.seNext t n.val [Reg.SE_REG n.val (iD (s.seInstr n.val))]) ∧
  (∀ (s : State) (n : Fin 8), s.seAt n.val 0x10 = true → s.seSrc n.val (s.seInstr n.val) ≠ 0 →
    Runs (.seDivr n) s fun t =>
      t.seReg n.val (iD (s.seInstr n.val)) = s.seShows n.val (iD (s.seInstr n.val)) (BitVec.ofNat 32 (((s.seReg n.val (iD (s.seInstr n.val))).toNat + (s.seSrc n.val (s.seInstr n.val)).toNat / 2) / (s.seSrc n.val (s.seInstr n.val)).toNat)) ∧
      t.eng n.val = { s.seIssued n.val 34 with z := BitVec.ofNat 32 (((s.seReg n.val (iD (s.seInstr n.val))).toNat + (s.seSrc n.val (s.seInstr n.val)).toNat / 2) / (s.seSrc n.val (s.seInstr n.val)).toNat) == 0, n := W.bit (BitVec.ofNat 32 (((s.seReg n.val (iD (s.seInstr n.val))).toNat + (s.seSrc n.val (s.seInstr n.val)).toNat / 2) / (s.seSrc n.val (s.seInstr n.val)).toNat)) 31 } ∧
      s.seNext t n.val [Reg.SE_REG n.val (iD (s.seInstr n.val))]) ∧
  (∀ (s : State) (n : Fin 8), s.seAt n.val 0x10 = true → s.seSrc n.val (s.seInstr n.val) = 0 →
    Runs (.seDivr n) s fun t =>
      t.seReg n.val (iD (s.seInstr n.val)) = s.seShows n.val (iD (s.seInstr n.val)) (0xFFFFFFFF) ∧
      t.eng n.val = { s.seIssued n.val 34 with z := false, n := true, t := true } ∧
        s.seNext t n.val [Reg.SE_REG n.val (iD (s.seInstr n.val))]) ∧
  (∀ (s : State) (n : Fin 8), s.seAt n.val 0xc = true →
    Runs (.seCmp n) s fun t =>
      t.eng n.val = { s.seIssued n.val 1 with z := s.seReg n.val (iD (s.seInstr n.val)) == s.seSrc n.val (s.seInstr n.val), n := decide ((s.seReg n.val (iD (s.seInstr n.val))).toNat < (s.seSrc n.val (s.seInstr n.val)).toNat) } ∧
      s.seNext t n.val []) ∧
  (∀ (s : State) (n : Fin 8), s.seAt n.val 0x7 = true →
    Runs (.seLdi n) s fun t =>
      t.seReg n.val (iD (s.seInstr n.val)) = s.seShows n.val (iD (s.seInstr n.val)) (BitVec.ofNat 32 (iImm (s.seInstr n.val))) ∧ t.eng n.val = s.seIssued n.val 1 ∧ s.seNext t n.val [Reg.SE_REG n.val (iD (s.seInstr n.val))]) ∧
  (∀ (s : State) (n : Fin 8), s.seAt n.val 0x8 = true →
    Runs (.seLdh n) s fun t =>
      t.seReg n.val (iD (s.seInstr n.val)) = s.seShows n.val (iD (s.seInstr n.val)) (BitVec.ofNat 32 (iImm (s.seInstr n.val)) <<< 16 ||| (s.seReg n.val (iD (s.seInstr n.val)) &&& 0xFFFF)) ∧ t.eng n.val = s.seIssued n.val 1 ∧ s.seNext t n.val [Reg.SE_REG n.val (iD (s.seInstr n.val))]) ∧
  (∀ (s : State) (n : Fin 8), s.seAt n.val 0x9 = true →
    Runs (.seMov n) s fun t =>
      t.seReg n.val (iD (s.seInstr n.val)) = s.seShows n.val (iD (s.seInstr n.val)) (s.seSrc n.val (s.seInstr n.val)) ∧
        t.eng n.val = s.seIssued n.val 1 ∧ s.seNext t n.val [Reg.SE_REG n.val (iD (s.seInstr n.val))]) ∧
  (∀ (s : State) (n : Fin 8), s.seAt n.val 0x20 = true →
    Runs (.seLdp n) s fun t =>
      t.seReg n.val (iD (s.seInstr n.val)) = s.seShows n.val (iD (s.seInstr n.val)) (s.rd (Reg.SE_PARAM n.val (iImm (s.seInstr n.val) % 32))) ∧ t.eng n.val = s.seIssued n.val 1 ∧ s.seNext t n.val [Reg.SE_REG n.val (iD (s.seInstr n.val))]) ∧
  (∀ (s : State) (n : Fin 8), s.seAt n.val 0x11 = true → iD (s.seInstr n.val) ≠ 5 → iD (s.seInstr n.val) ≠ 7 →
    Runs (.seRev n) s fun t =>
      (∀ i : Fin 32, W.bit (t.seReg n.val (iD (s.seInstr n.val))) i.val =
        (decide (i.val < iImm (s.seInstr n.val) % 32 + 1) && W.bit (s.seReg n.val (iD (s.seInstr n.val))) (iImm (s.seInstr n.val) % 32 - i.val))) ∧ t.eng n.val = s.seIssued n.val 1 ∧ s.seNext t n.val [Reg.SE_REG n.val (iD (s.seInstr n.val))]) ∧
  (∀ (s : State) (n : Fin 8), s.seAt n.val 0x11 = true →
    Runs (.seRev n) s fun t =>
      t.seReg n.val (iD (s.seInstr n.val)) = s.seShows n.val (iD (s.seInstr n.val)) (revBits (s.seReg n.val (iD (s.seInstr n.val))) (iImm (s.seInstr n.val) % 32 + 1)) ∧ t.eng n.val = s.seIssued n.val 1 ∧ s.seNext t n.val [Reg.SE_REG n.val (iD (s.seInstr n.val))]) ∧
  (∀ (s : State) (n : Fin 8), s.seAt n.val 0x15 = true →
    Runs (.seCrci n) s fun t =>
      t.rd (Reg.SE_REG n.val 7) = BitVec.ofNat 32 (s.fld (Reg.SE_MISC n.val) 0 16) &&& W.mask 0 (s.seCrcW n.val) ∧
        t.eng n.val = s.seIssued n.val 1 ∧ s.seNext t n.val [Reg.SE_REG n.val 7]) ∧
  (∀ (s : State) (n : Fin 8), s.seAt n.val 0x16 = true → iImm (s.seInstr n.val) % 64 = 0x20 →
    s.fld (Reg.SE_CRCCFG n.val) 0 2 = 2 → (s.seReg n.val 7).toNat < 65536 →
    Runs (.seCrcf n) s fun t =>
      (t.seReg n.val 7).toNat = ((2 * (s.seReg n.val 7).toNat % 65536) ^^^
        (if Bool.xor (W.bit (s.seReg n.val 7) 15) (W.bit (s.seReg n.val (iD (s.seInstr n.val))) 0) then s.fld (Reg.SE_CRCCFG n.val) 16 16 else 0)) ∧
      t.eng n.val = s.seIssued n.val 1 ∧ s.seNext t n.val [Reg.SE_REG n.val 7]) ∧
  (∀ (s : State) (n : Fin 8), s.seAt n.val 0x16 = true →
    Runs (.seCrcf n) s fun t =>
      t.rd (Reg.SE_REG n.val 7) = BitVec.ofNat 32 (((List.range (iImm (s.seInstr n.val) % 32 + 1)).map (fun i =>
        W.bit (s.seReg n.val (iD (s.seInstr n.val)))
        (if W.bit (s.seInstr n.val) 5 then i else iImm (s.seInstr n.val) % 32 - i))).foldl (seCrcBit (s.seCrcW n.val) (s.fld (Reg.SE_CRCCFG n.val) 16 16))
        (s.seReg n.val 7).toNat) &&& W.mask 0 (s.seCrcW n.val) ∧ t.eng n.val = s.seIssued n.val 1 ∧
          s.seNext t n.val [Reg.SE_REG n.val 7]) ∧
  (∀ (s : State) (n : Fin 8), s.seAt n.val 0x1b = true → s.bit (Reg.SE_STAT n.val) 20 = false →
    Runs (.seGetk n) s fun t =>
      t.seReg n.val (iD (s.seInstr n.val)) = s.seShows n.val (iD (s.seInstr n.val)) (0) ∧ t.eng n.val = s.seIssued n.val 1 ∧
        s.seNext t n.val [Reg.SE_REG n.val (iD (s.seInstr n.val))]) ∧
  (∀ (s : State) (n : Fin 8), s.seAt n.val 0x1b = true → s.bit (Reg.SE_STAT n.val) 20 = true →
    Runs (.seGetk n) s fun t =>
      t.seReg n.val (iD (s.seInstr n.val)) = s.seShows n.val (iD (s.seInstr n.val)) (BitVec.ofNat 32 (s.eng n.val).karg) ∧
        t.bit (Reg.SE_STAT n.val) 20 = false ∧ t.sePc n.val = (s.sePc n.val + 1) % 64 ∧
      t.eng n.val = s.seIssued n.val 1 ∧ RegsBut [Reg.SE_STAT n.val, Reg.SE_REG n.val (iD (s.seInstr n.val))] s t ∧
        Keeps [.regs, .se] s t) ∧
  (∀ (s : State) (n : Fin 8), s.seAt n.val 0x12 = true → s.seCond n.val (iD (s.seInstr n.val)) = false →
    Runs (.seJmp n) s fun t => t.eng n.val = s.seIssued n.val 1 ∧ s.seNext t n.val []) ∧
  (∀ (s : State) (n : Fin 8), s.seAt n.val 0x12 = true → s.seCond n.val (iD (s.seInstr n.val)) = true →
    Runs (.seJmp n) s fun t =>
      t.rd (Reg.SE_STAT n.val) = W.setFld (s.rd (Reg.SE_STAT n.val)) 8 6 (iImm (s.seInstr n.val) % 64) ∧
        t.eng n.val = s.seIssued n.val 1 ∧
      RegsBut [Reg.SE_STAT n.val] s t ∧ Keeps [.regs, .se] s t) ∧
  (∀ (s : State) (n : Fin 8), s.seReady n.val = true → iOp (s.seInstr n.val) = 0 →
    s.bit (Reg.SE_CFG1 n.val) 15 = true → s.fld (Reg.SE_CFG1 n.val) 8 6 = s.sePc n.val → s.rd (Reg.SE_REG n.val 2) ≠ 0 →
    Runs (.seNop n) s fun t =>
      t.sePc n.val = s.fld (Reg.SE_CFG1 n.val) 0 6 ∧ t.rd (Reg.SE_REG n.val 2) = s.rd (Reg.SE_REG n.val 2) - 1 ∧
      RegsBut [Reg.SE_STAT n.val, Reg.SE_REG n.val 2] s t) ∧
  (∀ (s : State) (n : Fin 8), s.seReady n.val = true → iOp (s.seInstr n.val) = 0 →
    s.bit (Reg.SE_CFG1 n.val) 15 = false ∨ s.rd (Reg.SE_REG n.val 2) = 0 → s.bit (Reg.SE_CFG0 n.val) 23 = true →
    s.fld (Reg.SE_CFG0 n.val) 16 6 = s.sePc n.val →
    Runs (.seNop n) s fun t => t.sePc n.val = s.fld (Reg.SE_CFG0 n.val) 8 6 ∧ RegsBut [Reg.SE_STAT n.val] s t) ∧
  (∀ (s : State) (n : Fin 8), s.seReady n.val = true → 0x23 < iOp (s.seInstr n.val) →
    Runs (.seUndefinedOperation n) s fun t =>
      t.seSt n.val = 2 ∧ t.fld (Reg.SE_STAT n.val) 16 4 = 1 ∧ t.bit (Reg.SE_EVT n.val) 0 = true ∧
        t.sePc n.val = s.sePc n.val ∧
      (t.eng n.val).drv = [])

/-- Chapter 16 (R871, R874, R877, R878, R882, R890, R915, Table 16-3): waits and pins. -/
def Obligations.StencilWaitsAndPins : Prop :=
  (∀ (s : State) (n : Fin 8), s.seAt n.val 0x2 = true → iP (s.seInstr n.val) < s.sePwid n.val →
    s.bit (Reg.SE_STAT n.val) 21 = false →
    Runs (.seWaite n) s fun t => t.eng n.val = { s.seIssued n.val 1 with waiting := true, left := (s.seReg n.val (iS (s.seInstr n.val))).toNat, late := false } ∧ RegsBut [] s t ∧ Keeps [.se] s t) ∧
  (∀ (s : State) (n : Fin 8), s.seAt n.val 0x4 = true → s.bit (Reg.SE_STAT n.val) 21 = false →
    s.seSrc n.val (s.seInstr n.val) = 0 →
    Runs (.seDelay n) s fun t => t.eng n.val = { s.seIssued n.val 1 with t := false } ∧ s.seNext t n.val []) ∧
  (∀ (s : State) (n : Fin 8), s.seAt n.val 0x4 = true → s.bit (Reg.SE_STAT n.val) 21 = false →
    s.seSrc n.val (s.seInstr n.val) ≠ 0 →
    Runs (.seDelay n) s fun t => t.eng n.val = { s.seIssued n.val 1 with waiting := true, left := (s.seSrc n.val (s.seInstr n.val)).toNat, late := false } ∧ RegsBut [] s t ∧ Keeps [.se] s t) ∧
  (∀ (s : State) (n : Fin 8), s.seAt n.val 0x5 = true → s.bit (Reg.SE_STAT n.val) 21 = false →
    0 ≤ (s.seTmr n.val - s.seSrc n.val (s.seInstr n.val)).toInt →
    Runs (.seAt n) s fun t => t.eng n.val = { s.seIssued n.val 1 with t := true } ∧ s.seNext t n.val []) ∧
  (∀ (s : State) (n : Fin 8), s.seAt n.val 0x5 = true → s.bit (Reg.SE_STAT n.val) 21 = false →
    (s.seTmr n.val - s.seSrc n.val (s.seInstr n.val)).toInt < 0 →
    Runs (.seAt n) s fun t => t.eng n.val = { s.seIssued n.val 1 with waiting := true, left := (s.seSrc n.val (s.seInstr n.val) - s.seTmr n.val).toNat, late := false } ∧ RegsBut [] s t ∧ Keeps [.se] s t) ∧
  (∀ (s : State) (n : Fin 8), s.seAt n.val 0x6 = true → s.bit (Reg.SE_STAT n.val) 21 = false →
    (s.seSrc n.val (s.seInstr n.val)).toNat ≤ (s.seTmr n.val - s.seReg n.val 4).toNat →
    Runs (.seSince n) s fun t => t.eng n.val = { s.seIssued n.val 1 with t := true } ∧ s.seNext t n.val []) ∧
  (∀ (s : State) (n : Fin 8), s.seAt n.val 0x6 = true → s.bit (Reg.SE_STAT n.val) 21 = false →
    (s.seTmr n.val - s.seReg n.val 4).toNat < (s.seSrc n.val (s.seInstr n.val)).toNat →
    Runs (.seSince n) s fun t => t.eng n.val = { s.seIssued n.val 1 with waiting := true, left := (s.seSrc n.val (s.seInstr n.val)).toNat - (s.seTmr n.val - s.seReg n.val 4).toNat, late := false } ∧ RegsBut [] s t ∧ Keeps [.se] s t) ∧
  (∀ (s : State) (n : Fin 8), s.seAt n.val 0x4 = true → s.bit (Reg.SE_STAT n.val) 21 = true →
    s.bit (Reg.SE_CFG2 n.val) 24 = true → s.bit (Reg.SE_STAT n.val) 23 = false →
    Runs (.seDelay n) s fun t =>
      t.sePc n.val = s.fld (Reg.SE_CFG1 n.val) 16 6 ∧ (t.eng n.val).link = s.sePc n.val ∧
        t.bit (Reg.SE_STAT n.val) 21 = false ∧
      t.bit (Reg.SE_STAT n.val) 23 = true ∧ RegsBut [Reg.SE_STAT n.val] s t) ∧
  (∀ (s : State) (n : Fin 8) (lvl : Bool), s.seAt n.val 0x3 = true → iP (s.seInstr n.val) < s.sePwid n.val →
    s.bit (Reg.SE_STAT n.val) 21 = false →
    (if s.ballDrivers (s.seBall n.val (iP (s.seInstr n.val))) = [] then lvl else s.bit Reg.SE_PINLVL (s.seBall n.val (iP (s.seInstr n.val)))) = W.bit (s.seInstr n.val) 20 →
    Runs (.seWaitl n lvl) s fun t =>
      t.eng n.val = { s.seIssued n.val 1 with t := false } ∧
        t.bit Reg.SE_PINLVL (s.seBall n.val (iP (s.seInstr n.val))) = (if s.ballDrivers (s.seBall n.val (iP (s.seInstr n.val))) = [] then lvl else s.bit Reg.SE_PINLVL (s.seBall n.val (iP (s.seInstr n.val)))) ∧
      s.seNext t n.val [Reg.SE_PINLVL]) ∧
  (∀ (s : State) (n : Fin 8) (lvl : Bool), s.seAt n.val 0x3 = true → iP (s.seInstr n.val) < s.sePwid n.val →
    s.bit (Reg.SE_STAT n.val) 21 = false →
    (if s.ballDrivers (s.seBall n.val (iP (s.seInstr n.val))) = [] then lvl else s.bit Reg.SE_PINLVL (s.seBall n.val (iP (s.seInstr n.val)))) ≠ W.bit (s.seInstr n.val) 20 →
    Runs (.seWaitl n lvl) s fun t =>
      t.eng n.val = { s.seIssued n.val 1 with waiting := true, left := (s.seReg n.val (iS (s.seInstr n.val))).toNat, late := false } ∧ RegsBut [Reg.SE_PINLVL] s t) ∧
  (∀ (s : State) (n : Fin 8) (lvl : Bool), s.seAt n.val 0x13 = true → iP (s.seInstr n.val) < s.sePwid n.val →
    Runs (.seShi n lvl) s fun t =>
      t.rd (Reg.SE_REG n.val 6) = (s.rd (Reg.SE_REG n.val 6) >>> 1 ||| (if (if s.ballDrivers (s.seBall n.val (iP (s.seInstr n.val))) = [] then lvl else s.bit Reg.SE_PINLVL (s.seBall n.val (iP (s.seInstr n.val)))) then 0x80000000 else 0)) ∧ t.eng n.val = s.seIssued n.val 1 ∧
      s.seNext t n.val [Reg.SE_REG n.val 6, Reg.SE_PINLVL]) ∧
  (∀ (s : State) (n : Fin 8), s.seAt n.val 0x14 = true → iP (s.seInstr n.val) < s.sePwid n.val →
    Runs (.seSho n) s fun t =>
      t.rd (Reg.SE_REG n.val 6) = s.rd (Reg.SE_REG n.val 6) >>> 1 ∧
      tget none (t.eng n.val).drv (iP (s.seInstr n.val)) = (if s.bit (Reg.SE_REG n.val 6) 0 = true ∧
        s.bit (Reg.SE_PINCFG n.val) (16 + iP (s.seInstr n.val)) = true then none
        else some (s.bit (Reg.SE_REG n.val 6) 0)) ∧
      s.seNext t n.val [Reg.SE_REG n.val 6, Reg.SE_PINLVL, Reg.SE_DRVCONF]) ∧
  (∀ (s : State) (n : Fin 8), s.seAt n.val 0x1 = true → iP (s.seInstr n.val) < s.sePwid n.val →
    Runs (.seSet n) s fun t =>
      tget none (t.eng n.val).drv (iP (s.seInstr n.val)) = (if iImm (s.seInstr n.val) % 4 = 0 then some false else if iImm (s.seInstr n.val) % 4 = 1 ∧ s.bit (Reg.SE_PINCFG n.val) (16 + iP (s.seInstr n.val)) = false then some true
        else none) ∧
      s.seNext t n.val [Reg.SE_PINLVL, Reg.SE_DRVCONF]) ∧
  (∀ (s : State) (n : Fin 8), s.seAt n.val 0x1 = true → s.sePwid n.val ≤ iP (s.seInstr n.val) →
    Runs (.seSet n) s fun t =>
      t.seSt n.val = 2 ∧ t.fld (Reg.SE_STAT n.val) 16 4 = 2 ∧ t.bit (Reg.SE_EVT n.val) 0 = true ∧
        t.sePc n.val = s.sePc n.val) ∧
  (∀ (s : State) (n : Fin 8) (back : BitVec 8), s.seRuns n.val = true → (s.eng n.val).waiting = true →
    iOp (s.seInstr n.val) = 0x2 →
    s.bit (Reg.SE_CFG1 n.val) 15 = false → s.bit (Reg.SE_CFG0 n.val) 23 = false → W.bit (s.seInstr n.val) 22 = false ∨
      (s.eng n.val).late = false →
    Runs (.seWaitSatisfied n false back) s fun t =>
      (t.eng n.val).waiting = false ∧ (t.eng n.val).t = false ∧
      (t.eng n.val).busy = max (max 1 (s.eng n.val).busy) (3 + s.fld (Reg.SE_PINCFG n.val) 24 4 - back.toNat) ∧
        t.rd (Reg.SE_REG n.val 4) = s.seBack n.val back.toNat ∧
      t.rd (Reg.SE_REG n.val 3) = s.seBack n.val back.toNat - s.rd (Reg.SE_REG n.val 4) ∧
        t.sePc n.val = (s.sePc n.val + 1) % 64 ∧
      RegsBut [Reg.SE_STAT n.val, Reg.SE_REG n.val 3, Reg.SE_REG n.val 4, Reg.SE_PINLVL] s t ∧ Keeps [.regs, .se] s t) ∧
  (∀ (s : State) (n : Fin 8) (back : BitVec 8), s.seRuns n.val = true → (s.eng n.val).waiting = true →
    iOp (s.seInstr n.val) = 0x2 →
    s.bit (Reg.SE_CFG1 n.val) 15 = false → s.bit (Reg.SE_CFG0 n.val) 23 = false → W.bit (s.seInstr n.val) 22 = true →
      (s.eng n.val).left = 0 →
    Runs (.seWaitSatisfied n true back) s fun t =>
      t.eng n.val = { s.eng n.val with waiting := false, t := true, busy := max 1 (s.eng n.val).busy } ∧
        s.seNext t n.val []) ∧
  (∀ (s : State) (n : Fin 8) (back : BitVec 8), s.seRuns n.val = true → (s.eng n.val).waiting = true →
    iOp (s.seInstr n.val) = 0x2 →
    s.bit (Reg.SE_CFG1 n.val) 15 = false → s.bit (Reg.SE_CFG0 n.val) 23 = false → W.bit (s.seInstr n.val) 22 = false ∨
      (s.eng n.val).left ≠ 0 →
    Runs (.seWaitSatisfied n true back) s fun t => t = s) ∧
  (∀ (s : State) (n : Fin 8) (back : BitVec 8), s.seRuns n.val = true → (s.eng n.val).waiting = true →
    iOp (s.seInstr n.val) = 0x3 →
    s.bit (Reg.SE_CFG1 n.val) 15 = false → s.bit (Reg.SE_CFG0 n.val) 23 = false → W.bit (s.seInstr n.val) 22 = false ∨
      (s.eng n.val).late = false →
    Runs (.seWaitSatisfied n false back) s fun t =>
      t.eng n.val = { s.eng n.val with
        waiting := false, t := false,
        busy := max (max 1 (s.eng n.val).busy) (3 + s.fld (Reg.SE_PINCFG n.val) 24 4 - back.toNat),
        lastT := max (s.eng n.val).lastT (s.seTime n.val (s.seBack n.val back.toNat)) } ∧
      t.bit Reg.SE_PINLVL (s.seBall n.val (iP (s.seInstr n.val))) = W.bit (s.seInstr n.val) 20 ∧
        s.seNext t n.val [Reg.SE_PINLVL]) ∧
  (∀ (s : State) (n : Fin 8) (back : BitVec 8), s.seRuns n.val = true → (s.eng n.val).waiting = true →
    iOp (s.seInstr n.val) = 0x4 →
    s.bit (Reg.SE_CFG1 n.val) 15 = false → s.bit (Reg.SE_CFG0 n.val) 23 = false → (s.eng n.val).left = 0 →
    Runs (.seWaitSatisfied n false back) s fun t =>
      t.eng n.val = { s.eng n.val with waiting := false, t := false, busy := max 1 (s.eng n.val).busy } ∧
        s.seNext t n.val []) ∧
  (∀ (s : State) (n : Fin 8) (back : BitVec 8), s.seRuns n.val = true → (s.eng n.val).waiting = true →
    iOp (s.seInstr n.val) = 0x5 →
    s.bit (Reg.SE_CFG1 n.val) 15 = false → s.bit (Reg.SE_CFG0 n.val) 23 = false → (s.eng n.val).left = 0 →
    Runs (.seWaitSatisfied n false back) s fun t =>
      t.eng n.val = { s.eng n.val with waiting := false, t := false, busy := max 1 (s.eng n.val).busy } ∧
        s.seNext t n.val []) ∧
  (∀ (s : State) (n : Fin 8) (back : BitVec 8), s.seRuns n.val = true → (s.eng n.val).waiting = true →
    iOp (s.seInstr n.val) = 0x6 →
    s.bit (Reg.SE_CFG1 n.val) 15 = false → s.bit (Reg.SE_CFG0 n.val) 23 = false → (s.eng n.val).left = 0 →
    Runs (.seWaitSatisfied n false back) s fun t =>
      t.eng n.val = { s.eng n.val with waiting := false, t := false, busy := max 1 (s.eng n.val).busy } ∧
        s.seNext t n.val []) ∧
  (∀ (s : State) (n : Fin 8) (give : Bool) (back : BitVec 8), 4 ≤ iOp (s.seInstr n.val) → iOp (s.seInstr n.val) ≤ 6 →
    (s.eng n.val).left ≠ 0 →
    Runs (.seWaitSatisfied n give back) s (fun t => t = s)) ∧
  (∀ (s : State) (n : Fin 8) (give : Bool) (back : BitVec 8), (s.eng n.val).waiting = false →
    Runs (.seWaitSatisfied n give back) s (fun t => t = s)) ∧
  (∀ (s : State) (n : Fin 8) (rise : Bool) (back : BitVec 8), s.seRuns n.val = true →
    s.fld (Reg.SE_MISC n.val) 24 3 < s.sePwid n.val →
    s.bit (Reg.SE_MISC n.val) (if rise then 27 else 28) = true →
    Runs (.edgeCounterEdge n rise back) s fun t =>
      t.rd (Reg.SE_ECNT n.val) = s.rd (Reg.SE_ECNT n.val) + 1 ∧ (t.eng n.val).cntT = s.seBack n.val back.toNat ∧
      t.bit Reg.SE_PINLVL (s.seBall n.val (s.fld (Reg.SE_MISC n.val) 24 3)) = rise ∧
      RegsBut [Reg.SE_ECNT n.val, Reg.SE_PINLVL] s t ∧ Keeps [.regs, .se] s t) ∧
  (∀ (s : State) (n : Fin 8) (rise : Bool) (back : BitVec 8), s.bit (Reg.SE_MISC n.val) (if rise then 27 else 28) = false →
    Runs (.edgeCounterEdge n rise back) s fun t => t.rd (Reg.SE_ECNT n.val) = s.rd (Reg.SE_ECNT n.val) ∧
      (t.eng n.val).cntT = (s.eng n.val).cntT) ∧
  (∀ (s : State) (n : Fin 8) (back : BitVec 8), s.seRuns n.val = true → (s.eng n.val).waiting = true →
    iOp (s.seInstr n.val) = 0x2 ∨ iOp (s.seInstr n.val) = 0x3 → s.bit (Reg.SE_CFG1 n.val) 15 = false →
    s.bit (Reg.SE_CFG0 n.val) 23 = false → W.bit (s.seInstr n.val) 22 = true → (s.eng n.val).late = true →
      (s.eng n.val).left = 0 →
    Runs (.seWaitSatisfied n false back) s fun t =>
      t.eng n.val = { s.eng n.val with waiting := false, t := true, busy := max 1 (s.eng n.val).busy } ∧ s.seNext t n.val [])

/-- Chapter 16 (R877, R883, R884, R886, R889 to R891, R895, Table 16-3): channels, handler, parameters. -/
def Obligations.StencilChannels : Prop :=
  (∀ (s : State) (n : Fin 8), s.seAt n.val 0x17 = true → iImm (s.seInstr n.val) % 4 ≠ 3 →
    Runs (.seOpen n) s fun t =>
      t.seCh n.val (iP (s.seInstr n.val)) = { s.seCh n.val (iP (s.seInstr n.val)) with build := [], opened := true, tfirst := (s.seTime n.val
        (if iImm (s.seInstr n.val) % 4 = 0 then s.seTmr n.val else if iImm (s.seInstr n.val) % 4 = 1 then s.seReg n.val 4 else s.seReg n.val 4 - s.seReg n.val 3)) } ∧ s.seNext t n.val []) ∧
  (∀ (s : State) (n : Fin 8), s.seAt n.val 0x17 = true → iImm (s.seInstr n.val) % 4 = 3 →
    Runs (.seOpen n) s fun t => t.seCh n.val (iP (s.seInstr n.val)) = { s.seCh n.val (iP (s.seInstr n.val)) with build := [], opened := true, tfirst := (t.seCh n.val (iP (s.seInstr n.val))).tfirst } ∧
      t.sePc n.val = (s.sePc n.val + 1) % 64 ∧ RegsBut [Reg.SE_STAT n.val] s t ∧ Keeps [.regs, .se, .free] s t) ∧
  (∀ (s : State) (n : Fin 8), s.seAt n.val 0x18 = true → (s.seCh n.val (iP (s.seInstr n.val))).build.length < 16 →
    Runs (.seOut n) s fun t =>
      t.seCh n.val (iP (s.seInstr n.val)) = { s.seCh n.val (iP (s.seInstr n.val)) with build := (s.seCh n.val (iP (s.seInstr n.val))).build ++ [(s.seReg n.val (iD (s.seInstr n.val))).setWidth 16] } ∧ s.seNext t n.val []) ∧
  (∀ (s : State) (n : Fin 8), s.seAt n.val 0x18 = true → 16 ≤ (s.seCh n.val (iP (s.seInstr n.val))).build.length →
    s.fld (Reg.SE_OVFTALLY n.val) 0 16 < 65535 →
    Runs (.seOut n) s fun t =>
      t.fld (Reg.SE_OVFTALLY n.val) 0 16 = s.fld (Reg.SE_OVFTALLY n.val) 0 16 + 1 ∧ t.eng n.val = s.seIssued n.val 1 ∧
        s.seNext t n.val [Reg.SE_OVFTALLY n.val]) ∧
  (∀ (s : State) (n : Fin 8), s.seAt n.val 0x19 = true → (s.seCh n.val (iP (s.seInstr n.val))).opened = true →
    (s.seCh n.val (iP (s.seInstr n.val))).build.length ≤ 16 → s.use (0x20 + n.val) = .none →
    Runs (.seCmt n) s fun t =>
      t.rd (Reg.SE_CHSTAT n.val (iP (s.seInstr n.val))) = BitVec.ofNat 32 ((if 6 < iImm (s.seInstr n.val) % 256 then 4 else iImm (s.seInstr n.val) % 256) + 256 * (s.seCh n.val (iP (s.seInstr n.val))).build.length +
        65536 * ((s.fld (Reg.SE_CHSTAT n.val (iP (s.seInstr n.val))) 16 16 + 1) % 65536)) ∧
      (∀ i : Fin 16, t.rd (Reg.SE_CHDATA n.val (iP (s.seInstr n.val)) i.val) = ((s.seCh n.val (iP (s.seInstr n.val))).build.getD i.val 0).setWidth 32) ∧
      t.seCh n.val (iP (s.seInstr n.val)) = { rfirst := (s.seCh n.val (iP (s.seInstr n.val))).tfirst, rlast := (s.eng n.val).lastT } ∧ t.sePc n.val = (s.sePc n.val + 1) % 64 ∧
      Keeps [.regs, .se] s t) ∧
  (∀ (s : State) (n : Fin 8) (l e : Nat), s.seAt n.val 0x19 = true → (s.seCh n.val (iP (s.seInstr n.val))).opened = true →
    s.use (0x20 + n.val) = .entry l e false →
    (s.port (0x20 + n.val)).got = none → s.fld (Reg.MBM_ENTDESC l e 3) 0 2 ≠ 1 →
      s.fld (Reg.MBM_ENTDESC l e 0) 24 3 = iP (s.seInstr n.val) →
    (s.ent l e).t0 ≤ (s.seCh n.val (iP (s.seInstr n.val))).tfirst →
    Runs (.seCmt n) s fun t =>
      (t.port (0x20 + n.val)).got = some ⟨(if 6 < iImm (s.seInstr n.val) % 256 then 4 else iImm (s.seInstr n.val) % 256), (s.seCh n.val (iP (s.seInstr n.val))).build, (s.seCh n.val (iP (s.seInstr n.val))).tfirst, (s.eng n.val).lastT⟩) ∧
  (∀ (s : State) (n : Fin 8), s.seAt n.val 0x1a = true →
    Runs (.sePushq n) s fun t =>
      t.pool = (s.stage 5 (s.fld (Reg.SE_QCFG n.val) 0 6) (s.fld (Reg.SE_QCFG n.val) 8 6) ((s.seReg n.val (iD (s.seInstr n.val))).setWidth 16)).2.pool ∧
      t.sePc n.val = (s.sePc n.val + 1) % 64) ∧
  (∀ (s : State) (n : Fin 8), s.seAt n.val 0x1c = true → iD (s.seInstr n.val) ≠ 3 → iD (s.seInstr n.val) ≠ 4 →
    Runs (.seRdc n) s fun t =>
      t.seReg n.val (iD (s.seInstr n.val)) = s.seShows n.val (iD (s.seInstr n.val)) (s.rd (Reg.SE_ECNT n.val)) ∧
        t.rd (Reg.SE_REG n.val 4) = (s.eng n.val).cntT ∧
      t.rd (Reg.SE_REG n.val 3) = (s.eng n.val).cntT - s.rd (Reg.SE_REG n.val 4) ∧ t.eng n.val = s.seIssued n.val 1 ∧
      s.seNext t n.val [Reg.SE_REG n.val (iD (s.seInstr n.val)), Reg.SE_REG n.val 3, Reg.SE_REG n.val 4]) ∧
  (∀ (s : State) (n : Fin 8), s.seAt n.val 0x1d = true → s.bit (Reg.SE_STAT n.val) 21 = false ∨
    s.bit (Reg.SE_STAT n.val) 23 = true →
    Runs (.seBwpt n) s fun t => t.eng n.val = s.seIssued n.val 1 ∧ s.seNext t n.val []) ∧
  (∀ (s : State) (n : Fin 8), s.seAt n.val 0x1d = true → s.bit (Reg.SE_STAT n.val) 21 = true →
    s.bit (Reg.SE_STAT n.val) 23 = false →
    Runs (.seBwpt n) s fun t =>
      t.sePc n.val = s.fld (Reg.SE_CFG1 n.val) 16 6 ∧ (t.eng n.val).link = (s.sePc n.val + 1) % 64 ∧
        t.bit (Reg.SE_STAT n.val) 21 = false ∧
      t.bit (Reg.SE_STAT n.val) 23 = true ∧ RegsBut [Reg.SE_STAT n.val] s t) ∧
  (∀ (s : State) (n : Fin 8), s.seAt n.val 0x1f = true → s.bit (Reg.SE_STAT n.val) 23 = true →
    Runs (.seRet n) s fun t =>
      t.sePc n.val = (s.eng n.val).link % 64 ∧ t.bit (Reg.SE_STAT n.val) 23 = false ∧ t.eng n.val = s.seIssued n.val 1 ∧
        RegsBut [Reg.SE_STAT n.val] s t) ∧
  (∀ (s : State) (n : Fin 8), s.seAt n.val 0x1e = true → s.bit (Reg.SE_STAT n.val) 23 = true →
    W.bit (s.seInstr n.val) 0 = false →
    Runs (.seMark n) s fun t =>
      t.eng n.val = { s.seIssued n.val 1 with mark := some (s.seTime n.val (s.seTmr n.val)), markPin := none } ∧
        s.seNext t n.val []) ∧
  (∀ (s : State) (n : Fin 8), s.seAt n.val 0x1e = true → s.bit (Reg.SE_STAT n.val) 23 = false →
    W.bit (s.seInstr n.val) 0 = false →
    Runs (.seMark n) s fun t => t.eng n.val = s.seIssued n.val 1 ∧ s.seNext t n.val []) ∧
  (∀ (s : State) (n : Fin 8), s.seAt n.val 0x1e = true → s.bit (Reg.SE_STAT n.val) 23 = true →
    W.bit (s.seInstr n.val) 0 = true → iP (s.seInstr n.val) < s.sePwid n.val →
    Runs (.seMark n) s fun t =>
      t.eng n.val = { s.seIssued n.val 1 with markPin := some (iP (s.seInstr n.val)) } ∧ s.seNext t n.val []) ∧
  (∀ (s : State) (n : Fin 8), s.seAt n.val 0x21 = true → (s.eng n.val).pageT ≠ some s.periStart →
    s.bit (Reg.SE_STAT n.val) 22 = true →
    Runs (.sePload n) s fun t =>
      (∀ i : Fin 32, t.rd (Reg.SE_PARAM n.val i.val) = tget 0 (s.eng n.val).shadow i.val) ∧
        t.bit (Reg.SE_STAT n.val) 22 = false ∧
      t.sePc n.val = (s.sePc n.val + 1) % 64 ∧ t.eng n.val = s.seIssued n.val 2) ∧
  (∀ (s : State) (n : Fin 8), s.seAt n.val 0x21 = true → (s.eng n.val).pageT = some s.periStart →
    Runs (.sePload n) s fun t =>
      (∀ i : Fin 32, t.rd (Reg.SE_PARAM n.val i.val) =
        if (s.eng n.val).pagePend then tget 0 (s.eng n.val).page i.val else s.rd (Reg.SE_PARAM n.val i.val)) ∧
      t.bit (Reg.SE_STAT n.val) 22 = s.bit (Reg.SE_STAT n.val) 22 ∧ t.sePc n.val = (s.sePc n.val + 1) % 64 ∧
      t.eng n.val = s.seIssued n.val 2) ∧
  (∀ (s : State) (n : Fin 8), s.seAt n.val 0x21 = true → (s.eng n.val).pageT ≠ some s.periStart →
    s.bit (Reg.SE_STAT n.val) 22 = false →
    Runs (.sePload n) s fun t => t.eng n.val = s.seIssued n.val 2 ∧ s.seNext t n.val []) ∧
  (∀ (s : State) (n : Fin 8), s.seAt n.val 0x22 = true →
    Runs (.seIrq n) s fun t =>
      t.bit (Reg.SE_EVT n.val) 1 = true ∧ (s.bit (Reg.SE_IEN n.val) 1 = true → t.asserted 53 = true) ∧
        t.eng n.val = s.seIssued n.val 1 ∧
      s.seNext t n.val (Reg.SE_EVT n.val :: icuRegs)) ∧
  (∀ (s : State) (n : Fin 8), s.seAt n.val 0x23 = true →
    Runs (.seStop n) s fun t =>
      t.seSt n.val = 0 ∧ t.sePc n.val = (s.sePc n.val + 1) % 64 ∧ (t.eng n.val).drv = [] ∧
      RegsBut [Reg.SE_STAT n.val, Reg.SE_PINLVL, Reg.SE_DRVCONF] s t ∧ Keeps [.regs, .se] s t)

/-- Chapter 16 (R883, R892 to R895, R897, R898, R908, R914): control of the stencil engines. -/
def Obligations.StencilControl : Prop :=
  (∀ (s : State) (n : Fin 8), s.live = true → s.gatedBit gSE = false → s.seSt n.val = 0 → s.seBlocked n.val = false →
    Runs (.seRun n) s fun t =>
      t.bit (Reg.SE_CTRL n.val) 0 = true ∧ (t.eng n.val).waiting = false ∧ (t.eng n.val).drv = [] ∧
        t.sePc n.val = s.fld (Reg.SE_CFG0 n.val) 0 6 ∧ t.seSt n.val = 1 ∧ t.rd (Reg.SE_TMR n.val) = 0 ∧
      (∀ r : Fin 8, t.rd (Reg.SE_REG n.val r.val) = 0) ∧ (t.eng n.val).tb0 = s.clk.tb.toNat - s.clk.tickPhase % 4 ∧
        (t.eng n.val).busy = 0 ∧ (t.eng n.val).phase = 0 ∧ (t.eng n.val).shadow = (s.eng n.val).shadow) ∧
  (∀ (s : State) (n : Fin 8), s.live = true → s.gatedBit gSE = false → s.seSt n.val = 0 → s.seBlocked n.val = true →
    Runs (.seRun n) s fun t => t.bit (Reg.SE_CTRL n.val) 0 = true ∧ t.seSt n.val = 3 ∧ t.se = s.se) ∧
  (∀ (s : State) (n : Fin 8), s.live = true → s.gatedBit gSE = true →
    Runs (.seRun n) s fun t => t.bit Reg.SE_STATUS 31 = true ∧ RegsBut [Reg.SE_STATUS] s t ∧ Keeps [.regs] s t) ∧
  (∀ (s : State) (n : Fin 8), s.live = true → s.seSt n.val = 1 → (s.eng n.val).waiting = false → (s.eng n.val).busy ≠ 0 →
    Runs (.seRunClear n) s fun t =>
      t.bit (Reg.SE_CTRL n.val) 0 = false ∧ t.eng n.val = { s.eng n.val with stop := true } ∧
        RegsBut [Reg.SE_CTRL n.val] s t ∧ Keeps [.regs, .se] s t) ∧
  (∀ (s : State) (n : Fin 8), s.live = true → s.seSt n.val ≠ 1 ∨ (s.eng n.val).waiting = true ∨ (s.eng n.val).busy = 0 →
    Runs (.seRunClear n) s fun t =>
      t.bit (Reg.SE_CTRL n.val) 0 = false ∧ t.seSt n.val = 0 ∧ (t.eng n.val).drv = [] ∧ (t.eng n.val).waiting = false ∧
      RegsBut [Reg.SE_CTRL n.val, Reg.SE_STAT n.val, Reg.SE_PINLVL, Reg.SE_DRVCONF] s t ∧ Keeps [.regs, .se] s t) ∧
  (∀ (s : State) (n : Fin 8), s.live = true → s.gatedBit gSE = false → s.seSt n.val = 0 → s.seBlocked n.val = false →
    Runs (.seGstart (BitVec.ofNat 32 (2 ^ n.val))) s fun t =>
      (t.eng n.val).waiting = false ∧ (t.eng n.val).drv = [] ∧ t.sePc n.val = s.fld (Reg.SE_CFG0 n.val) 0 6 ∧
        t.seSt n.val = 1 ∧ t.rd (Reg.SE_TMR n.val) = 0 ∧
      (∀ r : Fin 8, t.rd (Reg.SE_REG n.val r.val) = 0) ∧ (t.eng n.val).tb0 = s.clk.tb.toNat - s.clk.tickPhase % 4 ∧
        (t.eng n.val).busy = 0 ∧ (t.eng n.val).phase = 0) ∧
  (∀ (s : State) (n : Fin 8), s.live = true → s.gatedBit gSE = false → s.seSt n.val ≠ 0 →
    Runs (.seGstart (BitVec.ofNat 32 (2 ^ n.val))) s fun t => t.bit Reg.SE_STATUS 0 = true ∧ RegsBut [Reg.SE_STATUS] s t ∧
      Keeps [.regs] s t) ∧
  (∀ (s : State) (n : Fin 8), s.runs gSE = true → s.seSt n.val = 1 →
    Runs (.phrst (BitVec.ofNat 32 (2 ^ n.val))) s fun t =>
      t.eng n.val = { s.eng n.val with phase := 0, busy := (s.eng n.val).busy / s.seDiv n.val * s.seDiv n.val } ∧
        RegsBut [] s t ∧ Keeps [.se] s t) ∧
  (∀ (s : State) (n : Fin 8) (addr : Word), s.live = true → s.seSt n.val = 0 ∨ s.seSt n.val = 2 →
    Runs (.seLoad n addr) s fun t => t.eng n.val = { s.eng n.val with load := some addr.toNat } ∧ RegsBut [] s t ∧
      Keeps [.se] s t) ∧
  (∀ (s : State) (n : Fin 8) (addr : Word), s.live = true → s.seSt n.val = 1 ∨ s.seSt n.val = 3 →
    Runs (.seLoad n addr) s fun t => t.bit Reg.SE_STATUS 31 = true ∧ RegsBut [Reg.SE_STATUS] s t ∧ Keeps [.regs] s t) ∧
  (∀ (s : State) (n : Fin 8) (a : Nat) (r : List Word), s.runs gSE = true → (s.eng n.val).load = some a →
    ((s.setEng n.val { s.eng n.val with load := none }).seRecord a).1 = some r → r.length = 40 + W.fld (r.getD 0 0) 24 7 →
    1 ≤ W.fld (r.getD 0 0) 24 7 → W.fld (r.getD 0 0) 24 7 ≤ 64 →
    Runs (.seLoadDone n) s fun t =>
      (∀ i : Fin 6, t.rd (Reg.SE_CFG0 n.val + 4 * i.val) = r.getD (1 + i.val) 0) ∧
      (∀ i : Fin 64, t.rd (Reg.SE_PROG n.val i.val) = (if i.val < W.fld (r.getD 0 0) 24 7 then r.getD (8 + i.val) 0 else 0)) ∧
      (∀ i : Fin 32, t.rd (Reg.SE_PARAM n.val i.val) = r.getD (8 + W.fld (r.getD 0 0) 24 7 + i.val) 0 ∧
        tget 0 (t.eng n.val).shadow i.val = r.getD (8 + W.fld (r.getD 0 0) 24 7 + i.val) 0) ∧
      t.bit (Reg.SE_EVT n.val) 2 = true ∧ (t.eng n.val).load = none) ∧
  (∀ (s : State) (n : Fin 8) (a : Nat), s.runs gSE = true → (s.eng n.val).load = some a → a % 4 ≠ 0 →
    Runs (.seLoadDone n) s fun t =>
      t.eng n.val = { s.eng n.val with load := none } ∧ t.bit (Reg.SE_EVT n.val) 3 = true ∧
        RegsBut (Reg.SE_EVT n.val :: icuRegs) s t ∧
      Keeps [.regs, .se] s t) ∧
  (∀ (s : State) (n : Fin 8), (s.eng n.val).load = none → Runs (.seLoadDone n) s (fun t => t = s)) ∧
  (∀ (s : State) (n : Fin 8) (w : Fin 32) (val : Word), s.live = true →
    Runs (.seParamWrite n w val) s fun t =>
      tget 0 (t.eng n.val).shadow w.val = val ∧ t.bit (Reg.SE_STAT n.val) 22 = true ∧ (t.eng n.val).pageT = some s.periStart ∧
      ((s.eng n.val).pageT ≠ some s.periStart →
        (t.eng n.val).page = (s.eng n.val).shadow ∧ (t.eng n.val).pagePend = s.bit (Reg.SE_STAT n.val) 22) ∧
      ((s.eng n.val).pageT = some s.periStart →
        (t.eng n.val).page = (s.eng n.val).page ∧ (t.eng n.val).pagePend = (s.eng n.val).pagePend) ∧
      t.rd (Reg.SE_PARAM n.val w.val) = s.rd (Reg.SE_PARAM n.val w.val) ∧ RegsBut [Reg.SE_STAT n.val] s t ∧
        Keeps [.regs, .se] s t)

/-- Chapter 17 (R14, R920 to R924, R926 to R929, R933 to R938, R952, R954, R955): the port-power channels. -/
def Obligations.PortPowerChannels : Prop :=
  (∀ (s : State) (n : Fin 8) (present : Bool), s.live = true → s.pst n.val = 0 → s.bit (Reg.PPW_CTRLn n.val) 0 = false →
    s.ppIdportOk n.val = true → s.bit (Reg.PPW_CFG n.val) 0 = false →
    Runs (.ppOn n present) s fun t =>
      t.pst n.val = 3 ∧ t.ppIsOn n.val = true ∧ t.bit (Reg.PPW_CTRLn n.val) 0 = true ∧ t.bit Reg.PPW_ONMAP n.val = true ∧
      (t.ppc n.val).idOk = false ∧ (t.ppc n.val).idFailed = false ∧
      RegsBut [Reg.PPW_STAT n.val, Reg.PPW_CTRLn n.val, Reg.PPW_ONMAP] s t ∧ Keeps [.regs, .pp] s t) ∧
  (∀ (s : State) (n : Fin 8) (present : Bool), s.live = true → s.pst n.val ≠ 0 → s.pst n.val ≠ 8 →
    s.bit (Reg.PPW_CTRLn n.val) 0 = false →
    s.ppIdportOk n.val = true →
    Runs (.ppOn n present) s fun t => t.bit (Reg.PPW_CTRLn n.val) 0 = true ∧ RegsBut [Reg.PPW_CTRLn n.val] s t ∧
      Keeps [.regs] s t) ∧
  (∀ (s : State) (n : Fin 8) (present : Bool), s.live = true → s.pst n.val = 0 → s.bit (Reg.PPW_CTRLn n.val) 0 = false →
    s.ppIdportOk n.val = true → s.bit (Reg.PPW_CFG n.val) 0 = true →
    Runs (.ppOn n present) s fun t =>
      t.pst n.val = (if present then 2 else 1) ∧ t.ppIsOn n.val = s.ppIsOn n.val ∧ t.bit (Reg.PPW_CTRLn n.val) 0 = true) ∧
  (∀ (s : State) (n : Fin 8) (present : Bool), s.live = true → s.pst n.val ≠ 8 → s.bit (Reg.PPW_CTRLn n.val) 0 = false →
    s.ppIdportOk n.val = false →
    Runs (.ppOn n present) s fun t => t.bit Reg.PPW_STATUS 0 = true ∧ RegsBut [Reg.PPW_STATUS] s t ∧ Keeps [.regs] s t) ∧
  (∀ (s : State) (n : Fin 8), s.live = true →
    Runs (.ppOff n) s fun t =>
      t.ppIsOn n.val = false ∧ t.bit (Reg.PPW_CTRLn n.val) 0 = false ∧ t.bit Reg.PPW_ONMAP n.val = false ∧
      t.pst n.val = (if s.pst n.val = 8 then 8 else 0) ∧ (t.ppc n.val).episode = false ∧ (t.ppc n.val).retry = false) ∧
  (∀ (s : State) (n : Fin 8) (code : BitVec 16), s.live = true → s.ppIsOn n.val = true → s.inrushOn n.val = false →
    s.idTakes n.val = true →
    Runs (.ppCurrentSample n code) s fun t =>
      t.rd (Reg.PPW_IMEAS n.val) = code.setWidth 32 ∧
      t.rd (Reg.PPW_IPEAK n.val) = (if s.fld (Reg.PPW_IPEAK n.val) 0 16 < code.toNat then code.setWidth 32 else s.rd (Reg.PPW_IPEAK n.val)) ∧
      t.ppc n.val = { s.ppc n.val with
        above := if max 80 (s.fld (Reg.PPW_LEV n.val) 0 16) < code.toNat then min 256 ((s.ppc n.val).above + 1) else 0,
        below := if code.toNat ≤ max 80 (s.fld (Reg.PPW_LEV n.val) 0 16) then min 256 ((s.ppc n.val).below + 1) else 0,
        trip := if max 80 (s.fld (Reg.PPW_LEV n.val) 16 16) < code.toNat then min 256 ((s.ppc n.val).trip + 1) else 0,
        idSum := (s.ppc n.val).idSum + code.toNat, idCnt := (s.ppc n.val).idCnt + 1,
        peakWas := s.fld (Reg.PPW_IPEAK n.val) 0 16, sample := code.toNat,
        warnAt := if (t.ppc n.val).above ≤ max 1 (s.fld (Reg.PPW_FILT n.val) 0 8) then code.toNat else (s.ppc n.val).warnAt,
        tripAt := if (t.ppc n.val).trip ≤ max 1 (s.fld (Reg.PPW_FILT n.val) 8 8) then code.toNat else (s.ppc n.val).tripAt } ∧
      RegsBut [Reg.PPW_IMEAS n.val, Reg.PPW_IPEAK n.val] s t ∧ Keeps [.regs, .pp] s t) ∧
  (∀ (s : State) (n : Fin 8) (code : BitVec 16), s.live = true → s.ppIsOn n.val = true → s.inrushOn n.val = true →
    Runs (.ppCurrentSample n code) s fun t =>
      (t.ppc n.val).above = 0 ∧
      (t.ppc n.val).trip = (if max 80 (s.fld (Reg.PPW_INRUSH n.val) 0 16) < code.toNat then min 256 ((s.ppc n.val).trip + 1) else 0)) ∧
  (∀ (s : State) (n : Fin 8), s.live = true → s.bit (Reg.PPW_STAT n.val) 18 = false →
    max 1 (s.fld (Reg.PPW_FILT n.val) 0 8) ≤ (s.ppc n.val).above →
    s.ppIsOn n.val = true → s.fld (Reg.PPW_EVTALLY n.val) 0 16 < 65535 →
    Runs (.ppWarning n) s fun t =>
      t.bit (Reg.PPW_STAT n.val) 18 = true ∧ t.bit (Reg.PPW_EVT n.val) 0 = true ∧
      t.fld (Reg.PPW_EVTALLY n.val) 0 16 = s.fld (Reg.PPW_EVTALLY n.val) 0 16 + 1 ∧ t.ppIsOn n.val = true ∧
      t.raised evPP_CURRENT n.val (BitVec.ofNat 32 (65536 * ((s.ppc n.val).warnAt % 65536)))) ∧
  (∀ (s : State) (n : Fin 8), s.live = true → s.bit (Reg.PPW_STAT n.val) 18 = true →
    Runs (.ppWarning n) s fun t =>
      t.bit (Reg.PPW_STAT n.val) 18 = decide ((s.ppc n.val).below < max 1 (s.fld (Reg.PPW_FILT n.val) 0 8)) ∧
      RegsBut [Reg.PPW_STAT n.val] s t ∧ Keeps [.regs] s t) ∧
  (∀ (s : State) (n : Fin 8), s.live = true → s.ppIsOn n.val = true →
    max 1 (s.fld (Reg.PPW_FILT n.val) 8 8) ≤ (s.ppc n.val).trip →
    s.pst n.val ≠ 8 → (s.ppc n.val).episode = false →
    Runs (.ppTrip n) s fun t =>
      t.ppIsOn n.val = false ∧ t.pst n.val = 6 ∧ (t.ppc n.val).episode = true ∧ (t.ppc n.val).retry = false ∧
        t.bit (Reg.PPW_EVT n.val) 1 = true ∧
      t.raised evPP_CURRENT n.val (BitVec.ofNat 32 (1 + 65536 * ((s.ppc n.val).tripAt % 65536)))) ∧
  (∀ (s : State) (n : Fin 8), s.live = true → s.ppIsOn n.val = true →
    max 1 (s.fld (Reg.PPW_FILT n.val) 8 8) ≤ (s.ppc n.val).trip →
    s.pst n.val ≠ 8 → (s.ppc n.val).episode = true → (s.ppc n.val).retry = true → s.fld (Reg.PPW_TALLY n.val) 16 16 < 65535 →
    s.clk.slow < (s.ppc n.val).since + 1000 * min 60 (max 1 (s.fld Reg.PPW_CTRL 8 6)) →
    Runs (.ppTrip n) s fun t =>
      t.ppIsOn n.val = false ∧ t.fld (Reg.PPW_TALLY n.val) 16 16 = s.fld (Reg.PPW_TALLY n.val) 16 16 + 1 ∧
      t.fld (Reg.PPW_STAT n.val) 4 4 = min 15 (s.fld (Reg.PPW_STAT n.val) 4 4 + 1) ∧
      t.pst n.val = (if max 1 (s.fld Reg.PPW_CTRL 0 4) ≤ min 15 (s.fld (Reg.PPW_STAT n.val) 4 4 + 1) then 8 else 6) ∧
      (max 1 (s.fld Reg.PPW_CTRL 0 4) ≤ min 15 (s.fld (Reg.PPW_STAT n.val) 4 4 + 1) →
        t.fld (Reg.PPW_STAT n.val) 8 8 = 0x30)) ∧
  (∀ (s : State) (n : Fin 8), (s.ppc n.val).trip = 0 → Runs (.ppTrip n) s (fun t => t = s)) ∧
  (∀ (s : State) (n : Fin 8), s.live = true → (s.ppc n.val).since + s.fld (Reg.PPW_INRUSH n.val) 16 16 ≤ s.clk.slow →
    Runs (.inrushEnd n) s fun t => t.ppc n.val = { s.ppc n.val with inrush := false } ∧ RegsBut [] s t ∧ Keeps [.pp] s t) ∧
  (∀ (s : State) (n : Fin 8), s.live = true → s.bit (Reg.PPW_CFG n.val) 0 = true → s.pst n.val = 1 ∨ s.pst n.val = 2 →
    Runs (.insertion n) s fun t =>
      t.bit (Reg.PPW_STAT n.val) 16 = true ∧ t.bit Reg.PPW_PRESMAP n.val = true ∧ t.pst n.val = 3 ∧ t.ppIsOn n.val = true) ∧
  (∀ (s : State) (n : Fin 8), s.live = true → s.bit (Reg.PPW_CFG n.val) 0 = true → 3 ≤ s.pst n.val → s.pst n.val ≤ 7 →
    s.fld (Reg.PPW_EVTALLY n.val) 16 16 < 65535 →
    Runs (.removal n) s fun t =>
      t.bit (Reg.PPW_STAT n.val) 16 = false ∧ t.bit Reg.PPW_PRESMAP n.val = false ∧ t.pst n.val = 1 ∧ t.ppIsOn n.val = false ∧
      t.fld (Reg.PPW_STAT n.val) 4 4 = 0 ∧ t.fld (Reg.PPW_EVTALLY n.val) 16 16 = s.fld (Reg.PPW_EVTALLY n.val) 16 16 + 1 ∧
      t.raised evPRESENCE n.val 0) ∧
  (∀ (s : State) (n : Fin 8), s.live = true → s.pst n.val = 3 →
    (s.ppc n.val).since + min 1000 (max 1 (s.fld (Reg.PPW_TIM n.val) 16 10)) ≤ s.clk.slow →
    (s.ppc n.val).idOk = true →
    Runs (.ppSettleEnd n) s fun t => t.pst n.val = 5 ∧ t.ppIsOn n.val = s.ppIsOn n.val ∧ t.pp = s.pp) ∧
  (∀ (s : State) (n : Fin 8), s.live = true → s.pst n.val = 3 →
    (s.ppc n.val).since + min 1000 (max 1 (s.fld (Reg.PPW_TIM n.val) 16 10)) ≤ s.clk.slow →
    (s.ppc n.val).idOk = false → s.ppIdmode n.val = 0 →
    s.bit (Reg.PPW_CFG n.val) 2 = true →
    Runs (.ppSettleEnd n) s fun t => t.pst n.val = 5 ∧ (t.ppc n.val).idOk = true ∧ t.raised evPRESENCE n.val 3) ∧
  (∀ (s : State) (n : Fin 8), s.live = true → s.pst n.val = 3 →
    (s.ppc n.val).since + min 1000 (max 1 (s.fld (Reg.PPW_TIM n.val) 16 10)) ≤ s.clk.slow →
    (s.ppc n.val).idOk = false → s.ppIdmode n.val = 1 →
    Runs (.ppSettleEnd n) s fun t => t.pst n.val = 4 ∧ RegsBut [Reg.PPW_STAT n.val] s t ∧ Keeps [.regs] s t) ∧
  (∀ (s : State) (n : Fin 8) (value : Word), s.live = true → s.pst n.val = 4 → s.ppIdmode n.val = 1 →
    (s.ppc n.val).idCnt = 64 → 64 * s.fld (Reg.PPW_IDIWIN n.val) 0 16 ≤ (s.ppc n.val).idSum →
      (s.ppc n.val).idSum ≤ 64 * s.fld (Reg.PPW_IDIWIN n.val) 16 16 →
    (s.ppc n.val).idFailed = false → s.bit (Reg.PPW_CFG n.val) 2 = true →
    Runs (.identityCheckDone n value false) s fun t =>
      t.pst n.val = 5 ∧ t.rd (Reg.PPW_IDLAST n.val) = BitVec.ofNat 32 ((s.ppc n.val).idSum / 64) ∧ (t.ppc n.val).idOk = true ∧
        t.raised evPRESENCE n.val 3) ∧
  (∀ (s : State) (n : Fin 8) (value : Word), s.live = true → s.pst n.val = 4 → s.ppIdmode n.val = 1 →
    (s.ppc n.val).idCnt = 64 → 64 * s.fld (Reg.PPW_IDIWIN n.val) 16 16 < (s.ppc n.val).idSum →
      (s.ppc n.val).idFailed = false →
    s.use (s.fld (Reg.PPW_IDCFG n.val) 0 8) ≠ .ident n.val →
    Runs (.identityCheckDone n value false) s fun t =>
      t.pst n.val = 4 ∧ t.rd (Reg.PPW_IDLAST n.val) = BitVec.ofNat 32 ((s.ppc n.val).idSum / 64) ∧
        (t.ppc n.val).idFailed = true ∧ RegsBut [Reg.PPW_IDLAST n.val] s t) ∧
  (∀ (s : State) (n : Fin 8) (value : Word), s.live = true → s.pst n.val = 4 → s.ppIdmode n.val = 1 →
    (s.ppc n.val).idCnt = 64 → 64 * s.fld (Reg.PPW_IDIWIN n.val) 16 16 < (s.ppc n.val).idSum → (s.ppc n.val).idFailed = true →
    Runs (.identityCheckDone n value false) s fun t =>
      t.pst n.val = 8 ∧ t.fld (Reg.PPW_STAT n.val) 8 8 = 0x31 ∧ t.ppIsOn n.val = false ∧ t.bit Reg.PPW_PENMAP n.val = true ∧
      t.raised evPRESENCE n.val 1) ∧
  (∀ (s : State) (n : Fin 8), s.live = true → s.pst n.val = 6 →
    (s.ppc n.val).since + min 60000 (max 10 (s.fld (Reg.PPW_BACKOFF n.val) 0 16)) ≤ s.clk.slow →
    Runs (.backoffEnd n) s fun t => t.pst n.val = 3 ∧ t.ppIsOn n.val = true ∧ (t.ppc n.val).retry = true ∧
      Keeps [.regs, .pp] s t) ∧
  (∀ (s : State) (n : Fin 8), s.live = true → s.pst n.val ≠ 6 → Runs (.backoffEnd n) s (fun t => t = s)) ∧
  (∀ (s : State) (n : Fin 8), s.live = true → (s.ppc n.val).episode = true → (s.ppc n.val).retry = true →
    s.ppIsOn n.val = true →
    s.fld (Reg.PPW_TALLY n.val) 0 16 < 65535 →
      (s.ppc n.val).since + 1000 * min 60 (max 1 (s.fld Reg.PPW_CTRL 8 6)) ≤ s.clk.slow →
    Runs (.holdExpiry n) s fun t =>
      t.fld (Reg.PPW_TALLY n.val) 0 16 = s.fld (Reg.PPW_TALLY n.val) 0 16 + 1 ∧ t.fld (Reg.PPW_STAT n.val) 4 4 = 0 ∧
      t.ppc n.val = { s.ppc n.val with episode := false, retry := false } ∧
      RegsBut [Reg.PPW_TALLY n.val, Reg.PPW_STAT n.val] s t ∧ Keeps [.regs, .pp] s t) ∧
  (∀ (s : State) (p k : Fin 8), s.live = true → s.bit (Reg.TW_CFG p.val) 0 = true → s.bit (Reg.TW_CFG p.val) 2 = true →
    s.portPenned p.val = false → s.chanOf p.val = some k.val → (s.port p.val).cycling = false → s.pst k.val = 5 →
    Runs (.powerCycleRequest p) s fun t => t.pst k.val = 7 ∧ t.ppIsOn k.val = false ∧ p.val ∈ (t.ppc k.val).cycle) ∧
  (∀ (s : State) (n : Fin 8), s.live = true → s.pst n.val = 7 → s.ppIsOn n.val = false →
    (s.ppc n.val).since + 10 ≤ s.clk.slow →
    (∀ p ∈ (s.ppc n.val).cycle, (s.ppc n.val).since + s.fld (Reg.TW_STUCK p) 16 16 ≤ s.clk.slow) →
    Runs (.cycleOffEnd n) s fun t =>
      t.pst n.val = 7 ∧ t.ppIsOn n.val = true ∧ (t.ppc n.val).inrush = true ∧
      RegsBut [Reg.PPW_STAT n.val, Reg.PPW_ONMAP] s t ∧ Keeps [.regs, .pp] s t) ∧
  (∀ (s : State) (n : Fin 8), s.live = true → s.pst n.val = 7 → s.ppIsOn n.val = true →
    (s.ppc n.val).since + min 1000 (max 1 (s.fld (Reg.PPW_TIM n.val) 16 10)) ≤ s.clk.slow →
    Runs (.ppSettleEnd n) s fun t => t.pst n.val = 5 ∧ (t.ppc n.val).cycle = []) ∧
  (∀ (s : State) (n : Fin 8) (value : Word) (failed : Bool), s.ppIdmode n.val = 1 → (s.ppc n.val).idCnt ≠ 64 →
    Runs (.identityCheckDone n value failed) s (fun t => t = s)) ∧
  (∀ (s : State) (src : Requester) (n : Fin 8), s.live = true → s.alwaysOn = true → src ≠ .host →
    Runs (.ipeakRead src n true .good) s fun t =>
      t.reply = .word (BitVec.ofNat 32 (s.ppc n.val).peakWas) ∧
        t.rd (Reg.PPW_IPEAK n.val) = BitVec.ofNat 32 (s.ppc n.val).sample ∧
      RegsBut [Reg.PPW_IPEAK n.val] s t ∧ Keeps [.regs, .reply] s t) ∧
  (∀ (s : State) (src : Requester) (n : Fin 8), s.live = true → s.alwaysOn = true → src ≠ .host →
    Runs (.ipeakRead src n false .good) s fun t =>
      t.reply = .word (s.rd (Reg.PPW_IPEAK n.val)) ∧ t.rd (Reg.PPW_IPEAK n.val) = 0 ∧ RegsBut [Reg.PPW_IPEAK n.val] s t ∧
      Keeps [.regs, .reply] s t) ∧
  (∀ (s : State) (n : Fin 8), s.live = true → s.ppIsOn n.val = true →
    max 1 (s.fld (Reg.PPW_FILT n.val) 8 8) ≤ (s.ppc n.val).trip →
    s.pst n.val ≠ 8 → (s.ppc n.val).episode = true → (s.ppc n.val).retry = true → s.fld (Reg.PPW_TALLY n.val) 0 16 < 65535 →
    (s.ppc n.val).since + 1000 * min 60 (max 1 (s.fld Reg.PPW_CTRL 8 6)) ≤ s.clk.slow →
    Runs (.ppTrip n) s fun t =>
      t.ppIsOn n.val = false ∧ t.pst n.val = 6 ∧ (t.ppc n.val).episode = true ∧ (t.ppc n.val).retry = false ∧
      t.fld (Reg.PPW_TALLY n.val) 0 16 = s.fld (Reg.PPW_TALLY n.val) 0 16 + 1 ∧
      t.fld (Reg.PPW_TALLY n.val) 16 16 = s.fld (Reg.PPW_TALLY n.val) 16 16) ∧
  (∀ (s : State) (n : Fin 8) (value : Word), s.live = true → s.pst n.val = 4 → s.ppIdmode n.val = 3 →
    s.use (s.fld (Reg.PPW_IDCFG n.val) 0 8) = .ident n.val → (s.ppc n.val).idBad = true → (s.ppc n.val).idFailed = true →
    Runs (.identityCheckDone n value false) s fun t =>
      t.pst n.val = 8 ∧ t.fld (Reg.PPW_STAT n.val) 8 8 = 0x31 ∧ t.ppIsOn n.val = false ∧
      t.rd (Reg.PPW_IDLAST n.val) = s.rd (Reg.PPW_IDLAST n.val) ∧ t.raised evPRESENCE n.val 1) ∧
  (∀ (s : State) (n : Fin 8) (value : Word), s.live = true → s.pst n.val = 4 → s.ppIdmode n.val = 2 →
    s.use (s.fld (Reg.PPW_IDCFG n.val) 0 8) = .ident n.val → (s.ppc n.val).idBad = false → (s.ppc n.val).idFailed = false →
    s.bit (Reg.PPW_CFG n.val) 2 = true → s.fld (Reg.PPW_IDCFG n.val) 24 2 = 3 →
    (value ^^^ s.rd (Reg.PPW_IDVAL n.val)) &&& s.rd (Reg.PPW_IDMASK n.val) = 0 →
    Runs (.identityCheckDone n value false) s fun t =>
      t.pst n.val = 5 ∧ t.rd (Reg.PPW_IDLAST n.val) = value ∧ (t.ppc n.val).idOk = true ∧ t.raised evPRESENCE n.val 3) ∧
  (∀ (s : State) (n : Fin 8) (failed : Bool) (value : Word), 2 ≤ s.ppIdmode n.val →
    s.use (s.fld (Reg.PPW_IDCFG n.val) 0 8) ≠ .ident n.val →
    Runs (.identityCheckDone n value failed) s (fun t => t = s))

/-- The queue of commands is first in, first out (log entries 1 and 96). -/
def Obligations.StepRunsFrontCommand : Prop :=
  ∀ (s : State) (c : Instr) (q : List Instr), s.pending = c :: q → step s = exec c { s with pending := q }

/-- R35, R36, R48, R49, R98: what passes on an empty queue; that a cycle passes there is the model's choice (log entry 1). -/
def Obligations.IdleStep : Prop :=
  (∀ s : State, s.pending = [] → s.live = true →
    ∃ t, step s = .next t ∧ t.pending = [] ∧ t.clk.tb = s.clk.tb + 1 ∧ t.clk.tickPhase = (s.clk.tickPhase + 1) % 400 ∧
      ((s.clk.tickPhase + 1) % 400 ≠ 0 → t.mem = s.mem ∧ t.out = s.out ∧ t.hif = s.hif ∧ t.kle = s.kle ∧
        t.mbm.copies = s.mbm.copies ∧
        (∀ l : Fin 4, (t.ml l.val).ents = (s.ml l.val).ents ∧ (t.ml l.val).num = (s.ml l.val).num ∧
          (t.ml l.val).t0 = (s.ml l.val).t0))) ∧
  (∀ s : State, s.pending = [] → s.live = true → (s.clk.tickPhase + 1) % 400 = 0 →
    ∃ t, step s = .next t ∧ t.mbm.pushes = (if s.runs gMBM = true then s.mbm.pushes.drop 1 else s.mbm.pushes) ∧
      (∀ n : Fin 8, s.bit (Reg.TMB_TMR_CTRL n.val) 0 = true → s.bit (Reg.TMB_TMR_CTRL n.val) 2 = false →
      1 < (s.rd (Reg.TMB_TMR_COUNT n.val)).toNat → t.rd (Reg.TMB_TMR_COUNT n.val) = s.rd (Reg.TMB_TMR_COUNT n.val) - 1)) ∧
  (∀ s : State, s.pending = [] → s.live = false → s.alwaysOn = true → s.pwr = pwrSTANDBY → s.clk.rootLost = false →
    s.clk.lg.collapse = false →
    step s = .next { s with clk := { s.clk with tb := s.clk.tb + 16 } }) ∧
  (∀ (s : State) (k : Nat), s.pending = [] → s.live = false → s.alwaysOn = true → s.clk.pll = .off → s.clk.trans = .toOff k →
    s.clk.rootLost = false →
    s.clk.lg.collapse = false →
    step s = .next { s with clk := { s.clk with tb := s.clk.tb + 16 } }) ∧
  (∀ s : State, s.pending = [] → s.live = false → s.tbOnCrystal = false → step s = .next s)

/-- Every command completes in every state, with the frame of its footprint. -/
def Obligations.EveryCommandAnswers : Prop :=
  ∀ (s : State) (c : Instr), Runs c s (Keeps (footprint c) s)

/-- The canonical form of memory, registers and SECDED states is kept by every step. -/
def Obligations.StepKeepsSound : Prop := ∀ s t : State, s.Sound → step s = .next t → t.Sound

/-- Reset: the invariant of `StepKeepsSound` holds there. -/
def Obligations.ResetIsSound : Prop :=
  State.reset.Sound ∧ State.reset.pending = [] ∧ (∀ a, State.reset.rd a = regReset a) ∧ (∀ a, State.reset.rdByte a = 0)

/-- Runs of every length from every state: no fault, no refusal; commands are taken in order. -/
def Obligations.RunsNeverStop : Prop :=
  ∀ (n : Nat) (s : State), ∃ t : State, core.run n s = .next t ∧ t.pending = s.pending.drop n ∧ (s.Sound → t.Sound)

/-- R47. -/
def Obligations.TimebaseOnlyCleared : Prop :=
  (∀ (s t : State) (c : Instr), (∀ high, c ≠ .powerOnReset high) → c ≠ .deviceReset → exec c s = .next t →
    t.clk.tb = s.clk.tb) ∧
  (∀ (s : State) (high : Bool), Runs (.powerOnReset high) s fun t => t.clk.tb = 0) ∧
  (∀ s : State, s.clk.resetReq = true → Runs .deviceReset s fun t => t.clk.tb = 0)

/-- R522, R720: the depths of the capture and ADC FIFOs, kept by every step. -/
def Obligations.FifosStayBounded : Prop :=
  (∀ s t : State, (∀ n, (s.cp n).fifo.length ≤ 8) → (∀ n, (s.ad n).fifo.length ≤ 16) → step s = .next t →
    (∀ n, (t.cp n).fifo.length ≤ 8) ∧ (∀ n, (t.ad n).fifo.length ≤ 16)) ∧
  (∀ n, (State.reset.cp n).fifo.length ≤ 8) ∧ (∀ n, (State.reset.ad n).fifo.length ≤ 16)

/-- R4: the laws of memory and of the register file. -/
def Obligations.MemoryAndRegisterLaws : Prop :=
  (∀ (s : State) (a b : Nat) (v : Byte), (s.wrByte a v).rdByte b = if b = a then v else s.rdByte b) ∧
  (∀ (s : State) (a b : Nat) (v : Word), (s.wrWord a v).rdByte b =
    if b = a then v.setWidth 8 else if b = a + 1 then (v >>> 8).setWidth 8 else if b = a + 2 then (v >>> 16).setWidth 8
    else if b = a + 3 then (v >>> 24).setWidth 8 else s.rdByte b) ∧
  (∀ (s : State) (a : Nat) (v : Word), (s.wrWord a v).rdWord a = v) ∧
  (∀ (s : State) (a b : Nat) (v : Word), (s.wr a v).rd b = if b = a then v else s.rd b) ∧
  (∀ (s : State) (a b i j : Nat) (v : Bool), i < 32 → (s.setBit a i v).bit b j = if b = a ∧ j = i then v else s.bit b j) ∧
  (∀ s t : State, s.Sound → t.Sound → (∀ a, s.rdByte a = t.rdByte a) → s.mem = t.mem) ∧
  (∀ s t : State, s.Sound → t.Sound → (∀ a, s.rd a = t.rd a) → s.regs = t.regs)

/-- The table gives no row bits. -/
def Obligations.NoCommandIsAWord : Prop :=
  ∀ (nbits w : Nat) (s : State), decodeTableWord nbits w = none ∧ s.withFetchWord nbits w = s

/-- R19. -/
def Obligations.TalliesSaturate : Prop :=
  (∀ (s : State) (a : Nat), (s.tally a).fld a 0 16 = min 65535 (s.fld a 0 16 + 1) ∧ (s.tally a).fld a 16 16 = s.fld a 16 16 ∧
    RegsBut [a] s (s.tally a) ∧ (s.fld a 0 16 = 65535 → s.tally a = s)) ∧
  (∀ (s : State) (a : Nat), (s.tallyHi a).fld a 16 16 = min 65535 (s.fld a 16 16 + 1) ∧
    (s.tallyHi a).fld a 0 16 = s.fld a 0 16 ∧
    RegsBut [a] s (s.tallyHi a) ∧ (s.fld a 16 16 = 65535 → s.tallyHi a = s))

/-- R97, R103: the resets of the link and of the function. -/
def Obligations.FunctionLevelResetKeeps : Prop :=
  (∀ s : State, Runs .functionLevelReset s fun t => t.clk = s.clk ∧ t.pwr = s.pwr ∧ t.sup = s.sup ∧ ∀ a, a < 0x10020000 →
    t.rd a = s.rd a) ∧
  (∀ s : State, Runs .linkReset s fun t => t.clk = s.clk ∧ t.pwr = s.pwr ∧ t.sup = s.sup ∧ ∀ a, a < 0x10020000 →
    t.rd a = s.rd a) ∧
  (∀ s : State, Runs .dataLinkDown s fun t => t.clk = s.clk ∧ t.pwr = s.pwr ∧ t.sup = s.sup ∧ ∀ a, a < 0x10020000 →
    t.rd a = s.rd a) ∧
  (∀ s : State, Runs .inBandHotReset s fun t => t.clk = s.clk ∧ t.pwr = s.pwr ∧ t.sup = s.sup ∧ ∀ a, a < 0x10020000 →
    t.rd a = s.rd a)

/-- R105: the seven resets of Table 3-1 and the safe levels. -/
def Obligations.SafeLevelsReset : Prop :=
  (∀ (s : State) (m : Fin 12) (high : Bool), Runs (.powerOnReset high) s fun t => t.rd (Reg.PWM_SAFE m.val) = 0) ∧
  (∀ (s : State) (m : Fin 12),
    Runs .deviceReset s fun t => t.rd (Reg.PWM_SAFE m.val) = s.rd (Reg.PWM_SAFE m.val)) ∧
  (∀ (s : State) (m : Fin 12) (ns : Nat) (ok amid : Bool),
    Runs (.pinReset ns ok amid) s fun t => t.rd (Reg.PWM_SAFE m.val) = s.rd (Reg.PWM_SAFE m.val)) ∧
  (∀ (s : State) (m : Fin 12),
    Runs .linkReset s fun t => t.rd (Reg.PWM_SAFE m.val) = s.rd (Reg.PWM_SAFE m.val)) ∧
  (∀ (s : State) (m : Fin 12),
    Runs .dataLinkDown s fun t => t.rd (Reg.PWM_SAFE m.val) = s.rd (Reg.PWM_SAFE m.val)) ∧
  (∀ (s : State) (m : Fin 12),
    Runs .inBandHotReset s fun t => t.rd (Reg.PWM_SAFE m.val) = s.rd (Reg.PWM_SAFE m.val)) ∧
  (∀ (s : State) (m : Fin 12),
    Runs .functionLevelReset s fun t => t.rd (Reg.PWM_SAFE m.val) = s.rd (Reg.PWM_SAFE m.val)) ∧
  (∀ (s : State) (m : Fin 12) (n : Fin 4),
    Runs (.coreResetAssert n) s fun t => t.rd (Reg.PWM_SAFE m.val) = s.rd (Reg.PWM_SAFE m.val)) ∧
  (∀ (s : State) (m : Fin 12) (n : Fin 4),
    Runs (.coreResetHeld n) s fun t => t.rd (Reg.PWM_SAFE m.val) = s.rd (Reg.PWM_SAFE m.val)) ∧
  (∀ (s : State) (m : Fin 12) (n : Fin 4),
    Runs (.coreResetRelease n) s fun t => t.rd (Reg.PWM_SAFE m.val) = s.rd (Reg.PWM_SAFE m.val)) ∧
  (∀ (s : State) (m : Fin 12) (val : Word),
    Runs (.slotrst val) s fun t => t.rd (Reg.PWM_SAFE m.val) = s.rd (Reg.PWM_SAFE m.val)) ∧
  (∀ (s : State) (m : Fin 12) (n : Fin 32),
    Runs (.slotResetEffect n) s fun t => t.rd (Reg.PWM_SAFE m.val) = s.rd (Reg.PWM_SAFE m.val))

/-- R135. -/
def Obligations.BootforceRefused : Prop :=
  ∀ (s : State) (val : Word), s.sysServed = true → s.outcome ≠ boHOLD_UNTESTED ∨ W.fld val 0 16 ≠ 0xF0CE →
    Runs (.bootforce val) s fun t => t.bit Reg.SYS_BOOTSTAT 13 = true ∧ t.outcome = s.outcome ∧
      RegsBut [Reg.SYS_BOOTSTAT] s t ∧ Keeps [.regs] s t

/-- R146. -/
def Obligations.CoreZeroKeepsBooting : Prop :=
  ∀ s : State, s.sysServed = true → s.live = true → s.outcome = boBOOTING →
    Runs (.coreResetAssert 0) s fun t => t.bit Reg.SYS_STATUS 31 = true ∧ RegsBut [Reg.SYS_STATUS] s t ∧ Keeps [.regs] s t

/-- R86. -/
def Obligations.BusyPowerCommand : Prop :=
  (∀ s : State, s.sysServed = true → s.bit Reg.SYS_PWRSTATE 8 = true →
    Runs .pwrcmdRun s fun t => t.fld Reg.SYS_PWRSTATE 16 8 = 3 ∧ t.bit Reg.SYS_PWRSTATE 8 = true ∧ t.pwr = s.pwr ∧
      RegsBut [Reg.SYS_PWRSTATE] s t ∧ Keeps [.regs] s t) ∧
  (∀ s : State, s.sysServed = true → s.bit Reg.SYS_PWRSTATE 8 = true →
    Runs .pwrcmdTrim s fun t => t.fld Reg.SYS_PWRSTATE 16 8 = 3 ∧ t.bit Reg.SYS_PWRSTATE 8 = true ∧ t.pwr = s.pwr ∧
      RegsBut [Reg.SYS_PWRSTATE] s t ∧ Keeps [.regs] s t) ∧
  (∀ s : State, s.sysServed = true → s.bit Reg.SYS_PWRSTATE 8 = true →
    Runs .pwrcmdStandby s fun t => t.fld Reg.SYS_PWRSTATE 16 8 = 3 ∧ t.bit Reg.SYS_PWRSTATE 8 = true ∧ t.pwr = s.pwr ∧
      RegsBut [Reg.SYS_PWRSTATE] s t ∧ Keeps [.regs] s t) ∧
  (∀ s : State, s.sysServed = true → s.bit Reg.SYS_PWRSTATE 8 = true →
    Runs .pwrcmdOff s fun t => t.fld Reg.SYS_PWRSTATE 16 8 = 3 ∧ t.bit Reg.SYS_PWRSTATE 8 = true ∧ t.pwr = s.pwr ∧
      RegsBut [Reg.SYS_PWRSTATE] s t ∧ Keeps [.regs] s t)

/-- R723. -/
def Obligations.DoubleEdge : Prop :=
  ∀ (s : State) (d : Fin 4) (onB : Bool) (held : BitVec 4) (back : BitVec 9), s.fld (Reg.CAPQD_QCFG d.val) 4 4 ≤ held.toNat →
    s.runs gCAPQD = true → s.bit (Reg.CAPQD_QCFG d.val) 0 = true →
    Runs (.qdEdge d onB true held back) s fun t =>
      t.rd (Reg.CAPQD_POS d.val) = s.rd (Reg.CAPQD_POS d.val) ∧
        t.bit (Reg.CAPQD_QSTAT d.val) 0 = s.bit (Reg.CAPQD_QSTAT d.val) 0 ∧
      t.fld (Reg.CAPQD_ERRTALLY d.val) 0 16 = min 65535 (s.fld (Reg.CAPQD_ERRTALLY d.val) 0 16 + 1) ∧
      t.bit (Reg.CAPQD_QSTAT d.val) 11 = true ∧ (t.qdu d.val).times = []

/-- R883. -/
def Obligations.ParameterPages : Prop :=
  (∀ (s : State) (n : Fin 8) (w : Fin 32) (val : Word), s.live = true →
    Runs (.seParamWrite n w val) s fun t =>
      tget 0 (t.eng n.val).shadow w.val = val ∧ t.bit (Reg.SE_STAT n.val) 22 = true ∧
      (∀ v : Fin 32, v ≠ w → tget 0 (t.eng n.val).shadow v.val = tget 0 (s.eng n.val).shadow v.val) ∧
      (∀ v : Fin 32, t.rd (Reg.SE_PARAM n.val v.val) = s.rd (Reg.SE_PARAM n.val v.val))) ∧
  (∀ (s : State) (n : Fin 8) (w : Fin 32) (val : Word), s.live = true →
    Runs (.registerWrite .debug (BitVec.ofNat 32 (Reg.SE_PARAM n.val w.val)) val 0xF .good 0) s fun t =>
      Runs (.seParamWrite n w val) s (· = t)) ∧
  (∀ (s : State) (n : Fin 8) (w : Fin 32), s.live = true →
    s.regRead .debug (Reg.SE_PARAM n.val w.val) = (s.rd (Reg.SE_PARAM n.val w.val), s)) ∧
  (∀ (s : State) (n : Fin 8), s.seAt n.val 0x21 = true → (s.eng n.val).pageT ≠ some s.periStart →
    s.bit (Reg.SE_STAT n.val) 22 = true →
    Runs (.sePload n) s fun t =>
      (∀ v : Fin 32, t.rd (Reg.SE_PARAM n.val v.val) = tget 0 (s.eng n.val).shadow v.val) ∧
        t.bit (Reg.SE_STAT n.val) 22 = false) ∧
  (∀ (s : State) (n : Fin 8), s.seAt n.val 0x21 = true → (s.eng n.val).pageT ≠ some s.periStart →
    s.bit (Reg.SE_STAT n.val) 22 = false →
    Runs (.sePload n) s fun t => ∀ v : Fin 32, t.rd (Reg.SE_PARAM n.val v.val) = s.rd (Reg.SE_PARAM n.val v.val)) ∧
  (∀ (s : State) (n : Fin 8), s.seAt n.val 0x21 = true → (s.eng n.val).pageT = some s.periStart →
    Runs (.sePload n) s fun t =>
      (∀ v : Fin 32, t.rd (Reg.SE_PARAM n.val v.val) =
        if (s.eng n.val).pagePend then tget 0 (s.eng n.val).page v.val else s.rd (Reg.SE_PARAM n.val v.val)) ∧
      t.bit (Reg.SE_STAT n.val) 22 = s.bit (Reg.SE_STAT n.val) 22)

/-- R881. -/
def Obligations.CrcUnit : Prop :=
  (∀ (s : State) (n : Fin 8), s.fld (Reg.SE_CRCCFG n.val) 0 2 ≤ 2 →
    s.seCrcW n.val = 2 ^ (s.fld (Reg.SE_CRCCFG n.val) 0 2 + 2)) ∧
  (∀ (k c poly : Nat) (b : Bool), k ≤ 2 → c < 2 ^ 2 ^ (k + 2) → poly < 2 ^ 2 ^ (k + 2) →
    seCrcBit (2 ^ (k + 2)) poly c b = (if Bool.xor (c.testBit (2 ^ (k + 2) - 1)) b then (2 * c % 2 ^ 2 ^ (k + 2)) ^^^ poly else 2 * c % 2 ^ 2 ^ (k + 2))) ∧
  (∀ (s : State) (n : Fin 8), s.seAt n.val 0x16 = true → s.fld (Reg.SE_CRCCFG n.val) 0 2 ≤ 2 →
    (s.rd (Reg.SE_REG n.val 7)).toNat < 2 ^ s.seCrcW n.val →
    Runs (.seCrcf n) s fun t =>
      (t.rd (Reg.SE_REG n.val 7)).toNat = ((List.range (iImm (s.seInstr n.val) % 32 + 1)).map (fun i =>
        W.bit (s.seReg n.val (iD (s.seInstr n.val))) (if W.bit (s.seInstr n.val) 5 then i else iImm (s.seInstr n.val) % 32 - i))).foldl
          (seCrcBit (s.seCrcW n.val) (s.fld (Reg.SE_CRCCFG n.val) 16 16)) (s.rd (Reg.SE_REG n.val 7)).toNat ∧
      (t.rd (Reg.SE_REG n.val 7)).toNat < 2 ^ s.seCrcW n.val) ∧
  (∀ (s : State) (n : Fin 8), s.seAt n.val 0x15 = true → s.fld (Reg.SE_CRCCFG n.val) 0 2 ≤ 2 →
    Runs (.seCrci n) s fun t =>
      (t.rd (Reg.SE_REG n.val 7)).toNat = s.fld (Reg.SE_MISC n.val) 0 16 % 2 ^ s.seCrcW n.val)
end

