-- ==== Sys2Proof/Laws/Tab.lean ====
section
/-!
SUPPORT. Sparse tables: reading after an update, and every update keeps the canonical form.
-/
namespace Sys2Proof.Machine

variable {α : Type}

theorem tget_tdel_same (d : α) (t : Tab α) (k : Nat) : tget d (tdel t k) k = d := by
  induction t with
  | nil => rfl
  | cons e t ih =>
    obtain ⟨k', v⟩ := e
    by_cases h : k' = k <;> simp [tdel, tget, h, ih]

theorem tget_tdel_ne (d : α) (t : Tab α) {k j : Nat} (h : j ≠ k) : tget d (tdel t k) j = tget d t j := by
  induction t with
  | nil => rfl
  | cons e t ih =>
    obtain ⟨k', v⟩ := e
    by_cases h1 : k' = k
    · have h2 : k' ≠ j := fun e => h (e ▸ h1)
      simp only [tdel, if_pos h1, tget, if_neg h2, ih]
    · by_cases h2 : k' = j
      · subst h2; simp [tdel, tget, h1]
      · simp [tdel, tget, h1, h2, ih]

theorem tget_tins (d : α) (t : Tab α) (k : Nat) (v : α) (h : tget d t k = d) (j : Nat)
    (hk : ∀ e ∈ t, e.1 ≠ k) : tget d (tins k v t) j = if k = j then v else tget d t j := by
  induction t with
  | nil => rfl
  | cons e t ih =>
    obtain ⟨k', v'⟩ := e
    have h1 : k' ≠ k := hk _ (List.mem_cons_self)
    have ht : tget d t k = d := by simpa [tget, h1] using h
    have ih := ih ht (fun e he => hk e (List.mem_cons_of_mem _ he))
    by_cases h2 : k < k'
    · simp [tins, h2, tget]
    · by_cases h3 : k' = j
      · subst h3
        simp [tins, h2, tget, Ne.symm h1]
      · simp [tins, h2, tget, h3, ih]

theorem mem_tdel {t : Tab α} {k : Nat} {e : Nat × α} (h : e ∈ tdel t k) : e ∈ t ∧ e.1 ≠ k := by
  induction t with
  | nil => cases h
  | cons e' t ih =>
    obtain ⟨k', v⟩ := e'
    by_cases h1 : k' = k
    · rw [tdel, if_pos h1] at h
      exact ⟨List.mem_cons_of_mem _ (ih h).1, (ih h).2⟩
    · rw [tdel, if_neg h1] at h
      rcases List.mem_cons.mp h with rfl | h
      · exact ⟨List.mem_cons_self, h1⟩
      · exact ⟨List.mem_cons_of_mem _ (ih h).1, (ih h).2⟩

variable [DecidableEq α]

/-- A table read after an update: the new value at the key, the old value at every other. -/
theorem tget_tset (d : α) (t : Tab α) (k : Nat) (v : α) (j : Nat) (e : α) (hd : k = j → e = d) :
    tget e (tset d t k v) j = if k = j then v else tget e t j := by
  by_cases hv : v = d
  · rw [tset, if_pos hv]
    by_cases h : k = j
    · subst h; rw [if_pos rfl, tget_tdel_same, hv, hd rfl]
    · rw [if_neg h, tget_tdel_ne _ _ (Ne.symm h)]
  · rw [tset, if_neg hv, tget_tins e _ k v (tget_tdel_same e t k) j (fun _ h => (mem_tdel h).2)]
    by_cases h : k = j
    · rw [if_pos h, if_pos h]
    · rw [if_neg h, if_neg h, tget_tdel_ne _ _ (Ne.symm h)]

@[simp] theorem tget_tset_same (d : α) (t : Tab α) (k : Nat) (v : α) : tget d (tset d t k v) k = v := by
  rw [tget_tset d t k v k d (fun _ => rfl), if_pos rfl]

theorem tget_tset_ne (d : α) (t : Tab α) {k j : Nat} (v e : α) (h : k ≠ j) : tget e (tset d t k v) j = tget e t j := by
  rw [tget_tset d t k v j e (fun h' => absurd h' h), if_neg h]

omit [DecidableEq α] in
theorem keysAbove_mono {lo hi : Nat} {t : Tab α} (h : keysAbove hi t = true) (hl : lo ≤ hi) : keysAbove lo t = true := by
  cases t with
  | nil => rfl
  | cons e t =>
    simp only [keysAbove, Bool.and_eq_true, decide_eq_true_eq] at h ⊢
    exact ⟨Nat.le_trans hl h.1, h.2⟩

omit [DecidableEq α] in
theorem keysAbove_filter {lo : Nat} {t : Tab α} (p : Nat × α → Bool) (h : keysAbove lo t = true) :
    keysAbove lo (t.filter p) = true := by
  induction t generalizing lo with
  | nil => rfl
  | cons e t ih =>
    simp only [keysAbove, Bool.and_eq_true, decide_eq_true_eq] at h
    rw [List.filter_cons]
    split
    · simp only [keysAbove, Bool.and_eq_true, decide_eq_true_eq]
      exact ⟨h.1, ih h.2⟩
    · exact keysAbove_mono (ih h.2) (by omega)

omit [DecidableEq α] in
theorem tdel_eq_filter (t : Tab α) (k : Nat) : tdel t k = t.filter (fun e => decide (e.1 ≠ k)) := by
  induction t with
  | nil => rfl
  | cons e t ih =>
    obtain ⟨k', v⟩ := e
    by_cases h : k' = k <;> simp [tdel, h, ih]

omit [DecidableEq α] in
theorem keysAbove_tins {lo k : Nat} {v : α} {t : Tab α} (h : keysAbove lo t = true) (hk : ∀ e ∈ t, e.1 ≠ k) (hl : lo ≤ k) :
    keysAbove lo (tins k v t) = true := by
  induction t generalizing lo with
  | nil => simp [tins, keysAbove, hl]
  | cons e t ih =>
    obtain ⟨k', v'⟩ := e
    simp only [keysAbove, Bool.and_eq_true, decide_eq_true_eq] at h
    have h1 : k' ≠ k := hk _ (List.mem_cons_self)
    by_cases h2 : k < k'
    · simp only [tins, if_pos h2, keysAbove, Bool.and_eq_true, decide_eq_true_eq]
      exact ⟨hl, by omega, h.2⟩
    · simp only [tins, if_neg h2, keysAbove, Bool.and_eq_true, decide_eq_true_eq]
      exact ⟨h.1, ih h.2 (fun e he => hk e (List.mem_cons_of_mem _ he)) (by omega)⟩

omit [DecidableEq α] in
theorem mem_tins {k : Nat} {v : α} {t : Tab α} {e : Nat × α} (h : e ∈ tins k v t) : e = (k, v) ∨ e ∈ t := by
  induction t with
  | nil => simpa [tins] using h
  | cons e' t ih =>
    obtain ⟨k', v'⟩ := e'
    by_cases h2 : k < k'
    · simpa [tins, h2] using h
    · simp only [tins, if_neg h2, List.mem_cons] at h
      rcases h with h | h
      · exact .inr (h ▸ List.mem_cons_self)
      · exact (ih h).imp id (List.mem_cons_of_mem _)

/-- Taking entries out keeps the canonical form. -/
theorem Tab.wf_filter {d : Nat → α} {t : Tab α} (p : Nat × α → Bool) (h : Tab.wf d t = true) : Tab.wf d (t.filter p) = true := by
  simp only [Tab.wf, Bool.and_eq_true, List.all_eq_true] at h ⊢
  exact ⟨keysAbove_filter p h.1, fun e he => h.2 e (List.mem_filter.mp he).1⟩

theorem Tab.wf_tkeep {d : Nat → α} {t : Tab α} (p : Nat → Bool) (h : Tab.wf d t = true) : Tab.wf d (tkeep p t) = true :=
  Tab.wf_filter _ h

/-- An update keeps the canonical form. -/
theorem Tab.wf_tset {d : Nat → α} {t : Tab α} (k : Nat) (v : α) (h : Tab.wf d t = true) :
    Tab.wf d (tset (d k) t k v) = true := by
  have hd : Tab.wf d (tdel t k) = true := by rw [tdel_eq_filter]; exact Tab.wf_filter _ h
  by_cases hv : v = d k
  · rw [tset, if_pos hv]; exact hd
  · rw [tset, if_neg hv]
    simp only [Tab.wf, Bool.and_eq_true, List.all_eq_true, decide_eq_true_eq] at hd ⊢
    refine ⟨keysAbove_tins hd.1 (fun e he => (mem_tdel he).2) (Nat.zero_le _), fun e he => ?_⟩
    rcases mem_tins he with rfl | he
    · exact hv
    · exact hd.2 e he

theorem Tab.wf_nil (d : Nat → α) : Tab.wf d [] = true := rfl

end Sys2Proof.Machine
end

