-- ==== Sys2Proof/Laws/Keep.lean ====
section
/-!
SUPPORT. The rules of the frame relation `Keeps`: one for each way in which a meaning builds a state from others.
-/
namespace Sys2Proof.Machine

theorem Keeps.refl (F : List Part) (s : State) : Keeps F s s := by
  constructor <;> intros <;> first | rfl | assumption

/-- One operation after others: its parts lie among those of the whole. -/
theorem Keeps.after {F G : List Part} {s x y : State} (h : Keeps G x y) (hs : ∀ p ∈ G, p ∈ F) (h0 : Keeps F s x) :
    Keeps F s y where
  ok k := h.ok (h0.ok k)
  pending := h.pending.trans h0.pending
  regs n := (h.regs (fun k => n (hs _ k))).trans (h0.regs n)
  mem n := (h.mem (fun k => n (hs _ k))).trans (h0.mem n)
  ecc n := (h.ecc (fun k => n (hs _ k))).trans (h0.ecc n)
  clk n := (h.clk (fun k => n (hs _ k))).trans (h0.clk n)
  sup n := (h.sup (fun k => n (hs _ k))).trans (h0.sup n)
  boot n := (h.boot (fun k => n (hs _ k))).trans (h0.boot n)
  hif n := (h.hif (fun k => n (hs _ k))).trans (h0.hif n)
  cores n := (h.cores (fun k => n (hs _ k))).trans (h0.cores n)
  coh n := (h.coh (fun k => n (hs _ k))).trans (h0.coh n)
  dma n := (h.dma (fun k => n (hs _ k))).trans (h0.dma n)
  pool n := (h.pool (fun k => n (hs _ k))).trans (h0.pool n)
  adc n := (h.adc (fun k => n (hs _ k))).trans (h0.adc n)
  sd n := (h.sd (fun k => n (hs _ k))).trans (h0.sd n)
  cmp n := (h.cmp (fun k => n (hs _ k))).trans (h0.cmp n)
  pwm n := (h.pwm (fun k => n (hs _ k))).trans (h0.pwm n)
  diag n := (h.diag (fun k => n (hs _ k))).trans (h0.diag n)
  cap n := (h.cap (fun k => n (hs _ k))).trans (h0.cap n)
  qd n := (h.qd (fun k => n (hs _ k))).trans (h0.qd n)
  kle n := (h.kle (fun k => n (hs _ k))).trans (h0.kle n)
  ports n := (h.ports (fun k => n (hs _ k))).trans (h0.ports n)
  se n := (h.se (fun k => n (hs _ k))).trans (h0.se n)
  mbm n := (h.mbm (fun k => n (hs _ k))).trans (h0.mbm n)
  pp n := (h.pp (fun k => n (hs _ k))).trans (h0.pp n)
  out n := (h.out (fun k => n (hs _ k))).trans (h0.out n)
  reply n := (h.reply (fun k => n (hs _ k))).trans (h0.reply n)
  free n := (h.free (fun k => n (hs _ k))).trans (h0.free n)

theorem Keeps.ite {F : List Part} {s a b : State} {c : Prop} [Decidable c] (ha : Keeps F s a) (hb : Keeps F s b) :
    Keeps F s (if c then a else b) := by
  split <;> assumption

theorem Keeps.set_clk {F : List Part} {s x : State} {v} (hp : Part.clk ∈ F) (h : Keeps F s x) :
    Keeps F s { x with clk := v } :=
  { h with clk := fun n => absurd hp n }
theorem Keeps.set_sup {F : List Part} {s x : State} {v} (hp : Part.sup ∈ F) (h : Keeps F s x) :
    Keeps F s { x with sup := v } :=
  { h with sup := fun n => absurd hp n }
theorem Keeps.set_boot {F : List Part} {s x : State} {v} (hp : Part.boot ∈ F) (h : Keeps F s x) :
    Keeps F s { x with boot := v } :=
  { h with boot := fun n => absurd hp n }
theorem Keeps.set_hif {F : List Part} {s x : State} {v} (hp : Part.hif ∈ F) (h : Keeps F s x) :
    Keeps F s { x with hif := v } :=
  { h with hif := fun n => absurd hp n }
theorem Keeps.set_cores {F : List Part} {s x : State} {v} (hp : Part.cores ∈ F) (h : Keeps F s x) :
    Keeps F s { x with cores := v } :=
  { h with cores := fun n => absurd hp n }
theorem Keeps.set_coh {F : List Part} {s x : State} {v} (hp : Part.coh ∈ F) (h : Keeps F s x) :
    Keeps F s { x with coh := v } :=
  { h with coh := fun n => absurd hp n }
theorem Keeps.set_dma {F : List Part} {s x : State} {v} (hp : Part.dma ∈ F) (h : Keeps F s x) :
    Keeps F s { x with dma := v } :=
  { h with dma := fun n => absurd hp n }
theorem Keeps.set_pool {F : List Part} {s x : State} {v} (hp : Part.pool ∈ F) (h : Keeps F s x) :
    Keeps F s { x with pool := v } :=
  { h with pool := fun n => absurd hp n }
theorem Keeps.set_adc {F : List Part} {s x : State} {v} (hp : Part.adc ∈ F) (h : Keeps F s x) :
    Keeps F s { x with adc := v } :=
  { h with adc := fun n => absurd hp n }
theorem Keeps.set_sd {F : List Part} {s x : State} {v} (hp : Part.sd ∈ F) (h : Keeps F s x) :
    Keeps F s { x with sd := v } :=
  { h with sd := fun n => absurd hp n }
theorem Keeps.set_cmp {F : List Part} {s x : State} {v} (hp : Part.cmp ∈ F) (h : Keeps F s x) :
    Keeps F s { x with cmp := v } :=
  { h with cmp := fun n => absurd hp n }
theorem Keeps.set_pwm {F : List Part} {s x : State} {v} (hp : Part.pwm ∈ F) (h : Keeps F s x) :
    Keeps F s { x with pwm := v } :=
  { h with pwm := fun n => absurd hp n }
theorem Keeps.set_diag {F : List Part} {s x : State} {v} (hp : Part.diag ∈ F) (h : Keeps F s x) :
    Keeps F s { x with diag := v } :=
  { h with diag := fun n => absurd hp n }
theorem Keeps.set_cap {F : List Part} {s x : State} {v} (hp : Part.cap ∈ F) (h : Keeps F s x) :
    Keeps F s { x with cap := v } :=
  { h with cap := fun n => absurd hp n }
theorem Keeps.set_qd {F : List Part} {s x : State} {v} (hp : Part.qd ∈ F) (h : Keeps F s x) :
    Keeps F s { x with qd := v } :=
  { h with qd := fun n => absurd hp n }
theorem Keeps.set_kle {F : List Part} {s x : State} {v} (hp : Part.kle ∈ F) (h : Keeps F s x) :
    Keeps F s { x with kle := v } :=
  { h with kle := fun n => absurd hp n }
theorem Keeps.set_ports {F : List Part} {s x : State} {v} (hp : Part.ports ∈ F) (h : Keeps F s x) :
    Keeps F s { x with ports := v } :=
  { h with ports := fun n => absurd hp n }
theorem Keeps.set_se {F : List Part} {s x : State} {v} (hp : Part.se ∈ F) (h : Keeps F s x) :
    Keeps F s { x with se := v } :=
  { h with se := fun n => absurd hp n }
theorem Keeps.set_mbm {F : List Part} {s x : State} {v} (hp : Part.mbm ∈ F) (h : Keeps F s x) :
    Keeps F s { x with mbm := v } :=
  { h with mbm := fun n => absurd hp n }
theorem Keeps.set_pp {F : List Part} {s x : State} {v} (hp : Part.pp ∈ F) (h : Keeps F s x) :
    Keeps F s { x with pp := v } :=
  { h with pp := fun n => absurd hp n }
theorem Keeps.set_out {F : List Part} {s x : State} {v} (hp : Part.out ∈ F) (h : Keeps F s x) :
    Keeps F s { x with out := v } :=
  { h with out := fun n => absurd hp n }
theorem Keeps.set_reply {F : List Part} {s x : State} {v} (hp : Part.reply ∈ F) (h : Keeps F s x) :
    Keeps F s { x with reply := v } :=
  { h with reply := fun n => absurd hp n }
theorem Keeps.set_free {F : List Part} {s x : State} {v} (hp : Part.free ∈ F) (h : Keeps F s x) :
    Keeps F s { x with free := v } :=
  { h with free := fun n => absurd hp n }

theorem Keeps.set_regs {F : List Part} {s x : State} {v} (hp : Part.regs ∈ F)
    (hv : Regs.wf x.regs = true → Regs.wf v = true) (h : Keeps F s x) : Keeps F s { x with regs := v } :=
  { h with ok := fun k => ⟨(h.ok k).1, hv (h.ok k).2.1, (h.ok k).2.2⟩, regs := fun n => absurd hp n }

theorem Keeps.set_mem {F : List Part} {s x : State} {v} (hp : Part.mem ∈ F)
    (hv : Memory.wf x.mem = true → Memory.wf v = true) (h : Keeps F s x) : Keeps F s { x with mem := v } :=
  { h with ok := fun k => ⟨hv (h.ok k).1, (h.ok k).2⟩, mem := fun n => absurd hp n }

theorem Keeps.set_ecc {F : List Part} {s x : State} {v} (hp : Part.ecc ∈ F)
    (hv : Ecc.wf x.ecc = true → Ecc.wf v = true) (h : Keeps F s x) : Keeps F s { x with ecc := v } :=
  { h with ok := fun k => ⟨(h.ok k).1, (h.ok k).2.1, hv (h.ok k).2.2⟩, ecc := fun n => absurd hp n }

theorem Keeps.set_clk_hif {F : List Part} {s x : State} {v w} (ha : Part.clk ∈ F) (hb : Part.hif ∈ F)
    (h : Keeps F s x) : Keeps F s { x with clk := v, hif := w } :=
  Keeps.set_hif (x := { x with clk := v }) (v := w) hb (Keeps.set_clk (v := v) ha h)

theorem Keeps.set_clk_sup {F : List Part} {s x : State} {v w} (ha : Part.clk ∈ F) (hb : Part.sup ∈ F)
    (h : Keeps F s x) : Keeps F s { x with clk := v, sup := w } :=
  Keeps.set_sup (x := { x with clk := v }) (v := w) hb (Keeps.set_clk (v := v) ha h)

theorem Keeps.set_clk_boot {F : List Part} {s x : State} {v w} (ha : Part.clk ∈ F) (hb : Part.boot ∈ F)
    (h : Keeps F s x) : Keeps F s { x with clk := v, boot := w } :=
  Keeps.set_boot (x := { x with clk := v }) (v := w) hb (Keeps.set_clk (v := v) ha h)

theorem Keeps.set_clk_coh {F : List Part} {s x : State} {v w} (ha : Part.clk ∈ F) (hb : Part.coh ∈ F)
    (h : Keeps F s x) : Keeps F s { x with clk := v, coh := w } :=
  Keeps.set_coh (x := { x with clk := v }) (v := w) hb (Keeps.set_clk (v := v) ha h)

theorem Keeps.set_regs_hif {F : List Part} {s x : State} {v w} (ha : Part.regs ∈ F) (hb : Part.hif ∈ F)
    (hv : Regs.wf x.regs = true → Regs.wf v = true) (h : Keeps F s x) : Keeps F s { x with regs := v, hif := w } :=
  Keeps.set_hif (x := { x with regs := v }) (v := w) hb (Keeps.set_regs (v := v) ha hv h)

theorem Keeps.set_ecc_clk {F : List Part} {s x : State} {v w} (ha : Part.ecc ∈ F) (hb : Part.clk ∈ F)
    (hv : Ecc.wf x.ecc = true → Ecc.wf v = true) (h : Keeps F s x) : Keeps F s { x with ecc := v, clk := w } :=
  Keeps.set_clk (x := { x with ecc := v }) (v := w) hb (Keeps.set_ecc (v := v) ha hv h)

theorem Keeps.set_mem_ecc {F : List Part} {s x : State} {v w} (ha : Part.mem ∈ F) (hb : Part.ecc ∈ F)
    (hv : Memory.wf x.mem = true → Memory.wf v = true) (hw : Ecc.wf x.ecc = true → Ecc.wf w = true) (h : Keeps F s x) :
    Keeps F s { x with mem := v, ecc := w } :=
  Keeps.set_ecc (x := { x with mem := v }) (v := w) hb hw (Keeps.set_mem (v := v) ha hv h)

theorem Keeps.set_coh_reply {F : List Part} {s x : State} {v w} (ha : Part.coh ∈ F) (hb : Part.reply ∈ F)
    (h : Keeps F s x) : Keeps F s { x with coh := v, reply := w } :=
  Keeps.set_reply (x := { x with coh := v }) (v := w) hb (Keeps.set_coh (v := v) ha h)

/-- The state of a pair differs from `s` in the parts `F` only. -/
def PairKeeps {α : Type} (F : List Part) (s : State) (p : α × State) : Prop := Keeps F s p.2

theorem PairKeeps.mk {α : Type} {F : List Part} {s t : State} {a : α} (h : Keeps F s t) : PairKeeps F s (a, t) := h

theorem PairKeeps.ite {α : Type} {F : List Part} {s : State} {a b : α × State} {c : Prop} [Decidable c]
    (ha : PairKeeps F s a) (hb : PairKeeps F s b) : PairKeeps F s (if c then a else b) := by
  split <;> assumption

theorem PairKeeps.after {α : Type} {F G : List Part} {s x : State} {p : α × State} (h : PairKeeps G x p)
    (hs : ∀ p ∈ G, p ∈ F) (h0 : Keeps F s x) : PairKeeps F s p :=
  Keeps.after h hs h0

theorem PairKeeps.foldl {α β : Type} {F : List Part} {s : State} {l : List β} {f : α × State → β → α × State} {p : α × State}
    (h : PairKeeps F s p) (hf : ∀ p i, PairKeeps F s p → PairKeeps F s (f p i)) : PairKeeps F s (l.foldl f p) := by
  induction l generalizing p with
  | nil => exact h
  | cons a l ih => exact ih (hf _ _ h)

theorem Keeps.of_pair {α : Type} {F : List Part} {s t : State} {p : α × State} {a : α} (e : p = (a, t))
    (h : PairKeeps F s p) : Keeps F s t := by
  subst e; exact h

theorem Keeps.of_snd {α : Type} {F : List Part} {s : State} {p : α × State} (h : PairKeeps F s p) : Keeps F s p.2 := h

/-- The state of a pair with the state in front differs from `s` in the parts `F` only. -/
def FstKeeps {α : Type} (F : List Part) (s : State) (p : State × α) : Prop := Keeps F s p.1

theorem FstKeeps.mk {α : Type} {F : List Part} {s t : State} {a : α} (h : Keeps F s t) : FstKeeps F s (t, a) := h

theorem FstKeeps.ite {α : Type} {F : List Part} {s : State} {a b : State × α} {c : Prop} [Decidable c]
    (ha : FstKeeps F s a) (hb : FstKeeps F s b) : FstKeeps F s (if c then a else b) := by
  split <;> assumption

theorem FstKeeps.after {α : Type} {F G : List Part} {s x : State} {p : State × α} (h : FstKeeps G x p)
    (hs : ∀ p ∈ G, p ∈ F) (h0 : Keeps F s x) : FstKeeps F s p :=
  Keeps.after h hs h0

theorem Keeps.of_fpair {α : Type} {F : List Part} {s t : State} {p : State × α} {a : α} (e : p = (t, a))
    (h : FstKeeps F s p) : Keeps F s t := by
  subst e; exact h

theorem Keeps.of_fst {α : Type} {F : List Part} {s : State} {p : State × α} (h : FstKeeps F s p) : Keeps F s p.1 := h

/-- A state that is answered, if any, differs from `s` in the parts `F` only. -/
def OptKeeps (F : List Part) (s : State) (o : Option State) : Prop := ∀ a, o = some a → Keeps F s a

theorem OptKeeps.none {F : List Part} {s : State} : OptKeeps F s (none : Option State) :=
  fun _ h => nomatch h

theorem OptKeeps.some {F : List Part} {s : State} {a : State} (h : Keeps F s a) : OptKeeps F s (some a) := by
  intro b e
  cases e
  exact h

theorem OptKeeps.map {β : Type} {F : List Part} {s : State} {o : Option β} {f : β → State} (h : ∀ b, Keeps F s (f b)) :
    OptKeeps F s (o.map f) := by
  intro a e
  cases o with
  | none => cases e
  | some b => cases e; exact h b

theorem OptKeeps.ite {F : List Part} {s : State} {a b : Option State} {c : Prop} [Decidable c] (ha : OptKeeps F s a)
    (hb : OptKeeps F s b) : OptKeeps F s (if c then a else b) := by
  split <;> assumption

theorem OptKeeps.after {F G : List Part} {s x : State} {o : Option State} (h : OptKeeps G x o) (hs : ∀ p ∈ G, p ∈ F)
    (h0 : Keeps F s x) : OptKeeps F s o :=
  fun a e => (h a e).after hs h0

theorem OptKeeps.orElse {F : List Part} {s : State} {a b : Option State} (ha : OptKeeps F s a) (hb : OptKeeps F s b) :
    OptKeeps F s (a <|> b) := by
  cases a with
  | none => exact hb
  | some a => exact ha

/-- The state of a pair that is answered, if any, differs from `s` in the parts `F` only. -/
def OptPairKeeps {α : Type} (F : List Part) (s : State) (o : Option (α × State)) : Prop := ∀ a, o = some a → PairKeeps F s a

theorem OptPairKeeps.none {α : Type} {F : List Part} {s : State} : OptPairKeeps F s (none : Option (α × State)) :=
  fun _ h => nomatch h

theorem OptPairKeeps.some {α : Type} {F : List Part} {s : State} {a : (α × State)} (h : PairKeeps F s a) : OptPairKeeps F s (some a) := by
  intro b e
  cases e
  exact h

theorem OptPairKeeps.map {β : Type} {α : Type} {F : List Part} {s : State} {o : Option β} {f : β → (α × State)} (h : ∀ b, PairKeeps F s (f b)) :
    OptPairKeeps F s (o.map f) := by
  intro a e
  cases o with
  | none => cases e
  | some b => cases e; exact h b

theorem OptPairKeeps.ite {α : Type} {F : List Part} {s : State} {a b : Option (α × State)} {c : Prop} [Decidable c] (ha : OptPairKeeps F s a)
    (hb : OptPairKeeps F s b) : OptPairKeeps F s (if c then a else b) := by
  split <;> assumption

theorem OptPairKeeps.after {α : Type} {F G : List Part} {s x : State} {o : Option (α × State)} (h : OptPairKeeps G x o) (hs : ∀ p ∈ G, p ∈ F)
    (h0 : Keeps F s x) : OptPairKeeps F s o :=
  fun a e => (h a e).after hs h0

theorem OptPairKeeps.orElse {α : Type} {F : List Part} {s : State} {a b : Option (α × State)} (ha : OptPairKeeps F s a) (hb : OptPairKeeps F s b) :
    OptPairKeeps F s (a <|> b) := by
  cases a with
  | none => exact hb
  | some a => exact ha

theorem Keeps.of_some {F : List Part} {s t : State} {o : Option State} (e : o = some t) (h : OptKeeps F s o) :
    Keeps F s t := h t e

theorem PairKeeps.of_some {α : Type} {F : List Part} {s : State} {o : Option (α × State)} {p : α × State} (e : o = some p)
    (h : OptPairKeeps F s o) : PairKeeps F s p := h p e

theorem Keeps.forN {F : List Part} {s x : State} {n : Nat} {f : Nat → State → State} (h : Keeps F s x)
    (hf : ∀ i y, Keeps F s y → Keeps F s (f i y)) : Keeps F s (forN n f x) := by
  induction n with
  | zero => exact h
  | succ n ih => exact hf _ _ ih

theorem Keeps.foldl {α : Type} {F : List Part} {s x : State} {l : List α} {f : State → α → State} (h : Keeps F s x)
    (hf : ∀ y i, Keeps F s y → Keeps F s (f y i)) : Keeps F s (l.foldl f x) := by
  induction l generalizing x with
  | nil => exact h
  | cons a l ih => exact ih (hf _ _ h)

theorem Part.sub_trans {A B C : List Part} (h : ∀ p ∈ A, p ∈ B) (g : ∀ p ∈ B, p ∈ C) : ∀ p ∈ A, p ∈ C :=
  fun p k => g p (h p k)

theorem Keeps.repeatN {F : List Part} {s x : State} {n : Nat} {f : State → State} (h : Keeps F s x)
    (hf : ∀ y, Keeps F s y → Keeps F s (f y)) : Keeps F s (repeatN n f x) := by
  induction n generalizing x with
  | zero => exact h
  | succ n ih => exact ih (hf _ h)

/-- A command's answer: a next state that differs in the parts `F` only. -/
def Answers (F : List Part) (s : State) (o : Host.Outcome State Fault Refusal) : Prop := ∃ t, o = .next t ∧ Keeps F s t

theorem Answers.next {F : List Part} {s t : State} (h : Keeps F s t) : Answers F s (.next t) := ⟨t, rfl, h⟩

theorem Answers.ite {F : List Part} {s : State} {a b : Host.Outcome State Fault Refusal} {c : Prop} [Decidable c]
    (ha : Answers F s a) (hb : Answers F s b) : Answers F s (if c then a else b) := by
  split <;> assumption

theorem Answers.after {F G : List Part} {s x : State} {o} (h : Answers G x o) (hs : ∀ p ∈ G, p ∈ F) (h0 : Keeps F s x) :
    Answers F s o := by
  obtain ⟨t, rfl, k⟩ := h
  exact ⟨t, rfl, k.after hs h0⟩

/-- Both ends of a piece of an operation differ from `s` in the parts `F` only. -/
def ResKeeps {α : Type} (F : List Part) (s : State) : Res α → Prop
  | .ok _ t => Keeps F s t
  | .exc _ t => Keeps F s t

theorem ResKeeps.ok {α : Type} {F : List Part} {s t : State} {a : α} (h : Keeps F s t) : ResKeeps F s (.ok a t) := h

theorem ResKeeps.exc {α : Type} {F : List Part} {s t : State} {e : Exc} (h : Keeps F s t) :
    ResKeeps F s (.exc e t : Res α) := h

theorem ResKeeps.ite {α : Type} {F : List Part} {s : State} {a b : Res α} {c : Prop} [Decidable c]
    (ha : ResKeeps F s a) (hb : ResKeeps F s b) : ResKeeps F s (if c then a else b) := by
  split <;> assumption

theorem ResKeeps.bind {α β : Type} {F : List Part} {s : State} {r : Res α} {f : α → State → Res β} (h : ResKeeps F s r)
    (hf : ∀ a t, Keeps F s t → ResKeeps F s (f a t)) : ResKeeps F s (r.bind f) := by
  cases r with
  | ok a t => exact hf a t h
  | exc e t => exact h

theorem ResKeeps.after {α : Type} {F G : List Part} {s x : State} {r : Res α} (h : ResKeeps G x r)
    (hs : ∀ p ∈ G, p ∈ F) (h0 : Keeps F s x) : ResKeeps F s r := by
  cases r <;> exact Keeps.after h hs h0

theorem Keeps.of_ok {α : Type} {F : List Part} {s t : State} {r : Res α} {a : α} (e : r = .ok a t) (h : ResKeeps F s r) :
    Keeps F s t := by
  subst e; exact h

theorem Keeps.of_exc {α : Type} {F : List Part} {s t : State} {r : Res α} {x : Exc} (e : r = .exc x t)
    (h : ResKeeps F s r) : Keeps F s t := by
  subst e; exact h

end Sys2Proof.Machine
end

