-- ==== Sys2Proof/Laws/Ops.lean ====
section
/-!
SUPPORT. Frames of Machine/Ops.lean: which parts of the state each of its operations and commands may change.
-/
namespace Sys2Proof.Machine

theorem State.wr_keeps {s a2 a3} : Keeps [.regs] s (State.wr s a2 a3) := by
  unfold State.wr
  exact Keeps.set_regs (by decide) (Tab.wf_tset _ _) (Keeps.refl _ _)

theorem State.setFld_keeps {s a2 a3 a4 a5} : Keeps [.regs] s (State.setFld s a2 a3 a4 a5) := by
  unfold State.setFld
  refine Keeps.after State.wr_keeps (by decide) ?_
  exact Keeps.refl _ _

theorem State.tally_keeps {s a2} : Keeps [.regs] s (State.tally s a2) := by
  unfold State.tally
  extract_lets x1
  refine Keeps.ite ?_ ?_
  · exact Keeps.refl _ _
  · refine Keeps.after State.setFld_keeps (by decide) ?_
    exact Keeps.refl _ _

theorem State.setBit_keeps {s a2 a3 a4} : Keeps [.regs] s (State.setBit s a2 a3 a4) := by
  unfold State.setBit
  refine Keeps.after State.wr_keeps (by decide) ?_
  exact Keeps.refl _ _

theorem State.cfgWr_keeps {s a2 a3} : Keeps [.hif] s (State.cfgWr s a2 a3) := by
  unfold State.cfgWr
  extract_lets x1
  refine Keeps.set_hif (by decide) ?_
  exact Keeps.refl _ _

theorem State.emit_keeps {s a2} : Keeps [.out] s (State.emit s a2) := by
  unfold State.emit
  refine Keeps.set_out (by decide) ?_
  exact Keeps.refl _ _

theorem State.msiSend_keeps {s a2} : Keeps [.hif, .out] s (State.msiSend s a2) := by
  unfold State.msiSend
  extract_lets x1 x2
  refine Keeps.ite ?_ ?_
  · refine Keeps.after State.cfgWr_keeps (by decide) ?_
    exact Keeps.refl _ _
  · refine Keeps.after State.emit_keeps (by decide) ?_
    refine Keeps.after State.cfgWr_keeps (by decide) ?_
    exact Keeps.refl _ _

theorem State.msixSend_keeps {s a2} : Keeps [.regs, .out] s (State.msixSend s a2) := by
  unfold State.msixSend
  extract_lets x1
  refine Keeps.ite ?_ ?_
  · refine Keeps.after State.setBit_keeps (by decide) ?_
    exact Keeps.refl _ _
  · refine Keeps.after State.emit_keeps (by decide) ?_
    refine Keeps.after State.setBit_keeps (by decide) ?_
    exact Keeps.refl _ _

theorem State.sendVector_keeps {s a2} : Keeps [.regs, .hif, .out] s (State.sendVector s a2) := by
  unfold State.sendVector
  refine Keeps.ite ?_ ?_
  · refine Keeps.after State.msixSend_keeps (by decide) ?_
    exact Keeps.refl _ _
  · refine Keeps.ite ?_ ?_
    · refine Keeps.after State.msiSend_keeps (by decide) ?_
      exact Keeps.refl _ _
    · exact Keeps.refl _ _

theorem State.countVector_keeps {s a2} : Keeps [.regs, .hif, .out] s (State.countVector s a2) := by
  unfold State.countVector
  extract_lets x1 x2 x3
  refine Keeps.ite ?_ ?_
  · refine Keeps.after State.sendVector_keeps (by decide) ?_
    refine Keeps.set_hif (by decide) ?_
    exact Keeps.refl _ _
  · refine Keeps.set_hif (by decide) ?_
    exact Keeps.refl _ _

theorem State.evWrite_keeps {s a2} : Keeps [.regs, .hif, .out] s (State.evWrite s a2) := by
  unfold State.evWrite
  extract_lets x1 x2 x3 x4 x5 x6 x7 x8 x9 x10
  have hx6 : Keeps [.regs, .hif, .out] s x6 := by
    unfold x6
    refine Keeps.after State.emit_keeps (by decide) ?_
    refine Keeps.after State.emit_keeps (by decide) ?_
    exact Keeps.refl _ _
  have hx8 : Keeps [.regs, .hif, .out] s x8 := by
    unfold x8
    refine Keeps.after State.setFld_keeps (by decide) ?_
    exact hx6
  have hx10 : Keeps [.regs, .hif, .out] s x10 := by
    unfold x10
    refine Keeps.ite ?_ ?_
    · refine Keeps.set_hif (by decide) ?_
      exact hx8
    · exact hx8
  refine Keeps.after State.countVector_keeps (by decide) ?_
  exact hx10

theorem State.event_keeps {s a2 a3 a4} : Keeps [.regs, .hif, .out] s (State.event s a2 a3 a4) := by
  unfold State.event
  extract_lets x1 x2 x3 x4
  have hx3 : Keeps [.regs, .hif, .out] s x3 := by
    unfold x3
    refine Keeps.after State.tally_keeps (by decide) ?_
    exact Keeps.refl _ _
  refine Keeps.ite ?_ ?_
  · refine Keeps.after State.evWrite_keeps (by decide) ?_
    exact Keeps.refl _ _
  · refine Keeps.ite ?_ ?_
    · refine Keeps.set_hif (by decide) ?_
      exact Keeps.refl _ _
    · refine Keeps.set_hif (by decide) ?_
      exact hx3

theorem State.pend_keeps {s a2 a3} : Keeps [.regs] s (State.pend s a2 a3) := by
  unfold State.pend
  refine Keeps.ite ?_ ?_
  · refine Keeps.after State.setBit_keeps (by decide) ?_
    exact Keeps.refl _ _
  · refine Keeps.after State.setBit_keeps (by decide) ?_
    exact Keeps.refl _ _

theorem State.source_keeps {s a2} : Keeps [.regs] s (State.source s a2) := by
  unfold State.source
  refine Keeps.after State.pend_keeps (by decide) ?_
  refine Keeps.after State.pend_keeps (by decide) ?_
  refine Keeps.after State.pend_keeps (by decide) ?_
  refine Keeps.after State.pend_keeps (by decide) ?_
  exact Keeps.refl _ _

theorem State.tallyHi_keeps {s a2} : Keeps [.regs] s (State.tallyHi s a2) := by
  unfold State.tallyHi
  extract_lets x1
  refine Keeps.ite ?_ ?_
  · exact Keeps.refl _ _
  · refine Keeps.after State.setFld_keeps (by decide) ?_
    exact Keeps.refl _ _

theorem State.drawWord_keeps {s} : PairKeeps [.free] s (State.drawWord s) := by
  unfold State.drawWord
  refine PairKeeps.mk ?_
  refine Keeps.set_free (by decide) ?_
  exact Keeps.refl _ _

theorem State.aerError_keeps {s a2} : Keeps [.hif, .free] s (State.aerError s a2) := by
  unfold State.aerError
  extract_lets x1 x2 x3 x4
  have hx4 : Keeps [.hif, .free] s x4 := by
    unfold x4
    refine Keeps.after State.cfgWr_keeps (by decide) ?_
    exact Keeps.refl _ _
  refine Keeps.ite ?_ ?_
  · exact hx4
  · split
    split
    split
    split
    refine Keeps.after State.cfgWr_keeps (by decide) ?_
    refine Keeps.after State.cfgWr_keeps (by decide) ?_
    refine Keeps.after State.cfgWr_keeps (by decide) ?_
    refine Keeps.after State.cfgWr_keeps (by decide) ?_
    refine Keeps.after State.cfgWr_keeps (by decide) ?_
    refine Keeps.of_pair (by assumption) ?_
    refine PairKeeps.after State.drawWord_keeps (by decide) ?_
    refine Keeps.of_pair (by assumption) ?_
    refine PairKeeps.after State.drawWord_keeps (by decide) ?_
    refine Keeps.of_pair (by assumption) ?_
    refine PairKeeps.after State.drawWord_keeps (by decide) ?_
    refine Keeps.of_pair (by assumption) ?_
    refine PairKeeps.after State.drawWord_keeps (by decide) ?_
    exact hx4

theorem State.tlpError_keeps {s a2} : Keeps [.hif, .free] s (State.tlpError s a2) := by
  unfold State.tlpError
  split
  · exact Keeps.refl _ _
  · refine Keeps.after State.aerError_keeps (by decide) ?_
    exact Keeps.refl _ _
  · refine Keeps.after State.aerError_keeps (by decide) ?_
    exact Keeps.refl _ _

theorem State.ur_keeps {s} : Keeps [.hif, .out, .reply, .free] s (State.ur s) := by
  unfold State.ur
  extract_lets x1
  have hx1 : Keeps [.hif, .out, .reply, .free] s x1 := by
    unfold x1
    refine Keeps.after State.emit_keeps (by decide) ?_
    refine Keeps.after State.aerError_keeps (by decide) ?_
    exact Keeps.refl _ _
  refine Keeps.set_reply (by decide) ?_
  exact hx1

theorem State.readBy_keeps {s a2 a3 a4 f5} {F : List Part} {s0}
    (hF : ∀ p ∈ ([.hif, .out, .reply, .free] : List Part), p ∈ F) (h : Keeps F s0 s)
    (hf5 : ∀ x1, Keeps F s0 x1 → PairKeeps F s0 (f5 x1)) :
    Keeps F s0 (State.readBy s a2 a3 a4 f5) := by
  unfold State.readBy
  have hr : Part.reply ∈ F := hF _ (by decide)
  refine Keeps.ite (Keeps.set_reply hr h) (Keeps.ite ?_ (Keeps.ite ?_ (Keeps.ite ?_ (Keeps.set_reply hr h))))
  · exact Keeps.set_reply hr (Keeps.after State.tlpError_keeps (Part.sub_trans (by decide) hF) h)
  · exact Keeps.after State.ur_keeps (Part.sub_trans (by decide) hF) h
  · have k := hf5 s h
    generalize f5 s = p at k
    obtain ⟨r, t⟩ := p
    exact Keeps.set_reply hr k

theorem State.wlrej_keeps {s a2} : Keeps [.regs] s (State.wlrej s a2) := by
  unfold State.wlrej
  extract_lets x1
  have hx1 : Keeps [.regs] s x1 := by
    unfold x1
    refine Keeps.after State.setBit_keeps (by decide) ?_
    exact Keeps.refl _ _
  refine Keeps.ite ?_ ?_
  · refine Keeps.after State.source_keeps (by decide) ?_
    exact hx1
  · exact hx1

theorem State.setEcc_keeps {s a2 a3} : Keeps [.ecc] s (State.setEcc s a2 a3) := by
  unfold State.setEcc
  exact Keeps.set_ecc (by decide) (Tab.wf_tset (d := fun _ => 0) _ _) (Keeps.refl _ _)

theorem State.wrByte_keeps {s a2 a3} : Keeps [.mem] s (State.wrByte s a2 a3) := by
  unfold State.wrByte
  exact Keeps.set_mem (by decide) (Tab.wf_tset (d := fun _ => 0) _ _) (Keeps.refl _ _)

theorem State.wrWord_keeps {s a2 a3} : Keeps [.mem] s (State.wrWord s a2 a3) := by
  unfold State.wrWord
  refine Keeps.after State.wrByte_keeps (by decide) ?_
  refine Keeps.after State.wrByte_keeps (by decide) ?_
  refine Keeps.after State.wrByte_keeps (by decide) ?_
  refine Keeps.after State.wrByte_keeps (by decide) ?_
  exact Keeps.refl _ _

theorem State.wrBytes_keeps {s a2 a3} : Keeps [.mem] s (State.wrBytes s a2 a3) := by
  induction a3 generalizing s a2
  · rw [State.wrBytes]
    exact Keeps.refl _ _
  · rename_i y ih
    rw [State.wrBytes]
    refine Keeps.after ih (fun _ k => k) ?_
    refine Keeps.after State.wrByte_keeps (by decide) ?_
    exact Keeps.refl _ _

theorem State.setProofMask_keeps {s a2} : Keeps [.regs, .hif] s (State.setProofMask s a2) := by
  unfold State.setProofMask
  extract_lets x1
  refine Keeps.after State.setBit_keeps (by decide) ?_
  refine Keeps.set_hif (by decide) ?_
  exact Keeps.refl _ _

theorem State.wrWords_keeps {s a2 a3} : Keeps [.mem] s (State.wrWords s a2 a3) := by
  induction a3 generalizing s a2
  · rw [State.wrWords]
    exact Keeps.refl _ _
  · rename_i y ih
    rw [State.wrWords]
    refine Keeps.after ih (fun _ k => k) ?_
    refine Keeps.after State.wrWord_keeps (by decide) ?_
    exact Keeps.refl _ _

theorem State.zeroRange_keeps {s a2 a3} : Keeps [.mem, .ecc] s (State.zeroRange s a2 a3) := by
  unfold State.zeroRange
  refine Keeps.set_mem_ecc (by decide) (by decide) (Tab.wf_tkeep _) (Tab.wf_tkeep _) ?_
  exact Keeps.refl _ _

theorem State.urWrite_keeps {s} : Keeps [.hif, .free] s (State.urWrite s) := by
  unfold State.urWrite
  refine Keeps.after State.aerError_keeps (by decide) ?_
  exact Keeps.refl _ _

theorem State.emitWords_keeps {a1 a2 a3 a4 s} : Keeps [.out] s (State.emitWords a1 a2 a3 a4 s) := by
  induction a2 generalizing s a3 a4
  · rw [State.emitWords]
    exact Keeps.refl _ _
  · rename_i y ih
    rw [State.emitWords]
    refine Keeps.ite ?_ ?_
    · exact Keeps.refl _ _
    · refine Keeps.after ih (fun _ k => k) ?_
      refine Keeps.after State.emit_keeps (by decide) ?_
      exact Keeps.refl _ _

theorem State.wrHalf_keeps {s a2 a3} : Keeps [.mem] s (State.wrHalf s a2 a3) := by
  unfold State.wrHalf
  refine Keeps.after State.wrByte_keeps (by decide) ?_
  refine Keeps.after State.wrByte_keeps (by decide) ?_
  exact Keeps.refl _ _

end Sys2Proof.Machine
end

