-- ==== Sys2Proof/Laws/Coherence.lean ====
section
/-!
SUPPORT. Frames of Machine/Coherence.lean: which parts of the state each of its operations and commands may change.
-/
namespace Sys2Proof.Machine

theorem State.eccUncorrected_keeps {s a2 a3 a4 a5 a6} :
    Keeps [.regs, .hif, .out] s (State.eccUncorrected s a2 a3 a4 a5 a6) := by
  unfold State.eccUncorrected
  extract_lets x1
  refine Keeps.after State.source_keeps (by decide) ?_
  refine Keeps.after State.event_keeps (by decide) ?_
  refine Keeps.after State.wr_keeps (by decide) ?_
  refine Keeps.after State.setBit_keeps (by decide) ?_
  exact Keeps.refl _ _

theorem State.eccCorrected_keeps {s a2 a3} : Keeps [.regs, .hif, .out] s (State.eccCorrected s a2 a3) := by
  unfold State.eccCorrected
  extract_lets x1 x2
  have hx1 : Keeps [.regs, .hif, .out] s x1 := by
    unfold x1
    refine Keeps.after State.tally_keeps (by decide) ?_
    exact Keeps.refl _ _
  refine Keeps.ite ?_ ?_
  · refine Keeps.after State.source_keeps (by decide) ?_
    refine Keeps.after State.event_keeps (by decide) ?_
    exact hx1
  · exact hx1

theorem State.eccRead_keeps {s a2 a3 a4 a5 a6 a7} :
    PairKeeps [.regs, .hif, .out] s (State.eccRead s a2 a3 a4 a5 a6 a7) := by
  unfold State.eccRead
  split
  · refine PairKeeps.mk ?_
    exact Keeps.refl _ _
  · refine PairKeeps.mk ?_
    refine Keeps.after State.eccCorrected_keeps (by decide) ?_
    exact Keeps.refl _ _
  · refine PairKeeps.mk ?_
    refine Keeps.after State.eccUncorrected_keeps (by decide) ?_
    exact Keeps.refl _ _

theorem State.homeRead_keeps {s a2} : PairKeeps [.regs, .hif, .out] s (State.homeRead s a2) := by
  unfold State.homeRead
  refine PairKeeps.after State.eccRead_keeps (by decide) ?_
  exact Keeps.refl _ _

theorem State.cohRd_keeps {s a2} : PairKeeps [.regs, .hif, .out] s (State.cohRd s a2) := by
  unfold State.cohRd
  extract_lets x1 x2
  split
  · extract_lets x3
    refine PairKeeps.ite ?_ ?_
    · refine PairKeeps.mk ?_
      refine Keeps.after State.eccUncorrected_keeps (by decide) ?_
      exact Keeps.refl _ _
    · refine PairKeeps.mk ?_
      exact Keeps.refl _ _
  · refine PairKeeps.after State.homeRead_keeps (by decide) ?_
    exact Keeps.refl _ _

theorem State.fullWrite_keeps {s a2 a3} : Keeps [.mem, .ecc] s (State.fullWrite s a2 a3) := by
  unfold State.fullWrite
  refine Keeps.after State.setEcc_keeps (by decide) ?_
  refine Keeps.after State.wrWord_keeps (by decide) ?_
  exact Keeps.refl _ _

theorem State.lineToHome_keeps {s a2 a3} : Keeps [.mem, .ecc] s (State.lineToHome s a2 a3) := by
  unfold State.lineToHome
  refine Keeps.foldl ?_ ?_
  · exact Keeps.refl _ _
  · intro y1 y2 y3
    refine Keeps.ite ?_ ?_
    · refine Keeps.after State.setEcc_keeps (by decide) ?_
      exact y3
    · refine Keeps.after State.fullWrite_keeps (by decide) ?_
      exact y3

theorem State.setCore_keeps {s a2 a3} : Keeps [.cores] s (State.setCore s a2 a3) := by
  unfold State.setCore
  refine Keeps.set_cores (by decide) ?_
  exact Keeps.refl _ _

theorem State.setLine_keeps {s a2 a3 a4} : Keeps [.cores] s (State.setLine s a2 a3 a4) := by
  unfold State.setLine
  extract_lets x1
  refine Keeps.after State.setCore_keeps (by decide) ?_
  exact Keeps.refl _ _

theorem State.snoopInv_keeps {s a2 a3} : Keeps [.mem, .ecc, .cores] s (State.snoopInv s a2 a3) := by
  unfold State.snoopInv
  refine Keeps.foldl ?_ ?_
  · exact Keeps.refl _ _
  · intro y1 y2 y3
    extract_lets x4 x5
    have hx5 : Keeps [.mem, .ecc, .cores] s x5 := by
      unfold x5
      refine Keeps.ite ?_ ?_
      · refine Keeps.after State.lineToHome_keeps (by decide) ?_
        exact y3
      · exact y3
    refine Keeps.ite ?_ ?_
    · exact y3
    · refine Keeps.after State.setLine_keeps (by decide) ?_
      exact hx5

theorem State.cohWr_keeps {s a2 a3 a4} :
    PairKeeps [.regs, .mem, .ecc, .hif, .cores, .out] s (State.cohWr s a2 a3 a4) := by
  unfold State.cohWr
  extract_lets x1
  have hx1 : Keeps [.regs, .mem, .ecc, .hif, .cores, .out] s x1 := by
    unfold x1
    refine Keeps.after State.snoopInv_keeps (by decide) ?_
    exact Keeps.refl _ _
  refine PairKeeps.ite ?_ ?_
  · refine PairKeeps.mk ?_
    refine Keeps.after State.fullWrite_keeps (by decide) ?_
    exact hx1
  · refine PairKeeps.ite ?_ ?_
    · refine PairKeeps.mk ?_
      exact hx1
    · split
      split
      · refine PairKeeps.mk ?_
        refine Keeps.after State.fullWrite_keeps (by decide) ?_
        refine Keeps.of_pair (by assumption) ?_
        refine PairKeeps.after State.homeRead_keeps (by decide) ?_
        exact hx1
      · refine PairKeeps.mk ?_
        refine Keeps.of_pair (by assumption) ?_
        refine PairKeeps.after State.homeRead_keeps (by decide) ?_
        exact hx1

theorem State.doAtm_keeps {s a2 a3 a4 a5} :
    PairKeeps [.regs, .mem, .ecc, .hif, .cores, .out] s (State.doAtm s a2 a3 a4 a5) := by
  unfold State.doAtm
  extract_lets x1 x2
  have hx1 : Keeps [.regs, .mem, .ecc, .hif, .cores, .out] s x1 := by
    unfold x1
    refine Keeps.after State.snoopInv_keeps (by decide) ?_
    exact Keeps.refl _ _
  split
  split
  · extract_lets x3 x4 x5
    refine PairKeeps.mk ?_
    refine Keeps.after State.fullWrite_keeps (by decide) ?_
    refine Keeps.of_pair (by assumption) ?_
    refine PairKeeps.after State.homeRead_keeps (by decide) ?_
    exact hx1
  · refine PairKeeps.mk ?_
    refine Keeps.of_pair (by assumption) ?_
    refine PairKeeps.after State.homeRead_keeps (by decide) ?_
    exact hx1

theorem State.fillLine_keeps {s a2} : PairKeeps [.regs, .hif, .out] s (State.fillLine s a2) := by
  unfold State.fillLine
  refine PairKeeps.foldl (PairKeeps.mk (Keeps.refl _ _)) fun p i hp => ?_
  obtain ⟨⟨ws, bad⟩, t⟩ := p
  have ht : Keeps [.regs, .hif, .out] s t := hp
  have hr : PairKeeps [.regs, .hif, .out] s (t.homeRead (32 * a2 + 4 * i)) :=
    PairKeeps.after State.homeRead_keeps (by decide) ht
  dsimp only
  split
  · exact PairKeeps.mk hr
  · exact PairKeeps.mk hr

theorem State.snoopShare_keeps {s a2 a3} : Keeps [.mem, .ecc, .cores] s (State.snoopShare s a2 a3) := by
  unfold State.snoopShare
  refine Keeps.foldl ?_ ?_
  · exact Keeps.refl _ _
  · intro y1 y2 y3
    extract_lets x4 x5
    have hx5 : Keeps [.mem, .ecc, .cores] s x5 := by
      unfold x5
      refine Keeps.ite ?_ ?_
      · refine Keeps.after State.lineToHome_keeps (by decide) ?_
        exact y3
      · exact y3
    refine Keeps.ite ?_ ?_
    · exact y3
    · refine Keeps.after State.setLine_keeps (by decide) ?_
      exact hx5

theorem State.doRds_keeps {s a2 a3} : Keeps [.regs, .mem, .ecc, .hif, .cores, .out] s (State.doRds s a2 a3) := by
  unfold State.doRds
  extract_lets x1 x2
  have hx2 : Keeps [.regs, .mem, .ecc, .hif, .cores, .out] s x2 := by
    unfold x2
    refine Keeps.after State.snoopShare_keeps (by decide) ?_
    exact Keeps.refl _ _
  refine Keeps.ite ?_ ?_
  · exact Keeps.refl _ _
  · split
    refine Keeps.after State.setLine_keeps (by decide) ?_
    refine Keeps.of_pair (by assumption) ?_
    refine PairKeeps.after State.fillLine_keeps (by decide) ?_
    exact hx2

theorem State.doRdu_keeps {s a2 a3} : Keeps [.regs, .mem, .ecc, .hif, .cores, .out] s (State.doRdu s a2 a3) := by
  unfold State.doRdu
  extract_lets x1
  have hx1 : Keeps [.regs, .mem, .ecc, .hif, .cores, .out] s x1 := by
    unfold x1
    refine Keeps.after State.snoopInv_keeps (by decide) ?_
    exact Keeps.refl _ _
  refine Keeps.ite ?_ ?_
  · exact Keeps.refl _ _
  · split
    refine Keeps.after State.setLine_keeps (by decide) ?_
    refine Keeps.of_pair (by assumption) ?_
    refine PairKeeps.after State.fillLine_keeps (by decide) ?_
    exact hx1

theorem State.doUpg_keeps {s a2 a3} : Keeps [.mem, .ecc, .cores] s (State.doUpg s a2 a3) := by
  unfold State.doUpg
  extract_lets x1 x2
  have hx1 : Keeps [.mem, .ecc, .cores] s x1 := by
    unfold x1
    refine Keeps.after State.snoopInv_keeps (by decide) ?_
    exact Keeps.refl _ _
  refine Keeps.ite ?_ ?_
  · refine Keeps.after State.setLine_keeps (by decide) ?_
    exact hx1
  · exact Keeps.refl _ _

theorem State.doWbk_keeps {s a2 a3 a4} : Keeps [.mem, .ecc, .cores] s (State.doWbk s a2 a3 a4) := by
  unfold State.doWbk
  extract_lets x1 x2
  have hx2 : Keeps [.mem, .ecc, .cores] s x2 := by
    unfold x2
    refine Keeps.after State.lineToHome_keeps (by decide) ?_
    exact Keeps.refl _ _
  refine Keeps.ite ?_ ?_
  · refine Keeps.after State.setLine_keeps (by decide) ?_
    exact hx2
  · exact Keeps.refl _ _

theorem State.iFill_keeps {s a2 a3} : Keeps [.regs, .hif, .cores, .out] s (State.iFill s a2 a3) := by
  unfold State.iFill
  have h : PairKeeps [.regs, .hif, .cores, .out] s ((List.range 8).foldl (fun acc i =>
      let ((ws, bad), s) := acc
      let (r, s) := s.cohRd (32 * a3 + 4 * i)
      match r with
      | some w => ((ws ++ [w], bad), s)
      | none => ((ws ++ [s.rdWord (32 * a3 + 4 * i)], bad ||| 1 <<< i), s)) ((([] : List Word), 0), s)) := by
    refine PairKeeps.foldl (PairKeeps.mk (Keeps.refl _ _)) fun p i hp => ?_
    obtain ⟨⟨ws, bad⟩, t⟩ := p
    have k := PairKeeps.after (State.cohRd_keeps (s := t) (a2 := 32 * a3 + 4 * i)) (by decide) hp
    dsimp only
    generalize t.cohRd (32 * a3 + 4 * i) = q at k ⊢
    obtain ⟨r, u⟩ := q
    cases r <;> exact PairKeeps.mk k
  generalize (List.range 8).foldl _ _ = p at h
  obtain ⟨⟨ws, bad⟩, t⟩ := p
  exact Keeps.after State.setCore_keeps (by decide) h

theorem State.serve_keeps {s a2} : PairKeeps [.regs, .mem, .ecc, .hif, .cores, .out] s (State.serve s a2) := by
  unfold State.serve
  split
  · refine PairKeeps.mk ?_
    refine Keeps.after State.doRds_keeps (by decide) ?_
    exact Keeps.refl _ _
  · refine PairKeeps.mk ?_
    refine Keeps.after State.doRdu_keeps (by decide) ?_
    exact Keeps.refl _ _
  · refine PairKeeps.mk ?_
    refine Keeps.after State.doUpg_keeps (by decide) ?_
    exact Keeps.refl _ _
  · refine PairKeeps.mk ?_
    refine Keeps.after State.doWbk_keeps (by decide) ?_
    exact Keeps.refl _ _
  · split
    · refine PairKeeps.mk ?_
      refine Keeps.after State.iFill_keeps (by decide) ?_
      exact Keeps.refl _ _
    · refine PairKeeps.mk ?_
      refine Keeps.foldl ?_ ?_
      · exact Keeps.refl _ _
      · intro y1 y2 y3
        refine Keeps.of_snd ?_
        refine PairKeeps.after State.cohRd_keeps (by decide) ?_
        exact y3
  · refine PairKeeps.mk ?_
    refine Keeps.of_snd ?_
    refine PairKeeps.after State.cohWr_keeps (by decide) ?_
    exact Keeps.refl _ _
  · split
    refine PairKeeps.mk ?_
    refine Keeps.of_pair (by assumption) ?_
    refine PairKeeps.after State.doAtm_keeps (by decide) ?_
    exact Keeps.refl _ _

theorem State.serveLate_keeps {s a2} : Keeps [.regs, .mem, .ecc, .hif, .cores, .coh, .out] s (State.serveLate s a2) := by
  unfold State.serveLate
  split
  split
  · refine Keeps.of_pair (by assumption) ?_
    refine PairKeeps.after State.serve_keeps (by decide) ?_
    exact Keeps.refl _ _
  · extract_lets x1
    refine Keeps.set_coh (by decide) ?_
    refine Keeps.of_pair (by assumption) ?_
    refine PairKeeps.after State.serve_keeps (by decide) ?_
    exact Keeps.refl _ _

theorem State.lineTurn_keeps {s a2} : Keeps [.regs, .mem, .ecc, .hif, .cores, .coh, .out] s (State.lineTurn s a2) := by
  unfold State.lineTurn
  extract_lets x1 x2 x3
  have hx3 : Keeps [.regs, .mem, .ecc, .hif, .cores, .coh, .out] s x3 := by
    unfold x3
    refine Keeps.set_coh (by decide) ?_
    exact Keeps.refl _ _
  refine Keeps.foldl ?_ ?_
  · exact hx3
  · intro y4 y5 y6
    refine Keeps.after State.serveLate_keeps (by decide) ?_
    exact y6

theorem State.atHome_keeps {s a2 a3} : Keeps [.regs, .mem, .ecc, .hif, .cores, .coh, .out] s (State.atHome s a2 a3) := by
  unfold State.atHome
  extract_lets x1 x2
  have hx1 : Keeps [.regs, .mem, .ecc, .hif, .cores, .coh, .out] s x1 := by
    unfold x1
    split
    · refine Keeps.after State.lineTurn_keeps (by decide) ?_
      exact Keeps.refl _ _
    · exact Keeps.refl _ _
  refine Keeps.after State.lineTurn_keeps (by decide) ?_
  refine Keeps.set_coh (by decide) ?_
  exact hx1

theorem State.coRd_keeps {s a2 a3} : PairKeeps [.regs, .mem, .ecc, .hif, .cores, .coh, .out] s (State.coRd s a2 a3) := by
  unfold State.coRd
  refine PairKeeps.after State.cohRd_keeps (by decide) ?_
  refine Keeps.after State.atHome_keeps (by decide) ?_
  exact Keeps.refl _ _

theorem State.coWr_keeps {s a2 a3 a4 a5} :
    PairKeeps [.regs, .mem, .ecc, .hif, .cores, .coh, .out] s (State.coWr s a2 a3 a4 a5) := by
  unfold State.coWr
  refine PairKeeps.after State.cohWr_keeps (by decide) ?_
  refine Keeps.after State.atHome_keeps (by decide) ?_
  exact Keeps.refl _ _

theorem State.coWrs_keeps {s a2 a3 a4} :
    Keeps [.regs, .mem, .ecc, .hif, .cores, .coh, .out] s (State.coWrs s a2 a3 a4) := by
  induction a4 generalizing s a2 a3
  · rw [State.coWrs]
    exact Keeps.refl _ _
  · rename_i y ih
    rw [State.coWrs]
    refine Keeps.after ih (fun _ k => k) ?_
    refine Keeps.of_snd ?_
    refine PairKeeps.after State.coWr_keeps (by decide) ?_
    exact Keeps.refl _ _

theorem State.mramCheck_keeps {s a2} : PairKeeps [.regs, .hif, .out] s (State.mramCheck s a2) := by
  unfold State.mramCheck
  refine PairKeeps.after State.eccRead_keeps (by decide) ?_
  exact Keeps.refl _ _

theorem State.mramWrite_keeps {s a2 a3 a4} :
    PairKeeps [.regs, .mem, .ecc, .hif, .out] s (State.mramWrite s a2 a3 a4) := by
  unfold State.mramWrite
  refine PairKeeps.ite ?_ ?_
  · refine PairKeeps.mk ?_
    refine Keeps.after State.fullWrite_keeps (by decide) ?_
    exact Keeps.refl _ _
  · split
    split
    · refine PairKeeps.mk ?_
      refine Keeps.after State.fullWrite_keeps (by decide) ?_
      refine Keeps.of_pair (by assumption) ?_
      refine PairKeeps.after State.mramCheck_keeps (by decide) ?_
      exact Keeps.refl _ _
    · refine PairKeeps.mk ?_
      refine Keeps.of_pair (by assumption) ?_
      refine PairKeeps.after State.mramCheck_keeps (by decide) ?_
      exact Keeps.refl _ _

theorem State.serveFor_keeps {s a2 a3} :
    Keeps [.regs, .mem, .ecc, .hif, .cores, .coh, .out, .reply] s (State.serveFor s a2 a3) := by
  unfold State.serveFor
  split
  extract_lets x1
  refine Keeps.set_coh_reply (by decide) (by decide) ?_
  refine Keeps.of_pair (by assumption) ?_
  refine PairKeeps.after State.serve_keeps (by decide) ?_
  exact Keeps.refl _ _

theorem State.request_keeps {s a2 a3} :
    Keeps [.regs, .mem, .ecc, .hif, .cores, .coh, .out, .reply] s (State.request s a2 a3) := by
  unfold State.request
  extract_lets x1 x2
  refine Keeps.ite ?_ ?_
  · exact Keeps.refl _ _
  · refine Keeps.ite ?_ ?_
    · refine Keeps.set_coh (by decide) ?_
      exact Keeps.refl _ _
    · refine Keeps.after State.serveFor_keeps (by decide) ?_
      exact Keeps.refl _ _

theorem State.holdLine_keeps {s a2 a3} :
    Keeps [.regs, .mem, .ecc, .hif, .cores, .coh, .out] s (State.holdLine s a2 a3) := by
  unfold State.holdLine
  refine Keeps.ite ?_ ?_
  · refine Keeps.after State.doRds_keeps (by decide) ?_
    refine Keeps.after State.atHome_keeps (by decide) ?_
    exact Keeps.refl _ _
  · exact Keeps.refl _ _

theorem State.ownLine_keeps {s a2 a3} :
    Keeps [.regs, .mem, .ecc, .hif, .cores, .coh, .out] s (State.ownLine s a2 a3) := by
  unfold State.ownLine
  split
  · exact Keeps.refl _ _
  · extract_lets x1
    refine Keeps.after State.setLine_keeps (by decide) ?_
    exact Keeps.refl _ _
  · extract_lets x2
    have hx2 : Keeps [.regs, .mem, .ecc, .hif, .cores, .coh, .out] s x2 := by
      unfold x2
      refine Keeps.after State.atHome_keeps (by decide) ?_
      exact Keeps.refl _ _
    refine Keeps.ite ?_ ?_
    · refine Keeps.after State.doUpg_keeps (by decide) ?_
      exact hx2
    · refine Keeps.after State.doRdu_keeps (by decide) ?_
      exact hx2

theorem State.backLine_keeps {s a2 a3 a4} :
    Keeps [.regs, .mem, .ecc, .hif, .cores, .coh, .out] s (State.backLine s a2 a3 a4) := by
  unfold State.backLine
  refine Keeps.ite ?_ ?_
  · refine Keeps.after State.doWbk_keeps (by decide) ?_
    refine Keeps.after State.atHome_keeps (by decide) ?_
    exact Keeps.refl _ _
  · exact Keeps.refl _ _

theorem execRds_keeps {a1 a2 s} : Answers [.regs, .mem, .ecc, .hif, .cores, .coh, .out, .reply] s (execRds a1 a2 s) := by
  unfold execRds
  refine Answers.next ?_
  refine Keeps.ite ?_ ?_
  · refine Keeps.after State.request_keeps (by decide) ?_
    exact Keeps.refl _ _
  · exact Keeps.refl _ _

theorem execRdu_keeps {a1 a2 s} : Answers [.regs, .mem, .ecc, .hif, .cores, .coh, .out, .reply] s (execRdu a1 a2 s) := by
  unfold execRdu
  refine Answers.next ?_
  refine Keeps.ite ?_ ?_
  · refine Keeps.after State.request_keeps (by decide) ?_
    exact Keeps.refl _ _
  · exact Keeps.refl _ _

theorem execUpg_keeps {a1 a2 s} : Answers [.regs, .mem, .ecc, .hif, .cores, .coh, .out, .reply] s (execUpg a1 a2 s) := by
  unfold execUpg
  refine Answers.next ?_
  refine Keeps.ite ?_ ?_
  · refine Keeps.after State.request_keeps (by decide) ?_
    exact Keeps.refl _ _
  · exact Keeps.refl _ _

theorem execWbk_keeps {a1 a2 s} : Answers [.regs, .mem, .ecc, .hif, .cores, .coh, .out, .reply] s (execWbk a1 a2 s) := by
  unfold execWbk
  extract_lets x1
  refine Answers.next ?_
  refine Keeps.ite ?_ ?_
  · exact Keeps.refl _ _
  · refine Keeps.ite ?_ ?_
    · refine Keeps.after State.request_keeps (by decide) ?_
      exact Keeps.refl _ _
    · refine Keeps.after State.setLine_keeps (by decide) ?_
      exact Keeps.refl _ _

theorem execWri_keeps {a1 a2 a3 a4 s} :
    Answers [.regs, .mem, .ecc, .hif, .cores, .coh, .out, .reply] s (execWri a1 a2 a3 a4 s) := by
  unfold execWri
  refine Answers.next ?_
  refine Keeps.ite ?_ ?_
  · refine Keeps.after State.request_keeps (by decide) ?_
    exact Keeps.refl _ _
  · exact Keeps.refl _ _

theorem execAtm_keeps {a1 a2 a3 a4 a5 s} :
    Answers [.regs, .mem, .ecc, .hif, .cores, .coh, .out, .reply] s (execAtm a1 a2 a3 a4 a5 s) := by
  unfold execAtm
  refine Answers.next ?_
  refine Keeps.ite ?_ ?_
  · refine Keeps.after State.request_keeps (by decide) ?_
    exact Keeps.refl _ _
  · exact Keeps.refl _ _

theorem State.lateAnswer_keeps {s a2} : Keeps [.coh, .reply] s (State.lateAnswer s a2) := by
  unfold State.lateAnswer
  split
  · extract_lets x1
    refine Keeps.set_coh_reply (by decide) (by decide) ?_
    exact Keeps.refl _ _
  · exact Keeps.refl _ _

theorem execGo_keeps {a1 s} : Answers [.regs, .mem, .ecc, .hif, .cores, .coh, .out, .reply] s (execGo a1 s) := by
  unfold execGo
  split
  · extract_lets x1 x2 x3
    have hx3 : Keeps [.regs, .mem, .ecc, .hif, .cores, .coh, .out, .reply] s x3 := by
      unfold x3
      refine Keeps.set_coh (by decide) ?_
      exact Keeps.refl _ _
    refine Answers.ite ?_ ?_
    · refine Answers.next ?_
      refine Keeps.after State.serveFor_keeps (by decide) ?_
      exact hx3
    · refine Answers.next ?_
      exact Keeps.refl _ _
  · refine Answers.next ?_
    refine Keeps.ite ?_ ?_
    · refine Keeps.after State.lateAnswer_keeps (by decide) ?_
      exact Keeps.refl _ _
    · exact Keeps.refl _ _

theorem State.scrubWord_keeps {s a2} : Keeps [.regs, .ecc, .hif, .out] s (State.scrubWord s a2) := by
  unfold State.scrubWord
  split
  · refine Keeps.after State.setEcc_keeps (by decide) ?_
    refine Keeps.of_snd ?_
    refine PairKeeps.after State.homeRead_keeps (by decide) ?_
    exact Keeps.refl _ _
  · refine Keeps.of_snd ?_
    refine PairKeeps.after State.homeRead_keeps (by decide) ?_
    exact Keeps.refl _ _

theorem execScrub_keeps {s} : Answers [.regs, .ecc, .hif, .coh, .out] s (execScrub s) := by
  unfold execScrub
  extract_lets x1 x2 x3
  have hx2 : Keeps [.regs, .ecc, .hif, .coh, .out] s x2 := by
    unfold x2
    refine Keeps.forN ?_ ?_
    · exact Keeps.refl _ _
    · intro y4 y5 y6
      refine Keeps.forN ?_ ?_
      · exact y6
      · intro y7 y8 y9
        refine Keeps.after State.scrubWord_keeps (by decide) ?_
        exact y9
  refine Answers.ite ?_ ?_
  · refine Answers.next ?_
    refine Keeps.set_coh (by decide) ?_
    exact hx2
  · refine Answers.next ?_
    exact Keeps.refl _ _

theorem State.mirrorCopy_keeps {a1 a2 a3 s} :
    Keeps [.regs, .mem, .ecc, .hif, .cores, .coh, .out] s (State.mirrorCopy a1 a2 a3 s) := by
  induction a1 generalizing s a2 a3
  · rw [State.mirrorCopy]
    exact Keeps.refl _ _
  · rename_i y ih
    rw [State.mirrorCopy]
    split
    extract_lets x1
    have hx1 : Keeps [.regs, .mem, .ecc, .hif, .cores, .coh, .out] s x1 := by
      unfold x1
      split
      · refine Keeps.of_snd ?_
        refine PairKeeps.after State.coWr_keeps (by decide) ?_
        refine Keeps.of_pair (by assumption) ?_
        refine PairKeeps.after State.mramCheck_keeps (by decide) ?_
        exact Keeps.refl _ _
      · refine Keeps.after State.setEcc_keeps (by decide) ?_
        refine Keeps.of_snd ?_
        refine PairKeeps.after State.coWr_keeps (by decide) ?_
        refine Keeps.of_pair (by assumption) ?_
        refine PairKeeps.after State.mramCheck_keeps (by decide) ?_
        exact Keeps.refl _ _
    refine Keeps.after ih (fun _ k => k) ?_
    exact hx1

theorem execMramMirror_keeps {s} : Answers [.regs, .mem, .ecc, .hif, .cores, .coh, .out] s (execMramMirror s) := by
  unfold execMramMirror
  refine Answers.ite ?_ ?_
  · refine Answers.next ?_
    refine Keeps.after State.mirrorCopy_keeps (by decide) ?_
    exact Keeps.refl _ _
  · refine Answers.next ?_
    exact Keeps.refl _ _

theorem execLedgerWindow_keeps {a1 s} : Answers [.regs, .hif, .out] s (execLedgerWindow a1 s) := by
  unfold execLedgerWindow
  extract_lets x1 x2 x3 x4
  have hx3 : Keeps [.regs, .hif, .out] s x3 := by
    unfold x3
    refine Keeps.after State.setFld_keeps (by decide) ?_
    exact Keeps.refl _ _
  have hx4 : Keeps [.regs, .hif, .out] s x4 := by
    unfold x4
    refine Keeps.ite ?_ ?_
    · exact hx3
    · refine Keeps.after State.tally_keeps (by decide) ?_
      exact hx3
  refine Answers.ite ?_ ?_
  · refine Answers.next ?_
    refine Keeps.ite ?_ ?_
    · refine Keeps.after State.event_keeps (by decide) ?_
      exact hx4
    · exact hx4
  · refine Answers.next ?_
    exact Keeps.refl _ _

end Sys2Proof.Machine
end

