-- ==== Sys2Proof/Laws/Pool.lean ====
section
/-!
SUPPORT. Frames of Machine/Pool.lean: which parts of the state each of its operations and commands may change.
-/
namespace Sys2Proof.Machine

theorem State.qSeqUp_keeps {s a2} : Keeps [.regs] s (State.qSeqUp s a2) := by
  unfold State.qSeqUp
  refine Keeps.after State.setFld_keeps (by decide) ?_
  exact Keeps.refl _ _

theorem State.dropBroken_keeps {s a2 a3} : Keeps [.regs] s (State.dropBroken s a2 a3) := by
  unfold State.dropBroken
  refine Keeps.after State.tallyHi_keeps (by decide) ?_
  refine Keeps.repeatN ?_ ?_
  · exact Keeps.refl _ _
  · intro y1 y2
    refine Keeps.after State.qSeqUp_keeps (by decide) ?_
    exact y2

theorem State.setPport_keeps {s a2 a3} : Keeps [.regs, .pool] s (State.setPport s a2 a3) := by
  unfold State.setPport
  extract_lets x1 x2
  have hx2 : Keeps [.regs, .pool] s x2 := by
    unfold x2
    refine Keeps.set_pool (by decide) ?_
    exact Keeps.refl _ _
  refine Keeps.ite ?_ ?_
  · refine Keeps.after State.setFld_keeps (by decide) ?_
    exact hx2
  · exact hx2

theorem State.breakHead_keeps {s a2 a3} : Keeps [.regs, .pool] s (State.breakHead s a2 a3) := by
  induction a3 generalizing s a2
  · rw [State.breakHead]
    exact Keeps.refl _ _
  · rename_i y ih
    rw [State.breakHead]
    split
    · exact Keeps.refl _ _
    · extract_lets x1 x2 x3
      have hx3 : Keeps [.regs, .pool] s x3 := by
        unfold x3
        refine Keeps.after State.dropBroken_keeps (by decide) ?_
        exact Keeps.refl _ _
      refine Keeps.ite ?_ ?_
      · refine Keeps.after ih (fun _ k => k) ?_
        refine Keeps.after State.setPport_keeps (by decide) ?_
        exact hx3
      · exact Keeps.refl _ _

theorem State.breakTail_keeps {s a2 a3} : Keeps [.regs, .pool] s (State.breakTail s a2 a3) := by
  unfold State.breakTail
  extract_lets x1
  split
  · exact Keeps.refl _ _
  · extract_lets x2
    refine Keeps.ite ?_ ?_
    · exact Keeps.refl _ _
    · refine Keeps.after State.setPport_keeps (by decide) ?_
      refine Keeps.after State.dropBroken_keeps (by decide) ?_
      exact Keeps.refl _ _

theorem State.enterFifo_keeps {s a2 a3} : Keeps [.regs, .pool] s (State.enterFifo s a2 a3) := by
  unfold State.enterFifo
  extract_lets x1 x2 x3
  have hx1 : Keeps [.regs, .pool] s x1 := by
    unfold x1
    refine Keeps.after State.breakTail_keeps (by decide) ?_
    exact Keeps.refl _ _
  refine Keeps.after State.breakHead_keeps (by decide) ?_
  refine Keeps.after State.setPport_keeps (by decide) ?_
  exact hx1

theorem State.portFlag_keeps {s a2 a3} : PairKeeps [.free] s (State.portFlag s a2 a3) := by
  unfold State.portFlag
  extract_lets x1 x2
  refine PairKeeps.ite ?_ ?_
  · refine PairKeeps.mk ?_
    exact Keeps.refl _ _
  · refine PairKeeps.ite ?_ ?_
    · refine PairKeeps.mk ?_
      exact Keeps.refl _ _
    · split
      refine PairKeeps.mk ?_
      refine Keeps.of_pair (by assumption) ?_
      refine PairKeeps.after State.drawWord_keeps (by decide) ?_
      exact Keeps.refl _ _

theorem State.stage_keeps {s a2 a3 a4 a5} : PairKeeps [.regs, .pool, .free] s (State.stage s a2 a3 a4 a5) := by
  unfold State.stage
  split
  refine PairKeeps.ite ?_ ?_
  · refine PairKeeps.mk ?_
    refine Keeps.after State.tally_keeps (by decide) ?_
    refine Keeps.of_pair (by assumption) ?_
    refine PairKeeps.after State.portFlag_keeps (by decide) ?_
    exact Keeps.refl _ _
  · refine PairKeeps.mk ?_
    refine Keeps.after State.enterFifo_keeps (by decide) ?_
    refine Keeps.of_pair (by assumption) ?_
    refine PairKeeps.after State.portFlag_keeps (by decide) ?_
    exact Keeps.refl _ _

theorem State.poolGranted_keeps {s a2} : Keeps [.pool] s (State.poolGranted s a2) := by
  unfold State.poolGranted
  extract_lets x1
  refine Keeps.set_pool (by decide) ?_
  exact Keeps.refl _ _

theorem State.poolUe_keeps {s a2} : Keeps [.regs, .hif, .out] s (State.poolUe s a2) := by
  unfold State.poolUe
  refine Keeps.after State.eccUncorrected_keeps (by decide) ?_
  exact Keeps.refl _ _

theorem State.setPq_keeps {s a2 a3} : Keeps [.pool] s (State.setPq s a2 a3) := by
  unfold State.setPq
  extract_lets x1
  refine Keeps.set_pool (by decide) ?_
  exact Keeps.refl _ _

theorem State.brokenLink_keeps {s a2 a3} : Keeps [.regs, .hif, .pool, .out] s (State.brokenLink s a2 a3) := by
  unfold State.brokenLink
  extract_lets x1 x2 x3
  have hx1 : Keeps [.regs, .hif, .pool, .out] s x1 := by
    unfold x1
    refine Keeps.after State.setFld_keeps (by decide) ?_
    exact Keeps.refl _ _
  have hx2 : Keeps [.regs, .hif, .pool, .out] s x2 := by
    unfold x2
    refine Keeps.after State.setBit_keeps (by decide) ?_
    refine Keeps.after State.setBit_keeps (by decide) ?_
    exact hx1
  refine Keeps.after State.poolUe_keeps (by decide) ?_
  refine Keeps.after State.setPq_keeps (by decide) ?_
  exact hx2

theorem State.freeCell_keeps {s a2} : Keeps [.regs, .pool] s (State.freeCell s a2) := by
  unfold State.freeCell
  extract_lets x1
  refine Keeps.after State.setFld_keeps (by decide) ?_
  refine Keeps.set_pool (by decide) ?_
  exact Keeps.refl _ _

theorem State.poolFix_keeps {s a2} : Keeps [.regs, .ecc, .hif, .out] s (State.poolFix s a2) := by
  unfold State.poolFix
  refine Keeps.ite ?_ ?_
  · refine Keeps.after State.setEcc_keeps (by decide) ?_
    refine Keeps.after State.eccCorrected_keeps (by decide) ?_
    exact Keeps.refl _ _
  · exact Keeps.refl _ _

theorem State.releaseHead_keeps {s a2} : Keeps [.regs, .ecc, .hif, .pool, .out] s (State.releaseHead s a2) := by
  unfold State.releaseHead
  extract_lets x1 x2 x3 x4 x5
  have hx5 : Keeps [.regs, .ecc, .hif, .pool, .out] s x5 := by
    unfold x5
    refine Keeps.after State.poolFix_keeps (by decide) ?_
    exact Keeps.refl _ _
  refine Keeps.ite ?_ ?_
  · refine Keeps.after State.setPq_keeps (by decide) ?_
    refine Keeps.after State.freeCell_keeps (by decide) ?_
    exact Keeps.refl _ _
  · refine Keeps.ite ?_ ?_
    · refine Keeps.after State.brokenLink_keeps (by decide) ?_
      exact hx5
    · refine Keeps.after State.setPq_keeps (by decide) ?_
      refine Keeps.after State.freeCell_keeps (by decide) ?_
      exact hx5

theorem State.popQueue_keeps {s a2} : PairKeeps [.regs, .ecc, .hif, .pool, .out] s (State.popQueue s a2) := by
  unfold State.popQueue
  extract_lets x1 x2 x3 x4 x5 x6 x7 x8 x9
  have hx5 : Keeps [.regs, .ecc, .hif, .pool, .out] s x5 := by
    unfold x5
    refine Keeps.ite ?_ ?_
    · refine Keeps.after State.setEcc_keeps (by decide) ?_
      refine Keeps.after State.eccCorrected_keeps (by decide) ?_
      exact Keeps.refl _ _
    · refine Keeps.ite ?_ ?_
      · exact Keeps.refl _ _
      · refine Keeps.after State.poolUe_keeps (by decide) ?_
        exact Keeps.refl _ _
  have hx7 : Keeps [.regs, .ecc, .hif, .pool, .out] s x7 := by
    unfold x7
    refine Keeps.after State.setPq_keeps (by decide) ?_
    exact hx5
  have hx9 : Keeps [.regs, .ecc, .hif, .pool, .out] s x9 := by
    unfold x9
    refine Keeps.after State.setFld_keeps (by decide) ?_
    exact hx7
  refine PairKeeps.ite ?_ ?_
  · refine PairKeeps.mk ?_
    exact Keeps.refl _ _
  · refine PairKeeps.mk ?_
    refine Keeps.ite ?_ ?_
    · refine Keeps.after State.releaseHead_keeps (by decide) ?_
      exact hx9
    · exact hx9

theorem State.poolPop_keeps {s a2} : Keeps [.regs, .ecc, .hif, .pool, .out, .reply] s (State.poolPop s a2) := by
  unfold State.poolPop
  split
  · split
    extract_lets x1 x2
    have hx2 : Keeps [.regs, .ecc, .hif, .pool, .out, .reply] s x2 := by
      unfold x2
      refine Keeps.after State.setPport_keeps (by decide) ?_
      refine Keeps.of_pair (by assumption) ?_
      refine PairKeeps.after State.popQueue_keeps (by decide) ?_
      refine Keeps.after State.poolGranted_keeps (by decide) ?_
      exact Keeps.refl _ _
    refine Keeps.ite ?_ ?_
    · refine Keeps.set_reply (by decide) ?_
      exact hx2
    · refine Keeps.after State.setPport_keeps (by decide) ?_
      refine Keeps.of_pair (by assumption) ?_
      refine PairKeeps.after State.popQueue_keeps (by decide) ?_
      refine Keeps.after State.poolGranted_keeps (by decide) ?_
      exact Keeps.refl _ _
  · exact Keeps.refl _ _

theorem State.freeLink_keeps {s a2 a3} : Keeps [.regs, .hif, .out] s (State.freeLink s a2 a3) := by
  unfold State.freeLink
  extract_lets x1
  refine Keeps.ite ?_ ?_
  · refine Keeps.after State.poolUe_keeps (by decide) ?_
    refine Keeps.after State.setBit_keeps (by decide) ?_
    exact Keeps.refl _ _
  · exact Keeps.refl _ _

theorem State.dropOld_keeps {s a2 a3 a4} : Keeps [.regs, .ecc, .hif, .pool, .out] s (State.dropOld s a2 a3 a4) := by
  induction a4 generalizing s a2 a3
  · rw [State.dropOld]
    exact Keeps.refl _ _
  · rename_i y ih
    rw [State.dropOld]
    extract_lets x1 x2 x3 x4
    have hx3 : Keeps [.regs, .ecc, .hif, .pool, .out] s x3 := by
      unfold x3
      refine Keeps.after State.releaseHead_keeps (by decide) ?_
      refine Keeps.after State.freeLink_keeps (by decide) ?_
      exact Keeps.refl _ _
    have hx4 : Keeps [.regs, .ecc, .hif, .pool, .out] s x4 := by
      unfold x4
      refine Keeps.repeatN ?_ ?_
      · exact hx3
      · intro y5 y6
        refine Keeps.after State.tally_keeps (by decide) ?_
        exact y6
    refine Keeps.ite ?_ ?_
    · refine Keeps.after State.freeLink_keeps (by decide) ?_
      exact Keeps.refl _ _
    · refine Keeps.ite ?_ ?_
      · exact hx3
      · refine Keeps.after ih (fun _ k => k) ?_
        refine Keeps.after State.setFld_keeps (by decide) ?_
        exact hx4

theorem State.dropWord_keeps {s a2 a3} : Keeps [.regs] s (State.dropWord s a2 a3) := by
  unfold State.dropWord
  extract_lets x1
  have hx1 : Keeps [.regs] s x1 := by
    unfold x1
    refine Keeps.after State.qSeqUp_keeps (by decide) ?_
    exact Keeps.refl _ _
  refine Keeps.ite ?_ ?_
  · refine Keeps.after State.tally_keeps (by decide) ?_
    exact hx1
  · exact hx1

theorem State.growQueue_keeps {s a2} : Keeps [.regs, .mem, .ecc, .hif, .pool, .out] s (State.growQueue s a2) := by
  unfold State.growQueue
  extract_lets x1 x2 x3 x4 x5 x6
  have hx3 : Keeps [.regs, .mem, .ecc, .hif, .pool, .out] s x3 := by
    unfold x3
    refine Keeps.after State.poolFix_keeps (by decide) ?_
    exact Keeps.refl _ _
  have hx5 : Keeps [.regs, .mem, .ecc, .hif, .pool, .out] s x5 := by
    unfold x5
    refine Keeps.set_pool (by decide) ?_
    exact hx3
  have hx6 : Keeps [.regs, .mem, .ecc, .hif, .pool, .out] s x6 := by
    unfold x6
    refine Keeps.after State.setFld_keeps (by decide) ?_
    exact hx5
  refine Keeps.ite ?_ ?_
  · refine Keeps.after State.setPq_keeps (by decide) ?_
    exact hx6
  · refine Keeps.after State.setPq_keeps (by decide) ?_
    refine Keeps.after State.fullWrite_keeps (by decide) ?_
    exact hx6

theorem State.placeOne_keeps {s a2 a3} : Keeps [.regs, .mem, .ecc, .hif, .pool, .out] s (State.placeOne s a2 a3) := by
  unfold State.placeOne
  extract_lets x1 x2 x3 x4 x5 x6 x7
  have hx1 : Keeps [.regs, .mem, .ecc, .hif, .pool, .out] s x1 := by
    unfold x1
    refine Keeps.ite ?_ ?_
    · refine Keeps.after State.growQueue_keeps (by decide) ?_
      exact Keeps.refl _ _
    · exact Keeps.refl _ _
  have hx4 : Keeps [.regs, .mem, .ecc, .hif, .pool, .out] s x4 := by
    unfold x4
    refine Keeps.after State.fullWrite_keeps (by decide) ?_
    exact hx1
  have hx5 : Keeps [.regs, .mem, .ecc, .hif, .pool, .out] s x5 := by
    unfold x5
    refine Keeps.after State.qSeqUp_keeps (by decide) ?_
    refine Keeps.after State.setPq_keeps (by decide) ?_
    exact hx4
  have hx7 : Keeps [.regs, .mem, .ecc, .hif, .pool, .out] s x7 := by
    unfold x7
    refine Keeps.after State.setFld_keeps (by decide) ?_
    exact hx5
  refine Keeps.ite ?_ ?_
  · refine Keeps.after State.source_keeps (by decide) ?_
    exact hx7
  · exact hx7

theorem State.qOvf_keeps {s a2} : Keeps [.regs] s (State.qOvf s a2) := by
  unfold State.qOvf
  extract_lets x1
  have hx1 : Keeps [.regs] s x1 := by
    unfold x1
    refine Keeps.after State.setBit_keeps (by decide) ?_
    exact Keeps.refl _ _
  refine Keeps.ite ?_ ?_
  · refine Keeps.after State.source_keeps (by decide) ?_
    exact hx1
  · exact hx1

theorem State.placeItem_keeps {s a2 a3} : Keeps [.regs, .mem, .ecc, .hif, .pool, .out] s (State.placeItem s a2 a3) := by
  unfold State.placeItem
  extract_lets x1 x2 x3 x4
  have hx2 : Keeps [.regs, .mem, .ecc, .hif, .pool, .out] s x2 := by
    unfold x2
    refine Keeps.after State.freeLink_keeps (by decide) ?_
    exact Keeps.refl _ _
  have hx3 : Keeps [.regs, .mem, .ecc, .hif, .pool, .out] s x3 := by
    unfold x3
    refine Keeps.after State.qOvf_keeps (by decide) ?_
    exact hx2
  have hx4 : Keeps [.regs, .mem, .ecc, .hif, .pool, .out] s x4 := by
    unfold x4
    refine Keeps.ite ?_ ?_
    · refine Keeps.after State.dropOld_keeps (by decide) ?_
      exact hx3
    · exact hx3
  refine Keeps.ite ?_ ?_
  · unfold x1
    refine Keeps.foldl ?_ ?_
    · exact Keeps.refl _ _
    · intro y5 y6 y7
      refine Keeps.after State.dropWord_keeps (by decide) ?_
      exact y7
  · refine Keeps.ite ?_ ?_
    · unfold x1
      refine Keeps.foldl ?_ ?_
      · refine Keeps.after State.setBit_keeps (by decide) ?_
        exact Keeps.refl _ _
      · intro y8 y9 y10
        refine Keeps.after State.dropWord_keeps (by decide) ?_
        exact y10
    · refine Keeps.ite ?_ ?_
      · refine Keeps.foldl ?_ ?_
        · exact hx2
        · intro y11 y12 y13
          refine Keeps.after State.placeOne_keeps (by decide) ?_
          exact y13
      · refine Keeps.ite ?_ ?_
        · unfold x1
          refine Keeps.foldl ?_ ?_
          · refine Keeps.after State.setBit_keeps (by decide) ?_
            exact hx4
          · intro y14 y15 y16
            refine Keeps.after State.dropWord_keeps (by decide) ?_
            exact y16
        · refine Keeps.ite ?_ ?_
          · refine Keeps.foldl ?_ ?_
            · exact hx4
            · intro y17 y18 y19
              refine Keeps.after State.placeOne_keeps (by decide) ?_
              exact y19
          · unfold x1
            refine Keeps.foldl ?_ ?_
            · exact hx4
            · intro y20 y21 y22
              refine Keeps.after State.dropWord_keeps (by decide) ?_
              exact y22

theorem State.poolPush_keeps {s a2} : Keeps [.regs, .mem, .ecc, .hif, .pool, .out] s (State.poolPush s a2) := by
  unfold State.poolPush
  extract_lets x1 x2
  have hx1 : Keeps [.regs, .mem, .ecc, .hif, .pool, .out] s x1 := by
    unfold x1
    refine Keeps.after State.breakHead_keeps (by decide) ?_
    exact Keeps.refl _ _
  split
  · exact hx1
  · extract_lets x3 x4
    have hx4 : Keeps [.regs, .mem, .ecc, .hif, .pool, .out] s x4 := by
      unfold x4
      refine Keeps.after State.poolGranted_keeps (by decide) ?_
      refine Keeps.after State.setPport_keeps (by decide) ?_
      exact hx1
    refine Keeps.ite ?_ ?_
    · exact hx1
    · refine Keeps.after State.breakHead_keeps (by decide) ?_
      refine Keeps.after State.placeItem_keeps (by decide) ?_
      exact hx4

theorem State.popRequest_keeps {s a2 a3} : Keeps [.regs, .pool] s (State.popRequest s a2 a3) := by
  unfold State.popRequest
  extract_lets x1
  split
  · refine Keeps.after State.setPport_keeps (by decide) ?_
    exact Keeps.refl _ _
  · refine Keeps.ite ?_ ?_
    · refine Keeps.after State.setPport_keeps (by decide) ?_
      exact Keeps.refl _ _
    · exact Keeps.refl _ _

theorem State.hstatRead_keeps {s} : PairKeeps [.free] s (State.hstatRead s) := by
  unfold State.hstatRead
  extract_lets x1 x2
  refine PairKeeps.ite ?_ ?_
  · refine PairKeeps.mk ?_
    exact Keeps.refl _ _
  · split
    refine PairKeeps.mk ?_
    refine Keeps.of_pair (by assumption) ?_
    refine PairKeeps.after State.drawWord_keeps (by decide) ?_
    exact Keeps.refl _ _

theorem State.rawViewWrite_keeps {s a2 a3 a4} : PairKeeps [.mem, .ecc] s (State.rawViewWrite s a2 a3 a4) := by
  unfold State.rawViewWrite
  refine PairKeeps.ite ?_ ?_
  · refine PairKeeps.mk ?_
    refine Keeps.after State.fullWrite_keeps (by decide) ?_
    exact Keeps.refl _ _
  · refine PairKeeps.mk ?_
    exact Keeps.refl _ _

theorem State.hqpush_keeps {s a2} : Keeps [.regs, .pool, .free] s (State.hqpush s a2) := by
  unfold State.hqpush
  split
  refine Keeps.ite ?_ ?_
  · refine Keeps.of_pair (by assumption) ?_
    refine PairKeeps.after State.stage_keeps (by decide) ?_
    exact Keeps.refl _ _
  · refine Keeps.after State.setBit_keeps (by decide) ?_
    refine Keeps.of_pair (by assumption) ?_
    refine PairKeeps.after State.stage_keeps (by decide) ?_
    exact Keeps.refl _ _

theorem State.qcfgWrite_keeps {s a2 a3} : Keeps [.regs, .pool] s (State.qcfgWrite s a2 a3) := by
  unfold State.qcfgWrite
  extract_lets x1 x2 x3 x4 x5 x6 x7 x8 x9
  have hx4 : Keeps [.regs, .pool] s x4 := by
    unfold x4
    refine Keeps.after State.setFld_keeps (by decide) ?_
    exact Keeps.refl _ _
  have hx5 : Keeps [.regs, .pool] s x5 := by
    unfold x5
    refine Keeps.after State.setFld_keeps (by decide) ?_
    exact hx4
  have hx6 : Keeps [.regs, .pool] s x6 := by
    unfold x6
    refine Keeps.after State.setFld_keeps (by decide) ?_
    refine Keeps.after State.setFld_keeps (by decide) ?_
    exact hx5
  have hx8 : Keeps [.regs, .pool] s x8 := by
    unfold x8
    refine Keeps.after State.setFld_keeps (by decide) ?_
    exact hx4
  have hx9 : Keeps [.regs, .pool] s x9 := by
    unfold x9
    refine Keeps.after State.setBit_keeps (by decide) ?_
    refine Keeps.after State.setFld_keeps (by decide) ?_
    exact hx8
  refine Keeps.ite ?_ ?_
  · refine Keeps.after State.wlrej_keeps (by decide) ?_
    exact Keeps.refl _ _
  · refine Keeps.ite ?_ ?_
    · refine Keeps.after State.setBit_keeps (by decide) ?_
      exact Keeps.refl _ _
    · refine Keeps.ite ?_ ?_
      · refine Keeps.after State.setBit_keeps (by decide) ?_
        refine Keeps.after State.setPq_keeps (by decide) ?_
        exact hx6
      · refine Keeps.ite ?_ ?_
        · refine Keeps.ite ?_ ?_
          · exact hx9
          · refine Keeps.after State.setBit_keeps (by decide) ?_
            exact hx9
        · exact hx4

theorem State.poolProved_keeps {s} : Keeps [.regs, .mem, .ecc, .pool] s (State.poolProved s) := by
  unfold State.poolProved
  extract_lets x1 x2 x3 x4
  have hx1 : Keeps [.regs, .mem, .ecc, .pool] s x1 := by
    unfold x1
    refine Keeps.after State.zeroRange_keeps (by decide) ?_
    exact Keeps.refl _ _
  have hx3 : Keeps [.regs, .mem, .ecc, .pool] s x3 := by
    unfold x3
    refine Keeps.set_pool (by decide) ?_
    exact hx1
  have hx4 : Keeps [.regs, .mem, .ecc, .pool] s x4 := by
    unfold x4
    refine Keeps.after State.setFld_keeps (by decide) ?_
    exact hx3
  refine Keeps.forN ?_ ?_
  · exact hx4
  · intro y5 y6 y7
    refine Keeps.after State.setBit_keeps (by decide) ?_
    refine Keeps.ite ?_ ?_
    · refine Keeps.after State.setFld_keeps (by decide) ?_
      exact y7
    · exact y7

theorem State.poolCoreReset_keeps {s a2} : Keeps [.regs, .pool] s (State.poolCoreReset s a2) := by
  unfold State.poolCoreReset
  extract_lets x1
  refine Keeps.after State.setPport_keeps (by decide) ?_
  exact Keeps.refl _ _

theorem State.poolLinkReset_keeps {s} : Keeps [.regs, .pool] s (State.poolLinkReset s) := by
  unfold State.poolLinkReset
  extract_lets x1
  have hx1 : Keeps [.regs, .pool] s x1 := by
    unfold x1
    refine Keeps.repeatN ?_ ?_
    · exact Keeps.refl _ _
    · intro y2 y3
      refine Keeps.after State.tally_keeps (by decide) ?_
      exact y3
  refine Keeps.after State.setPport_keeps (by decide) ?_
  exact hx1

theorem State.portAge_keeps {s a2} : Keeps [.pool] s (State.portAge s a2) := by
  unfold State.portAge
  extract_lets x1 x2 x3
  refine Keeps.ite ?_ ?_
  · exact Keeps.refl _ _
  · refine Keeps.set_pool (by decide) ?_
    exact Keeps.refl _ _

theorem execPoolPush_keeps {a1 s} : Answers [.regs, .mem, .ecc, .hif, .pool, .out] s (execPoolPush a1 s) := by
  unfold execPoolPush
  refine Answers.next ?_
  refine Keeps.ite ?_ ?_
  · refine Keeps.after State.poolPush_keeps (by decide) ?_
    exact Keeps.refl _ _
  · exact Keeps.refl _ _

theorem execPoolPop_keeps {a1 s} : Answers [.regs, .ecc, .hif, .pool, .out, .reply] s (execPoolPop a1 s) := by
  unfold execPoolPop
  refine Answers.next ?_
  refine Keeps.ite ?_ ?_
  · refine Keeps.after State.poolPop_keeps (by decide) ?_
    exact Keeps.refl _ _
  · exact Keeps.refl _ _

theorem execHqpush_keeps {a1 s} : Answers [.regs, .pool, .free] s (execHqpush a1 s) := by
  unfold execHqpush
  refine Answers.next ?_
  refine Keeps.ite ?_ ?_
  · refine Keeps.after State.hqpush_keeps (by decide) ?_
    exact Keeps.refl _ _
  · exact Keeps.refl _ _

theorem State.hpop_keeps {s a2} : Keeps [.regs, .ecc, .hif, .pool, .out, .reply] s (State.hpop s a2) := by
  unfold State.hpop
  extract_lets x1
  have hx1 : Keeps [.regs, .ecc, .hif, .pool, .out, .reply] s x1 := by
    unfold x1
    refine Keeps.after State.popRequest_keeps (by decide) ?_
    refine Keeps.set_reply (by decide) ?_
    exact Keeps.refl _ _
  refine Keeps.ite ?_ ?_
  · refine Keeps.after State.poolPop_keeps (by decide) ?_
    exact hx1
  · exact hx1

theorem execHpop_keeps {a1 a2 s} : Answers [.regs, .ecc, .hif, .pool, .out, .reply, .free] s (execHpop a1 a2 s) := by
  unfold execHpop
  refine Answers.next ?_
  refine State.readBy_keeps (by decide) ?_ ?_
  · exact Keeps.refl _ _
  · intro y1 y2
    extract_lets x3
    have hx3 : Keeps [.regs, .ecc, .hif, .pool, .out, .reply, .free] s x3 := by
      unfold x3
      refine Keeps.after State.hpop_keeps (by decide) ?_
      exact y2
    refine PairKeeps.mk ?_
    exact hx3

theorem execQcfgWrite_keeps {a1 a2 s} : Answers [.regs, .pool] s (execQcfgWrite a1 a2 s) := by
  unfold execQcfgWrite
  refine Answers.next ?_
  refine Keeps.ite ?_ ?_
  · refine Keeps.after State.qcfgWrite_keeps (by decide) ?_
    exact Keeps.refl _ _
  · exact Keeps.refl _ _

theorem execCellRelease_keeps {a1 s} : Answers [.regs, .pool] s (execCellRelease a1 s) := by
  unfold execCellRelease
  extract_lets x1 x2
  have hx1 : Keeps [.regs, .pool] s x1 := by
    unfold x1
    refine Keeps.after State.poolGranted_keeps (by decide) ?_
    exact Keeps.refl _ _
  refine Answers.ite ?_ ?_
  · split
    · extract_lets x3 x4
      have hx3 : Keeps [.regs, .pool] s x3 := by
        unfold x3
        refine Keeps.after State.freeCell_keeps (by decide) ?_
        exact hx1
      split
      · refine Answers.next ?_
        refine Keeps.after State.setPq_keeps (by decide) ?_
        exact hx3
      · refine Answers.next ?_
        refine Keeps.after State.setBit_keeps (by decide) ?_
        refine Keeps.after State.setPq_keeps (by decide) ?_
        exact hx3
    · refine Answers.next ?_
      refine Keeps.after State.setBit_keeps (by decide) ?_
      refine Keeps.after State.setPq_keeps (by decide) ?_
      exact hx1
  · refine Answers.next ?_
    exact Keeps.refl _ _

theorem execFreeListRebuild_keeps {s} : Answers [.regs, .ecc, .pool] s (execFreeListRebuild s) := by
  unfold execFreeListRebuild
  extract_lets x1 x2 x3
  have hx2 : Keeps [.regs, .ecc, .pool] s x2 := by
    unfold x2
    refine Keeps.set_ecc (by decide) (Tab.wf_tkeep _) ?_
    exact Keeps.refl _ _
  have hx3 : Keeps [.regs, .ecc, .pool] s x3 := by
    unfold x3
    refine Keeps.after State.poolGranted_keeps (by decide) ?_
    exact hx2
  refine Answers.ite ?_ ?_
  · refine Answers.next ?_
    exact Keeps.refl _ _
  · refine Answers.ite ?_ ?_
    · refine Answers.next ?_
      refine Keeps.after State.setBit_keeps (by decide) ?_
      refine Keeps.after State.setFld_keeps (by decide) ?_
      exact hx3
    · refine Answers.next ?_
      refine Keeps.after State.setBit_keeps (by decide) ?_
      exact Keeps.refl _ _

theorem State.poolScrubWord_keeps {s a2 a3} :
    Keeps [.regs, .mem, .ecc, .hif, .pool, .out] s (State.poolScrubWord s a2 a3) := by
  unfold State.poolScrubWord
  extract_lets x1 x2
  split
  · exact Keeps.refl _ _
  · refine Keeps.after State.setEcc_keeps (by decide) ?_
    refine Keeps.after State.eccCorrected_keeps (by decide) ?_
    exact Keeps.refl _ _
  · refine Keeps.ite ?_ ?_
    · refine Keeps.after State.eccCorrected_keeps (by decide) ?_
      refine Keeps.after State.fullWrite_keeps (by decide) ?_
      exact Keeps.refl _ _
    · refine Keeps.ite ?_ ?_
      · refine Keeps.ite ?_ ?_
        · refine Keeps.after State.poolUe_keeps (by decide) ?_
          exact Keeps.refl _ _
        · refine Keeps.after State.brokenLink_keeps (by decide) ?_
          exact Keeps.refl _ _
      · refine Keeps.after State.poolUe_keeps (by decide) ?_
        exact Keeps.refl _ _

theorem execPoolScrub_keeps {s} : Answers [.regs, .mem, .ecc, .hif, .pool, .out] s (execPoolScrub s) := by
  unfold execPoolScrub
  extract_lets x1 x2 x3 x4
  have hx1 : Keeps [.regs, .mem, .ecc, .hif, .pool, .out] s x1 := by
    unfold x1
    refine Keeps.after State.poolGranted_keeps (by decide) ?_
    exact Keeps.refl _ _
  have hx3 : Keeps [.regs, .mem, .ecc, .hif, .pool, .out] s x3 := by
    unfold x3
    refine Keeps.foldl ?_ ?_
    · exact hx1
    · intro y5 y6 y7
      refine Keeps.after State.poolScrubWord_keeps (by decide) ?_
      exact y7
  refine Answers.ite ?_ ?_
  · refine Answers.next ?_
    refine Keeps.set_pool (by decide) ?_
    exact hx3
  · refine Answers.next ?_
    exact Keeps.refl _ _

theorem execRawViewWrite_keeps {a1 a2 s} : Answers [.mem, .ecc, .reply] s (execRawViewWrite a1 a2 s) := by
  unfold execRawViewWrite
  refine Answers.ite ?_ ?_
  · split
    refine Answers.next ?_
    refine Keeps.ite ?_ ?_
    · refine Keeps.set_reply (by decide) ?_
      refine Keeps.of_pair (by assumption) ?_
      refine PairKeeps.after State.rawViewWrite_keeps (by decide) ?_
      exact Keeps.refl _ _
    · refine Keeps.set_reply (by decide) ?_
      refine Keeps.of_pair (by assumption) ?_
      refine PairKeeps.after State.rawViewWrite_keeps (by decide) ?_
      exact Keeps.refl _ _
  · refine Answers.next ?_
    exact Keeps.refl _ _

end Sys2Proof.Machine
end

