-- ==== Sys2Proof/Laws/PwmBase.lean ====
section
/-!
SUPPORT. Frames of Machine/PwmBase.lean: which parts of the state each of its operations and commands may change.
-/
namespace Sys2Proof.Machine

theorem State.setCmp_keeps {s a2 a3} : Keeps [.cmp] s (State.setCmp s a2 a3) := by
  unfold State.setCmp
  refine Keeps.set_cmp (by decide) ?_
  exact Keeps.refl _ _

theorem State.cmpBlank_keeps {s a2} : Keeps [.cmp] s (State.cmpBlank s a2) := by
  unfold State.cmpBlank
  refine Keeps.ite ?_ ?_
  · exact Keeps.refl _ _
  · refine Keeps.after State.setCmp_keeps (by decide) ?_
    exact Keeps.refl _ _

theorem State.blankOn_keeps {s a2 a3 a4} : Keeps [.cmp] s (State.blankOn s a2 a3 a4) := by
  unfold State.blankOn
  refine Keeps.forN ?_ ?_
  · exact Keeps.refl _ _
  · intro y1 y2 y3
    extract_lets x4
    refine Keeps.ite ?_ ?_
    · refine Keeps.after State.cmpBlank_keeps (by decide) ?_
      exact y3
    · exact y3

theorem State.pwmBlank_keeps {s a2 u} : Keeps [.cmp] s (State.pwmBlank s a2 u) := by
  unfold State.pwmBlank
  refine Keeps.after State.blankOn_keeps (by decide) ?_
  exact Keeps.refl _ _

theorem State.setPm_keeps {s a2 a3} : Keeps [.pwm] s (State.setPm s a2 a3) := by
  unfold State.setPm
  refine Keeps.set_pwm (by decide) ?_
  exact Keeps.refl _ _

theorem State.pwmSafe_keeps {s a2} : Keeps [.regs, .cmp, .pwm] s (State.pwmSafe s a2) := by
  unfold State.pwmSafe
  extract_lets x1 x2
  have hx2 : Keeps [.regs, .cmp, .pwm] s x2 := by
    unfold x2
    refine Keeps.after State.setFld_keeps (by decide) ?_
    exact Keeps.refl _ _
  refine Keeps.after State.pwmBlank_keeps (by decide) ?_
  refine Keeps.after State.setPm_keeps (by decide) ?_
  exact hx2

theorem State.cmpAssert_keeps {s a2} : Keeps [.regs, .cmp] s (State.cmpAssert s a2) := by
  unfold State.cmpAssert
  extract_lets x1 x2
  have hx2 : Keeps [.regs, .cmp] s x2 := by
    unfold x2
    refine Keeps.after State.setBit_keeps (by decide) ?_
    refine Keeps.after State.setCmp_keeps (by decide) ?_
    exact Keeps.refl _ _
  refine Keeps.ite ?_ ?_
  · refine Keeps.after State.source_keeps (by decide) ?_
    exact hx2
  · exact hx2

theorem State.pwmSafeAll_keeps {s} : Keeps [.regs, .cmp, .pwm] s (State.pwmSafeAll s) := by
  unfold State.pwmSafeAll
  refine Keeps.forN ?_ ?_
  · exact Keeps.refl _ _
  · intro y1 y2 y3
    refine Keeps.after State.pwmSafe_keeps (by decide) ?_
    exact y3

theorem State.pwmShow_keeps {s a2 a3} : Keeps [.regs] s (State.pwmShow s a2 a3) := by
  unfold State.pwmShow
  split
  · refine Keeps.after State.wr_keeps (by decide) ?_
    exact Keeps.refl _ _
  · exact Keeps.refl _ _

theorem State.pwmArrive_keeps {s a2 a3 a4 a5} : Keeps [.regs, .pwm] s (State.pwmArrive s a2 a3 a4 a5) := by
  unfold State.pwmArrive
  extract_lets x1 x2 x3
  refine Keeps.after State.pwmShow_keeps (by decide) ?_
  refine Keeps.after State.setPm_keeps (by decide) ?_
  exact Keeps.refl _ _

theorem State.pwmCompare_keeps {s a2 a3 a4} : Keeps [.regs, .pwm] s (State.pwmCompare s a2 a3 a4) := by
  unfold State.pwmCompare
  extract_lets x1
  have hx1 : Keeps [.regs, .pwm] s x1 := by
    unfold x1
    refine Keeps.ite ?_ ?_
    · exact Keeps.refl _ _
    · refine Keeps.after State.pwmArrive_keeps (by decide) ?_
      exact Keeps.refl _ _
  refine Keeps.ite ?_ ?_
  · exact hx1
  · refine Keeps.after State.pwmArrive_keeps (by decide) ?_
    exact hx1

theorem State.setPwmCh_keeps {s a2 a3 a4} : Keeps [.pwm] s (State.setPwmCh s a2 a3 a4) := by
  unfold State.setPwmCh
  extract_lets x1
  refine Keeps.after State.setPm_keeps (by decide) ?_
  exact Keeps.refl _ _

theorem State.pwmHoldAll_keeps {s} : Keeps [.pwm] s (State.pwmHoldAll s) := by
  unfold State.pwmHoldAll
  refine Keeps.forN ?_ ?_
  · exact Keeps.refl _ _
  · intro y1 y2 y3
    extract_lets x4
    refine Keeps.after State.setPm_keeps (by decide) ?_
    exact y3

theorem State.pwmShadow_keeps {s a2 a3} : Keeps [.regs, .pwm] s (State.pwmShadow s a2 a3) := by
  unfold State.pwmShadow
  refine Keeps.after State.pwmArrive_keeps (by decide) ?_
  exact Keeps.refl _ _

theorem State.cmpBypass_keeps {s} : Keeps [.regs, .cmp] s (State.cmpBypass s) := by
  unfold State.cmpBypass
  refine Keeps.forN ?_ ?_
  · exact Keeps.refl _ _
  · intro y1 y2 y3
    extract_lets x4 x5
    have hx5 : Keeps [.regs, .cmp] s x5 := by
      unfold x5
      refine Keeps.after State.setCmp_keeps (by decide) ?_
      exact y3
    refine Keeps.ite ?_ ?_
    · refine Keeps.after State.cmpAssert_keeps (by decide) ?_
      exact hx5
    · exact hx5

theorem State.pwmReached_keeps {s a2} : Keeps [.regs] s (State.pwmReached s a2) := by
  unfold State.pwmReached
  refine Keeps.forN ?_ ?_
  · exact Keeps.refl _ _
  · intro y1 y2 y3
    refine Keeps.ite ?_ ?_
    · refine Keeps.after State.pwmShow_keeps (by decide) ?_
      exact y3
    · exact y3

end Sys2Proof.Machine
end

