-- ==== Sys2Proof/Laws/Rings.lean ====
section
/-!
SUPPORT. Frames of Machine/Rings.lean: which parts of the state each of its operations and commands may change.
-/
namespace Sys2Proof.Machine

theorem State.cmdEnd_keeps {s a2} : Keeps [.regs, .hif] s (State.cmdEnd s a2) := by
  unfold State.cmdEnd
  extract_lets x1 x2
  have hx2 : Keeps [.regs, .hif] s x2 := by
    unfold x2
    refine Keeps.set_hif (by decide) ?_
    exact Keeps.refl _ _
  refine Keeps.ite ?_ ?_
  · exact hx2
  · refine Keeps.after State.setFld_keeps (by decide) ?_
    exact hx2

theorem State.cplHead_keeps {s a2} : Keeps [.out] s (State.cplHead s a2) := by
  unfold State.cplHead
  refine Keeps.after State.emit_keeps (by decide) ?_
  exact Keeps.refl _ _

theorem State.cplTail_keeps {s a2} : Keeps [.regs, .hif, .out] s (State.cplTail s a2) := by
  unfold State.cplTail
  extract_lets x1 x2 x3 x4 x5 x6
  have hx3 : Keeps [.regs, .hif, .out] s x3 := by
    unfold x3
    refine Keeps.after State.emit_keeps (by decide) ?_
    exact Keeps.refl _ _
  have hx4 : Keeps [.regs, .hif, .out] s x4 := by
    unfold x4
    refine Keeps.after State.setFld_keeps (by decide) ?_
    exact hx3
  have hx6 : Keeps [.regs, .hif, .out] s x6 := by
    unfold x6
    refine Keeps.ite ?_ ?_
    · refine Keeps.set_hif (by decide) ?_
      exact hx4
    · exact hx4
  refine Keeps.ite ?_ ?_
  · refine Keeps.after State.countVector_keeps (by decide) ?_
    exact hx6
  · exact hx6

theorem State.cplWrite_keeps {s a2} : Keeps [.regs, .hif, .out] s (State.cplWrite s a2) := by
  unfold State.cplWrite
  refine Keeps.after State.cplTail_keeps (by decide) ?_
  refine Keeps.after State.cplHead_keeps (by decide) ?_
  exact Keeps.refl _ _

theorem State.complete_keeps {s a2} : Keeps [.regs, .hif, .out] s (State.complete s a2) := by
  unfold State.complete
  extract_lets x1
  refine Keeps.ite ?_ ?_
  · refine Keeps.after State.cplWrite_keeps (by decide) ?_
    exact Keeps.refl _ _
  · refine Keeps.set_hif (by decide) ?_
    exact Keeps.refl _ _

theorem State.finish_keeps {s a2 a3 a4} : Keeps [.regs, .hif, .out] s (State.finish s a2 a3 a4) := by
  unfold State.finish
  split
  · exact Keeps.refl _ _
  · extract_lets x1
    have hx1 : Keeps [.regs, .hif, .out] s x1 := by
      unfold x1
      refine Keeps.after State.cmdEnd_keeps (by decide) ?_
      exact Keeps.refl _ _
    refine Keeps.ite ?_ ?_
    · exact hx1
    · refine Keeps.after State.complete_keeps (by decide) ?_
      exact hx1

theorem State.recIdx_keeps {s a2 a3} : PairKeeps [.regs] s (State.recIdx s a2 a3) := by
  unfold State.recIdx
  extract_lets x1
  refine PairKeeps.ite ?_ ?_
  · refine PairKeeps.mk ?_
    exact Keeps.refl _ _
  · refine PairKeeps.mk ?_
    refine Keeps.after State.setBit_keeps (by decide) ?_
    exact Keeps.refl _ _

theorem State.dberr_keeps {s} : Keeps [.regs] s (State.dberr s) := by
  unfold State.dberr
  refine Keeps.after State.source_keeps (by decide) ?_
  refine Keeps.after State.setBit_keeps (by decide) ?_
  exact Keeps.refl _ _

theorem State.dbCmd_keeps {s a2} : Keeps [.regs, .hif] s (State.dbCmd s a2) := by
  unfold State.dbCmd
  extract_lets x1 x2 x3 x4 x5 x6 x7 x8
  have hx6 : Keeps [.regs, .hif] s x6 := by
    unfold x6
    refine Keeps.set_hif (by decide) ?_
    exact Keeps.refl _ _
  have hx8 : Keeps [.regs, .hif] s x8 := by
    unfold x8
    refine Keeps.ite ?_ ?_
    · exact hx6
    · refine Keeps.set_hif (by decide) ?_
      exact hx6
  refine Keeps.ite ?_ ?_
  · refine Keeps.after State.dberr_keeps (by decide) ?_
    exact Keeps.refl _ _
  · refine Keeps.after State.setFld_keeps (by decide) ?_
    exact hx8

theorem State.dbCons_keeps {s a2 a3 a4} : Keeps [.regs] s (State.dbCons s a2 a3 a4) := by
  unfold State.dbCons
  extract_lets x1 x2 x3 x4 x5
  refine Keeps.ite ?_ ?_
  · refine Keeps.after State.dberr_keeps (by decide) ?_
    exact Keeps.refl _ _
  · refine Keeps.ite ?_ ?_
    · refine Keeps.after State.dberr_keeps (by decide) ?_
      exact Keeps.refl _ _
    · refine Keeps.after State.setFld_keeps (by decide) ?_
      exact Keeps.refl _ _

theorem State.dbRec_keeps {s a2 a3} : Keeps [.regs] s (State.dbRec s a2 a3) := by
  unfold State.dbRec
  extract_lets x1 x2 x3 x4 x5 x6 x7 x8 x9 x10 x11
  have hx5 : Keeps [.regs] s x5 := by
    unfold x5
    refine Keeps.ite ?_ ?_
    · refine Keeps.after State.dberr_keeps (by decide) ?_
      exact Keeps.refl _ _
    · exact Keeps.refl _ _
  have hx11 : Keeps [.regs] s x11 := by
    unfold x11
    refine Keeps.after State.setFld_keeps (by decide) ?_
    exact hx5
  refine Keeps.ite ?_ ?_
  · refine Keeps.after State.setBit_keeps (by decide) ?_
    exact hx5
  · refine Keeps.ite ?_ ?_
    · exact hx5
    · refine Keeps.ite ?_ ?_
      · refine Keeps.after State.dberr_keeps (by decide) ?_
        exact hx5
      · refine Keeps.ite ?_ ?_
        · refine Keeps.after State.setBit_keeps (by decide) ?_
          exact hx11
        · exact hx11

theorem State.flushCplN_keeps {a1 s} : Keeps [.regs, .hif, .out] s (State.flushCplN a1 s) := by
  induction a1 generalizing s
  · rw [State.flushCplN]
    exact Keeps.refl _ _
  · rename_i y ih
    rw [State.flushCplN]
    split
    · exact Keeps.refl _ _
    · extract_lets x1
      refine Keeps.ite ?_ ?_
      · refine Keeps.after ih (fun _ k => k) ?_
        refine Keeps.after State.cplWrite_keeps (by decide) ?_
        refine Keeps.set_hif (by decide) ?_
        exact Keeps.refl _ _
      · exact Keeps.refl _ _

theorem State.flushCpl_keeps {s} : Keeps [.regs, .hif, .out] s (State.flushCpl s) := by
  unfold State.flushCpl
  refine Keeps.after State.flushCplN_keeps (by decide) ?_
  exact Keeps.refl _ _

theorem State.doorbellNow_keeps {s a2 a3} : Keeps [.regs, .hif, .out] s (State.doorbellNow s a2 a3) := by
  unfold State.doorbellNow
  split
  · refine Keeps.after State.dbCmd_keeps (by decide) ?_
    exact Keeps.refl _ _
  · refine Keeps.after State.flushCpl_keeps (by decide) ?_
    refine Keeps.after State.dbCons_keeps (by decide) ?_
    exact Keeps.refl _ _
  · refine Keeps.after State.dbCons_keeps (by decide) ?_
    exact Keeps.refl _ _
  · refine Keeps.after State.dbRec_keeps (by decide) ?_
    exact Keeps.refl _ _

theorem State.doorbell_keeps {s a2 a3} : Keeps [.regs, .hif, .out] s (State.doorbell s a2 a3) := by
  unfold State.doorbell
  extract_lets x1
  refine Keeps.ite ?_ ?_
  · exact Keeps.refl _ _
  · refine Keeps.ite ?_ ?_
    · refine Keeps.after State.doorbellNow_keeps (by decide) ?_
      exact Keeps.refl _ _
    · refine Keeps.ite ?_ ?_
      · refine Keeps.set_hif (by decide) ?_
        exact Keeps.refl _ _
      · exact Keeps.refl _ _

theorem State.posterr_keeps {s} : Keeps [.regs] s (State.posterr s) := by
  unfold State.posterr
  refine Keeps.after State.setBit_keeps (by decide) ?_
  exact Keeps.refl _ _

theorem State.post_keeps {s a2 a3} : Keeps [.regs, .hif] s (State.post s a2 a3) := by
  unfold State.post
  extract_lets x1 x2 x3 x4
  have hx4 : Keeps [.regs, .hif] s x4 := by
    unfold x4
    refine Keeps.set_hif (by decide) ?_
    exact Keeps.refl _ _
  refine Keeps.ite ?_ ?_
  · refine Keeps.after State.posterr_keeps (by decide) ?_
    exact Keeps.refl _ _
  · refine Keeps.after State.setBit_keeps (by decide) ?_
    exact hx4

theorem State.ringStart_keeps {s a2} : Keeps [.regs, .hif] s (State.ringStart s a2) := by
  unfold State.ringStart
  extract_lets x1 x2
  have hx1 : Keeps [.regs, .hif] s x1 := by
    unfold x1
    refine Keeps.after State.wr_keeps (by decide) ?_
    exact Keeps.refl _ _
  split
  · refine Keeps.set_hif (by decide) ?_
    exact hx1
  · refine Keeps.set_hif (by decide) ?_
    exact hx1
  · refine Keeps.set_hif (by decide) ?_
    exact hx1
  · refine Keeps.after State.wr_keeps (by decide) ?_
    exact hx1

theorem State.copiesDrop_keeps {s a2} : Keeps [.mbm] s (State.copiesDrop s a2) := by
  unfold State.copiesDrop
  extract_lets x1
  refine Keeps.set_mbm (by decide) ?_
  exact Keeps.refl _ _

theorem State.ringStop_keeps {s a2} : Keeps [.regs, .hif, .mbm] s (State.ringStop s a2) := by
  unfold State.ringStop
  split
  · extract_lets x1
    refine Keeps.set_hif (by decide) ?_
    exact Keeps.refl _ _
  · extract_lets x2 x3 x4
    have hx2 : Keeps [.regs, .hif, .mbm] s x2 := by
      unfold x2
      refine Keeps.after State.copiesDrop_keeps (by decide) ?_
      exact Keeps.refl _ _
    have hx4 : Keeps [.regs, .hif, .mbm] s x4 := by
      unfold x4
      refine Keeps.set_hif (by decide) ?_
      exact hx2
    split
    · refine Keeps.after State.setBit_keeps (by decide) ?_
      refine Keeps.after State.setBit_keeps (by decide) ?_
      exact hx4
    · exact hx2
  · exact Keeps.refl _ _

theorem State.ringCfg_keeps {s a2 a3} : Keeps [.regs, .hif, .mbm, .out] s (State.ringCfg s a2 a3) := by
  unfold State.ringCfg
  extract_lets x1 x2 x3 x4 x5 x6
  have hx6 : Keeps [.regs, .hif, .mbm, .out] s x6 := by
    unfold x6
    refine Keeps.after State.wr_keeps (by decide) ?_
    exact Keeps.refl _ _
  refine Keeps.ite ?_ ?_
  · refine Keeps.after State.wlrej_keeps (by decide) ?_
    exact Keeps.refl _ _
  · refine Keeps.ite ?_ ?_
    · refine Keeps.after State.setBit_keeps (by decide) ?_
      refine Keeps.after State.wr_keeps (by decide) ?_
      exact Keeps.refl _ _
    · refine Keeps.ite ?_ ?_
      · refine Keeps.after State.flushCpl_keeps (by decide) ?_
        refine Keeps.after State.ringStart_keeps (by decide) ?_
        exact hx6
      · refine Keeps.ite ?_ ?_
        · refine Keeps.after State.ringStop_keeps (by decide) ?_
          exact hx6
        · exact hx6

theorem State.sendPending_keeps {s} : Keeps [.regs, .hif, .out] s (State.sendPending s) := by
  unfold State.sendPending
  extract_lets x1
  have hx1 : Keeps [.regs, .hif, .out] s x1 := by
    unfold x1
    refine Keeps.forN ?_ ?_
    · exact Keeps.refl _ _
    · intro y2 y3 y4
      refine Keeps.ite ?_ ?_
      · refine Keeps.after State.msixSend_keeps (by decide) ?_
        exact y4
      · refine Keeps.ite ?_ ?_
        · refine Keeps.after State.msiSend_keeps (by decide) ?_
          exact y4
        · exact y4
  refine Keeps.forN ?_ ?_
  · exact hx1
  · intro y5 y6 y7
    refine Keeps.ite ?_ ?_
    · exact y7
    · refine Keeps.after State.setBit_keeps (by decide) ?_
      exact y7

theorem State.recBegin_keeps {s a2} : Keeps [.regs, .hif, .out] s (State.recBegin s a2) := by
  unfold State.recBegin
  extract_lets x1 x2 x3 x4
  have hx4 : Keeps [.regs, .hif, .out] s x4 := by
    unfold x4
    refine Keeps.ite ?_ ?_
    · refine Keeps.after State.setBit_keeps (by decide) ?_
      refine Keeps.after State.setFld_keeps (by decide) ?_
      refine Keeps.after State.setBit_keeps (by decide) ?_
      refine Keeps.after State.tally_keeps (by decide) ?_
      refine Keeps.set_hif (by decide) ?_
      exact Keeps.refl _ _
    · exact Keeps.refl _ _
  refine Keeps.after State.emit_keeps (by decide) ?_
  exact hx4

theorem State.cmdIssue_keeps {s} : Keeps [.hif, .out] s (State.cmdIssue s) := by
  unfold State.cmdIssue
  split
  · extract_lets x1 x2
    refine Keeps.ite ?_ ?_
    · refine Keeps.after State.emit_keeps (by decide) ?_
      refine Keeps.set_hif (by decide) ?_
      exact Keeps.refl _ _
    · exact Keeps.refl _ _
  · exact Keeps.refl _ _

theorem State.actKept_keeps {s} : Keeps [.regs, .hif, .out] s (State.actKept s) := by
  unfold State.actKept
  extract_lets x1 x2 x3
  have hx3 : Keeps [.regs, .hif, .out] s x3 := by
    unfold x3
    refine Keeps.set_hif (by decide) ?_
    exact Keeps.refl _ _
  refine Keeps.foldl ?_ ?_
  · exact hx3
  · intro y4 y5 y6
    split
    · refine Keeps.after State.doorbellNow_keeps (by decide) ?_
      exact y6
    · exact y6

theorem State.ackResume_keeps {s} : Keeps [.regs, .hif, .out] s (State.ackResume s) := by
  unfold State.ackResume
  refine Keeps.ite ?_ ?_
  · refine Keeps.after State.actKept_keeps (by decide) ?_
    refine Keeps.after State.cmdIssue_keeps (by decide) ?_
    refine Keeps.after State.flushCpl_keeps (by decide) ?_
    refine Keeps.after State.sendPending_keeps (by decide) ?_
    exact Keeps.refl _ _
  · exact Keeps.refl _ _

theorem State.readBody_keeps {a1 a2 s} :
    PairKeeps [.regs, .mem, .ecc, .hif, .cores, .coh, .out] s (State.readBody a1 a2 s) := by
  induction a1 generalizing s a2
  · rw [State.readBody]
    refine PairKeeps.mk ?_
    exact Keeps.refl _ _
  · rename_i y ih
    rw [State.readBody]
    split
    split
    refine PairKeeps.mk ?_
    refine Keeps.of_pair (by assumption) ?_
    refine PairKeeps.after ih (fun _ k => k) ?_
    refine Keeps.of_pair (by assumption) ?_
    refine PairKeeps.after State.coRd_keeps (by decide) ?_
    exact Keeps.refl _ _

theorem State.recEnd_keeps {s a2 a3 a4 a5} : Keeps [.regs, .hif, .out] s (State.recEnd s a2 a3 a4 a5) := by
  unfold State.recEnd
  extract_lets x1 x2 x3 x4 x5 x6 x7 x8
  have hx7 : Keeps [.regs, .hif, .out] s x7 := by
    unfold x7
    refine Keeps.after State.emit_keeps (by decide) ?_
    refine Keeps.after State.emitWords_keeps (by decide) ?_
    exact Keeps.refl _ _
  have hx8 : Keeps [.regs, .hif, .out] s x8 := by
    unfold x8
    refine Keeps.after State.setBit_keeps (by decide) ?_
    refine Keeps.after State.setFld_keeps (by decide) ?_
    exact hx7
  refine Keeps.after State.countVector_keeps (by decide) ?_
  refine Keeps.after State.wr_keeps (by decide) ?_
  exact hx8

theorem State.finishHeld_keeps {s a2 a3} : Keeps [.regs, .hif] s (State.finishHeld s a2 a3) := by
  unfold State.finishHeld
  extract_lets x1 x2
  have hx1 : Keeps [.regs, .hif] s x1 := by
    unfold x1
    refine Keeps.after State.cmdEnd_keeps (by decide) ?_
    exact Keeps.refl _ _
  refine Keeps.ite ?_ ?_
  · exact hx1
  · refine Keeps.set_hif (by decide) ?_
    exact hx1

theorem State.hostDoorbell_keeps {s a2 a3} : Keeps [.regs, .hif, .out] s (State.hostDoorbell s a2 a3) := by
  unfold State.hostDoorbell
  refine Keeps.ite ?_ ?_
  · refine Keeps.after State.doorbell_keeps (by decide) ?_
    exact Keeps.refl _ _
  · exact Keeps.refl _ _

theorem execCmdDoorbell_keeps {a1 s} : Answers [.regs, .hif, .out] s (execCmdDoorbell a1 s) := by
  unfold execCmdDoorbell
  refine Answers.next ?_
  refine Keeps.after State.hostDoorbell_keeps (by decide) ?_
  exact Keeps.refl _ _

theorem execCplDoorbell_keeps {a1 s} : Answers [.regs, .hif, .out] s (execCplDoorbell a1 s) := by
  unfold execCplDoorbell
  refine Answers.next ?_
  refine Keeps.after State.hostDoorbell_keeps (by decide) ?_
  exact Keeps.refl _ _

theorem execEvDoorbell_keeps {a1 s} : Answers [.regs, .hif, .out] s (execEvDoorbell a1 s) := by
  unfold execEvDoorbell
  refine Answers.next ?_
  refine Keeps.after State.hostDoorbell_keeps (by decide) ?_
  exact Keeps.refl _ _

theorem execRecDoorbell_keeps {a1 a2 s} : Answers [.regs, .hif, .out] s (execRecDoorbell a1 a2 s) := by
  unfold execRecDoorbell
  refine Answers.next ?_
  refine Keeps.after State.hostDoorbell_keeps (by decide) ?_
  exact Keeps.refl _ _

theorem execRecIdxRead_keeps {a1 a2 a3 s} :
    Answers [.regs, .hif, .out, .reply, .free] s (execRecIdxRead a1 a2 a3 s) := by
  unfold execRecIdxRead
  refine Answers.next ?_
  refine State.readBy_keeps (by decide) ?_ ?_
  · exact Keeps.refl _ _
  · intro y1 y2
    split
    refine PairKeeps.mk ?_
    refine Keeps.of_pair (by assumption) ?_
    refine PairKeeps.after State.recIdx_keeps (by decide) ?_
    exact y2

theorem State.fetchAgain_keeps {s a2} : Keeps [.hif, .out] s (State.fetchAgain s a2) := by
  unfold State.fetchAgain
  extract_lets x1
  refine Keeps.ite ?_ ?_
  · refine Keeps.after State.emit_keeps (by decide) ?_
    refine Keeps.set_hif (by decide) ?_
    exact Keeps.refl _ _
  · refine Keeps.set_hif (by decide) ?_
    exact Keeps.refl _ _

theorem execDescriptorFetch_keeps {s} : Answers [.hif, .out] s (execDescriptorFetch s) := by
  unfold execDescriptorFetch
  extract_lets x1 x2
  split
  · refine Answers.next ?_
    refine Keeps.after State.fetchAgain_keeps (by decide) ?_
    exact Keeps.refl _ _
  · refine Answers.ite ?_ ?_
    · refine Answers.next ?_
      refine Keeps.after State.emit_keeps (by decide) ?_
      refine Keeps.set_hif (by decide) ?_
      exact Keeps.refl _ _
    · refine Answers.next ?_
      exact Keeps.refl _ _

theorem execDescriptorFetchDone_keeps {a1 s} : Answers [.regs, .hif, .out] s (execDescriptorFetchDone a1 s) := by
  unfold execDescriptorFetchDone
  split
  · refine Answers.next ?_
    exact Keeps.refl _ _
  · refine Answers.next ?_
    exact Keeps.refl _ _
  · split
    · extract_lets x1 x2 x3
      have hx1 : Keeps [.regs, .hif, .out] s x1 := by
        unfold x1
        refine Keeps.ite ?_ ?_
        · refine Keeps.after State.tally_keeps (by decide) ?_
          exact Keeps.refl _ _
        · exact Keeps.refl _ _
      have hx3 : Keeps [.regs, .hif, .out] s x3 := by
        unfold x3
        refine Keeps.set_hif (by decide) ?_
        exact hx1
      refine Answers.ite ?_ ?_
      · refine Answers.next ?_
        refine Keeps.after State.finish_keeps (by decide) ?_
        exact hx3
      · refine Answers.ite ?_ ?_
        · refine Answers.next ?_
          refine Keeps.after State.finish_keeps (by decide) ?_
          exact hx3
        · refine Answers.next ?_
          exact hx3
    · extract_lets x4 x5 x6
      have hx5 : Keeps [.regs, .hif, .out] s x5 := by
        unfold x5
        refine Keeps.set_hif (by decide) ?_
        exact Keeps.refl _ _
      have hx6 : Keeps [.regs, .hif, .out] s x6 := by
        unfold x6
        refine Keeps.after State.source_keeps (by decide) ?_
        refine Keeps.after State.setBit_keeps (by decide) ?_
        exact hx5
      refine Answers.ite ?_ ?_
      · refine Answers.next ?_
        refine Keeps.after State.complete_keeps (by decide) ?_
        exact hx6
      · refine Answers.next ?_
        refine Keeps.after State.fetchAgain_keeps (by decide) ?_
        exact Keeps.refl _ _

theorem State.drainN_keeps {a1 s} : Keeps [.regs, .hif, .out] s (State.drainN a1 s) := by
  induction a1 generalizing s
  · rw [State.drainN]
    exact Keeps.refl _ _
  · rename_i y ih
    rw [State.drainN]
    split
    · exact Keeps.refl _ _
    · extract_lets x1
      refine Keeps.ite ?_ ?_
      · refine Keeps.after ih (fun _ k => k) ?_
        refine Keeps.after State.evWrite_keeps (by decide) ?_
        refine Keeps.set_hif (by decide) ?_
        exact Keeps.refl _ _
      · exact Keeps.refl _ _

theorem State.drainEvents_keeps {s} : Keeps [.regs, .hif, .out] s (State.drainEvents s) := by
  unfold State.drainEvents
  extract_lets x1 x2
  have hx2 : Keeps [.regs, .hif, .out] s x2 := by
    unfold x2
    refine Keeps.ite ?_ ?_
    · refine Keeps.after State.evWrite_keeps (by decide) ?_
      refine Keeps.set_hif (by decide) ?_
      exact Keeps.refl _ _
    · exact Keeps.refl _ _
  refine Keeps.ite ?_ ?_
  · exact hx2
  · refine Keeps.after State.drainN_keeps (by decide) ?_
    exact hx2

theorem execEventHoldDrain_keeps {s} : Answers [.regs, .hif, .out] s (execEventHoldDrain s) := by
  unfold execEventHoldDrain
  refine Answers.next ?_
  refine Keeps.after State.drainEvents_keeps (by decide) ?_
  exact Keeps.refl _ _

theorem State.recWrite_keeps {s a2 a3 a4 a5} : Keeps [.regs, .hif, .out] s (State.recWrite s a2 a3 a4 a5) := by
  unfold State.recWrite
  refine Keeps.after State.recEnd_keeps (by decide) ?_
  refine Keeps.after State.recBegin_keeps (by decide) ?_
  exact Keeps.refl _ _

theorem execRecordPost_keeps {a1 a2 s} : Answers [.regs, .hif] s (execRecordPost a1 a2 s) := by
  unfold execRecordPost
  refine Answers.next ?_
  refine Keeps.ite ?_ ?_
  · refine Keeps.after State.post_keeps (by decide) ?_
    exact Keeps.refl _ _
  · exact Keeps.refl _ _

theorem execPostReadDone_keeps {a1 s} :
    Answers [.regs, .mem, .ecc, .hif, .cores, .coh, .out] s (execPostReadDone a1 s) := by
  unfold execPostReadDone
  split
  · refine Answers.next ?_
    exact Keeps.refl _ _
  · refine Answers.ite ?_ ?_
    · split
      extract_lets x1 x2 x3
      have hx2 : Keeps [.regs, .mem, .ecc, .hif, .cores, .coh, .out] s x2 := by
        unfold x2
        refine Keeps.set_hif (by decide) ?_
        refine Keeps.of_pair (by assumption) ?_
        refine PairKeeps.after State.readBody_keeps (by decide) ?_
        exact Keeps.refl _ _
      have hx3 : Keeps [.regs, .mem, .ecc, .hif, .cores, .coh, .out] s x3 := by
        unfold x3
        refine Keeps.after State.source_keeps (by decide) ?_
        refine Keeps.after State.setBit_keeps (by decide) ?_
        exact hx2
      refine Answers.next ?_
      refine Keeps.after State.recWrite_keeps (by decide) ?_
      exact hx3
    · refine Answers.next ?_
      exact Keeps.refl _ _

end Sys2Proof.Machine
end

