-- ==== Sys2Proof/Laws/Slots.lean ====
section
/-!
SUPPORT. Frames of Machine/Slots.lean: which parts of the state each of its operations and commands may change.
-/
namespace Sys2Proof.Machine

theorem State.dlvLatch_keeps {s a2 a3 a4} : Keeps [.kle] s (State.dlvLatch s a2 a3 a4) := by
  unfold State.dlvLatch
  extract_lets x1
  refine Keeps.set_kle (by decide) ?_
  exact Keeps.refl _ _

theorem State.setKs_keeps {s a2 a3} : Keeps [.kle] s (State.setKs s a2 a3) := by
  unfold State.setKs
  extract_lets x1
  refine Keeps.set_kle (by decide) ?_
  exact Keeps.refl _ _

theorem State.setSst_keeps {s a2 a3} : Keeps [.regs] s (State.setSst s a2 a3) := by
  unfold State.setSst
  refine Keeps.after State.setBit_keeps (by decide) ?_
  refine Keeps.after State.setBit_keeps (by decide) ?_
  refine Keeps.after State.setFld_keeps (by decide) ?_
  exact Keeps.refl _ _

theorem State.kleEvt_keeps {s a2 a3} : Keeps [.regs] s (State.kleEvt s a2 a3) := by
  unfold State.kleEvt
  extract_lets x1
  have hx1 : Keeps [.regs] s x1 := by
    unfold x1
    refine Keeps.after State.setBit_keeps (by decide) ?_
    exact Keeps.refl _ _
  refine Keeps.ite ?_ ?_
  · refine Keeps.after State.source_keeps (by decide) ?_
    exact hx1
  · exact hx1

theorem State.penShow_keeps {s a2 a3} : Keeps [.regs, .hif, .out] s (State.penShow s a2 a3) := by
  unfold State.penShow
  refine Keeps.after State.event_keeps (by decide) ?_
  refine Keeps.after State.kleEvt_keeps (by decide) ?_
  refine Keeps.after State.setFld_keeps (by decide) ?_
  exact Keeps.refl _ _

theorem State.injUndo_keeps {s a2} : Keeps [.regs] s (State.injUndo s a2) := by
  unfold State.injUndo
  split
  · refine Keeps.ite ?_ ?_
    · refine Keeps.after State.wr_keeps (by decide) ?_
      refine Keeps.after State.wr_keeps (by decide) ?_
      exact Keeps.refl _ _
    · exact Keeps.refl _ _
  · exact Keeps.refl _ _

theorem State.hatchClear_keeps {s a2} : Keeps [.regs, .hif, .kle, .out] s (State.hatchClear s a2) := by
  unfold State.hatchClear
  extract_lets x1 x2 x3 x4 x5
  have hx3 : Keeps [.regs, .hif, .kle, .out] s x3 := by
    unfold x3
    refine Keeps.ite ?_ ?_
    · refine Keeps.after State.injUndo_keeps (by decide) ?_
      exact Keeps.refl _ _
    · exact Keeps.refl _ _
  have hx4 : Keeps [.regs, .hif, .kle, .out] s x4 := by
    unfold x4
    refine Keeps.after State.wr_keeps (by decide) ?_
    refine Keeps.after State.setBit_keeps (by decide) ?_
    exact hx3
  have hx5 : Keeps [.regs, .hif, .kle, .out] s x5 := by
    unfold x5
    refine Keeps.after State.setKs_keeps (by decide) ?_
    exact hx4
  refine Keeps.ite ?_ ?_
  · refine Keeps.after State.finish_keeps (by decide) ?_
    exact hx5
  · exact hx5

theorem State.kleFree_keeps {s} : Keeps [.regs] s (State.kleFree s) := by
  unfold State.kleFree
  refine Keeps.after State.setBit_keeps (by decide) ?_
  exact Keeps.refl _ _

theorem State.blkSafe_keeps {s a2 a3} : Keeps [.regs, .cmp, .pwm] s (State.blkSafe s a2 a3) := by
  unfold State.blkSafe
  extract_lets x1
  refine Keeps.ite ?_ ?_
  · refine Keeps.forN ?_ ?_
    · exact Keeps.refl _ _
    · intro y2 y3 y4
      refine Keeps.ite ?_ ?_
      · refine Keeps.after State.pwmSafe_keeps (by decide) ?_
        exact y4
      · exact y4
  · exact Keeps.refl _ _

theorem State.slotSafe_keeps {s a2} : Keeps [.regs, .cmp, .pwm] s (State.slotSafe s a2) := by
  unfold State.slotSafe
  refine Keeps.forN ?_ ?_
  · exact Keeps.refl _ _
  · intro y1 y2 y3
    refine Keeps.after State.blkSafe_keeps (by decide) ?_
    exact y3

theorem State.slotStop_keeps {s a2 a3} : Keeps [.regs, .hif, .cmp, .pwm, .kle, .out] s (State.slotStop s a2 a3) := by
  unfold State.slotStop
  extract_lets x1 x2 x3 x4 x5 x6
  have hx1 : Keeps [.regs, .hif, .cmp, .pwm, .kle, .out] s x1 := by
    unfold x1
    refine Keeps.ite ?_ ?_
    · refine Keeps.after State.kleFree_keeps (by decide) ?_
      exact Keeps.refl _ _
    · exact Keeps.refl _ _
  have hx2 : Keeps [.regs, .hif, .cmp, .pwm, .kle, .out] s x2 := by
    unfold x2
    refine Keeps.after State.hatchClear_keeps (by decide) ?_
    exact hx1
  have hx5 : Keeps [.regs, .hif, .cmp, .pwm, .kle, .out] s x5 := by
    unfold x5
    refine Keeps.after State.setKs_keeps (by decide) ?_
    exact hx2
  have hx6 : Keeps [.regs, .hif, .cmp, .pwm, .kle, .out] s x6 := by
    unfold x6
    refine Keeps.after State.slotSafe_keeps (by decide) ?_
    exact hx5
  clear_value x3
  split
  · refine Keeps.after State.penShow_keeps (by decide) ?_
    refine Keeps.after State.setSst_keeps (by decide) ?_
    exact hx6
  · refine Keeps.after State.setSst_keeps (by decide) ?_
    exact hx6

theorem State.slotPen_keeps {s a2 a3} : Keeps [.regs, .hif, .cmp, .pwm, .kle, .out] s (State.slotPen s a2 a3) := by
  unfold State.slotPen
  extract_lets x1 x2
  have hx2 : Keeps [.regs, .hif, .cmp, .pwm, .kle, .out] s x2 := by
    unfold x2
    refine Keeps.after State.penShow_keeps (by decide) ?_
    refine Keeps.after State.slotStop_keeps (by decide) ?_
    exact Keeps.refl _ _
  refine Keeps.ite ?_ ?_
  · refine Keeps.after State.event_keeps (by decide) ?_
    exact hx2
  · exact hx2

theorem State.slotPenNext_keeps {s a2 a3} :
    Keeps [.regs, .hif, .cmp, .pwm, .kle, .out] s (State.slotPenNext s a2 a3) := by
  unfold State.slotPenNext
  extract_lets x1
  refine Keeps.ite ?_ ?_
  · refine Keeps.after State.setKs_keeps (by decide) ?_
    exact Keeps.refl _ _
  · refine Keeps.after State.slotPen_keeps (by decide) ?_
    exact Keeps.refl _ _

theorem State.slotOverrun_keeps {s a2} : Keeps [.regs, .hif, .cmp, .pwm, .kle, .out] s (State.slotOverrun s a2) := by
  unfold State.slotOverrun
  extract_lets x1 x2 x3 x4
  have hx1 : Keeps [.regs, .hif, .cmp, .pwm, .kle, .out] s x1 := by
    unfold x1
    refine Keeps.after State.setBit_keeps (by decide) ?_
    refine Keeps.after State.tally_keeps (by decide) ?_
    exact Keeps.refl _ _
  have hx2 : Keeps [.regs, .hif, .cmp, .pwm, .kle, .out] s x2 := by
    unfold x2
    refine Keeps.after State.event_keeps (by decide) ?_
    refine Keeps.after State.kleEvt_keeps (by decide) ?_
    exact hx1
  have hx4 : Keeps [.regs, .hif, .cmp, .pwm, .kle, .out] s x4 := by
    unfold x4
    refine Keeps.after State.setFld_keeps (by decide) ?_
    exact hx2
  refine Keeps.ite ?_ ?_
  · refine Keeps.after State.slotPenNext_keeps (by decide) ?_
    exact hx4
  · exact hx4

theorem State.slotHit_keeps {s a2} : Keeps [.regs, .hif, .cmp, .pwm, .kle, .out] s (State.slotHit s a2) := by
  unfold State.slotHit
  extract_lets x1
  refine Keeps.ite ?_ ?_
  · exact Keeps.refl _ _
  · refine Keeps.ite ?_ ?_
    · refine Keeps.ite ?_ ?_
      · refine Keeps.after State.slotOverrun_keeps (by decide) ?_
        exact Keeps.refl _ _
      · exact Keeps.refl _ _
    · refine Keeps.ite ?_ ?_
      · refine Keeps.after State.slotOverrun_keeps (by decide) ?_
        refine Keeps.after State.setKs_keeps (by decide) ?_
        exact Keeps.refl _ _
      · refine Keeps.after State.setSst_keeps (by decide) ?_
        refine Keeps.after State.setKs_keeps (by decide) ?_
        exact Keeps.refl _ _

theorem State.slotConv_keeps {s a2 a3} : Keeps [.regs, .hif, .cmp, .pwm, .kle, .out] s (State.slotConv s a2 a3) := by
  unfold State.slotConv
  extract_lets x1 x2
  have hx1 : Keeps [.regs, .hif, .cmp, .pwm, .kle, .out] s x1 := by
    unfold x1
    refine Keeps.after State.slotHit_keeps (by decide) ?_
    exact Keeps.refl _ _
  refine Keeps.ite ?_ ?_
  · refine Keeps.ite ?_ ?_
    · refine Keeps.after State.setKs_keeps (by decide) ?_
      exact hx1
    · exact hx1
  · exact Keeps.refl _ _

theorem State.slotProtect_keeps {s a2 a3} :
    Keeps [.regs, .hif, .cmp, .pwm, .kle, .out] s (State.slotProtect s a2 a3) := by
  unfold State.slotProtect
  extract_lets x1
  have hx1 : Keeps [.regs, .hif, .cmp, .pwm, .kle, .out] s x1 := by
    unfold x1
    refine Keeps.after State.slotStop_keeps (by decide) ?_
    exact Keeps.refl _ _
  refine Keeps.ite ?_ ?_
  · split
    · refine Keeps.after State.event_keeps (by decide) ?_
      exact hx1
    · exact hx1
  · exact Keeps.refl _ _

theorem State.slotsProtect_keeps {s a2} : Keeps [.regs, .hif, .cmp, .pwm, .kle, .out] s (State.slotsProtect s a2) := by
  unfold State.slotsProtect
  refine Keeps.forN ?_ ?_
  · exact Keeps.refl _ _
  · intro y1 y2 y3
    refine Keeps.after State.slotProtect_keeps (by decide) ?_
    exact y3

theorem State.penTake_keeps {s a2} : Keeps [.regs, .hif, .cmp, .pwm, .kle, .out] s (State.penTake s a2) := by
  unfold State.penTake
  split
  · refine Keeps.ite ?_ ?_
    · exact Keeps.refl _ _
    · refine Keeps.after State.slotPen_keeps (by decide) ?_
      exact Keeps.refl _ _
  · exact Keeps.refl _ _

theorem State.ctxPut_keeps {s a2 a3} : Keeps [.regs, .ecc] s (State.ctxPut s a2 a3) := by
  unfold State.ctxPut
  refine Keeps.after State.setEcc_keeps (by decide) ?_
  refine Keeps.after State.wr_keeps (by decide) ?_
  exact Keeps.refl _ _

theorem State.setLatch_keeps {s a2 a3 a4} : Keeps [.kle] s (State.setLatch s a2 a3 a4) := by
  unfold State.setLatch
  extract_lets x1
  refine Keeps.set_kle (by decide) ?_
  exact Keeps.refl _ _

theorem State.slotTrigger_keeps {s a2} : Keeps [.regs, .hif, .cmp, .pwm, .kle, .out] s (State.slotTrigger s a2) := by
  unfold State.slotTrigger
  refine Keeps.forN ?_ ?_
  · exact Keeps.refl _ _
  · intro y1 y2 y3
    refine Keeps.ite ?_ ?_
    · refine Keeps.after State.slotHit_keeps (by decide) ?_
      exact y3
    · exact y3

theorem State.rampsStop_keeps {s} : Keeps [.kle] s (State.rampsStop s) := by
  unfold State.rampsStop
  refine Keeps.forN ?_ ?_
  · exact Keeps.refl _ _
  · intro y1 y2 y3
    extract_lets x4
    refine Keeps.ite ?_ ?_
    · exact y3
    · refine Keeps.after State.setKs_keeps (by decide) ?_
      exact y3

theorem State.slotArm_keeps {s a2} : Keeps [.regs, .kle] s (State.slotArm s a2) := by
  unfold State.slotArm
  extract_lets x1 x2
  have hx2 : Keeps [.regs, .kle] s x2 := by
    unfold x2
    refine Keeps.after State.setKs_keeps (by decide) ?_
    exact Keeps.refl _ _
  refine Keeps.ite ?_ ?_
  · exact Keeps.refl _ _
  · refine Keeps.after State.setSst_keeps (by decide) ?_
    exact hx2

theorem State.ctxClear_keeps {s a2} : Keeps [.regs, .ecc] s (State.ctxClear s a2) := by
  unfold State.ctxClear
  extract_lets x1 x2 x3
  have hx3 : Keeps [.regs, .ecc] s x3 := by
    unfold x3
    refine Keeps.set_regs (by decide) (Tab.wf_tkeep _) ?_
    exact Keeps.refl _ _
  refine Keeps.set_ecc (by decide) (Tab.wf_tkeep _) ?_
  exact hx3

theorem State.slotResetNow_keeps {s a2} :
    Keeps [.regs, .ecc, .hif, .cmp, .pwm, .kle, .out] s (State.slotResetNow s a2) := by
  unfold State.slotResetNow
  extract_lets x1 x2 x3 x4 x5
  have hx2 : Keeps [.regs, .ecc, .hif, .cmp, .pwm, .kle, .out] s x2 := by
    unfold x2
    refine Keeps.after State.slotStop_keeps (by decide) ?_
    exact Keeps.refl _ _
  have hx3 : Keeps [.regs, .ecc, .hif, .cmp, .pwm, .kle, .out] s x3 := by
    unfold x3
    refine Keeps.after State.setFld_keeps (by decide) ?_
    refine Keeps.after State.setBit_keeps (by decide) ?_
    exact hx2
  have hx4 : Keeps [.regs, .ecc, .hif, .cmp, .pwm, .kle, .out] s x4 := by
    unfold x4
    refine Keeps.after State.ctxClear_keeps (by decide) ?_
    exact hx3
  refine Keeps.after State.setKs_keeps (by decide) ?_
  exact hx4

theorem State.slotReset_keeps {s a2} : Keeps [.regs, .ecc, .hif, .cmp, .pwm, .kle, .out] s (State.slotReset s a2) := by
  unfold State.slotReset
  extract_lets x1
  refine Keeps.ite ?_ ?_
  · refine Keeps.after State.setKs_keeps (by decide) ?_
    exact Keeps.refl _ _
  · refine Keeps.after State.slotResetNow_keeps (by decide) ?_
    exact Keeps.refl _ _

theorem State.slotAdmit_keeps {s a2} : Keeps [.regs] s (State.slotAdmit s a2) := by
  unfold State.slotAdmit
  extract_lets x1 x2
  have hx1 : Keeps [.regs] s x1 := by
    unfold x1
    refine Keeps.after State.setFld_keeps (by decide) ?_
    refine Keeps.after State.setFld_keeps (by decide) ?_
    exact Keeps.refl _ _
  have hx2 : Keeps [.regs] s x2 := by
    unfold x2
    refine Keeps.after State.wr_keeps (by decide) ?_
    exact hx1
  refine Keeps.after State.setSst_keeps (by decide) ?_
  exact hx2

theorem State.hostLossSlot_keeps {s a2} : Keeps [.regs, .kle] s (State.hostLossSlot s a2) := by
  unfold State.hostLossSlot
  extract_lets x1 x2 x3 x4
  refine Keeps.ite ?_ ?_
  · exact Keeps.refl _ _
  · refine Keeps.ite ?_ ?_
    · exact Keeps.refl _ _
    · refine Keeps.ite ?_ ?_
      · refine Keeps.ite ?_ ?_
        · refine Keeps.after State.setKs_keeps (by decide) ?_
          exact Keeps.refl _ _
        · refine Keeps.after State.setKs_keeps (by decide) ?_
          refine Keeps.after State.setBit_keeps (by decide) ?_
          exact Keeps.refl _ _
      · refine Keeps.after State.setKs_keeps (by decide) ?_
        exact Keeps.refl _ _

theorem State.hostLossSlots_keeps {s} : Keeps [.regs, .kle] s (State.hostLossSlots s) := by
  unfold State.hostLossSlots
  refine Keeps.forN ?_ ?_
  · exact Keeps.refl _ _
  · intro y1 y2 y3
    refine Keeps.after State.hostLossSlot_keeps (by decide) ?_
    exact y3

theorem execHostLossPolicyApply_keeps {a1 s} :
    Answers [.regs, .hif, .cmp, .pwm, .kle, .out] s (execHostLossPolicyApply a1 s) := by
  unfold execHostLossPolicyApply
  extract_lets x1 x2
  have hx2 : Keeps [.regs, .hif, .cmp, .pwm, .kle, .out] s x2 := by
    unfold x2
    refine Keeps.after State.setKs_keeps (by decide) ?_
    exact Keeps.refl _ _
  refine Answers.ite ?_ ?_
  · refine Answers.next ?_
    refine Keeps.ite ?_ ?_
    · refine Keeps.after State.slotProtect_keeps (by decide) ?_
      exact hx2
    · exact hx2
  · refine Answers.next ?_
    exact Keeps.refl _ _

end Sys2Proof.Machine
end

