-- ==== Sys2Proof/Laws/Analog.lean ====
section
/-!
SUPPORT. Frames of Machine/Analog.lean: which parts of the state each of its operations and commands may change.
-/
namespace Sys2Proof.Machine

theorem State.setAd_keeps {s a2 a3} : Keeps [.adc] s (State.setAd s a2 a3) := by
  unfold State.setAd
  refine Keeps.set_adc (by decide) ?_
  exact Keeps.refl _ _

theorem State.setSd_keeps {s a2 a3} : Keeps [.sd] s (State.setSd s a2 a3) := by
  unfold State.setSd
  refine Keeps.set_sd (by decide) ?_
  exact Keeps.refl _ _

theorem State.setQd_keeps {s a2 a3} : Keeps [.qd] s (State.setQd s a2 a3) := by
  unfold State.setQd
  refine Keeps.set_qd (by decide) ?_
  exact Keeps.refl _ _

theorem State.seqFire_keeps {s a2 a3 a4} : Keeps [.regs, .adc] s (State.seqFire s a2 a3 a4) := by
  unfold State.seqFire
  extract_lets x1
  refine Keeps.ite ?_ ?_
  · exact Keeps.refl _ _
  · refine Keeps.ite ?_ ?_
    · refine Keeps.after State.tally_keeps (by decide) ?_
      exact Keeps.refl _ _
    · refine Keeps.after State.setAd_keeps (by decide) ?_
      exact Keeps.refl _ _

theorem State.adcFire_keeps {s a2 a3} : Keeps [.regs, .adc] s (State.adcFire s a2 a3) := by
  unfold State.adcFire
  refine Keeps.ite ?_ ?_
  · refine Keeps.forN ?_ ?_
    · exact Keeps.refl _ _
    · intro y1 y2 y3
      refine Keeps.after State.seqFire_keeps (by decide) ?_
      exact y3
  · exact Keeps.refl _ _

theorem State.sdFire_keeps {s a2 a3} : Keeps [.sd] s (State.sdFire s a2 a3) := by
  unfold State.sdFire
  extract_lets x1
  refine Keeps.ite ?_ ?_
  · refine Keeps.after State.setSd_keeps (by decide) ?_
    exact Keeps.refl _ _
  · exact Keeps.refl _ _

theorem State.qdFire_keeps {s a2 a3} : Keeps [.qd] s (State.qdFire s a2 a3) := by
  unfold State.qdFire
  extract_lets x1
  refine Keeps.ite ?_ ?_
  · refine Keeps.after State.setQd_keeps (by decide) ?_
    exact Keeps.refl _ _
  · exact Keeps.refl _ _

theorem State.trigger_keeps {s a2} : Keeps [.regs, .adc, .sd, .qd] s (State.trigger s a2) := by
  unfold State.trigger
  extract_lets x1 x2
  have hx1 : Keeps [.regs, .adc, .sd, .qd] s x1 := by
    unfold x1
    refine Keeps.forN ?_ ?_
    · exact Keeps.refl _ _
    · intro y3 y4 y5
      refine Keeps.after State.adcFire_keeps (by decide) ?_
      exact y5
  have hx2 : Keeps [.regs, .adc, .sd, .qd] s x2 := by
    unfold x2
    refine Keeps.forN ?_ ?_
    · exact hx1
    · intro y6 y7 y8
      refine Keeps.after State.sdFire_keeps (by decide) ?_
      exact y8
  refine Keeps.forN ?_ ?_
  · exact hx2
  · intro y9 y10 y11
    refine Keeps.after State.qdFire_keeps (by decide) ?_
    exact y11

theorem execAdcTrigger_keeps {a1 a2 a3 a4 s} : Answers [.regs, .adc] s (execAdcTrigger a1 a2 a3 a4 s) := by
  unfold execAdcTrigger
  extract_lets x1 x2 x3
  refine Answers.ite ?_ ?_
  · refine Answers.next ?_
    exact Keeps.refl _ _
  · refine Answers.ite ?_ ?_
    · refine Answers.next ?_
      refine Keeps.after State.tally_keeps (by decide) ?_
      refine Keeps.after State.setAd_keeps (by decide) ?_
      exact Keeps.refl _ _
    · refine Answers.next ?_
      refine Keeps.after State.setAd_keeps (by decide) ?_
      exact Keeps.refl _ _

theorem State.adcSwtrig_keeps {s a2} : Keeps [.regs, .adc] s (State.adcSwtrig s a2) := by
  unfold State.adcSwtrig
  refine Keeps.forN ?_ ?_
  · exact Keeps.refl _ _
  · intro y1 y2 y3
    refine Keeps.ite ?_ ?_
    · refine Keeps.after State.adcFire_keeps (by decide) ?_
      exact y3
    · exact y3

theorem execAdcSwtrig_keeps {a1 s} : Answers [.regs, .adc] s (execAdcSwtrig a1 s) := by
  unfold execAdcSwtrig
  refine Answers.next ?_
  refine Keeps.after State.adcSwtrig_keeps (by decide) ?_
  exact Keeps.refl _ _

theorem State.adcStep_keeps {s a2 a3} : Keeps [.regs, .adc] s (State.adcStep s a2 a3) := by
  unfold State.adcStep
  extract_lets x1 x2 x3 x4 x5 x6 x7 x8
  have hx7 : Keeps [.regs, .adc] s x7 := by
    unfold x7
    split
    · refine Keeps.after State.wr_keeps (by decide) ?_
      refine Keeps.after State.wr_keeps (by decide) ?_
      exact Keeps.refl _ _
    · exact Keeps.refl _ _
  have hx8 : Keeps [.regs, .adc] s x8 := by
    unfold x8
    refine Keeps.ite ?_ ?_
    · refine Keeps.after State.tally_keeps (by decide) ?_
      refine Keeps.after State.setBit_keeps (by decide) ?_
      exact hx7
    · exact hx7
  refine Keeps.after State.setAd_keeps (by decide) ?_
  exact hx8

theorem State.adcSample_keeps {s a2} : Keeps [.regs, .adc] s (State.adcSample s a2) := by
  unfold State.adcSample
  extract_lets x1
  refine Keeps.ite ?_ ?_
  · exact Keeps.refl _ _
  · split
    · refine Keeps.after State.setAd_keeps (by decide) ?_
      exact Keeps.refl _ _
    · refine Keeps.after State.adcStep_keeps (by decide) ?_
      exact Keeps.refl _ _
    · exact Keeps.refl _ _

theorem execAdcSample_keeps {a1 s} : Answers [.regs, .adc] s (execAdcSample a1 s) := by
  unfold execAdcSample
  refine Answers.next ?_
  refine Keeps.after State.adcSample_keeps (by decide) ?_
  exact Keeps.refl _ _

theorem State.latchDeliver_keeps {s a2 a3 a4 a5} : Keeps [.regs, .kle] s (State.latchDeliver s a2 a3 a4 a5) := by
  unfold State.latchDeliver
  extract_lets x1
  have hx1 : Keeps [.regs, .kle] s x1 := by
    unfold x1
    split
    · refine Keeps.ite ?_ ?_
      · refine Keeps.after State.tally_keeps (by decide) ?_
        exact Keeps.refl _ _
      · exact Keeps.refl _ _
    · exact Keeps.refl _ _
  refine Keeps.after State.dlvLatch_keeps (by decide) ?_
  exact hx1

theorem State.route_keeps {s a2 a3 a4 a5 a6 a7 a8} :
    Keeps [.regs, .hif, .pool, .cmp, .pwm, .kle, .out, .free] s (State.route s a2 a3 a4 a5 a6 a7 a8) := by
  unfold State.route
  extract_lets x1 x2 x3
  have hx2 : Keeps [.regs, .hif, .pool, .cmp, .pwm, .kle, .out, .free] s x2 := by
    unfold x2
    refine Keeps.ite ?_ ?_
    · refine Keeps.after State.latchDeliver_keeps (by decide) ?_
      exact Keeps.refl _ _
    · exact Keeps.refl _ _
  have hx3 : Keeps [.regs, .hif, .pool, .cmp, .pwm, .kle, .out, .free] s x3 := by
    unfold x3
    refine Keeps.ite ?_ ?_
    · refine Keeps.of_snd ?_
      refine PairKeeps.after State.stage_keeps (by decide) ?_
      exact hx2
    · exact hx2
  refine Keeps.ite ?_ ?_
  · refine Keeps.after State.slotConv_keeps (by decide) ?_
    exact hx3
  · exact hx3

theorem State.adcFifoPut_keeps {s a2 a3} : Keeps [.regs, .adc] s (State.adcFifoPut s a2 a3) := by
  unfold State.adcFifoPut
  extract_lets x1 x2
  have hx2 : Keeps [.regs, .adc] s x2 := by
    unfold x2
    refine Keeps.after State.setAd_keeps (by decide) ?_
    exact Keeps.refl _ _
  refine Keeps.ite ?_ ?_
  · refine Keeps.after State.tally_keeps (by decide) ?_
    refine Keeps.after State.setBit_keeps (by decide) ?_
    exact Keeps.refl _ _
  · refine Keeps.ite ?_ ?_
    · refine Keeps.after State.source_keeps (by decide) ?_
      exact hx2
    · exact hx2

theorem State.adcDeliver_keeps {s a2 a3 a4 a5 a6} :
    Keeps [.regs, .hif, .pool, .adc, .cmp, .pwm, .kle, .out, .free] s (State.adcDeliver s a2 a3 a4 a5 a6) := by
  unfold State.adcDeliver
  extract_lets x1 x2 x3
  have hx3 : Keeps [.regs, .hif, .pool, .adc, .cmp, .pwm, .kle, .out, .free] s x3 := by
    unfold x3
    refine Keeps.ite ?_ ?_
    · refine Keeps.after State.adcFifoPut_keeps (by decide) ?_
      exact Keeps.refl _ _
    · exact Keeps.refl _ _
  refine Keeps.after State.route_keeps (by decide) ?_
  exact hx3

theorem State.adcStepEnd_keeps {s a2 a3} : Keeps [.regs, .adc] s (State.adcStepEnd s a2 a3) := by
  unfold State.adcStepEnd
  extract_lets x1 x2 x3
  have hx3 : Keeps [.regs, .adc] s x3 := by
    unfold x3
    refine Keeps.after State.setAd_keeps (by decide) ?_
    exact Keeps.refl _ _
  refine Keeps.ite ?_ ?_
  · refine Keeps.after State.setAd_keeps (by decide) ?_
    exact Keeps.refl _ _
  · refine Keeps.ite ?_ ?_
    · refine Keeps.after State.setAd_keeps (by decide) ?_
      exact Keeps.refl _ _
    · refine Keeps.ite ?_ ?_
      · refine Keeps.after State.source_keeps (by decide) ?_
        exact hx3
      · exact hx3

theorem execAdcConversionEnd_keeps {a1 a2 s} :
    Answers [.regs, .hif, .pool, .adc, .cmp, .pwm, .kle, .out, .free] s (execAdcConversionEnd a1 a2 s) := by
  unfold execAdcConversionEnd
  extract_lets x1
  split
  · refine Answers.next ?_
    exact Keeps.refl _ _
  · extract_lets x2 x3 x4
    refine Answers.ite ?_ ?_
    · refine Answers.next ?_
      exact Keeps.refl _ _
    · refine Answers.ite ?_ ?_
      · refine Answers.next ?_
        refine Keeps.after State.setAd_keeps (by decide) ?_
        exact Keeps.refl _ _
      · refine Answers.next ?_
        refine Keeps.after State.adcStepEnd_keeps (by decide) ?_
        refine Keeps.after State.adcDeliver_keeps (by decide) ?_
        exact Keeps.refl _ _

theorem State.adcFifoGet_keeps {s a2 a3} : PairKeeps [.adc] s (State.adcFifoGet s a2 a3) := by
  unfold State.adcFifoGet
  extract_lets x1
  refine PairKeeps.ite ?_ ?_
  · refine PairKeeps.mk ?_
    exact Keeps.refl _ _
  · refine PairKeeps.mk ?_
    refine Keeps.after State.setAd_keeps (by decide) ?_
    exact Keeps.refl _ _

theorem execAdcFifoRead_keeps {a1 a2 a3 s} :
    Answers [.hif, .adc, .out, .reply, .free] s (execAdcFifoRead a1 a2 a3 s) := by
  unfold execAdcFifoRead
  refine Answers.next ?_
  refine State.readBy_keeps (by decide) ?_ ?_
  · exact Keeps.refl _ _
  · intro y1 y2
    split
    refine PairKeeps.mk ?_
    refine Keeps.of_pair (by assumption) ?_
    refine PairKeeps.after State.adcFifoGet_keeps (by decide) ?_
    exact y2

theorem State.seqOff_keeps {s a2 a3} : Keeps [.adc] s (State.seqOff s a2 a3) := by
  unfold State.seqOff
  extract_lets x1
  refine Keeps.after State.setAd_keeps (by decide) ?_
  exact Keeps.refl _ _

theorem State.adccalEnd_keeps {s} : Keeps [.regs, .hif, .out] s (State.adccalEnd s) := by
  unfold State.adccalEnd
  split
  · refine Keeps.ite ?_ ?_
    · refine Keeps.after State.finish_keeps (by decide) ?_
      exact Keeps.refl _ _
    · exact Keeps.refl _ _
  · exact Keeps.refl _ _

theorem State.calEnd_keeps {s a2 a3 a4} : Keeps [.regs, .hif, .out] s (State.calEnd s a2 a3 a4) := by
  unfold State.calEnd
  extract_lets x1 x2 x3
  have hx1 : Keeps [.regs, .hif, .out] s x1 := by
    unfold x1
    refine Keeps.after State.setBit_keeps (by decide) ?_
    exact Keeps.refl _ _
  have hx3 : Keeps [.regs, .hif, .out] s x3 := by
    unfold x3
    split
    · refine Keeps.set_hif (by decide) ?_
      exact hx1
    · exact hx1
  refine Keeps.after State.adccalEnd_keeps (by decide) ?_
  exact hx3

theorem execAdcCalibrationStep_keeps {a1 a2 a3 a4 s} :
    Answers [.regs, .hif, .adc, .out] s (execAdcCalibrationStep a1 a2 a3 a4 s) := by
  unfold execAdcCalibrationStep
  extract_lets x1 x2 x3 x4
  have hx3 : Keeps [.regs, .hif, .adc, .out] s x3 := by
    unfold x3
    refine Keeps.ite ?_ ?_
    · refine Keeps.after State.adcSample_keeps (by decide) ?_
      exact Keeps.refl _ _
    · exact Keeps.refl _ _
  split
  · refine Answers.next ?_
    exact Keeps.refl _ _
  · extract_lets x5
    refine Answers.ite ?_ ?_
    · refine Answers.next ?_
      exact Keeps.refl _ _
    · refine Answers.ite ?_ ?_
      · refine Answers.next ?_
        refine Keeps.after State.calEnd_keeps (by decide) ?_
        refine Keeps.after State.setAd_keeps (by decide) ?_
        exact hx3
      · refine Answers.ite ?_ ?_
        · refine Answers.next ?_
          refine Keeps.after State.calEnd_keeps (by decide) ?_
          refine Keeps.after State.setAd_keeps (by decide) ?_
          exact hx3
        · refine Answers.next ?_
          refine Keeps.after State.setAd_keeps (by decide) ?_
          exact hx3

theorem State.proofStart_keeps {s a2} : Keeps [.regs, .adc] s (State.proofStart s a2) := by
  unfold State.proofStart
  extract_lets x1
  refine Keeps.ite ?_ ?_
  · exact Keeps.refl _ _
  · refine Keeps.after State.setBit_keeps (by decide) ?_
    refine Keeps.after State.setBit_keeps (by decide) ?_
    refine Keeps.after State.setAd_keeps (by decide) ?_
    exact Keeps.refl _ _

theorem State.adcProof_keeps {s a2} : Keeps [.regs, .adc] s (State.adcProof s a2) := by
  unfold State.adcProof
  refine Keeps.ite ?_ ?_
  · refine Keeps.ite ?_ ?_
    · exact Keeps.refl _ _
    · refine Keeps.after State.wlrej_keeps (by decide) ?_
      exact Keeps.refl _ _
  · refine Keeps.forN ?_ ?_
    · exact Keeps.refl _ _
    · intro y1 y2 y3
      refine Keeps.ite ?_ ?_
      · refine Keeps.after State.proofStart_keeps (by decide) ?_
        exact y3
      · exact y3

theorem execAdcProof_keeps {a1 s} : Answers [.regs, .adc] s (execAdcProof a1 s) := by
  unfold execAdcProof
  refine Answers.next ?_
  refine Keeps.ite ?_ ?_
  · refine Keeps.after State.adcProof_keeps (by decide) ?_
    exact Keeps.refl _ _
  · exact Keeps.refl _ _

theorem State.proofEnd_keeps {s a2 a3 a4} : Keeps [.regs] s (State.proofEnd s a2 a3 a4) := by
  unfold State.proofEnd
  extract_lets x1
  have hx1 : Keeps [.regs] s x1 := by
    unfold x1
    refine Keeps.after State.setBit_keeps (by decide) ?_
    refine Keeps.after State.setBit_keeps (by decide) ?_
    exact Keeps.refl _ _
  refine Keeps.ite ?_ ?_
  · exact hx1
  · refine Keeps.after State.setBit_keeps (by decide) ?_
    exact hx1

theorem execAdcProofConversion_keeps {a1 a2 s} : Answers [.regs, .adc] s (execAdcProofConversion a1 a2 s) := by
  unfold execAdcProofConversion
  extract_lets x1 x2 x3 x4
  have hx2 : Keeps [.regs, .adc] s x2 := by
    unfold x2
    refine Keeps.ite ?_ ?_
    · refine Keeps.after State.adcSample_keeps (by decide) ?_
      exact Keeps.refl _ _
    · exact Keeps.refl _ _
  split
  · refine Answers.next ?_
    exact Keeps.refl _ _
  · extract_lets x5 x6 x7
    refine Answers.ite ?_ ?_
    · refine Answers.next ?_
      exact Keeps.refl _ _
    · refine Answers.ite ?_ ?_
      · refine Answers.next ?_
        refine Keeps.after State.proofEnd_keeps (by decide) ?_
        refine Keeps.after State.setAd_keeps (by decide) ?_
        exact hx2
      · refine Answers.ite ?_ ?_
        · refine Answers.next ?_
          refine Keeps.after State.proofEnd_keeps (by decide) ?_
          refine Keeps.after State.setAd_keeps (by decide) ?_
          exact hx2
        · refine Answers.next ?_
          refine Keeps.after State.setAd_keeps (by decide) ?_
          exact hx2

theorem State.sdStatus_keeps {s a2} : Keeps [.regs] s (State.sdStatus s a2) := by
  unfold State.sdStatus
  refine Keeps.after State.source_keeps (by decide) ?_
  refine Keeps.after State.setBit_keeps (by decide) ?_
  exact Keeps.refl _ _

theorem execSinc3Result_keeps {a1 a2 a3 s} :
    Answers [.regs, .hif, .pool, .sd, .cmp, .pwm, .kle, .out, .free] s (execSinc3Result a1 a2 a3 s) := by
  unfold execSinc3Result
  extract_lets x1 x2 x3 x4 x5 x6 x7
  have hx5 : Keeps [.regs, .hif, .pool, .sd, .cmp, .pwm, .kle, .out, .free] s x5 := by
    unfold x5
    refine Keeps.ite ?_ ?_
    · exact Keeps.refl _ _
    · refine Keeps.after State.sdStatus_keeps (by decide) ?_
      exact Keeps.refl _ _
  have hx7 : Keeps [.regs, .hif, .pool, .sd, .cmp, .pwm, .kle, .out, .free] s x7 := by
    unfold x7
    refine Keeps.after State.setSd_keeps (by decide) ?_
    refine Keeps.after State.setFld_keeps (by decide) ?_
    exact hx5
  refine Answers.ite ?_ ?_
  · refine Answers.next ?_
    exact Keeps.refl _ _
  · refine Answers.next ?_
    refine Keeps.after State.route_keeps (by decide) ?_
    exact hx7

theorem execSdSync_keeps {a1 a2 s} : Answers [.sd] s (execSdSync a1 a2 s) := by
  unfold execSdSync
  extract_lets x1
  refine Answers.ite ?_ ?_
  · refine Answers.next ?_
    refine Keeps.after State.setSd_keeps (by decide) ?_
    exact Keeps.refl _ _
  · refine Answers.next ?_
    exact Keeps.refl _ _

theorem State.swsync_keeps {s a2} : Keeps [.sd] s (State.swsync s a2) := by
  unfold State.swsync
  refine Keeps.forN ?_ ?_
  · exact Keeps.refl _ _
  · intro y1 y2 y3
    refine Keeps.ite ?_ ?_
    · refine Keeps.after State.sdFire_keeps (by decide) ?_
      exact y3
    · exact y3

theorem execSwsync_keeps {a1 s} : Answers [.sd] s (execSwsync a1 s) := by
  unfold execSwsync
  refine Answers.next ?_
  refine Keeps.after State.swsync_keeps (by decide) ?_
  exact Keeps.refl _ _

theorem execSdtTrip_keeps {a1 a2 s} : Answers [.sd] s (execSdtTrip a1 a2 s) := by
  unfold execSdtTrip
  extract_lets x1 x2
  refine Answers.ite ?_ ?_
  · refine Answers.next ?_
    refine Keeps.after State.setSd_keeps (by decide) ?_
    exact Keeps.refl _ _
  · refine Answers.next ?_
    exact Keeps.refl _ _

theorem execSdClkmiss_keeps {a1 s} : Answers [.regs] s (execSdClkmiss a1 s) := by
  unfold execSdClkmiss
  refine Answers.ite ?_ ?_
  · refine Answers.next ?_
    refine Keeps.after State.sdStatus_keeps (by decide) ?_
    exact Keeps.refl _ _
  · refine Answers.next ?_
    exact Keeps.refl _ _

theorem execSdStuck_keeps {a1 a2 s} : Answers [.regs] s (execSdStuck a1 a2 s) := by
  unfold execSdStuck
  extract_lets x1
  refine Answers.ite ?_ ?_
  · refine Answers.next ?_
    refine Keeps.after State.sdStatus_keeps (by decide) ?_
    exact Keeps.refl _ _
  · refine Answers.next ?_
    exact Keeps.refl _ _

theorem execComparatorActive_keeps {a1 a2 a3 s} : Answers [.regs, .cmp] s (execComparatorActive a1 a2 a3 s) := by
  unfold execComparatorActive
  extract_lets x1 x2 x3 x4
  have hx3 : Keeps [.regs, .cmp] s x3 := by
    unfold x3
    refine Keeps.after State.setBit_keeps (by decide) ?_
    exact Keeps.refl _ _
  refine Answers.ite ?_ ?_
  · refine Answers.next ?_
    exact Keeps.refl _ _
  · refine Answers.ite ?_ ?_
    · refine Answers.next ?_
      refine Keeps.after State.setCmp_keeps (by decide) ?_
      exact hx3
    · refine Answers.ite ?_ ?_
      · refine Answers.next ?_
        exact hx3
      · refine Answers.next ?_
        refine Keeps.after State.cmpAssert_keeps (by decide) ?_
        exact hx3

theorem execBlankingEnd_keeps {a1 s} : Answers [.regs, .cmp] s (execBlankingEnd a1 s) := by
  unfold execBlankingEnd
  extract_lets x1 x2
  have hx2 : Keeps [.regs, .cmp] s x2 := by
    unfold x2
    refine Keeps.after State.setCmp_keeps (by decide) ?_
    exact Keeps.refl _ _
  refine Answers.ite ?_ ?_
  · refine Answers.next ?_
    exact Keeps.refl _ _
  · refine Answers.next ?_
    refine Keeps.ite ?_ ?_
    · refine Keeps.after State.cmpAssert_keeps (by decide) ?_
      exact hx2
    · exact hx2

theorem State.cmpThr_keeps {s a2 a3} : Keeps [.regs, .cmp] s (State.cmpThr s a2 a3) := by
  unfold State.cmpThr
  refine Keeps.after State.cmpBlank_keeps (by decide) ?_
  refine Keeps.after State.wr_keeps (by decide) ?_
  exact Keeps.refl _ _

theorem execCmpThrWrite_keeps {a1 a2 s} : Answers [.regs, .cmp] s (execCmpThrWrite a1 a2 s) := by
  unfold execCmpThrWrite
  refine Answers.next ?_
  refine Keeps.ite ?_ ?_
  · refine Keeps.after State.cmpThr_keeps (by decide) ?_
    exact Keeps.refl _ _
  · exact Keeps.refl _ _

theorem State.cmpOff_keeps {s a2} : Keeps [.regs, .cmp] s (State.cmpOff s a2) := by
  unfold State.cmpOff
  extract_lets x1
  refine Keeps.after State.setBit_keeps (by decide) ?_
  refine Keeps.after State.setCmp_keeps (by decide) ?_
  exact Keeps.refl _ _

theorem State.cmpProof_keeps {s a2 a3} : Keeps [.regs] s (State.cmpProof s a2 a3) := by
  unfold State.cmpProof
  refine Keeps.ite ?_ ?_
  · refine Keeps.ite ?_ ?_
    · exact Keeps.refl _ _
    · refine Keeps.after State.wlrej_keeps (by decide) ?_
      exact Keeps.refl _ _
  · refine Keeps.forN ?_ ?_
    · exact Keeps.refl _ _
    · intro y1 y2 y3
      refine Keeps.ite ?_ ?_
      · exact y3
      · refine Keeps.ite ?_ ?_
        · refine Keeps.after State.setBit_keeps (by decide) ?_
          exact y3
        · refine Keeps.after State.setBit_keeps (by decide) ?_
          exact y3

theorem execCmpProof_keeps {a1 a2 s} : Answers [.regs] s (execCmpProof a1 a2 s) := by
  unfold execCmpProof
  refine Answers.next ?_
  refine Keeps.ite ?_ ?_
  · refine Keeps.after State.cmpProof_keeps (by decide) ?_
    exact Keeps.refl _ _
  · exact Keeps.refl _ _

end Sys2Proof.Machine
end

