-- ==== Sys2Proof/Laws/Capture.lean ====
section
/-!
SUPPORT. Frames of Machine/Capture.lean: which parts of the state each of its operations and commands may change.
-/
namespace Sys2Proof.Machine

theorem State.setCp_keeps {s a2 a3} : Keeps [.cap] s (State.setCp s a2 a3) := by
  unfold State.setCp
  refine Keeps.set_cap (by decide) ?_
  exact Keeps.refl _ _

theorem State.capPop_keeps {s a2} : Keeps [.regs, .cap] s (State.capPop s a2) := by
  unfold State.capPop
  extract_lets x1
  refine Keeps.after State.setFld_keeps (by decide) ?_
  refine Keeps.after State.setCp_keeps (by decide) ?_
  exact Keeps.refl _ _

theorem State.capRead_keeps {s a2 a3} : PairKeeps [.regs, .cap] s (State.capRead s a2 a3) := by
  unfold State.capRead
  refine PairKeeps.ite ?_ ?_
  · refine PairKeeps.mk ?_
    exact Keeps.refl _ _
  · refine PairKeeps.mk ?_
    refine Keeps.after State.capPop_keeps (by decide) ?_
    exact Keeps.refl _ _

theorem State.capArm_keeps {s a2 a3} : Keeps [.cap] s (State.capArm s a2 a3) := by
  unfold State.capArm
  extract_lets x1
  refine Keeps.ite ?_ ?_
  · refine Keeps.after State.setCp_keeps (by decide) ?_
    exact Keeps.refl _ _
  · exact Keeps.refl _ _

theorem State.capEnable_keeps {s a2} : Keeps [.cap] s (State.capEnable s a2) := by
  unfold State.capEnable
  extract_lets x1
  refine Keeps.after State.setCp_keeps (by decide) ?_
  exact Keeps.refl _ _

theorem State.qdEnable_keeps {s a2} : Keeps [.qd] s (State.qdEnable s a2) := by
  unfold State.qdEnable
  extract_lets x1
  refine Keeps.after State.setQd_keeps (by decide) ?_
  exact Keeps.refl _ _

theorem State.capStore_keeps {s a2 a3} : Keeps [.regs, .cap] s (State.capStore s a2 a3) := by
  unfold State.capStore
  extract_lets x1 x2 x3 x4
  have hx4 : Keeps [.regs, .cap] s x4 := by
    unfold x4
    refine Keeps.after State.setFld_keeps (by decide) ?_
    refine Keeps.after State.setCp_keeps (by decide) ?_
    exact Keeps.refl _ _
  refine Keeps.ite ?_ ?_
  · refine Keeps.after State.setBit_keeps (by decide) ?_
    refine Keeps.after State.tally_keeps (by decide) ?_
    refine Keeps.after State.setCp_keeps (by decide) ?_
    exact Keeps.refl _ _
  · refine Keeps.ite ?_ ?_
    · refine Keeps.after State.source_keeps (by decide) ?_
      exact hx4
    · exact hx4

theorem State.capPaired_keeps {s a2 a3} : Keeps [.regs, .cap] s (State.capPaired s a2 a3) := by
  unfold State.capPaired
  extract_lets x1
  refine Keeps.after State.capStore_keeps (by decide) ?_
  refine Keeps.after State.setCp_keeps (by decide) ?_
  exact Keeps.refl _ _

theorem State.capStart_keeps {s a2 a3 a4} : Keeps [.regs, .cap] s (State.capStart s a2 a3 a4) := by
  unfold State.capStart
  extract_lets x1 x2 x3
  have hx2 : Keeps [.regs, .cap] s x2 := by
    unfold x2
    split
    · refine Keeps.after State.capStore_keeps (by decide) ?_
      exact Keeps.refl _ _
    · exact Keeps.refl _ _
  split
  · refine Keeps.ite ?_ ?_
    · refine Keeps.after State.capPaired_keeps (by decide) ?_
      exact Keeps.refl _ _
    · refine Keeps.after State.capPaired_keeps (by decide) ?_
      exact Keeps.refl _ _
  · refine Keeps.after State.setCp_keeps (by decide) ?_
    exact hx2

theorem State.capStop_keeps {s a2 a3 a4} : Keeps [.regs, .cap] s (State.capStop s a2 a3 a4) := by
  unfold State.capStop
  extract_lets x1 x2 x3
  have hx2 : Keeps [.regs, .cap] s x2 := by
    unfold x2
    split
    · refine Keeps.after State.capStore_keeps (by decide) ?_
      exact Keeps.refl _ _
    · exact Keeps.refl _ _
  split
  · refine Keeps.ite ?_ ?_
    · refine Keeps.after State.capPaired_keeps (by decide) ?_
      exact Keeps.refl _ _
    · split
      refine Keeps.after State.capPaired_keeps (by decide) ?_
      exact Keeps.refl _ _
  · refine Keeps.after State.setCp_keeps (by decide) ?_
    exact hx2

theorem State.capSee_keeps {s a2 a3 a4 a5} : Keeps [.regs, .cap] s (State.capSee s a2 a3 a4 a5) := by
  unfold State.capSee
  extract_lets x1 x2 x3 x4
  have hx4 : Keeps [.regs, .cap] s x4 := by
    unfold x4
    refine Keeps.ite ?_ ?_
    · refine Keeps.after State.capStart_keeps (by decide) ?_
      exact Keeps.refl _ _
    · exact Keeps.refl _ _
  refine Keeps.ite ?_ ?_
  · exact Keeps.refl _ _
  · refine Keeps.ite ?_ ?_
    · refine Keeps.ite ?_ ?_
      · refine Keeps.after State.capStore_keeps (by decide) ?_
        exact Keeps.refl _ _
      · exact Keeps.refl _ _
    · refine Keeps.ite ?_ ?_
      · refine Keeps.after State.capStop_keeps (by decide) ?_
        exact hx4
      · exact hx4

theorem execCaptureEdge_keeps {a1 a2 a3 a4 s} : Answers [.regs, .cap] s (execCaptureEdge a1 a2 a3 a4 s) := by
  unfold execCaptureEdge
  extract_lets x1 x2 x3
  have hx3 : Keeps [.regs, .cap] s x3 := by
    unfold x3
    refine Keeps.ite ?_ ?_
    · refine Keeps.after State.capSee_keeps (by decide) ?_
      exact Keeps.refl _ _
    · exact Keeps.refl _ _
  refine Answers.ite ?_ ?_
  · refine Answers.next ?_
    refine Keeps.ite ?_ ?_
    · refine Keeps.after State.capSee_keeps (by decide) ?_
      exact hx3
    · exact hx3
  · refine Answers.next ?_
    exact Keeps.refl _ _

theorem execCaptureRecordRead_keeps {a1 a2 a3 s} :
    Answers [.regs, .hif, .cap, .out, .reply, .free] s (execCaptureRecordRead a1 a2 a3 s) := by
  unfold execCaptureRecordRead
  refine Answers.next ?_
  refine State.readBy_keeps (by decide) ?_ ?_
  · exact Keeps.refl _ _
  · intro y1 y2
    split
    refine PairKeeps.mk ?_
    refine Keeps.of_pair (by assumption) ?_
    refine PairKeeps.after State.capRead_keeps (by decide) ?_
    exact y2

theorem execCaptureArm_keeps {a1 a2 s} : Answers [.cap] s (execCaptureArm a1 a2 s) := by
  unfold execCaptureArm
  refine Answers.next ?_
  refine Keeps.ite ?_ ?_
  · refine Keeps.after State.capArm_keeps (by decide) ?_
    exact Keeps.refl _ _
  · exact Keeps.refl _ _

theorem speedOf_keeps {s a2 a3 a4} : PairKeeps [.free] s (speedOf s a2 a3 a4) := by
  unfold speedOf
  refine PairKeeps.ite ?_ ?_
  · refine PairKeeps.after State.drawWord_keeps (by decide) ?_
    exact Keeps.refl _ _
  · refine PairKeeps.mk ?_
    exact Keeps.refl _ _

theorem State.qdFlag_keeps {s a2 a3 a4} : Keeps [.regs] s (State.qdFlag s a2 a3 a4) := by
  unfold State.qdFlag
  extract_lets x1
  have hx1 : Keeps [.regs] s x1 := by
    unfold x1
    refine Keeps.after State.setBit_keeps (by decide) ?_
    exact Keeps.refl _ _
  refine Keeps.ite ?_ ?_
  · refine Keeps.after State.source_keeps (by decide) ?_
    exact hx1
  · exact hx1

theorem State.qdCount_keeps {s a2 a3 a4} : Keeps [.regs, .hif, .qd, .out, .free] s (State.qdCount s a2 a3 a4) := by
  unfold State.qdCount
  extract_lets x1 x2 x3 x4 x5 x6 x7 x8
  have hx2 : Keeps [.regs, .hif, .qd, .out, .free] s x2 := by
    unfold x2
    refine Keeps.after State.wr_keeps (by decide) ?_
    exact Keeps.refl _ _
  have hx3 : Keeps [.regs, .hif, .qd, .out, .free] s x3 := by
    unfold x3
    refine Keeps.after State.setBit_keeps (by decide) ?_
    exact hx2
  have hx5 : Keeps [.regs, .hif, .qd, .out, .free] s x5 := by
    unfold x5
    refine Keeps.after State.setQd_keeps (by decide) ?_
    refine Keeps.after State.wr_keeps (by decide) ?_
    refine Keeps.after State.setBit_keeps (by decide) ?_
    exact hx3
  have hx7 : Keeps [.regs, .hif, .qd, .out, .free] s x7 := by
    unfold x7
    refine Keeps.after State.setQd_keeps (by decide) ?_
    exact hx3
  refine Keeps.ite ?_ ?_
  · refine Keeps.after State.event_keeps (by decide) ?_
    refine Keeps.after State.qdFlag_keeps (by decide) ?_
    exact hx5
  · refine Keeps.ite ?_ ?_
    · exact hx7
    · split
      refine Keeps.after State.wr_keeps (by decide) ?_
      refine Keeps.of_pair (by assumption) ?_
      refine PairKeeps.after speedOf_keeps (by decide) ?_
      exact hx7

theorem execQdEdge_keeps {a1 a2 a3 a4 a5 s} :
    Answers [.regs, .hif, .qd, .out, .free] s (execQdEdge a1 a2 a3 a4 a5 s) := by
  unfold execQdEdge
  extract_lets x1 x2 x3
  have hx2 : Keeps [.regs, .hif, .qd, .out, .free] s x2 := by
    unfold x2
    refine Keeps.after State.setQd_keeps (by decide) ?_
    exact Keeps.refl _ _
  refine Answers.ite ?_ ?_
  · refine Answers.next ?_
    exact Keeps.refl _ _
  · refine Answers.ite ?_ ?_
    · refine Answers.next ?_
      exact hx2
    · refine Answers.ite ?_ ?_
      · refine Answers.next ?_
        refine Keeps.after State.setQd_keeps (by decide) ?_
        refine Keeps.after State.qdFlag_keeps (by decide) ?_
        refine Keeps.after State.tally_keeps (by decide) ?_
        exact hx2
      · refine Answers.next ?_
        refine Keeps.after State.qdCount_keeps (by decide) ?_
        exact hx2

theorem execQdIndex_keeps {a1 s} : Answers [.regs, .qd] s (execQdIndex a1 s) := by
  unfold execQdIndex
  extract_lets x1 x2 x3 x4 x5
  have hx4 : Keeps [.regs, .qd] s x4 := by
    unfold x4
    refine Keeps.after State.wr_keeps (by decide) ?_
    exact Keeps.refl _ _
  have hx5 : Keeps [.regs, .qd] s x5 := by
    unfold x5
    refine Keeps.ite ?_ ?_
    · refine Keeps.after State.wr_keeps (by decide) ?_
      exact hx4
    · exact hx4
  refine Answers.ite ?_ ?_
  · refine Answers.next ?_
    exact Keeps.refl _ _
  · refine Answers.next ?_
    refine Keeps.after State.qdFlag_keeps (by decide) ?_
    refine Keeps.after State.setQd_keeps (by decide) ?_
    exact hx5

theorem execQdSpeedDecay_keeps {a1 s} : Answers [.regs] s (execQdSpeedDecay a1 s) := by
  unfold execQdSpeedDecay
  extract_lets x1 x2 x3 x4 x5
  refine Answers.ite ?_ ?_
  · refine Answers.next ?_
    exact Keeps.refl _ _
  · refine Answers.next ?_
    refine Keeps.ite ?_ ?_
    · refine Keeps.after State.wr_keeps (by decide) ?_
      exact Keeps.refl _ _
    · exact Keeps.refl _ _

theorem execQdStall_keeps {a1 a2 s} : Answers [.regs, .hif, .qd, .out] s (execQdStall a1 a2 s) := by
  unfold execQdStall
  extract_lets x1 x2 x3
  have hx3 : Keeps [.regs, .hif, .qd, .out] s x3 := by
    unfold x3
    refine Keeps.after State.setQd_keeps (by decide) ?_
    refine Keeps.after State.setBit_keeps (by decide) ?_
    refine Keeps.after State.wr_keeps (by decide) ?_
    exact Keeps.refl _ _
  refine Answers.ite ?_ ?_
  · refine Answers.next ?_
    exact Keeps.refl _ _
  · refine Answers.next ?_
    refine Keeps.after State.event_keeps (by decide) ?_
    refine Keeps.after State.qdFlag_keeps (by decide) ?_
    exact hx3

theorem execQdRouteSample_keeps {a1 s} : Answers [.regs, .qd, .kle] s (execQdRouteSample a1 s) := by
  unfold execQdRouteSample
  extract_lets x1 x2 x3 x4 x5
  have hx3 : Keeps [.regs, .qd, .kle] s x3 := by
    unfold x3
    refine Keeps.after State.setQd_keeps (by decide) ?_
    exact Keeps.refl _ _
  split
  · refine Answers.next ?_
    exact Keeps.refl _ _
  · extract_lets x6
    have hx6 : Keeps [.regs, .qd, .kle] s x6 := by
      unfold x6
      refine Keeps.after State.latchDeliver_keeps (by decide) ?_
      exact hx3
    refine Answers.ite ?_ ?_
    · refine Answers.next ?_
      exact Keeps.refl _ _
    · refine Answers.ite ?_ ?_
      · refine Answers.next ?_
        exact hx6
      · refine Answers.ite ?_ ?_
        · refine Answers.next ?_
          refine Keeps.after State.setBit_keeps (by decide) ?_
          exact hx6
        · refine Answers.next ?_
          refine Keeps.after State.latchDeliver_keeps (by decide) ?_
          exact hx6

theorem State.qdLost_keeps {s} : Keeps [.regs] s (State.qdLost s) := by
  unfold State.qdLost
  refine Keeps.forN ?_ ?_
  · exact Keeps.refl _ _
  · intro y1 y2 y3
    refine Keeps.after State.setBit_keeps (by decide) ?_
    exact y3

end Sys2Proof.Machine
end

