-- ==== Sys2Proof/Laws/Ports.lean ====
section
/-!
SUPPORT. Frames of Machine/Ports.lean: which parts of the state each of its operations and commands may change.
-/
namespace Sys2Proof.Machine

theorem State.setPort_keeps {s a2 a3} : Keeps [.ports] s (State.setPort s a2 a3) := by
  unfold State.setPort
  refine Keeps.set_ports (by decide) ?_
  exact Keeps.refl _ _

theorem State.setUse_keeps {s a2 a3} : Keeps [.ports] s (State.setUse s a2 a3) := by
  unfold State.setUse
  extract_lets x1
  refine Keeps.after State.setPort_keeps (by decide) ?_
  exact Keeps.refl _ _

theorem State.dsEvt_keeps {s a2 a3} : Keeps [.regs] s (State.dsEvt s a2 a3) := by
  unfold State.dsEvt
  extract_lets x1
  have hx1 : Keeps [.regs] s x1 := by
    unfold x1
    refine Keeps.after State.setBit_keeps (by decide) ?_
    exact Keeps.refl _ _
  refine Keeps.ite ?_ ?_
  · refine Keeps.after State.source_keeps (by decide) ?_
    exact hx1
  · exact hx1

theorem State.twEvt_keeps {s a2 a3} : Keeps [.regs] s (State.twEvt s a2 a3) := by
  unfold State.twEvt
  extract_lets x1
  have hx1 : Keeps [.regs] s x1 := by
    unfold x1
    refine Keeps.after State.setBit_keeps (by decide) ?_
    exact Keeps.refl _ _
  refine Keeps.ite ?_ ?_
  · refine Keeps.after State.source_keeps (by decide) ?_
    exact hx1
  · exact hx1

theorem State.setPpc_keeps {s a2 a3} : Keeps [.pp] s (State.setPpc s a2 a3) := by
  unfold State.setPpc
  refine Keeps.set_pp (by decide) ?_
  exact Keeps.refl _ _

theorem State.twLevels_keeps {s a2 a3 a4} : Keeps [.regs] s (State.twLevels s a2 a3 a4) := by
  unfold State.twLevels
  refine Keeps.after State.setBit_keeps (by decide) ?_
  refine Keeps.after State.setBit_keeps (by decide) ?_
  exact Keeps.refl _ _

theorem State.lineStart_keeps {s a2} : Keeps [.regs] s (State.lineStart s a2) := by
  unfold State.lineStart
  refine Keeps.ite ?_ ?_
  · refine Keeps.after State.twLevels_keeps (by decide) ?_
    exact Keeps.refl _ _
  · exact Keeps.refl _ _

theorem State.twTake_keeps {s a2} : Keeps [.regs, .ports] s (State.twTake s a2) := by
  unfold State.twTake
  extract_lets x1 x2 x3
  refine Keeps.after State.setFld_keeps (by decide) ?_
  refine Keeps.after State.setPort_keeps (by decide) ?_
  exact Keeps.refl _ _

theorem State.setReason_keeps {s a2 a3} : Keeps [.regs, .ports] s (State.setReason s a2 a3) := by
  unfold State.setReason
  extract_lets x1
  refine Keeps.ite ?_ ?_
  · refine Keeps.after State.setPort_keeps (by decide) ?_
    exact Keeps.refl _ _
  · refine Keeps.after State.setFld_keeps (by decide) ?_
    exact Keeps.refl _ _

end Sys2Proof.Machine
end

