-- ==== Sys2Proof/Laws/Stencil.lean ====
section
/-!
SUPPORT. Frames of Machine/Stencil.lean: which parts of the state each of its operations and commands may change.
-/
namespace Sys2Proof.Machine

theorem State.setEng_keeps {s a2 a3} : Keeps [.se] s (State.setEng s a2 a3) := by
  unfold State.setEng
  refine Keeps.set_se (by decide) ?_
  exact Keeps.refl _ _

theorem State.settle_keeps {s a2} : Keeps [.regs] s (State.settle s a2) := by
  unfold State.settle
  split
  · exact Keeps.refl _ _
  · extract_lets x1
    have hx1 : Keeps [.regs] s x1 := by
      unfold x1
      refine Keeps.after State.setBit_keeps (by decide) ?_
      exact Keeps.refl _ _
    refine Keeps.ite ?_ ?_
    · exact hx1
    · refine Keeps.after State.setBit_keeps (by decide) ?_
      exact hx1

theorem State.seRelease_keeps {s a2} : Keeps [.regs, .se] s (State.seRelease s a2) := by
  unfold State.seRelease
  extract_lets x1 x2
  have hx2 : Keeps [.regs, .se] s x2 := by
    unfold x2
    refine Keeps.after State.setEng_keeps (by decide) ?_
    exact Keeps.refl _ _
  refine Keeps.forN ?_ ?_
  · exact hx2
  · intro y3 y4 y5
    refine Keeps.after State.settle_keeps (by decide) ?_
    exact y5

theorem State.setSeSt_keeps {s a2 a3} : Keeps [.regs] s (State.setSeSt s a2 a3) := by
  unfold State.setSeSt
  refine Keeps.after State.setFld_keeps (by decide) ?_
  exact Keeps.refl _ _

theorem State.seLeave_keeps {s a2 a3} : Keeps [.regs, .se] s (State.seLeave s a2 a3) := by
  unfold State.seLeave
  extract_lets x1 x2
  have hx1 : Keeps [.regs, .se] s x1 := by
    unfold x1
    refine Keeps.after State.seRelease_keeps (by decide) ?_
    exact Keeps.refl _ _
  refine Keeps.after State.setSeSt_keeps (by decide) ?_
  refine Keeps.after State.setEng_keeps (by decide) ?_
  exact hx1

theorem State.seHold_keeps {s a2} : Keeps [.regs, .se] s (State.seHold s a2) := by
  unfold State.seHold
  refine Keeps.ite ?_ ?_
  · refine Keeps.after State.seLeave_keeps (by decide) ?_
    exact Keeps.refl _ _
  · exact Keeps.refl _ _

theorem State.seClear_keeps {s a2} : Keeps [.regs, .se] s (State.seClear s a2) := by
  unfold State.seClear
  extract_lets x1 x2 x3 x4 x5
  have hx3 : Keeps [.regs, .se] s x3 := by
    unfold x3
    refine Keeps.after State.setEng_keeps (by decide) ?_
    exact Keeps.refl _ _
  have hx4 : Keeps [.regs, .se] s x4 := by
    unfold x4
    refine Keeps.forN ?_ ?_
    · exact hx3
    · intro y6 y7 y8
      refine Keeps.after State.wr_keeps (by decide) ?_
      exact y8
  have hx5 : Keeps [.regs, .se] s x5 := by
    unfold x5
    refine Keeps.after State.setFld_keeps (by decide) ?_
    refine Keeps.after State.wr_keeps (by decide) ?_
    exact hx4
  refine Keeps.after State.setBit_keeps (by decide) ?_
  refine Keeps.after State.setBit_keeps (by decide) ?_
  refine Keeps.after State.setBit_keeps (by decide) ?_
  exact hx5

theorem State.setSePc_keeps {s a2 a3} : Keeps [.regs] s (State.setSePc s a2 a3) := by
  unfold State.setSePc
  refine Keeps.after State.setFld_keeps (by decide) ?_
  exact Keeps.refl _ _

theorem State.seStart_keeps {s a2} : Keeps [.regs, .se] s (State.seStart s a2) := by
  unfold State.seStart
  refine Keeps.ite ?_ ?_
  · refine Keeps.after State.setSeSt_keeps (by decide) ?_
    exact Keeps.refl _ _
  · refine Keeps.after State.setSeSt_keeps (by decide) ?_
    refine Keeps.after State.setSePc_keeps (by decide) ?_
    refine Keeps.after State.seClear_keeps (by decide) ?_
    exact Keeps.refl _ _

theorem State.seUnhold_keeps {s a2} : Keeps [.regs, .se] s (State.seUnhold s a2) := by
  unfold State.seUnhold
  refine Keeps.ite ?_ ?_
  · refine Keeps.after State.seStart_keeps (by decide) ?_
    exact Keeps.refl _ _
  · exact Keeps.refl _ _

theorem State.phrst_keeps {s a2} : Keeps [.se] s (State.phrst s a2) := by
  unfold State.phrst
  refine Keeps.forN ?_ ?_
  · exact Keeps.refl _ _
  · intro y1 y2 y3
    extract_lets x4
    refine Keeps.ite ?_ ?_
    · refine Keeps.after State.setEng_keeps (by decide) ?_
      exact y3
    · exact y3

theorem State.seGstart_keeps {s a2} : Keeps [.regs, .se] s (State.seGstart s a2) := by
  unfold State.seGstart
  refine Keeps.ite ?_ ?_
  · refine Keeps.ite ?_ ?_
    · exact Keeps.refl _ _
    · refine Keeps.after State.wlrej_keeps (by decide) ?_
      exact Keeps.refl _ _
  · refine Keeps.forN ?_ ?_
    · exact Keeps.refl _ _
    · intro y1 y2 y3
      refine Keeps.ite ?_ ?_
      · exact y3
      · refine Keeps.ite ?_ ?_
        · refine Keeps.after State.seStart_keeps (by decide) ?_
          exact y3
        · refine Keeps.after State.setBit_keeps (by decide) ?_
          exact y3

theorem State.seLoad_keeps {s a2 a3} : Keeps [.regs, .se] s (State.seLoad s a2 a3) := by
  unfold State.seLoad
  extract_lets x1
  refine Keeps.ite ?_ ?_
  · refine Keeps.after State.wlrej_keeps (by decide) ?_
    exact Keeps.refl _ _
  · refine Keeps.after State.setEng_keeps (by decide) ?_
    exact Keeps.refl _ _

theorem State.seParam_keeps {s a2 a3 a4} : Keeps [.regs, .se] s (State.seParam s a2 a3 a4) := by
  unfold State.seParam
  extract_lets x1 x2
  refine Keeps.after State.setBit_keeps (by decide) ?_
  refine Keeps.after State.setEng_keeps (by decide) ?_
  exact Keeps.refl _ _

theorem State.seRun_keeps {s a2} : Keeps [.regs, .se] s (State.seRun s a2) := by
  unfold State.seRun
  extract_lets x1
  have hx1 : Keeps [.regs, .se] s x1 := by
    unfold x1
    refine Keeps.after State.setBit_keeps (by decide) ?_
    exact Keeps.refl _ _
  refine Keeps.ite ?_ ?_
  · refine Keeps.after State.wlrej_keeps (by decide) ?_
    exact Keeps.refl _ _
  · refine Keeps.ite ?_ ?_
    · refine Keeps.after State.seStart_keeps (by decide) ?_
      exact hx1
    · exact hx1

theorem State.seStopRun_keeps {s a2} : Keeps [.regs, .se] s (State.seStopRun s a2) := by
  unfold State.seStopRun
  extract_lets x1 x2
  have hx1 : Keeps [.regs, .se] s x1 := by
    unfold x1
    refine Keeps.after State.setBit_keeps (by decide) ?_
    exact Keeps.refl _ _
  refine Keeps.ite ?_ ?_
  · refine Keeps.after State.setEng_keeps (by decide) ?_
    exact hx1
  · refine Keeps.after State.seLeave_keeps (by decide) ?_
    exact hx1

theorem State.wrRegs_keeps {s a2 a3} : Keeps [.regs] s (State.wrRegs s a2 a3) := by
  induction a3 generalizing s a2
  · rw [State.wrRegs]
    exact Keeps.refl _ _
  · rename_i y ih
    rw [State.wrRegs]
    refine Keeps.after ih (fun _ k => k) ?_
    refine Keeps.after State.wr_keeps (by decide) ?_
    exact Keeps.refl _ _

theorem State.seTakeBw_keeps {s a2 a3} : Keeps [.regs, .se] s (State.seTakeBw s a2 a3) := by
  unfold State.seTakeBw
  extract_lets x1 x2 x3
  have hx2 : Keeps [.regs, .se] s x2 := by
    unfold x2
    refine Keeps.after State.setEng_keeps (by decide) ?_
    exact Keeps.refl _ _
  have hx3 : Keeps [.regs, .se] s x3 := by
    unfold x3
    refine Keeps.after State.setBit_keeps (by decide) ?_
    refine Keeps.after State.setBit_keeps (by decide) ?_
    exact hx2
  refine Keeps.after State.setSePc_keeps (by decide) ?_
  exact hx3

theorem State.seBellwether_keeps {s a2} : Keeps [.regs, .se] s (State.seBellwether s a2) := by
  unfold State.seBellwether
  extract_lets x1 x2
  have hx2 : Keeps [.regs, .se] s x2 := by
    unfold x2
    refine Keeps.after State.setEng_keeps (by decide) ?_
    exact Keeps.refl _ _
  refine Keeps.ite ?_ ?_
  · exact hx2
  · refine Keeps.ite ?_ ?_
    · refine Keeps.after State.seTakeBw_keeps (by decide) ?_
      exact hx2
    · refine Keeps.after State.setBit_keeps (by decide) ?_
      exact hx2

theorem State.setSeCh_keeps {s a2 a3 a4} : Keeps [.se] s (State.setSeCh s a2 a3 a4) := by
  unfold State.setSeCh
  extract_lets x1
  refine Keeps.after State.setEng_keeps (by decide) ?_
  exact Keeps.refl _ _

theorem State.setSeReg_keeps {s a2 a3 a4} : Keeps [.regs] s (State.setSeReg s a2 a3 a4) := by
  unfold State.setSeReg
  refine Keeps.ite ?_ ?_
  · exact Keeps.refl _ _
  · refine Keeps.ite ?_ ?_
    · refine Keeps.after State.wr_keeps (by decide) ?_
      exact Keeps.refl _ _
    · refine Keeps.after State.wr_keeps (by decide) ?_
      exact Keeps.refl _ _

theorem State.seEvt_keeps {s a2 a3} : Keeps [.regs] s (State.seEvt s a2 a3) := by
  unfold State.seEvt
  extract_lets x1
  have hx1 : Keeps [.regs] s x1 := by
    unfold x1
    refine Keeps.after State.setBit_keeps (by decide) ?_
    exact Keeps.refl _ _
  refine Keeps.ite ?_ ?_
  · refine Keeps.after State.source_keeps (by decide) ?_
    exact hx1
  · exact hx1

theorem State.ballEdge_keeps {s a2 a3} : Keeps [.se] s (State.ballEdge s a2 a3) := by
  unfold State.ballEdge
  refine Keeps.forN ?_ ?_
  · exact Keeps.refl _ _
  · intro y1 y2 y3
    refine Keeps.ite ?_ ?_
    · refine Keeps.after State.setEng_keeps (by decide) ?_
      exact y3
    · exact y3

theorem State.seDrive_keeps {s a2 a3 a4} : Keeps [.regs, .se] s (State.seDrive s a2 a3 a4) := by
  unfold State.seDrive
  extract_lets x1 x2 x3 x4 x5
  refine Keeps.ite ?_ ?_
  · exact Keeps.refl _ _
  · refine Keeps.after State.settle_keeps (by decide) ?_
    refine Keeps.after State.ballEdge_keeps (by decide) ?_
    refine Keeps.after State.setEng_keeps (by decide) ?_
    exact Keeps.refl _ _

theorem State.seSample_keeps {s a2 a3 a4} : PairKeeps [.regs] s (State.seSample s a2 a3 a4) := by
  unfold State.seSample
  extract_lets x1
  split
  · refine PairKeeps.mk ?_
    refine Keeps.after State.setBit_keeps (by decide) ?_
    exact Keeps.refl _ _
  · refine PairKeeps.mk ?_
    exact Keeps.refl _ _

theorem State.seFail_keeps {s a2 a3} : Keeps [.regs, .se] s (State.seFail s a2 a3) := by
  unfold State.seFail
  refine Keeps.after State.seEvt_keeps (by decide) ?_
  refine Keeps.after State.setFld_keeps (by decide) ?_
  refine Keeps.after State.seLeave_keeps (by decide) ?_
  exact Keeps.refl _ _

theorem execSeRun_keeps {a1 s} : Answers [.regs, .se] s (execSeRun a1 s) := by
  unfold execSeRun
  refine Answers.next ?_
  refine Keeps.ite ?_ ?_
  · refine Keeps.after State.seRun_keeps (by decide) ?_
    exact Keeps.refl _ _
  · exact Keeps.refl _ _

theorem State.seReach_keeps {s a2} : Keeps [.regs, .se] s (State.seReach s a2) := by
  unfold State.seReach
  extract_lets x1 x2 x3 x4
  have hx4 : Keeps [.regs, .se] s x4 := by
    unfold x4
    refine Keeps.after State.wr_keeps (by decide) ?_
    refine Keeps.after State.setEng_keeps (by decide) ?_
    exact Keeps.refl _ _
  refine Keeps.ite ?_ ?_
  · refine Keeps.after State.seLeave_keeps (by decide) ?_
    exact hx4
  · exact hx4

theorem execSeRunClear_keeps {a1 s} : Answers [.regs, .se] s (execSeRunClear a1 s) := by
  unfold execSeRunClear
  refine Answers.next ?_
  refine Keeps.ite ?_ ?_
  · refine Keeps.after State.seStopRun_keeps (by decide) ?_
    exact Keeps.refl _ _
  · exact Keeps.refl _ _

theorem execSeGstart_keeps {a1 s} : Answers [.regs, .se] s (execSeGstart a1 s) := by
  unfold execSeGstart
  refine Answers.next ?_
  refine Keeps.ite ?_ ?_
  · refine Keeps.after State.seGstart_keeps (by decide) ?_
    exact Keeps.refl _ _
  · exact Keeps.refl _ _

theorem execPhrst_keeps {a1 s} : Answers [.se] s (execPhrst a1 s) := by
  unfold execPhrst
  refine Answers.next ?_
  refine Keeps.ite ?_ ?_
  · refine Keeps.after State.phrst_keeps (by decide) ?_
    exact Keeps.refl _ _
  · exact Keeps.refl _ _

theorem execSeLoad_keeps {a1 a2 s} : Answers [.regs, .se] s (execSeLoad a1 a2 s) := by
  unfold execSeLoad
  refine Answers.next ?_
  refine Keeps.ite ?_ ?_
  · refine Keeps.after State.seLoad_keeps (by decide) ?_
    exact Keeps.refl _ _
  · exact Keeps.refl _ _

theorem State.readSram_keeps {a1 a2 s} :
    PairKeeps [.regs, .mem, .ecc, .hif, .cores, .coh, .out] s (State.readSram a1 a2 s) := by
  induction a1 generalizing s a2
  · rw [State.readSram]
    refine PairKeeps.mk ?_
    exact Keeps.refl _ _
  · rename_i y ih
    rw [State.readSram]
    refine PairKeeps.ite ?_ ?_
    · refine PairKeeps.mk ?_
      exact Keeps.refl _ _
    · split
      · refine PairKeeps.mk ?_
        refine Keeps.of_pair (by assumption) ?_
        refine PairKeeps.after State.coRd_keeps (by decide) ?_
        exact Keeps.refl _ _
      · split
        · refine PairKeeps.mk ?_
          refine Keeps.of_pair (by assumption) ?_
          refine PairKeeps.after ih (fun _ k => k) ?_
          refine Keeps.of_pair (by assumption) ?_
          refine PairKeeps.after State.coRd_keeps (by decide) ?_
          exact Keeps.refl _ _
        · refine PairKeeps.mk ?_
          refine Keeps.of_pair (by assumption) ?_
          refine PairKeeps.after ih (fun _ k => k) ?_
          refine Keeps.of_pair (by assumption) ?_
          refine PairKeeps.after State.coRd_keeps (by decide) ?_
          exact Keeps.refl _ _

theorem State.seRecord_keeps {s a2} :
    PairKeeps [.regs, .mem, .ecc, .hif, .cores, .coh, .out] s (State.seRecord s a2) := by
  unfold State.seRecord
  refine PairKeeps.ite ?_ ?_
  · refine PairKeeps.mk ?_
    exact Keeps.refl _ _
  · split
    · refine PairKeeps.mk ?_
      refine Keeps.of_pair (by assumption) ?_
      refine PairKeeps.after State.readSram_keeps (by decide) ?_
      exact Keeps.refl _ _
    · refine PairKeeps.ite ?_ ?_
      · refine PairKeeps.mk ?_
        refine Keeps.of_pair (by assumption) ?_
        refine PairKeeps.after State.readSram_keeps (by decide) ?_
        exact Keeps.refl _ _
      · split
        · refine PairKeeps.mk ?_
          refine Keeps.of_pair (by assumption) ?_
          refine PairKeeps.after State.readSram_keeps (by decide) ?_
          refine Keeps.of_pair (by assumption) ?_
          refine PairKeeps.after State.readSram_keeps (by decide) ?_
          exact Keeps.refl _ _
        · refine PairKeeps.ite ?_ ?_
          · refine PairKeeps.mk ?_
            refine Keeps.of_pair (by assumption) ?_
            refine PairKeeps.after State.readSram_keeps (by decide) ?_
            refine Keeps.of_pair (by assumption) ?_
            refine PairKeeps.after State.readSram_keeps (by decide) ?_
            exact Keeps.refl _ _
          · refine PairKeeps.mk ?_
            refine Keeps.of_pair (by assumption) ?_
            refine PairKeeps.after State.readSram_keeps (by decide) ?_
            refine Keeps.of_pair (by assumption) ?_
            refine PairKeeps.after State.readSram_keeps (by decide) ?_
            exact Keeps.refl _ _

theorem State.seInstall_keeps {s a2 a3} : Keeps [.regs, .se] s (State.seInstall s a2 a3) := by
  unfold State.seInstall
  extract_lets x1 x2 x3 x4 x5 x6 x7
  have hx4 : Keeps [.regs, .se] s x4 := by
    unfold x4
    refine Keeps.after State.wrRegs_keeps (by decide) ?_
    refine Keeps.after State.wrRegs_keeps (by decide) ?_
    exact Keeps.refl _ _
  have hx5 : Keeps [.regs, .se] s x5 := by
    unfold x5
    refine Keeps.after State.wrRegs_keeps (by decide) ?_
    exact hx4
  refine Keeps.after State.setBit_keeps (by decide) ?_
  refine Keeps.after State.setEng_keeps (by decide) ?_
  exact hx5

theorem execSeLoadDone_keeps {a1 s} :
    Answers [.regs, .mem, .ecc, .hif, .cores, .coh, .se, .out] s (execSeLoadDone a1 s) := by
  unfold execSeLoadDone
  split
  · refine Answers.next ?_
    exact Keeps.refl _ _
  · extract_lets x1 x2
    have hx2 : Keeps [.regs, .mem, .ecc, .hif, .cores, .coh, .se, .out] s x2 := by
      unfold x2
      refine Keeps.after State.setEng_keeps (by decide) ?_
      exact Keeps.refl _ _
    refine Answers.ite ?_ ?_
    · refine Answers.next ?_
      exact Keeps.refl _ _
    · split
      · refine Answers.next ?_
        refine Keeps.after State.seEvt_keeps (by decide) ?_
        refine Keeps.after State.seInstall_keeps (by decide) ?_
        refine Keeps.of_pair (by assumption) ?_
        refine PairKeeps.after State.seRecord_keeps (by decide) ?_
        exact hx2
      · refine Answers.next ?_
        refine Keeps.after State.seEvt_keeps (by decide) ?_
        refine Keeps.of_pair (by assumption) ?_
        refine PairKeeps.after State.seRecord_keeps (by decide) ?_
        exact hx2

theorem execSeParamWrite_keeps {a1 a2 a3 s} : Answers [.regs, .se] s (execSeParamWrite a1 a2 a3 s) := by
  unfold execSeParamWrite
  refine Answers.next ?_
  refine Keeps.ite ?_ ?_
  · refine Keeps.after State.seParam_keeps (by decide) ?_
    exact Keeps.refl _ _
  · exact Keeps.refl _ _

theorem State.seAfter_keeps {s a2} : PairKeeps [.regs] s (State.seAfter s a2) := by
  unfold State.seAfter
  extract_lets x1 x2 x3 x4
  refine PairKeeps.ite ?_ ?_
  · refine PairKeeps.mk ?_
    refine Keeps.after State.setSeReg_keeps (by decide) ?_
    exact Keeps.refl _ _
  · refine PairKeeps.ite ?_ ?_
    · refine PairKeeps.mk ?_
      exact Keeps.refl _ _
    · refine PairKeeps.mk ?_
      exact Keeps.refl _ _

theorem State.seAdv_keeps {s a2} : Keeps [.regs] s (State.seAdv s a2) := by
  unfold State.seAdv
  split
  refine Keeps.after State.setSePc_keeps (by decide) ?_
  refine Keeps.of_pair (by assumption) ?_
  refine PairKeeps.after State.seAfter_keeps (by decide) ?_
  exact Keeps.refl _ _

theorem State.seOp_keeps {s a2 a3 a4 f5} {F : List Part} {s0} (hF : ∀ p ∈ ([.regs, .se] : List Part), p ∈ F)
    (h : Keeps F s0 s) (hf5 : ∀ x1 x2, Keeps F s0 x1 → Keeps F s0 (f5 x1 x2)) :
    Answers F s0 (State.seOp s a2 a3 a4 f5) := by
  unfold State.seOp
  extract_lets x1
  refine Answers.ite ?_ ?_
  · refine Answers.next ?_
    refine Keeps.ite ?_ ?_
    · refine Keeps.after State.seFail_keeps (Part.sub_trans (by decide) hF) ?_
      exact h
    · refine hf5 _ _ ?_
      refine Keeps.after State.setEng_keeps (Part.sub_trans (by decide) hF) ?_
      exact h
  · refine Answers.next ?_
    exact h

theorem State.seT_keeps {s a2 a3} : Keeps [.se] s (State.seT s a2 a3) := by
  unfold State.seT
  extract_lets x1
  refine Keeps.after State.setEng_keeps (by decide) ?_
  exact Keeps.refl _ _

theorem State.seFlags_keeps {s a2 a3} : Keeps [.se] s (State.seFlags s a2 a3) := by
  unfold State.seFlags
  extract_lets x1
  refine Keeps.after State.setEng_keeps (by decide) ?_
  exact Keeps.refl _ _

theorem State.seAlu_keeps {s a2 a3 a4} : Keeps [.regs, .se] s (State.seAlu s a2 a3 a4) := by
  unfold State.seAlu
  extract_lets x1
  refine Keeps.after State.seAdv_keeps (by decide) ?_
  refine Keeps.after State.seFlags_keeps (by decide) ?_
  refine Keeps.after State.setSeReg_keeps (by decide) ?_
  exact Keeps.refl _ _

theorem State.sePass_keeps {s a2 a3} : Keeps [.regs, .se] s (State.sePass s a2 a3) := by
  unfold State.sePass
  refine Keeps.after State.seAdv_keeps (by decide) ?_
  refine Keeps.after State.seT_keeps (by decide) ?_
  exact Keeps.refl _ _

theorem State.seWait_keeps {s a2 a3 a4} : Keeps [.regs, .se] s (State.seWait s a2 a3 a4) := by
  unfold State.seWait
  refine Keeps.ite ?_ ?_
  · refine Keeps.after State.seTakeBw_keeps (by decide) ?_
    exact Keeps.refl _ _
  · split
    · refine Keeps.after State.sePass_keeps (by decide) ?_
      exact Keeps.refl _ _
    · extract_lets x1
      refine Keeps.after State.setEng_keeps (by decide) ?_
      exact Keeps.refl _ _

theorem execSeNop_keeps {a1 s} : Answers [.regs, .se] s (execSeNop a1 s) := by
  unfold execSeNop
  refine State.seOp_keeps (by decide) ?_ ?_
  · exact Keeps.refl _ _
  · intro y1 y2 y3
    refine Keeps.after State.seAdv_keeps (by decide) ?_
    exact y3

theorem execSeSet_keeps {a1 s} : Answers [.regs, .se] s (execSeSet a1 s) := by
  unfold execSeSet
  refine State.seOp_keeps (by decide) ?_ ?_
  · exact Keeps.refl _ _
  · intro y1 y2 y3
    refine Keeps.after State.seAdv_keeps (by decide) ?_
    refine Keeps.after State.seDrive_keeps (by decide) ?_
    exact y3

theorem execSeWaite_keeps {a1 s} : Answers [.regs, .se] s (execSeWaite a1 s) := by
  unfold execSeWaite
  refine State.seOp_keeps (by decide) ?_ ?_
  · exact Keeps.refl _ _
  · intro y1 y2 y3
    refine Keeps.after State.seWait_keeps (by decide) ?_
    exact y3

theorem execSeWaitl_keeps {a1 a2 s} : Answers [.regs, .se] s (execSeWaitl a1 a2 s) := by
  unfold execSeWaitl
  refine State.seOp_keeps (by decide) ?_ ?_
  · exact Keeps.refl _ _
  · intro y1 y2 y3
    split
    refine Keeps.after State.seWait_keeps (by decide) ?_
    refine Keeps.of_pair (by assumption) ?_
    refine PairKeeps.after State.seSample_keeps (by decide) ?_
    exact y3

theorem execSeDelay_keeps {a1 s} : Answers [.regs, .se] s (execSeDelay a1 s) := by
  unfold execSeDelay
  refine State.seOp_keeps (by decide) ?_ ?_
  · exact Keeps.refl _ _
  · intro y1 y2 y3
    extract_lets x4
    refine Keeps.after State.seWait_keeps (by decide) ?_
    exact y3

theorem execSeAt_keeps {a1 s} : Answers [.regs, .se] s (execSeAt a1 s) := by
  unfold execSeAt
  refine State.seOp_keeps (by decide) ?_ ?_
  · exact Keeps.refl _ _
  · intro y1 y2 y3
    extract_lets x4
    refine Keeps.after State.seWait_keeps (by decide) ?_
    exact y3

theorem execSeSince_keeps {a1 s} : Answers [.regs, .se] s (execSeSince a1 s) := by
  unfold execSeSince
  refine State.seOp_keeps (by decide) ?_ ?_
  · exact Keeps.refl _ _
  · intro y1 y2 y3
    extract_lets x4 x5
    refine Keeps.after State.seWait_keeps (by decide) ?_
    exact y3

theorem State.seEdge_keeps {s a2 a3} : Keeps [.regs, .se] s (State.seEdge s a2 a3) := by
  unfold State.seEdge
  extract_lets x1
  have hx1 : Keeps [.regs, .se] s x1 := by
    unfold x1
    refine Keeps.after State.setSeReg_keeps (by decide) ?_
    refine Keeps.after State.setSeReg_keeps (by decide) ?_
    exact Keeps.refl _ _
  refine Keeps.after State.setEng_keeps (by decide) ?_
  exact hx1

theorem State.seResume_keeps {s a2 a3} : Keeps [.se] s (State.seResume s a2 a3) := by
  unfold State.seResume
  extract_lets x1 x2
  refine Keeps.after State.setEng_keeps (by decide) ?_
  exact Keeps.refl _ _

theorem execSeWaitSatisfied_keeps {a1 a2 a3 s} : Answers [.regs, .se] s (execSeWaitSatisfied a1 a2 a3 s) := by
  unfold execSeWaitSatisfied
  extract_lets x1 x2 x3 x4 x5 x6 x7 x8 x9 x10
  have hx6 : Keeps [.regs, .se] s x6 := by
    unfold x6
    refine Keeps.after State.seResume_keeps (by decide) ?_
    exact Keeps.refl _ _
  have hx7 : Keeps [.regs, .se] s x7 := by
    unfold x7
    refine Keeps.after State.seResume_keeps (by decide) ?_
    exact Keeps.refl _ _
  have hx10 : Keeps [.regs, .se] s x10 := by
    unfold x10
    refine Keeps.after State.setBit_keeps (by decide) ?_
    exact hx7
  refine Answers.ite ?_ ?_
  · refine Answers.next ?_
    exact Keeps.refl _ _
  · split
    · refine Answers.ite ?_ ?_
      · refine Answers.ite ?_ ?_
        · refine Answers.next ?_
          refine Keeps.after State.sePass_keeps (by decide) ?_
          exact hx6
        · refine Answers.next ?_
          exact Keeps.refl _ _
      · refine Answers.next ?_
        refine Keeps.after State.sePass_keeps (by decide) ?_
        refine Keeps.after State.seEdge_keeps (by decide) ?_
        refine Keeps.after State.setBit_keeps (by decide) ?_
        exact hx7
    · refine Answers.ite ?_ ?_
      · refine Answers.ite ?_ ?_
        · refine Answers.next ?_
          refine Keeps.after State.sePass_keeps (by decide) ?_
          exact hx6
        · refine Answers.next ?_
          exact Keeps.refl _ _
      · refine Answers.next ?_
        refine Keeps.after State.sePass_keeps (by decide) ?_
        refine Keeps.after State.setEng_keeps (by decide) ?_
        exact hx10
    · refine Answers.ite ?_ ?_
      · refine Answers.next ?_
        exact Keeps.refl _ _
      · refine Answers.next ?_
        refine Keeps.after State.sePass_keeps (by decide) ?_
        exact hx6
    · refine Answers.ite ?_ ?_
      · refine Answers.next ?_
        exact Keeps.refl _ _
      · refine Answers.next ?_
        refine Keeps.after State.sePass_keeps (by decide) ?_
        exact hx6
    · refine Answers.ite ?_ ?_
      · refine Answers.next ?_
        exact Keeps.refl _ _
      · refine Answers.next ?_
        refine Keeps.after State.sePass_keeps (by decide) ?_
        exact hx6
    · refine Answers.next ?_
      exact Keeps.refl _ _

theorem execSeLdi_keeps {a1 s} : Answers [.regs, .se] s (execSeLdi a1 s) := by
  unfold execSeLdi
  refine State.seOp_keeps (by decide) ?_ ?_
  · exact Keeps.refl _ _
  · intro y1 y2 y3
    refine Keeps.after State.seAdv_keeps (by decide) ?_
    refine Keeps.after State.setSeReg_keeps (by decide) ?_
    exact y3

theorem execSeLdh_keeps {a1 s} : Answers [.regs, .se] s (execSeLdh a1 s) := by
  unfold execSeLdh
  refine State.seOp_keeps (by decide) ?_ ?_
  · exact Keeps.refl _ _
  · intro y1 y2 y3
    refine Keeps.after State.seAdv_keeps (by decide) ?_
    refine Keeps.after State.setSeReg_keeps (by decide) ?_
    exact y3

theorem execSeMov_keeps {a1 s} : Answers [.regs, .se] s (execSeMov a1 s) := by
  unfold execSeMov
  refine State.seOp_keeps (by decide) ?_ ?_
  · exact Keeps.refl _ _
  · intro y1 y2 y3
    refine Keeps.after State.seAdv_keeps (by decide) ?_
    refine Keeps.after State.setSeReg_keeps (by decide) ?_
    exact y3

theorem execSeAdd_keeps {a1 s} : Answers [.regs, .se] s (execSeAdd a1 s) := by
  unfold execSeAdd
  refine State.seOp_keeps (by decide) ?_ ?_
  · exact Keeps.refl _ _
  · intro y1 y2 y3
    refine Keeps.after State.seAlu_keeps (by decide) ?_
    exact y3

theorem execSeSub_keeps {a1 s} : Answers [.regs, .se] s (execSeSub a1 s) := by
  unfold execSeSub
  refine State.seOp_keeps (by decide) ?_ ?_
  · exact Keeps.refl _ _
  · intro y1 y2 y3
    refine Keeps.after State.seAlu_keeps (by decide) ?_
    exact y3

theorem execSeCmp_keeps {a1 s} : Answers [.regs, .se] s (execSeCmp a1 s) := by
  unfold execSeCmp
  refine State.seOp_keeps (by decide) ?_ ?_
  · exact Keeps.refl _ _
  · intro y1 y2 y3
    extract_lets x4 x5 x6
    refine Keeps.after State.seAdv_keeps (by decide) ?_
    refine Keeps.after State.setEng_keeps (by decide) ?_
    exact y3

theorem execSeAnd_keeps {a1 s} : Answers [.regs, .se] s (execSeAnd a1 s) := by
  unfold execSeAnd
  refine State.seOp_keeps (by decide) ?_ ?_
  · exact Keeps.refl _ _
  · intro y1 y2 y3
    refine Keeps.after State.seAlu_keeps (by decide) ?_
    exact y3

theorem execSeShr_keeps {a1 s} : Answers [.regs, .se] s (execSeShr a1 s) := by
  unfold execSeShr
  refine State.seOp_keeps (by decide) ?_ ?_
  · exact Keeps.refl _ _
  · intro y1 y2 y3
    refine Keeps.after State.seAlu_keeps (by decide) ?_
    exact y3

theorem execSeMul_keeps {a1 s} : Answers [.regs, .se] s (execSeMul a1 s) := by
  unfold execSeMul
  refine State.seOp_keeps (by decide) ?_ ?_
  · exact Keeps.refl _ _
  · intro y1 y2 y3
    refine Keeps.after State.seAlu_keeps (by decide) ?_
    exact y3

theorem execSeDivr_keeps {a1 s} : Answers [.regs, .se] s (execSeDivr a1 s) := by
  unfold execSeDivr
  refine State.seOp_keeps (by decide) ?_ ?_
  · exact Keeps.refl _ _
  · intro y1 y2 y3
    refine Keeps.after State.seAlu_keeps (by decide) ?_
    refine Keeps.ite ?_ ?_
    · refine Keeps.after State.seT_keeps (by decide) ?_
      exact y3
    · exact y3

theorem execSeRev_keeps {a1 s} : Answers [.regs, .se] s (execSeRev a1 s) := by
  unfold execSeRev
  refine State.seOp_keeps (by decide) ?_ ?_
  · exact Keeps.refl _ _
  · intro y1 y2 y3
    refine Keeps.after State.seAdv_keeps (by decide) ?_
    refine Keeps.after State.setSeReg_keeps (by decide) ?_
    exact y3

theorem execSeJmp_keeps {a1 s} : Answers [.regs, .se] s (execSeJmp a1 s) := by
  unfold execSeJmp
  refine State.seOp_keeps (by decide) ?_ ?_
  · exact Keeps.refl _ _
  · intro y1 y2 y3
    refine Keeps.ite ?_ ?_
    · refine Keeps.after State.setSePc_keeps (by decide) ?_
      exact y3
    · refine Keeps.after State.seAdv_keeps (by decide) ?_
      exact y3

theorem execSeShi_keeps {a1 a2 s} : Answers [.regs, .se] s (execSeShi a1 a2 s) := by
  unfold execSeShi
  refine State.seOp_keeps (by decide) ?_ ?_
  · exact Keeps.refl _ _
  · intro y1 y2 y3
    split
    refine Keeps.after State.seAdv_keeps (by decide) ?_
    refine Keeps.after State.setSeReg_keeps (by decide) ?_
    refine Keeps.of_pair (by assumption) ?_
    refine PairKeeps.after State.seSample_keeps (by decide) ?_
    exact y3

theorem execSeSho_keeps {a1 s} : Answers [.regs, .se] s (execSeSho a1 s) := by
  unfold execSeSho
  refine State.seOp_keeps (by decide) ?_ ?_
  · exact Keeps.refl _ _
  · intro y1 y2 y3
    extract_lets x4
    refine Keeps.after State.seAdv_keeps (by decide) ?_
    refine Keeps.after State.setSeReg_keeps (by decide) ?_
    refine Keeps.after State.seDrive_keeps (by decide) ?_
    exact y3

theorem execSeCrci_keeps {a1 s} : Answers [.regs, .se] s (execSeCrci a1 s) := by
  unfold execSeCrci
  refine State.seOp_keeps (by decide) ?_ ?_
  · exact Keeps.refl _ _
  · intro y1 y2 y3
    refine Keeps.after State.seAdv_keeps (by decide) ?_
    refine Keeps.after State.setSeReg_keeps (by decide) ?_
    exact y3

theorem execSeCrcf_keeps {a1 s} : Answers [.regs, .se] s (execSeCrcf a1 s) := by
  unfold execSeCrcf
  refine State.seOp_keeps (by decide) ?_ ?_
  · exact Keeps.refl _ _
  · intro y1 y2 y3
    extract_lets x4 x5 x6 x7
    refine Keeps.after State.seAdv_keeps (by decide) ?_
    refine Keeps.after State.setSeReg_keeps (by decide) ?_
    exact y3

theorem execSeOpen_keeps {a1 s} : Answers [.regs, .se, .free] s (execSeOpen a1 s) := by
  unfold execSeOpen
  refine State.seOp_keeps (by decide) ?_ ?_
  · exact Keeps.refl _ _
  · intro y1 y2 y3
    extract_lets x4
    split
    extract_lets x5
    refine Keeps.after State.seAdv_keeps (by decide) ?_
    refine Keeps.after State.setSeCh_keeps (by decide) ?_
    refine Keeps.of_pair (by assumption) ?_
    split
    · refine PairKeeps.mk ?_
      exact y3
    · refine PairKeeps.mk ?_
      exact y3
    · refine PairKeeps.mk ?_
      exact y3
    · split
      refine PairKeeps.mk ?_
      refine Keeps.of_pair (by assumption) ?_
      refine PairKeeps.after State.drawWord_keeps (by decide) ?_
      exact y3

theorem execSeOut_keeps {a1 s} : Answers [.regs, .se] s (execSeOut a1 s) := by
  unfold execSeOut
  refine State.seOp_keeps (by decide) ?_ ?_
  · exact Keeps.refl _ _
  · intro y1 y2 y3
    extract_lets x4 x5
    have hx5 : Keeps [.regs, .se] s x5 := by
      unfold x5
      refine Keeps.ite ?_ ?_
      · refine Keeps.after State.tally_keeps (by decide) ?_
        exact y3
      · refine Keeps.after State.setSeCh_keeps (by decide) ?_
        exact y3
    refine Keeps.after State.seAdv_keeps (by decide) ?_
    exact hx5

theorem State.seDeliver_keeps {s a2 a3 a4} : Keeps [.ports] s (State.seDeliver s a2 a3 a4) := by
  unfold State.seDeliver
  split
  · extract_lets x1 x2
    refine Keeps.ite ?_ ?_
    · refine Keeps.after State.setPort_keeps (by decide) ?_
      exact Keeps.refl _ _
    · exact Keeps.refl _ _
  · exact Keeps.refl _ _

theorem State.seCommit_keeps {s a2 a3 a4} : Keeps [.regs, .ports, .se] s (State.seCommit s a2 a3 a4) := by
  unfold State.seCommit
  extract_lets x1 x2 x3 x4
  split
  extract_lets x5 x6 x7
  have hx5 : Keeps [.regs, .ports, .se] s x5 := by
    unfold x5
    refine Keeps.after State.wr_keeps (by decide) ?_
    exact Keeps.refl _ _
  have hx6 : Keeps [.regs, .ports, .se] s x6 := by
    unfold x6
    refine Keeps.after State.wrRegs_keeps (by decide) ?_
    exact hx5
  have hx7 : Keeps [.regs, .ports, .se] s x7 := by
    unfold x7
    refine Keeps.after State.setSeCh_keeps (by decide) ?_
    exact hx6
  refine Keeps.after State.seDeliver_keeps (by decide) ?_
  exact hx7

theorem execSeCmt_keeps {a1 s} : Answers [.regs, .ports, .se] s (execSeCmt a1 s) := by
  unfold execSeCmt
  refine State.seOp_keeps (by decide) ?_ ?_
  · exact Keeps.refl _ _
  · intro y1 y2 y3
    refine Keeps.after State.seAdv_keeps (by decide) ?_
    refine Keeps.after State.seCommit_keeps (by decide) ?_
    exact y3

theorem execSePushq_keeps {a1 s} : Answers [.regs, .pool, .se, .free] s (execSePushq a1 s) := by
  unfold execSePushq
  refine State.seOp_keeps (by decide) ?_ ?_
  · exact Keeps.refl _ _
  · intro y1 y2 y3
    extract_lets x4
    refine Keeps.after State.seAdv_keeps (by decide) ?_
    refine Keeps.of_snd ?_
    refine PairKeeps.after State.stage_keeps (by decide) ?_
    exact y3

theorem execSeGetk_keeps {a1 s} : Answers [.regs, .se] s (execSeGetk a1 s) := by
  unfold execSeGetk
  refine State.seOp_keeps (by decide) ?_ ?_
  · exact Keeps.refl _ _
  · intro y1 y2 y3
    extract_lets x4
    refine Keeps.after State.seAdv_keeps (by decide) ?_
    refine Keeps.after State.setBit_keeps (by decide) ?_
    refine Keeps.after State.setSeReg_keeps (by decide) ?_
    exact y3

theorem execSeRdc_keeps {a1 s} : Answers [.regs, .se] s (execSeRdc a1 s) := by
  unfold execSeRdc
  refine State.seOp_keeps (by decide) ?_ ?_
  · exact Keeps.refl _ _
  · intro y1 y2 y3
    extract_lets x4 x5
    refine Keeps.after State.seAdv_keeps (by decide) ?_
    refine Keeps.after State.setSeReg_keeps (by decide) ?_
    refine Keeps.after State.setSeReg_keeps (by decide) ?_
    refine Keeps.after State.setSeReg_keeps (by decide) ?_
    exact y3

theorem execSeBwpt_keeps {a1 s} : Answers [.regs, .se] s (execSeBwpt a1 s) := by
  unfold execSeBwpt
  refine State.seOp_keeps (by decide) ?_ ?_
  · exact Keeps.refl _ _
  · intro y1 y2 y3
    refine Keeps.ite ?_ ?_
    · split
      refine Keeps.after State.seTakeBw_keeps (by decide) ?_
      refine Keeps.of_pair (by assumption) ?_
      refine PairKeeps.after State.seAfter_keeps (by decide) ?_
      exact y3
    · refine Keeps.after State.seAdv_keeps (by decide) ?_
      exact y3

theorem execSeMark_keeps {a1 s} : Answers [.regs, .se] s (execSeMark a1 s) := by
  unfold execSeMark
  refine State.seOp_keeps (by decide) ?_ ?_
  · exact Keeps.refl _ _
  · intro y1 y2 y3
    extract_lets x4
    refine Keeps.after State.seAdv_keeps (by decide) ?_
    refine Keeps.ite ?_ ?_
    · exact y3
    · refine Keeps.ite ?_ ?_
      · refine Keeps.after State.setEng_keeps (by decide) ?_
        exact y3
      · refine Keeps.after State.setEng_keeps (by decide) ?_
        exact y3

theorem execSeRet_keeps {a1 s} : Answers [.regs, .se] s (execSeRet a1 s) := by
  unfold execSeRet
  refine State.seOp_keeps (by decide) ?_ ?_
  · exact Keeps.refl _ _
  · intro y1 y2 y3
    refine Keeps.ite ?_ ?_
    · refine Keeps.after State.setSePc_keeps (by decide) ?_
      refine Keeps.after State.setBit_keeps (by decide) ?_
      exact y3
    · refine Keeps.after State.seAdv_keeps (by decide) ?_
      exact y3

theorem execSeLdp_keeps {a1 s} : Answers [.regs, .se] s (execSeLdp a1 s) := by
  unfold execSeLdp
  refine State.seOp_keeps (by decide) ?_ ?_
  · exact Keeps.refl _ _
  · intro y1 y2 y3
    refine Keeps.after State.seAdv_keeps (by decide) ?_
    refine Keeps.after State.setSeReg_keeps (by decide) ?_
    exact y3

theorem execSePload_keeps {a1 s} : Answers [.regs, .se] s (execSePload a1 s) := by
  unfold execSePload
  refine State.seOp_keeps (by decide) ?_ ?_
  · exact Keeps.refl _ _
  · intro y1 y2 y3
    extract_lets x4 x5
    have hx5 : Keeps [.regs, .se] s x5 := by
      unfold x5
      refine Keeps.ite ?_ ?_
      · refine Keeps.ite ?_ ?_
        · refine Keeps.after State.wrRegs_keeps (by decide) ?_
          exact y3
        · exact y3
      · refine Keeps.ite ?_ ?_
        · refine Keeps.after State.setBit_keeps (by decide) ?_
          refine Keeps.after State.wrRegs_keeps (by decide) ?_
          exact y3
        · exact y3
    refine Keeps.after State.seAdv_keeps (by decide) ?_
    exact hx5

theorem execSeIrq_keeps {a1 s} : Answers [.regs, .se] s (execSeIrq a1 s) := by
  unfold execSeIrq
  refine State.seOp_keeps (by decide) ?_ ?_
  · exact Keeps.refl _ _
  · intro y1 y2 y3
    refine Keeps.after State.seAdv_keeps (by decide) ?_
    refine Keeps.after State.seEvt_keeps (by decide) ?_
    exact y3

theorem execSeStop_keeps {a1 s} : Answers [.regs, .se] s (execSeStop a1 s) := by
  unfold execSeStop
  refine State.seOp_keeps (by decide) ?_ ?_
  · exact Keeps.refl _ _
  · intro y1 y2 y3
    refine Keeps.after State.seLeave_keeps (by decide) ?_
    refine Keeps.after State.seAdv_keeps (by decide) ?_
    exact y3

theorem execSeUndefinedOperation_keeps {a1 s} : Answers [.regs, .se] s (execSeUndefinedOperation a1 s) := by
  unfold execSeUndefinedOperation
  refine Answers.ite ?_ ?_
  · refine Answers.next ?_
    refine Keeps.after State.seFail_keeps (by decide) ?_
    exact Keeps.refl _ _
  · refine Answers.next ?_
    exact Keeps.refl _ _

theorem execEdgeCounterEdge_keeps {a1 a2 a3 s} : Answers [.regs, .se] s (execEdgeCounterEdge a1 a2 a3 s) := by
  unfold execEdgeCounterEdge
  extract_lets x1 x2 x3 x4 x5 x6 x7
  have hx5 : Keeps [.regs, .se] s x5 := by
    unfold x5
    refine Keeps.after State.setBit_keeps (by decide) ?_
    exact Keeps.refl _ _
  have hx6 : Keeps [.regs, .se] s x6 := by
    unfold x6
    refine Keeps.after State.setEng_keeps (by decide) ?_
    exact hx5
  refine Answers.ite ?_ ?_
  · refine Answers.ite ?_ ?_
    · refine Answers.next ?_
      refine Keeps.after State.setEng_keeps (by decide) ?_
      refine Keeps.after State.wr_keeps (by decide) ?_
      exact hx6
    · refine Answers.next ?_
      exact hx6
  · refine Answers.next ?_
    exact Keeps.refl _ _

end Sys2Proof.Machine
end

