-- ==== Sys2Proof/Laws/Fold.lean ====
section
/-!
SUPPORT. Frames of Machine/Fold.lean: which parts of the state each of its operations and commands may change.
-/
namespace Sys2Proof.Machine

theorem State.dsTake_keeps {s a2} : Keeps [.ports] s (State.dsTake s a2) := by
  unfold State.dsTake
  split
  · exact Keeps.refl _ _
  · extract_lets x1 x2
    refine Keeps.after State.setPort_keeps (by decide) ?_
    exact Keeps.refl _ _

theorem State.setActive_keeps {s a2 a3} : Keeps [.regs] s (State.setActive s a2 a3) := by
  unfold State.setActive
  refine Keeps.after State.setBit_keeps (by decide) ?_
  refine Keeps.after State.setBit_keeps (by decide) ?_
  exact Keeps.refl _ _

theorem State.setMl_keeps {s a2 a3} : Keeps [.mbm] s (State.setMl s a2 a3) := by
  unfold State.setMl
  extract_lets x1
  refine Keeps.set_mbm (by decide) ?_
  exact Keeps.refl _ _

theorem State.listEnd_keeps {s a2} : Keeps [.regs, .mbm] s (State.listEnd s a2) := by
  unfold State.listEnd
  extract_lets x1 x2 x3
  have hx1 : Keeps [.regs, .mbm] s x1 := by
    unfold x1
    refine Keeps.after State.setFld_keeps (by decide) ?_
    exact Keeps.refl _ _
  have hx2 : Keeps [.regs, .mbm] s x2 := by
    unfold x2
    refine Keeps.after State.setActive_keeps (by decide) ?_
    refine Keeps.after State.wr_keeps (by decide) ?_
    exact hx1
  refine Keeps.after State.setMl_keeps (by decide) ?_
  exact hx2

theorem State.stopDone_keeps {s a2 a3} : Keeps [.regs, .hif, .mbm, .out] s (State.stopDone s a2 a3) := by
  unfold State.stopDone
  extract_lets x1
  have hx1 : Keeps [.regs, .hif, .mbm, .out] s x1 := by
    unfold x1
    refine Keeps.after State.listEnd_keeps (by decide) ?_
    exact Keeps.refl _ _
  refine Keeps.ite ?_ ?_
  · refine Keeps.after State.finish_keeps (by decide) ?_
    exact hx1
  · exact hx1

theorem State.stopCheck_keeps {s a2} : Keeps [.regs, .hif, .mbm, .out] s (State.stopCheck s a2) := by
  unfold State.stopCheck
  refine Keeps.ite ?_ ?_
  · refine Keeps.after State.stopDone_keeps (by decide) ?_
    exact Keeps.refl _ _
  · exact Keeps.refl _ _

theorem State.droverBegin_keeps {s} : Keeps [.regs, .hif, .mbm, .out] s (State.droverBegin s) := by
  unfold State.droverBegin
  split
  · extract_lets x1
    refine Keeps.ite ?_ ?_
    · refine Keeps.after State.recBegin_keeps (by decide) ?_
      refine Keeps.set_mbm (by decide) ?_
      exact Keeps.refl _ _
    · exact Keeps.refl _ _
  · exact Keeps.refl _ _

theorem State.mbmEvt_keeps {s a2 a3} : Keeps [.regs] s (State.mbmEvt s a2 a3) := by
  unfold State.mbmEvt
  extract_lets x1
  have hx1 : Keeps [.regs] s x1 := by
    unfold x1
    refine Keeps.after State.setBit_keeps (by decide) ?_
    exact Keeps.refl _ _
  refine Keeps.ite ?_ ?_
  · refine Keeps.after State.source_keeps (by decide) ?_
    exact hx1
  · exact hx1

theorem State.entPen_keeps {s a2 a3 a4} : Keeps [.regs, .hif, .out] s (State.entPen s a2 a3 a4) := by
  unfold State.entPen
  extract_lets x1 x2
  have hx2 : Keeps [.regs, .hif, .out] s x2 := by
    unfold x2
    refine Keeps.after State.mbmEvt_keeps (by decide) ?_
    refine Keeps.after State.setFld_keeps (by decide) ?_
    refine Keeps.after State.setBit_keeps (by decide) ?_
    exact Keeps.refl _ _
  refine Keeps.after State.event_keeps (by decide) ?_
  exact hx2

theorem State.entClassify_keeps {s a2 a3 a4 a5} : Keeps [.regs, .hif, .out] s (State.entClassify s a2 a3 a4 a5) := by
  unfold State.entClassify
  extract_lets x1 x2 x3 x4
  have hx2 : Keeps [.regs, .hif, .out] s x2 := by
    unfold x2
    refine Keeps.after State.tallyHi_keeps (by decide) ?_
    exact Keeps.refl _ _
  have hx4 : Keeps [.regs, .hif, .out] s x4 := by
    unfold x4
    refine Keeps.after State.setFld_keeps (by decide) ?_
    exact hx2
  refine Keeps.ite ?_ ?_
  · refine Keeps.after State.setFld_keeps (by decide) ?_
    refine Keeps.ite ?_ ?_
    · refine Keeps.after State.tally_keeps (by decide) ?_
      exact Keeps.refl _ _
    · exact Keeps.refl _ _
  · refine Keeps.ite ?_ ?_
    · refine Keeps.ite ?_ ?_
      · refine Keeps.after State.entPen_keeps (by decide) ?_
        exact hx4
      · exact hx4
    · exact Keeps.refl _ _

theorem State.mbmSpend_keeps {s a2 a3 a4} : Keeps [.mbm] s (State.mbmSpend s a2 a3 a4) := by
  induction a4 generalizing s a2 a3
  · rw [State.mbmSpend]
    exact Keeps.refl _ _
  · rename_i y ih
    rw [State.mbmSpend]
    extract_lets x1
    refine Keeps.after ih (fun _ k => k) ?_
    refine Keeps.after State.setMl_keeps (by decide) ?_
    exact Keeps.refl _ _

theorem State.foldWrs_keeps {s a2 a3 a4} :
    Keeps [.regs, .mem, .ecc, .hif, .cores, .coh, .mbm, .out] s (State.foldWrs s a2 a3 a4) := by
  unfold State.foldWrs
  refine Keeps.after State.coWrs_keeps (by decide) ?_
  refine Keeps.after State.mbmSpend_keeps (by decide) ?_
  exact Keeps.refl _ _

theorem State.foldWr_keeps {s a2 a3 a4} :
    Keeps [.regs, .mem, .ecc, .hif, .cores, .coh, .mbm, .out] s (State.foldWr s a2 a3 a4) := by
  unfold State.foldWr
  refine Keeps.after State.foldWrs_keeps (by decide) ?_
  exact Keeps.refl _ _

theorem State.entRecord_keeps {s a2 a3} :
    Keeps [.regs, .mem, .ecc, .hif, .cores, .coh, .mbm, .out] s (State.entRecord s a2 a3) := by
  unfold State.entRecord
  extract_lets x1 x2 x3
  have hx3 : Keeps [.regs, .mem, .ecc, .hif, .cores, .coh, .mbm, .out] s x3 := by
    unfold x3
    refine Keeps.after State.foldWr_keeps (by decide) ?_
    refine Keeps.after State.foldWr_keeps (by decide) ?_
    refine Keeps.after State.foldWr_keeps (by decide) ?_
    exact Keeps.refl _ _
  refine Keeps.ite ?_ ?_
  · refine Keeps.after State.foldWrs_keeps (by decide) ?_
    refine Keeps.after State.foldWr_keeps (by decide) ?_
    exact hx3
  · exact hx3

theorem State.setEnt_keeps {s a2 a3 a4} : Keeps [.mbm] s (State.setEnt s a2 a3 a4) := by
  unfold State.setEnt
  extract_lets x1
  refine Keeps.after State.setMl_keeps (by decide) ?_
  exact Keeps.refl _ _

theorem State.entFinish_keeps {s a2 a3 a4 a5} :
    Keeps [.regs, .mem, .ecc, .hif, .cores, .coh, .mbm, .out] s (State.entFinish s a2 a3 a4 a5) := by
  unfold State.entFinish
  extract_lets x1 x2 x3
  have hx2 : Keeps [.regs, .mem, .ecc, .hif, .cores, .coh, .mbm, .out] s x2 := by
    unfold x2
    refine Keeps.after State.setEnt_keeps (by decide) ?_
    exact Keeps.refl _ _
  have hx3 : Keeps [.regs, .mem, .ecc, .hif, .cores, .coh, .mbm, .out] s x3 := by
    unfold x3
    refine Keeps.after State.entClassify_keeps (by decide) ?_
    refine Keeps.after State.setFld_keeps (by decide) ?_
    exact hx2
  refine Keeps.ite ?_ ?_
  · refine Keeps.after State.entRecord_keeps (by decide) ?_
    exact hx3
  · exact hx3

theorem State.entBegin_keeps {s a2 a3} :
    Keeps [.regs, .mem, .ecc, .hif, .cores, .coh, .mbm, .out] s (State.entBegin s a2 a3) := by
  unfold State.entBegin
  extract_lets x1 x2
  have hx2 : Keeps [.regs, .mem, .ecc, .hif, .cores, .coh, .mbm, .out] s x2 := by
    unfold x2
    refine Keeps.after State.setEnt_keeps (by decide) ?_
    exact Keeps.refl _ _
  refine Keeps.ite ?_ ?_
  · refine Keeps.ite ?_ ?_
    · refine Keeps.after State.entRecord_keeps (by decide) ?_
      exact Keeps.refl _ _
    · exact Keeps.refl _ _
  · split
    · refine Keeps.after State.entFinish_keeps (by decide) ?_
      exact hx2
    · exact hx2

theorem State.forEnts_keeps {s a2 f3} {F : List Part} {s0} (_hF : ∀ p ∈ ([] : List Part), p ∈ F) (h : Keeps F s0 s)
    (hf3 : ∀ x1 x2, Keeps F s0 x2 → Keeps F s0 (f3 x1 x2)) :
    Keeps F s0 (State.forEnts s a2 f3) := by
  unfold State.forEnts
  refine Keeps.foldl ?_ ?_
  · exact h
  · intro y1 y2 y3
    refine hf3 _ _ ?_
    exact y3

theorem State.setPhase_keeps {s a2 a3} : Keeps [.regs] s (State.setPhase s a2 a3) := by
  unfold State.setPhase
  refine Keeps.after State.setFld_keeps (by decide) ?_
  exact Keeps.refl _ _

theorem State.setRunning_keeps {s a2 a3} : Keeps [.regs] s (State.setRunning s a2 a3) := by
  unfold State.setRunning
  refine Keeps.after State.setBit_keeps (by decide) ?_
  refine Keeps.after State.setBit_keeps (by decide) ?_
  exact Keeps.refl _ _

theorem State.musterStart_keeps {s a2 a3 a4} :
    Keeps [.regs, .mem, .ecc, .hif, .cores, .coh, .mbm, .out] s (State.musterStart s a2 a3 a4) := by
  unfold State.musterStart
  extract_lets x1 x2 x3 x4 x5 x6 x7 x8 x9 x10 x11 x12 x13
  have hx9 : Keeps [.regs, .mem, .ecc, .hif, .cores, .coh, .mbm, .out] s x9 := by
    unfold x9
    refine Keeps.repeatN ?_ ?_
    · refine Keeps.after State.droverBegin_keeps (by decide) ?_
      refine Keeps.after State.copiesDrop_keeps (by decide) ?_
      exact Keeps.refl _ _
    · intro y14 y15
      refine Keeps.after State.tally_keeps (by decide) ?_
      exact y15
  have hx12 : Keeps [.regs, .mem, .ecc, .hif, .cores, .coh, .mbm, .out] s x12 := by
    unfold x12
    refine Keeps.after State.setMl_keeps (by decide) ?_
    exact hx9
  have hx13 : Keeps [.regs, .mem, .ecc, .hif, .cores, .coh, .mbm, .out] s x13 := by
    unfold x13
    refine Keeps.after State.setPhase_keeps (by decide) ?_
    refine Keeps.after State.setRunning_keeps (by decide) ?_
    exact hx12
  refine State.forEnts_keeps (by decide) ?_ ?_
  · refine Keeps.after State.foldWr_keeps (by decide) ?_
    exact hx13
  · intro y16 y17 y18
    refine Keeps.after State.entBegin_keeps (by decide) ?_
    exact y18

theorem State.musterTrigger_keeps {s a2 a3 a4 a5} :
    Keeps [.regs, .mem, .ecc, .hif, .cores, .coh, .mbm, .out] s (State.musterTrigger s a2 a3 a4 a5) := by
  unfold State.musterTrigger
  refine Keeps.ite ?_ ?_
  · exact Keeps.refl _ _
  · refine Keeps.ite ?_ ?_
    · refine Keeps.ite ?_ ?_
      · exact Keeps.refl _ _
      · refine Keeps.after State.tally_keeps (by decide) ?_
        exact Keeps.refl _ _
    · refine Keeps.ite ?_ ?_
      · exact Keeps.refl _ _
      · refine Keeps.after State.musterStart_keeps (by decide) ?_
        exact Keeps.refl _ _

theorem State.kickDrop_keeps {s a2 a3} : Keeps [.regs] s (State.kickDrop s a2 a3) := by
  unfold State.kickDrop
  extract_lets x1
  refine Keeps.ite ?_ ?_
  · refine Keeps.after State.setBit_keeps (by decide) ?_
    exact Keeps.refl _ _
  · exact Keeps.refl _ _

theorem State.portFree_keeps {s a2} : Keeps [.ports] s (State.portFree s a2) := by
  unfold State.portFree
  extract_lets x1
  refine Keeps.after State.setPort_keeps (by decide) ?_
  exact Keeps.refl _ _

theorem State.entDiscard_keeps {s a2 a3} : Keeps [.regs, .ports, .mbm] s (State.entDiscard s a2 a3) := by
  unfold State.entDiscard
  extract_lets x1 x2 x3
  have hx3 : Keeps [.regs, .ports, .mbm] s x3 := by
    unfold x3
    refine Keeps.after State.setEnt_keeps (by decide) ?_
    exact Keeps.refl _ _
  refine Keeps.ite ?_ ?_
  · refine Keeps.after State.portFree_keeps (by decide) ?_
    refine Keeps.after State.kickDrop_keeps (by decide) ?_
    exact hx3
  · refine Keeps.after State.setUse_keeps (by decide) ?_
    exact hx3

theorem State.aheadDrop_keeps {s a2 a3} : Keeps [.regs, .ports, .mbm] s (State.aheadDrop s a2 a3) := by
  unfold State.aheadDrop
  extract_lets x1 x2
  have hx2 : Keeps [.regs, .ports, .mbm] s x2 := by
    unfold x2
    refine Keeps.ite ?_ ?_
    · refine Keeps.after State.entDiscard_keeps (by decide) ?_
      exact Keeps.refl _ _
    · refine Keeps.after State.setEnt_keeps (by decide) ?_
      exact Keeps.refl _ _
  refine Keeps.ite ?_ ?_
  · exact Keeps.refl _ _
  · refine Keeps.after State.setEnt_keeps (by decide) ?_
    exact hx2

theorem State.aheadsDrop_keeps {s a2} : Keeps [.regs, .ports, .mbm] s (State.aheadsDrop s a2) := by
  unfold State.aheadsDrop
  refine Keeps.ite ?_ ?_
  · exact Keeps.refl _ _
  · refine State.forEnts_keeps (by decide) ?_ ?_
    · exact Keeps.refl _ _
    · intro y1 y2 y3
      refine Keeps.after State.aheadDrop_keeps (by decide) ?_
      exact y3

theorem State.entCancel_keeps {s a2 a3} : Keeps [.regs, .ports, .mbm] s (State.entCancel s a2 a3) := by
  unfold State.entCancel
  extract_lets x1 x2
  have hx2 : Keeps [.regs, .ports, .mbm] s x2 := by
    unfold x2
    refine Keeps.ite ?_ ?_
    · refine Keeps.after State.entDiscard_keeps (by decide) ?_
      exact Keeps.refl _ _
    · refine Keeps.ite ?_ ?_
      · refine Keeps.after State.setEnt_keeps (by decide) ?_
        exact Keeps.refl _ _
      · exact Keeps.refl _ _
  refine Keeps.after State.setEnt_keeps (by decide) ?_
  exact hx2

theorem State.musterCancel_keeps {s a2} : Keeps [.regs, .ports, .mbm] s (State.musterCancel s a2) := by
  unfold State.musterCancel
  extract_lets x1 x2 x3
  have hx1 : Keeps [.regs, .ports, .mbm] s x1 := by
    unfold x1
    refine State.forEnts_keeps (by decide) ?_ ?_
    · exact Keeps.refl _ _
    · intro y4 y5 y6
      refine Keeps.after State.entCancel_keeps (by decide) ?_
      exact y6
  have hx2 : Keeps [.regs, .ports, .mbm] s x2 := by
    unfold x2
    refine Keeps.after State.setPhase_keeps (by decide) ?_
    refine Keeps.after State.setRunning_keeps (by decide) ?_
    exact hx1
  refine Keeps.ite ?_ ?_
  · exact Keeps.refl _ _
  · refine Keeps.after State.tally_keeps (by decide) ?_
    refine Keeps.after State.setMl_keeps (by decide) ?_
    exact hx2

theorem State.mbmRootLost_keeps {s} : Keeps [.regs, .hif, .ports, .mbm, .out] s (State.mbmRootLost s) := by
  unfold State.mbmRootLost
  refine Keeps.forN ?_ ?_
  · exact Keeps.refl _ _
  · intro y1 y2 y3
    refine Keeps.ite ?_ ?_
    · refine Keeps.after State.stopCheck_keeps (by decide) ?_
      refine Keeps.after State.aheadsDrop_keeps (by decide) ?_
      refine Keeps.after State.musterCancel_keeps (by decide) ?_
      exact y3
    · exact y3

theorem State.entAttempt_keeps {s a2 a3 a4} : Keeps [.regs, .ports, .se, .mbm] s (State.entAttempt s a2 a3 a4) := by
  unfold State.entAttempt
  extract_lets x1 x2 x3 x4 x5 x6 x7 x8 x9 x10 x11 x12 x13
  have hx3 : Keeps [.regs, .ports, .se, .mbm] s x3 := by
    unfold x3
    refine Keeps.after State.setEnt_keeps (by decide) ?_
    exact Keeps.refl _ _
  have hx5 : Keeps [.regs, .ports, .se, .mbm] s x5 := by
    unfold x5
    refine Keeps.after State.setPort_keeps (by decide) ?_
    exact hx3
  have hx8 : Keeps [.regs, .ports, .se, .mbm] s x8 := by
    unfold x8
    refine Keeps.after State.setPort_keeps (by decide) ?_
    exact hx5
  have hx9 : Keeps [.regs, .ports, .se, .mbm] s x9 := by
    unfold x9
    refine Keeps.after State.dsTake_keeps (by decide) ?_
    exact hx5
  have hx13 : Keeps [.regs, .ports, .se, .mbm] s x13 := by
    unfold x13
    refine Keeps.after State.setEng_keeps (by decide) ?_
    exact hx5
  refine Keeps.ite ?_ ?_
  · refine Keeps.after State.lineStart_keeps (by decide) ?_
    refine Keeps.after State.twTake_keeps (by decide) ?_
    exact hx8
  · refine Keeps.ite ?_ ?_
    · refine Keeps.after State.setEnt_keeps (by decide) ?_
      exact hx9
    · refine Keeps.ite ?_ ?_
      · split
        · refine Keeps.after State.setPort_keeps (by decide) ?_
          exact hx5
        · refine Keeps.after State.setBit_keeps (by decide) ?_
          exact hx13
        · exact hx5
      · exact hx5

theorem State.entEnd_keeps {s a2 a3 a4 a5 a6} :
    Keeps [.regs, .mem, .ecc, .hif, .cores, .coh, .ports, .se, .mbm, .out] s (State.entEnd s a2 a3 a4 a5 a6) := by
  unfold State.entEnd
  extract_lets x1 x2 x3 x4
  have hx3 : Keeps [.regs, .mem, .ecc, .hif, .cores, .coh, .ports, .se, .mbm, .out] s x3 := by
    unfold x3
    refine Keeps.after State.setEnt_keeps (by decide) ?_
    exact Keeps.refl _ _
  split
  · refine Keeps.ite ?_ ?_
    · exact Keeps.refl _ _
    · refine Keeps.ite ?_ ?_
      · refine Keeps.after State.portFree_keeps (by decide) ?_
        exact Keeps.refl _ _
      · refine Keeps.ite ?_ ?_
        · refine Keeps.after State.entFinish_keeps (by decide) ?_
          refine Keeps.after State.portFree_keeps (by decide) ?_
          exact hx3
        · refine Keeps.ite ?_ ?_
          · refine Keeps.after State.entFinish_keeps (by decide) ?_
            refine Keeps.after State.portFree_keeps (by decide) ?_
            exact hx3
          · refine Keeps.ite ?_ ?_
            · refine Keeps.ite ?_ ?_
              · refine Keeps.after State.setEnt_keeps (by decide) ?_
                refine Keeps.after State.portFree_keeps (by decide) ?_
                exact hx3
              · refine Keeps.after State.entAttempt_keeps (by decide) ?_
                exact hx3
            · refine Keeps.after State.entFinish_keeps (by decide) ?_
              refine Keeps.after State.portFree_keeps (by decide) ?_
              exact hx3
  · exact Keeps.refl _ _

theorem State.entStart_keeps {s a2 a3} :
    Keeps [.regs, .mem, .ecc, .hif, .cores, .coh, .ports, .se, .mbm, .out] s (State.entStart s a2 a3) := by
  unfold State.entStart
  extract_lets x1
  refine Keeps.ite ?_ ?_
  · refine Keeps.after State.entFinish_keeps (by decide) ?_
    refine Keeps.after State.setEnt_keeps (by decide) ?_
    exact Keeps.refl _ _
  · refine Keeps.after State.entAttempt_keeps (by decide) ?_
    exact Keeps.refl _ _

theorem State.attemptTimeout_keeps {s a2 a3} :
    Keeps [.regs, .mem, .ecc, .hif, .cores, .coh, .ports, .se, .mbm, .out] s (State.attemptTimeout s a2 a3) := by
  unfold State.attemptTimeout
  extract_lets x1
  refine Keeps.after State.entEnd_keeps (by decide) ?_
  refine Keeps.after State.setEnt_keeps (by decide) ?_
  refine Keeps.after State.kickDrop_keeps (by decide) ?_
  exact Keeps.refl _ _

theorem State.entCut_keeps {s a2 a3} :
    Keeps [.regs, .mem, .ecc, .hif, .cores, .coh, .ports, .mbm, .out] s (State.entCut s a2 a3) := by
  unfold State.entCut
  extract_lets x1 x2 x3
  have hx2 : Keeps [.regs, .mem, .ecc, .hif, .cores, .coh, .ports, .mbm, .out] s x2 := by
    unfold x2
    refine Keeps.after State.entDiscard_keeps (by decide) ?_
    exact Keeps.refl _ _
  split
  · refine Keeps.after State.entFinish_keeps (by decide) ?_
    exact Keeps.refl _ _
  · refine Keeps.after State.entFinish_keeps (by decide) ?_
    exact Keeps.refl _ _
  · refine Keeps.after State.entFinish_keeps (by decide) ?_
    refine Keeps.after State.setEnt_keeps (by decide) ?_
    exact hx2
  · refine Keeps.after State.entFinish_keeps (by decide) ?_
    refine Keeps.after State.setEnt_keeps (by decide) ?_
    exact hx2
  · exact Keeps.refl _ _

theorem State.mbmReturn_keeps {s} : Keeps [.mbm] s (State.mbmReturn s) := by
  unfold State.mbmReturn
  refine Keeps.forN ?_ ?_
  · exact Keeps.refl _ _
  · intro y1 y2 y3
    extract_lets x4 x5
    refine Keeps.ite ?_ ?_
    · refine Keeps.after State.setMl_keeps (by decide) ?_
      exact y3
    · exact y3

end Sys2Proof.Machine
end

