-- ==== Sys2Proof/Laws/Shared.lean ====
section
/-!
SUPPORT. Frames of Machine/Shared.lean: which parts of the state each of its operations and commands may change.
-/
namespace Sys2Proof.Machine

theorem State.coreStart_keeps {s a2} : Keeps [.regs, .boot, .cores] s (State.coreStart s a2) := by
  unfold State.coreStart
  extract_lets x1 x2 x3 x4 x5
  have hx3 : Keeps [.regs, .boot, .cores] s x3 := by
    unfold x3
    refine Keeps.ite ?_ ?_
    · refine Keeps.set_boot (by decide) ?_
      exact Keeps.refl _ _
    · exact Keeps.refl _ _
  have hx4 : Keeps [.regs, .boot, .cores] s x4 := by
    unfold x4
    refine Keeps.after State.setCore_keeps (by decide) ?_
    exact hx3
  have hx5 : Keeps [.regs, .boot, .cores] s x5 := by
    unfold x5
    refine Keeps.after State.setBit_keeps (by decide) ?_
    exact hx4
  refine Keeps.ite ?_ ?_
  · refine Keeps.after State.setFld_keeps (by decide) ?_
    exact hx5
  · exact hx5

theorem State.rootStops_keeps {s a2} : Keeps [.regs, .clk, .hif, .ports, .mbm, .out] s (State.rootStops s a2) := by
  unfold State.rootStops
  extract_lets x1 x2 x3
  have hx2 : Keeps [.regs, .clk, .hif, .ports, .mbm, .out] s x2 := by
    unfold x2
    refine Keeps.set_clk (by decide) ?_
    exact Keeps.refl _ _
  have hx3 : Keeps [.regs, .clk, .hif, .ports, .mbm, .out] s x3 := by
    unfold x3
    refine Keeps.after State.setBit_keeps (by decide) ?_
    exact hx2
  refine Keeps.ite ?_ ?_
  · refine Keeps.after State.mbmRootLost_keeps (by decide) ?_
    exact hx3
  · exact hx3

theorem State.icuReset_keeps {s a2} : Keeps [.regs] s (State.icuReset s a2) := by
  unfold State.icuReset
  extract_lets x1
  refine Keeps.set_regs (by decide) (Tab.wf_tkeep _) ?_
  exact Keeps.refl _ _

theorem State.rootResumes_keeps {s} : Keeps [.regs, .clk, .se] s (State.rootResumes s) := by
  unfold State.rootResumes
  extract_lets x1 x2 x3 x4
  have hx3 : Keeps [.regs, .clk, .se] s x3 := by
    unfold x3
    refine Keeps.set_clk (by decide) ?_
    exact Keeps.refl _ _
  have hx4 : Keeps [.regs, .clk, .se] s x4 := by
    unfold x4
    refine Keeps.after State.qdLost_keeps (by decide) ?_
    exact hx3
  refine Keeps.ite ?_ ?_
  · refine Keeps.forN ?_ ?_
    · exact hx4
    · intro y5 y6 y7
      refine Keeps.ite ?_ ?_
      · refine Keeps.after State.seLeave_keeps (by decide) ?_
        exact y7
      · exact y7
  · exact hx4

end Sys2Proof.Machine
end

