-- ==== Sys2Proof/Laws/Boot.lean ====
section
/-!
SUPPORT. Frames of Machine/Boot.lean: which parts of the state each of its operations and commands may change.
-/
namespace Sys2Proof.Machine

theorem State.flashRead_keeps {s a2 a3} : Keeps [.out] s (State.flashRead s a2 a3) := by
  unfold State.flashRead
  extract_lets x1
  refine Keeps.ite ?_ ?_
  · refine Keeps.after State.emit_keeps (by decide) ?_
    exact Keeps.refl _ _
  · refine Keeps.after State.emit_keeps (by decide) ?_
    exact Keeps.refl _ _

theorem State.readStaged_keeps {a1 a2 s} :
    PairKeeps [.regs, .mem, .ecc, .hif, .cores, .coh, .out] s (State.readStaged a1 a2 s) := by
  induction a1 generalizing s a2
  · rw [State.readStaged]
    refine PairKeeps.mk ?_
    exact Keeps.refl _ _
  · rename_i y ih
    rw [State.readStaged]
    refine PairKeeps.ite ?_ ?_
    · refine PairKeeps.mk ?_
      exact Keeps.refl _ _
    · split
      split
      split
      · refine PairKeeps.mk ?_
        refine Keeps.of_pair (by assumption) ?_
        refine PairKeeps.after ih (fun _ k => k) ?_
        refine Keeps.of_pair (by assumption) ?_
        refine PairKeeps.after State.coRd_keeps (by decide) ?_
        exact Keeps.refl _ _
      · refine PairKeeps.mk ?_
        refine Keeps.of_pair (by assumption) ?_
        refine PairKeeps.after ih (fun _ k => k) ?_
        refine Keeps.of_pair (by assumption) ?_
        refine PairKeeps.after State.coRd_keeps (by decide) ?_
        exact Keeps.refl _ _

theorem State.bootFlash_keeps {s} : Keeps [.regs] s (State.bootFlash s) := by
  unfold State.bootFlash
  refine Keeps.ite ?_ ?_
  · refine Keeps.after State.wr_keeps (by decide) ?_
    refine Keeps.after State.wr_keeps (by decide) ?_
    exact Keeps.refl _ _
  · refine Keeps.ite ?_ ?_
    · refine Keeps.after State.wr_keeps (by decide) ?_
      refine Keeps.after State.wr_keeps (by decide) ?_
      exact Keeps.refl _ _
    · exact Keeps.refl _ _

theorem State.bootHold_keeps {s a2} : Keeps [.regs, .boot] s (State.bootHold s a2) := by
  unfold State.bootHold
  extract_lets x1 x2
  have hx1 : Keeps [.regs, .boot] s x1 := by
    unfold x1
    refine Keeps.after State.bootFlash_keeps (by decide) ?_
    exact Keeps.refl _ _
  refine Keeps.after State.setFld_keeps (by decide) ?_
  refine Keeps.set_boot (by decide) ?_
  exact hx1

theorem State.bootFresh_keeps {s} : Keeps [.boot] s (State.bootFresh s) := by
  unfold State.bootFresh
  extract_lets x1
  refine Keeps.set_boot (by decide) ?_
  exact Keeps.refl _ _

theorem State.bootFallback_keeps {s} : Keeps [.regs, .boot] s (State.bootFallback s) := by
  unfold State.bootFallback
  extract_lets x1 x2 x3
  have hx1 : Keeps [.regs, .boot] s x1 := by
    unfold x1
    refine Keeps.after State.setBit_keeps (by decide) ?_
    exact Keeps.refl _ _
  have hx3 : Keeps [.regs, .boot] s x3 := by
    unfold x3
    refine Keeps.set_boot (by decide) ?_
    exact hx1
  refine Keeps.ite ?_ ?_
  · refine Keeps.after State.bootFresh_keeps (by decide) ?_
    exact hx3
  · refine Keeps.after State.bootHold_keeps (by decide) ?_
    exact Keeps.refl _ _

theorem State.itemFailed_keeps {s} : Keeps [.boot] s (State.itemFailed s) := by
  unfold State.itemFailed
  extract_lets x1
  refine Keeps.ite ?_ ?_
  · refine Keeps.set_boot (by decide) ?_
    exact Keeps.refl _ _
  · refine Keeps.set_boot (by decide) ?_
    exact Keeps.refl _ _

theorem State.drawWords_keeps {a1 s} : PairKeeps [.free] s (State.drawWords a1 s) := by
  induction a1 generalizing s
  · rw [State.drawWords]
    refine PairKeeps.mk ?_
    exact Keeps.refl _ _
  · rename_i y ih
    rw [State.drawWords]
    split
    split
    refine PairKeeps.mk ?_
    refine Keeps.of_pair (by assumption) ?_
    refine PairKeeps.after ih (fun _ k => k) ?_
    refine Keeps.of_pair (by assumption) ?_
    refine PairKeeps.after State.drawWord_keeps (by decide) ?_
    exact Keeps.refl _ _

theorem State.fullWrites_keeps {s a2 a3} : Keeps [.mem, .ecc] s (State.fullWrites s a2 a3) := by
  induction a3 generalizing s a2
  · rw [State.fullWrites]
    exact Keeps.refl _ _
  · rename_i y ih
    rw [State.fullWrites]
    refine Keeps.after ih (fun _ k => k) ?_
    refine Keeps.after State.fullWrite_keeps (by decide) ?_
    exact Keeps.refl _ _

theorem State.loadWords_keeps {s a2 a3 a4} :
    Keeps [.regs, .mem, .ecc, .hif, .cores, .coh, .out] s (State.loadWords s a2 a3 a4) := by
  unfold State.loadWords
  refine Keeps.ite ?_ ?_
  · refine Keeps.after State.coWrs_keeps (by decide) ?_
    exact Keeps.refl _ _
  · refine Keeps.after State.fullWrites_keeps (by decide) ?_
    exact Keeps.refl _ _

theorem State.sectFailed_keeps {s a2} :
    Keeps [.regs, .mem, .ecc, .boot, .hif, .cores, .coh, .out, .free] s (State.sectFailed s a2) := by
  unfold State.sectFailed
  extract_lets x1
  refine Keeps.ite ?_ ?_
  · split
    extract_lets x2 x3
    have hx2 : Keeps [.regs, .mem, .ecc, .boot, .hif, .cores, .coh, .out, .free] s x2 := by
      unfold x2
      refine Keeps.after State.loadWords_keeps (by decide) ?_
      refine Keeps.of_pair (by assumption) ?_
      refine PairKeeps.after State.drawWords_keeps (by decide) ?_
      exact Keeps.refl _ _
    refine Keeps.after State.bootFallback_keeps (by decide) ?_
    refine Keeps.set_boot (by decide) ?_
    exact hx2
  · refine Keeps.set_boot (by decide) ?_
    exact Keeps.refl _ _

theorem State.itemOk_keeps {s} : Keeps [.regs, .boot] s (State.itemOk s) := by
  unfold State.itemOk
  extract_lets x1 x2
  have hx1 : Keeps [.regs, .boot] s x1 := by
    unfold x1
    refine Keeps.ite ?_ ?_
    · refine Keeps.after State.tally_keeps (by decide) ?_
      exact Keeps.refl _ _
    · exact Keeps.refl _ _
  refine Keeps.set_boot (by decide) ?_
  exact hx1

theorem State.itemWords_keeps {s a2 a3 a4} :
    PairKeeps [.regs, .mem, .ecc, .hif, .cores, .coh, .out] s (State.itemWords s a2 a3 a4) := by
  unfold State.itemWords
  split
  · refine PairKeeps.after State.readStaged_keeps (by decide) ?_
    exact Keeps.refl _ _
  · refine PairKeeps.mk ?_
    refine Keeps.after State.flashRead_keeps (by decide) ?_
    exact Keeps.refl _ _

theorem execBootItemRead_keeps {a1 s} :
    Answers [.regs, .mem, .ecc, .boot, .hif, .cores, .coh, .out, .free] s (execBootItemRead a1 s) := by
  unfold execBootItemRead
  refine Answers.ite ?_ ?_
  · refine Answers.next ?_
    exact Keeps.refl _ _
  · split
    · split
      split
      · extract_lets x1 x2
        have hx1 : Keeps [.regs, .mem, .ecc, .boot, .hif, .cores, .coh, .out, .free] s x1 := by
          unfold x1
          refine Keeps.after State.itemOk_keeps (by decide) ?_
          refine Keeps.of_pair (by assumption) ?_
          refine PairKeeps.after State.itemWords_keeps (by decide) ?_
          exact Keeps.refl _ _
        refine Answers.ite ?_ ?_
        · refine Answers.ite ?_ ?_
          · refine Answers.next ?_
            refine Keeps.set_boot (by decide) ?_
            exact hx1
          · refine Answers.next ?_
            refine Keeps.set_boot (by decide) ?_
            exact hx1
        · refine Answers.next ?_
          refine Keeps.after State.itemFailed_keeps (by decide) ?_
          refine Keeps.of_pair (by assumption) ?_
          refine PairKeeps.after State.itemWords_keeps (by decide) ?_
          exact Keeps.refl _ _
      · refine Answers.next ?_
        refine Keeps.after State.itemFailed_keeps (by decide) ?_
        refine Keeps.of_pair (by assumption) ?_
        refine PairKeeps.after State.itemWords_keeps (by decide) ?_
        exact Keeps.refl _ _
    · extract_lets x3 x4 x5
      split
      split
      · split
        split
        · extract_lets x6 x7 x8
          have hx7 : Keeps [.regs, .mem, .ecc, .boot, .hif, .cores, .coh, .out, .free] s x7 := by
            unfold x7
            refine Keeps.after State.itemOk_keeps (by decide) ?_
            refine Keeps.of_pair (by assumption) ?_
            refine PairKeeps.after State.itemWords_keeps (by decide) ?_
            refine Keeps.of_pair (by assumption) ?_
            refine PairKeeps.after State.itemWords_keeps (by decide) ?_
            exact Keeps.refl _ _
          refine Answers.ite ?_ ?_
          · refine Answers.next ?_
            refine Keeps.set_boot (by decide) ?_
            exact hx7
          · refine Answers.next ?_
            refine Keeps.after State.itemFailed_keeps (by decide) ?_
            refine Keeps.of_pair (by assumption) ?_
            refine PairKeeps.after State.itemWords_keeps (by decide) ?_
            refine Keeps.of_pair (by assumption) ?_
            refine PairKeeps.after State.itemWords_keeps (by decide) ?_
            exact Keeps.refl _ _
        · refine Answers.next ?_
          refine Keeps.after State.itemFailed_keeps (by decide) ?_
          refine Keeps.of_pair (by assumption) ?_
          refine PairKeeps.after State.itemWords_keeps (by decide) ?_
          refine Keeps.of_pair (by assumption) ?_
          refine PairKeeps.after State.itemWords_keeps (by decide) ?_
          exact Keeps.refl _ _
      · refine Answers.next ?_
        refine Keeps.after State.itemFailed_keeps (by decide) ?_
        refine Keeps.of_pair (by assumption) ?_
        refine PairKeeps.after State.itemWords_keeps (by decide) ?_
        exact Keeps.refl _ _
    · extract_lets x9
      split
      split
      · extract_lets x10 x11 x12
        have hx10 : Keeps [.regs, .mem, .ecc, .boot, .hif, .cores, .coh, .out, .free] s x10 := by
          unfold x10
          refine Keeps.after State.loadWords_keeps (by decide) ?_
          refine Keeps.after State.itemOk_keeps (by decide) ?_
          refine Keeps.of_pair (by assumption) ?_
          refine PairKeeps.after State.itemWords_keeps (by decide) ?_
          exact Keeps.refl _ _
        refine Answers.ite ?_ ?_
        · refine Answers.next ?_
          refine Keeps.set_boot (by decide) ?_
          exact hx10
        · refine Answers.next ?_
          refine Keeps.after State.sectFailed_keeps (by decide) ?_
          refine Keeps.of_pair (by assumption) ?_
          refine PairKeeps.after State.itemWords_keeps (by decide) ?_
          exact Keeps.refl _ _
      · refine Answers.next ?_
        refine Keeps.after State.sectFailed_keeps (by decide) ?_
        refine Keeps.of_pair (by assumption) ?_
        refine PairKeeps.after State.itemWords_keeps (by decide) ?_
        exact Keeps.refl _ _
    · refine Answers.next ?_
      exact Keeps.refl _ _

theorem execBootCheckOutcome_keeps {s} : Answers [.regs, .boot] s (execBootCheckOutcome s) := by
  unfold execBootCheckOutcome
  extract_lets x1 x2
  refine Answers.ite ?_ ?_
  · refine Answers.next ?_
    exact Keeps.refl _ _
  · refine Answers.ite ?_ ?_
    · refine Answers.next ?_
      refine Keeps.after State.bootFallback_keeps (by decide) ?_
      exact Keeps.refl _ _
    · split
      extract_lets x3
      have hx3 : Keeps [.regs, .boot] s x3 := by
        unfold x3
        refine Keeps.after State.setFld_keeps (by decide) ?_
        exact Keeps.refl _ _
      refine Answers.ite ?_ ?_
      · refine Answers.next ?_
        unfold x2
        extract_lets x4
        refine Keeps.set_boot (by decide) ?_
        exact hx3
      · refine Answers.ite ?_ ?_
        · refine Answers.next ?_
          unfold x2
          extract_lets x5
          refine Keeps.set_boot (by decide) ?_
          refine Keeps.after State.setBit_keeps (by decide) ?_
          refine Keeps.after State.setBit_keeps (by decide) ?_
          exact hx3
        · refine Answers.next ?_
          refine Keeps.after State.bootHold_keeps (by decide) ?_
          exact hx3

theorem State.codeLoaded_keeps {s a2 a3} : Keeps [.regs] s (State.codeLoaded s a2 a3) := by
  unfold State.codeLoaded
  split
  · refine Keeps.after State.setFld_keeps (by decide) ?_
    refine Keeps.after State.wr_keeps (by decide) ?_
    exact Keeps.refl _ _
  · exact Keeps.refl _ _

theorem execBootCopyDone_keeps {s} : Answers [.regs, .boot, .cores] s (execBootCopyDone s) := by
  unfold execBootCopyDone
  extract_lets x1 x2 x3 x4 x5 x6
  have hx2 : Keeps [.regs, .boot, .cores] s x2 := by
    unfold x2
    refine Keeps.after State.bootFlash_keeps (by decide) ?_
    refine Keeps.after State.codeLoaded_keeps (by decide) ?_
    exact Keeps.refl _ _
  have hx5 : Keeps [.regs, .boot, .cores] s x5 := by
    unfold x5
    refine Keeps.set_boot (by decide) ?_
    exact hx2
  have hx6 : Keeps [.regs, .boot, .cores] s x6 := by
    unfold x6
    refine Keeps.after State.setFld_keeps (by decide) ?_
    exact hx5
  refine Answers.ite ?_ ?_
  · refine Answers.next ?_
    exact Keeps.refl _ _
  · refine Answers.next ?_
    refine Keeps.ite ?_ ?_
    · refine Keeps.after State.coreStart_keeps (by decide) ?_
      exact hx6
    · exact hx6

theorem State.bootgo_keeps {s a2} : Keeps [.regs, .boot] s (State.bootgo s a2) := by
  unfold State.bootgo
  extract_lets x1
  refine Keeps.ite ?_ ?_
  · exact Keeps.refl _ _
  · refine Keeps.ite ?_ ?_
    · refine Keeps.after State.bootFresh_keeps (by decide) ?_
      refine Keeps.after State.setFld_keeps (by decide) ?_
      exact Keeps.refl _ _
    · refine Keeps.after State.setBit_keeps (by decide) ?_
      exact Keeps.refl _ _

theorem execBootgo_keeps {a1 s} : Answers [.regs, .boot] s (execBootgo a1 s) := by
  unfold execBootgo
  refine Answers.next ?_
  refine Keeps.ite ?_ ?_
  · refine Keeps.after State.bootgo_keeps (by decide) ?_
    exact Keeps.refl _ _
  · exact Keeps.refl _ _

theorem State.bootforce_keeps {s a2} : Keeps [.regs, .boot] s (State.bootforce s a2) := by
  unfold State.bootforce
  extract_lets x1 x2
  have hx1 : Keeps [.regs, .boot] s x1 := by
    unfold x1
    refine Keeps.after State.bootFresh_keeps (by decide) ?_
    refine Keeps.after State.setFld_keeps (by decide) ?_
    exact Keeps.refl _ _
  refine Keeps.ite ?_ ?_
  · refine Keeps.set_boot (by decide) ?_
    exact hx1
  · refine Keeps.after State.setBit_keeps (by decide) ?_
    exact Keeps.refl _ _

theorem execBootforce_keeps {a1 s} : Answers [.regs, .boot] s (execBootforce a1 s) := by
  unfold execBootforce
  refine Answers.next ?_
  refine Keeps.ite ?_ ?_
  · refine Keeps.after State.bootforce_keeps (by decide) ?_
    exact Keeps.refl _ _
  · exact Keeps.refl _ _

end Sys2Proof.Machine
end

