-- ==== Sys2Proof/Laws/PortOps.lean ====
section
/-!
SUPPORT. Frames of Machine/PortOps.lean: which parts of the state each of its operations and commands may change.
-/
namespace Sys2Proof.Machine

theorem State.swEnd_keeps {s a2 a3} : Keeps [.regs] s (State.swEnd s a2 a3) := by
  unfold State.swEnd
  extract_lets x1
  refine Keeps.ite ?_ ?_
  · refine Keeps.after State.twEvt_keeps (by decide) ?_
    refine Keeps.after State.wr_keeps (by decide) ?_
    refine Keeps.after State.setBit_keeps (by decide) ?_
    exact Keeps.refl _ _
  · refine Keeps.ite ?_ ?_
    · refine Keeps.after State.dsEvt_keeps (by decide) ?_
      refine Keeps.after State.wr_keeps (by decide) ?_
      refine Keeps.after State.setBit_keeps (by decide) ?_
      exact Keeps.refl _ _
    · exact Keeps.refl _ _

theorem State.bellMark_keeps {s a2 a3} :
    Keeps [.regs, .mem, .ecc, .hif, .cores, .coh, .mbm, .out] s (State.bellMark s a2 a3) := by
  unfold State.bellMark
  refine State.forEnts_keeps (by decide) ?_ ?_
  · exact Keeps.refl _ _
  · intro y1 y2 y3
    refine Keeps.ite ?_ ?_
    · refine Keeps.after State.foldWr_keeps (by decide) ?_
      exact y3
    · exact y3

theorem State.bellEnd_keeps {s a2 a3 a4} :
    Keeps [.regs, .mem, .ecc, .hif, .cores, .coh, .mbm, .out] s (State.bellEnd s a2 a3 a4) := by
  unfold State.bellEnd
  extract_lets x1 x2 x3 x4
  have hx3 : Keeps [.regs, .mem, .ecc, .hif, .cores, .coh, .mbm, .out] s x3 := by
    unfold x3
    refine Keeps.after State.setMl_keeps (by decide) ?_
    exact Keeps.refl _ _
  have hx4 : Keeps [.regs, .mem, .ecc, .hif, .cores, .coh, .mbm, .out] s x4 := by
    unfold x4
    refine Keeps.ite ?_ ?_
    · exact hx3
    · refine Keeps.after State.bellMark_keeps (by decide) ?_
      exact hx3
  refine Keeps.ite ?_ ?_
  · refine Keeps.after State.setPhase_keeps (by decide) ?_
    exact hx4
  · exact hx4

theorem State.bellsBad_keeps {s a2} :
    Keeps [.regs, .mem, .ecc, .hif, .cores, .coh, .mbm, .out] s (State.bellsBad s a2) := by
  unfold State.bellsBad
  refine Keeps.forN ?_ ?_
  · exact Keeps.refl _ _
  · intro y1 y2 y3
    refine Keeps.ite ?_ ?_
    · refine Keeps.after State.bellEnd_keeps (by decide) ?_
      exact y3
    · exact y3

theorem State.entStop_keeps {s a2 a3 a4} :
    Keeps [.regs, .mem, .ecc, .hif, .cores, .coh, .mbm, .out] s (State.entStop s a2 a3 a4) := by
  unfold State.entStop
  extract_lets x1 x2
  refine Keeps.ite ?_ ?_
  · refine Keeps.after State.entFinish_keeps (by decide) ?_
    refine Keeps.after State.kickDrop_keeps (by decide) ?_
    refine Keeps.after State.setEnt_keeps (by decide) ?_
    exact Keeps.refl _ _
  · exact Keeps.refl _ _

theorem State.entsStop_keeps {s a2 a3} :
    Keeps [.regs, .mem, .ecc, .hif, .cores, .coh, .mbm, .out] s (State.entsStop s a2 a3) := by
  unfold State.entsStop
  refine Keeps.forN ?_ ?_
  · exact Keeps.refl _ _
  · intro y1 y2 y3
    refine State.forEnts_keeps (by decide) ?_ ?_
    · exact y3
    · intro y4 y5 y6
      refine Keeps.ite ?_ ?_
      · refine Keeps.after State.entStop_keeps (by decide) ?_
        exact y6
      · exact y6

theorem State.portQuiet_keeps {s a2 a3} : Keeps [.regs, .ports] s (State.portQuiet s a2 a3) := by
  unfold State.portQuiet
  extract_lets x1 x2
  have hx1 : Keeps [.regs, .ports] s x1 := by
    unfold x1
    split
    · exact Keeps.refl _ _
    · refine Keeps.after State.portFree_keeps (by decide) ?_
      exact Keeps.refl _ _
  have hx2 : Keeps [.regs, .ports] s x2 := by
    unfold x2
    refine Keeps.ite ?_ ?_
    · refine Keeps.after State.setBit_keeps (by decide) ?_
      exact hx1
    · exact hx1
  refine Keeps.ite ?_ ?_
  · refine Keeps.after State.swEnd_keeps (by decide) ?_
    exact hx2
  · exact hx2

theorem State.portStop_keeps {s a2 a3} :
    Keeps [.regs, .mem, .ecc, .hif, .cores, .coh, .ports, .se, .mbm, .out] s (State.portStop s a2 a3) := by
  unfold State.portStop
  extract_lets x1
  have hx1 : Keeps [.regs, .mem, .ecc, .hif, .cores, .coh, .ports, .se, .mbm, .out] s x1 := by
    unfold x1
    refine Keeps.after State.entsStop_keeps (by decide) ?_
    refine Keeps.after State.bellsBad_keeps (by decide) ?_
    refine Keeps.after State.portQuiet_keeps (by decide) ?_
    exact Keeps.refl _ _
  refine Keeps.ite ?_ ?_
  · refine Keeps.after State.seHold_keeps (by decide) ?_
    exact hx1
  · exact hx1

theorem State.quarBegin_keeps {s a2} :
    Keeps [.regs, .mem, .ecc, .hif, .cores, .coh, .ports, .se, .mbm, .out] s (State.quarBegin s a2) := by
  unfold State.quarBegin
  refine Keeps.foldl ?_ ?_
  · exact Keeps.refl _ _
  · intro y1 y2 y3
    refine Keeps.after State.portStop_keeps (by decide) ?_
    exact y3

theorem State.portProofStart_keeps {s a2} : Keeps [.regs, .ports, .se] s (State.portProofStart s a2) := by
  unfold State.portProofStart
  extract_lets x1
  have hx1 : Keeps [.regs, .ports, .se] s x1 := by
    unfold x1
    refine Keeps.after State.setUse_keeps (by decide) ?_
    exact Keeps.refl _ _
  refine Keeps.ite ?_ ?_
  · refine Keeps.after State.seHold_keeps (by decide) ?_
    exact hx1
  · exact hx1

theorem State.identFree_keeps {s a2} : Keeps [.regs, .ports, .se] s (State.identFree s a2) := by
  unfold State.identFree
  extract_lets x1 x2
  have hx2 : Keeps [.regs, .ports, .se] s x2 := by
    unfold x2
    refine Keeps.after State.portFree_keeps (by decide) ?_
    exact Keeps.refl _ _
  refine Keeps.ite ?_ ?_
  · refine Keeps.ite ?_ ?_
    · refine Keeps.after State.portProofStart_keeps (by decide) ?_
      exact hx2
    · exact hx2
  · exact Keeps.refl _ _

theorem State.quarEnd_keeps {s a2} : Keeps [.regs, .se] s (State.quarEnd s a2) := by
  unfold State.quarEnd
  refine Keeps.foldl ?_ ?_
  · exact Keeps.refl _ _
  · intro y1 y2 y3
    refine Keeps.ite ?_ ?_
    · refine Keeps.after State.seUnhold_keeps (by decide) ?_
      exact y3
    · exact y3

theorem State.ppEnter_keeps {s a2 a3} :
    Keeps [.regs, .mem, .ecc, .hif, .cores, .coh, .ports, .se, .mbm, .out] s (State.ppEnter s a2 a3) := by
  unfold State.ppEnter
  extract_lets x1 x2 x3
  have hx2 : Keeps [.regs, .mem, .ecc, .hif, .cores, .coh, .ports, .se, .mbm, .out] s x2 := by
    unfold x2
    refine Keeps.ite ?_ ?_
    · refine Keeps.after State.identFree_keeps (by decide) ?_
      exact Keeps.refl _ _
    · exact Keeps.refl _ _
  have hx3 : Keeps [.regs, .mem, .ecc, .hif, .cores, .coh, .ports, .se, .mbm, .out] s x3 := by
    unfold x3
    refine Keeps.after State.setFld_keeps (by decide) ?_
    exact hx2
  refine Keeps.ite ?_ ?_
  · refine Keeps.after State.quarBegin_keeps (by decide) ?_
    exact hx3
  · refine Keeps.ite ?_ ?_
    · refine Keeps.after State.quarEnd_keeps (by decide) ?_
      exact hx3
    · exact hx3

theorem State.ppSwitch_keeps {s a2 a3} : Keeps [.regs, .pp] s (State.ppSwitch s a2 a3) := by
  unfold State.ppSwitch
  extract_lets x1 x2 x3
  have hx2 : Keeps [.regs, .pp] s x2 := by
    unfold x2
    refine Keeps.after State.setBit_keeps (by decide) ?_
    refine Keeps.after State.setBit_keeps (by decide) ?_
    exact Keeps.refl _ _
  refine Keeps.ite ?_ ?_
  · exact hx2
  · refine Keeps.after State.setPpc_keeps (by decide) ?_
    exact hx2

theorem State.twRateWrite_keeps {s a2 a3} : Keeps [.regs] s (State.twRateWrite s a2 a3) := by
  unfold State.twRateWrite
  refine Keeps.after State.wr_keeps (by decide) ?_
  exact Keeps.refl _ _

theorem State.identStart_keeps {s a2} : Keeps [.regs, .ports, .pp] s (State.identStart s a2) := by
  unfold State.identStart
  extract_lets x1 x2 x3 x4 x5 x6
  have hx2 : Keeps [.regs, .ports, .pp] s x2 := by
    unfold x2
    refine Keeps.after State.setPpc_keeps (by decide) ?_
    exact Keeps.refl _ _
  have hx5 : Keeps [.regs, .ports, .pp] s x5 := by
    unfold x5
    refine Keeps.after State.setUse_keeps (by decide) ?_
    exact hx2
  refine Keeps.ite ?_ ?_
  · exact hx2
  · refine Keeps.ite ?_ ?_
    · refine Keeps.ite ?_ ?_
      · refine Keeps.after State.setPpc_keeps (by decide) ?_
        exact hx5
      · refine Keeps.after State.dsTake_keeps (by decide) ?_
        refine Keeps.after State.lineStart_keeps (by decide) ?_
        exact hx5
    · exact hx2

theorem State.portAdmit_keeps {s a2} : Keeps [.regs, .ports, .se, .pp] s (State.portAdmit s a2) := by
  unfold State.portAdmit
  extract_lets x1 x2 x3 x4 x5 x6
  have hx1 : Keeps [.regs, .ports, .se, .pp] s x1 := by
    unfold x1
    refine Keeps.after State.setReason_keeps (by decide) ?_
    exact Keeps.refl _ _
  have hx2 : Keeps [.regs, .ports, .se, .pp] s x2 := by
    unfold x2
    refine Keeps.after State.setFld_keeps (by decide) ?_
    refine Keeps.after State.setBit_keeps (by decide) ?_
    refine Keeps.after State.setBit_keeps (by decide) ?_
    exact hx1
  have hx5 : Keeps [.regs, .ports, .se, .pp] s x5 := by
    unfold x5
    refine Keeps.ite ?_ ?_
    · refine Keeps.after State.setFld_keeps (by decide) ?_
      refine Keeps.after State.setPort_keeps (by decide) ?_
      exact hx2
    · refine Keeps.after State.wr_keeps (by decide) ?_
      exact hx1
  have hx6 : Keeps [.regs, .ports, .se, .pp] s x6 := by
    unfold x6
    refine Keeps.ite ?_ ?_
    · refine Keeps.after State.seUnhold_keeps (by decide) ?_
      exact hx5
    · exact hx5
  refine Keeps.forN ?_ ?_
  · exact hx6
  · intro y7 y8 y9
    refine Keeps.ite ?_ ?_
    · refine Keeps.after State.identStart_keeps (by decide) ?_
      exact y9
    · exact y9

theorem State.portPen_keeps {s a2 a3} :
    Keeps [.regs, .mem, .ecc, .hif, .cores, .coh, .ports, .se, .mbm, .out] s (State.portPen s a2 a3) := by
  unfold State.portPen
  extract_lets x1 x2 x3 x4
  have hx2 : Keeps [.regs, .mem, .ecc, .hif, .cores, .coh, .ports, .se, .mbm, .out] s x2 := by
    unfold x2
    refine Keeps.after State.setPort_keeps (by decide) ?_
    exact Keeps.refl _ _
  have hx3 : Keeps [.regs, .mem, .ecc, .hif, .cores, .coh, .ports, .se, .mbm, .out] s x3 := by
    unfold x3
    refine Keeps.after State.portStop_keeps (by decide) ?_
    refine Keeps.after State.setReason_keeps (by decide) ?_
    exact hx2
  have hx4 : Keeps [.regs, .mem, .ecc, .hif, .cores, .coh, .ports, .se, .mbm, .out] s x4 := by
    unfold x4
    refine Keeps.ite ?_ ?_
    · refine Keeps.after State.twEvt_keeps (by decide) ?_
      refine Keeps.after State.setBit_keeps (by decide) ?_
      exact hx3
    · refine Keeps.ite ?_ ?_
      · refine Keeps.after State.dsEvt_keeps (by decide) ?_
        exact hx3
      · exact hx3
  refine Keeps.after State.event_keeps (by decide) ?_
  exact hx4

theorem State.cycleFail_keeps {s a2} :
    Keeps [.regs, .mem, .ecc, .hif, .cores, .coh, .ports, .se, .mbm, .out] s (State.cycleFail s a2) := by
  unfold State.cycleFail
  refine Keeps.ite ?_ ?_
  · refine Keeps.after State.portPen_keeps (by decide) ?_
    exact Keeps.refl _ _
  · exact Keeps.refl _ _

theorem State.cyclesFail_keeps {s a2} :
    Keeps [.regs, .mem, .ecc, .hif, .cores, .coh, .ports, .se, .mbm, .pp, .out] s (State.cyclesFail s a2) := by
  unfold State.cyclesFail
  extract_lets x1 x2 x3
  have hx3 : Keeps [.regs, .mem, .ecc, .hif, .cores, .coh, .ports, .se, .mbm, .pp, .out] s x3 := by
    unfold x3
    refine Keeps.after State.setPpc_keeps (by decide) ?_
    exact Keeps.refl _ _
  refine Keeps.foldl ?_ ?_
  · exact hx3
  · intro y4 y5 y6
    refine Keeps.after State.cycleFail_keeps (by decide) ?_
    exact y6

theorem State.ppEvt_keeps {s a2 a3} : Keeps [.regs] s (State.ppEvt s a2 a3) := by
  unfold State.ppEvt
  extract_lets x1
  have hx1 : Keeps [.regs] s x1 := by
    unfold x1
    refine Keeps.after State.setBit_keeps (by decide) ?_
    exact Keeps.refl _ _
  refine Keeps.ite ?_ ?_
  · refine Keeps.after State.source_keeps (by decide) ?_
    exact hx1
  · exact hx1

theorem State.ppPen_keeps {s a2 a3} :
    Keeps [.regs, .mem, .ecc, .hif, .cores, .coh, .ports, .se, .mbm, .pp, .out] s (State.ppPen s a2 a3) := by
  unfold State.ppPen
  extract_lets x1 x2 x3 x4
  have hx1 : Keeps [.regs, .mem, .ecc, .hif, .cores, .coh, .ports, .se, .mbm, .pp, .out] s x1 := by
    unfold x1
    refine Keeps.ite ?_ ?_
    · exact Keeps.refl _ _
    · refine Keeps.after State.ppSwitch_keeps (by decide) ?_
      exact Keeps.refl _ _
  have hx3 : Keeps [.regs, .mem, .ecc, .hif, .cores, .coh, .ports, .se, .mbm, .pp, .out] s x3 := by
    unfold x3
    refine Keeps.after State.setPpc_keeps (by decide) ?_
    exact hx1
  have hx4 : Keeps [.regs, .mem, .ecc, .hif, .cores, .coh, .ports, .se, .mbm, .pp, .out] s x4 := by
    unfold x4
    refine Keeps.after State.setBit_keeps (by decide) ?_
    refine Keeps.after State.setFld_keeps (by decide) ?_
    exact hx3
  refine Keeps.after State.cyclesFail_keeps (by decide) ?_
  refine Keeps.after State.ppEvt_keeps (by decide) ?_
  refine Keeps.after State.ppEnter_keeps (by decide) ?_
  exact hx4

theorem State.twLineError_keeps {s a2} : Keeps [.regs, .hif, .ports, .out] s (State.twLineError s a2) := by
  unfold State.twLineError
  extract_lets x1 x2 x3 x4
  have hx1 : Keeps [.regs, .hif, .ports, .out] s x1 := by
    unfold x1
    refine Keeps.after State.tally_keeps (by decide) ?_
    exact Keeps.refl _ _
  have hx4 : Keeps [.regs, .hif, .ports, .out] s x4 := by
    unfold x4
    refine Keeps.after State.setPort_keeps (by decide) ?_
    exact hx1
  refine Keeps.ite ?_ ?_
  · refine Keeps.after State.setPort_keeps (by decide) ?_
    exact hx1
  · refine Keeps.ite ?_ ?_
    · refine Keeps.after State.setPort_keeps (by decide) ?_
      exact hx1
    · refine Keeps.ite ?_ ?_
      · exact hx4
      · refine Keeps.after State.event_keeps (by decide) ?_
        refine Keeps.after State.twEvt_keeps (by decide) ?_
        refine Keeps.after State.setBit_keeps (by decide) ?_
        exact hx4

theorem State.powerCycle_keeps {s a2} :
    Keeps [.regs, .mem, .ecc, .hif, .cores, .coh, .ports, .se, .mbm, .pp, .out] s (State.powerCycle s a2) := by
  unfold State.powerCycle
  split
  · refine Keeps.after State.cycleFail_keeps (by decide) ?_
    exact Keeps.refl _ _
  · extract_lets x1 x2
    have hx2 : Keeps [.regs, .mem, .ecc, .hif, .cores, .coh, .ports, .se, .mbm, .pp, .out] s x2 := by
      unfold x2
      refine Keeps.after State.setPpc_keeps (by decide) ?_
      exact Keeps.refl _ _
    refine Keeps.ite ?_ ?_
    · refine Keeps.after State.ppEnter_keeps (by decide) ?_
      refine Keeps.after State.ppSwitch_keeps (by decide) ?_
      exact hx2
    · refine Keeps.after State.cycleFail_keeps (by decide) ?_
      exact Keeps.refl _ _

end Sys2Proof.Machine
end

