-- ==== Sys2Proof/Laws/DdrSerial.lean ====
section
/-!
SUPPORT. Frames of Machine/DdrSerial.lean: which parts of the state each of its operations and commands may change.
-/
namespace Sys2Proof.Machine

theorem State.dsRxdata_keeps {s a2 a3} : PairKeeps [.ports] s (State.dsRxdata s a2 a3) := by
  unfold State.dsRxdata
  extract_lets x1
  refine PairKeeps.ite ?_ ?_
  · refine PairKeeps.mk ?_
    exact Keeps.refl _ _
  · refine PairKeeps.mk ?_
    refine Keeps.after State.setPort_keeps (by decide) ?_
    exact Keeps.refl _ _

theorem State.dsRxlen_keeps {s a2 a3} : PairKeeps [.ports] s (State.dsRxlen s a2 a3) := by
  unfold State.dsRxlen
  extract_lets x1
  refine PairKeeps.ite ?_ ?_
  · refine PairKeeps.mk ?_
    exact Keeps.refl _ _
  · split
    · refine PairKeeps.mk ?_
      exact Keeps.refl _ _
    · refine PairKeeps.mk ?_
      refine Keeps.after State.setPort_keeps (by decide) ?_
      exact Keeps.refl _ _

theorem State.flashFrame_keeps {s a2 a3} : Keeps [.out] s (State.flashFrame s a2 a3) := by
  unfold State.flashFrame
  extract_lets x1 x2
  refine Keeps.after State.emit_keeps (by decide) ?_
  exact Keeps.refl _ _

theorem State.dsProf_keeps {s a2 a3 a4} : Keeps [.regs] s (State.dsProf s a2 a3 a4) := by
  unfold State.dsProf
  extract_lets x1 x2
  refine Keeps.ite ?_ ?_
  · refine Keeps.after State.wlrej_keeps (by decide) ?_
    exact Keeps.refl _ _
  · refine Keeps.ite ?_ ?_
    · refine Keeps.after State.setBit_keeps (by decide) ?_
      exact Keeps.refl _ _
    · refine Keeps.after State.wr_keeps (by decide) ?_
      exact Keeps.refl _ _

theorem State.dsSwctl_keeps {s a2 a3} : Keeps [.regs, .ports] s (State.dsSwctl s a2 a3) := by
  unfold State.dsSwctl
  extract_lets x1 x2 x3
  have hx2 : Keeps [.regs, .ports] s x2 := by
    unfold x2
    refine Keeps.after State.wr_keeps (by decide) ?_
    exact Keeps.refl _ _
  have hx3 : Keeps [.regs, .ports] s x3 := by
    unfold x3
    refine Keeps.after State.setBit_keeps (by decide) ?_
    exact hx2
  refine Keeps.ite ?_ ?_
  · exact Keeps.refl _ _
  · refine Keeps.ite ?_ ?_
    · exact hx2
    · refine Keeps.ite ?_ ?_
      · refine Keeps.after State.swEnd_keeps (by decide) ?_
        exact hx2
      · refine Keeps.ite ?_ ?_
        · exact hx2
        · refine Keeps.ite ?_ ?_
          · refine Keeps.after State.swEnd_keeps (by decide) ?_
            exact hx2
          · refine Keeps.ite ?_ ?_
            · refine Keeps.after State.dsTake_keeps (by decide) ?_
              refine Keeps.after State.setUse_keeps (by decide) ?_
              exact hx3
            · exact hx3

theorem State.dsTx_keeps {s a2 a3} : Keeps [.ports] s (State.dsTx s a2 a3) := by
  unfold State.dsTx
  extract_lets x1
  refine Keeps.ite ?_ ?_
  · refine Keeps.after State.setPort_keeps (by decide) ?_
    exact Keeps.refl _ _
  · exact Keeps.refl _ _

theorem execDsSwctlGo_keeps {a1 a2 s} : Answers [.regs, .ports] s (execDsSwctlGo a1 a2 s) := by
  unfold execDsSwctlGo
  refine Answers.next ?_
  refine Keeps.ite ?_ ?_
  · refine Keeps.after State.dsSwctl_keeps (by decide) ?_
    exact Keeps.refl _ _
  · exact Keeps.refl _ _

theorem State.strb_keeps {s a2} : Keeps [.regs] s (State.strb s a2) := by
  unfold State.strb
  refine Keeps.after State.tally_keeps (by decide) ?_
  exact Keeps.refl _ _

theorem State.dsEntryEnd_keeps {s a2 a3 a4 a5 a6} :
    Keeps [.regs, .mem, .ecc, .hif, .cores, .coh, .ports, .se, .mbm, .out] s (State.dsEntryEnd s a2 a3 a4 a5 a6) := by
  unfold State.dsEntryEnd
  extract_lets x1 x2
  refine Keeps.ite ?_ ?_
  · refine Keeps.after State.entEnd_keeps (by decide) ?_
    refine Keeps.after State.strb_keeps (by decide) ?_
    exact Keeps.refl _ _
  · refine Keeps.after State.entEnd_keeps (by decide) ?_
    exact Keeps.refl _ _

theorem State.dsSwEnd_keeps {s a2 a3 a4} : Keeps [.regs, .ports] s (State.dsSwEnd s a2 a3 a4) := by
  unfold State.dsSwEnd
  extract_lets x1 x2 x3 x4
  have hx4 : Keeps [.regs, .ports] s x4 := by
    unfold x4
    refine Keeps.after State.portFree_keeps (by decide) ?_
    exact Keeps.refl _ _
  refine Keeps.ite ?_ ?_
  · refine Keeps.after State.swEnd_keeps (by decide) ?_
    exact hx4
  · refine Keeps.ite ?_ ?_
    · refine Keeps.after State.swEnd_keeps (by decide) ?_
      refine Keeps.after State.strb_keeps (by decide) ?_
      exact hx4
    · refine Keeps.after State.swEnd_keeps (by decide) ?_
      refine Keeps.after State.wrRegs_keeps (by decide) ?_
      exact hx4

theorem execDsFrameEnd_keeps {a1 a2 a3 s} :
    Answers [.regs, .mem, .ecc, .hif, .cores, .coh, .ports, .se, .mbm, .pp, .out] s (execDsFrameEnd a1 a2 a3 s) := by
  unfold execDsFrameEnd
  extract_lets x1
  refine Answers.ite ?_ ?_
  · refine Answers.next ?_
    exact Keeps.refl _ _
  · split
    · refine Answers.next ?_
      refine Keeps.after State.dsEntryEnd_keeps (by decide) ?_
      exact Keeps.refl _ _
    · extract_lets x2
      refine Answers.next ?_
      refine Keeps.ite ?_ ?_
      · refine Keeps.after State.setPpc_keeps (by decide) ?_
        refine Keeps.after State.strb_keeps (by decide) ?_
        exact Keeps.refl _ _
      · exact Keeps.refl _ _
    · refine Answers.next ?_
      refine Keeps.after State.dsSwEnd_keeps (by decide) ?_
      exact Keeps.refl _ _
    · refine Answers.next ?_
      refine Keeps.ite ?_ ?_
      · refine Keeps.after State.dsSwEnd_keeps (by decide) ?_
        exact Keeps.refl _ _
      · exact Keeps.refl _ _
    · refine Answers.next ?_
      exact Keeps.refl _ _

theorem execDsTargetFrame_keeps {a1 a2 a3 a4 s} : Answers [.regs, .ports] s (execDsTargetFrame a1 a2 a3 a4 s) := by
  unfold execDsTargetFrame
  extract_lets x1 x2 x3 x4 x5 x6 x7 x8 x9
  have hx8 : Keeps [.regs, .ports] s x8 := by
    unfold x8
    refine Keeps.after State.setPort_keeps (by decide) ?_
    exact Keeps.refl _ _
  refine Answers.ite ?_ ?_
  · refine Answers.next ?_
    exact Keeps.refl _ _
  · refine Answers.ite ?_ ?_
    · refine Answers.next ?_
      refine Keeps.after State.dsEvt_keeps (by decide) ?_
      refine Keeps.after State.tally_keeps (by decide) ?_
      exact hx8
    · refine Answers.ite ?_ ?_
      · refine Answers.next ?_
        refine Keeps.after State.dsEvt_keeps (by decide) ?_
        refine Keeps.after State.tallyHi_keeps (by decide) ?_
        exact hx8
      · refine Answers.next ?_
        refine Keeps.after State.dsEvt_keeps (by decide) ?_
        refine Keeps.after State.setPort_keeps (by decide) ?_
        exact hx8

theorem execDsRxdataRead_keeps {a1 a2 a3 s} :
    Answers [.hif, .ports, .out, .reply, .free] s (execDsRxdataRead a1 a2 a3 s) := by
  unfold execDsRxdataRead
  refine Answers.next ?_
  refine State.readBy_keeps (by decide) ?_ ?_
  · exact Keeps.refl _ _
  · intro y1 y2
    split
    refine PairKeeps.mk ?_
    refine Keeps.of_pair (by assumption) ?_
    refine PairKeeps.after State.dsRxdata_keeps (by decide) ?_
    exact y2

theorem execDsRxlenRead_keeps {a1 a2 a3 s} :
    Answers [.hif, .ports, .out, .reply, .free] s (execDsRxlenRead a1 a2 a3 s) := by
  unfold execDsRxlenRead
  refine Answers.next ?_
  refine State.readBy_keeps (by decide) ?_ ?_
  · exact Keeps.refl _ _
  · intro y1 y2
    split
    refine PairKeeps.mk ?_
    refine Keeps.of_pair (by assumption) ?_
    refine PairKeeps.after State.dsRxlen_keeps (by decide) ?_
    exact y2

theorem execDsTxdata_keeps {a1 a2 s} : Answers [.ports] s (execDsTxdata a1 a2 s) := by
  unfold execDsTxdata
  refine Answers.next ?_
  refine Keeps.ite ?_ ?_
  · refine Keeps.after State.dsTx_keeps (by decide) ?_
    exact Keeps.refl _ _
  · exact Keeps.refl _ _

theorem execFlashWindowRead_keeps {a1 a2 a3 a4 s} : Answers [.out, .reply] s (execFlashWindowRead a1 a2 a3 a4 s) := by
  unfold execFlashWindowRead
  extract_lets x1
  have hx1 : Keeps [.out, .reply] s x1 := by
    unfold x1
    refine Keeps.after State.flashFrame_keeps (by decide) ?_
    exact Keeps.refl _ _
  refine Answers.next ?_
  refine Keeps.ite ?_ ?_
  · exact Keeps.refl _ _
  · refine Keeps.ite ?_ ?_
    · refine Keeps.set_reply (by decide) ?_
      exact hx1
    · refine Keeps.set_reply (by decide) ?_
      exact Keeps.refl _ _

end Sys2Proof.Machine
end

