-- ==== Sys2Proof/Laws/Power.lean ====
section
/-!
SUPPORT. Frames of Machine/Power.lean: which parts of the state each of its operations and commands may change.
-/
namespace Sys2Proof.Machine

theorem State.disableRails_keeps {s a2} : Keeps [.sup] s (State.disableRails s a2) := by
  unfold State.disableRails
  extract_lets x1 x2
  refine Keeps.set_sup (by decide) ?_
  exact Keeps.refl _ _

theorem State.supEvent_keeps {s a2 a3 a4} : Keeps [.regs, .hif, .out] s (State.supEvent s a2 a3 a4) := by
  unfold State.supEvent
  refine Keeps.after State.source_keeps (by decide) ?_
  refine Keeps.after State.event_keeps (by decide) ?_
  exact Keeps.refl _ _

theorem State.endShutdown_keeps {s} : Keeps [.regs, .clk, .sup, .hif, .out] s (State.endShutdown s) := by
  unfold State.endShutdown
  extract_lets x1 x2 x3 x4 x5
  have hx2 : Keeps [.regs, .clk, .sup, .hif, .out] s x2 := by
    unfold x2
    refine Keeps.set_sup (by decide) ?_
    exact Keeps.refl _ _
  have hx3 : Keeps [.regs, .clk, .sup, .hif, .out] s x3 := by
    unfold x3
    refine Keeps.after State.setBit_keeps (by decide) ?_
    exact hx2
  have hx4 : Keeps [.regs, .clk, .sup, .hif, .out] s x4 := by
    unfold x4
    refine Keeps.after State.supEvent_keeps (by decide) ?_
    exact hx3
  split
  · refine Keeps.set_clk (by decide) ?_
    exact hx4
  · exact hx4

theorem State.shutdownStep_keeps {s a2} : Keeps [.regs, .clk, .sup, .hif, .out] s (State.shutdownStep s a2) := by
  unfold State.shutdownStep
  split
  · refine Keeps.after State.endShutdown_keeps (by decide) ?_
    exact Keeps.refl _ _
  · extract_lets x1 x2 x3 x4
    have hx3 : Keeps [.regs, .clk, .sup, .hif, .out] s x3 := by
      unfold x3
      refine Keeps.after State.disableRails_keeps (by decide) ?_
      exact Keeps.refl _ _
    refine Keeps.set_sup (by decide) ?_
    exact hx3

theorem State.startShutdown_keeps {s} : Keeps [.regs, .clk, .sup, .hif, .out] s (State.startShutdown s) := by
  unfold State.startShutdown
  split
  · exact Keeps.refl _ _
  · extract_lets x1
    have hx1 : Keeps [.regs, .clk, .sup, .hif, .out] s x1 := by
      unfold x1
      refine Keeps.after State.setBit_keeps (by decide) ?_
      refine Keeps.after State.setBit_keeps (by decide) ?_
      exact Keeps.refl _ _
    refine Keeps.after State.shutdownStep_keeps (by decide) ?_
    exact hx1

theorem State.seqDown_keeps {s} : Keeps [.regs, .clk, .sup, .hif, .out] s (State.seqDown s) := by
  unfold State.seqDown
  extract_lets x1
  refine Keeps.ite ?_ ?_
  · refine Keeps.after State.startShutdown_keeps (by decide) ?_
    refine Keeps.set_sup (by decide) ?_
    exact Keeps.refl _ _
  · refine Keeps.after State.setBit_keeps (by decide) ?_
    exact Keeps.refl _ _

theorem State.faultn_keeps {s} : Keeps [.regs] s (State.faultn s) := by
  unfold State.faultn
  extract_lets x1
  refine Keeps.after State.setBit_keeps (by decide) ?_
  refine Keeps.after State.setBit_keeps (by decide) ?_
  exact Keeps.refl _ _

theorem State.seqUp_keeps {s} : Keeps [.regs, .sup] s (State.seqUp s) := by
  unfold State.seqUp
  extract_lets x1 x2
  have hx2 : Keeps [.regs, .sup] s x2 := by
    unfold x2
    refine Keeps.set_sup (by decide) ?_
    exact Keeps.refl _ _
  refine Keeps.ite ?_ ?_
  · refine Keeps.after State.faultn_keeps (by decide) ?_
    refine Keeps.after State.setBit_keeps (by decide) ?_
    exact hx2
  · refine Keeps.after State.setBit_keeps (by decide) ?_
    exact Keeps.refl _ _

theorem State.evalGates_keeps {s} : Keeps [.regs, .clk, .pwm] s (State.evalGates s) := by
  unfold State.evalGates
  extract_lets x1 x2 x3
  split
  extract_lets x4 x5 x6
  have hx4 : Keeps [.regs, .clk, .pwm] s x4 := by
    unfold x4
    refine Keeps.ite ?_ ?_
    · refine Keeps.after State.pwmHoldAll_keeps (by decide) ?_
      exact Keeps.refl _ _
    · exact Keeps.refl _ _
  have hx6 : Keeps [.regs, .clk, .pwm] s x6 := by
    unfold x6
    refine Keeps.set_clk (by decide) ?_
    exact hx4
  refine Keeps.ite ?_ ?_
  · refine Keeps.after State.setBit_keeps (by decide) ?_
    exact hx6
  · exact hx6

theorem State.clkgate_keeps {s a2} : Keeps [.regs, .clk, .pwm] s (State.clkgate s a2) := by
  unfold State.clkgate
  extract_lets x1
  have hx1 : Keeps [.regs, .clk, .pwm] s x1 := by
    unfold x1
    refine Keeps.after State.wr_keeps (by decide) ?_
    exact Keeps.refl _ _
  refine Keeps.ite ?_ ?_
  · refine Keeps.after State.evalGates_keeps (by decide) ?_
    exact hx1
  · exact hx1

theorem State.setPwr_keeps {s a2 a3} : Keeps [.regs] s (State.setPwr s a2 a3) := by
  unfold State.setPwr
  refine Keeps.after State.setFld_keeps (by decide) ?_
  refine Keeps.after State.setFld_keeps (by decide) ?_
  exact Keeps.refl _ _

theorem State.enterStandby_keeps {s a2 a3} :
    Keeps [.regs, .clk, .hif, .cmp, .pwm, .ports, .mbm, .out] s (State.enterStandby s a2 a3) := by
  unfold State.enterStandby
  extract_lets x1 x2 x3 x4
  have hx1 : Keeps [.regs, .clk, .hif, .cmp, .pwm, .ports, .mbm, .out] s x1 := by
    unfold x1
    refine Keeps.after State.rootStops_keeps (by decide) ?_
    refine Keeps.after State.pwmSafeAll_keeps (by decide) ?_
    exact Keeps.refl _ _
  have hx3 : Keeps [.regs, .clk, .hif, .cmp, .pwm, .ports, .mbm, .out] s x3 := by
    unfold x3
    refine Keeps.set_clk (by decide) ?_
    exact hx1
  have hx4 : Keeps [.regs, .clk, .hif, .cmp, .pwm, .ports, .mbm, .out] s x4 := by
    unfold x4
    refine Keeps.ite ?_ ?_
    · refine Keeps.after State.setBit_keeps (by decide) ?_
      exact hx3
    · exact hx3
  refine Keeps.after State.setPwr_keeps (by decide) ?_
  refine Keeps.after State.setBit_keeps (by decide) ?_
  exact hx4

theorem State.powerCmd_keeps {s a2} :
    PairKeeps [.regs, .clk, .sup, .hif, .cmp, .pwm, .ports, .mbm, .out] s (State.powerCmd s a2) := by
  unfold State.powerCmd
  extract_lets x1 x2 x3 x4 x5 x6
  have hx4 : Keeps [.regs, .clk, .sup, .hif, .cmp, .pwm, .ports, .mbm, .out] s x4 := by
    unfold x4
    refine Keeps.set_clk (by decide) ?_
    exact Keeps.refl _ _
  have hx5 : Keeps [.regs, .clk, .sup, .hif, .cmp, .pwm, .ports, .mbm, .out] s x5 := by
    unfold x5
    refine Keeps.set_clk (by decide) ?_
    exact Keeps.refl _ _
  have hx6 : Keeps [.regs, .clk, .sup, .hif, .cmp, .pwm, .ports, .mbm, .out] s x6 := by
    unfold x6
    refine Keeps.after State.setBit_keeps (by decide) ?_
    refine Keeps.after State.setFld_keeps (by decide) ?_
    exact hx5
  refine PairKeeps.ite ?_ ?_
  · unfold x2
    refine PairKeeps.mk ?_
    refine Keeps.after State.setFld_keeps (by decide) ?_
    exact Keeps.refl _ _
  · refine PairKeeps.ite ?_ ?_
    · unfold x2
      refine PairKeeps.mk ?_
      refine Keeps.after State.setFld_keeps (by decide) ?_
      exact Keeps.refl _ _
    · refine PairKeeps.ite ?_ ?_
      · unfold x2
        refine PairKeeps.mk ?_
        refine Keeps.after State.setFld_keeps (by decide) ?_
        exact Keeps.refl _ _
      · refine PairKeeps.ite ?_ ?_
        · refine PairKeeps.ite ?_ ?_
          · unfold x2
            refine PairKeeps.mk ?_
            refine Keeps.after State.setFld_keeps (by decide) ?_
            refine Keeps.after State.setPwr_keeps (by decide) ?_
            refine Keeps.set_clk (by decide) ?_
            exact Keeps.refl _ _
          · refine PairKeeps.ite ?_ ?_
            · unfold x2
              refine PairKeeps.mk ?_
              refine Keeps.after State.setFld_keeps (by decide) ?_
              exact Keeps.refl _ _
            · unfold x2
              refine PairKeeps.mk ?_
              refine Keeps.after State.setFld_keeps (by decide) ?_
              refine Keeps.after State.setBit_keeps (by decide) ?_
              exact hx4
        · refine PairKeeps.ite ?_ ?_
          · refine PairKeeps.ite ?_ ?_
            · unfold x2
              refine PairKeeps.mk ?_
              refine Keeps.after State.setFld_keeps (by decide) ?_
              refine Keeps.after State.evalGates_keeps (by decide) ?_
              refine Keeps.after State.setPwr_keeps (by decide) ?_
              exact Keeps.refl _ _
            · unfold x2
              refine PairKeeps.mk ?_
              refine Keeps.after State.setFld_keeps (by decide) ?_
              exact Keeps.refl _ _
          · refine PairKeeps.ite ?_ ?_
            · refine PairKeeps.ite ?_ ?_
              · unfold x2
                refine PairKeeps.mk ?_
                refine Keeps.after State.setFld_keeps (by decide) ?_
                refine Keeps.after State.enterStandby_keeps (by decide) ?_
                exact Keeps.refl _ _
              · unfold x2
                refine PairKeeps.mk ?_
                refine Keeps.after State.setFld_keeps (by decide) ?_
                exact Keeps.refl _ _
            · refine PairKeeps.mk ?_
              refine Keeps.after State.startShutdown_keeps (by decide) ?_
              exact hx6

theorem State.pwrcmd_keeps {s a2} :
    Keeps [.regs, .clk, .sup, .hif, .cmp, .pwm, .ports, .mbm, .out] s (State.pwrcmd s a2) := by
  unfold State.pwrcmd
  refine Keeps.ite ?_ ?_
  · refine Keeps.of_snd ?_
    refine PairKeeps.after State.powerCmd_keeps (by decide) ?_
    exact Keeps.refl _ _
  · exact Keeps.refl _ _

theorem State.trainNow_keeps {s} : Keeps [.hif] s (State.trainNow s) := by
  unfold State.trainNow
  extract_lets x1
  refine Keeps.ite ?_ ?_
  · refine Keeps.set_hif (by decide) ?_
    exact Keeps.refl _ _
  · exact Keeps.refl _ _

theorem State.startTraining_keeps {s} : Keeps [.hif] s (State.startTraining s) := by
  unfold State.startTraining
  refine Keeps.ite ?_ ?_
  · refine Keeps.after State.trainNow_keeps (by decide) ?_
    exact Keeps.refl _ _
  · exact Keeps.refl _ _

theorem State.enableRails_keeps {s a2} : Keeps [.sup] s (State.enableRails s a2) := by
  unfold State.enableRails
  extract_lets x1 x2 x3
  refine Keeps.set_sup (by decide) ?_
  exact Keeps.refl _ _

theorem State.powerUpStep_keeps {s a2} : Keeps [.regs, .sup, .hif, .out] s (State.powerUpStep s a2) := by
  unfold State.powerUpStep
  extract_lets x1 x2 x3 x4 x5 x6 x7
  have hx3 : Keeps [.regs, .sup, .hif, .out] s x3 := by
    unfold x3
    refine Keeps.set_sup (by decide) ?_
    exact Keeps.refl _ _
  have hx4 : Keeps [.regs, .sup, .hif, .out] s x4 := by
    unfold x4
    refine Keeps.after State.setBit_keeps (by decide) ?_
    refine Keeps.after State.setBit_keeps (by decide) ?_
    exact hx3
  have hx6 : Keeps [.regs, .sup, .hif, .out] s x6 := by
    unfold x6
    refine Keeps.after State.enableRails_keeps (by decide) ?_
    exact Keeps.refl _ _
  clear_value x1
  split
  · refine Keeps.after State.supEvent_keeps (by decide) ?_
    exact hx4
  · refine Keeps.set_sup (by decide) ?_
    exact hx6

theorem execSeqcmdUp_keeps {s} : Answers [.regs, .sup] s (execSeqcmdUp s) := by
  unfold execSeqcmdUp
  refine Answers.next ?_
  refine Keeps.ite ?_ ?_
  · refine Keeps.after State.seqUp_keeps (by decide) ?_
    exact Keeps.refl _ _
  · exact Keeps.refl _ _

theorem execSeqcmdDown_keeps {s} : Answers [.regs, .clk, .sup, .hif, .out] s (execSeqcmdDown s) := by
  unfold execSeqcmdDown
  refine Answers.next ?_
  refine Keeps.ite ?_ ?_
  · refine Keeps.after State.seqDown_keeps (by decide) ?_
    exact Keeps.refl _ _
  · exact Keeps.refl _ _

theorem execSeqFaultnReleased_keeps {s} : Answers [.regs, .sup, .hif, .out] s (execSeqFaultnReleased s) := by
  unfold execSeqFaultnReleased
  extract_lets x1 x2
  have hx2 : Keeps [.regs, .sup, .hif, .out] s x2 := by
    unfold x2
    refine Keeps.after State.faultn_keeps (by decide) ?_
    refine Keeps.set_sup (by decide) ?_
    exact Keeps.refl _ _
  refine Answers.ite ?_ ?_
  · refine Answers.next ?_
    refine Keeps.after State.powerUpStep_keeps (by decide) ?_
    exact hx2
  · refine Answers.next ?_
    exact Keeps.refl _ _

theorem execSeqPositionAdvance_keeps {s} : Answers [.regs, .sup, .hif, .out] s (execSeqPositionAdvance s) := by
  unfold execSeqPositionAdvance
  split
  · extract_lets x1 x2 x3
    have hx3 : Keeps [.regs, .sup, .hif, .out] s x3 := by
      unfold x3
      refine Keeps.set_sup (by decide) ?_
      exact Keeps.refl _ _
    refine Answers.ite ?_ ?_
    · refine Answers.next ?_
      refine Keeps.after State.powerUpStep_keeps (by decide) ?_
      exact hx3
    · refine Answers.next ?_
      exact Keeps.refl _ _
  · refine Answers.next ?_
    exact Keeps.refl _ _

theorem State.railTimedOut_keeps {s a2 a3 a4} : Keeps [.regs, .hif, .out] s (State.railTimedOut s a2 a3 a4) := by
  unfold State.railTimedOut
  refine Keeps.after State.supEvent_keeps (by decide) ?_
  refine Keeps.after State.tally_keeps (by decide) ?_
  refine Keeps.after State.setBit_keeps (by decide) ?_
  exact Keeps.refl _ _

theorem execPgTmo_keeps {a1 s} : Answers [.regs, .clk, .sup, .hif, .out] s (execPgTmo a1 s) := by
  unfold execPgTmo
  split
  · extract_lets x1 x2 x3 x4 x5 x6
    have hx2 : Keeps [.regs, .clk, .sup, .hif, .out] s x2 := by
      unfold x2
      refine Keeps.foldl ?_ ?_
      · exact Keeps.refl _ _
      · intro y7 y8 y9
        refine Keeps.after State.railTimedOut_keeps (by decide) ?_
        exact y9
    have hx3 : Keeps [.regs, .clk, .sup, .hif, .out] s x3 := by
      unfold x3
      refine Keeps.after State.setBit_keeps (by decide) ?_
      exact hx2
    have hx5 : Keeps [.regs, .clk, .sup, .hif, .out] s x5 := by
      unfold x5
      refine Keeps.after State.faultn_keeps (by decide) ?_
      refine Keeps.set_sup (by decide) ?_
      exact hx3
    have hx6 : Keeps [.regs, .clk, .sup, .hif, .out] s x6 := by
      unfold x6
      refine Keeps.after State.supEvent_keeps (by decide) ?_
      exact hx5
    refine Answers.ite ?_ ?_
    · refine Answers.next ?_
      refine Keeps.after State.startShutdown_keeps (by decide) ?_
      exact hx6
    · refine Answers.next ?_
      exact Keeps.refl _ _
  · refine Answers.next ?_
    exact Keeps.refl _ _

theorem execShutdownPositionAdvance_keeps {s} :
    Answers [.regs, .clk, .sup, .hif, .out] s (execShutdownPositionAdvance s) := by
  unfold execShutdownPositionAdvance
  split
  · refine Answers.ite ?_ ?_
    · refine Answers.next ?_
      refine Keeps.after State.shutdownStep_keeps (by decide) ?_
      exact Keeps.refl _ _
    · refine Answers.next ?_
      exact Keeps.refl _ _
  · refine Answers.next ?_
    exact Keeps.refl _ _

theorem execStepTmo_keeps {a1 s} : Answers [.regs, .clk, .sup, .hif, .out] s (execStepTmo a1 s) := by
  unfold execStepTmo
  split
  · extract_lets x1 x2 x3
    have hx3 : Keeps [.regs, .clk, .sup, .hif, .out] s x3 := by
      unfold x3
      refine Keeps.foldl ?_ ?_
      · exact Keeps.refl _ _
      · intro y4 y5 y6
        refine Keeps.after State.railTimedOut_keeps (by decide) ?_
        exact y6
    refine Answers.ite ?_ ?_
    · refine Answers.next ?_
      refine Keeps.after State.shutdownStep_keeps (by decide) ?_
      refine Keeps.after State.faultn_keeps (by decide) ?_
      exact hx3
    · refine Answers.next ?_
      exact Keeps.refl _ _
  · refine Answers.next ?_
    exact Keeps.refl _ _

theorem State.endTrans_keeps {s a2} : Keeps [.regs, .clk] s (State.endTrans s a2) := by
  unfold State.endTrans
  extract_lets x1 x2
  have hx2 : Keeps [.regs, .clk] s x2 := by
    unfold x2
    refine Keeps.set_clk (by decide) ?_
    exact Keeps.refl _ _
  refine Keeps.after State.setFld_keeps (by decide) ?_
  refine Keeps.after State.setBit_keeps (by decide) ?_
  exact hx2

theorem State.cmdDrop_keeps {s a2} : Keeps [.regs, .hif, .adc, .ports, .mbm] s (State.cmdDrop s a2) := by
  unfold State.cmdDrop
  extract_lets x1 x2 x3 x4
  have hx1 : Keeps [.regs, .hif, .adc, .ports, .mbm] s x1 := by
    unfold x1
    refine Keeps.after State.setProofMask_keeps (by decide) ?_
    exact Keeps.refl _ _
  refine Keeps.ite ?_ ?_
  · refine Keeps.ite ?_ ?_
    · refine Keeps.after State.portFree_keeps (by decide) ?_
      exact hx1
    · exact hx1
  · refine Keeps.ite ?_ ?_
    · refine Keeps.forN ?_ ?_
      · exact hx1
      · intro y5 y6 y7
        extract_lets x8
        refine Keeps.after State.setBit_keeps (by decide) ?_
        refine Keeps.after State.setAd_keeps (by decide) ?_
        exact y7
    · refine Keeps.ite ?_ ?_
      · refine Keeps.after State.setMl_keeps (by decide) ?_
        exact hx1
      · exact hx1

theorem State.cmdFault_keeps {s} : Keeps [.regs, .hif, .adc, .ports, .mbm] s (State.cmdFault s) := by
  unfold State.cmdFault
  split
  · refine Keeps.after State.finishHeld_keeps (by decide) ?_
    refine Keeps.after State.cmdDrop_keeps (by decide) ?_
    exact Keeps.refl _ _
  · exact Keeps.refl _ _

theorem State.protectStandby_keeps {s a2 a3} :
    Keeps [.regs, .clk, .hif, .adc, .cmp, .pwm, .ports, .mbm, .out] s (State.protectStandby s a2 a3) := by
  unfold State.protectStandby
  split
  · extract_lets x1 x2 x3 x4
    have hx2 : Keeps [.regs, .clk, .hif, .adc, .cmp, .pwm, .ports, .mbm, .out] s x2 := by
      unfold x2
      refine Keeps.set_clk (by decide) ?_
      exact Keeps.refl _ _
    have hx3 : Keeps [.regs, .clk, .hif, .adc, .cmp, .pwm, .ports, .mbm, .out] s x3 := by
      unfold x3
      refine Keeps.after State.rootStops_keeps (by decide) ?_
      exact hx2
    refine Keeps.ite ?_ ?_
    · refine Keeps.after State.setBit_keeps (by decide) ?_
      refine Keeps.set_clk (by decide) ?_
      exact hx3
    · exact hx2
  · extract_lets x5 x6 x7 x8 x9
    have hx6 : Keeps [.regs, .clk, .hif, .adc, .cmp, .pwm, .ports, .mbm, .out] s x6 := by
      unfold x6
      refine Keeps.ite ?_ ?_
      · exact Keeps.refl _ _
      · refine Keeps.after State.endTrans_keeps (by decide) ?_
        exact Keeps.refl _ _
    have hx7 : Keeps [.regs, .clk, .hif, .adc, .cmp, .pwm, .ports, .mbm, .out] s x7 := by
      unfold x7
      refine Keeps.ite ?_ ?_
      · refine Keeps.after State.mbmRootLost_keeps (by decide) ?_
        exact hx6
      · exact hx6
    have hx9 : Keeps [.regs, .clk, .hif, .adc, .cmp, .pwm, .ports, .mbm, .out] s x9 := by
      unfold x9
      refine Keeps.ite ?_ ?_
      · refine Keeps.after State.setPwr_keeps (by decide) ?_
        refine Keeps.set_clk (by decide) ?_
        exact hx7
      · refine Keeps.after State.enterStandby_keeps (by decide) ?_
        refine Keeps.after State.cmdFault_keeps (by decide) ?_
        exact hx6
    refine Keeps.ite ?_ ?_
    · exact hx9
    · refine Keeps.after State.event_keeps (by decide) ?_
      exact hx9

theorem State.faultAction_keeps {s a2 a3} :
    Keeps [.regs, .clk, .sup, .hif, .adc, .cmp, .pwm, .kle, .ports, .mbm, .out] s (State.faultAction s a2 a3) := by
  unfold State.faultAction
  extract_lets x1
  have hx1 : Keeps [.regs, .clk, .sup, .hif, .adc, .cmp, .pwm, .kle, .ports, .mbm, .out] s x1 := by
    unfold x1
    refine Keeps.after State.slotsProtect_keeps (by decide) ?_
    refine Keeps.after State.pwmSafeAll_keeps (by decide) ?_
    exact Keeps.refl _ _
  refine Keeps.ite ?_ ?_
  · exact Keeps.refl _ _
  · refine Keeps.ite ?_ ?_
    · exact hx1
    · refine Keeps.after State.protectStandby_keeps (by decide) ?_
      refine Keeps.after State.startShutdown_keeps (by decide) ?_
      exact hx1

theorem execExtFault_keeps {s} :
    Answers [.regs, .clk, .sup, .hif, .adc, .cmp, .pwm, .kle, .ports, .mbm, .out] s (execExtFault s) := by
  unfold execExtFault
  extract_lets x1 x2 x3 x4
  have hx3 : Keeps [.regs, .clk, .sup, .hif, .adc, .cmp, .pwm, .kle, .ports, .mbm, .out] s x3 := by
    unfold x3
    refine Keeps.after State.setBit_keeps (by decide) ?_
    refine Keeps.set_sup (by decide) ?_
    exact Keeps.refl _ _
  have hx4 : Keeps [.regs, .clk, .sup, .hif, .adc, .cmp, .pwm, .kle, .ports, .mbm, .out] s x4 := by
    unfold x4
    refine Keeps.after State.supEvent_keeps (by decide) ?_
    refine Keeps.after State.faultn_keeps (by decide) ?_
    exact hx3
  refine Answers.ite ?_ ?_
  · refine Answers.next ?_
    refine Keeps.after State.faultAction_keeps (by decide) ?_
    exact hx4
  · refine Answers.next ?_
    exact Keeps.refl _ _

theorem State.pgDelay_keeps {s a2} : Keeps [.sup] s (State.pgDelay s a2) := by
  unfold State.pgDelay
  extract_lets x1 x2 x3
  refine Keeps.ite ?_ ?_
  · refine Keeps.set_sup (by decide) ?_
    exact Keeps.refl _ _
  · exact Keeps.refl _ _

theorem State.sampleRail_keeps {s a2 a3} : Keeps [.regs, .sup] s (State.sampleRail s a2 a3) := by
  unfold State.sampleRail
  extract_lets x1 x2 x3 x4 x5 x6 x7
  have hx1 : Keeps [.regs, .sup] s x1 := by
    unfold x1
    refine Keeps.after State.pgDelay_keeps (by decide) ?_
    refine Keeps.after State.wr_keeps (by decide) ?_
    exact Keeps.refl _ _
  have hx5 : Keeps [.regs, .sup] s x5 := by
    unfold x5
    refine Keeps.set_sup (by decide) ?_
    exact hx1
  refine Keeps.ite ?_ ?_
  · refine Keeps.set_sup (by decide) ?_
    exact hx5
  · exact hx5

theorem execRailSample_keeps {a1 a2 a3 s} : Answers [.regs, .sup] s (execRailSample a1 a2 a3 s) := by
  unfold execRailSample
  extract_lets x1
  have hx1 : Keeps [.regs, .sup] s x1 := by
    unfold x1
    refine Keeps.after State.wr_keeps (by decide) ?_
    exact Keeps.refl _ _
  refine Answers.ite ?_ ?_
  · refine Answers.next ?_
    refine Keeps.forN ?_ ?_
    · exact hx1
    · intro y2 y3 y4
      refine Keeps.after State.sampleRail_keeps (by decide) ?_
      exact y4
  · refine Answers.next ?_
    exact Keeps.refl _ _

theorem State.railReport_keeps {s a2 a3} :
    Keeps [.regs, .clk, .sup, .hif, .adc, .cmp, .pwm, .kle, .ports, .mbm, .out] s (State.railReport s a2 a3) := by
  unfold State.railReport
  extract_lets x1 x2 x3 x4 x5
  have hx2 : Keeps [.regs, .clk, .sup, .hif, .adc, .cmp, .pwm, .kle, .ports, .mbm, .out] s x2 := by
    unfold x2
    refine Keeps.after State.supEvent_keeps (by decide) ?_
    refine Keeps.after State.tally_keeps (by decide) ?_
    refine Keeps.after State.setBit_keeps (by decide) ?_
    exact Keeps.refl _ _
  have hx3 : Keeps [.regs, .clk, .sup, .hif, .adc, .cmp, .pwm, .kle, .ports, .mbm, .out] s x3 := by
    unfold x3
    refine Keeps.after State.supEvent_keeps (by decide) ?_
    refine Keeps.after State.tally_keeps (by decide) ?_
    refine Keeps.after State.setBit_keeps (by decide) ?_
    exact Keeps.refl _ _
  have hx4 : Keeps [.regs, .clk, .sup, .hif, .adc, .cmp, .pwm, .kle, .ports, .mbm, .out] s x4 := by
    unfold x4
    refine Keeps.after State.setBit_keeps (by decide) ?_
    exact Keeps.refl _ _
  split
  · refine Keeps.after State.supEvent_keeps (by decide) ?_
    refine Keeps.after State.tally_keeps (by decide) ?_
    refine Keeps.after State.setBit_keeps (by decide) ?_
    exact Keeps.refl _ _
  · refine Keeps.after State.supEvent_keeps (by decide) ?_
    refine Keeps.after State.tally_keeps (by decide) ?_
    refine Keeps.after State.setBit_keeps (by decide) ?_
    exact Keeps.refl _ _
  · refine Keeps.after State.faultAction_keeps (by decide) ?_
    refine Keeps.after State.faultn_keeps (by decide) ?_
    exact hx2
  · refine Keeps.after State.faultAction_keeps (by decide) ?_
    refine Keeps.after State.faultn_keeps (by decide) ?_
    exact hx3
  · refine Keeps.ite ?_ ?_
    · refine Keeps.set_sup (by decide) ?_
      exact hx4
    · exact hx4

theorem execRailConditionReport_keeps {a1 a2 s} :
    Answers [.regs, .clk, .sup, .hif, .adc, .cmp, .pwm, .kle, .ports, .mbm, .out]
      s (execRailConditionReport a1 a2 s) := by
  unfold execRailConditionReport
  extract_lets x1 x2 x3 x4 x5
  refine Answers.ite ?_ ?_
  · refine Answers.next ?_
    exact Keeps.refl _ _
  · refine Answers.ite ?_ ?_
    · refine Answers.next ?_
      refine Keeps.after State.railReport_keeps (by decide) ?_
      unfold x5
      refine Keeps.set_sup (by decide) ?_
      exact Keeps.refl _ _
    · refine Answers.ite ?_ ?_
      · refine Answers.next ?_
        refine Keeps.ite ?_ ?_
        · refine Keeps.after State.setBit_keeps (by decide) ?_
          unfold x5
          refine Keeps.set_sup (by decide) ?_
          exact Keeps.refl _ _
        · unfold x5
          refine Keeps.set_sup (by decide) ?_
          exact Keeps.refl _ _
      · refine Answers.next ?_
        exact Keeps.refl _ _

theorem State.clockEvent_keeps {s a2} : Keeps [.regs, .hif, .out] s (State.clockEvent s a2) := by
  unfold State.clockEvent
  refine Keeps.after State.source_keeps (by decide) ?_
  refine Keeps.after State.event_keeps (by decide) ?_
  exact Keeps.refl _ _

theorem execCrystalEdgesSeen_keeps {s} : Answers [.regs, .clk] s (execCrystalEdgesSeen s) := by
  unfold execCrystalEdgesSeen
  extract_lets x1 x2 x3
  have hx2 : Keeps [.regs, .clk] s x2 := by
    unfold x2
    refine Keeps.after State.setBit_keeps (by decide) ?_
    refine Keeps.set_clk (by decide) ?_
    exact Keeps.refl _ _
  refine Answers.ite ?_ ?_
  · refine Answers.next ?_
    refine Keeps.ite ?_ ?_
    · refine Keeps.set_clk (by decide) ?_
      exact hx2
    · exact hx2
  · refine Answers.next ?_
    exact Keeps.refl _ _

theorem execPllLock_keeps {s} : Answers [.regs, .clk, .hif, .se, .mbm, .out] s (execPllLock s) := by
  unfold execPllLock
  split
  · extract_lets x1 x2 x3 x4 x5
    have hx2 : Keeps [.regs, .clk, .hif, .se, .mbm, .out] s x2 := by
      unfold x2
      refine Keeps.set_clk (by decide) ?_
      exact Keeps.refl _ _
    have hx3 : Keeps [.regs, .clk, .hif, .se, .mbm, .out] s x3 := by
      unfold x3
      refine Keeps.after State.setBit_keeps (by decide) ?_
      exact hx2
    have hx4 : Keeps [.regs, .clk, .hif, .se, .mbm, .out] s x4 := by
      unfold x4
      refine Keeps.after State.startTraining_keeps (by decide) ?_
      refine Keeps.ite ?_ ?_
      · refine Keeps.after State.clockEvent_keeps (by decide) ?_
        refine Keeps.after State.tally_keeps (by decide) ?_
        exact hx3
      · exact hx3
    have hx5 : Keeps [.regs, .clk, .hif, .se, .mbm, .out] s x5 := by
      unfold x5
      refine Keeps.after State.setBit_keeps (by decide) ?_
      refine Keeps.after State.endTrans_keeps (by decide) ?_
      refine Keeps.after State.setPwr_keeps (by decide) ?_
      exact hx4
    refine Answers.ite ?_ ?_
    · refine Answers.next ?_
      exact Keeps.refl _ _
    · split
      · refine Answers.next ?_
        refine Keeps.after State.ackResume_keeps (by decide) ?_
        refine Keeps.after State.rootResumes_keeps (by decide) ?_
        refine Keeps.after State.mbmReturn_keeps (by decide) ?_
        exact hx5
      · refine Answers.next ?_
        exact hx4
  · extract_lets x6
    refine Answers.next ?_
    refine Keeps.ite ?_ ?_
    · exact Keeps.refl _ _
    · refine Keeps.after State.startTraining_keeps (by decide) ?_
      refine Keeps.after State.setBit_keeps (by decide) ?_
      refine Keeps.set_clk (by decide) ?_
      exact Keeps.refl _ _
  · refine Answers.next ?_
    exact Keeps.refl _ _

theorem execPllLockTimeout_keeps {s} : Answers [.regs, .clk] s (execPllLockTimeout s) := by
  unfold execPllLockTimeout
  split
  · extract_lets x1 x2 x3
    have hx2 : Keeps [.regs, .clk] s x2 := by
      unfold x2
      refine Keeps.set_clk (by decide) ?_
      exact Keeps.refl _ _
    have hx3 : Keeps [.regs, .clk] s x3 := by
      unfold x3
      refine Keeps.after State.setBit_keeps (by decide) ?_
      exact hx2
    refine Answers.ite ?_ ?_
    · refine Answers.next ?_
      exact Keeps.refl _ _
    · refine Answers.ite ?_ ?_
      · refine Answers.next ?_
        refine Keeps.set_clk (by decide) ?_
        exact Keeps.refl _ _
      · refine Answers.next ?_
        refine Keeps.ite ?_ ?_
        · refine Keeps.after State.endTrans_keeps (by decide) ?_
          exact hx3
        · exact hx3
  · refine Answers.next ?_
    exact Keeps.refl _ _

theorem State.crystalStops_keeps {s} : Keeps [.regs, .clk] s (State.crystalStops s) := by
  unfold State.crystalStops
  extract_lets x1 x2
  refine Keeps.after State.setBit_keeps (by decide) ?_
  refine Keeps.set_clk (by decide) ?_
  exact Keeps.refl _ _

theorem execRootLoss_keeps {s} :
    Answers [.regs, .clk, .hif, .adc, .cmp, .pwm, .kle, .ports, .mbm, .out] s (execRootLoss s) := by
  unfold execRootLoss
  extract_lets x1 x2 x3 x4 x5 x6
  have hx1 : Keeps [.regs, .clk, .hif, .adc, .cmp, .pwm, .kle, .ports, .mbm, .out] s x1 := by
    unfold x1
    refine Keeps.after State.slotsProtect_keeps (by decide) ?_
    exact Keeps.refl _ _
  have hx3 : Keeps [.regs, .clk, .hif, .adc, .cmp, .pwm, .kle, .ports, .mbm, .out] s x3 := by
    unfold x3
    refine Keeps.set_clk (by decide) ?_
    exact hx1
  have hx4 : Keeps [.regs, .clk, .hif, .adc, .cmp, .pwm, .kle, .ports, .mbm, .out] s x4 := by
    unfold x4
    refine Keeps.after State.cmpBypass_keeps (by decide) ?_
    refine Keeps.after State.pwmSafeAll_keeps (by decide) ?_
    exact hx3
  have hx5 : Keeps [.regs, .clk, .hif, .adc, .cmp, .pwm, .kle, .ports, .mbm, .out] s x5 := by
    unfold x5
    refine Keeps.after State.setBit_keeps (by decide) ?_
    refine Keeps.after State.setBit_keeps (by decide) ?_
    refine Keeps.after State.setBit_keeps (by decide) ?_
    exact hx4
  have hx6 : Keeps [.regs, .clk, .hif, .adc, .cmp, .pwm, .kle, .ports, .mbm, .out] s x6 := by
    unfold x6
    refine Keeps.after State.clockEvent_keeps (by decide) ?_
    refine Keeps.after State.faultn_keeps (by decide) ?_
    exact hx5
  refine Answers.ite ?_ ?_
  · refine Answers.next ?_
    refine Keeps.after State.crystalStops_keeps (by decide) ?_
    exact Keeps.refl _ _
  · refine Answers.ite ?_ ?_
    · refine Answers.next ?_
      refine Keeps.after State.protectStandby_keeps (by decide) ?_
      exact hx6
    · refine Answers.next ?_
      exact Keeps.refl _ _

theorem execRootReturn_keeps {s} : Answers [.regs, .clk, .hif, .out] s (execRootReturn s) := by
  unfold execRootReturn
  extract_lets x1 x2 x3
  have hx2 : Keeps [.regs, .clk, .hif, .out] s x2 := by
    unfold x2
    refine Keeps.set_clk (by decide) ?_
    exact Keeps.refl _ _
  have hx3 : Keeps [.regs, .clk, .hif, .out] s x3 := by
    unfold x3
    refine Keeps.after State.setBit_keeps (by decide) ?_
    refine Keeps.after State.setBit_keeps (by decide) ?_
    exact hx2
  refine Answers.ite ?_ ?_
  · refine Answers.next ?_
    refine Keeps.after State.clockEvent_keeps (by decide) ?_
    refine Keeps.after State.faultn_keeps (by decide) ?_
    exact hx3
  · refine Answers.next ?_
    exact Keeps.refl _ _

theorem execGuardLoss_keeps {s} : Answers [.regs, .clk, .hif, .out] s (execGuardLoss s) := by
  unfold execGuardLoss
  extract_lets x1 x2
  have hx2 : Keeps [.regs, .clk, .hif, .out] s x2 := by
    unfold x2
    refine Keeps.set_clk (by decide) ?_
    exact Keeps.refl _ _
  refine Answers.ite ?_ ?_
  · refine Answers.next ?_
    refine Keeps.after State.clockEvent_keeps (by decide) ?_
    refine Keeps.after State.setBit_keeps (by decide) ?_
    refine Keeps.after State.setBit_keeps (by decide) ?_
    exact hx2
  · refine Answers.next ?_
    exact Keeps.refl _ _

theorem State.timerExpire_keeps {s a2} :
    Keeps [.regs, .hif, .adc, .sd, .cmp, .pwm, .qd, .kle, .out] s (State.timerExpire s a2) := by
  unfold State.timerExpire
  extract_lets x1 x2
  have hx1 : Keeps [.regs, .hif, .adc, .sd, .cmp, .pwm, .qd, .kle, .out] s x1 := by
    unfold x1
    refine Keeps.after State.source_keeps (by decide) ?_
    refine Keeps.after State.setBit_keeps (by decide) ?_
    exact Keeps.refl _ _
  have hx2 : Keeps [.regs, .hif, .adc, .sd, .cmp, .pwm, .qd, .kle, .out] s x2 := by
    unfold x2
    refine Keeps.ite ?_ ?_
    · refine Keeps.after State.wr_keeps (by decide) ?_
      exact hx1
    · refine Keeps.after State.setBit_keeps (by decide) ?_
      refine Keeps.after State.wr_keeps (by decide) ?_
      exact hx1
  refine Keeps.after State.slotTrigger_keeps (by decide) ?_
  refine Keeps.after State.trigger_keeps (by decide) ?_
  exact hx2

theorem execTimerExpiry_keeps {a1 s} :
    Answers [.regs, .hif, .adc, .sd, .cmp, .pwm, .qd, .kle, .out] s (execTimerExpiry a1 s) := by
  unfold execTimerExpiry
  refine Answers.next ?_
  refine Keeps.ite ?_ ?_
  · refine Keeps.after State.timerExpire_keeps (by decide) ?_
    exact Keeps.refl _ _
  · exact Keeps.refl _ _

theorem execCollapse_keeps {a1 a2 s} :
    Answers [.regs, .clk, .hif, .cmp, .pwm, .ports, .mbm, .out] s (execCollapse a1 a2 s) := by
  unfold execCollapse
  extract_lets x1 x2 x3 x4 x5 x6 x7 x8 x9 x10 x11 x12 x13
  have hx6 : Keeps [.regs, .clk, .hif, .cmp, .pwm, .ports, .mbm, .out] s x6 := by
    unfold x6
    refine Keeps.after State.pwmSafeAll_keeps (by decide) ?_
    exact Keeps.refl _ _
  have hx8 : Keeps [.regs, .clk, .hif, .cmp, .pwm, .ports, .mbm, .out] s x8 := by
    unfold x8
    refine Keeps.after State.rootStops_keeps (by decide) ?_
    exact hx6
  have hx9 : Keeps [.regs, .clk, .hif, .cmp, .pwm, .ports, .mbm, .out] s x9 := by
    unfold x9
    refine Keeps.ite ?_ ?_
    · exact hx8
    · refine Keeps.after State.endTrans_keeps (by decide) ?_
      exact hx8
  have hx12 : Keeps [.regs, .clk, .hif, .cmp, .pwm, .ports, .mbm, .out] s x12 := by
    unfold x12
    refine Keeps.set_clk_hif (by decide) (by decide) ?_
    exact hx9
  have hx13 : Keeps [.regs, .clk, .hif, .cmp, .pwm, .ports, .mbm, .out] s x13 := by
    unfold x13
    refine Keeps.after State.setBit_keeps (by decide) ?_
    refine Keeps.after State.setBit_keeps (by decide) ?_
    refine Keeps.after State.setBit_keeps (by decide) ?_
    exact hx12
  refine Answers.ite ?_ ?_
  · refine Answers.next ?_
    refine Keeps.after State.faultn_keeps (by decide) ?_
    exact hx13
  · refine Answers.next ?_
    exact Keeps.refl _ _

theorem execLastGaspWrite_keeps {s} :
    Answers [.regs, .mem, .ecc, .clk, .sup, .hif, .ports, .mbm, .out] s (execLastGaspWrite s) := by
  unfold execLastGaspWrite
  refine Answers.ite ?_ ?_
  · refine Answers.next ?_
    exact Keeps.refl _ _
  · split
    · extract_lets x1 x2 x3 x4 x5 x6 x7 x8 x9
      have hx3 : Keeps [.regs, .mem, .ecc, .clk, .sup, .hif, .ports, .mbm, .out] s x3 := by
        unfold x3
        refine Keeps.after State.wrWords_keeps (by decide) ?_
        exact Keeps.refl _ _
      have hx4 : Keeps [.regs, .mem, .ecc, .clk, .sup, .hif, .ports, .mbm, .out] s x4 := by
        unfold x4
        refine Keeps.set_ecc (by decide) (Tab.wf_tkeep _) ?_
        exact hx3
      have hx5 : Keeps [.regs, .mem, .ecc, .clk, .sup, .hif, .ports, .mbm, .out] s x5 := by
        unfold x5
        refine Keeps.after State.wr_keeps (by decide) ?_
        exact hx4
      have hx9 : Keeps [.regs, .mem, .ecc, .clk, .sup, .hif, .ports, .mbm, .out] s x9 := by
        unfold x9
        refine Keeps.set_clk (by decide) ?_
        exact hx5
      refine Answers.ite ?_ ?_
      · refine Answers.next ?_
        refine Keeps.after State.setPwr_keeps (by decide) ?_
        refine Keeps.set_clk_sup (by decide) (by decide) ?_
        exact hx5
      · refine Answers.next ?_
        refine Keeps.after State.setPwr_keeps (by decide) ?_
        refine Keeps.after State.endTrans_keeps (by decide) ?_
        refine Keeps.after State.rootStops_keeps (by decide) ?_
        exact hx9
    · refine Answers.next ?_
      exact Keeps.refl _ _

theorem State.readSlot_keeps {a1 a2 s} : PairKeeps [.regs, .hif, .out] s (State.readSlot a1 a2 s) := by
  induction a1 generalizing s a2
  · rw [State.readSlot]
    refine PairKeeps.mk ?_
    exact Keeps.refl _ _
  · rename_i y ih
    rw [State.readSlot]
    split
    split
    split
    · refine PairKeeps.mk ?_
      refine Keeps.of_pair (by assumption) ?_
      refine PairKeeps.after ih (fun _ k => k) ?_
      refine Keeps.of_pair (by assumption) ?_
      refine PairKeeps.after State.mramCheck_keeps (by decide) ?_
      exact Keeps.refl _ _
    · refine PairKeeps.mk ?_
      refine Keeps.of_pair (by assumption) ?_
      refine PairKeeps.after ih (fun _ k => k) ?_
      refine Keeps.of_pair (by assumption) ?_
      refine PairKeeps.after State.mramCheck_keeps (by decide) ?_
      exact Keeps.refl _ _

theorem State.lgseqCheck_keeps {s} : Keeps [.regs, .hif, .out] s (State.lgseqCheck s) := by
  unfold State.lgseqCheck
  extract_lets step
  have h : PairKeeps [.regs, .hif, .out] s ((List.range 32).foldl step ([], s)) := by
    refine PairKeeps.foldl (PairKeeps.mk (Keeps.refl _ _)) fun p i hp => ?_
    have hr : PairKeeps [.regs, .hif, .out] s (State.readSlot 64 (lgSlotAddr i) p.2) :=
      PairKeeps.after State.readSlot_keeps (by decide) (Keeps.of_snd hp)
    unfold step
    generalize State.readSlot 64 (lgSlotAddr i) p.2 = q at hr
    obtain ⟨r, t⟩ := q
    cases r with
    | none => exact hr
    | some ws => exact PairKeeps.ite hr hr
  clear_value step
  generalize (List.range 32).foldl step ([], s) = p at h
  obtain ⟨qs, t⟩ := p
  exact Keeps.after State.wr_keeps (by decide) h

theorem execPwrcmdRun_keeps {s} :
    Answers [.regs, .clk, .sup, .hif, .cmp, .pwm, .ports, .mbm, .out] s (execPwrcmdRun s) := by
  unfold execPwrcmdRun
  refine Answers.next ?_
  refine Keeps.after State.pwrcmd_keeps (by decide) ?_
  exact Keeps.refl _ _

theorem execPwrcmdTrim_keeps {s} :
    Answers [.regs, .clk, .sup, .hif, .cmp, .pwm, .ports, .mbm, .out] s (execPwrcmdTrim s) := by
  unfold execPwrcmdTrim
  refine Answers.next ?_
  refine Keeps.after State.pwrcmd_keeps (by decide) ?_
  exact Keeps.refl _ _

theorem execPwrcmdStandby_keeps {s} :
    Answers [.regs, .clk, .sup, .hif, .cmp, .pwm, .ports, .mbm, .out] s (execPwrcmdStandby s) := by
  unfold execPwrcmdStandby
  refine Answers.next ?_
  refine Keeps.after State.pwrcmd_keeps (by decide) ?_
  exact Keeps.refl _ _

theorem execPwrcmdOff_keeps {s} :
    Answers [.regs, .clk, .sup, .hif, .cmp, .pwm, .ports, .mbm, .out] s (execPwrcmdOff s) := by
  unfold execPwrcmdOff
  refine Answers.next ?_
  refine Keeps.after State.pwrcmd_keeps (by decide) ?_
  exact Keeps.refl _ _

theorem execClkgateWrite_keeps {a1 s} : Answers [.regs, .clk, .pwm] s (execClkgateWrite a1 s) := by
  unfold execClkgateWrite
  refine Answers.next ?_
  refine Keeps.ite ?_ ?_
  · refine Keeps.after State.clkgate_keeps (by decide) ?_
    exact Keeps.refl _ _
  · exact Keeps.refl _ _

end Sys2Proof.Machine
end

