-- ==== Sys2Proof/Laws/Link.lean ====
section
/-!
SUPPORT. Frames of Machine/Link.lean: which parts of the state each of its operations and commands may change.
-/
namespace Sys2Proof.Machine

theorem State.outboundWrite_keeps {s a2 a3} : PairKeeps [.out] s (State.outboundWrite s a2 a3) := by
  unfold State.outboundWrite
  refine PairKeeps.ite ?_ ?_
  · refine PairKeeps.mk ?_
    refine Keeps.after State.emit_keeps (by decide) ?_
    exact Keeps.refl _ _
  · refine PairKeeps.mk ?_
    exact Keeps.refl _ _

theorem State.fwirq_keeps {s a2} : Keeps [.regs, .hif, .out] s (State.fwirq s a2) := by
  unfold State.fwirq
  refine Keeps.forN ?_ ?_
  · exact Keeps.refl _ _
  · intro y1 y2 y3
    extract_lets x4
    have hx4 : Keeps [.regs, .hif, .out] s x4 := by
      unfold x4
      refine Keeps.after State.sendVector_keeps (by decide) ?_
      exact y3
    refine Keeps.ite ?_ ?_
    · refine Keeps.after State.setBit_keeps (by decide) ?_
      exact hx4
    · exact y3

theorem State.heartbeat_keeps {s} : Keeps [.hif, .kle] s (State.heartbeat s) := by
  unfold State.heartbeat
  extract_lets x1
  refine Keeps.ite ?_ ?_
  · refine Keeps.after State.rampsStop_keeps (by decide) ?_
    refine Keeps.set_hif (by decide) ?_
    exact Keeps.refl _ _
  · exact Keeps.refl _ _

theorem State.stopChecks_keeps {s} : Keeps [.regs, .hif, .mbm, .out] s (State.stopChecks s) := by
  unfold State.stopChecks
  refine Keeps.forN ?_ ?_
  · exact Keeps.refl _ _
  · intro y1 y2 y3
    refine Keeps.after State.stopCheck_keeps (by decide) ?_
    exact y3

theorem State.cfgFlr_keeps {s} : Keeps [.hif] s (State.cfgFlr s) := by
  unfold State.cfgFlr
  extract_lets x1
  refine Keeps.foldl ?_ ?_
  · refine Keeps.set_hif (by decide) ?_
    exact Keeps.refl _ _
  · intro y2 y3 y4
    refine Keeps.after State.cfgWr_keeps (by decide) ?_
    exact y4

theorem State.hostLoss_keeps {s a2} : Keeps [.regs, .hif, .kle, .out] s (State.hostLoss s a2) := by
  unfold State.hostLoss
  extract_lets x1 x2 x3
  have hx1 : Keeps [.regs, .hif, .kle, .out] s x1 := by
    unfold x1
    refine Keeps.after State.setBit_keeps (by decide) ?_
    exact Keeps.refl _ _
  have hx3 : Keeps [.regs, .hif, .kle, .out] s x3 := by
    unfold x3
    refine Keeps.ite ?_ ?_
    · exact hx1
    · refine Keeps.after State.hostLossSlots_keeps (by decide) ?_
      refine Keeps.set_hif (by decide) ?_
      exact hx1
  refine Keeps.after State.event_keeps (by decide) ?_
  refine Keeps.after State.source_keeps (by decide) ?_
  exact hx3

theorem State.ringsReset_keeps {s} : Keeps [.regs, .hif, .mbm] s (State.ringsReset s) := by
  unfold State.ringsReset
  extract_lets z r
  exact Keeps.set_mbm (x := { s with regs := r, hif := _ }) (by decide)
    (Keeps.set_regs_hif (by decide) (by decide) (fun k => Tab.wf_tkeep _ (Tab.wf_tkeep _ k)) (Keeps.refl _ _))

theorem State.muteCmd_keeps {s} : Keeps [.hif] s (State.muteCmd s) := by
  unfold State.muteCmd
  extract_lets x1
  refine Keeps.set_hif (by decide) ?_
  exact Keeps.refl _ _

theorem State.msiReset_keeps {s} : Keeps [.regs, .hif] s (State.msiReset s) := by
  unfold State.msiReset
  extract_lets x1 x2
  refine Keeps.set_regs_hif (by decide) (by decide) (Tab.wf_tkeep _) ?_
  exact Keeps.refl _ _

theorem State.linkReset_keeps {s} : Keeps [.regs, .hif, .pool, .kle, .mbm, .out] s (State.linkReset s) := by
  unfold State.linkReset
  extract_lets x1 x2 x3 x4
  have hx1 : Keeps [.regs, .hif, .pool, .kle, .mbm, .out] s x1 := by
    unfold x1
    refine Keeps.after State.stopChecks_keeps (by decide) ?_
    refine Keeps.after State.poolLinkReset_keeps (by decide) ?_
    refine Keeps.after State.msiReset_keeps (by decide) ?_
    refine Keeps.after State.ringsReset_keeps (by decide) ?_
    refine Keeps.after State.muteCmd_keeps (by decide) ?_
    exact Keeps.refl _ _
  have hx4 : Keeps [.regs, .hif, .pool, .kle, .mbm, .out] s x4 := by
    unfold x4
    refine Keeps.set_regs_hif (by decide) (by decide) (Tab.wf_tkeep _) ?_
    exact hx1
  refine Keeps.after State.hostLoss_keeps (by decide) ?_
  refine Keeps.after State.tally_keeps (by decide) ?_
  exact hx4

theorem execLinkReset_keeps {s} : Answers [.regs, .hif, .pool, .kle, .mbm, .out] s (execLinkReset s) := by
  unfold execLinkReset
  extract_lets x1 x2
  have hx2 : Keeps [.regs, .hif, .pool, .kle, .mbm, .out] s x2 := by
    unfold x2
    refine Keeps.set_hif (by decide) ?_
    exact Keeps.refl _ _
  refine Answers.next ?_
  refine Keeps.ite ?_ ?_
  · refine Keeps.after State.linkReset_keeps (by decide) ?_
    exact hx2
  · exact hx2

theorem execPerstRelease_keeps {s} : Answers [.hif] s (execPerstRelease s) := by
  unfold execPerstRelease
  extract_lets x1
  refine Answers.next ?_
  refine Keeps.after State.startTraining_keeps (by decide) ?_
  refine Keeps.set_hif (by decide) ?_
  exact Keeps.refl _ _

theorem execDataLinkDown_keeps {s} : Answers [.regs, .hif, .pool, .kle, .mbm, .out] s (execDataLinkDown s) := by
  unfold execDataLinkDown
  refine Answers.next ?_
  refine Keeps.ite ?_ ?_
  · refine Keeps.after State.trainNow_keeps (by decide) ?_
    refine Keeps.after State.linkReset_keeps (by decide) ?_
    exact Keeps.refl _ _
  · exact Keeps.refl _ _

theorem execInBandHotReset_keeps {s} : Answers [.regs, .hif, .pool, .kle, .mbm, .out] s (execInBandHotReset s) := by
  unfold execInBandHotReset
  refine Answers.next ?_
  refine Keeps.ite ?_ ?_
  · refine Keeps.after State.trainNow_keeps (by decide) ?_
    refine Keeps.after State.linkReset_keeps (by decide) ?_
    exact Keeps.refl _ _
  · exact Keeps.refl _ _

theorem execLinkTrainingDone_keeps {a1 a2 s} : Answers [.regs, .hif] s (execLinkTrainingDone a1 a2 s) := by
  unfold execLinkTrainingDone
  extract_lets x1 x2 x3
  have hx2 : Keeps [.regs, .hif] s x2 := by
    unfold x2
    refine Keeps.set_hif (by decide) ?_
    exact Keeps.refl _ _
  have hx3 : Keeps [.regs, .hif] s x3 := by
    unfold x3
    refine Keeps.after State.setFld_keeps (by decide) ?_
    refine Keeps.after State.setFld_keeps (by decide) ?_
    refine Keeps.after State.setBit_keeps (by decide) ?_
    exact hx2
  refine Answers.ite ?_ ?_
  · refine Answers.next ?_
    refine Keeps.after State.cfgWr_keeps (by decide) ?_
    exact hx3
  · refine Answers.next ?_
    exact Keeps.refl _ _

theorem execPhySuppliesValid_keeps {s} : Answers [.hif] s (execPhySuppliesValid s) := by
  unfold execPhySuppliesValid
  extract_lets x1
  refine Answers.next ?_
  refine Keeps.after State.startTraining_keeps (by decide) ?_
  refine Keeps.set_hif (by decide) ?_
  exact Keeps.refl _ _

theorem State.flr_keeps {s} : Keeps [.regs, .hif, .pool, .kle, .mbm, .out] s (State.flr s) := by
  unfold State.flr
  extract_lets x1 x2
  have hx1 : Keeps [.regs, .hif, .pool, .kle, .mbm, .out] s x1 := by
    unfold x1
    refine Keeps.after State.cfgFlr_keeps (by decide) ?_
    refine Keeps.after State.stopChecks_keeps (by decide) ?_
    refine Keeps.after State.poolLinkReset_keeps (by decide) ?_
    refine Keeps.after State.msiReset_keeps (by decide) ?_
    refine Keeps.after State.ringsReset_keeps (by decide) ?_
    refine Keeps.after State.muteCmd_keeps (by decide) ?_
    exact Keeps.refl _ _
  have hx2 : Keeps [.regs, .hif, .pool, .kle, .mbm, .out] s x2 := by
    unfold x2
    refine Keeps.after State.tally_keeps (by decide) ?_
    refine Keeps.after State.setBit_keeps (by decide) ?_
    exact hx1
  refine Keeps.after State.hostLoss_keeps (by decide) ?_
  exact hx2

theorem execFunctionLevelReset_keeps {s} :
    Answers [.regs, .hif, .pool, .kle, .mbm, .out] s (execFunctionLevelReset s) := by
  unfold execFunctionLevelReset
  refine Answers.next ?_
  refine Keeps.ite ?_ ?_
  · refine Keeps.after State.flr_keeps (by decide) ?_
    exact Keeps.refl _ _
  · exact Keeps.refl _ _

theorem execFwirqWrite_keeps {a1 s} : Answers [.regs, .hif, .out] s (execFwirqWrite a1 s) := by
  unfold execFwirqWrite
  refine Answers.next ?_
  refine Keeps.ite ?_ ?_
  · refine Keeps.after State.fwirq_keeps (by decide) ?_
    exact Keeps.refl _ _
  · exact Keeps.refl _ _

theorem execVectorModerationTimeout_keeps {a1 s} : Answers [.regs, .hif, .out] s (execVectorModerationTimeout a1 s) := by
  unfold execVectorModerationTimeout
  extract_lets x1
  refine Answers.ite ?_ ?_
  · refine Answers.next ?_
    refine Keeps.after State.sendVector_keeps (by decide) ?_
    refine Keeps.set_hif (by decide) ?_
    exact Keeps.refl _ _
  · refine Answers.next ?_
    exact Keeps.refl _ _

theorem State.cfgWrite_keeps {s a2 a3 a4} :
    Keeps [.regs, .hif, .pool, .kle, .mbm, .out] s (State.cfgWrite s a2 a3 a4) := by
  unfold State.cfgWrite
  extract_lets x1 x2 x3 x4 x5 x6 x7 x8 x9
  have hx7 : Keeps [.regs, .hif, .pool, .kle, .mbm, .out] s x7 := by
    unfold x7
    refine Keeps.after State.cfgWr_keeps (by decide) ?_
    exact Keeps.refl _ _
  have hx8 : Keeps [.regs, .hif, .pool, .kle, .mbm, .out] s x8 := by
    unfold x8
    refine Keeps.ite ?_ ?_
    · refine Keeps.after State.setBit_keeps (by decide) ?_
      exact hx7
    · exact hx7
  have hx9 : Keeps [.regs, .hif, .pool, .kle, .mbm, .out] s x9 := by
    unfold x9
    refine Keeps.ite ?_ ?_
    · refine Keeps.after State.hostLoss_keeps (by decide) ?_
      exact hx8
    · exact hx8
  refine Keeps.ite ?_ ?_
  · refine Keeps.after State.flr_keeps (by decide) ?_
    exact Keeps.refl _ _
  · refine Keeps.after State.sendPending_keeps (by decide) ?_
    exact hx9

theorem execConfigRequest_keeps {a1 a2 a3 a4 s} :
    Answers [.regs, .hif, .pool, .kle, .mbm, .out, .reply] s (execConfigRequest a1 a2 a3 a4 s) := by
  unfold execConfigRequest
  refine Answers.ite ?_ ?_
  · refine Answers.next ?_
    exact Keeps.refl _ _
  · refine Answers.ite ?_ ?_
    · refine Answers.next ?_
      refine Keeps.after State.ackResume_keeps (by decide) ?_
      refine Keeps.after State.cfgWrite_keeps (by decide) ?_
      exact Keeps.refl _ _
    · refine Answers.next ?_
      refine Keeps.set_reply (by decide) ?_
      exact Keeps.refl _ _

theorem execIoOrLockedRequest_keeps {a1 s} : Answers [.hif, .out, .reply, .free] s (execIoOrLockedRequest a1 s) := by
  unfold execIoOrLockedRequest
  refine Answers.next ?_
  refine Keeps.ite ?_ ?_
  · refine Keeps.after State.ur_keeps (by decide) ?_
    exact Keeps.refl _ _
  · exact Keeps.refl _ _

theorem execHeartbeat_keeps {s} : Answers [.hif, .kle] s (execHeartbeat s) := by
  unfold execHeartbeat
  refine Answers.next ?_
  refine Keeps.ite ?_ ?_
  · refine Keeps.after State.heartbeat_keeps (by decide) ?_
    exact Keeps.refl _ _
  · exact Keeps.refl _ _

theorem execHeartbeatTimeout_keeps {a1 s} : Answers [.regs, .hif, .kle, .out] s (execHeartbeatTimeout a1 s) := by
  unfold execHeartbeatTimeout
  extract_lets x1
  refine Answers.ite ?_ ?_
  · refine Answers.next ?_
    refine Keeps.after State.hostLoss_keeps (by decide) ?_
    refine Keeps.set_hif (by decide) ?_
    exact Keeps.refl _ _
  · refine Answers.next ?_
    exact Keeps.refl _ _

theorem execBar2Read_keeps {a1 a2 s} :
    Answers [.regs, .mem, .ecc, .hif, .cores, .coh, .out, .reply, .free] s (execBar2Read a1 a2 s) := by
  unfold execBar2Read
  extract_lets x1
  have hx1 : Keeps [.regs, .mem, .ecc, .hif, .cores, .coh, .out, .reply, .free] s x1 := by
    unfold x1
    refine Keeps.after State.tlpError_keeps (by decide) ?_
    exact Keeps.refl _ _
  refine Answers.ite ?_ ?_
  · refine Answers.next ?_
    refine Keeps.set_reply (by decide) ?_
    exact Keeps.refl _ _
  · refine Answers.ite ?_ ?_
    · refine Answers.next ?_
      refine Keeps.set_reply (by decide) ?_
      exact hx1
    · refine Answers.ite ?_ ?_
      · refine Answers.next ?_
        refine Keeps.after State.ur_keeps (by decide) ?_
        exact Keeps.refl _ _
      · refine Answers.ite ?_ ?_
        · refine Answers.next ?_
          refine Keeps.set_reply (by decide) ?_
          exact Keeps.refl _ _
        · split
          split
          · refine Answers.next ?_
            refine Keeps.set_reply (by decide) ?_
            refine Keeps.of_pair (by assumption) ?_
            refine PairKeeps.after State.coRd_keeps (by decide) ?_
            exact Keeps.refl _ _
          · extract_lets x2
            have hx2 : Keeps [.regs, .mem, .ecc, .hif, .cores, .coh, .out, .reply, .free] s x2 := by
              unfold x2
              refine Keeps.after State.setBit_keeps (by decide) ?_
              refine Keeps.of_pair (by assumption) ?_
              refine PairKeeps.after State.coRd_keeps (by decide) ?_
              exact Keeps.refl _ _
            refine Answers.next ?_
            refine Keeps.set_reply (by decide) ?_
            exact hx2

theorem execBar2Write_keeps {a1 a2 a3 a4 s} :
    Answers [.regs, .mem, .ecc, .hif, .cores, .coh, .out, .free] s (execBar2Write a1 a2 a3 a4 s) := by
  unfold execBar2Write
  refine Answers.ite ?_ ?_
  · refine Answers.next ?_
    exact Keeps.refl _ _
  · refine Answers.ite ?_ ?_
    · refine Answers.next ?_
      refine Keeps.after State.tlpError_keeps (by decide) ?_
      exact Keeps.refl _ _
    · refine Answers.ite ?_ ?_
      · refine Answers.next ?_
        refine Keeps.after State.urWrite_keeps (by decide) ?_
        exact Keeps.refl _ _
      · refine Answers.ite ?_ ?_
        · refine Answers.next ?_
          exact Keeps.refl _ _
        · refine Answers.next ?_
          refine Keeps.of_snd ?_
          refine PairKeeps.after State.coWr_keeps (by decide) ?_
          exact Keeps.refl _ _

end Sys2Proof.Machine
end

