-- ==== Sys2Proof/Laws/Control.lean ====
section
/-!
SUPPORT. Frames of Machine/Control.lean: which parts of the state each of its operations and commands may change.
-/
namespace Sys2Proof.Machine

theorem State.stepCore_keeps {s a2} : Keeps [.regs, .cores] s (State.stepCore s a2) := by
  unfold State.stepCore
  extract_lets x1
  refine Keeps.ite ?_ ?_
  · refine Keeps.after State.setBit_keeps (by decide) ?_
    refine Keeps.after State.setCore_keeps (by decide) ?_
    exact Keeps.refl _ _
  · refine Keeps.after State.setBit_keeps (by decide) ?_
    exact Keeps.refl _ _

theorem State.debugStep_keeps {s a2} : Keeps [.regs, .cores] s (State.debugStep s a2) := by
  unfold State.debugStep
  refine Keeps.forN ?_ ?_
  · exact Keeps.refl _ _
  · intro y1 y2 y3
    refine Keeps.ite ?_ ?_
    · refine Keeps.after State.stepCore_keeps (by decide) ?_
      exact y3
    · exact y3

theorem State.haltRelease_keeps {s a2} : Keeps [.regs, .cores] s (State.haltRelease s a2) := by
  unfold State.haltRelease
  extract_lets x1 x2
  have hx1 : Keeps [.regs, .cores] s x1 := by
    unfold x1
    refine Keeps.after State.setBit_keeps (by decide) ?_
    exact Keeps.refl _ _
  refine Keeps.ite ?_ ?_
  · refine Keeps.after State.setBit_keeps (by decide) ?_
    refine Keeps.after State.setCore_keeps (by decide) ?_
    exact hx1
  · exact hx1

theorem State.haltSafe_keeps {s a2} : Keeps [.regs, .hif, .cmp, .pwm, .kle, .out] s (State.haltSafe s a2) := by
  unfold State.haltSafe
  refine Keeps.ite ?_ ?_
  · refine Keeps.after State.slotsProtect_keeps (by decide) ?_
    refine Keeps.after State.pwmSafeAll_keeps (by decide) ?_
    exact Keeps.refl _ _
  · exact Keeps.refl _ _

theorem State.haltRequest_keeps {s a2} : Keeps [.regs, .hif, .cmp, .pwm, .kle, .out] s (State.haltRequest s a2) := by
  unfold State.haltRequest
  extract_lets x1
  have hx1 : Keeps [.regs, .hif, .cmp, .pwm, .kle, .out] s x1 := by
    unfold x1
    refine Keeps.after State.setBit_keeps (by decide) ?_
    exact Keeps.refl _ _
  refine Keeps.ite ?_ ?_
  · exact Keeps.refl _ _
  · refine Keeps.ite ?_ ?_
    · exact hx1
    · refine Keeps.after State.haltSafe_keeps (by decide) ?_
      exact hx1

theorem State.swi_keeps {s a2} : Keeps [.regs] s (State.swi s a2) := by
  unfold State.swi
  refine Keeps.forN ?_ ?_
  · exact Keeps.refl _ _
  · intro y1 y2 y3
    refine Keeps.ite ?_ ?_
    · refine Keeps.after State.source_keeps (by decide) ?_
      exact y3
    · exact y3

theorem State.coreResetAssert_keeps {s a2} : Keeps [.regs, .cores] s (State.coreResetAssert s a2) := by
  unfold State.coreResetAssert
  extract_lets x1
  refine Keeps.ite ?_ ?_
  · refine Keeps.after State.setBit_keeps (by decide) ?_
    exact Keeps.refl _ _
  · refine Keeps.ite ?_ ?_
    · exact Keeps.refl _ _
    · refine Keeps.after State.setCore_keeps (by decide) ?_
      refine Keeps.after State.setBit_keeps (by decide) ?_
      exact Keeps.refl _ _

theorem State.coreResetRelease_keeps {s a2} : Keeps [.regs, .boot, .cores] s (State.coreResetRelease s a2) := by
  unfold State.coreResetRelease
  extract_lets x1
  have hx1 : Keeps [.regs, .boot, .cores] s x1 := by
    unfold x1
    refine Keeps.after State.setBit_keeps (by decide) ?_
    refine Keeps.after State.setBit_keeps (by decide) ?_
    exact Keeps.refl _ _
  refine Keeps.ite ?_ ?_
  · refine Keeps.ite ?_ ?_
    · exact hx1
    · refine Keeps.after State.coreStart_keeps (by decide) ?_
      exact hx1
  · exact Keeps.refl _ _

theorem State.corerst_keeps {s a2} : Keeps [.regs, .boot, .cores] s (State.corerst s a2) := by
  unfold State.corerst
  refine Keeps.forN ?_ ?_
  · exact Keeps.refl _ _
  · intro y1 y2 y3
    refine Keeps.ite ?_ ?_
    · refine Keeps.after State.coreResetAssert_keeps (by decide) ?_
      exact y3
    · refine Keeps.after State.coreResetRelease_keeps (by decide) ?_
      exact y3

theorem State.dmaInvCheck_keeps {s} : Keeps [.regs] s (State.dmaInvCheck s) := by
  unfold State.dmaInvCheck
  refine Keeps.ite ?_ ?_
  · refine Keeps.after State.setBit_keeps (by decide) ?_
    exact Keeps.refl _ _
  · exact Keeps.refl _ _

theorem State.setCh_keeps {s a2 a3} : Keeps [.dma] s (State.setCh s a2 a3) := by
  unfold State.setCh
  refine Keeps.set_dma (by decide) ?_
  exact Keeps.refl _ _

theorem State.dmaInvNow_keeps {s a2} : Keeps [.dma] s (State.dmaInvNow s a2) := by
  unfold State.dmaInvNow
  extract_lets x1 x2
  refine Keeps.after State.setCh_keeps (by decide) ?_
  exact Keeps.refl _ _

theorem State.dmaInvIdle_keeps {s a2} : Keeps [.regs, .dma] s (State.dmaInvIdle s a2) := by
  unfold State.dmaInvIdle
  refine Keeps.after State.dmaInvCheck_keeps (by decide) ?_
  refine Keeps.after State.dmaInvNow_keeps (by decide) ?_
  exact Keeps.refl _ _

theorem State.dmaSource_keeps {s a2} : Keeps [.regs] s (State.dmaSource s a2) := by
  unfold State.dmaSource
  refine Keeps.after State.source_keeps (by decide) ?_
  exact Keeps.refl _ _

theorem State.dmaDescEnd_keeps {s a2} : Keeps [.regs, .dma] s (State.dmaDescEnd s a2) := by
  unfold State.dmaDescEnd
  extract_lets x1 x2 x3
  have hx2 : Keeps [.regs, .dma] s x2 := by
    unfold x2
    refine Keeps.ite ?_ ?_
    · refine Keeps.after State.dmaSource_keeps (by decide) ?_
      exact Keeps.refl _ _
    · exact Keeps.refl _ _
  have hx3 : Keeps [.regs, .dma] s x3 := by
    unfold x3
    refine Keeps.after State.setCh_keeps (by decide) ?_
    exact hx2
  refine Keeps.ite ?_ ?_
  · refine Keeps.after State.dmaInvIdle_keeps (by decide) ?_
    refine Keeps.after State.dmaSource_keeps (by decide) ?_
    refine Keeps.after State.setBit_keeps (by decide) ?_
    refine Keeps.after State.setFld_keeps (by decide) ?_
    exact hx3
  · exact hx3

theorem State.dmaTake_keeps {s a2 a3 a4 a5 a6} : Keeps [.regs, .dma] s (State.dmaTake s a2 a3 a4 a5 a6) := by
  unfold State.dmaTake
  extract_lets x1 x2 x3
  have hx1 : Keeps [.regs, .dma] s x1 := by
    unfold x1
    refine Keeps.after State.setCh_keeps (by decide) ?_
    exact Keeps.refl _ _
  have hx2 : Keeps [.regs, .dma] s x2 := by
    unfold x2
    refine Keeps.after State.wr_keeps (by decide) ?_
    refine Keeps.after State.wr_keeps (by decide) ?_
    exact hx1
  have hx3 : Keeps [.regs, .dma] s x3 := by
    unfold x3
    refine Keeps.after State.wr_keeps (by decide) ?_
    exact hx2
  refine Keeps.ite ?_ ?_
  · refine Keeps.after State.dmaDescEnd_keeps (by decide) ?_
    exact hx3
  · exact hx3

theorem State.dmaStopOn_keeps {s a2 a3 a4 a5} : Keeps [.regs, .dma] s (State.dmaStopOn s a2 a3 a4 a5) := by
  unfold State.dmaStopOn
  extract_lets x1 x2 x3 x4 x5
  have hx3 : Keeps [.regs, .dma] s x3 := by
    unfold x3
    refine Keeps.after State.setCh_keeps (by decide) ?_
    exact Keeps.refl _ _
  have hx4 : Keeps [.regs, .dma] s x4 := by
    unfold x4
    refine Keeps.after State.setFld_keeps (by decide) ?_
    exact hx3
  have hx5 : Keeps [.regs, .dma] s x5 := by
    unfold x5
    refine Keeps.after State.setBit_keeps (by decide) ?_
    refine Keeps.after State.setFld_keeps (by decide) ?_
    refine Keeps.after State.setBit_keeps (by decide) ?_
    exact hx4
  refine Keeps.after State.dmaInvIdle_keeps (by decide) ?_
  refine Keeps.after State.dmaSource_keeps (by decide) ?_
  refine Keeps.after State.wr_keeps (by decide) ?_
  exact hx5

theorem State.dmaTakeRegs_keeps {s a2} : Keeps [.regs, .dma] s (State.dmaTakeRegs s a2) := by
  unfold State.dmaTakeRegs
  extract_lets x1 x2 x3
  have hx2 : Keeps [.regs, .dma] s x2 := by
    unfold x2
    refine Keeps.after State.wr_keeps (by decide) ?_
    refine Keeps.after State.wr_keeps (by decide) ?_
    exact Keeps.refl _ _
  split
  · refine Keeps.after State.dmaStopOn_keeps (by decide) ?_
    refine Keeps.after State.wr_keeps (by decide) ?_
    exact hx2
  · extract_lets x4
    refine Keeps.after State.dmaTake_keeps (by decide) ?_
    exact Keeps.refl _ _

theorem State.dmaResume_keeps {s a2} : Keeps [.regs, .dma] s (State.dmaResume s a2) := by
  unfold State.dmaResume
  extract_lets x1 x2 x3
  have hx2 : Keeps [.regs, .dma] s x2 := by
    unfold x2
    refine Keeps.after State.setBit_keeps (by decide) ?_
    refine Keeps.after State.setFld_keeps (by decide) ?_
    refine Keeps.after State.setBit_keeps (by decide) ?_
    refine Keeps.after State.setFld_keeps (by decide) ?_
    exact Keeps.refl _ _
  refine Keeps.ite ?_ ?_
  · refine Keeps.after State.setBit_keeps (by decide) ?_
    exact Keeps.refl _ _
  · refine Keeps.ite ?_ ?_
    · refine Keeps.ite ?_ ?_
      · refine Keeps.after State.dmaTake_keeps (by decide) ?_
        exact hx2
      · exact hx2
    · refine Keeps.ite ?_ ?_
      · exact hx2
      · refine Keeps.after State.dmaTakeRegs_keeps (by decide) ?_
        exact hx2

theorem State.dmaStart_keeps {s a2} : Keeps [.regs, .dma] s (State.dmaStart s a2) := by
  unfold State.dmaStart
  extract_lets x1 x2 x3 x4
  have hx2 : Keeps [.regs, .dma] s x2 := by
    unfold x2
    refine Keeps.after State.setBit_keeps (by decide) ?_
    refine Keeps.after State.setFld_keeps (by decide) ?_
    refine Keeps.after State.setFld_keeps (by decide) ?_
    refine Keeps.after State.setFld_keeps (by decide) ?_
    exact Keeps.refl _ _
  have hx4 : Keeps [.regs, .dma] s x4 := by
    unfold x4
    refine Keeps.after State.setCh_keeps (by decide) ?_
    exact hx2
  refine Keeps.ite ?_ ?_
  · refine Keeps.after State.wlrej_keeps (by decide) ?_
    exact Keeps.refl _ _
  · refine Keeps.ite ?_ ?_
    · refine Keeps.after State.setBit_keeps (by decide) ?_
      exact Keeps.refl _ _
    · refine Keeps.ite ?_ ?_
      · exact hx4
      · refine Keeps.after State.dmaTakeRegs_keeps (by decide) ?_
        exact hx4

theorem State.dmaStop_keeps {s a2} : Keeps [.regs, .dma] s (State.dmaStop s a2) := by
  unfold State.dmaStop
  extract_lets x1 x2 x3
  have hx2 : Keeps [.regs, .dma] s x2 := by
    unfold x2
    refine Keeps.after State.setBit_keeps (by decide) ?_
    refine Keeps.after State.setBit_keeps (by decide) ?_
    refine Keeps.after State.setFld_keeps (by decide) ?_
    exact Keeps.refl _ _
  refine Keeps.ite ?_ ?_
  · refine Keeps.after State.setBit_keeps (by decide) ?_
    exact Keeps.refl _ _
  · refine Keeps.after State.dmaInvIdle_keeps (by decide) ?_
    refine Keeps.after State.setCh_keeps (by decide) ?_
    exact hx2

theorem State.dmaCmd_keeps {s a2 a3} : Keeps [.regs, .dma] s (State.dmaCmd s a2 a3) := by
  unfold State.dmaCmd
  refine Keeps.ite ?_ ?_
  · refine Keeps.after State.dmaStart_keeps (by decide) ?_
    exact Keeps.refl _ _
  · refine Keeps.ite ?_ ?_
    · refine Keeps.after State.dmaStop_keeps (by decide) ?_
      exact Keeps.refl _ _
    · refine Keeps.ite ?_ ?_
      · refine Keeps.after State.dmaResume_keeps (by decide) ?_
        exact Keeps.refl _ _
      · exact Keeps.refl _ _

theorem State.dmainv_keeps {s a2} : Keeps [.regs, .dma] s (State.dmainv s a2) := by
  unfold State.dmainv
  extract_lets x1 x2 x3
  have hx2 : Keeps [.regs, .dma] s x2 := by
    unfold x2
    refine Keeps.after State.setBit_keeps (by decide) ?_
    exact Keeps.refl _ _
  have hx3 : Keeps [.regs, .dma] s x3 := by
    unfold x3
    refine Keeps.forN ?_ ?_
    · exact hx2
    · intro y4 y5 y6
      extract_lets x7
      refine Keeps.ite ?_ ?_
      · refine Keeps.after State.setCh_keeps (by decide) ?_
        exact y6
      · refine Keeps.after State.setCh_keeps (by decide) ?_
        exact y6
  refine Keeps.after State.dmaInvCheck_keeps (by decide) ?_
  exact hx3

theorem execCoreResetAssert_keeps {a1 s} : Answers [.regs, .cores] s (execCoreResetAssert a1 s) := by
  unfold execCoreResetAssert
  refine Answers.next ?_
  refine Keeps.ite ?_ ?_
  · refine Keeps.after State.coreResetAssert_keeps (by decide) ?_
    exact Keeps.refl _ _
  · exact Keeps.refl _ _

theorem execCoreResetRelease_keeps {a1 s} : Answers [.regs, .boot, .cores] s (execCoreResetRelease a1 s) := by
  unfold execCoreResetRelease
  refine Answers.next ?_
  refine Keeps.ite ?_ ?_
  · refine Keeps.after State.coreResetRelease_keeps (by decide) ?_
    exact Keeps.refl _ _
  · exact Keeps.refl _ _

theorem execSwi_keeps {a1 s} : Answers [.regs] s (execSwi a1 s) := by
  unfold execSwi
  refine Answers.next ?_
  refine Keeps.ite ?_ ?_
  · refine Keeps.after State.swi_keeps (by decide) ?_
    exact Keeps.refl _ _
  · exact Keeps.refl _ _

theorem execSetpend_keeps {a1 a2 a3 s} : Answers [.regs] s (execSetpend a1 a2 a3 s) := by
  unfold execSetpend
  refine Answers.next ?_
  refine Keeps.ite ?_ ?_
  · refine Keeps.after State.wr_keeps (by decide) ?_
    exact Keeps.refl _ _
  · exact Keeps.refl _ _

theorem execClrpend_keeps {a1 a2 a3 s} : Answers [.regs] s (execClrpend a1 a2 a3 s) := by
  unfold execClrpend
  refine Answers.next ?_
  refine Keeps.ite ?_ ?_
  · refine Keeps.after State.wr_keeps (by decide) ?_
    exact Keeps.refl _ _
  · exact Keeps.refl _ _

theorem execHaltRequest_keeps {a1 s} : Answers [.regs, .hif, .cmp, .pwm, .kle, .out] s (execHaltRequest a1 s) := by
  unfold execHaltRequest
  refine Answers.next ?_
  refine Keeps.ite ?_ ?_
  · refine Keeps.after State.haltRequest_keeps (by decide) ?_
    exact Keeps.refl _ _
  · exact Keeps.refl _ _

theorem execDebugStep_keeps {a1 s} : Answers [.regs, .cores] s (execDebugStep a1 s) := by
  unfold execDebugStep
  refine Answers.next ?_
  refine Keeps.ite ?_ ?_
  · refine Keeps.after State.debugStep_keeps (by decide) ?_
    exact Keeps.refl _ _
  · exact Keeps.refl _ _

theorem execDmaStart_keeps {a1 s} : Answers [.regs, .dma] s (execDmaStart a1 s) := by
  unfold execDmaStart
  refine Answers.next ?_
  refine Keeps.ite ?_ ?_
  · refine Keeps.after State.dmaStart_keeps (by decide) ?_
    exact Keeps.refl _ _
  · exact Keeps.refl _ _

theorem execDmaStop_keeps {a1 s} : Answers [.regs, .dma] s (execDmaStop a1 s) := by
  unfold execDmaStop
  refine Answers.next ?_
  refine Keeps.ite ?_ ?_
  · refine Keeps.after State.dmaStop_keeps (by decide) ?_
    exact Keeps.refl _ _
  · exact Keeps.refl _ _

theorem execDmaResume_keeps {a1 s} : Answers [.regs, .dma] s (execDmaResume a1 s) := by
  unfold execDmaResume
  refine Answers.next ?_
  refine Keeps.ite ?_ ?_
  · refine Keeps.after State.dmaResume_keeps (by decide) ?_
    exact Keeps.refl _ _
  · exact Keeps.refl _ _

theorem execDmainv_keeps {a1 s} : Answers [.regs, .dma] s (execDmainv a1 s) := by
  unfold execDmainv
  refine Answers.next ?_
  refine Keeps.ite ?_ ?_
  · refine Keeps.after State.dmainv_keeps (by decide) ?_
    exact Keeps.refl _ _
  · exact Keeps.refl _ _

end Sys2Proof.Machine
end

