-- ==== Sys2Proof/Laws/Kle.lean ====
section
/-!
SUPPORT. Frames of Machine/Kle.lean: which parts of the state each of its operations and commands may change.
-/
namespace Sys2Proof.Machine

theorem State.slotAbandon_keeps {s a2} : Keeps [.regs, .hif, .cmp, .pwm, .kle, .out] s (State.slotAbandon s a2) := by
  unfold State.slotAbandon
  extract_lets x1 x2 x3 x4
  have hx3 : Keeps [.regs, .hif, .cmp, .pwm, .kle, .out] s x3 := by
    unfold x3
    refine Keeps.ite ?_ ?_
    · refine Keeps.after State.kleFree_keeps (by decide) ?_
      exact Keeps.refl _ _
    · exact Keeps.refl _ _
  split
  · refine Keeps.after State.setSst_keeps (by decide) ?_
    exact hx3
  · extract_lets x5 x6 x7 x8 x9 x10
    have hx7 : Keeps [.regs, .hif, .cmp, .pwm, .kle, .out] s x7 := by
      unfold x7
      refine Keeps.after State.setKs_keeps (by decide) ?_
      exact hx3
    have hx8 : Keeps [.regs, .hif, .cmp, .pwm, .kle, .out] s x8 := by
      unfold x8
      refine Keeps.ite ?_ ?_
      · refine Keeps.after State.setBit_keeps (by decide) ?_
        refine Keeps.after State.setFld_keeps (by decide) ?_
        exact hx7
      · exact hx7
    have hx9 : Keeps [.regs, .hif, .cmp, .pwm, .kle, .out] s x9 := by
      unfold x9
      refine Keeps.ite ?_ ?_
      · refine Keeps.after State.setBit_keeps (by decide) ?_
        refine Keeps.after State.setFld_keeps (by decide) ?_
        exact hx8
      · exact hx8
    have hx10 : Keeps [.regs, .hif, .cmp, .pwm, .kle, .out] s x10 := by
      unfold x10
      refine Keeps.ite ?_ ?_
      · refine Keeps.after State.finish_keeps (by decide) ?_
        exact hx9
      · exact hx9
    refine Keeps.after State.penTake_keeps (by decide) ?_
    refine Keeps.after State.setSst_keeps (by decide) ?_
    exact hx10

theorem State.blkFlags_keeps {s a2 a3 a4} : Keeps [.regs] s (State.blkFlags s a2 a3 a4) := by
  unfold State.blkFlags
  refine Keeps.ite ?_ ?_
  · refine Keeps.after State.wr_keeps (by decide) ?_
    exact Keeps.refl _ _
  · exact Keeps.refl _ _

theorem State.blkStates_keeps {s a2 a3 a4 a5 a6 a7 a8 a9} :
    FstKeeps [.regs, .ecc] s (State.blkStates s a2 a3 a4 a5 a6 a7 a8 a9) := by
  induction a8 generalizing s a9
  · rw [State.blkStates]
    refine FstKeeps.mk ?_
    exact Keeps.refl _ _
  · rename_i y ih
    rw [State.blkStates]
    split
    extract_lets x1
    split
    refine FstKeeps.mk ?_
    refine Keeps.of_fpair (by assumption) ?_
    refine FstKeeps.after ih (fun _ k => k) ?_
    refine Keeps.after State.ctxPut_keeps (by decide) ?_
    exact Keeps.refl _ _

theorem State.latchWrite_keeps {s a2 a3 a4} : Keeps [.regs, .kle] s (State.latchWrite s a2 a3 a4) := by
  unfold State.latchWrite
  extract_lets x1
  have hx1 : Keeps [.regs, .kle] s x1 := by
    unfold x1
    refine Keeps.ite ?_ ?_
    · refine Keeps.after State.tally_keeps (by decide) ?_
      exact Keeps.refl _ _
    · exact Keeps.refl _ _
  refine Keeps.after State.setLatch_keeps (by decide) ?_
  exact hx1

theorem State.nanOut_keeps {s a2 a3} : Keeps [.regs, .hif, .out] s (State.nanOut s a2 a3) := by
  unfold State.nanOut
  refine Keeps.after State.event_keeps (by decide) ?_
  refine Keeps.after State.kleEvt_keeps (by decide) ?_
  refine Keeps.after State.setBit_keeps (by decide) ?_
  exact Keeps.refl _ _

theorem State.kleIssue_keeps {s a2 a3} :
    Keeps [.regs, .mem, .ecc, .hif, .pool, .pwm, .kle, .out, .free] s (State.kleIssue s a2 a3) := by
  unfold State.kleIssue
  split
  · refine Keeps.after State.ctxPut_keeps (by decide) ?_
    exact Keeps.refl _ _
  · exact Keeps.refl _ _
  · refine Keeps.ite ?_ ?_
    · refine Keeps.after State.nanOut_keeps (by decide) ?_
      exact Keeps.refl _ _
    · refine Keeps.after State.pwmCompare_keeps (by decide) ?_
      exact Keeps.refl _ _
  · refine Keeps.of_snd ?_
    refine PairKeeps.after State.stage_keeps (by decide) ?_
    exact Keeps.refl _ _
  · refine Keeps.after State.latchWrite_keeps (by decide) ?_
    exact Keeps.refl _ _
  · refine Keeps.after State.setEcc_keeps (by decide) ?_
    refine Keeps.after State.wrWord_keeps (by decide) ?_
    exact Keeps.refl _ _

theorem State.kleIssueAll_keeps {s a2 a3} :
    Keeps [.regs, .mem, .ecc, .hif, .pool, .pwm, .kle, .out, .free] s (State.kleIssueAll s a2 a3) := by
  induction a3 generalizing s a2
  · rw [State.kleIssueAll]
    exact Keeps.refl _ _
  · rename_i y ih
    rw [State.kleIssueAll]
    refine Keeps.after ih (fun _ k => k) ?_
    refine Keeps.after State.kleIssue_keeps (by decide) ?_
    exact Keeps.refl _ _

theorem State.deadlineMiss_keeps {s a2} : Keeps [.regs, .hif, .cmp, .pwm, .kle, .out] s (State.deadlineMiss s a2) := by
  unfold State.deadlineMiss
  extract_lets x1
  refine Keeps.after State.slotOverrun_keeps (by decide) ?_
  refine Keeps.after State.setKs_keeps (by decide) ?_
  exact Keeps.refl _ _

theorem State.learnReport_keeps {s a2 a3} : Keeps [.regs] s (State.learnReport s a2 a3) := by
  unfold State.learnReport
  split
  · exact Keeps.refl _ _
  · extract_lets x1 x2 x3
    refine Keeps.after State.wr_keeps (by decide) ?_
    refine Keeps.after State.wr_keeps (by decide) ?_
    exact Keeps.refl _ _

theorem State.sampleEnd_keeps {s a2} : Keeps [.regs, .hif, .cmp, .pwm, .kle, .out] s (State.sampleEnd s a2) := by
  unfold State.sampleEnd
  extract_lets x1 x2 x3 x4 x5 x6 x7 x8 x9 x10 x11
  have hx4 : Keeps [.regs, .hif, .cmp, .pwm, .kle, .out] s x4 := by
    unfold x4
    refine Keeps.after State.setKs_keeps (by decide) ?_
    refine Keeps.ite ?_ ?_
    · refine Keeps.after State.kleFree_keeps (by decide) ?_
      exact Keeps.refl _ _
    · exact Keeps.refl _ _
  have hx5 : Keeps [.regs, .hif, .cmp, .pwm, .kle, .out] s x5 := by
    unfold x5
    refine Keeps.after State.learnReport_keeps (by decide) ?_
    exact hx4
  have hx6 : Keeps [.regs, .hif, .cmp, .pwm, .kle, .out] s x6 := by
    unfold x6
    refine Keeps.after State.wr_keeps (by decide) ?_
    exact hx5
  have hx7 : Keeps [.regs, .hif, .cmp, .pwm, .kle, .out] s x7 := by
    unfold x7
    refine Keeps.after State.wr_keeps (by decide) ?_
    exact hx6
  have hx8 : Keeps [.regs, .hif, .cmp, .pwm, .kle, .out] s x8 := by
    unfold x8
    refine Keeps.ite ?_ ?_
    · refine Keeps.after State.wr_keeps (by decide) ?_
      exact hx7
    · exact hx7
  have hx9 : Keeps [.regs, .hif, .cmp, .pwm, .kle, .out] s x9 := by
    unfold x9
    refine Keeps.ite ?_ ?_
    · exact hx8
    · refine Keeps.after State.setFld_keeps (by decide) ?_
      refine Keeps.after State.setBit_keeps (by decide) ?_
      exact hx8
  have hx11 : Keeps [.regs, .hif, .cmp, .pwm, .kle, .out] s x11 := by
    unfold x11
    refine Keeps.after State.kleEvt_keeps (by decide) ?_
    refine Keeps.after State.setSst_keeps (by decide) ?_
    exact hx9
  refine Keeps.after State.slotTrigger_keeps (by decide) ?_
  refine Keeps.ite ?_ ?_
  · refine Keeps.after State.deadlineMiss_keeps (by decide) ?_
    exact hx11
  · exact hx11

theorem State.blkDone_keeps {s a2 a3 a4 a5} :
    Keeps [.regs, .mem, .ecc, .hif, .pool, .cmp, .pwm, .kle, .out, .free] s (State.blkDone s a2 a3 a4 a5) := by
  unfold State.blkDone
  extract_lets x1 x2 x3 x4 x5 x6
  have hx6 : Keeps [.regs, .mem, .ecc, .hif, .pool, .cmp, .pwm, .kle, .out, .free] s x6 := by
    unfold x6
    refine Keeps.after State.blkFlags_keeps (by decide) ?_
    exact Keeps.refl _ _
  split
  split
  extract_lets x7 x8 x9 x10 x11 x12 x13
  have hx11 : Keeps [.regs, .mem, .ecc, .hif, .pool, .cmp, .pwm, .kle, .out, .free] s x11 := by
    unfold x11
    refine Keeps.ite ?_ ?_
    · refine Keeps.after State.kleIssueAll_keeps (by decide) ?_
      refine Keeps.of_fpair (by assumption) ?_
      refine FstKeeps.after State.blkStates_keeps (by decide) ?_
      exact hx6
    · refine Keeps.ite ?_ ?_
      · refine Keeps.after State.kleIssueAll_keeps (by decide) ?_
        refine Keeps.of_fpair (by assumption) ?_
        refine FstKeeps.after State.blkStates_keeps (by decide) ?_
        exact hx6
      · refine Keeps.of_fpair (by assumption) ?_
        refine FstKeeps.after State.blkStates_keeps (by decide) ?_
        exact hx6
  refine Keeps.ite ?_ ?_
  · refine Keeps.after State.setFld_keeps (by decide) ?_
    refine Keeps.after State.setKs_keeps (by decide) ?_
    exact hx11
  · refine Keeps.ite ?_ ?_
    · refine Keeps.after State.sampleEnd_keeps (by decide) ?_
      refine Keeps.after State.setKs_keeps (by decide) ?_
      exact hx11
    · refine Keeps.after State.setFld_keeps (by decide) ?_
      refine Keeps.after State.setKs_keeps (by decide) ?_
      exact hx11

theorem State.kleCheck_keeps {s a2} : PairKeeps [.regs, .ecc, .hif, .out] s (State.kleCheck s a2) := by
  induction a2 generalizing s
  · rw [State.kleCheck]
    refine PairKeeps.mk ?_
    exact Keeps.refl _ _
  · rename_i y ih
    rw [State.kleCheck]
    split
    · refine PairKeeps.after ih (fun _ k => k) ?_
      exact Keeps.refl _ _
    · refine PairKeeps.after ih (fun _ k => k) ?_
      refine Keeps.after State.eccCorrected_keeps (by decide) ?_
      refine Keeps.after State.setEcc_keeps (by decide) ?_
      exact Keeps.refl _ _
    · refine PairKeeps.mk ?_
      exact Keeps.refl _ _

theorem State.kleUe_keeps {s a2 a3} : Keeps [.regs, .hif, .cmp, .pwm, .kle, .out] s (State.kleUe s a2 a3) := by
  unfold State.kleUe
  extract_lets x1
  refine Keeps.after State.slotPen_keeps (by decide) ?_
  refine Keeps.after State.source_keeps (by decide) ?_
  refine Keeps.after State.event_keeps (by decide) ?_
  refine Keeps.after State.wr_keeps (by decide) ?_
  exact Keeps.refl _ _

theorem State.ssRowOf_keeps {s a2 a3} :
    Keeps [.regs, .mem, .ecc, .hif, .pool, .cmp, .pwm, .kle, .out, .free] s (State.ssRowOf s a2 a3) := by
  unfold State.ssRowOf
  extract_lets x1 x2
  split
  · exact Keeps.refl _ _
  · split
    · refine Keeps.after State.kleUe_keeps (by decide) ?_
      refine Keeps.of_pair (by assumption) ?_
      refine PairKeeps.after State.kleCheck_keeps (by decide) ?_
      exact Keeps.refl _ _
    · extract_lets x3 x4 x5 x6 x7 x8
      have hx5 : Keeps [.regs, .mem, .ecc, .hif, .pool, .cmp, .pwm, .kle, .out, .free] s x5 := by
        unfold x5
        refine Keeps.after State.blkFlags_keeps (by decide) ?_
        refine Keeps.of_pair (by assumption) ?_
        refine PairKeeps.after State.kleCheck_keeps (by decide) ?_
        exact Keeps.refl _ _
      refine Keeps.ite ?_ ?_
      · refine Keeps.after State.setKs_keeps (by decide) ?_
        exact hx5
      · refine Keeps.after State.penTake_keeps (by decide) ?_
        refine Keeps.after State.blkDone_keeps (by decide) ?_
        exact hx5

theorem State.toBoundary_keeps {s a2} :
    Keeps [.regs, .mem, .ecc, .hif, .pool, .cmp, .pwm, .kle, .out, .free] s (State.toBoundary s a2) := by
  unfold State.toBoundary
  refine Keeps.forN ?_ ?_
  · exact Keeps.refl _ _
  · intro y1 y2 y3
    refine Keeps.ite ?_ ?_
    · refine Keeps.repeatN ?_ ?_
      · exact y3
      · intro y4 y5
        split
        · refine Keeps.ite ?_ ?_
          · refine Keeps.after State.ssRowOf_keeps (by decide) ?_
            exact y5
          · exact y5
        · exact y5
    · exact y3

theorem State.latchCoin_keeps {s u a3 a4} : Keeps [.regs, .kle] s (State.latchCoin s u a3 a4) := by
  unfold State.latchCoin
  refine Keeps.foldl ?_ ?_
  · exact Keeps.refl _ _
  · intro y1 y2 y3
    split
    · refine Keeps.ite ?_ ?_
      · refine Keeps.after State.dlvLatch_keeps (by decide) ?_
        exact y3
      · exact y3
    · refine Keeps.ite ?_ ?_
      · refine Keeps.after State.tally_keeps (by decide) ?_
        exact y3
      · exact y3

theorem State.latchCopy_keeps {s a2 a3} : Keeps [.regs, .ecc, .kle] s (State.latchCopy s a2 a3) := by
  unfold State.latchCopy
  split
  · refine Keeps.after State.setLatch_keeps (by decide) ?_
    refine Keeps.after State.ctxPut_keeps (by decide) ?_
    exact Keeps.refl _ _
  · exact Keeps.refl _ _

theorem State.latchesCopy_keeps {s a2} : Keeps [.regs, .ecc, .kle] s (State.latchesCopy s a2) := by
  unfold State.latchesCopy
  refine Keeps.forN ?_ ?_
  · exact Keeps.refl _ _
  · intro y1 y2 y3
    refine Keeps.after State.latchCopy_keeps (by decide) ?_
    exact y3

theorem State.pageFlip_keeps {s a2} : Keeps [.regs, .ecc, .hif, .out] s (State.pageFlip s a2) := by
  unfold State.pageFlip
  extract_lets x1 x2
  have hx1 : Keeps [.regs, .ecc, .hif, .out] s x1 := by
    unfold x1
    refine Keeps.forN ?_ ?_
    · exact Keeps.refl _ _
    · intro y3 y4 y5
      refine Keeps.after State.ctxPut_keeps (by decide) ?_
      exact y5
  have hx2 : Keeps [.regs, .ecc, .hif, .out] s x2 := by
    unfold x2
    refine Keeps.after State.setBit_keeps (by decide) ?_
    exact hx1
  refine Keeps.ite ?_ ?_
  · refine Keeps.after State.finish_keeps (by decide) ?_
    exact hx2
  · exact hx2

theorem State.rampApply_keeps {s a2} : Keeps [.regs, .ecc] s (State.rampApply s a2) := by
  unfold State.rampApply
  split
  · exact Keeps.refl _ _
  · extract_lets x1 x2
    refine Keeps.after State.ctxPut_keeps (by decide) ?_
    refine Keeps.after State.ctxPut_keeps (by decide) ?_
    exact Keeps.refl _ _

theorem State.slotBegin_keeps {s a2} : Keeps [.regs, .ecc, .hif, .kle, .out] s (State.slotBegin s a2) := by
  unfold State.slotBegin
  extract_lets x1 x2 x3 x4 x5 x6 x7 x8
  have hx1 : Keeps [.regs, .ecc, .hif, .kle, .out] s x1 := by
    unfold x1
    refine Keeps.after State.latchesCopy_keeps (by decide) ?_
    exact Keeps.refl _ _
  have hx2 : Keeps [.regs, .ecc, .hif, .kle, .out] s x2 := by
    unfold x2
    refine Keeps.ite ?_ ?_
    · refine Keeps.after State.pageFlip_keeps (by decide) ?_
      exact hx1
    · exact hx1
  have hx3 : Keeps [.regs, .ecc, .hif, .kle, .out] s x3 := by
    unfold x3
    refine Keeps.after State.rampApply_keeps (by decide) ?_
    exact hx2
  have hx7 : Keeps [.regs, .ecc, .hif, .kle, .out] s x7 := by
    unfold x7
    refine Keeps.after State.setKs_keeps (by decide) ?_
    exact hx3
  have hx8 : Keeps [.regs, .ecc, .hif, .kle, .out] s x8 := by
    unfold x8
    refine Keeps.after State.setBit_keeps (by decide) ?_
    refine Keeps.after State.setBit_keeps (by decide) ?_
    exact hx7
  refine Keeps.after State.setFld_keeps (by decide) ?_
  refine Keeps.after State.wr_keeps (by decide) ?_
  exact hx8

theorem State.kleRun_keeps {s a2} : Keeps [.regs] s (State.kleRun s a2) := by
  unfold State.kleRun
  refine Keeps.after State.setFld_keeps (by decide) ?_
  refine Keeps.after State.setBit_keeps (by decide) ?_
  refine Keeps.after State.setSst_keeps (by decide) ?_
  exact Keeps.refl _ _

theorem execSlotStart_keeps {s} : Answers [.regs, .ecc, .hif, .cmp, .pwm, .kle, .out] s (execSlotStart s) := by
  unfold execSlotStart
  refine Answers.ite ?_ ?_
  · refine Answers.next ?_
    exact Keeps.refl _ _
  · split
    · refine Answers.next ?_
      exact Keeps.refl _ _
    · refine Answers.ite ?_ ?_
      · refine Answers.next ?_
        refine Keeps.after State.kleRun_keeps (by decide) ?_
        exact Keeps.refl _ _
      · refine Answers.ite ?_ ?_
        · refine Answers.next ?_
          exact Keeps.refl _ _
        · split
          · refine Answers.next ?_
            refine Keeps.after State.kleUe_keeps (by decide) ?_
            refine Keeps.of_pair (by assumption) ?_
            refine PairKeeps.after State.kleCheck_keeps (by decide) ?_
            exact Keeps.refl _ _
          · refine Answers.next ?_
            refine Keeps.after State.kleRun_keeps (by decide) ?_
            refine Keeps.after State.slotBegin_keeps (by decide) ?_
            refine Keeps.of_pair (by assumption) ?_
            refine PairKeeps.after State.kleCheck_keeps (by decide) ?_
            exact Keeps.refl _ _

theorem execPreemption_keeps {s} : Answers [.regs] s (execPreemption s) := by
  unfold execPreemption
  split
  · refine Answers.next ?_
    refine Keeps.ite ?_ ?_
    · refine Keeps.after State.setSst_keeps (by decide) ?_
      refine Keeps.after State.kleFree_keeps (by decide) ?_
      exact Keeps.refl _ _
    · exact Keeps.refl _ _
  · refine Answers.next ?_
    exact Keeps.refl _ _

theorem execDeadlineOverrun_keeps {a1 s} :
    Answers [.regs, .hif, .cmp, .pwm, .kle, .out] s (execDeadlineOverrun a1 s) := by
  unfold execDeadlineOverrun
  extract_lets x1 x2
  have hx2 : Keeps [.regs, .hif, .cmp, .pwm, .kle, .out] s x2 := by
    unfold x2
    refine Keeps.after State.deadlineMiss_keeps (by decide) ?_
    exact Keeps.refl _ _
  refine Answers.ite ?_ ?_
  · refine Answers.next ?_
    exact Keeps.refl _ _
  · refine Answers.next ?_
    refine Keeps.ite ?_ ?_
    · refine Keeps.after State.slotAbandon_keeps (by decide) ?_
      exact hx2
    · exact hx2

theorem State.blkRun_keeps {s a2} :
    Keeps [.regs, .mem, .ecc, .hif, .pool, .cmp, .pwm, .kle, .out, .free] s (State.blkRun s a2) := by
  unfold State.blkRun
  split
  · exact Keeps.refl _ _
  · extract_lets x1
    split
    · exact Keeps.refl _ _
    · split
      · refine Keeps.after State.kleUe_keeps (by decide) ?_
        refine Keeps.of_pair (by assumption) ?_
        refine PairKeeps.after State.kleCheck_keeps (by decide) ?_
        exact Keeps.refl _ _
      · extract_lets x2 x3 x4 x5 x6
        split
        · refine Keeps.after State.kleUe_keeps (by decide) ?_
          refine Keeps.of_pair (by assumption) ?_
          refine PairKeeps.after State.kleCheck_keeps (by decide) ?_
          refine Keeps.of_pair (by assumption) ?_
          refine PairKeeps.after State.kleCheck_keeps (by decide) ?_
          exact Keeps.refl _ _
        · refine Keeps.after State.blkDone_keeps (by decide) ?_
          refine Keeps.of_pair (by assumption) ?_
          refine PairKeeps.after State.kleCheck_keeps (by decide) ?_
          refine Keeps.of_pair (by assumption) ?_
          refine PairKeeps.after State.kleCheck_keeps (by decide) ?_
          exact Keeps.refl _ _

theorem State.ssStep_keeps {s} :
    Keeps [.regs, .mem, .ecc, .hif, .pool, .cmp, .pwm, .kle, .out, .free] s (State.ssStep s) := by
  unfold State.ssStep
  split
  · exact Keeps.refl _ _
  · refine Keeps.after State.ssRowOf_keeps (by decide) ?_
    exact Keeps.refl _ _

theorem State.skips_keeps {s a2 a3} : Keeps [.regs] s (State.skips s a2 a3) := by
  unfold State.skips
  refine Keeps.forN ?_ ?_
  · exact Keeps.refl _ _
  · intro y1 y2 y3
    refine Keeps.after State.tally_keeps (by decide) ?_
    exact y3

theorem State.learnRun_keeps {s} :
    Keeps [.regs, .mem, .ecc, .hif, .pool, .cmp, .pwm, .kle, .out, .free] s (State.learnRun s) := by
  unfold State.learnRun
  split
  · exact Keeps.refl _ _
  · extract_lets x1 x2 x3 x4
    split
    · exact Keeps.refl _ _
    · split
      · refine Keeps.after State.kleUe_keeps (by decide) ?_
        refine Keeps.of_pair (by assumption) ?_
        refine PairKeeps.after State.kleCheck_keeps (by decide) ?_
        exact Keeps.refl _ _
      · extract_lets x5 x6 x7 x8
        split
        split
        · refine Keeps.after State.kleUe_keeps (by decide) ?_
          refine Keeps.of_pair (by assumption) ?_
          refine PairKeeps.after State.kleCheck_keeps (by decide) ?_
          refine Keeps.of_pair (by assumption) ?_
          refine PairKeeps.after State.kleCheck_keeps (by decide) ?_
          exact Keeps.refl _ _
        · extract_lets x9 x10 x11 x12 x13
          have hx11 : Keeps [.regs, .mem, .ecc, .hif, .pool, .cmp, .pwm, .kle, .out, .free] s x11 := by
            unfold x11
            refine Keeps.ite ?_ ?_
            · refine Keeps.after State.skips_keeps (by decide) ?_
              refine Keeps.of_pair (by assumption) ?_
              refine PairKeeps.after State.kleCheck_keeps (by decide) ?_
              refine Keeps.of_pair (by assumption) ?_
              refine PairKeeps.after State.kleCheck_keeps (by decide) ?_
              exact Keeps.refl _ _
            · refine Keeps.of_pair (by assumption) ?_
              refine PairKeeps.after State.kleCheck_keeps (by decide) ?_
              refine Keeps.of_pair (by assumption) ?_
              refine PairKeeps.after State.kleCheck_keeps (by decide) ?_
              exact Keeps.refl _ _
          have hx12 : Keeps [.regs, .mem, .ecc, .hif, .pool, .cmp, .pwm, .kle, .out, .free] s x12 := by
            unfold x12
            refine Keeps.ite ?_ ?_
            · refine Keeps.after State.event_keeps (by decide) ?_
              exact hx11
            · exact hx11
          refine Keeps.after State.blkDone_keeps (by decide) ?_
          exact hx12

theorem execLin_keeps {s} : Answers [.regs, .mem, .ecc, .hif, .pool, .cmp, .pwm, .kle, .out, .free] s (execLin s) := by
  unfold execLin
  refine Answers.next ?_
  refine Keeps.after State.blkRun_keeps (by decide) ?_
  exact Keeps.refl _ _

theorem execPi_keeps {s} : Answers [.regs, .mem, .ecc, .hif, .pool, .cmp, .pwm, .kle, .out, .free] s (execPi s) := by
  unfold execPi
  refine Answers.next ?_
  refine Keeps.after State.blkRun_keeps (by decide) ?_
  exact Keeps.refl _ _

theorem execPid_keeps {s} : Answers [.regs, .mem, .ecc, .hif, .pool, .cmp, .pwm, .kle, .out, .free] s (execPid s) := by
  unfold execPid
  refine Answers.next ?_
  refine Keeps.after State.blkRun_keeps (by decide) ?_
  exact Keeps.refl _ _

theorem execLeadlag_keeps {s} :
    Answers [.regs, .mem, .ecc, .hif, .pool, .cmp, .pwm, .kle, .out, .free] s (execLeadlag s) := by
  unfold execLeadlag
  refine Answers.next ?_
  refine Keeps.after State.blkRun_keeps (by decide) ?_
  exact Keeps.refl _ _

theorem execBiquad_keeps {s} :
    Answers [.regs, .mem, .ecc, .hif, .pool, .cmp, .pwm, .kle, .out, .free] s (execBiquad s) := by
  unfold execBiquad
  refine Answers.next ?_
  refine Keeps.after State.blkRun_keeps (by decide) ?_
  exact Keeps.refl _ _

theorem execPr_keeps {s} : Answers [.regs, .mem, .ecc, .hif, .pool, .cmp, .pwm, .kle, .out, .free] s (execPr s) := by
  unfold execPr
  refine Answers.next ?_
  refine Keeps.after State.blkRun_keeps (by decide) ?_
  exact Keeps.refl _ _

theorem execSs_keeps {s} : Answers [.regs, .mem, .ecc, .hif, .pool, .cmp, .pwm, .kle, .out, .free] s (execSs s) := by
  unfold execSs
  refine Answers.next ?_
  refine Keeps.after State.ssStep_keeps (by decide) ?_
  exact Keeps.refl _ _

theorem execClarke_keeps {s} :
    Answers [.regs, .mem, .ecc, .hif, .pool, .cmp, .pwm, .kle, .out, .free] s (execClarke s) := by
  unfold execClarke
  refine Answers.next ?_
  refine Keeps.after State.blkRun_keeps (by decide) ?_
  exact Keeps.refl _ _

theorem execPark_keeps {s} : Answers [.regs, .mem, .ecc, .hif, .pool, .cmp, .pwm, .kle, .out, .free] s (execPark s) := by
  unfold execPark
  refine Answers.next ?_
  refine Keeps.after State.blkRun_keeps (by decide) ?_
  exact Keeps.refl _ _

theorem execIpark_keeps {s} :
    Answers [.regs, .mem, .ecc, .hif, .pool, .cmp, .pwm, .kle, .out, .free] s (execIpark s) := by
  unfold execIpark
  refine Answers.next ?_
  refine Keeps.after State.blkRun_keeps (by decide) ?_
  exact Keeps.refl _ _

theorem execIclarke_keeps {s} :
    Answers [.regs, .mem, .ecc, .hif, .pool, .cmp, .pwm, .kle, .out, .free] s (execIclarke s) := by
  unfold execIclarke
  refine Answers.next ?_
  refine Keeps.after State.blkRun_keeps (by decide) ?_
  exact Keeps.refl _ _

theorem execSvm_keeps {s} : Answers [.regs, .mem, .ecc, .hif, .pool, .cmp, .pwm, .kle, .out, .free] s (execSvm s) := by
  unfold execSvm
  refine Answers.next ?_
  refine Keeps.after State.blkRun_keeps (by decide) ?_
  exact Keeps.refl _ _

theorem execSincos_keeps {s} :
    Answers [.regs, .mem, .ecc, .hif, .pool, .cmp, .pwm, .kle, .out, .free] s (execSincos s) := by
  unfold execSincos
  refine Answers.next ?_
  refine Keeps.after State.blkRun_keeps (by decide) ?_
  exact Keeps.refl _ _

theorem execTable_keeps {s} :
    Answers [.regs, .mem, .ecc, .hif, .pool, .cmp, .pwm, .kle, .out, .free] s (execTable s) := by
  unfold execTable
  refine Answers.next ?_
  refine Keeps.after State.blkRun_keeps (by decide) ?_
  exact Keeps.refl _ _

theorem execCmpsel_keeps {s} :
    Answers [.regs, .mem, .ecc, .hif, .pool, .cmp, .pwm, .kle, .out, .free] s (execCmpsel s) := by
  unfold execCmpsel
  refine Answers.next ?_
  refine Keeps.after State.blkRun_keeps (by decide) ?_
  exact Keeps.refl _ _

theorem execClipBlock_keeps {s} :
    Answers [.regs, .mem, .ecc, .hif, .pool, .cmp, .pwm, .kle, .out, .free] s (execClipBlock s) := by
  unfold execClipBlock
  refine Answers.next ?_
  refine Keeps.after State.blkRun_keeps (by decide) ?_
  exact Keeps.refl _ _

theorem execInteg_keeps {s} :
    Answers [.regs, .mem, .ecc, .hif, .pool, .cmp, .pwm, .kle, .out, .free] s (execInteg s) := by
  unfold execInteg
  refine Answers.next ?_
  refine Keeps.after State.blkRun_keeps (by decide) ?_
  exact Keeps.refl _ _

theorem execLearn_keeps {s} :
    Answers [.regs, .mem, .ecc, .hif, .pool, .cmp, .pwm, .kle, .out, .free] s (execLearn s) := by
  unfold execLearn
  refine Answers.next ?_
  refine Keeps.after State.learnRun_keeps (by decide) ?_
  exact Keeps.refl _ _

theorem execOutpwm_keeps {s} :
    Answers [.regs, .mem, .ecc, .hif, .pool, .cmp, .pwm, .kle, .out, .free] s (execOutpwm s) := by
  unfold execOutpwm
  refine Answers.next ?_
  refine Keeps.after State.blkRun_keeps (by decide) ?_
  exact Keeps.refl _ _

theorem execOutq_keeps {s} : Answers [.regs, .mem, .ecc, .hif, .pool, .cmp, .pwm, .kle, .out, .free] s (execOutq s) := by
  unfold execOutq
  refine Answers.next ?_
  refine Keeps.after State.blkRun_keeps (by decide) ?_
  exact Keeps.refl _ _

theorem execLatch_keeps {a1 s} :
    Answers [.regs, .mem, .ecc, .hif, .pool, .cmp, .pwm, .kle, .out, .free] s (execLatch a1 s) := by
  unfold execLatch
  refine Answers.next ?_
  refine Keeps.after State.latchCoin_keeps (by decide) ?_
  refine Keeps.after State.blkRun_keeps (by decide) ?_
  exact Keeps.refl _ _

theorem execDivsqrt_keeps {s} :
    Answers [.regs, .mem, .ecc, .hif, .pool, .cmp, .pwm, .kle, .out, .free] s (execDivsqrt s) := by
  unfold execDivsqrt
  refine Answers.next ?_
  refine Keeps.after State.blkRun_keeps (by decide) ?_
  exact Keeps.refl _ _

end Sys2Proof.Machine
end

