-- ==== Sys2Proof/Laws/Hatch.lean ====
section
/-!
SUPPORT. Frames of Machine/Hatch.lean: which parts of the state each of its operations and commands may change.
-/
namespace Sys2Proof.Machine

theorem State.kleHalt_keeps {s} :
    Keeps [.regs, .mem, .ecc, .hif, .pool, .cmp, .pwm, .kle, .out, .free] s (State.kleHalt s) := by
  unfold State.kleHalt
  extract_lets x1 x2 x3 x4
  have hx1 : Keeps [.regs, .mem, .ecc, .hif, .pool, .cmp, .pwm, .kle, .out, .free] s x1 := by
    unfold x1
    refine Keeps.after State.toBoundary_keeps (by decide) ?_
    refine Keeps.after State.pwmSafeAll_keeps (by decide) ?_
    exact Keeps.refl _ _
  have hx2 : Keeps [.regs, .mem, .ecc, .hif, .pool, .cmp, .pwm, .kle, .out, .free] s x2 := by
    unfold x2
    refine Keeps.forN ?_ ?_
    · exact hx1
    · intro y5 y6 y7
      refine Keeps.ite ?_ ?_
      · refine Keeps.after State.slotAbandon_keeps (by decide) ?_
        exact y7
      · exact y7
  have hx3 : Keeps [.regs, .mem, .ecc, .hif, .pool, .cmp, .pwm, .kle, .out, .free] s x3 := by
    unfold x3
    refine Keeps.forN ?_ ?_
    · exact hx2
    · intro y8 y9 y10
      extract_lets x11
      refine Keeps.after State.setKs_keeps (by decide) ?_
      exact y10
  have hx4 : Keeps [.regs, .mem, .ecc, .hif, .pool, .cmp, .pwm, .kle, .out, .free] s x4 := by
    unfold x4
    refine Keeps.after State.slotsProtect_keeps (by decide) ?_
    exact hx3
  refine Keeps.ite ?_ ?_
  · exact Keeps.refl _ _
  · refine Keeps.after State.setBit_keeps (by decide) ?_
    refine Keeps.after State.setBit_keeps (by decide) ?_
    refine Keeps.after State.setBit_keeps (by decide) ?_
    exact hx4

theorem State.kleRelease_keeps {s} : Keeps [.regs, .kle] s (State.kleRelease s) := by
  unfold State.kleRelease
  extract_lets x1
  have hx1 : Keeps [.regs, .kle] s x1 := by
    unfold x1
    refine Keeps.forN ?_ ?_
    · exact Keeps.refl _ _
    · intro y2 y3 y4
      extract_lets x5
      refine Keeps.after State.setKs_keeps (by decide) ?_
      exact y4
  refine Keeps.after State.setBit_keeps (by decide) ?_
  refine Keeps.after State.setBit_keeps (by decide) ?_
  refine Keeps.after State.setBit_keeps (by decide) ?_
  exact hx1

theorem State.paramWr_keeps {s a2 a3 a4 a5} : Keeps [.regs, .ecc, .kle] s (State.paramWr s a2 a3 a4 a5) := by
  unfold State.paramWr
  extract_lets x1 x2
  have hx1 : Keeps [.regs, .ecc, .kle] s x1 := by
    unfold x1
    refine Keeps.after State.setBit_keeps (by decide) ?_
    refine Keeps.after State.setEcc_keeps (by decide) ?_
    refine Keeps.after State.wr_keeps (by decide) ?_
    exact Keeps.refl _ _
  refine Keeps.ite ?_ ?_
  · refine Keeps.after State.setKs_keeps (by decide) ?_
    exact hx1
  · exact hx1

theorem State.enclr_keeps {s a2} : Keeps [.regs, .hif, .cmp, .pwm, .kle, .out] s (State.enclr s a2) := by
  unfold State.enclr
  refine Keeps.forN ?_ ?_
  · exact Keeps.refl _ _
  · intro y1 y2 y3
    refine Keeps.ite ?_ ?_
    · refine Keeps.after State.slotStop_keeps (by decide) ?_
      exact y3
    · exact y3

theorem State.enset_keeps {s a2} : Keeps [.regs, .kle] s (State.enset s a2) := by
  unfold State.enset
  refine Keeps.ite ?_ ?_
  · refine Keeps.ite ?_ ?_
    · exact Keeps.refl _ _
    · refine Keeps.after State.wlrej_keeps (by decide) ?_
      exact Keeps.refl _ _
  · refine Keeps.forN ?_ ?_
    · exact Keeps.refl _ _
    · intro y1 y2 y3
      refine Keeps.ite ?_ ?_
      · exact y3
      · refine Keeps.ite ?_ ?_
        · refine Keeps.after State.setBit_keeps (by decide) ?_
          exact y3
        · refine Keeps.after State.slotArm_keeps (by decide) ?_
          exact y3

theorem State.injDrop_keeps {s a2} : Keeps [.regs, .hif, .kle, .out] s (State.injDrop s a2) := by
  unfold State.injDrop
  extract_lets x1
  refine Keeps.ite ?_ ?_
  · refine Keeps.after State.finish_keeps (by decide) ?_
    refine Keeps.after State.setKs_keeps (by decide) ?_
    refine Keeps.after State.injUndo_keeps (by decide) ?_
    exact Keeps.refl _ _
  · exact Keeps.refl _ _

theorem State.injctl_keeps {s a2 a3} : Keeps [.regs, .hif, .kle, .out] s (State.injctl s a2 a3) := by
  unfold State.injctl
  extract_lets x1 x2 x3
  have hx1 : Keeps [.regs, .hif, .kle, .out] s x1 := by
    unfold x1
    refine Keeps.after State.injDrop_keeps (by decide) ?_
    exact Keeps.refl _ _
  have hx2 : Keeps [.regs, .hif, .kle, .out] s x2 := by
    unfold x2
    refine Keeps.after State.wr_keeps (by decide) ?_
    exact hx1
  refine Keeps.ite ?_ ?_
  · exact hx2
  · refine Keeps.ite ?_ ?_
    · refine Keeps.after State.setBit_keeps (by decide) ?_
      refine Keeps.after State.setFld_keeps (by decide) ?_
      exact hx2
    · refine Keeps.after State.setBit_keeps (by decide) ?_
      exact hx2

theorem State.kleDoorbell_keeps {s a2} : Keeps [.regs, .hif, .cmp, .pwm, .kle, .out] s (State.kleDoorbell s a2) := by
  unfold State.kleDoorbell
  refine Keeps.forN ?_ ?_
  · exact Keeps.refl _ _
  · intro y1 y2 y3
    refine Keeps.ite ?_ ?_
    · refine Keeps.after State.slotHit_keeps (by decide) ?_
      exact y3
    · exact y3

theorem State.lctl_keeps {s a2 a3} : Keeps [.regs, .kle] s (State.lctl s a2 a3) := by
  unfold State.lctl
  extract_lets x1 x2 x3
  have hx1 : Keeps [.regs, .kle] s x1 := by
    unfold x1
    refine Keeps.after State.setBit_keeps (by decide) ?_
    exact Keeps.refl _ _
  have hx2 : Keeps [.regs, .kle] s x2 := by
    unfold x2
    refine Keeps.after State.setBit_keeps (by decide) ?_
    exact hx1
  refine Keeps.ite ?_ ?_
  · refine Keeps.ite ?_ ?_
    · exact hx2
    · refine Keeps.after State.setKs_keeps (by decide) ?_
      exact hx2
  · exact hx1

theorem State.slotrst_keeps {s a2} : Keeps [.regs, .ecc, .hif, .cmp, .pwm, .kle, .out] s (State.slotrst s a2) := by
  unfold State.slotrst
  refine Keeps.forN ?_ ?_
  · exact Keeps.refl _ _
  · intro y1 y2 y3
    refine Keeps.ite ?_ ?_
    · refine Keeps.after State.slotReset_keeps (by decide) ?_
      exact y3
    · exact y3

theorem State.escalate_keeps {s a2 a3 a4} : FstKeeps [.regs, .hif, .out] s (State.escalate s a2 a3 a4) := by
  unfold State.escalate
  extract_lets x1 x2 x3 x4 x5 x6 x7 x8 x9 x10
  have hx3 : Keeps [.regs, .hif, .out] s x3 := by
    unfold x3
    refine Keeps.after State.setFld_keeps (by decide) ?_
    exact Keeps.refl _ _
  have hx5 : Keeps [.regs, .hif, .out] s x5 := by
    unfold x5
    refine Keeps.ite ?_ ?_
    · refine Keeps.after State.tally_keeps (by decide) ?_
      exact hx3
    · exact hx3
  have hx6 : Keeps [.regs, .hif, .out] s x6 := by
    unfold x6
    refine Keeps.ite ?_ ?_
    · refine Keeps.after State.tallyHi_keeps (by decide) ?_
      exact hx5
    · exact hx5
  have hx8 : Keeps [.regs, .hif, .out] s x8 := by
    unfold x8
    refine Keeps.after State.tally_keeps (by decide) ?_
    refine Keeps.after State.setFld_keeps (by decide) ?_
    exact hx6
  have hx10 : Keeps [.regs, .hif, .out] s x10 := by
    unfold x10
    refine Keeps.ite ?_ ?_
    · refine Keeps.after State.tallyHi_keeps (by decide) ?_
      exact hx6
    · exact hx6
  refine FstKeeps.ite ?_ ?_
  · refine FstKeeps.mk ?_
    refine Keeps.after State.event_keeps (by decide) ?_
    exact hx8
  · refine FstKeeps.ite ?_ ?_
    · refine FstKeeps.mk ?_
      exact hx6
    · refine FstKeeps.mk ?_
      refine Keeps.after State.setFld_keeps (by decide) ?_
      exact hx10

theorem State.vote_keeps {s a2 a3} :
    Keeps [.regs, .mem, .ecc, .hif, .pool, .cmp, .pwm, .kle, .out, .free] s (State.vote s a2 a3) := by
  unfold State.vote
  extract_lets x1 x2 x3 x4 x5 x6 x7 x8 x9 x10 x11 x12
  have hx3 : Keeps [.regs, .mem, .ecc, .hif, .pool, .cmp, .pwm, .kle, .out, .free] s x3 := by
    unfold x3
    refine Keeps.after State.kleIssueAll_keeps (by decide) ?_
    exact Keeps.refl _ _
  have hx8 : Keeps [.regs, .mem, .ecc, .hif, .pool, .cmp, .pwm, .kle, .out, .free] s x8 := by
    unfold x8
    refine Keeps.after State.setFld_keeps (by decide) ?_
    refine Keeps.after State.setFld_keeps (by decide) ?_
    refine Keeps.after State.setFld_keeps (by decide) ?_
    exact hx3
  have hx9 : Keeps [.regs, .mem, .ecc, .hif, .pool, .cmp, .pwm, .kle, .out, .free] s x9 := by
    unfold x9
    refine Keeps.after State.setBit_keeps (by decide) ?_
    refine Keeps.after State.setFld_keeps (by decide) ?_
    refine Keeps.after State.setFld_keeps (by decide) ?_
    exact hx8
  have hx11 : Keeps [.regs, .mem, .ecc, .hif, .pool, .cmp, .pwm, .kle, .out, .free] s x11 := by
    unfold x11
    refine Keeps.after State.setKs_keeps (by decide) ?_
    exact hx9
  have hx12 : Keeps [.regs, .mem, .ecc, .hif, .pool, .cmp, .pwm, .kle, .out, .free] s x12 := by
    unfold x12
    refine Keeps.after State.setBit_keeps (by decide) ?_
    refine Keeps.after State.setFld_keeps (by decide) ?_
    exact hx11
  split
  extract_lets x13
  have hx13 : Keeps [.regs, .mem, .ecc, .hif, .pool, .cmp, .pwm, .kle, .out, .free] s x13 := by
    unfold x13
    refine Keeps.after State.sampleEnd_keeps (by decide) ?_
    refine Keeps.of_fpair (by assumption) ?_
    refine FstKeeps.ite ?_ ?_
    · refine FstKeeps.mk ?_
      refine Keeps.ite ?_ ?_
      · refine Keeps.after State.finish_keeps (by decide) ?_
        exact hx12
      · exact hx12
    · refine FstKeeps.after State.escalate_keeps (by decide) ?_
      exact hx11
  refine Keeps.ite ?_ ?_
  · refine Keeps.after State.slotPen_keeps (by decide) ?_
    exact hx13
  · exact hx13

theorem execHatchVote_keeps {a1 s} :
    Answers [.regs, .mem, .ecc, .hif, .pool, .cmp, .pwm, .kle, .out, .free] s (execHatchVote a1 s) := by
  unfold execHatchVote
  split
  · refine Answers.next ?_
    exact Keeps.refl _ _
  · extract_lets x1
    split
    · refine Answers.next ?_
      exact Keeps.refl _ _
    · refine Answers.ite ?_ ?_
      · refine Answers.next ?_
        refine Keeps.after State.latchCoin_keeps (by decide) ?_
        refine Keeps.after State.vote_keeps (by decide) ?_
        exact Keeps.refl _ _
      · refine Answers.next ?_
        exact Keeps.refl _ _

theorem execKleDoorbell_keeps {a1 s} : Answers [.regs, .hif, .cmp, .pwm, .kle, .out] s (execKleDoorbell a1 s) := by
  unfold execKleDoorbell
  refine Answers.next ?_
  refine Keeps.after State.kleDoorbell_keeps (by decide) ?_
  exact Keeps.refl _ _

theorem execEnset_keeps {a1 s} : Answers [.regs, .kle] s (execEnset a1 s) := by
  unfold execEnset
  refine Answers.next ?_
  refine Keeps.ite ?_ ?_
  · refine Keeps.after State.enset_keeps (by decide) ?_
    exact Keeps.refl _ _
  · exact Keeps.refl _ _

theorem execEnclr_keeps {a1 s} : Answers [.regs, .hif, .cmp, .pwm, .kle, .out] s (execEnclr a1 s) := by
  unfold execEnclr
  refine Answers.next ?_
  refine Keeps.ite ?_ ?_
  · refine Keeps.after State.enclr_keeps (by decide) ?_
    exact Keeps.refl _ _
  · exact Keeps.refl _ _

theorem execSlotrst_keeps {a1 s} : Answers [.regs, .ecc, .hif, .cmp, .pwm, .kle, .out] s (execSlotrst a1 s) := by
  unfold execSlotrst
  refine Answers.next ?_
  refine Keeps.ite ?_ ?_
  · refine Keeps.after State.slotrst_keeps (by decide) ?_
    exact Keeps.refl _ _
  · exact Keeps.refl _ _

theorem execSlotResetEffect_keeps {a1 s} :
    Answers [.regs, .ecc, .hif, .cmp, .pwm, .kle, .out] s (execSlotResetEffect a1 s) := by
  unfold execSlotResetEffect
  extract_lets x1
  have hx1 : Keeps [.regs, .ecc, .hif, .cmp, .pwm, .kle, .out] s x1 := by
    unfold x1
    refine Keeps.after State.slotResetNow_keeps (by decide) ?_
    exact Keeps.refl _ _
  refine Answers.ite ?_ ?_
  · refine Answers.next ?_
    refine Keeps.ite ?_ ?_
    · refine Keeps.after State.finish_keeps (by decide) ?_
      exact hx1
    · exact hx1
  · refine Answers.next ?_
    exact Keeps.refl _ _

theorem execParamWindowWrite_keeps {a1 a2 a3 s} : Answers [.regs, .ecc, .kle] s (execParamWindowWrite a1 a2 a3 s) := by
  unfold execParamWindowWrite
  refine Answers.next ?_
  refine Keeps.ite ?_ ?_
  · refine Keeps.after State.paramWr_keeps (by decide) ?_
    exact Keeps.refl _ _
  · exact Keeps.refl _ _

theorem execSignalWordWrite_keeps {a1 a2 a3 s} : Answers [.kle] s (execSignalWordWrite a1 a2 a3 s) := by
  unfold execSignalWordWrite
  refine Answers.next ?_
  refine Keeps.ite ?_ ?_
  · refine Keeps.after State.setLatch_keeps (by decide) ?_
    exact Keeps.refl _ _
  · exact Keeps.refl _ _

theorem execLearnClear_keeps {a1 s} : Answers [.regs, .kle] s (execLearnClear a1 s) := by
  unfold execLearnClear
  refine Answers.next ?_
  refine Keeps.ite ?_ ?_
  · refine Keeps.after State.lctl_keeps (by decide) ?_
    exact Keeps.refl _ _
  · exact Keeps.refl _ _

theorem State.learnZero_keeps {s a2 a3} : Keeps [.mem, .ecc] s (State.learnZero s a2 a3) := by
  unfold State.learnZero
  extract_lets x1
  refine Keeps.ite ?_ ?_
  · refine Keeps.after State.zeroRange_keeps (by decide) ?_
    exact Keeps.refl _ _
  · exact Keeps.refl _ _

theorem execLearnClearDone_keeps {a1 s} : Answers [.regs, .mem, .ecc, .kle] s (execLearnClearDone a1 s) := by
  unfold execLearnClearDone
  extract_lets x1 x2
  have hx1 : Keeps [.regs, .mem, .ecc, .kle] s x1 := by
    unfold x1
    refine Keeps.forN ?_ ?_
    · exact Keeps.refl _ _
    · intro y3 y4 y5
      refine Keeps.after State.learnZero_keeps (by decide) ?_
      exact y5
  refine Answers.ite ?_ ?_
  · refine Answers.next ?_
    refine Keeps.after State.setKs_keeps (by decide) ?_
    refine Keeps.after State.setBit_keeps (by decide) ?_
    exact hx1
  · refine Answers.next ?_
    exact Keeps.refl _ _

theorem execInjctlWrite_keeps {a1 a2 s} : Answers [.regs, .hif, .kle, .out] s (execInjctlWrite a1 a2 s) := by
  unfold execInjctlWrite
  refine Answers.next ?_
  refine Keeps.ite ?_ ?_
  · refine Keeps.after State.injctl_keeps (by decide) ?_
    exact Keeps.refl _ _
  · exact Keeps.refl _ _

theorem execKleHaltRequest_keeps {s} :
    Answers [.regs, .mem, .ecc, .hif, .pool, .cmp, .pwm, .kle, .out, .free] s (execKleHaltRequest s) := by
  unfold execKleHaltRequest
  refine Answers.next ?_
  refine Keeps.ite ?_ ?_
  · refine Keeps.after State.kleHalt_keeps (by decide) ?_
    exact Keeps.refl _ _
  · exact Keeps.refl _ _

end Sys2Proof.Machine
end

