-- ==== Sys2Proof/Laws/Muster.lean ====
section
/-!
SUPPORT. Frames of Machine/Muster.lean: which parts of the state each of its operations and commands may change.
-/
namespace Sys2Proof.Machine

theorem State.mbmCtrlWrite_keeps {s a2} : Keeps [.regs] s (State.mbmCtrlWrite s a2) := by
  unfold State.mbmCtrlWrite
  extract_lets x1 x2 x3
  have hx3 : Keeps [.regs] s x3 := by
    unfold x3
    refine Keeps.after State.wr_keeps (by decide) ?_
    exact Keeps.refl _ _
  refine Keeps.ite ?_ ?_
  · refine Keeps.after State.setBit_keeps (by decide) ?_
    exact hx3
  · exact hx3

theorem State.mbmTrig_keeps {s a2} :
    Keeps [.regs, .mem, .ecc, .hif, .cores, .coh, .mbm, .out] s (State.mbmTrig s a2) := by
  unfold State.mbmTrig
  refine Keeps.forN ?_ ?_
  · exact Keeps.refl _ _
  · intro y1 y2 y3
    refine Keeps.ite ?_ ?_
    · refine Keeps.after State.musterTrigger_keeps (by decide) ?_
      exact y3
    · exact y3

theorem State.listLoad_keeps {s a2 a3 a4} : Keeps [.regs, .mbm] s (State.listLoad s a2 a3 a4) := by
  unfold State.listLoad
  extract_lets x1 x2 x3 x4 x5 x6
  have hx2 : Keeps [.regs, .mbm] s x2 := by
    unfold x2
    refine Keeps.set_regs (by decide) (Tab.wf_tkeep _) ?_
    exact Keeps.refl _ _
  have hx3 : Keeps [.regs, .mbm] s x3 := by
    unfold x3
    refine Keeps.after State.setMl_keeps (by decide) ?_
    refine Keeps.after State.wrRegs_keeps (by decide) ?_
    exact hx2
  have hx4 : Keeps [.regs, .mbm] s x4 := by
    unfold x4
    refine Keeps.after State.wr_keeps (by decide) ?_
    exact hx3
  have hx5 : Keeps [.regs, .mbm] s x5 := by
    unfold x5
    refine Keeps.after State.wr_keeps (by decide) ?_
    refine Keeps.after State.wr_keeps (by decide) ?_
    exact hx4
  have hx6 : Keeps [.regs, .mbm] s x6 := by
    unfold x6
    refine Keeps.after State.wr_keeps (by decide) ?_
    exact hx5
  refine Keeps.after State.wr_keeps (by decide) ?_
  exact hx6

theorem State.listStart_keeps {s a2 a3 a4 a5} : Keeps [.regs, .mbm] s (State.listStart s a2 a3 a4 a5) := by
  unfold State.listStart
  extract_lets x1 x2 x3 x4 x5
  have hx2 : Keeps [.regs, .mbm] s x2 := by
    unfold x2
    refine Keeps.after State.setMl_keeps (by decide) ?_
    refine Keeps.after State.setActive_keeps (by decide) ?_
    exact Keeps.refl _ _
  have hx4 : Keeps [.regs, .mbm] s x4 := by
    unfold x4
    refine Keeps.set_mbm (by decide) ?_
    exact hx2
  have hx5 : Keeps [.regs, .mbm] s x5 := by
    unfold x5
    refine Keeps.after State.wr_keeps (by decide) ?_
    refine Keeps.after State.wr_keeps (by decide) ?_
    exact hx4
  refine Keeps.after State.setFld_keeps (by decide) ?_
  exact hx5

theorem execMusterPeriodTick_keeps {a1 s} :
    Answers [.regs, .mem, .ecc, .hif, .cores, .coh, .mbm, .out] s (execMusterPeriodTick a1 s) := by
  unfold execMusterPeriodTick
  extract_lets x1 x2 x3 x4 x5
  have hx5 : Keeps [.regs, .mem, .ecc, .hif, .cores, .coh, .mbm, .out] s x5 := by
    unfold x5
    refine Keeps.after State.setMl_keeps (by decide) ?_
    exact Keeps.refl _ _
  refine Answers.ite ?_ ?_
  · refine Answers.next ?_
    refine Keeps.after State.musterTrigger_keeps (by decide) ?_
    exact hx5
  · refine Answers.next ?_
    exact Keeps.refl _ _

theorem execMbmTrig_keeps {a1 s} : Answers [.regs, .mem, .ecc, .hif, .cores, .coh, .mbm, .out] s (execMbmTrig a1 s) := by
  unfold execMbmTrig
  refine Answers.next ?_
  refine Keeps.ite ?_ ?_
  · refine Keeps.after State.mbmTrig_keeps (by decide) ?_
    exact Keeps.refl _ _
  · exact Keeps.refl _ _

theorem execBellwetherPortStart_keeps {a1 a2 a3 s} :
    Answers [.regs, .ports, .se, .mbm] s (execBellwetherPortStart a1 a2 a3 s) := by
  unfold execBellwetherPortStart
  extract_lets x1 x2 x3 x4 x5
  have hx5 : Keeps [.regs, .ports, .se, .mbm] s x5 := by
    unfold x5
    refine Keeps.after State.setUse_keeps (by decide) ?_
    refine Keeps.after State.setMl_keeps (by decide) ?_
    exact Keeps.refl _ _
  refine Answers.ite ?_ ?_
  · refine Answers.next ?_
    refine Keeps.ite ?_ ?_
    · refine Keeps.after State.seBellwether_keeps (by decide) ?_
      exact hx5
    · refine Keeps.after State.dsTake_keeps (by decide) ?_
      refine Keeps.after State.lineStart_keeps (by decide) ?_
      exact hx5
  · refine Answers.next ?_
    exact Keeps.refl _ _

theorem execBellwetherEnd_keeps {a1 a2 a3 s} :
    Answers [.regs, .mem, .ecc, .hif, .cores, .coh, .ports, .mbm, .out] s (execBellwetherEnd a1 a2 a3 s) := by
  unfold execBellwetherEnd
  extract_lets x1 x2 x3 x4
  have hx3 : Keeps [.regs, .mem, .ecc, .hif, .cores, .coh, .ports, .mbm, .out] s x3 := by
    unfold x3
    refine Keeps.after State.portFree_keeps (by decide) ?_
    exact Keeps.refl _ _
  refine Answers.ite ?_ ?_
  · refine Answers.ite ?_ ?_
    · refine Answers.next ?_
      refine Keeps.after State.bellEnd_keeps (by decide) ?_
      exact hx3
    · refine Answers.next ?_
      exact hx3
  · refine Answers.next ?_
    exact Keeps.refl _ _

theorem execEntryStart_keeps {a1 a2 s} :
    Answers [.regs, .mem, .ecc, .hif, .cores, .coh, .ports, .se, .mbm, .out] s (execEntryStart a1 a2 s) := by
  unfold execEntryStart
  extract_lets x1 x2 x3 x4
  refine Answers.ite ?_ ?_
  · refine Answers.next ?_
    refine Keeps.after State.entStart_keeps (by decide) ?_
    exact Keeps.refl _ _
  · refine Answers.next ?_
    exact Keeps.refl _ _

theorem execRunaheadStart_keeps {a1 a2 s} :
    Answers [.regs, .mem, .ecc, .hif, .cores, .coh, .ports, .se, .mbm, .out] s (execRunaheadStart a1 a2 s) := by
  unfold execRunaheadStart
  extract_lets x1 x2 x3 x4
  refine Answers.ite ?_ ?_
  · refine Answers.next ?_
    refine Keeps.after State.entStart_keeps (by decide) ?_
    refine Keeps.after State.setEnt_keeps (by decide) ?_
    exact Keeps.refl _ _
  · refine Answers.next ?_
    exact Keeps.refl _ _

theorem State.seEntryEnd_keeps {s a2 a3 a4} :
    Keeps [.regs, .mem, .ecc, .hif, .cores, .coh, .ports, .se, .mbm, .out] s (State.seEntryEnd s a2 a3 a4) := by
  unfold State.seEntryEnd
  extract_lets x1 x2 x3
  refine Keeps.after State.entEnd_keeps (by decide) ?_
  refine Keeps.after State.setEnt_keeps (by decide) ?_
  exact Keeps.refl _ _

theorem State.deadlineCut_keeps {s a2} :
    Keeps [.regs, .mem, .ecc, .hif, .cores, .coh, .ports, .mbm, .out] s (State.deadlineCut s a2) := by
  unfold State.deadlineCut
  extract_lets x1 x2 x3 x4
  have hx4 : Keeps [.regs, .mem, .ecc, .hif, .cores, .coh, .ports, .mbm, .out] s x4 := by
    unfold x4
    refine Keeps.after State.setPhase_keeps (by decide) ?_
    refine Keeps.after State.setMl_keeps (by decide) ?_
    exact Keeps.refl _ _
  refine State.forEnts_keeps (by decide) ?_ ?_
  · refine Keeps.foldl ?_ ?_
    · exact hx4
    · intro y5 y6 y7
      refine Keeps.after State.bellMark_keeps (by decide) ?_
      exact y7
  · intro y8 y9 y10
    refine Keeps.after State.entCut_keeps (by decide) ?_
    exact y10

theorem State.cutPast_keeps {s a2} :
    Keeps [.regs, .mem, .ecc, .hif, .cores, .coh, .ports, .mbm, .out] s (State.cutPast s a2) := by
  unfold State.cutPast
  refine Keeps.ite ?_ ?_
  · refine Keeps.after State.deadlineCut_keeps (by decide) ?_
    exact Keeps.refl _ _
  · exact Keeps.refl _ _

theorem execEntryAttemptEnd_keeps {a1 a2 a3 a4 a5 s} :
    Answers [.regs, .mem, .ecc, .hif, .cores, .coh, .ports, .se, .mbm, .out]
      s (execEntryAttemptEnd a1 a2 a3 a4 a5 s) := by
  unfold execEntryAttemptEnd
  extract_lets x1 x2 x3 x4 x5 x6
  have hx5 : Keeps [.regs, .mem, .ecc, .hif, .cores, .coh, .ports, .se, .mbm, .out] s x5 := by
    unfold x5
    refine Keeps.ite ?_ ?_
    · refine Keeps.after State.cutPast_keeps (by decide) ?_
      exact Keeps.refl _ _
    · exact Keeps.refl _ _
  split
  · refine Answers.ite ?_ ?_
    · refine Answers.next ?_
      exact hx5
    · refine Answers.ite ?_ ?_
      · split
        · refine Answers.next ?_
          refine Keeps.ite ?_ ?_
          · refine Keeps.after State.attemptTimeout_keeps (by decide) ?_
            exact hx5
          · refine Keeps.after State.seEntryEnd_keeps (by decide) ?_
            exact hx5
        · refine Answers.next ?_
          exact hx5
      · refine Answers.ite ?_ ?_
        · refine Answers.next ?_
          exact hx5
        · refine Answers.ite ?_ ?_
          · refine Answers.next ?_
            refine Keeps.after State.attemptTimeout_keeps (by decide) ?_
            exact hx5
          · split
            extract_lets x7
            have hx7 : Keeps [.regs, .mem, .ecc, .hif, .cores, .coh, .ports, .se, .mbm, .out] s x7 := by
              unfold x7
              refine Keeps.ite ?_ ?_
              · refine Keeps.after State.twLineError_keeps (by decide) ?_
                exact hx5
              · refine Keeps.ite ?_ ?_
                · refine Keeps.after State.strb_keeps (by decide) ?_
                  exact hx5
                · exact hx5
            refine Answers.next ?_
            refine Keeps.after State.entEnd_keeps (by decide) ?_
            exact hx7
  · refine Answers.next ?_
    exact hx5

theorem execMusterDeadlineExpiry_keeps {a1 s} :
    Answers [.regs, .mem, .ecc, .hif, .cores, .coh, .ports, .mbm, .out] s (execMusterDeadlineExpiry a1 s) := by
  unfold execMusterDeadlineExpiry
  extract_lets x1
  refine Answers.next ?_
  refine Keeps.ite ?_ ?_
  · refine Keeps.after State.deadlineCut_keeps (by decide) ?_
    exact Keeps.refl _ _
  · exact Keeps.refl _ _

theorem State.readFront_keeps {a1 a2 s} :
    PairKeeps [.regs, .mem, .ecc, .hif, .cores, .coh, .out] s (State.readFront a1 a2 s) := by
  induction a1 generalizing s a2
  · rw [State.readFront]
    refine PairKeeps.mk ?_
    exact Keeps.refl _ _
  · rename_i y ih
    rw [State.readFront]
    split
    split
    refine PairKeeps.mk ?_
    refine Keeps.of_pair (by assumption) ?_
    refine PairKeeps.after ih (fun _ k => k) ?_
    refine Keeps.of_pair (by assumption) ?_
    refine PairKeeps.after State.coRd_keeps (by decide) ?_
    exact Keeps.refl _ _

theorem State.staleCopy_keeps {s a2 a3} :
    Keeps [.regs, .mem, .ecc, .hif, .cores, .coh, .mbm, .out] s (State.staleCopy s a2 a3) := by
  unfold State.staleCopy
  extract_lets x1 x2 x3 x4 x5
  refine Keeps.ite ?_ ?_
  · refine Keeps.after State.foldWrs_keeps (by decide) ?_
    refine Keeps.after State.foldWr_keeps (by decide) ?_
    exact Keeps.refl _ _
  · split
    split
    extract_lets x6 x7 x8 x9
    have hx6 : Keeps [.regs, .mem, .ecc, .hif, .cores, .coh, .mbm, .out] s x6 := by
      unfold x6
      refine Keeps.after State.foldWr_keeps (by decide) ?_
      refine Keeps.of_pair (by assumption) ?_
      refine PairKeeps.after State.readFront_keeps (by decide) ?_
      refine Keeps.of_pair (by assumption) ?_
      refine PairKeeps.after State.coRd_keeps (by decide) ?_
      refine Keeps.after State.mbmSpend_keeps (by decide) ?_
      refine Keeps.after State.mbmSpend_keeps (by decide) ?_
      exact Keeps.refl _ _
    have hx8 : Keeps [.regs, .mem, .ecc, .hif, .cores, .coh, .mbm, .out] s x8 := by
      unfold x8
      refine Keeps.after State.setEnt_keeps (by decide) ?_
      exact hx6
    have hx9 : Keeps [.regs, .mem, .ecc, .hif, .cores, .coh, .mbm, .out] s x9 := by
      unfold x9
      refine Keeps.after State.setFld_keeps (by decide) ?_
      exact hx8
    refine Keeps.ite ?_ ?_
    · refine Keeps.after State.foldWrs_keeps (by decide) ?_
      exact hx6
    · refine Keeps.after State.foldWrs_keeps (by decide) ?_
      refine Keeps.after State.foldWr_keeps (by decide) ?_
      exact hx9

theorem State.silent_keeps {s a2 a3} :
    Keeps [.regs, .mem, .ecc, .hif, .cores, .coh, .ports, .se, .mbm, .out] s (State.silent s a2 a3) := by
  unfold State.silent
  extract_lets x1 x2 x3 x4
  have hx4 : Keeps [.regs, .mem, .ecc, .hif, .cores, .coh, .ports, .se, .mbm, .out] s x4 := by
    unfold x4
    refine Keeps.after State.setFld_keeps (by decide) ?_
    exact Keeps.refl _ _
  refine Keeps.ite ?_ ?_
  · exact Keeps.refl _ _
  · refine Keeps.ite ?_ ?_
    · refine Keeps.after State.setFld_keeps (by decide) ?_
      exact Keeps.refl _ _
    · refine Keeps.ite ?_ ?_
      · refine Keeps.ite ?_ ?_
        · refine Keeps.after State.portPen_keeps (by decide) ?_
          exact hx4
        · exact hx4
      · exact Keeps.refl _ _

theorem execCommit_keeps {a1 s} :
    Answers [.regs, .mem, .ecc, .hif, .cores, .coh, .ports, .se, .mbm, .out] s (execCommit a1 s) := by
  unfold execCommit
  extract_lets x1 x2 x3 x4 x5 x6 x7 x8
  have hx3 : Keeps [.regs, .mem, .ecc, .hif, .cores, .coh, .ports, .se, .mbm, .out] s x3 := by
    unfold x3
    refine Keeps.after State.setPhase_keeps (by decide) ?_
    exact Keeps.refl _ _
  have hx5 : Keeps [.regs, .mem, .ecc, .hif, .cores, .coh, .ports, .se, .mbm, .out] s x5 := by
    unfold x5
    refine State.forEnts_keeps (by decide) ?_ ?_
    · exact hx3
    · intro y9 y10 y11
      refine Keeps.ite ?_ ?_
      · exact y11
      · refine Keeps.after State.staleCopy_keeps (by decide) ?_
        exact y11
  have hx7 : Keeps [.regs, .mem, .ecc, .hif, .cores, .coh, .ports, .se, .mbm, .out] s x7 := by
    unfold x7
    refine Keeps.after State.foldWrs_keeps (by decide) ?_
    refine Keeps.after State.foldWr_keeps (by decide) ?_
    exact hx5
  have hx8 : Keeps [.regs, .mem, .ecc, .hif, .cores, .coh, .ports, .se, .mbm, .out] s x8 := by
    unfold x8
    refine Keeps.after State.foldWr_keeps (by decide) ?_
    exact hx7
  refine Answers.ite ?_ ?_
  · refine Answers.next ?_
    refine Keeps.foldl ?_ ?_
    · exact hx8
    · intro y12 y13 y14
      refine Keeps.after State.silent_keeps (by decide) ?_
      exact y14
  · refine Answers.next ?_
    exact Keeps.refl _ _

theorem State.mbmWords_keeps {s a2} : Keeps [.mbm] s (State.mbmWords s a2) := by
  unfold State.mbmWords
  extract_lets x1
  refine Keeps.set_mbm (by decide) ?_
  exact Keeps.refl _ _

theorem State.copyQueue_keeps {s a2} : Keeps [.mbm] s (State.copyQueue s a2) := by
  unfold State.copyQueue
  split
  · extract_lets x1
    refine Keeps.ite ?_ ?_
    · refine Keeps.set_mbm (by decide) ?_
      exact Keeps.refl _ _
    · exact Keeps.refl _ _
  · exact Keeps.refl _ _

theorem State.musterEvents_keeps {s a2} : Keeps [.regs, .hif, .out] s (State.musterEvents s a2) := by
  unfold State.musterEvents
  extract_lets x1
  refine Keeps.ite ?_ ?_
  · refine Keeps.after State.event_keeps (by decide) ?_
    refine Keeps.after State.mbmEvt_keeps (by decide) ?_
    refine Keeps.after State.tally_keeps (by decide) ?_
    exact Keeps.refl _ _
  · refine Keeps.ite ?_ ?_
    · refine Keeps.after State.event_keeps (by decide) ?_
      refine Keeps.after State.mbmEvt_keeps (by decide) ?_
      refine Keeps.after State.tally_keeps (by decide) ?_
      exact Keeps.refl _ _
    · exact Keeps.refl _ _

theorem execFoldFlip_keeps {a1 s} :
    Answers [.regs, .mem, .ecc, .hif, .cores, .coh, .cmp, .pwm, .kle, .mbm, .out] s (execFoldFlip a1 s) := by
  unfold execFoldFlip
  extract_lets x1 x2 x3 x4 x5 x6 x7 x8 x9 x10 x11
  have hx5 : Keeps [.regs, .mem, .ecc, .hif, .cores, .coh, .cmp, .pwm, .kle, .mbm, .out] s x5 := by
    unfold x5
    refine Keeps.ite ?_ ?_
    · exact Keeps.refl _ _
    · refine Keeps.after State.foldWr_keeps (by decide) ?_
      exact Keeps.refl _ _
  have hx6 : Keeps [.regs, .mem, .ecc, .hif, .cores, .coh, .cmp, .pwm, .kle, .mbm, .out] s x6 := by
    unfold x6
    refine Keeps.after State.foldWr_keeps (by decide) ?_
    exact hx5
  have hx7 : Keeps [.regs, .mem, .ecc, .hif, .cores, .coh, .cmp, .pwm, .kle, .mbm, .out] s x7 := by
    unfold x7
    refine Keeps.after State.wr_keeps (by decide) ?_
    refine Keeps.after State.setFld_keeps (by decide) ?_
    refine Keeps.after State.wr_keeps (by decide) ?_
    exact hx6
  have hx8 : Keeps [.regs, .mem, .ecc, .hif, .cores, .coh, .cmp, .pwm, .kle, .mbm, .out] s x8 := by
    unfold x8
    refine Keeps.after State.musterEvents_keeps (by decide) ?_
    refine Keeps.after State.mbmWords_keeps (by decide) ?_
    refine Keeps.after State.droverBegin_keeps (by decide) ?_
    refine Keeps.after State.copyQueue_keeps (by decide) ?_
    refine Keeps.after State.slotTrigger_keeps (by decide) ?_
    refine Keeps.after State.mbmEvt_keeps (by decide) ?_
    exact hx7
  have hx9 : Keeps [.regs, .mem, .ecc, .hif, .cores, .coh, .cmp, .pwm, .kle, .mbm, .out] s x9 := by
    unfold x9
    refine State.forEnts_keeps (by decide) ?_ ?_
    · exact hx8
    · intro y12 y13 y14
      refine Keeps.after State.setEnt_keeps (by decide) ?_
      exact y14
  have hx11 : Keeps [.regs, .mem, .ecc, .hif, .cores, .coh, .cmp, .pwm, .kle, .mbm, .out] s x11 := by
    unfold x11
    refine Keeps.after State.setMl_keeps (by decide) ?_
    refine Keeps.after State.setPhase_keeps (by decide) ?_
    refine Keeps.after State.setRunning_keeps (by decide) ?_
    exact hx9
  refine Answers.ite ?_ ?_
  · refine Answers.next ?_
    refine Keeps.after State.stopCheck_keeps (by decide) ?_
    exact hx11
  · refine Answers.next ?_
    exact Keeps.refl _ _

theorem execDroverCopy_keeps {a1 s} :
    Answers [.regs, .mem, .ecc, .hif, .cores, .coh, .mbm, .out] s (execDroverCopy a1 s) := by
  unfold execDroverCopy
  split
  · extract_lets x1 x2 x3 x4 x5
    have hx1 : Keeps [.regs, .mem, .ecc, .hif, .cores, .coh, .mbm, .out] s x1 := by
      unfold x1
      refine Keeps.after State.droverBegin_keeps (by decide) ?_
      exact Keeps.refl _ _
    have hx4 : Keeps [.regs, .mem, .ecc, .hif, .cores, .coh, .mbm, .out] s x4 := by
      unfold x4
      refine Keeps.set_mbm (by decide) ?_
      exact hx1
    have hx5 : Keeps [.regs, .mem, .ecc, .hif, .cores, .coh, .mbm, .out] s x5 := by
      unfold x5
      refine Keeps.ite ?_ ?_
      · split
        refine Keeps.after State.recEnd_keeps (by decide) ?_
        refine Keeps.of_pair (by assumption) ?_
        refine PairKeeps.after State.readBody_keeps (by decide) ?_
        refine Keeps.after State.mbmSpend_keeps (by decide) ?_
        exact hx4
      · exact hx4
    refine Answers.ite ?_ ?_
    · refine Answers.next ?_
      exact Keeps.refl _ _
    · refine Answers.next ?_
      refine Keeps.after State.stopCheck_keeps (by decide) ?_
      refine Keeps.after State.droverBegin_keeps (by decide) ?_
      exact hx5
  · refine Answers.next ?_
    exact Keeps.refl _ _

end Sys2Proof.Machine
end

