-- ==== Sys2Proof/Laws/Plate.lean ====
section
/-!
SUPPORT. Frames of Machine/Plate.lean: which parts of the state each of its operations and commands may change.
-/
namespace Sys2Proof.Machine

theorem State.plateWr_keeps {s a2 a3 a4} : PairKeeps [.regs, .mem, .ecc] s (State.plateWr s a2 a3 a4) := by
  unfold State.plateWr
  refine PairKeeps.ite ?_ ?_
  · refine PairKeeps.mk ?_
    exact Keeps.refl _ _
  · refine PairKeeps.mk ?_
    refine Keeps.after State.setBit_keeps (by decide) ?_
    refine Keeps.after State.setEcc_keeps (by decide) ?_
    refine Keeps.after State.wrWord_keeps (by decide) ?_
    exact Keeps.refl _ _

theorem State.plateLoadRegs_keeps {s a2} : Keeps [.regs] s (State.plateLoadRegs s a2) := by
  unfold State.plateLoadRegs
  extract_lets x1 x2 x3 x4 x5
  have hx5 : Keeps [.regs] s x5 := by
    unfold x5
    refine Keeps.after State.wr_keeps (by decide) ?_
    refine Keeps.after State.wr_keeps (by decide) ?_
    exact Keeps.refl _ _
  refine Keeps.after State.wr_keeps (by decide) ?_
  exact hx5

theorem State.plateScan_keeps {s a2 a3} : Keeps [.regs, .ecc, .hif, .out] s (State.plateScan s a2 a3) := by
  induction a3 generalizing s a2
  · rw [State.plateScan]
    exact Keeps.refl _ _
  · rename_i y ih
    rw [State.plateScan]
    refine Keeps.ite ?_ ?_
    · refine Keeps.after State.eccCorrected_keeps (by decide) ?_
      refine Keeps.after State.setEcc_keeps (by decide) ?_
      refine Keeps.after ih (fun _ k => k) ?_
      exact Keeps.refl _ _
    · refine Keeps.after ih (fun _ k => k) ?_
      exact Keeps.refl _ _

theorem State.plateCheck_keeps {s a2} : PairKeeps [.regs, .ecc, .hif, .out] s (State.plateCheck s a2) := by
  unfold State.plateCheck
  extract_lets x1 x2 x3
  have hx1 : Keeps [.regs, .ecc, .hif, .out] s x1 := by
    unfold x1
    refine Keeps.after State.plateScan_keeps (by decide) ?_
    exact Keeps.refl _ _
  have hx3 : Keeps [.regs, .ecc, .hif, .out] s x3 := by
    unfold x3
    refine Keeps.after State.setBit_keeps (by decide) ?_
    exact hx1
  refine PairKeeps.mk ?_
  refine Keeps.ite ?_ ?_
  · refine Keeps.after State.plateLoadRegs_keeps (by decide) ?_
    exact hx3
  · exact hx3

theorem State.platechk_keeps {s a2} : Keeps [.regs, .ecc, .hif, .out] s (State.platechk s a2) := by
  unfold State.platechk
  extract_lets x1 x2
  refine Keeps.ite ?_ ?_
  · exact Keeps.refl _ _
  · refine Keeps.ite ?_ ?_
    · refine Keeps.after State.setBit_keeps (by decide) ?_
      exact Keeps.refl _ _
    · split
      refine Keeps.after State.wr_keeps (by decide) ?_
      refine Keeps.of_pair (by assumption) ?_
      refine PairKeeps.after State.plateCheck_keeps (by decide) ?_
      exact Keeps.refl _ _

theorem execPlatechk_keeps {a1 s} : Answers [.regs, .ecc, .hif, .out] s (execPlatechk a1 s) := by
  unfold execPlatechk
  refine Answers.next ?_
  refine Keeps.ite ?_ ?_
  · refine Keeps.after State.platechk_keeps (by decide) ?_
    exact Keeps.refl _ _
  · exact Keeps.refl _ _

theorem execPlateWrite_keeps {a1 a2 a3 a4 s} : Answers [.regs, .mem, .ecc, .reply] s (execPlateWrite a1 a2 a3 a4 s) := by
  unfold execPlateWrite
  refine Answers.ite ?_ ?_
  · refine Answers.next ?_
    exact Keeps.refl _ _
  · split
    refine Answers.next ?_
    refine Keeps.set_reply (by decide) ?_
    refine Keeps.of_pair (by assumption) ?_
    refine PairKeeps.after State.plateWr_keeps (by decide) ?_
    exact Keeps.refl _ _

end Sys2Proof.Machine
end

