-- ==== Sys2Proof/Laws/PortPower.lean ====
section
/-!
SUPPORT. Frames of Machine/PortPower.lean: which parts of the state each of its operations and commands may change.
-/
namespace Sys2Proof.Machine

theorem State.ipeak_keeps {s a2 a3} : PairKeeps [.regs] s (State.ipeak s a2 a3) := by
  unfold State.ipeak
  refine PairKeeps.ite ?_ ?_
  · refine PairKeeps.mk ?_
    refine Keeps.after State.wr_keeps (by decide) ?_
    exact Keeps.refl _ _
  · refine PairKeeps.mk ?_
    refine Keeps.after State.wr_keeps (by decide) ?_
    exact Keeps.refl _ _

theorem State.ppBind_keeps {s a2 a3} :
    Keeps [.regs, .mem, .ecc, .hif, .cores, .coh, .ports, .se, .mbm, .out] s (State.ppBind s a2 a3) := by
  unfold State.ppBind
  extract_lets x1 x2 x3 x4 x5
  have hx4 : Keeps [.regs, .mem, .ecc, .hif, .cores, .coh, .ports, .se, .mbm, .out] s x4 := by
    unfold x4
    refine Keeps.after State.wr_keeps (by decide) ?_
    exact Keeps.refl _ _
  have hx5 : Keeps [.regs, .mem, .ecc, .hif, .cores, .coh, .ports, .se, .mbm, .out] s x5 := by
    unfold x5
    refine Keeps.ite ?_ ?_
    · exact hx4
    · refine Keeps.after State.quarBegin_keeps (by decide) ?_
      exact hx4
  refine Keeps.ite ?_ ?_
  · refine Keeps.after State.setBit_keeps (by decide) ?_
    exact Keeps.refl _ _
  · refine Keeps.foldl ?_ ?_
    · exact hx5
    · intro y6 y7 y8
      refine Keeps.ite ?_ ?_
      · refine Keeps.after State.seUnhold_keeps (by decide) ?_
        exact y8
      · exact y8

theorem State.cyclesDrop_keeps {s a2} : Keeps [.ports, .pp] s (State.cyclesDrop s a2) := by
  unfold State.cyclesDrop
  extract_lets x1 x2
  refine Keeps.foldl ?_ ?_
  · refine Keeps.after State.setPpc_keeps (by decide) ?_
    exact Keeps.refl _ _
  · intro y3 y4 y5
    extract_lets x6
    refine Keeps.after State.setPort_keeps (by decide) ?_
    exact y5

theorem State.ppOff_keeps {s a2} :
    Keeps [.regs, .mem, .ecc, .hif, .cores, .coh, .ports, .se, .mbm, .pp, .out] s (State.ppOff s a2) := by
  unfold State.ppOff
  extract_lets x1 x2 x3
  have hx1 : Keeps [.regs, .mem, .ecc, .hif, .cores, .coh, .ports, .se, .mbm, .pp, .out] s x1 := by
    unfold x1
    refine Keeps.after State.ppSwitch_keeps (by decide) ?_
    refine Keeps.after State.setBit_keeps (by decide) ?_
    exact Keeps.refl _ _
  have hx3 : Keeps [.regs, .mem, .ecc, .hif, .cores, .coh, .ports, .se, .mbm, .pp, .out] s x3 := by
    unfold x3
    refine Keeps.after State.setPpc_keeps (by decide) ?_
    exact hx1
  refine Keeps.ite ?_ ?_
  · exact hx3
  · refine Keeps.after State.ppEnter_keeps (by decide) ?_
    refine Keeps.after State.cyclesDrop_keeps (by decide) ?_
    exact hx3

theorem State.ppSettle_keeps {s a2} :
    Keeps [.regs, .mem, .ecc, .hif, .cores, .coh, .ports, .se, .mbm, .pp, .out] s (State.ppSettle s a2) := by
  unfold State.ppSettle
  refine Keeps.after State.ppEnter_keeps (by decide) ?_
  refine Keeps.after State.ppSwitch_keeps (by decide) ?_
  exact Keeps.refl _ _

theorem State.ppInsert_keeps {s a2} :
    Keeps [.regs, .mem, .ecc, .hif, .cores, .coh, .ports, .se, .mbm, .pp, .out] s (State.ppInsert s a2) := by
  unfold State.ppInsert
  extract_lets x1
  refine Keeps.after State.ppSettle_keeps (by decide) ?_
  refine Keeps.after State.setPpc_keeps (by decide) ?_
  exact Keeps.refl _ _

theorem State.ppOn_keeps {s a2 a3} :
    Keeps [.regs, .mem, .ecc, .hif, .cores, .coh, .ports, .se, .mbm, .pp, .out] s (State.ppOn s a2 a3) := by
  unfold State.ppOn
  extract_lets x1
  have hx1 : Keeps [.regs, .mem, .ecc, .hif, .cores, .coh, .ports, .se, .mbm, .pp, .out] s x1 := by
    unfold x1
    refine Keeps.after State.setBit_keeps (by decide) ?_
    exact Keeps.refl _ _
  refine Keeps.ite ?_ ?_
  · exact Keeps.refl _ _
  · refine Keeps.ite ?_ ?_
    · refine Keeps.after State.setBit_keeps (by decide) ?_
      exact Keeps.refl _ _
    · refine Keeps.ite ?_ ?_
      · exact hx1
      · refine Keeps.ite ?_ ?_
        · refine Keeps.after State.ppInsert_keeps (by decide) ?_
          exact hx1
        · refine Keeps.ite ?_ ?_
          · refine Keeps.after State.ppEnter_keeps (by decide) ?_
            exact hx1
          · refine Keeps.after State.ppEnter_keeps (by decide) ?_
            exact hx1

theorem State.ppAdmit_keeps {s a2} :
    Keeps [.regs, .mem, .ecc, .hif, .cores, .coh, .ports, .se, .mbm, .pp, .out] s (State.ppAdmit s a2) := by
  unfold State.ppAdmit
  extract_lets x1 x2 x3 x4
  have hx2 : Keeps [.regs, .mem, .ecc, .hif, .cores, .coh, .ports, .se, .mbm, .pp, .out] s x2 := by
    unfold x2
    refine Keeps.after State.setFld_keeps (by decide) ?_
    refine Keeps.after State.setFld_keeps (by decide) ?_
    exact Keeps.refl _ _
  have hx3 : Keeps [.regs, .mem, .ecc, .hif, .cores, .coh, .ports, .se, .mbm, .pp, .out] s x3 := by
    unfold x3
    refine Keeps.after State.setBit_keeps (by decide) ?_
    exact hx2
  refine Keeps.ite ?_ ?_
  · refine Keeps.after State.ppEnter_keeps (by decide) ?_
    refine Keeps.after State.ppSwitch_keeps (by decide) ?_
    exact hx3
  · refine Keeps.ite ?_ ?_
    · refine Keeps.after State.ppEnter_keeps (by decide) ?_
      refine Keeps.after State.ppSwitch_keeps (by decide) ?_
      exact hx3
    · refine Keeps.after State.ppSettle_keeps (by decide) ?_
      refine Keeps.after State.setPpc_keeps (by decide) ?_
      exact hx3

theorem execPpOn_keeps {a1 a2 s} :
    Answers [.regs, .mem, .ecc, .hif, .cores, .coh, .ports, .se, .mbm, .pp, .out] s (execPpOn a1 a2 s) := by
  unfold execPpOn
  refine Answers.next ?_
  refine Keeps.ite ?_ ?_
  · refine Keeps.after State.ppOn_keeps (by decide) ?_
    exact Keeps.refl _ _
  · exact Keeps.refl _ _

theorem execPpOff_keeps {a1 s} :
    Answers [.regs, .mem, .ecc, .hif, .cores, .coh, .ports, .se, .mbm, .pp, .out] s (execPpOff a1 s) := by
  unfold execPpOff
  refine Answers.next ?_
  refine Keeps.ite ?_ ?_
  · refine Keeps.after State.ppOff_keeps (by decide) ?_
    exact Keeps.refl _ _
  · exact Keeps.refl _ _

theorem execPpCurrentSample_keeps {a1 a2 s} : Answers [.regs, .pp] s (execPpCurrentSample a1 a2 s) := by
  unfold execPpCurrentSample
  extract_lets x1 x2 x3 x4 x5 x6 x7 x8 x9 x10 x11
  have hx10 : Keeps [.regs, .pp] s x10 := by
    unfold x10
    refine Keeps.after State.setPpc_keeps (by decide) ?_
    exact Keeps.refl _ _
  have hx11 : Keeps [.regs, .pp] s x11 := by
    unfold x11
    refine Keeps.after State.wr_keeps (by decide) ?_
    exact hx10
  refine Answers.ite ?_ ?_
  · refine Answers.next ?_
    exact Keeps.refl _ _
  · refine Answers.next ?_
    refine Keeps.ite ?_ ?_
    · refine Keeps.after State.wr_keeps (by decide) ?_
      exact hx11
    · exact hx11

theorem State.ppCurrent_keeps {s a2 a3 a4} : Keeps [.regs, .hif, .out] s (State.ppCurrent s a2 a3 a4) := by
  unfold State.ppCurrent
  refine Keeps.after State.event_keeps (by decide) ?_
  exact Keeps.refl _ _

theorem execPpWarning_keeps {a1 s} : Answers [.regs, .hif, .out] s (execPpWarning a1 s) := by
  unfold execPpWarning
  extract_lets x1 x2 x3
  refine Answers.ite ?_ ?_
  · refine Answers.next ?_
    exact Keeps.refl _ _
  · refine Answers.ite ?_ ?_
    · refine Answers.next ?_
      refine Keeps.ite ?_ ?_
      · refine Keeps.after State.setBit_keeps (by decide) ?_
        exact Keeps.refl _ _
      · exact Keeps.refl _ _
    · refine Answers.ite ?_ ?_
      · refine Answers.next ?_
        refine Keeps.after State.ppCurrent_keeps (by decide) ?_
        refine Keeps.after State.tally_keeps (by decide) ?_
        refine Keeps.after State.ppEvt_keeps (by decide) ?_
        refine Keeps.after State.setBit_keeps (by decide) ?_
        exact Keeps.refl _ _
      · refine Answers.next ?_
        exact Keeps.refl _ _

theorem State.holdEnds_keeps {s a2} : Keeps [.regs, .pp] s (State.holdEnds s a2) := by
  unfold State.holdEnds
  extract_lets x1
  refine Keeps.ite ?_ ?_
  · refine Keeps.after State.setPpc_keeps (by decide) ?_
    refine Keeps.after State.setFld_keeps (by decide) ?_
    refine Keeps.after State.tally_keeps (by decide) ?_
    exact Keeps.refl _ _
  · exact Keeps.refl _ _

theorem State.ppTrip_keeps {s a2} :
    Keeps [.regs, .mem, .ecc, .hif, .cores, .coh, .ports, .se, .mbm, .pp, .out] s (State.ppTrip s a2) := by
  unfold State.ppTrip
  extract_lets x1 x2 x3 x4 x5 x6 x7
  have hx1 : Keeps [.regs, .mem, .ecc, .hif, .cores, .coh, .ports, .se, .mbm, .pp, .out] s x1 := by
    unfold x1
    refine Keeps.after State.holdEnds_keeps (by decide) ?_
    exact Keeps.refl _ _
  have hx2 : Keeps [.regs, .mem, .ecc, .hif, .cores, .coh, .ports, .se, .mbm, .pp, .out] s x2 := by
    unfold x2
    refine Keeps.after State.ppCurrent_keeps (by decide) ?_
    refine Keeps.after State.ppEvt_keeps (by decide) ?_
    refine Keeps.after State.ppSwitch_keeps (by decide) ?_
    exact hx1
  have hx4 : Keeps [.regs, .mem, .ecc, .hif, .cores, .coh, .ports, .se, .mbm, .pp, .out] s x4 := by
    unfold x4
    refine Keeps.after State.tallyHi_keeps (by decide) ?_
    exact hx2
  have hx6 : Keeps [.regs, .mem, .ecc, .hif, .cores, .coh, .ports, .se, .mbm, .pp, .out] s x6 := by
    unfold x6
    refine Keeps.after State.setFld_keeps (by decide) ?_
    exact hx4
  refine Keeps.ite ?_ ?_
  · exact hx2
  · refine Keeps.ite ?_ ?_
    · refine Keeps.ite ?_ ?_
      · refine Keeps.after State.ppPen_keeps (by decide) ?_
        exact hx6
      · refine Keeps.after State.cyclesFail_keeps (by decide) ?_
        refine Keeps.after State.ppEnter_keeps (by decide) ?_
        refine Keeps.after State.setPpc_keeps (by decide) ?_
        exact hx6
    · refine Keeps.after State.cyclesFail_keeps (by decide) ?_
      refine Keeps.after State.ppEnter_keeps (by decide) ?_
      refine Keeps.after State.setPpc_keeps (by decide) ?_
      exact hx2

theorem execPpTrip_keeps {a1 s} :
    Answers [.regs, .mem, .ecc, .hif, .cores, .coh, .ports, .se, .mbm, .pp, .out] s (execPpTrip a1 s) := by
  unfold execPpTrip
  refine Answers.next ?_
  refine Keeps.ite ?_ ?_
  · refine Keeps.after State.ppTrip_keeps (by decide) ?_
    exact Keeps.refl _ _
  · exact Keeps.refl _ _

theorem execInrushEnd_keeps {a1 s} : Answers [.pp] s (execInrushEnd a1 s) := by
  unfold execInrushEnd
  extract_lets x1
  refine Answers.next ?_
  refine Keeps.ite ?_ ?_
  · refine Keeps.after State.setPpc_keeps (by decide) ?_
    exact Keeps.refl _ _
  · exact Keeps.refl _ _

theorem State.ppPres_keeps {s a2 a3} : Keeps [.regs] s (State.ppPres s a2 a3) := by
  unfold State.ppPres
  refine Keeps.after State.setBit_keeps (by decide) ?_
  refine Keeps.after State.setBit_keeps (by decide) ?_
  exact Keeps.refl _ _

theorem State.presence_keeps {s a2 a3} : Keeps [.regs, .hif, .out] s (State.presence s a2 a3) := by
  unfold State.presence
  refine Keeps.after State.event_keeps (by decide) ?_
  refine Keeps.after State.ppEvt_keeps (by decide) ?_
  exact Keeps.refl _ _

theorem execInsertion_keeps {a1 s} :
    Answers [.regs, .mem, .ecc, .hif, .cores, .coh, .ports, .se, .mbm, .pp, .out] s (execInsertion a1 s) := by
  unfold execInsertion
  extract_lets x1 x2
  have hx2 : Keeps [.regs, .mem, .ecc, .hif, .cores, .coh, .ports, .se, .mbm, .pp, .out] s x2 := by
    unfold x2
    refine Keeps.after State.ppPres_keeps (by decide) ?_
    exact Keeps.refl _ _
  refine Answers.ite ?_ ?_
  · refine Answers.next ?_
    exact Keeps.refl _ _
  · refine Answers.next ?_
    refine Keeps.ite ?_ ?_
    · refine Keeps.after State.ppInsert_keeps (by decide) ?_
      exact hx2
    · exact hx2

theorem execRemoval_keeps {a1 s} :
    Answers [.regs, .mem, .ecc, .hif, .cores, .coh, .ports, .se, .mbm, .pp, .out] s (execRemoval a1 s) := by
  unfold execRemoval
  extract_lets x1 x2 x3 x4 x5 x6
  have hx2 : Keeps [.regs, .mem, .ecc, .hif, .cores, .coh, .ports, .se, .mbm, .pp, .out] s x2 := by
    unfold x2
    refine Keeps.after State.ppPres_keeps (by decide) ?_
    exact Keeps.refl _ _
  have hx4 : Keeps [.regs, .mem, .ecc, .hif, .cores, .coh, .ports, .se, .mbm, .pp, .out] s x4 := by
    unfold x4
    refine Keeps.after State.cyclesDrop_keeps (by decide) ?_
    refine Keeps.after State.setFld_keeps (by decide) ?_
    refine Keeps.after State.ppSwitch_keeps (by decide) ?_
    exact hx2
  have hx6 : Keeps [.regs, .mem, .ecc, .hif, .cores, .coh, .ports, .se, .mbm, .pp, .out] s x6 := by
    unfold x6
    refine Keeps.after State.setPpc_keeps (by decide) ?_
    exact hx4
  refine Answers.ite ?_ ?_
  · refine Answers.next ?_
    exact Keeps.refl _ _
  · refine Answers.ite ?_ ?_
    · refine Answers.next ?_
      exact hx2
    · refine Answers.ite ?_ ?_
      · refine Answers.next ?_
        refine Keeps.after State.ppEnter_keeps (by decide) ?_
        exact hx2
      · refine Answers.ite ?_ ?_
        · refine Answers.next ?_
          refine Keeps.after State.presence_keeps (by decide) ?_
          refine Keeps.after State.tallyHi_keeps (by decide) ?_
          refine Keeps.after State.ppEnter_keeps (by decide) ?_
          exact hx6
        · refine Answers.ite ?_ ?_
          · refine Answers.next ?_
            refine Keeps.after State.presence_keeps (by decide) ?_
            refine Keeps.after State.ppSwitch_keeps (by decide) ?_
            exact hx2
          · refine Answers.next ?_
            exact hx2

theorem State.ppAdmitted_keeps {s a2} :
    Keeps [.regs, .mem, .ecc, .hif, .cores, .coh, .ports, .se, .mbm, .pp, .out] s (State.ppAdmitted s a2) := by
  unfold State.ppAdmitted
  extract_lets x1 x2
  have hx2 : Keeps [.regs, .mem, .ecc, .hif, .cores, .coh, .ports, .se, .mbm, .pp, .out] s x2 := by
    unfold x2
    refine Keeps.after State.presence_keeps (by decide) ?_
    refine Keeps.after State.setPpc_keeps (by decide) ?_
    exact Keeps.refl _ _
  refine Keeps.ite ?_ ?_
  · refine Keeps.after State.ppEnter_keeps (by decide) ?_
    exact hx2
  · refine Keeps.after State.ppPen_keeps (by decide) ?_
    exact hx2

theorem execPpSettleEnd_keeps {a1 s} :
    Answers [.regs, .mem, .ecc, .hif, .cores, .coh, .ports, .se, .mbm, .pp, .out] s (execPpSettleEnd a1 s) := by
  unfold execPpSettleEnd
  extract_lets x1 x2 x3
  have hx3 : Keeps [.regs, .mem, .ecc, .hif, .cores, .coh, .ports, .se, .mbm, .pp, .out] s x3 := by
    unfold x3
    refine Keeps.after State.ppEnter_keeps (by decide) ?_
    refine Keeps.after State.setPpc_keeps (by decide) ?_
    exact Keeps.refl _ _
  refine Answers.ite ?_ ?_
  · refine Answers.next ?_
    exact Keeps.refl _ _
  · refine Answers.ite ?_ ?_
    · refine Answers.ite ?_ ?_
      · refine Answers.next ?_
        refine Keeps.after State.ppEnter_keeps (by decide) ?_
        exact Keeps.refl _ _
      · refine Answers.next ?_
        refine Keeps.ite ?_ ?_
        · refine Keeps.after State.ppAdmitted_keeps (by decide) ?_
          exact hx3
        · refine Keeps.after State.identStart_keeps (by decide) ?_
          exact hx3
    · refine Answers.ite ?_ ?_
      · refine Answers.next ?_
        refine Keeps.after State.ppEnter_keeps (by decide) ?_
        refine Keeps.after State.setPpc_keeps (by decide) ?_
        exact Keeps.refl _ _
      · refine Answers.next ?_
        exact Keeps.refl _ _

theorem execIdentityCheckDone_keeps {a1 a2 a3 s} :
    Answers [.regs, .mem, .ecc, .hif, .cores, .coh, .ports, .se, .mbm, .pp, .out]
      s (execIdentityCheckDone a1 a2 a3 s) := by
  unfold execIdentityCheckDone
  extract_lets x1 x2 x3 x4 x5 x6 x7
  have hx5 : Keeps [.regs, .mem, .ecc, .hif, .cores, .coh, .ports, .se, .mbm, .pp, .out] s x5 := by
    unfold x5
    refine Keeps.ite ?_ ?_
    · exact Keeps.refl _ _
    · refine Keeps.after State.wr_keeps (by decide) ?_
      exact Keeps.refl _ _
  have hx7 : Keeps [.regs, .mem, .ecc, .hif, .cores, .coh, .ports, .se, .mbm, .pp, .out] s x7 := by
    unfold x7
    refine Keeps.after State.setPpc_keeps (by decide) ?_
    exact hx5
  refine Answers.ite ?_ ?_
  · refine Answers.next ?_
    exact Keeps.refl _ _
  · refine Answers.ite ?_ ?_
    · refine Answers.next ?_
      refine Keeps.after State.ppAdmitted_keeps (by decide) ?_
      refine Keeps.ite ?_ ?_
      · refine Keeps.after State.tally_keeps (by decide) ?_
        exact hx5
      · exact hx5
    · refine Answers.ite ?_ ?_
      · refine Answers.next ?_
        refine Keeps.after State.presence_keeps (by decide) ?_
        refine Keeps.after State.ppPen_keeps (by decide) ?_
        refine Keeps.after State.ppSwitch_keeps (by decide) ?_
        exact hx5
      · refine Answers.next ?_
        refine Keeps.after State.identStart_keeps (by decide) ?_
        refine Keeps.after State.identFree_keeps (by decide) ?_
        exact hx7

theorem execBackoffEnd_keeps {a1 s} :
    Answers [.regs, .mem, .ecc, .hif, .cores, .coh, .ports, .se, .mbm, .pp, .out] s (execBackoffEnd a1 s) := by
  unfold execBackoffEnd
  extract_lets x1 x2
  refine Answers.next ?_
  refine Keeps.ite ?_ ?_
  · refine Keeps.after State.ppSettle_keeps (by decide) ?_
    refine Keeps.after State.setPpc_keeps (by decide) ?_
    exact Keeps.refl _ _
  · exact Keeps.refl _ _

theorem execHoldExpiry_keeps {a1 s} : Answers [.regs, .pp] s (execHoldExpiry a1 s) := by
  unfold execHoldExpiry
  refine Answers.next ?_
  refine Keeps.ite ?_ ?_
  · refine Keeps.after State.holdEnds_keeps (by decide) ?_
    exact Keeps.refl _ _
  · exact Keeps.refl _ _

theorem execPowerCycleRequest_keeps {a1 s} :
    Answers [.regs, .mem, .ecc, .hif, .cores, .coh, .ports, .se, .mbm, .pp, .out] s (execPowerCycleRequest a1 s) := by
  unfold execPowerCycleRequest
  extract_lets x1 x2
  refine Answers.ite ?_ ?_
  · refine Answers.next ?_
    refine Keeps.after State.powerCycle_keeps (by decide) ?_
    refine Keeps.after State.setPort_keeps (by decide) ?_
    exact Keeps.refl _ _
  · refine Answers.next ?_
    exact Keeps.refl _ _

theorem execCycleOffEnd_keeps {a1 s} : Answers [.regs, .pp] s (execCycleOffEnd a1 s) := by
  unfold execCycleOffEnd
  extract_lets x1 x2
  refine Answers.next ?_
  refine Keeps.ite ?_ ?_
  · refine Keeps.after State.ppSwitch_keeps (by decide) ?_
    exact Keeps.refl _ _
  · exact Keeps.refl _ _

end Sys2Proof.Machine
end

