-- ==== Sys2Proof/Laws/Pwm.lean ====
section
/-!
SUPPORT. Frames of Machine/Pwm.lean: which parts of the state each of its operations and commands may change.
-/
namespace Sys2Proof.Machine

theorem State.setDg_keeps {s a2 a3} : Keeps [.diag] s (State.setDg s a2 a3) := by
  unfold State.setDg
  refine Keeps.set_diag (by decide) ?_
  exact Keeps.refl _ _

theorem State.pulseEnd_keeps {s a2 a3 a4} : Keeps [.diag] s (State.pulseEnd s a2 a3 a4) := by
  unfold State.pulseEnd
  extract_lets x1 x2
  refine Keeps.ite ?_ ?_
  · exact Keeps.refl _ _
  · refine Keeps.after State.setDg_keeps (by decide) ?_
    exact Keeps.refl _ _

theorem State.probeMark_keeps {s a2 a3} : Keeps [.regs, .diag] s (State.probeMark s a2 a3) := by
  unfold State.probeMark
  extract_lets x1
  refine Keeps.after State.setFld_keeps (by decide) ?_
  refine Keeps.after State.setDg_keeps (by decide) ?_
  exact Keeps.refl _ _

theorem State.pwmStretch_keeps {s a2 a3} : Keeps [.regs, .pwm, .diag] s (State.pwmStretch s a2 a3) := by
  unfold State.pwmStretch
  extract_lets x1 x2 x3
  have hx3 : Keeps [.regs, .pwm, .diag] s x3 := by
    unfold x3
    refine Keeps.after State.setPwmCh_keeps (by decide) ?_
    exact Keeps.refl _ _
  refine Keeps.ite ?_ ?_
  · exact hx3
  · refine Keeps.after State.probeMark_keeps (by decide) ?_
    exact hx3

theorem State.diagStarve_keeps {s a2} : Keeps [.regs, .hif, .out] s (State.diagStarve s a2) := by
  unfold State.diagStarve
  refine Keeps.ite ?_ ?_
  · exact Keeps.refl _ _
  · refine Keeps.after State.event_keeps (by decide) ?_
    refine Keeps.after State.setBit_keeps (by decide) ?_
    exact Keeps.refl _ _

theorem State.pwmTurnOn_keeps {s a2 a3 a4} : Keeps [.regs, .hif, .pwm, .diag, .out] s (State.pwmTurnOn s a2 a3 a4) := by
  unfold State.pwmTurnOn
  extract_lets x1 x2 x3 x4 x5 x6 x7
  have hx5 : Keeps [.regs, .hif, .pwm, .diag, .out] s x5 := by
    unfold x5
    refine Keeps.after State.setPwmCh_keeps (by decide) ?_
    exact Keeps.refl _ _
  have hx7 : Keeps [.regs, .hif, .pwm, .diag, .out] s x7 := by
    unfold x7
    refine Keeps.after State.setDg_keeps (by decide) ?_
    exact hx5
  refine Keeps.ite ?_ ?_
  · refine Keeps.after State.probeMark_keeps (by decide) ?_
    exact hx7
  · refine Keeps.ite ?_ ?_
    · refine Keeps.after State.diagStarve_keeps (by decide) ?_
      exact hx7
    · exact hx7

theorem State.pwmTurn_keeps {s a2 a3 a4} : Keeps [.regs, .hif, .pwm, .diag, .out] s (State.pwmTurn s a2 a3 a4) := by
  unfold State.pwmTurn
  extract_lets x1 x2
  refine Keeps.ite ?_ ?_
  · refine Keeps.after State.setPwmCh_keeps (by decide) ?_
    exact Keeps.refl _ _
  · refine Keeps.ite ?_ ?_
    · refine Keeps.ite ?_ ?_
      · exact Keeps.refl _ _
      · refine Keeps.ite ?_ ?_
        · refine Keeps.ite ?_ ?_
          · refine Keeps.after State.pwmTurnOn_keeps (by decide) ?_
            exact Keeps.refl _ _
          · exact Keeps.refl _ _
        · refine Keeps.after State.setPwmCh_keeps (by decide) ?_
          exact Keeps.refl _ _
    · refine Keeps.ite ?_ ?_
      · exact Keeps.refl _ _
      · refine Keeps.ite ?_ ?_
        · refine Keeps.after State.pwmStretch_keeps (by decide) ?_
          exact Keeps.refl _ _
        · refine Keeps.ite ?_ ?_
          · refine Keeps.after State.setPwmCh_keeps (by decide) ?_
            exact Keeps.refl _ _
          · refine Keeps.after State.setPwmCh_keeps (by decide) ?_
            refine Keeps.ite ?_ ?_
            · refine Keeps.after State.pulseEnd_keeps (by decide) ?_
              exact Keeps.refl _ _
            · exact Keeps.refl _ _

theorem State.pwmEdges_keeps {s a2 u} : Keeps [.regs, .hif, .cmp, .pwm, .diag, .out] s (State.pwmEdges s a2 u) := by
  unfold State.pwmEdges
  refine Keeps.after State.pwmBlank_keeps (by decide) ?_
  refine Keeps.after State.pwmTurn_keeps (by decide) ?_
  refine Keeps.after State.pwmTurn_keeps (by decide) ?_
  exact Keeps.refl _ _

theorem State.pwmFollow_keeps {s a2 a3} : Keeps [.pwm] s (State.pwmFollow s a2 a3) := by
  unfold State.pwmFollow
  extract_lets x1 x2 x3 x4
  refine Keeps.after State.setPm_keeps (by decide) ?_
  exact Keeps.refl _ _

theorem State.setCount_keeps {s a2 a3 a4} : Keeps [.regs, .pwm] s (State.setCount s a2 a3 a4) := by
  unfold State.setCount
  extract_lets x1
  refine Keeps.after State.setPm_keeps (by decide) ?_
  refine Keeps.after State.setBit_keeps (by decide) ?_
  refine Keeps.after State.setFld_keeps (by decide) ?_
  exact Keeps.refl _ _

theorem State.countLoad_keeps {s a2 a3 a4} : Keeps [.regs, .pwm] s (State.countLoad s a2 a3 a4) := by
  unfold State.countLoad
  extract_lets x1 x2
  have hx1 : Keeps [.regs, .pwm] s x1 := by
    unfold x1
    refine Keeps.after State.setCount_keeps (by decide) ?_
    exact Keeps.refl _ _
  refine Keeps.after State.pwmFollow_keeps (by decide) ?_
  refine Keeps.after State.setPm_keeps (by decide) ?_
  exact hx1

theorem State.pwmPhase_keeps {s a2 a3} : Keeps [.regs, .pwm] s (State.pwmPhase s a2 a3) := by
  unfold State.pwmPhase
  refine Keeps.after State.countLoad_keeps (by decide) ?_
  exact Keeps.refl _ _

theorem State.pwmPreReset_keeps {s a2} : Keeps [.pwm] s (State.pwmPreReset s a2) := by
  unfold State.pwmPreReset
  extract_lets x1
  refine Keeps.after State.setPm_keeps (by decide) ?_
  exact Keeps.refl _ _

theorem State.pwmStart_keeps {s a2} : Keeps [.regs, .hif, .cmp, .pwm, .diag, .out] s (State.pwmStart s a2) := by
  unfold State.pwmStart
  refine Keeps.after State.pwmEdges_keeps (by decide) ?_
  refine Keeps.after State.pwmPreReset_keeps (by decide) ?_
  refine Keeps.after State.pwmPhase_keeps (by decide) ?_
  refine Keeps.after State.setBit_keeps (by decide) ?_
  exact Keeps.refl _ _

theorem State.gstart_keeps {s a2} : Keeps [.regs, .hif, .cmp, .pwm, .diag, .out] s (State.gstart s a2) := by
  unfold State.gstart
  refine Keeps.ite ?_ ?_
  · refine Keeps.ite ?_ ?_
    · exact Keeps.refl _ _
    · refine Keeps.after State.wlrej_keeps (by decide) ?_
      exact Keeps.refl _ _
  · refine Keeps.forN ?_ ?_
    · exact Keeps.refl _ _
    · intro y1 y2 y3
      refine Keeps.ite ?_ ?_
      · refine Keeps.after State.pwmStart_keeps (by decide) ?_
        exact y3
      · exact y3

theorem State.gsync_keeps {s a2} : Keeps [.pwm] s (State.gsync s a2) := by
  unfold State.gsync
  extract_lets x1
  refine Keeps.ite ?_ ?_
  · refine Keeps.after State.setPm_keeps (by decide) ?_
    exact Keeps.refl _ _
  · exact Keeps.refl _ _

theorem State.outWrite_keeps {s a2 a3} : Keeps [.regs, .pwm] s (State.outWrite s a2 a3) := by
  unfold State.outWrite
  extract_lets x1 x2 x3 x4 x5 x6
  have hx6 : Keeps [.regs, .pwm] s x6 := by
    unfold x6
    refine Keeps.after State.setFld_keeps (by decide) ?_
    exact Keeps.refl _ _
  refine Keeps.ite ?_ ?_
  · refine Keeps.after State.setBit_keeps (by decide) ?_
    refine Keeps.after State.setPm_keeps (by decide) ?_
    exact hx6
  · refine Keeps.after State.setPm_keeps (by decide) ?_
    exact hx6

theorem State.pwmTrip_keeps {s a2} : Keeps [.regs, .hif, .cmp, .pwm, .diag, .out] s (State.pwmTrip s a2) := by
  unfold State.pwmTrip
  extract_lets x1 x2 x3 x4 x5 x6
  have hx4 : Keeps [.regs, .hif, .cmp, .pwm, .diag, .out] s x4 := by
    unfold x4
    refine Keeps.after State.setPm_keeps (by decide) ?_
    refine Keeps.after State.setBit_keeps (by decide) ?_
    exact Keeps.refl _ _
  have hx5 : Keeps [.regs, .hif, .cmp, .pwm, .diag, .out] s x5 := by
    unfold x5
    refine Keeps.ite ?_ ?_
    · refine Keeps.after State.setBit_keeps (by decide) ?_
      exact hx4
    · exact hx4
  have hx6 : Keeps [.regs, .hif, .cmp, .pwm, .diag, .out] s x6 := by
    unfold x6
    refine Keeps.ite ?_ ?_
    · refine Keeps.after State.event_keeps (by decide) ?_
      exact hx5
    · exact hx5
  refine Keeps.after State.pwmEdges_keeps (by decide) ?_
  exact hx6

theorem State.swtrip_keeps {s a2 a3} : Keeps [.regs, .hif, .cmp, .pwm, .diag, .out] s (State.swtrip s a2 a3) := by
  unfold State.swtrip
  refine Keeps.ite ?_ ?_
  · refine Keeps.after State.pwmTrip_keeps (by decide) ?_
    exact Keeps.refl _ _
  · exact Keeps.refl _ _

theorem State.trippedClear_keeps {s a2} : Keeps [.regs] s (State.trippedClear s a2) := by
  unfold State.trippedClear
  refine Keeps.forN ?_ ?_
  · exact Keeps.refl _ _
  · intro y1 y2 y3
    refine Keeps.ite ?_ ?_
    · refine Keeps.after State.setBit_keeps (by decide) ?_
      exact y3
    · exact y3

theorem State.diagEnable_keeps {s a2} : Keeps [.diag] s (State.diagEnable s a2) := by
  unfold State.diagEnable
  refine Keeps.after State.setDg_keeps (by decide) ?_
  exact Keeps.refl _ _

theorem State.pwmResume_keeps {s a2} : Keeps [.regs, .pwm] s (State.pwmResume s a2) := by
  unfold State.pwmResume
  refine Keeps.after State.pwmPreReset_keeps (by decide) ?_
  refine Keeps.after State.countLoad_keeps (by decide) ?_
  exact Keeps.refl _ _

theorem State.pwmAgeCh_keeps {s a2 a3 a4} : Keeps [.regs, .hif, .pwm, .diag, .out] s (State.pwmAgeCh s a2 a3 a4) := by
  unfold State.pwmAgeCh
  extract_lets x1 x2 x3
  refine Keeps.ite ?_ ?_
  · refine Keeps.ite ?_ ?_
    · refine Keeps.after State.pwmTurnOn_keeps (by decide) ?_
      refine Keeps.after State.setPwmCh_keeps (by decide) ?_
      exact Keeps.refl _ _
    · refine Keeps.after State.setPwmCh_keeps (by decide) ?_
      exact Keeps.refl _ _
  · refine Keeps.ite ?_ ?_
    · refine Keeps.after State.setPwmCh_keeps (by decide) ?_
      refine Keeps.after State.pulseEnd_keeps (by decide) ?_
      exact Keeps.refl _ _
    · refine Keeps.after State.setPwmCh_keeps (by decide) ?_
      exact Keeps.refl _ _

theorem State.pwmPass_keeps {s a2 a3} : Keeps [.regs, .hif, .cmp, .pwm, .diag, .out] s (State.pwmPass s a2 a3) := by
  unfold State.pwmPass
  extract_lets x1 x2
  have hx1 : Keeps [.regs, .hif, .cmp, .pwm, .diag, .out] s x1 := by
    unfold x1
    refine Keeps.after State.pwmAgeCh_keeps (by decide) ?_
    refine Keeps.after State.pwmAgeCh_keeps (by decide) ?_
    exact Keeps.refl _ _
  refine Keeps.after State.pwmBlank_keeps (by decide) ?_
  refine Keeps.after State.setPm_keeps (by decide) ?_
  exact hx1

theorem State.pwmCountOn_keeps {s a2 a3} : Keeps [.regs, .pwm] s (State.pwmCountOn s a2 a3) := by
  unfold State.pwmCountOn
  extract_lets x1 x2 x3 x4
  refine Keeps.after State.setPm_keeps (by decide) ?_
  refine Keeps.after State.setFld_keeps (by decide) ?_
  exact Keeps.refl _ _

theorem State.pwmAge_keeps {s a2 a3} : Keeps [.regs, .hif, .cmp, .pwm, .diag, .out] s (State.pwmAge s a2 a3) := by
  unfold State.pwmAge
  extract_lets x1
  have hx1 : Keeps [.regs, .hif, .cmp, .pwm, .diag, .out] s x1 := by
    unfold x1
    refine Keeps.after State.pwmPass_keeps (by decide) ?_
    exact Keeps.refl _ _
  refine Keeps.ite ?_ ?_
  · refine Keeps.ite ?_ ?_
    · refine Keeps.after State.pwmCountOn_keeps (by decide) ?_
      exact hx1
    · exact hx1
  · exact Keeps.refl _ _

theorem State.pwmReach_keeps {s a2 a3} : Keeps [.regs, .hif, .cmp, .pwm, .diag, .out] s (State.pwmReach s a2 a3) := by
  unfold State.pwmReach
  extract_lets x1 x2 x3
  refine Keeps.ite ?_ ?_
  · exact Keeps.refl _ _
  · refine Keeps.after State.pwmPass_keeps (by decide) ?_
    refine Keeps.after State.setPm_keeps (by decide) ?_
    exact Keeps.refl _ _

theorem State.pwmFire_keeps {s a2 a3} :
    Keeps [.regs, .hif, .adc, .sd, .cmp, .pwm, .qd, .kle, .out] s (State.pwmFire s a2 a3) := by
  unfold State.pwmFire
  split
  · refine Keeps.after State.source_keeps (by decide) ?_
    exact Keeps.refl _ _
  · refine Keeps.after State.trigger_keeps (by decide) ?_
    exact Keeps.refl _ _
  · refine Keeps.after State.trigger_keeps (by decide) ?_
    exact Keeps.refl _ _
  · refine Keeps.after State.slotTrigger_keeps (by decide) ?_
    exact Keeps.refl _ _

theorem State.pwmSelected_keeps {s a2 a3 a4} :
    Keeps [.regs, .hif, .adc, .sd, .cmp, .pwm, .qd, .kle, .out] s (State.pwmSelected s a2 a3 a4) := by
  unfold State.pwmSelected
  extract_lets x1 x2 x3 x4
  have hx4 : Keeps [.regs, .hif, .adc, .sd, .cmp, .pwm, .qd, .kle, .out] s x4 := by
    unfold x4
    refine Keeps.after State.setPm_keeps (by decide) ?_
    exact Keeps.refl _ _
  refine Keeps.ite ?_ ?_
  · exact Keeps.refl _ _
  · refine Keeps.ite ?_ ?_
    · refine Keeps.ite ?_ ?_
      · exact hx4
      · refine Keeps.after State.pwmFire_keeps (by decide) ?_
        exact hx4
    · refine Keeps.after State.setPm_keeps (by decide) ?_
      exact Keeps.refl _ _

theorem State.pwmEvent_keeps {s a2 a3} :
    Keeps [.regs, .hif, .adc, .sd, .cmp, .pwm, .qd, .kle, .out] s (State.pwmEvent s a2 a3) := by
  unfold State.pwmEvent
  extract_lets x1 x2 x3 x4 x5
  have hx3 : Keeps [.regs, .hif, .adc, .sd, .cmp, .pwm, .qd, .kle, .out] s x3 := by
    unfold x3
    refine Keeps.ite ?_ ?_
    · refine Keeps.ite ?_ ?_
      · refine Keeps.after State.setPm_keeps (by decide) ?_
        exact Keeps.refl _ _
      · exact Keeps.refl _ _
    · exact Keeps.refl _ _
  have hx5 : Keeps [.regs, .hif, .adc, .sd, .cmp, .pwm, .qd, .kle, .out] s x5 := by
    unfold x5
    refine Keeps.after State.setPm_keeps (by decide) ?_
    exact hx3
  refine Keeps.after State.pwmSelected_keeps (by decide) ?_
  refine Keeps.after State.pwmSelected_keeps (by decide) ?_
  refine Keeps.after State.pwmSelected_keeps (by decide) ?_
  refine Keeps.after State.pwmSelected_keeps (by decide) ?_
  exact hx5

theorem State.pwmLoad_keeps {s a2 a3 a4} : Keeps [.pwm] s (State.pwmLoad s a2 a3 a4) := by
  unfold State.pwmLoad
  split
  · exact Keeps.refl _ _
  · extract_lets x1
    refine Keeps.after State.setPm_keeps (by decide) ?_
    exact Keeps.refl _ _

theorem State.pwmLoads_keeps {s a2 a3} : Keeps [.pwm] s (State.pwmLoads s a2 a3) := by
  unfold State.pwmLoads
  refine Keeps.forN ?_ ?_
  · exact Keeps.refl _ _
  · intro y1 y2 y3
    refine Keeps.ite ?_ ?_
    · refine Keeps.after State.pwmLoad_keeps (by decide) ?_
      exact y3
    · exact y3

theorem State.tripRelease_keeps {s a2} : Keeps [.regs] s (State.tripRelease s a2) := by
  unfold State.tripRelease
  extract_lets x1
  refine Keeps.ite ?_ ?_
  · refine Keeps.after State.setBit_keeps (by decide) ?_
    exact Keeps.refl _ _
  · exact Keeps.refl _ _

theorem State.enTake_keeps {s a2} : Keeps [.regs, .pwm] s (State.enTake s a2) := by
  unfold State.enTake
  extract_lets x1
  refine Keeps.after State.setPm_keeps (by decide) ?_
  refine Keeps.after State.setFld_keeps (by decide) ?_
  exact Keeps.refl _ _

theorem State.pwmZeroEv_keeps {s a2} :
    Keeps [.regs, .hif, .adc, .sd, .cmp, .pwm, .qd, .kle, .out] s (State.pwmZeroEv s a2) := by
  unfold State.pwmZeroEv
  extract_lets x1 x2 x3
  have hx1 : Keeps [.regs, .hif, .adc, .sd, .cmp, .pwm, .qd, .kle, .out] s x1 := by
    unfold x1
    refine Keeps.after State.enTake_keeps (by decide) ?_
    refine Keeps.after State.tripRelease_keeps (by decide) ?_
    refine Keeps.after State.pwmLoads_keeps (by decide) ?_
    exact Keeps.refl _ _
  have hx3 : Keeps [.regs, .hif, .adc, .sd, .cmp, .pwm, .qd, .kle, .out] s x3 := by
    unfold x3
    refine Keeps.after State.setPm_keeps (by decide) ?_
    exact hx1
  refine Keeps.after State.pwmEvent_keeps (by decide) ?_
  exact hx3

theorem State.pwmPeriodEv_keeps {s a2} :
    Keeps [.regs, .hif, .adc, .sd, .cmp, .pwm, .qd, .kle, .out] s (State.pwmPeriodEv s a2) := by
  unfold State.pwmPeriodEv
  refine Keeps.after State.pwmEvent_keeps (by decide) ?_
  refine Keeps.after State.pwmLoads_keeps (by decide) ?_
  exact Keeps.refl _ _

theorem State.pwmReload_keeps {s a2 u} : Keeps [.pwm] s (State.pwmReload s a2 u) := by
  unfold State.pwmReload
  extract_lets x1 x2 x3
  refine Keeps.after State.setPm_keeps (by decide) ?_
  exact Keeps.refl _ _

theorem State.pwmZero_keeps {s a2} :
    Keeps [.regs, .hif, .adc, .sd, .cmp, .pwm, .diag, .qd, .kle, .out] s (State.pwmZero s a2) := by
  unfold State.pwmZero
  extract_lets x1 x2 x3
  have hx2 : Keeps [.regs, .hif, .adc, .sd, .cmp, .pwm, .diag, .qd, .kle, .out] s x2 := by
    unfold x2
    refine Keeps.after State.pwmReach_keeps (by decide) ?_
    exact Keeps.refl _ _
  have hx3 : Keeps [.regs, .hif, .adc, .sd, .cmp, .pwm, .diag, .qd, .kle, .out] s x3 := by
    unfold x3
    refine Keeps.after State.pwmZeroEv_keeps (by decide) ?_
    refine Keeps.after State.pwmFollow_keeps (by decide) ?_
    refine Keeps.after State.setCount_keeps (by decide) ?_
    exact hx2
  refine Keeps.after State.pwmEdges_keeps (by decide) ?_
  refine Keeps.ite ?_ ?_
  · exact hx3
  · refine Keeps.after State.pwmReload_keeps (by decide) ?_
    exact hx3

theorem State.pwmPeriod_keeps {s a2} :
    Keeps [.regs, .hif, .adc, .sd, .cmp, .pwm, .diag, .qd, .kle, .out] s (State.pwmPeriod s a2) := by
  unfold State.pwmPeriod
  extract_lets x1 x2 x3
  have hx2 : Keeps [.regs, .hif, .adc, .sd, .cmp, .pwm, .diag, .qd, .kle, .out] s x2 := by
    unfold x2
    refine Keeps.after State.pwmReach_keeps (by decide) ?_
    exact Keeps.refl _ _
  have hx3 : Keeps [.regs, .hif, .adc, .sd, .cmp, .pwm, .diag, .qd, .kle, .out] s x3 := by
    unfold x3
    refine Keeps.after State.pwmPeriodEv_keeps (by decide) ?_
    refine Keeps.after State.pwmFollow_keeps (by decide) ?_
    refine Keeps.after State.setCount_keeps (by decide) ?_
    exact hx2
  refine Keeps.after State.pwmEdges_keeps (by decide) ?_
  refine Keeps.ite ?_ ?_
  · refine Keeps.after State.pwmReload_keeps (by decide) ?_
    exact hx3
  · exact hx3

theorem execZero_keeps {a1 s} :
    Answers [.regs, .hif, .adc, .sd, .cmp, .pwm, .diag, .qd, .kle, .out] s (execZero a1 s) := by
  unfold execZero
  refine Answers.next ?_
  refine Keeps.ite ?_ ?_
  · refine Keeps.after State.pwmZero_keeps (by decide) ?_
    exact Keeps.refl _ _
  · exact Keeps.refl _ _

theorem execPeriod_keeps {a1 s} :
    Answers [.regs, .hif, .adc, .sd, .cmp, .pwm, .diag, .qd, .kle, .out] s (execPeriod a1 s) := by
  unfold execPeriod
  refine Answers.next ?_
  refine Keeps.ite ?_ ?_
  · refine Keeps.after State.pwmPeriod_keeps (by decide) ?_
    exact Keeps.refl _ _
  · exact Keeps.refl _ _

theorem State.pwmMatch_keeps {s a2 a3 a4} :
    Keeps [.regs, .hif, .adc, .sd, .cmp, .pwm, .diag, .qd, .kle, .out] s (State.pwmMatch s a2 a3 a4) := by
  unfold State.pwmMatch
  extract_lets x1 x2 x3 x4 x5 x6 x7
  have hx3 : Keeps [.regs, .hif, .adc, .sd, .cmp, .pwm, .diag, .qd, .kle, .out] s x3 := by
    unfold x3
    refine Keeps.after State.pwmReach_keeps (by decide) ?_
    exact Keeps.refl _ _
  have hx4 : Keeps [.regs, .hif, .adc, .sd, .cmp, .pwm, .diag, .qd, .kle, .out] s x4 := by
    unfold x4
    refine Keeps.after State.setCount_keeps (by decide) ?_
    exact hx3
  have hx7 : Keeps [.regs, .hif, .adc, .sd, .cmp, .pwm, .diag, .qd, .kle, .out] s x7 := by
    unfold x7
    refine Keeps.ite ?_ ?_
    · refine Keeps.after State.setPm_keeps (by decide) ?_
      exact hx4
    · refine Keeps.after State.setPm_keeps (by decide) ?_
      exact hx4
  refine Keeps.ite ?_ ?_
  · exact Keeps.refl _ _
  · refine Keeps.ite ?_ ?_
    · refine Keeps.after State.pwmEvent_keeps (by decide) ?_
      exact Keeps.refl _ _
    · refine Keeps.after State.pwmEdges_keeps (by decide) ?_
      refine Keeps.after State.pwmEvent_keeps (by decide) ?_
      exact hx7

theorem execCau_keeps {a1 s} :
    Answers [.regs, .hif, .adc, .sd, .cmp, .pwm, .diag, .qd, .kle, .out] s (execCau a1 s) := by
  unfold execCau
  refine Answers.next ?_
  refine Keeps.after State.pwmMatch_keeps (by decide) ?_
  exact Keeps.refl _ _

theorem execCad_keeps {a1 s} :
    Answers [.regs, .hif, .adc, .sd, .cmp, .pwm, .diag, .qd, .kle, .out] s (execCad a1 s) := by
  unfold execCad
  refine Answers.next ?_
  refine Keeps.after State.pwmMatch_keeps (by decide) ?_
  exact Keeps.refl _ _

theorem execCbu_keeps {a1 s} :
    Answers [.regs, .hif, .adc, .sd, .cmp, .pwm, .diag, .qd, .kle, .out] s (execCbu a1 s) := by
  unfold execCbu
  refine Answers.next ?_
  refine Keeps.after State.pwmMatch_keeps (by decide) ?_
  exact Keeps.refl _ _

theorem execCbd_keeps {a1 s} :
    Answers [.regs, .hif, .adc, .sd, .cmp, .pwm, .diag, .qd, .kle, .out] s (execCbd a1 s) := by
  unfold execCbd
  refine Answers.next ?_
  refine Keeps.after State.pwmMatch_keeps (by decide) ?_
  exact Keeps.refl _ _

theorem execImmediateLoad_keeps {a1 s} :
    Answers [.regs, .hif, .adc, .sd, .cmp, .pwm, .diag, .qd, .kle, .out] s (execImmediateLoad a1 s) := by
  unfold execImmediateLoad
  extract_lets x1 x2 x3 x4
  have hx2 : Keeps [.regs, .hif, .adc, .sd, .cmp, .pwm, .diag, .qd, .kle, .out] s x2 := by
    unfold x2
    refine Keeps.forN ?_ ?_
    · exact Keeps.refl _ _
    · intro y5 y6 y7
      refine Keeps.after State.pwmLoad_keeps (by decide) ?_
      exact y7
  have hx4 : Keeps [.regs, .hif, .adc, .sd, .cmp, .pwm, .diag, .qd, .kle, .out] s x4 := by
    unfold x4
    refine Keeps.ite ?_ ?_
    · refine Keeps.after State.pwmReload_keeps (by decide) ?_
      refine Keeps.after State.pwmZeroEv_keeps (by decide) ?_
      refine Keeps.after State.pwmFollow_keeps (by decide) ?_
      refine Keeps.after State.setCount_keeps (by decide) ?_
      exact hx2
    · refine Keeps.ite ?_ ?_
      · refine Keeps.after State.pwmReload_keeps (by decide) ?_
        refine Keeps.after State.pwmPeriodEv_keeps (by decide) ?_
        refine Keeps.after State.pwmFollow_keeps (by decide) ?_
        refine Keeps.after State.setCount_keeps (by decide) ?_
        exact hx2
      · refine Keeps.after State.pwmFollow_keeps (by decide) ?_
        exact hx2
  refine Answers.ite ?_ ?_
  · refine Answers.next ?_
    exact Keeps.refl _ _
  · refine Answers.next ?_
    refine Keeps.after State.pwmEdges_keeps (by decide) ?_
    exact hx4

theorem execSyncin_keeps {a1 s} : Answers [.regs, .hif, .cmp, .pwm, .diag, .out] s (execSyncin a1 s) := by
  unfold execSyncin
  extract_lets x1 x2 x3
  have hx3 : Keeps [.regs, .hif, .cmp, .pwm, .diag, .out] s x3 := by
    unfold x3
    refine Keeps.after State.setPm_keeps (by decide) ?_
    exact Keeps.refl _ _
  refine Answers.ite ?_ ?_
  · refine Answers.next ?_
    exact Keeps.refl _ _
  · refine Answers.ite ?_ ?_
    · refine Answers.next ?_
      refine Keeps.after State.pwmEdges_keeps (by decide) ?_
      refine Keeps.after State.pwmPhase_keeps (by decide) ?_
      exact hx3
    · refine Answers.next ?_
      exact hx3

theorem execGsync_keeps {a1 s} : Answers [.pwm] s (execGsync a1 s) := by
  unfold execGsync
  refine Answers.next ?_
  refine Keeps.after State.gsync_keeps (by decide) ?_
  exact Keeps.refl _ _

theorem execGstart_keeps {a1 s} : Answers [.regs, .hif, .cmp, .pwm, .diag, .out] s (execGstart a1 s) := by
  unfold execGstart
  refine Answers.next ?_
  refine Keeps.ite ?_ ?_
  · refine Keeps.after State.gstart_keeps (by decide) ?_
    exact Keeps.refl _ _
  · exact Keeps.refl _ _

theorem execOutEnableWrite_keeps {a1 a2 s} :
    Answers [.regs, .hif, .cmp, .pwm, .diag, .out] s (execOutEnableWrite a1 a2 s) := by
  unfold execOutEnableWrite
  refine Answers.next ?_
  refine Keeps.ite ?_ ?_
  · refine Keeps.after State.pwmEdges_keeps (by decide) ?_
    refine Keeps.after State.outWrite_keeps (by decide) ?_
    exact Keeps.refl _ _
  · exact Keeps.refl _ _

theorem execSwtrip_keeps {a1 a2 s} : Answers [.regs, .hif, .cmp, .pwm, .diag, .out] s (execSwtrip a1 a2 s) := by
  unfold execSwtrip
  refine Answers.next ?_
  refine Keeps.after State.swtrip_keeps (by decide) ?_
  exact Keeps.refl _ _

theorem execPwmTrip_keeps {a1 s} : Answers [.regs, .hif, .cmp, .pwm, .diag, .out] s (execPwmTrip a1 s) := by
  unfold execPwmTrip
  refine Answers.next ?_
  refine Keeps.ite ?_ ?_
  · refine Keeps.after State.pwmTrip_keeps (by decide) ?_
    exact Keeps.refl _ _
  · exact Keeps.refl _ _

theorem execDelayLineLock_keeps {s} : Answers [.regs] s (execDelayLineLock s) := by
  unfold execDelayLineLock
  refine Answers.next ?_
  refine Keeps.ite ?_ ?_
  · refine Keeps.after State.setBit_keeps (by decide) ?_
    exact Keeps.refl _ _
  · exact Keeps.refl _ _

theorem State.diagUnverified_keeps {s a2} : Keeps [.regs, .hif, .out] s (State.diagUnverified s a2) := by
  unfold State.diagUnverified
  extract_lets x1 x2 x3 x4
  have hx3 : Keeps [.regs, .hif, .out] s x3 := by
    unfold x3
    refine Keeps.after State.setFld_keeps (by decide) ?_
    refine Keeps.after State.setFld_keeps (by decide) ?_
    exact Keeps.refl _ _
  refine Keeps.ite ?_ ?_
  · refine Keeps.after State.diagStarve_keeps (by decide) ?_
    exact hx3
  · exact hx3

theorem State.diagOk_keeps {s a2} : Keeps [.regs, .diag] s (State.diagOk s a2) := by
  unfold State.diagOk
  extract_lets x1 x2 x3 x4
  have hx2 : Keeps [.regs, .diag] s x2 := by
    unfold x2
    refine Keeps.ite ?_ ?_
    · refine Keeps.after State.tallyHi_keeps (by decide) ?_
      exact Keeps.refl _ _
    · exact Keeps.refl _ _
  have hx4 : Keeps [.regs, .diag] s x4 := by
    unfold x4
    refine Keeps.after State.setDg_keeps (by decide) ?_
    exact hx2
  refine Keeps.after State.wr_keeps (by decide) ?_
  exact hx4

theorem State.diagFail_keeps {s a2} : Keeps [.regs, .hif, .diag, .out] s (State.diagFail s a2) := by
  unfold State.diagFail
  extract_lets x1 x2 x3 x4 x5
  have hx2 : Keeps [.regs, .hif, .diag, .out] s x2 := by
    unfold x2
    refine Keeps.after State.setBit_keeps (by decide) ?_
    refine Keeps.after State.setFld_keeps (by decide) ?_
    refine Keeps.after State.setFld_keeps (by decide) ?_
    exact Keeps.refl _ _
  have hx5 : Keeps [.regs, .hif, .diag, .out] s x5 := by
    unfold x5
    refine Keeps.after State.tally_keeps (by decide) ?_
    refine Keeps.after State.setFld_keeps (by decide) ?_
    refine Keeps.after State.setDg_keeps (by decide) ?_
    exact hx2
  refine Keeps.ite ?_ ?_
  · refine Keeps.ite ?_ ?_
    · refine Keeps.after State.event_keeps (by decide) ?_
      refine Keeps.after State.setBit_keeps (by decide) ?_
      exact hx5
    · exact hx5
  · refine Keeps.after State.setDg_keeps (by decide) ?_
    exact hx2

theorem State.diagClass_keeps {s a2 a3 a4} : Keeps [.regs, .hif, .diag, .out] s (State.diagClass s a2 a3 a4) := by
  unfold State.diagClass
  refine Keeps.ite ?_ ?_
  · refine Keeps.after State.diagUnverified_keeps (by decide) ?_
    exact Keeps.refl _ _
  · refine Keeps.ite ?_ ?_
    · refine Keeps.after State.diagOk_keeps (by decide) ?_
      exact Keeps.refl _ _
    · refine Keeps.after State.diagFail_keeps (by decide) ?_
      exact Keeps.refl _ _

theorem execDiagPulse_keeps {a1 a2 s} : Answers [.regs, .hif, .diag, .out] s (execDiagPulse a1 a2 s) := by
  unfold execDiagPulse
  extract_lets x1 x2
  refine Answers.ite ?_ ?_
  · refine Answers.next ?_
    exact Keeps.refl _ _
  · split
    · refine Answers.next ?_
      refine Keeps.after State.diagClass_keeps (by decide) ?_
      refine Keeps.after State.setDg_keeps (by decide) ?_
      exact Keeps.refl _ _
    · refine Answers.ite ?_ ?_
      · refine Answers.next ?_
        refine Keeps.after State.diagClass_keeps (by decide) ?_
        refine Keeps.after State.setDg_keeps (by decide) ?_
        exact Keeps.refl _ _
      · refine Answers.next ?_
        exact Keeps.refl _ _

end Sys2Proof.Machine
end

