-- ==== Sys2Proof/Laws/Reset.lean ====
section
/-!
SUPPORT. Frames of Machine/Reset.lean: which parts of the state each of its operations and commands may change.
-/
namespace Sys2Proof.Machine

theorem State.requestReset_keeps {s a2} : Keeps [.regs, .clk] s (State.requestReset s a2) := by
  unfold State.requestReset
  extract_lets x1
  refine Keeps.ite ?_ ?_
  · exact Keeps.refl _ _
  · refine Keeps.after State.setBit_keeps (by decide) ?_
    refine Keeps.set_clk (by decide) ?_
    exact Keeps.refl _ _

theorem State.rstcmd_keeps {s a2 a3} : Keeps [.regs, .clk] s (State.rstcmd s a2 a3) := by
  unfold State.rstcmd
  refine Keeps.ite ?_ ?_
  · refine Keeps.after State.requestReset_keeps (by decide) ?_
    exact Keeps.refl _ _
  · exact Keeps.refl _ _

theorem State.allReset_keeps {s a2} :
    Keeps [.regs, .mem, .ecc, .clk, .sup, .boot, .hif, .cores, .coh, .dma, .pool, .adc, .sd, .cmp, .pwm, .diag, .cap, .qd, .kle, .ports, .se, .mbm, .pp, .reply]
      s (State.allReset s a2) := by
  unfold State.allReset
  extract_lets inMram
  constructor
  · intro h
    exact ⟨Tab.wf_tkeep _ h.1, rfl, Tab.wf_tkeep _ h.2.2⟩
  all_goals intros; first | rfl | (rename_i n; exact (n (by decide)).elim)

theorem State.deviceReset_keeps {s} :
    Keeps [.regs, .mem, .ecc, .clk, .sup, .boot, .hif, .cores, .coh, .dma, .pool, .adc, .sd, .cmp, .pwm, .diag, .cap, .qd, .kle, .ports, .se, .mbm, .pp, .reply]
      s (State.deviceReset s) := by
  have h : Keeps [.regs, .mem, .ecc, .clk, .sup, .boot, .hif, .cores, .coh, .dma, .pool, .adc, .sd, .cmp, .pwm, .diag, .cap, .qd, .kle, .ports, .se, .mbm, .pp, .reply] s (s.allReset .devHold) := Keeps.after State.allReset_keeps (by decide) (Keeps.refl _ _)
  exact { h with ok := fun k => ⟨(h.ok k).1, Tab.wf_tkeep _ k.2.1, (h.ok k).2.2⟩, regs := fun n => (n (by decide)).elim }

theorem execPowerOnReset_keeps {a1 s} :
    Answers [.regs, .mem, .ecc, .clk, .sup, .boot, .hif, .cores, .coh, .dma, .pool, .adc, .sd, .cmp, .pwm, .diag, .cap, .qd, .kle, .ports, .se, .mbm, .pp, .reply]
      s (execPowerOnReset a1 s) := by
  unfold execPowerOnReset
  extract_lets x1 x2
  have hx1 : Keeps [.regs, .mem, .ecc, .clk, .sup, .boot, .hif, .cores, .coh, .dma, .pool, .adc, .sd, .cmp, .pwm, .diag, .cap, .qd, .kle, .ports, .se, .mbm, .pp, .reply] s x1 := by
    unfold x1
    refine Keeps.after State.allReset_keeps (by decide) ?_
    exact Keeps.refl _ _
  refine Answers.next ?_
  refine Keeps.set_clk (by decide) ?_
  exact hx1

theorem execVddioDReleaseTimer_keeps {s} : Answers [.clk] s (execVddioDReleaseTimer s) := by
  unfold execVddioDReleaseTimer
  extract_lets x1
  refine Answers.ite ?_ ?_
  · refine Answers.next ?_
    refine Keeps.set_clk (by decide) ?_
    exact Keeps.refl _ _
  · refine Answers.next ?_
    exact Keeps.refl _ _

theorem execPinReset_keeps {a1 a2 a3 s} : Answers [.regs, .clk] s (execPinReset a1 a2 a3 s) := by
  unfold execPinReset
  extract_lets x1 x2
  refine Answers.ite ?_ ?_
  · refine Answers.next ?_
    exact Keeps.refl _ _
  · split
    · refine Answers.ite ?_ ?_
      · refine Answers.next ?_
        refine Keeps.after State.setBit_keeps (by decide) ?_
        refine Keeps.set_clk (by decide) ?_
        exact Keeps.refl _ _
      · refine Answers.next ?_
        exact Keeps.refl _ _
    · refine Answers.next ?_
      refine Keeps.after State.requestReset_keeps (by decide) ?_
      exact Keeps.refl _ _

theorem execRstcmdDevice_keeps {a1 a2 s} : Answers [.regs, .clk] s (execRstcmdDevice a1 a2 s) := by
  unfold execRstcmdDevice
  refine Answers.next ?_
  refine Keeps.after State.rstcmd_keeps (by decide) ?_
  exact Keeps.refl _ _

theorem execDeviceReset_keeps {s} :
    Answers [.regs, .mem, .ecc, .clk, .sup, .boot, .hif, .cores, .coh, .dma, .pool, .adc, .sd, .cmp, .pwm, .diag, .cap, .qd, .kle, .ports, .se, .mbm, .pp, .reply]
      s (execDeviceReset s) := by
  unfold execDeviceReset
  refine Answers.next ?_
  refine Keeps.ite ?_ ?_
  · refine Keeps.after State.deviceReset_keeps (by decide) ?_
    exact Keeps.refl _ _
  · exact Keeps.refl _ _

theorem execResetRelease_keeps {a1 a2 s} : Answers [.regs, .clk, .hif, .out] s (execResetRelease a1 a2 s) := by
  unfold execResetRelease
  extract_lets x1 x2 x3
  have hx3 : Keeps [.regs, .clk, .hif, .out] s x3 := by
    unfold x3
    refine Keeps.set_clk (by decide) ?_
    exact Keeps.refl _ _
  split
  · refine Answers.ite ?_ ?_
    · refine Answers.next ?_
      refine Keeps.after State.lgseqCheck_keeps (by decide) ?_
      unfold x1
      extract_lets x4
      refine Keeps.after State.setFld_keeps (by decide) ?_
      refine Keeps.set_clk (by decide) ?_
      exact hx3
    · refine Answers.next ?_
      exact Keeps.refl _ _
  · refine Answers.next ?_
    unfold x1
    extract_lets 
    refine Keeps.after State.setFld_keeps (by decide) ?_
    refine Keeps.set_clk (by decide) ?_
    exact Keeps.refl _ _
  · refine Answers.next ?_
    exact Keeps.refl _ _

theorem execMemoryInitDone_keeps {s} : Answers [.regs, .mem, .ecc, .clk, .boot] s (execMemoryInitDone s) := by
  unfold execMemoryInitDone
  extract_lets x1 x2 x3 x4
  have hx1 : Keeps [.regs, .mem, .ecc, .clk, .boot] s x1 := by
    unfold x1
    refine Keeps.after State.zeroRange_keeps (by decide) ?_
    refine Keeps.after State.zeroRange_keeps (by decide) ?_
    refine Keeps.after State.zeroRange_keeps (by decide) ?_
    exact Keeps.refl _ _
  have hx3 : Keeps [.regs, .mem, .ecc, .clk, .boot] s x3 := by
    unfold x3
    refine Keeps.set_clk (by decide) ?_
    exact hx1
  refine Answers.ite ?_ ?_
  · split
    · refine Answers.next ?_
      refine Keeps.after State.setFld_keeps (by decide) ?_
      refine Keeps.set_boot (by decide) ?_
      exact hx3
    · refine Answers.next ?_
      refine Keeps.after State.setFld_keeps (by decide) ?_
      refine Keeps.set_boot (by decide) ?_
      exact hx3
    · refine Answers.next ?_
      refine Keeps.set_boot (by decide) ?_
      exact hx3
  · refine Answers.next ?_
    exact Keeps.refl _ _

end Sys2Proof.Machine
end

