-- ==== Sys2Proof/Laws/TwoWire.lean ====
section
/-!
SUPPORT. Frames of Machine/TwoWire.lean: which parts of the state each of its operations and commands may change.
-/
namespace Sys2Proof.Machine

theorem State.twCtrlWrite_keeps {s a2} : Keeps [.regs] s (State.twCtrlWrite s a2) := by
  unfold State.twCtrlWrite
  extract_lets x1 x2
  have hx2 : Keeps [.regs] s x2 := by
    unfold x2
    refine Keeps.after State.wr_keeps (by decide) ?_
    exact Keeps.refl _ _
  refine Keeps.ite ?_ ?_
  · refine Keeps.after State.setBit_keeps (by decide) ?_
    exact hx2
  · exact hx2

theorem State.twSwctl_keeps {s a2 a3} : Keeps [.regs, .ports] s (State.twSwctl s a2 a3) := by
  unfold State.twSwctl
  extract_lets x1 x2 x3
  have hx1 : Keeps [.regs, .ports] s x1 := by
    unfold x1
    refine Keeps.after State.wr_keeps (by decide) ?_
    exact Keeps.refl _ _
  have hx2 : Keeps [.regs, .ports] s x2 := by
    unfold x2
    refine Keeps.after State.setBit_keeps (by decide) ?_
    exact hx1
  have hx3 : Keeps [.regs, .ports] s x3 := by
    unfold x3
    refine Keeps.after State.twTake_keeps (by decide) ?_
    exact hx2
  refine Keeps.ite ?_ ?_
  · exact Keeps.refl _ _
  · refine Keeps.ite ?_ ?_
    · exact hx1
    · refine Keeps.ite ?_ ?_
      · refine Keeps.after State.swEnd_keeps (by decide) ?_
        exact hx1
      · refine Keeps.ite ?_ ?_
        · exact hx1
        · refine Keeps.ite ?_ ?_
          · refine Keeps.after State.lineStart_keeps (by decide) ?_
            refine Keeps.after State.setUse_keeps (by decide) ?_
            exact hx3
          · exact hx3

theorem State.swDone_keeps {s a2 a3} : Keeps [.regs, .ports] s (State.swDone s a2 a3) := by
  unfold State.swDone
  refine Keeps.after State.swEnd_keeps (by decide) ?_
  refine Keeps.after State.portFree_keeps (by decide) ?_
  exact Keeps.refl _ _

theorem execTwStretchTimeout_keeps {a1 s} :
    Answers [.regs, .mem, .ecc, .hif, .cores, .coh, .ports, .se, .mbm, .out] s (execTwStretchTimeout a1 s) := by
  unfold execTwStretchTimeout
  extract_lets x1
  refine Answers.ite ?_ ?_
  · refine Answers.next ?_
    exact Keeps.refl _ _
  · split
    · refine Answers.next ?_
      refine Keeps.after State.entEnd_keeps (by decide) ?_
      refine Keeps.after State.setBit_keeps (by decide) ?_
      exact Keeps.refl _ _
    · refine Answers.next ?_
      refine Keeps.after State.bellEnd_keeps (by decide) ?_
      refine Keeps.after State.portFree_keeps (by decide) ?_
      refine Keeps.after State.setBit_keeps (by decide) ?_
      exact Keeps.refl _ _
    · refine Answers.next ?_
      refine Keeps.ite ?_ ?_
      · refine Keeps.after State.swDone_keeps (by decide) ?_
        refine Keeps.after State.setBit_keeps (by decide) ?_
        exact Keeps.refl _ _
      · exact Keeps.refl _ _

theorem execAttemptTimeout_keeps {a1 s} :
    Answers [.regs, .mem, .ecc, .hif, .cores, .coh, .ports, .se, .mbm, .out] s (execAttemptTimeout a1 s) := by
  unfold execAttemptTimeout
  extract_lets x1
  split
  · refine Answers.next ?_
    refine Keeps.ite ?_ ?_
    · refine Keeps.after State.attemptTimeout_keeps (by decide) ?_
      exact Keeps.refl _ _
    · exact Keeps.refl _ _
  · refine Answers.next ?_
    exact Keeps.refl _ _

theorem execCmdrdConvWait_keeps {a1 s} : Answers [.ports] s (execCmdrdConvWait a1 s) := by
  unfold execCmdrdConvWait
  extract_lets x1
  refine Answers.next ?_
  refine Keeps.ite ?_ ?_
  · refine Keeps.after State.setPort_keeps (by decide) ?_
    exact Keeps.refl _ _
  · exact Keeps.refl _ _

theorem execTwSwctlGo_keeps {a1 a2 s} : Answers [.regs, .ports] s (execTwSwctlGo a1 a2 s) := by
  unfold execTwSwctlGo
  refine Answers.next ?_
  refine Keeps.ite ?_ ?_
  · refine Keeps.after State.twSwctl_keeps (by decide) ?_
    exact Keeps.refl _ _
  · exact Keeps.refl _ _

theorem execTwTransactionEnd_keeps {a1 a2 a3 s} : Answers [.regs, .ports] s (execTwTransactionEnd a1 a2 a3 s) := by
  unfold execTwTransactionEnd
  extract_lets x1 x2 x3
  have hx3 : Keeps [.regs, .ports] s x3 := by
    unfold x3
    refine Keeps.ite ?_ ?_
    · exact Keeps.refl _ _
    · refine Keeps.after State.wrRegs_keeps (by decide) ?_
      exact Keeps.refl _ _
  refine Answers.ite ?_ ?_
  · refine Answers.next ?_
    exact Keeps.refl _ _
  · split
    · refine Answers.next ?_
      refine Keeps.after State.swDone_keeps (by decide) ?_
      exact hx3
    · refine Answers.next ?_
      refine Keeps.after State.swDone_keeps (by decide) ?_
      exact Keeps.refl _ _
    · refine Answers.next ?_
      refine Keeps.after State.swDone_keeps (by decide) ?_
      exact Keeps.refl _ _
    · refine Answers.next ?_
      refine Keeps.after State.swDone_keeps (by decide) ?_
      exact Keeps.refl _ _
    · refine Answers.next ?_
      refine Keeps.after State.swDone_keeps (by decide) ?_
      exact Keeps.refl _ _
    · refine Answers.next ?_
      exact Keeps.refl _ _

theorem execCrookCallDetect_keeps {a1 s} : Answers [.regs, .ports] s (execCrookCallDetect a1 s) := by
  unfold execCrookCallDetect
  extract_lets x1 x2 x3
  have hx3 : Keeps [.regs, .ports] s x3 := by
    unfold x3
    refine Keeps.after State.setPort_keeps (by decide) ?_
    exact Keeps.refl _ _
  refine Answers.ite ?_ ?_
  · refine Answers.next ?_
    refine Keeps.after State.setBit_keeps (by decide) ?_
    refine Keeps.after State.tally_keeps (by decide) ?_
    refine Keeps.after State.twLevels_keeps (by decide) ?_
    exact hx3
  · refine Answers.next ?_
    exact Keeps.refl _ _

theorem execCrookIdentification_keeps {a1 s} : Answers [.regs, .ports] s (execCrookIdentification a1 s) := by
  unfold execCrookIdentification
  extract_lets x1 x2
  refine Answers.next ?_
  refine Keeps.ite ?_ ?_
  · refine Keeps.after State.lineStart_keeps (by decide) ?_
    refine Keeps.after State.setPort_keeps (by decide) ?_
    exact Keeps.refl _ _
  · exact Keeps.refl _ _

theorem execCrookIdentificationEnd_keeps {a1 a2 a3 s} :
    Answers [.regs, .hif, .ports, .out] s (execCrookIdentificationEnd a1 a2 a3 s) := by
  unfold execCrookIdentificationEnd
  extract_lets x1 x2 x3
  have hx3 : Keeps [.regs, .hif, .ports, .out] s x3 := by
    unfold x3
    refine Keeps.after State.wr_keeps (by decide) ?_
    refine Keeps.after State.portFree_keeps (by decide) ?_
    exact Keeps.refl _ _
  refine Answers.ite ?_ ?_
  · refine Answers.next ?_
    refine Keeps.after State.event_keeps (by decide) ?_
    refine Keeps.after State.twEvt_keeps (by decide) ?_
    exact hx3
  · refine Answers.next ?_
    exact Keeps.refl _ _

theorem State.twClearing_keeps {s a2} :
    Keeps [.regs, .mem, .ecc, .hif, .cores, .coh, .ports, .se, .mbm, .out] s (State.twClearing s a2) := by
  unfold State.twClearing
  extract_lets x1
  have hx1 : Keeps [.regs, .mem, .ecc, .hif, .cores, .coh, .ports, .se, .mbm, .out] s x1 := by
    unfold x1
    split
    · refine Keeps.after State.entEnd_keeps (by decide) ?_
      exact Keeps.refl _ _
    · refine Keeps.after State.bellEnd_keeps (by decide) ?_
      exact Keeps.refl _ _
    · exact Keeps.refl _ _
  refine Keeps.after State.portQuiet_keeps (by decide) ?_
  exact hx1

theorem State.twEscalate_keeps {s a2} :
    Keeps [.regs, .mem, .ecc, .hif, .cores, .coh, .ports, .se, .mbm, .pp, .out] s (State.twEscalate s a2) := by
  unfold State.twEscalate
  extract_lets x1 x2
  have hx1 : Keeps [.regs, .mem, .ecc, .hif, .cores, .coh, .ports, .se, .mbm, .pp, .out] s x1 := by
    unfold x1
    refine Keeps.after State.portQuiet_keeps (by decide) ?_
    exact Keeps.refl _ _
  refine Keeps.ite ?_ ?_
  · refine Keeps.after State.powerCycle_keeps (by decide) ?_
    refine Keeps.after State.setPort_keeps (by decide) ?_
    exact hx1
  · refine Keeps.after State.portPen_keeps (by decide) ?_
    exact hx1

theorem execStuckLine_keeps {a1 a2 a3 a4 s} :
    Answers [.regs, .mem, .ecc, .hif, .cores, .coh, .ports, .se, .mbm, .pp, .out] s (execStuckLine a1 a2 a3 a4 s) := by
  unfold execStuckLine
  extract_lets x1 x2 x3
  have hx2 : Keeps [.regs, .mem, .ecc, .hif, .cores, .coh, .ports, .se, .mbm, .pp, .out] s x2 := by
    unfold x2
    refine Keeps.after State.twEvt_keeps (by decide) ?_
    refine Keeps.after State.twLevels_keeps (by decide) ?_
    exact Keeps.refl _ _
  have hx3 : Keeps [.regs, .mem, .ecc, .hif, .cores, .coh, .ports, .se, .mbm, .pp, .out] s x3 := by
    unfold x3
    refine Keeps.after State.twClearing_keeps (by decide) ?_
    exact hx2
  refine Answers.ite ?_ ?_
  · refine Answers.next ?_
    exact Keeps.refl _ _
  · refine Answers.ite ?_ ?_
    · refine Answers.ite ?_ ?_
      · refine Answers.next ?_
        refine Keeps.after State.setFld_keeps (by decide) ?_
        refine Keeps.after State.tally_keeps (by decide) ?_
        refine Keeps.after State.twLevels_keeps (by decide) ?_
        exact hx3
      · refine Answers.next ?_
        refine Keeps.after State.twEscalate_keeps (by decide) ?_
        exact hx3
    · refine Answers.next ?_
      refine Keeps.after State.twEscalate_keeps (by decide) ?_
      exact hx2

theorem execPortSettleExpiry_keeps {a1 a2 a3 s} :
    Answers [.regs, .mem, .ecc, .hif, .cores, .coh, .ports, .se, .mbm, .out] s (execPortSettleExpiry a1 a2 a3 s) := by
  unfold execPortSettleExpiry
  extract_lets x1 x2 x3 x4 x5 x6 x7
  have hx3 : Keeps [.regs, .mem, .ecc, .hif, .cores, .coh, .ports, .se, .mbm, .out] s x3 := by
    unfold x3
    refine Keeps.after State.twLevels_keeps (by decide) ?_
    exact Keeps.refl _ _
  have hx4 : Keeps [.regs, .mem, .ecc, .hif, .cores, .coh, .ports, .se, .mbm, .out] s x4 := by
    unfold x4
    refine Keeps.after State.tallyHi_keeps (by decide) ?_
    exact hx3
  have hx6 : Keeps [.regs, .mem, .ecc, .hif, .cores, .coh, .ports, .se, .mbm, .out] s x6 := by
    unfold x6
    refine Keeps.after State.setFld_keeps (by decide) ?_
    exact hx4
  refine Answers.ite ?_ ?_
  · refine Answers.next ?_
    exact Keeps.refl _ _
  · refine Answers.ite ?_ ?_
    · refine Answers.next ?_
      refine Keeps.ite ?_ ?_
      · refine Keeps.after State.portPen_keeps (by decide) ?_
        exact hx6
      · refine Keeps.after State.setPort_keeps (by decide) ?_
        exact hx6
    · refine Answers.next ?_
      refine Keeps.after State.cycleFail_keeps (by decide) ?_
      exact hx3

theorem execStuckConsecDecay_keeps {a1 s} : Answers [.regs] s (execStuckConsecDecay a1 s) := by
  unfold execStuckConsecDecay
  refine Answers.next ?_
  refine Keeps.ite ?_ ?_
  · refine Keeps.after State.setFld_keeps (by decide) ?_
    exact Keeps.refl _ _
  · exact Keeps.refl _ _

theorem execPortProbe_keeps {a1 a2 a3 s} : Answers [.regs, .hif, .out] s (execPortProbe a1 a2 a3 s) := by
  unfold execPortProbe
  extract_lets x1 x2 x3
  have hx3 : Keeps [.regs, .hif, .out] s x3 := by
    unfold x3
    refine Keeps.after State.twLevels_keeps (by decide) ?_
    exact Keeps.refl _ _
  refine Answers.ite ?_ ?_
  · refine Answers.next ?_
    refine Keeps.ite ?_ ?_
    · refine Keeps.after State.event_keeps (by decide) ?_
      refine Keeps.after State.twEvt_keeps (by decide) ?_
      refine Keeps.after State.setBit_keeps (by decide) ?_
      exact hx3
    · exact hx3
  · refine Answers.next ?_
    exact Keeps.refl _ _

theorem execAdaptWindowEnd_keeps {a1 s} : Answers [.regs, .ports] s (execAdaptWindowEnd a1 s) := by
  unfold execAdaptWindowEnd
  extract_lets x1 x2 x3 x4 x5
  have hx3 : Keeps [.regs, .ports] s x3 := by
    unfold x3
    refine Keeps.after State.setBit_keeps (by decide) ?_
    exact Keeps.refl _ _
  refine Answers.ite ?_ ?_
  · refine Answers.next ?_
    exact Keeps.refl _ _
  · refine Answers.ite ?_ ?_
    · refine Answers.next ?_
      refine Keeps.after State.setPort_keeps (by decide) ?_
      exact Keeps.refl _ _
    · refine Answers.ite ?_ ?_
      · refine Answers.next ?_
        refine Keeps.after State.setPort_keeps (by decide) ?_
        exact hx3
      · refine Answers.next ?_
        refine Keeps.after State.setPort_keeps (by decide) ?_
        exact hx3

end Sys2Proof.Machine
end

