-- ==== Sys2Proof/Laws/RegWrite.lean ====
section
/-!
SUPPORT. Frames of Machine/RegWrite.lean: which parts of the state each of its operations and commands may change.
-/
namespace Sys2Proof.Machine

theorem State.kleRead_keeps {s a2} : PairKeeps [.regs, .ecc, .hif, .out] s (State.kleRead s a2) := by
  unfold State.kleRead
  split
  · refine PairKeeps.mk ?_
    exact Keeps.refl _ _
  · refine PairKeeps.mk ?_
    refine Keeps.after State.eccCorrected_keeps (by decide) ?_
    refine Keeps.after State.setEcc_keeps (by decide) ?_
    exact Keeps.refl _ _
  · refine PairKeeps.mk ?_
    exact Keeps.refl _ _

theorem State.ctxRead_keeps {s a2} : PairKeeps [.regs, .ecc, .hif, .out] s (State.ctxRead s a2) := by
  unfold State.ctxRead
  refine PairKeeps.mk ?_
  refine Keeps.ite ?_ ?_
  · refine Keeps.after State.eccCorrected_keeps (by decide) ?_
    refine Keeps.after State.setEcc_keeps (by decide) ?_
    exact Keeps.refl _ _
  · exact Keeps.refl _ _

theorem State.hpopRead_keeps {s a2} :
    PairKeeps [.regs, .mem, .ecc, .hif, .pool, .out, .reply] s (State.hpopRead s a2) := by
  unfold State.hpopRead
  extract_lets x1 x2 x3 x4 x5
  have hx1 : Keeps [.regs, .mem, .ecc, .hif, .pool, .out, .reply] s x1 := by
    unfold x1
    refine Keeps.repeatN ?_ ?_
    · exact Keeps.refl _ _
    · intro y6 y7
      refine Keeps.after State.poolPush_keeps (by decide) ?_
      exact y7
  have hx2 : Keeps [.regs, .mem, .ecc, .hif, .pool, .out, .reply] s x2 := by
    unfold x2
    refine Keeps.repeatN ?_ ?_
    · exact hx1
    · intro y8 y9
      refine Keeps.after State.poolPop_keeps (by decide) ?_
      exact y9
  have hx3 : Keeps [.regs, .mem, .ecc, .hif, .pool, .out, .reply] s x3 := by
    unfold x3
    refine Keeps.after State.poolPop_keeps (by decide) ?_
    refine Keeps.after State.popRequest_keeps (by decide) ?_
    refine Keeps.set_reply (by decide) ?_
    exact hx2
  have hx5 : Keeps [.regs, .mem, .ecc, .hif, .pool, .out, .reply] s x5 := by
    unfold x5
    refine Keeps.after State.setPport_keeps (by decide) ?_
    exact hx3
  split
  · refine PairKeeps.mk ?_
    refine Keeps.set_reply (by decide) ?_
    exact hx2
  · split
    · refine PairKeeps.mk ?_
      refine Keeps.set_reply (by decide) ?_
      exact hx3
    · refine PairKeeps.mk ?_
      refine Keeps.set_reply (by decide) ?_
      exact hx5

theorem State.tblo_keeps {s a2} : PairKeeps [.clk] s (State.tblo s a2) := by
  unfold State.tblo
  extract_lets x1
  refine PairKeeps.mk ?_
  refine Keeps.set_clk (by decide) ?_
  exact Keeps.refl _ _

theorem State.hookRead_keeps {s a2 a3 a4} :
    OptPairKeeps [.regs, .mem, .ecc, .clk, .hif, .pool, .adc, .cap, .ports, .out, .reply, .free]
      s (State.hookRead s a2 a3 a4) := by
  unfold State.hookRead
  split
  · refine OptPairKeeps.map ?_
    intro y1
    refine PairKeeps.after State.ipeak_keeps (by decide) ?_
    exact Keeps.refl _ _
  · refine OptPairKeeps.ite ?_ ?_
    · refine OptPairKeeps.some ?_
      refine PairKeeps.after State.tblo_keeps (by decide) ?_
      exact Keeps.refl _ _
    · refine OptPairKeeps.ite ?_ ?_
      · refine OptPairKeeps.some ?_
        refine PairKeeps.mk ?_
        exact Keeps.refl _ _
      · exact OptPairKeeps.none
  · refine OptPairKeeps.ite ?_ ?_
    · refine OptPairKeeps.some ?_
      refine PairKeeps.after State.hstatRead_keeps (by decide) ?_
      exact Keeps.refl _ _
    · refine OptPairKeeps.map ?_
      intro y2
      refine PairKeeps.after State.hpopRead_keeps (by decide) ?_
      exact Keeps.refl _ _
  · refine OptPairKeeps.map ?_
    intro y3
    refine PairKeeps.after State.ctxRead_keeps (by decide) ?_
    exact Keeps.refl _ _
  · refine OptPairKeeps.map ?_
    intro y4
    refine PairKeeps.after State.adcFifoGet_keeps (by decide) ?_
    exact Keeps.refl _ _
  · refine OptPairKeeps.orElse ?_ ?_
    · refine OptPairKeeps.map ?_
      intro y5
      extract_lets x6
      refine PairKeeps.ite ?_ ?_
      · refine PairKeeps.after State.capRead_keeps (by decide) ?_
        exact Keeps.refl _ _
      · refine PairKeeps.mk ?_
        exact Keeps.refl _ _
    · refine OptPairKeeps.map ?_
      intro y7
      refine PairKeeps.mk ?_
      exact Keeps.refl _ _
  · refine OptPairKeeps.map ?_
    intro y8
    refine PairKeeps.mk ?_
    exact Keeps.refl _ _
  · refine OptPairKeeps.orElse ?_ ?_
    · refine OptPairKeeps.map ?_
      intro y9
      refine PairKeeps.mk ?_
      exact Keeps.refl _ _
    · refine OptPairKeeps.orElse ?_ ?_
      · refine OptPairKeeps.map ?_
        intro y10
        refine PairKeeps.after State.dsRxdata_keeps (by decide) ?_
        exact Keeps.refl _ _
      · refine OptPairKeeps.map ?_
        intro y11
        refine PairKeeps.after State.dsRxlen_keeps (by decide) ?_
        exact Keeps.refl _ _
  · refine OptPairKeeps.map ?_
    intro y12
    refine PairKeeps.mk ?_
    exact Keeps.refl _ _
  · refine OptPairKeeps.ite ?_ ?_
    · refine OptPairKeeps.some ?_
      refine PairKeeps.mk ?_
      exact Keeps.refl _ _
    · refine OptPairKeeps.map ?_
      intro y13
      refine PairKeeps.after State.recIdx_keeps (by decide) ?_
      exact Keeps.refl _ _
  · refine OptPairKeeps.map ?_
    intro y14
    refine PairKeeps.mk ?_
    exact Keeps.refl _ _
  · exact OptPairKeeps.none

theorem State.regRead_keeps {s a2 a3} :
    PairKeeps [.regs, .mem, .ecc, .clk, .hif, .pool, .adc, .cap, .ports, .out, .reply, .free]
      s (State.regRead s a2 a3) := by
  unfold State.regRead
  refine PairKeeps.ite ?_ ?_
  · refine PairKeeps.mk ?_
    exact Keeps.refl _ _
  · split
    · refine PairKeeps.of_some (by assumption) ?_
      refine OptPairKeeps.after State.hookRead_keeps (by decide) ?_
      exact Keeps.refl _ _
    · refine PairKeeps.mk ?_
      exact Keeps.refl _ _

theorem State.kleWrite_keeps {s a2 a3 a4} : PairKeeps [.regs, .mem, .ecc] s (State.kleWrite s a2 a3 a4) := by
  unfold State.kleWrite
  extract_lets x1
  refine PairKeeps.ite ?_ ?_
  · refine PairKeeps.after State.plateWr_keeps (by decide) ?_
    exact Keeps.refl _ _
  · refine PairKeeps.mk ?_
    refine Keeps.after State.fullWrite_keeps (by decide) ?_
    exact Keeps.refl _ _

theorem State.hookAdc_keeps {s a2 a3} : OptKeeps [.regs, .adc] s (State.hookAdc s a2 a3) := by
  unfold State.hookAdc
  refine OptKeeps.ite ?_ ?_
  · refine OptKeeps.some ?_
    refine Keeps.after State.adcSwtrig_keeps (by decide) ?_
    exact Keeps.refl _ _
  · refine OptKeeps.ite ?_ ?_
    · refine OptKeeps.some ?_
      refine Keeps.after State.adcProof_keeps (by decide) ?_
      exact Keeps.refl _ _
    · exact OptKeeps.none

theorem State.hookCap_keeps {s a2 a3} : OptKeeps [.cap] s (State.hookCap s a2 a3) := by
  unfold State.hookCap
  refine OptKeeps.map ?_
  intro y1
  refine Keeps.after State.capArm_keeps (by decide) ?_
  exact Keeps.refl _ _

theorem State.hookCmp_keeps {s a2 a3} : OptKeeps [.regs, .cmp, .free] s (State.hookCmp s a2 a3) := by
  unfold State.hookCmp
  refine OptKeeps.ite ?_ ?_
  · split
    refine OptKeeps.some ?_
    refine Keeps.ite ?_ ?_
    · refine Keeps.after State.cmpProof_keeps (by decide) ?_
      refine Keeps.of_pair (by assumption) ?_
      refine PairKeeps.after State.drawWord_keeps (by decide) ?_
      exact Keeps.refl _ _
    · exact Keeps.refl _ _
  · refine OptKeeps.map ?_
    intro y1
    refine Keeps.after State.cmpThr_keeps (by decide) ?_
    exact Keeps.refl _ _

theorem State.dbgWrite_keeps {s a2 a3 a4} : Keeps [.regs, .cores] s (State.dbgWrite s a2 a3 a4) := by
  unfold State.dbgWrite
  extract_lets x1 x2
  refine Keeps.ite ?_ ?_
  · refine Keeps.after State.wlrej_keeps (by decide) ?_
    exact Keeps.refl _ _
  · split
    · refine Keeps.after State.setCore_keeps (by decide) ?_
      exact Keeps.refl _ _
    · refine Keeps.after State.wr_keeps (by decide) ?_
      exact Keeps.refl _ _
    · refine Keeps.after State.setCore_keeps (by decide) ?_
      exact Keeps.refl _ _
    · refine Keeps.after State.wr_keeps (by decide) ?_
      exact Keeps.refl _ _
    · refine Keeps.ite ?_ ?_
      · refine Keeps.after State.setCore_keeps (by decide) ?_
        exact Keeps.refl _ _
      · refine Keeps.after State.setCore_keeps (by decide) ?_
        exact Keeps.refl _ _
    · exact Keeps.refl _ _

theorem State.haltreq_keeps {s a2} :
    Keeps [.regs, .mem, .ecc, .hif, .cores, .pool, .cmp, .pwm, .kle, .out, .free] s (State.haltreq s a2) := by
  unfold State.haltreq
  extract_lets x1
  have hx1 : Keeps [.regs, .mem, .ecc, .hif, .cores, .pool, .cmp, .pwm, .kle, .out, .free] s x1 := by
    unfold x1
    refine Keeps.forN ?_ ?_
    · exact Keeps.refl _ _
    · intro y2 y3 y4
      refine Keeps.ite ?_ ?_
      · refine Keeps.after State.haltRequest_keeps (by decide) ?_
        exact y4
      · refine Keeps.after State.haltRelease_keeps (by decide) ?_
        exact y4
  refine Keeps.ite ?_ ?_
  · refine Keeps.after State.kleHalt_keeps (by decide) ?_
    exact hx1
  · refine Keeps.after State.kleRelease_keeps (by decide) ?_
    exact hx1

theorem State.hookDbg_keeps {s a2 a3} :
    OptKeeps [.regs, .mem, .ecc, .hif, .cores, .pool, .cmp, .pwm, .kle, .out, .free] s (State.hookDbg s a2 a3) := by
  unfold State.hookDbg
  refine OptKeeps.ite ?_ ?_
  · refine OptKeeps.some ?_
    refine Keeps.after State.haltreq_keeps (by decide) ?_
    exact Keeps.refl _ _
  · refine OptKeeps.ite ?_ ?_
    · refine OptKeeps.some ?_
      refine Keeps.after State.debugStep_keeps (by decide) ?_
      exact Keeps.refl _ _
    · refine OptKeeps.map ?_
      intro y1
      refine Keeps.after State.dbgWrite_keeps (by decide) ?_
      exact Keeps.refl _ _

theorem State.hookDs_keeps {s a2 a3} : OptKeeps [.regs, .ports] s (State.hookDs s a2 a3) := by
  unfold State.hookDs
  refine OptKeeps.orElse ?_ ?_
  · refine OptKeeps.map ?_
    intro y1
    refine Keeps.after State.dsTx_keeps (by decide) ?_
    exact Keeps.refl _ _
  · refine OptKeeps.orElse ?_ ?_
    · refine OptKeeps.map ?_
      intro y2
      refine Keeps.after State.dsSwctl_keeps (by decide) ?_
      exact Keeps.refl _ _
    · refine OptKeeps.map ?_
      intro y3
      refine Keeps.after State.dsProf_keeps (by decide) ?_
      exact Keeps.refl _ _

theorem State.ringCfgWrite_keeps {s a2 a3} : Keeps [.regs, .hif, .mbm, .out] s (State.ringCfgWrite s a2 a3) := by
  unfold State.ringCfgWrite
  extract_lets x1
  have hx1 : Keeps [.regs, .hif, .mbm, .out] s x1 := by
    unfold x1
    refine Keeps.after State.ringCfg_keeps (by decide) ?_
    exact Keeps.refl _ _
  refine Keeps.ite ?_ ?_
  · refine Keeps.after State.stopChecks_keeps (by decide) ?_
    exact hx1
  · exact hx1

theorem State.hookHif_keeps {s a2 a3 a4} : OptKeeps [.regs, .hif, .kle, .mbm, .out] s (State.hookHif s a2 a3 a4) := by
  unfold State.hookHif
  split
  · refine OptKeeps.some ?_
    refine Keeps.ite ?_ ?_
    · refine Keeps.after State.wr_keeps (by decide) ?_
      exact Keeps.refl _ _
    · exact Keeps.refl _ _
  · refine OptKeeps.some ?_
    refine Keeps.after State.heartbeat_keeps (by decide) ?_
    exact Keeps.refl _ _
  · refine OptKeeps.some ?_
    refine Keeps.after State.fwirq_keeps (by decide) ?_
    exact Keeps.refl _ _
  · refine OptKeeps.some ?_
    refine Keeps.after State.ringCfgWrite_keeps (by decide) ?_
    exact Keeps.refl _ _
  · refine OptKeeps.some ?_
    refine Keeps.after State.ringCfgWrite_keeps (by decide) ?_
    exact Keeps.refl _ _
  · refine OptKeeps.some ?_
    refine Keeps.after State.ringCfgWrite_keeps (by decide) ?_
    exact Keeps.refl _ _
  · refine OptKeeps.orElse ?_ ?_
    · refine OptKeeps.map ?_
      intro y1
      refine Keeps.after State.ringCfgWrite_keeps (by decide) ?_
      exact Keeps.refl _ _
    · refine OptKeeps.orElse ?_ ?_
      · refine OptKeeps.map ?_
        intro y2
        refine Keeps.after State.post_keeps (by decide) ?_
        exact Keeps.refl _ _
      · refine OptKeeps.orElse ?_ ?_
        · refine OptKeeps.map ?_
          intro y3
          refine Keeps.after State.doorbell_keeps (by decide) ?_
          exact Keeps.refl _ _
        · refine OptKeeps.map ?_
          intro y4
          refine Keeps.after State.sendPending_keeps (by decide) ?_
          refine Keeps.after State.wr_keeps (by decide) ?_
          exact Keeps.refl _ _

theorem State.hookIcu_keeps {s a2 a3} : OptKeeps [.regs] s (State.hookIcu s a2 a3) := by
  unfold State.hookIcu
  refine OptKeeps.ite ?_ ?_
  · refine OptKeeps.some ?_
    refine Keeps.after State.swi_keeps (by decide) ?_
    exact Keeps.refl _ _
  · refine OptKeeps.orElse ?_ ?_
    · refine OptKeeps.map ?_
      intro y1
      refine Keeps.after State.wr_keeps (by decide) ?_
      exact Keeps.refl _ _
    · refine OptKeeps.orElse ?_ ?_
      · refine OptKeeps.map ?_
        intro y2
        refine Keeps.after State.wr_keeps (by decide) ?_
        exact Keeps.refl _ _
      · refine OptKeeps.orElse ?_ ?_
        · refine OptKeeps.map ?_
          intro y3
          refine Keeps.after State.wr_keeps (by decide) ?_
          exact Keeps.refl _ _
        · refine OptKeeps.map ?_
          intro y4
          refine Keeps.after State.wr_keeps (by decide) ?_
          exact Keeps.refl _ _

theorem State.ctxWrite_keeps {s a2 a3 a4 a5} : Keeps [.regs, .ecc, .kle] s (State.ctxWrite s a2 a3 a4 a5) := by
  unfold State.ctxWrite
  extract_lets x1
  split
  · refine Keeps.after State.setLatch_keeps (by decide) ?_
    exact Keeps.refl _ _
  · refine Keeps.after State.paramWr_keeps (by decide) ?_
    exact Keeps.refl _ _
  · exact Keeps.refl _ _
  · refine Keeps.ite ?_ ?_
    · refine Keeps.after State.wlrej_keeps (by decide) ?_
      exact Keeps.refl _ _
    · refine Keeps.after State.setEcc_keeps (by decide) ?_
      refine Keeps.after State.wr_keeps (by decide) ?_
      exact Keeps.refl _ _

theorem State.hookKle_keeps {s a2 a3 a4} :
    OptKeeps [.regs, .ecc, .hif, .cmp, .pwm, .kle, .out] s (State.hookKle s a2 a3 a4) := by
  unfold State.hookKle
  split
  · refine OptKeeps.some ?_
    refine Keeps.after State.enset_keeps (by decide) ?_
    exact Keeps.refl _ _
  · refine OptKeeps.some ?_
    refine Keeps.after State.enclr_keeps (by decide) ?_
    exact Keeps.refl _ _
  · refine OptKeeps.some ?_
    refine Keeps.after State.kleDoorbell_keeps (by decide) ?_
    exact Keeps.refl _ _
  · refine OptKeeps.some ?_
    refine Keeps.after State.slotrst_keeps (by decide) ?_
    exact Keeps.refl _ _
  · refine OptKeeps.some ?_
    refine Keeps.after State.platechk_keeps (by decide) ?_
    exact Keeps.refl _ _
  · refine OptKeeps.orElse ?_ ?_
    · refine OptKeeps.map ?_
      intro y1
      refine Keeps.after State.injctl_keeps (by decide) ?_
      exact Keeps.refl _ _
    · refine OptKeeps.orElse ?_ ?_
      · refine OptKeeps.map ?_
        intro y2
        refine Keeps.after State.lctl_keeps (by decide) ?_
        exact Keeps.refl _ _
      · refine OptKeeps.map ?_
        intro y3
        refine Keeps.after State.ctxWrite_keeps (by decide) ?_
        exact Keeps.refl _ _

theorem State.hookMbm_keeps {s a2 a3} :
    OptKeeps [.regs, .mem, .ecc, .hif, .cores, .coh, .mbm, .out] s (State.hookMbm s a2 a3) := by
  unfold State.hookMbm
  refine OptKeeps.ite ?_ ?_
  · refine OptKeeps.some ?_
    refine Keeps.after State.mbmCtrlWrite_keeps (by decide) ?_
    exact Keeps.refl _ _
  · refine OptKeeps.ite ?_ ?_
    · refine OptKeeps.some ?_
      refine Keeps.after State.mbmTrig_keeps (by decide) ?_
      exact Keeps.refl _ _
    · exact OptKeeps.none

theorem State.hookPool_keeps {s a2 a3} : OptKeeps [.regs, .pool, .free] s (State.hookPool s a2 a3) := by
  unfold State.hookPool
  refine OptKeeps.ite ?_ ?_
  · refine OptKeeps.some ?_
    refine Keeps.after State.hqpush_keeps (by decide) ?_
    exact Keeps.refl _ _
  · refine OptKeeps.map ?_
    intro y1
    refine Keeps.after State.qcfgWrite_keeps (by decide) ?_
    exact Keeps.refl _ _

theorem State.hookPpw_keeps {s a2 a3} :
    OptKeeps [.regs, .mem, .ecc, .hif, .cores, .coh, .ports, .se, .mbm, .pp, .out] s (State.hookPpw s a2 a3) := by
  unfold State.hookPpw
  refine OptKeeps.orElse ?_ ?_
  · refine OptKeeps.map ?_
    intro y1
    refine Keeps.ite ?_ ?_
    · refine Keeps.after State.ppOn_keeps (by decide) ?_
      exact Keeps.refl _ _
    · refine Keeps.ite ?_ ?_
      · refine Keeps.after State.ppOff_keeps (by decide) ?_
        exact Keeps.refl _ _
      · exact Keeps.refl _ _
  · refine OptKeeps.map ?_
    intro y2
    refine Keeps.ite ?_ ?_
    · refine Keeps.after State.wlrej_keeps (by decide) ?_
      exact Keeps.refl _ _
    · refine Keeps.after State.ppBind_keeps (by decide) ?_
      exact Keeps.refl _ _

theorem State.withEdges_keeps {s u a3} : Keeps [.regs, .hif, .cmp, .pwm, .diag, .out] s (State.withEdges s u a3) := by
  unfold State.withEdges
  refine Keeps.after State.pwmEdges_keeps (by decide) ?_
  exact Keeps.refl _ _

theorem State.hookPwm_keeps {s a2 a3} : OptKeeps [.regs, .hif, .cmp, .pwm, .diag, .out] s (State.hookPwm s a2 a3) := by
  unfold State.hookPwm
  split
  · refine OptKeeps.some ?_
    refine Keeps.after State.gstart_keeps (by decide) ?_
    exact Keeps.refl _ _
  · refine OptKeeps.some ?_
    refine Keeps.after State.gsync_keeps (by decide) ?_
    exact Keeps.refl _ _
  · refine OptKeeps.some ?_
    refine Keeps.after State.trippedClear_keeps (by decide) ?_
    exact Keeps.refl _ _
  · refine OptKeeps.orElse ?_ ?_
    · refine OptKeeps.map ?_
      intro y1
      refine Keeps.after State.withEdges_keeps (by decide) ?_
      refine Keeps.after State.outWrite_keeps (by decide) ?_
      exact Keeps.refl _ _
    · refine OptKeeps.map ?_
      intro y2
      refine Keeps.after State.swtrip_keeps (by decide) ?_
      exact Keeps.refl _ _

theorem State.hookSdf_keeps {s a2 a3} : OptKeeps [.sd] s (State.hookSdf s a2 a3) := by
  unfold State.hookSdf
  refine OptKeeps.ite ?_ ?_
  · refine OptKeeps.some ?_
    refine Keeps.after State.swsync_keeps (by decide) ?_
    exact Keeps.refl _ _
  · exact OptKeeps.none

theorem State.hookSe_keeps {s a2 a3} : OptKeeps [.regs, .se] s (State.hookSe s a2 a3) := by
  unfold State.hookSe
  split
  · refine OptKeeps.some ?_
    refine Keeps.after State.seGstart_keeps (by decide) ?_
    exact Keeps.refl _ _
  · refine OptKeeps.some ?_
    refine Keeps.after State.phrst_keeps (by decide) ?_
    exact Keeps.refl _ _
  · refine OptKeeps.orElse ?_ ?_
    · refine OptKeeps.map ?_
      intro y1
      refine Keeps.ite ?_ ?_
      · refine Keeps.after State.seRun_keeps (by decide) ?_
        exact Keeps.refl _ _
      · refine Keeps.ite ?_ ?_
        · refine Keeps.after State.seStopRun_keeps (by decide) ?_
          exact Keeps.refl _ _
        · exact Keeps.refl _ _
    · refine OptKeeps.orElse ?_ ?_
      · refine OptKeeps.map ?_
        intro y2
        refine Keeps.after State.seLoad_keeps (by decide) ?_
        exact Keeps.refl _ _
      · refine OptKeeps.map ?_
        intro y3
        refine Keeps.after State.seParam_keeps (by decide) ?_
        exact Keeps.refl _ _

theorem State.hookSup_keeps {s a2 a3} : OptKeeps [.regs, .clk, .sup, .hif, .out] s (State.hookSup s a2 a3) := by
  unfold State.hookSup
  refine OptKeeps.ite ?_ ?_
  · refine OptKeeps.some ?_
    split
    · refine Keeps.after State.seqUp_keeps (by decide) ?_
      exact Keeps.refl _ _
    · refine Keeps.after State.seqDown_keeps (by decide) ?_
      exact Keeps.refl _ _
    · exact Keeps.refl _ _
  · exact OptKeeps.none

theorem State.hookSys_keeps {s a2 a3 a4} :
    OptKeeps [.regs, .clk, .sup, .boot, .hif, .cores, .cmp, .pwm, .ports, .mbm, .out] s (State.hookSys s a2 a3 a4) := by
  unfold State.hookSys
  split
  · refine OptKeeps.some ?_
    refine Keeps.after State.pwrcmd_keeps (by decide) ?_
    exact Keeps.refl _ _
  · refine OptKeeps.some ?_
    refine Keeps.after State.clkgate_keeps (by decide) ?_
    exact Keeps.refl _ _
  · refine OptKeeps.some ?_
    refine Keeps.after State.rstcmd_keeps (by decide) ?_
    exact Keeps.refl _ _
  · refine OptKeeps.some ?_
    refine Keeps.after State.corerst_keeps (by decide) ?_
    exact Keeps.refl _ _
  · refine OptKeeps.some ?_
    refine Keeps.after State.bootforce_keeps (by decide) ?_
    exact Keeps.refl _ _
  · refine OptKeeps.some ?_
    refine Keeps.after State.bootgo_keeps (by decide) ?_
    exact Keeps.refl _ _
  · exact OptKeeps.none

theorem State.hookTw_keeps {s a2 a3} : OptKeeps [.regs, .ports] s (State.hookTw s a2 a3) := by
  unfold State.hookTw
  refine OptKeeps.ite ?_ ?_
  · refine OptKeeps.some ?_
    refine Keeps.after State.twCtrlWrite_keeps (by decide) ?_
    exact Keeps.refl _ _
  · refine OptKeeps.orElse ?_ ?_
    · refine OptKeeps.map ?_
      intro y1
      refine Keeps.after State.twRateWrite_keeps (by decide) ?_
      exact Keeps.refl _ _
    · refine OptKeeps.map ?_
      intro y2
      refine Keeps.after State.twSwctl_keeps (by decide) ?_
      exact Keeps.refl _ _

theorem State.mirCheck_keeps {s} : Keeps [.regs] s (State.mirCheck s) := by
  unfold State.mirCheck
  extract_lets x1 x2 x3
  refine Keeps.ite ?_ ?_
  · refine Keeps.after State.setBit_keeps (by decide) ?_
    refine Keeps.after State.setBit_keeps (by decide) ?_
    exact Keeps.refl _ _
  · exact Keeps.refl _ _

theorem State.hookXlt_keeps {s a2 a3} : OptKeeps [.regs, .dma] s (State.hookXlt s a2 a3) := by
  unfold State.hookXlt
  refine OptKeeps.ite ?_ ?_
  · refine OptKeeps.some ?_
    refine Keeps.after State.mirCheck_keeps (by decide) ?_
    refine Keeps.after State.wr_keeps (by decide) ?_
    exact Keeps.refl _ _
  · refine OptKeeps.ite ?_ ?_
    · refine OptKeeps.some ?_
      refine Keeps.after State.dmainv_keeps (by decide) ?_
      exact Keeps.refl _ _
    · refine OptKeeps.map ?_
      intro y1
      refine Keeps.after State.dmaCmd_keeps (by decide) ?_
      exact Keeps.refl _ _

theorem State.hookWrite_keeps {s a2 a3 a4 a5} :
    OptKeeps [.regs, .mem, .ecc, .clk, .sup, .boot, .hif, .cores, .coh, .dma, .pool, .adc, .sd, .cmp, .pwm, .diag, .cap, .kle, .ports, .se, .mbm, .pp, .out, .free]
      s (State.hookWrite s a2 a3 a4 a5) := by
  unfold State.hookWrite
  split
  · refine OptKeeps.after State.hookSys_keeps (by decide) ?_
    exact Keeps.refl _ _
  · refine OptKeeps.after State.hookSup_keeps (by decide) ?_
    exact Keeps.refl _ _
  · refine OptKeeps.after State.hookPpw_keeps (by decide) ?_
    exact Keeps.refl _ _
  · refine OptKeeps.after State.hookIcu_keeps (by decide) ?_
    exact Keeps.refl _ _
  · refine OptKeeps.after State.hookXlt_keeps (by decide) ?_
    exact Keeps.refl _ _
  · refine OptKeeps.after State.hookPool_keeps (by decide) ?_
    exact Keeps.refl _ _
  · refine OptKeeps.after State.hookKle_keeps (by decide) ?_
    exact Keeps.refl _ _
  · refine OptKeeps.after State.hookAdc_keeps (by decide) ?_
    exact Keeps.refl _ _
  · refine OptKeeps.after State.hookSdf_keeps (by decide) ?_
    exact Keeps.refl _ _
  · refine OptKeeps.after State.hookCmp_keeps (by decide) ?_
    exact Keeps.refl _ _
  · refine OptKeeps.after State.hookPwm_keeps (by decide) ?_
    exact Keeps.refl _ _
  · refine OptKeeps.after State.hookCap_keeps (by decide) ?_
    exact Keeps.refl _ _
  · refine OptKeeps.after State.hookMbm_keeps (by decide) ?_
    exact Keeps.refl _ _
  · refine OptKeeps.after State.hookTw_keeps (by decide) ?_
    exact Keeps.refl _ _
  · refine OptKeeps.after State.hookDs_keeps (by decide) ?_
    exact Keeps.refl _ _
  · refine OptKeeps.after State.hookSe_keeps (by decide) ?_
    exact Keeps.refl _ _
  · refine OptKeeps.after State.hookHif_keeps (by decide) ?_
    exact Keeps.refl _ _
  · refine OptKeeps.after State.hookDbg_keeps (by decide) ?_
    exact Keeps.refl _ _
  · exact OptKeeps.none

theorem State.dsCheck_keeps {s a2} : Keeps [.regs] s (State.dsCheck s a2) := by
  unfold State.dsCheck
  refine Keeps.ite ?_ ?_
  · refine Keeps.after State.setBit_keeps (by decide) ?_
    refine Keeps.after State.setBit_keeps (by decide) ?_
    exact Keeps.refl _ _
  · exact Keeps.refl _ _

theorem State.sdCheck_keeps {s a2} : Keeps [.regs] s (State.sdCheck s a2) := by
  unfold State.sdCheck
  extract_lets x1
  refine Keeps.ite ?_ ?_
  · refine Keeps.after State.wlrej_keeps (by decide) ?_
    refine Keeps.after State.setBit_keeps (by decide) ?_
    exact Keeps.refl _ _
  · exact Keeps.refl _ _

theorem State.afterWrite_keeps {s a2 a3 a4} :
    Keeps [.regs, .adc, .sd, .cmp, .pwm, .diag, .cap, .qd] s (State.afterWrite s a2 a3 a4) := by
  unfold State.afterWrite
  extract_lets x1 x2
  split
  · refine Keeps.ite ?_ ?_
    · refine Keeps.after State.faultn_keeps (by decide) ?_
      exact Keeps.refl _ _
    · exact Keeps.refl _ _
  · unfold x1
    split
    · dsimp -zeta -zetaDelta only
      refine Keeps.ite ?_ ?_
      · refine Keeps.after State.wr_keeps (by decide) ?_
        exact Keeps.refl _ _
      · exact Keeps.refl _ _
    · exact Keeps.refl _ _
  · refine Keeps.ite ?_ ?_
    · refine Keeps.after State.mirCheck_keeps (by decide) ?_
      exact Keeps.refl _ _
    · exact Keeps.refl _ _
  · unfold x1
    split
    · dsimp -zeta -zetaDelta only
      refine Keeps.ite ?_ ?_
      · refine Keeps.after State.seqOff_keeps (by decide) ?_
        exact Keeps.refl _ _
      · exact Keeps.refl _ _
    · exact Keeps.refl _ _
  · unfold x1
    split
    · dsimp -zeta -zetaDelta only
      extract_lets x3 x4
      have hx3 : Keeps [.regs, .adc, .sd, .cmp, .pwm, .diag, .cap, .qd] s x3 := by
        unfold x3
        refine Keeps.after State.sdCheck_keeps (by decide) ?_
        exact Keeps.refl _ _
      refine Keeps.ite ?_ ?_
      · refine Keeps.after State.setSd_keeps (by decide) ?_
        exact hx3
      · exact hx3
    · exact Keeps.refl _ _
  · unfold x1
    split
    · dsimp -zeta -zetaDelta only
      extract_lets x5
      have hx5 : Keeps [.regs, .adc, .sd, .cmp, .pwm, .diag, .cap, .qd] s x5 := by
        unfold x5
        refine Keeps.ite ?_ ?_
        · exact Keeps.refl _ _
        · refine Keeps.after State.cmpBlank_keeps (by decide) ?_
          exact Keeps.refl _ _
      refine Keeps.ite ?_ ?_
      · refine Keeps.after State.cmpOff_keeps (by decide) ?_
        exact hx5
      · exact hx5
    · exact Keeps.refl _ _
  · unfold x1
    split
    · dsimp -zeta -zetaDelta only
      refine Keeps.ite ?_ ?_
      · refine Keeps.after State.pwmResume_keeps (by decide) ?_
        exact Keeps.refl _ _
      · exact Keeps.refl _ _
    · split
      · dsimp -zeta -zetaDelta only
        refine Keeps.after State.pwmShadow_keeps (by decide) ?_
        exact Keeps.refl _ _
      · split
        · dsimp -zeta -zetaDelta only
          refine Keeps.after State.pwmShadow_keeps (by decide) ?_
          exact Keeps.refl _ _
        · split
          · dsimp -zeta -zetaDelta only
            refine Keeps.after State.pwmShadow_keeps (by decide) ?_
            exact Keeps.refl _ _
          · split
            · refine Keeps.after State.pwmPreReset_keeps (by decide) ?_
              exact Keeps.refl _ _
            · split
              · dsimp -zeta -zetaDelta only
                refine Keeps.ite ?_ ?_
                · refine Keeps.after State.diagEnable_keeps (by decide) ?_
                  exact Keeps.refl _ _
                · exact Keeps.refl _ _
              · exact Keeps.refl _ _
  · unfold x1
    split
    · dsimp -zeta -zetaDelta only
      refine Keeps.ite ?_ ?_
      · refine Keeps.after State.capEnable_keeps (by decide) ?_
        exact Keeps.refl _ _
      · exact Keeps.refl _ _
    · split
      · dsimp -zeta -zetaDelta only
        refine Keeps.ite ?_ ?_
        · refine Keeps.after State.qdEnable_keeps (by decide) ?_
          exact Keeps.refl _ _
        · exact Keeps.refl _ _
      · exact Keeps.refl _ _
  · unfold x1
    split
    · refine Keeps.after State.dsCheck_keeps (by decide) ?_
      exact Keeps.refl _ _
    · exact Keeps.refl _ _
  · exact Keeps.refl _ _

theorem State.plainWrite_keeps {s a2 a3 a4 a5} :
    Keeps [.regs, .adc, .sd, .cmp, .pwm, .diag, .cap, .qd] s (State.plainWrite s a2 a3 a4 a5) := by
  unfold State.plainWrite
  extract_lets x1 x2 x3 x4
  have hx4 : Keeps [.regs, .adc, .sd, .cmp, .pwm, .diag, .cap, .qd] s x4 := by
    unfold x4
    refine Keeps.after State.afterWrite_keeps (by decide) ?_
    refine Keeps.after State.wr_keeps (by decide) ?_
    exact Keeps.refl _ _
  split
  · refine Keeps.ite ?_ ?_
    · refine Keeps.after State.wlrej_keeps (by decide) ?_
      exact Keeps.refl _ _
    · split
      · refine Keeps.ite ?_ ?_
        · refine Keeps.after State.wlrej_keeps (by decide) ?_
          exact Keeps.refl _ _
        · exact hx4
      · exact hx4
  · refine Keeps.after State.wr_keeps (by decide) ?_
    exact Keeps.refl _ _

theorem State.regWriteC_keeps {s a2 a3 a4 a5} :
    Keeps [.regs, .mem, .ecc, .clk, .sup, .boot, .hif, .cores, .coh, .dma, .pool, .adc, .sd, .cmp, .pwm, .diag, .cap, .qd, .kle, .ports, .se, .mbm, .pp, .out, .free]
      s (State.regWriteC s a2 a3 a4 a5) := by
  unfold State.regWriteC
  refine Keeps.ite ?_ ?_
  · exact Keeps.refl _ _
  · split
    · refine Keeps.of_some (by assumption) ?_
      refine OptKeeps.after State.hookWrite_keeps (by decide) ?_
      exact Keeps.refl _ _
    · split
      · extract_lets x1
        have hx1 : Keeps [.regs, .mem, .ecc, .clk, .sup, .boot, .hif, .cores, .coh, .dma, .pool, .adc, .sd, .cmp, .pwm, .diag, .cap, .qd, .kle, .ports, .se, .mbm, .pp, .out, .free] s x1 := by
          unfold x1
          refine Keeps.after State.plainWrite_keeps (by decide) ?_
          exact Keeps.refl _ _
        refine Keeps.ite ?_ ?_
        · split
          · refine Keeps.after State.withEdges_keeps (by decide) ?_
            exact hx1
          · exact hx1
        · exact hx1
      · exact Keeps.refl _ _

theorem State.regWrite_keeps {s a2 a3 a4} :
    Keeps [.regs, .mem, .ecc, .clk, .sup, .boot, .hif, .cores, .coh, .dma, .pool, .adc, .sd, .cmp, .pwm, .diag, .cap, .qd, .kle, .ports, .se, .mbm, .pp, .out, .free]
      s (State.regWrite s a2 a3 a4) := by
  unfold State.regWrite
  refine Keeps.after State.regWriteC_keeps (by decide) ?_
  exact Keeps.refl _ _

theorem execRingCfgWrite_keeps {a1 a2 s} : Answers [.regs, .hif, .mbm, .out] s (execRingCfgWrite a1 a2 s) := by
  unfold execRingCfgWrite
  refine Answers.next ?_
  refine Keeps.ite ?_ ?_
  · refine Keeps.after State.ringCfgWrite_keeps (by decide) ?_
    exact Keeps.refl _ _
  · exact Keeps.refl _ _

theorem State.hostRead_keeps {s a2} :
    Keeps [.regs, .mem, .ecc, .clk, .hif, .pool, .adc, .cap, .ports, .out, .reply, .free] s (State.hostRead s a2) := by
  unfold State.hostRead
  extract_lets x1
  refine Keeps.ite ?_ ?_
  · refine Keeps.set_reply (by decide) ?_
    exact Keeps.refl _ _
  · refine Keeps.ite ?_ ?_
    · refine Keeps.after State.ur_keeps (by decide) ?_
      exact Keeps.refl _ _
    · split
      refine Keeps.set_reply (by decide) ?_
      refine Keeps.of_pair (by assumption) ?_
      split
      · refine PairKeeps.mk ?_
        exact Keeps.refl _ _
      · refine PairKeeps.ite ?_ ?_
        · split
          · refine PairKeeps.of_some (by assumption) ?_
            refine OptPairKeeps.after State.hookRead_keeps (by decide) ?_
            exact Keeps.refl _ _
          · refine PairKeeps.mk ?_
            exact Keeps.refl _ _
        · refine PairKeeps.after State.regRead_keeps (by decide) ?_
          exact Keeps.refl _ _

theorem State.hostWrite_keeps {s a2 a3 a4 a5 a6} :
    Keeps [.regs, .mem, .ecc, .clk, .sup, .boot, .hif, .cores, .coh, .dma, .pool, .adc, .sd, .cmp, .pwm, .diag, .cap, .qd, .kle, .ports, .se, .mbm, .pp, .out, .free]
      s (State.hostWrite s a2 a3 a4 a5 a6) := by
  unfold State.hostWrite
  refine Keeps.ite ?_ ?_
  · exact Keeps.refl _ _
  · refine Keeps.ite ?_ ?_
    · refine Keeps.after State.tlpError_keeps (by decide) ?_
      exact Keeps.refl _ _
    · refine Keeps.ite ?_ ?_
      · refine Keeps.after State.urWrite_keeps (by decide) ?_
        exact Keeps.refl _ _
      · refine Keeps.ite ?_ ?_
        · refine Keeps.after State.setBit_keeps (by decide) ?_
          exact Keeps.refl _ _
        · split
          · exact Keeps.refl _ _
          · refine Keeps.ite ?_ ?_
            · split
              · refine Keeps.of_some (by assumption) ?_
                refine OptKeeps.after State.hookWrite_keeps (by decide) ?_
                exact Keeps.refl _ _
              · split
                · refine Keeps.after State.plainWrite_keeps (by decide) ?_
                  exact Keeps.refl _ _
                · exact Keeps.refl _ _
            · refine Keeps.after State.regWriteC_keeps (by decide) ?_
              exact Keeps.refl _ _

theorem execRegisterWrite_keeps {a1 a2 a3 a4 a5 a6 s} :
    Answers [.regs, .mem, .ecc, .clk, .sup, .boot, .hif, .cores, .coh, .dma, .pool, .adc, .sd, .cmp, .pwm, .diag, .cap, .qd, .kle, .ports, .se, .mbm, .pp, .out, .free]
      s (execRegisterWrite a1 a2 a3 a4 a5 a6 s) := by
  unfold execRegisterWrite
  refine Answers.next ?_
  split
  · refine Keeps.after State.hostWrite_keeps (by decide) ?_
    exact Keeps.refl _ _
  · refine Keeps.ite ?_ ?_
    · refine Keeps.after State.regWriteC_keeps (by decide) ?_
      exact Keeps.refl _ _
    · exact Keeps.refl _ _

theorem execTbloRead_keeps {a1 a2 s} : Answers [.clk, .hif, .out, .reply, .free] s (execTbloRead a1 a2 s) := by
  unfold execTbloRead
  refine Answers.next ?_
  refine State.readBy_keeps (by decide) ?_ ?_
  · exact Keeps.refl _ _
  · intro y1 y2
    split
    refine PairKeeps.mk ?_
    refine Keeps.of_pair (by assumption) ?_
    refine PairKeeps.after State.tblo_keeps (by decide) ?_
    exact y2

theorem execIpeakRead_keeps {a1 a2 a3 a4 s} :
    Answers [.regs, .hif, .out, .reply, .free] s (execIpeakRead a1 a2 a3 a4 s) := by
  unfold execIpeakRead
  refine Answers.next ?_
  refine State.readBy_keeps (by decide) ?_ ?_
  · exact Keeps.refl _ _
  · intro y1 y2
    split
    refine PairKeeps.mk ?_
    refine Keeps.of_pair (by assumption) ?_
    refine PairKeeps.after State.ipeak_keeps (by decide) ?_
    exact y2

theorem execHaltRelease_keeps {a1 s} : Answers [.regs, .cores, .kle] s (execHaltRelease a1 s) := by
  unfold execHaltRelease
  refine Answers.next ?_
  refine Keeps.ite ?_ ?_
  · refine Keeps.ite ?_ ?_
    · refine Keeps.after State.kleRelease_keeps (by decide) ?_
      exact Keeps.refl _ _
    · refine Keeps.after State.haltRelease_keeps (by decide) ?_
      exact Keeps.refl _ _
  · exact Keeps.refl _ _

end Sys2Proof.Machine
end

