-- ==== Sys2Proof/Laws/Bus.lean ====
section
/-!
SUPPORT. Frames of Machine/Bus.lean: which parts of the state each of its operations and commands may change.
-/
namespace Sys2Proof.Machine

theorem State.wordRead_keeps {s a2 a3 a4} :
    PairKeeps [.regs, .mem, .ecc, .clk, .hif, .cores, .coh, .pool, .adc, .cap, .ports, .out, .reply, .free]
      s (State.wordRead s a2 a3 a4) := by
  unfold State.wordRead
  split
  · extract_lets x1
    have hx1 : PairKeeps [.regs, .mem, .ecc, .clk, .hif, .cores, .coh, .pool, .adc, .cap, .ports, .out, .reply, .free] s x1 := by
      unfold x1
      refine PairKeeps.after State.coRd_keeps (by decide) ?_
      exact Keeps.refl _ _
    refine PairKeeps.mk ?_
    refine Keeps.of_snd ?_
    exact hx1
  · extract_lets x2
    have hx2 : PairKeeps [.regs, .mem, .ecc, .clk, .hif, .cores, .coh, .pool, .adc, .cap, .ports, .out, .reply, .free] s x2 := by
      unfold x2
      refine PairKeeps.after State.mramCheck_keeps (by decide) ?_
      exact Keeps.refl _ _
    refine PairKeeps.mk ?_
    refine Keeps.of_snd ?_
    exact hx2
  · extract_lets x3
    have hx3 : PairKeeps [.regs, .mem, .ecc, .clk, .hif, .cores, .coh, .pool, .adc, .cap, .ports, .out, .reply, .free] s x3 := by
      unfold x3
      refine PairKeeps.after State.kleRead_keeps (by decide) ?_
      exact Keeps.refl _ _
    refine PairKeeps.mk ?_
    refine Keeps.of_snd ?_
    exact hx3
  · refine PairKeeps.ite ?_ ?_
    · refine PairKeeps.mk ?_
      exact Keeps.refl _ _
    · refine PairKeeps.mk ?_
      refine Keeps.ite ?_ ?_
      · refine Keeps.after State.eccCorrected_keeps (by decide) ?_
        exact Keeps.refl _ _
      · exact Keeps.refl _ _
  · refine PairKeeps.mk ?_
    exact Keeps.refl _ _
  · extract_lets x4
    have hx4 : PairKeeps [.regs, .mem, .ecc, .clk, .hif, .cores, .coh, .pool, .adc, .cap, .ports, .out, .reply, .free] s x4 := by
      unfold x4
      refine PairKeeps.after State.regRead_keeps (by decide) ?_
      exact Keeps.refl _ _
    refine PairKeeps.mk ?_
    refine Keeps.of_snd ?_
    exact hx4
  · refine PairKeeps.mk ?_
    exact Keeps.refl _ _

theorem State.wordsRead_keeps {s a2 a3 a4 a5} :
    PairKeeps [.regs, .mem, .ecc, .clk, .hif, .cores, .coh, .pool, .adc, .cap, .ports, .out, .reply, .free]
      s (State.wordsRead s a2 a3 a4 a5) := by
  induction a5 generalizing s a2 a3 a4
  · rw [State.wordsRead]
    refine PairKeeps.mk ?_
    exact Keeps.refl _ _
  · rename_i y ih
    rw [State.wordsRead]
    split
    split
    · split
      split
      · refine PairKeeps.mk ?_
        refine Keeps.of_pair (by assumption) ?_
        refine PairKeeps.after ih (fun _ k => k) ?_
        refine Keeps.of_pair (by assumption) ?_
        refine PairKeeps.after State.wordRead_keeps (by decide) ?_
        exact Keeps.refl _ _
      · refine PairKeeps.mk ?_
        refine Keeps.of_pair (by assumption) ?_
        refine PairKeeps.after ih (fun _ k => k) ?_
        refine Keeps.of_pair (by assumption) ?_
        refine PairKeeps.after State.wordRead_keeps (by decide) ?_
        exact Keeps.refl _ _
    · refine PairKeeps.mk ?_
      refine Keeps.of_pair (by assumption) ?_
      refine PairKeeps.after State.wordRead_keeps (by decide) ?_
      exact Keeps.refl _ _

theorem State.busRead_keeps {s a2 a3 a4 a5} :
    PairKeeps [.regs, .mem, .ecc, .clk, .hif, .cores, .coh, .pool, .adc, .cap, .ports, .out, .reply, .free]
      s (State.busRead s a2 a3 a4 a5) := by
  unfold State.busRead
  extract_lets x1
  split
  split
  · refine PairKeeps.mk ?_
    refine Keeps.of_pair (by assumption) ?_
    split
    · refine PairKeeps.ite ?_ ?_
      · refine PairKeeps.mk ?_
        refine Keeps.after State.flashFrame_keeps (by decide) ?_
        exact Keeps.refl _ _
      · refine PairKeeps.mk ?_
        exact Keeps.refl _ _
    · refine PairKeeps.ite ?_ ?_
      · refine PairKeeps.mk ?_
        refine Keeps.after State.emit_keeps (by decide) ?_
        exact Keeps.refl _ _
      · refine PairKeeps.mk ?_
        exact Keeps.refl _ _
    · refine PairKeeps.after State.wordsRead_keeps (by decide) ?_
      exact Keeps.refl _ _
    · refine PairKeeps.mk ?_
      exact Keeps.refl _ _
  · refine PairKeeps.mk ?_
    refine Keeps.of_pair (by assumption) ?_
    split
    · refine PairKeeps.ite ?_ ?_
      · refine PairKeeps.mk ?_
        refine Keeps.after State.flashFrame_keeps (by decide) ?_
        exact Keeps.refl _ _
      · refine PairKeeps.mk ?_
        exact Keeps.refl _ _
    · refine PairKeeps.ite ?_ ?_
      · refine PairKeeps.mk ?_
        refine Keeps.after State.emit_keeps (by decide) ?_
        exact Keeps.refl _ _
      · refine PairKeeps.mk ?_
        exact Keeps.refl _ _
    · refine PairKeeps.after State.wordsRead_keeps (by decide) ?_
      exact Keeps.refl _ _
    · refine PairKeeps.mk ?_
      exact Keeps.refl _ _

theorem State.wordWrite_keeps {s a2 a3 a4} :
    PairKeeps [.regs, .mem, .ecc, .clk, .sup, .boot, .hif, .cores, .coh, .dma, .pool, .adc, .sd, .cmp, .pwm, .diag, .cap, .qd, .kle, .ports, .se, .mbm, .pp, .out, .free]
      s (State.wordWrite s a2 a3 a4) := by
  unfold State.wordWrite
  extract_lets x1 x2 x3 x4
  split
  · split
    refine PairKeeps.mk ?_
    refine Keeps.of_pair (by assumption) ?_
    refine PairKeeps.after State.coWr_keeps (by decide) ?_
    exact Keeps.refl _ _
  · split
    refine PairKeeps.mk ?_
    refine Keeps.of_pair (by assumption) ?_
    refine PairKeeps.after State.mramWrite_keeps (by decide) ?_
    exact Keeps.refl _ _
  · split
    refine PairKeeps.mk ?_
    refine Keeps.of_pair (by assumption) ?_
    refine PairKeeps.after State.kleWrite_keeps (by decide) ?_
    exact Keeps.refl _ _
  · split
    refine PairKeeps.mk ?_
    refine Keeps.of_pair (by assumption) ?_
    refine PairKeeps.after State.rawViewWrite_keeps (by decide) ?_
    exact Keeps.refl _ _
  · refine PairKeeps.mk ?_
    refine Keeps.after State.wrBytes_keeps (by decide) ?_
    exact Keeps.refl _ _
  · refine PairKeeps.mk ?_
    refine Keeps.ite ?_ ?_
    · refine Keeps.after State.regWrite_keeps (by decide) ?_
      exact Keeps.refl _ _
    · exact Keeps.refl _ _
  · split
    refine PairKeeps.mk ?_
    refine Keeps.of_pair (by assumption) ?_
    refine PairKeeps.after State.outboundWrite_keeps (by decide) ?_
    exact Keeps.refl _ _
  · refine PairKeeps.mk ?_
    exact Keeps.refl _ _

theorem State.busWriteN_keeps {s a2 a3 a4 a5} :
    PairKeeps [.regs, .mem, .ecc, .clk, .sup, .boot, .hif, .cores, .coh, .dma, .pool, .adc, .sd, .cmp, .pwm, .diag, .cap, .qd, .kle, .ports, .se, .mbm, .pp, .out, .free]
      s (State.busWriteN s a2 a3 a4 a5) := by
  induction a5 generalizing s a2 a3 a4
  · rw [State.busWriteN]
    refine PairKeeps.mk ?_
    exact Keeps.refl _ _
  · rename_i y ih
    rw [State.busWriteN]
    split
    split
    · refine PairKeeps.after ih (fun _ k => k) ?_
      refine Keeps.of_pair (by assumption) ?_
      refine PairKeeps.after State.wordWrite_keeps (by decide) ?_
      exact Keeps.refl _ _
    · refine PairKeeps.mk ?_
      refine Keeps.of_pair (by assumption) ?_
      refine PairKeeps.after State.wordWrite_keeps (by decide) ?_
      exact Keeps.refl _ _

theorem State.busWrite_keeps {s a2 a3 a4} :
    PairKeeps [.regs, .mem, .ecc, .clk, .sup, .boot, .hif, .cores, .coh, .dma, .pool, .adc, .sd, .cmp, .pwm, .diag, .cap, .qd, .kle, .ports, .se, .mbm, .pp, .out, .free]
      s (State.busWrite s a2 a3 a4) := by
  unfold State.busWrite
  refine PairKeeps.after State.busWriteN_keeps (by decide) ?_
  exact Keeps.refl _ _

end Sys2Proof.Machine
end

