-- ==== Sys2Proof/Laws/Commands.lean ====
section
/-!
SUPPORT. Frames of Machine/Commands.lean: which parts of the state each of its operations and commands may change.
-/
namespace Sys2Proof.Machine

theorem State.setCmd_keeps {s a2} : Keeps [.hif] s (State.setCmd s a2) := by
  unfold State.setCmd
  extract_lets x1
  refine Keeps.set_hif (by decide) ?_
  exact Keeps.refl _ _

theorem State.begun_keeps {s a2} : Keeps [.hif] s (State.begun s a2) := by
  unfold State.begun
  refine Keeps.after State.setCmd_keeps (by decide) ?_
  exact Keeps.refl _ _

theorem State.refuse_keeps {s a2} : Keeps [.regs, .hif, .out] s (State.refuse s a2) := by
  unfold State.refuse
  refine Keeps.after State.finish_keeps (by decide) ?_
  exact Keeps.refl _ _

theorem State.startRead_keeps {s a2 a3 a4 a5} : Keeps [.hif, .out] s (State.startRead s a2 a3 a4 a5) := by
  unfold State.startRead
  refine Keeps.after State.cmdIssue_keeps (by decide) ?_
  refine Keeps.after State.setCmd_keeps (by decide) ?_
  exact Keeps.refl _ _

theorem execNop_keeps {s} : Answers [.regs, .hif, .out] s (execNop s) := by
  unfold execNop
  split
  · refine Answers.next ?_
    refine Keeps.after State.finish_keeps (by decide) ?_
    exact Keeps.refl _ _
  · refine Answers.next ?_
    exact Keeps.refl _ _

theorem execEcho_keeps {s} : Answers [.hif, .out] s (execEcho s) := by
  unfold execEcho
  split
  · extract_lets x1
    refine Answers.ite ?_ ?_
    · refine Answers.next ?_
      refine Keeps.after State.setCmd_keeps (by decide) ?_
      exact Keeps.refl _ _
    · refine Answers.ite ?_ ?_
      · refine Answers.next ?_
        refine Keeps.after State.cplHead_keeps (by decide) ?_
        refine Keeps.after State.setCmd_keeps (by decide) ?_
        exact Keeps.refl _ _
      · refine Answers.next ?_
        exact Keeps.refl _ _
  · refine Answers.next ?_
    exact Keeps.refl _ _

theorem execEchoWord3_keeps {s} : Answers [.regs, .hif, .out] s (execEchoWord3 s) := by
  unfold execEchoWord3
  split
  · extract_lets x1
    refine Answers.ite ?_ ?_
    · refine Answers.next ?_
      exact Keeps.refl _ _
    · refine Answers.ite ?_ ?_
      · refine Answers.next ?_
        refine Keeps.after State.finish_keeps (by decide) ?_
        exact Keeps.refl _ _
      · refine Answers.ite ?_ ?_
        · refine Answers.next ?_
          refine Keeps.after State.setCmd_keeps (by decide) ?_
          exact Keeps.refl _ _
        · refine Answers.ite ?_ ?_
          · refine Answers.next ?_
            refine Keeps.after State.cplTail_keeps (by decide) ?_
            refine Keeps.after State.cmdEnd_keeps (by decide) ?_
            exact Keeps.refl _ _
          · refine Answers.next ?_
            refine Keeps.after State.cplHead_keeps (by decide) ?_
            refine Keeps.after State.setCmd_keeps (by decide) ?_
            exact Keeps.refl _ _
  · refine Answers.next ?_
    exact Keeps.refl _ _

theorem execLedgerquery_keeps {s} : Answers [.regs, .hif, .out] s (execLedgerquery s) := by
  unfold execLedgerquery
  split
  · refine Answers.next ?_
    refine Keeps.after State.finish_keeps (by decide) ?_
    exact Keeps.refl _ _
  · refine Answers.next ?_
    exact Keeps.refl _ _

theorem State.pwrResult_keeps {s a2} : Keeps [.regs] s (State.pwrResult s a2) := by
  unfold State.pwrResult
  refine Keeps.after State.setFld_keeps (by decide) ?_
  exact Keeps.refl _ _

theorem State.pwrRefuse_keeps {s a2} : Keeps [.regs, .hif, .out] s (State.pwrRefuse s a2) := by
  unfold State.pwrRefuse
  extract_lets x1
  have hx1 : Keeps [.regs, .hif, .out] s x1 := by
    unfold x1
    refine Keeps.after State.pwrResult_keeps (by decide) ?_
    exact Keeps.refl _ _
  refine Keeps.after State.finish_keeps (by decide) ?_
  exact hx1

theorem State.setStandby_keeps {s a2} :
    Keeps [.regs, .clk, .hif, .cmp, .pwm, .ports, .mbm, .out] s (State.setStandby s a2) := by
  unfold State.setStandby
  refine Keeps.after State.enterStandby_keeps (by decide) ?_
  refine Keeps.after State.finish_keeps (by decide) ?_
  refine Keeps.after State.pwrResult_keeps (by decide) ?_
  exact Keeps.refl _ _

theorem State.setProof_keeps {s a2} : Keeps [.regs, .clk, .hif, .out] s (State.setProof s a2) := by
  unfold State.setProof
  extract_lets x1 x2
  have hx1 : Keeps [.regs, .clk, .hif, .out] s x1 := by
    unfold x1
    refine Keeps.after State.setBit_keeps (by decide) ?_
    refine Keeps.after State.begun_keeps (by decide) ?_
    exact Keeps.refl _ _
  refine Keeps.ite ?_ ?_
  · refine Keeps.after State.pwrRefuse_keeps (by decide) ?_
    exact Keeps.refl _ _
  · refine Keeps.ite ?_ ?_
    · refine Keeps.after State.pwrRefuse_keeps (by decide) ?_
      exact Keeps.refl _ _
    · refine Keeps.after State.setProofMask_keeps (by decide) ?_
      refine Keeps.set_clk (by decide) ?_
      exact hx1

theorem State.setPower_keeps {s a2} :
    Keeps [.regs, .clk, .sup, .hif, .cmp, .pwm, .ports, .mbm, .out] s (State.setPower s a2) := by
  unfold State.setPower
  extract_lets x1 x2
  refine Keeps.ite ?_ ?_
  · refine Keeps.after State.pwrRefuse_keeps (by decide) ?_
    exact Keeps.refl _ _
  · refine Keeps.ite ?_ ?_
    · refine Keeps.after State.setProof_keeps (by decide) ?_
      exact Keeps.refl _ _
    · refine Keeps.ite ?_ ?_
      · refine Keeps.after State.pwrRefuse_keeps (by decide) ?_
        exact Keeps.refl _ _
      · refine Keeps.ite ?_ ?_
        · refine Keeps.ite ?_ ?_
          · refine Keeps.after State.pwrRefuse_keeps (by decide) ?_
            exact Keeps.refl _ _
          · refine Keeps.ite ?_ ?_
            · refine Keeps.after State.setStandby_keeps (by decide) ?_
              exact Keeps.refl _ _
            · exact Keeps.refl _ _
        · refine Keeps.ite ?_ ?_
          · refine Keeps.ite ?_ ?_
            · refine Keeps.of_snd ?_
              refine PairKeeps.after State.powerCmd_keeps (by decide) ?_
              refine Keeps.after State.finish_keeps (by decide) ?_
              exact Keeps.refl _ _
            · exact Keeps.refl _ _
          · split
            refine Keeps.after State.finish_keeps (by decide) ?_
            refine Keeps.of_pair (by assumption) ?_
            refine PairKeeps.after State.powerCmd_keeps (by decide) ?_
            exact Keeps.refl _ _

theorem execSetpower_keeps {s} :
    Answers [.regs, .clk, .sup, .hif, .cmp, .pwm, .ports, .mbm, .out] s (execSetpower s) := by
  unfold execSetpower
  split
  · refine Answers.next ?_
    refine Keeps.after State.setPower_keeps (by decide) ?_
    exact Keeps.refl _ _
  · refine Answers.next ?_
    exact Keeps.refl _ _

theorem execDevreset_keeps {s} : Answers [.regs, .clk, .hif, .out] s (execDevreset s) := by
  unfold execDevreset
  split
  · extract_lets x1
    refine Answers.ite ?_ ?_
    · refine Answers.next ?_
      refine Keeps.after State.requestReset_keeps (by decide) ?_
      refine Keeps.set_hif (by decide) ?_
      exact Keeps.refl _ _
    · refine Answers.next ?_
      refine Keeps.after State.refuse_keeps (by decide) ?_
      exact Keeps.refl _ _
  · refine Answers.next ?_
    exact Keeps.refl _ _

theorem State.imgBad_keeps {s a2} : Keeps [.regs, .hif, .out] s (State.imgBad s a2) := by
  unfold State.imgBad
  refine Keeps.after State.finish_keeps (by decide) ?_
  exact Keeps.refl _ _

theorem execImgload_keeps {s} : Answers [.regs, .hif, .out] s (execImgload s) := by
  unfold execImgload
  split
  · extract_lets x1 x2
    refine Answers.ite ?_ ?_
    · refine Answers.next ?_
      refine Keeps.after State.refuse_keeps (by decide) ?_
      exact Keeps.refl _ _
    · refine Answers.next ?_
      refine Keeps.after State.startRead_keeps (by decide) ?_
      exact Keeps.refl _ _
  · refine Answers.next ?_
    exact Keeps.refl _ _

theorem State.imgNext_keeps {s a2} : Keeps [.hif, .out] s (State.imgNext s a2) := by
  unfold State.imgNext
  extract_lets x1
  refine Keeps.after State.startRead_keeps (by decide) ?_
  exact Keeps.refl _ _

theorem State.imgDecide_keeps {s a2} : Keeps [.regs, .hif, .out] s (State.imgDecide s a2) := by
  unfold State.imgDecide
  extract_lets x1 x2 x3 x4
  refine Keeps.ite ?_ ?_
  · refine Keeps.after State.imgBad_keeps (by decide) ?_
    exact Keeps.refl _ _
  · split
    extract_lets x5
    refine Keeps.ite ?_ ?_
    · refine Keeps.after State.finish_keeps (by decide) ?_
      exact Keeps.refl _ _
    · refine Keeps.ite ?_ ?_
      · refine Keeps.after State.finish_keeps (by decide) ?_
        exact Keeps.refl _ _
      · refine Keeps.ite ?_ ?_
        · refine Keeps.after State.finish_keeps (by decide) ?_
          exact Keeps.refl _ _
        · refine Keeps.after State.imgNext_keeps (by decide) ?_
          exact Keeps.refl _ _

theorem State.imgMark_keeps {s a2} : Keeps [.regs] s (State.imgMark s a2) := by
  unfold State.imgMark
  refine Keeps.ite ?_ ?_
  · refine Keeps.after State.setBit_keeps (by decide) ?_
    refine Keeps.after State.setBit_keeps (by decide) ?_
    exact Keeps.refl _ _
  · exact Keeps.refl _ _

theorem State.imgFail_keeps {s a2 a3} :
    Keeps [.regs, .mem, .ecc, .hif, .cores, .coh, .out, .free] s (State.imgFail s a2 a3) := by
  unfold State.imgFail
  extract_lets x1
  split
  refine Keeps.after State.finish_keeps (by decide) ?_
  refine Keeps.after State.loadWords_keeps (by decide) ?_
  refine Keeps.of_pair (by assumption) ?_
  refine PairKeeps.after State.drawWords_keeps (by decide) ?_
  exact Keeps.refl _ _

theorem State.imgDone_keeps {s a2} : Keeps [.regs, .boot, .hif, .cores, .out] s (State.imgDone s a2) := by
  unfold State.imgDone
  extract_lets x1 x2
  have hx2 : Keeps [.regs, .boot, .hif, .cores, .out] s x2 := by
    unfold x2
    refine Keeps.ite ?_ ?_
    · refine Keeps.after State.coreStart_keeps (by decide) ?_
      refine Keeps.after State.setFld_keeps (by decide) ?_
      exact Keeps.refl _ _
    · exact Keeps.refl _ _
  refine Keeps.after State.finish_keeps (by decide) ?_
  exact hx2

theorem State.imgSection_keeps {s a2 a3} :
    Keeps [.regs, .mem, .ecc, .boot, .hif, .cores, .coh, .out, .free] s (State.imgSection s a2 a3) := by
  unfold State.imgSection
  extract_lets x1 x2 x3 x4
  have hx2 : Keeps [.regs, .mem, .ecc, .boot, .hif, .cores, .coh, .out, .free] s x2 := by
    unfold x2
    refine Keeps.after State.loadWords_keeps (by decide) ?_
    exact Keeps.refl _ _
  have hx3 : Keeps [.regs, .mem, .ecc, .boot, .hif, .cores, .coh, .out, .free] s x3 := by
    unfold x3
    refine Keeps.ite ?_ ?_
    · refine Keeps.after State.codeLoaded_keeps (by decide) ?_
      exact hx2
    · exact hx2
  refine Keeps.ite ?_ ?_
  · refine Keeps.after State.imgFail_keeps (by decide) ?_
    exact Keeps.refl _ _
  · refine Keeps.ite ?_ ?_
    · refine Keeps.after State.imgNext_keeps (by decide) ?_
      exact hx3
    · refine Keeps.after State.imgDone_keeps (by decide) ?_
      refine Keeps.after State.setCmd_keeps (by decide) ?_
      exact hx3

theorem State.imgRead_keeps {s a2 a3} :
    Keeps [.regs, .mem, .ecc, .boot, .hif, .cores, .coh, .out, .free] s (State.imgRead s a2 a3) := by
  unfold State.imgRead
  extract_lets x1 x2 x3 x4 x5
  refine Keeps.ite ?_ ?_
  · refine Keeps.ite ?_ ?_
    · refine Keeps.after State.imgBad_keeps (by decide) ?_
      exact Keeps.refl _ _
    · refine Keeps.after State.startRead_keeps (by decide) ?_
      exact Keeps.refl _ _
  · refine Keeps.ite ?_ ?_
    · refine Keeps.ite ?_ ?_
      · refine Keeps.after State.imgBad_keeps (by decide) ?_
        exact Keeps.refl _ _
      · refine Keeps.ite ?_ ?_
        · refine Keeps.after State.imgDecide_keeps (by decide) ?_
          exact Keeps.refl _ _
        · refine Keeps.after State.startRead_keeps (by decide) ?_
          exact Keeps.refl _ _
    · refine Keeps.ite ?_ ?_
      · refine Keeps.after State.imgDecide_keeps (by decide) ?_
        exact Keeps.refl _ _
      · refine Keeps.after State.imgSection_keeps (by decide) ?_
        exact Keeps.refl _ _

theorem execPlateload_keeps {s} : Answers [.regs, .hif, .out] s (execPlateload s) := by
  unfold execPlateload
  split
  · extract_lets x1
    refine Answers.ite ?_ ?_
    · refine Answers.next ?_
      refine Keeps.after State.refuse_keeps (by decide) ?_
      exact Keeps.refl _ _
    · refine Answers.next ?_
      refine Keeps.after State.startRead_keeps (by decide) ?_
      exact Keeps.refl _ _
  · refine Answers.next ?_
    exact Keeps.refl _ _

theorem State.plateLoad_keeps {s a2 a3} : Keeps [.regs, .mem, .ecc, .hif, .out] s (State.plateLoad s a2 a3) := by
  unfold State.plateLoad
  extract_lets x1 x2 x3 x4 x5
  have hx3 : Keeps [.regs, .mem, .ecc, .hif, .out] s x3 := by
    unfold x3
    refine Keeps.after State.wrWords_keeps (by decide) ?_
    exact Keeps.refl _ _
  have hx4 : Keeps [.regs, .mem, .ecc, .hif, .out] s x4 := by
    unfold x4
    refine Keeps.set_ecc (by decide) (Tab.wf_tkeep _) ?_
    exact hx3
  have hx5 : Keeps [.regs, .mem, .ecc, .hif, .out] s x5 := by
    unfold x5
    refine Keeps.after State.ctxClear_keeps (by decide) ?_
    refine Keeps.of_snd ?_
    refine PairKeeps.after State.plateCheck_keeps (by decide) ?_
    exact hx4
  split
  · refine Keeps.after State.finish_keeps (by decide) ?_
    exact Keeps.refl _ _
  · refine Keeps.ite ?_ ?_
    · refine Keeps.after State.refuse_keeps (by decide) ?_
      exact Keeps.refl _ _
    · refine Keeps.after State.finish_keeps (by decide) ?_
      exact hx5

theorem execParamwrite_keeps {s} : Answers [.regs, .hif, .out] s (execParamwrite s) := by
  unfold execParamwrite
  split
  · extract_lets x1
    refine Answers.ite ?_ ?_
    · refine Answers.next ?_
      refine Keeps.after State.refuse_keeps (by decide) ?_
      exact Keeps.refl _ _
    · refine Answers.next ?_
      refine Keeps.after State.startRead_keeps (by decide) ?_
      exact Keeps.refl _ _
  · refine Answers.next ?_
    exact Keeps.refl _ _

theorem State.paramWrs_keeps {s a2 a3 a4} : Keeps [.regs, .ecc, .kle] s (State.paramWrs s a2 a3 a4) := by
  induction a4 generalizing s a2 a3
  · rw [State.paramWrs]
    exact Keeps.refl _ _
  · rename_i y ih
    rw [State.paramWrs]
    refine Keeps.after ih (fun _ k => k) ?_
    refine Keeps.after State.paramWr_keeps (by decide) ?_
    exact Keeps.refl _ _

theorem State.paramLoad_keeps {s a2 a3} : Keeps [.regs, .ecc, .hif, .kle, .out] s (State.paramLoad s a2 a3) := by
  unfold State.paramLoad
  extract_lets x1
  have hx1 : Keeps [.regs, .ecc, .hif, .kle, .out] s x1 := by
    unfold x1
    refine Keeps.after State.paramWrs_keeps (by decide) ?_
    exact Keeps.refl _ _
  refine Keeps.ite ?_ ?_
  · refine Keeps.after State.setCmd_keeps (by decide) ?_
    exact hx1
  · refine Keeps.after State.finish_keeps (by decide) ?_
    exact hx1

theorem execParamwriteWaitTimeout_keeps {s} : Answers [.regs, .hif, .out] s (execParamwriteWaitTimeout s) := by
  unfold execParamwriteWaitTimeout
  split
  · refine Answers.next ?_
    refine Keeps.ite ?_ ?_
    · refine Keeps.after State.refuse_keeps (by decide) ?_
      exact Keeps.refl _ _
    · exact Keeps.refl _ _
  · refine Answers.next ?_
    exact Keeps.refl _ _

theorem execSetpoint_keeps {s} : Answers [.regs, .ecc, .hif, .kle, .out] s (execSetpoint s) := by
  unfold execSetpoint
  split
  · extract_lets x1 x2 x3
    refine Answers.ite ?_ ?_
    · refine Answers.next ?_
      refine Keeps.after State.refuse_keeps (by decide) ?_
      exact Keeps.refl _ _
    · refine Answers.ite ?_ ?_
      · refine Answers.next ?_
        refine Keeps.after State.refuse_keeps (by decide) ?_
        exact Keeps.refl _ _
      · refine Answers.next ?_
        refine Keeps.after State.finish_keeps (by decide) ?_
        refine Keeps.after State.paramWr_keeps (by decide) ?_
        exact Keeps.refl _ _
  · refine Answers.next ?_
    exact Keeps.refl _ _

theorem execSloten_keeps {s} :
    Answers [.regs, .mem, .ecc, .hif, .pool, .cmp, .pwm, .kle, .out, .free] s (execSloten s) := by
  unfold execSloten
  split
  · extract_lets x1 x2
    refine Answers.ite ?_ ?_
    · refine Answers.next ?_
      refine Keeps.after State.refuse_keeps (by decide) ?_
      exact Keeps.refl _ _
    · refine Answers.ite ?_ ?_
      · refine Answers.ite ?_ ?_
        · refine Answers.next ?_
          refine Keeps.after State.refuse_keeps (by decide) ?_
          exact Keeps.refl _ _
        · refine Answers.ite ?_ ?_
          · refine Answers.next ?_
            refine Keeps.after State.refuse_keeps (by decide) ?_
            exact Keeps.refl _ _
          · refine Answers.ite ?_ ?_
            · refine Answers.next ?_
              refine Keeps.after State.refuse_keeps (by decide) ?_
              exact Keeps.refl _ _
            · refine Answers.next ?_
              refine Keeps.after State.finish_keeps (by decide) ?_
              refine Keeps.after State.slotArm_keeps (by decide) ?_
              exact Keeps.refl _ _
      · refine Answers.next ?_
        refine Keeps.after State.finish_keeps (by decide) ?_
        refine Keeps.ite ?_ ?_
        · refine Keeps.after State.slotStop_keeps (by decide) ?_
          refine Keeps.after State.toBoundary_keeps (by decide) ?_
          exact Keeps.refl _ _
        · exact Keeps.refl _ _
  · refine Answers.next ?_
    exact Keeps.refl _ _

theorem execSlotreset_keeps {s} : Answers [.regs, .ecc, .hif, .cmp, .pwm, .kle, .out] s (execSlotreset s) := by
  unfold execSlotreset
  split
  · extract_lets x1 x2
    have hx2 : Keeps [.regs, .ecc, .hif, .cmp, .pwm, .kle, .out] s x2 := by
      unfold x2
      refine Keeps.after State.slotReset_keeps (by decide) ?_
      refine Keeps.after State.begun_keeps (by decide) ?_
      exact Keeps.refl _ _
    refine Answers.ite ?_ ?_
    · refine Answers.next ?_
      refine Keeps.after State.refuse_keeps (by decide) ?_
      exact Keeps.refl _ _
    · refine Answers.next ?_
      refine Keeps.ite ?_ ?_
      · exact hx2
      · refine Keeps.after State.finish_keeps (by decide) ?_
        exact hx2
  · refine Answers.next ?_
    exact Keeps.refl _ _

theorem execInject_keeps {s} : Answers [.regs, .hif, .kle, .out] s (execInject s) := by
  unfold execInject
  split
  · extract_lets x1 x2 x3 x4 x5 x6 x7
    have hx5 : Keeps [.regs, .hif, .kle, .out] s x5 := by
      unfold x5
      refine Keeps.after State.begun_keeps (by decide) ?_
      exact Keeps.refl _ _
    have hx6 : Keeps [.regs, .hif, .kle, .out] s x6 := by
      unfold x6
      refine Keeps.after State.wr_keeps (by decide) ?_
      refine Keeps.after State.wr_keeps (by decide) ?_
      exact hx5
    refine Answers.ite ?_ ?_
    · refine Answers.next ?_
      refine Keeps.after State.refuse_keeps (by decide) ?_
      exact Keeps.refl _ _
    · refine Answers.ite ?_ ?_
      · refine Answers.next ?_
        refine Keeps.after State.refuse_keeps (by decide) ?_
        exact Keeps.refl _ _
      · refine Answers.ite ?_ ?_
        · refine Answers.next ?_
          refine Keeps.after State.refuse_keeps (by decide) ?_
          exact Keeps.refl _ _
        · refine Answers.ite ?_ ?_
          · refine Answers.next ?_
            refine Keeps.after State.refuse_keeps (by decide) ?_
            exact Keeps.refl _ _
          · refine Answers.next ?_
            refine Keeps.after State.setKs_keeps (by decide) ?_
            exact hx6
  · refine Answers.next ?_
    exact Keeps.refl _ _

theorem execInjectTimeout_keeps {s} : Answers [.regs, .hif, .kle, .out] s (execInjectTimeout s) := by
  unfold execInjectTimeout
  split
  · extract_lets x1 x2
    refine Answers.ite ?_ ?_
    · refine Answers.next ?_
      refine Keeps.after State.refuse_keeps (by decide) ?_
      refine Keeps.after State.setKs_keeps (by decide) ?_
      refine Keeps.after State.setBit_keeps (by decide) ?_
      exact Keeps.refl _ _
    · refine Answers.next ?_
      exact Keeps.refl _ _
  · refine Answers.next ?_
    exact Keeps.refl _ _

theorem execMusterload_keeps {s} : Answers [.regs, .hif, .out] s (execMusterload s) := by
  unfold execMusterload
  split
  · extract_lets x1
    refine Answers.ite ?_ ?_
    · refine Answers.next ?_
      refine Keeps.after State.refuse_keeps (by decide) ?_
      exact Keeps.refl _ _
    · refine Answers.ite ?_ ?_
      · refine Answers.next ?_
        refine Keeps.after State.finish_keeps (by decide) ?_
        exact Keeps.refl _ _
      · refine Answers.next ?_
        refine Keeps.after State.startRead_keeps (by decide) ?_
        exact Keeps.refl _ _
  · refine Answers.next ?_
    exact Keeps.refl _ _

theorem State.musterLoad_keeps {s a2 a3} : Keeps [.regs, .hif, .mbm, .out] s (State.musterLoad s a2 a3) := by
  unfold State.musterLoad
  extract_lets x1 x2
  have hx2 : Keeps [.regs, .hif, .mbm, .out] s x2 := by
    unfold x2
    refine Keeps.after State.listLoad_keeps (by decide) ?_
    exact Keeps.refl _ _
  split
  · refine Keeps.after State.finish_keeps (by decide) ?_
    exact Keeps.refl _ _
  · refine Keeps.ite ?_ ?_
    · refine Keeps.after State.refuse_keeps (by decide) ?_
      exact Keeps.refl _ _
    · refine Keeps.after State.finish_keeps (by decide) ?_
      exact hx2

theorem execMusterstart_keeps {s} : Answers [.regs, .hif, .mbm, .out] s (execMusterstart s) := by
  unfold execMusterstart
  split
  · extract_lets x1 x2 x3 x4 x5 x6
    have hx6 : Keeps [.regs, .hif, .mbm, .out] s x6 := by
      unfold x6
      refine Keeps.after State.listStart_keeps (by decide) ?_
      exact Keeps.refl _ _
    refine Answers.ite ?_ ?_
    · refine Answers.next ?_
      refine Keeps.after State.refuse_keeps (by decide) ?_
      exact Keeps.refl _ _
    · refine Answers.ite ?_ ?_
      · refine Answers.next ?_
        refine Keeps.after State.refuse_keeps (by decide) ?_
        exact Keeps.refl _ _
      · refine Answers.ite ?_ ?_
        · refine Answers.next ?_
          refine Keeps.after State.refuse_keeps (by decide) ?_
          exact Keeps.refl _ _
        · refine Answers.ite ?_ ?_
          · refine Answers.next ?_
            refine Keeps.after State.refuse_keeps (by decide) ?_
            exact Keeps.refl _ _
          · refine Answers.next ?_
            refine Keeps.after State.finish_keeps (by decide) ?_
            exact hx6
  · refine Answers.next ?_
    exact Keeps.refl _ _

theorem execMusterstop_keeps {s} : Answers [.regs, .hif, .ports, .mbm, .out] s (execMusterstop s) := by
  unfold execMusterstop
  split
  · extract_lets x1 x2 x3 x4
    have hx2 : Keeps [.regs, .hif, .ports, .mbm, .out] s x2 := by
      unfold x2
      refine Keeps.after State.begun_keeps (by decide) ?_
      exact Keeps.refl _ _
    have hx4 : Keeps [.regs, .hif, .ports, .mbm, .out] s x4 := by
      unfold x4
      refine Keeps.after State.aheadsDrop_keeps (by decide) ?_
      refine Keeps.after State.setMl_keeps (by decide) ?_
      exact hx2
    refine Answers.ite ?_ ?_
    · refine Answers.next ?_
      refine Keeps.after State.refuse_keeps (by decide) ?_
      exact Keeps.refl _ _
    · refine Answers.ite ?_ ?_
      · refine Answers.next ?_
        refine Keeps.after State.refuse_keeps (by decide) ?_
        exact Keeps.refl _ _
      · refine Answers.ite ?_ ?_
        · refine Answers.next ?_
          refine Keeps.after State.refuse_keeps (by decide) ?_
          exact Keeps.refl _ _
        · refine Answers.ite ?_ ?_
          · refine Answers.next ?_
            refine Keeps.after State.stopDone_keeps (by decide) ?_
            refine Keeps.after State.aheadsDrop_keeps (by decide) ?_
            refine Keeps.after State.musterCancel_keeps (by decide) ?_
            exact hx2
          · refine Answers.next ?_
            refine Keeps.after State.stopCheck_keeps (by decide) ?_
            exact hx4
  · refine Answers.next ?_
    exact Keeps.refl _ _

theorem execMusterstopTimeout_keeps {s} : Answers [.regs, .hif, .ports, .mbm, .out] s (execMusterstopTimeout s) := by
  unfold execMusterstopTimeout
  split
  · extract_lets x1
    refine Answers.next ?_
    refine Keeps.after State.stopDone_keeps (by decide) ?_
    refine Keeps.after State.aheadsDrop_keeps (by decide) ?_
    refine Keeps.after State.musterCancel_keeps (by decide) ?_
    exact Keeps.refl _ _
  · refine Answers.next ?_
    exact Keeps.refl _ _

theorem execMusternow_keeps {s} : Answers [.regs, .mem, .ecc, .hif, .cores, .coh, .mbm, .out] s (execMusternow s) := by
  unfold execMusternow
  split
  · extract_lets x1 x2
    have hx2 : Keeps [.regs, .mem, .ecc, .hif, .cores, .coh, .mbm, .out] s x2 := by
      unfold x2
      refine Keeps.ite ?_ ?_
      · exact Keeps.refl _ _
      · refine Keeps.after State.musterStart_keeps (by decide) ?_
        exact Keeps.refl _ _
    refine Answers.ite ?_ ?_
    · refine Answers.next ?_
      refine Keeps.after State.refuse_keeps (by decide) ?_
      exact Keeps.refl _ _
    · refine Answers.ite ?_ ?_
      · refine Answers.next ?_
        refine Keeps.after State.refuse_keeps (by decide) ?_
        exact Keeps.refl _ _
      · refine Answers.ite ?_ ?_
        · refine Answers.next ?_
          refine Keeps.after State.refuse_keeps (by decide) ?_
          exact Keeps.refl _ _
        · refine Answers.next ?_
          refine Keeps.after State.finish_keeps (by decide) ?_
          exact hx2
  · refine Answers.next ?_
    exact Keeps.refl _ _

theorem State.entAdmit_keeps {s a2 a3} : Keeps [.regs] s (State.entAdmit s a2 a3) := by
  unfold State.entAdmit
  extract_lets x1
  refine Keeps.after State.setFld_keeps (by decide) ?_
  refine Keeps.after State.setBit_keeps (by decide) ?_
  refine Keeps.after State.setFld_keeps (by decide) ?_
  exact Keeps.refl _ _

theorem State.entPenHost_keeps {s a2 a3} :
    Keeps [.regs, .mem, .ecc, .hif, .cores, .coh, .ports, .mbm, .out] s (State.entPenHost s a2 a3) := by
  unfold State.entPenHost
  extract_lets x1 x2
  have hx1 : Keeps [.regs, .mem, .ecc, .hif, .cores, .coh, .ports, .mbm, .out] s x1 := by
    unfold x1
    refine Keeps.after State.entPen_keeps (by decide) ?_
    exact Keeps.refl _ _
  refine Keeps.ite ?_ ?_
  · refine Keeps.after State.aheadDrop_keeps (by decide) ?_
    exact hx1
  · refine Keeps.ite ?_ ?_
    · refine Keeps.after State.entFinish_keeps (by decide) ?_
      exact hx1
    · exact hx1

theorem State.objAdmit_keeps {s a2} :
    Keeps [.regs, .mem, .ecc, .hif, .cores, .coh, .ports, .se, .mbm, .pp, .out] s (State.objAdmit s a2) := by
  unfold State.objAdmit
  split
  · refine Keeps.after State.slotAdmit_keeps (by decide) ?_
    exact Keeps.refl _ _
  · refine Keeps.after State.portAdmit_keeps (by decide) ?_
    exact Keeps.refl _ _
  · refine Keeps.after State.entAdmit_keeps (by decide) ?_
    exact Keeps.refl _ _
  · refine Keeps.after State.ppAdmit_keeps (by decide) ?_
    exact Keeps.refl _ _

theorem State.objPen_keeps {s a2} :
    Keeps [.regs, .mem, .ecc, .hif, .cores, .coh, .pool, .cmp, .pwm, .kle, .ports, .se, .mbm, .pp, .out, .free]
      s (State.objPen s a2) := by
  unfold State.objPen
  split
  · refine Keeps.after State.slotPen_keeps (by decide) ?_
    refine Keeps.after State.toBoundary_keeps (by decide) ?_
    exact Keeps.refl _ _
  · refine Keeps.after State.portPen_keeps (by decide) ?_
    exact Keeps.refl _ _
  · refine Keeps.after State.entPenHost_keeps (by decide) ?_
    exact Keeps.refl _ _
  · refine Keeps.after State.ppPen_keeps (by decide) ?_
    exact Keeps.refl _ _

theorem execAdmitObject_keeps {s} :
    Answers [.regs, .mem, .ecc, .hif, .cores, .coh, .ports, .se, .mbm, .pp, .out] s (execAdmitObject s) := by
  unfold execAdmitObject
  split
  · split
    · refine Answers.next ?_
      refine Keeps.after State.refuse_keeps (by decide) ?_
      exact Keeps.refl _ _
    · refine Answers.ite ?_ ?_
      · refine Answers.next ?_
        refine Keeps.after State.refuse_keeps (by decide) ?_
        exact Keeps.refl _ _
      · refine Answers.ite ?_ ?_
        · refine Answers.next ?_
          refine Keeps.after State.refuse_keeps (by decide) ?_
          exact Keeps.refl _ _
        · refine Answers.next ?_
          refine Keeps.after State.finish_keeps (by decide) ?_
          refine Keeps.after State.objAdmit_keeps (by decide) ?_
          exact Keeps.refl _ _
  · refine Answers.next ?_
    exact Keeps.refl _ _

theorem execPen_keeps {s} :
    Answers [.regs, .mem, .ecc, .hif, .cores, .coh, .pool, .cmp, .pwm, .kle, .ports, .se, .mbm, .pp, .out, .free]
      s (execPen s) := by
  unfold execPen
  split
  · split
    · refine Answers.next ?_
      refine Keeps.after State.refuse_keeps (by decide) ?_
      exact Keeps.refl _ _
    · refine Answers.ite ?_ ?_
      · refine Answers.next ?_
        refine Keeps.after State.refuse_keeps (by decide) ?_
        exact Keeps.refl _ _
      · refine Answers.next ?_
        refine Keeps.after State.finish_keeps (by decide) ?_
        refine Keeps.ite ?_ ?_
        · exact Keeps.refl _ _
        · refine Keeps.after State.objPen_keeps (by decide) ?_
          exact Keeps.refl _ _
  · refine Answers.next ?_
    exact Keeps.refl _ _

theorem execPortproof_keeps {s} : Answers [.regs, .hif, .ports, .se, .out] s (execPortproof s) := by
  unfold execPortproof
  split
  · extract_lets x1 x2 x3
    have hx3 : Keeps [.regs, .hif, .ports, .se, .out] s x3 := by
      unfold x3
      refine Keeps.after State.setCmd_keeps (by decide) ?_
      exact Keeps.refl _ _
    refine Answers.ite ?_ ?_
    · refine Answers.next ?_
      refine Keeps.after State.refuse_keeps (by decide) ?_
      exact Keeps.refl _ _
    · refine Answers.ite ?_ ?_
      · refine Answers.next ?_
        refine Keeps.after State.refuse_keeps (by decide) ?_
        exact Keeps.refl _ _
      · refine Answers.next ?_
        refine Keeps.ite ?_ ?_
        · exact hx3
        · refine Keeps.after State.portProofStart_keeps (by decide) ?_
          exact hx3
  · refine Answers.next ?_
    exact Keeps.refl _ _

theorem State.proofFree_keeps {s a2} : Keeps [.regs, .ports, .se, .pp] s (State.proofFree s a2) := by
  unfold State.proofFree
  extract_lets x1 x2
  have hx1 : Keeps [.regs, .ports, .se, .pp] s x1 := by
    unfold x1
    refine Keeps.ite ?_ ?_
    · refine Keeps.after State.portFree_keeps (by decide) ?_
      exact Keeps.refl _ _
    · exact Keeps.refl _ _
  have hx2 : Keeps [.regs, .ports, .se, .pp] s x2 := by
    unfold x2
    refine Keeps.ite ?_ ?_
    · refine Keeps.after State.seUnhold_keeps (by decide) ?_
      exact hx1
    · exact hx1
  refine Keeps.forN ?_ ?_
  · exact hx2
  · intro y3 y4 y5
    refine Keeps.ite ?_ ?_
    · refine Keeps.after State.identStart_keeps (by decide) ?_
      exact y5
    · exact y5

theorem execPortProofDone_keeps {a1 s} : Answers [.regs, .hif, .ports, .se, .pp, .out] s (execPortProofDone a1 s) := by
  unfold execPortProofDone
  split
  · extract_lets x1 x2
    refine Answers.ite ?_ ?_
    · refine Answers.next ?_
      exact Keeps.refl _ _
    · refine Answers.next ?_
      refine Keeps.after State.finish_keeps (by decide) ?_
      refine Keeps.after State.proofFree_keeps (by decide) ?_
      exact Keeps.refl _ _
  · refine Answers.next ?_
    exact Keeps.refl _ _

theorem execPortproofTimeout_keeps {s} : Answers [.regs, .hif, .ports, .se, .pp, .out] s (execPortproofTimeout s) := by
  unfold execPortproofTimeout
  split
  · refine Answers.next ?_
    refine Keeps.after State.refuse_keeps (by decide) ?_
    refine Keeps.after State.proofFree_keeps (by decide) ?_
    exact Keeps.refl _ _
  · refine Answers.next ?_
    exact Keeps.refl _ _

theorem execAdccal_keeps {s} : Answers [.regs, .hif, .adc, .out] s (execAdccal s) := by
  unfold execAdccal
  split
  · extract_lets x1 x2
    have hx2 : Keeps [.regs, .hif, .adc, .out] s x2 := by
      unfold x2
      refine Keeps.after State.begun_keeps (by decide) ?_
      exact Keeps.refl _ _
    refine Answers.ite ?_ ?_
    · refine Answers.next ?_
      refine Keeps.after State.refuse_keeps (by decide) ?_
      exact Keeps.refl _ _
    · refine Answers.ite ?_ ?_
      · refine Answers.next ?_
        refine Keeps.after State.refuse_keeps (by decide) ?_
        exact Keeps.refl _ _
      · refine Answers.next ?_
        refine Keeps.forN ?_ ?_
        · exact hx2
        · intro y3 y4 y5
          extract_lets x6
          refine Keeps.ite ?_ ?_
          · refine Keeps.after State.setBit_keeps (by decide) ?_
            refine Keeps.after State.setAd_keeps (by decide) ?_
            exact y5
          · exact y5
  · refine Answers.next ?_
    exact Keeps.refl _ _

theorem execMemproof_keeps {s} : Answers [.regs, .hif, .out] s (execMemproof s) := by
  unfold execMemproof
  split
  · extract_lets x1
    have hx1 : Keeps [.regs, .hif, .out] s x1 := by
      unfold x1
      refine Keeps.after State.begun_keeps (by decide) ?_
      exact Keeps.refl _ _
    refine Answers.ite ?_ ?_
    · refine Answers.next ?_
      refine Keeps.after State.refuse_keeps (by decide) ?_
      exact Keeps.refl _ _
    · refine Answers.ite ?_ ?_
      · refine Answers.next ?_
        refine Keeps.after State.refuse_keeps (by decide) ?_
        exact Keeps.refl _ _
      · refine Answers.next ?_
        refine Keeps.after State.setProofMask_keeps (by decide) ?_
        exact hx1
  · refine Answers.next ?_
    exact Keeps.refl _ _

theorem State.memZero_keeps {s a2} : Keeps [.regs, .mem, .ecc, .pool] s (State.memZero s a2) := by
  unfold State.memZero
  extract_lets x1 x2
  have hx1 : Keeps [.regs, .mem, .ecc, .pool] s x1 := by
    unfold x1
    refine Keeps.ite ?_ ?_
    · refine Keeps.after State.zeroRange_keeps (by decide) ?_
      exact Keeps.refl _ _
    · exact Keeps.refl _ _
  have hx2 : Keeps [.regs, .mem, .ecc, .pool] s x2 := by
    unfold x2
    refine Keeps.ite ?_ ?_
    · refine Keeps.after State.poolProved_keeps (by decide) ?_
      exact hx1
    · exact hx1
  refine Keeps.ite ?_ ?_
  · refine Keeps.forN ?_ ?_
    · refine Keeps.after State.zeroRange_keeps (by decide) ?_
      exact hx2
    · intro y3 y4 y5
      refine Keeps.ite ?_ ?_
      · exact y5
      · refine Keeps.after State.setBit_keeps (by decide) ?_
        exact y5
  · exact hx2

theorem execMemproofDone_keeps {a1 a2 s} :
    Answers [.regs, .mem, .ecc, .clk, .hif, .pool, .cmp, .pwm, .ports, .mbm, .out] s (execMemproofDone a1 a2 s) := by
  unfold execMemproofDone
  split
  · refine Answers.next ?_
    exact Keeps.refl _ _
  · extract_lets x1 x2 x3 x4 x5 x6
    have hx2 : Keeps [.regs, .mem, .ecc, .clk, .hif, .pool, .cmp, .pwm, .ports, .mbm, .out] s x2 := by
      unfold x2
      refine Keeps.after State.memZero_keeps (by decide) ?_
      exact Keeps.refl _ _
    have hx3 : Keeps [.regs, .mem, .ecc, .clk, .hif, .pool, .cmp, .pwm, .ports, .mbm, .out] s x3 := by
      unfold x3
      refine Keeps.after State.setProofMask_keeps (by decide) ?_
      exact hx2
    have hx6 : Keeps [.regs, .mem, .ecc, .clk, .hif, .pool, .cmp, .pwm, .ports, .mbm, .out] s x6 := by
      unfold x6
      refine Keeps.after State.setBit_keeps (by decide) ?_
      refine Keeps.set_clk (by decide) ?_
      exact hx3
    refine Answers.ite ?_ ?_
    · refine Answers.next ?_
      exact Keeps.refl _ _
    · refine Answers.ite ?_ ?_
      · refine Answers.next ?_
        refine Keeps.after State.setStandby_keeps (by decide) ?_
        exact hx6
      · refine Answers.next ?_
        refine Keeps.after State.finish_keeps (by decide) ?_
        exact hx3

theorem execDmareserve_keeps {s} : Answers [.regs, .hif, .dma, .out] s (execDmareserve s) := by
  unfold execDmareserve
  split
  · extract_lets x1 x2 x3 x4 x5
    have hx4 : Keeps [.regs, .hif, .dma, .out] s x4 := by
      unfold x4
      refine Keeps.after State.setCh_keeps (by decide) ?_
      exact Keeps.refl _ _
    have hx5 : Keeps [.regs, .hif, .dma, .out] s x5 := by
      unfold x5
      refine Keeps.after State.setFld_keeps (by decide) ?_
      refine Keeps.after State.wr_keeps (by decide) ?_
      exact hx4
    refine Answers.ite ?_ ?_
    · refine Answers.next ?_
      refine Keeps.after State.refuse_keeps (by decide) ?_
      exact Keeps.refl _ _
    · refine Answers.ite ?_ ?_
      · refine Answers.next ?_
        refine Keeps.after State.refuse_keeps (by decide) ?_
        exact Keeps.refl _ _
      · refine Answers.ite ?_ ?_
        · refine Answers.next ?_
          refine Keeps.after State.refuse_keeps (by decide) ?_
          exact Keeps.refl _ _
        · refine Answers.next ?_
          refine Keeps.after State.finish_keeps (by decide) ?_
          exact hx5
  · refine Answers.next ?_
    exact Keeps.refl _ _

theorem State.cmdData_keeps {s a2 a3} :
    Keeps [.regs, .mem, .ecc, .boot, .hif, .cores, .coh, .kle, .mbm, .out, .free] s (State.cmdData s a2 a3) := by
  unfold State.cmdData
  extract_lets x1 x2
  have hx2 : Keeps [.regs, .mem, .ecc, .boot, .hif, .cores, .coh, .kle, .mbm, .out, .free] s x2 := by
    unfold x2
    refine Keeps.after State.setCmd_keeps (by decide) ?_
    exact Keeps.refl _ _
  split
  · refine Keeps.after State.imgRead_keeps (by decide) ?_
    exact hx2
  · refine Keeps.after State.plateLoad_keeps (by decide) ?_
    exact hx2
  · refine Keeps.after State.paramLoad_keeps (by decide) ?_
    exact hx2
  · refine Keeps.after State.musterLoad_keeps (by decide) ?_
    exact hx2

theorem State.cmdDmaError_keeps {s a2} :
    Keeps [.regs, .mem, .ecc, .hif, .cores, .coh, .out, .free] s (State.cmdDmaError s a2) := by
  unfold State.cmdDmaError
  refine Keeps.ite ?_ ?_
  · refine Keeps.ite ?_ ?_
    · refine Keeps.after State.finish_keeps (by decide) ?_
      exact Keeps.refl _ _
    · refine Keeps.after State.imgFail_keeps (by decide) ?_
      exact Keeps.refl _ _
  · refine Keeps.after State.refuse_keeps (by decide) ?_
    exact Keeps.refl _ _

theorem execCommandHostRead_keeps {a1 s} :
    Answers [.regs, .mem, .ecc, .boot, .hif, .cores, .coh, .kle, .mbm, .out, .free] s (execCommandHostRead a1 s) := by
  unfold execCommandHostRead
  split
  · refine Answers.next ?_
    exact Keeps.refl _ _
  · refine Answers.ite ?_ ?_
    · refine Answers.next ?_
      exact Keeps.refl _ _
    · refine Answers.ite ?_ ?_
      · refine Answers.next ?_
        refine Keeps.after State.cmdDmaError_keeps (by decide) ?_
        exact Keeps.refl _ _
      · split
        · extract_lets x1 x2
          have hx1 : Keeps [.regs, .mem, .ecc, .boot, .hif, .cores, .coh, .kle, .mbm, .out, .free] s x1 := by
            unfold x1
            refine Keeps.after State.imgMark_keeps (by decide) ?_
            refine Keeps.ite ?_ ?_
            · refine Keeps.after State.tally_keeps (by decide) ?_
              exact Keeps.refl _ _
            · exact Keeps.refl _ _
          refine Answers.ite ?_ ?_
          · refine Answers.ite ?_ ?_
            · refine Answers.next ?_
              refine Keeps.after State.cmdIssue_keeps (by decide) ?_
              refine Keeps.after State.setCmd_keeps (by decide) ?_
              exact hx1
            · refine Answers.next ?_
              refine Keeps.after State.cmdData_keeps (by decide) ?_
              exact hx1
          · refine Answers.next ?_
            exact Keeps.refl _ _
        · refine Answers.ite ?_ ?_
          · refine Answers.next ?_
            refine Keeps.after State.cmdDmaError_keeps (by decide) ?_
            exact Keeps.refl _ _
          · refine Answers.next ?_
            refine Keeps.after State.cmdIssue_keeps (by decide) ?_
            refine Keeps.after State.setCmd_keeps (by decide) ?_
            exact Keeps.refl _ _

end Sys2Proof.Machine
end

