-- ==== Sys2Proof/Laws/TsuvoMem.lean ====
section
/-!
SUPPORT. Frames of Machine/TsuvoMem.lean: which parts of the state each of its operations and commands may change.
-/
namespace Sys2Proof.Machine

theorem State.storeFailed_keeps {s a2 a3} : Keeps [.regs, .cores] s (State.storeFailed s a2 a3) := by
  unfold State.storeFailed
  extract_lets x1 x2
  have hx1 : Keeps [.regs, .cores] s x1 := by
    unfold x1
    refine Keeps.after State.tally_keeps (by decide) ?_
    exact Keeps.refl _ _
  split
  · refine Keeps.after State.setBit_keeps (by decide) ?_
    exact hx1
  · refine Keeps.after State.wr_keeps (by decide) ?_
    refine Keeps.after State.setCore_keeps (by decide) ?_
    exact hx1

theorem State.lineStore_keeps {s a2 a3} :
    PairKeeps [.regs, .mem, .ecc, .hif, .cores, .coh, .out] s (State.lineStore s a2 a3) := by
  unfold State.lineStore
  extract_lets x1 x2 x3 x4 x5
  have hx2 : Keeps [.regs, .mem, .ecc, .hif, .cores, .coh, .out] s x2 := by
    unfold x2
    refine Keeps.after State.ownLine_keeps (by decide) ?_
    exact Keeps.refl _ _
  refine PairKeeps.ite ?_ ?_
  · refine PairKeeps.mk ?_
    exact hx2
  · refine PairKeeps.mk ?_
    refine Keeps.after State.setLine_keeps (by decide) ?_
    exact hx2

theorem State.storeNow_keeps {s a2 a3} :
    PairKeeps [.regs, .mem, .ecc, .clk, .sup, .boot, .hif, .cores, .coh, .dma, .pool, .adc, .sd, .cmp, .pwm, .diag, .cap, .qd, .kle, .ports, .se, .mbm, .pp, .out, .free]
      s (State.storeNow s a2 a3) := by
  unfold State.storeNow
  refine PairKeeps.ite ?_ ?_
  · split
    refine PairKeeps.mk ?_
    refine Keeps.of_pair (by assumption) ?_
    refine PairKeeps.after State.lineStore_keeps (by decide) ?_
    exact Keeps.refl _ _
  · refine PairKeeps.after State.busWrite_keeps (by decide) ?_
    exact Keeps.refl _ _

theorem State.drainEnt_keeps {s a2 a3} :
    Keeps [.regs, .mem, .ecc, .clk, .sup, .boot, .hif, .cores, .coh, .dma, .pool, .adc, .sd, .cmp, .pwm, .diag, .cap, .qd, .kle, .ports, .se, .mbm, .pp, .out, .free]
      s (State.drainEnt s a2 a3) := by
  unfold State.drainEnt
  split
  · split
    refine Keeps.ite ?_ ?_
    · refine Keeps.of_pair (by assumption) ?_
      refine PairKeeps.after State.storeNow_keeps (by decide) ?_
      exact Keeps.refl _ _
    · refine Keeps.after State.storeFailed_keeps (by decide) ?_
      refine Keeps.of_pair (by assumption) ?_
      refine PairKeeps.after State.storeNow_keeps (by decide) ?_
      exact Keeps.refl _ _
  · refine Keeps.after State.enterFifo_keeps (by decide) ?_
    exact Keeps.refl _ _

theorem State.drainOne_keeps {s a2} :
    Keeps [.regs, .mem, .ecc, .clk, .sup, .boot, .hif, .cores, .coh, .dma, .pool, .adc, .sd, .cmp, .pwm, .diag, .cap, .qd, .kle, .ports, .se, .mbm, .pp, .out, .free]
      s (State.drainOne s a2) := by
  unfold State.drainOne
  split
  · exact Keeps.refl _ _
  · extract_lets x1
    refine Keeps.after State.drainEnt_keeps (by decide) ?_
    refine Keeps.after State.setCore_keeps (by decide) ?_
    exact Keeps.refl _ _

theorem State.drainAll_keeps {s a2} :
    Keeps [.regs, .mem, .ecc, .clk, .sup, .boot, .hif, .cores, .coh, .dma, .pool, .adc, .sd, .cmp, .pwm, .diag, .cap, .qd, .kle, .ports, .se, .mbm, .pp, .out, .free]
      s (State.drainAll s a2) := by
  unfold State.drainAll
  refine Keeps.after State.drainOne_keeps (by decide) ?_
  refine Keeps.after State.drainOne_keeps (by decide) ?_
  refine Keeps.after State.drainOne_keeps (by decide) ?_
  refine Keeps.after State.drainOne_keeps (by decide) ?_
  exact Keeps.refl _ _

theorem State.age_keeps {s a2 a3} : Keeps [.cores] s (State.age s a2 a3) := by
  unfold State.age
  refine Keeps.after State.setCore_keeps (by decide) ?_
  exact Keeps.refl _ _

theorem State.spillE_keeps {s a2 a3} : ResKeeps [.regs, .mem, .cores] s (State.spillE s a2 a3) := by
  unfold State.spillE
  extract_lets x1 x2 x3 x4 x5
  have hx4 : Keeps [.regs, .mem, .cores] s x4 := by
    unfold x4
    refine Keeps.after State.wrBytes_keeps (by decide) ?_
    exact Keeps.refl _ _
  have hx5 : Keeps [.regs, .mem, .cores] s x5 := by
    unfold x5
    refine Keeps.after State.setFld_keeps (by decide) ?_
    refine Keeps.after State.setCore_keeps (by decide) ?_
    exact hx4
  refine ResKeeps.ite ?_ ?_
  · refine ResKeeps.exc ?_
    exact Keeps.refl _ _
  · refine ResKeeps.ok ?_
    refine Keeps.after State.age_keeps (by decide) ?_
    exact hx5

theorem State.walk_keeps {s a2 a3 a4 a5 a6} :
    PairKeeps [.regs, .mem, .ecc, .hif, .cores, .coh, .out] s (State.walk s a2 a3 a4 a5 a6) := by
  unfold State.walk
  extract_lets x1
  refine PairKeeps.ite ?_ ?_
  · refine PairKeeps.mk ?_
    exact Keeps.refl _ _
  · split
    split
    · refine PairKeeps.mk ?_
      refine Keeps.of_pair (by assumption) ?_
      refine PairKeeps.after State.coRd_keeps (by decide) ?_
      exact Keeps.refl _ _
    · extract_lets x2
      refine PairKeeps.ite ?_ ?_
      · refine PairKeeps.mk ?_
        refine Keeps.of_pair (by assumption) ?_
        refine PairKeeps.after State.coRd_keeps (by decide) ?_
        exact Keeps.refl _ _
      · refine PairKeeps.ite ?_ ?_
        · refine PairKeeps.mk ?_
          refine Keeps.of_pair (by assumption) ?_
          refine PairKeeps.after State.coRd_keeps (by decide) ?_
          exact Keeps.refl _ _
        · split
          split
          · refine PairKeeps.mk ?_
            refine Keeps.of_pair (by assumption) ?_
            refine PairKeeps.after State.coRd_keeps (by decide) ?_
            refine Keeps.of_pair (by assumption) ?_
            refine PairKeeps.after State.coRd_keeps (by decide) ?_
            exact Keeps.refl _ _
          · refine PairKeeps.ite ?_ ?_
            · refine PairKeeps.mk ?_
              refine Keeps.of_pair (by assumption) ?_
              refine PairKeeps.after State.coRd_keeps (by decide) ?_
              refine Keeps.of_pair (by assumption) ?_
              refine PairKeeps.after State.coRd_keeps (by decide) ?_
              exact Keeps.refl _ _
            · refine PairKeeps.mk ?_
              refine Keeps.of_pair (by assumption) ?_
              refine PairKeeps.after State.coRd_keeps (by decide) ?_
              refine Keeps.of_pair (by assumption) ?_
              refine PairKeeps.after State.coRd_keeps (by decide) ?_
              exact Keeps.refl _ _

theorem State.xlFault_keeps {α : Type} {s a3 a4 a5 a6} : ResKeeps [.regs] s (State.xlFault s a3 a4 a5 a6 : Res α) := by
  unfold State.xlFault
  refine ResKeeps.exc ?_
  refine Keeps.after State.setFld_keeps (by decide) ?_
  exact Keeps.refl _ _

theorem State.xlate_keeps {s a2 a3 a4} :
    ResKeeps [.regs, .mem, .ecc, .hif, .cores, .coh, .out] s (State.xlate s a2 a3 a4) := by
  unfold State.xlate
  extract_lets x1 x2 x3 x4
  refine ResKeeps.ite ?_ ?_
  · split
    · split
      · refine ResKeeps.ite ?_ ?_
        · refine ResKeeps.exc ?_
          exact Keeps.refl _ _
        · refine ResKeeps.ok ?_
          exact Keeps.refl _ _
      · refine ResKeeps.exc ?_
        exact Keeps.refl _ _
    · refine ResKeeps.exc ?_
      exact Keeps.refl _ _
  · split
    · split
      · refine ResKeeps.ok ?_
        exact Keeps.refl _ _
      · refine ResKeeps.after State.xlFault_keeps (by decide) ?_
        exact Keeps.refl _ _
    · split
      split
      · refine ResKeeps.after State.xlFault_keeps (by decide) ?_
        refine Keeps.of_pair (by assumption) ?_
        refine PairKeeps.after State.walk_keeps (by decide) ?_
        exact Keeps.refl _ _
      · refine ResKeeps.exc ?_
        refine Keeps.of_pair (by assumption) ?_
        refine PairKeeps.after State.walk_keeps (by decide) ?_
        exact Keeps.refl _ _
      · split
        · extract_lets x5
          refine ResKeeps.ok ?_
          refine Keeps.after State.setCore_keeps (by decide) ?_
          refine Keeps.of_pair (by assumption) ?_
          refine PairKeeps.after State.walk_keeps (by decide) ?_
          exact Keeps.refl _ _
        · refine ResKeeps.after State.xlFault_keeps (by decide) ?_
          refine Keeps.of_pair (by assumption) ?_
          refine PairKeeps.after State.walk_keeps (by decide) ?_
          exact Keeps.refl _ _

theorem State.spillWords_keeps {s a2 a3 a4 a5} :
    ResKeeps [.regs, .mem, .ecc, .clk, .sup, .boot, .hif, .cores, .coh, .dma, .pool, .adc, .sd, .cmp, .pwm, .diag, .cap, .qd, .kle, .ports, .se, .mbm, .pp, .out, .free]
      s (State.spillWords s a2 a3 a4 a5) := by
  induction a5 generalizing s a2 a3 a4
  · rw [State.spillWords]
    refine ResKeeps.ok ?_
    exact Keeps.refl _ _
  · rename_i y ih
    rw [State.spillWords]
    refine ResKeeps.bind ?_ ?_
    · refine ResKeeps.after State.xlate_keeps (by decide) ?_
      exact Keeps.refl _ _
    · intro y1 y2 y3
      split
      refine ResKeeps.ite ?_ ?_
      · refine ResKeeps.after ih (fun _ k => k) ?_
        refine Keeps.of_pair (by assumption) ?_
        refine PairKeeps.after State.storeNow_keeps (by decide) ?_
        exact y3
      · refine ResKeeps.exc ?_
        refine Keeps.of_pair (by assumption) ?_
        refine PairKeeps.after State.storeNow_keeps (by decide) ?_
        exact y3

theorem State.spillR_keeps {s a2 a3} :
    ResKeeps [.regs, .mem, .ecc, .clk, .sup, .boot, .hif, .cores, .coh, .dma, .pool, .adc, .sd, .cmp, .pwm, .diag, .cap, .qd, .kle, .ports, .se, .mbm, .pp, .out, .free]
      s (State.spillR s a2 a3) := by
  unfold State.spillR
  extract_lets x1 x2 x3
  refine ResKeeps.ite ?_ ?_
  · refine ResKeeps.after State.spillE_keeps (by decide) ?_
    exact Keeps.refl _ _
  · refine ResKeeps.ite ?_ ?_
    · refine ResKeeps.exc ?_
      exact Keeps.refl _ _
    · refine ResKeeps.bind ?_ ?_
      · refine ResKeeps.after State.spillWords_keeps (by decide) ?_
        refine Keeps.after State.drainAll_keeps (by decide) ?_
        exact Keeps.refl _ _
      · intro y4 y5 y6
        extract_lets x7
        refine ResKeeps.ok ?_
        refine Keeps.after State.age_keeps (by decide) ?_
        refine Keeps.after State.setCore_keeps (by decide) ?_
        exact y6

theorem State.pushR_keeps {s a2 a3} :
    ResKeeps [.regs, .mem, .ecc, .clk, .sup, .boot, .hif, .cores, .coh, .dma, .pool, .adc, .sd, .cmp, .pwm, .diag, .cap, .qd, .kle, .ports, .se, .mbm, .pp, .out, .free]
      s (State.pushR s a2 a3) := by
  unfold State.pushR
  refine ResKeeps.bind ?_ ?_
  · refine ResKeeps.ite ?_ ?_
    · refine ResKeeps.after State.spillR_keeps (by decide) ?_
      exact Keeps.refl _ _
    · refine ResKeeps.ok ?_
      exact Keeps.refl _ _
  · intro y1 y2 y3
    extract_lets x4
    refine ResKeeps.ok ?_
    refine Keeps.after State.setCore_keeps (by decide) ?_
    exact y3

theorem State.await_keeps {s a2 a3} : Keeps [.cores] s (State.await s a2 a3) := by
  unfold State.await
  refine Keeps.ite ?_ ?_
  · refine Keeps.after State.age_keeps (by decide) ?_
    exact Keeps.refl _ _
  · exact Keeps.refl _ _

theorem State.spillD_keeps {s a2 a3} :
    ResKeeps [.regs, .mem, .ecc, .clk, .sup, .boot, .hif, .cores, .coh, .dma, .pool, .adc, .sd, .cmp, .pwm, .diag, .cap, .qd, .kle, .ports, .se, .mbm, .pp, .out, .free]
      s (State.spillD s a2 a3) := by
  unfold State.spillD
  extract_lets x1 x2 x3 x4
  have hx4 : Keeps [.regs, .mem, .ecc, .clk, .sup, .boot, .hif, .cores, .coh, .dma, .pool, .adc, .sd, .cmp, .pwm, .diag, .cap, .qd, .kle, .ports, .se, .mbm, .pp, .out, .free] s x4 := by
    unfold x4
    refine Keeps.after State.await_keeps (by decide) ?_
    exact Keeps.refl _ _
  refine ResKeeps.ite ?_ ?_
  · refine ResKeeps.exc ?_
    exact Keeps.refl _ _
  · refine ResKeeps.bind ?_ ?_
    · refine ResKeeps.after State.spillWords_keeps (by decide) ?_
      refine Keeps.after State.drainAll_keeps (by decide) ?_
      exact hx4
    · intro y5 y6 y7
      extract_lets x8
      refine ResKeeps.ok ?_
      refine Keeps.after State.age_keeps (by decide) ?_
      refine Keeps.after State.setCore_keeps (by decide) ?_
      exact y7

theorem State.roomD_keeps {s a2 a3 a4} :
    ResKeeps [.regs, .mem, .ecc, .clk, .sup, .boot, .hif, .cores, .coh, .dma, .pool, .adc, .sd, .cmp, .pwm, .diag, .cap, .qd, .kle, .ports, .se, .mbm, .pp, .out, .free]
      s (State.roomD s a2 a3 a4) := by
  unfold State.roomD
  refine ResKeeps.ite ?_ ?_
  · refine ResKeeps.after State.spillD_keeps (by decide) ?_
    exact Keeps.refl _ _
  · refine ResKeeps.ok ?_
    exact Keeps.refl _ _

theorem State.outsideAnswer_keeps {s a2} : PairKeeps [.free] s (State.outsideAnswer s a2) := by
  unfold State.outsideAnswer
  split
  · split
    split
    refine PairKeeps.mk ?_
    refine Keeps.of_pair (by assumption) ?_
    refine PairKeeps.after State.drawWord_keeps (by decide) ?_
    refine Keeps.of_pair (by assumption) ?_
    refine PairKeeps.after State.drawWord_keeps (by decide) ?_
    exact Keeps.refl _ _
  · split
    split
    refine PairKeeps.mk ?_
    refine Keeps.of_pair (by assumption) ?_
    refine PairKeeps.after State.drawWord_keeps (by decide) ?_
    refine Keeps.of_pair (by assumption) ?_
    refine PairKeeps.after State.drawWord_keeps (by decide) ?_
    exact Keeps.refl _ _
  · refine PairKeeps.mk ?_
    exact Keeps.refl _ _

theorem State.drainFor_keeps {s a2 a3} :
    Keeps [.regs, .mem, .ecc, .clk, .sup, .boot, .hif, .cores, .coh, .dma, .pool, .adc, .sd, .cmp, .pwm, .diag, .cap, .qd, .kle, .ports, .se, .mbm, .pp, .out, .free]
      s (State.drainFor s a2 a3) := by
  unfold State.drainFor
  refine Keeps.ite ?_ ?_
  · refine Keeps.after State.drainAll_keeps (by decide) ?_
    exact Keeps.refl _ _
  · exact Keeps.refl _ _

theorem State.readAt_keeps {s a2 a3 a4 a5 a6} :
    ResKeeps [.regs, .mem, .ecc, .clk, .sup, .boot, .hif, .cores, .coh, .dma, .pool, .adc, .sd, .cmp, .pwm, .diag, .cap, .qd, .kle, .ports, .se, .mbm, .pp, .out, .reply, .free]
      s (State.readAt s a2 a3 a4 a5 a6) := by
  unfold State.readAt
  extract_lets x1 x2 x3
  have hx1 : Keeps [.regs, .mem, .ecc, .clk, .sup, .boot, .hif, .cores, .coh, .dma, .pool, .adc, .sd, .cmp, .pwm, .diag, .cap, .qd, .kle, .ports, .se, .mbm, .pp, .out, .reply, .free] s x1 := by
    unfold x1
    refine Keeps.after State.holdLine_keeps (by decide) ?_
    refine Keeps.after State.drainFor_keeps (by decide) ?_
    exact Keeps.refl _ _
  have hx3 : Keeps [.regs, .mem, .ecc, .clk, .sup, .boot, .hif, .cores, .coh, .dma, .pool, .adc, .sd, .cmp, .pwm, .diag, .cap, .qd, .kle, .ports, .se, .mbm, .pp, .out, .reply, .free] s x3 := by
    unfold x3
    refine Keeps.ite ?_ ?_
    · refine Keeps.after State.drainAll_keeps (by decide) ?_
      exact Keeps.refl _ _
    · refine Keeps.after State.drainFor_keeps (by decide) ?_
      exact Keeps.refl _ _
  refine ResKeeps.ite ?_ ?_
  · refine ResKeeps.ite ?_ ?_
    · refine ResKeeps.exc ?_
      exact hx1
    · refine ResKeeps.ok ?_
      exact hx1
  · split
    split
    · refine ResKeeps.ok ?_
      refine Keeps.of_pair (by assumption) ?_
      refine PairKeeps.after State.busRead_keeps (by decide) ?_
      exact hx3
    · refine ResKeeps.exc ?_
      refine Keeps.of_pair (by assumption) ?_
      refine PairKeeps.after State.busRead_keeps (by decide) ?_
      exact hx3
    · refine ResKeeps.exc ?_
      refine Keeps.of_pair (by assumption) ?_
      refine PairKeeps.after State.busRead_keeps (by decide) ?_
      exact hx3

theorem State.fillWords_keeps {s a2 a3 a4 a5 a6} :
    ResKeeps [.regs, .mem, .ecc, .clk, .sup, .boot, .hif, .cores, .coh, .dma, .pool, .adc, .sd, .cmp, .pwm, .diag, .cap, .qd, .kle, .ports, .se, .mbm, .pp, .out, .reply, .free]
      s (State.fillWords s a2 a3 a4 a5 a6) := by
  induction a6 generalizing s a2 a3 a4 a5
  · rw [State.fillWords]
    refine ResKeeps.ok ?_
    exact Keeps.refl _ _
  · rename_i y ih
    rw [State.fillWords]
    refine ResKeeps.bind ?_ ?_
    · refine ResKeeps.after State.xlate_keeps (by decide) ?_
      exact Keeps.refl _ _
    · intro y1 y2 y3
      split
      refine ResKeeps.bind ?_ ?_
      · refine ResKeeps.after State.readAt_keeps (by decide) ?_
        refine Keeps.of_pair (by assumption) ?_
        refine PairKeeps.after State.outsideAnswer_keeps (by decide) ?_
        exact y3
      · intro y4 y5 y6
        refine ResKeeps.bind ?_ ?_
        · refine ResKeeps.after ih (fun _ k => k) ?_
          exact y6
        · intro y7 y8 y9
          refine ResKeeps.ok ?_
          exact y9

theorem State.fillD_keeps {s a2} :
    ResKeeps [.regs, .mem, .ecc, .clk, .sup, .boot, .hif, .cores, .coh, .dma, .pool, .adc, .sd, .cmp, .pwm, .diag, .cap, .qd, .kle, .ports, .se, .mbm, .pp, .out, .reply, .free]
      s (State.fillD s a2) := by
  unfold State.fillD
  extract_lets x1 x2
  refine ResKeeps.bind ?_ ?_
  · refine ResKeeps.after State.fillWords_keeps (by decide) ?_
    refine Keeps.after State.drainAll_keeps (by decide) ?_
    exact Keeps.refl _ _
  · intro y3 y4 y5
    extract_lets x6
    refine ResKeeps.ok ?_
    refine Keeps.after State.age_keeps (by decide) ?_
    refine Keeps.after State.setCore_keeps (by decide) ?_
    exact y5

theorem State.needD_keeps {s a2 a3} :
    ResKeeps [.regs, .mem, .ecc, .clk, .sup, .boot, .hif, .cores, .coh, .dma, .pool, .adc, .sd, .cmp, .pwm, .diag, .cap, .qd, .kle, .ports, .se, .mbm, .pp, .out, .reply, .free]
      s (State.needD s a2 a3) := by
  unfold State.needD
  extract_lets x1
  refine ResKeeps.ite ?_ ?_
  · refine ResKeeps.ok ?_
    exact Keeps.refl _ _
  · refine ResKeeps.ite ?_ ?_
    · refine ResKeeps.exc ?_
      exact Keeps.refl _ _
    · refine ResKeeps.bind ?_ ?_
      · refine ResKeeps.after State.fillD_keeps (by decide) ?_
        exact Keeps.refl _ _
      · intro y2 y3 y4
        refine ResKeeps.ite ?_ ?_
        · refine ResKeeps.ok ?_
          exact y4
        · refine ResKeeps.after State.fillD_keeps (by decide) ?_
          exact y4

theorem State.fillR_keeps {s a2} :
    ResKeeps [.regs, .mem, .ecc, .clk, .sup, .boot, .hif, .cores, .coh, .dma, .pool, .adc, .sd, .cmp, .pwm, .diag, .cap, .qd, .kle, .ports, .se, .mbm, .pp, .out, .reply, .free]
      s (State.fillR s a2) := by
  unfold State.fillR
  extract_lets x1 x2 x3 x4 x5 x6 x7 x8
  have hx6 : Keeps [.regs, .mem, .ecc, .clk, .sup, .boot, .hif, .cores, .coh, .dma, .pool, .adc, .sd, .cmp, .pwm, .diag, .cap, .qd, .kle, .ports, .se, .mbm, .pp, .out, .reply, .free] s x6 := by
    unfold x6
    refine Keeps.after State.setFld_keeps (by decide) ?_
    refine Keeps.after State.setCore_keeps (by decide) ?_
    exact Keeps.refl _ _
  have hx7 : Keeps [.regs, .mem, .ecc, .clk, .sup, .boot, .hif, .cores, .coh, .dma, .pool, .adc, .sd, .cmp, .pwm, .diag, .cap, .qd, .kle, .ports, .se, .mbm, .pp, .out, .reply, .free] s x7 := by
    unfold x7
    refine Keeps.ite ?_ ?_
    · refine Keeps.after State.setBit_keeps (by decide) ?_
      exact hx6
    · exact hx6
  refine ResKeeps.ite ?_ ?_
  · refine ResKeeps.ok ?_
    refine Keeps.after State.age_keeps (by decide) ?_
    exact hx7
  · refine ResKeeps.bind ?_ ?_
    · refine ResKeeps.after State.fillWords_keeps (by decide) ?_
      refine Keeps.after State.drainAll_keeps (by decide) ?_
      exact Keeps.refl _ _
    · intro y9 y10 y11
      extract_lets x12
      refine ResKeeps.ok ?_
      refine Keeps.after State.age_keeps (by decide) ?_
      refine Keeps.after State.setCore_keeps (by decide) ?_
      exact y11

theorem State.needR_keeps {s a2 a3} :
    ResKeeps [.regs, .mem, .ecc, .clk, .sup, .boot, .hif, .cores, .coh, .dma, .pool, .adc, .sd, .cmp, .pwm, .diag, .cap, .qd, .kle, .ports, .se, .mbm, .pp, .out, .reply, .free]
      s (State.needR s a2 a3) := by
  unfold State.needR
  extract_lets x1
  refine ResKeeps.ite ?_ ?_
  · refine ResKeeps.ok ?_
    exact Keeps.refl _ _
  · refine ResKeeps.ite ?_ ?_
    · refine ResKeeps.exc ?_
      exact Keeps.refl _ _
    · refine ResKeeps.bind ?_ ?_
      · refine ResKeeps.after State.fillR_keeps (by decide) ?_
        exact Keeps.refl _ _
      · intro y2 y3 y4
        refine ResKeeps.ite ?_ ?_
        · refine ResKeeps.ok ?_
          exact y4
        · refine ResKeeps.after State.fillR_keeps (by decide) ?_
          exact y4

theorem State.watch_keeps {s a2 a3 a4} : Keeps [.cores] s (State.watch s a2 a3 a4) := by
  unfold State.watch
  extract_lets x1 x2
  refine Keeps.ite ?_ ?_
  · refine Keeps.after State.setCore_keeps (by decide) ?_
    exact Keeps.refl _ _
  · exact Keeps.refl _ _

theorem State.load_keeps {s a2 a3 a4 a5} :
    ResKeeps [.regs, .mem, .ecc, .clk, .sup, .boot, .hif, .cores, .coh, .dma, .pool, .adc, .sd, .cmp, .pwm, .diag, .cap, .qd, .kle, .ports, .se, .mbm, .pp, .out, .reply, .free]
      s (State.load s a2 a3 a4 a5) := by
  unfold State.load
  refine ResKeeps.ite ?_ ?_
  · refine ResKeeps.exc ?_
    exact Keeps.refl _ _
  · refine ResKeeps.bind ?_ ?_
    · refine ResKeeps.after State.xlate_keeps (by decide) ?_
      exact Keeps.refl _ _
    · intro y1 y2 y3
      refine ResKeeps.bind ?_ ?_
      · refine ResKeeps.after State.readAt_keeps (by decide) ?_
        exact y3
      · intro y4 y5 y6
        refine ResKeeps.ok ?_
        refine Keeps.after State.watch_keeps (by decide) ?_
        exact y6

theorem State.buffer_keeps {s a2 a3} :
    Keeps [.regs, .mem, .ecc, .clk, .sup, .boot, .hif, .cores, .coh, .dma, .pool, .adc, .sd, .cmp, .pwm, .diag, .cap, .qd, .kle, .ports, .se, .mbm, .pp, .out, .free]
      s (State.buffer s a2 a3) := by
  unfold State.buffer
  extract_lets x1 x2
  have hx1 : Keeps [.regs, .mem, .ecc, .clk, .sup, .boot, .hif, .cores, .coh, .dma, .pool, .adc, .sd, .cmp, .pwm, .diag, .cap, .qd, .kle, .ports, .se, .mbm, .pp, .out, .free] s x1 := by
    unfold x1
    refine Keeps.ite ?_ ?_
    · refine Keeps.after State.drainOne_keeps (by decide) ?_
      exact Keeps.refl _ _
    · exact Keeps.refl _ _
  refine Keeps.after State.setCore_keeps (by decide) ?_
  exact hx1

theorem State.store_keeps {s a2 a3 a4} :
    ResKeeps [.regs, .mem, .ecc, .clk, .sup, .boot, .hif, .cores, .coh, .dma, .pool, .adc, .sd, .cmp, .pwm, .diag, .cap, .qd, .kle, .ports, .se, .mbm, .pp, .out, .free]
      s (State.store s a2 a3 a4) := by
  unfold State.store
  refine ResKeeps.ite ?_ ?_
  · refine ResKeeps.exc ?_
    exact Keeps.refl _ _
  · refine ResKeeps.bind ?_ ?_
    · refine ResKeeps.after State.xlate_keeps (by decide) ?_
      exact Keeps.refl _ _
    · intro y1 y2 y3
      refine ResKeeps.ok ?_
      refine Keeps.after State.watch_keeps (by decide) ?_
      refine Keeps.after State.buffer_keeps (by decide) ?_
      exact y3

theorem State.atomic_keeps {s a2 a3 a4 a5 a6} :
    ResKeeps [.regs, .mem, .ecc, .clk, .sup, .boot, .hif, .cores, .coh, .dma, .pool, .adc, .sd, .cmp, .pwm, .diag, .cap, .qd, .kle, .ports, .se, .mbm, .pp, .out, .free]
      s (State.atomic s a2 a3 a4 a5 a6) := by
  unfold State.atomic
  refine ResKeeps.ite ?_ ?_
  · refine ResKeeps.exc ?_
    exact Keeps.refl _ _
  · refine ResKeeps.bind ?_ ?_
    · refine ResKeeps.after State.xlate_keeps (by decide) ?_
      exact Keeps.refl _ _
    · intro y1 y2 y3
      refine ResKeeps.ite ?_ ?_
      · refine ResKeeps.exc ?_
        exact y3
      · split
        split
        · refine ResKeeps.ok ?_
          refine Keeps.after State.watch_keeps (by decide) ?_
          refine Keeps.after State.watch_keeps (by decide) ?_
          refine Keeps.of_pair (by assumption) ?_
          refine PairKeeps.after State.doAtm_keeps (by decide) ?_
          refine Keeps.after State.atHome_keeps (by decide) ?_
          refine Keeps.after State.drainAll_keeps (by decide) ?_
          exact y3
        · refine ResKeeps.exc ?_
          refine Keeps.of_pair (by assumption) ?_
          refine PairKeeps.after State.doAtm_keeps (by decide) ?_
          refine Keeps.after State.atHome_keeps (by decide) ?_
          refine Keeps.after State.drainAll_keeps (by decide) ?_
          exact y3

end Sys2Proof.Machine
end

