-- ==== Sys2Proof/Laws/TsuvoCtl.lean ====
section
/-!
SUPPORT. Frames of Machine/TsuvoCtl.lean: which parts of the state each of its operations and commands may change.
-/
namespace Sys2Proof.Machine

theorem State.cacheClean_keeps {s a2} :
    Keeps [.regs, .mem, .ecc, .hif, .cores, .coh, .out] s (State.cacheClean s a2) := by
  unfold State.cacheClean
  refine Keeps.foldl ?_ ?_
  · exact Keeps.refl _ _
  · intro y1 y2 y3
    refine Keeps.after State.backLine_keeps (by decide) ?_
    exact y3

theorem State.coreReset_keeps {s a2} :
    Keeps [.regs, .mem, .ecc, .clk, .sup, .boot, .hif, .cores, .coh, .dma, .pool, .adc, .sd, .cmp, .pwm, .diag, .cap, .qd, .kle, .ports, .se, .mbm, .pp, .out, .free]
      s (State.coreReset s a2) := by
  unfold State.coreReset
  extract_lets x1
  have hx1 : Keeps [.regs, .mem, .ecc, .clk, .sup, .boot, .hif, .cores, .coh, .dma, .pool, .adc, .sd, .cmp, .pwm, .diag, .cap, .qd, .kle, .ports, .se, .mbm, .pp, .out, .free] s x1 := by
    unfold x1
    refine Keeps.after State.icuReset_keeps (by decide) ?_
    refine Keeps.after State.cacheClean_keeps (by decide) ?_
    refine Keeps.after State.drainAll_keeps (by decide) ?_
    exact Keeps.refl _ _
  refine Keeps.after State.setBit_keeps (by decide) ?_
  refine Keeps.after State.setCore_keeps (by decide) ?_
  refine Keeps.after State.poolCoreReset_keeps (by decide) ?_
  exact hx1

theorem State.doubleFault_keeps {s a2} : Keeps [.regs, .cores] s (State.doubleFault s a2) := by
  unfold State.doubleFault
  extract_lets x1 x2
  have hx1 : Keeps [.regs, .cores] s x1 := by
    unfold x1
    refine Keeps.after State.setBit_keeps (by decide) ?_
    refine Keeps.after State.setBit_keeps (by decide) ?_
    exact Keeps.refl _ _
  refine Keeps.after State.source_keeps (by decide) ?_
  refine Keeps.set_cores (by decide) ?_
  exact hx1

theorem State.pushFrame_keeps {s a2} :
    ResKeeps [.regs, .mem, .ecc, .clk, .sup, .boot, .hif, .cores, .coh, .dma, .pool, .adc, .sd, .cmp, .pwm, .diag, .cap, .qd, .kle, .ports, .se, .mbm, .pp, .out, .free]
      s (State.pushFrame s a2) := by
  unfold State.pushFrame
  extract_lets x1
  refine ResKeeps.bind ?_ ?_
  · refine ResKeeps.after State.pushR_keeps (by decide) ?_
    exact Keeps.refl _ _
  · intro y2 y3 y4
    refine ResKeeps.after State.pushR_keeps (by decide) ?_
    exact y4

theorem State.setCause_keeps {s a2 a3} : Keeps [.cores] s (State.setCause s a2 a3) := by
  unfold State.setCause
  extract_lets x1
  refine Keeps.after State.setCore_keeps (by decide) ?_
  exact Keeps.refl _ _

theorem State.setFa_keeps {s a2 a3} : Keeps [.cores, .free] s (State.setFa s a2 a3) := by
  unfold State.setFa
  split
  · extract_lets x1
    refine Keeps.after State.setCore_keeps (by decide) ?_
    exact Keeps.refl _ _
  · split
    extract_lets x2
    refine Keeps.after State.setCore_keeps (by decide) ?_
    refine Keeps.of_pair (by assumption) ?_
    refine PairKeeps.after State.drawWord_keeps (by decide) ?_
    exact Keeps.refl _ _

theorem State.vectorTo_keeps {s a2 a3} : Keeps [.cores] s (State.vectorTo s a2 a3) := by
  unfold State.vectorTo
  extract_lets x1 x2
  refine Keeps.after State.setCore_keeps (by decide) ?_
  exact Keeps.refl _ _

theorem State.entryFault_keeps {s a2 a3} :
    Keeps [.regs, .mem, .ecc, .clk, .sup, .boot, .hif, .cores, .coh, .dma, .pool, .adc, .sd, .cmp, .pwm, .diag, .cap, .qd, .kle, .ports, .se, .mbm, .pp, .out, .free]
      s (State.entryFault s a2 a3) := by
  unfold State.entryFault
  extract_lets x1
  have hx1 : Keeps [.regs, .mem, .ecc, .clk, .sup, .boot, .hif, .cores, .coh, .dma, .pool, .adc, .sd, .cmp, .pwm, .diag, .cap, .qd, .kle, .ports, .se, .mbm, .pp, .out, .free] s x1 := by
    unfold x1
    refine Keeps.after State.wr_keeps (by decide) ?_
    refine Keeps.after State.setBit_keeps (by decide) ?_
    exact Keeps.refl _ _
  split
  · refine Keeps.after State.age_keeps (by decide) ?_
    refine Keeps.after State.setFa_keeps (by decide) ?_
    refine Keeps.after State.setCause_keeps (by decide) ?_
    refine Keeps.after State.vectorTo_keeps (by decide) ?_
    refine Keeps.of_ok (by assumption) ?_
    refine ResKeeps.after State.pushFrame_keeps (by decide) ?_
    exact hx1
  · refine Keeps.after State.doubleFault_keeps (by decide) ?_
    refine Keeps.of_exc (by assumption) ?_
    refine ResKeeps.after State.pushFrame_keeps (by decide) ?_
    exact hx1

theorem State.enter_keeps {s a2 f3} {F : List Part} {s0}
    (hF : ∀ p ∈ ([.regs, .mem, .ecc, .clk, .sup, .boot, .hif, .cores, .coh, .dma, .pool, .adc, .sd, .cmp, .pwm, .diag, .cap, .qd, .kle, .ports, .se, .mbm, .pp, .out, .free] : List Part), p ∈ F)
    (h : Keeps F s0 s) (hf3 : ∀ x1, Keeps F s0 x1 → Keeps F s0 (f3 x1)) :
    Keeps F s0 (State.enter s a2 f3) := by
  unfold State.enter
  extract_lets x1
  split
  · refine Keeps.after State.age_keeps (Part.sub_trans (by decide) hF) ?_
    refine hf3 _ ?_
    refine Keeps.of_ok (by assumption) ?_
    refine ResKeeps.after State.pushFrame_keeps (Part.sub_trans (by decide) hF) ?_
    exact h
  · extract_lets x2
    refine Keeps.ite ?_ ?_
    · refine Keeps.after State.doubleFault_keeps (Part.sub_trans (by decide) hF) ?_
      refine Keeps.of_exc (by assumption) ?_
      refine ResKeeps.after State.pushFrame_keeps (Part.sub_trans (by decide) hF) ?_
      exact h
    · refine Keeps.after State.entryFault_keeps (Part.sub_trans (by decide) hF) ?_
      refine Keeps.after State.setCore_keeps (Part.sub_trans (by decide) hF) ?_
      refine Keeps.of_exc (by assumption) ?_
      refine ResKeeps.after State.pushFrame_keeps (Part.sub_trans (by decide) hF) ?_
      exact h

theorem State.takeExc_keeps {s a2 a3} :
    Keeps [.regs, .mem, .ecc, .clk, .sup, .boot, .hif, .cores, .coh, .dma, .pool, .adc, .sd, .cmp, .pwm, .diag, .cap, .qd, .kle, .ports, .se, .mbm, .pp, .out, .free]
      s (State.takeExc s a2 a3) := by
  unfold State.takeExc
  refine Keeps.ite ?_ ?_
  · refine Keeps.after State.doubleFault_keeps (by decide) ?_
    exact Keeps.refl _ _
  · refine State.enter_keeps (by decide) ?_ ?_
    · exact Keeps.refl _ _
    · intro y1 y2
      extract_lets x3 x4
      have hx3 : Keeps [.regs, .mem, .ecc, .clk, .sup, .boot, .hif, .cores, .coh, .dma, .pool, .adc, .sd, .cmp, .pwm, .diag, .cap, .qd, .kle, .ports, .se, .mbm, .pp, .out, .free] s x3 := by
        unfold x3
        refine Keeps.after State.setCause_keeps (by decide) ?_
        refine Keeps.after State.vectorTo_keeps (by decide) ?_
        exact y2
      have hx4 : Keeps [.regs, .mem, .ecc, .clk, .sup, .boot, .hif, .cores, .coh, .dma, .pool, .adc, .sd, .cmp, .pwm, .diag, .cap, .qd, .kle, .ports, .se, .mbm, .pp, .out, .free] s x4 := by
        unfold x4
        refine Keeps.ite ?_ ?_
        · refine Keeps.after State.wr_keeps (by decide) ?_
          exact hx3
        · exact hx3
      refine Keeps.after State.setFa_keeps (by decide) ?_
      exact hx4

theorem State.enterAsync_keeps {s a2} :
    Keeps [.regs, .mem, .ecc, .clk, .sup, .boot, .hif, .cores, .coh, .dma, .pool, .adc, .sd, .cmp, .pwm, .diag, .cap, .qd, .kle, .ports, .se, .mbm, .pp, .out, .free]
      s (State.enterAsync s a2) := by
  unfold State.enterAsync
  split
  · extract_lets x1 x2
    have hx2 : Keeps [.regs, .mem, .ecc, .clk, .sup, .boot, .hif, .cores, .coh, .dma, .pool, .adc, .sd, .cmp, .pwm, .diag, .cap, .qd, .kle, .ports, .se, .mbm, .pp, .out, .free] s x2 := by
      unfold x2
      refine Keeps.after State.setCore_keeps (by decide) ?_
      exact Keeps.refl _ _
    refine Keeps.after State.takeExc_keeps (by decide) ?_
    exact hx2
  · exact Keeps.refl _ _

theorem State.chainFetch_keeps {s a2} : Keeps [.cores] s (State.chainFetch s a2) := by
  unfold State.chainFetch
  extract_lets x1 x2
  clear_value x2
  split
  · refine Keeps.after State.setCore_keeps (by decide) ?_
    exact Keeps.refl _ _
  · refine Keeps.ite ?_ ?_
    · exact Keeps.refl _ _
    · refine Keeps.after State.setCore_keeps (by decide) ?_
      exact Keeps.refl _ _

theorem State.clLate_keeps {s a2 a3 a4} : Keeps [.regs] s (State.clLate s a2 a3 a4) := by
  unfold State.clLate
  refine Keeps.ite ?_ ?_
  · refine Keeps.after State.tally_keeps (by decide) ?_
    refine Keeps.after State.setBit_keeps (by decide) ?_
    exact Keeps.refl _ _
  · exact Keeps.refl _ _

theorem State.showActive_keeps {s a2 a3} : Keeps [.regs] s (State.showActive s a2 a3) := by
  unfold State.showActive
  extract_lets x1
  refine Keeps.after State.wr_keeps (by decide) ?_
  exact Keeps.refl _ _

theorem State.unpend_keeps {s a2 a3} : Keeps [.regs] s (State.unpend s a2 a3) := by
  unfold State.unpend
  refine Keeps.ite ?_ ?_
  · refine Keeps.after State.setBit_keeps (by decide) ?_
    exact Keeps.refl _ _
  · refine Keeps.after State.setBit_keeps (by decide) ?_
    exact Keeps.refl _ _

theorem State.takeIrq_keeps {s a2 a3 a4} :
    Keeps [.regs, .mem, .ecc, .clk, .sup, .boot, .hif, .cores, .coh, .dma, .pool, .adc, .sd, .cmp, .pwm, .diag, .cap, .qd, .kle, .ports, .se, .mbm, .pp, .out, .free]
      s (State.takeIrq s a2 a3 a4) := by
  unfold State.takeIrq
  extract_lets x1 x2
  have hx1 : Keeps [.regs, .mem, .ecc, .clk, .sup, .boot, .hif, .cores, .coh, .dma, .pool, .adc, .sd, .cmp, .pwm, .diag, .cap, .qd, .kle, .ports, .se, .mbm, .pp, .out, .free] s x1 := by
    unfold x1
    refine Keeps.after State.setCore_keeps (by decide) ?_
    exact Keeps.refl _ _
  refine Keeps.after State.chainFetch_keeps (by decide) ?_
  refine State.enter_keeps (by decide) ?_ ?_
  · exact hx1
  · intro y3 y4
    extract_lets x5 x6 x7 x8 x9
    have hx6 : Keeps [.regs, .mem, .ecc, .clk, .sup, .boot, .hif, .cores, .coh, .dma, .pool, .adc, .sd, .cmp, .pwm, .diag, .cap, .qd, .kle, .ports, .se, .mbm, .pp, .out, .free] s x6 := by
      unfold x6
      refine Keeps.after State.unpend_keeps (by decide) ?_
      refine Keeps.after State.vectorTo_keeps (by decide) ?_
      exact y4
    have hx8 : Keeps [.regs, .mem, .ecc, .clk, .sup, .boot, .hif, .cores, .coh, .dma, .pool, .adc, .sd, .cmp, .pwm, .diag, .cap, .qd, .kle, .ports, .se, .mbm, .pp, .out, .free] s x8 := by
      unfold x8
      refine Keeps.after State.showActive_keeps (by decide) ?_
      refine Keeps.after State.setCore_keeps (by decide) ?_
      exact hx6
    have hx9 : Keeps [.regs, .mem, .ecc, .clk, .sup, .boot, .hif, .cores, .coh, .dma, .pool, .adc, .sd, .cmp, .pwm, .diag, .cap, .qd, .kle, .ports, .se, .mbm, .pp, .out, .free] s x9 := by
      unfold x9
      refine Keeps.ite ?_ ?_
      · refine Keeps.after State.age_keeps (by decide) ?_
        exact hx8
      · exact hx8
    refine Keeps.after State.clLate_keeps (by decide) ?_
    exact hx9

theorem State.fetchCheck_keeps {s a2} :
    ResKeeps [.regs, .mem, .ecc, .hif, .cores, .coh, .out] s (State.fetchCheck s a2) := by
  unfold State.fetchCheck
  extract_lets x1
  refine ResKeeps.bind ?_ ?_
  · refine ResKeeps.after State.xlate_keeps (by decide) ?_
    exact Keeps.refl _ _
  · intro y2 y3 y4
    refine ResKeeps.ite ?_ ?_
    · refine ResKeeps.exc ?_
      refine Keeps.ite ?_ ?_
      · exact y4
      · refine Keeps.after State.eccUncorrected_keeps (by decide) ?_
        exact y4
    · refine ResKeeps.ok ?_
      exact y4

theorem State.undo_keeps {s a2 u} : Keeps [.regs, .cores] s (State.undo s a2 u) := by
  unfold State.undo
  refine Keeps.after State.setFld_keeps (by decide) ?_
  refine Keeps.after State.setBit_keeps (by decide) ?_
  refine Keeps.after State.setCore_keeps (by decide) ?_
  exact Keeps.refl _ _

theorem State.opExc_keeps {s a2 u a4 a5} :
    Keeps [.regs, .mem, .ecc, .clk, .sup, .boot, .hif, .cores, .coh, .dma, .pool, .adc, .sd, .cmp, .pwm, .diag, .cap, .qd, .kle, .ports, .se, .mbm, .pp, .out, .free]
      s (State.opExc s a2 u a4 a5) := by
  unfold State.opExc
  refine Keeps.ite ?_ ?_
  · refine Keeps.after State.enterAsync_keeps (by decide) ?_
    refine Keeps.after State.undo_keeps (by decide) ?_
    exact Keeps.refl _ _
  · refine Keeps.after State.takeExc_keeps (by decide) ?_
    refine Keeps.ite ?_ ?_
    · exact Keeps.refl _ _
    · refine Keeps.after State.undo_keeps (by decide) ?_
      exact Keeps.refl _ _

theorem State.issue_keeps {s a2 a3 a4 f5} {F : List Part} {s0}
    (hF : ∀ p ∈ ([.regs, .mem, .ecc, .clk, .sup, .boot, .hif, .cores, .coh, .dma, .pool, .adc, .sd, .cmp, .pwm, .diag, .cap, .qd, .kle, .ports, .se, .mbm, .pp, .out, .free] : List Part), p ∈ F)
    (h : Keeps F s0 s) (hf5 : ∀ x1, Keeps F s0 x1 → ResKeeps F s0 (f5 x1)) :
    Keeps F s0 (State.issue s a2 a3 a4 f5) := by
  unfold State.issue
  extract_lets x1 x2
  have hx2 : Keeps F s0 x2 := by
    unfold x2
    refine Keeps.after State.setCore_keeps (Part.sub_trans (by decide) hF) ?_
    exact h
  refine Keeps.ite ?_ ?_
  · exact h
  · refine Keeps.ite ?_ ?_
    · refine Keeps.after State.enterAsync_keeps (Part.sub_trans (by decide) hF) ?_
      exact h
    · split
      · extract_lets x3 x4
        have hx3 : Keeps F s0 x3 := by
          unfold x3
          refine Keeps.after State.setCore_keeps (Part.sub_trans (by decide) hF) ?_
          refine Keeps.of_ok (by assumption) ?_
          refine ResKeeps.bind ?_ ?_
          · refine ResKeeps.after State.fetchCheck_keeps (Part.sub_trans (by decide) hF) ?_
            exact hx2
          · intro y5 y6 y7
            refine hf5 _ ?_
            exact y7
        have hx4 : Keeps F s0 x4 := by
          unfold x4
          split
          · refine Keeps.after State.opExc_keeps (Part.sub_trans (by decide) hF) ?_
            exact hx3
          · exact hx3
        refine Keeps.after State.chainFetch_keeps (Part.sub_trans (by decide) hF) ?_
        refine Keeps.after State.setCore_keeps (Part.sub_trans (by decide) hF) ?_
        exact hx4
      · extract_lets x8
        have hx8 : Keeps F s0 x8 := by
          unfold x8
          refine Keeps.after State.opExc_keeps (Part.sub_trans (by decide) hF) ?_
          refine Keeps.of_exc (by assumption) ?_
          refine ResKeeps.bind ?_ ?_
          · refine ResKeeps.after State.fetchCheck_keeps (Part.sub_trans (by decide) hF) ?_
            exact hx2
          · intro y9 y10 y11
            refine hf5 _ ?_
            exact y11
        refine Keeps.after State.chainFetch_keeps (Part.sub_trans (by decide) hF) ?_
        refine Keeps.after State.setCore_keeps (Part.sub_trans (by decide) hF) ?_
        exact hx8

theorem State.pushM_keeps {s a2 a3 a4} : Keeps [.cores] s (State.pushM s a2 a3 a4) := by
  unfold State.pushM
  extract_lets x1
  refine Keeps.after State.setCore_keeps (by decide) ?_
  exact Keeps.refl _ _

theorem State.pushD_keeps {s a2 a3} : Keeps [.cores] s (State.pushD s a2 a3) := by
  unfold State.pushD
  refine Keeps.after State.pushM_keeps (by decide) ?_
  exact Keeps.refl _ _

theorem State.takeD_keeps {s a2 a3 a4 a5 f6} {F : List Part} {s0}
    (hF : ∀ p ∈ ([.regs, .mem, .ecc, .clk, .sup, .boot, .hif, .cores, .coh, .dma, .pool, .adc, .sd, .cmp, .pwm, .diag, .cap, .qd, .kle, .ports, .se, .mbm, .pp, .out, .reply, .free] : List Part), p ∈ F)
    (h : Keeps F s0 s) (hf6 : ∀ x1 x2 x3, Keeps F s0 x3 → ResKeeps F s0 (f6 x1 x2 x3)) :
    ResKeeps F s0 (State.takeD s a2 a3 a4 a5 f6) := by
  unfold State.takeD
  refine ResKeeps.bind ?_ ?_
  · refine ResKeeps.after State.needD_keeps (Part.sub_trans (by decide) hF) ?_
    exact h
  · intro y1 y2 y3
    refine ResKeeps.bind ?_ ?_
    · refine ResKeeps.after State.roomD_keeps (Part.sub_trans (by decide) hF) ?_
      refine Keeps.after State.await_keeps (Part.sub_trans (by decide) hF) ?_
      exact y3
    · intro y4 y5 y6
      extract_lets x7
      refine hf6 _ _ _ ?_
      refine Keeps.after State.setCore_keeps (Part.sub_trans (by decide) hF) ?_
      exact y6

theorem State.popD_keeps {s a2 a3 a4 f5} {F : List Part} {s0}
    (hF : ∀ p ∈ ([.regs, .mem, .ecc, .clk, .sup, .boot, .hif, .cores, .coh, .dma, .pool, .adc, .sd, .cmp, .pwm, .diag, .cap, .qd, .kle, .ports, .se, .mbm, .pp, .out, .reply, .free] : List Part), p ∈ F)
    (h : Keeps F s0 s) (hf5 : ∀ x1 x2, Keeps F s0 x2 → ResKeeps F s0 (f5 x1 x2)) :
    ResKeeps F s0 (State.popD s a2 a3 a4 f5) := by
  unfold State.popD
  refine State.takeD_keeps (Part.sub_trans (by decide) hF) ?_ ?_
  · exact h
  · intro y1 y2 y3 y4
    refine hf5 _ _ ?_
    exact y4

theorem State.moveOp_keeps {s a2 a3 a4} :
    Keeps [.regs, .mem, .ecc, .clk, .sup, .boot, .hif, .cores, .coh, .dma, .pool, .adc, .sd, .cmp, .pwm, .diag, .cap, .qd, .kle, .ports, .se, .mbm, .pp, .out, .reply, .free]
      s (State.moveOp s a2 a3 a4) := by
  unfold State.moveOp
  refine State.issue_keeps (by decide) ?_ ?_
  · exact Keeps.refl _ _
  · intro y1 y2
    refine State.takeD_keeps (by decide) ?_ ?_
    · exact y2
    · intro y3 y4 y5 y6
      refine ResKeeps.ok ?_
      refine Keeps.after State.pushM_keeps (by decide) ?_
      exact y6

theorem illegal_keeps {α : Type} {s} : ResKeeps [] s (illegal s : Res α) := by
  unfold illegal
  refine ResKeeps.exc ?_
  exact Keeps.refl _ _

theorem State.stackOp_keeps {s a2 a3 a4 a5 a6} :
    Keeps [.regs, .mem, .ecc, .clk, .sup, .boot, .hif, .cores, .coh, .dma, .pool, .adc, .sd, .cmp, .pwm, .diag, .cap, .qd, .kle, .ports, .se, .mbm, .pp, .out, .reply, .free]
      s (State.stackOp s a2 a3 a4 a5 a6) := by
  unfold State.stackOp
  refine State.issue_keeps (by decide) ?_ ?_
  · exact Keeps.refl _ _
  · intro y1 y2
    refine State.popD_keeps (by decide) ?_ ?_
    · exact y2
    · intro y3 y4 y5
      split
      refine ResKeeps.ok ?_
      refine Keeps.after State.pushD_keeps (by decide) ?_
      refine Keeps.after State.setCore_keeps (by decide) ?_
      exact y5

theorem State.pushLate_keeps {s a2 a3} : Keeps [.cores] s (State.pushLate s a2 a3) := by
  unfold State.pushLate
  extract_lets x1
  refine Keeps.after State.pushM_keeps (by decide) ?_
  refine Keeps.after State.setCore_keeps (by decide) ?_
  exact Keeps.refl _ _

theorem privExc_keeps {α : Type} {s} : ResKeeps [] s (privExc s : Res α) := by
  unfold privExc
  refine ResKeeps.exc ?_
  exact Keeps.refl _ _

theorem State.reti_keeps {s a2 a3} :
    ResKeeps [.regs, .mem, .ecc, .clk, .sup, .boot, .hif, .cores, .coh, .dma, .pool, .adc, .sd, .cmp, .pwm, .diag, .cap, .qd, .kle, .ports, .se, .mbm, .pp, .out, .reply, .free]
      s (State.reti s a2 a3) := by
  unfold State.reti
  refine ResKeeps.bind ?_ ?_
  · refine ResKeeps.after State.needR_keeps (by decide) ?_
    exact Keeps.refl _ _
  · intro y1 y2 y3
    extract_lets x4 x5 x6 x7 x8 x9 x10
    clear_value x8
    split
    · extract_lets x11 x12
      refine ResKeeps.ok ?_
      refine Keeps.after State.age_keeps (by decide) ?_
      refine Keeps.after State.clLate_keeps (by decide) ?_
      refine Keeps.after State.showActive_keeps (by decide) ?_
      refine Keeps.after State.unpend_keeps (by decide) ?_
      refine Keeps.after State.setCore_keeps (by decide) ?_
      exact y3
    · refine ResKeeps.ok ?_
      refine Keeps.after State.age_keeps (by decide) ?_
      refine Keeps.after State.showActive_keeps (by decide) ?_
      refine Keeps.after State.setCore_keeps (by decide) ?_
      exact y3

end Sys2Proof.Machine
end

