-- ==== Sys2Proof/Laws/Debug.lean ====
section
/-!
SUPPORT. Frames of Machine/Debug.lean: which parts of the state each of its operations and commands may change.
-/
namespace Sys2Proof.Machine

theorem State.coreResetHeld_keeps {s a2} :
    Keeps [.regs, .mem, .ecc, .clk, .sup, .boot, .hif, .cores, .coh, .dma, .pool, .adc, .sd, .cmp, .pwm, .diag, .cap, .qd, .kle, .ports, .se, .mbm, .pp, .out, .free]
      s (State.coreResetHeld s a2) := by
  unfold State.coreResetHeld
  extract_lets x1
  have hx1 : Keeps [.regs, .mem, .ecc, .clk, .sup, .boot, .hif, .cores, .coh, .dma, .pool, .adc, .sd, .cmp, .pwm, .diag, .cap, .qd, .kle, .ports, .se, .mbm, .pp, .out, .free] s x1 := by
    unfold x1
    refine Keeps.after State.coreReset_keeps (by decide) ?_
    exact Keeps.refl _ _
  refine Keeps.ite ?_ ?_
  · refine Keeps.after State.setBit_keeps (by decide) ?_
    exact hx1
  · refine Keeps.after State.coreStart_keeps (by decide) ?_
    exact hx1

theorem execCoreResetHeld_keeps {a1 s} :
    Answers [.regs, .mem, .ecc, .clk, .sup, .boot, .hif, .cores, .coh, .dma, .pool, .adc, .sd, .cmp, .pwm, .diag, .cap, .qd, .kle, .ports, .se, .mbm, .pp, .out, .free]
      s (execCoreResetHeld a1 s) := by
  unfold execCoreResetHeld
  refine Answers.next ?_
  refine Keeps.ite ?_ ?_
  · refine Keeps.after State.coreResetHeld_keeps (by decide) ?_
    exact Keeps.refl _ _
  · exact Keeps.refl _ _

theorem execInterruptEntry_keeps {a1 a2 s} :
    Answers [.regs, .mem, .ecc, .clk, .sup, .boot, .hif, .cores, .coh, .dma, .pool, .adc, .sd, .cmp, .pwm, .diag, .cap, .qd, .kle, .ports, .se, .mbm, .pp, .out, .free]
      s (execInterruptEntry a1 a2 s) := by
  unfold execInterruptEntry
  refine Answers.ite ?_ ?_
  · split
    · refine Answers.next ?_
      refine Keeps.after State.takeIrq_keeps (by decide) ?_
      refine Keeps.ite ?_ ?_
      · refine Keeps.after State.enterAsync_keeps (by decide) ?_
        exact Keeps.refl _ _
      · exact Keeps.refl _ _
    · refine Answers.next ?_
      exact Keeps.refl _ _
  · refine Answers.next ?_
    exact Keeps.refl _ _

theorem execCoreHalt_keeps {a1 a2 s} :
    Answers [.regs, .mem, .ecc, .clk, .sup, .boot, .hif, .cores, .coh, .dma, .pool, .adc, .sd, .cmp, .pwm, .diag, .cap, .qd, .kle, .ports, .se, .mbm, .pp, .out, .free]
      s (execCoreHalt a1 a2 s) := by
  unfold execCoreHalt
  extract_lets x1 x2 x3 x4 x5 x6
  have hx3 : Keeps [.regs, .mem, .ecc, .clk, .sup, .boot, .hif, .cores, .coh, .dma, .pool, .adc, .sd, .cmp, .pwm, .diag, .cap, .qd, .kle, .ports, .se, .mbm, .pp, .out, .free] s x3 := by
    unfold x3
    refine Keeps.after State.drainAll_keeps (by decide) ?_
    exact Keeps.refl _ _
  have hx5 : Keeps [.regs, .mem, .ecc, .clk, .sup, .boot, .hif, .cores, .coh, .dma, .pool, .adc, .sd, .cmp, .pwm, .diag, .cap, .qd, .kle, .ports, .se, .mbm, .pp, .out, .free] s x5 := by
    unfold x5
    refine Keeps.after State.setCore_keeps (by decide) ?_
    exact hx3
  have hx6 : Keeps [.regs, .mem, .ecc, .clk, .sup, .boot, .hif, .cores, .coh, .dma, .pool, .adc, .sd, .cmp, .pwm, .diag, .cap, .qd, .kle, .ports, .se, .mbm, .pp, .out, .free] s x6 := by
    unfold x6
    refine Keeps.after State.setFld_keeps (by decide) ?_
    refine Keeps.after State.setBit_keeps (by decide) ?_
    exact hx5
  refine Answers.ite ?_ ?_
  · refine Answers.next ?_
    refine Keeps.ite ?_ ?_
    · exact hx6
    · refine Keeps.after State.haltSafe_keeps (by decide) ?_
      exact hx6
  · refine Answers.next ?_
    exact Keeps.refl _ _

end Sys2Proof.Machine
end

