-- ==== Sys2Proof/Laws/Dma.lean ====
section
/-!
SUPPORT. Frames of Machine/Dma.lean: which parts of the state each of its operations and commands may change.
-/
namespace Sys2Proof.Machine

theorem State.dmaXlate_keeps {s a2 a3 a4} :
    PairKeeps [.regs, .mem, .ecc, .hif, .cores, .coh, .dma, .out] s (State.dmaXlate s a2 a3 a4) := by
  unfold State.dmaXlate
  extract_lets x1 x2 x3 x4 x5 x6
  refine PairKeeps.ite ?_ ?_
  · split
    · refine PairKeeps.mk ?_
      exact Keeps.refl _ _
    · refine PairKeeps.mk ?_
      exact Keeps.refl _ _
  · split
    · refine PairKeeps.mk ?_
      exact Keeps.refl _ _
    · split
      split
      · refine PairKeeps.mk ?_
        refine Keeps.of_pair (by assumption) ?_
        refine PairKeeps.after State.walk_keeps (by decide) ?_
        exact Keeps.refl _ _
      · refine PairKeeps.mk ?_
        refine Keeps.of_pair (by assumption) ?_
        refine PairKeeps.after State.walk_keeps (by decide) ?_
        exact Keeps.refl _ _
      · split
        · extract_lets x7
          refine PairKeeps.mk ?_
          refine Keeps.after State.setCh_keeps (by decide) ?_
          refine Keeps.of_pair (by assumption) ?_
          refine PairKeeps.after State.walk_keeps (by decide) ?_
          exact Keeps.refl _ _
        · refine PairKeeps.mk ?_
          refine Keeps.of_pair (by assumption) ?_
          refine PairKeeps.after State.walk_keeps (by decide) ?_
          exact Keeps.refl _ _

theorem State.dmaSpend_keeps {s a2 a3 a4} : Keeps [.dma] s (State.dmaSpend s a2 a3 a4) := by
  unfold State.dmaSpend
  extract_lets x1
  refine Keeps.ite ?_ ?_
  · refine Keeps.after State.setCh_keeps (by decide) ?_
    exact Keeps.refl _ _
  · exact Keeps.refl _ _

theorem State.transient_keeps {s a2} : Keeps [.regs] s (State.transient s a2) := by
  unfold State.transient
  refine Keeps.ite ?_ ?_
  · refine Keeps.after State.tally_keeps (by decide) ?_
    exact Keeps.refl _ _
  · exact Keeps.refl _ _

theorem State.dmaRead_keeps {s a2 a3 a4 a5 a6} :
    PairKeeps [.regs, .mem, .ecc, .clk, .hif, .cores, .coh, .dma, .pool, .adc, .cap, .ports, .out, .reply, .free]
      s (State.dmaRead s a2 a3 a4 a5 a6) := by
  unfold State.dmaRead
  split
  split
  · refine PairKeeps.mk ?_
    refine Keeps.of_pair (by assumption) ?_
    refine PairKeeps.after State.dmaXlate_keeps (by decide) ?_
    exact Keeps.refl _ _
  · split
    split
    split
    · refine PairKeeps.mk ?_
      refine Keeps.of_pair (by assumption) ?_
      split
      · refine PairKeeps.mk ?_
        refine Keeps.of_pair (by assumption) ?_
        refine PairKeeps.after State.busRead_keeps (by decide) ?_
        refine Keeps.after State.dmaSpend_keeps (by decide) ?_
        refine Keeps.of_pair (by assumption) ?_
        refine PairKeeps.after State.dmaXlate_keeps (by decide) ?_
        exact Keeps.refl _ _
      · refine PairKeeps.ite ?_ ?_
        · refine PairKeeps.after State.busRead_keeps (by decide) ?_
          refine Keeps.of_pair (by assumption) ?_
          refine PairKeeps.after State.busRead_keeps (by decide) ?_
          refine Keeps.after State.dmaSpend_keeps (by decide) ?_
          refine Keeps.of_pair (by assumption) ?_
          refine PairKeeps.after State.dmaXlate_keeps (by decide) ?_
          exact Keeps.refl _ _
        · refine PairKeeps.mk ?_
          refine Keeps.of_pair (by assumption) ?_
          refine PairKeeps.after State.busRead_keeps (by decide) ?_
          refine Keeps.after State.dmaSpend_keeps (by decide) ?_
          refine Keeps.of_pair (by assumption) ?_
          refine PairKeeps.after State.dmaXlate_keeps (by decide) ?_
          exact Keeps.refl _ _
    · refine PairKeeps.mk ?_
      refine Keeps.of_pair (by assumption) ?_
      split
      · refine PairKeeps.mk ?_
        refine Keeps.of_pair (by assumption) ?_
        refine PairKeeps.after State.busRead_keeps (by decide) ?_
        refine Keeps.after State.dmaSpend_keeps (by decide) ?_
        refine Keeps.of_pair (by assumption) ?_
        refine PairKeeps.after State.dmaXlate_keeps (by decide) ?_
        exact Keeps.refl _ _
      · refine PairKeeps.ite ?_ ?_
        · refine PairKeeps.after State.busRead_keeps (by decide) ?_
          refine Keeps.of_pair (by assumption) ?_
          refine PairKeeps.after State.busRead_keeps (by decide) ?_
          refine Keeps.after State.dmaSpend_keeps (by decide) ?_
          refine Keeps.of_pair (by assumption) ?_
          refine PairKeeps.after State.dmaXlate_keeps (by decide) ?_
          exact Keeps.refl _ _
        · refine PairKeeps.mk ?_
          refine Keeps.of_pair (by assumption) ?_
          refine PairKeeps.after State.busRead_keeps (by decide) ?_
          refine Keeps.after State.dmaSpend_keeps (by decide) ?_
          refine Keeps.of_pair (by assumption) ?_
          refine PairKeeps.after State.dmaXlate_keeps (by decide) ?_
          exact Keeps.refl _ _
    · refine PairKeeps.mk ?_
      refine Keeps.of_pair (by assumption) ?_
      split
      · refine PairKeeps.mk ?_
        refine Keeps.of_pair (by assumption) ?_
        refine PairKeeps.after State.busRead_keeps (by decide) ?_
        refine Keeps.after State.dmaSpend_keeps (by decide) ?_
        refine Keeps.of_pair (by assumption) ?_
        refine PairKeeps.after State.dmaXlate_keeps (by decide) ?_
        exact Keeps.refl _ _
      · refine PairKeeps.ite ?_ ?_
        · refine PairKeeps.after State.busRead_keeps (by decide) ?_
          refine Keeps.of_pair (by assumption) ?_
          refine PairKeeps.after State.busRead_keeps (by decide) ?_
          refine Keeps.after State.dmaSpend_keeps (by decide) ?_
          refine Keeps.of_pair (by assumption) ?_
          refine PairKeeps.after State.dmaXlate_keeps (by decide) ?_
          exact Keeps.refl _ _
        · refine PairKeeps.mk ?_
          refine Keeps.of_pair (by assumption) ?_
          refine PairKeeps.after State.busRead_keeps (by decide) ?_
          refine Keeps.after State.dmaSpend_keeps (by decide) ?_
          refine Keeps.of_pair (by assumption) ?_
          refine PairKeeps.after State.dmaXlate_keeps (by decide) ?_
          exact Keeps.refl _ _

theorem State.dmaWrite_keeps {s a2 a3 a4} :
    PairKeeps [.regs, .mem, .ecc, .clk, .sup, .boot, .hif, .cores, .coh, .dma, .pool, .adc, .sd, .cmp, .pwm, .diag, .cap, .qd, .kle, .ports, .se, .mbm, .pp, .out, .free]
      s (State.dmaWrite s a2 a3 a4) := by
  unfold State.dmaWrite
  split
  split
  · refine PairKeeps.mk ?_
    refine Keeps.of_pair (by assumption) ?_
    refine PairKeeps.after State.dmaXlate_keeps (by decide) ?_
    exact Keeps.refl _ _
  · split
    split
    split
    · refine PairKeeps.mk ?_
      refine Keeps.of_pair (by assumption) ?_
      refine PairKeeps.ite ?_ ?_
      · refine PairKeeps.mk ?_
        refine Keeps.of_pair (by assumption) ?_
        refine PairKeeps.after State.busWrite_keeps (by decide) ?_
        refine Keeps.after State.dmaSpend_keeps (by decide) ?_
        refine Keeps.of_pair (by assumption) ?_
        refine PairKeeps.after State.dmaXlate_keeps (by decide) ?_
        exact Keeps.refl _ _
      · refine PairKeeps.after State.busWrite_keeps (by decide) ?_
        refine Keeps.of_pair (by assumption) ?_
        refine PairKeeps.after State.busWrite_keeps (by decide) ?_
        refine Keeps.after State.dmaSpend_keeps (by decide) ?_
        refine Keeps.of_pair (by assumption) ?_
        refine PairKeeps.after State.dmaXlate_keeps (by decide) ?_
        exact Keeps.refl _ _
    · refine PairKeeps.mk ?_
      refine Keeps.of_pair (by assumption) ?_
      refine PairKeeps.ite ?_ ?_
      · refine PairKeeps.mk ?_
        refine Keeps.of_pair (by assumption) ?_
        refine PairKeeps.after State.busWrite_keeps (by decide) ?_
        refine Keeps.after State.dmaSpend_keeps (by decide) ?_
        refine Keeps.of_pair (by assumption) ?_
        refine PairKeeps.after State.dmaXlate_keeps (by decide) ?_
        exact Keeps.refl _ _
      · refine PairKeeps.after State.busWrite_keeps (by decide) ?_
        refine Keeps.of_pair (by assumption) ?_
        refine PairKeeps.after State.busWrite_keeps (by decide) ?_
        refine Keeps.after State.dmaSpend_keeps (by decide) ?_
        refine Keeps.of_pair (by assumption) ?_
        refine PairKeeps.after State.dmaXlate_keeps (by decide) ?_
        exact Keeps.refl _ _
    · refine PairKeeps.mk ?_
      refine Keeps.of_pair (by assumption) ?_
      refine PairKeeps.ite ?_ ?_
      · refine PairKeeps.mk ?_
        refine Keeps.of_pair (by assumption) ?_
        refine PairKeeps.after State.busWrite_keeps (by decide) ?_
        refine Keeps.after State.dmaSpend_keeps (by decide) ?_
        refine Keeps.of_pair (by assumption) ?_
        refine PairKeeps.after State.dmaXlate_keeps (by decide) ?_
        exact Keeps.refl _ _
      · refine PairKeeps.after State.busWrite_keeps (by decide) ?_
        refine Keeps.of_pair (by assumption) ?_
        refine PairKeeps.after State.busWrite_keeps (by decide) ?_
        refine Keeps.after State.dmaSpend_keeps (by decide) ?_
        refine Keeps.of_pair (by assumption) ?_
        refine PairKeeps.after State.dmaXlate_keeps (by decide) ?_
        exact Keeps.refl _ _

theorem execDmaDescriptorFetch_keeps {a1 a2 s} :
    Answers [.regs, .mem, .ecc, .clk, .hif, .cores, .coh, .dma, .pool, .adc, .cap, .ports, .out, .reply, .free]
      s (execDmaDescriptorFetch a1 a2 s) := by
  unfold execDmaDescriptorFetch
  extract_lets x1 x2
  refine Answers.ite ?_ ?_
  · split
    extract_lets x3 x4 x5
    have hx4 : Keeps [.regs, .mem, .ecc, .clk, .hif, .cores, .coh, .dma, .pool, .adc, .cap, .ports, .out, .reply, .free] s x4 := by
      unfold x4
      refine Keeps.after State.setCh_keeps (by decide) ?_
      refine Keeps.of_pair (by assumption) ?_
      refine PairKeeps.after State.dmaRead_keeps (by decide) ?_
      exact Keeps.refl _ _
    split
    · refine Answers.next ?_
      refine Keeps.after State.dmaStopOn_keeps (by decide) ?_
      exact hx4
    · extract_lets x6 x7 x8 x9
      have hx8 : Keeps [.regs, .mem, .ecc, .clk, .hif, .cores, .coh, .dma, .pool, .adc, .cap, .ports, .out, .reply, .free] s x8 := by
        unfold x8
        refine Keeps.after State.wr_keeps (by decide) ?_
        refine Keeps.after State.wr_keeps (by decide) ?_
        exact hx4
      have hx9 : Keeps [.regs, .mem, .ecc, .clk, .hif, .cores, .coh, .dma, .pool, .adc, .cap, .ports, .out, .reply, .free] s x9 := by
        unfold x9
        refine Keeps.after State.wr_keeps (by decide) ?_
        exact hx8
      split
      · refine Answers.next ?_
        refine Keeps.after State.dmaStopOn_keeps (by decide) ?_
        exact hx4
      · extract_lets x10 x11
        have hx11 : Keeps [.regs, .mem, .ecc, .clk, .hif, .cores, .coh, .dma, .pool, .adc, .cap, .ports, .out, .reply, .free] s x11 := by
          unfold x11
          refine Keeps.ite ?_ ?_
          · exact hx9
          · refine Keeps.after State.wr_keeps (by decide) ?_
            exact hx9
        refine Answers.next ?_
        refine Keeps.after State.dmaTake_keeps (by decide) ?_
        exact hx11
  · refine Answers.next ?_
    exact Keeps.refl _ _

theorem State.dmaAdvance_keeps {s a2 a3 a4} : Keeps [.regs] s (State.dmaAdvance s a2 a3 a4) := by
  unfold State.dmaAdvance
  extract_lets x1 x2
  have hx2 : Keeps [.regs] s x2 := by
    unfold x2
    refine Keeps.ite ?_ ?_
    · refine Keeps.after State.wr_keeps (by decide) ?_
      exact Keeps.refl _ _
    · exact Keeps.refl _ _
  refine Keeps.after State.wr_keeps (by decide) ?_
  exact hx2

theorem State.dmaElementDone_keeps {s a2} : Keeps [.regs, .dma] s (State.dmaElementDone s a2) := by
  unfold State.dmaElementDone
  extract_lets x1 x2 x3 x4 x5 x6 x7
  have hx3 : Keeps [.regs, .dma] s x3 := by
    unfold x3
    refine Keeps.after State.setCh_keeps (by decide) ?_
    exact Keeps.refl _ _
  have hx4 : Keeps [.regs, .dma] s x4 := by
    unfold x4
    refine Keeps.after State.setBit_keeps (by decide) ?_
    exact hx3
  have hx5 : Keeps [.regs, .dma] s x5 := by
    unfold x5
    refine Keeps.after State.dmaAdvance_keeps (by decide) ?_
    exact hx4
  have hx6 : Keeps [.regs, .dma] s x6 := by
    unfold x6
    refine Keeps.after State.dmaAdvance_keeps (by decide) ?_
    exact hx5
  have hx7 : Keeps [.regs, .dma] s x7 := by
    unfold x7
    refine Keeps.after State.dmaAdvance_keeps (by decide) ?_
    exact hx6
  refine Keeps.ite ?_ ?_
  · refine Keeps.after State.dmaDescEnd_keeps (by decide) ?_
    exact hx7
  · exact hx7

theorem State.dmaWriteElement_keeps {s a2 a3 a4} :
    Keeps [.regs, .mem, .ecc, .clk, .sup, .boot, .hif, .cores, .coh, .dma, .pool, .adc, .sd, .cmp, .pwm, .diag, .cap, .qd, .kle, .ports, .se, .mbm, .pp, .out, .free]
      s (State.dmaWriteElement s a2 a3 a4) := by
  unfold State.dmaWriteElement
  split
  split
  · refine Keeps.after State.dmaElementDone_keeps (by decide) ?_
    refine Keeps.after State.transient_keeps (by decide) ?_
    refine Keeps.of_pair (by assumption) ?_
    refine PairKeeps.after State.dmaWrite_keeps (by decide) ?_
    exact Keeps.refl _ _
  · extract_lets x1 x2
    have hx2 : Keeps [.regs, .mem, .ecc, .clk, .sup, .boot, .hif, .cores, .coh, .dma, .pool, .adc, .sd, .cmp, .pwm, .diag, .cap, .qd, .kle, .ports, .se, .mbm, .pp, .out, .free] s x2 := by
      unfold x2
      refine Keeps.after State.setBit_keeps (by decide) ?_
      refine Keeps.after State.setCh_keeps (by decide) ?_
      refine Keeps.of_pair (by assumption) ?_
      refine PairKeeps.after State.dmaWrite_keeps (by decide) ?_
      exact Keeps.refl _ _
    refine Keeps.after State.dmaStopOn_keeps (by decide) ?_
    exact hx2

theorem State.dmaReadAhead_keeps {s a2} :
    Keeps [.regs, .mem, .ecc, .clk, .hif, .cores, .coh, .dma, .pool, .adc, .cap, .ports, .out, .reply, .free]
      s (State.dmaReadAhead s a2) := by
  unfold State.dmaReadAhead
  extract_lets x1 x2 x3 x4
  refine Keeps.ite ?_ ?_
  · exact Keeps.refl _ _
  · split
    · exact Keeps.refl _ _
    · split
      split
      · extract_lets x5
        refine Keeps.after State.setCh_keeps (by decide) ?_
        refine Keeps.of_pair (by assumption) ?_
        refine PairKeeps.after State.busRead_keeps (by decide) ?_
        refine Keeps.after State.dmaSpend_keeps (by decide) ?_
        exact Keeps.refl _ _
      · refine Keeps.of_pair (by assumption) ?_
        refine PairKeeps.after State.busRead_keeps (by decide) ?_
        refine Keeps.after State.dmaSpend_keeps (by decide) ?_
        exact Keeps.refl _ _

theorem State.dmaRunAhead_keeps {s a2 a3} :
    Keeps [.regs, .mem, .ecc, .clk, .hif, .cores, .coh, .dma, .pool, .adc, .cap, .ports, .out, .reply, .free]
      s (State.dmaRunAhead s a2 a3) := by
  induction a3 generalizing s a2
  · rw [State.dmaRunAhead]
    exact Keeps.refl _ _
  · rename_i y ih
    rw [State.dmaRunAhead]
    refine Keeps.ite ?_ ?_
    · refine Keeps.after ih (fun _ k => k) ?_
      refine Keeps.after State.dmaReadAhead_keeps (by decide) ?_
      exact Keeps.refl _ _
    · exact Keeps.refl _ _

theorem State.dmaElement_keeps {s a2 a3 a4} :
    Keeps [.regs, .mem, .ecc, .clk, .sup, .boot, .hif, .cores, .coh, .dma, .pool, .adc, .sd, .cmp, .pwm, .diag, .cap, .qd, .kle, .ports, .se, .mbm, .pp, .out, .reply, .free]
      s (State.dmaElement s a2 a3 a4) := by
  unfold State.dmaElement
  extract_lets x1 x2 x3
  refine Keeps.ite ?_ ?_
  · refine Keeps.ite ?_ ?_
    · refine Keeps.after State.dmaStopOn_keeps (by decide) ?_
      exact Keeps.refl _ _
    · refine Keeps.after State.dmaWriteElement_keeps (by decide) ?_
      exact Keeps.refl _ _
  · refine Keeps.ite ?_ ?_
    · refine Keeps.after State.dmaStopOn_keeps (by decide) ?_
      exact Keeps.refl _ _
    · refine Keeps.ite ?_ ?_
      · refine Keeps.after State.dmaStopOn_keeps (by decide) ?_
        exact Keeps.refl _ _
      · split
        · refine Keeps.after State.dmaWriteElement_keeps (by decide) ?_
          refine Keeps.after State.transient_keeps (by decide) ?_
          refine Keeps.after State.setCh_keeps (by decide) ?_
          exact Keeps.refl _ _
        · split
          split
          · refine Keeps.after State.dmaWriteElement_keeps (by decide) ?_
            refine Keeps.after State.transient_keeps (by decide) ?_
            refine Keeps.of_pair (by assumption) ?_
            refine PairKeeps.after State.dmaRead_keeps (by decide) ?_
            exact Keeps.refl _ _
          · refine Keeps.after State.dmaStopOn_keeps (by decide) ?_
            refine Keeps.of_pair (by assumption) ?_
            refine PairKeeps.after State.dmaRead_keeps (by decide) ?_
            exact Keeps.refl _ _

theorem execDmaElement_keeps {a1 a2 a3 a4 a5 s} :
    Answers [.regs, .mem, .ecc, .clk, .sup, .boot, .hif, .cores, .coh, .dma, .pool, .adc, .sd, .cmp, .pwm, .diag, .cap, .qd, .kle, .ports, .se, .mbm, .pp, .out, .reply, .free]
      s (execDmaElement a1 a2 a3 a4 a5 s) := by
  unfold execDmaElement
  extract_lets x1 x2 x3
  have hx1 : Keeps [.regs, .mem, .ecc, .clk, .sup, .boot, .hif, .cores, .coh, .dma, .pool, .adc, .sd, .cmp, .pwm, .diag, .cap, .qd, .kle, .ports, .se, .mbm, .pp, .out, .reply, .free] s x1 := by
    unfold x1
    refine Keeps.after State.dmaRunAhead_keeps (by decide) ?_
    exact Keeps.refl _ _
  have hx3 : Keeps [.regs, .mem, .ecc, .clk, .sup, .boot, .hif, .cores, .coh, .dma, .pool, .adc, .sd, .cmp, .pwm, .diag, .cap, .qd, .kle, .ports, .se, .mbm, .pp, .out, .reply, .free] s x3 := by
    unfold x3
    refine Keeps.set_coh (by decide) ?_
    exact hx1
  refine Answers.ite ?_ ?_
  · refine Answers.next ?_
    refine Keeps.after State.dmaInvCheck_keeps (by decide) ?_
    refine Keeps.after State.dmaInvNow_keeps (by decide) ?_
    refine Keeps.after State.dmaElement_keeps (by decide) ?_
    exact hx3
  · refine Answers.next ?_
    exact Keeps.refl _ _

theorem execDmainvDone_keeps {s} : Answers [.regs, .dma] s (execDmainvDone s) := by
  unfold execDmainvDone
  refine Answers.next ?_
  refine Keeps.ite ?_ ?_
  · refine Keeps.after State.dmaInvCheck_keeps (by decide) ?_
    refine Keeps.forN ?_ ?_
    · exact Keeps.refl _ _
    · intro y1 y2 y3
      refine Keeps.after State.dmaInvNow_keeps (by decide) ?_
      exact y3
  · exact Keeps.refl _ _

theorem State.outboundError_keeps {s a2 a3 a4 a5} :
    Keeps [.regs, .cores, .dma, .reply] s (State.outboundError s a2 a3 a4 a5) := by
  unfold State.outboundError
  extract_lets x1
  split
  · refine Keeps.after State.storeFailed_keeps (by decide) ?_
    exact Keeps.refl _ _
  · refine Keeps.ite ?_ ?_
    · refine Keeps.after State.dmaStopOn_keeps (by decide) ?_
      exact Keeps.refl _ _
    · exact Keeps.refl _ _
  · exact Keeps.refl _ _
  · refine Keeps.set_reply (by decide) ?_
    exact Keeps.refl _ _

theorem execOutboundAccess_keeps {a1 a2 a3 a4 a5 s} :
    Answers [.regs, .cores, .dma, .out, .reply] s (execOutboundAccess a1 a2 a3 a4 a5 s) := by
  unfold execOutboundAccess
  extract_lets x1 x2
  have hx2 : Keeps [.regs, .cores, .dma, .out, .reply] s x2 := by
    unfold x2
    refine Keeps.after State.emit_keeps (by decide) ?_
    exact Keeps.refl _ _
  refine Answers.ite ?_ ?_
  · refine Answers.next ?_
    exact Keeps.refl _ _
  · refine Answers.ite ?_ ?_
    · split
      refine Answers.next ?_
      refine Keeps.ite ?_ ?_
      · refine Keeps.of_pair (by assumption) ?_
        refine PairKeeps.after State.outboundWrite_keeps (by decide) ?_
        exact Keeps.refl _ _
      · refine Keeps.after State.outboundError_keeps (by decide) ?_
        refine Keeps.of_pair (by assumption) ?_
        refine PairKeeps.after State.outboundWrite_keeps (by decide) ?_
        exact Keeps.refl _ _
    · refine Answers.ite ?_ ?_
      · refine Answers.next ?_
        refine Keeps.set_reply (by decide) ?_
        exact hx2
      · refine Answers.next ?_
        refine Keeps.after State.outboundError_keeps (by decide) ?_
        exact Keeps.refl _ _

end Sys2Proof.Machine
end

