-- ==== Sys2Proof/Laws/Regs.lean ====
section
/-!
SUPPORT. Fields of a register word, and registers and memory read after the named operations.
-/
namespace Sys2Proof.Machine

open Sys2Proof (W.fld W.bit W.setFld W.setBit W.mask)

/-! ### Fields of a word -/

theorem W.getLsbD_mask (lo n i : Nat) : (W.mask lo n).getLsbD i = (decide (i < 32) && decide (lo ≤ i) && decide (i < lo + n)) := by
  simp only [W.mask, BitVec.getLsbD_ofNat, Nat.testBit_shiftLeft, Nat.testBit_two_pow_sub_one]
  by_cases h1 : i < 32 <;> by_cases h2 : lo ≤ i <;> simp [h1, h2]
  omega

theorem W.getLsbD_setFld (w : Word) (lo n v i : Nat) : (W.setFld w lo n v).getLsbD i =
    if lo ≤ i ∧ i < lo + n then decide (i < 32) && v.testBit (i - lo) else w.getLsbD i := by
  by_cases h1 : i < 32
  · simp only [W.setFld, BitVec.getLsbD_or, BitVec.getLsbD_and, BitVec.getLsbD_not, W.getLsbD_mask, BitVec.getLsbD_ofNat,
      Nat.testBit_shiftLeft, Nat.testBit_mod_two_pow]
    by_cases h2 : lo ≤ i <;> by_cases h3 : i < lo + n <;> simp [h1, h2, h3] <;> omega
  · rw [BitVec.getLsbD_of_ge _ _ (by omega), BitVec.getLsbD_of_ge _ _ (by omega)]
    simp [h1]

theorem W.getLsbD_setBit (w : Word) (k i : Nat) (b : Bool) : (W.setBit w k b).getLsbD i =
    if i = k then decide (i < 32) && b else w.getLsbD i := by
  by_cases h1 : i < 32
  · cases b <;> simp only [W.setBit, if_true, Bool.false_eq_true, if_false, BitVec.getLsbD_or, BitVec.getLsbD_and,
      BitVec.getLsbD_not, W.getLsbD_mask] <;>
    by_cases h2 : i = k <;> by_cases h3 : k ≤ i <;> by_cases h4 : i < k + 1 <;> simp [h1, h2, h3, h4] <;> omega
  · rw [BitVec.getLsbD_of_ge _ _ (by omega), BitVec.getLsbD_of_ge _ _ (by omega)]
    simp [h1]

theorem W.testBit_fld (w : Word) (lo n i : Nat) : (W.fld w lo n).testBit i = (decide (i < n) && w.getLsbD (lo + i)) := by
  simp only [W.fld, Nat.testBit_mod_two_pow, Nat.testBit_shiftRight, BitVec.getLsbD]

theorem W.fld_lt (w : Word) (lo n : Nat) : W.fld w lo n < 2 ^ n := Nat.mod_lt _ (Nat.two_pow_pos n)

/-- A field set and read again. -/
theorem W.fld_setFld_same (w : Word) {lo n : Nat} (v : Nat) (h : lo + n ≤ 32) : W.fld (W.setFld w lo n v) lo n = v % 2 ^ n := by
  apply Nat.eq_of_testBit_eq
  intro i
  rw [W.testBit_fld, W.getLsbD_setFld, Nat.testBit_mod_two_pow]
  by_cases hi : i < n
  · simp [hi, show lo ≤ lo + i by omega, show lo + i < 32 by omega, show lo + i - lo = i by omega]
  · simp [hi]

/-- A field apart from the one set. -/
theorem W.fld_setFld_ne (w : Word) {lo n lo' n' : Nat} (v : Nat) (h : lo' + n' ≤ lo ∨ lo + n ≤ lo') :
    W.fld (W.setFld w lo n v) lo' n' = W.fld w lo' n' := by
  apply Nat.eq_of_testBit_eq
  intro i
  rw [W.testBit_fld, W.testBit_fld, W.getLsbD_setFld]
  by_cases hi : i < n'
  · rw [if_neg (by omega)]
  · simp [hi]

theorem W.bit_setFld_ne (w : Word) {lo n i : Nat} (v : Nat) (h : i < lo ∨ lo + n ≤ i) : W.bit (W.setFld w lo n v) i = W.bit w i := by
  rw [W.bit, W.bit, W.getLsbD_setFld, if_neg (by omega)]

theorem W.bit_setBit_same (w : Word) {i : Nat} (b : Bool) (h : i < 32) : W.bit (W.setBit w i b) i = b := by
  rw [W.bit, W.getLsbD_setBit, if_pos rfl]; simp [h]

theorem W.bit_setBit_ne (w : Word) {i k : Nat} (b : Bool) (h : i ≠ k) : W.bit (W.setBit w k b) i = W.bit w i := by
  rw [W.bit, W.bit, W.getLsbD_setBit, if_neg h]

theorem W.fld_setBit_ne (w : Word) {lo n k : Nat} (b : Bool) (h : k < lo ∨ lo + n ≤ k) :
    W.fld (W.setBit w k b) lo n = W.fld w lo n := by
  apply Nat.eq_of_testBit_eq
  intro i
  rw [W.testBit_fld, W.testBit_fld, W.getLsbD_setBit]
  by_cases hi : i < n
  · rw [if_neg (by omega)]
  · simp [hi]

/-! ### Registers -/

/-- A register read depends on the register file only. -/
theorem State.rd_congr {s t : State} (h : t.regs = s.regs) (a : Nat) : t.rd a = s.rd a := by
  unfold State.rd; rw [h]

@[simp] theorem State.rd_wr_same (s : State) (a : Nat) (v : Word) : (s.wr a v).rd a = v := tget_tset_same _ _ _ _

theorem State.rd_wr_ne (s : State) {a b : Nat} (v : Word) (h : a ≠ b) : (s.wr a v).rd b = s.rd b := tget_tset_ne _ _ _ _ h

theorem State.rd_wr (s : State) (a b : Nat) (v : Word) : (s.wr a v).rd b = if a = b then v else s.rd b := by
  by_cases h : a = b
  · subst h; simp
  · rw [if_neg h, s.rd_wr_ne v h]

theorem State.rd_setFld_ne (s : State) {a b : Nat} (lo n v : Nat) (h : a ≠ b) : (s.setFld a lo n v).rd b = s.rd b :=
  s.rd_wr_ne _ h

theorem State.rd_setBit_ne (s : State) {a b : Nat} (i : Nat) (v : Bool) (h : a ≠ b) : (s.setBit a i v).rd b = s.rd b :=
  s.rd_wr_ne _ h

@[simp] theorem State.rd_setFld_same (s : State) (a lo n v : Nat) : (s.setFld a lo n v).rd a = W.setFld (s.rd a) lo n v :=
  s.rd_wr_same _ _

@[simp] theorem State.rd_setBit_same (s : State) (a i : Nat) (v : Bool) : (s.setBit a i v).rd a = W.setBit (s.rd a) i v :=
  s.rd_wr_same _ _

theorem State.fld_setFld_same (s : State) {a lo n : Nat} (v : Nat) (h : lo + n ≤ 32) :
    (s.setFld a lo n v).fld a lo n = v % 2 ^ n := by
  rw [State.fld, State.rd_setFld_same, W.fld_setFld_same _ _ h]

theorem State.bit_setBit_same (s : State) {a i : Nat} (b : Bool) (h : i < 32) : (s.setBit a i b).bit a i = b := by
  rw [State.bit, State.rd_setBit_same, W.bit_setBit_same _ _ h]

/-- Tallies change their own register only. -/
theorem State.rd_tally_ne (s : State) {a b : Nat} (h : a ≠ b) : (s.tally a).rd b = s.rd b := by
  unfold State.tally; dsimp only; split
  · rfl
  · exact s.rd_setFld_ne _ _ _ h

theorem State.rd_tallyHi_ne (s : State) {a b : Nat} (h : a ≠ b) : (s.tallyHi a).rd b = s.rd b := by
  unfold State.tallyHi; dsimp only; split
  · rfl
  · exact s.rd_setFld_ne _ _ _ h

/-- A saturating tally counts one (R19). -/
theorem State.fld_tally (s : State) (a : Nat) : (s.tally a).fld a 0 16 = min 0xFFFF (s.fld a 0 16 + 1) := by
  unfold State.tally; dsimp only
  have h := W.fld_lt (s.rd a) 0 16
  split
  · rename_i e; rw [e]; rfl
  · rename_i e
    rw [s.fld_setFld_same _ (by omega)]
    rw [State.fld] at *
    omega

/-! ### Memory -/

@[simp] theorem State.rdByte_wrByte_same (s : State) (a : Nat) (b : Byte) : (s.wrByte a b).rdByte a = b := tget_tset_same _ _ _ _

theorem State.rdByte_wrByte_ne (s : State) {a c : Nat} (b : Byte) (h : a ≠ c) : (s.wrByte a b).rdByte c = s.rdByte c :=
  tget_tset_ne _ _ _ _ h

/-- A memory read depends on memory only. -/
theorem State.rdByte_congr {s t : State} (h : t.mem = s.mem) (a : Nat) : t.rdByte a = s.rdByte a := by
  unfold State.rdByte; rw [h]

theorem State.rdByte_wrWord_ne (s : State) {a c : Nat} (w : Word) (h : c < a ∨ a + 4 ≤ c) : (s.wrWord a w).rdByte c = s.rdByte c := by
  unfold State.wrWord
  rw [State.rdByte_wrByte_ne _ _ (by omega), State.rdByte_wrByte_ne _ _ (by omega), State.rdByte_wrByte_ne _ _ (by omega),
    State.rdByte_wrByte_ne _ _ (by omega)]

/-- A word written and read again (R4). -/
theorem State.rdWord_wrWord_same (s : State) (a : Nat) (w : Word) : (s.wrWord a w).rdWord a = w := by
  have h0 : (s.wrWord a w).rdByte a = w.setWidth 8 := by
    unfold State.wrWord
    rw [State.rdByte_wrByte_ne _ _ (by omega), State.rdByte_wrByte_ne _ _ (by omega), State.rdByte_wrByte_ne _ _ (by omega),
      State.rdByte_wrByte_same]
  have h1 : (s.wrWord a w).rdByte (a + 1) = (w >>> 8).setWidth 8 := by
    unfold State.wrWord
    rw [State.rdByte_wrByte_ne _ _ (by omega), State.rdByte_wrByte_ne _ _ (by omega), State.rdByte_wrByte_same]
  have h2 : (s.wrWord a w).rdByte (a + 2) = (w >>> 16).setWidth 8 := by
    unfold State.wrWord
    rw [State.rdByte_wrByte_ne _ _ (by omega), State.rdByte_wrByte_same]
  have h3 : (s.wrWord a w).rdByte (a + 3) = (w >>> 24).setWidth 8 := by
    unfold State.wrWord
    rw [State.rdByte_wrByte_same]
  unfold State.rdWord
  rw [h0, h1, h2, h3]
  ext i hi
  simp only [BitVec.getElem_append, BitVec.getElem_setWidth, BitVec.getLsbD_ushiftRight]
  split
  · rw [BitVec.getLsbD_eq_getElem]
  · split
    · rw [show 8 + (i - 8) = i by omega, BitVec.getLsbD_eq_getElem]
    · split
      · rw [show 16 + (i - 8 - 8) = i by omega, BitVec.getLsbD_eq_getElem]
      · rw [show 24 + (i - 8 - 8 - 8) = i by omega, BitVec.getLsbD_eq_getElem]

end Sys2Proof.Machine
end

