-- ==== Sys2Proof/Laws/Reads.lean ====
section
/-!
SUPPORT. What can be read after the operations that every block uses: events, interrupt messages and interrupt sources
change the registers of their own mechanism only.
-/
namespace Sys2Proof.Machine

theorem State.rd_sendVector {s : State} {v a : Nat} (h : a ≠ Reg.HIF_MSIXPBA) : (s.sendVector v).rd a = s.rd a := by
  unfold State.sendVector
  split
  · unfold State.msixSend; dsimp only
    split
    · exact s.rd_setBit_ne _ _ (Ne.symm h)
    · exact s.rd_setBit_ne _ _ (Ne.symm h)
  · split
    · unfold State.msiSend; dsimp only
      split <;> rfl
    · rfl

theorem State.rd_countVector {s : State} {v a : Nat} (h : a ≠ Reg.HIF_MSIXPBA) : (s.countVector v).rd a = s.rd a := by
  unfold State.countVector; dsimp only
  split
  · exact State.rd_sendVector h
  · rfl

/-- An event changes no register but its ring's index, the tally of lost events and the pending bits (R190 to R192). -/
theorem State.rd_event {s : State} {c r a : Nat} {d : Word} (h : a ∉ evRegs) : (s.event c r d).rd a = s.rd a := by
  simp only [evRegs, List.mem_cons, List.not_mem_nil, or_false, not_or] at h
  unfold State.event; dsimp only
  split
  · unfold State.evWrite; dsimp only
    rw [State.rd_countVector h.2.2]
    split
    · exact State.rd_setFld_ne _ _ _ _ (Ne.symm h.1)
    · exact State.rd_setFld_ne _ _ _ _ (Ne.symm h.1)
  · split
    · rfl
    · exact State.rd_tally_ne _ (Ne.symm h.2.1)

theorem State.rd_pend {s : State} {n src a : Nat} (h0 : a ≠ Reg.ICU_PENDLO n) (h1 : a ≠ Reg.ICU_PENDHI n) :
    (s.pend n src).rd a = s.rd a := by
  unfold State.pend
  split
  · exact s.rd_setBit_ne _ _ (Ne.symm h0)
  · exact s.rd_setBit_ne _ _ (Ne.symm h1)

/-- An interrupt source changes the pending registers of the four controllers only (R358). -/
theorem State.rd_source {s : State} {src a : Nat} (h : a ∉ icuRegs) : (s.source src).rd a = s.rd a := by
  simp only [icuRegs, List.mem_cons, List.not_mem_nil, or_false, not_or] at h
  obtain ⟨h0, h1, h2, h3, h4, h5, h6, h7⟩ := h
  unfold State.source
  rw [State.rd_pend h6 h7, State.rd_pend h4 h5, State.rd_pend h2 h3, State.rd_pend h0 h1]

theorem State.pend_other {s : State} {n m src : Nat} (h : n ≠ m) :
    (s.pend n src).rd (Reg.ICU_PENDLO m) = s.rd (Reg.ICU_PENDLO m) ∧
    (s.pend n src).rd (Reg.ICU_PENDHI m) = s.rd (Reg.ICU_PENDHI m) := by
  constructor <;> apply State.rd_pend <;> simp only [Reg.ICU_PENDLO, Reg.ICU_PENDHI] <;> omega

theorem State.pend_low {s : State} {n src : Nat} (h : src < 32) : (s.pend n src).bit (Reg.ICU_PENDLO n) src = true := by
  unfold State.pend; rw [if_pos h]; exact s.bit_setBit_same _ h

theorem State.pend_high {s : State} {n src : Nat} (h : 32 ≤ src) (h' : src < 64) :
    (s.pend n src).bit (Reg.ICU_PENDHI n) (src - 32) = true := by
  unfold State.pend; rw [if_neg (by omega)]; exact s.bit_setBit_same _ (by omega)

/-- An interrupt source sets its pending bit in every core's controller (R357, R358). -/
theorem State.source_low {s : State} {n src : Nat} (hn : n < 4) (h : src < 32) :
    (s.source src).bit (Reg.ICU_PENDLO n) src = true := by
  unfold State.source State.bit
  have key : ∀ (t : State) (m : Nat), n ≠ m → (t.pend m src).rd (Reg.ICU_PENDLO n) = t.rd (Reg.ICU_PENDLO n) :=
    fun t m e => (State.pend_other (Ne.symm e)).1
  have same : ∀ t : State, W.bit ((t.pend n src).rd (Reg.ICU_PENDLO n)) src = true := fun t => State.pend_low h
  obtain rfl | rfl | rfl | rfl : n = 0 ∨ n = 1 ∨ n = 2 ∨ n = 3 := by omega
  · rw [key _ 3 (by omega), key _ 2 (by omega), key _ 1 (by omega)]; exact same _
  · rw [key _ 3 (by omega), key _ 2 (by omega)]; exact same _
  · rw [key _ 3 (by omega)]; exact same _
  · exact same _

theorem State.source_high {s : State} {n src : Nat} (hn : n < 4) (h : 32 ≤ src) (h' : src < 64) :
    (s.source src).bit (Reg.ICU_PENDHI n) (src - 32) = true := by
  unfold State.source State.bit
  have key : ∀ (t : State) (m : Nat), n ≠ m → (t.pend m src).rd (Reg.ICU_PENDHI n) = t.rd (Reg.ICU_PENDHI n) :=
    fun t m e => (State.pend_other (Ne.symm e)).2
  have same : ∀ t : State, W.bit ((t.pend n src).rd (Reg.ICU_PENDHI n)) (src - 32) = true := fun t => State.pend_high h h'
  obtain rfl | rfl | rfl | rfl : n = 0 ∨ n = 1 ∨ n = 2 ∨ n = 3 := by omega
  · rw [key _ 3 (by omega), key _ 2 (by omega), key _ 1 (by omega)]; exact same _
  · rw [key _ 3 (by omega), key _ 2 (by omega)]; exact same _
  · rw [key _ 3 (by omega)]; exact same _
  · exact same _

theorem State.source_asserted (s : State) {src : Nat} (h : src < 64) : (s.source src).asserted src = true := by
  rw [State.asserted, List.all_eq_true]
  intro n hn
  have hn : n < 4 := List.mem_range.mp hn
  split
  · exact State.source_low hn ‹_›
  · exact State.source_high hn (by omega) h

/-- What is pending depends on the controllers' registers only. -/
theorem State.asserted_congr {s t : State} {src : Nat} (h : ∀ a ∈ icuRegs, t.rd a = s.rd a) :
    t.asserted src = s.asserted src := by
  have hb : ∀ n < 4, t.rd (Reg.ICU_PENDLO n) = s.rd (Reg.ICU_PENDLO n) ∧ t.rd (Reg.ICU_PENDHI n) = s.rd (Reg.ICU_PENDHI n) := by
    intro n hn
    obtain rfl | rfl | rfl | rfl : n = 0 ∨ n = 1 ∨ n = 2 ∨ n = 3 := by omega
    all_goals exact ⟨h _ (by simp [icuRegs]), h _ (by simp [icuRegs])⟩
  rw [Bool.eq_iff_iff, State.asserted, State.asserted, List.all_eq_true, List.all_eq_true]
  constructor <;> intro k n hn <;> have k := k n hn <;> obtain ⟨h1, h2⟩ := hb n (List.mem_range.mp hn) <;>
    simp only [State.bit, h1, h2] at k ⊢ <;> exact k

theorem State.asserted_event {s : State} {c r src : Nat} {d : Word} : (s.event c r d).asserted src = s.asserted src :=
  State.asserted_congr fun a h => State.rd_event (by
    simp only [icuRegs, List.mem_cons, List.not_mem_nil, or_false] at h
    rcases h with rfl | rfl | rfl | rfl | rfl | rfl | rfl | rfl <;> decide)

theorem State.sendVector_hif {s : State} {v : Nat} : (s.sendVector v).hif.evHold = s.hif.evHold ∧
    (s.sendVector v).hif.evLost = s.hif.evLost := by
  unfold State.sendVector
  split
  · unfold State.msixSend; dsimp only
    split <;> exact ⟨rfl, rfl⟩
  · split
    · unfold State.msiSend; dsimp only
      split <;> exact ⟨rfl, rfl⟩
    · exact ⟨rfl, rfl⟩

theorem State.sendVector_out {s : State} {v : Nat} {o : Out} (h : o ∈ s.out) : o ∈ (s.sendVector v).out := by
  unfold State.sendVector
  split
  · unfold State.msixSend; dsimp only
    split
    · exact h
    · exact List.mem_append_left _ h
  · split
    · unfold State.msiSend; dsimp only
      split
      · exact h
      · exact List.mem_append_left _ h
    · exact h

theorem State.countVector_out {s : State} {v : Nat} {o : Out} (h : o ∈ s.out) : o ∈ (s.countVector v).out := by
  unfold State.countVector; dsimp only
  split
  · exact State.sendVector_out h
  · exact h

/-- An event is raised: it waits, has been written, or counts as lost. -/
theorem State.event_raised (s : State) (c r : Nat) (d : Word) : (s.event c r d).raised c r d := by
  unfold State.event; dsimp only
  split
  · unfold State.evWrite; dsimp only
    refine .inr (.inl ⟨s.ringBase Reg.HIF_EV_BASE_LO Reg.HIF_EV_BASE_HI + BitVec.ofNat 64 (16 * s.fld Reg.HIF_EV_IDX 16 12),
      W.lo32 s.clk.tb, State.countVector_out ?_⟩)
    split <;> exact List.mem_append_left _ (List.mem_append_right _ (List.mem_singleton.mpr rfl))
  · split
    · exact .inl ⟨_, List.mem_append_right _ (List.mem_singleton.mpr rfl)⟩
    · refine .inr (.inr ?_)
      show 0 < min 0xFFFFFFFF _
      omega

/-- What has been raised stays raised where events, losses and what has left the part are kept. -/
theorem State.raised_congr {s t : State} {c r : Nat} {d : Word} (h : s.raised c r d) (h1 : t.hif = s.hif) (h2 : t.out = s.out) :
    t.raised c r d := by
  unfold State.raised at *
  rw [h1, h2]
  exact h

end Sys2Proof.Machine
end

