-- ==== Sys2Proof/Laws/Tsuvo.lean ====
section
/-!
SUPPORT. Frames of Machine/Tsuvo.lean: which parts of the state each of its operations and commands may change.
-/
namespace Sys2Proof.Machine

theorem execLiteral_keeps {a1 a2 s} :
    Answers [.regs, .mem, .ecc, .clk, .sup, .boot, .hif, .cores, .coh, .dma, .pool, .adc, .sd, .cmp, .pwm, .diag, .cap, .qd, .kle, .ports, .se, .mbm, .pp, .out, .free]
      s (execLiteral a1 a2 s) := by
  unfold execLiteral
  refine Answers.next ?_
  refine State.issue_keeps (by decide) ?_ ?_
  · exact Keeps.refl _ _
  · intro y1 y2
    refine ResKeeps.bind ?_ ?_
    · refine ResKeeps.after State.roomD_keeps (by decide) ?_
      exact y2
    · intro y3 y4 y5
      refine ResKeeps.ok ?_
      refine Keeps.after State.pushD_keeps (by decide) ?_
      exact y5

theorem State.taken_keeps {s a2 a3} : ResKeeps [.cores] s (State.taken s a2 a3) := by
  unfold State.taken
  refine ResKeeps.ok ?_
  refine Keeps.after State.age_keeps (by decide) ?_
  exact Keeps.refl _ _

theorem execBr_keeps {a1 a2 s} :
    Answers [.regs, .mem, .ecc, .clk, .sup, .boot, .hif, .cores, .coh, .dma, .pool, .adc, .sd, .cmp, .pwm, .diag, .cap, .qd, .kle, .ports, .se, .mbm, .pp, .out, .free]
      s (execBr a1 a2 s) := by
  unfold execBr
  refine Answers.next ?_
  refine State.issue_keeps (by decide) ?_ ?_
  · exact Keeps.refl _ _
  · intro y1 y2
    refine ResKeeps.after State.taken_keeps (by decide) ?_
    exact y2

theorem execBz_keeps {a1 a2 s} :
    Answers [.regs, .mem, .ecc, .clk, .sup, .boot, .hif, .cores, .coh, .dma, .pool, .adc, .sd, .cmp, .pwm, .diag, .cap, .qd, .kle, .ports, .se, .mbm, .pp, .out, .reply, .free]
      s (execBz a1 a2 s) := by
  unfold execBz
  refine Answers.next ?_
  refine State.issue_keeps (by decide) ?_ ?_
  · exact Keeps.refl _ _
  · intro y1 y2
    refine State.popD_keeps (by decide) ?_ ?_
    · exact y2
    · intro y3 y4 y5
      refine ResKeeps.ite ?_ ?_
      · refine ResKeeps.after State.taken_keeps (by decide) ?_
        exact y5
      · refine ResKeeps.ok ?_
        exact y5

theorem execBnz_keeps {a1 a2 s} :
    Answers [.regs, .mem, .ecc, .clk, .sup, .boot, .hif, .cores, .coh, .dma, .pool, .adc, .sd, .cmp, .pwm, .diag, .cap, .qd, .kle, .ports, .se, .mbm, .pp, .out, .reply, .free]
      s (execBnz a1 a2 s) := by
  unfold execBnz
  refine Answers.next ?_
  refine State.issue_keeps (by decide) ?_ ?_
  · exact Keeps.refl _ _
  · intro y1 y2
    refine State.popD_keeps (by decide) ?_ ?_
    · exact y2
    · intro y3 y4 y5
      refine ResKeeps.ite ?_ ?_
      · refine ResKeeps.ok ?_
        exact y5
      · refine ResKeeps.after State.taken_keeps (by decide) ?_
        exact y5

theorem execLoop_keeps {a1 a2 s} :
    Answers [.regs, .mem, .ecc, .clk, .sup, .boot, .hif, .cores, .coh, .dma, .pool, .adc, .sd, .cmp, .pwm, .diag, .cap, .qd, .kle, .ports, .se, .mbm, .pp, .out, .reply, .free]
      s (execLoop a1 a2 s) := by
  unfold execLoop
  refine Answers.next ?_
  refine State.issue_keeps (by decide) ?_ ?_
  · exact Keeps.refl _ _
  · intro y1 y2
    refine ResKeeps.bind ?_ ?_
    · refine ResKeeps.after State.needR_keeps (by decide) ?_
      exact y2
    · intro y3 y4 y5
      extract_lets x6 x7 x8
      refine ResKeeps.ite ?_ ?_
      · refine ResKeeps.ok ?_
        refine Keeps.after State.setCore_keeps (by decide) ?_
        exact y5
      · refine ResKeeps.after State.taken_keeps (by decide) ?_
        refine Keeps.after State.setCore_keeps (by decide) ?_
        exact y5

theorem execCall_keeps {a1 a2 s} :
    Answers [.regs, .mem, .ecc, .clk, .sup, .boot, .hif, .cores, .coh, .dma, .pool, .adc, .sd, .cmp, .pwm, .diag, .cap, .qd, .kle, .ports, .se, .mbm, .pp, .out, .free]
      s (execCall a1 a2 s) := by
  unfold execCall
  refine Answers.next ?_
  refine State.issue_keeps (by decide) ?_ ?_
  · exact Keeps.refl _ _
  · intro y1 y2
    refine ResKeeps.bind ?_ ?_
    · refine ResKeeps.after State.pushR_keeps (by decide) ?_
      exact y2
    · intro y3 y4 y5
      refine ResKeeps.ok ?_
      exact y5

theorem execNopOperation_keeps {a1 s} :
    Answers [.regs, .mem, .ecc, .clk, .sup, .boot, .hif, .cores, .coh, .dma, .pool, .adc, .sd, .cmp, .pwm, .diag, .cap, .qd, .kle, .ports, .se, .mbm, .pp, .out, .free]
      s (execNopOperation a1 s) := by
  unfold execNopOperation
  refine Answers.next ?_
  refine State.issue_keeps (by decide) ?_ ?_
  · exact Keeps.refl _ _
  · intro y1 y2
    refine ResKeeps.ok ?_
    exact y2

theorem execDup_keeps {a1 s} :
    Answers [.regs, .mem, .ecc, .clk, .sup, .boot, .hif, .cores, .coh, .dma, .pool, .adc, .sd, .cmp, .pwm, .diag, .cap, .qd, .kle, .ports, .se, .mbm, .pp, .out, .reply, .free]
      s (execDup a1 s) := by
  unfold execDup
  refine Answers.next ?_
  refine Keeps.after State.moveOp_keeps (by decide) ?_
  exact Keeps.refl _ _

theorem execDrop_keeps {a1 s} :
    Answers [.regs, .mem, .ecc, .clk, .sup, .boot, .hif, .cores, .coh, .dma, .pool, .adc, .sd, .cmp, .pwm, .diag, .cap, .qd, .kle, .ports, .se, .mbm, .pp, .out, .reply, .free]
      s (execDrop a1 s) := by
  unfold execDrop
  refine Answers.next ?_
  refine Keeps.after State.moveOp_keeps (by decide) ?_
  exact Keeps.refl _ _

theorem execSwap_keeps {a1 s} :
    Answers [.regs, .mem, .ecc, .clk, .sup, .boot, .hif, .cores, .coh, .dma, .pool, .adc, .sd, .cmp, .pwm, .diag, .cap, .qd, .kle, .ports, .se, .mbm, .pp, .out, .reply, .free]
      s (execSwap a1 s) := by
  unfold execSwap
  refine Answers.next ?_
  refine Keeps.after State.moveOp_keeps (by decide) ?_
  exact Keeps.refl _ _

theorem execOverWord_keeps {a1 s} :
    Answers [.regs, .mem, .ecc, .clk, .sup, .boot, .hif, .cores, .coh, .dma, .pool, .adc, .sd, .cmp, .pwm, .diag, .cap, .qd, .kle, .ports, .se, .mbm, .pp, .out, .reply, .free]
      s (execOverWord a1 s) := by
  unfold execOverWord
  refine Answers.next ?_
  refine Keeps.after State.moveOp_keeps (by decide) ?_
  exact Keeps.refl _ _

theorem execRot_keeps {a1 s} :
    Answers [.regs, .mem, .ecc, .clk, .sup, .boot, .hif, .cores, .coh, .dma, .pool, .adc, .sd, .cmp, .pwm, .diag, .cap, .qd, .kle, .ports, .se, .mbm, .pp, .out, .reply, .free]
      s (execRot a1 s) := by
  unfold execRot
  refine Answers.next ?_
  refine Keeps.after State.moveOp_keeps (by decide) ?_
  exact Keeps.refl _ _

theorem execNip_keeps {a1 s} :
    Answers [.regs, .mem, .ecc, .clk, .sup, .boot, .hif, .cores, .coh, .dma, .pool, .adc, .sd, .cmp, .pwm, .diag, .cap, .qd, .kle, .ports, .se, .mbm, .pp, .out, .reply, .free]
      s (execNip a1 s) := by
  unfold execNip
  refine Answers.next ?_
  refine Keeps.after State.moveOp_keeps (by decide) ?_
  exact Keeps.refl _ _

theorem execTuck_keeps {a1 s} :
    Answers [.regs, .mem, .ecc, .clk, .sup, .boot, .hif, .cores, .coh, .dma, .pool, .adc, .sd, .cmp, .pwm, .diag, .cap, .qd, .kle, .ports, .se, .mbm, .pp, .out, .reply, .free]
      s (execTuck a1 s) := by
  unfold execTuck
  refine Answers.next ?_
  refine Keeps.after State.moveOp_keeps (by decide) ?_
  exact Keeps.refl _ _

theorem execTwoDup_keeps {a1 s} :
    Answers [.regs, .mem, .ecc, .clk, .sup, .boot, .hif, .cores, .coh, .dma, .pool, .adc, .sd, .cmp, .pwm, .diag, .cap, .qd, .kle, .ports, .se, .mbm, .pp, .out, .reply, .free]
      s (execTwoDup a1 s) := by
  unfold execTwoDup
  refine Answers.next ?_
  refine Keeps.after State.moveOp_keeps (by decide) ?_
  exact Keeps.refl _ _

theorem execTwoDrop_keeps {a1 s} :
    Answers [.regs, .mem, .ecc, .clk, .sup, .boot, .hif, .cores, .coh, .dma, .pool, .adc, .sd, .cmp, .pwm, .diag, .cap, .qd, .kle, .ports, .se, .mbm, .pp, .out, .reply, .free]
      s (execTwoDrop a1 s) := by
  unfold execTwoDrop
  refine Answers.next ?_
  refine Keeps.after State.moveOp_keeps (by decide) ?_
  exact Keeps.refl _ _

theorem execPick_keeps {a1 s} :
    Answers [.regs, .mem, .ecc, .clk, .sup, .boot, .hif, .cores, .coh, .dma, .pool, .adc, .sd, .cmp, .pwm, .diag, .cap, .qd, .kle, .ports, .se, .mbm, .pp, .out, .reply, .free]
      s (execPick a1 s) := by
  unfold execPick
  refine Answers.next ?_
  refine State.issue_keeps (by decide) ?_ ?_
  · exact Keeps.refl _ _
  · intro y1 y2
    refine ResKeeps.bind ?_ ?_
    · refine ResKeeps.after State.needD_keeps (by decide) ?_
      exact y2
    · intro y3 y4 y5
      extract_lets x6 x7
      have hx6 : Keeps [.regs, .mem, .ecc, .clk, .sup, .boot, .hif, .cores, .coh, .dma, .pool, .adc, .sd, .cmp, .pwm, .diag, .cap, .qd, .kle, .ports, .se, .mbm, .pp, .out, .reply, .free] s x6 := by
        unfold x6
        refine Keeps.after State.await_keeps (by decide) ?_
        exact y5
      refine ResKeeps.ite ?_ ?_
      · refine ResKeeps.after illegal_keeps (by decide) ?_
        exact hx6
      · refine ResKeeps.bind ?_ ?_
        · refine ResKeeps.after State.needD_keeps (by decide) ?_
          exact hx6
        · intro y8 y9 y10
          extract_lets x11 x12
          have hx12 : Keeps [.regs, .mem, .ecc, .clk, .sup, .boot, .hif, .cores, .coh, .dma, .pool, .adc, .sd, .cmp, .pwm, .diag, .cap, .qd, .kle, .ports, .se, .mbm, .pp, .out, .reply, .free] s x12 := by
            unfold x12
            refine Keeps.after State.setCore_keeps (by decide) ?_
            exact y10
          refine ResKeeps.ok ?_
          refine Keeps.after State.pushM_keeps (by decide) ?_
          exact hx12

theorem execToR_keeps {a1 s} :
    Answers [.regs, .mem, .ecc, .clk, .sup, .boot, .hif, .cores, .coh, .dma, .pool, .adc, .sd, .cmp, .pwm, .diag, .cap, .qd, .kle, .ports, .se, .mbm, .pp, .out, .reply, .free]
      s (execToR a1 s) := by
  unfold execToR
  refine Answers.next ?_
  refine State.issue_keeps (by decide) ?_ ?_
  · exact Keeps.refl _ _
  · intro y1 y2
    refine State.popD_keeps (by decide) ?_ ?_
    · exact y2
    · intro y3 y4 y5
      refine ResKeeps.bind ?_ ?_
      · refine ResKeeps.after State.pushR_keeps (by decide) ?_
        exact y5
      · intro y6 y7 y8
        refine ResKeeps.ok ?_
        exact y8

theorem State.fromR_keeps {s a2 a3} :
    ResKeeps [.regs, .mem, .ecc, .clk, .sup, .boot, .hif, .cores, .coh, .dma, .pool, .adc, .sd, .cmp, .pwm, .diag, .cap, .qd, .kle, .ports, .se, .mbm, .pp, .out, .reply, .free]
      s (State.fromR s a2 a3) := by
  unfold State.fromR
  refine ResKeeps.bind ?_ ?_
  · refine ResKeeps.after State.needR_keeps (by decide) ?_
    exact Keeps.refl _ _
  · intro y1 y2 y3
    refine ResKeeps.bind ?_ ?_
    · refine ResKeeps.after State.roomD_keeps (by decide) ?_
      exact y3
    · intro y4 y5 y6
      extract_lets x7
      refine ResKeeps.ok ?_
      refine Keeps.after State.pushD_keeps (by decide) ?_
      refine Keeps.after State.setCore_keeps (by decide) ?_
      exact y6

theorem execRFrom_keeps {a1 s} :
    Answers [.regs, .mem, .ecc, .clk, .sup, .boot, .hif, .cores, .coh, .dma, .pool, .adc, .sd, .cmp, .pwm, .diag, .cap, .qd, .kle, .ports, .se, .mbm, .pp, .out, .reply, .free]
      s (execRFrom a1 s) := by
  unfold execRFrom
  refine Answers.next ?_
  refine State.issue_keeps (by decide) ?_ ?_
  · exact Keeps.refl _ _
  · intro y1 y2
    refine ResKeeps.after State.fromR_keeps (by decide) ?_
    exact y2

theorem execRFetch_keeps {a1 s} :
    Answers [.regs, .mem, .ecc, .clk, .sup, .boot, .hif, .cores, .coh, .dma, .pool, .adc, .sd, .cmp, .pwm, .diag, .cap, .qd, .kle, .ports, .se, .mbm, .pp, .out, .reply, .free]
      s (execRFetch a1 s) := by
  unfold execRFetch
  refine Answers.next ?_
  refine State.issue_keeps (by decide) ?_ ?_
  · exact Keeps.refl _ _
  · intro y1 y2
    refine ResKeeps.after State.fromR_keeps (by decide) ?_
    exact y2

theorem execRdrop_keeps {a1 s} :
    Answers [.regs, .mem, .ecc, .clk, .sup, .boot, .hif, .cores, .coh, .dma, .pool, .adc, .sd, .cmp, .pwm, .diag, .cap, .qd, .kle, .ports, .se, .mbm, .pp, .out, .reply, .free]
      s (execRdrop a1 s) := by
  unfold execRdrop
  refine Answers.next ?_
  refine State.issue_keeps (by decide) ?_ ?_
  · exact Keeps.refl _ _
  · intro y1 y2
    refine ResKeeps.bind ?_ ?_
    · refine ResKeeps.after State.needR_keeps (by decide) ?_
      exact y2
    · intro y3 y4 y5
      extract_lets x6
      refine ResKeeps.ok ?_
      refine Keeps.after State.setCore_keeps (by decide) ?_
      exact y5

theorem execMinusRot_keeps {a1 s} :
    Answers [.regs, .mem, .ecc, .clk, .sup, .boot, .hif, .cores, .coh, .dma, .pool, .adc, .sd, .cmp, .pwm, .diag, .cap, .qd, .kle, .ports, .se, .mbm, .pp, .out, .reply, .free]
      s (execMinusRot a1 s) := by
  unfold execMinusRot
  refine Answers.next ?_
  refine Keeps.after State.moveOp_keeps (by decide) ?_
  exact Keeps.refl _ _

theorem execAdd_keeps {a1 s} :
    Answers [.regs, .mem, .ecc, .clk, .sup, .boot, .hif, .cores, .coh, .dma, .pool, .adc, .sd, .cmp, .pwm, .diag, .cap, .qd, .kle, .ports, .se, .mbm, .pp, .out, .reply, .free]
      s (execAdd a1 s) := by
  unfold execAdd
  refine Answers.next ?_
  refine Keeps.after State.stackOp_keeps (by decide) ?_
  exact Keeps.refl _ _

theorem execSub_keeps {a1 s} :
    Answers [.regs, .mem, .ecc, .clk, .sup, .boot, .hif, .cores, .coh, .dma, .pool, .adc, .sd, .cmp, .pwm, .diag, .cap, .qd, .kle, .ports, .se, .mbm, .pp, .out, .reply, .free]
      s (execSub a1 s) := by
  unfold execSub
  refine Answers.next ?_
  refine Keeps.after State.stackOp_keeps (by decide) ?_
  exact Keeps.refl _ _

theorem execAdc_keeps {a1 s} :
    Answers [.regs, .mem, .ecc, .clk, .sup, .boot, .hif, .cores, .coh, .dma, .pool, .adc, .sd, .cmp, .pwm, .diag, .cap, .qd, .kle, .ports, .se, .mbm, .pp, .out, .reply, .free]
      s (execAdc a1 s) := by
  unfold execAdc
  refine Answers.next ?_
  refine Keeps.after State.stackOp_keeps (by decide) ?_
  exact Keeps.refl _ _

theorem execSbc_keeps {a1 s} :
    Answers [.regs, .mem, .ecc, .clk, .sup, .boot, .hif, .cores, .coh, .dma, .pool, .adc, .sd, .cmp, .pwm, .diag, .cap, .qd, .kle, .ports, .se, .mbm, .pp, .out, .reply, .free]
      s (execSbc a1 s) := by
  unfold execSbc
  refine Answers.next ?_
  refine Keeps.after State.stackOp_keeps (by decide) ?_
  exact Keeps.refl _ _

theorem execAdds_keeps {a1 s} :
    Answers [.regs, .mem, .ecc, .clk, .sup, .boot, .hif, .cores, .coh, .dma, .pool, .adc, .sd, .cmp, .pwm, .diag, .cap, .qd, .kle, .ports, .se, .mbm, .pp, .out, .reply, .free]
      s (execAdds a1 s) := by
  unfold execAdds
  refine Answers.next ?_
  refine Keeps.after State.stackOp_keeps (by decide) ?_
  exact Keeps.refl _ _

theorem execSubs_keeps {a1 s} :
    Answers [.regs, .mem, .ecc, .clk, .sup, .boot, .hif, .cores, .coh, .dma, .pool, .adc, .sd, .cmp, .pwm, .diag, .cap, .qd, .kle, .ports, .se, .mbm, .pp, .out, .reply, .free]
      s (execSubs a1 s) := by
  unfold execSubs
  refine Answers.next ?_
  refine Keeps.after State.stackOp_keeps (by decide) ?_
  exact Keeps.refl _ _

theorem execNeg_keeps {a1 s} :
    Answers [.regs, .mem, .ecc, .clk, .sup, .boot, .hif, .cores, .coh, .dma, .pool, .adc, .sd, .cmp, .pwm, .diag, .cap, .qd, .kle, .ports, .se, .mbm, .pp, .out, .reply, .free]
      s (execNeg a1 s) := by
  unfold execNeg
  refine Answers.next ?_
  refine Keeps.after State.stackOp_keeps (by decide) ?_
  exact Keeps.refl _ _

theorem execAbs_keeps {a1 s} :
    Answers [.regs, .mem, .ecc, .clk, .sup, .boot, .hif, .cores, .coh, .dma, .pool, .adc, .sd, .cmp, .pwm, .diag, .cap, .qd, .kle, .ports, .se, .mbm, .pp, .out, .reply, .free]
      s (execAbs a1 s) := by
  unfold execAbs
  refine Answers.next ?_
  refine Keeps.after State.stackOp_keeps (by decide) ?_
  exact Keeps.refl _ _

theorem execAnd_keeps {a1 s} :
    Answers [.regs, .mem, .ecc, .clk, .sup, .boot, .hif, .cores, .coh, .dma, .pool, .adc, .sd, .cmp, .pwm, .diag, .cap, .qd, .kle, .ports, .se, .mbm, .pp, .out, .reply, .free]
      s (execAnd a1 s) := by
  unfold execAnd
  refine Answers.next ?_
  refine Keeps.after State.stackOp_keeps (by decide) ?_
  exact Keeps.refl _ _

theorem execOr_keeps {a1 s} :
    Answers [.regs, .mem, .ecc, .clk, .sup, .boot, .hif, .cores, .coh, .dma, .pool, .adc, .sd, .cmp, .pwm, .diag, .cap, .qd, .kle, .ports, .se, .mbm, .pp, .out, .reply, .free]
      s (execOr a1 s) := by
  unfold execOr
  refine Answers.next ?_
  refine Keeps.after State.stackOp_keeps (by decide) ?_
  exact Keeps.refl _ _

theorem execXor_keeps {a1 s} :
    Answers [.regs, .mem, .ecc, .clk, .sup, .boot, .hif, .cores, .coh, .dma, .pool, .adc, .sd, .cmp, .pwm, .diag, .cap, .qd, .kle, .ports, .se, .mbm, .pp, .out, .reply, .free]
      s (execXor a1 s) := by
  unfold execXor
  refine Answers.next ?_
  refine Keeps.after State.stackOp_keeps (by decide) ?_
  exact Keeps.refl _ _

theorem execInv_keeps {a1 s} :
    Answers [.regs, .mem, .ecc, .clk, .sup, .boot, .hif, .cores, .coh, .dma, .pool, .adc, .sd, .cmp, .pwm, .diag, .cap, .qd, .kle, .ports, .se, .mbm, .pp, .out, .reply, .free]
      s (execInv a1 s) := by
  unfold execInv
  refine Answers.next ?_
  refine Keeps.after State.stackOp_keeps (by decide) ?_
  exact Keeps.refl _ _

theorem execOnePlus_keeps {a1 s} :
    Answers [.regs, .mem, .ecc, .clk, .sup, .boot, .hif, .cores, .coh, .dma, .pool, .adc, .sd, .cmp, .pwm, .diag, .cap, .qd, .kle, .ports, .se, .mbm, .pp, .out, .reply, .free]
      s (execOnePlus a1 s) := by
  unfold execOnePlus
  refine Answers.next ?_
  refine Keeps.after State.stackOp_keeps (by decide) ?_
  exact Keeps.refl _ _

theorem execOneMinus_keeps {a1 s} :
    Answers [.regs, .mem, .ecc, .clk, .sup, .boot, .hif, .cores, .coh, .dma, .pool, .adc, .sd, .cmp, .pwm, .diag, .cap, .qd, .kle, .ports, .se, .mbm, .pp, .out, .reply, .free]
      s (execOneMinus a1 s) := by
  unfold execOneMinus
  refine Answers.next ?_
  refine Keeps.after State.stackOp_keeps (by decide) ?_
  exact Keeps.refl _ _

theorem execTwoStar_keeps {a1 s} :
    Answers [.regs, .mem, .ecc, .clk, .sup, .boot, .hif, .cores, .coh, .dma, .pool, .adc, .sd, .cmp, .pwm, .diag, .cap, .qd, .kle, .ports, .se, .mbm, .pp, .out, .reply, .free]
      s (execTwoStar a1 s) := by
  unfold execTwoStar
  refine Answers.next ?_
  refine Keeps.after State.stackOp_keeps (by decide) ?_
  exact Keeps.refl _ _

theorem execTwoSlash_keeps {a1 s} :
    Answers [.regs, .mem, .ecc, .clk, .sup, .boot, .hif, .cores, .coh, .dma, .pool, .adc, .sd, .cmp, .pwm, .diag, .cap, .qd, .kle, .ports, .se, .mbm, .pp, .out, .reply, .free]
      s (execTwoSlash a1 s) := by
  unfold execTwoSlash
  refine Answers.next ?_
  refine Keeps.after State.stackOp_keeps (by decide) ?_
  exact Keeps.refl _ _

theorem execShl_keeps {a1 s} :
    Answers [.regs, .mem, .ecc, .clk, .sup, .boot, .hif, .cores, .coh, .dma, .pool, .adc, .sd, .cmp, .pwm, .diag, .cap, .qd, .kle, .ports, .se, .mbm, .pp, .out, .reply, .free]
      s (execShl a1 s) := by
  unfold execShl
  refine Answers.next ?_
  refine Keeps.after State.stackOp_keeps (by decide) ?_
  exact Keeps.refl _ _

theorem execShr_keeps {a1 s} :
    Answers [.regs, .mem, .ecc, .clk, .sup, .boot, .hif, .cores, .coh, .dma, .pool, .adc, .sd, .cmp, .pwm, .diag, .cap, .qd, .kle, .ports, .se, .mbm, .pp, .out, .reply, .free]
      s (execShr a1 s) := by
  unfold execShr
  refine Answers.next ?_
  refine Keeps.after State.stackOp_keeps (by decide) ?_
  exact Keeps.refl _ _

theorem execAsr_keeps {a1 s} :
    Answers [.regs, .mem, .ecc, .clk, .sup, .boot, .hif, .cores, .coh, .dma, .pool, .adc, .sd, .cmp, .pwm, .diag, .cap, .qd, .kle, .ports, .se, .mbm, .pp, .out, .reply, .free]
      s (execAsr a1 s) := by
  unfold execAsr
  refine Answers.next ?_
  refine Keeps.after State.stackOp_keeps (by decide) ?_
  exact Keeps.refl _ _

theorem execRol_keeps {a1 s} :
    Answers [.regs, .mem, .ecc, .clk, .sup, .boot, .hif, .cores, .coh, .dma, .pool, .adc, .sd, .cmp, .pwm, .diag, .cap, .qd, .kle, .ports, .se, .mbm, .pp, .out, .reply, .free]
      s (execRol a1 s) := by
  unfold execRol
  refine Answers.next ?_
  refine Keeps.after State.stackOp_keeps (by decide) ?_
  exact Keeps.refl _ _

theorem execMin_keeps {a1 s} :
    Answers [.regs, .mem, .ecc, .clk, .sup, .boot, .hif, .cores, .coh, .dma, .pool, .adc, .sd, .cmp, .pwm, .diag, .cap, .qd, .kle, .ports, .se, .mbm, .pp, .out, .reply, .free]
      s (execMin a1 s) := by
  unfold execMin
  refine Answers.next ?_
  refine Keeps.after State.stackOp_keeps (by decide) ?_
  exact Keeps.refl _ _

theorem execMax_keeps {a1 s} :
    Answers [.regs, .mem, .ecc, .clk, .sup, .boot, .hif, .cores, .coh, .dma, .pool, .adc, .sd, .cmp, .pwm, .diag, .cap, .qd, .kle, .ports, .se, .mbm, .pp, .out, .reply, .free]
      s (execMax a1 s) := by
  unfold execMax
  refine Answers.next ?_
  refine Keeps.after State.stackOp_keeps (by decide) ?_
  exact Keeps.refl _ _

theorem execClip_keeps {a1 s} :
    Answers [.regs, .mem, .ecc, .clk, .sup, .boot, .hif, .cores, .coh, .dma, .pool, .adc, .sd, .cmp, .pwm, .diag, .cap, .qd, .kle, .ports, .se, .mbm, .pp, .out, .reply, .free]
      s (execClip a1 s) := by
  unfold execClip
  refine Answers.next ?_
  refine Keeps.after State.stackOp_keeps (by decide) ?_
  exact Keeps.refl _ _

theorem execExt_keeps {a1 s} :
    Answers [.regs, .mem, .ecc, .clk, .sup, .boot, .hif, .cores, .coh, .dma, .pool, .adc, .sd, .cmp, .pwm, .diag, .cap, .qd, .kle, .ports, .se, .mbm, .pp, .out, .reply, .free]
      s (execExt a1 s) := by
  unfold execExt
  refine Answers.next ?_
  refine Keeps.after State.stackOp_keeps (by decide) ?_
  exact Keeps.refl _ _

theorem execEqual_keeps {a1 s} :
    Answers [.regs, .mem, .ecc, .clk, .sup, .boot, .hif, .cores, .coh, .dma, .pool, .adc, .sd, .cmp, .pwm, .diag, .cap, .qd, .kle, .ports, .se, .mbm, .pp, .out, .reply, .free]
      s (execEqual a1 s) := by
  unfold execEqual
  refine Answers.next ?_
  refine Keeps.after State.stackOp_keeps (by decide) ?_
  exact Keeps.refl _ _

theorem execNotEqual_keeps {a1 s} :
    Answers [.regs, .mem, .ecc, .clk, .sup, .boot, .hif, .cores, .coh, .dma, .pool, .adc, .sd, .cmp, .pwm, .diag, .cap, .qd, .kle, .ports, .se, .mbm, .pp, .out, .reply, .free]
      s (execNotEqual a1 s) := by
  unfold execNotEqual
  refine Answers.next ?_
  refine Keeps.after State.stackOp_keeps (by decide) ?_
  exact Keeps.refl _ _

theorem execLess_keeps {a1 s} :
    Answers [.regs, .mem, .ecc, .clk, .sup, .boot, .hif, .cores, .coh, .dma, .pool, .adc, .sd, .cmp, .pwm, .diag, .cap, .qd, .kle, .ports, .se, .mbm, .pp, .out, .reply, .free]
      s (execLess a1 s) := by
  unfold execLess
  refine Answers.next ?_
  refine Keeps.after State.stackOp_keeps (by decide) ?_
  exact Keeps.refl _ _

theorem execGreater_keeps {a1 s} :
    Answers [.regs, .mem, .ecc, .clk, .sup, .boot, .hif, .cores, .coh, .dma, .pool, .adc, .sd, .cmp, .pwm, .diag, .cap, .qd, .kle, .ports, .se, .mbm, .pp, .out, .reply, .free]
      s (execGreater a1 s) := by
  unfold execGreater
  refine Answers.next ?_
  refine Keeps.after State.stackOp_keeps (by decide) ?_
  exact Keeps.refl _ _

theorem execULess_keeps {a1 s} :
    Answers [.regs, .mem, .ecc, .clk, .sup, .boot, .hif, .cores, .coh, .dma, .pool, .adc, .sd, .cmp, .pwm, .diag, .cap, .qd, .kle, .ports, .se, .mbm, .pp, .out, .reply, .free]
      s (execULess a1 s) := by
  unfold execULess
  refine Answers.next ?_
  refine Keeps.after State.stackOp_keeps (by decide) ?_
  exact Keeps.refl _ _

theorem execUGreater_keeps {a1 s} :
    Answers [.regs, .mem, .ecc, .clk, .sup, .boot, .hif, .cores, .coh, .dma, .pool, .adc, .sd, .cmp, .pwm, .diag, .cap, .qd, .kle, .ports, .se, .mbm, .pp, .out, .reply, .free]
      s (execUGreater a1 s) := by
  unfold execUGreater
  refine Answers.next ?_
  refine Keeps.after State.stackOp_keeps (by decide) ?_
  exact Keeps.refl _ _

theorem execZeroEqual_keeps {a1 s} :
    Answers [.regs, .mem, .ecc, .clk, .sup, .boot, .hif, .cores, .coh, .dma, .pool, .adc, .sd, .cmp, .pwm, .diag, .cap, .qd, .kle, .ports, .se, .mbm, .pp, .out, .reply, .free]
      s (execZeroEqual a1 s) := by
  unfold execZeroEqual
  refine Answers.next ?_
  refine Keeps.after State.stackOp_keeps (by decide) ?_
  exact Keeps.refl _ _

theorem execZeroLess_keeps {a1 s} :
    Answers [.regs, .mem, .ecc, .clk, .sup, .boot, .hif, .cores, .coh, .dma, .pool, .adc, .sd, .cmp, .pwm, .diag, .cap, .qd, .kle, .ports, .se, .mbm, .pp, .out, .reply, .free]
      s (execZeroLess a1 s) := by
  unfold execZeroLess
  refine Answers.next ?_
  refine Keeps.after State.stackOp_keeps (by decide) ?_
  exact Keeps.refl _ _

theorem execMul_keeps {a1 s} :
    Answers [.regs, .mem, .ecc, .clk, .sup, .boot, .hif, .cores, .coh, .dma, .pool, .adc, .sd, .cmp, .pwm, .diag, .cap, .qd, .kle, .ports, .se, .mbm, .pp, .out, .reply, .free]
      s (execMul a1 s) := by
  unfold execMul
  refine Answers.next ?_
  refine Keeps.after State.stackOp_keeps (by decide) ?_
  exact Keeps.refl _ _

theorem execUmul_keeps {a1 s} :
    Answers [.regs, .mem, .ecc, .clk, .sup, .boot, .hif, .cores, .coh, .dma, .pool, .adc, .sd, .cmp, .pwm, .diag, .cap, .qd, .kle, .ports, .se, .mbm, .pp, .out, .reply, .free]
      s (execUmul a1 s) := by
  unfold execUmul
  refine Answers.next ?_
  refine Keeps.after State.stackOp_keeps (by decide) ?_
  exact Keeps.refl _ _

theorem execMac_keeps {a1 s} :
    Answers [.regs, .mem, .ecc, .clk, .sup, .boot, .hif, .cores, .coh, .dma, .pool, .adc, .sd, .cmp, .pwm, .diag, .cap, .qd, .kle, .ports, .se, .mbm, .pp, .out, .reply, .free]
      s (execMac a1 s) := by
  unfold execMac
  refine Answers.next ?_
  refine Keeps.after State.stackOp_keeps (by decide) ?_
  exact Keeps.refl _ _

theorem execMsc_keeps {a1 s} :
    Answers [.regs, .mem, .ecc, .clk, .sup, .boot, .hif, .cores, .coh, .dma, .pool, .adc, .sd, .cmp, .pwm, .diag, .cap, .qd, .kle, .ports, .se, .mbm, .pp, .out, .reply, .free]
      s (execMsc a1 s) := by
  unfold execMsc
  refine Answers.next ?_
  refine Keeps.after State.stackOp_keeps (by decide) ?_
  exact Keeps.refl _ _

theorem execMacz_keeps {a1 s} :
    Answers [.regs, .mem, .ecc, .clk, .sup, .boot, .hif, .cores, .coh, .dma, .pool, .adc, .sd, .cmp, .pwm, .diag, .cap, .qd, .kle, .ports, .se, .mbm, .pp, .out, .reply, .free]
      s (execMacz a1 s) := by
  unfold execMacz
  refine Answers.next ?_
  refine Keeps.after State.stackOp_keeps (by decide) ?_
  exact Keeps.refl _ _

theorem execDiv_keeps {a1 s} :
    Answers [.regs, .mem, .ecc, .clk, .sup, .boot, .hif, .cores, .coh, .dma, .pool, .adc, .sd, .cmp, .pwm, .diag, .cap, .qd, .kle, .ports, .se, .mbm, .pp, .out, .reply, .free]
      s (execDiv a1 s) := by
  unfold execDiv
  refine Answers.next ?_
  refine Keeps.after State.stackOp_keeps (by decide) ?_
  exact Keeps.refl _ _

theorem execUdiv_keeps {a1 s} :
    Answers [.regs, .mem, .ecc, .clk, .sup, .boot, .hif, .cores, .coh, .dma, .pool, .adc, .sd, .cmp, .pwm, .diag, .cap, .qd, .kle, .ports, .se, .mbm, .pp, .out, .reply, .free]
      s (execUdiv a1 s) := by
  unfold execUdiv
  refine Answers.next ?_
  refine Keeps.after State.stackOp_keeps (by decide) ?_
  exact Keeps.refl _ _

theorem execLdiv_keeps {a1 s} :
    Answers [.regs, .mem, .ecc, .clk, .sup, .boot, .hif, .cores, .coh, .dma, .pool, .adc, .sd, .cmp, .pwm, .diag, .cap, .qd, .kle, .ports, .se, .mbm, .pp, .out, .reply, .free]
      s (execLdiv a1 s) := by
  unfold execLdiv
  refine Answers.next ?_
  refine Keeps.after State.stackOp_keeps (by decide) ?_
  exact Keeps.refl _ _

theorem execMultiplierResult_keeps {a1 s} : Answers [.cores] s (execMultiplierResult a1 s) := by
  unfold execMultiplierResult
  split
  · refine Answers.next ?_
    refine Keeps.ite ?_ ?_
    · refine Keeps.after State.age_keeps (by decide) ?_
      exact Keeps.refl _ _
    · exact Keeps.refl _ _
  · refine Answers.next ?_
    exact Keeps.refl _ _

theorem execDividerResult_keeps {a1 s} : Answers [.cores] s (execDividerResult a1 s) := by
  unfold execDividerResult
  split
  · refine Answers.next ?_
    refine Keeps.ite ?_ ?_
    · refine Keeps.after State.age_keeps (by decide) ?_
      exact Keeps.refl _ _
    · exact Keeps.refl _ _
  · refine Answers.next ?_
    exact Keeps.refl _ _

theorem execMlFetch_keeps {a1 s} :
    Answers [.regs, .mem, .ecc, .clk, .sup, .boot, .hif, .cores, .coh, .dma, .pool, .adc, .sd, .cmp, .pwm, .diag, .cap, .qd, .kle, .ports, .se, .mbm, .pp, .out, .reply, .free]
      s (execMlFetch a1 s) := by
  unfold execMlFetch
  refine Answers.next ?_
  refine Keeps.after State.stackOp_keeps (by decide) ?_
  exact Keeps.refl _ _

theorem execMhFetch_keeps {a1 s} :
    Answers [.regs, .mem, .ecc, .clk, .sup, .boot, .hif, .cores, .coh, .dma, .pool, .adc, .sd, .cmp, .pwm, .diag, .cap, .qd, .kle, .ports, .se, .mbm, .pp, .out, .reply, .free]
      s (execMhFetch a1 s) := by
  unfold execMhFetch
  refine Answers.next ?_
  refine Keeps.after State.stackOp_keeps (by decide) ?_
  exact Keeps.refl _ _

theorem execDqFetch_keeps {a1 s} :
    Answers [.regs, .mem, .ecc, .clk, .sup, .boot, .hif, .cores, .coh, .dma, .pool, .adc, .sd, .cmp, .pwm, .diag, .cap, .qd, .kle, .ports, .se, .mbm, .pp, .out, .reply, .free]
      s (execDqFetch a1 s) := by
  unfold execDqFetch
  refine Answers.next ?_
  refine Keeps.after State.stackOp_keeps (by decide) ?_
  exact Keeps.refl _ _

theorem execDmFetch_keeps {a1 s} :
    Answers [.regs, .mem, .ecc, .clk, .sup, .boot, .hif, .cores, .coh, .dma, .pool, .adc, .sd, .cmp, .pwm, .diag, .cap, .qd, .kle, .ports, .se, .mbm, .pp, .out, .reply, .free]
      s (execDmFetch a1 s) := by
  unfold execDmFetch
  refine Answers.next ?_
  refine Keeps.after State.stackOp_keeps (by decide) ?_
  exact Keeps.refl _ _

theorem execMas_keeps {a1 s} :
    Answers [.regs, .mem, .ecc, .clk, .sup, .boot, .hif, .cores, .coh, .dma, .pool, .adc, .sd, .cmp, .pwm, .diag, .cap, .qd, .kle, .ports, .se, .mbm, .pp, .out, .reply, .free]
      s (execMas a1 s) := by
  unfold execMas
  refine Answers.next ?_
  refine Keeps.after State.stackOp_keeps (by decide) ?_
  exact Keeps.refl _ _

theorem execMaclr_keeps {a1 s} :
    Answers [.regs, .mem, .ecc, .clk, .sup, .boot, .hif, .cores, .coh, .dma, .pool, .adc, .sd, .cmp, .pwm, .diag, .cap, .qd, .kle, .ports, .se, .mbm, .pp, .out, .reply, .free]
      s (execMaclr a1 s) := by
  unfold execMaclr
  refine Answers.next ?_
  refine Keeps.after State.stackOp_keeps (by decide) ?_
  exact Keeps.refl _ _

theorem State.loadHalf_keeps {s a2 a3 a4} :
    ResKeeps [.regs, .mem, .ecc, .clk, .sup, .boot, .hif, .cores, .coh, .dma, .pool, .adc, .sd, .cmp, .pwm, .diag, .cap, .qd, .kle, .ports, .se, .mbm, .pp, .out, .reply, .free]
      s (State.loadHalf s a2 a3 a4) := by
  unfold State.loadHalf
  refine ResKeeps.bind ?_ ?_
  · refine ResKeeps.after State.load_keeps (by decide) ?_
    exact Keeps.refl _ _
  · intro y1 y2 y3
    refine ResKeeps.ok ?_
    refine Keeps.after State.pushLate_keeps (by decide) ?_
    exact y3

theorem State.loadPair_keeps {s a2 a3 a4} :
    ResKeeps [.regs, .mem, .ecc, .clk, .sup, .boot, .hif, .cores, .coh, .dma, .pool, .adc, .sd, .cmp, .pwm, .diag, .cap, .qd, .kle, .ports, .se, .mbm, .pp, .out, .reply, .free]
      s (State.loadPair s a2 a3 a4) := by
  unfold State.loadPair
  refine ResKeeps.bind ?_ ?_
  · refine ResKeeps.after State.load_keeps (by decide) ?_
    exact Keeps.refl _ _
  · intro y1 y2 y3
    refine ResKeeps.ok ?_
    refine Keeps.after State.pushLate_keeps (by decide) ?_
    exact y3

theorem State.storeOp_keeps {s a2 a3 a4} :
    ResKeeps [.regs, .mem, .ecc, .clk, .sup, .boot, .hif, .cores, .coh, .dma, .pool, .adc, .sd, .cmp, .pwm, .diag, .cap, .qd, .kle, .ports, .se, .mbm, .pp, .out, .free]
      s (State.storeOp s a2 a3 a4) := by
  unfold State.storeOp
  refine ResKeeps.bind ?_ ?_
  · refine ResKeeps.after State.store_keeps (by decide) ?_
    exact Keeps.refl _ _
  · intro y1 y2 y3
    refine ResKeeps.ok ?_
    exact y3

theorem execFetch_keeps {a1 a2 s} :
    Answers [.regs, .mem, .ecc, .clk, .sup, .boot, .hif, .cores, .coh, .dma, .pool, .adc, .sd, .cmp, .pwm, .diag, .cap, .qd, .kle, .ports, .se, .mbm, .pp, .out, .reply, .free]
      s (execFetch a1 a2 s) := by
  unfold execFetch
  refine Answers.next ?_
  refine State.issue_keeps (by decide) ?_ ?_
  · exact Keeps.refl _ _
  · intro y1 y2
    refine State.popD_keeps (by decide) ?_ ?_
    · exact y2
    · intro y3 y4 y5
      refine ResKeeps.after State.loadHalf_keeps (by decide) ?_
      exact y5

theorem execStore_keeps {a1 s} :
    Answers [.regs, .mem, .ecc, .clk, .sup, .boot, .hif, .cores, .coh, .dma, .pool, .adc, .sd, .cmp, .pwm, .diag, .cap, .qd, .kle, .ports, .se, .mbm, .pp, .out, .reply, .free]
      s (execStore a1 s) := by
  unfold execStore
  refine Answers.next ?_
  refine State.issue_keeps (by decide) ?_ ?_
  · exact Keeps.refl _ _
  · intro y1 y2
    refine State.popD_keeps (by decide) ?_ ?_
    · exact y2
    · intro y3 y4 y5
      refine ResKeeps.after State.storeOp_keeps (by decide) ?_
      exact y5

theorem execCFetch_keeps {a1 a2 s} :
    Answers [.regs, .mem, .ecc, .clk, .sup, .boot, .hif, .cores, .coh, .dma, .pool, .adc, .sd, .cmp, .pwm, .diag, .cap, .qd, .kle, .ports, .se, .mbm, .pp, .out, .reply, .free]
      s (execCFetch a1 a2 s) := by
  unfold execCFetch
  refine Answers.next ?_
  refine State.issue_keeps (by decide) ?_ ?_
  · exact Keeps.refl _ _
  · intro y1 y2
    refine State.popD_keeps (by decide) ?_ ?_
    · exact y2
    · intro y3 y4 y5
      refine ResKeeps.bind ?_ ?_
      · refine ResKeeps.after State.load_keeps (by decide) ?_
        exact y5
      · intro y6 y7 y8
        refine ResKeeps.ok ?_
        refine Keeps.after State.pushLate_keeps (by decide) ?_
        exact y8

theorem execCStore_keeps {a1 s} :
    Answers [.regs, .mem, .ecc, .clk, .sup, .boot, .hif, .cores, .coh, .dma, .pool, .adc, .sd, .cmp, .pwm, .diag, .cap, .qd, .kle, .ports, .se, .mbm, .pp, .out, .reply, .free]
      s (execCStore a1 s) := by
  unfold execCStore
  refine Answers.next ?_
  refine State.issue_keeps (by decide) ?_ ?_
  · exact Keeps.refl _ _
  · intro y1 y2
    refine State.popD_keeps (by decide) ?_ ?_
    · exact y2
    · intro y3 y4 y5
      refine ResKeeps.after State.storeOp_keeps (by decide) ?_
      exact y5

theorem execTwoFetch_keeps {a1 a2 s} :
    Answers [.regs, .mem, .ecc, .clk, .sup, .boot, .hif, .cores, .coh, .dma, .pool, .adc, .sd, .cmp, .pwm, .diag, .cap, .qd, .kle, .ports, .se, .mbm, .pp, .out, .reply, .free]
      s (execTwoFetch a1 a2 s) := by
  unfold execTwoFetch
  refine Answers.next ?_
  refine State.issue_keeps (by decide) ?_ ?_
  · exact Keeps.refl _ _
  · intro y1 y2
    refine State.popD_keeps (by decide) ?_ ?_
    · exact y2
    · intro y3 y4 y5
      refine ResKeeps.after State.loadPair_keeps (by decide) ?_
      exact y5

theorem execTwoStore_keeps {a1 s} :
    Answers [.regs, .mem, .ecc, .clk, .sup, .boot, .hif, .cores, .coh, .dma, .pool, .adc, .sd, .cmp, .pwm, .diag, .cap, .qd, .kle, .ports, .se, .mbm, .pp, .out, .reply, .free]
      s (execTwoStore a1 s) := by
  unfold execTwoStore
  refine Answers.next ?_
  refine State.issue_keeps (by decide) ?_ ?_
  · exact Keeps.refl _ _
  · intro y1 y2
    refine State.popD_keeps (by decide) ?_ ?_
    · exact y2
    · intro y3 y4 y5
      refine ResKeeps.after State.storeOp_keeps (by decide) ?_
      exact y5

theorem execFFetch_keeps {a1 a2 s} :
    Answers [.regs, .mem, .ecc, .clk, .sup, .boot, .hif, .cores, .coh, .dma, .pool, .adc, .sd, .cmp, .pwm, .diag, .cap, .qd, .kle, .ports, .se, .mbm, .pp, .out, .reply, .free]
      s (execFFetch a1 a2 s) := by
  unfold execFFetch
  refine Answers.next ?_
  refine State.issue_keeps (by decide) ?_ ?_
  · exact Keeps.refl _ _
  · intro y1 y2
    refine State.popD_keeps (by decide) ?_ ?_
    · exact y2
    · intro y3 y4 y5
      refine ResKeeps.after State.loadHalf_keeps (by decide) ?_
      exact y5

theorem execFStore_keeps {a1 s} :
    Answers [.regs, .mem, .ecc, .clk, .sup, .boot, .hif, .cores, .coh, .dma, .pool, .adc, .sd, .cmp, .pwm, .diag, .cap, .qd, .kle, .ports, .se, .mbm, .pp, .out, .reply, .free]
      s (execFStore a1 s) := by
  unfold execFStore
  refine Answers.next ?_
  refine State.issue_keeps (by decide) ?_ ?_
  · exact Keeps.refl _ _
  · intro y1 y2
    refine State.popD_keeps (by decide) ?_ ?_
    · exact y2
    · intro y3 y4 y5
      refine ResKeeps.after State.storeOp_keeps (by decide) ?_
      exact y5

theorem execF2Fetch_keeps {a1 a2 s} :
    Answers [.regs, .mem, .ecc, .clk, .sup, .boot, .hif, .cores, .coh, .dma, .pool, .adc, .sd, .cmp, .pwm, .diag, .cap, .qd, .kle, .ports, .se, .mbm, .pp, .out, .reply, .free]
      s (execF2Fetch a1 a2 s) := by
  unfold execF2Fetch
  refine Answers.next ?_
  refine State.issue_keeps (by decide) ?_ ?_
  · exact Keeps.refl _ _
  · intro y1 y2
    refine State.popD_keeps (by decide) ?_ ?_
    · exact y2
    · intro y3 y4 y5
      refine ResKeeps.after State.loadPair_keeps (by decide) ?_
      exact y5

theorem execF2Store_keeps {a1 s} :
    Answers [.regs, .mem, .ecc, .clk, .sup, .boot, .hif, .cores, .coh, .dma, .pool, .adc, .sd, .cmp, .pwm, .diag, .cap, .qd, .kle, .ports, .se, .mbm, .pp, .out, .reply, .free]
      s (execF2Store a1 s) := by
  unfold execF2Store
  refine Answers.next ?_
  refine State.issue_keeps (by decide) ?_ ?_
  · exact Keeps.refl _ _
  · intro y1 y2
    refine State.popD_keeps (by decide) ?_ ?_
    · exact y2
    · intro y3 y4 y5
      refine ResKeeps.after State.storeOp_keeps (by decide) ?_
      exact y5

theorem execPlusStore_keeps {a1 a2 s} :
    Answers [.regs, .mem, .ecc, .clk, .sup, .boot, .hif, .cores, .coh, .dma, .pool, .adc, .sd, .cmp, .pwm, .diag, .cap, .qd, .kle, .ports, .se, .mbm, .pp, .out, .reply, .free]
      s (execPlusStore a1 a2 s) := by
  unfold execPlusStore
  refine Answers.next ?_
  refine State.issue_keeps (by decide) ?_ ?_
  · exact Keeps.refl _ _
  · intro y1 y2
    refine State.popD_keeps (by decide) ?_ ?_
    · exact y2
    · intro y3 y4 y5
      extract_lets x6
      refine ResKeeps.bind ?_ ?_
      · refine ResKeeps.after State.load_keeps (by decide) ?_
        exact y5
      · intro y7 y8 y9
        refine ResKeeps.after State.storeOp_keeps (by decide) ?_
        exact y9

theorem execXchg_keeps {a1 s} :
    Answers [.regs, .mem, .ecc, .clk, .sup, .boot, .hif, .cores, .coh, .dma, .pool, .adc, .sd, .cmp, .pwm, .diag, .cap, .qd, .kle, .ports, .se, .mbm, .pp, .out, .reply, .free]
      s (execXchg a1 s) := by
  unfold execXchg
  refine Answers.next ?_
  refine State.issue_keeps (by decide) ?_ ?_
  · exact Keeps.refl _ _
  · intro y1 y2
    refine State.popD_keeps (by decide) ?_ ?_
    · exact y2
    · intro y3 y4 y5
      refine ResKeeps.bind ?_ ?_
      · refine ResKeeps.after State.atomic_keeps (by decide) ?_
        exact y5
      · intro y6 y7 y8
        refine ResKeeps.ok ?_
        refine Keeps.after State.pushLate_keeps (by decide) ?_
        exact y8

theorem execCas_keeps {a1 s} :
    Answers [.regs, .mem, .ecc, .clk, .sup, .boot, .hif, .cores, .coh, .dma, .pool, .adc, .sd, .cmp, .pwm, .diag, .cap, .qd, .kle, .ports, .se, .mbm, .pp, .out, .reply, .free]
      s (execCas a1 s) := by
  unfold execCas
  refine Answers.next ?_
  refine State.issue_keeps (by decide) ?_ ?_
  · exact Keeps.refl _ _
  · intro y1 y2
    refine State.popD_keeps (by decide) ?_ ?_
    · exact y2
    · intro y3 y4 y5
      refine ResKeeps.bind ?_ ?_
      · refine ResKeeps.after State.atomic_keeps (by decide) ?_
        exact y5
      · intro y6 y7 y8
        refine ResKeeps.ok ?_
        refine Keeps.after State.pushLate_keeps (by decide) ?_
        exact y8

theorem execFadd_keeps {a1 s} :
    Answers [.regs, .mem, .ecc, .clk, .sup, .boot, .hif, .cores, .coh, .dma, .pool, .adc, .sd, .cmp, .pwm, .diag, .cap, .qd, .kle, .ports, .se, .mbm, .pp, .out, .reply, .free]
      s (execFadd a1 s) := by
  unfold execFadd
  refine Answers.next ?_
  refine State.issue_keeps (by decide) ?_ ?_
  · exact Keeps.refl _ _
  · intro y1 y2
    refine State.popD_keeps (by decide) ?_ ?_
    · exact y2
    · intro y3 y4 y5
      refine ResKeeps.bind ?_ ?_
      · refine ResKeeps.after State.atomic_keeps (by decide) ?_
        exact y5
      · intro y6 y7 y8
        refine ResKeeps.ok ?_
        refine Keeps.after State.pushLate_keeps (by decide) ?_
        exact y8

theorem execFence_keeps {a1 s} :
    Answers [.regs, .mem, .ecc, .clk, .sup, .boot, .hif, .cores, .coh, .dma, .pool, .adc, .sd, .cmp, .pwm, .diag, .cap, .qd, .kle, .ports, .se, .mbm, .pp, .out, .free]
      s (execFence a1 s) := by
  unfold execFence
  refine Answers.next ?_
  refine State.issue_keeps (by decide) ?_ ?_
  · exact Keeps.refl _ _
  · intro y1 y2
    extract_lets x3 x4
    have hx3 : Keeps [.regs, .mem, .ecc, .clk, .sup, .boot, .hif, .cores, .coh, .dma, .pool, .adc, .sd, .cmp, .pwm, .diag, .cap, .qd, .kle, .ports, .se, .mbm, .pp, .out, .free] s x3 := by
      unfold x3
      refine Keeps.after State.drainAll_keeps (by decide) ?_
      exact y2
    refine ResKeeps.ok ?_
    refine Keeps.ite ?_ ?_
    · exact hx3
    · refine Keeps.after State.setCore_keeps (by decide) ?_
      exact hx3

theorem State.cacheXl_keeps {s a2 a3} :
    ResKeeps [.regs, .mem, .ecc, .hif, .cores, .coh, .out] s (State.cacheXl s a2 a3) := by
  unfold State.cacheXl
  split
  · refine ResKeeps.ok ?_
    refine Keeps.of_ok (by assumption) ?_
    refine ResKeeps.after State.xlate_keeps (by decide) ?_
    exact Keeps.refl _ _
  · refine ResKeeps.ite ?_ ?_
    · refine ResKeeps.exc ?_
      refine Keeps.of_exc (by assumption) ?_
      refine ResKeeps.after State.xlate_keeps (by decide) ?_
      exact Keeps.refl _ _
    · refine ResKeeps.ok ?_
      exact Keeps.refl _ _

theorem State.cacheOp_keeps {s a2 f3} {F : List Part} {s0}
    (hF : ∀ p ∈ ([.regs, .mem, .ecc, .clk, .sup, .boot, .hif, .cores, .coh, .dma, .pool, .adc, .sd, .cmp, .pwm, .diag, .cap, .qd, .kle, .ports, .se, .mbm, .pp, .out, .reply, .free] : List Part), p ∈ F)
    (h : Keeps F s0 s) (hf3 : ∀ x1 x2, Keeps F s0 x1 → Keeps F s0 (f3 x1 x2)) :
    ResKeeps F s0 (State.cacheOp s a2 f3) := by
  unfold State.cacheOp
  refine State.popD_keeps (Part.sub_trans (by decide) hF) ?_ ?_
  · exact h
  · intro y1 y2 y3
    refine ResKeeps.bind ?_ ?_
    · refine ResKeeps.after State.cacheXl_keeps (Part.sub_trans (by decide) hF) ?_
      exact y3
    · intro y4 y5 y6
      split
      · refine ResKeeps.ok ?_
        refine hf3 _ _ ?_
        refine Keeps.after State.drainAll_keeps (Part.sub_trans (by decide) hF) ?_
        exact y6
      · refine ResKeeps.ok ?_
        exact y6

theorem execDcwb_keeps {a1 s} :
    Answers [.regs, .mem, .ecc, .clk, .sup, .boot, .hif, .cores, .coh, .dma, .pool, .adc, .sd, .cmp, .pwm, .diag, .cap, .qd, .kle, .ports, .se, .mbm, .pp, .out, .reply, .free]
      s (execDcwb a1 s) := by
  unfold execDcwb
  refine Answers.next ?_
  refine State.issue_keeps (by decide) ?_ ?_
  · exact Keeps.refl _ _
  · intro y1 y2
    refine State.cacheOp_keeps (by decide) ?_ ?_
    · exact y2
    · intro y3 y4 y5
      refine Keeps.after State.backLine_keeps (by decide) ?_
      exact y5

theorem execDcinv_keeps {a1 s} :
    Answers [.regs, .mem, .ecc, .clk, .sup, .boot, .hif, .cores, .coh, .dma, .pool, .adc, .sd, .cmp, .pwm, .diag, .cap, .qd, .kle, .ports, .se, .mbm, .pp, .out, .reply, .free]
      s (execDcinv a1 s) := by
  unfold execDcinv
  refine Answers.next ?_
  refine State.issue_keeps (by decide) ?_ ?_
  · exact Keeps.refl _ _
  · intro y1 y2
    refine ResKeeps.ite ?_ ?_
    · refine State.cacheOp_keeps (by decide) ?_ ?_
      · exact y2
      · intro y3 y4 y5
        refine Keeps.after State.setLine_keeps (by decide) ?_
        exact y5
    · refine ResKeeps.after privExc_keeps (by decide) ?_
      exact y2

theorem execIcinv_keeps {a1 s} :
    Answers [.regs, .mem, .ecc, .clk, .sup, .boot, .hif, .cores, .coh, .dma, .pool, .adc, .sd, .cmp, .pwm, .diag, .cap, .qd, .kle, .ports, .se, .mbm, .pp, .out, .reply, .free]
      s (execIcinv a1 s) := by
  unfold execIcinv
  refine Answers.next ?_
  refine State.issue_keeps (by decide) ?_ ?_
  · exact Keeps.refl _ _
  · intro y1 y2
    refine State.cacheOp_keeps (by decide) ?_ ?_
    · exact y2
    · intro y3 y4 y5
      extract_lets x6
      refine Keeps.after State.setCore_keeps (by decide) ?_
      exact y5

theorem execIsync_keeps {a1 s} :
    Answers [.regs, .mem, .ecc, .clk, .sup, .boot, .hif, .cores, .coh, .dma, .pool, .adc, .sd, .cmp, .pwm, .diag, .cap, .qd, .kle, .ports, .se, .mbm, .pp, .out, .free]
      s (execIsync a1 s) := by
  unfold execIsync
  refine Answers.next ?_
  refine State.issue_keeps (by decide) ?_ ?_
  · exact Keeps.refl _ _
  · intro y1 y2
    extract_lets x3
    refine ResKeeps.ok ?_
    refine Keeps.after State.setCore_keeps (by decide) ?_
    exact y2

theorem State.pushFull_keeps {s a2} : PairKeeps [.free] s (State.pushFull s a2) := by
  unfold State.pushFull
  extract_lets x1
  refine PairKeeps.after State.portFlag_keeps (by decide) ?_
  exact Keeps.refl _ _

theorem State.offer_keeps {s a2 a3} :
    PairKeeps [.regs, .mem, .ecc, .clk, .sup, .boot, .hif, .cores, .coh, .dma, .pool, .adc, .sd, .cmp, .pwm, .diag, .cap, .qd, .kle, .ports, .se, .mbm, .pp, .out, .free]
      s (State.offer s a2 a3) := by
  unfold State.offer
  split
  refine PairKeeps.ite ?_ ?_
  · refine PairKeeps.mk ?_
    refine Keeps.after State.tally_keeps (by decide) ?_
    refine Keeps.of_pair (by assumption) ?_
    refine PairKeeps.after State.pushFull_keeps (by decide) ?_
    exact Keeps.refl _ _
  · refine PairKeeps.mk ?_
    refine Keeps.after State.buffer_keeps (by decide) ?_
    refine Keeps.of_pair (by assumption) ?_
    refine PairKeeps.after State.pushFull_keeps (by decide) ?_
    exact Keeps.refl _ _

theorem execQpush_keeps {a1 s} :
    Answers [.regs, .mem, .ecc, .clk, .sup, .boot, .hif, .cores, .coh, .dma, .pool, .adc, .sd, .cmp, .pwm, .diag, .cap, .qd, .kle, .ports, .se, .mbm, .pp, .out, .reply, .free]
      s (execQpush a1 s) := by
  unfold execQpush
  refine Answers.next ?_
  refine State.issue_keeps (by decide) ?_ ?_
  · exact Keeps.refl _ _
  · intro y1 y2
    refine State.popD_keeps (by decide) ?_ ?_
    · exact y2
    · intro y3 y4 y5
      extract_lets x6 x7
      refine ResKeeps.ite ?_ ?_
      · refine ResKeeps.after illegal_keeps (by decide) ?_
        exact y5
      · split
        refine ResKeeps.ok ?_
        refine Keeps.after State.pushD_keeps (by decide) ?_
        refine Keeps.of_pair (by assumption) ?_
        refine PairKeeps.after State.offer_keeps (by decide) ?_
        exact y5

theorem execQpop_keeps {a1 s} :
    Answers [.regs, .mem, .ecc, .clk, .sup, .boot, .hif, .cores, .coh, .dma, .pool, .adc, .sd, .cmp, .pwm, .diag, .cap, .qd, .kle, .ports, .se, .mbm, .pp, .out, .reply, .free]
      s (execQpop a1 s) := by
  unfold execQpop
  refine Answers.next ?_
  refine State.issue_keeps (by decide) ?_ ?_
  · exact Keeps.refl _ _
  · intro y1 y2
    refine State.popD_keeps (by decide) ?_ ?_
    · exact y2
    · intro y3 y4 y5
      extract_lets x6 x7 x8
      have hx7 : Keeps [.regs, .mem, .ecc, .clk, .sup, .boot, .hif, .cores, .coh, .dma, .pool, .adc, .sd, .cmp, .pwm, .diag, .cap, .qd, .kle, .ports, .se, .mbm, .pp, .out, .reply, .free] s x7 := by
        unfold x7
        refine Keeps.after State.popRequest_keeps (by decide) ?_
        refine Keeps.after State.drainAll_keeps (by decide) ?_
        exact y5
      refine ResKeeps.ite ?_ ?_
      · refine ResKeeps.after illegal_keeps (by decide) ?_
        exact y5
      · refine ResKeeps.ok ?_
        refine Keeps.after State.setCore_keeps (by decide) ?_
        exact hx7

theorem execQpopReply_keeps {a1 s} : Answers [.regs, .cores, .pool] s (execQpopReply a1 s) := by
  unfold execQpopReply
  split
  · extract_lets x1 x2 x3 x4
    have hx2 : Keeps [.regs, .cores, .pool] s x2 := by
      unfold x2
      refine Keeps.after State.setPport_keeps (by decide) ?_
      exact Keeps.refl _ _
    have hx3 : Keeps [.regs, .cores, .pool] s x3 := by
      unfold x3
      refine Keeps.after State.pushD_keeps (by decide) ?_
      exact hx2
    refine Answers.ite ?_ ?_
    · refine Answers.next ?_
      refine Keeps.after State.setCore_keeps (by decide) ?_
      exact hx3
    · refine Answers.next ?_
      exact Keeps.refl _ _
  · refine Answers.next ?_
    exact Keeps.refl _ _

theorem State.flushD_keeps {s a2 a3} :
    ResKeeps [.regs, .mem, .ecc, .clk, .sup, .boot, .hif, .cores, .coh, .dma, .pool, .adc, .sd, .cmp, .pwm, .diag, .cap, .qd, .kle, .ports, .se, .mbm, .pp, .out, .free]
      s (State.flushD s a2 a3) := by
  induction a3 generalizing s a2
  · rw [State.flushD]
    refine ResKeeps.ok ?_
    exact Keeps.refl _ _
  · rename_i y ih
    rw [State.flushD]
    refine ResKeeps.ite ?_ ?_
    · refine ResKeeps.ok ?_
      exact Keeps.refl _ _
    · refine ResKeeps.bind ?_ ?_
      · refine ResKeeps.after State.spillD_keeps (by decide) ?_
        exact Keeps.refl _ _
      · intro y1 y2 y3
        refine ResKeeps.after ih (fun _ k => k) ?_
        exact y3

theorem State.flushR_keeps {s a2 a3} :
    ResKeeps [.regs, .mem, .ecc, .clk, .sup, .boot, .hif, .cores, .coh, .dma, .pool, .adc, .sd, .cmp, .pwm, .diag, .cap, .qd, .kle, .ports, .se, .mbm, .pp, .out, .free]
      s (State.flushR s a2 a3) := by
  induction a3 generalizing s a2
  · rw [State.flushR]
    refine ResKeeps.ok ?_
    exact Keeps.refl _ _
  · rename_i y ih
    rw [State.flushR]
    refine ResKeeps.ite ?_ ?_
    · refine ResKeeps.ok ?_
      exact Keeps.refl _ _
    · refine ResKeeps.bind ?_ ?_
      · refine ResKeeps.after State.spillR_keeps (by decide) ?_
        exact Keeps.refl _ _
      · intro y1 y2 y3
        refine ResKeeps.after ih (fun _ k => k) ?_
        exact y3

theorem execFlush_keeps {a1 s} :
    Answers [.regs, .mem, .ecc, .clk, .sup, .boot, .hif, .cores, .coh, .dma, .pool, .adc, .sd, .cmp, .pwm, .diag, .cap, .qd, .kle, .ports, .se, .mbm, .pp, .out, .free]
      s (execFlush a1 s) := by
  unfold execFlush
  refine Answers.next ?_
  refine State.issue_keeps (by decide) ?_ ?_
  · exact Keeps.refl _ _
  · intro y1 y2
    refine ResKeeps.bind ?_ ?_
    · refine ResKeeps.after State.flushD_keeps (by decide) ?_
      exact y2
    · intro y3 y4 y5
      refine ResKeeps.bind ?_ ?_
      · refine ResKeeps.after State.flushR_keeps (by decide) ?_
        exact y5
      · intro y6 y7 y8
        refine ResKeeps.ok ?_
        exact y8

theorem execRet_keeps {a1 s} :
    Answers [.regs, .mem, .ecc, .clk, .sup, .boot, .hif, .cores, .coh, .dma, .pool, .adc, .sd, .cmp, .pwm, .diag, .cap, .qd, .kle, .ports, .se, .mbm, .pp, .out, .reply, .free]
      s (execRet a1 s) := by
  unfold execRet
  refine Answers.next ?_
  refine State.issue_keeps (by decide) ?_ ?_
  · exact Keeps.refl _ _
  · intro y1 y2
    refine ResKeeps.bind ?_ ?_
    · refine ResKeeps.after State.needR_keeps (by decide) ?_
      exact y2
    · intro y3 y4 y5
      extract_lets x6 x7
      refine ResKeeps.ok ?_
      refine Keeps.after State.setCore_keeps (by decide) ?_
      exact y5

theorem State.goTo_keeps {s a2 a3 a4 a5} :
    ResKeeps [.regs, .mem, .ecc, .clk, .sup, .boot, .hif, .cores, .coh, .dma, .pool, .adc, .sd, .cmp, .pwm, .diag, .cap, .qd, .kle, .ports, .se, .mbm, .pp, .out, .free]
      s (State.goTo s a2 a3 a4 a5) := by
  unfold State.goTo
  refine ResKeeps.ite ?_ ?_
  · refine ResKeeps.exc ?_
    exact Keeps.refl _ _
  · refine ResKeeps.ite ?_ ?_
    · refine ResKeeps.bind ?_ ?_
      · refine ResKeeps.after State.pushR_keeps (by decide) ?_
        exact Keeps.refl _ _
      · intro y1 y2 y3
        refine ResKeeps.ok ?_
        exact y3
    · refine ResKeeps.ok ?_
      exact Keeps.refl _ _

theorem execExec_keeps {a1 s} :
    Answers [.regs, .mem, .ecc, .clk, .sup, .boot, .hif, .cores, .coh, .dma, .pool, .adc, .sd, .cmp, .pwm, .diag, .cap, .qd, .kle, .ports, .se, .mbm, .pp, .out, .reply, .free]
      s (execExec a1 s) := by
  unfold execExec
  refine Answers.next ?_
  refine State.issue_keeps (by decide) ?_ ?_
  · exact Keeps.refl _ _
  · intro y1 y2
    refine State.popD_keeps (by decide) ?_ ?_
    · exact y2
    · intro y3 y4 y5
      refine ResKeeps.after State.goTo_keeps (by decide) ?_
      exact y5

theorem execFexec_keeps {a1 s} :
    Answers [.regs, .mem, .ecc, .clk, .sup, .boot, .hif, .cores, .coh, .dma, .pool, .adc, .sd, .cmp, .pwm, .diag, .cap, .qd, .kle, .ports, .se, .mbm, .pp, .out, .reply, .free]
      s (execFexec a1 s) := by
  unfold execFexec
  refine Answers.next ?_
  refine State.issue_keeps (by decide) ?_ ?_
  · exact Keeps.refl _ _
  · intro y1 y2
    refine State.popD_keeps (by decide) ?_ ?_
    · exact y2
    · intro y3 y4 y5
      refine ResKeeps.after State.goTo_keeps (by decide) ?_
      exact y5

theorem execJmp_keeps {a1 s} :
    Answers [.regs, .mem, .ecc, .clk, .sup, .boot, .hif, .cores, .coh, .dma, .pool, .adc, .sd, .cmp, .pwm, .diag, .cap, .qd, .kle, .ports, .se, .mbm, .pp, .out, .reply, .free]
      s (execJmp a1 s) := by
  unfold execJmp
  refine Answers.next ?_
  refine State.issue_keeps (by decide) ?_ ?_
  · exact Keeps.refl _ _
  · intro y1 y2
    refine State.popD_keeps (by decide) ?_ ?_
    · exact y2
    · intro y3 y4 y5
      refine ResKeeps.after State.goTo_keeps (by decide) ?_
      exact y5

theorem execFjmp_keeps {a1 s} :
    Answers [.regs, .mem, .ecc, .clk, .sup, .boot, .hif, .cores, .coh, .dma, .pool, .adc, .sd, .cmp, .pwm, .diag, .cap, .qd, .kle, .ports, .se, .mbm, .pp, .out, .reply, .free]
      s (execFjmp a1 s) := by
  unfold execFjmp
  refine Answers.next ?_
  refine State.issue_keeps (by decide) ?_ ?_
  · exact Keeps.refl _ _
  · intro y1 y2
    refine State.popD_keeps (by decide) ?_ ?_
    · exact y2
    · intro y3 y4 y5
      refine ResKeeps.after State.goTo_keeps (by decide) ?_
      exact y5

theorem execTrap_keeps {a1 s} :
    Answers [.regs, .mem, .ecc, .clk, .sup, .boot, .hif, .cores, .coh, .dma, .pool, .adc, .sd, .cmp, .pwm, .diag, .cap, .qd, .kle, .ports, .se, .mbm, .pp, .out, .reply, .free]
      s (execTrap a1 s) := by
  unfold execTrap
  refine Answers.next ?_
  refine State.issue_keeps (by decide) ?_ ?_
  · exact Keeps.refl _ _
  · intro y1 y2
    refine State.popD_keeps (by decide) ?_ ?_
    · exact y2
    · intro y3 y4 y5
      refine ResKeeps.ite ?_ ?_
      · refine ResKeeps.after illegal_keeps (by decide) ?_
        exact y5
      · refine ResKeeps.ok ?_
        exact y5

theorem execReti_keeps {a1 a2 s} :
    Answers [.regs, .mem, .ecc, .clk, .sup, .boot, .hif, .cores, .coh, .dma, .pool, .adc, .sd, .cmp, .pwm, .diag, .cap, .qd, .kle, .ports, .se, .mbm, .pp, .out, .reply, .free]
      s (execReti a1 a2 s) := by
  unfold execReti
  refine Answers.next ?_
  refine State.issue_keeps (by decide) ?_ ?_
  · exact Keeps.refl _ _
  · intro y1 y2
    refine ResKeeps.ite ?_ ?_
    · refine ResKeeps.after State.reti_keeps (by decide) ?_
      exact y2
    · refine ResKeeps.after privExc_keeps (by decide) ?_
      exact y2

theorem execWait_keeps {a1 s} :
    Answers [.regs, .mem, .ecc, .clk, .sup, .boot, .hif, .cores, .coh, .dma, .pool, .adc, .sd, .cmp, .pwm, .diag, .cap, .qd, .kle, .ports, .se, .mbm, .pp, .out, .free]
      s (execWait a1 s) := by
  unfold execWait
  refine Answers.next ?_
  refine State.issue_keeps (by decide) ?_ ?_
  · exact Keeps.refl _ _
  · intro y1 y2
    extract_lets x3
    refine ResKeeps.ite ?_ ?_
    · refine ResKeeps.ok ?_
      refine Keeps.after State.setCore_keeps (by decide) ?_
      exact y2
    · refine ResKeeps.after privExc_keeps (by decide) ?_
      exact y2

theorem execBrk_keeps {a1 s} :
    Answers [.regs, .mem, .ecc, .clk, .sup, .boot, .hif, .cores, .coh, .dma, .pool, .adc, .sd, .cmp, .pwm, .diag, .cap, .qd, .kle, .ports, .se, .mbm, .pp, .out, .free]
      s (execBrk a1 s) := by
  unfold execBrk
  refine Answers.next ?_
  refine State.issue_keeps (by decide) ?_ ?_
  · exact Keeps.refl _ _
  · intro y1 y2
    extract_lets x3
    refine ResKeeps.ite ?_ ?_
    · refine ResKeeps.ok ?_
      refine Keeps.after State.setCore_keeps (by decide) ?_
      exact y2
    · refine ResKeeps.ok ?_
      exact y2

theorem execSrFetch_keeps {a1 s} :
    Answers [.regs, .mem, .ecc, .clk, .sup, .boot, .hif, .cores, .coh, .dma, .pool, .adc, .sd, .cmp, .pwm, .diag, .cap, .qd, .kle, .ports, .se, .mbm, .pp, .out, .reply, .free]
      s (execSrFetch a1 s) := by
  unfold execSrFetch
  refine Answers.next ?_
  refine State.issue_keeps (by decide) ?_ ?_
  · exact Keeps.refl _ _
  · intro y1 y2
    refine State.popD_keeps (by decide) ?_ ?_
    · exact y2
    · intro y3 y4 y5
      split
      · refine ResKeeps.ok ?_
        refine Keeps.after State.pushD_keeps (by decide) ?_
        exact y5
      · refine ResKeeps.after illegal_keeps (by decide) ?_
        exact y5

theorem execSrStore_keeps {a1 s} :
    Answers [.regs, .mem, .ecc, .clk, .sup, .boot, .hif, .cores, .coh, .dma, .pool, .adc, .sd, .cmp, .pwm, .diag, .cap, .qd, .kle, .ports, .se, .mbm, .pp, .out, .reply, .free]
      s (execSrStore a1 s) := by
  unfold execSrStore
  refine Answers.next ?_
  refine State.issue_keeps (by decide) ?_ ?_
  · exact Keeps.refl _ _
  · intro y1 y2
    refine State.popD_keeps (by decide) ?_ ?_
    · exact y2
    · intro y3 y4 y5
      extract_lets x6
      split
      · refine ResKeeps.after illegal_keeps (by decide) ?_
        exact y5
      · refine ResKeeps.ite ?_ ?_
        · refine ResKeeps.after privExc_keeps (by decide) ?_
          exact y5
        · refine ResKeeps.ok ?_
          refine Keeps.after State.setCore_keeps (by decide) ?_
          exact y5

theorem execDbrFetch_keeps {a1 s} :
    Answers [.regs, .mem, .ecc, .clk, .sup, .boot, .hif, .cores, .coh, .dma, .pool, .adc, .sd, .cmp, .pwm, .diag, .cap, .qd, .kle, .ports, .se, .mbm, .pp, .out, .reply, .free]
      s (execDbrFetch a1 s) := by
  unfold execDbrFetch
  refine Answers.next ?_
  refine Keeps.after State.stackOp_keeps (by decide) ?_
  exact Keeps.refl _ _

theorem execDbrStore_keeps {a1 s} :
    Answers [.regs, .mem, .ecc, .clk, .sup, .boot, .hif, .cores, .coh, .dma, .pool, .adc, .sd, .cmp, .pwm, .diag, .cap, .qd, .kle, .ports, .se, .mbm, .pp, .out, .reply, .free]
      s (execDbrStore a1 s) := by
  unfold execDbrStore
  refine Answers.next ?_
  refine Keeps.after State.stackOp_keeps (by decide) ?_
  exact Keeps.refl _ _

theorem execTlbi_keeps {a1 s} :
    Answers [.regs, .mem, .ecc, .clk, .sup, .boot, .hif, .cores, .coh, .dma, .pool, .adc, .sd, .cmp, .pwm, .diag, .cap, .qd, .kle, .ports, .se, .mbm, .pp, .out, .reply, .free]
      s (execTlbi a1 s) := by
  unfold execTlbi
  refine Answers.next ?_
  refine State.issue_keeps (by decide) ?_ ?_
  · exact Keeps.refl _ _
  · intro y1 y2
    refine ResKeeps.ite ?_ ?_
    · refine ResKeeps.after privExc_keeps (by decide) ?_
      exact y2
    · refine State.popD_keeps (by decide) ?_ ?_
      · exact y2
      · intro y3 y4 y5
        extract_lets x6 x7 x8 x9
        refine ResKeeps.ok ?_
        refine Keeps.after State.setCore_keeps (by decide) ?_
        exact y5

theorem execTlbia_keeps {a1 s} :
    Answers [.regs, .mem, .ecc, .clk, .sup, .boot, .hif, .cores, .coh, .dma, .pool, .adc, .sd, .cmp, .pwm, .diag, .cap, .qd, .kle, .ports, .se, .mbm, .pp, .out, .free]
      s (execTlbia a1 s) := by
  unfold execTlbia
  refine Answers.next ?_
  refine State.issue_keeps (by decide) ?_ ?_
  · exact Keeps.refl _ _
  · intro y1 y2
    extract_lets x3
    refine ResKeeps.ite ?_ ?_
    · refine ResKeeps.ok ?_
      refine Keeps.after State.setCore_keeps (by decide) ?_
      exact y2
    · refine ResKeeps.after privExc_keeps (by decide) ?_
      exact y2

theorem execStoreDrain_keeps {a1 s} :
    Answers [.regs, .mem, .ecc, .clk, .sup, .boot, .hif, .cores, .coh, .dma, .pool, .adc, .sd, .cmp, .pwm, .diag, .cap, .qd, .kle, .ports, .se, .mbm, .pp, .out, .free]
      s (execStoreDrain a1 s) := by
  unfold execStoreDrain
  refine Answers.next ?_
  refine Keeps.ite ?_ ?_
  · refine Keeps.after State.drainOne_keeps (by decide) ?_
    exact Keeps.refl _ _
  · exact Keeps.refl _ _

theorem execWbusAsync_keeps {a1 s} :
    Answers [.regs, .mem, .ecc, .clk, .sup, .boot, .hif, .cores, .coh, .dma, .pool, .adc, .sd, .cmp, .pwm, .diag, .cap, .qd, .kle, .ports, .se, .mbm, .pp, .out, .free]
      s (execWbusAsync a1 s) := by
  unfold execWbusAsync
  extract_lets x1
  refine Answers.next ?_
  refine Keeps.ite ?_ ?_
  · refine Keeps.after State.enterAsync_keeps (by decide) ?_
    exact Keeps.refl _ _
  · exact Keeps.refl _ _

theorem execRdo_keeps {a1 a2 a3 s} :
    Answers [.regs, .mem, .ecc, .hif, .cores, .coh, .out, .reply] s (execRdo a1 a2 a3 s) := by
  unfold execRdo
  extract_lets x1
  refine Answers.next ?_
  refine Keeps.ite ?_ ?_
  · refine Keeps.after State.request_keeps (by decide) ?_
    exact Keeps.refl _ _
  · exact Keeps.refl _ _

theorem execPageWalk_keeps {a1 a2 a3 s} :
    Answers [.regs, .mem, .ecc, .clk, .sup, .boot, .hif, .cores, .coh, .dma, .pool, .adc, .sd, .cmp, .pwm, .diag, .cap, .qd, .kle, .ports, .se, .mbm, .pp, .out, .free]
      s (execPageWalk a1 a2 a3 s) := by
  unfold execPageWalk
  extract_lets x1 x2 x3
  refine Answers.ite ?_ ?_
  · refine Answers.ite ?_ ?_
    · refine Answers.next ?_
      refine Keeps.after State.enterAsync_keeps (by decide) ?_
      exact Keeps.refl _ _
    · split
      · refine Answers.next ?_
        refine Keeps.of_ok (by assumption) ?_
        refine ResKeeps.after State.xlate_keeps (by decide) ?_
        exact Keeps.refl _ _
      · extract_lets x4
        have hx4 : Keeps [.regs, .mem, .ecc, .clk, .sup, .boot, .hif, .cores, .coh, .dma, .pool, .adc, .sd, .cmp, .pwm, .diag, .cap, .qd, .kle, .ports, .se, .mbm, .pp, .out, .free] s x4 := by
          unfold x4
          refine Keeps.after State.takeExc_keeps (by decide) ?_
          refine Keeps.of_exc (by assumption) ?_
          refine ResKeeps.after State.xlate_keeps (by decide) ?_
          exact Keeps.refl _ _
        refine Answers.next ?_
        refine Keeps.after State.setCore_keeps (by decide) ?_
        exact hx4
  · refine Answers.next ?_
    exact Keeps.refl _ _

theorem execUndefinedOperation_keeps {a1 a2 s} :
    Answers [.regs, .mem, .ecc, .clk, .sup, .boot, .hif, .cores, .coh, .dma, .pool, .adc, .sd, .cmp, .pwm, .diag, .cap, .qd, .kle, .ports, .se, .mbm, .pp, .out, .free]
      s (execUndefinedOperation a1 a2 s) := by
  unfold execUndefinedOperation
  refine Answers.next ?_
  refine Keeps.ite ?_ ?_
  · exact Keeps.refl _ _
  · refine State.issue_keeps (by decide) ?_ ?_
    · exact Keeps.refl _ _
    · intro y1 y2
      refine ResKeeps.after illegal_keeps (by decide) ?_
      exact y2

end Sys2Proof.Machine
end

