-- ==== Sys2Proof/Laws/Low.lean ====
section
/-!
SUPPORT. Operations that many blocks share leave the registers of SYS, SUP, PPW and TMB as they are (the blocks below ICU).
-/
namespace Sys2Proof.Machine

/-- The registers of the blocks below ICU hold what they held. -/
def Low (s t : State) : Prop := ∀ a, a < 0x10040000 → t.rd a = s.rd a

theorem Low.refl (s : State) : Low s s := fun _ _ => rfl

theorem Low.after {s x y : State} (h : Low x y) (h0 : Low s x) : Low s y := fun a k => (h a k).trans (h0 a k)

theorem Low.ite {s a b : State} {c : Prop} [Decidable c] (ha : Low s a) (hb : Low s b) : Low s (if c then a else b) := by
  split <;> assumption

/-- What is not a register leaves the registers as they are. -/
theorem Low.of_regs {s x y : State} (e : y.regs = x.regs) (h : Low s x) : Low s y :=
  fun a k => (State.rd_congr e a).trans (h a k)

theorem Low.wr {s x : State} {a : Nat} {v : Word} (h : 0x10040000 ≤ a) (h0 : Low s x) : Low s (x.wr a v) :=
  fun b k => (x.rd_wr_ne v (by omega)).trans (h0 b k)

theorem Low.setFld {s x : State} {a lo n v : Nat} (h : 0x10040000 ≤ a) (h0 : Low s x) : Low s (x.setFld a lo n v) := h0.wr h

theorem Low.setBit {s x : State} {a i : Nat} {v : Bool} (h : 0x10040000 ≤ a) (h0 : Low s x) : Low s (x.setBit a i v) := h0.wr h

theorem Low.tally {s x : State} {a : Nat} (h : 0x10040000 ≤ a) (h0 : Low s x) : Low s (x.tally a) :=
  fun b k => (x.rd_tally_ne (by omega)).trans (h0 b k)

theorem low_not_mem {b : Nat} {A : List Nat} (k : b < 0x10040000) (h : ∀ a ∈ A, 0x10040000 ≤ a) : b ∉ A :=
  fun m => Nat.not_le_of_lt k (h b m)

theorem Low.event {s x : State} {c r : Nat} {d : Word} (h0 : Low s x) : Low s (x.event c r d) :=
  fun b k => (State.rd_event (low_not_mem k (by decide))).trans (h0 b k)

theorem Low.source {s x : State} {c : Nat} (h0 : Low s x) : Low s (x.source c) :=
  fun b k => (State.rd_source (low_not_mem k (by decide))).trans (h0 b k)

theorem Low.countVector {s x : State} {v : Nat} (h0 : Low s x) : Low s (x.countVector v) :=
  fun b k => (State.rd_countVector (Nat.ne_of_lt (Nat.lt_of_lt_of_le k (by decide)))).trans (h0 b k)

theorem Low.msixSend {s x : State} {v : Nat} (h0 : Low s x) : Low s (x.msixSend v) := by
  unfold State.msixSend
  extract_lets m
  exact Low.ite (Low.setBit (by decide) h0) (Low.of_regs (x := x.setBit Reg.HIF_MSIXPBA v false) rfl (Low.setBit (by decide) h0))

theorem Low.msiSend {s x : State} {v : Nat} (h0 : Low s x) : Low s (x.msiSend v) := by
  unfold State.msiSend
  extract_lets m k
  exact Low.ite (Low.of_regs (x := x) rfl h0) (Low.of_regs (x := x) rfl h0)

theorem Low.forN {s x : State} {n : Nat} {f : Nat → State → State} (h : Low s x)
    (hf : ∀ i y, Low s y → Low s (f i y)) : Low s (forN n f x) := by
  induction n with
  | zero => exact h
  | succ n ih => exact hf _ _ ih

theorem Low.foldl {α : Type} {s x : State} {l : List α} {f : State → α → State} (h : Low s x)
    (hf : ∀ y i, Low s y → Low s (f y i)) : Low s (l.foldl f x) := by
  induction l generalizing x with
  | nil => exact h
  | cons a l ih => exact ih (hf _ _ h)

theorem Low.of_pair {α : Type} {s t : State} {p : α × State} {a : α} (e : p = (a, t)) (h : Low s p.2) : Low s t := by
  subst e; exact h

theorem State.setAd_low {s a2 a3} : Low s (State.setAd s a2 a3) := by
  unfold State.setAd
  refine Low.of_regs (x := s) rfl ?_
  exact Low.refl _

theorem State.setSd_low {s a2 a3} : Low s (State.setSd s a2 a3) := by
  unfold State.setSd
  refine Low.of_regs (x := s) rfl ?_
  exact Low.refl _

theorem State.setQd_low {s a2 a3} : Low s (State.setQd s a2 a3) := by
  unfold State.setQd
  refine Low.of_regs (x := s) rfl ?_
  exact Low.refl _

theorem State.seqFire_low {s a2 a3 a4} : Low s (State.seqFire s a2 a3 a4) := by
  unfold State.seqFire
  extract_lets x1
  refine Low.ite ?_ ?_
  · exact Low.refl _
  · refine Low.ite ?_ ?_
    · refine Low.tally (Nat.le_trans (by decide) (Nat.le_add_right _ _)) ?_
      exact Low.refl _
    · refine Low.after State.setAd_low ?_
      exact Low.refl _

theorem State.adcFire_low {s a2 a3} : Low s (State.adcFire s a2 a3) := by
  unfold State.adcFire
  refine Low.ite ?_ ?_
  · refine Low.forN ?_ ?_
    · exact Low.refl _
    · intro y1 y2 y3
      refine Low.after State.seqFire_low ?_
      exact y3
  · exact Low.refl _

theorem State.sdFire_low {s a2 a3} : Low s (State.sdFire s a2 a3) := by
  unfold State.sdFire
  extract_lets x1
  refine Low.ite ?_ ?_
  · refine Low.after State.setSd_low ?_
    exact Low.refl _
  · exact Low.refl _

theorem State.qdFire_low {s a2 a3} : Low s (State.qdFire s a2 a3) := by
  unfold State.qdFire
  extract_lets x1
  refine Low.ite ?_ ?_
  · refine Low.after State.setQd_low ?_
    exact Low.refl _
  · exact Low.refl _

theorem State.trigger_low {s a2} : Low s (State.trigger s a2) := by
  unfold State.trigger
  extract_lets x1 x2
  have hx1 : Low s x1 := by
    unfold x1
    refine Low.forN ?_ ?_
    · exact Low.refl _
    · intro y3 y4 y5
      refine Low.after State.adcFire_low ?_
      exact y5
  have hx2 : Low s x2 := by
    unfold x2
    refine Low.forN ?_ ?_
    · exact hx1
    · intro y6 y7 y8
      refine Low.after State.sdFire_low ?_
      exact y8
  refine Low.forN ?_ ?_
  · exact hx2
  · intro y9 y10 y11
    refine Low.after State.qdFire_low ?_
    exact y11

theorem State.setKs_low {s a2 a3} : Low s (State.setKs s a2 a3) := by
  unfold State.setKs
  extract_lets x1
  refine Low.of_regs (x := s) rfl ?_
  exact Low.refl _

theorem State.setSst_low {s a2 a3} : Low s (State.setSst s a2 a3) := by
  unfold State.setSst
  refine Low.setBit (by decide) ?_
  refine Low.setBit (by decide) ?_
  refine Low.setFld (Nat.le_trans (by decide) (Nat.le_add_right _ _)) ?_
  exact Low.refl _

theorem State.emit_low {s a2} : Low s (State.emit s a2) := by
  unfold State.emit
  refine Low.of_regs (x := s) rfl ?_
  exact Low.refl _

theorem State.kleEvt_low {s a2 a3} : Low s (State.kleEvt s a2 a3) := by
  unfold State.kleEvt
  extract_lets x1
  have hx1 : Low s x1 := by
    unfold x1
    refine Low.setBit (Nat.le_trans (by decide) (Nat.le_add_right _ _)) ?_
    exact Low.refl _
  refine Low.ite ?_ ?_
  · refine Low.source ?_
    exact hx1
  · exact hx1

theorem State.penShow_low {s a2 a3} : Low s (State.penShow s a2 a3) := by
  unfold State.penShow
  refine Low.event ?_
  refine Low.after State.kleEvt_low ?_
  refine Low.setFld (Nat.le_trans (by decide) (Nat.le_add_right _ _)) ?_
  exact Low.refl _

theorem State.cmdEnd_low {s a2} : Low s (State.cmdEnd s a2) := by
  unfold State.cmdEnd
  extract_lets x1 x2
  have hx2 : Low s x2 := by
    unfold x2
    refine Low.of_regs (x := s) rfl ?_
    exact Low.refl _
  refine Low.ite ?_ ?_
  · exact hx2
  · refine Low.setFld (by decide) ?_
    exact hx2

theorem State.cplHead_low {s a2} : Low s (State.cplHead s a2) := by
  unfold State.cplHead
  refine Low.after State.emit_low ?_
  exact Low.refl _

theorem State.cplTail_low {s a2} : Low s (State.cplTail s a2) := by
  unfold State.cplTail
  extract_lets x1 x2 x3 x4 x5 x6
  have hx3 : Low s x3 := by
    unfold x3
    refine Low.after State.emit_low ?_
    exact Low.refl _
  have hx4 : Low s x4 := by
    unfold x4
    refine Low.setFld (by decide) ?_
    exact hx3
  have hx6 : Low s x6 := by
    unfold x6
    refine Low.ite ?_ ?_
    · refine Low.of_regs (x := x4) rfl ?_
      exact hx4
    · exact hx4
  refine Low.ite ?_ ?_
  · refine Low.countVector ?_
    exact hx6
  · exact hx6

theorem State.cplWrite_low {s a2} : Low s (State.cplWrite s a2) := by
  unfold State.cplWrite
  refine Low.after State.cplTail_low ?_
  refine Low.after State.cplHead_low ?_
  exact Low.refl _

theorem State.complete_low {s a2} : Low s (State.complete s a2) := by
  unfold State.complete
  extract_lets x1
  refine Low.ite ?_ ?_
  · refine Low.after State.cplWrite_low ?_
    exact Low.refl _
  · refine Low.of_regs (x := s) rfl ?_
    exact Low.refl _

theorem State.finish_low {s a2 a3 a4} : Low s (State.finish s a2 a3 a4) := by
  unfold State.finish
  split
  · exact Low.refl _
  · extract_lets x1
    have hx1 : Low s x1 := by
      unfold x1
      refine Low.after State.cmdEnd_low ?_
      exact Low.refl _
    refine Low.ite ?_ ?_
    · exact hx1
    · refine Low.after State.complete_low ?_
      exact hx1

theorem State.injUndo_low {s a2} : Low s (State.injUndo s a2) := by
  unfold State.injUndo
  split
  · refine Low.ite ?_ ?_
    · refine Low.wr (Nat.le_trans (by decide) (Nat.le_add_right _ _)) ?_
      refine Low.wr (Nat.le_trans (by decide) (Nat.le_add_right _ _)) ?_
      exact Low.refl _
    · exact Low.refl _
  · exact Low.refl _

theorem State.hatchClear_low {s a2} : Low s (State.hatchClear s a2) := by
  unfold State.hatchClear
  extract_lets x1 x2 x3 x4 x5
  have hx3 : Low s x3 := by
    unfold x3
    refine Low.ite ?_ ?_
    · refine Low.after State.injUndo_low ?_
      exact Low.refl _
    · exact Low.refl _
  have hx4 : Low s x4 := by
    unfold x4
    refine Low.wr (Nat.le_trans (by decide) (Nat.le_add_right _ _)) ?_
    refine Low.setBit (Nat.le_trans (by decide) (Nat.le_add_right _ _)) ?_
    exact hx3
  have hx5 : Low s x5 := by
    unfold x5
    refine Low.after State.setKs_low ?_
    exact hx4
  refine Low.ite ?_ ?_
  · refine Low.after State.finish_low ?_
    exact hx5
  · exact hx5

theorem State.kleFree_low {s} : Low s (State.kleFree s) := by
  unfold State.kleFree
  refine Low.setBit (by decide) ?_
  exact Low.refl _

theorem State.setCmp_low {s a2 a3} : Low s (State.setCmp s a2 a3) := by
  unfold State.setCmp
  refine Low.of_regs (x := s) rfl ?_
  exact Low.refl _

theorem State.cmpBlank_low {s a2} : Low s (State.cmpBlank s a2) := by
  unfold State.cmpBlank
  refine Low.ite ?_ ?_
  · exact Low.refl _
  · refine Low.after State.setCmp_low ?_
    exact Low.refl _

theorem State.blankOn_low {s a2 a3 a4} : Low s (State.blankOn s a2 a3 a4) := by
  unfold State.blankOn
  refine Low.forN ?_ ?_
  · exact Low.refl _
  · intro y1 y2 y3
    extract_lets x4
    refine Low.ite ?_ ?_
    · refine Low.after State.cmpBlank_low ?_
      exact y3
    · exact y3

theorem State.pwmBlank_low {s a2 u} : Low s (State.pwmBlank s a2 u) := by
  unfold State.pwmBlank
  refine Low.after State.blankOn_low ?_
  exact Low.refl _

theorem State.setPm_low {s a2 a3} : Low s (State.setPm s a2 a3) := by
  unfold State.setPm
  refine Low.of_regs (x := s) rfl ?_
  exact Low.refl _

theorem State.pwmSafe_low {s a2} : Low s (State.pwmSafe s a2) := by
  unfold State.pwmSafe
  extract_lets x1 x2
  have hx2 : Low s x2 := by
    unfold x2
    refine Low.setFld (Nat.le_trans (by decide) (Nat.le_add_right _ _)) ?_
    exact Low.refl _
  refine Low.after State.pwmBlank_low ?_
  refine Low.after State.setPm_low ?_
  exact hx2

theorem State.blkSafe_low {s a2 a3} : Low s (State.blkSafe s a2 a3) := by
  unfold State.blkSafe
  extract_lets x1
  refine Low.ite ?_ ?_
  · refine Low.forN ?_ ?_
    · exact Low.refl _
    · intro y2 y3 y4
      refine Low.ite ?_ ?_
      · refine Low.after State.pwmSafe_low ?_
        exact y4
      · exact y4
  · exact Low.refl _

theorem State.slotSafe_low {s a2} : Low s (State.slotSafe s a2) := by
  unfold State.slotSafe
  refine Low.forN ?_ ?_
  · exact Low.refl _
  · intro y1 y2 y3
    refine Low.after State.blkSafe_low ?_
    exact y3

theorem State.slotStop_low {s a2 a3} : Low s (State.slotStop s a2 a3) := by
  unfold State.slotStop
  extract_lets x1 x2 x3 x4 x5 x6
  have hx1 : Low s x1 := by
    unfold x1
    refine Low.ite ?_ ?_
    · refine Low.after State.kleFree_low ?_
      exact Low.refl _
    · exact Low.refl _
  have hx2 : Low s x2 := by
    unfold x2
    refine Low.after State.hatchClear_low ?_
    exact hx1
  have hx5 : Low s x5 := by
    unfold x5
    refine Low.after State.setKs_low ?_
    exact hx2
  have hx6 : Low s x6 := by
    unfold x6
    refine Low.after State.slotSafe_low ?_
    exact hx5
  clear_value x3
  split
  · refine Low.after State.penShow_low ?_
    refine Low.after State.setSst_low ?_
    exact hx6
  · refine Low.after State.setSst_low ?_
    exact hx6

theorem State.slotPen_low {s a2 a3} : Low s (State.slotPen s a2 a3) := by
  unfold State.slotPen
  extract_lets x1 x2
  have hx2 : Low s x2 := by
    unfold x2
    refine Low.after State.penShow_low ?_
    refine Low.after State.slotStop_low ?_
    exact Low.refl _
  refine Low.ite ?_ ?_
  · refine Low.event ?_
    exact hx2
  · exact hx2

theorem State.slotPenNext_low {s a2 a3} : Low s (State.slotPenNext s a2 a3) := by
  unfold State.slotPenNext
  extract_lets x1
  refine Low.ite ?_ ?_
  · refine Low.after State.setKs_low ?_
    exact Low.refl _
  · refine Low.after State.slotPen_low ?_
    exact Low.refl _

theorem State.slotOverrun_low {s a2} : Low s (State.slotOverrun s a2) := by
  unfold State.slotOverrun
  extract_lets x1 x2 x3 x4
  have hx1 : Low s x1 := by
    unfold x1
    refine Low.setBit (by decide) ?_
    refine Low.tally (Nat.le_trans (by decide) (Nat.le_add_right _ _)) ?_
    exact Low.refl _
  have hx2 : Low s x2 := by
    unfold x2
    refine Low.event ?_
    refine Low.after State.kleEvt_low ?_
    exact hx1
  have hx4 : Low s x4 := by
    unfold x4
    refine Low.setFld (Nat.le_trans (by decide) (Nat.le_add_right _ _)) ?_
    exact hx2
  refine Low.ite ?_ ?_
  · refine Low.after State.slotPenNext_low ?_
    exact hx4
  · exact hx4

theorem State.slotHit_low {s a2} : Low s (State.slotHit s a2) := by
  unfold State.slotHit
  extract_lets x1
  refine Low.ite ?_ ?_
  · exact Low.refl _
  · refine Low.ite ?_ ?_
    · refine Low.ite ?_ ?_
      · refine Low.after State.slotOverrun_low ?_
        exact Low.refl _
      · exact Low.refl _
    · refine Low.ite ?_ ?_
      · refine Low.after State.slotOverrun_low ?_
        refine Low.after State.setKs_low ?_
        exact Low.refl _
      · refine Low.after State.setSst_low ?_
        refine Low.after State.setKs_low ?_
        exact Low.refl _

theorem State.setPort_low {s a2 a3} : Low s (State.setPort s a2 a3) := by
  unfold State.setPort
  refine Low.of_regs (x := s) rfl ?_
  exact Low.refl _

theorem State.pwmSafeAll_low {s} : Low s (State.pwmSafeAll s) := by
  unfold State.pwmSafeAll
  refine Low.forN ?_ ?_
  · exact Low.refl _
  · intro y1 y2 y3
    refine Low.after State.pwmSafe_low ?_
    exact y3

theorem State.slotProtect_low {s a2 a3} : Low s (State.slotProtect s a2 a3) := by
  unfold State.slotProtect
  extract_lets x1
  have hx1 : Low s x1 := by
    unfold x1
    refine Low.after State.slotStop_low ?_
    exact Low.refl _
  refine Low.ite ?_ ?_
  · split
    · refine Low.event ?_
      exact hx1
    · exact hx1
  · exact Low.refl _

theorem State.slotsProtect_low {s a2} : Low s (State.slotsProtect s a2) := by
  unfold State.slotsProtect
  refine Low.forN ?_ ?_
  · exact Low.refl _
  · intro y1 y2 y3
    refine Low.after State.slotProtect_low ?_
    exact y3

theorem State.slotTrigger_low {s a2} : Low s (State.slotTrigger s a2) := by
  unfold State.slotTrigger
  refine Low.forN ?_ ?_
  · exact Low.refl _
  · intro y1 y2 y3
    refine Low.ite ?_ ?_
    · refine Low.after State.slotHit_low ?_
      exact y3
    · exact y3

theorem State.setUse_low {s a2 a3} : Low s (State.setUse s a2 a3) := by
  unfold State.setUse
  extract_lets x1
  refine Low.after State.setPort_low ?_
  exact Low.refl _

theorem State.dberr_low {s} : Low s (State.dberr s) := by
  unfold State.dberr
  refine Low.source ?_
  refine Low.setBit (by decide) ?_
  exact Low.refl _

theorem State.dbCmd_low {s a2} : Low s (State.dbCmd s a2) := by
  unfold State.dbCmd
  extract_lets x1 x2 x3 x4 x5 x6 x7 x8
  have hx6 : Low s x6 := by
    unfold x6
    refine Low.of_regs (x := s) rfl ?_
    exact Low.refl _
  have hx8 : Low s x8 := by
    unfold x8
    refine Low.ite ?_ ?_
    · exact hx6
    · refine Low.of_regs (x := x6) rfl ?_
      exact hx6
  refine Low.ite ?_ ?_
  · refine Low.after State.dberr_low ?_
    exact Low.refl _
  · refine Low.setFld (by decide) ?_
    exact hx8

theorem State.dbCons_low {s a2 a3 a4} (h : 0x10040000 ≤ a3) : Low s (State.dbCons s a2 a3 a4) := by
  unfold State.dbCons
  extract_lets i cfg n
  refine Low.ite ?_ ?_
  · exact Low.after State.dberr_low (Low.refl _)
  · extract_lets c p
    exact Low.ite (Low.after State.dberr_low (Low.refl _)) (Low.setFld h (Low.refl _))

theorem State.dbRec_low {s a2 a3} : Low s (State.dbRec s a2 a3) := by
  unfold State.dbRec
  extract_lets x1 x2 x3 x4 x5 x6 x7 x8 x9 x10 x11
  have hx5 : Low s x5 := by
    unfold x5
    refine Low.ite ?_ ?_
    · refine Low.after State.dberr_low ?_
      exact Low.refl _
    · exact Low.refl _
  have hx11 : Low s x11 := by
    unfold x11
    refine Low.setFld (Nat.le_trans (by decide) (Nat.le_add_right _ _)) ?_
    exact hx5
  refine Low.ite ?_ ?_
  · refine Low.setBit (by decide) ?_
    exact hx5
  · refine Low.ite ?_ ?_
    · exact hx5
    · refine Low.ite ?_ ?_
      · refine Low.after State.dberr_low ?_
        exact hx5
      · refine Low.ite ?_ ?_
        · refine Low.setBit (Nat.le_trans (by decide) (Nat.le_add_right _ _)) ?_
          exact hx11
        · exact hx11

theorem State.flushCplN_low {a1 s} : Low s (State.flushCplN a1 s) := by
  induction a1 generalizing s
  · rw [State.flushCplN]
    exact Low.refl _
  · rename_i y ih
    rw [State.flushCplN]
    split
    · exact Low.refl _
    · extract_lets x1
      refine Low.ite ?_ ?_
      · refine Low.after ih ?_
        refine Low.after State.cplWrite_low ?_
        refine Low.of_regs (x := s) rfl ?_
        exact Low.refl _
      · exact Low.refl _

theorem State.flushCpl_low {s} : Low s (State.flushCpl s) := by
  unfold State.flushCpl
  refine Low.after State.flushCplN_low ?_
  exact Low.refl _

theorem State.doorbellNow_low {s a2 a3} : Low s (State.doorbellNow s a2 a3) := by
  unfold State.doorbellNow
  split
  · refine Low.after State.dbCmd_low ?_
    exact Low.refl _
  · refine Low.after State.flushCpl_low ?_
    refine Low.after (State.dbCons_low (by decide)) ?_
    exact Low.refl _
  · refine Low.after (State.dbCons_low (by decide)) ?_
    exact Low.refl _
  · refine Low.after State.dbRec_low ?_
    exact Low.refl _

theorem State.setActive_low {s a2 a3} : Low s (State.setActive s a2 a3) := by
  unfold State.setActive
  refine Low.setBit (by decide) ?_
  refine Low.setBit (Nat.le_trans (by decide) (Nat.le_add_right _ _)) ?_
  exact Low.refl _

theorem State.setMl_low {s a2 a3} : Low s (State.setMl s a2 a3) := by
  unfold State.setMl
  extract_lets x1
  refine Low.of_regs (x := s) rfl ?_
  exact Low.refl _

theorem State.listEnd_low {s a2} : Low s (State.listEnd s a2) := by
  unfold State.listEnd
  extract_lets x1 x2 x3
  have hx1 : Low s x1 := by
    unfold x1
    refine Low.setFld (by decide) ?_
    exact Low.refl _
  have hx2 : Low s x2 := by
    unfold x2
    refine Low.after State.setActive_low ?_
    refine Low.wr (Nat.le_trans (by decide) (Nat.le_add_right _ _)) ?_
    exact hx1
  refine Low.after State.setMl_low ?_
  exact hx2

theorem State.stopDone_low {s a2 a3} : Low s (State.stopDone s a2 a3) := by
  unfold State.stopDone
  extract_lets x1
  have hx1 : Low s x1 := by
    unfold x1
    refine Low.after State.listEnd_low ?_
    exact Low.refl _
  refine Low.ite ?_ ?_
  · refine Low.after State.finish_low ?_
    exact hx1
  · exact hx1

theorem State.stopCheck_low {s a2} : Low s (State.stopCheck s a2) := by
  unfold State.stopCheck
  refine Low.ite ?_ ?_
  · refine Low.after State.stopDone_low ?_
    exact Low.refl _
  · exact Low.refl _

theorem State.sendPending_low {s} : Low s (State.sendPending s) := by
  unfold State.sendPending
  extract_lets x1
  have hx1 : Low s x1 := by
    unfold x1
    refine Low.forN (Low.refl _) fun v y hy => ?_
    refine Low.ite ?_ (Low.ite ?_ hy)
    · exact Low.msixSend hy
    · exact Low.msiSend hy
  exact Low.forN hx1 fun k y hy => Low.ite hy (Low.setBit (by decide) hy)

theorem State.setEnt_low {s a2 a3 a4} : Low s (State.setEnt s a2 a3 a4) := by
  unfold State.setEnt
  extract_lets x1
  refine Low.after State.setMl_low ?_
  exact Low.refl _

theorem State.forEnts_low {s a2 f3} {s0} (h : Low s0 s) (hf3 : ∀ x1 x2, Low s0 x2 → Low s0 (f3 x1 x2)) :
    Low s0 (State.forEnts s a2 f3) := by
  unfold State.forEnts
  refine Low.foldl ?_ ?_
  · exact h
  · intro y1 y2 y3
    refine hf3 _ _ ?_
    exact y3

theorem State.setPhase_low {s a2 a3} : Low s (State.setPhase s a2 a3) := by
  unfold State.setPhase
  refine Low.setFld (Nat.le_trans (by decide) (Nat.le_add_right _ _)) ?_
  exact Low.refl _

theorem State.setRunning_low {s a2 a3} : Low s (State.setRunning s a2 a3) := by
  unfold State.setRunning
  refine Low.setBit (by decide) ?_
  refine Low.setBit (Nat.le_trans (by decide) (Nat.le_add_right _ _)) ?_
  exact Low.refl _

theorem State.kickDrop_low {s a2 a3} : Low s (State.kickDrop s a2 a3) := by
  unfold State.kickDrop
  extract_lets x1
  refine Low.ite ?_ ?_
  · refine Low.setBit (Nat.le_trans (by decide) (Nat.le_add_right _ _)) ?_
    exact Low.refl _
  · exact Low.refl _

theorem State.portFree_low {s a2} : Low s (State.portFree s a2) := by
  unfold State.portFree
  extract_lets x1
  refine Low.after State.setPort_low ?_
  exact Low.refl _

theorem State.setEng_low {s a2 a3} : Low s (State.setEng s a2 a3) := by
  unfold State.setEng
  refine Low.of_regs (x := s) rfl ?_
  exact Low.refl _

theorem State.settle_low {s a2} : Low s (State.settle s a2) := by
  unfold State.settle
  split
  · exact Low.refl _
  · extract_lets x1
    have hx1 : Low s x1 := by
      unfold x1
      refine Low.setBit (by decide) ?_
      exact Low.refl _
    refine Low.ite ?_ ?_
    · exact hx1
    · refine Low.setBit (by decide) ?_
      exact hx1

theorem State.seRelease_low {s a2} : Low s (State.seRelease s a2) := by
  unfold State.seRelease
  extract_lets x1 x2
  have hx2 : Low s x2 := by
    unfold x2
    refine Low.after State.setEng_low ?_
    exact Low.refl _
  refine Low.forN ?_ ?_
  · exact hx2
  · intro y3 y4 y5
    refine Low.after State.settle_low ?_
    exact y5

theorem State.setSeSt_low {s a2 a3} : Low s (State.setSeSt s a2 a3) := by
  unfold State.setSeSt
  refine Low.setFld (Nat.le_trans (by decide) (Nat.le_add_right _ _)) ?_
  exact Low.refl _

theorem State.seLeave_low {s a2 a3} : Low s (State.seLeave s a2 a3) := by
  unfold State.seLeave
  extract_lets x1 x2
  have hx1 : Low s x1 := by
    unfold x1
    refine Low.after State.seRelease_low ?_
    exact Low.refl _
  refine Low.after State.setSeSt_low ?_
  refine Low.after State.setEng_low ?_
  exact hx1

theorem State.entDiscard_low {s a2 a3} : Low s (State.entDiscard s a2 a3) := by
  unfold State.entDiscard
  extract_lets x1 x2 x3
  have hx3 : Low s x3 := by
    unfold x3
    refine Low.after State.setEnt_low ?_
    exact Low.refl _
  refine Low.ite ?_ ?_
  · refine Low.after State.portFree_low ?_
    refine Low.after State.kickDrop_low ?_
    exact hx3
  · refine Low.after State.setUse_low ?_
    exact hx3

theorem State.aheadDrop_low {s a2 a3} : Low s (State.aheadDrop s a2 a3) := by
  unfold State.aheadDrop
  extract_lets x1 x2
  have hx2 : Low s x2 := by
    unfold x2
    refine Low.ite ?_ ?_
    · refine Low.after State.entDiscard_low ?_
      exact Low.refl _
    · refine Low.after State.setEnt_low ?_
      exact Low.refl _
  refine Low.ite ?_ ?_
  · exact Low.refl _
  · refine Low.after State.setEnt_low ?_
    exact hx2

theorem State.aheadsDrop_low {s a2} : Low s (State.aheadsDrop s a2) := by
  unfold State.aheadsDrop
  refine Low.ite ?_ ?_
  · exact Low.refl _
  · refine State.forEnts_low ?_ ?_
    · exact Low.refl _
    · intro y1 y2 y3
      refine Low.after State.aheadDrop_low ?_
      exact y3

theorem State.entCancel_low {s a2 a3} : Low s (State.entCancel s a2 a3) := by
  unfold State.entCancel
  extract_lets x1 x2
  have hx2 : Low s x2 := by
    unfold x2
    refine Low.ite ?_ ?_
    · refine Low.after State.entDiscard_low ?_
      exact Low.refl _
    · refine Low.ite ?_ ?_
      · refine Low.after State.setEnt_low ?_
        exact Low.refl _
      · exact Low.refl _
  refine Low.after State.setEnt_low ?_
  exact hx2

theorem State.musterCancel_low {s a2} : Low s (State.musterCancel s a2) := by
  unfold State.musterCancel
  extract_lets x1 x2 x3
  have hx1 : Low s x1 := by
    unfold x1
    refine State.forEnts_low ?_ ?_
    · exact Low.refl _
    · intro y4 y5 y6
      refine Low.after State.entCancel_low ?_
      exact y6
  have hx2 : Low s x2 := by
    unfold x2
    refine Low.after State.setPhase_low ?_
    refine Low.after State.setRunning_low ?_
    exact hx1
  refine Low.ite ?_ ?_
  · exact Low.refl _
  · refine Low.tally (Nat.le_trans (by decide) (Nat.le_add_right _ _)) ?_
    refine Low.after State.setMl_low ?_
    exact hx2

theorem State.mbmRootLost_low {s} : Low s (State.mbmRootLost s) := by
  unfold State.mbmRootLost
  refine Low.forN ?_ ?_
  · exact Low.refl _
  · intro y1 y2 y3
    refine Low.ite ?_ ?_
    · refine Low.after State.stopCheck_low ?_
      refine Low.after State.aheadsDrop_low ?_
      refine Low.after State.musterCancel_low ?_
      exact y3
    · exact y3

theorem State.rootStops_low {s a2} : Low s (State.rootStops s a2) := by
  unfold State.rootStops
  extract_lets x1 x2 x3
  have hx2 : Low s x2 := by
    unfold x2
    refine Low.of_regs (x := s) rfl ?_
    exact Low.refl _
  have hx3 : Low s x3 := by
    unfold x3
    refine Low.setBit (by decide) ?_
    exact hx2
  refine Low.ite ?_ ?_
  · refine Low.after State.mbmRootLost_low ?_
    exact hx3
  · exact hx3

theorem State.qdLost_low {s} : Low s (State.qdLost s) := by
  unfold State.qdLost
  refine Low.forN ?_ ?_
  · exact Low.refl _
  · intro y1 y2 y3
    refine Low.setBit (Nat.le_trans (by decide) (Nat.le_add_right _ _)) ?_
    exact y3

theorem State.cmdIssue_low {s} : Low s (State.cmdIssue s) := by
  unfold State.cmdIssue
  split
  · extract_lets x1 x2
    refine Low.ite ?_ ?_
    · refine Low.after State.emit_low ?_
      refine Low.of_regs (x := s) rfl ?_
      exact Low.refl _
    · exact Low.refl _
  · exact Low.refl _

theorem State.actKept_low {s} : Low s (State.actKept s) := by
  unfold State.actKept
  extract_lets x1 x2 x3
  have hx3 : Low s x3 := by
    unfold x3
    refine Low.of_regs (x := s) rfl ?_
    exact Low.refl _
  refine Low.foldl ?_ ?_
  · exact hx3
  · intro y4 y5 y6
    split
    · refine Low.after State.doorbellNow_low ?_
      exact y6
    · exact y6

theorem State.ackResume_low {s} : Low s (State.ackResume s) := by
  unfold State.ackResume
  refine Low.ite ?_ ?_
  · refine Low.after State.actKept_low ?_
    refine Low.after State.cmdIssue_low ?_
    refine Low.after State.flushCpl_low ?_
    refine Low.after State.sendPending_low ?_
    exact Low.refl _
  · exact Low.refl _

theorem State.rootResumes_low {s} : Low s (State.rootResumes s) := by
  unfold State.rootResumes
  extract_lets x1 x2 x3 x4
  have hx3 : Low s x3 := by
    unfold x3
    refine Low.of_regs (x := s) rfl ?_
    exact Low.refl _
  have hx4 : Low s x4 := by
    unfold x4
    refine Low.after State.qdLost_low ?_
    exact hx3
  refine Low.ite ?_ ?_
  · refine Low.forN ?_ ?_
    · exact hx4
    · intro y5 y6 y7
      refine Low.ite ?_ ?_
      · refine Low.after State.seLeave_low ?_
        exact y7
      · exact y7
  · exact hx4

end Sys2Proof.Machine
end

