-- ==== Sys2Proof/Laws/Tick.lean ====
section
/-!
SUPPORT. Frames of Machine/Tick.lean: which parts of the state each of its operations and commands may change.
-/
namespace Sys2Proof.Machine

theorem State.timerCount_keeps {s a2 a3} :
    Keeps [.regs, .hif, .adc, .sd, .cmp, .pwm, .qd, .kle, .out] s (State.timerCount s a2 a3) := by
  unfold State.timerCount
  extract_lets x1
  refine Keeps.ite ?_ ?_
  · refine Keeps.ite ?_ ?_
    · refine Keeps.after State.wr_keeps (by decide) ?_
      exact Keeps.refl _ _
    · refine Keeps.after State.timerExpire_keeps (by decide) ?_
      exact Keeps.refl _ _
  · exact Keeps.refl _ _

theorem State.timersCount_keeps {s a2} :
    Keeps [.regs, .hif, .adc, .sd, .cmp, .pwm, .qd, .kle, .out] s (State.timersCount s a2) := by
  unfold State.timersCount
  refine Keeps.forN ?_ ?_
  · exact Keeps.refl _ _
  · intro y1 y2 y3
    refine Keeps.after State.timerCount_keeps (by decide) ?_
    exact y3

theorem State.seCount_keeps {s a2} : Keeps [.regs, .se] s (State.seCount s a2) := by
  unfold State.seCount
  refine Keeps.ite ?_ ?_
  · refine Keeps.after State.seReach_keeps (by decide) ?_
    exact Keeps.refl _ _
  · exact Keeps.refl _ _

theorem State.dmaGain_keeps {s a2} : Keeps [.dma] s (State.dmaGain s a2) := by
  unfold State.dmaGain
  extract_lets x1 x2
  refine Keeps.ite ?_ ?_
  · exact Keeps.refl _ _
  · refine Keeps.after State.setCh_keeps (by decide) ?_
    exact Keeps.refl _ _

theorem State.mbmGain_keeps {s a2} : Keeps [.mbm] s (State.mbmGain s a2) := by
  unfold State.mbmGain
  extract_lets x1 x2
  refine Keeps.ite ?_ ?_
  · exact Keeps.refl _ _
  · refine Keeps.after State.setMl_keeps (by decide) ?_
    exact Keeps.refl _ _

theorem State.mbmPush_keeps {s} : Keeps [.regs, .pool, .mbm, .free] s (State.mbmPush s) := by
  unfold State.mbmPush
  split
  · exact Keeps.refl _ _
  · extract_lets x1
    refine Keeps.ite ?_ ?_
    · refine Keeps.of_snd ?_
      refine PairKeeps.after State.stage_keeps (by decide) ?_
      refine Keeps.set_mbm (by decide) ?_
      exact Keeps.refl _ _
    · exact Keeps.refl _ _

theorem State.dividers_keeps {s} :
    Keeps [.regs, .clk, .hif, .pool, .adc, .sd, .cmp, .pwm, .qd, .kle, .se, .mbm, .out, .free] s (State.dividers s) := by
  unfold State.dividers
  extract_lets x1 x2 x3 x4 x5 x6 x7 x8 x9
  have hx3 : Keeps [.regs, .clk, .hif, .pool, .adc, .sd, .cmp, .pwm, .qd, .kle, .se, .mbm, .out, .free] s x3 := by
    unfold x3
    refine Keeps.set_clk (by decide) ?_
    exact Keeps.refl _ _
  have hx4 : Keeps [.regs, .clk, .hif, .pool, .adc, .sd, .cmp, .pwm, .qd, .kle, .se, .mbm, .out, .free] s x4 := by
    unfold x4
    refine Keeps.ite ?_ ?_
    · refine Keeps.after State.mbmPush_keeps (by decide) ?_
      refine Keeps.forN ?_ ?_
      · exact hx3
      · intro y10 y11 y12
        refine Keeps.after State.seCount_keeps (by decide) ?_
        exact y12
    · exact hx3
  have hx5 : Keeps [.regs, .clk, .hif, .pool, .adc, .sd, .cmp, .pwm, .qd, .kle, .se, .mbm, .out, .free] s x5 := by
    unfold x5
    refine Keeps.after State.timersCount_keeps (by decide) ?_
    exact hx4
  have hx8 : Keeps [.regs, .clk, .hif, .pool, .adc, .sd, .cmp, .pwm, .qd, .kle, .se, .mbm, .out, .free] s x8 := by
    unfold x8
    refine Keeps.set_clk (by decide) ?_
    exact hx5
  refine Keeps.ite ?_ ?_
  · exact hx4
  · refine Keeps.ite ?_ ?_
    · refine Keeps.after State.timersCount_keeps (by decide) ?_
      refine Keeps.set_clk (by decide) ?_
      exact hx8
    · exact hx8

theorem State.coreCycle_keeps {s} :
    Keeps [.regs, .clk, .hif, .cores, .coh, .dma, .pool, .adc, .sd, .cmp, .pwm, .diag, .qd, .kle, .se, .mbm, .out, .free]
      s (State.coreCycle s) := by
  unfold State.coreCycle
  extract_lets x1 x2 x3 x4
  have hx3 : Keeps [.regs, .clk, .hif, .cores, .coh, .dma, .pool, .adc, .sd, .cmp, .pwm, .diag, .qd, .kle, .se, .mbm, .out, .free] s x3 := by
    unfold x3
    refine Keeps.set_clk_coh (by decide) (by decide) ?_
    exact Keeps.refl _ _
  have hx4 : Keeps [.regs, .clk, .hif, .cores, .coh, .dma, .pool, .adc, .sd, .cmp, .pwm, .diag, .qd, .kle, .se, .mbm, .out, .free] s x4 := by
    unfold x4
    refine Keeps.forN ?_ ?_
    · refine Keeps.forN ?_ ?_
      · exact hx3
      · intro y5 y6 y7
        refine Keeps.after State.pwmReached_keeps (by decide) ?_
        refine Keeps.after State.pwmAge_keeps (by decide) ?_
        exact y7
    · intro y8 y9 y10
      refine Keeps.after State.portAge_keeps (by decide) ?_
      exact y10
  refine Keeps.after State.dividers_keeps (by decide) ?_
  refine Keeps.forN ?_ ?_
  · refine Keeps.forN ?_ ?_
    · refine Keeps.forN ?_ ?_
      · exact hx4
      · intro y11 y12 y13
        refine Keeps.after State.chainFetch_keeps (by decide) ?_
        refine Keeps.after State.age_keeps (by decide) ?_
        exact y13
    · intro y14 y15 y16
      refine Keeps.after State.dmaGain_keeps (by decide) ?_
      exact y16
  · intro y17 y18 y19
    refine Keeps.after State.mbmGain_keeps (by decide) ?_
    exact y19

theorem State.idle_keeps {s} :
    Keeps [.regs, .clk, .hif, .cores, .coh, .dma, .pool, .adc, .sd, .cmp, .pwm, .diag, .qd, .kle, .se, .mbm, .out, .free]
      s (State.idle s) := by
  unfold State.idle
  extract_lets x1
  refine Keeps.ite ?_ ?_
  · refine Keeps.after State.coreCycle_keeps (by decide) ?_
    exact Keeps.refl _ _
  · refine Keeps.ite ?_ ?_
    · refine Keeps.set_clk (by decide) ?_
      exact Keeps.refl _ _
    · exact Keeps.refl _ _

end Sys2Proof.Machine
end

