-- ==== Sys2Proof/Tests/Slice0.lean ====
section
/-!
SUPPORT. Tests: an ill-formed term for each check of `Instr.wf`; one-step tests with values of the spec; and, for each
statement with hypotheses, a state and operands that meet the hypotheses of each of its clauses (its witness).
-/
namespace Sys2Proof.Machine
set_option maxRecDepth 20000
set_option Elab.async false

/-- A state in which every block performs its functions and the link is up. -/
def tLive : State :=
  let s : State := { State.reset with clk := { State.reset.clk with phase := .run, pll := .locked } }
  ((s.setFld Reg.SYS_PWRSTATE 0 3 1).setBit Reg.HIF_LINKSTAT 0 true).cfgWr 1 0x00100006
/-- The same machine in TRIM, with the block of one CLKGATE bit gated. -/
def tTrim (g : Nat) : State :=
  let s := tLive.setFld Reg.SYS_PWRSTATE 0 3 pwrTRIM
  { s with clk := { s.clk with gated := BitVec.ofNat 32 (2 ^ g) } }
/-- a one-section CODE image for tests -/
def tblW : List Word := [0x00010501, 0x80, 16, 0x1000, 0x00FF00FF <<< 8, 0xFF00, 0, crc32 [1,2,3,4], 0x00050203]
def hdrW : List Word :=
  let b : List Word := [0x00015357, 0x90, 1, 0x40, 0x1004, 0, crc32 tblW, 0,0,0,0,0,0,0,0]
  b ++ [crc32 b]
def mkc (c : Cmd) (op : Nat) (a : List Word) : Cmd :=
  { c with words := (c.word 0 &&& 0xFFFF0300 ||| BitVec.ofNat 32 op) :: (a ++ List.replicate (7 - a.length) 0), started := false }
def State.withCmd (s : State) (c : Cmd) : State := { s with hif := { s.hif with cmd := some c } }
/-- core n ready to issue from scratch, with given stacks -/
def State.rdy (s : State) (n : Nat) (d : List Half) (r : List (BitVec 24)) : State :=
  let s := ((s.setBit Reg.DBG_HALTREQ n false).setBit Reg.SYS_CORERST n false).setFld Reg.SYS_PWRSTATE 0 3 1
  let s := (List.range 4).foldl (fun s k => s.wr (Reg.DBG_CORE_BP_ADDR n k) 0) s
  let s := (List.range 2).foldl (fun s k => s.wr (Reg.DBG_CORE_WP_ADDR n k) 0) s
  let s := s.wr (Reg.SYS_COREENTRY n) 0x04000000
  let c := s.core n
  s.setCore n { c with started := true, resetting := false, halted := false, haltPend := 0, waiting := .none, wbe := none, marks := [], inEntry := false, slot := false, ten := false, cbr := 0, pc := 0x100 + 2 * (c.pc.setWidth 5).setWidth 16, dstk := d, rstk := r, stepping := false, wbuf := [] }
/-- the same with no push staged -/
def State.rdyq (s : State) (n : Nat) (d : List Half) (r : List (BitVec 24)) : State :=
  let s := s.rdy n d r
  s.setPport n { s.pport n with fifo := [] }
def kleVals (k : Nat) : Tab Word :=
  let vs : List Word := [0x3F800000, 0xC0490FDB, 0x3EAAAAAB, 0x40A00000, 0xBF19999A, 0x3DCCCCCD, 0x42C80000, 0xBE99999A, 0x7F800000, 0x00000000, 0x80000000, 0x3F000001]
  (List.range 8).map fun i => (i, vs.getD ((i + k) % 12) 0)
/-- slot n at block 0 of 2, one pass -/
def State.kleAt (s : State) (n op pb sb : Nat) (w1 w2 : Word) (args : List Nat) (r : KRun) : State :=
  let s := (s.wrWords (plateAddr n 0) [0x02014B50]).wrWords (plateAddr n 32)
    (BitVec.ofNat 32 (op + 256 * pb + 65536 * sb) :: w1 :: w2 :: (args ++ List.replicate (5 - args.length) 0).map (BitVec.ofNat 32))
  let s := s.wrWord (plateAddr n 4) 1
  let s := { s with ecc := [] }
  let s := (s.wr (Reg.KLE_SINFO n) 0x1000).wr Reg.KLE_STATUS (BitVec.ofNat 32 (1 + 256 * n))
  let s := (List.range 8).foldl (fun (s : State) i => (s.wr (ctxAddr n 0x100 (pb + i)) (tget 0 (kleVals (3 * i + r.unv)) i)).wr (ctxAddr n 0x300 (sb + i)) (tget 0 (kleVals (5 * i + r.unv + 1)) i)) s
  let s := (s.wrWords (plateAddr n 48) [0x3F800000, 0x3F800000, 0x40400000, 0x40A00000, 0x3F800000, 0x40000000, 0x41000000, 0x3F000000, 0x40000000, 0x40400000, 0x40A00000])
  s.setKs n { run := some r }
/-- list l with one entry, in a state -/
def State.listAt (s : State) (l : Nat) (w0 stat : Nat) (x : MList) : State :=
  let s := s.wr (Reg.MBM_LIST_STAT l) (BitVec.ofNat 32 (0x10000 + stat))
  let s := (s.wr (Reg.MBM_ENTDESC l 0 0) (BitVec.ofNat 32 w0)).wr (Reg.MBM_ENTDESC l 0 3) 0
  let s := (s.wr (Reg.MBM_ENTDESC l 0 1) 0).wr (Reg.MBM_LIST_DEADLINE l) 0
  let s := { s with clk := { s.clk with tb := 100000, tickPhase := 0 } }
  let s := ((s.wr (Reg.MBM_LIST_FOLD l) 0x1000).wr (Reg.MBM_LIST_LEN l) 14).wr (Reg.MBM_LIST_FRONT l) 0
  let s := s.wr (Reg.MBM_ENTSTAT l 0) 0
  let s := (s.wr (Reg.MBM_LIST_PERIOD l) 1000).wr (Reg.MBM_LIST_SKIPTALLY l) 3
  let s := (List.range 4).foldl (fun s m => if m = l then s else s.setBit (Reg.MBM_LIST_STAT m) 2 false) s
  let s := { s with ecc := [], mbm := { s.mbm with copies := [] } }
  s.setMl l x
/-- port p in service, free -/
def State.portAt (s : State) (p : Nat) (x : Port) : State :=
  let s := { s with clk := { s.clk with gated := 0 } }
  let s := (List.range 8).foldl (fun s n => s.wr (Reg.PPW_BIND n) 0) s
  let s := if isTw p then (s.wr (Reg.TW_CFG p) 1).wr (Reg.TW_PSTAT p) 0 else if isDs p then (s.wr (Reg.DS_CFG (p - 0x10)) 1).wr (Reg.DS_DSTAT (p - 0x10)) 0 else s
  (if isTw p then s.setBit (Reg.TW_SWCTL p) 31 false else s).setPort p x
/-- SEn running at PC 5 with an instruction there, in its window -/
def State.seFix (s : State) (n : Nat) (w : Word) (x : Se) : State :=
  let s := { s with clk := { s.clk with gated := 0 } }
  let s := (s.wr (Reg.SE_STAT n) 0x501).wr (Reg.SE_PROG n 5) w
  let s := ((s.wr (Reg.SE_CFG0 n) 0).wr (Reg.SE_CFG1 n) 0).wr (Reg.SE_CFG2 n) 0
  let s := ((s.wr (Reg.SE_PINCFG n) (BitVec.ofNat 32 (0x302 + 4 * n))).wr (Reg.SE_CRCCFG n) 0x10210002).wr (Reg.SE_MISC n) 0x1900FFFF
  let s := ((s.wr (Reg.SE_TMR n) 1000).wr (Reg.SE_REG n 1) 0xFFFFFFF0).wr (Reg.SE_REG n 3) 0x35
  let s := ((s.wr (Reg.SE_REG n 4) 900).wr (Reg.SE_REG n 6) 0x80000003).wr (Reg.SE_REG n 7) 0xBEEF
  s.setEng n x
def seRecB : List Word := [0x02015354, 5, 0, 0, 0x302, 0x10210002, 0xFFFF]
def seRecT : List Word := [0x04000009, 0x10000007] ++ (List.range 32).map (fun i => BitVec.ofNat 32 (i * i))
def seRecW : List Word := seRecB ++ [crc32 (seRecB ++ seRecT)] ++ seRecT
/-- channel n in state st, switched on or off, nothing bound -/
def State.ppAt (s : State) (n st : Nat) (on : Bool) (x : PpCh) : State :=
  let s := (s.wr (Reg.PPW_STAT n) (BitVec.ofNat 32 (st + (if on then 0x20000 else 0)))).wr (Reg.PPW_BIND n) 0
  let s := ((s.wr (Reg.PPW_CFG n) 0).wr (Reg.PPW_FILT n) 0x0302).wr (Reg.PPW_CTRL) 3
  let s := (s.wr (Reg.PPW_TALLY n) 0x10001).wr (Reg.PPW_EVTALLY n) 0x10001
  ({ s with clk := { s.clk with slow := 200000 } }).setPpc n x
/-- Core 1 ready, with a status and a return stack, and source 5 pending at priority 2. -/
def tIrq (status : Half) (r : List (BitVec 24)) : State :=
  let s := ((tLive.rdy 1 [1] r).wr (Reg.ICU_SRCCFG 1 5) 5).wr (Reg.ICU_PENDLO 1) 0x20
  s.setCore 1 { s.core 1 with status := status }

/-! ### Ill-formed terms that `Instr.wf` refuses, one for each check -/

theorem test_wf_railSample : (Instr.railSample [0, 0, 0, 0, 0, 0, 0] 0 0).wf = false := by decide
theorem wf_bootItemRead_long (n : Nat) (h : 0x200000 < n) : (Instr.bootItemRead ⟨List.replicate n 0, false⟩).wf = false := by
  simp [Instr.wf, h]
theorem test_wf_bootItemRead : (Instr.bootItemRead ⟨List.replicate 0x200001 0, false⟩).wf = false :=
  wf_bootItemRead_long 0x200001 (by decide)
theorem test_wf_descriptorFetchDone : (Instr.descriptorFetchDone (.ok [1, 2, 3, 4, 5, 6, 7])).wf = false := by decide
theorem test_wf_commandHostRead : (Instr.commandHostRead (.ok [])).wf = false := by decide
theorem test_wf_fetch : (Instr.fetch 0 (.data [])).wf = false := by decide
theorem test_wf_cFetch : (Instr.cFetch 0 (.data [])).wf = false := by decide
theorem test_wf_twoFetch : (Instr.twoFetch 0 (.data [])).wf = false := by decide
theorem test_wf_fFetch : (Instr.fFetch 0 (.data [1, 2, 3, 4, 5, 6, 7, 8, 9])).wf = false := by decide
theorem test_wf_f2Fetch : (Instr.f2Fetch 0 (.data [])).wf = false := by decide
theorem test_wf_plusStore : (Instr.plusStore 0 (.data [])).wf = false := by decide
theorem test_wf_dmaDescriptorFetch : (Instr.dmaDescriptorFetch 0 (.data [])).wf = false := by decide
theorem test_wf_dmaElement : (Instr.dmaElement 0 (.data [1, 2, 3, 4, 5, 6, 7, 8, 9]) 0 0 0).wf = false := by decide
theorem test_wf_bellwetherPortStart : (Instr.bellwetherPortStart 0 0x14 0).wf = false := by decide
theorem test_wf_bellwetherEnd : (Instr.bellwetherEnd 0 0x28 true).wf = false := by decide
theorem test_wf_entryAttemptEnd : (Instr.entryAttemptEnd 0 0 0 false (List.replicate 1025 0)).wf = false := by decide
theorem test_wf_twTransactionEnd : (Instr.twTransactionEnd 0 .ok (List.replicate 257 0)).wf = false := by decide
theorem test_wf_dsFrameEnd : (Instr.dsFrameEnd 0 0 (List.replicate 257 0)).wf = false := by decide
theorem test_wf_sinc3Result : (Instr.sinc3Result 0 2000 (List.replicate 1025 false)).wf = false := by decide
theorem test_wf_sinc3Result_clocks : (Instr.sinc3Result 0 2 [true, false, true]).wf = false := by decide
theorem test_wf_sdStuck : (Instr.sdStuck 0 (List.replicate 1025 false)).wf = false := by decide
theorem test_wf_sdtTrip : (Instr.sdtTrip 0 (List.replicate 1025 false)).wf = false := by decide
theorem test_wf_flashWindowRead : (Instr.flashWindowRead .debug 0 3 [0, 0, 0]).wf = false := by decide
theorem test_wf_good : (Instr.dsFrameEnd 0 0 (List.replicate 16 0)).wf = true := by decide

/-! ### One step each; the expected values are the worked cases of the spec -/

/-- What a next state shows. -/
def seen {α : Type} (o : Host.Outcome State Fault Refusal) (f : State → α) : Option α :=
  match o with
  | .next t => some (f t)
  | _ => none

/-- 06_tsuvo_programming.md, after R305: the literal word of 0x2400 pushes 0xE400. -/
theorem test_literal_extends_sign :
    seen (exec (.literal 2 0x2400) (tLive.rdy 2 [1] [])) (fun t => (t.core 2).dstk) = some [0xE400, 1] := by decide +kernel

/-- The same worked case: EXT of 1 and 0xE400 yields 0x6400. -/
theorem test_ext_joins_halves :
    seen (exec (.ext 2) (tLive.rdy 2 [0xE400, 1] [])) (fun t => (t.core 2).dstk) = some [0x6400] := by decide +kernel

/-- 06_tsuvo_programming.md, the temperature routine: with MA = 65 500, MAS by 5 gives 2047. -/
theorem test_mas_rounds :
    seen (exec (.mas 1) ((tLive.rdy 1 [5, 0xFFF4] []).setCore 1 { (tLive.rdy 1 [5, 0xFFF4] []).core 1 with ma := 65500 }))
      (fun t => (t.core 1).dstk) = some [2047, 0xFFF4] := by decide +kernel

/-- The same routine: an offset of −12 then gives 0x07F3. -/
theorem test_adds_offset :
    seen (exec (.adds 1) (tLive.rdy 1 [2047, 0xFFF4] [])) (fun t => (t.core 1).dstk) = some [0x07F3] := by decide +kernel

/-- 02_root_clock_and_rails.md, the timebase case: a read of TBLO shows the low half and latches the high half for its core. -/
theorem test_tblo_latches :
    seen (exec (.tbloRead (.core 2) .good) { tLive with clk := { tLive.clk with tb := 0x1FFFFFFFE } })
      (fun t => (t.reply, (t.tblo (.core 2)).1, tget 0 t.clk.tbLatch (tbLatchOf (.core 2)))) =
      some (.word 0xFFFFFFFE, 0xFFFFFFFE, 1) := by decide +kernel

/-- 07_tsuvo_pipeline_interrupts_debug.md, the interrupt case: source 60 at priority 1 outranks 34 at 3, is taken from slot
0x42:3D70, and 34 stays pending. -/
theorem test_interrupt_vector :
    (let s := (((tLive.rdy 2 [1] []).wr (Reg.ICU_SRCCFG 2 34) 7).wr (Reg.ICU_SRCCFG 2 60) 3).wr (Reg.ICU_PENDHI 2) 0x10000004
     let s := (s.wr (Reg.ICU_ACTIVE 2) 0x80000).setCore 2 { s.core 2 with status := 0x200, vbrh := 0x42, vbrl := 0x3C00 }
     seen (exec (.interruptEntry 2 false) s)
       (fun t => ((t.core 2).pc, (t.core 2).cbr, t.rpri 2, t.bit (Reg.ICU_PENDHI 2) 2))) = some (0x3D70, 0x42, 1, true) := by
  decide +kernel

/-- 06_tsuvo_programming.md, after R314: the words 0x4001 and 0x6400 spell the literals 1 and 0x2400, and a pair with EXT first is
0x1380. -/
theorem test_words_spell :
    spells 0x4001 false (.literal 2 1) = true ∧ spells 0x6400 false (.literal 2 0x2400) = true ∧ spells 0x1380 false (.ext 2) = true ∧
      spells 0x1380 true (.ext 2) = false := by decide +kernel

/-- 15_two_wire_and_ddr_serial.md, after R812: REG 0x0E, LEN 2, WRAP 4 is read in two segments, each of a pointer and two bytes, of
which the port acknowledges the first. -/
theorem test_entry_segments :
    entryTxs 0x45 0x48 0x0E 2 = [{ addr := 0x48, wr := some [0x0E], rd := some 2 }, { addr := 0x48, wr := some [0x10], rd := some 2 }] ∧
      ({ addr := 0x48, wr := some [0x0E], rd := some 2 } : TwTx).acks = [true, false] := by decide +kernel

/-- Table 18-1, Table 18-2: DS1 starts at column 11 of row AC, and 217 of the 484 positions hold a supply or a ground. -/
theorem test_package_positions :
    Ball.pos (.dsD 1 2) = (22, 15) ∧ Ball.pos (.pres 6) = (17, 20) ∧
      (((List.range 484).filter fun k => [Supply.vdd, .vss, .vssa, .vdda, .vddioT, .vddioL, .vddioR, .vddioD, .vdd33, .vddpll,
        .vddm, .vddpx09, .vddpx18].any fun p => p.at_ (1 + k / 22) (1 + k % 22)).length = 217) := by decide +kernel

/-- A step takes the front of the queue and leaves the rest (log entry 96). -/
theorem test_step_takes_front :
    seen (step { (tLive.rdy 2 [1] []) with pending := [.literal 2 0x2400, .ext 2] }) (fun t => ((t.core 2).dstk, t.pending)) =
      some ([0xE400, 1], [.ext 2]) := by decide +kernel

/-! ### Witnesses of the statements -/


theorem witness_ClockEvents :
    (∃ (s : State), s.alwaysOn = true ∧ s.clk.rootLost = false ∧ s.clk.pll = .waitXtal) ∧
    (∃ (s : State) (k : Nat), s.clk.pll = .starting k ∧ s.clk.stopped = false ∧ s.clk.trans ≠ .toRun) ∧
    (∃ (s : State) (k : Nat), s.clk.pll = .starting k ∧ s.clk.stopped = false ∧ s.clk.trans = .toRun) ∧
    (∃ (s : State), s.clk.pll = .starting 1 ∧ s.clk.stopped = false) ∧
    (∃ (s : State), s.clk.pll = .starting 2 ∧ s.clk.stopped = false ∧ s.clk.trans ≠ .toRun) ∧
    (∃ (s : State), s.clk.pll = .starting 2 ∧ s.clk.stopped = false ∧ s.clk.trans = .toRun) ∧
    (∃ (s : State), s.live = true ∧ s.clk.memInit = true) ∧
    (∃ (s : State), s.alwaysOn = true ∧ s.clk.armed = true ∧ s.clk.rootLost = false ∧ s.clk.onCrystal = false ∧
        s.clk.lg = .idle ∧ s.clk.trans = .none ∧ s.pwr ≠ pwrSTANDBY) ∧
    (∃ (s : State), s.alwaysOn = true ∧ s.clk.onCrystal = true ∧ s.clk.rootLost = false) ∧
    (∃ (s : State), s.clk.rootLost = true ∧ s.alwaysOn = true) ∧
    (∃ (s : State), s.live = true ∧ s.clk.onCrystal = false) ∧
    (∃ (s : State) (src : Requester) (tlp : Tlp), s.alwaysOn = true ∧ s.regServed src Reg.TMB_TBLO = true ∧
        (src = .host → s.linkUp = true ∧ s.memServed = true ∧ tlp = .good)) ∧
    (∃ (s : State), s.alwaysOn = true ∧ s.linkUp = true ∧ s.memServed = false) ∧
    (∃ (s : State) (n : Fin 8), s.live = true ∧ s.bit (Reg.TMB_TMR_CTRL n.val) 0 = true ∧
        1 < (s.rd (Reg.TMB_TMR_COUNT n.val)).toNat) ∧
    (∃ (s : State) (n : Fin 8), s.live = true ∧ s.bit (Reg.TMB_TMR_CTRL n.val) 0 = true ∧
        (s.rd (Reg.TMB_TMR_COUNT n.val)).toNat ≤ 1) :=
  ⟨⟨((fun (s : State) => { s with clk := { s.clk with phase := .run, pll := .waitXtal, rootLost := false, lg := .idle } })
      tLive), by decide +kernel⟩,
   ⟨((fun (k : Nat) (s : State) => { s with clk := { s.clk with pll := .starting k, stopped := false } }) 2 tLive), 2,
       by decide +kernel⟩,
   ⟨((fun (k : Nat) (s : State) =>
       { s with clk := { s.clk with stopped := false, pll := .starting k, trans := .toRun } }) 1 tLive), 1,
       by decide +kernel⟩,
   ⟨((fun (s : State) => { s with clk := { s.clk with stopped := false, pll := .starting 1 } }) tLive), by decide +kernel⟩,
   ⟨((fun (s : State) => { s with clk := { s.clk with stopped := false, pll := .starting 2 } }) tLive), by decide +kernel⟩,
   ⟨((fun (s : State) => { s with clk := { s.clk with stopped := false, pll := .starting 2, trans := .toRun } }) tLive),
       by decide +kernel⟩,
   ⟨((fun (s : State) => { s with clk := { s.clk with memInit := true } }) tLive), by decide +kernel⟩,
   ⟨((fun (s : State) => { s with clk := { s.clk with phase := .run, armed := true, rootLost := false, onCrystal := false, lg := .idle, trans := .none, stopped := false } })
       tLive), by decide +kernel⟩,
   ⟨((fun (s : State) => { s with clk := { s.clk with phase := .run, onCrystal := true, rootLost := false, lg := .idle, stopped := false } })
       tLive), by decide +kernel⟩,
   ⟨((fun (s : State) => { s with clk := { s.clk with phase := .run, rootLost := true, lg := .idle, stopped := false } })
       tLive), by decide +kernel⟩,
   ⟨((fun (s : State) => { s with clk := { s.clk with onCrystal := false } }) tLive), by decide +kernel⟩,
   ⟨((fun (s : State) => { s with clk := { s.clk with stopped := false } }) tLive), .debug, .good, by decide +kernel⟩,
   ⟨((fun (s : State) => ({ s with clk := { s.clk with stopped := false } }.setBit Reg.HIF_LINKSTAT 0 true).cfgWr 1 0) tLive),
       by decide +kernel⟩,
   ⟨((fun (s : State) => (s.wr (Reg.TMB_TMR_CTRL 3) 3).wr (Reg.TMB_TMR_COUNT 3) 7) tLive), 3, by decide +kernel⟩,
   ⟨((fun (s : State) => (s.wr (Reg.TMB_TMR_CTRL 3) (BitVec.ofNat 32 (1 + 2 * (s.free % 2)))).wr (Reg.TMB_TMR_COUNT 3) 1)
       tLive), 3, by decide +kernel⟩⟩

theorem witness_ResetEvents :
    (∃ (s : State), s.clk.phase = .porHold ∧ s.clk.vddioOk = false) ∧
    (∃ (s : State) (ns : Nat) (ok : Bool) (amid : Bool), 1000 ≤ ns ∧ s.clk.phase ≠ .porHold ∧ s.clk.lg = .idle) ∧
    (∃ (s : State) (ns : Nat) (ok : Bool) (amid : Bool), ns < 100) ∧
    (∃ (s : State) (ns : Nat) (amid : Bool), 1000 ≤ ns ∧ s.clk.phase ≠ .porHold ∧ s.clk.lg = .held) ∧
    (∃ (s : State) (src : Requester) (val : Word), s.sysServed = true ∧ W.fld val 16 16 = 0xA5C3 ∧ W.bit val 0 = true) ∧
    (∃ (s : State) (src : Requester) (val : Word), (W.fld val 16 16 ≠ 0xA5C3 ∨ W.bit val 0 = false)) ∧
    (∃ (s : State), s.clk.resetReq = true) ∧
    (∃ (s : State) (sel : BitVec 2) (v33 : Bool), s.clk.phase = .devHold) ∧
    (∃ (s : State) (sel : BitVec 2) (v33 : Bool), s.clk.phase = .porHold ∧ (v33 = true ∨ s.clk.vddioOk = true)) :=
  ⟨⟨((fun (s : State) => { s with clk := { s.clk with phase := .porHold, vddioOk := false } }) tLive), by decide +kernel⟩,
   ⟨((fun (s : State) => { s with clk := { s.clk with phase := .run, lg := .idle } }) tLive), 1500, true, true,
       by decide +kernel⟩,
   ⟨tLive, 0, true, true, by decide +kernel⟩,
   ⟨((fun (s : State) => { s with clk := { s.clk with phase := .run, lg := .held } }) tLive), 1000, true, by decide +kernel⟩,
   ⟨((fun (s : State) => { s with clk := { s.clk with phase := .run, lg := .idle, pll := .locked, stopped := false } }.setFld
       Reg.SYS_PWRSTATE 0 3 1) tLive), .debug, 0xA5C30001, by decide +kernel⟩,
   ⟨tLive, .debug, 0, by decide +kernel⟩,
   ⟨((fun (s : State) => { s with clk := { s.clk with resetReq := true } }) tLive), by decide +kernel⟩,
   ⟨((fun (s : State) => { s with clk := { s.clk with phase := .devHold } }) tLive), 0, true, by decide +kernel⟩,
   ⟨((fun (s : State) => { s with clk := { s.clk with phase := .porHold, vddioOk := true } }) tLive), 0, true,
       by decide +kernel⟩⟩

theorem witness_SupervisorEvents :
    (∃ (s : State) (codes : List (BitVec 10)) (vin : BitVec 10) (mv : BitVec 16), s.alwaysOn = true) ∧
    (∃ (s : State) (r : Fin 8) (hi : Bool), s.alwaysOn = true ∧ (tget {} s.sup.cond (5 * r.val + hi.toNat)).reported = false ∧
        max 1 (s.fld (Reg.SUP_RAIL_CFG r.val) 8 8) ≤ (tget {} s.sup.cond (5 * r.val + hi.toNat)).held) ∧
    (∃ (s : State) (r : Fin 8) (hi : Bool), s.alwaysOn = true ∧
        (tget {} s.sup.cond (5 * r.val + 2 + hi.toNat)).reported = false ∧
        max 1 (s.fld (Reg.SUP_RAIL_CFG r.val) 8 8) ≤ (tget {} s.sup.cond (5 * r.val + 2 + hi.toNat)).held) ∧
    (∃ (s : State) (r : Fin 8), s.alwaysOn = true ∧ (tget {} s.sup.cond (5 * r.val + 4)).reported = false ∧
        max 1 (s.fld (Reg.SUP_RAIL_CFG r.val) 8 8) ≤ (tget {} s.sup.cond (5 * r.val + 4)).held) ∧
    (∃ (s : State) (r : Fin 8), s.alwaysOn = true ∧ (tget {} s.sup.cond (5 * r.val + 4)).reported = true ∧
        max 1 (s.fld (Reg.SUP_RAIL_CFG r.val) 8 8) ≤ (tget {} s.sup.cond (5 * r.val + 4)).failed) ∧
    (∃ (s : State), s.sysServed = true ∧ s.sup.seq = .idle ∧ s.bit Reg.SUP_STATUS 17 = false) ∧
    (∃ (s : State), s.sysServed = true ∧ (s.sup.seq ≠ .idle ∨ s.bit Reg.SUP_STATUS 17 = true)) ∧
    (∃ (s : State), s.alwaysOn = true ∧ s.sup.seq = .waitFaultn ∧ s.drivesFaultn = false ∧
        (∃ r : Fin 8, s.railSeqEn r.val = true)) ∧
    (∃ (s : State) (pos : Nat), s.alwaysOn = true ∧ s.sup.seq = .up pos ∧
        (∀ r : Fin 8, s.railSeqEn r.val = true → s.railOrder r.val = pos → s.sup.pgSeen.testBit r.val = true)) ∧
    (∃ (s : State) (r : Fin 8) (pos : Nat), s.alwaysOn = true ∧ s.sup.seq = .up pos ∧ s.railSeqEn r.val = true ∧
        s.railOrder r.val = pos ∧ s.sup.pgSeen.testBit r.val = false) ∧
    (∃ (s : State), s.sysServed = true ∧ s.sup.seq = .idle ∧ s.sup.railEn % 256 = 0 ∧ s.clk.trans = .none) ∧
    (∃ (s : State) (r : Fin 8), s.sysServed = true ∧ s.sup.seq = .idle ∧ s.railOn r.val = true ∧
        (∀ q : Fin 8, s.railOn q.val = true → s.railOrder q.val ≤ s.railOrder r.val)) ∧
    (∃ (s : State) (r : Fin 8) (pos : Nat), s.alwaysOn = true ∧ s.clk.trans = .none ∧ s.sup.seq = .down [(r.val, pos)] pos ∧
        s.sup.offSeen.testBit r.val = true) ∧
    (∃ (s : State) (r : Fin 8) (pos : Nat), s.alwaysOn = true ∧ s.sup.seq = .down [(r.val, pos)] pos ∧
        s.sup.offSeen.testBit r.val = false) ∧
    (∃ (s : State), s.alwaysOn = true ∧ s.bit Reg.SUP_STATUS 17 = true ∧ s.drivesFaultn = false) :=
  ⟨⟨tLive, [], 0, 0, by decide +kernel⟩,
   ⟨{ tLive with sup := { tLive.sup with cond := [(16, { held := 255 })] } }, 3, true, by decide +kernel⟩,
   ⟨{ tLive with sup := { tLive.sup with cond := [(18, { held := 255 })] } }, 3, true, by decide +kernel⟩,
   ⟨{ tLive with sup := { tLive.sup with cond := [(19, { held := 255 })] } }, 3, by decide +kernel⟩,
   ⟨{ tLive with sup := { tLive.sup with cond := [(19, { failed := 255, reported := true })] } }, 3, by decide +kernel⟩,
   ⟨((fun (s : State) => { s with sup := { s.sup with seq := .idle }, clk := { s.clk with stopped := false } }.setBit
       Reg.SUP_STATUS 17 false) tLive), by decide +kernel⟩,
   ⟨{ tLive with sup := { tLive.sup with seq := .up 2 } }, by decide +kernel⟩,
   ⟨((fun (s : State) => ((((({ s with sup := { s.sup with seq := .waitFaultn, faultnHold := false }, clk := { s.clk with rootLost := false, lg := .idle } }).wr
       Reg.SUP_FAULT 0).setBit Reg.SUP_STATUS 18 false).setBit (Reg.SUP_RAIL_CFG 2) 3 true).setBit (Reg.SUP_RAIL_CFG 5) 3
       true)) tLive), by decide +kernel⟩,
   ⟨((fun (s : State) => { s with sup := { s.sup with seq := .up (s.railOrder 2), pgSeen := 255 } }) tLive),
       ((fun (s : State) => s.railOrder 2) tLive), by decide +kernel⟩,
   ⟨(({ tLive with sup := { tLive.sup with seq := .up 2 } }.wr Reg.SUP_STATUS 0).wr (Reg.SUP_RAIL_CFG 3) 0x2A), 3, 2,
       by decide +kernel⟩,
   ⟨((fun (s : State) => { s with sup := { s.sup with seq := .idle, railEn := 0 }, clk := { s.clk with trans := .none } })
       tLive), by decide +kernel⟩,
   ⟨({ tLive with sup := { tLive.sup with seq := .idle, railEn := 8 } }).wr (Reg.SUP_RAIL_CFG 3) 0x2A, 3, by decide +kernel⟩,
   ⟨{ tLive with sup := { tLive.sup with seq := .down [(3, 2)] 2, offSeen := 8 } }, 3, 2, by decide +kernel⟩,
   ⟨({ tLive with sup := { tLive.sup with seq := .down [(3, 2)] 2 } }.wr (Reg.SUP_RAIL_MEAS 3) 77).wr (Reg.SUP_RAIL_THOFF 3)
       5, 3, 2, by decide +kernel⟩,
   ⟨((fun (s : State) => (({ s with sup := { s.sup with faultnHold := false }, clk := { s.clk with rootLost := false, lg := .idle } }.wr
       Reg.SUP_FAULT 0).setBit Reg.SUP_STATUS 18 false).setBit Reg.SUP_STATUS 17 true) tLive), by decide +kernel⟩⟩

theorem witness_PowerEvents :
    (∃ (s : State), s.sysServed = true ∧ s.bit Reg.SYS_PWRSTATE 8 = false ∧ s.pwr = pwrTRIM) ∧
    (∃ (s : State), s.sysServed = true ∧ s.bit Reg.SYS_PWRSTATE 8 = false ∧ s.pwr = pwrSTANDBY ∧ s.clk.rootLost = false) ∧
    (∃ (s : State), s.sysServed = true ∧ s.bit Reg.SYS_PWRSTATE 8 = false ∧ s.pwr = pwrSTANDBY ∧ s.clk.rootLost = true) ∧
    (∃ (s : State), s.sysServed = true ∧ s.bit Reg.SYS_PWRSTATE 8 = true) ∧
    (∃ (s : State), s.sysServed = true ∧ s.bit Reg.SYS_PWRSTATE 8 = false ∧ s.pwr = pwrRUN ∧ s.rd Reg.SYS_CLKGATE = 0) ∧
    (∃ (s : State), s.sysServed = true ∧ s.bit Reg.SYS_PWRSTATE 8 = false ∧ (s.pwr = pwrRUN ∨ s.pwr = pwrTRIM) ∧
        s.quiet = true) ∧
    (∃ (s : State), s.sysServed = true ∧ s.bit Reg.SYS_PWRSTATE 8 = false ∧ (s.pwr = pwrRUN ∨ s.pwr = pwrTRIM) ∧
        s.quiet = false) ∧
    (∃ (s : State), s.sysServed = true ∧ s.bit Reg.SYS_PWRSTATE 8 = false ∧ s.sup.railEn % 256 ≠ 0 ∧ s.sup.seq = .idle) ∧
    (∃ (s : State) (val : Word), s.sysServed = true ∧ (s.pwr = pwrRUN ∨ s.pwr = pwrSTANDBY)) ∧
    (∃ (s : State) (val : Word), s.sysServed = true ∧ s.pwr = pwrTRIM ∧ s.bit Reg.SYS_STATUS 31 = false) ∧
    (∃ (s : State) (vdd : Bool) (vin : Bool), s.alwaysOn = true ∧ s.clk.lg = .idle ∧ (vdd = true ∨ (vin = true ∧
        s.bit Reg.SUP_CTRL 2 = true))) ∧
    (∃ (s : State) (ws : List Word), s.clk.stopped = false ∧ s.clk.lg = .latched ws true ∧ ws.length = 62) ∧
    (∃ (s : State) (ws : List Word), s.clk.stopped = false ∧ s.clk.lg = .latched ws false) :=
  ⟨⟨((fun (s : State) => { s with clk := { s.clk with phase := .run, lg := .idle, pll := .locked, stopped := false } }.wr
      Reg.SYS_PWRSTATE 0x70072) tLive), by decide +kernel⟩,
   ⟨((fun (s : State) => { s with clk := { s.clk with phase := .run, rootLost := false, lg := .idle, pll := .locked, stopped := false } }.wr
       Reg.SYS_PWRSTATE 0x70073) tLive), by decide +kernel⟩,
   ⟨((fun (s : State) => { s with clk := { s.clk with phase := .run, rootLost := true, lg := .idle, pll := .locked, stopped := false } }.wr
       Reg.SYS_PWRSTATE 0x70073) tLive), by decide +kernel⟩,
   ⟨((fun (s : State) => { s with clk := { s.clk with phase := .run, rootLost := true, lg := .idle, pll := .locked, stopped := false } }.setBit
       Reg.SYS_PWRSTATE 8 true) tLive), by decide +kernel⟩,
   ⟨((fun (s : State) => ({ s with clk := { s.clk with phase := .run, lg := .idle, pll := .locked, stopped := false } }.wr
       Reg.SYS_PWRSTATE 0x70071).wr Reg.SYS_CLKGATE 0) tLive), by decide +kernel⟩,
   ⟨((fun (s : State) => { s with regs := s.regs.filter (fun e => e.1 != Reg.KLE_ENABLED && !(List.range 4).any (fun i => e.1 == Reg.MBM_LIST_STAT i) && !(List.range 16).any (fun i => e.1 == Reg.XLT_DMA_STATUS i)), clk := { s.clk with phase := .run, lg := .idle, pll := .locked, stopped := false } }.wr
       Reg.SYS_PWRSTATE 0x70071) tLive), by decide +kernel⟩,
   ⟨((fun (s : State) => { s with clk := { s.clk with phase := .run, lg := .idle, pll := .locked, stopped := false } }.wr
       Reg.SYS_PWRSTATE 0x70071 |>.wr Reg.KLE_ENABLED 1) tLive), by decide +kernel⟩,
   ⟨((fun (s : State) => { s with clk := { s.clk with phase := .run, lg := .idle, pll := .locked, stopped := false }, sup := { s.sup with seq := .idle, railEn := 5 } }.wr
       Reg.SYS_PWRSTATE 0x70071) tLive), by decide +kernel⟩,
   ⟨((fun (s : State) => { s with clk := { s.clk with phase := .run, lg := .idle, pll := .locked, stopped := false } }.wr
       Reg.SYS_PWRSTATE 0x70071) tLive), 0, by decide +kernel⟩,
   ⟨((fun (s : State) => { s with clk := { s.clk with phase := .run, lg := .idle, pll := .locked, stopped := false } }.wr
       Reg.SYS_PWRSTATE 0x70072 |>.setBit Reg.SYS_STATUS 31 false) tLive), 0, by decide +kernel⟩,
   ⟨((fun (s : State) => { s with clk := { s.clk with phase := .run, lg := .idle, pll := .locked, stopped := false } })
       tLive), true, true, by decide +kernel⟩,
   ⟨((fun (ws : List Word) (s : State) =>
       { s with clk := { s.clk with stopped := false, lg := .latched ws true } }) ((List.range 62).map (BitVec.ofNat 32))
       tLive), ((List.range 62).map (BitVec.ofNat 32)), by decide +kernel⟩,
   ⟨((fun (ws : List Word) (s : State) =>
       { s with clk := { s.clk with stopped := false, lg := .latched ws false } }) [] tLive), [], by decide +kernel⟩⟩

theorem witness_LinkEvents :
    (∃ (s : State), s.alwaysOn = true) ∧
    (∃ (s : State), s.alwaysOn = false) ∧
    (∃ (s : State), s.alwaysOn = true ∧ s.bit Reg.HIF_LINKSTAT 0 = true) ∧
    (∃ (s : State), s.alwaysOn = true ∧ s.bit Reg.HIF_LINKSTAT 0 = true) ∧
    (∃ (s : State), s.hif.phyOk = true ∧ s.clk.pll = .locked ∧ s.bit Reg.HIF_LINKSTAT 0 = false) ∧
    (∃ (s : State), (s.hif.phyOk = false ∨ s.clk.pll ≠ .locked ∨ s.bit Reg.HIF_LINKSTAT 0 = true)) ∧
    (∃ (s : State), s.hif.perstLow = false ∧ s.clk.pll = .locked ∧ s.bit Reg.HIF_LINKSTAT 0 = false) ∧
    (∃ (s : State) (sp : BitVec 2) (w : BitVec 3), s.hif.training = true ∧ s.alwaysOn = true) ∧
    (∃ (s : State) (d : BitVec 10) (val : Word) (be : BitVec 4), s.alwaysOn = true ∧ s.bit Reg.HIF_LINKSTAT 0 = true) ∧
    (∃ (s : State) (d : BitVec 10) (val : Word), s.alwaysOn = true ∧ s.bit Reg.HIF_LINKSTAT 0 = true ∧ d.toNat ≠ 0x22 ∧
        d.toNat ≠ 0x11 ∧ d.toNat ≠ 0x19) ∧
    (∃ (s : State) (locked : Bool), s.alwaysOn = true ∧ s.bit Reg.HIF_LINKSTAT 0 = true) :=
  ⟨⟨((fun (s : State) => { s with clk := { s.clk with phase := .run, lg := .idle } }) tLive), by decide +kernel⟩,
   ⟨{ tLive with clk := { tLive.clk with phase := .porHold } }, by decide +kernel⟩,
   ⟨((fun (s : State) => s.setBit Reg.HIF_LINKSTAT 0 true) tLive), by decide +kernel⟩,
   ⟨((fun (s : State) => s.setBit Reg.HIF_LINKSTAT 0 true) tLive), by decide +kernel⟩,
   ⟨((fun (s : State) => ({ s with hif := { s.hif with phyOk := true } }.setBit Reg.HIF_LINKSTAT 0 false)) tLive),
       by decide +kernel⟩,
   ⟨tLive, by decide +kernel⟩,
   ⟨((fun (s : State) => ({ s with hif := { s.hif with perstLow := false } }.setBit Reg.HIF_LINKSTAT 0 false)) tLive),
       by decide +kernel⟩,
   ⟨((fun (s : State) => { s with hif := { s.hif with training := true } }) tLive), 0, 0, by decide +kernel⟩,
   ⟨((fun (s : State) => s.setBit Reg.HIF_LINKSTAT 0 true) tLive), 0, 0, 0, by decide +kernel⟩,
   ⟨((fun (s : State) => s.setBit Reg.HIF_LINKSTAT 0 true) tLive), 0, 0, by decide +kernel⟩,
   ⟨((fun (s : State) => s.setBit Reg.HIF_LINKSTAT 0 true) tLive), true, by decide +kernel⟩⟩

theorem witness_RegisterAccess :
    (∃ (s : State) (src : Requester) (i : Fin 32) (val : Word) (tlp : Tlp) (coin : Word), src ≠ .host ∧ s.sysServed = true) ∧
    (∃ (s : State) (src : Requester) (val : Word) (tlp : Tlp) (coin : Word), src ≠ .host ∧ s.sysServed = true) ∧
    (∃ (s : State) (src : Requester) (r : Fin 8) (val : Word) (tlp : Tlp) (coin : Word), src ≠ .host ∧ s.sysServed = true ∧
        s.sup.seqOwns = true) ∧
    (∃ (s : State) (src : Requester) (addr : Word) (val : Word) (be : BitVec 4) (tlp : Tlp) (coin : Word), src ≠ .host ∧
        be ≠ 0xF) ∧
    (∃ (s : State) (addr : Word) (val : Word) (be : BitVec 4) (coin : Word), s.alwaysOn = true ∧
        s.bit Reg.HIF_LINKSTAT 0 = true ∧ s.memServed = true ∧ be ≠ 0xF) ∧
    (∃ (s : State) (addr : Word) (val : Word) (be : BitVec 4) (coin : Word), s.alwaysOn = true ∧
        s.bit Reg.HIF_LINKSTAT 0 = true) ∧
    (∃ (s : State) (i : Fin 32) (val : Word) (coin : Word), s.sysServed = true ∧ s.bit Reg.HIF_LINKSTAT 0 = true ∧
        s.memServed = true ∧ s.fld Reg.HIF_REGWIN 0 6 = 0) ∧
    (∃ (s : State) (a : BitVec 21), s.alwaysOn = true ∧ s.bit Reg.HIF_LINKSTAT 0 = true ∧ s.memServed = true ∧
        s.bar2Closed = false ∧ (s.atHome 6 (a.toNat / 32)).eccAt a.toNat = 0 ∧
        (s.atHome 6 (a.toNat / 32)).owner (a.toNat / 32) = none) ∧
    (∃ (s : State) (a : BitVec 21), s.alwaysOn = true ∧ s.bit Reg.HIF_LINKSTAT 0 = true ∧ s.memServed = true ∧
        s.bar2Closed = true) ∧
    (∃ (s : State) (a : BitVec 21), s.alwaysOn = true ∧ s.bit Reg.HIF_LINKSTAT 0 = true ∧ s.memServed = false) ∧
    (∃ (s : State) (a : BitVec 21) (val : Word) (be : BitVec 4), s.alwaysOn = true ∧ s.bit Reg.HIF_LINKSTAT 0 = true ∧
        s.memServed = true ∧ s.bar2Closed = false ∧ (s.atHome 6 (a.toNat / 32)).eccAt a.toNat = 0 ∧
        (∀ n : Fin 4, ((s.atHome 6 (a.toNat / 32)).line n.val (a.toNat / 32)).st = .i)) ∧
    (∃ (s : State) (a : BitVec 21) (val : Word) (be : BitVec 4), s.alwaysOn = true ∧ s.bit Reg.HIF_LINKSTAT 0 = true) ∧
    (∃ (s : State) (src : Requester) (y : BitVec 28) (val : Word) (va : BitVec 24), s.live = true ∧ s.canIssue = true) :=
  ⟨⟨tLive, .debug, 0, 0, .good, 0, by decide +kernel⟩,
   ⟨tLive, .debug, 0, .good, 0, by decide +kernel⟩,
   ⟨((fun (s : State) => { s with sup := { s.sup with seqOwns := true } }) tLive), .debug, 0, 0, .good, 0, by decide +kernel⟩,
   ⟨tLive, .debug, 0, 0, 0, .good, 0, by decide +kernel⟩,
   ⟨((fun (s : State) => (s.setBit Reg.HIF_LINKSTAT 0 true).cfgWr 1 0x00100006 |>.cfgWr 0x11 0) tLive), 0, 0, 0, 0,
       by decide +kernel⟩,
   ⟨((fun (s : State) => (s.setBit Reg.HIF_LINKSTAT 0 true).cfgWr 1 0x00100006 |>.cfgWr 0x11 0) tLive), 0, 0, 0, 0,
       by decide +kernel⟩,
   ⟨((fun (s : State) => ((s.setBit Reg.HIF_LINKSTAT 0 true).cfgWr 1 0x00100006 |>.cfgWr 0x11 0).wr Reg.HIF_REGWIN 0) tLive),
       0, 0, 0, by decide +kernel⟩,
   ⟨((fun (s : State) => ({ ((s.setBit Reg.HIF_LINKSTAT 0 true).cfgWr 1 0x00100006 |>.cfgWr 0x11 0) with cores := [] }).setFld
       Reg.SYS_BOOTSTAT 0 4 1 |> fun s => { s with hif := { s.hif with proof := 0 } }) tLive), 0, by decide +kernel⟩,
   ⟨((fun (s : State) => ((s.setBit Reg.HIF_LINKSTAT 0 true).cfgWr 1 0x00100006 |>.cfgWr 0x11 0).setFld Reg.SYS_BOOTSTAT 0 4
       0) tLive), 0, by decide +kernel⟩,
   ⟨((fun (s : State) => (s.setBit Reg.HIF_LINKSTAT 0 true).cfgWr 1 0x00100004) tLive), 0, by decide +kernel⟩,
   ⟨((fun (s : State) => ({ ((s.setBit Reg.HIF_LINKSTAT 0 true).cfgWr 1 0x00100006 |>.cfgWr 0x11 0) with cores := [] }).setFld
       Reg.SYS_BOOTSTAT 0 4 1 |> fun s => { s with hif := { s.hif with proof := 0 } }) tLive), 0, 0, 0, by decide +kernel⟩,
   ⟨((fun (s : State) => (s.setBit Reg.HIF_LINKSTAT 0 true).cfgWr 1 0x00100006 |>.cfgWr 0x11 0) tLive), 0, 0, 0,
       by decide +kernel⟩,
   ⟨((fun (s : State) => (s.setBit Reg.HIF_LINKSTAT 0 true).cfgWr 1 0x00100006 |>.cfgWr 0x11 0) tLive), .debug, 0, 0, 0,
       by decide +kernel⟩⟩

theorem witness_BootEvents :
    (∃ (s : State) (ws : List Word), s.live = true ∧ s.boot.stage = .header ∧ s.bootSource ≠ 2 ∧ ws.length = 16 ∧
        crc32 (ws.take 15) = ws.getD 15 0 ∧ hdrBad ws 0x800000 = false) ∧
    (∃ (s : State) (item : ItemRead), s.live = true ∧ (s.boot.stage = .header ∨ s.boot.stage = .table) ∧ s.bootSource ≠ 2 ∧
        item.partialFrame = true ∧ 0 < hdrNsect s.boot.hdr) ∧
    (∃ (s : State) (ws : List Word) (i : Nat), s.live = true ∧ s.boot.stage = .sect i ∧ s.bootSource ≠ 2 ∧
        ws.length = (sectionOf s.boot.hdr s.boot.tbl i).len / 4 ∧ crc32 ws = (sectionOf s.boot.hdr s.boot.tbl i).scrc ∧
        (sectionOf s.boot.hdr s.boot.tbl i).load % 4 = 0 ∧ s.coh.credits = []) ∧
    (∃ (s : State), s.live = true ∧ s.boot.stage = .check ∧ s.boot.bad = true) ∧
    (∃ (s : State), s.live = true ∧ s.boot.stage = .check ∧ s.boot.bad = false ∧
        malformed s.boot.hdr s.boot.tbl s.bootAvail s.staged = false ∧
        (imageOutcome (sections s.boot.hdr s.boot.tbl) (s.fwe (sections s.boot.hdr s.boot.tbl))).1 = boREADY) ∧
    (∃ (s : State) (oc : Nat) (sect : Nat), s.live = true ∧ s.boot.stage = .check ∧ s.boot.bad = false ∧
        s.boot.forcing = false ∧ malformed s.boot.hdr s.boot.tbl s.bootAvail s.staged = false ∧
        imageOutcome (sections s.boot.hdr s.boot.tbl) (s.fwe (sections s.boot.hdr s.boot.tbl)) = (oc, sect) ∧ oc ≠ boREADY) ∧
    (∃ (s : State) (c : Section), s.live = true ∧ s.boot.stage = .done ∧
        (sections s.boot.hdr s.boot.tbl).find? Section.isCode = some c) ∧
    (∃ (s : State), s.live = true ∧ s.boot.stage = .done ∧ (sections s.boot.hdr s.boot.tbl).any Section.isCode = false) ∧
    (∃ (s : State) (val : Word), s.sysServed = true ∧ W.bit val 0 = true ∧ s.bootSource = 2 ∧ 2 ≤ s.outcome ∧ s.outcome ≤ 5) ∧
    (∃ (s : State) (val : Word), s.sysServed = true ∧ W.bit val 0 = true ∧
        (s.bootSource ≠ 2 ∨ s.outcome = boBOOTING ∨ s.outcome = boREADY)) ∧
    (∃ (s : State) (val : Word), s.sysServed = true ∧ W.fld val 0 16 = 0xF0CE ∧ s.outcome = boHOLD_UNTESTED) ∧
    (∃ (s : State) (val : Word), s.sysServed = true ∧ (W.fld val 0 16 ≠ 0xF0CE ∨ s.outcome ≠ boHOLD_UNTESTED)) :=
  ⟨⟨((fun (s : State) => { s with boot := { s.boot with stage := .header } }.setFld Reg.SYS_BOOTSTAT 4 2 0) tLive), hdrW,
      by decide +kernel⟩,
   ⟨((fun (s : State) => { s with boot := { s.boot with stage := .table, hdr := hdrW } }.setFld Reg.SYS_BOOTSTAT 4 2 1)
       tLive), ((fun (item : ItemRead) => { item with partialFrame := true }) ⟨[], true⟩), by decide +kernel⟩,
   ⟨((fun (s : State) => { s with coh := { s.coh with credits := [] }, boot := { s.boot with stage := .sect 0, hdr := hdrW, tbl := tblW } }.setFld
       Reg.SYS_BOOTSTAT 4 2 0) tLive), ([1,2,3,4]), 0, by decide +kernel⟩,
   ⟨((fun (s : State) => { s with boot := { s.boot with stage := .check, bad := true } }) tLive), by decide +kernel⟩,
   ⟨((fun (s : State) => { s with boot := { s.boot with stage := .check, bad := false, hdr := hdrW, tbl := tblW } }.setFld
       Reg.SYS_BOOTSTAT 4 2 0) tLive), by decide +kernel⟩,
   ⟨((fun (s : State) => { s with boot := { s.boot with stage := .check, bad := false, forcing := false, hdr := hdrW, tbl := tblW.set 8 0x00000901 } }.setFld
       Reg.SYS_BOOTSTAT 4 2 0) tLive), 2, 0, by decide +kernel⟩,
   ⟨((fun (s : State) => { s with boot := { s.boot with stage := .done, hdr := hdrW, tbl := tblW } }) tLive),
       (sectionOf hdrW tblW 0), by decide +kernel⟩,
   ⟨((fun (s : State) => { s with boot := { s.boot with stage := .done, hdr := hdrW, tbl := tblW.set 0 0x00010502 } }) tLive),
       by decide +kernel⟩,
   ⟨((fun (s : State) => (s.setFld Reg.SYS_BOOTSTAT 4 2 2).setFld Reg.SYS_BOOTSTAT 0 4 (2 + s.fld Reg.SYS_BOOTSTAT 0 2))
       tLive), 1, by decide +kernel⟩,
   ⟨((fun (s : State) => (s.setFld Reg.SYS_BOOTSTAT 4 2 1)) tLive), 1, by decide +kernel⟩,
   ⟨((fun (s : State) => s.setFld Reg.SYS_BOOTSTAT 0 4 2) tLive), 0xF0CE, by decide +kernel⟩,
   ⟨tLive, 0, by decide +kernel⟩⟩

theorem witness_RingEvents :
    (∃ (s : State) (val : Word), s.live = true ∧ s.linkServes = true ∧ s.memServed = true ∧ s.hif.perstLow = false ∧
        s.bit Reg.HIF_CMD_CFG 31 = true ∧ W.fld val 0 12 < ringSize (s.rd Reg.HIF_CMD_CFG)) ∧
    (∃ (s : State) (val : Word), s.live = true ∧ s.linkServes = true ∧ s.memServed = true ∧ s.hif.perstLow = false ∧
        (s.bit Reg.HIF_CMD_CFG 31 = false ∨ ringSize (s.rd Reg.HIF_CMD_CFG) ≤ W.fld val 0 12)) ∧
    (∃ (s : State) (val : Word), s.linkServes = true ∧ s.memServed = true ∧ s.pwr = pwrSTANDBY ∧ s.hif.perstLow = false) ∧
    (∃ (s : State) (val : Word), s.live = true ∧ s.linkServes = true ∧ s.memServed = true ∧ s.hif.perstLow = false ∧
        s.bit Reg.HIF_CPL_CFG 31 = true ∧ s.hif.cplHeld = [] ∧ (let n := ringSize (s.rd Reg.HIF_CPL_CFG); W.fld val 0 12 < n ∧
        (W.fld val 0 12 + n - s.fld Reg.HIF_CPL_IDX 0 12) % n ≤ (s.fld Reg.HIF_CPL_IDX 16 12 + n - s.fld Reg.HIF_CPL_IDX 0 12)
        % n)) ∧
    (∃ (s : State) (val : Word), s.live = true ∧ s.linkServes = true ∧ s.memServed = true ∧ s.hif.perstLow = false ∧
        s.bit Reg.HIF_EV_CFG 31 = true ∧ (let n := ringSize (s.rd Reg.HIF_EV_CFG); W.fld val 0 12 < n ∧
        (W.fld val 0 12 + n - s.fld Reg.HIF_EV_IDX 0 12) % n ≤ (s.fld Reg.HIF_EV_IDX 16 12 + n - s.fld Reg.HIF_EV_IDX 0 12) %
        n)) ∧
    (∃ (s : State) (k : Fin 8) (val : Word), s.live = true ∧ s.linkServes = true ∧ s.memServed = true ∧
        s.hif.perstLow = false ∧ s.bit (Reg.HIF_REC_CFG k.val) 31 = true ∧ s.bit (Reg.HIF_REC_IDX k.val) 30 = false ∧
        (let n := ringSize (s.rd (Reg.HIF_REC_CFG k.val)); W.fld val 0 12 < n ∧
        (s.bit (Reg.HIF_REC_IDX k.val) 31 = true ∨
        (W.fld val 0 12 + n - s.fld (Reg.HIF_REC_IDX k.val) 0 12) % n ≤ (s.fld (Reg.HIF_REC_IDX k.val) 16 12 + n - s.fld
        (Reg.HIF_REC_IDX k.val) 0 12) % n))) ∧
    (∃ (s : State) (k : Fin 8), s.linkServes = true ∧ s.memServed = true ∧ s.regServed .host (Reg.HIF_REC_IDX k.val) = true) ∧
    (∃ (s : State) (r : Fin 11) (val : Word), s.hostReg (ringCfgA r.val) = true ∧ s.bit (ringCfgA r.val) 31 = false ∧
        W.bit val 31 = true ∧ ringCfgOk r.val val = true ∧ s.hif.cplHeld = []) ∧
    (∃ (s : State) (r : Fin 11) (val : Word), s.hostReg (ringCfgA r.val) = true ∧ s.bit (ringCfgA r.val) 31 = false ∧
        W.bit val 31 = true ∧ ringCfgOk r.val val = false) ∧
    (∃ (s : State) (r : Fin 11) (val : Word), s.hostReg (ringCfgA r.val) = true ∧ s.bit (ringCfgA r.val) 31 = true ∧
        s.rd (ringCfgA r.val) &&& ringCfgMask r.val ≠ val &&& ringCfgMask r.val) ∧
    (∃ (s : State) (k : Fin 8) (val : Word), s.live = true ∧ s.hif.perstLow = false ∧
        s.bit (Reg.HIF_REC_POSTLEN k.val) 31 = false ∧ s.bit (Reg.HIF_REC_CFG k.val) 31 = true ∧
        s.fld (Reg.HIF_REC_CFG k.val) 8 4 = 8 ∧ W.fld val 0 10 ≠ 0 ∧ W.fld val 0 10 + 4 ≤ s.recSlotWords k.val) ∧
    (∃ (s : State) (k : Fin 8) (val : Word), s.live = true ∧ s.hif.perstLow = false ∧
        (s.bit (Reg.HIF_REC_POSTLEN k.val) 31 = true ∨ W.fld val 0 10 = 0 ∨ s.bit (Reg.HIF_REC_CFG k.val) 31 = false ∨
        s.recSlotWords k.val < W.fld val 0 10 + 4)) ∧
    (∃ (s : State) (v : Fin 10), s.live = true ∧ tget 0 s.hif.vcnt v.val ≠ 0 ∧ s.fld (Reg.HIF_VMOD v.val) 8 16 ≠ 0 ∧
        W.bit (s.cfgRd 0x1C) 31 = true ∧ W.bit (s.cfgRd 0x1C) 30 = false ∧ s.bit (Reg.HIF_MSIX_CTRL v.val) 0 = false ∧
        s.canIssue = true) ∧
    (∃ (s : State) (val : Word), s.live = true ∧ s.hif.perstLow = false ∧ W.bit (s.cfgRd 0x1C) 31 = true ∧
        W.bit (s.cfgRd 0x1C) 30 = true) :=
  ⟨⟨((fun (s : State) => (s.setBit Reg.HIF_LINKSTAT 0 true).cfgWr 1 0x00100006 |>.cfgWr 0x11 0 |> fun s =>
      (s.wr Reg.HIF_CMD_CFG 0x80000004).setFld Reg.SYS_BOOTSTAT 0 4 1) tLive), ((fun (val : Word) => val &&& 0xF) 3),
      by decide +kernel⟩,
   ⟨((fun (s : State) => (s.setBit Reg.HIF_LINKSTAT 0 true).cfgWr 1 0x00100006 |>.cfgWr 0x11 0 |> fun s =>
       (s).setFld Reg.SYS_BOOTSTAT 0 4 1) tLive), 0, by decide +kernel⟩,
   ⟨((fun (s : State) => (s.setBit Reg.HIF_LINKSTAT 0 true).cfgWr 1 0x00100006 |>.cfgWr 0x11 0 |> fun s =>
       ((s.setFld Reg.SYS_PWRSTATE 0 3 3)).setFld Reg.SYS_BOOTSTAT 0 4 1) tLive), 0, by decide +kernel⟩,
   ⟨((fun (s : State) => (s.setBit Reg.HIF_LINKSTAT 0 true).cfgWr 1 0x00100006 |>.cfgWr 0x11 0 |> fun s =>
       (({ s with hif := { s.hif with cplHeld := [] } }.wr Reg.HIF_CPL_CFG 0x80000004).setFld Reg.HIF_CPL_IDX 16 12 (s.fld
       Reg.HIF_CPL_IDX 16 4) |>.setFld Reg.HIF_CPL_IDX 0 12 (s.fld Reg.HIF_CPL_IDX 0 4)).setFld Reg.SYS_BOOTSTAT 0 4 1)
       tLive), ((fun (val : Word) => val &&& 0xF) 0), by decide +kernel⟩,
   ⟨((fun (s : State) => (s.setBit Reg.HIF_LINKSTAT 0 true).cfgWr 1 0x00100006 |>.cfgWr 0x11 0 |> fun s =>
       ((s.wr Reg.HIF_EV_CFG 0x80000004).setFld Reg.HIF_EV_IDX 16 12 (s.fld Reg.HIF_EV_IDX 16 4) |>.setFld Reg.HIF_EV_IDX 0 12
       (s.fld Reg.HIF_EV_IDX 0 4)).setFld Reg.SYS_BOOTSTAT 0 4 1) tLive), ((fun (val : Word) => val &&& 0xF) 0),
       by decide +kernel⟩,
   ⟨((fun (k : Fin 8) (s : State) => (s.setBit Reg.HIF_LINKSTAT 0 true).cfgWr 1 0x00100006 |>.cfgWr 0x11 0 |> fun s =>
       ((s.wr (Reg.HIF_REC_CFG k.val) 0x80000884).setFld (Reg.HIF_REC_IDX k.val) 16 12 (s.fld (Reg.HIF_REC_IDX k.val) 16 4)
       |>.setFld (Reg.HIF_REC_IDX k.val) 0 12 (s.fld (Reg.HIF_REC_IDX k.val) 0 4) |>.setBit (Reg.HIF_REC_IDX k.val) 30 false
       |>.setBit (Reg.HIF_REC_IDX k.val) 31 true).setFld Reg.SYS_BOOTSTAT 0 4 1) 0 tLive), 0,
       ((fun (val : Word) => val &&& 0xF) 1), by decide +kernel⟩,
   ⟨((fun (s : State) => (s.setBit Reg.HIF_LINKSTAT 0 true).cfgWr 1 0x00100006 |>.cfgWr 0x11 0 |>.setFld Reg.SYS_BOOTSTAT 0 4
       1) tLive), 0, by decide +kernel⟩,
   ⟨((fun (r : Fin 11) (s : State) => (s.setBit Reg.HIF_LINKSTAT 0 true).cfgWr 1 0x00100006 |>.cfgWr 0x11 0 |> fun s =>
       ({ s with hif := { s.hif with cplHeld := [], perstLow := false } }.setFld Reg.SYS_BOOTSTAT 0 4 1 |>.setBit (ringCfgA
       r.val) 31 false).setFld Reg.SYS_BOOTSTAT 0 4 1) 0 tLive), 0, 0x80000884, by decide +kernel⟩,
   ⟨tLive.setFld Reg.SYS_BOOTSTAT 0 4 1, 0, 0x80000000, by decide +kernel⟩,
   ⟨(tLive.setFld Reg.SYS_BOOTSTAT 0 4 1).wr (ringCfgA 0) 0x80000884, 0, 1, by decide +kernel⟩,
   ⟨((fun (k : Fin 8) (s : State) =>
       (s.wr (Reg.HIF_REC_CFG k.val) 0x80000884).setBit (Reg.HIF_REC_POSTLEN k.val) 31 false) 0 tLive), 0,
       ((fun (val : Word) => 8+val &&& 0x1F) 8), by decide +kernel⟩,
   ⟨tLive, 0, 0, by decide +kernel⟩,
   ⟨((fun (v : Fin 10) (s : State) =>
       { s with hif := { s.hif with vcnt := [(v.val, 3)] } }.wr (Reg.HIF_VMOD v.val) 0xFF00 |>.wr (Reg.HIF_MSIX_CTRL v.val) 0
       |>.cfgWr 0x1C 0x80000000) 0 tLive), 0, by decide +kernel⟩,
   ⟨((fun (s : State) => s.cfgWr 0x1C 0xC0000000) tLive), 0, by decide +kernel⟩⟩

theorem witness_CommandRing :
    (∃ (s : State), s.canIssue = true ∧ s.bit Reg.HIF_CMD_CFG 31 = true ∧ s.hif.fetch = .none ∧ s.hif.cmd = none ∧
        s.hif.cplHeld = [] ∧ s.bit Reg.HIF_STATUS 1 = false ∧ s.hif.fetchOff = false ∧ s.hif.needDb = false ∧
        s.cplRoom = true ∧ s.fld Reg.HIF_CMD_IDX 16 12 ≠ s.fld Reg.HIF_CMD_IDX 0 12) ∧
    (∃ (s : State) (i : Nat) (second : Bool) (ws : List Word), s.hif.fetch = .reading i second ∧
        knownOpcode (W.fld (ws.getD 0 0) 0 8) = true ∧ W.fld (ws.getD 0 0) 10 6 = 0) ∧
    (∃ (s : State) (i : Nat) (second : Bool) (ws : List Word), s.hif.fetch = .reading i second ∧
        (knownOpcode (W.fld (ws.getD 0 0) 0 8) = false ∨ W.fld (ws.getD 0 0) 10 6 ≠ 0)) ∧
    (∃ (s : State) (i : Nat), s.hif.fetch = .reading i false) ∧
    (∃ (s : State) (i : Nat), s.hif.fetch = .again i ∧ s.canIssue = true) ∧
    (∃ (s : State) (i : Nat), s.hif.fetch = .reading i true) ∧
    (∃ (s : State) (c : Cmd), s.live = true ∧ s.hif.cmd = some c ∧ c.started = true ∧ c.rdLen ≠ 0 ∧ c.rdOut = true ∧
        c.mute = false ∧ c.failedOnce = false) ∧
    (∃ (s : State) (c : Cmd), s.live = true ∧ s.hif.cmd = some c ∧ c.started = true ∧ c.rdLen ≠ 0 ∧ c.rdOut = true ∧
        c.mute = false ∧ c.failedOnce = true ∧ c.op ≠ 0x04) ∧
    (∃ (s : State) (c : Cmd), s.cmdNew 0x00 = some c) ∧
    (∃ (s : State) (c : Cmd), s.cmdNew 0x01 = some c ∧ s.cplRoom = true) ∧
    (∃ (s : State) (c : Cmd), s.cmdRun 0x01 = some c ∧ c.aux ≤ s.clk.tb.toNat) ∧
    (∃ (s : State) (c : Cmd), s.cmdNew 0x51 = some c) ∧
    (∃ (s : State) (e : Event), s.hif.evLost = 0 ∧ s.hif.evHold = [e] ∧ s.evRoom = true) ∧
    (∃ (s : State), s.evRoom = false) ∧
    (∃ (s : State) (k : Fin 8) (p : Post), tget none s.hif.posts k.val = some p ∧ s.recOpen k.val = true) ∧
    (∃ (s : State), s.hostReg Reg.HIF_HEARTBEAT = true ∧ s.hif.hbOut = true) ∧
    (∃ (s : State), s.hif.hbOut = false) ∧
    (∃ (s : State), s.live = true ∧ s.bit Reg.HIF_HBCFG 0 = true) ∧
    (∃ (s : State) (n : Fin 32), (s.ks n.val).hl = true ∧ (s.ks n.val).ramp = none ∧ s.slotOn n.val = true ∧
        s.midBlock n.val = false ∧ (s.ks n.val).penReq = none ∧ s.hif.cmd = none) ∧
    (∃ (s : State) (n : Fin 32), (s.ks n.val).hl = true ∧ (s.ks n.val).ramp ≠ none ∧ s.midBlock n.val = false) :=
  ⟨⟨((fun (s : State) => ({ s with hif := { s.hif with fetch := .none, cmd := none, cplHeld := [], fetchOff := false, needDb := false } }.wr
      Reg.HIF_CMD_CFG 0x80000004 |>.wr Reg.HIF_CPL_CFG 0x80000005 |>.wr Reg.HIF_CPL_IDX 0 |>.setBit Reg.HIF_STATUS 1 false
      |>.wr Reg.HIF_CMD_IDX 0x00050003 |>.setBit Reg.HIF_LINKSTAT 0 true |>.cfgWr 1 0x00100006 |>.cfgWr 0x11 0)) tLive),
      by decide +kernel⟩,
   ⟨((fun (i : Nat) (second : Bool) (s : State) => { s with hif := { s.hif with fetch := .reading i second } }) 0 true tLive),
       0, true, ((fun (ws : List Word) => (0x00010102 ||| (ws.headD 0 &&& 0xFFFF0300)) :: ws) [0]), by decide +kernel⟩,
   ⟨((fun (i : Nat) (second : Bool) (s : State) => { s with hif := { s.hif with fetch := .reading i second } }) 0 true tLive),
       0, true, ((fun (ws : List Word) => (0x0000007F + (ws.headD 0 &&& 0xFFFF0300)) :: ws) []), by decide +kernel⟩,
   ⟨((fun (i : Nat) (s : State) => { s with hif := { s.hif with fetch := .reading i false } }) 0 tLive), 0,
       by decide +kernel⟩,
   ⟨((fun (i : Nat) (s : State) =>
       { s with hif := { s.hif with fetch := .again i } } |>.setBit Reg.HIF_LINKSTAT 0 true |>.cfgWr 1 0x00100006 |>.cfgWr
       0x11 0) 0 tLive), 0, by decide +kernel⟩,
   ⟨((fun (i : Nat) (s : State) => { s with hif := { s.hif with fetch := .reading i true } }) 0 tLive), 0, by decide +kernel⟩,
   ⟨((fun (c : Cmd) (s : State) => s.withCmd c) ((fun (c : Cmd) =>
       { mkc c 0x10 [3] with started := true, rdLen := 5, rdCh := 5, rdGot := [], rdOut := true, mute := false, failedOnce := false })
       { words := [0], cidx := 0, d1 := 0 }) tLive),
       ((fun (c : Cmd) => { mkc c 0x10 [3] with started := true, rdLen := 5, rdCh := 5, rdGot := [], rdOut := true, mute := false, failedOnce := false })
       { words := [0], cidx := 0, d1 := 0 }), by decide +kernel⟩,
   ⟨((fun (c : Cmd) (s : State) => s.withCmd c) ((fun (c : Cmd) =>
       { mkc c 0x10 [3] with started := true, rdLen := 5, rdOut := true, mute := false, failedOnce := true })
       { words := [0], cidx := 0, d1 := 0 }) tLive),
       ((fun (c : Cmd) => { mkc c 0x10 [3] with started := true, rdLen := 5, rdOut := true, mute := false, failedOnce := true })
       { words := [0], cidx := 0, d1 := 0 }), by decide +kernel⟩,
   ⟨((fun (c : Cmd) (s : State) => s.withCmd c) ((fun (c : Cmd) => mkc c 0 []) { words := [0], cidx := 0, d1 := 0 }) tLive),
       ((fun (c : Cmd) => mkc c 0 []) { words := [0], cidx := 0, d1 := 0 }), by decide +kernel⟩,
   ⟨((fun (c : Cmd) (s : State) =>
       (s.withCmd c).wr Reg.HIF_CPL_CFG 0x80000005 |>.wr Reg.HIF_CPL_IDX 0 |>.setBit Reg.HIF_LINKSTAT 0 true |>.cfgWr 1
       0x00100006 |>.cfgWr 0x11 0) ((fun (c : Cmd) => mkc c 1 []) { words := [0], cidx := 0, d1 := 0 }) tLive),
       ((fun (c : Cmd) => mkc c 1 []) { words := [0], cidx := 0, d1 := 0 }), by decide +kernel⟩,
   ⟨((fun (c : Cmd) (s : State) => (s.withCmd c)) ((fun (c : Cmd) =>
       { mkc c 1 [] with started := true, aux := 0 }) { words := [0], cidx := 0, d1 := 0 }) tLive),
       ((fun (c : Cmd) => { mkc c 1 [] with started := true, aux := 0 }) { words := [0], cidx := 0, d1 := 0 }),
       by decide +kernel⟩,
   ⟨((fun (c : Cmd) (s : State) => s.withCmd c) ((fun (c : Cmd) =>
       mkc c 0x51 []) { words := [0], cidx := 0, d1 := 0 }) tLive),
       ((fun (c : Cmd) => mkc c 0x51 []) { words := [0], cidx := 0, d1 := 0 }), by decide +kernel⟩,
   ⟨((fun (e : Event) (s : State) =>
       { s with hif := { s.hif with evLost := 0, evHold := [e] } } |>.wr Reg.HIF_EV_CFG 0x80000005 |>.wr Reg.HIF_EV_IDX 0
       |>.setBit Reg.HIF_LINKSTAT 0 true |>.cfgWr 1 0x00100006 |>.cfgWr 0x11 0) default tLive), default, by decide +kernel⟩,
   ⟨((fun (s : State) => s.wr Reg.HIF_EV_CFG 0) tLive), by decide +kernel⟩,
   ⟨((fun (k : Fin 8) (p : Post) (s : State) =>
       { s with hif := { s.hif with posts := tset none s.hif.posts k.val (some p) } } |>.wr (Reg.HIF_REC_CFG k.val) 0x80000884
       |>.setBit Reg.HIF_LINKSTAT 0 true |>.cfgWr 1 0x00100006 |>.cfgWr 0x11 0) 0 ((fun (p : Post) =>
       { p with len := p.len % 40}) default) tLive), 0, ((fun (p : Post) => { p with len := p.len % 40}) default),
       by decide +kernel⟩,
   ⟨((fun (s : State) => (s.setBit Reg.HIF_LINKSTAT 0 true).cfgWr 1 0x00100006 |>.cfgWr 0x11 0 |> fun s =>
       { s with hif := { s.hif with hbOut := true, perstLow := false } }.setFld Reg.SYS_BOOTSTAT 0 4 1) tLive),
       by decide +kernel⟩,
   ⟨((fun (s : State) => { s with hif := { s.hif with hbOut := false } }) tLive), by decide +kernel⟩,
   ⟨((fun (s : State) => s.setBit Reg.HIF_HBCFG 0 true) tLive), by decide +kernel⟩,
   ⟨((fun (n : Fin 32) (s : State) =>
       ({ s with hif := { s.hif with cmd := none } }.setKs n.val
       { s.ks n.val with hl := true, ramp := none, run := none, penReq := none }).setFld (Reg.KLE_SSTAT n.val) 0 3 2) 0
       tLive), 0, by decide +kernel⟩,
   ⟨((fun (n : Fin 32) (s : State) =>
       s.setKs n.val { s.ks n.val with hl := true, ramp := some (1, 2), run := none }) 0 tLive), 0, by decide +kernel⟩⟩

theorem witness_DeviceCommands :
    (∃ (s : State) (c : Cmd), s.cmdNew 0x02 = some c ∧ c.arg 0 = 1 ∧ s.pwr = pwrTRIM ∧ s.bit Reg.SYS_PWRSTATE 8 = false) ∧
    (∃ (s : State) (c : Cmd), s.cmdNew 0x02 = some c ∧ (c.arg 0 &&& 0xFFFFFEF8 ≠ 0 ∨ W.fld (c.arg 0) 0 3 = 0)) ∧
    (∃ (s : State) (c : Cmd), s.cmdNew 0x02 = some c ∧ c.arg 0 = 3 ∧ s.bit Reg.SYS_PWRSTATE 8 = false ∧ s.quiet = false) ∧
    (∃ (s : State) (c : Cmd), s.cmdNew 0x02 = some c ∧ c.arg 0 = 3 ∧ s.bit Reg.SYS_PWRSTATE 8 = false ∧ s.quiet = true) ∧
    (∃ (s : State) (c : Cmd), s.cmdNew 0x03 = some c ∧ c.arg 0 = 0xA5C3 ∧ s.clk.lg.collapse = false) ∧
    (∃ (s : State) (c : Cmd), s.cmdNew 0x03 = some c ∧ c.arg 0 ≠ 0xA5C3) ∧
    (∃ (s : State) (c : Cmd), s.cmdNew 0x04 = some c ∧ W.fld (c.arg 0) 0 2 = 0 ∧ 64 ≤ (c.arg 2).toNat ∧
        (c.arg 2).toNat ≤ 0x800000 ∧ (c.arg 3 = 0 ∨ c.arg 3 = 0xF0CE) ∧ c.mute = false) ∧
    (∃ (s : State) (c : Cmd), s.cmdNew 0x04 = some c ∧
        (W.fld (c.arg 0) 0 2 ≠ 0 ∨ (c.arg 2).toNat < 64 ∨ 0x800000 < (c.arg 2).toNat ∨ (c.arg 3 ≠ 0 ∧ c.arg 3 ≠ 0xF0CE))) ∧
    (∃ (s : State) (c : Cmd), s.cmdNew 0x40 = some c ∧ c.arg 0 &&& 0xFFFFFFF0 = 0 ∧ c.arg 0 ≠ 0 ∧ s.gatedBit gADC = false) ∧
    (∃ (s : State) (c : Cmd), s.cmdNew 0x41 = some c ∧ c.arg 0 &&& 0xFFFFFFF8 = 0 ∧ c.arg 0 ≠ 0 ∧ s.outcome = boMAINT) ∧
    (∃ (s : State) (c : Cmd), s.cmdNew 0x41 = some c ∧ c.arg 0 &&& 0xFFFFFFF8 = 0 ∧ c.arg 0 ≠ 0 ∧ s.outcome ≠ boMAINT) ∧
    (∃ (s : State) (c : Cmd) (failed : BitVec 3) (addr : Word), s.live = true ∧ s.hif.cmd = some c ∧ c.op = 0x41 ∧
        s.hif.proof = 1) ∧
    (∃ (s : State) (c : Cmd), s.cmdNew 0x50 = some c ∧ c.arg 0 &&& 0xFFFFFFF0 = 0 ∧ (c.arg 1).toNat ≤ 9000 ∧
        s.fld (Reg.XLT_DMA_STATUS (c.arg 0).toNat) 0 2 ≠ 1 ∧
        s.ledger - s.fld (Reg.XLT_DMA_BOOK (c.arg 0).toNat) 0 14 + (c.arg 1).toNat ≤ 9000) ∧
    (∃ (s : State) (c : Cmd), s.cmdNew 0x50 = some c ∧ c.arg 0 &&& 0xFFFFFFF0 = 0 ∧ (c.arg 1).toNat ≤ 9000 ∧
        s.fld (Reg.XLT_DMA_STATUS (c.arg 0).toNat) 0 2 ≠ 1 ∧
        9000 < s.ledger - s.fld (Reg.XLT_DMA_BOOK (c.arg 0).toNat) 0 14 + (c.arg 1).toNat) :=
  ⟨⟨((fun (c : Cmd) (s : State) => (s.withCmd c).wr Reg.SYS_PWRSTATE 0x30042) ((fun (c : Cmd) =>
      mkc c 2 [1]) { words := [0], cidx := 0, d1 := 0 }) tLive),
      ((fun (c : Cmd) => mkc c 2 [1]) { words := [0], cidx := 0, d1 := 0 }), by decide +kernel⟩,
   ⟨((fun (c : Cmd) (s : State) => (s.withCmd c)) ((fun (c : Cmd) =>
       mkc c 2 [0x200]) { words := [0], cidx := 0, d1 := 0 }) tLive),
       ((fun (c : Cmd) => mkc c 2 [0x200]) { words := [0], cidx := 0, d1 := 0 }), by decide +kernel⟩,
   ⟨((fun (c : Cmd) (s : State) => (s.withCmd c).setBit Reg.SYS_PWRSTATE 8 false |>.wr Reg.KLE_ENABLED 1) ((fun (c : Cmd) =>
       mkc c 2 [3]) { words := [0], cidx := 0, d1 := 0 }) tLive),
       ((fun (c : Cmd) => mkc c 2 [3]) { words := [0], cidx := 0, d1 := 0 }), by decide +kernel⟩,
   ⟨((fun (c : Cmd) (s : State) =>
       ({ s with regs := s.regs.filter (fun e => e.1 != Reg.KLE_ENABLED && !(List.range 4).any (fun i => e.1 == Reg.MBM_LIST_STAT i) && !(List.range 16).any (fun i => e.1 == Reg.XLT_DMA_STATUS i)) }.withCmd
       c).setBit Reg.SYS_PWRSTATE 8 false) ((fun (c : Cmd) => mkc c 2 [3]) { words := [0], cidx := 0, d1 := 0 }) tLive),
       ((fun (c : Cmd) => mkc c 2 [3]) { words := [0], cidx := 0, d1 := 0 }), by decide +kernel⟩,
   ⟨((fun (c : Cmd) (s : State) => (s.withCmd c)) ((fun (c : Cmd) =>
       mkc c 3 [0xA5C3]) { words := [0], cidx := 0, d1 := 0 }) tLive),
       ((fun (c : Cmd) => mkc c 3 [0xA5C3]) { words := [0], cidx := 0, d1 := 0 }), by decide +kernel⟩,
   ⟨((fun (c : Cmd) (s : State) => (s.withCmd c)) ((fun (c : Cmd) =>
       mkc c 3 [0x1A5C3]) { words := [0], cidx := 0, d1 := 0 }) tLive),
       ((fun (c : Cmd) => mkc c 3 [0x1A5C3]) { words := [0], cidx := 0, d1 := 0 }), by decide +kernel⟩,
   ⟨((fun (c : Cmd) (s : State) => (s.withCmd c)) ((fun (c : Cmd) =>
       { mkc c 4 [0x1000, 5, 0x400, 0xF0CE] with mute := false }) { words := [0], cidx := 0, d1 := 0 }) tLive),
       ((fun (c : Cmd) => { mkc c 4 [0x1000, 5, 0x400, 0xF0CE] with mute := false }) { words := [0], cidx := 0, d1 := 0 }),
       by decide +kernel⟩,
   ⟨((fun (c : Cmd) (s : State) => (s.withCmd c)) ((fun (c : Cmd) => mkc c 4 [0x1001, 5, 0x400,
       0xF0CE]) { words := [0], cidx := 0, d1 := 0 }) tLive), ((fun (c : Cmd) => mkc c 4 [0x1001, 5, 0x400,
       0xF0CE]) { words := [0], cidx := 0, d1 := 0 }), by decide +kernel⟩,
   ⟨((fun (c : Cmd) (s : State) => (s.withCmd c)) ((fun (c : Cmd) =>
       mkc c 0x40 [5]) { words := [0], cidx := 0, d1 := 0 }) tLive),
       ((fun (c : Cmd) => mkc c 0x40 [5]) { words := [0], cidx := 0, d1 := 0 }), by decide +kernel⟩,
   ⟨((fun (c : Cmd) (s : State) => (s.withCmd c).setFld Reg.SYS_BOOTSTAT 0 4 6) ((fun (c : Cmd) =>
       mkc c 0x41 [5]) { words := [0], cidx := 0, d1 := 0 }) tLive),
       ((fun (c : Cmd) => mkc c 0x41 [5]) { words := [0], cidx := 0, d1 := 0 }), by decide +kernel⟩,
   ⟨((fun (c : Cmd) (s : State) => (s.withCmd c).setFld Reg.SYS_BOOTSTAT 0 4 1) ((fun (c : Cmd) =>
       mkc c 0x41 [5]) { words := [0], cidx := 0, d1 := 0 }) tLive),
       ((fun (c : Cmd) => mkc c 0x41 [5]) { words := [0], cidx := 0, d1 := 0 }), by decide +kernel⟩,
   ⟨((fun (c : Cmd) (s : State) => { (s.withCmd c) with hif := { (s.withCmd c).hif with proof := 1 } }) ((fun (c : Cmd) =>
       { mkc c 0x41 [1] with started := true }) { words := [0], cidx := 0, d1 := 0 }) tLive),
       ((fun (c : Cmd) => { mkc c 0x41 [1] with started := true }) { words := [0], cidx := 0, d1 := 0 }), 0, 0,
       by decide +kernel⟩,
   ⟨((fun (c : Cmd) (s : State) => (s.withCmd c).wr Reg.XLT_LEDGER 500 |>.wr (Reg.XLT_DMA_BOOK 3) 40) ((fun (c : Cmd) =>
       mkc c 0x50 [3, 100]) { words := [0], cidx := 0, d1 := 0 }) tLive), ((fun (c : Cmd) => mkc c 0x50 [3,
       100]) { words := [0], cidx := 0, d1 := 0 }), by decide +kernel⟩,
   ⟨((fun (c : Cmd) (s : State) => (s.withCmd c).wr Reg.XLT_LEDGER 8950 |>.wr (Reg.XLT_DMA_BOOK 3) 40) ((fun (c : Cmd) =>
       mkc c 0x50 [3, 100]) { words := [0], cidx := 0, d1 := 0 }) tLive), ((fun (c : Cmd) => mkc c 0x50 [3,
       100]) { words := [0], cidx := 0, d1 := 0 }), by decide +kernel⟩⟩

theorem witness_SlotCommands :
    (∃ (s : State) (c : Cmd), s.cmdNew 0x10 = some c ∧ c.arg 0 &&& 0xFFFFFFE0 = 0 ∧ W.fld (c.arg 1) 0 2 = 0 ∧
        0 < (c.arg 3).toNat ∧ (c.arg 3).toNat ≤ 1024 ∧ c.mute = false) ∧
    (∃ (s : State) (c : Cmd), s.cmdNew 0x10 = some c ∧
        (c.arg 0 &&& 0xFFFFFFE0 ≠ 0 ∨ W.fld (c.arg 1) 0 2 ≠ 0 ∨ (c.arg 3).toNat = 0 ∨ 1024 < (c.arg 3).toNat)) ∧
    (∃ (s : State) (c : Cmd), s.cmdNew 0x11 = some c ∧ c.arg 0 &&& 0x7F80C0E0 = 0 ∧ W.fld (c.arg 1) 0 2 = 0 ∧
        0 < W.fld (c.arg 0) 16 7 ∧ W.fld (c.arg 0) 8 6 + W.fld (c.arg 0) 16 7 ≤ 64 ∧ c.mute = false) ∧
    (∃ (s : State) (c : Cmd) (w : Word), s.live = true ∧ s.hif.cmd = some c ∧ c.op = 0x11 ∧ c.started = true ∧ c.rdLen = 1 ∧
        c.rdCh = 1 ∧ c.rdGot = [] ∧ c.rdOut = true ∧ c.mute = false ∧ W.bit (c.arg 0) 31 = false) ∧
    (∃ (s : State) (c : Cmd), s.cmdRun 0x11 = some c ∧ c.stage = 2) ∧
    (∃ (s : State) (c : Cmd) (n : Fin 32), s.cmdNew 0x12 = some c ∧ c.arg 0 = BitVec.ofNat 32 n.val ∧
        s.bit Reg.KLE_VALID n.val = true ∧ s.bit (Reg.KLE_SINFO n.val) 23 = true) ∧
    (∃ (s : State) (c : Cmd) (n : Fin 32), s.cmdNew 0x12 = some c ∧ c.arg 0 = BitVec.ofNat 32 n.val ∧
        (s.bit Reg.KLE_VALID n.val = false ∨ s.bit (Reg.KLE_SINFO n.val) 23 = false)) ∧
    (∃ (s : State) (c : Cmd) (n : Fin 32), s.cmdNew 0x13 = some c ∧ c.arg 0 = BitVec.ofNat 32 (0x100 + n.val) ∧
        s.bit Reg.KLE_VALID n.val = true ∧ s.gatedBit gKLE = false ∧ s.sst n.val = stDISABLED) ∧
    (∃ (s : State) (c : Cmd) (n : Fin 32), s.cmdNew 0x13 = some c ∧ c.arg 0 = BitVec.ofNat 32 n.val ∧ s.slotOn n.val = true ∧
        (s.ks n.val).injCmd = false ∧ (∀ r, (s.ks n.val).run = some r → r.injCmd = false)) ∧
    (∃ (s : State) (c : Cmd) (n : Fin 32), s.cmdNew 0x14 = some c ∧ c.arg 0 = BitVec.ofNat 32 n.val ∧
        s.sst n.val ≠ stRUNNING ∧ s.midBlock n.val = false ∧ s.runs gKLE = true ∧ s.sst n.val ≠ stPENNED ∧
        (s.ks n.val).penReq = none ∧ (s.ks n.val).injCmd = false ∧ (∀ r, (s.ks n.val).run = some r → r.injCmd = false)) ∧
    (∃ (s : State) (c : Cmd) (n : Fin 32), s.cmdNew 0x14 = some c ∧ c.arg 0 = BitVec.ofNat 32 n.val ∧
        (s.sst n.val = stRUNNING ∨ s.midBlock n.val = true ∨ s.runs gKLE = false)) ∧
    (∃ (s : State) (c : Cmd) (n : Fin 32) (w : Fin 64) (p : Fin 2), s.cmdNew 0x15 = some c ∧
        c.arg 0 = BitVec.ofNat 32 (n.val + 2 ^ 8 * (2 + p.val) + 2 ^ 16 * w.val) ∧ c.arg 1 ≠ 0 ∧
        s.bit Reg.KLE_VALID n.val = true ∧ 1 ≤ s.sst n.val ∧ s.sst n.val ≠ stPENNED ∧ 2 + p.val ≤ s.slotPasses n.val) ∧
    (∃ (s : State) (c : Cmd), s.cmdRun 0x15 = some c ∧ (s.ks (W.fld (c.arg 0) 0 5)).injCmd = true ∧
        s.bit (Reg.KLE_INJCTL (W.fld (c.arg 0) 0 5)) 31 = true) :=
  ⟨⟨((fun (c : Cmd) (s : State) => (s.withCmd c)) ((fun (c : Cmd) =>
      { mkc c 0x10 [7, 0x2000, 1, 40] with mute := false }) { words := [0], cidx := 0, d1 := 0 }) tLive),
      ((fun (c : Cmd) => { mkc c 0x10 [7, 0x2000, 1, 40] with mute := false }) { words := [0], cidx := 0, d1 := 0 }),
      by decide +kernel⟩,
   ⟨((fun (c : Cmd) (s : State) => (s.withCmd c)) ((fun (c : Cmd) => mkc c 0x10 [7, 0x2000, 1,
       0]) { words := [0], cidx := 0, d1 := 0 }) tLive), ((fun (c : Cmd) => mkc c 0x10 [7, 0x2000, 1,
       0]) { words := [0], cidx := 0, d1 := 0 }), by decide +kernel⟩,
   ⟨((fun (c : Cmd) (s : State) => (s.withCmd c)) ((fun (c : Cmd) =>
       { mkc c 0x11 [0x80030203, 0x2000, 1] with mute := false }) { words := [0], cidx := 0, d1 := 0 }) tLive),
       ((fun (c : Cmd) => { mkc c 0x11 [0x80030203, 0x2000, 1] with mute := false }) { words := [0], cidx := 0, d1 := 0 }),
       by decide +kernel⟩,
   ⟨((fun (c : Cmd) (s : State) => (s.withCmd c)) ((fun (c : Cmd) =>
       { mkc c 0x11 [0x00010203, 0x2000, 1] with started := true, rdLen := 1, rdCh := 1, rdGot := [], rdOut := true, mute := false })
       { words := [0], cidx := 0, d1 := 0 }) tLive),
       ((fun (c : Cmd) => { mkc c 0x11 [0x00010203, 0x2000, 1] with started := true, rdLen := 1, rdCh := 1, rdGot := [], rdOut := true, mute := false })
       { words := [0], cidx := 0, d1 := 0 }), 0, by decide +kernel⟩,
   ⟨((fun (c : Cmd) (s : State) => (s.withCmd c)) ((fun (c : Cmd) =>
       { mkc c 0x11 [0x00010203, 0x2000, 1] with started := true, stage := 2 }) { words := [0], cidx := 0, d1 := 0 }) tLive),
       ((fun (c : Cmd) => { mkc c 0x11 [0x00010203, 0x2000, 1] with started := true, stage := 2 })
       { words := [0], cidx := 0, d1 := 0 }), by decide +kernel⟩,
   ⟨((fun (c : Cmd) (n : Fin 32) (s : State) =>
       (s.withCmd c).setBit Reg.KLE_VALID n.val true |>.setBit (Reg.KLE_SINFO n.val) 23 true) ((fun (c : Cmd) (n : Fin 32) =>
       mkc c 0x12 [BitVec.ofNat 32 n.val, 77]) { words := [0], cidx := 0, d1 := 0 } 0) 0 tLive),
       ((fun (c : Cmd) (n : Fin 32) => mkc c 0x12 [BitVec.ofNat 32 n.val, 77]) { words := [0], cidx := 0, d1 := 0 } 0), 0,
       by decide +kernel⟩,
   ⟨((fun (c : Cmd) (n : Fin 32) (s : State) =>
       (s.withCmd c).setBit Reg.KLE_VALID n.val false) ((fun (c : Cmd) (n : Fin 32) => mkc c 0x12 [BitVec.ofNat 32 n.val,
       77]) { words := [0], cidx := 0, d1 := 0 } 0) 0 tLive),
       ((fun (c : Cmd) (n : Fin 32) => mkc c 0x12 [BitVec.ofNat 32 n.val, 77]) { words := [0], cidx := 0, d1 := 0 } 0), 0,
       by decide +kernel⟩,
   ⟨((fun (c : Cmd) (n : Fin 32) (s : State) =>
       (s.withCmd c).setBit Reg.KLE_VALID n.val true |>.setFld (Reg.KLE_SSTAT n.val) 0 3 0) ((fun (c : Cmd) (n : Fin 32) =>
       mkc c 0x13 [BitVec.ofNat 32 (256+n.val), 77]) { words := [0], cidx := 0, d1 := 0 } 0) 0 tLive),
       ((fun (c : Cmd) (n : Fin 32) => mkc c 0x13 [BitVec.ofNat 32 (256+n.val), 77]) { words := [0], cidx := 0, d1 := 0 } 0),
       0, by decide +kernel⟩,
   ⟨((fun (c : Cmd) (n : Fin 32) (s : State) => (s.withCmd c).setFld (Reg.KLE_SSTAT n.val) 0 3 1 |> fun s =>
       s.setKs n.val { s.ks n.val with injCmd := false, run := (s.ks n.val).run.map (fun r => { r with injCmd := false }) })
       ((fun (c : Cmd) (n : Fin 32) => mkc c 0x13 [BitVec.ofNat 32 (n.val),
       77]) { words := [0], cidx := 0, d1 := 0 } 0) 0 tLive),
       ((fun (c : Cmd) (n : Fin 32) => mkc c 0x13 [BitVec.ofNat 32 (n.val), 77]) { words := [0], cidx := 0, d1 := 0 } 0), 0,
       by decide +kernel⟩,
   ⟨((fun (c : Cmd) (n : Fin 32) (s : State) => (s.withCmd c).setFld (Reg.KLE_SSTAT n.val) 0 3 2 |> fun s =>
       s.setKs n.val { s.ks n.val with injCmd := false, run := none, penReq := none }) ((fun (c : Cmd) (n : Fin 32) =>
       mkc c 0x14 [BitVec.ofNat 32 (n.val), 77]) { words := [0], cidx := 0, d1 := 0 } 0) 0 tLive),
       ((fun (c : Cmd) (n : Fin 32) => mkc c 0x14 [BitVec.ofNat 32 (n.val), 77]) { words := [0], cidx := 0, d1 := 0 } 0), 0,
       by decide +kernel⟩,
   ⟨((fun (c : Cmd) (n : Fin 32) (s : State) =>
       (s.withCmd c).setFld (Reg.KLE_SSTAT n.val) 0 3 3) ((fun (c : Cmd) (n : Fin 32) => mkc c 0x14 [BitVec.ofNat 32 (n.val),
       77]) { words := [0], cidx := 0, d1 := 0 } 0) 0 tLive),
       ((fun (c : Cmd) (n : Fin 32) => mkc c 0x14 [BitVec.ofNat 32 (n.val), 77]) { words := [0], cidx := 0, d1 := 0 } 0), 0,
       by decide +kernel⟩,
   ⟨((fun (c : Cmd) (n : Fin 32) (s : State) =>
       (s.withCmd c).setFld (Reg.KLE_SSTAT n.val) 0 3 2 |>.setFld (Reg.KLE_SINFO n.val) 12 2 3 |>.setBit Reg.KLE_VALID n.val
       true) ((fun (c : Cmd) (n : Fin 32) (w : Fin 64) (p : Fin 2) =>
       mkc c 0x15 [BitVec.ofNat 32 (n.val + 2 ^ 8 * (2 + p.val) + 2 ^ 16 * w.val),
       77]) { words := [0], cidx := 0, d1 := 0 } 0 0 0) 0 tLive),
       ((fun (c : Cmd) (n : Fin 32) (w : Fin 64) (p : Fin 2) =>
       mkc c 0x15 [BitVec.ofNat 32 (n.val + 2 ^ 8 * (2 + p.val) + 2 ^ 16 * w.val),
       77]) { words := [0], cidx := 0, d1 := 0 } 0 0 0), 0, 0, 0, by decide +kernel⟩,
   ⟨((fun (c : Cmd) (s : State) =>
       ((s.withCmd c).setBit (Reg.KLE_INJCTL 5) 31 true).setKs 5 { s.ks 5 with injCmd := true }) ((fun (c : Cmd) =>
       { mkc c 0x15 [5, 77] with started := true }) { words := [0], cidx := 0, d1 := 0 }) tLive),
       ((fun (c : Cmd) => { mkc c 0x15 [5, 77] with started := true }) { words := [0], cidx := 0, d1 := 0 }),
       by decide +kernel⟩⟩

theorem witness_ObjectCommands :
    (∃ (s : State) (c : Cmd), s.cmdNew 0x20 = some c ∧ c.arg 0 &&& 0xFFFFFFFC = 0 ∧ W.fld (c.arg 1) 0 2 = 0 ∧
        0 < (c.arg 3).toNat ∧ (c.arg 3).toNat ≤ 256 ∧ c.mute = false ∧
        s.entsElsewhere (c.arg 0).toNat + (c.arg 3).toNat ≤ 512) ∧
    (∃ (s : State) (c : Cmd), s.cmdNew 0x20 = some c ∧ ((c.arg 3).toNat = 0 ∨ 256 < (c.arg 3).toNat)) ∧
    (∃ (s : State) (c : Cmd) (l : Fin 4) (ws : List Word), s.cmdRun 0x20 = some c ∧ c.mute = false ∧ c.rdOut = true ∧
        c.arg 0 = BitVec.ofNat 32 l.val ∧ 0 < (c.arg 3).toNat ∧ (c.arg 3).toNat ≤ 256 ∧ c.rdLen = 4 * (c.arg 3).toNat ∧
        ws.length = c.rdCh ∧ c.rdGot.length + ws.length = c.rdLen ∧ s.entFault (c.rdGot ++ ws) 0 = none ∧
        s.listActive l.val = false) ∧
    (∃ (s : State) (c : Cmd) (l : Fin 4) (k : Fin 8) (none' : Bool) (period : Fin 10000001), s.cmdNew 0x21 = some c ∧
        c.arg 0 = BitVec.ofNat 32 (l.val + 2 ^ 8 * k.val + if none' then 2 ^ 15 else 0) ∧
        c.arg 1 = BitVec.ofNat 32 period.val ∧ (period.val = 0 ∨ 100 ≤ period.val) ∧
        (none' = true ∨ s.ringServes k.val l.val = true) ∧ s.foldOk l.val = true ∧ s.listTarget l.val = false ∧
        s.listLoaded l.val = true ∧ s.listActive l.val = false ∧ s.gatedBit gMBM = false ∧
        s.ledger + s.listBooking l.val period.val ≤ 9000) ∧
    (∃ (s : State) (c : Cmd) (l : Fin 4), s.cmdNew 0x22 = some c ∧ c.arg 0 = BitVec.ofNat 32 (l.val + 2 ^ 8) ∧
        s.listLoaded l.val = true ∧ s.listActive l.val = true) ∧
    (∃ (s : State) (c : Cmd) (l : Fin 4), s.cmdNew 0x22 = some c ∧ c.arg 0 = BitVec.ofNat 32 l.val ∧
        s.listLoaded l.val = true ∧ s.listActive l.val = true ∧ s.listRunning l.val = false ∧
        s.mbm.copies.any (fun x => x.list == l.val) = false) ∧
    (∃ (s : State) (c : Cmd) (l : Fin 4), s.cmdNew 0x22 = some c ∧ c.arg 0 = BitVec.ofNat 32 l.val ∧
        s.listLoaded l.val = true ∧ s.listActive l.val = true ∧
        (s.listRunning l.val = true ∨ s.mbm.copies.any (fun x => x.list == l.val) = true)) ∧
    (∃ (s : State) (c : Cmd) (l : Fin 4), (s.cmdNew 0x22 = some c ∨ s.cmdNew 0x23 = some c) ∧
        c.arg 0 = BitVec.ofNat 32 l.val ∧ s.listLoaded l.val = false) ∧
    (∃ (s : State) (c : Cmd) (l : Fin 4), s.cmdRun 0x22 = some c ∧ W.fld (c.arg 0) 0 5 = l.val) ∧
    (∃ (s : State) (c : Cmd) (l : Fin 4), s.cmdNew 0x23 = some c ∧ c.arg 0 = BitVec.ofNat 32 l.val ∧
        s.listLoaded l.val = true ∧ s.listActive l.val = true ∧ s.listRunning l.val = false) ∧
    (∃ (s : State) (c : Cmd) (l : Fin 4), s.cmdNew 0x23 = some c ∧ c.arg 0 = BitVec.ofNat 32 l.val ∧
        s.listLoaded l.val = true ∧ s.listActive l.val = true ∧ s.listRunning l.val = true) ∧
    (∃ (s : State) (c : Cmd), (s.cmdNew 0x30 = some c ∨ s.cmdNew 0x31 = some c)) ∧
    (∃ (s : State) (c : Cmd) (n : Fin 32), s.cmdNew 0x30 = some c ∧ c.arg 0 = BitVec.ofNat 32 (2 ^ 8 * n.val) ∧
        s.sst n.val = stPENNED) ∧
    (∃ (s : State) (c : Cmd) (n : Fin 32), s.cmdNew 0x31 = some c ∧ c.arg 0 = BitVec.ofNat 32 (2 ^ 8 * n.val) ∧
        s.sst n.val ≠ stPENNED ∧ (s.ks n.val).injCmd = false ∧ (∀ r, (s.ks n.val).run = some r → r.injCmd = false)) ∧
    (∃ (s : State) (c : Cmd) (p : Fin 0x28), (s.cmdNew 0x30 = some c ∨ s.cmdNew 0x31 = some c) ∧ isPort p.val = true ∧
        c.arg 0 = BitVec.ofNat 32 (1 + 2 ^ 8 * p.val)) ∧
    (∃ (s : State) (c : Cmd) (l : Fin 4) (e : Fin 256), (s.cmdNew 0x30 = some c ∨ s.cmdNew 0x31 = some c) ∧
        c.arg 0 = BitVec.ofNat 32 (2 + 2 ^ 8 * l.val) ∧ c.arg 1 = BitVec.ofNat 32 e.val ∧ s.listLoaded l.val = true ∧
        e.val < s.nent l.val) ∧
    (∃ (s : State) (c : Cmd) (n : Fin 8), (s.cmdNew 0x30 = some c ∨ s.cmdNew 0x31 = some c) ∧
        c.arg 0 = BitVec.ofNat 32 (3 + 2 ^ 8 * n.val)) ∧
    (∃ (s : State) (c : Cmd) (p : Fin 0x28), s.cmdNew 0x32 = some c ∧ c.arg 0 = BitVec.ofNat 32 (2 ^ 8 * p.val) ∧
        isPort p.val = true) ∧
    (∃ (s : State) (c : Cmd), s.cmdNew 0x32 = some c ∧ (isPort (W.fld (c.arg 0) 8 8) = false ∨ c.arg 0 &&& 0xFFFF00FF ≠ 0)) ∧
    (∃ (s : State) (c : Cmd) (p : Fin 0x28) (failed : Word), s.cmdRun 0x32 = some c ∧ isPort p.val = true ∧
        W.fld (c.arg 0) 8 8 = p.val ∧ s.use p.val = .proof ∧ s.runs (portGate p.val) = true) ∧
    (∃ (s : State) (c : Cmd) (p : Fin 0x28), s.cmdRun 0x32 = some c ∧ isPort p.val = true ∧ W.fld (c.arg 0) 8 8 = p.val ∧
        s.use p.val = .proof) :=
  ⟨⟨((fun (c : Cmd) (s : State) => (s.withCmd c).wr (Reg.MBM_LIST_STAT 0) 0 |>.wr (Reg.MBM_LIST_STAT 1) 0) ((fun (c : Cmd) =>
      { mkc c 0x20 [2, 0x4000, 5, 3] with mute := false }) { words := [0], cidx := 0, d1 := 0 }) tLive),
      ((fun (c : Cmd) => { mkc c 0x20 [2, 0x4000, 5, 3] with mute := false }) { words := [0], cidx := 0, d1 := 0 }),
      by decide +kernel⟩,
   ⟨((fun (c : Cmd) (s : State) => (s.withCmd c)) ((fun (c : Cmd) => mkc c 0x20 [2, 0x4000, 5,
       257]) { words := [0], cidx := 0, d1 := 0 }) tLive), ((fun (c : Cmd) => mkc c 0x20 [2, 0x4000, 5,
       257]) { words := [0], cidx := 0, d1 := 0 }), by decide +kernel⟩,
   ⟨((fun (c : Cmd) (l : Fin 4) (s : State) =>
       (s.withCmd c).setBit (Reg.MBM_LIST_STAT l.val) 1 false) ((fun (c : Cmd) (l : Fin 4) =>
       { mkc c 0x20 [BitVec.ofNat 32 l.val, 0x4000, 5, 2] with started := true, mute := false, rdOut := true, rdGot := [0x40000100, 0x00000010, 0, 0], rdCh := 4, rdLen := 8 })
       { words := [0], cidx := 0, d1 := 0 } 0) 0 tLive),
       ((fun (c : Cmd) (l : Fin 4) =>
       { mkc c 0x20 [BitVec.ofNat 32 l.val, 0x4000, 5, 2] with started := true, mute := false, rdOut := true, rdGot := [0x40000100, 0x00000010, 0, 0], rdCh := 4, rdLen := 8 })
       { words := [0], cidx := 0, d1 := 0 } 0), 0, ([0x40000100, 0x00000010, 0, 0]), by decide +kernel⟩,
   ⟨((fun (c : Cmd) (l : Fin 4) (k : Fin 8) (s : State) =>
       (s.withCmd c).wr (Reg.MBM_LIST_STAT l.val) 1 |>.wr (Reg.MBM_LIST_FOLD l.val) (0x10000 * BitVec.ofNat 32 l.val) |>.wr
       (Reg.MBM_LIST_STAT 0) 1 |>.wr (Reg.MBM_LIST_STAT 1) 1 |>.wr (Reg.MBM_LIST_STAT 2) 1 |>.wr (Reg.MBM_LIST_STAT 3) 1 |>.wr
       Reg.XLT_LEDGER 17 |>.wr (Reg.HIF_REC_CFG k.val) (0x80000084 + 256 * BitVec.ofNat 32 (l.val + 1))) ((fun (c : Cmd) (l :
       Fin 4) (k : Fin 8) (none' : Bool) (period : Fin 10000001) =>
       mkc c 0x21 [BitVec.ofNat 32 (l.val + 2 ^ 8 * k.val + if none' then 2 ^ 15 else 0),
       BitVec.ofNat 32 period.val]) { words := [0], cidx := 0, d1 := 0 } 0 0 true 0) 0 0 tLive),
       ((fun (c : Cmd) (l : Fin 4) (k : Fin 8) (none' : Bool) (period : Fin 10000001) =>
       mkc c 0x21 [BitVec.ofNat 32 (l.val + 2 ^ 8 * k.val + if none' then 2 ^ 15 else 0),
       BitVec.ofNat 32 period.val]) { words := [0], cidx := 0, d1 := 0 } 0 0 true 0), 0, 0, true, 0, by decide +kernel⟩,
   ⟨((fun (c : Cmd) (l : Fin 4) (s : State) =>
       (s.withCmd c).wr (Reg.MBM_LIST_STAT l.val) (3 + 4 * BitVec.ofNat 32 (s.free % 2) + 65536 * BitVec.ofNat 32 (s.free %
       4))) ((fun (c : Cmd) (l : Fin 4) =>
       mkc c 0x22 [BitVec.ofNat 32 (l.val + 2 ^ 8)]) { words := [0], cidx := 0, d1 := 0 } 0) 0 tLive),
       ((fun (c : Cmd) (l : Fin 4) => mkc c 0x22 [BitVec.ofNat 32 (l.val + 2 ^ 8)]) { words := [0], cidx := 0, d1 := 0 } 0),
       0, by decide +kernel⟩,
   ⟨((fun (c : Cmd) (l : Fin 4) (s : State) =>
       { (s.withCmd c) with mbm := { s.mbm with copies := [] } }.wr (Reg.MBM_LIST_STAT l.val) 3) ((fun (c : Cmd) (l : Fin 4)
       => mkc c 0x22 [BitVec.ofNat 32 (l.val)]) { words := [0], cidx := 0, d1 := 0 } 0) 0 tLive),
       ((fun (c : Cmd) (l : Fin 4) => mkc c 0x22 [BitVec.ofNat 32 (l.val)]) { words := [0], cidx := 0, d1 := 0 } 0), 0,
       by decide +kernel⟩,
   ⟨((fun (c : Cmd) (l : Fin 4) (s : State) => (s.withCmd c).wr (Reg.MBM_LIST_STAT l.val) 7) ((fun (c : Cmd) (l : Fin 4) =>
       mkc c 0x22 [BitVec.ofNat 32 (l.val)]) { words := [0], cidx := 0, d1 := 0 } 0) 0 tLive),
       ((fun (c : Cmd) (l : Fin 4) => mkc c 0x22 [BitVec.ofNat 32 (l.val)]) { words := [0], cidx := 0, d1 := 0 } 0), 0,
       by decide +kernel⟩,
   ⟨((fun (c : Cmd) (l : Fin 4) (s : State) => (s.withCmd c).wr (Reg.MBM_LIST_STAT l.val) 0) ((fun (c : Cmd) (l : Fin 4) =>
       mkc c 0x22 [BitVec.ofNat 32 (l.val)]) { words := [0], cidx := 0, d1 := 0 } 0) 0 tLive),
       ((fun (c : Cmd) (l : Fin 4) => mkc c 0x22 [BitVec.ofNat 32 (l.val)]) { words := [0], cidx := 0, d1 := 0 } 0), 0,
       by decide +kernel⟩,
   ⟨((fun (c : Cmd) (l : Fin 4) (s : State) =>
       (s.withCmd c).wr (Reg.MBM_LIST_STAT l.val) (3 + 4 * BitVec.ofNat 32 (s.free % 2) + 65536 * BitVec.ofNat 32 (s.free %
       4))) ((fun (c : Cmd) (l : Fin 4) =>
       {mkc c 0x22 [BitVec.ofNat 32 (l.val)] with started := true}) { words := [0], cidx := 0, d1 := 0 } 0) 0 tLive),
       ((fun (c : Cmd) (l : Fin 4) =>
       {mkc c 0x22 [BitVec.ofNat 32 (l.val)] with started := true}) { words := [0], cidx := 0, d1 := 0 } 0), 0,
       by decide +kernel⟩,
   ⟨((fun (c : Cmd) (l : Fin 4) (s : State) =>
       (s.withCmd c).wr (Reg.MBM_LIST_STAT l.val) (3 + 65536 * BitVec.ofNat 32 (s.free % 4))) ((fun (c : Cmd) (l : Fin 4) =>
       mkc c 0x23 [BitVec.ofNat 32 (l.val)]) { words := [0], cidx := 0, d1 := 0 } 0) 0 tLive),
       ((fun (c : Cmd) (l : Fin 4) => mkc c 0x23 [BitVec.ofNat 32 (l.val)]) { words := [0], cidx := 0, d1 := 0 } 0), 0,
       by decide +kernel⟩,
   ⟨((fun (c : Cmd) (l : Fin 4) (s : State) => (s.withCmd c).wr (Reg.MBM_LIST_STAT l.val) 7) ((fun (c : Cmd) (l : Fin 4) =>
       mkc c 0x23 [BitVec.ofNat 32 (l.val)]) { words := [0], cidx := 0, d1 := 0 } 0) 0 tLive),
       ((fun (c : Cmd) (l : Fin 4) => mkc c 0x23 [BitVec.ofNat 32 (l.val)]) { words := [0], cidx := 0, d1 := 0 } 0), 0,
       by decide +kernel⟩,
   ⟨((fun (c : Cmd) (s : State) => (s.withCmd c)) ((fun (c : Cmd) =>
       mkc c (0x30 + c.cidx % 2) [BitVec.ofNat 32 (2 + 2 ^ 8 * 3),
       BitVec.ofNat 32 (c.cidx % 4)]) { words := [0], cidx := 0, d1 := 0 }) tLive),
       ((fun (c : Cmd) => mkc c (0x30 + c.cidx % 2) [BitVec.ofNat 32 (2 + 2 ^ 8 * 3),
       BitVec.ofNat 32 (c.cidx % 4)]) { words := [0], cidx := 0, d1 := 0 }), by decide +kernel⟩,
   ⟨((fun (c : Cmd) (n : Fin 32) (s : State) =>
       (s.withCmd c).setFld (Reg.KLE_SSTAT n.val) 0 3 4) ((fun (c : Cmd) (n : Fin 32) =>
       mkc c 0x30 [BitVec.ofNat 32 (2 ^ 8 * n.val)]) { words := [0], cidx := 0, d1 := 0 } 0) 0 tLive),
       ((fun (c : Cmd) (n : Fin 32) => mkc c 0x30 [BitVec.ofNat 32 (2 ^ 8 * n.val)]) { words := [0], cidx := 0, d1 := 0 } 0),
       0, by decide +kernel⟩,
   ⟨((fun (c : Cmd) (n : Fin 32) (s : State) =>
       ((s.withCmd c).setFld (Reg.KLE_SSTAT n.val) 0 3 2).setKs n.val
       { s.ks n.val with injCmd := false, run := (s.ks n.val).run.map (fun r => { r with injCmd := false }) }) ((fun (c : Cmd)
       (n : Fin 32) => mkc c 0x31 [BitVec.ofNat 32 (2 ^ 8 * n.val)]) { words := [0], cidx := 0, d1 := 0 } 0) 0 tLive),
       ((fun (c : Cmd) (n : Fin 32) => mkc c 0x31 [BitVec.ofNat 32 (2 ^ 8 * n.val)]) { words := [0], cidx := 0, d1 := 0 } 0),
       0, by decide +kernel⟩,
   ⟨((fun (c : Cmd) (p : Fin 0x28) (s : State) =>
       (s.withCmd c).setReason p.val (7 * (1 - s.free % 2))) ((fun (c : Cmd) (p : Fin 0x28) (s : State) =>
       mkc c (0x30 + s.free % 2) [BitVec.ofNat 32 (1 + 2 ^ 8 * p.val)]) { words := [0], cidx := 0, d1 := 0 } ((fun (p : Fin
       0x28) => Fin.ofNat 0x28 (p.val % 8 + 16 * (p.val % 3))) 0) tLive) ((fun (p : Fin 0x28) =>
       Fin.ofNat 0x28 (p.val % 8 + 16 * (p.val % 3))) 0) tLive),
       ((fun (c : Cmd) (p : Fin 0x28) (s : State) =>
       mkc c (0x30 + s.free % 2) [BitVec.ofNat 32 (1 + 2 ^ 8 * p.val)]) { words := [0], cidx := 0, d1 := 0 } ((fun (p : Fin
       0x28) => Fin.ofNat 0x28 (p.val % 8 + 16 * (p.val % 3))) 0) tLive),
       ((fun (p : Fin 0x28) => Fin.ofNat 0x28 (p.val % 8 + 16 * (p.val % 3))) 0), by decide +kernel⟩,
   ⟨((fun (c : Cmd) (l : Fin 4) (e : Fin 256) (s : State) =>
       ((s.withCmd c).wr (Reg.MBM_LIST_STAT l.val) (1 + 65536 * 256 + 6 * BitVec.ofNat 32 (s.free % 2))).setBit
       (Reg.MBM_ENTSTAT l.val e.val) 12 (e.val % 2 = 0)) ((fun (c : Cmd) (l : Fin 4) (e : Fin 256) =>
       mkc c (0x30 + e.val % 2) [BitVec.ofNat 32 (2 + 2 ^ 8 * l.val),
       BitVec.ofNat 32 e.val]) { words := [0], cidx := 0, d1 := 0 } 0 0) 0 0 tLive),
       ((fun (c : Cmd) (l : Fin 4) (e : Fin 256) => mkc c (0x30 + e.val % 2) [BitVec.ofNat 32 (2 + 2 ^ 8 * l.val),
       BitVec.ofNat 32 e.val]) { words := [0], cidx := 0, d1 := 0 } 0 0), 0, 0, by decide +kernel⟩,
   ⟨((fun (c : Cmd) (n : Fin 8) (s : State) =>
       (s.withCmd c).setFld (Reg.PPW_STAT n.val) 0 4 (if s.free % 2 = 0 then ppPENNED else 2)) ((fun (c : Cmd) (n : Fin 8) (s
       : State) => mkc c (0x30 + s.free % 2) [BitVec.ofNat 32 (3 + 2 ^ 8 * n.val)]) { words := [0], cidx := 0, d1 := 0 } 0
       tLive) 0 tLive), ((fun (c : Cmd) (n : Fin 8) (s : State) =>
       mkc c (0x30 + s.free % 2) [BitVec.ofNat 32 (3 + 2 ^ 8 * n.val)]) { words := [0], cidx := 0, d1 := 0 } 0 tLive), 0,
       by decide +kernel⟩,
   ⟨((fun (c : Cmd) (p : Fin 0x28) (s : State) =>
       if s.free % 3 = 0 then ((s.withCmd c).setUse p.val .none).setReason p.val 3 else if s.free % 3 = 1 then ((s.withCmd
       c).setUse p.val (.ident (s.free % 8))).setReason p.val 3 else (s.withCmd c)) ((fun (c : Cmd) (p : Fin 0x28) =>
       mkc c 0x32 [BitVec.ofNat 32 (2 ^ 8 * p.val)]) { words := [0], cidx := 0, d1 := 0 } ((fun (p : Fin 0x28) =>
       Fin.ofNat 0x28 (p.val % 8 + 16 * (p.val % 3))) 0)) ((fun (p : Fin 0x28) =>
       Fin.ofNat 0x28 (p.val % 8 + 16 * (p.val % 3))) 0) tLive),
       ((fun (c : Cmd) (p : Fin 0x28) =>
       mkc c 0x32 [BitVec.ofNat 32 (2 ^ 8 * p.val)]) { words := [0], cidx := 0, d1 := 0 } ((fun (p : Fin 0x28) =>
       Fin.ofNat 0x28 (p.val % 8 + 16 * (p.val % 3))) 0)),
       ((fun (p : Fin 0x28) => Fin.ofNat 0x28 (p.val % 8 + 16 * (p.val % 3))) 0), by decide +kernel⟩,
   ⟨((fun (c : Cmd) (s : State) => (s.withCmd c)) ((fun (c : Cmd) =>
       mkc c 0x32 [0x3000]) { words := [0], cidx := 0, d1 := 0 }) tLive),
       ((fun (c : Cmd) => mkc c 0x32 [0x3000]) { words := [0], cidx := 0, d1 := 0 }), by decide +kernel⟩,
   ⟨((fun (c : Cmd) (p : Fin 0x28) (s : State) =>
       { ((s.withCmd c).setUse p.val .proof) with regs := s.regs.filter (fun e => e.1 / 0x10000 != 0x1002) }) ((fun (c : Cmd)
       (p : Fin 0x28) => {mkc c 0x32 [BitVec.ofNat 32 (2 ^ 8 * p.val)] with started := true})
       { words := [0], cidx := 0, d1 := 0 } ((fun (p : Fin 0x28) =>
       Fin.ofNat 0x28 (p.val % 8 + 16 * (p.val % 3))) 0)) ((fun (p : Fin 0x28) =>
       Fin.ofNat 0x28 (p.val % 8 + 16 * (p.val % 3))) 0) tLive),
       ((fun (c : Cmd) (p : Fin 0x28) =>
       {mkc c 0x32 [BitVec.ofNat 32 (2 ^ 8 * p.val)] with started := true}) { words := [0], cidx := 0, d1 := 0 } ((fun (p :
       Fin 0x28) => Fin.ofNat 0x28 (p.val % 8 + 16 * (p.val % 3))) 0)),
       ((fun (p : Fin 0x28) => Fin.ofNat 0x28 (p.val % 8 + 16 * (p.val % 3))) 0), 0, by decide +kernel⟩,
   ⟨((fun (c : Cmd) (p : Fin 0x28) (s : State) =>
       { ((s.withCmd c).setUse p.val .proof) with regs := s.regs.filter (fun e => e.1 / 0x10000 != 0x1002) }) ((fun (c : Cmd)
       (p : Fin 0x28) => {mkc c 0x32 [BitVec.ofNat 32 (2 ^ 8 * p.val)] with started := true})
       { words := [0], cidx := 0, d1 := 0 } ((fun (p : Fin 0x28) =>
       Fin.ofNat 0x28 (p.val % 8 + 16 * (p.val % 3))) 0)) ((fun (p : Fin 0x28) =>
       Fin.ofNat 0x28 (p.val % 8 + 16 * (p.val % 3))) 0) tLive),
       ((fun (c : Cmd) (p : Fin 0x28) =>
       {mkc c 0x32 [BitVec.ofNat 32 (2 ^ 8 * p.val)] with started := true}) { words := [0], cidx := 0, d1 := 0 } ((fun (p :
       Fin 0x28) => Fin.ofNat 0x28 (p.val % 8 + 16 * (p.val % 3))) 0)),
       ((fun (p : Fin 0x28) => Fin.ofNat 0x28 (p.val % 8 + 16 * (p.val % 3))) 0), by decide +kernel⟩⟩

theorem witness_TsuvoStack :
    (∃ (s : State) (n : Fin 4), s.issues n.val false = true) ∧
    (∃ (s : State) (n : Fin 4) (v : BitVec 14), s.issues n.val true = true ∧ (s.core n.val).dstk.length < 8) ∧
    (∃ (s : State) (n : Fin 4) (a : Half) (r : List Half), s.issues n.val false = true ∧ (s.core n.val).dstk = a :: r ∧
        r.length ≤ 6) ∧
    (∃ (s : State) (n : Fin 4) (a : Half) (b : Half) (r : List Half), s.issues n.val false = true ∧
        (s.core n.val).dstk = b :: a :: r ∧ r.length ≤ 4) ∧
    (∃ (s : State) (n : Fin 4) (a : Half) (b : Half) (c : Half) (r : List Half), s.issues n.val false = true ∧
        (s.core n.val).dstk = c :: b :: a :: r ∧ r.length ≤ 5) ∧
    (∃ (s : State) (n : Fin 4) (i : Fin 7) (r : List Half), s.issues n.val false = true ∧
        (s.core n.val).dstk = BitVec.ofNat 16 i.val :: r ∧ i.val < r.length) ∧
    (∃ (s : State) (n : Fin 4) (a : Half) (r : List Half), s.issues n.val false = true ∧ (s.core n.val).dstk = a :: r ∧
        r.length < 8 ∧ (s.core n.val).rstk.length < 16) ∧
    (∃ (s : State) (n : Fin 4) (e : BitVec 24) (q : List (BitVec 24)), s.issues n.val false = true ∧
        (s.core n.val).rstk = e :: q ∧ (s.core n.val).dstk.length < 8) ∧
    (∃ (s : State) (n : Fin 4) (a : Half) (r : List Half), s.issues n.val false = true ∧ (s.core n.val).dstk = a :: r ∧
        r.length = 7 ∧ (s.core n.val).wbuf = [] ∧ 8 + (s.core n.val).dslim.toNat ≤ (s.core n.val).dsp.toNat ∧
        (s.core n.val).ten = false ∧ (s.core n.val).sbr = BitVec.ofNat 8 (0x40 + n.val) ∧ (s.core n.val).dsp.toNat ≤ 0x4000 ∧
        (s.core n.val).dsp.toNat % 2 = 0) ∧
    (∃ (s : State) (n : Fin 4), s.issues n.val false = true ∧ (s.core n.val).dstk = [] ∧ (s.core n.val).wbuf = [] ∧
        (s.core n.val).dsp.toNat + 8 ≤ (s.core n.val).dstop.toNat ∧ (s.core n.val).ten = false ∧
        (s.core n.val).sbr = BitVec.ofNat 8 (0x40 + n.val) ∧ (s.core n.val).dstop.toNat ≤ 0x4000 ∧
        (s.core n.val).dsp.toNat % 2 = 0) :=
  ⟨⟨((fun (n : Fin 4) (s : State) => s.rdy n.val (s.core n.val).dstk []) 0 tLive), 0, by decide +kernel⟩,
   ⟨((fun (n : Fin 4) (s : State) => s.rdy n.val [] []) 0 tLive), 0, 0, by decide +kernel⟩,
   ⟨((fun (n : Fin 4) (a : Half) (r : List Half) (s : State) => s.rdy n.val (a :: r) []) 0 0 ((fun (r : List Half) =>
       r.take 6) []) tLive), 0, 0, ((fun (r : List Half) => r.take 6) []), by decide +kernel⟩,
   ⟨((fun (n : Fin 4) (a : Half) (b : Half) (r : List Half) (s : State) =>
       s.rdy n.val (b :: a :: r) [7]) 0 0 0 ((fun (r : List Half) => r.take 4) []) tLive), 0, 0, 0,
       ((fun (r : List Half) => r.take 4) []), by decide +kernel⟩,
   ⟨((fun (n : Fin 4) (a : Half) (b : Half) (c : Half) (r : List Half) (s : State) =>
       s.rdy n.val (c :: b :: a :: r) [7]) 0 0 0 0 ((fun (r : List Half) => r.take 5) []) tLive), 0, 0, 0, 0,
       ((fun (r : List Half) => r.take 5) []), by decide +kernel⟩,
   ⟨((fun (n : Fin 4) (i : Fin 7) (r : List Half) (s : State) =>
       s.rdy n.val (BitVec.ofNat 16 i.val :: r) [7]) 0 0 ((fun (r : List Half) =>
       (r ++ [1,2,3,4,5,6,7]).take 7) [1,2,3,4,5,6,7]) tLive), 0, 0,
       ((fun (r : List Half) => (r ++ [1,2,3,4,5,6,7]).take 7) [1,2,3,4,5,6,7]), by decide +kernel⟩,
   ⟨((fun (n : Fin 4) (a : Half) (r : List Half) (s : State) => s.rdy n.val (a :: r) [7]) 0 0 ((fun (r : List Half) =>
       r.take 7) []) tLive), 0, 0, ((fun (r : List Half) => r.take 7) []), by decide +kernel⟩,
   ⟨((fun (n : Fin 4) (e : BitVec 24) (q : List (BitVec 24)) (s : State) =>
       s.rdy n.val [1,2,3] (e :: q)) 0 0 ((fun (q : List (BitVec 24)) => q.take 15) []) tLive), 0, 0,
       ((fun (q : List (BitVec 24)) => q.take 15) []), by decide +kernel⟩,
   ⟨((fun (n : Fin 4) (a : Half) (r : List Half) (s : State) => (fun (s : State) =>
       s.setCore n.val { s.core n.val with dsp := 0x1000, dslim := 0x80, sbr := BitVec.ofNat 8 (0x40 + n.val) }) (s.rdy n.val
       (a :: r) [7])) 0 0 ((fun (r : List Half) => (r ++ [1,2,3,4,5,6,7]).take 7) [1,2,3,4,5,6,7]) tLive), 0, 0,
       ((fun (r : List Half) => (r ++ [1,2,3,4,5,6,7]).take 7) [1,2,3,4,5,6,7]), by decide +kernel⟩,
   ⟨((fun (n : Fin 4) (s : State) => (fun (s : State) =>
       (s.setCore n.val { s.core n.val with dsp := 0x0, dstop := 0x80, sbr := BitVec.ofNat 8 (0x40 + n.val) }).wrWords
       (scratchBase n.val) [0x12345678, 0xABCDEF01]) (s.rdy n.val [] [7])) 0 tLive), 0, by decide +kernel⟩⟩

theorem witness_TsuvoArithmetic :
    (∃ (s : State) (n : Fin 4) (a : Half) (b : Half) (r : List Half), s.issues n.val false = true ∧
        (s.core n.val).dstk = b :: a :: r ∧ r.length ≤ 6) ∧
    (∃ (s : State) (n : Fin 4) (a : Half) (r : List Half), s.issues n.val false = true ∧ (s.core n.val).dstk = a :: r ∧
        r.length ≤ 7) :=
  ⟨⟨((fun (n : Fin 4) (a : Half) (b : Half) (r : List Half) (s : State) =>
      s.rdy n.val (b :: a :: r) []) 0 0 0 ((fun (r : List Half) => r.take 6) []) tLive), 0, 0, 0,
      ((fun (r : List Half) => r.take 6) []), by decide +kernel⟩,
   ⟨((fun (n : Fin 4) (a : Half) (r : List Half) (s : State) => s.rdy n.val (a :: r) []) 0 0 ((fun (r : List Half) =>
       r.take 7) []) tLive), 0, 0, ((fun (r : List Half) => r.take 7) []), by decide +kernel⟩⟩

theorem witness_TsuvoLogic :
    (∃ (s : State) (n : Fin 4) (a : Half) (b : Half) (r : List Half), s.issues n.val false = true ∧
        (s.core n.val).dstk = b :: a :: r ∧ r.length ≤ 6) ∧
    (∃ (s : State) (n : Fin 4) (a : Half) (b : Half) (c : Half) (r : List Half), s.issues n.val false = true ∧
        (s.core n.val).dstk = c :: b :: a :: r ∧ r.length ≤ 5) :=
  ⟨⟨((fun (n : Fin 4) (a : Half) (b : Half) (r : List Half) (s : State) =>
      s.rdy n.val (b :: a :: r) []) 0 0 0 ((fun (r : List Half) => r.take 6) []) tLive), 0, 0, 0,
      ((fun (r : List Half) => r.take 6) []), by decide +kernel⟩,
   ⟨((fun (n : Fin 4) (a : Half) (b : Half) (c : Half) (r : List Half) (s : State) =>
       s.rdy n.val (c :: b :: a :: r) []) 0 0 0 0 ((fun (r : List Half) => r.take 5) []) tLive), 0, 0, 0, 0,
       ((fun (r : List Half) => r.take 5) []), by decide +kernel⟩⟩

theorem witness_TsuvoUnits :
    (∃ (s : State) (n : Fin 4) (a : Half) (b : Half) (r : List Half), s.issues n.val false = true ∧
        (s.core n.val).dstk = b :: a :: r ∧ r.length ≤ 6) ∧
    (∃ (s : State) (n : Fin 4) (a : Half) (b : Half) (r : List Half), s.issues n.val false = true ∧
        (s.core n.val).dstk = b :: a :: r ∧ r.length ≤ 6) ∧
    (∃ (s : State) (n : Fin 4) (a : Half) (b : Half) (r : List Half), s.issues n.val false = true ∧
        (s.core n.val).dstk = b :: a :: r ∧ r.length ≤ 6 ∧ b ≠ 0 ∧ ¬(a = 0x8000 ∧ b = 0xFFFF)) ∧
    (∃ (s : State) (n : Fin 4) (a : Half) (b : Half) (r : List Half), s.issues n.val false = true ∧
        (s.core n.val).dstk = b :: a :: r ∧ r.length ≤ 6 ∧ b = 0) ∧
    (∃ (s : State) (n : Fin 4) (r : List Half), s.issues n.val false = true ∧ (s.core n.val).dstk = 0xFFFF :: 0x8000 :: r ∧
        r.length ≤ 6) ∧
    (∃ (s : State) (n : Fin 4) (lo : Half) (hi : Half) (d : Half) (r : List Half), s.issues n.val false = true ∧
        (s.core n.val).dstk = d :: hi :: lo :: r ∧ r.length ≤ 5 ∧ d ≠ 0 ∧ -32768 ≤ (hi ++ lo).toInt.tdiv d.toInt ∧
        (hi ++ lo).toInt.tdiv d.toInt ≤ 32767) ∧
    (∃ (s : State) (n : Fin 4) (lo : Half) (hi : Half) (d : Half) (r : List Half), s.issues n.val false = true ∧
        (s.core n.val).dstk = d :: hi :: lo :: r ∧ r.length ≤ 5 ∧ d ≠ 0 ∧
        ((hi ++ lo).toInt.tdiv d.toInt < -32768 ∨ 32767 < (hi ++ lo).toInt.tdiv d.toInt)) ∧
    (∃ (s : State) (n : Fin 4) (lo : Half) (hi : Half) (d : Half) (r : List Half), s.issues n.val false = true ∧
        (s.core n.val).dstk = d :: hi :: lo :: r ∧ r.length ≤ 5 ∧ d = 0) ∧
    (∃ (s : State) (n : Fin 4), s.issues n.val false = true ∧ (s.core n.val).dstk.length < 8) ∧
    (∃ (s : State) (n : Fin 4), s.issues n.val false = true ∧ (s.core n.val).dstk.length ≤ 8) ∧
    (∃ (s : State) (n : Fin 4) (a : Half) (r : List Half) (v : Int), s.issues n.val false = true ∧
        (s.core n.val).dstk = a :: r ∧ r.length ≤ 7 ∧
        v = (if min a.toNat 39 = 0 then (s.core n.val).ma.toInt else ((s.core n.val).ma.toInt + 2 ^ (min a.toNat 39 - 1)) / 2
        ^ (min a.toNat 39))) ∧
    (∃ (s : State) (n : Fin 4) (k : Nat) (p : Word) (q : List (Nat × MulOp)), s.live = true ∧
        (s.core n.val).mulq = (k, .product p) :: q ∧ q.all (fun e => decide (1 < e.1)) = true) ∧
    (∃ (s : State) (n : Fin 4) (k : Nat) (v : BitVec 40) (w : Bool) (q : List (Nat × MulOp)), s.live = true ∧
        (s.core n.val).mulq = (k, .ma v w) :: q ∧ q.all (fun e => decide (1 < e.1)) = true) ∧
    (∃ (s : State) (n : Fin 4) (k : Nat) (q : Half) (m : Half), s.live = true ∧ (s.core n.val).div = some (k, q, m)) :=
  ⟨⟨((fun (n : Fin 4) (a : Half) (b : Half) (r : List Half) (s : State) =>
      s.rdy n.val (b :: a :: r) []) 0 0 0 ((fun (r : List Half) => r.take 6) []) tLive), 0, 0, 0,
      ((fun (r : List Half) => r.take 6) []), by decide +kernel⟩,
   ⟨((fun (n : Fin 4) (a : Half) (b : Half) (r : List Half) (s : State) =>
       s.rdy n.val (b :: a :: r) []) 0 0 0 ((fun (r : List Half) => r.take 6) []) tLive), 0, 0, 0,
       ((fun (r : List Half) => r.take 6) []), by decide +kernel⟩,
   ⟨((fun (n : Fin 4) (a : Half) (b : Half) (r : List Half) (s : State) =>
       s.rdy n.val (b :: a :: r) []) 0 0 7 ((fun (r : List Half) => r.take 6) []) tLive), 0, 0, 7,
       ((fun (r : List Half) => r.take 6) []), by decide +kernel⟩,
   ⟨((fun (n : Fin 4) (a : Half) (b : Half) (r : List Half) (s : State) =>
       s.rdy n.val (b :: a :: r) []) 0 0 0 ((fun (r : List Half) => r.take 6) []) tLive), 0, 0, 0,
       ((fun (r : List Half) => r.take 6) []), by decide +kernel⟩,
   ⟨((fun (n : Fin 4) (r : List Half) (s : State) => s.rdy n.val (0xFFFF :: 0x8000 :: r) []) 0 ((fun (r : List Half) =>
       r.take 6) []) tLive), 0, ((fun (r : List Half) => r.take 6) []), by decide +kernel⟩,
   ⟨((fun (n : Fin 4) (lo : Half) (hi : Half) (d : Half) (r : List Half) (s : State) =>
       s.rdy n.val (d :: hi :: lo :: r) []) 0 1000 ((fun (hi : Half) => (hi &&& 3)) 0) ((fun (d : Half) =>
       (if d = 0 then 1 else d)) 7) ((fun (r : List Half) => r.take 5) []) tLive), 0, 1000,
       ((fun (hi : Half) => (hi &&& 3)) 0), ((fun (d : Half) => (if d = 0 then 1 else d)) 7),
       ((fun (r : List Half) => r.take 5) []), by decide +kernel⟩,
   ⟨((fun (n : Fin 4) (lo : Half) (hi : Half) (d : Half) (r : List Half) (s : State) =>
       s.rdy n.val (d :: hi :: lo :: r) []) 0 0 0x1000 ((fun (d : Half) =>
       (if d = 0 then 1 else d)) 7) ((fun (r : List Half) => r.take 5) []) tLive), 0, 0, 0x1000,
       ((fun (d : Half) => (if d = 0 then 1 else d)) 7), ((fun (r : List Half) => r.take 5) []), by decide +kernel⟩,
   ⟨((fun (n : Fin 4) (lo : Half) (hi : Half) (d : Half) (r : List Half) (s : State) =>
       s.rdy n.val (d :: hi :: lo :: r) []) 0 0 0 0 ((fun (r : List Half) => r.take 5) []) tLive), 0, 0, 0, 0,
       ((fun (r : List Half) => r.take 5) []), by decide +kernel⟩,
   ⟨((fun (n : Fin 4) (s : State) => s.rdy n.val [1, 2] []) 0 tLive), 0, by decide +kernel⟩,
   ⟨((fun (n : Fin 4) (s : State) => s.rdy n.val [1, 2] []) 0 tLive), 0, by decide +kernel⟩,
   ⟨((fun (n : Fin 4) (a : Half) (r : List Half) (s : State) => s.rdy n.val (a :: r) []) 0 4 ((fun (r : List Half) =>
       r.take 7) []) tLive), 0, 4, ((fun (r : List Half) => r.take 7) []),
       ((fun (n : Fin 4) (a : Half) (s : State) =>
       (if min a.toNat 39 = 0 then (s.core n.val).ma.toInt else ((s.core n.val).ma.toInt + 2 ^ (min a.toNat 39 - 1)) / 2 ^
       (min a.toNat 39))) 0 4 tLive), by decide +kernel⟩,
   ⟨((fun (n : Fin 4) (k : Nat) (p : Word) (q : List (Nat × MulOp)) (s : State) =>
       s.setCore n.val { s.core n.val with mulq := (k % 3, .product p) :: q.map (fun e => (e.1 + 2, e.2)) }) 0 ((fun (k : Nat)
       => k % 3) 0) 0 ((fun (q : List (Nat × MulOp)) => q.map (fun e => (e.1 + 2, e.2))) []) tLive), 0,
       ((fun (k : Nat) => k % 3) 0), 0, ((fun (q : List (Nat × MulOp)) => q.map (fun e => (e.1 + 2, e.2))) []),
       by decide +kernel⟩,
   ⟨((fun (n : Fin 4) (k : Nat) (v : BitVec 40) (w : Bool) (q : List (Nat × MulOp)) (s : State) =>
       s.setCore n.val { s.core n.val with mulq := (k % 3, .ma v w) :: q.map (fun e => (e.1 + 2, e.2)) }) 0 ((fun (k : Nat) =>
       k % 3) 0) 0 true ((fun (q : List (Nat × MulOp)) => q.map (fun e => (e.1 + 2, e.2))) []) tLive), 0,
       ((fun (k : Nat) => k % 3) 0), 0, true, ((fun (q : List (Nat × MulOp)) => q.map (fun e => (e.1 + 2, e.2))) []),
       by decide +kernel⟩,
   ⟨((fun (n : Fin 4) (k : Nat) (q : Half) (m : Half) (s : State) =>
       s.setCore n.val { s.core n.val with div := some (k % 3, q, m) }) 0 ((fun (k : Nat) => k % 3) 0) 0 0 tLive), 0,
       ((fun (k : Nat) => k % 3) 0), 0, 0, by decide +kernel⟩⟩

theorem witness_TsuvoMemory :
    (∃ (s : State) (n : Fin 4) (a : Half) (r : List Half) (pa : Nat) (dev : BusRead), s.issues n.val false = true ∧
        (s.core n.val).dstk = a :: r ∧ r.length ≤ 7 ∧ (s.core n.val).wbuf = [] ∧ s.noWatch n.val = true ∧
        s.scratchAt n.val (s.nearVa n.val a) .read = some pa) ∧
    (∃ (s : State) (n : Fin 4) (a : Half) (bank : Half) (r : List Half) (pa : Nat) (dev : BusRead),
        s.issues n.val false = true ∧ (s.core n.val).dstk = bank :: a :: r ∧ r.length ≤ 6 ∧ (s.core n.val).wbuf = [] ∧
        s.noWatch n.val = true ∧ s.scratchAt n.val (farVa a bank) .read = some pa) ∧
    (∃ (s : State) (n : Fin 4) (a : Half) (r : List Half) (x : Xl) (dev : BusRead), s.issues n.val false = true ∧
        (s.core n.val).dstk = a :: r ∧ r.length ≤ 7 ∧ (s.core n.val).wbuf = [] ∧ s.noWatch n.val = true ∧
        s.xlHit n.val (s.nearVa n.val a) .read = some x ∧ x.cached = true ∧ (s.line n.val (x.pa / 32)).st ≠ .i ∧
        (s.line n.val (x.pa / 32)).bad = 0 ∧ a.toNat % 2 = 0) ∧
    (∃ (s : State) (n : Fin 4) (v : Half) (a : Half) (r : List Half) (x : Xl), s.issues n.val false = true ∧
        (s.core n.val).dstk = a :: v :: r ∧ r.length ≤ 6 ∧ (s.core n.val).wbuf.length < 4 ∧ s.noWatch n.val = true ∧
        s.xlHit n.val (s.nearVa n.val a) .write = some x) ∧
    (∃ (s : State) (n : Fin 4) (lo : Half) (hi : Half) (a : Half) (r : List Half) (x : Xl), s.issues n.val false = true ∧
        (s.core n.val).dstk = a :: hi :: lo :: r ∧ r.length ≤ 5 ∧ (s.core n.val).wbuf.length < 4 ∧ s.noWatch n.val = true ∧
        s.xlHit n.val (s.nearVa n.val a) .write = some x ∧ a.toNat % 4 = 0) ∧
    (∃ (s : State) (n : Fin 4) (lo : Half) (hi : Half) (a : Half) (bank : Half) (r : List Half) (x : Xl),
        s.issues n.val false = true ∧ (s.core n.val).dstk = bank :: a :: hi :: lo :: r ∧ r.length ≤ 4 ∧
        (s.core n.val).wbuf.length < 4 ∧ s.noWatch n.val = true ∧ s.xlHit n.val (farVa a bank) .write = some x) ∧
    (∃ (s : State) (n : Fin 4) (v : Half) (a : Half) (r : List Half) (pa : Nat) (dev : BusRead), s.issues n.val false = true ∧
        (s.core n.val).dstk = a :: v :: r ∧ r.length ≤ 6 ∧ (s.core n.val).wbuf = [] ∧ s.noWatch n.val = true ∧
        s.scratchAt n.val (s.nearVa n.val a) .read = some pa ∧ s.scratchAt n.val (s.nearVa n.val a) .write = some pa ∧
        a.toNat % 2 = 0 ∧ pa % 2 = 0) ∧
    (∃ (s : State) (n : Fin 4) (w : Half) (v : Half) (a : Half) (r : List Half) (x : Xl), s.issues n.val false = true ∧
        (s.core n.val).dstk = a :: v :: w :: r ∧ r.length ≤ 5 ∧ (s.core n.val).wbuf = [] ∧ s.noWatch n.val = true ∧
        s.coh.credits = [] ∧ s.xlHit n.val (s.nearVa n.val a) .write = some x ∧ regionOf x.pa = some .sram ∧
        s.eccAt x.pa = 0 ∧ (∀ k : Fin 4, (s.line k.val (x.pa / 32)).st ≠ .m) ∧ a.toNat % 2 = 0 ∧ x.pa % 2 = 0) ∧
    (∃ (s : State) (n : Fin 4) (a : Half) (r : List Half) (dev : BusRead), s.issues n.val false = true ∧
        (s.core n.val).dstk = a :: r ∧ r.length ≤ 7 ∧ (s.core n.val).rstk.length ≤ 14 ∧ a.toNat % 2 = 1) ∧
    (∃ (s : State) (n : Fin 4), s.issues n.val false = true ∧ s.pushesDone n.val = true ∧ (s.core n.val).wbuf = []) ∧
    (∃ (s : State) (n : Fin 4), s.issues n.val false = true ∧ (s.core n.val).wbuf = [] ∧ s.pushesDone n.val = false) ∧
    (∃ (s : State) (n : Fin 4) (va : Nat) (pa : Nat) (m : Nat) (v : Half), s.issues n.val false = true ∧
        s.pushesDone n.val = true ∧ (s.core n.val).wbuf = [.store ⟨va, pa, halfBytes v, false⟩] ∧
        regionOf pa = some (.scratch m)) ∧
    (∃ (s : State) (n : Fin 4) (va : Nat) (pa : Nat) (m : Nat) (v : Half) (q : List WbufEnt), s.live = true ∧
        (s.core n.val).wbuf = .store ⟨va, pa, halfBytes v, false⟩ :: q ∧ regionOf pa = some (.scratch m)) ∧
    (∃ (s : State) (n : Fin 4) (va : Nat) (pa : Nat) (v : Half) (q : List WbufEnt), s.live = true ∧
        (s.core n.val).wbuf = .store ⟨va, pa, halfBytes v, true⟩ :: q ∧
        ((s.line n.val (pa / 32)).st = .e ∨ (s.line n.val (pa / 32)).st = .m) ∧ (s.line n.val (pa / 32)).bad = 0) ∧
    (∃ (s : State) (n : Fin 4) (va : Nat) (pa : Nat) (v : Half) (q : List WbufEnt), s.live = true ∧
        (s.core n.val).wbuf = .store ⟨va, pa, halfBytes v, false⟩ :: q ∧ regionOf pa = none ∧ (s.core n.val).wbe = none ∧
        (s.rd (Reg.ICU_WBETALLY n.val)).toNat < 65535) :=
  ⟨⟨((fun (n : Fin 4) (a : Half) (r : List Half) (s : State) => (fun (s : State) =>
      (s.setCore n.val { s.core n.val with dbr := BitVec.ofNat 8 (0x40 + n.val) }).wrWord (0x04000000 + 0x10000 * n.val +
      a.toNat) 0x89ABCDEF) (s.rdy n.val (a :: r) [] |>.wr (Reg.DBG_CORE_WP_ADDR n.val 0) 0)) 0 ((fun (a : Half) =>
      (a &&& 0x3FFC)) 0x1238) ((fun (r : List Half) => r.take 6) []) tLive), 0, ((fun (a : Half) => (a &&& 0x3FFC)) 0x1238),
      ((fun (r : List Half) => r.take 6) []),
      ((fun (n : Fin 4) (a : Half) => 0x04000000 + 0x10000 * n.val + a.toNat) 0 ((fun (a : Half) => (a &&& 0x3FFC)) 0x1238)),
      .busError, by decide +kernel⟩,
   ⟨((fun (n : Fin 4) (a : Half) (bank : Half) (r : List Half) (s : State) => (fun (s : State) =>
       s.wrWord (0x04000000 + 0x10000 * n.val + a.toNat) 0x89ABCDEF) (s.rdy n.val (bank :: a :: r) [])) 0 ((fun (a : Half) =>
       (a &&& 0x3FFC)) 0x1238) ((fun (n : Fin 4) => BitVec.ofNat 16 (0x40 + n.val)) 0) ((fun (r : List Half) =>
       r.take 6) []) tLive), 0, ((fun (a : Half) => (a &&& 0x3FFC)) 0x1238),
       ((fun (n : Fin 4) => BitVec.ofNat 16 (0x40 + n.val)) 0), ((fun (r : List Half) => r.take 6) []),
       ((fun (n : Fin 4) (a : Half) => 0x04000000 + 0x10000 * n.val + a.toNat) 0 ((fun (a : Half) => (a &&& 0x3FFC)) 0x1238)),
       .busError, by decide +kernel⟩,
   ⟨((fun (n : Fin 4) (a : Half) (r : List Half) (s : State) => (fun (s : State) =>
       s.setCore n.val { s.core n.val with dbr := 0x20, dcache := [(a.toNat / 32, ⟨.s, [1,2,3,4,5,6,0x12345678,8], 0⟩)] })
       (s.rdy n.val (a :: r) [])) 0 ((fun (a : Half) => (a &&& 0xFFFE)) 0x1238) ((fun (r : List Half) => r.take 6) []) tLive),
       0, ((fun (a : Half) => (a &&& 0xFFFE)) 0x1238), ((fun (r : List Half) => r.take 6) []), ((fun (a : Half) => ⟨a.toNat,
       false, true⟩) ((fun (a : Half) => (a &&& 0xFFFE)) 0x1238)), .busError, by decide +kernel⟩,
   ⟨((fun (n : Fin 4) (v : Half) (a : Half) (r : List Half) (s : State) => (fun (s : State) =>
       s.setCore n.val { s.core n.val with dbr := BitVec.ofNat 8 (0x40 + n.val), wbuf := [.store ⟨1, 2, [3], false⟩] }) (s.rdy
       n.val (a :: v :: r) [])) 0 0 ((fun (a : Half) => (a &&& 0x3FFE)) 0x1238) ((fun (r : List Half) => r.take 6) []) tLive),
       0, 0, ((fun (a : Half) => (a &&& 0x3FFE)) 0x1238), ((fun (r : List Half) => r.take 6) []),
       ((fun (n : Fin 4) (a : Half) => ⟨0x04000000 + 0x10000 * n.val + a.toNat, false,
       false⟩) 0 ((fun (a : Half) => (a &&& 0x3FFE)) 0x1238)), by decide +kernel⟩,
   ⟨((fun (n : Fin 4) (lo : Half) (hi : Half) (a : Half) (r : List Half) (s : State) => (fun (s : State) =>
       s.setCore n.val { s.core n.val with dbr := BitVec.ofNat 8 (0x40 + n.val), wbuf := [.store ⟨1, 2, [3], false⟩] }) (s.rdy
       n.val (a :: hi :: lo :: r) [])) 0 0 0 ((fun (a : Half) => (a &&& 0x3FFC)) 0x1238) ((fun (r : List Half) =>
       r.take 5) []) tLive), 0, 0, 0, ((fun (a : Half) => (a &&& 0x3FFC)) 0x1238), ((fun (r : List Half) => r.take 5) []),
       ((fun (n : Fin 4) (a : Half) => ⟨0x04000000 + 0x10000 * n.val + a.toNat, false,
       false⟩) 0 ((fun (a : Half) => (a &&& 0x3FFC)) 0x1238)), by decide +kernel⟩,
   ⟨((fun (n : Fin 4) (lo : Half) (hi : Half) (a : Half) (bank : Half) (r : List Half) (s : State) =>
       s.rdy n.val (bank :: a :: hi :: lo :: r) []) 0 0 0 ((fun (a : Half) => (a &&& 0x3FFC)) 0x1238) ((fun (n : Fin 4) =>
       BitVec.ofNat 16 (0x140 + n.val)) 0) ((fun (r : List Half) => r.take 4) []) tLive), 0, 0, 0,
       ((fun (a : Half) => (a &&& 0x3FFC)) 0x1238), ((fun (n : Fin 4) => BitVec.ofNat 16 (0x140 + n.val)) 0),
       ((fun (r : List Half) => r.take 4) []), ((fun (n : Fin 4) (a : Half) => ⟨0x04000000 + 0x10000 * n.val + a.toNat, false,
       false⟩) 0 ((fun (a : Half) => (a &&& 0x3FFC)) 0x1238)), by decide +kernel⟩,
   ⟨((fun (n : Fin 4) (v : Half) (a : Half) (r : List Half) (s : State) => (fun (s : State) =>
       (s.setCore n.val { s.core n.val with dbr := BitVec.ofNat 8 (0x40 + n.val) }).wrWord (0x04000000 + 0x10000 * n.val +
       a.toNat) 0x89ABCDEF) (s.rdy n.val (a :: v :: r) [])) 0 0 ((fun (a : Half) =>
       (a &&& 0x3FFC)) 0x1238) ((fun (r : List Half) => r.take 6) []) tLive), 0, 0,
       ((fun (a : Half) => (a &&& 0x3FFC)) 0x1238), ((fun (r : List Half) => r.take 6) []),
       ((fun (n : Fin 4) (a : Half) => 0x04000000 + 0x10000 * n.val + a.toNat) 0 ((fun (a : Half) => (a &&& 0x3FFC)) 0x1238)),
       .busError, by decide +kernel⟩,
   ⟨((fun (n : Fin 4) (w : Half) (v : Half) (a : Half) (r : List Half) (s : State) => (fun (s : State) =>
       { s with coh := { s.coh with credits := [] } } |> fun s => (((List.range 4).foldl (fun (s : State) k =>
       s.setCore k { s.core k with dcache := [(a.toNat / 32, ⟨.s, [1,2,3,4,5,6,0x12345678,8], 0⟩)] }) s).setEcc a.toNat
       0).wrWord (a.toNat / 4 * 4) 0x89ABCDEF) (s.rdy n.val (a :: v :: w :: r) [] |>.setCore n.val
       { (s.rdy n.val (a :: v :: w :: r) []).core n.val with dbr := 0x20 })) 0 0 0xCDEF ((fun (a : Half) =>
       (a &&& 0xFFFE)) 0x1238) ((fun (r : List Half) => r.take 5) []) tLive), 0, 0, 0xCDEF,
       ((fun (a : Half) => (a &&& 0xFFFE)) 0x1238), ((fun (r : List Half) => r.take 5) []), ((fun (a : Half) => ⟨a.toNat,
       false, true⟩) ((fun (a : Half) => (a &&& 0xFFFE)) 0x1238)), by decide +kernel⟩,
   ⟨((fun (n : Fin 4) (a : Half) (r : List Half) (s : State) => s.rdy n.val (a :: r) [7]) 0 ((fun (a : Half) =>
       (a ||| 1)) 0x1239) ((fun (r : List Half) => r.take 5) []) tLive), 0, ((fun (a : Half) => (a ||| 1)) 0x1239),
       ((fun (r : List Half) => r.take 5) []), .busError, by decide +kernel⟩,
   ⟨((fun (n : Fin 4) (s : State) => s.rdyq n.val [1, 2] [7]) 0 tLive), 0, by decide +kernel⟩,
   ⟨((fun (n : Fin 4) (s : State) => (s.rdy n.val [1,
       2] [7]).setPport n.val { (s.rdy n.val [1, 2] [7]).pport n.val with fifo := [⟨1, 2, 3⟩] }) 0 tLive), 0,
       by decide +kernel⟩,
   ⟨((fun (n : Fin 4) (va : Nat) (pa : Nat) (v : Half) (s : State) => (fun (s : State) =>
       s.setCore n.val { s.core n.val with wbuf := [.store ⟨va, pa, halfBytes v, false⟩] }) (s.rdyq n.val [1,
       2] [7])) 0 0x401002 ((fun (pa : Nat) => 0x04000000 + pa % 4 * 65536 + pa % 0x3FF0) 0x04001002) 0 tLive), 0, 0x401002,
       ((fun (pa : Nat) => 0x04000000 + pa % 4 * 65536 + pa % 0x3FF0) 0x04001002),
       ((fun (pa : Nat) => pa % 0x1000000 / 65536) ((fun (pa : Nat) =>
       0x04000000 + pa % 4 * 65536 + pa % 0x3FF0) 0x04001002)), 0, by decide +kernel⟩,
   ⟨((fun (n : Fin 4) (va : Nat) (pa : Nat) (v : Half) (q : List WbufEnt) (s : State) =>
       s.setCore n.val { s.core n.val with wbuf := .store ⟨va, pa, halfBytes v, false⟩ :: q }) 0 0x401002 ((fun (pa : Nat) =>
       0x04000000 + pa % 4 * 65536 + pa % 0x3FF0) 0x04001002) 0 [] tLive), 0, 0x401002,
       ((fun (pa : Nat) => 0x04000000 + pa % 4 * 65536 + pa % 0x3FF0) 0x04001002),
       ((fun (pa : Nat) => pa % 0x1000000 / 65536) ((fun (pa : Nat) =>
       0x04000000 + pa % 4 * 65536 + pa % 0x3FF0) 0x04001002)), 0, [], by decide +kernel⟩,
   ⟨((fun (n : Fin 4) (va : Nat) (pa : Nat) (v : Half) (q : List WbufEnt) (s : State) =>
       s.setCore n.val { s.core n.val with wbuf := .store ⟨va, pa, halfBytes v, true⟩ :: q, dcache := [(pa / 32, ⟨.e, [1,2,3,4,5,6,0x12345678,8], 0⟩)] })
       0 0x201002 0x1002 0 [] tLive), 0, 0x201002, 0x1002, 0, [], by decide +kernel⟩,
   ⟨(tLive.setCore 1 { tLive.core 1 with wbuf := [.store ⟨0x401002, 0x05001002, halfBytes 7, false⟩], wbe := none }).wr
       (Reg.ICU_WBETALLY 1) 40, 1, 0x401002, 0x05001002, 7, [], by decide +kernel⟩⟩

theorem witness_TsuvoFlow :
    (∃ (s : State) (n : Fin 4) (off : BitVec 12), s.issues n.val true = true) ∧
    (∃ (s : State) (n : Fin 4) (off : BitVec 12) (a : Half) (r : List Half), s.issues n.val true = true ∧
        (s.core n.val).dstk = a :: r ∧ r.length ≤ 7) ∧
    (∃ (s : State) (n : Fin 4) (off : BitVec 12) (e : BitVec 24) (q : List (BitVec 24)), s.issues n.val true = true ∧
        (s.core n.val).rstk = e :: q) ∧
    (∃ (s : State) (n : Fin 4) (target : BitVec 14), s.issues n.val true = true ∧ (s.core n.val).rstk.length < 16) ∧
    (∃ (s : State) (n : Fin 4) (e : BitVec 24) (q : List (BitVec 24)), s.issues n.val false = true ∧
        (s.core n.val).rstk = e :: q) ∧
    (∃ (s : State) (n : Fin 4) (a : Half) (r : List Half), s.issues n.val false = true ∧ (s.core n.val).dstk = a :: r ∧
        r.length ≤ 7 ∧ a.toNat % 2 = 0) ∧
    (∃ (s : State) (n : Fin 4) (a : Half) (bank : Half) (r : List Half), s.issues n.val false = true ∧
        (s.core n.val).dstk = bank :: a :: r ∧ r.length ≤ 6 ∧ a.toNat % 2 = 0) ∧
    (∃ (s : State) (n : Fin 4) (a : Half) (r : List Half), s.issues n.val false = true ∧ (s.core n.val).dstk = a :: r ∧
        r.length ≤ 7 ∧ (s.core n.val).rstk.length ≤ 14 ∧ a.toNat % 2 = 1) ∧
    (∃ (s : State) (n : Fin 4) (a : Half) (r : List Half), s.issues n.val false = true ∧ (s.core n.val).dstk = a :: r ∧
        r.length ≤ 7 ∧ (s.core n.val).rstk.length ≤ 14 ∧ a.toNat ≤ 15) ∧
    (∃ (s : State) (n : Fin 4) (a : Half) (r : List Half), s.issues n.val false = true ∧ (s.core n.val).dstk = a :: r ∧
        r.length ≤ 7 ∧ (s.core n.val).rstk.length ≤ 14 ∧ 15 < a.toNat) ∧
    (∃ (s : State) (n : Fin 4) (code : BitVec 7), s.issues n.val false = true ∧ (s.core n.val).rstk.length ≤ 14 ∧
        shortOpCode code.toNat = false) ∧
    (∃ (s : State) (n : Fin 4), s.issues n.val false = true ∧ (s.core n.val).rstk.length ≤ 14 ∧
        s.bit Reg.DBG_CTRL n.val = false) ∧
    (∃ (s : State) (n : Fin 4), s.issues n.val false = true ∧ s.bit Reg.DBG_CTRL n.val = true) ∧
    (∃ (s : State) (n : Fin 4), s.issues n.val false = true ∧ (s.core n.val).sys = true) ∧
    (∃ (s : State) (n : Fin 4), s.issues n.val false = true ∧ (s.core n.val).sys = false ∧ (s.core n.val).rstk.length ≤ 14) ∧
    (∃ (s : State) (n : Fin 4) (f1 : BitVec 24) (f0 : BitVec 24) (q : List (BitVec 24)) (late : Bool),
        s.issues n.val false = true ∧ (s.core n.val).sys = true ∧ (s.core n.val).rstk = f1 :: f0 :: q ∧
        (f1.getLsbD 9 = false ∨ s.stepHolds n.val = true ∨ s.bestSource n.val (f1.toNat / 2 ^ 18 % 16) = none)) ∧
    (∃ (s : State) (n : Fin 4) (f1 : BitVec 24) (f0 : BitVec 24) (q : List (BitVec 24)) (i : Fin 64) (late : Bool),
        s.issues n.val false = true ∧ (s.core n.val).sys = true ∧ (s.core n.val).rstk = f1 :: f0 :: q ∧ f1.getLsbD 9 = true ∧
        s.stepHolds n.val = false ∧ s.bestSource n.val (f1.toNat / 2 ^ 18 % 16) = some i.val) :=
  ⟨⟨((fun (n : Fin 4) (s : State) => s.rdy n.val [1, 2] [7]) 0 tLive), 0, 0, by decide +kernel⟩,
   ⟨((fun (n : Fin 4) (a : Half) (r : List Half) (s : State) => s.rdy n.val (a :: r) [7]) 0 0 ((fun (r : List Half) =>
       r.take 7) []) tLive), 0, 0, 0, ((fun (r : List Half) => r.take 7) []), by decide +kernel⟩,
   ⟨((fun (n : Fin 4) (e : BitVec 24) (q : List (BitVec 24)) (s : State) => s.rdy n.val [1, 2] (e :: q)) 0 0 [] tLive), 0, 0,
       0, [], by decide +kernel⟩,
   ⟨((fun (n : Fin 4) (s : State) => s.rdy n.val [1, 2] [7]) 0 tLive), 0, 0, by decide +kernel⟩,
   ⟨((fun (n : Fin 4) (e : BitVec 24) (q : List (BitVec 24)) (s : State) => s.rdy n.val [1, 2] (e :: q)) 0 0 [] tLive), 0, 0,
       [], by decide +kernel⟩,
   ⟨((fun (n : Fin 4) (a : Half) (r : List Half) (s : State) => s.rdy n.val (a :: r) [7]) 0 ((fun (a : Half) =>
       (a &&& 0xFFFE)) 0) ((fun (r : List Half) => r.take 7) []) tLive), 0, ((fun (a : Half) => (a &&& 0xFFFE)) 0),
       ((fun (r : List Half) => r.take 7) []), by decide +kernel⟩,
   ⟨((fun (n : Fin 4) (a : Half) (bank : Half) (r : List Half) (s : State) =>
       s.rdy n.val (bank :: a :: r) [7]) 0 ((fun (a : Half) => (a &&& 0xFFFE)) 0) 0 ((fun (r : List Half) =>
       r.take 6) []) tLive), 0, ((fun (a : Half) => (a &&& 0xFFFE)) 0), 0, ((fun (r : List Half) => r.take 6) []),
       by decide +kernel⟩,
   ⟨((fun (n : Fin 4) (a : Half) (r : List Half) (s : State) => s.rdy n.val (a :: r) [7]) 0 ((fun (a : Half) =>
       (a ||| 1)) 1) ((fun (r : List Half) => r.take 7) []) tLive), 0, ((fun (a : Half) => (a ||| 1)) 1),
       ((fun (r : List Half) => r.take 7) []), by decide +kernel⟩,
   ⟨((fun (n : Fin 4) (a : Half) (r : List Half) (s : State) => s.rdy n.val (a :: r) [7]) 0 ((fun (a : Half) =>
       (a &&& 15)) 0) ((fun (r : List Half) => r.take 7) []) tLive), 0, ((fun (a : Half) => (a &&& 15)) 0),
       ((fun (r : List Half) => r.take 7) []), by decide +kernel⟩,
   ⟨((fun (n : Fin 4) (a : Half) (r : List Half) (s : State) => s.rdy n.val (a :: r) [7]) 0 ((fun (a : Half) =>
       (a ||| 16)) 16) ((fun (r : List Half) => r.take 7) []) tLive), 0, ((fun (a : Half) => (a ||| 16)) 16),
       ((fun (r : List Half) => r.take 7) []), by decide +kernel⟩,
   ⟨((fun (n : Fin 4) (s : State) => s.rdy n.val [1, 2] [7]) 0 tLive), 0,
       ((fun (code : BitVec 7) => (if code.toNat % 2 = 0 then 0x3E else 0x7F)) 0), by decide +kernel⟩,
   ⟨((fun (n : Fin 4) (s : State) => s.rdy n.val [1, 2] [7] |>.setBit Reg.DBG_CTRL n.val false) 0 tLive), 0,
       by decide +kernel⟩,
   ⟨((fun (n : Fin 4) (s : State) => s.rdy n.val [1, 2] [7] |>.setBit Reg.DBG_CTRL n.val true) 0 tLive), 0,
       by decide +kernel⟩,
   ⟨((fun (n : Fin 4) (s : State) => (fun (s : State) =>
       s.setCore n.val { s.core n.val with status := 0x100 }) (s.rdy n.val [1, 2] [7])) 0 tLive), 0, by decide +kernel⟩,
   ⟨((fun (n : Fin 4) (s : State) => (fun (s : State) =>
       s.setCore n.val { s.core n.val with status := 0x003 }) (s.rdy n.val [1, 2] [7])) 0 tLive), 0, by decide +kernel⟩,
   ⟨((fun (n : Fin 4) (f1 : BitVec 24) (f0 : BitVec 24) (q : List (BitVec 24)) (s : State) => (fun (s : State) =>
       s.setCore n.val { s.core n.val with status := 0x103 }) (s.rdy n.val [1,
       2] (f1 :: f0 :: q))) 0 ((fun (f1 : BitVec 24) => (f1 &&& 0xFFFDFF)) 0) 0 [] tLive), 0,
       ((fun (f1 : BitVec 24) => (f1 &&& 0xFFFDFF)) 0), 0, [], true, by decide +kernel⟩,
   ⟨tIrq 0x103 [0x200200, 0x000005, 7], 1, 0x200200, 5, [7], 5, false, by decide +kernel⟩⟩

theorem witness_TsuvoSystem :
    (∃ (s : State) (n : Fin 4) (a : Half) (bank : Half) (r : List Half) (x : Xl), s.issues n.val false = true ∧
        (s.core n.val).dstk = bank :: a :: r ∧ r.length ≤ 6 ∧ (s.core n.val).wbuf = [] ∧
        s.xlHit n.val (farVa a bank) .cacheOp = some x) ∧
    (∃ (s : State) (n : Fin 4), s.issues n.val false = true) ∧
    (∃ (s : State) (n : Fin 4) (q : Fin 64) (tag : Fin 64) (d : Half) (r : List Half), s.issues n.val false = true ∧
        (s.core n.val).dstk = BitVec.ofNat 16 q.val :: BitVec.ofNat 16 tag.val :: d :: r ∧ r.length ≤ 5 ∧
        s.pushFull n.val = (false, s) ∧ (s.core n.val).wbuf.length < 4) ∧
    (∃ (s : State) (n : Fin 4) (w : PoolWord) (q : List WbufEnt), s.live = true ∧ (s.core n.val).wbuf = .push w :: q ∧
        (s.pport n.val).fifo = []) ∧
    (∃ (s : State) (n : Fin 4) (q : Fin 64) (tag : Fin 64) (d : Half) (r : List Half), s.issues n.val false = true ∧
        (s.core n.val).dstk = BitVec.ofNat 16 q.val :: BitVec.ofNat 16 tag.val :: d :: r ∧ r.length ≤ 5 ∧
        (s.pport n.val).fifo.length = 8) ∧
    (∃ (s : State) (n : Fin 4) (q : Fin 64) (r : List Half), s.issues n.val false = true ∧
        (s.core n.val).dstk = BitVec.ofNat 16 q.val :: r ∧ r.length ≤ 6 ∧ (s.pport n.val).req = none ∧
        (s.core n.val).wbuf = []) ∧
    (∃ (s : State) (n : Fin 4) (w : Word) (q : Nat), s.live = true ∧ (s.core n.val).waiting = .qpop q ∧
        (s.pport n.val).rep = some w) ∧
    (∃ (s : State) (n : Fin 4) (k : Half) (d : Half) (r : List Half), s.issues n.val false = true ∧
        (s.core n.val).dstk = k :: d :: r ∧ r.length ≤ 5 ∧ (s.core n.val).rstk.length ≤ 14 ∧ 63 < k.toNat) ∧
    (∃ (s : State) (n : Fin 4) (k : Half) (r : List Half) (x : Half), s.issues n.val false = true ∧
        (s.core n.val).dstk = k :: r ∧ r.length ≤ 7 ∧ s.srRead n.val k.toNat = some x) ∧
    (∃ (s : State) (n : Fin 4) (k : Half) (v : Half) (r : List Half), s.issues n.val false = true ∧
        (s.core n.val).dstk = k :: v :: r ∧ r.length ≤ 6 ∧ (s.srRead n.val k.toNat).isSome = true ∧
        (srSystem k.toNat = false ∨ (s.core n.val).sys = true)) ∧
    (∃ (s : State) (n : Fin 4) (k : Half) (v : Half) (r : List Half), s.issues n.val false = true ∧
        (s.core n.val).dstk = k :: v :: r ∧ r.length ≤ 6 ∧ (s.core n.val).rstk.length ≤ 14 ∧ (s.core n.val).sys = false) ∧
    (∃ (s : State) (n : Fin 4), s.issues n.val false = true ∧ (s.core n.val).dstk.length < 8) ∧
    (∃ (s : State) (n : Fin 4) (a : Half) (r : List Half), s.issues n.val false = true ∧ (s.core n.val).dstk = a :: r ∧
        r.length ≤ 7) ∧
    (∃ (s : State) (n : Fin 4) (a : Half) (bank : Half) (r : List Half), s.issues n.val false = true ∧
        (s.core n.val).dstk = bank :: a :: r ∧ r.length ≤ 6 ∧ (s.core n.val).sys = true) ∧
    (∃ (s : State) (n : Fin 4) (va : Nat) (pa : Nat), s.coreRuns n.val = true ∧ (s.core n.val).halted = false ∧
        (s.core n.val).waiting = .none ∧ (s.core n.val).wbe = some (va, pa) ∧ (s.core n.val).rstk.length ≤ 14) :=
  ⟨⟨((fun (n : Fin 4) (a : Half) (bank : Half) (r : List Half) (s : State) => (fun (s : State) =>
      { s with coh := { s.coh with credits := [] } }.setCore n.val
      { s.core n.val with status := 0x100, dcache := [(a.toNat / 32, ⟨.m, [1,2,3,4,5,6,0x12345678,8], 0⟩)] }) (s.rdy n.val
      (bank :: a :: r) [])) 0 0x1004 0x20 ((fun (r : List Half) => r.take 6) []) tLive), 0, 0x1004, 0x20,
      ((fun (r : List Half) => r.take 6) []), ((fun (a : Half) => ⟨a.toNat, false, true⟩) 0x1004), by decide +kernel⟩,
   ⟨((fun (n : Fin 4) (s : State) => s.rdy n.val [1] []) 0 tLive), 0, by decide +kernel⟩,
   ⟨((fun (n : Fin 4) (q : Fin 64) (tag : Fin 64) (d : Half) (r : List Half) (s : State) => (fun (s : State) =>
       s.setPport n.val { s.pport n.val with fifo := [⟨1,2,3⟩], fresh := 0, freed := [], more := [] }) (s.rdy n.val
       (BitVec.ofNat 16 q.val :: BitVec.ofNat 16 tag.val :: d :: r) [])) 0 0 0 0 ((fun (r : List Half) =>
       r.take 5) []) tLive), 0, 0, 0, 0, ((fun (r : List Half) => r.take 5) []), by decide +kernel⟩,
   ⟨((fun (n : Fin 4) (w : PoolWord) (q : List WbufEnt) (s : State) => (fun (s : State) =>
       (s.setPport n.val { s.pport n.val with fifo := [] }).setCore n.val { s.core n.val with wbuf := .push w :: q }) (s.rdy
       n.val [] [])) 0 default [] tLive), 0, default, [], by decide +kernel⟩,
   ⟨((fun (n : Fin 4) (q : Fin 64) (tag : Fin 64) (d : Half) (r : List Half) (s : State) => (fun (s : State) =>
       s.setPport n.val { s.pport n.val with fifo := List.replicate 8 ⟨1, 2, 3⟩ }) (s.rdy n.val (BitVec.ofNat 16 q.val ::
       BitVec.ofNat 16 tag.val :: d :: r) [])) 0 0 0 0 ((fun (r : List Half) => r.take 5) []) tLive), 0, 0, 0, 0,
       ((fun (r : List Half) => r.take 5) []), by decide +kernel⟩,
   ⟨((fun (n : Fin 4) (q : Fin 64) (r : List Half) (s : State) => (fun (s : State) =>
       s.setPport n.val { s.pport n.val with req := none }) (s.rdy n.val (BitVec.ofNat 16 q.val :: r) [])) 0 0 ((fun (r : List
       Half) => r.take 6) []) tLive), 0, 0, ((fun (r : List Half) => r.take 6) []), by decide +kernel⟩,
   ⟨((fun (n : Fin 4) (w : Word) (q : Nat) (s : State) => (fun (s : State) =>
       (s.setPport n.val { s.pport n.val with rep := some w }).setCore n.val { s.core n.val with waiting := .qpop q }) (s.rdy
       n.val [1, 2] [])) 0 0 0 tLive), 0, 0, 0, by decide +kernel⟩,
   ⟨((fun (n : Fin 4) (k : Half) (d : Half) (r : List Half) (s : State) =>
       s.rdy n.val (k :: d :: r) [7]) 0 ((fun (k : Half) => (k ||| 64)) 64) 0 ((fun (r : List Half) => r.take 5) []) tLive),
       0, ((fun (k : Half) => (k ||| 64)) 64), 0, ((fun (r : List Half) => r.take 5) []), by decide +kernel⟩,
   ⟨tLive.rdy 1 [0, 3] [7], 1, 0, [3], (State.srRead (tLive.rdy 1 [0, 3] [7]) 1 0).getD 0, by decide +kernel⟩,
   ⟨((fun (n : Fin 4) (k : Half) (v : Half) (r : List Half) (s : State) => (fun (s : State) =>
       s.setCore n.val { s.core n.val with status := 0x102 }) (s.rdy n.val (k :: v :: r) [7])) 0 ((fun (k : Half) =>
       (if k.toNat < 20 then k else k &&& 31)) 4) 0 ((fun (r : List Half) => r.take 6) []) tLive), 0,
       ((fun (k : Half) => (if k.toNat < 20 then k else k &&& 31)) 4), 0, ((fun (r : List Half) => r.take 6) []),
       by decide +kernel⟩,
   ⟨((fun (n : Fin 4) (k : Half) (v : Half) (r : List Half) (s : State) => (fun (s : State) =>
       s.setCore n.val { s.core n.val with status := 0x002 }) (s.rdy n.val (k :: v :: r) [7])) 0 ((fun (k : Half) =>
       (if k.toNat < 20 then k else k &&& 31)) 4) 0 ((fun (r : List Half) => r.take 6) []) tLive), 0,
       ((fun (k : Half) => (if k.toNat < 20 then k else k &&& 31)) 4), 0, ((fun (r : List Half) => r.take 6) []),
       by decide +kernel⟩,
   ⟨((fun (n : Fin 4) (s : State) => s.rdy n.val [1] []) 0 tLive), 0, by decide +kernel⟩,
   ⟨((fun (n : Fin 4) (a : Half) (r : List Half) (s : State) => s.rdy n.val (a :: r) []) 0 0 ((fun (r : List Half) =>
       r.take 5) []) tLive), 0, 0, ((fun (r : List Half) => r.take 5) []), by decide +kernel⟩,
   ⟨((fun (n : Fin 4) (a : Half) (bank : Half) (r : List Half) (s : State) => (fun (s : State) =>
       s.setCore n.val { s.core n.val with status := 0x102 }) (s.rdy n.val (bank :: a :: r) [])) 0 0 ((fun (bank : Half) =>
       (if bank.toNat % 2 = 0 then 0x20 else bank)) 0) ((fun (r : List Half) => r.take 5) []) tLive), 0, 0,
       ((fun (bank : Half) => (if bank.toNat % 2 = 0 then 0x20 else bank)) 0), ((fun (r : List Half) => r.take 5) []),
       by decide +kernel⟩,
   ⟨((fun (n : Fin 4) (va : Nat) (pa : Nat) (s : State) =>
       s.rdy n.val [1] [7] |>.setCore n.val { (s.rdy n.val [1] [7]).core n.val with wbe := some (va, pa) }) 0 0 0 tLive), 0,
       0, 0, by decide +kernel⟩⟩

theorem witness_CoresAndDebug :
    (∃ (s : State) (n : Fin 4), s.sysServed = true ∧ ¬(n.val = 0 ∧ s.outcome = boBOOTING) ∧
        s.bit Reg.SYS_CORERST n.val = false) ∧
    (∃ (s : State), s.sysServed = true ∧ s.outcome = boBOOTING) ∧
    (∃ (s : State) (n : Fin 4), s.live = true ∧ (s.core n.val).resetting = true ∧ s.bit Reg.SYS_CORERST n.val = true ∧
        s.coreQuiet n.val = true) ∧
    (∃ (s : State) (n : Fin 4), s.sysServed = true ∧ s.bit Reg.SYS_CORERST n.val = true ∧ (s.core n.val).resetting = false) ∧
    (∃ (s : State) (n : Fin 4) (i : Fin 64), s.canInterrupt n.val = true ∧ s.bestSource n.val (s.rpri n.val) = some i.val ∧
        (s.core n.val).wbe = none ∧ (s.core n.val).rstk.length ≤ 14) ∧
    (∃ (s : State) (val : Word), s.live = true) ∧
    (∃ (s : State) (n : Fin 4) (val : Word), s.live = true) ∧
    (∃ (s : State) (n : Fin 4), s.live = true ∧ s.bit Reg.DBG_HALTREQ n.val = false ∧ s.bit Reg.DBG_SAFECFG n.val = false) ∧
    (∃ (s : State) (n : Fin 4), s.live = true ∧ s.bit Reg.DBG_HALTREQ n.val = false ∧ s.bit Reg.DBG_SAFECFG n.val = true ∧
        (s.core n.val).halted = false) ∧
    (∃ (s : State) (n : Fin 4), s.coreRuns n.val = true ∧ (s.core n.val).halted = false ∧ (s.core n.val).waiting = .none ∧
        (s.core n.val).wbuf = [] ∧ (s.pport n.val).fifo = [] ∧ (s.core n.val).stepping = false ∧ s.reqOut n.val = false ∧
        s.bit Reg.DBG_HALTREQ n.val = true) ∧
    (∃ (s : State) (n : Fin 4), s.coreRuns n.val = true ∧ (s.core n.val).halted = false ∧ (s.core n.val).waiting = .none ∧
        (s.core n.val).wbuf = [] ∧ (s.pport n.val).fifo = [] ∧ s.reqOut n.val = false ∧ (s.core n.val).haltPend = 2 ∧
        s.bit Reg.DBG_SAFECFG n.val = false) ∧
    (∃ (s : State) (n : Fin 4), s.live = true ∧ (s.core n.val).halted = true) ∧
    (∃ (s : State) (n : Fin 4), s.live = true ∧ (s.core n.val).halted = false) ∧
    (∃ (s : State), s.live = true ∧ s.bit Reg.DBG_HALTREQ 4 = true) ∧
    (∃ (s : State), s.live = true ∧ s.bit Reg.DBG_HALTREQ 4 = false) :=
  ⟨⟨((fun (n : Fin 4) (s : State) => s.setBit Reg.SYS_CORERST n.val false |>.setFld Reg.SYS_BOOTSTAT 0 4 1) 0 tLive), 0,
      by decide +kernel⟩,
   ⟨((fun (s : State) => s.setFld Reg.SYS_BOOTSTAT 0 4 0) tLive), by decide +kernel⟩,
   ⟨((fun (n : Fin 4) (s : State) =>
       { s with coh := { s.coh with busy := [], credits := [] } } |>.setBit Reg.SYS_CORERST n.val true |>.setPport n.val {}
       |>.setCore n.val { s.core n.val with resetting := true, wbuf := [] }) 0 tLive), 0, by decide +kernel⟩,
   ⟨((fun (n : Fin 4) (s : State) =>
       s.setBit Reg.SYS_CORERST n.val true |>.setCore n.val { s.core n.val with resetting := false }) 0 tLive), 0,
       by decide +kernel⟩,
   ⟨(tIrq 0x203 [7]).wr (Reg.ICU_ACTIVE 1) 0x80000, 1, 5, by decide +kernel⟩,
   ⟨tLive, 0, by decide +kernel⟩,
   ⟨tLive, 0, 0, by decide +kernel⟩,
   ⟨((fun (n : Fin 4) (s : State) => s.setBit Reg.DBG_HALTREQ n.val false |>.setBit Reg.DBG_SAFECFG n.val false) 0 tLive), 0,
       by decide +kernel⟩,
   ⟨((fun (n : Fin 4) (s : State) =>
       s.setBit Reg.DBG_HALTREQ n.val false |>.setBit Reg.DBG_SAFECFG n.val true |>.setCore n.val
       { s.core n.val with halted := false }) 0 tLive), 0, by decide +kernel⟩,
   ⟨((fun (n : Fin 4) (s : State) =>
       { s with coh := { s.coh with busy := [], credits := [] } } |>.rdyq n.val [1] [] |>.setBit Reg.DBG_HALTREQ n.val true) 0
       tLive), 0, by decide +kernel⟩,
   ⟨((fun (n : Fin 4) (s : State) => (fun (s : State) =>
       s.setBit Reg.DBG_SAFECFG n.val false |>.setCore n.val { s.core n.val with haltPend := 2 })
       ({ s with coh := { s.coh with busy := [], credits := [] } }.rdyq n.val [1] [])) 0 tLive), 0, by decide +kernel⟩,
   ⟨((fun (n : Fin 4) (s : State) => s.setCore n.val { s.core n.val with halted := true }) 0 tLive), 0, by decide +kernel⟩,
   ⟨((fun (n : Fin 4) (s : State) => s.setCore n.val { s.core n.val with halted := false }) 0 tLive), 0, by decide +kernel⟩,
   ⟨((fun (s : State) => s.setBit Reg.DBG_HALTREQ 4 true) tLive), by decide +kernel⟩,
   ⟨((fun (s : State) => s.setBit Reg.DBG_HALTREQ 4 false |> (forN 32 (fun k (s : State) =>
       s.setKs k { s.ks k with run := none }) ·)) tLive), by decide +kernel⟩⟩

theorem witness_FlushAndWalk :
    (∃ (s : State) (n : Fin 4) (r : List Half) (q : List (BitVec 24)), s.issues n.val false = true ∧ (s.core n.val).dstk = r ∧
        (s.core n.val).rstk = q ∧ r.length ≤ 8 ∧ q.length ≤ 16 ∧ (s.core n.val).wbuf = [] ∧ (s.core n.val).ten = false ∧
        (s.core n.val).sbr = BitVec.ofNat 8 (0x40 + n.val) ∧ s.emerg n.val = false ∧
        2 * r.length + (s.core n.val).dslim.toNat ≤ (s.core n.val).dsp.toNat ∧
        4 * q.length + (s.core n.val).rslim.toNat ≤ (s.core n.val).rsp.toNat ∧
        (s.core n.val).dsp.toNat + 4 * q.length ≤ (s.core n.val).rsp.toNat ∧ (s.core n.val).rsp.toNat ≤ 0x4000 ∧
        (s.core n.val).dsp.toNat % 2 = 0 ∧ (s.core n.val).rsp.toNat % 4 = 0) ∧
    (∃ (s : State) (n : Fin 4) (va : BitVec 24) (kind : Fin 3) (d : Nat) (b : Nat) (e : TlbEntry),
        s.canIssueOp n.val false = true ∧ (s.core n.val).ten = true ∧ s.coh.credits = [] ∧
        (kind.val ≠ 0 ∨ va.toNat = (s.core n.val).at_) ∧ (s.core n.val).wbe = none ∧
        tlbFind (s.core n.val).tlb (va.toNat / 65536) (va.toNat % 65536 / 4096) (s.core n.val).asid.toNat = none ∧
        d = (s.core n.val).dir + 4 * (va.toNat / 65536) ∧
        b = W.fld (s.rdWord (d / 4 * 4)) 6 26 * 64 + 4 * (va.toNat % 65536 / 4096) ∧ regionOf d = some .sram ∧
        regionOf b = some .sram ∧ s.owner (d / 32) = none ∧ s.owner (b / 32) = none ∧ s.eccAt d = 0 ∧ s.eccAt b = 0 ∧
        W.bit (s.rdWord (d / 4 * 4)) 0 = true ∧ W.bit (s.rdWord (b / 4 * 4)) 0 = true ∧
        e = pteEntry (s.rdWord (b / 4 * 4)) (va.toNat / 65536) (va.toNat % 65536 / 4096) (s.core n.val).asid.toNat ∧
        e.p = false ∧ e.w = true ∧ e.x = true ∧ e.d = false ∧ e.frame < 0x200) ∧
    (∃ (s : State) (n : Fin 4) (va : BitVec 24) (kind : Fin 3) (d : Nat), s.canIssueOp n.val false = true ∧
        (s.core n.val).ten = true ∧ s.coh.credits = [] ∧ (kind.val ≠ 0 ∨ va.toNat = (s.core n.val).at_) ∧
        (s.core n.val).wbe = none ∧
        tlbFind (s.core n.val).tlb (va.toNat / 65536) (va.toNat % 65536 / 4096) (s.core n.val).asid.toNat = none ∧
        d = (s.core n.val).dir + 4 * (va.toNat / 65536) ∧ regionOf d = some .sram ∧ s.owner (d / 32) = none ∧ s.eccAt d = 0 ∧
        W.bit (s.rdWord (d / 4 * 4)) 0 = false ∧ (s.core n.val).rstk.length ≤ 14) ∧
    (∃ (s : State) (n : Fin 4) (va : BitVec 24) (kind : Fin 3) (d : Nat) (b : Nat), s.canIssueOp n.val false = true ∧
        (s.core n.val).ten = true ∧ s.coh.credits = [] ∧ (kind.val ≠ 0 ∨ va.toNat = (s.core n.val).at_) ∧
        (s.core n.val).wbe = none ∧
        tlbFind (s.core n.val).tlb (va.toNat / 65536) (va.toNat % 65536 / 4096) (s.core n.val).asid.toNat = none ∧
        d = (s.core n.val).dir + 4 * (va.toNat / 65536) ∧
        b = W.fld (s.rdWord (d / 4 * 4)) 6 26 * 64 + 4 * (va.toNat % 65536 / 4096) ∧ regionOf d = some .sram ∧
        regionOf b = some .sram ∧ s.owner (d / 32) = none ∧ s.owner (b / 32) = none ∧ s.eccAt d = 0 ∧ s.eccAt b = 0 ∧
        W.bit (s.rdWord (d / 4 * 4)) 0 = true ∧ W.bit (s.rdWord (b / 4 * 4)) 0 = false ∧ (s.core n.val).rstk.length ≤ 14) :=
  ⟨⟨((fun (n : Fin 4) (r : List Half) (q : List (BitVec 24)) (s : State) => (fun (s : State) =>
      s.setBit (Reg.ICU_CSTAT n.val) 0 false |>.setCore n.val
      { s.core n.val with dsp := 0x1002, dslim := 0x80, rsp := 0x2004, rslim := 0x1100, sbr := BitVec.ofNat 8 (0x40 + n.val) })
      (s.rdy n.val r q)) 0 ((fun (r : List Half) => r.take 8) []) ((fun (q : List (BitVec 24)) => q.take 16) []) tLive), 0,
      ((fun (r : List Half) => r.take 8) []), ((fun (q : List (BitVec 24)) => q.take 16) []), by decide +kernel⟩,
   ⟨((fun (n : Fin 4) (va : BitVec 24) (s : State) => (fun (s : State) =>
       { { s with coh := { s.coh with credits := [] } }.setCore n.val { s.core n.val with dir := 0x1000, ten := true, tlb := [] } with ecc := [] }.wrWord
       (0x1000 + 4 * (va.toNat / 65536)) 0x4001 |>.wrWord (0x4000 + 4 * (va.toNat % 65536 / 4096)) 0x00123007) (s.rdy n.val
       [1] [7])) 0 0 tLive), 0, 0, 1, ((fun (va : BitVec 24) => 0x1000 + 4 * (va.toNat / 65536)) 0),
       ((fun (va : BitVec 24) => 0x4000 + 4 * (va.toNat % 65536 / 4096)) 0),
       ((fun (n : Fin 4) (va : BitVec 24) (s : State) =>
       pteEntry 0x00123007 (va.toNat / 65536) (va.toNat % 65536 / 4096) (s.core n.val).asid.toNat) 0 0 tLive),
       by decide +kernel⟩,
   ⟨((fun (n : Fin 4) (va : BitVec 24) (s : State) => (fun (s : State) =>
       { { s with coh := { s.coh with credits := [] } }.setCore n.val { s.core n.val with dir := 0x1000, ten := true, tlb := [] } with ecc := [] }.wrWord
       (0x1000 + 4 * (va.toNat / 65536)) 0x4000) (s.rdy n.val [1] [7])) 0 0 tLive), 0, 0, 1,
       ((fun (va : BitVec 24) => 0x1000 + 4 * (va.toNat / 65536)) 0), by decide +kernel⟩,
   ⟨((fun (n : Fin 4) (va : BitVec 24) (s : State) => (fun (s : State) =>
       { { s with coh := { s.coh with credits := [] } }.setCore n.val { s.core n.val with dir := 0x1000, ten := true, tlb := [] } with ecc := [] }.wrWord
       (0x1000 + 4 * (va.toNat / 65536)) 0x4001 |>.wrWord (0x4000 + 4 * (va.toNat % 65536 / 4096)) 0x00123006) (s.rdy n.val
       [1] [7])) 0 0 tLive), 0, 0, 1, ((fun (va : BitVec 24) => 0x1000 + 4 * (va.toNat / 65536)) 0),
       ((fun (va : BitVec 24) => 0x4000 + 4 * (va.toNat % 65536 / 4096)) 0), by decide +kernel⟩⟩

theorem witness_DmaChannels :
    (∃ (s : State) (c : Fin 16), s.live = true ∧ s.gatedBit gDMA = false ∧ s.dmaState c.val ≠ dmaRUN ∧
        s.bit (Reg.XLT_DMA_CFG c.val) 2 = false ∧ s.fld (Reg.XLT_DMA_CFG c.val) 11 2 = 1 ∧
        s.fld (Reg.XLT_DMA_COUNT c.val) 0 16 ≠ 0) ∧
    (∃ (s : State) (c : Fin 16), s.live = true ∧ s.gatedBit gDMA = false ∧ s.dmaState c.val ≠ dmaRUN ∧
        s.bit (Reg.XLT_DMA_CFG c.val) 2 = true) ∧
    (∃ (s : State) (c : Fin 16), s.live = true ∧ s.gatedBit gDMA = false ∧ s.dmaState c.val ≠ dmaRUN ∧
        s.bit (Reg.XLT_DMA_CFG c.val) 2 = false ∧ s.fld (Reg.XLT_DMA_CFG c.val) 11 2 = 3) ∧
    (∃ (s : State) (c : Fin 16), s.live = true ∧ s.gatedBit gDMA = false ∧ s.dmaState c.val = dmaRUN) ∧
    (∃ (s : State) (c : Fin 16), s.live = true ∧ s.gatedBit gDMA = true) ∧
    (∃ (s : State) (c : Fin 16), s.live = true ∧ s.dmaState c.val ≠ dmaIDLE) ∧
    (∃ (s : State) (c : Fin 16), s.live = true ∧ s.dmaState c.val = dmaIDLE) ∧
    (∃ (s : State) (c : Fin 16), s.live = true ∧ (s.dmaState c.val = dmaFAULT ∨ s.dmaState c.val = dmaERR) ∧
        (s.ch c.val).fromMem = true ∧ (s.ch c.val).have_ = true ∧ s.fld (Reg.XLT_DMA_COUNT c.val) 0 16 ≠ 0) ∧
    (∃ (s : State) (c : Fin 16) (dev : BusRead) (a : Nat) (m : Nat), s.dmaRuns = true ∧ s.dmaState c.val = dmaRUN ∧
        (s.ch c.val).have_ = false ∧ s.bit (Reg.XLT_DMA_CFG c.val) 0 = true ∧
        a = (s.rd (Reg.XLT_DMA_LINK c.val)).toNat / 16 * 16 ∧ regionOf a = some (.scratch m) ∧
        W.fld (s.rdWord (a + 8)) 16 2 = 0 ∧ W.fld (s.rdWord (a + 8)) 0 16 ≠ 0) ∧
    (∃ (s : State) (c : Fin 16) (dev : BusRead) (again : BitVec 2) (req : BitVec 16) (ahead : Fin 34) (src : Nat) (dst : Nat)
        (m : Nat) (k : Nat), s.dmaRuns = true ∧ s.dmaState c.val = dmaRUN ∧ (s.ch c.val).have_ = true ∧
        s.dmaGrants c.val req = true ∧ (s.ch c.val).ahead = [] ∧ (s.ch c.val).esize = 2 ∧
        s.bit (Reg.XLT_DMA_CFG c.val) 0 = true ∧ s.bit (Reg.XLT_DMA_STATUS c.val) 6 = false ∧
        src = (s.rd (Reg.XLT_DMA_CURSRC c.val)).toNat ∧ dst = (s.rd (Reg.XLT_DMA_CURDST c.val)).toNat ∧ src % 2 = 0 ∧
        dst % 2 = 0 ∧ regionOf src = some (.scratch m) ∧ regionOf dst = some (.scratch k) ∧
        s.rd (Reg.XLT_DMA_RESID c.val) ≠ 1) ∧
    (∃ (s : State) (c : Fin 16) (dev : BusRead) (again : BitVec 2) (req : BitVec 16) (ahead : Fin 34) (src : Nat) (dst : Nat)
        (m : Nat) (k : Nat), s.dmaRuns = true ∧ s.dmaState c.val = dmaRUN ∧ (s.ch c.val).have_ = true ∧
        s.dmaGrants c.val req = true ∧ (s.ch c.val).ahead = [] ∧ (s.ch c.val).esize = 2 ∧ (s.ch c.val).last = true ∧
        s.bit (Reg.XLT_DMA_CFG c.val) 0 = true ∧ s.bit (Reg.XLT_DMA_STATUS c.val) 6 = false ∧
        src = (s.rd (Reg.XLT_DMA_CURSRC c.val)).toNat ∧ dst = (s.rd (Reg.XLT_DMA_CURDST c.val)).toNat ∧ src % 2 = 0 ∧
        dst % 2 = 0 ∧ regionOf src = some (.scratch m) ∧ regionOf dst = some (.scratch k) ∧
        s.rd (Reg.XLT_DMA_RESID c.val) = 1) ∧
    (∃ (s : State) (c : Fin 16) (dev : BusRead) (again : BitVec 2) (req : BitVec 16) (ahead : Fin 34) (src : Nat),
        s.dmaRuns = true ∧ s.dmaState c.val = dmaRUN ∧ (s.ch c.val).have_ = true ∧ s.dmaGrants c.val req = true ∧
        (s.ch c.val).ahead = [] ∧ s.bit (Reg.XLT_DMA_STATUS c.val) 6 = false ∧ src = (s.rd (Reg.XLT_DMA_CURSRC c.val)).toNat ∧
        src % (s.ch c.val).esize ≠ 0) ∧
    (∃ (s : State) (val : Word), s.live = true ∧ (∀ c : Fin 16, s.dmaState c.val ≠ dmaRUN ∧ (s.ch c.val).inv = [])) ∧
    (∃ (s : State) (val : Word) (c : Fin 16), s.live = true ∧ s.dmaState c.val = dmaRUN ∧ W.bit val 8 = false) ∧
    (∃ (s : State), s.live = true) :=
  ⟨⟨((fun (c : Fin 16) (s : State) =>
      s.setFld (Reg.XLT_DMA_STATUS c.val) 0 2 0 |>.setBit (Reg.XLT_DMA_CFG c.val) 2 false |>.setFld (Reg.XLT_DMA_CFG c.val) 11
      2 1 |>.setFld (Reg.XLT_DMA_COUNT c.val) 0 16 5) 0 tLive), 0, by decide +kernel⟩,
   ⟨((fun (c : Fin 16) (s : State) =>
       s.setFld (Reg.XLT_DMA_STATUS c.val) 0 2 2 |>.setBit (Reg.XLT_DMA_CFG c.val) 2 true) 0 tLive), 0, by decide +kernel⟩,
   ⟨((fun (c : Fin 16) (s : State) =>
       s.setFld (Reg.XLT_DMA_STATUS c.val) 0 2 0 |>.setBit (Reg.XLT_DMA_CFG c.val) 2 false |>.setFld (Reg.XLT_DMA_CFG c.val)
       11 2 3) 0 tLive), 0, by decide +kernel⟩,
   ⟨((fun (c : Fin 16) (s : State) => s.setFld (Reg.XLT_DMA_STATUS c.val) 0 2 1) 0 tLive), 0, by decide +kernel⟩,
   ⟨tTrim gDMA, 3, by decide +kernel⟩,
   ⟨((fun (c : Fin 16) (s : State) => s.setFld (Reg.XLT_DMA_STATUS c.val) 0 2 1) 0 tLive), 0, by decide +kernel⟩,
   ⟨((fun (c : Fin 16) (s : State) => s.setFld (Reg.XLT_DMA_STATUS c.val) 0 2 0) 0 tLive), 0, by decide +kernel⟩,
   ⟨((fun (c : Fin 16) (s : State) => (fun (s : State) =>
       s.setCh c.val { s.ch c.val with fromMem := true, have_ := true }) (s.setFld (Reg.XLT_DMA_STATUS c.val) 0 2 2 |>.setFld
       (Reg.XLT_DMA_COUNT c.val) 0 16 5)) 0 tLive), 0, by decide +kernel⟩,
   ⟨((fun (c : Fin 16) (a : Nat) (s : State) => (fun (s : State) =>
       s.setCh c.val { s.ch c.val with have_ := false }) (s.setFld (Reg.XLT_DMA_STATUS c.val) 0 2 1 |>.setBit (Reg.XLT_DMA_CFG
       c.val) 0 true |>.wr (Reg.XLT_DMA_LINK c.val) (BitVec.ofNat 32 (a + 3)) |>.wrWords a [0x1234, 0x5678, 0x000C0007,
       0x1117])) 0 ((fun (a : Nat) => 0x04010000 + a % 0x300 * 16) 0x04011000) tLive), 0, .busError,
       ((fun (a : Nat) => 0x04010000 + a % 0x300 * 16) 0x04011000), 1, by decide +kernel⟩,
   ⟨((fun (c : Fin 16) (ahead : Fin 34) (src : Nat) (dst : Nat) (s : State) => (fun (s : State) =>
       s.setCh c.val { s.ch c.val with have_ := true, ahead := [], esize := 2 }) (s.setFld (Reg.XLT_DMA_STATUS c.val) 0 2 1
       |>.setBit (Reg.XLT_DMA_STATUS c.val) 6 false |>.setBit (Reg.XLT_DMA_CFG c.val) 0 true |>.wr (Reg.XLT_DMA_CURSRC c.val)
       (BitVec.ofNat 32 src) |>.wr (Reg.XLT_DMA_CURDST c.val) (BitVec.ofNat 32 dst) |>.wrWords src [0x123456])) 0 0 ((fun (src
       : Nat) => 0x04010000 + src % 0x300 * 2) 0x04010100) ((fun (dst : Nat) =>
       0x04020000 + dst % 0x300 * 2) 0x04020102) tLive), 0, .busError, 0, 0, 0,
       ((fun (src : Nat) => 0x04010000 + src % 0x300 * 2) 0x04010100),
       ((fun (dst : Nat) => 0x04020000 + dst % 0x300 * 2) 0x04020102), 1, 2, by decide +kernel⟩,
   ⟨((fun (c : Fin 16) (ahead : Fin 34) (src : Nat) (dst : Nat) (s : State) => (fun (s : State) =>
       s.setCh c.val { s.ch c.val with have_ := true, ahead := [], esize := 2, last := true }) (s.setFld (Reg.XLT_DMA_STATUS
       c.val) 0 2 1 |>.setBit (Reg.XLT_DMA_STATUS c.val) 6 false |>.setBit (Reg.XLT_DMA_CFG c.val) 0 true |>.wr
       (Reg.XLT_DMA_CURSRC c.val) (BitVec.ofNat 32 src) |>.wr (Reg.XLT_DMA_CURDST c.val) (BitVec.ofNat 32 dst) |>.wr
       (Reg.XLT_DMA_RESID c.val) 1)) 0 0 ((fun (src : Nat) => 0x04010000 + src % 0x300 * 2) 0x04010100) ((fun (dst : Nat) =>
       0x04020000 + dst % 0x300 * 2) 0x04020102) tLive), 0, .busError, 0, 0, 0,
       ((fun (src : Nat) => 0x04010000 + src % 0x300 * 2) 0x04010100),
       ((fun (dst : Nat) => 0x04020000 + dst % 0x300 * 2) 0x04020102), 1, 2, by decide +kernel⟩,
   ⟨((fun (c : Fin 16) (ahead : Fin 34) (src : Nat) (s : State) => (fun (s : State) =>
       s.setCh c.val { s.ch c.val with have_ := true, ahead := [], esize := 2 }) (s.setFld (Reg.XLT_DMA_STATUS c.val) 0 2 1
       |>.setBit (Reg.XLT_DMA_STATUS c.val) 6 false |>.wr (Reg.XLT_DMA_CURSRC c.val) (BitVec.ofNat 32 src))) 0 0 ((fun (src :
       Nat) => 0x04010001 + src % 0x300 * 2) 0x04010101) tLive), 0, .busError, 0, 0, 0,
       ((fun (src : Nat) => 0x04010001 + src % 0x300 * 2) 0x04010101), by decide +kernel⟩,
   ⟨((fun (s : State) => (List.range 16).foldl (fun (s : State) k =>
       (s.setFld (Reg.XLT_DMA_STATUS k) 0 2 0).setCh k { s.ch k with inv := [] }) s) tLive), 0, by decide +kernel⟩,
   ⟨((fun (c : Fin 16) (s : State) => s.setFld (Reg.XLT_DMA_STATUS c.val) 0 2 1) 0 tLive),
       ((fun (val : Word) => val &&& 0xFFFFFEFF) 0), 0, by decide +kernel⟩,
   ⟨tLive, by decide +kernel⟩⟩

theorem witness_CoherenceEvents :
    (∃ (s : State) (n : Fin 4) (l : BitVec 16), s.live = true ∧ s.reqOut n.val = false ∧ s.lineBusy l.toNat = false ∧
        (∀ k : Fin 4, (s.line k.val l.toNat).st = .i) ∧ (∀ i : Fin 8, s.eccAt (32 * l.toNat + 4 * i.val) = 0)) ∧
    (∃ (s : State) (n : Fin 4) (k : Fin 4) (l : BitVec 16) (d : List Word), s.live = true ∧ s.reqOut n.val = false ∧
        s.reqOut k.val = false ∧ s.lineBusy l.toNat = false ∧ n ≠ k ∧ d.length = 8 ∧ s.line k.val l.toNat = ⟨.m, d, 0⟩ ∧
        (∀ j : Fin 4, j ≠ k → (s.line j.val l.toNat).st = .i)) ∧
    (∃ (s : State) (n : Fin 4) (l : BitVec 16), s.live = true ∧ s.reqOut n.val = false ∧ s.lineBusy l.toNat = false ∧
        (s.line n.val l.toNat).st = .s ∧ (∀ k : Fin 4, (s.line k.val l.toNat).st ≠ .m)) ∧
    (∃ (s : State) (n : Fin 4) (l : BitVec 16), s.live = true ∧ s.reqOut n.val = false ∧ (s.line n.val l.toNat).st = .i) ∧
    (∃ (s : State) (n : Fin 4) (l : BitVec 16), s.live = true ∧ s.reqOut n.val = false ∧ s.lineBusy l.toNat = true) ∧
    (∃ (s : State) (n : Fin 4) (l : BitVec 16), s.reqOut n.val = true) ∧
    (∃ (s : State) (n : Fin 4) (l : BitVec 16), s.coreRuns n.val = true ∧ s.mayFill n.val l.toNat = true ∧
        s.reqOut n.val = false ∧ s.lineBusy l.toNat = false ∧ s.owner l.toNat = none ∧
        (∀ i : Fin 8, s.eccAt (32 * l.toNat + 4 * i.val) = 0)) ∧
    (∃ (s : State) (n : Fin 4) (l : BitVec 16), s.live = true ∧ s.reqOut 4 = false ∧ s.lineBusy l.toNat = false ∧
        s.owner l.toNat = none ∧ (∀ i : Fin 8, s.eccAt (32 * l.toNat + 4 * i.val) = 0)) ∧
    (∃ (s : State) (p : Fin 7) (a : BitVec 21) (v : Word) (be : BitVec 4), s.live = true ∧ s.reqOut p.val = false ∧
        s.lineBusy (a.toNat / 32) = false ∧ s.eccAt a.toNat = 0 ∧ (∀ k : Fin 4, (s.line k.val (a.toNat / 32)).st ≠ .m)) ∧
    (∃ (s : State) (n : Fin 4) (op : AtomicOp) (a : BitVec 21) (x : Half) (cmp : Half), s.live = true ∧ a.toNat % 2 = 0 ∧
        s.reqOut n.val = false ∧ s.lineBusy (a.toNat / 32) = false ∧ s.eccAt a.toNat = 0 ∧
        (∀ k : Fin 4, (s.line k.val (a.toNat / 32)).st ≠ .m)) ∧
    (∃ (s : State) (p : Fin 7) (n : Fin 4) (l : BitVec 16) (q : List (Nat × CohReq)), s.live = true ∧
        s.lineBusy l.toNat = false ∧ s.coh.credits = (p.val, .upg n.val l.toNat) :: q ∧
        (∀ k : Fin 4, (s.line k.val l.toNat).st = .i) ∧ (∀ i : Fin 8, s.eccAt (32 * l.toNat + 4 * i.val) = 0)) ∧
    (∃ (s : State) (k : Fin 5), s.live = true ∧ s.fld Reg.XLT_LEDGER 16 3 < k.val) ∧
    (∃ (s : State) (k : Fin 5), s.live = true ∧ k.val ≤ s.fld Reg.XLT_LEDGER 16 3) ∧
    (∃ (s : State), s.live = true ∧ s.bit Reg.XLT_CTRL 0 = true ∧ s.ecc = []) ∧
    (∃ (s : State) (i : Fin 64), s.live = true ∧ s.bit Reg.XLT_CTRL 0 = true ∧
        s.ecc = [(256 * s.coh.scrubAt + 4 * i.val, 1)] ∧ (s.rd Reg.XLT_ECCTALLY).toNat < 255) ∧
    (∃ (s : State), s.live = true ∧ s.bit Reg.XLT_CTRL 1 = false) ∧
    (∃ (s : State) (src : Nat) (dst : Nat), s.live = true ∧ s.bit Reg.XLT_CTRL 1 = true ∧ s.fld Reg.XLT_MIRCFG 0 5 = 1 ∧
        (s.rd Reg.XLT_MIRSRC).toNat = src ∧ (s.rd Reg.XLT_MIRDST).toNat = dst ∧ src % 4 = 0 ∧ dst % 4 = 0 ∧ 0x03000000 ≤ src ∧
        src + 4096 ≤ 0x03080000 ∧ dst + 4096 ≤ 0x200000 ∧ s.ecc = [] ∧ s.coh.credits = [] ∧
        (∀ k : Fin 4, (s.core k.val).dcache = [])) :=
  ⟨⟨((fun (s : State) => { s with ecc := [], coh := {}, cores := [] }) tLive), 0, 0, by decide +kernel⟩,
   ⟨((fun (k : Fin 4) (l : BitVec 16) (d : List Word) (s : State) =>
       { s with coh := {}, cores := [(k.val, { dcache := [(l.toNat, ⟨.m, d, 0⟩)] })] }) 0 0 ((fun (d : List Word) =>
       (d ++ [1,2,3,4,5,6,7,8]).take 8) [1,2,3,4,5,6,7,8]) tLive),
       ((fun (n : Fin 4) (k : Fin 4) => (if n.val = k.val then n + 1 else n)) 1 0), 0, 0,
       ((fun (d : List Word) => (d ++ [1,2,3,4,5,6,7,8]).take 8) [1,2,3,4,5,6,7,8]), by decide +kernel⟩,
   ⟨((fun (n : Fin 4) (l : BitVec 16) (s : State) =>
       { s with coh := {}, cores := [(n.val, { dcache := [(l.toNat, ⟨.s, [1,2,3,4,5,6,7,8], 0⟩)] }), (n.val + 1, { dcache := [(l.toNat, ⟨.s, [1,2,3,4,5,6,7,8], 0⟩)] })] })
       0 0 tLive), 0, 0, by decide +kernel⟩,
   ⟨((fun (s : State) => { s with coh := {} }) tLive), 0, 0, by decide +kernel⟩,
   ⟨((fun (l : BitVec 16) (s : State) => { s with coh := { busy := [(l.toNat, ⟨5, 7⟩)] } }) 0 tLive), 0, 0,
       by decide +kernel⟩,
   ⟨((fun (n : Fin 4) (s : State) => { s with coh := { credits := [(n.val, .rds 1 2)] } }) 0 tLive), 0, 0, by decide +kernel⟩,
   ⟨((fun (n : Fin 4) (s : State) =>
       { (s.rdy n.val [1] []).wr (Reg.SYS_COREENTRY n.val) 0 with ecc := [], coh := {} }) 0 tLive), 0,
       ((fun (n : Fin 4) (s : State) =>
       BitVec.ofNat 16 ((s.fetchAddr n.val ((s.core n.val).at_ / 32 * 32)).getD 0 / 32)) 0 ((fun (n : Fin 4) (s : State) =>
       { (s.rdy n.val [1] []).wr (Reg.SYS_COREENTRY n.val) 0 with ecc := [], coh := {} }) 0 tLive)), by decide +kernel⟩,
   ⟨((fun (n : Fin 4) (l : BitVec 16) (s : State) =>
       { s with ecc := [], coh := {}, cores := [(n.val, { dcache := [(l.toNat, ⟨.s, [1,2,3,4,5,6,7,8], 0⟩)] })] }) 0 0 tLive),
       0, 0, by decide +kernel⟩,
   ⟨((fun (a : BitVec 21) (s : State) =>
       { s with ecc := [], coh := {}, cores := [(1, { dcache := [(a.toNat / 32, ⟨.s, [1,2,3,4,5,6,7,8], 0⟩)] })] }) 0 tLive),
       0, 0, 0, 0, by decide +kernel⟩,
   ⟨((fun (a : BitVec 21) (s : State) =>
       { s with ecc := [], coh := {}, cores := [(1, { dcache := [(a.toNat / 32, ⟨.s, [1,2,3,4,5,6,7,8], 0⟩)] })] }) ((fun (a :
       BitVec 21) => a &&& 0x1FFFFE) 0) tLive), 0, .xchg, ((fun (a : BitVec 21) => a &&& 0x1FFFFE) 0), 0,
       ((fun (a : BitVec 21) (cmp : Half) (s : State) =>
       if cmp.toNat % 2 = 0 then s.rdHalf a.toNat else cmp) ((fun (a : BitVec 21) => a &&& 0x1FFFFE) 0) 0 tLive),
       by decide +kernel⟩,
   ⟨((fun (p : Fin 7) (n : Fin 4) (l : BitVec 16) (q : List (Nat × CohReq)) (s : State) =>
       { s with ecc := [], cores := [], coh := { credits := (p.val, .upg n.val l.toNat) :: q } }) 0 0 0 [] tLive), 0, 0, 0,
       [], by decide +kernel⟩,
   ⟨((fun (s : State) => s.setFld Reg.XLT_LEDGER 16 3 0) tLive), 3, by decide +kernel⟩,
   ⟨((fun (s : State) => s.setFld Reg.XLT_LEDGER 16 3 4) tLive), 0, by decide +kernel⟩,
   ⟨((fun (s : State) => { s.setBit Reg.XLT_CTRL 0 true with ecc := [] }) tLive), by decide +kernel⟩,
   ⟨((fun (i : Fin 64) (s : State) =>
       { s.setBit Reg.XLT_CTRL 0 true |>.wr Reg.XLT_ECCTALLY 7 with ecc := [(256 * s.coh.scrubAt + 4 * i.val, 1)] }) 0 tLive),
       0, by decide +kernel⟩,
   ⟨((fun (s : State) => s.setBit Reg.XLT_CTRL 1 false) tLive), by decide +kernel⟩,
   ⟨((fun (src : Nat) (dst : Nat) (s : State) =>
       { (s.setBit Reg.XLT_CTRL 1 true |>.setFld Reg.XLT_MIRCFG 0 5 1 |>.wr Reg.XLT_MIRSRC (BitVec.ofNat 32 src) |>.wr Reg.XLT_MIRDST (BitVec.ofNat 32 dst)) with ecc := [], cores := [], coh := {} })
       ((fun (src : Nat) => 0x03000000 + src % 0x100 * 4) 0x03001004) ((fun (dst : Nat) => dst % 0x100 * 4) 0x2008) tLive),
       ((fun (src : Nat) => 0x03000000 + src % 0x100 * 4) 0x03001004), ((fun (dst : Nat) => dst % 0x100 * 4) 0x2008),
       by decide +kernel⟩⟩

theorem witness_CellPool :
    (∃ (s : State) (p : Fin 7) (q : Fin 64) (tag : Fin 64) (d : Half) (x : PoolQ), s.live = true ∧ s.poolTurn p.val = true ∧
        s.poolProof = false ∧ (s.pport p.val).fifo = [⟨q.val, tag.val, d⟩] ∧ s.qEn q.val = true ∧ s.qRelBusy q.val = false ∧
        s.qItemLen q.val = 1 ∧ s.pq q.val = x ∧ x.cells ≠ 0 ∧ x.tailPos < 7 ∧ s.qDepth q.val < 65535 ∧
        s.qDepth q.val + 1 ≠ max 1 (s.fld (Reg.POOL_QNOT q.val) 16 16)) ∧
    (∃ (s : State) (p : Fin 7) (q : Fin 64) (tag : Fin 64) (d : Half) (x : PoolQ), s.live = true ∧ s.poolTurn p.val = true ∧
        s.poolProof = false ∧ (s.pport p.val).fifo = [⟨q.val, tag.val, d⟩] ∧ s.qEn q.val = true ∧ s.qRelBusy q.val = false ∧
        s.qItemLen q.val = 1 ∧ s.pq q.val = x ∧ x.cells ≠ 0 ∧ x.tailPos < 7 ∧
        s.qDepth q.val + 1 = max 1 (s.fld (Reg.POOL_QNOT q.val) 16 16) ∧ s.qDepth q.val < 65535 ∧
        s.bit (Reg.POOL_QNOT q.val) 3 = true) ∧
    (∃ (s : State) (p : Fin 7) (q : Fin 64) (tag : Fin 64) (d : Half) (c : Nat), s.live = true ∧ s.poolTurn p.val = true ∧
        s.poolProof = false ∧ (s.pport p.val).fifo = [⟨q.val, tag.val, d⟩] ∧ s.qEn q.val = true ∧ s.qRelBusy q.val = false ∧
        s.qItemLen q.val = 1 ∧ (s.pq q.val).cells = 0 ∧ s.canGrant q.val 0 (s.fld Reg.POOL_FREE 0 14) = true ∧
        c = s.freeHead ∧ c < poolCells ∧ s.eccAt (cellAddr c 7) ≠ 2) ∧
    (∃ (s : State) (p : Fin 7) (q : Fin 64) (tag : Fin 64) (d : Half) (x : PoolQ), s.live = true ∧ s.poolTurn p.val = true ∧
        s.poolProof = false ∧ (s.pport p.val).fifo = [⟨q.val, tag.val, d⟩] ∧ s.qEn q.val = true ∧ s.qRelBusy q.val = false ∧
        s.qItemLen q.val = 1 ∧ s.roomFor q.val 1 = false ∧ s.bit (Reg.POOL_QCFG q.val) 1 = false ∧ s.pq q.val = x) ∧
    (∃ (s : State) (p : Fin 7) (q : Fin 64) (tag : Fin 64) (d : Half), s.live = true ∧ s.poolTurn p.val = true ∧
        s.poolProof = false ∧ (s.pport p.val).fifo = [⟨q.val, tag.val, d⟩] ∧ s.qEn q.val = true ∧ 1 < s.qItemLen q.val) ∧
    (∃ (s : State) (p : Fin 7) (q : Fin 64) (x : PoolQ), s.live = true ∧ s.poolTurn p.val = true ∧ s.poolProof = false ∧
        p.val ≠ 6 ∧ (s.pport p.val).req = some (q.val, 0) ∧ s.qEn q.val = true ∧ s.qRelBusy q.val = false ∧
        1 < s.qDepth q.val ∧ s.pq q.val = x ∧ x.headPos < 6 ∧ s.eccAt (cellAddr x.head x.headPos) = 0) ∧
    (∃ (s : State) (p : Fin 7) (q : Fin 64) (x : PoolQ), s.live = true ∧ s.poolTurn p.val = true ∧ s.poolProof = false ∧
        p.val ≠ 6 ∧ (s.pport p.val).req = some (q.val, 0) ∧ s.qEn q.val = true ∧ s.qRelBusy q.val = false ∧
        s.qDepth q.val = 1 ∧ s.pq q.val = x ∧ x.cells = 1 ∧ s.fld Reg.POOL_FREE 0 14 < 8192 ∧
        s.eccAt (cellAddr x.head x.headPos) = 0) ∧
    (∃ (s : State) (p : Fin 7) (q : Fin 64), s.live = true ∧ s.poolTurn p.val = true ∧ p.val ≠ 6 ∧
        (s.pport p.val).req = some (q.val, 0) ∧ (s.qDepth q.val = 0 ∨ s.qEn q.val = false)) ∧
    (∃ (s : State) (val : Word), s.hostReg Reg.POOL_HQPUSH = true ∧ (s.pport 6).fifo = [] ∧ s.portFlag 6 0 = (false, s)) ∧
    (∃ (s : State) (val : Word), s.hostReg Reg.POOL_HQPUSH = true ∧ 8 ≤ (s.pport 6).fifo.length) ∧
    (∃ (s : State) (q : Fin 64), s.linkServes = true ∧ s.memServed = true ∧ s.regServed .host (Reg.POOL_HPOP q.val) = true ∧
        (s.pport 6).fifo = [] ∧ (s.pport 6).req = none ∧ s.poolTurn 6 = true ∧ (s.qDepth q.val = 0 ∨ s.qEn q.val = false)) ∧
    (∃ (s : State) (q : Fin 64) (x : PoolQ), s.linkServes = true ∧ s.memServed = true ∧
        s.regServed .host (Reg.POOL_HPOP q.val) = true ∧ s.poolProof = false ∧ (s.pport 6).fifo = [] ∧
        (s.pport 6).req = none ∧ (s.pport 6).more = [] ∧ s.poolTurn 6 = true ∧ s.qEn q.val = true ∧ s.qRelBusy q.val = false ∧
        1 < s.qDepth q.val ∧ s.pq q.val = x ∧ x.headPos < 6 ∧ s.eccAt (cellAddr x.head x.headPos) = 0) ∧
    (∃ (s : State) (q : Fin 64) (val : Word), s.live = true ∧ s.bit (Reg.POOL_QCFG q.val) 0 = false ∧
        s.qRelBusy q.val = false ∧ W.bit val 0 = true ∧ s.fld Reg.POOL_RESSUM 0 14 + s.qReserve q.val ≤ 8192) ∧
    (∃ (s : State) (q : Fin 64) (val : Word), s.live = true ∧ s.bit (Reg.POOL_QCFG q.val) 0 = false ∧
        s.qRelBusy q.val = false ∧ W.bit val 0 = true ∧ 8192 < s.fld Reg.POOL_RESSUM 0 14 + s.qReserve q.val) ∧
    (∃ (s : State) (q : Fin 64) (val : Word), s.live = true ∧ s.bit (Reg.POOL_QCFG q.val) 0 = true ∧
        s.fld (Reg.POOL_QCFG q.val) 1 4 ≠ W.fld val 1 4) ∧
    (∃ (s : State) (q : Fin 64) (val : Word), s.live = true ∧ s.bit (Reg.POOL_QCFG q.val) 0 = true ∧
        s.fld (Reg.POOL_QCFG q.val) 1 4 = W.fld val 1 4 ∧ W.bit val 0 = false ∧ (s.pq q.val).cells ≠ 0) ∧
    (∃ (s : State) (q : Fin 64) (c : Nat), s.live = true ∧ s.poolTurn 7 = true ∧ s.qRelBusy q.val = true ∧
        s.fld Reg.POOL_FREE 0 14 < 8192 ∧ ownedFrom s.pool.owner q.val 0 poolCells = some c ∧
        ownedFrom s.pool.owner q.val (c + 1) (poolCells - (c + 1)) = none) ∧
    (∃ (s : State) (q : Fin 64) (c : Nat) (d : Nat), s.live = true ∧ s.poolTurn 7 = true ∧ s.qRelBusy q.val = true ∧
        ownedFrom s.pool.owner q.val 0 poolCells = some c ∧
        ownedFrom s.pool.owner q.val (c + 1) (poolCells - (c + 1)) = some d) ∧
    (∃ (s : State), s.live = true ∧ s.bit Reg.POOL_STATUS 0 = false) ∧
    (∃ (s : State), s.live = true ∧ s.bit Reg.POOL_STATUS 0 = true ∧ s.pool.owner.length ≤ poolCells) ∧
    (∃ (s : State), s.live = true ∧ s.poolTurn 7 = true ∧ s.bit Reg.POOL_CTRL 0 = true ∧ s.ecc = []) ∧
    (∃ (s : State) (i : Fin 8), s.live = true ∧ s.poolTurn 7 = true ∧ s.bit Reg.POOL_CTRL 0 = true ∧
        s.ecc = [(cellAddr s.pool.scrubAt i.val, 1)] ∧ (s.rd Reg.POOL_ECCTALLY).toNat < 255) ∧
    (∃ (s : State) (off : BitVec 18) (val : Word), s.live = true ∧ s.bit Reg.POOL_CTRL 1 = true) ∧
    (∃ (s : State) (off : BitVec 18) (val : Word), s.live = true ∧ s.bit Reg.POOL_CTRL 1 = false) ∧
    (∃ (s : State) (p : Fin 7), s.poolTurn p.val = false) ∧
    (∃ (s : State) (q : Fin 64), s.poolTurn 7 = false) :=
  ⟨⟨((fun (p : Fin 7) (q : Fin 64) (tag : Fin 64) (d : Half) (x : PoolQ) (s : State) => (fun (s : State) =>
      { s with pool := { s.pool with rr := (p.val + 7) % 8 } }) ((fun (s : State) =>
      ({ s with hif := { s.hif with proof := 0 } }.setPport p.val { s.pport p.val with fifo := [⟨q.val, tag.val, d⟩] }).setPq
      q.val x) (s.wr (Reg.POOL_QCFG q.val) 1 |>.wr (Reg.POOL_QSTAT q.val) 0x70007 |>.wr (Reg.POOL_QNOT q.val) 0))) 0 0 0 0
      (⟨3, 4, 2, 1, 5, 9⟩) tLive), 0, 0, 0, 0, (⟨3, 4, 2, 1, 5, 9⟩), by decide +kernel⟩,
   ⟨((fun (p : Fin 7) (q : Fin 64) (tag : Fin 64) (d : Half) (x : PoolQ) (s : State) => (fun (s : State) =>
       { s with pool := { s.pool with rr := (p.val + 7) % 8 } }) ((fun (s : State) =>
       ({ s with hif := { s.hif with proof := 0 } }.setPport p.val { s.pport p.val with fifo := [⟨q.val, tag.val, d⟩] }).setPq
       q.val x) (s.wr (Reg.POOL_QCFG q.val) 1 |>.wr (Reg.POOL_QSTAT q.val) 0x70007 |>.wr (Reg.POOL_QNOT q.val) 0x8000A))) 0 0
       0 0 (⟨3, 4, 2, 1, 5, 9⟩) tLive), 0, 0, 0, 0, (⟨3, 4, 2, 1, 5, 9⟩), by decide +kernel⟩,
   ⟨((fun (p : Fin 7) (q : Fin 64) (tag : Fin 64) (d : Half) (s : State) => (fun (s : State) =>
       { s with pool := { s.pool with rr := (p.val + 7) % 8 } }) ((fun (s : State) =>
       ({ s with hif := { s.hif with proof := 0 } }.setPport p.val { s.pport p.val with fifo := [⟨q.val, tag.val, d⟩] }).setPq
       q.val {}) (s.wr (Reg.POOL_QCFG q.val) 1 |>.wr (Reg.POOL_QLIM q.val) 0x50005 |>.wr Reg.POOL_FREE 100 |>.wr
       Reg.POOL_STATUS 0 |>.wr (Reg.POOL_QSTAT q.val) 0x70000))) 0 0 0 0 tLive), 0, 0, 0, 0,
       ((fun (s : State) => s.freeHead) tLive), by decide +kernel⟩,
   ⟨((fun (p : Fin 7) (q : Fin 64) (tag : Fin 64) (d : Half) (x : PoolQ) (s : State) => (fun (s : State) =>
       { s with pool := { s.pool with rr := (p.val + 7) % 8 } }) ((fun (s : State) =>
       ({ s with hif := { s.hif with proof := 0 } }.setPport p.val { s.pport p.val with fifo := [⟨q.val, tag.val, d⟩] }).setPq
       q.val x) (s.wr (Reg.POOL_QCFG q.val) 1 |>.wr (Reg.POOL_QLIM q.val) 2 |>.wr (Reg.POOL_QSTAT q.val) 0x7000D |>.wr
       (Reg.POOL_QNOT q.val) 0))) 0 0 0 0 (⟨3, 4, 2, 1, 7, 9⟩) tLive), 0, 0, 0, 0, (⟨3, 4, 2, 1, 7, 9⟩), by decide +kernel⟩,
   ⟨((fun (p : Fin 7) (q : Fin 64) (tag : Fin 64) (d : Half) (s : State) => (fun (s : State) =>
       ({ s with hif := { s.hif with proof := 0 } }.setPport p.val { s.pport p.val with fifo := [⟨q.val, tag.val, d⟩] }))
       (s.wr (Reg.POOL_QCFG q.val) 9)) 0 0 0 0 tLive), 0, 0, 0, 0, by decide +kernel⟩,
   ⟨((fun (p : Fin 7) (q : Fin 64) (x : PoolQ) (s : State) => (fun (s : State) =>
       { s with pool := { s.pool with rr := (p.val + 7) % 8 } }) ((fun (s : State) =>
       ({ s with ecc := [], hif := { s.hif with proof := 0 } }.setPport p.val
       { s.pport p.val with req := some (q.val, 0) }).setPq q.val x) (s.wr (Reg.POOL_QCFG q.val) 1 |>.wr (Reg.POOL_QSTAT
       q.val) 0x70007))) ((fun (p : Fin 7) => if p.val = 6 then 2 else p) 0) 0 (⟨3, 4, 2, 1, 5, 9⟩) tLive),
       ((fun (p : Fin 7) => if p.val = 6 then 2 else p) 0), 0, (⟨3, 4, 2, 1, 5, 9⟩), by decide +kernel⟩,
   ⟨((fun (p : Fin 7) (q : Fin 64) (x : PoolQ) (s : State) => (fun (s : State) =>
       { s with pool := { s.pool with rr := (p.val + 7) % 8 } }) ((fun (s : State) =>
       ({ s with ecc := [], hif := { s.hif with proof := 0 } }.setPport p.val
       { s.pport p.val with req := some (q.val, 0) }).setPq q.val x) (s.wr (Reg.POOL_QCFG q.val) 1 |>.wr (Reg.POOL_QSTAT
       q.val) 0x70001 |>.wr Reg.POOL_FREE 77))) ((fun (p : Fin 7) => if p.val = 6 then 2 else p) 0) 0 (⟨3, 3, 1, 1, 2,
       9⟩) tLive), ((fun (p : Fin 7) => if p.val = 6 then 2 else p) 0), 0, (⟨3, 3, 1, 1, 2, 9⟩), by decide +kernel⟩,
   ⟨((fun (p : Fin 7) (q : Fin 64) (s : State) => (fun (s : State) =>
       { s with pool := { s.pool with rr := (p.val + 7) % 8 } }) (s.setPport p.val
       { s.pport p.val with req := some (q.val, 0) } |>.wr (Reg.POOL_QSTAT q.val) 0x70000)) ((fun (p : Fin 7) =>
       if p.val = 6 then 2 else p) 0) 0 tLive), ((fun (p : Fin 7) => if p.val = 6 then 2 else p) 0), 0, by decide +kernel⟩,
   ⟨((fun (s : State) => s.setFld Reg.SYS_BOOTSTAT 0 4 1 |>.setPport 6 { s.pport 6 with fifo := [], freed := [] } |>.setBit
       Reg.HIF_LINKSTAT 0 true |>.cfgWr 1 0x00100006 |>.cfgWr 0x11 0) tLive), 0, by decide +kernel⟩,
   ⟨((fun (s : State) => s.setFld Reg.SYS_BOOTSTAT 0 4 1 |>.setPport 6 { s.pport 6 with fifo := List.replicate 8 ⟨1, 2, 3⟩ }
       |>.setBit Reg.HIF_LINKSTAT 0 true |>.cfgWr 1 0x00100006 |>.cfgWr 0x11 0) tLive), 0, by decide +kernel⟩,
   ⟨((fun (q : Fin 64) (s : State) => (fun (s : State) =>
       { s with pool := { s.pool with rr := (6 + 7) % 8 } }) (s.setPport 6 { s.pport 6 with fifo := [], req := none }
       |>.setBit Reg.HIF_LINKSTAT 0 true |>.cfgWr 1 0x00100006 |>.cfgWr 0x11 0 |>.setFld Reg.SYS_BOOTSTAT 0 4 1 |>.wr
       (Reg.POOL_QSTAT q.val) 0x70000)) 0 tLive), 0, by decide +kernel⟩,
   ⟨((fun (q : Fin 64) (x : PoolQ) (s : State) => (fun (s : State) =>
       { s with pool := { s.pool with rr := (6 + 7) % 8 } }) ((fun (s : State) =>
       ({ s with ecc := [], hif := { s.hif with proof := 0 } }.setPport 6
       { s.pport 6 with fifo := [], req := none, more := [] }).setPq q.val x) (s.wr (Reg.POOL_QCFG q.val) 1 |>.wr
       (Reg.POOL_QSTAT q.val) 0x70007 |>.setBit Reg.HIF_LINKSTAT 0 true |>.cfgWr 1 0x00100006 |>.cfgWr 0x11 0 |>.setFld
       Reg.SYS_BOOTSTAT 0 4 1))) 0 (⟨3, 4, 2, 1, 5, 9⟩) tLive), 0, (⟨3, 4, 2, 1, 5, 9⟩), by decide +kernel⟩,
   ⟨((fun (q : Fin 64) (s : State) =>
       s.wr (Reg.POOL_QCFG q.val) 0 |>.wr (Reg.POOL_QSTAT q.val) 0 |>.wr Reg.POOL_RESSUM 70 |>.wr (Reg.POOL_QLIM q.val)
       0x70008) 0 tLive), 0, ((fun (val : Word) => val ||| 1) 0), by decide +kernel⟩,
   ⟨((fun (q : Fin 64) (s : State) =>
       s.wr (Reg.POOL_QCFG q.val) 0 |>.wr (Reg.POOL_QSTAT q.val) 0 |>.wr Reg.POOL_RESSUM 0x1FFF |>.wr (Reg.POOL_QLIM q.val)
       0x70008) 0 tLive), 0, ((fun (val : Word) => val ||| 1) 0), by decide +kernel⟩,
   ⟨((fun (q : Fin 64) (s : State) => s.wr (Reg.POOL_QCFG q.val) 0x1F) 0 tLive), 0, 0, by decide +kernel⟩,
   ⟨((fun (q : Fin 64) (s : State) => s.setPq q.val ⟨3, 4, 2, 1, 5, 9⟩ |>.wr (Reg.POOL_QCFG q.val) 5) 0 tLive), 0,
       ((fun (val : Word) => val &&& 0xFFFFFFE0 ||| 4) 0), by decide +kernel⟩,
   ⟨((fun (q : Fin 64) (s : State) => (fun (s : State) =>
       { s with pool := { s.pool with rr := (7 + 7) % 8 } })
       ({ s with pool := { s.pool with owner := [(5, q.val + 1), (7, q.val + 2)] } }.wr (Reg.POOL_QSTAT q.val) 0x4000000 |>.wr
       Reg.POOL_FREE 77)) 0 tLive), 0, 5, by decide +kernel⟩,
   ⟨((fun (q : Fin 64) (s : State) => (fun (s : State) =>
       { s with pool := { s.pool with rr := (7 + 7) % 8 } })
       ({ s with pool := { s.pool with owner := [(5, q.val + 1), (7, q.val + 1)] } }.wr (Reg.POOL_QSTAT q.val) 0x4000000)) 0
       tLive), 0, 5, 7, by decide +kernel⟩,
   ⟨((fun (s : State) => s.setBit Reg.POOL_STATUS 0 false) tLive), by decide +kernel⟩,
   ⟨((fun (s : State) => s.setBit Reg.POOL_STATUS 0 true) tLive), by decide +kernel⟩,
   ⟨((fun (s : State) => (fun (s : State) =>
       { s with pool := { s.pool with rr := (7 + 7) % 8 } }) ({ s.setBit Reg.POOL_CTRL 0 true with ecc := [] })) tLive),
       by decide +kernel⟩,
   ⟨((fun (i : Fin 8) (s : State) => (fun (s : State) =>
       { s with pool := { s.pool with rr := (7 + 7) % 8 } })
       ({ s.setBit Reg.POOL_CTRL 0 true |>.wr Reg.POOL_ECCTALLY 7 with ecc := [(cellAddr s.pool.scrubAt i.val, 1)] })) 0
       tLive), 0, by decide +kernel⟩,
   ⟨((fun (s : State) => s.setBit Reg.POOL_CTRL 1 true) tLive), 0, 0, by decide +kernel⟩,
   ⟨((fun (s : State) => s.setBit Reg.POOL_CTRL 1 false) tLive), 0, 0, by decide +kernel⟩,
   ⟨((fun (s : State) => { s with pool := { s.pool with rr := 7 } } |> fun s =>
       s.setPport 0 { s.pport 0 with req := some (3, 0) }) tLive), 1, by decide +kernel⟩,
   ⟨((fun (s : State) => { s with pool := { s.pool with rr := 7 } } |> fun s =>
       s.setPport 0 { s.pport 0 with req := some (3, 0) }) tLive), 0, by decide +kernel⟩⟩

theorem witness_AdcEvents :
    (∃ (s : State) (val : Word) (n : Fin 4) (j : Fin 4), s.runs gADC = true ∧ W.bit val n.val = true ∧
        s.seqTakes n.val j.val 0x30 = true ∧ (s.ad n.val).fired = 0) ∧
    (∃ (s : State) (val : Word) (n : Fin 4), W.bit val n.val = false) ∧
    (∃ (s : State) (n : Fin 4) (j : Fin 4) (code : BitVec 7) (ready : Bool), s.runs gADC = true ∧
        (s.ad n.val).fired = 2 ^ j.val ∧ s.fld (Reg.ADC_SEQ n.val j.val) 0 7 = code.toNat ∧ (s.ad n.val).pend = 0 ∧
        (s.ad n.val).run = [] ∧ (s.ad n.val).late = 0 ∧ (s.ad n.val).step = none) ∧
    (∃ (s : State) (n : Fin 4) (j : Fin 4) (code : BitVec 7) (ready : Bool), s.runs gADC = true ∧
        (s.ad n.val).fired = 2 ^ j.val ∧ s.fld (Reg.ADC_SEQ n.val j.val) 0 7 = code.toNat ∧
        (s.ad n.val).pend.testBit j.val = true) ∧
    (∃ (s : State) (n : Fin 4) (j : Fin 4), s.runs gADC = true ∧ s.bit Reg.ADC_CTRL n.val = true ∧ (s.ad n.val).step = none ∧
        (s.ad n.val).pend = 2 ^ j.val ∧ (s.ad n.val).late = 0 ∧ (s.ad n.val).run = [] ∧ (s.ad n.val).coef = none ∧
        (s.ad n.val).last = none) ∧
    (∃ (s : State) (n : Fin 4) (j : Fin 4) (off : Word) (gain : Word), s.runs gADC = true ∧ s.bit Reg.ADC_CTRL n.val = true ∧
        (s.ad n.val).step = none ∧ (s.ad n.val).pend = 2 ^ j.val ∧ (s.ad n.val).late = 2 ^ j.val ∧ (s.ad n.val).run = [] ∧
        (s.ad n.val).coef = some (off, gain)) ∧
    (∃ (s : State) (n : Fin 4) (st : AdcStep), s.runs gADC = true ∧ s.bit Reg.ADC_CTRL n.val = true ∧
        (s.ad n.val).step = some st ∧ st.conv = false) ∧
    (∃ (s : State) (n : Fin 4) (code : BitVec 16) (st : AdcStep), s.runs gADC = true ∧ (s.ad n.val).step = some st ∧
        st.conv = true ∧ st.cnt + 1 < 2 ^ s.stepOvs n.val st.slot) ∧
    (∃ (s : State) (n : Fin 4) (j : Fin 4) (k : Fin 16) (code : BitVec 16), s.runs gADC = true ∧
        (s.ad n.val).step = some { seq := j.val, slot := k.val, conv := true } ∧ s.fld (Reg.ADC_STEP n.val k.val) 4 7 = 0x20 ∧
        (s.ad n.val).fifo.length < 15 ∧ (s.ad n.val).fifo.length + 1 ≠ s.adcThresh n.val ∧ tget 0 (s.ad n.val).run j.val = 1 ∧
        0 < s.fld (Reg.ADC_SEQ n.val j.val) 12 4) ∧
    (∃ (s : State) (n : Fin 4) (j : Fin 4) (k : Fin 16) (code : BitVec 16), s.runs gADC = true ∧
        (s.ad n.val).step = some { seq := j.val, slot := k.val, sum := 1000, cnt := 1, late := true, conv := true } ∧
        s.fld (Reg.ADC_STEP n.val k.val) 4 7 = 0x21 ∧ (s.ad n.val).fifo.length < 16 ∧
        (s.ad n.val).fifo.length + 1 = s.adcThresh n.val ∧
        tget 0 (s.ad n.val).run j.val = s.fld (Reg.ADC_SEQ n.val j.val) 12 4 + 1) ∧
    (∃ (s : State) (n : Fin 4) (j : Fin 4) (k : Fin 16) (code : BitVec 16), s.runs gADC = true ∧
        (s.ad n.val).step = some { seq := j.val, slot := k.val, conv := true } ∧ s.fld (Reg.ADC_STEP n.val k.val) 4 7 = 0x20 ∧
        (s.ad n.val).fifo.length = 16) ∧
    (∃ (s : State) (n : Fin 4) (j : Fin 4) (k : Fin 16) (code : BitVec 16), s.runs gADC = true ∧
        (s.ad n.val).step = some { seq := j.val, slot := k.val, conv := true } ∧
        s.fld (Reg.ADC_STEP n.val k.val) 4 7 = 0x08) ∧
    (∃ (s : State) (n : Fin 4), s.linkServes = true ∧ s.memServed = true ∧ s.regServed .host (Reg.ADC_FIFO n.val) = true) ∧
    (∃ (s : State) (n : Fin 4) (c : AdcCal) (off : Word) (gain : Word), s.runs gADC = true ∧ (s.ad n.val).cal = some c ∧
        c.steps = 511 ∧ (s.ad n.val).step = none ∧ s.hif.cmd = none) ∧
    (∃ (s : State) (n : Fin 4) (c : AdcCal) (off : Word) (gain : Word), s.runs gADC = true ∧ (s.ad n.val).cal = some c ∧
        c.windows = 4095 ∧ c.steps < 511 ∧ s.bit Reg.ADC_CTRL n.val = true ∧ (s.ad n.val).step = none ∧
        (s.ad n.val).pend ≠ 0 ∧ (s.ad n.val).pend < 16 ∧ s.hif.cmd = none) ∧
    (∃ (s : State) (n : Fin 4) (c : AdcCal) (aborted : Bool) (off : Word) (gain : Word), s.runs gADC = true ∧
        (s.ad n.val).cal = some c ∧ c.windows < 4095 ∧ c.steps < 511 ∧ (s.ad n.val).step = none ∧
        (aborted = false ∨ s.adcSampleDue n.val = false)) ∧
    (∃ (s : State) (n : Fin 4) (j : Fin 4) (c : AdcCal) (off : Word) (gain : Word), s.runs gADC = true ∧
        (s.ad n.val).cal = some c ∧ c.windows < 4095 ∧ c.steps < 511 ∧ s.bit Reg.ADC_CTRL n.val = true ∧
        (s.ad n.val).step = none ∧ (s.ad n.val).pend = 2 ^ j.val ∧ (s.ad n.val).late = 0 ∧ (s.ad n.val).run = [] ∧
        (s.ad n.val).coef = none ∧ (s.ad n.val).last = none) ∧
    (∃ (s : State) (val : Word) (n : Fin 4), s.live = true ∧ s.gatedBit gADC = false ∧ W.bit val n.val = true ∧
        (s.ad n.val).proof = none) ∧
    (∃ (s : State) (val : Word), s.live = true ∧ s.gatedBit gADC = true ∧ W.fld val 0 4 ≠ 0) ∧
    (∃ (s : State) (n : Fin 4) (code : BitVec 16) (p : AdcProof), s.runs gADC = true ∧ (s.ad n.val).cal = none ∧
        (s.ad n.val).proof = some p ∧ (s.ad n.val).step = none ∧ p.made = 127) ∧
    (∃ (s : State) (n : Fin 4) (code : BitVec 16) (p : AdcProof), s.runs gADC = true ∧ (s.ad n.val).cal = none ∧
        (s.ad n.val).proof = some p ∧ (s.ad n.val).step = none ∧ p.made < 64 ∧ p.windows < 4095) ∧
    (∃ (s : State) (n : Fin 4) (p : AdcProof), s.runs gADC = true ∧ (s.ad n.val).cal = none ∧ (s.ad n.val).proof = some p ∧
        s.bit Reg.ADC_CTRL n.val = true ∧ (s.ad n.val).step = none ∧ (s.ad n.val).pend ≠ 0 ∧ (s.ad n.val).pend < 16 ∧
        p.made < 128 ∧ p.windows = 4095) :=
  ⟨⟨((fun (n : Fin 4) (j : Fin 4) (s : State) =>
      s.setBit Reg.ADC_CTRL n.val true |>.wr (Reg.ADC_SEQ n.val j.val) 0x80000030 |>.setAd n.val
      { s.ad n.val with fired := 0 }) 0 0 tLive), ((fun (val : Word) (n : Fin 4) => val ||| BitVec.ofNat 32 (2 ^ n.val)) 0 0),
      0, 0, by decide +kernel⟩,
   ⟨tLive, ((fun (val : Word) (n : Fin 4) => val &&& BitVec.ofNat 32 (0xFFFFFFFF - 2 ^ n.val)) 0 0), 0, by decide +kernel⟩,
   ⟨((fun (n : Fin 4) (j : Fin 4) (s : State) =>
       s.setAd n.val { s.ad n.val with fired := 2 ^ j.val, pend := 0, run := [], late := 0, step := none }) 0 0 tLive), 0, 0,
       ((fun (n : Fin 4) (j : Fin 4) (s : State) => BitVec.ofNat 7 (s.fld (Reg.ADC_SEQ n.val j.val) 0 7)) 0 0 tLive), true,
       by decide +kernel⟩,
   ⟨((fun (n : Fin 4) (j : Fin 4) (s : State) => s.setAd n.val { s.ad n.val with fired := 2 ^ j.val, pend := 15 }) 0 0 tLive),
       0, 0, ((fun (n : Fin 4) (j : Fin 4) (s : State) => BitVec.ofNat 7 (s.fld (Reg.ADC_SEQ n.val j.val) 0 7)) 0 0 tLive),
       true, by decide +kernel⟩,
   ⟨((fun (n : Fin 4) (j : Fin 4) (s : State) =>
       s.setBit Reg.ADC_CTRL n.val true |>.setAd n.val
       { s.ad n.val with pend := 2 ^ j.val, run := [], late := 0, step := none, coef := none, last := none }) 0 0 tLive), 0,
       0, by decide +kernel⟩,
   ⟨((fun (n : Fin 4) (j : Fin 4) (off : Word) (gain : Word) (s : State) =>
       s.setBit Reg.ADC_CTRL n.val true |>.setAd n.val
       { s.ad n.val with pend := 2 ^ j.val, run := [], late := 2 ^ j.val, step := none, coef := some (off, gain) }) 0 0 0 0
       tLive), 0, 0, 0, 0, by decide +kernel⟩,
   ⟨((fun (n : Fin 4) (st : AdcStep) (s : State) =>
       s.setBit Reg.ADC_CTRL n.val true |>.setAd n.val { s.ad n.val with step := some st }) 0 ((fun (st : AdcStep) =>
       { st with conv := false }) { seq := 1, slot := 2 }) tLive), 0,
       ((fun (st : AdcStep) => { st with conv := false }) { seq := 1, slot := 2 }), by decide +kernel⟩,
   ⟨((fun (n : Fin 4) (st : AdcStep) (s : State) =>
       s.wr (Reg.ADC_STEP n.val st.slot) 0x20 |>.setAd n.val { s.ad n.val with step := some st }) 0 ((fun (st : AdcStep) =>
       { st with conv := true, cnt := st.cnt % 3, slot := st.slot % 16 }) { seq := 1, slot := 2, conv := true }) tLive), 0, 0,
       ((fun (st : AdcStep) => { st with conv := true, cnt := st.cnt % 3, slot := st.slot % 16 })
       { seq := 1, slot := 2, conv := true }), by decide +kernel⟩,
   ⟨((fun (n : Fin 4) (j : Fin 4) (k : Fin 16) (s : State) =>
       s.wr (Reg.ADC_STEP n.val k.val) 0x207 |>.wr (Reg.ADC_SEQ n.val j.val) 0x3005 |>.wr (Reg.ADC_FIFOCFG n.val) 0 |>.setAd
       n.val { s.ad n.val with step := some { seq := j.val, slot := k.val, conv := true }, fifo := [1, 2], run := [(j.val, 1)] })
       0 0 0 tLive), 0, 0, 0, 0, by decide +kernel⟩,
   ⟨((fun (n : Fin 4) (j : Fin 4) (k : Fin 16) (s : State) =>
       s.wr (Reg.ADC_STEP n.val k.val) 0x217 |>.wr (Reg.ADC_SEQ n.val j.val) 0x3005 |>.wr (Reg.ADC_FIFOCFG n.val) 3 |>.setAd
       n.val { s.ad n.val with step := some { seq := j.val, slot := k.val, sum := 1000, cnt := 1, late := true, conv := true }, fifo := [1, 2], run := [(j.val, 4)] })
       0 0 0 tLive), 0, 0, 0, 0, by decide +kernel⟩,
   ⟨((fun (n : Fin 4) (j : Fin 4) (k : Fin 16) (s : State) =>
       s.wr (Reg.ADC_STEP n.val k.val) 0x207 |>.setAd n.val
       { s.ad n.val with step := some { seq := j.val, slot := k.val, conv := true }, fifo := List.replicate 16 7 }) 0 0 0
       tLive), 0, 0, 0, 0, by decide +kernel⟩,
   ⟨((fun (n : Fin 4) (j : Fin 4) (k : Fin 16) (s : State) =>
       s.wr (Reg.ADC_STEP n.val k.val) 0x1a120087 |>.setAd n.val
       { s.ad n.val with step := some { seq := j.val, slot := k.val, conv := true } }) 0 0 0 tLive), 0, 0, 0, 0,
       by decide +kernel⟩,
   ⟨((fun (s : State) => s.setBit Reg.HIF_LINKSTAT 0 true |>.cfgWr 1 0x00100006 |>.cfgWr 0x11 0 |>.setFld Reg.SYS_BOOTSTAT 0 4
       1) tLive), 0, by decide +kernel⟩,
   ⟨((fun (n : Fin 4) (c : AdcCal) (s : State) =>
       { s.setAd n.val { s.ad n.val with cal := some c, step := none } with hif := { s.hif with cmd := none } }) 0 ((fun (c :
       AdcCal) => { c with steps := 511 }) {}) tLive), 0, ((fun (c : AdcCal) => { c with steps := 511 }) {}), 0, 0,
       by decide +kernel⟩,
   ⟨((fun (n : Fin 4) (c : AdcCal) (s : State) =>
       { (s.setBit Reg.ADC_CTRL n.val true).setAd n.val { s.ad n.val with cal := some c, step := none, pend := 5 } with hif := { s.hif with cmd := none } })
       0 ((fun (c : AdcCal) => { c with steps := c.steps % 512, windows := 4095 }) {}) tLive), 0,
       ((fun (c : AdcCal) => { c with steps := c.steps % 512, windows := 4095 }) {}), 0, 0, by decide +kernel⟩,
   ⟨((fun (n : Fin 4) (c : AdcCal) (s : State) =>
       s.setAd n.val { s.ad n.val with cal := some c, step := none }) 0 ((fun (c : AdcCal) =>
       { c with steps := c.steps % 511, windows := c.windows % 4095 }) {}) tLive), 0,
       ((fun (c : AdcCal) => { c with steps := c.steps % 511, windows := c.windows % 4095 }) {}), true, 0, 0,
       by decide +kernel⟩,
   ⟨((fun (n : Fin 4) (j : Fin 4) (c : AdcCal) (s : State) =>
       (s.setBit Reg.ADC_CTRL n.val true).setAd n.val
       { s.ad n.val with cal := some c, pend := 2 ^ j.val, run := [], late := 0, step := none, coef := none, last := none }) 0
       0 ((fun (c : AdcCal) => { c with steps := c.steps % 511, windows := c.windows % 4095 }) {}) tLive), 0, 0,
       ((fun (c : AdcCal) => { c with steps := c.steps % 511, windows := c.windows % 4095 }) {}), 0, 0, by decide +kernel⟩,
   ⟨((fun (n : Fin 4) (s : State) => s.setAd n.val { s.ad n.val with proof := none }) 0 tLive),
       ((fun (val : Word) (n : Fin 4) => val ||| BitVec.ofNat 32 (2 ^ n.val)) 0 0), 0, by decide +kernel⟩,
   ⟨tTrim gADC, 1, by decide +kernel⟩,
   ⟨((fun (n : Fin 4) (p : AdcProof) (s : State) =>
       s.setAd n.val { s.ad n.val with cal := none, step := none, proof := some p }) 0 ((fun (p : AdcProof) =>
       { p with made := 127 }) {}) tLive), 0, 0, ((fun (p : AdcProof) => { p with made := 127 }) {}), by decide +kernel⟩,
   ⟨((fun (n : Fin 4) (p : AdcProof) (s : State) =>
       s.setAd n.val { s.ad n.val with cal := none, step := none, proof := some p }) 0 ((fun (p : AdcProof) =>
       { p with made := p.made % 64, windows := p.windows % 4095 }) {}) tLive), 0, 0,
       ((fun (p : AdcProof) => { p with made := p.made % 64, windows := p.windows % 4095 }) {}), by decide +kernel⟩,
   ⟨((fun (n : Fin 4) (p : AdcProof) (s : State) =>
       (s.setBit Reg.ADC_CTRL n.val true).setAd n.val
       { s.ad n.val with cal := none, step := none, pend := 5, proof := some p }) 0 ((fun (p : AdcProof) =>
       { p with made := p.made % 128, windows := 4095 }) {}) tLive), 0,
       ((fun (p : AdcProof) => { p with made := p.made % 128, windows := 4095 }) {}), by decide +kernel⟩⟩

theorem witness_FilterAndComparatorEvents :
    (∃ (s : State) (n : Fin 8) (clocks : Nat) (bits : List Bool) (sum : Int) (v : Int), s.runs gSDF = true ∧
        s.bit (Reg.SDF_SDCFG n.val) 0 = true ∧ clocks = (s.sdu n.val).base + s.fld (Reg.SDF_SDFILT n.val) 0 9 ∧
        sum = sinc3 (s.fld (Reg.SDF_SDFILT n.val) 0 9) bits ∧ v = sum / 2 ^ s.fld (Reg.SDF_SDFILT n.val) 9 4 ∧
        s.fld (Reg.SDF_SDROUTE n.val) 7 4 = 0) ∧
    (∃ (s : State) (n : Fin 8) (clocks : Nat) (bits : List Bool) (v : Half), s.runs gSDF = true ∧
        s.bit (Reg.SDF_SDCFG n.val) 0 = true ∧ clocks = (s.sdu n.val).base + s.fld (Reg.SDF_SDFILT n.val) 0 9 ∧
        s.fld (Reg.SDF_SDFILT n.val) 9 4 = 0 ∧ s.fld (Reg.SDF_SDROUTE n.val) 7 4 = 1 ∧
        sinc3 (s.fld (Reg.SDF_SDFILT n.val) 0 9) bits = v.toInt) ∧
    (∃ (s : State) (n : Fin 8) (clocks : Nat) (bits : List Bool),
        clocks ≠ (s.sdu n.val).base + s.fld (Reg.SDF_SDFILT n.val) 0 9) ∧
    (∃ (s : State) (n : Fin 8) (clocks : Nat), s.runs gSDF = true ∧ (s.sdu n.val).fired = true) ∧
    (∃ (s : State) (n : Fin 8) (val : Word), s.runs gSDF = true ∧ s.bit (Reg.SDF_SDCFG n.val) 0 = true ∧
        s.fld (Reg.SDF_SDCFG n.val) 8 7 = 0x30 ∧ W.bit val n.val = true) ∧
    (∃ (s : State) (n : Fin 8) (val : Word), W.bit val n.val = false) ∧
    (∃ (s : State) (n : Fin 8) (bits : List Bool) (sum : Int), s.runs gSDF = true ∧ s.bit (Reg.SDF_SDCFG n.val) 0 = true ∧
        sum = ((bits.drop (bits.length - (s.fld (Reg.SDF_SDFILT n.val) 16 5 + 1))).map fun b => if b then 1 else -1).sum) ∧
    (∃ (s : State) (n : Fin 8), s.runs gSDF = true ∧ s.bit (Reg.SDF_SDCFG n.val) 0 = true ∧
        s.bit (Reg.SDF_SDCFG n.val) 1 = false) ∧
    (∃ (s : State) (n : Fin 8) (b : Bool) (k : Nat) (bits : List Bool), s.runs gSDF = true ∧
        s.bit (Reg.SDF_SDCFG n.val) 0 = true ∧ k = s.fld (Reg.SDF_SDCFG n.val) 16 8 ∧ k ≠ 0) ∧
    (∃ (s : State) (k : Fin 16) (code : BitVec 10) (edges : BitVec 4), s.cmpWorks = true ∧
        s.bit (Reg.CMP_CMP_CFG k.val) 0 = true ∧ s.bit (Reg.CMP_CMP_CFG k.val) 2 = false ∧
        s.fld (Reg.CMP_CMP_THR k.val) 0 10 < code.toNat ∧ s.cmpu k.val = {} ∧
        s.fld (Reg.CMP_CMP_CFG k.val) 8 4 ≤ edges.toNat) ∧
    (∃ (s : State) (k : Fin 16) (code : BitVec 10) (edges : BitVec 4), s.cmpWorks = true ∧
        s.bit (Reg.CMP_CMP_CFG k.val) 0 = true ∧ s.bit (Reg.CMP_CMP_CFG k.val) 2 = true ∧
        code.toNat < s.fld (Reg.CMP_CMP_THR k.val) 0 10 ∧
        ((s.cmpu k.val).blank = true ∨ edges.toNat < s.fld (Reg.CMP_CMP_CFG k.val) 8 4) ∧ (s.cmpu k.val).line = false ∧
        s.clk.rootLost = false) ∧
    (∃ (s : State) (k : Fin 16) (code : BitVec 10) (edges : BitVec 4), s.cmpWorks = true ∧
        s.bit (Reg.CMP_CMP_CFG k.val) 0 = true ∧ s.bit (Reg.CMP_CMP_CFG k.val) 2 = false ∧
        code.toNat + 2 * s.fld (Reg.CMP_CMP_CFG k.val) 3 3 < s.fld (Reg.CMP_CMP_THR k.val) 0 10) ∧
    (∃ (s : State) (k : Fin 16) (code : BitVec 10) (edges : BitVec 4), s.cmpWorks = true ∧
        s.bit (Reg.CMP_CMP_CFG k.val) 0 = true ∧ s.bit (Reg.CMP_CMP_CFG k.val) 2 = false ∧
        code.toNat ≤ s.fld (Reg.CMP_CMP_THR k.val) 0 10 ∧
        s.fld (Reg.CMP_CMP_THR k.val) 0 10 ≤ code.toNat + 2 * s.fld (Reg.CMP_CMP_CFG k.val) 3 3) ∧
    (∃ (s : State) (k : Fin 16), s.cmpWorks = true ∧ (s.cmpu k.val).blank = true ∧ s.bit (Reg.CMP_CMP_CFG k.val) 0 = true ∧
        s.bit Reg.CMP_STATUS k.val = true) ∧
    (∃ (s : State) (k : Fin 16), s.cmpWorks = true ∧ (s.cmpu k.val).blank = true ∧ s.bit Reg.CMP_STATUS k.val = false) ∧
    (∃ (s : State) (k : Fin 16) (val : Word), s.live = true) ∧
    (∃ (s : State) (k : Fin 16) (val : Word) (follows : BitVec 16), s.live = true ∧ s.gatedBit gCMP = false ∧
        W.bit val k.val = true ∧ s.bit (Reg.CMP_CMP_CFG k.val) 0 = false) ∧
    (∃ (s : State) (k : Fin 16) (val : Word) (follows : BitVec 16), s.live = true ∧ s.gatedBit gCMP = false ∧
        W.bit val k.val = true ∧ s.bit (Reg.CMP_CMP_CFG k.val) 0 = true) ∧
    (∃ (s : State) (val : Word) (follows : BitVec 16), s.live = true ∧ s.gatedBit gCMP = true ∧ W.fld val 0 16 ≠ 0) :=
  ⟨⟨((fun (n : Fin 8) (s : State) =>
      s.setFld (Reg.SDF_SDFILT n.val) 0 9 (if n.val % 2 = 0 then 128 else 7) |>.setBit (Reg.SDF_SDCFG n.val) 0 true |>.setFld
      (Reg.SDF_SDROUTE n.val) 7 4 0) 0 tLive), 0,
      ((fun (n : Fin 8) (s : State) =>
      (s.sdu n.val).base + s.fld (Reg.SDF_SDFILT n.val) 0 9) 0 ((fun (n : Fin 8) (s : State) =>
      s.setFld (Reg.SDF_SDFILT n.val) 0 9 (if n.val % 2 = 0 then 128 else 7) |>.setBit (Reg.SDF_SDCFG n.val) 0 true |>.setFld
      (Reg.SDF_SDROUTE n.val) 7 4 0) 0 tLive)),
      ((fun (n : Fin 8) (bits : List Bool) => (if n.val % 2 = 0 then List.replicate 400 true else bits)) 0 []),
      ((fun (n : Fin 8) (bits : List Bool) (s : State) =>
      sinc3 (s.fld (Reg.SDF_SDFILT n.val) 0 9) bits) 0 ((fun (n : Fin 8) (bits : List Bool) =>
      (if n.val % 2 = 0 then List.replicate 400 true else bits)) 0 []) ((fun (n : Fin 8) (s : State) =>
      s.setFld (Reg.SDF_SDFILT n.val) 0 9 (if n.val % 2 = 0 then 128 else 7) |>.setBit (Reg.SDF_SDCFG n.val) 0 true |>.setFld
      (Reg.SDF_SDROUTE n.val) 7 4 0) 0 tLive)),
      ((fun (n : Fin 8) (sum : Int) (s : State) =>
      sum / 2 ^ s.fld (Reg.SDF_SDFILT n.val) 9 4) 0 ((fun (n : Fin 8) (bits : List Bool) (s : State) =>
      sinc3 (s.fld (Reg.SDF_SDFILT n.val) 0 9) bits) 0 ((fun (n : Fin 8) (bits : List Bool) =>
      (if n.val % 2 = 0 then List.replicate 400 true else bits)) 0 []) ((fun (n : Fin 8) (s : State) =>
      s.setFld (Reg.SDF_SDFILT n.val) 0 9 (if n.val % 2 = 0 then 128 else 7) |>.setBit (Reg.SDF_SDCFG n.val) 0 true |>.setFld
      (Reg.SDF_SDROUTE n.val) 7 4 0) 0 tLive)) ((fun (n : Fin 8) (s : State) =>
      s.setFld (Reg.SDF_SDFILT n.val) 0 9 (if n.val % 2 = 0 then 128 else 7) |>.setBit (Reg.SDF_SDCFG n.val) 0 true |>.setFld
      (Reg.SDF_SDROUTE n.val) 7 4 0) 0 tLive)), by decide +kernel⟩,
   ⟨((fun (n : Fin 8) (s : State) =>
       s.setFld (Reg.SDF_SDFILT n.val) 0 9 7 |>.setBit (Reg.SDF_SDCFG n.val) 0 true |>.setFld (Reg.SDF_SDROUTE n.val) 7 4 1
       |>.setFld (Reg.SDF_SDFILT n.val) 9 4 0) 0 tLive), 0,
       ((fun (n : Fin 8) (s : State) =>
       (s.sdu n.val).base + s.fld (Reg.SDF_SDFILT n.val) 0 9) 0 ((fun (n : Fin 8) (s : State) =>
       s.setFld (Reg.SDF_SDFILT n.val) 0 9 7 |>.setBit (Reg.SDF_SDCFG n.val) 0 true |>.setFld (Reg.SDF_SDROUTE n.val) 7 4 1
       |>.setFld (Reg.SDF_SDFILT n.val) 9 4 0) 0 tLive)), [],
       ((fun (n : Fin 8) (bits : List Bool) (s : State) =>
       BitVec.ofInt 16 (sinc3 (s.fld (Reg.SDF_SDFILT n.val) 0 9) bits)) 0 [] ((fun (n : Fin 8) (s : State) =>
       s.setFld (Reg.SDF_SDFILT n.val) 0 9 7 |>.setBit (Reg.SDF_SDCFG n.val) 0 true |>.setFld (Reg.SDF_SDROUTE n.val) 7 4 1
       |>.setFld (Reg.SDF_SDFILT n.val) 9 4 0) 0 tLive)), by decide +kernel⟩,
   ⟨tLive, 0, 1, [], by decide +kernel⟩,
   ⟨((fun (n : Fin 8) (s : State) => s.setSd n.val { s.sdu n.val with fired := true }) 0 tLive), 0, 0, by decide +kernel⟩,
   ⟨((fun (n : Fin 8) (s : State) => s.wr (Reg.SDF_SDCFG n.val) 0x3001) 0 tLive), 0,
       ((fun (n : Fin 8) (val : Word) => val ||| BitVec.ofNat 32 (2 ^ n.val)) 0 0), by decide +kernel⟩,
   ⟨tLive, 0, ((fun (n : Fin 8) (val : Word) => val &&& BitVec.ofNat 32 (0xFFFFFFFF - 2 ^ n.val)) 0 0), by decide +kernel⟩,
   ⟨((fun (n : Fin 8) (s : State) => s.setBit (Reg.SDF_SDCFG n.val) 0 true) 0 tLive), 0, [],
       ((fun (n : Fin 8) (bits : List Bool) (s : State) =>
       ((bits.drop (bits.length - (s.fld (Reg.SDF_SDFILT n.val) 16 5 + 1))).map fun b =>
       if b then 1 else -1).sum) 0 [] ((fun (n : Fin 8) (s : State) => s.setBit (Reg.SDF_SDCFG n.val) 0 true) 0 tLive)),
       by decide +kernel⟩,
   ⟨((fun (n : Fin 8) (s : State) => s.wr (Reg.SDF_SDCFG n.val) 0x3001) 0 tLive), 0, by decide +kernel⟩,
   ⟨((fun (n : Fin 8) (s : State) => s.wr (Reg.SDF_SDCFG n.val) 0x73001) 0 tLive), 0, true,
       ((fun (n : Fin 8) (s : State) => s.fld (Reg.SDF_SDCFG n.val) 16 8) 0 ((fun (n : Fin 8) (s : State) =>
       s.wr (Reg.SDF_SDCFG n.val) 0x73001) 0 tLive)), [], by decide +kernel⟩,
   ⟨((fun (k : Fin 16) (s : State) =>
       s.wr (Reg.CMP_CMP_CFG k.val) 1 |>.wr (Reg.CMP_CMP_THR k.val) 0x1FF |>.setCmp k.val {}) 0 tLive), 0,
       ((fun (code : BitVec 10) => code ||| 0x200) 0), 0, by decide +kernel⟩,
   ⟨((fun (k : Fin 16) (s : State) =>
       { s.wr (Reg.CMP_CMP_CFG k.val) 5 |>.wr (Reg.CMP_CMP_THR k.val) 0x1FF |>.setCmp k.val { blank := true } with clk := { s.clk with rootLost := false } })
       0 tLive), 0, ((fun (code : BitVec 10) => code &&& 0x0FF) 0), 0, by decide +kernel⟩,
   ⟨((fun (k : Fin 16) (s : State) => s.wr (Reg.CMP_CMP_CFG k.val) 0x11 |>.wr (Reg.CMP_CMP_THR k.val) 0x1FF) 0 tLive), 0,
       ((fun (code : BitVec 10) => code &&& 0x0FF) 0), 0, by decide +kernel⟩,
   ⟨((fun (k : Fin 16) (s : State) => s.wr (Reg.CMP_CMP_CFG k.val) 0x11 |>.wr (Reg.CMP_CMP_THR k.val) 0x1FF) 0 tLive), 0,
       ((fun (code : BitVec 10) => code &&& 0x003 ||| 0x1FC) 0), 0, by decide +kernel⟩,
   ⟨((fun (k : Fin 16) (s : State) =>
       s.wr (Reg.CMP_CMP_CFG k.val) 1 |>.setBit Reg.CMP_STATUS k.val true |>.setCmp k.val { blank := true }) 0 tLive), 0,
       by decide +kernel⟩,
   ⟨((fun (k : Fin 16) (s : State) => s.setBit Reg.CMP_STATUS k.val false |>.setCmp k.val { blank := true }) 0 tLive), 0,
       by decide +kernel⟩,
   ⟨tLive, 0, 0, by decide +kernel⟩,
   ⟨((fun (k : Fin 16) (s : State) => s.setBit (Reg.CMP_CMP_CFG k.val) 0 false) 0 tLive), 0,
       ((fun (k : Fin 16) (val : Word) => val ||| BitVec.ofNat 32 (2 ^ k.val)) 0 0), 0, by decide +kernel⟩,
   ⟨((fun (k : Fin 16) (s : State) => s.setBit (Reg.CMP_CMP_CFG k.val) 0 true) 0 tLive), 0,
       ((fun (k : Fin 16) (val : Word) => val ||| BitVec.ofNat 32 (2 ^ k.val)) 0 0), 0, by decide +kernel⟩,
   ⟨tTrim gCMP, 1, 0, by decide +kernel⟩⟩

theorem witness_ControlBlocks :
    (∃ (s : State) (n : Nat) (r : KRun), s.atBlock 0x01 n r = true) ∧
    (∃ (s : State) (n : Nat) (r : KRun) (e : Word), s.atBlock 0x02 n r = true ∧ e = subW (s.kleU n r 0) (s.kleU n r 1)) ∧
    (∃ (s : State) (n : Nat) (r : KRun) (e : Word) (d : Word), s.atBlock 0x03 n r = true ∧
        e = subW (s.kleU n r 0) (s.kleU n r 1) ∧
        d = fmaW (s.kleP n r 4) (s.kleX n r 3) (fmaW (s.kleP n r 3) (subW e (s.kleX n r 2)) 0x80000000)) ∧
    (∃ (s : State) (n : Nat) (r : KRun) (y : Word), s.atBlock 0x04 n r = true ∧
        y = fmaW (s.kleP n r 0) (s.kleU n r 0) (s.kleX n r 0)) ∧
    (∃ (s : State) (n : Nat) (r : KRun) (y : Word), s.atBlock 0x05 n r = true ∧
        y = fmaW (s.kleP n r 0) (s.kleU n r 0) (s.kleX n r 0)) ∧
    (∃ (s : State) (n : Nat) (r : KRun) (e : Word) (q : Word), s.atBlock 0x06 n r = true ∧
        e = subW (s.kleU n r 0) (s.kleU n r 1) ∧
        q = fmaW (F32.neg (s.kleP n r 3)) (s.kleX n r 3) (fmaW (s.kleP n r 2) (s.kleX n r 2) (fmaW (s.kleP n r 1) (subW e
        (s.kleX n r 1)) 0x80000000))) ∧
    (∃ (s : State) (n : Nat) (r : KRun), s.atBlock 0x08 n r = true ∧ s.blkArg n r.blk 0 = 0 ∧ s.kleYa n r 0 ≠ s.kleYa n r 1) ∧
    (∃ (s : State) (n : Nat) (r : KRun), s.atBlock 0x08 n r = true ∧ s.blkArg n r.blk 0 = 1 ∧ s.kleYa n r 0 ≠ s.kleYa n r 1) ∧
    (∃ (s : State) (n : Nat) (r : KRun), s.atBlock 0x09 n r = true ∧ s.kleYa n r 0 ≠ s.kleYa n r 1) ∧
    (∃ (s : State) (n : Nat) (r : KRun), s.atBlock 0x0A n r = true ∧ s.kleYa n r 0 ≠ s.kleYa n r 1) ∧
    (∃ (s : State) (n : Nat) (r : KRun), s.atBlock 0x0B n r = true ∧ s.kleYa n r 0 ≠ s.kleYa n r 1 ∧
        s.kleYa n r 0 ≠ s.kleYa n r 2 ∧ s.kleYa n r 1 ≠ s.kleYa n r 2) ∧
    (∃ (s : State) (n : Nat) (r : KRun) (a : Word) (b : Word) (c : Word) (o : Word), s.atBlock 0x0C n r = true ∧
        a = (F32.copy (s.kleU n r 0)) ∧ b = fmaW 0x3F5DB3D7 (s.kleU n r 1) (fmaW 0xBF000000 (s.kleU n r 0) 0x80000000) ∧
        c = fmaW 0xBF5DB3D7 (s.kleU n r 1) (fmaW 0xBF000000 (s.kleU n r 0) 0x80000000) ∧
        o = fmaW 0xBF000000 (addW (F32.copy (F32.max' (F32.max' a b) c)) (F32.copy (F32.min' (F32.min' a b) c))) 0x80000000 ∧
        s.kleYa n r 0 ≠ s.kleYa n r 1 ∧ s.kleYa n r 0 ≠ s.kleYa n r 2 ∧ s.kleYa n r 1 ≠ s.kleYa n r 2) ∧
    (∃ (s : State) (n : Nat) (r : KRun), s.atBlock 0x0D n r = true ∧ s.kleYa n r 0 ≠ s.kleYa n r 1) ∧
    (∃ (s : State) (n : Nat) (r : KRun), s.atBlock 0x0D n r = true ∧ s.kleU n r 0 = 0x3F000000 ∧
        s.kleYa n r 0 ≠ s.kleYa n r 1) ∧
    (∃ (s : State) (n : Nat) (r : KRun) (f : Word) (i : Nat), s.atBlock 0x0E n r = true ∧
        f = fmaW (subW (s.kleU n r 0) (s.kleP n r 0)) (s.kleP n r 1) 0x80000000 ∧ F32.isNan f = false ∧
        i = floorClamp f (s.blkArg n r.blk 1 - 2)) ∧
    (∃ (s : State) (n : Nat) (r : KRun) (f : Word), s.atBlock 0x0E n r = true ∧
        f = fmaW (subW (s.kleU n r 0) (s.kleP n r 0)) (s.kleP n r 1) 0x80000000 ∧ F32.isNan f = true) ∧
    (∃ (s : State) (n : Nat) (r : KRun), s.atBlock 0x0F n r = true ∧ s.blkArg n r.blk 0 = 0 ∧ s.kleYa n r 0 ≠ s.kleYa n r 1) ∧
    (∃ (s : State) (n : Nat) (r : KRun), s.atBlock 0x0F n r = true ∧ s.blkArg n r.blk 0 = 1 ∧ s.kleYa n r 0 ≠ s.kleYa n r 1) ∧
    (∃ (s : State) (n : Nat) (r : KRun), s.atBlock 0x0F n r = true ∧ s.blkArg n r.blk 0 = 2 ∧ s.kleYa n r 0 ≠ s.kleYa n r 1) ∧
    (∃ (s : State) (n : Nat) (r : KRun), s.atBlock 0x0F n r = true ∧ s.blkArg n r.blk 0 = 3 ∧ s.kleYa n r 0 ≠ s.kleYa n r 1) ∧
    (∃ (s : State) (n : Nat) (r : KRun) (y : Word), s.atBlock 0x10 n r = true ∧
        y = F32.copy (F32.min' (F32.max' (s.kleU n r 0) (s.kleU n r 1)) (s.kleU n r 2)) ∧ s.kleYa n r 0 ≠ s.kleYa n r 1) ∧
    (∃ (s : State) (n : Nat) (r : KRun) (g : BitVec 40), s.atBlock 0x11 n r = true ∧ s.blkArg n r.blk 1 = 0 ∧
        g = (((s.kleX n r 1)).setWidth 8 ++ (s.kleX n r 0) : BitVec 40) + (F32.fix40 (fmaW (s.kleP n r 0) (s.kleU n r 0)
        0x80000000) (s.blkArg n r.blk 0)).1) ∧
    (∃ (s : State) (n : Nat) (r : KRun) (g : BitVec 40), s.atBlock 0x11 n r = true ∧ s.blkArg n r.blk 1 = 1 ∧
        F32.isZero (s.kleU n r 1) = false ∧ g = (F32.fix40 (s.kleU n r 2) (s.blkArg n r.blk 0)).1) ∧
    (∃ (s : State) (n : Nat) (r : KRun), s.atBlock 0x16 n r = true ∧ s.blkArg n r.blk 0 = 0) ∧
    (∃ (s : State) (n : Nat) (r : KRun), s.atBlock 0x16 n r = true ∧ s.blkArg n r.blk 0 = 1) :=
  ⟨⟨((fun (n : Nat) (r : KRun) (s : State) => s.kleAt n 0x01 8 4 0x03024101 0x0A090807 [] r) ((fun (n : Nat) =>
      n % 32) 3) ((fun (n : Nat) (r : KRun) =>
      { r with pass := 1, blk := 0, row := 0, src1 := none, inj := none, work := [], base := kleVals (n + r.unv) }) ((fun (n :
      Nat) => n % 32) 3) default) tLive), ((fun (n : Nat) => n % 32) 3),
      ((fun (n : Nat) (r : KRun) =>
      { r with pass := 1, blk := 0, row := 0, src1 := none, inj := none, work := [], base := kleVals (n + r.unv) }) ((fun (n :
      Nat) => n % 32) 3) default), by decide +kernel⟩,
   ⟨((fun (n : Nat) (r : KRun) (s : State) => s.kleAt n 0x02 8 4 0x03024101 0x0A090807 [] r) ((fun (n : Nat) =>
       n % 32) 3) ((fun (n : Nat) (r : KRun) =>
       { r with pass := 1, blk := 0, row := 0, src1 := none, inj := none, work := [], base := kleVals (n + r.unv) }) ((fun (n
       : Nat) => n % 32) 3) default) tLive), ((fun (n : Nat) => n % 32) 3),
       ((fun (n : Nat) (r : KRun) =>
       { r with pass := 1, blk := 0, row := 0, src1 := none, inj := none, work := [], base := kleVals (n + r.unv) }) ((fun (n
       : Nat) => n % 32) 3) default),
       ((fun (n : Nat) (r : KRun) (s : State) => subW (s.kleU n r 0) (s.kleU n r 1)) ((fun (n : Nat) =>
       n % 32) 3) ((fun (n : Nat) (r : KRun) =>
       { r with pass := 1, blk := 0, row := 0, src1 := none, inj := none, work := [], base := kleVals (n + r.unv) }) ((fun (n
       : Nat) => n % 32) 3) default) ((fun (n : Nat) (r : KRun) (s : State) =>
       s.kleAt n 0x02 8 4 0x03024101 0x0A090807 [] r) ((fun (n : Nat) => n % 32) 3) ((fun (n : Nat) (r : KRun) =>
       { r with pass := 1, blk := 0, row := 0, src1 := none, inj := none, work := [], base := kleVals (n + r.unv) }) ((fun (n
       : Nat) => n % 32) 3) default) tLive)), by decide +kernel⟩,
   ⟨((fun (n : Nat) (r : KRun) (s : State) => s.kleAt n 0x03 8 4 0x03024101 0x0A090807 [] r) ((fun (n : Nat) =>
       n % 32) 3) ((fun (n : Nat) (r : KRun) =>
       { r with pass := 1, blk := 0, row := 0, src1 := none, inj := none, work := [], base := kleVals (n + r.unv) }) ((fun (n
       : Nat) => n % 32) 3) default) tLive), ((fun (n : Nat) => n % 32) 3),
       ((fun (n : Nat) (r : KRun) =>
       { r with pass := 1, blk := 0, row := 0, src1 := none, inj := none, work := [], base := kleVals (n + r.unv) }) ((fun (n
       : Nat) => n % 32) 3) default),
       ((fun (n : Nat) (r : KRun) (s : State) => subW (s.kleU n r 0) (s.kleU n r 1)) ((fun (n : Nat) =>
       n % 32) 3) ((fun (n : Nat) (r : KRun) =>
       { r with pass := 1, blk := 0, row := 0, src1 := none, inj := none, work := [], base := kleVals (n + r.unv) }) ((fun (n
       : Nat) => n % 32) 3) default) ((fun (n : Nat) (r : KRun) (s : State) =>
       s.kleAt n 0x03 8 4 0x03024101 0x0A090807 [] r) ((fun (n : Nat) => n % 32) 3) ((fun (n : Nat) (r : KRun) =>
       { r with pass := 1, blk := 0, row := 0, src1 := none, inj := none, work := [], base := kleVals (n + r.unv) }) ((fun (n
       : Nat) => n % 32) 3) default) tLive)),
       ((fun (n : Nat) (r : KRun) (e : Word) (s : State) =>
       fmaW (s.kleP n r 4) (s.kleX n r 3) (fmaW (s.kleP n r 3) (subW e (s.kleX n r 2)) 0x80000000)) ((fun (n : Nat) =>
       n % 32) 3) ((fun (n : Nat) (r : KRun) =>
       { r with pass := 1, blk := 0, row := 0, src1 := none, inj := none, work := [], base := kleVals (n + r.unv) }) ((fun (n
       : Nat) => n % 32) 3) default) ((fun (n : Nat) (r : KRun) (s : State) =>
       subW (s.kleU n r 0) (s.kleU n r 1)) ((fun (n : Nat) => n % 32) 3) ((fun (n : Nat) (r : KRun) =>
       { r with pass := 1, blk := 0, row := 0, src1 := none, inj := none, work := [], base := kleVals (n + r.unv) }) ((fun (n
       : Nat) => n % 32) 3) default) ((fun (n : Nat) (r : KRun) (s : State) =>
       s.kleAt n 0x03 8 4 0x03024101 0x0A090807 [] r) ((fun (n : Nat) => n % 32) 3) ((fun (n : Nat) (r : KRun) =>
       { r with pass := 1, blk := 0, row := 0, src1 := none, inj := none, work := [], base := kleVals (n + r.unv) }) ((fun (n
       : Nat) => n % 32) 3) default) tLive)) ((fun (n : Nat) (r : KRun) (s : State) =>
       s.kleAt n 0x03 8 4 0x03024101 0x0A090807 [] r) ((fun (n : Nat) => n % 32) 3) ((fun (n : Nat) (r : KRun) =>
       { r with pass := 1, blk := 0, row := 0, src1 := none, inj := none, work := [], base := kleVals (n + r.unv) }) ((fun (n
       : Nat) => n % 32) 3) default) tLive)), by decide +kernel⟩,
   ⟨((fun (n : Nat) (r : KRun) (s : State) => s.kleAt n 0x04 8 4 0x03024101 0x0A090807 [] r) ((fun (n : Nat) =>
       n % 32) 3) ((fun (n : Nat) (r : KRun) =>
       { r with pass := 1, blk := 0, row := 0, src1 := none, inj := none, work := [], base := kleVals (n + r.unv) }) ((fun (n
       : Nat) => n % 32) 3) default) tLive), ((fun (n : Nat) => n % 32) 3),
       ((fun (n : Nat) (r : KRun) =>
       { r with pass := 1, blk := 0, row := 0, src1 := none, inj := none, work := [], base := kleVals (n + r.unv) }) ((fun (n
       : Nat) => n % 32) 3) default),
       ((fun (n : Nat) (r : KRun) (s : State) => fmaW (s.kleP n r 0) (s.kleU n r 0) (s.kleX n r 0)) ((fun (n : Nat) =>
       n % 32) 3) ((fun (n : Nat) (r : KRun) =>
       { r with pass := 1, blk := 0, row := 0, src1 := none, inj := none, work := [], base := kleVals (n + r.unv) }) ((fun (n
       : Nat) => n % 32) 3) default) ((fun (n : Nat) (r : KRun) (s : State) =>
       s.kleAt n 0x04 8 4 0x03024101 0x0A090807 [] r) ((fun (n : Nat) => n % 32) 3) ((fun (n : Nat) (r : KRun) =>
       { r with pass := 1, blk := 0, row := 0, src1 := none, inj := none, work := [], base := kleVals (n + r.unv) }) ((fun (n
       : Nat) => n % 32) 3) default) tLive)), by decide +kernel⟩,
   ⟨((fun (n : Nat) (r : KRun) (s : State) => s.kleAt n 0x05 8 4 0x03024101 0x0A090807 [] r) ((fun (n : Nat) =>
       n % 32) 3) ((fun (n : Nat) (r : KRun) =>
       { r with pass := 1, blk := 0, row := 0, src1 := none, inj := none, work := [], base := kleVals (n + r.unv) }) ((fun (n
       : Nat) => n % 32) 3) default) tLive), ((fun (n : Nat) => n % 32) 3),
       ((fun (n : Nat) (r : KRun) =>
       { r with pass := 1, blk := 0, row := 0, src1 := none, inj := none, work := [], base := kleVals (n + r.unv) }) ((fun (n
       : Nat) => n % 32) 3) default),
       ((fun (n : Nat) (r : KRun) (s : State) => fmaW (s.kleP n r 0) (s.kleU n r 0) (s.kleX n r 0)) ((fun (n : Nat) =>
       n % 32) 3) ((fun (n : Nat) (r : KRun) =>
       { r with pass := 1, blk := 0, row := 0, src1 := none, inj := none, work := [], base := kleVals (n + r.unv) }) ((fun (n
       : Nat) => n % 32) 3) default) ((fun (n : Nat) (r : KRun) (s : State) =>
       s.kleAt n 0x05 8 4 0x03024101 0x0A090807 [] r) ((fun (n : Nat) => n % 32) 3) ((fun (n : Nat) (r : KRun) =>
       { r with pass := 1, blk := 0, row := 0, src1 := none, inj := none, work := [], base := kleVals (n + r.unv) }) ((fun (n
       : Nat) => n % 32) 3) default) tLive)), by decide +kernel⟩,
   ⟨((fun (n : Nat) (r : KRun) (s : State) => s.kleAt n 0x06 8 4 0x03024101 0x0A090807 [] r) ((fun (n : Nat) =>
       n % 32) 3) ((fun (n : Nat) (r : KRun) =>
       { r with pass := 1, blk := 0, row := 0, src1 := none, inj := none, work := [], base := kleVals (n + r.unv) }) ((fun (n
       : Nat) => n % 32) 3) default) tLive), ((fun (n : Nat) => n % 32) 3),
       ((fun (n : Nat) (r : KRun) =>
       { r with pass := 1, blk := 0, row := 0, src1 := none, inj := none, work := [], base := kleVals (n + r.unv) }) ((fun (n
       : Nat) => n % 32) 3) default),
       ((fun (n : Nat) (r : KRun) (s : State) => subW (s.kleU n r 0) (s.kleU n r 1)) ((fun (n : Nat) =>
       n % 32) 3) ((fun (n : Nat) (r : KRun) =>
       { r with pass := 1, blk := 0, row := 0, src1 := none, inj := none, work := [], base := kleVals (n + r.unv) }) ((fun (n
       : Nat) => n % 32) 3) default) ((fun (n : Nat) (r : KRun) (s : State) =>
       s.kleAt n 0x06 8 4 0x03024101 0x0A090807 [] r) ((fun (n : Nat) => n % 32) 3) ((fun (n : Nat) (r : KRun) =>
       { r with pass := 1, blk := 0, row := 0, src1 := none, inj := none, work := [], base := kleVals (n + r.unv) }) ((fun (n
       : Nat) => n % 32) 3) default) tLive)),
       ((fun (n : Nat) (r : KRun) (e : Word) (s : State) =>
       fmaW (F32.neg (s.kleP n r 3)) (s.kleX n r 3) (fmaW (s.kleP n r 2) (s.kleX n r 2) (fmaW (s.kleP n r 1) (subW e (s.kleX n
       r 1)) 0x80000000))) ((fun (n : Nat) => n % 32) 3) ((fun (n : Nat) (r : KRun) =>
       { r with pass := 1, blk := 0, row := 0, src1 := none, inj := none, work := [], base := kleVals (n + r.unv) }) ((fun (n
       : Nat) => n % 32) 3) default) ((fun (n : Nat) (r : KRun) (s : State) =>
       subW (s.kleU n r 0) (s.kleU n r 1)) ((fun (n : Nat) => n % 32) 3) ((fun (n : Nat) (r : KRun) =>
       { r with pass := 1, blk := 0, row := 0, src1 := none, inj := none, work := [], base := kleVals (n + r.unv) }) ((fun (n
       : Nat) => n % 32) 3) default) ((fun (n : Nat) (r : KRun) (s : State) =>
       s.kleAt n 0x06 8 4 0x03024101 0x0A090807 [] r) ((fun (n : Nat) => n % 32) 3) ((fun (n : Nat) (r : KRun) =>
       { r with pass := 1, blk := 0, row := 0, src1 := none, inj := none, work := [], base := kleVals (n + r.unv) }) ((fun (n
       : Nat) => n % 32) 3) default) tLive)) ((fun (n : Nat) (r : KRun) (s : State) =>
       s.kleAt n 0x06 8 4 0x03024101 0x0A090807 [] r) ((fun (n : Nat) => n % 32) 3) ((fun (n : Nat) (r : KRun) =>
       { r with pass := 1, blk := 0, row := 0, src1 := none, inj := none, work := [], base := kleVals (n + r.unv) }) ((fun (n
       : Nat) => n % 32) 3) default) tLive)), by decide +kernel⟩,
   ⟨((fun (n : Nat) (r : KRun) (s : State) => s.kleAt n 0x08 8 4 0x03024101 0x0A090807 [0] r) ((fun (n : Nat) =>
       n % 32) 3) ((fun (n : Nat) (r : KRun) =>
       { r with pass := 1, blk := 0, row := 0, src1 := none, inj := none, work := [], base := kleVals (n + r.unv) }) ((fun (n
       : Nat) => n % 32) 3) default) tLive), ((fun (n : Nat) => n % 32) 3),
       ((fun (n : Nat) (r : KRun) =>
       { r with pass := 1, blk := 0, row := 0, src1 := none, inj := none, work := [], base := kleVals (n + r.unv) }) ((fun (n
       : Nat) => n % 32) 3) default), by decide +kernel⟩,
   ⟨((fun (n : Nat) (r : KRun) (s : State) => s.kleAt n 0x08 8 4 0x03024101 0x0A090807 [1] r) ((fun (n : Nat) =>
       n % 32) 3) ((fun (n : Nat) (r : KRun) =>
       { r with pass := 1, blk := 0, row := 0, src1 := none, inj := none, work := [], base := kleVals (n + r.unv) }) ((fun (n
       : Nat) => n % 32) 3) default) tLive), ((fun (n : Nat) => n % 32) 3),
       ((fun (n : Nat) (r : KRun) =>
       { r with pass := 1, blk := 0, row := 0, src1 := none, inj := none, work := [], base := kleVals (n + r.unv) }) ((fun (n
       : Nat) => n % 32) 3) default), by decide +kernel⟩,
   ⟨((fun (n : Nat) (r : KRun) (s : State) => s.kleAt n 0x09 8 4 0x03024101 0x0A090807 [] r) ((fun (n : Nat) =>
       n % 32) 3) ((fun (n : Nat) (r : KRun) =>
       { r with pass := 1, blk := 0, row := 0, src1 := none, inj := none, work := [], base := kleVals (n + r.unv) }) ((fun (n
       : Nat) => n % 32) 3) default) tLive), ((fun (n : Nat) => n % 32) 3),
       ((fun (n : Nat) (r : KRun) =>
       { r with pass := 1, blk := 0, row := 0, src1 := none, inj := none, work := [], base := kleVals (n + r.unv) }) ((fun (n
       : Nat) => n % 32) 3) default), by decide +kernel⟩,
   ⟨((fun (n : Nat) (r : KRun) (s : State) => s.kleAt n 0x0A 8 4 0x03024101 0x0A090807 [] r) ((fun (n : Nat) =>
       n % 32) 3) ((fun (n : Nat) (r : KRun) =>
       { r with pass := 1, blk := 0, row := 0, src1 := none, inj := none, work := [], base := kleVals (n + r.unv) }) ((fun (n
       : Nat) => n % 32) 3) default) tLive), ((fun (n : Nat) => n % 32) 3),
       ((fun (n : Nat) (r : KRun) =>
       { r with pass := 1, blk := 0, row := 0, src1 := none, inj := none, work := [], base := kleVals (n + r.unv) }) ((fun (n
       : Nat) => n % 32) 3) default), by decide +kernel⟩,
   ⟨((fun (n : Nat) (r : KRun) (s : State) => s.kleAt n 0x0B 8 4 0x03024101 0x0A090807 [] r) ((fun (n : Nat) =>
       n % 32) 3) ((fun (n : Nat) (r : KRun) =>
       { r with pass := 1, blk := 0, row := 0, src1 := none, inj := none, work := [], base := kleVals (n + r.unv) }) ((fun (n
       : Nat) => n % 32) 3) default) tLive), ((fun (n : Nat) => n % 32) 3),
       ((fun (n : Nat) (r : KRun) =>
       { r with pass := 1, blk := 0, row := 0, src1 := none, inj := none, work := [], base := kleVals (n + r.unv) }) ((fun (n
       : Nat) => n % 32) 3) default), by decide +kernel⟩,
   ⟨((fun (n : Nat) (r : KRun) (s : State) => s.kleAt n 0x0C 8 4 0x03024101 0x0A090807 [] r) ((fun (n : Nat) =>
       n % 32) 3) ((fun (n : Nat) (r : KRun) =>
       { r with pass := 1, blk := 0, row := 0, src1 := none, inj := none, work := [], base := kleVals (n + r.unv) }) ((fun (n
       : Nat) => n % 32) 3) default) tLive), ((fun (n : Nat) => n % 32) 3),
       ((fun (n : Nat) (r : KRun) =>
       { r with pass := 1, blk := 0, row := 0, src1 := none, inj := none, work := [], base := kleVals (n + r.unv) }) ((fun (n
       : Nat) => n % 32) 3) default),
       ((fun (n : Nat) (r : KRun) (s : State) => (F32.copy (s.kleU n r 0))) ((fun (n : Nat) =>
       n % 32) 3) ((fun (n : Nat) (r : KRun) =>
       { r with pass := 1, blk := 0, row := 0, src1 := none, inj := none, work := [], base := kleVals (n + r.unv) }) ((fun (n
       : Nat) => n % 32) 3) default) ((fun (n : Nat) (r : KRun) (s : State) =>
       s.kleAt n 0x0C 8 4 0x03024101 0x0A090807 [] r) ((fun (n : Nat) => n % 32) 3) ((fun (n : Nat) (r : KRun) =>
       { r with pass := 1, blk := 0, row := 0, src1 := none, inj := none, work := [], base := kleVals (n + r.unv) }) ((fun (n
       : Nat) => n % 32) 3) default) tLive)),
       ((fun (n : Nat) (r : KRun) (s : State) =>
       fmaW 0x3F5DB3D7 (s.kleU n r 1) (fmaW 0xBF000000 (s.kleU n r 0) 0x80000000)) ((fun (n : Nat) =>
       n % 32) 3) ((fun (n : Nat) (r : KRun) =>
       { r with pass := 1, blk := 0, row := 0, src1 := none, inj := none, work := [], base := kleVals (n + r.unv) }) ((fun (n
       : Nat) => n % 32) 3) default) ((fun (n : Nat) (r : KRun) (s : State) =>
       s.kleAt n 0x0C 8 4 0x03024101 0x0A090807 [] r) ((fun (n : Nat) => n % 32) 3) ((fun (n : Nat) (r : KRun) =>
       { r with pass := 1, blk := 0, row := 0, src1 := none, inj := none, work := [], base := kleVals (n + r.unv) }) ((fun (n
       : Nat) => n % 32) 3) default) tLive)),
       ((fun (n : Nat) (r : KRun) (s : State) =>
       fmaW 0xBF5DB3D7 (s.kleU n r 1) (fmaW 0xBF000000 (s.kleU n r 0) 0x80000000)) ((fun (n : Nat) =>
       n % 32) 3) ((fun (n : Nat) (r : KRun) =>
       { r with pass := 1, blk := 0, row := 0, src1 := none, inj := none, work := [], base := kleVals (n + r.unv) }) ((fun (n
       : Nat) => n % 32) 3) default) ((fun (n : Nat) (r : KRun) (s : State) =>
       s.kleAt n 0x0C 8 4 0x03024101 0x0A090807 [] r) ((fun (n : Nat) => n % 32) 3) ((fun (n : Nat) (r : KRun) =>
       { r with pass := 1, blk := 0, row := 0, src1 := none, inj := none, work := [], base := kleVals (n + r.unv) }) ((fun (n
       : Nat) => n % 32) 3) default) tLive)),
       ((fun (a : Word) (b : Word) (c : Word) =>
       fmaW 0xBF000000 (addW (F32.copy (F32.max' (F32.max' a b) c)) (F32.copy (F32.min' (F32.min' a b) c))) 0x80000000) ((fun
       (n : Nat) (r : KRun) (s : State) => (F32.copy (s.kleU n r 0))) ((fun (n : Nat) =>
       n % 32) 3) ((fun (n : Nat) (r : KRun) =>
       { r with pass := 1, blk := 0, row := 0, src1 := none, inj := none, work := [], base := kleVals (n + r.unv) }) ((fun (n
       : Nat) => n % 32) 3) default) ((fun (n : Nat) (r : KRun) (s : State) =>
       s.kleAt n 0x0C 8 4 0x03024101 0x0A090807 [] r) ((fun (n : Nat) => n % 32) 3) ((fun (n : Nat) (r : KRun) =>
       { r with pass := 1, blk := 0, row := 0, src1 := none, inj := none, work := [], base := kleVals (n + r.unv) }) ((fun (n
       : Nat) => n % 32) 3) default) tLive)) ((fun (n : Nat) (r : KRun) (s : State) =>
       fmaW 0x3F5DB3D7 (s.kleU n r 1) (fmaW 0xBF000000 (s.kleU n r 0) 0x80000000)) ((fun (n : Nat) =>
       n % 32) 3) ((fun (n : Nat) (r : KRun) =>
       { r with pass := 1, blk := 0, row := 0, src1 := none, inj := none, work := [], base := kleVals (n + r.unv) }) ((fun (n
       : Nat) => n % 32) 3) default) ((fun (n : Nat) (r : KRun) (s : State) =>
       s.kleAt n 0x0C 8 4 0x03024101 0x0A090807 [] r) ((fun (n : Nat) => n % 32) 3) ((fun (n : Nat) (r : KRun) =>
       { r with pass := 1, blk := 0, row := 0, src1 := none, inj := none, work := [], base := kleVals (n + r.unv) }) ((fun (n
       : Nat) => n % 32) 3) default) tLive)) ((fun (n : Nat) (r : KRun) (s : State) =>
       fmaW 0xBF5DB3D7 (s.kleU n r 1) (fmaW 0xBF000000 (s.kleU n r 0) 0x80000000)) ((fun (n : Nat) =>
       n % 32) 3) ((fun (n : Nat) (r : KRun) =>
       { r with pass := 1, blk := 0, row := 0, src1 := none, inj := none, work := [], base := kleVals (n + r.unv) }) ((fun (n
       : Nat) => n % 32) 3) default) ((fun (n : Nat) (r : KRun) (s : State) =>
       s.kleAt n 0x0C 8 4 0x03024101 0x0A090807 [] r) ((fun (n : Nat) => n % 32) 3) ((fun (n : Nat) (r : KRun) =>
       { r with pass := 1, blk := 0, row := 0, src1 := none, inj := none, work := [], base := kleVals (n + r.unv) }) ((fun (n
       : Nat) => n % 32) 3) default) tLive))), by decide +kernel⟩,
   ⟨((fun (n : Nat) (r : KRun) (s : State) => s.kleAt n 0x0D 8 4 0x03024101 0x0A090807 [] r) ((fun (n : Nat) =>
       n % 32) 3) ((fun (n : Nat) (r : KRun) =>
       { r with pass := 1, blk := 0, row := 0, src1 := none, inj := none, work := [], base := kleVals (n + r.unv) }) ((fun (n
       : Nat) => n % 32) 3) default) tLive), ((fun (n : Nat) => n % 32) 3),
       ((fun (n : Nat) (r : KRun) =>
       { r with pass := 1, blk := 0, row := 0, src1 := none, inj := none, work := [], base := kleVals (n + r.unv) }) ((fun (n
       : Nat) => n % 32) 3) default), by decide +kernel⟩,
   ⟨((fun (n : Nat) (r : KRun) (s : State) => s.kleAt n 0x0D 8 4 0x03024101 0x0A090807 [] r) ((fun (n : Nat) =>
       n % 32) 3) ((fun (r : KRun) =>
       { r with pass := 1, blk := 0, row := 0, src1 := none, inj := none, work := [], base := [(1, 0x3F000000)] }) default)
       tLive), ((fun (n : Nat) => n % 32) 3),
       ((fun (r : KRun) => { r with pass := 1, blk := 0, row := 0, src1 := none, inj := none, work := [], base := [(1, 0x3F000000)] })
       default), by decide +kernel⟩,
   ⟨((fun (n : Nat) (r : KRun) (s : State) => s.kleAt n 0x0E 8 4 0x03024101 0x0A090807 [3,
       7] r) ((fun (n : Nat) => n % 32) 3) ((fun (n : Nat) (r : KRun) =>
       { r with pass := 1, blk := 0, row := 0, src1 := none, inj := none, work := [], base := kleVals (n + r.unv) }) ((fun (n
       : Nat) => n % 32) 3) default) tLive), ((fun (n : Nat) => n % 32) 3),
       ((fun (n : Nat) (r : KRun) =>
       { r with pass := 1, blk := 0, row := 0, src1 := none, inj := none, work := [], base := kleVals (n + r.unv) }) ((fun (n
       : Nat) => n % 32) 3) default),
       ((fun (n : Nat) (r : KRun) (s : State) =>
       fmaW (subW (s.kleU n r 0) (s.kleP n r 0)) (s.kleP n r 1) 0x80000000) ((fun (n : Nat) =>
       n % 32) 3) ((fun (n : Nat) (r : KRun) =>
       { r with pass := 1, blk := 0, row := 0, src1 := none, inj := none, work := [], base := kleVals (n + r.unv) }) ((fun (n
       : Nat) => n % 32) 3) default) ((fun (n : Nat) (r : KRun) (s : State) => s.kleAt n 0x0E 8 4 0x03024101 0x0A090807 [3,
       7] r) ((fun (n : Nat) => n % 32) 3) ((fun (n : Nat) (r : KRun) =>
       { r with pass := 1, blk := 0, row := 0, src1 := none, inj := none, work := [], base := kleVals (n + r.unv) }) ((fun (n
       : Nat) => n % 32) 3) default) tLive)),
       ((fun (f : Word) => floorClamp f 5) ((fun (n : Nat) (r : KRun) (s : State) =>
       fmaW (subW (s.kleU n r 0) (s.kleP n r 0)) (s.kleP n r 1) 0x80000000) ((fun (n : Nat) =>
       n % 32) 3) ((fun (n : Nat) (r : KRun) =>
       { r with pass := 1, blk := 0, row := 0, src1 := none, inj := none, work := [], base := kleVals (n + r.unv) }) ((fun (n
       : Nat) => n % 32) 3) default) ((fun (n : Nat) (r : KRun) (s : State) => s.kleAt n 0x0E 8 4 0x03024101 0x0A090807 [3,
       7] r) ((fun (n : Nat) => n % 32) 3) ((fun (n : Nat) (r : KRun) =>
       { r with pass := 1, blk := 0, row := 0, src1 := none, inj := none, work := [], base := kleVals (n + r.unv) }) ((fun (n
       : Nat) => n % 32) 3) default) tLive))), by decide +kernel⟩,
   ⟨((fun (n : Nat) (r : KRun) (s : State) => s.kleAt n 0x0E 8 4 0x03024101 0x0A090807 [3,
       7] r) ((fun (n : Nat) => n % 32) 3) ((fun (r : KRun) =>
       { r with pass := 1, blk := 0, row := 0, src1 := none, inj := none, work := [], base := [(1, 0x7FC00000)] }) default)
       tLive), ((fun (n : Nat) => n % 32) 3),
       ((fun (r : KRun) => { r with pass := 1, blk := 0, row := 0, src1 := none, inj := none, work := [], base := [(1, 0x7FC00000)] })
       default), ((fun (n : Nat) (r : KRun) (s : State) =>
       fmaW (subW (s.kleU n r 0) (s.kleP n r 0)) (s.kleP n r 1) 0x80000000) ((fun (n : Nat) => n % 32) 3) ((fun (r : KRun) =>
       { r with pass := 1, blk := 0, row := 0, src1 := none, inj := none, work := [], base := [(1, 0x7FC00000)] }) default)
       ((fun (n : Nat) (r : KRun) (s : State) => s.kleAt n 0x0E 8 4 0x03024101 0x0A090807 [3,
       7] r) ((fun (n : Nat) => n % 32) 3) ((fun (r : KRun) =>
       { r with pass := 1, blk := 0, row := 0, src1 := none, inj := none, work := [], base := [(1, 0x7FC00000)] }) default)
       tLive)), by decide +kernel⟩,
   ⟨((fun (n : Nat) (r : KRun) (s : State) => s.kleAt n 0x0F 8 4 0x03024101 0x0A090807 [0] r) ((fun (n : Nat) =>
       n % 32) 3) ((fun (n : Nat) (r : KRun) =>
       { r with pass := 1, blk := 0, row := 0, src1 := none, inj := none, work := [], base := kleVals (n + r.unv) }) ((fun (n
       : Nat) => n % 32) 3) default) tLive), ((fun (n : Nat) => n % 32) 3),
       ((fun (n : Nat) (r : KRun) =>
       { r with pass := 1, blk := 0, row := 0, src1 := none, inj := none, work := [], base := kleVals (n + r.unv) }) ((fun (n
       : Nat) => n % 32) 3) default), by decide +kernel⟩,
   ⟨((fun (n : Nat) (r : KRun) (s : State) => s.kleAt n 0x0F 8 4 0x03024101 0x0A090807 [1] r) ((fun (n : Nat) =>
       n % 32) 3) ((fun (n : Nat) (r : KRun) =>
       { r with pass := 1, blk := 0, row := 0, src1 := none, inj := none, work := [], base := kleVals (n + r.unv) }) ((fun (n
       : Nat) => n % 32) 3) default) tLive), ((fun (n : Nat) => n % 32) 3),
       ((fun (n : Nat) (r : KRun) =>
       { r with pass := 1, blk := 0, row := 0, src1 := none, inj := none, work := [], base := kleVals (n + r.unv) }) ((fun (n
       : Nat) => n % 32) 3) default), by decide +kernel⟩,
   ⟨((fun (n : Nat) (r : KRun) (s : State) => s.kleAt n 0x0F 8 4 0x03024101 0x0A090807 [2] r) ((fun (n : Nat) =>
       n % 32) 3) ((fun (n : Nat) (r : KRun) =>
       { r with pass := 1, blk := 0, row := 0, src1 := none, inj := none, work := [], base := kleVals (n + r.unv) }) ((fun (n
       : Nat) => n % 32) 3) default) tLive), ((fun (n : Nat) => n % 32) 3),
       ((fun (n : Nat) (r : KRun) =>
       { r with pass := 1, blk := 0, row := 0, src1 := none, inj := none, work := [], base := kleVals (n + r.unv) }) ((fun (n
       : Nat) => n % 32) 3) default), by decide +kernel⟩,
   ⟨((fun (n : Nat) (r : KRun) (s : State) => s.kleAt n 0x0F 8 4 0x03024101 0x0A090807 [3] r) ((fun (n : Nat) =>
       n % 32) 3) ((fun (n : Nat) (r : KRun) =>
       { r with pass := 1, blk := 0, row := 0, src1 := none, inj := none, work := [], base := kleVals (n + r.unv) }) ((fun (n
       : Nat) => n % 32) 3) default) tLive), ((fun (n : Nat) => n % 32) 3),
       ((fun (n : Nat) (r : KRun) =>
       { r with pass := 1, blk := 0, row := 0, src1 := none, inj := none, work := [], base := kleVals (n + r.unv) }) ((fun (n
       : Nat) => n % 32) 3) default), by decide +kernel⟩,
   ⟨((fun (n : Nat) (r : KRun) (s : State) => s.kleAt n 0x10 8 4 0x03024101 0x0A090807 [] r) ((fun (n : Nat) =>
       n % 32) 3) ((fun (n : Nat) (r : KRun) =>
       { r with pass := 1, blk := 0, row := 0, src1 := none, inj := none, work := [], base := kleVals (n + r.unv) }) ((fun (n
       : Nat) => n % 32) 3) default) tLive), ((fun (n : Nat) => n % 32) 3),
       ((fun (n : Nat) (r : KRun) =>
       { r with pass := 1, blk := 0, row := 0, src1 := none, inj := none, work := [], base := kleVals (n + r.unv) }) ((fun (n
       : Nat) => n % 32) 3) default),
       ((fun (n : Nat) (r : KRun) (s : State) =>
       F32.copy (F32.min' (F32.max' (s.kleU n r 0) (s.kleU n r 1)) (s.kleU n r 2))) ((fun (n : Nat) =>
       n % 32) 3) ((fun (n : Nat) (r : KRun) =>
       { r with pass := 1, blk := 0, row := 0, src1 := none, inj := none, work := [], base := kleVals (n + r.unv) }) ((fun (n
       : Nat) => n % 32) 3) default) ((fun (n : Nat) (r : KRun) (s : State) =>
       s.kleAt n 0x10 8 4 0x03024101 0x0A090807 [] r) ((fun (n : Nat) => n % 32) 3) ((fun (n : Nat) (r : KRun) =>
       { r with pass := 1, blk := 0, row := 0, src1 := none, inj := none, work := [], base := kleVals (n + r.unv) }) ((fun (n
       : Nat) => n % 32) 3) default) tLive)), by decide +kernel⟩,
   ⟨((fun (n : Nat) (r : KRun) (s : State) => s.kleAt n 0x11 8 4 0x03024101 0x0A090807 [39,
       0] r) ((fun (n : Nat) => n % 32) 3) ((fun (n : Nat) (r : KRun) =>
       { r with pass := 1, blk := 0, row := 0, src1 := none, inj := none, work := [], base := kleVals (n + r.unv) }) ((fun (n
       : Nat) => n % 32) 3) default) tLive), ((fun (n : Nat) => n % 32) 3),
       ((fun (n : Nat) (r : KRun) =>
       { r with pass := 1, blk := 0, row := 0, src1 := none, inj := none, work := [], base := kleVals (n + r.unv) }) ((fun (n
       : Nat) => n % 32) 3) default),
       ((fun (n : Nat) (r : KRun) (s : State) =>
       ((((s.kleX n r 1)).setWidth 8 ++ (s.kleX n r 0) : BitVec 40) + (F32.fix40 (fmaW (s.kleP n r 0) (s.kleU n r 0)
       0x80000000) 39).1)) ((fun (n : Nat) => n % 32) 3) ((fun (n : Nat) (r : KRun) =>
       { r with pass := 1, blk := 0, row := 0, src1 := none, inj := none, work := [], base := kleVals (n + r.unv) }) ((fun (n
       : Nat) => n % 32) 3) default) ((fun (n : Nat) (r : KRun) (s : State) => s.kleAt n 0x11 8 4 0x03024101 0x0A090807 [39,
       0] r) ((fun (n : Nat) => n % 32) 3) ((fun (n : Nat) (r : KRun) =>
       { r with pass := 1, blk := 0, row := 0, src1 := none, inj := none, work := [], base := kleVals (n + r.unv) }) ((fun (n
       : Nat) => n % 32) 3) default) tLive)), by decide +kernel⟩,
   ⟨((fun (n : Nat) (r : KRun) (s : State) => s.kleAt n 0x11 8 4 0x03024101 0x0A090807 [30,
       1] r |>.wr (ctxAddr n 0x100 1) 0x3F800000) ((fun (n : Nat) => n % 32) 3) ((fun (n : Nat) (r : KRun) =>
       { r with pass := 1, blk := 0, row := 0, src1 := none, inj := none, work := [], base := kleVals (n + r.unv) }) ((fun (n
       : Nat) => n % 32) 3) default) tLive), ((fun (n : Nat) => n % 32) 3),
       ((fun (n : Nat) (r : KRun) =>
       { r with pass := 1, blk := 0, row := 0, src1 := none, inj := none, work := [], base := kleVals (n + r.unv) }) ((fun (n
       : Nat) => n % 32) 3) default),
       ((fun (n : Nat) (r : KRun) (s : State) => (F32.fix40 (s.kleU n r 2) 30).1) ((fun (n : Nat) =>
       n % 32) 3) ((fun (n : Nat) (r : KRun) =>
       { r with pass := 1, blk := 0, row := 0, src1 := none, inj := none, work := [], base := kleVals (n + r.unv) }) ((fun (n
       : Nat) => n % 32) 3) default) ((fun (n : Nat) (r : KRun) (s : State) => s.kleAt n 0x11 8 4 0x03024101 0x0A090807 [30,
       1] r |>.wr (ctxAddr n 0x100 1) 0x3F800000) ((fun (n : Nat) => n % 32) 3) ((fun (n : Nat) (r : KRun) =>
       { r with pass := 1, blk := 0, row := 0, src1 := none, inj := none, work := [], base := kleVals (n + r.unv) }) ((fun (n
       : Nat) => n % 32) 3) default) tLive)), by decide +kernel⟩,
   ⟨((fun (n : Nat) (r : KRun) (s : State) => s.kleAt n 0x16 8 4 0x03024101 0x0A090807 [0] r) ((fun (n : Nat) =>
       n % 32) 3) ((fun (n : Nat) (r : KRun) =>
       { r with pass := 1, blk := 0, row := 0, src1 := none, inj := none, work := [], base := kleVals (n + r.unv) }) ((fun (n
       : Nat) => n % 32) 3) default) tLive), ((fun (n : Nat) => n % 32) 3),
       ((fun (n : Nat) (r : KRun) =>
       { r with pass := 1, blk := 0, row := 0, src1 := none, inj := none, work := [], base := kleVals (n + r.unv) }) ((fun (n
       : Nat) => n % 32) 3) default), by decide +kernel⟩,
   ⟨((fun (n : Nat) (r : KRun) (s : State) => s.kleAt n 0x16 8 4 0x03024101 0x0A090807 [1] r) ((fun (n : Nat) =>
       n % 32) 3) ((fun (n : Nat) (r : KRun) =>
       { r with pass := 1, blk := 0, row := 0, src1 := none, inj := none, work := [], base := kleVals (n + r.unv) }) ((fun (n
       : Nat) => n % 32) 3) default) tLive), ((fun (n : Nat) => n % 32) 3),
       ((fun (n : Nat) (r : KRun) =>
       { r with pass := 1, blk := 0, row := 0, src1 := none, inj := none, work := [], base := kleVals (n + r.unv) }) ((fun (n
       : Nat) => n % 32) 3) default), by decide +kernel⟩⟩

theorem witness_BlockWrites :
    (∃ (s : State) (n : Nat) (r : KRun) (j : Nat) (m : Nat) (q : Nat), s.atBlock 0x07 n r = true ∧ s.blkArg n r.blk 0 = j ∧
        s.blkArg n r.blk 1 = m ∧ s.blkArg n r.blk 2 = q ∧ r.row < q) ∧
    (∃ (s : State) (n : Nat) (r : KRun) (j : Nat) (m : Nat) (q : Nat), s.atBlock 0x07 n r = true ∧ s.blkArg n r.blk 0 = j ∧
        s.blkArg n r.blk 1 = m ∧ s.blkArg n r.blk 2 = q ∧ q ≤ r.row ∧ r.row + 1 < q + j) ∧
    (∃ (s : State) (n : Nat) (r : KRun) (y : Word), s.atBlock 0x07 n r = true ∧ s.blkArg n r.blk 0 = 1 ∧
        s.blkArg n r.blk 1 = 1 ∧ s.blkArg n r.blk 2 = 1 ∧ r.row = 1 ∧ r.acc = [y]) ∧
    (∃ (s : State) (n : Nat) (r : KRun) (a : Nat) (j : Nat) (k : Nat), s.atBlock 0x12 n r = true ∧ s.blkArg n r.blk 0 = a ∧
        s.blkArg n r.blk 1 = j ∧ 2 ≤ j ∧ j ≤ 4096 ∧ a + j ≤ 32768 ∧ s.blkArg n r.blk 2 = 0 ∧ s.blkArg n r.blk 3 < j ∧
        W.fld (s.kleX n r 0) 0 13 = k ∧ k < j ∧ r.freeze = false ∧ s.bit (Reg.KLE_LCTL n) 2 = false ∧
        F32.isFinite (s.kleU n r 0) = true ∧ s.kleYa n r 0 ≠ s.kleYa n r 1) ∧
    (∃ (s : State) (n : Nat) (r : KRun) (a : Nat) (j : Nat) (k : Nat), s.atBlock 0x12 n r = true ∧ s.blkArg n r.blk 0 = a ∧
        s.blkArg n r.blk 1 = j ∧ 2 ≤ j ∧ j ≤ 4096 ∧ a + j ≤ 32768 ∧ s.blkArg n r.blk 2 = 0 ∧ s.blkArg n r.blk 3 < j ∧
        W.fld (s.kleX n r 0) 0 13 = k ∧ k < j ∧ r.freeze = true ∧ s.bit (Reg.KLE_LCTL n) 2 = false ∧
        s.kleYa n r 0 ≠ s.kleYa n r 1) ∧
    (∃ (s : State) (n : Nat) (r : KRun) (m : Fin 12) (c : Nat) (g : Nat), s.atBlock 0x13 n r = true ∧
        s.blkArg n r.blk 0 = m.val ∧ s.blkArg n r.blk 1 = 1 ∧ s.blkArg n r.blk 2 = 2 ∧
        F32.pwm (fmaW (s.kleP n r 0) (s.kleU n r 0) (s.kleP n r 1)) = some (c, g) ∧ c < 2 ^ 20) ∧
    (∃ (s : State) (n : Nat) (r : KRun) (m : Fin 12) (c : Nat) (g : Nat), s.atBlock 0x13 n r = true ∧
        s.blkArg n r.blk 0 = m.val ∧ s.blkArg n r.blk 1 = 1 ∧ s.blkArg n r.blk 2 = 0 ∧
        F32.pwm (fmaW (s.kleP n r 0) (s.kleU n r 0) (s.kleP n r 1)) = some (c, g) ∧ c < 2 ^ 20) ∧
    (∃ (s : State) (n : Nat) (r : KRun) (m : Fin 12), s.atBlock 0x13 n r = true ∧ s.blkArg n r.blk 0 = m.val ∧
        s.blkArg n r.blk 1 = 1 ∧ F32.pwm (fmaW (s.kleP n r 0) (s.kleU n r 0) (s.kleP n r 1)) = none) ∧
    (∃ (s : State) (n : Nat) (r : KRun) (q : Fin 64) (tag : Fin 64), s.atBlock 0x14 n r = true ∧ s.blkArg n r.blk 0 = q.val ∧
        s.blkArg n r.blk 1 = tag.val ∧ (s.pport 4).fifo = [] ∧ (s.pport 4).freed = []) ∧
    (∃ (s : State) (n : Nat) (r : KRun) (slot : Fin 32) (w : Fin 63) (coin : BitVec 4) (v : Word), s.atBlock 0x15 n r = true ∧
        s.blkArg n r.blk 0 = slot.val ∧ s.blkArg n r.blk 1 = w.val ∧ s.blkArg n r.blk 2 = 2 ∧ s.latch slot.val w.val = none ∧
        s.latch slot.val (w.val + 1) = some v) ∧
    (∃ (s : State) (n : Nat) (r : KRun), s.blkNext 0x01 = some (n, r) ∧ n < 32 ∧ s.slotPasses n = 1 ∧ r.pass = 1 ∧
        r.src1 = none ∧ r.inj = none ∧ s.ecc = [] ∧ r.blk + 1 = s.nblk n ∧ s.learnBlk n = none ∧ (s.ks n).ovr = false ∧
        s.deadlineGone n 1 = false ∧ (∀ k : Fin 32, s.slotTrig k.val ≠ 0x40 + n)) :=
  ⟨⟨((fun (n : Nat) (r : KRun) (s : State) => s.kleAt n 7 8 4 0x4101 7 [2, 2,
      2] r) ((fun (n : Nat) => n % 32) 3) ((fun (n : Nat) (r : KRun) =>
      { r with pass := 1, blk := 0, row := r.row % 2, src1 := none, inj := none, work := [], base := kleVals (n + r.unv) })
      ((fun (n : Nat) => n % 32) 3) default) tLive), ((fun (n : Nat) => n % 32) 3),
      ((fun (n : Nat) (r : KRun) =>
      { r with pass := 1, blk := 0, row := r.row % 2, src1 := none, inj := none, work := [], base := kleVals (n + r.unv) })
      ((fun (n : Nat) => n % 32) 3) default), 2, 2, 2, by decide +kernel⟩,
   ⟨((fun (n : Nat) (r : KRun) (s : State) => s.kleAt n 7 8 4 0x4101 7 [2, 2,
       2] r) ((fun (n : Nat) => n % 32) 3) ((fun (n : Nat) (r : KRun) =>
       { r with pass := 1, blk := 0, row := 2, src1 := none, inj := none, work := [], base := kleVals (n + r.unv) }) ((fun (n
       : Nat) => n % 32) 3) { row := 2 }) tLive), ((fun (n : Nat) => n % 32) 3),
       ((fun (n : Nat) (r : KRun) =>
       { r with pass := 1, blk := 0, row := 2, src1 := none, inj := none, work := [], base := kleVals (n + r.unv) }) ((fun (n
       : Nat) => n % 32) 3) { row := 2 }), 2, 2, 2, by decide +kernel⟩,
   ⟨tLive.kleAt 3 7 8 4 1 7 [1, 1, 1] { row := 1, acc := [9] }, 3, { row := 1, acc := [9], pass := 1 }, 9, by decide +kernel⟩,
   ⟨((fun (n : Nat) (r : KRun) (k : Nat) (s : State) => s.kleAt n 18 8 4 1 0x807 [6, 5, 0,
       1] r |>.wr (ctxAddr n 0x300 4) (BitVec.ofNat 32 k) |>.wrWords 0x01020010 [1, 2, 0x40A00000, 0x40A00001, 0x3F800000,
       0x40000000, 0x41000000]) ((fun (n : Nat) => n % 32) 3) ((fun (r : KRun) =>
       { r with pass := 1, blk := 0, row := 0, freeze := false, clear := false, src1 := none, inj := none, work := [], base := [(1, 0x40400000)] })
       default) ((fun (k : Nat) => k % 5) 4) tLive), ((fun (n : Nat) => n % 32) 3),
       ((fun (r : KRun) => { r with pass := 1, blk := 0, row := 0, freeze := false, clear := false, src1 := none, inj := none, work := [], base := [(1, 0x40400000)] })
       default), 6, 5, ((fun (k : Nat) => k % 5) 4), by decide +kernel⟩,
   ⟨((fun (n : Nat) (r : KRun) (k : Nat) (s : State) => s.kleAt n 18 8 4 1 0x807 [6, 5, 0,
       1] r |>.wr (ctxAddr n 0x300 4) (BitVec.ofNat 32 k) |>.wrWords 0x01020010 [1, 2, 0x40A00000, 0x40A00001, 0x3F800000,
       0x40000000, 0x41000000]) ((fun (n : Nat) => n % 32) 3) ((fun (r : KRun) =>
       { r with pass := 1, blk := 0, row := 0, freeze := true, clear := false, src1 := none, inj := none, work := [], base := [(1, 0x40400000)] })
       { freeze := true }) ((fun (k : Nat) => k % 5) 4) tLive), ((fun (n : Nat) => n % 32) 3),
       ((fun (r : KRun) => { r with pass := 1, blk := 0, row := 0, freeze := true, clear := false, src1 := none, inj := none, work := [], base := [(1, 0x40400000)] })
       { freeze := true }), 6, 5, ((fun (k : Nat) => k % 5) 4), by decide +kernel⟩,
   ⟨((fun (n : Nat) (r : KRun) (m : Fin 12) (s : State) => s.kleAt n 19 8 4 1 7 [m.val, 1,
       2] r) ((fun (n : Nat) => n % 32) 3) ((fun (n : Nat) (r : KRun) =>
       { r with pass := 1, blk := 0, row := 0, src1 := none, inj := none, work := [], base := kleVals (n + r.unv) }) ((fun (n
       : Nat) => n % 32) 3) default) 0 tLive), ((fun (n : Nat) => n % 32) 3),
       ((fun (n : Nat) (r : KRun) =>
       { r with pass := 1, blk := 0, row := 0, src1 := none, inj := none, work := [], base := kleVals (n + r.unv) }) ((fun (n
       : Nat) => n % 32) 3) default), 0,
       ((fun (n : Nat) (r : KRun) (s : State) =>
       ((F32.pwm (fmaW (s.kleP n r 0) (s.kleU n r 0) (s.kleP n r 1))).map (·.1)).getD 0) ((fun (n : Nat) =>
       n % 32) 3) ((fun (n : Nat) (r : KRun) =>
       { r with pass := 1, blk := 0, row := 0, src1 := none, inj := none, work := [], base := kleVals (n + r.unv) }) ((fun (n
       : Nat) => n % 32) 3) default) ((fun (n : Nat) (r : KRun) (m : Fin 12) (s : State) => s.kleAt n 19 8 4 1 7 [m.val, 1,
       2] r) ((fun (n : Nat) => n % 32) 3) ((fun (n : Nat) (r : KRun) =>
       { r with pass := 1, blk := 0, row := 0, src1 := none, inj := none, work := [], base := kleVals (n + r.unv) }) ((fun (n
       : Nat) => n % 32) 3) default) 0 tLive)),
       ((fun (n : Nat) (r : KRun) (s : State) =>
       ((F32.pwm (fmaW (s.kleP n r 0) (s.kleU n r 0) (s.kleP n r 1))).map (·.2)).getD 0) ((fun (n : Nat) =>
       n % 32) 3) ((fun (n : Nat) (r : KRun) =>
       { r with pass := 1, blk := 0, row := 0, src1 := none, inj := none, work := [], base := kleVals (n + r.unv) }) ((fun (n
       : Nat) => n % 32) 3) default) ((fun (n : Nat) (r : KRun) (m : Fin 12) (s : State) => s.kleAt n 19 8 4 1 7 [m.val, 1,
       2] r) ((fun (n : Nat) => n % 32) 3) ((fun (n : Nat) (r : KRun) =>
       { r with pass := 1, blk := 0, row := 0, src1 := none, inj := none, work := [], base := kleVals (n + r.unv) }) ((fun (n
       : Nat) => n % 32) 3) default) 0 tLive)), by decide +kernel⟩,
   ⟨((fun (n : Nat) (r : KRun) (m : Fin 12) (s : State) => s.kleAt n 19 8 4 1 7 [m.val, 1,
       0] r) ((fun (n : Nat) => n % 32) 3) ((fun (n : Nat) (r : KRun) =>
       { r with pass := 1, blk := 0, row := 0, src1 := none, inj := none, work := [], base := kleVals (n + r.unv) }) ((fun (n
       : Nat) => n % 32) 3) default) 0 tLive), ((fun (n : Nat) => n % 32) 3),
       ((fun (n : Nat) (r : KRun) =>
       { r with pass := 1, blk := 0, row := 0, src1 := none, inj := none, work := [], base := kleVals (n + r.unv) }) ((fun (n
       : Nat) => n % 32) 3) default), 0,
       ((fun (n : Nat) (r : KRun) (s : State) =>
       ((F32.pwm (fmaW (s.kleP n r 0) (s.kleU n r 0) (s.kleP n r 1))).map (·.1)).getD 0) ((fun (n : Nat) =>
       n % 32) 3) ((fun (n : Nat) (r : KRun) =>
       { r with pass := 1, blk := 0, row := 0, src1 := none, inj := none, work := [], base := kleVals (n + r.unv) }) ((fun (n
       : Nat) => n % 32) 3) default) ((fun (n : Nat) (r : KRun) (m : Fin 12) (s : State) => s.kleAt n 19 8 4 1 7 [m.val, 1,
       0] r) ((fun (n : Nat) => n % 32) 3) ((fun (n : Nat) (r : KRun) =>
       { r with pass := 1, blk := 0, row := 0, src1 := none, inj := none, work := [], base := kleVals (n + r.unv) }) ((fun (n
       : Nat) => n % 32) 3) default) 0 tLive)),
       ((fun (n : Nat) (r : KRun) (s : State) =>
       ((F32.pwm (fmaW (s.kleP n r 0) (s.kleU n r 0) (s.kleP n r 1))).map (·.2)).getD 0) ((fun (n : Nat) =>
       n % 32) 3) ((fun (n : Nat) (r : KRun) =>
       { r with pass := 1, blk := 0, row := 0, src1 := none, inj := none, work := [], base := kleVals (n + r.unv) }) ((fun (n
       : Nat) => n % 32) 3) default) ((fun (n : Nat) (r : KRun) (m : Fin 12) (s : State) => s.kleAt n 19 8 4 1 7 [m.val, 1,
       0] r) ((fun (n : Nat) => n % 32) 3) ((fun (n : Nat) (r : KRun) =>
       { r with pass := 1, blk := 0, row := 0, src1 := none, inj := none, work := [], base := kleVals (n + r.unv) }) ((fun (n
       : Nat) => n % 32) 3) default) 0 tLive)), by decide +kernel⟩,
   ⟨((fun (n : Nat) (r : KRun) (m : Fin 12) (s : State) => s.kleAt n 19 8 4 1 7 [m.val, 1,
       0] r) ((fun (n : Nat) => n % 32) 3) ((fun (r : KRun) =>
       { r with pass := 1, blk := 0, row := 0, src1 := none, inj := none, work := [], base := [(1, 0x7FC00000)] })
       { base := [(1, 0x7FC00000)] }) 0 tLive), ((fun (n : Nat) => n % 32) 3),
       ((fun (r : KRun) => { r with pass := 1, blk := 0, row := 0, src1 := none, inj := none, work := [], base := [(1, 0x7FC00000)] })
       { base := [(1, 0x7FC00000)] }), 0, by decide +kernel⟩,
   ⟨((fun (n : Nat) (r : KRun) (q : Fin 64) (tag : Fin 64) (s : State) => (s.kleAt n 20 8 4 1 7 [q.val,
       tag.val] r).setPport 4 { s.pport 4 with fifo := [], freed := [] }) ((fun (n : Nat) =>
       n % 32) 3) ((fun (n : Nat) (r : KRun) =>
       { r with pass := 1, blk := 0, row := 0, src1 := none, inj := none, work := [], base := kleVals (n + r.unv) }) ((fun (n
       : Nat) => n % 32) 3) default) 0 0 tLive), ((fun (n : Nat) => n % 32) 3),
       ((fun (n : Nat) (r : KRun) =>
       { r with pass := 1, blk := 0, row := 0, src1 := none, inj := none, work := [], base := kleVals (n + r.unv) }) ((fun (n
       : Nat) => n % 32) 3) default), 0, 0, by decide +kernel⟩,
   ⟨((fun (n : Nat) (r : KRun) (slot : Fin 32) (w : Fin 63) (v : Word) (s : State) => (s.kleAt n 21 8 4 0x201 7 [slot.val,
       w.val, 2] r).setLatch slot.val w.val none |>.setLatch slot.val (w.val + 1) (some v)) ((fun (n : Nat) =>
       n % 32) 3) ((fun (n : Nat) (r : KRun) =>
       { r with pass := 1, blk := 0, row := 0, src1 := none, inj := none, work := [], base := kleVals (n + r.unv) }) ((fun (n
       : Nat) => n % 32) 3) default) 0 0 0 tLive), ((fun (n : Nat) => n % 32) 3),
       ((fun (n : Nat) (r : KRun) =>
       { r with pass := 1, blk := 0, row := 0, src1 := none, inj := none, work := [], base := kleVals (n + r.unv) }) ((fun (n
       : Nat) => n % 32) 3) default), 0, 0, 0, 0, by decide +kernel⟩,
   ⟨((fun (n : Nat) (r : KRun) (s : State) =>
       (s.kleAt n 1 8 4 0x201 7 [0] r).wrWord (plateAddr n 0) 0x01014B50) ((fun (n : Nat) =>
       n % 32) 3) ((fun (n : Nat) (r : KRun) =>
       { r with pass := 1, blk := 0, row := 0, src1 := none, inj := none, work := [], base := kleVals (n + r.unv) }) ((fun (n
       : Nat) => n % 32) 3) default) tLive), ((fun (n : Nat) => n % 32) 3),
       ((fun (n : Nat) (r : KRun) =>
       { r with pass := 1, blk := 0, row := 0, src1 := none, inj := none, work := [], base := kleVals (n + r.unv) }) ((fun (n
       : Nat) => n % 32) 3) default), by decide +kernel⟩⟩

theorem witness_SlotControl :
    (∃ (s : State) (n : Fin 32), s.runs gKLE = true ∧ s.kleHalted = false ∧ s.sst n.val = 1 ∧ (s.ks n.val).rstReq = false) ∧
    (∃ (s : State) (n : Fin 32), s.runs gKLE = true ∧ s.kleHalted = false ∧ s.sst n.val = 2 ∧ (s.ks n.val).rstReq = false ∧
        s.bit (Reg.KLE_SINFO n.val) 15 = false ∧ s.fld (Reg.KLE_OVRTALLY n.val) 0 16 < 65535 ∧
        s.fld (Reg.KLE_SSTAT n.val) 24 4 < 15) ∧
    (∃ (s : State) (n : Nat) (r : KRun), s.runs gKLE = true ∧ s.kleHalted = false ∧ s.kleCur = none ∧ s.selectSlot = some n ∧
        (s.ks n).run = some r) ∧
    (∃ (s : State) (n : Nat) (w : Fin 64) (v : Word), s.runs gKLE = true ∧ s.kleHalted = false ∧ s.kleCur = none ∧
        s.selectSlot = some n ∧ (s.ks n).run = none ∧ (s.ks n).ramp = none ∧ s.convDue n = false ∧ s.ecc = [] ∧
        s.latch n w.val = some v ∧ s.bit Reg.KLE_PEND n = false) ∧
    (∃ (s : State) (n : Nat) (w : Fin 64), s.runs gKLE = true ∧ s.kleHalted = false ∧ s.kleCur = none ∧
        s.selectSlot = some n ∧ (s.ks n).run = none ∧ (s.ks n).ramp = none ∧ s.convDue n = false ∧ s.ecc = [] ∧
        s.bit Reg.KLE_PEND n = true ∧ s.bit Reg.KLE_PLOCK n = false) ∧
    (∃ (s : State) (n : Nat), s.runs gKLE = true ∧ s.kleCur = some n ∧ s.preemptDue n = true) ∧
    (∃ (s : State) (n : Nat), s.kleCur = some n ∧ s.preemptDue n = false) ∧
    (∃ (s : State) (n : Fin 32) (r : KRun), s.runs gKLE = true ∧ s.slotDeadline n.val ≠ 0 ∧ s.sst n.val = 3 ∧
        (s.ks n.val).run = some r ∧ (s.ks n.val).late = false ∧ s.slotDeadline n.val ≤ s.clk.ran (s.ks n.val).trig ∧
        s.bit (Reg.KLE_SINFO n.val) 14 = false ∧ s.bit (Reg.KLE_SINFO n.val) 15 = false ∧
        s.fld (Reg.KLE_OVRTALLY n.val) 0 16 < 65535) ∧
    (∃ (s : State) (n : Fin 32) (r : KRun), s.runs gKLE = true ∧ s.slotDeadline n.val ≠ 0 ∧ s.sst n.val = 3 ∧
        (s.ks n.val).run = some r ∧ (s.ks n.val).late = false ∧ s.slotDeadline n.val ≤ s.clk.ran (s.ks n.val).trig ∧
        (s.ks n.val).penReq = none ∧ s.bit (Reg.KLE_SINFO n.val) 14 = true ∧ s.bit (Reg.KLE_SINFO n.val) 15 = false) ∧
    (∃ (s : State) (n : Fin 32), ((s.ks n.val).late = true ∨ s.clk.ran (s.ks n.val).trig < s.slotDeadline n.val)) ∧
    (∃ (s : State) (n : Fin 32), s.live = true ∧ s.gatedBit gKLE = false ∧ s.sst n.val = 0 ∧
        s.bit Reg.KLE_VALID n.val = true) ∧
    (∃ (s : State) (n : Fin 32), s.live = true ∧ s.gatedBit gKLE = false ∧
        (s.sst n.val = 4 ∨ s.bit Reg.KLE_VALID n.val = false)) ∧
    (∃ (s : State) (val : Word), s.live = true ∧ s.gatedBit gKLE = true ∧ val ≠ 0) ∧
    (∃ (s : State) (n : Fin 32), s.live = true ∧ s.slotOn n.val = true ∧ (s.ks n.val).penReq = none) ∧
    (∃ (s : State) (n : Fin 32), s.runs gKLE = true ∧ s.sst n.val ≠ 3 ∧ s.midBlock n.val = false ∧
        (s.ks n.val).injCmd = false ∧ (s.ks n.val).penReq = none) ∧
    (∃ (s : State) (n : Fin 32), s.live = true ∧ (s.sst n.val = 3 ∨ s.midBlock n.val = true ∨ s.gatedBit gKLE = true)) ∧
    (∃ (s : State) (n : Fin 32), s.runs gKLE = true ∧ s.midBlock n.val = false ∧ (s.ks n.val).rstReq = true ∧
        (s.ks n.val).injCmd = false ∧ s.cmdWaits 0x14 n.val = false ∧ (s.ks n.val).penReq = none) ∧
    (∃ (s : State) (n : Fin 32) (w : Fin 64) (val : Word), s.linkServes = true ∧ s.memServed = true ∧
        s.regServed .host (ctxAddr n.val 0x200 w.val) = true ∧ s.bit (Reg.KLE_SINFO n.val) 23 = false) ∧
    (∃ (s : State) (n : Fin 32) (w : Fin 64) (val : Word), s.linkServes = true ∧ s.memServed = true ∧
        s.regServed .host (ctxAddr n.val 0 w.val) = true) ∧
    (∃ (s : State) (src : Requester) (n : Fin 32) (w : Fin 1024) (val : Word), s.live = true ∧ s.slotOn n.val = false) ∧
    (∃ (s : State) (src : Requester) (n : Fin 32) (w : Fin 1024) (val : Word), s.live = true ∧ s.slotOn n.val = true) ∧
    (∃ (s : State) (n : Fin 32), s.runs gKLE = true ∧ s.sst n.val = 0 ∧ s.plateFault n.val = none) ∧
    (∃ (s : State) (n : Fin 32) (f : Nat), s.runs gKLE = true ∧ s.sst n.val = 0 ∧ s.plateFault n.val = some f ∧ f < 1024) ∧
    (∃ (s : State) (n : Fin 32), s.runs gKLE = true ∧ s.sst n.val ≠ 0) ∧
    (∃ (s : State) (n : Fin 32), s.live = true ∧ s.bit (Reg.KLE_LCTL n.val) 2 = false) ∧
    (∃ (s : State) (n : Fin 32) (a : Nat) (j : Nat), s.runs gKLE = true ∧ (s.ks n.val).clearRun = true ∧ s.nblk n.val = 1 ∧
        s.blkOp n.val 0 = 0x12 ∧ s.blkArg n.val 0 0 = a ∧ s.blkArg n.val 0 1 = j ∧ a + j ≤ 32768) ∧
    (∃ (s : State) (n : Fin 32) (val : Word), s.live = true ∧ (s.ks n.val).injCmd = false ∧ W.bit val 31 = true ∧
        s.rd (Reg.KLE_INJPAT n.val) ≠ 0 ∧ 2 ≤ W.fld val 0 2 ∧ W.fld val 0 2 ≤ s.slotPasses n.val) ∧
    (∃ (s : State) (n : Fin 32) (val : Word), s.live = true ∧ (s.ks n.val).injCmd = false ∧ W.bit val 31 = true ∧
        s.rd (Reg.KLE_INJPAT n.val) ≠ 0 ∧ (W.fld val 0 2 < 2 ∨ s.slotPasses n.val < W.fld val 0 2)) :=
  ⟨⟨((fun (n : Fin 32) (s : State) =>
      (s.wr (Reg.KLE_SSTAT n.val) 1 |>.wr Reg.KLE_STATUS 0).setKs n.val { s.ks n.val with rstReq := false }) 0 tLive), 0,
      by decide +kernel⟩,
   ⟨((fun (n : Fin 32) (s : State) =>
       (s.wr (Reg.KLE_SSTAT n.val) 0x1000002 |>.wr Reg.KLE_STATUS 0 |>.wr (Reg.KLE_SINFO n.val) 0x1000 |>.wr (Reg.KLE_OVRTALLY
       n.val) 7).setKs n.val { s.ks n.val with rstReq := false }) 0 tLive), 0, by decide +kernel⟩,
   ⟨((fun (n : Nat) (r : KRun) (s : State) =>
       (s.wr Reg.KLE_STATUS 0 |>.wr (Reg.KLE_SSTAT n) 2 |>.wr (Reg.KLE_SINFO n) 0).setKs n { s.ks n with run := some r })
       ((fun (s : State) => (s.selectSlot).getD 0) tLive) default tLive), ((fun (s : State) => (s.selectSlot).getD 0) tLive),
       default, by decide +kernel⟩,
   ⟨((fun (n : Nat) (w : Fin 64) (v : Word) (s : State) =>
       ({ (List.range 32).foldl (fun (s : State) k => s.wr (Reg.KLE_SSTAT k) (if k = n then 2 else 1)) s with ecc := [] }.wr
       Reg.KLE_STATUS 0 |>.wr Reg.KLE_PEND 0).setKs n { s.ks n with run := none, ramp := none, conv := none } |>.setLatch n
       w.val (some v)) 4 0 0 tLive), 4, 0, 0, by decide +kernel⟩,
   ⟨((fun (n : Nat) (w : Fin 64) (s : State) =>
       ({ (List.range 32).foldl (fun (s : State) k => s.wr (Reg.KLE_SSTAT k) (if k = n then 2 else 1)) s with ecc := [] }.wr
       Reg.KLE_STATUS 0 |>.wr Reg.KLE_PEND 0xFFFFFFFF |>.wr Reg.KLE_PLOCK 0 |>.wr (ctxAddr n 0x200 w.val) 0x1234567).setKs n
       { s.ks n with run := none, ramp := none, conv := none }) 4 0 tLive), 4, 0, by decide +kernel⟩,
   ⟨((fun (n : Nat) (s : State) => (List.range 32).foldl (fun (s : State) k =>
       s.wr (Reg.KLE_SSTAT k) (if k = 9 then 2 else 3) |>.wr (Reg.KLE_SINFO k) (if k = 9 then 0x100 else 0x200)) s |>.wr
       Reg.KLE_STATUS (BitVec.ofNat 32 (1 + 256 * n))) 4 tLive), 4, by decide +kernel⟩,
   ⟨((fun (n : Nat) (s : State) => (List.range 32).foldl (fun (s : State) k =>
       s.wr (Reg.KLE_SSTAT k) (if k = 9 then 2 else 3) |>.wr (Reg.KLE_SINFO k) (if k = 9 then 0x200 else 0x200)) s |>.wr
       Reg.KLE_STATUS (BitVec.ofNat 32 (1 + 256 * n))) 4 tLive), 4, by decide +kernel⟩,
   ⟨((fun (n : Fin 32) (r : KRun) (s : State) =>
       (s.wr (Reg.KLE_SSTAT n.val) 3 |>.wr (Reg.KLE_SINFO n.val) 0 |>.wr (Reg.KLE_SDEAD n.val) 9 |>.wr (Reg.KLE_OVRTALLY
       n.val) 7).setKs n.val { s.ks n.val with run := some r, late := false, penReq := none, trig := 0 } |> fun s =>
       { s with clk := { s.clk with tb := 100, stops := [] } }) 0 default tLive), 0, default, by decide +kernel⟩,
   ⟨((fun (n : Fin 32) (r : KRun) (s : State) =>
       (s.wr (Reg.KLE_SSTAT n.val) 3 |>.wr (Reg.KLE_SINFO n.val) 0x4000 |>.wr (Reg.KLE_SDEAD n.val) 9 |>.wr (Reg.KLE_OVRTALLY
       n.val) 7).setKs n.val { s.ks n.val with run := some r, late := false, penReq := none, trig := 0 } |> fun s =>
       { s with clk := { s.clk with tb := 100, stops := [] } }) 0 default tLive), 0, default, by decide +kernel⟩,
   ⟨((fun (n : Fin 32) (s : State) => s.setKs n.val { s.ks n.val with late := true }) 0 tLive), 0, by decide +kernel⟩,
   ⟨((fun (n : Fin 32) (s : State) => s.wr (Reg.KLE_SSTAT n.val) 0 |>.wr Reg.KLE_VALID 0xFFFFFFFF) 0 tLive), 0,
       by decide +kernel⟩,
   ⟨((fun (n : Fin 32) (s : State) => s.wr (Reg.KLE_SSTAT n.val) 4) 0 tLive), 0, by decide +kernel⟩,
   ⟨tTrim gKLE, 1, by decide +kernel⟩,
   ⟨((fun (n : Fin 32) (s : State) =>
       s.wr (Reg.KLE_SSTAT n.val) 2 |>.setKs n.val { s.ks n.val with penReq := none, injCmd := false }) 0 tLive), 0,
       by decide +kernel⟩,
   ⟨((fun (n : Fin 32) (s : State) =>
       (s.wr (Reg.KLE_SSTAT n.val) 4 |>.wr (ctxAddr n.val 0 5) 7 |>.wr (ctxAddr n.val 0x300 5) 7).setKs n.val
       { s.ks n.val with run := none, penReq := none, injCmd := false }) 0 tLive), 0, by decide +kernel⟩,
   ⟨((fun (n : Fin 32) (s : State) => s.wr (Reg.KLE_SSTAT n.val) 3) 0 tLive), 0, by decide +kernel⟩,
   ⟨((fun (n : Fin 32) (s : State) =>
       (s.wr (Reg.KLE_SSTAT n.val) 3 |>.wr (ctxAddr n.val 0 5) 7 |>.wr (ctxAddr n.val 0x300 5) 7).setKs n.val
       { s.ks n.val with run := none, penReq := none, injCmd := false, rstReq := true }) 0 tLive), 0, by decide +kernel⟩,
   ⟨((fun (n : Fin 32) (s : State) =>
       s.wr (Reg.KLE_SINFO n.val) 0 |>.setBit Reg.HIF_LINKSTAT 0 true |>.cfgWr 1 0x00100006 |>.cfgWr 0x11 0 |>.setFld
       Reg.SYS_BOOTSTAT 0 4 1) 0 tLive), 0, 0, 0, by decide +kernel⟩,
   ⟨((fun (s : State) => s.setBit Reg.HIF_LINKSTAT 0 true |>.cfgWr 1 0x00100006 |>.cfgWr 0x11 0 |>.setFld Reg.SYS_BOOTSTAT 0 4
       1) tLive), 0, 0, 0, by decide +kernel⟩,
   ⟨((fun (n : Fin 32) (s : State) => s.wr (Reg.KLE_SSTAT n.val) 4) 0 tLive), .debug, 0, 0, 0, by decide +kernel⟩,
   ⟨((fun (n : Fin 32) (s : State) => s.wr (Reg.KLE_SSTAT n.val) 1) 0 tLive), .debug, 0, 0, 0, by decide +kernel⟩,
   ⟨((fun (n : Fin 32) (s : State) => { s with mem := [] }.wrWords (plateAddr n.val 0) ([0x01014B50, 0, 0x305, 0x777,
       1] ++ List.replicate 26 0 ++ [crc32 ([0x01014B50, 0, 0x305, 0x777, 1] ++ List.replicate 26 0 ++ [0x00000001, 0x0201, 3,
       0, 0, 0, 0, 0])] ++ [0x00000001, 0x0201, 3, 0, 0, 0, 0, 0]) |>.wr (Reg.KLE_SSTAT n.val) 0) 0 tLive), 0,
       by decide +kernel⟩,
   ⟨((fun (n : Fin 32) (s : State) => s.wr (Reg.KLE_SSTAT n.val) 0) 0 tLive), 0,
       ((fun (n : Fin 32) (s : State) => (s.plateFault n.val).getD 0) 0 ((fun (n : Fin 32) (s : State) =>
       s.wr (Reg.KLE_SSTAT n.val) 0) 0 tLive)), by decide +kernel⟩,
   ⟨((fun (n : Fin 32) (s : State) => s.wr (Reg.KLE_SSTAT n.val) 2) 0 tLive), 0, by decide +kernel⟩,
   ⟨((fun (n : Fin 32) (s : State) => s.wr (Reg.KLE_LCTL n.val) 1) 0 tLive), 0, by decide +kernel⟩,
   ⟨((fun (n : Fin 32) (s : State) => (s.kleAt n.val 18 8 4 1 0x807 [6, 5, 0,
       1] {} |>.wrWord (plateAddr n.val 0) 0x01014B50 |>.wrWords 0x01020010 [1, 2, 0x40A00000, 0x40A00001, 0x3F800000,
       0x40000000, 0x41000000]).setKs n.val { s.ks n.val with clearRun := true }) 0 tLive), 0, 6, 5, by decide +kernel⟩,
   ⟨((fun (n : Fin 32) (s : State) =>
       (s.wr (Reg.KLE_INJPAT n.val) 0x80 |>.wr (Reg.KLE_SINFO n.val) 0x2000).setKs n.val { s.ks n.val with injCmd := false })
       0 tLive), 0, ((fun (val : Word) => val &&& 0x7FFFFFFC ||| 0x80000002) 0x80000502), by decide +kernel⟩,
   ⟨((fun (n : Fin 32) (s : State) =>
       (s.wr (Reg.KLE_INJPAT n.val) 0x80 |>.wr (Reg.KLE_SINFO n.val) 0x2000).setKs n.val { s.ks n.val with injCmd := false })
       0 tLive), 0, ((fun (val : Word) => val &&& 0x7FFFFFFC ||| 0x80000003) 0x80000503), by decide +kernel⟩⟩

theorem witness_HatchVote :
    (∃ (s : State) (n : Nat) (b : Nat) (r : KRun) (coin : BitVec 64) (w : Fin 64) (v : Word), s.atVote n r 3 = true ∧
        r.s1 = [⟨b, .sig w.val, v⟩] ∧ r.s2 = r.s1 ∧ r.s3 = r.s1) ∧
    (∃ (s : State) (n : Nat) (b : Nat) (r : KRun) (coin : BitVec 64) (w : Fin 64) (v : Word) (v' : Word),
        s.atVote n r 3 = true ∧ v ≠ v' ∧ r.s1 = [⟨b, .sig w.val, v⟩] ∧ r.s2 = [⟨b, .sig w.val, v'⟩] ∧ r.s3 = r.s1 ∧
        (W.of32 (s.plate n 5) (s.plate n 6)).getLsbD w.val = true ∧ s.fld (Reg.KLE_HSTAT n) 12 4 + 1 < s.klePermn ∧
        s.fld (Reg.KLE_HTALLY n) 0 16 < 65535) ∧
    (∃ (s : State) (n : Nat) (b : Nat) (r : KRun) (coin : BitVec 64) (w : Fin 64) (v : Word) (v' : Word),
        s.atVote n r 2 = true ∧ v ≠ v' ∧ r.s1 = [⟨b, .sig w.val, v⟩] ∧ r.s2 = [⟨b, .sig w.val, v'⟩] ∧
        (W.of32 (s.plate n 5) (s.plate n 6)).getLsbD w.val = true ∧ s.fld (Reg.KLE_HSTAT n) 12 4 + 1 < s.klePermn) ∧
    (∃ (s : State) (n : Nat) (b : Nat) (r : KRun) (coin : BitVec 64) (w : Fin 64) (v : Word) (v' : Word),
        s.atVote n r 2 = true ∧ v ≠ v' ∧ r.s1 = [⟨b, .sig w.val, v⟩] ∧ r.s2 = [⟨b, .sig w.val, v'⟩] ∧
        (W.of32 (s.plate n 5) (s.plate n 6)).getLsbD w.val = false ∧ s.fld (Reg.KLE_HSTAT n) 16 4 < 7 ∧
        s.fld (Reg.KLE_HTALLY2 n) 0 16 < 65535) ∧
    (∃ (s : State) (n : Nat) (b : Nat) (r : KRun) (coin : BitVec 64) (w : Fin 64) (v : Word) (v' : Word),
        s.atVote n r 2 = true ∧ v ≠ v' ∧ r.s1 = [⟨b, .sig w.val, v⟩] ∧ r.s2 = [⟨b, .sig w.val, v'⟩] ∧
        (W.of32 (s.plate n 5) (s.plate n 6)).getLsbD w.val = true ∧ s.klePermn ≤ s.fld (Reg.KLE_HSTAT n) 12 4 + 1 ∧
        s.klePermn ≤ 15) :=
  ⟨⟨((fun (n : Nat) (r : KRun) (s : State) =>
      (s.wrWord (plateAddr n 4) 3 |>.wr (Reg.KLE_SINFO n) 0x3000 |>.wr Reg.KLE_STATUS (BitVec.ofNat 32 (1 + 256 * n))).setKs n
      { run := some r }) ((fun (n : Nat) => n % 32) 3) ((fun (b : Nat) (r : KRun) (w : Fin 64) (v : Word) =>
      { r with pass := 4, unv := 0, inj := none, s1 := [⟨b, .sig w.val, v⟩], s2 := [⟨b, .sig w.val, v⟩], s3 := [⟨b, .sig w.val, v⟩] })
      0 default 0 0) tLive), ((fun (n : Nat) => n % 32) 3), 0,
      ((fun (b : Nat) (r : KRun) (w : Fin 64) (v : Word) =>
      { r with pass := 4, unv := 0, inj := none, s1 := [⟨b, .sig w.val, v⟩], s2 := [⟨b, .sig w.val, v⟩], s3 := [⟨b, .sig w.val, v⟩] })
      0 default 0 0), 0, 0, 0, by decide +kernel⟩,
   ⟨((fun (n : Nat) (r : KRun) (s : State) => (s.wrWord (plateAddr n 4) 3 |>.wrWords (plateAddr n 5) [0xFFFFFFFF,
       0xFFFFFFFF] |>.wr (Reg.KLE_SINFO n) 0x3000 |>.wr Reg.KLE_CTRL 5 |>.wr (Reg.KLE_HTALLY n) 5 |>.wr (Reg.KLE_HSTAT n) 0
       |>.wr Reg.KLE_STATUS (BitVec.ofNat 32 (1 + 256 * n))).setKs n { run := some r }) ((fun (n : Nat) =>
       n % 32) 3) ((fun (b : Nat) (r : KRun) (w : Fin 64) (v : Word) (v' : Word) =>
       { r with pass := 4, unv := 0, inj := none, s1 := [⟨b, .sig w.val, v⟩], s2 := [⟨b, .sig w.val, v'⟩], s3 := [⟨b, .sig w.val, v⟩] })
       0 default 0 0 1) tLive), ((fun (n : Nat) => n % 32) 3), 0,
       ((fun (b : Nat) (r : KRun) (w : Fin 64) (v : Word) (v' : Word) =>
       { r with pass := 4, unv := 0, inj := none, s1 := [⟨b, .sig w.val, v⟩], s2 := [⟨b, .sig w.val, v'⟩], s3 := [⟨b, .sig w.val, v⟩] })
       0 default 0 0 1), 0, 0, 0, 1, by decide +kernel⟩,
   ⟨((fun (n : Nat) (r : KRun) (s : State) => (s.wrWord (plateAddr n 4) 2 |>.wrWords (plateAddr n 5) [0xFFFFFFFF,
       0xFFFFFFFF] |>.wr (Reg.KLE_SINFO n) 0x2000 |>.wr Reg.KLE_CTRL 5 |>.wr (Reg.KLE_HTALLY n) 5 |>.wr (Reg.KLE_HSTAT n)
       0x1000 |>.wr Reg.KLE_STATUS (BitVec.ofNat 32 (1 + 256 * n))).setKs n { run := some r }) ((fun (n : Nat) =>
       n % 32) 3) ((fun (b : Nat) (r : KRun) (w : Fin 64) (v : Word) (v' : Word) =>
       { r with pass := 3, unv := 0, inj := none, s1 := [⟨b, .sig w.val, v⟩], s2 := [⟨b, .sig w.val, v'⟩] }) 0 default 0 0 1)
       tLive), ((fun (n : Nat) => n % 32) 3), 0,
       ((fun (b : Nat) (r : KRun) (w : Fin 64) (v : Word) (v' : Word) =>
       { r with pass := 3, unv := 0, inj := none, s1 := [⟨b, .sig w.val, v⟩], s2 := [⟨b, .sig w.val, v'⟩] }) 0 default 0 0 1),
       0, 0, 0, 1, by decide +kernel⟩,
   ⟨((fun (n : Nat) (r : KRun) (s : State) => (s.wrWord (plateAddr n 4) 2 |>.wrWords (plateAddr n 5) [0,
       0] |>.wr (Reg.KLE_SINFO n) 0x2000 |>.wr Reg.KLE_CTRL 5 |>.wr (Reg.KLE_HTALLY n) 5 |>.wr (Reg.KLE_HTALLY2 n) 5 |>.wr
       (Reg.KLE_HSTAT n) 0x11000 |>.wr Reg.KLE_STATUS (BitVec.ofNat 32 (1 + 256 * n))).setKs n { run := some r }) ((fun (n :
       Nat) => n % 32) 3) ((fun (b : Nat) (r : KRun) (w : Fin 64) (v : Word) (v' : Word) =>
       { r with pass := 3, unv := 0, inj := none, s1 := [⟨b, .sig w.val, v⟩], s2 := [⟨b, .sig w.val, v'⟩] }) 0 default 0 0 1)
       tLive), ((fun (n : Nat) => n % 32) 3), 0,
       ((fun (b : Nat) (r : KRun) (w : Fin 64) (v : Word) (v' : Word) =>
       { r with pass := 3, unv := 0, inj := none, s1 := [⟨b, .sig w.val, v⟩], s2 := [⟨b, .sig w.val, v'⟩] }) 0 default 0 0 1),
       0, 0, 0, 1, by decide +kernel⟩,
   ⟨((fun (n : Nat) (r : KRun) (s : State) => (s.wrWord (plateAddr n 4) 2 |>.wrWords (plateAddr n 5) [0xFFFFFFFF,
       0xFFFFFFFF] |>.wr (Reg.KLE_SINFO n) 0x2000 |>.wr Reg.KLE_CTRL 2 |>.wr (Reg.KLE_HTALLY n) 5 |>.wr (Reg.KLE_HSTAT n)
       0x1000 |>.wr Reg.KLE_STATUS (BitVec.ofNat 32 (1 + 256 * n))).setKs n { run := some r }) ((fun (n : Nat) =>
       n % 32) 3) ((fun (b : Nat) (r : KRun) (w : Fin 64) (v : Word) (v' : Word) =>
       { r with pass := 3, unv := 0, inj := none, s1 := [⟨b, .sig w.val, v⟩], s2 := [⟨b, .sig w.val, v'⟩] }) 0 default 0 0 1)
       tLive), ((fun (n : Nat) => n % 32) 3), 0,
       ((fun (b : Nat) (r : KRun) (w : Fin 64) (v : Word) (v' : Word) =>
       { r with pass := 3, unv := 0, inj := none, s1 := [⟨b, .sig w.val, v⟩], s2 := [⟨b, .sig w.val, v'⟩] }) 0 default 0 0 1),
       0, 0, 0, 1, by decide +kernel⟩⟩

theorem witness_PwmEvents :
    (∃ (s : State) (m : Fin 12), s.zeroDue m.val = true ∧ s.rd (Reg.PWM_EVSEL m.val) = 0) ∧
    (∃ (s : State) (m : Fin 12), s.zeroDue m.val = true ∧ s.pwmMode m.val ≠ 1 ∧ ((tget [] (s.pm m.val).sh 1 = [] ∧
        s.fld (Reg.PWM_CMPA m.val) 0 20 = (s.pm m.val).ca) ∨ s.pwmLd m.val 1 % 2 = 1)) ∧
    (∃ (s : State) (m : Fin 12), s.zeroDue m.val = true ∧ s.pwmMode m.val ≠ 1 ∧ s.pwmLd m.val 2 % 2 = 0 ∧
        tget [] (s.pm m.val).sh 2 = [] ∧ (s.pm m.val).cb = 0 ∧ s.bit Reg.PWM_DLSTAT 0 = true) ∧
    (∃ (s : State) (m : Fin 12), s.zeroDue m.val = true ∧ s.pwmMode m.val ≠ 1 ∧ s.bit (Reg.PWM_OUT m.val) 0 = true ∧
        s.pwmTripped m.val = false ∧ (s.pm m.val).chA.act = false ∧ (s.pm m.val).chA.hold = 0 ∧ 0 < s.fine (s.pm m.val).ca ∧
        tget [] (s.pm m.val).sh 1 = [] ∧ s.fld (Reg.PWM_CMPA m.val) 0 20 = (s.pm m.val).ca) ∧
    (∃ (s : State) (m : Fin 12), s.zeroDue m.val = true ∧ s.bit (Reg.PWM_EVSEL m.val) 0 = true ∧
        s.fld (Reg.PWM_EVPRE m.val) 0 4 = 1 ∧ s.pwmAt m.val 0 = false) ∧
    (∃ (s : State) (m : Fin 12), s.zeroDue m.val = true ∧ m.val < 11 ∧ s.fld (Reg.PWM_CFG m.val) 11 2 = 1) ∧
    (∃ (s : State) (m : Fin 12), s.periodDue m.val = true) ∧
    (∃ (s : State) (m : Fin 12), s.matchDue m.val 0 false = true ∧ s.pwmAt m.val ((s.pm m.val).ca / 16) = false ∧
        (s.pm m.val).ca < 2 ^ 20) ∧
    (∃ (s : State) (m : Fin 12), s.matchDue m.val 0 true = true ∧ s.pwmAt m.val ((s.pm m.val).ca / 16) = false ∧
        (s.pm m.val).ca < 2 ^ 20 ∧ (s.pm m.val).ca ≠ 0) ∧
    (∃ (s : State) (m : Fin 12), s.matchDue m.val 1 false = true ∧ s.pwmAt m.val ((s.pm m.val).cb / 16) = false ∧
        (s.pm m.val).cb < 2 ^ 20) ∧
    (∃ (s : State) (m : Fin 12), s.matchDue m.val 1 true = true ∧ s.pwmAt m.val ((s.pm m.val).cb / 16) = false ∧
        (s.pm m.val).cb < 2 ^ 20 ∧ (s.pm m.val).cb ≠ 0) ∧
    (∃ (s : State) (m : Fin 12), s.runs gPWM = true ∧ s.pwmLd m.val 1 = 3 ∧ s.pwmLd m.val 2 = 3 ∧ s.pwmLd m.val 0 ≠ 3 ∧
        tget [] (s.pm m.val).sh 1 = [] ∧ tget [] (s.pm m.val).sh 2 = []) ∧
    (∃ (s : State) (m : Fin 12), s.pwmCounts m.val = true ∧ s.pwmLd m.val 0 = 3 ∧ s.pwmMode m.val = 0 ∧
        tget [] (s.pm m.val).sh 0 = [] ∧ max 2 (s.fld (Reg.PWM_PRD m.val) 0 16) ≤ s.pwmCount m.val ∧
        max 2 (s.fld (Reg.PWM_PRD m.val) 0 16) ≠ s.pwmPrd m.val) ∧
    (∃ (s : State) (m : Fin 12), s.runs gPWM = true ∧ (s.pm m.val).sync = true ∧ s.bit (Reg.PWM_CFG m.val) 13 = true ∧
        s.pwmRun m.val = true) ∧
    (∃ (s : State) (m : Fin 12), s.runs gPWM = true ∧ (s.pm m.val).sync = true ∧ s.bit (Reg.PWM_CFG m.val) 13 = false) ∧
    (∃ (s : State) (val : Word), s.runs gPWM = true ∧ W.bit val 0 = true) ∧
    (∃ (s : State) (m : Fin 12), s.live = true ∧ s.gatedBit gPWM = false) ∧
    (∃ (s : State) (m : Fin 12), s.live = true ∧ s.gatedBit gPWM = true) ∧
    (∃ (s : State) (m : Fin 12) (val : Word), s.runs gPWM = true ∧ W.bit val 0 = true ∧ s.bit (Reg.PWM_CFG m.val) 15 = true ∧
        s.bit Reg.PWM_TRIPPED m.val = false) ∧
    (∃ (s : State) (m : Fin 12), s.runs gPWM = true ∧ s.tripQuiet m.val = false ∧ s.bit (Reg.PWM_CFG m.val) 15 = false ∧
        (s.pm m.val).tripCur = true) ∧
    (∃ (s : State) (m : Fin 12), s.tripQuiet m.val = true) ∧
    (∃ (s : State) (m : Fin 12), s.live = true) ∧
    (∃ (s : State) (m : Fin 12), s.live = true ∧ s.haltHolds = false ∧ s.bit Reg.PWM_TRIPPED m.val = false ∧
        s.pwmRun m.val = true ∧ s.fld (Reg.PWM_OUT m.val) 0 2 = 0) ∧
    (∃ (s : State) (m : Fin 12), s.live = true ∧
        (s.haltHolds = true ∨ s.bit Reg.PWM_TRIPPED m.val = true ∨ s.pwmRun m.val = false) ∧
        s.fld (Reg.PWM_OUT m.val) 0 2 = 0) ∧
    (∃ (s : State) (m : Fin 12), s.zeroDue m.val = false) ∧
    (∃ (s : State) (m : Fin 12), s.periodDue m.val = false) ∧
    (∃ (s : State) (m : Fin 12), s.matchDue m.val 0 false = false) ∧
    (∃ (s : State) (m : Fin 12), s.matchDue m.val 0 true = false) ∧
    (∃ (s : State) (m : Fin 12), s.matchDue m.val 1 false = false) ∧
    (∃ (s : State) (m : Fin 12), s.matchDue m.val 1 true = false) ∧
    (∃ (s : State), s.live = true) :=
  ⟨⟨((fun (m : Fin 12) (s : State) =>
      s.setBit (Reg.PWM_CFG m.val) 16 true |>.wr (Reg.PWM_EVSEL m.val) 0 |>.setPm m.val { s.pm m.val with since := 5 }) 0
      tLive), 0, by decide +kernel⟩,
   ⟨((fun (m : Fin 12) (s : State) =>
       s.wr (Reg.PWM_CFG m.val) 0x10082 |>.wr (Reg.PWM_COUNT m.val) 0x10005 |>.setPm m.val
       { s.pm m.val with since := 5, sh := [] }) 0 tLive), 0, by decide +kernel⟩,
   ⟨((fun (m : Fin 12) (s : State) =>
       s.wr (Reg.PWM_CFG m.val) 0x10002 |>.wr (Reg.PWM_COUNT m.val) 0x10005 |>.wr Reg.PWM_DLSTAT 1 |>.setPm m.val
       { s.pm m.val with cb := 0, since := 5, sh := [] } |>.wr (Reg.PWM_CMPB m.val) 0x345) 0 tLive), 0, by decide +kernel⟩,
   ⟨((fun (m : Fin 12) (s : State) =>
       (s.wr (Reg.PWM_CFG m.val) 0x10002 |>.wr (Reg.PWM_COUNT m.val) 0x10005 |>.wr (Reg.PWM_OUT m.val) 1 |>.wr (Reg.PWM_CMPA
       m.val) 0x345).setPm m.val { s.pm m.val with ca := 0x345, chA := {}, since := 5, sh := [] }) 0 tLive), 0,
       by decide +kernel⟩,
   ⟨((fun (m : Fin 12) (s : State) =>
       s.wr (Reg.PWM_CFG m.val) 0x10002 |>.wr (Reg.PWM_COUNT m.val) 0x10005 |>.wr (Reg.PWM_EVSEL m.val) 1 |>.wr (Reg.PWM_EVPRE
       m.val) 1 |>.setPm m.val { s.pm m.val with since := 5 }) 0 tLive), 0, by decide +kernel⟩,
   ⟨((fun (m : Fin 12) (s : State) =>
       s.wr (Reg.PWM_CFG m.val) 0x10802 |>.wr (Reg.PWM_COUNT m.val) 0x10005 |>.setPm m.val { s.pm m.val with since := 5 })
       ((fun (m : Fin 12) => if m.val = 11 then 3 else m) 0) tLive), ((fun (m : Fin 12) => if m.val = 11 then 3 else m) 0),
       by decide +kernel⟩,
   ⟨((fun (m : Fin 12) (s : State) =>
       s.setBit (Reg.PWM_CFG m.val) 16 true |>.setPm m.val { s.pm m.val with since := 5 }) 0 tLive), 0, by decide +kernel⟩,
   ⟨((fun (m : Fin 12) (s : State) =>
       s.wr (Reg.PWM_CFG m.val) 0x10002 |>.wr (Reg.PWM_COUNT m.val) 3 |>.setPm m.val
       { s.pm m.val with ca := 0x1235, prd := 0x200, since := 5 }) 0 tLive), 0, by decide +kernel⟩,
   ⟨((fun (m : Fin 12) (s : State) =>
       s.wr (Reg.PWM_CFG m.val) 0x10002 |>.wr (Reg.PWM_COUNT m.val) 0x101FF |>.setPm m.val
       { s.pm m.val with ca := 0x1235, prd := 0x200, since := 5 }) 0 tLive), 0, by decide +kernel⟩,
   ⟨((fun (m : Fin 12) (s : State) =>
       s.wr (Reg.PWM_CFG m.val) 0x10002 |>.wr (Reg.PWM_COUNT m.val) 3 |>.setPm m.val
       { s.pm m.val with cb := 0x1235, prd := 0x200, since := 5 }) 0 tLive), 0, by decide +kernel⟩,
   ⟨((fun (m : Fin 12) (s : State) =>
       s.wr (Reg.PWM_CFG m.val) 0x10002 |>.wr (Reg.PWM_COUNT m.val) 0x101FF |>.setPm m.val
       { s.pm m.val with cb := 0x1235, prd := 0x200, since := 5 }) 0 tLive), 0, by decide +kernel⟩,
   ⟨((fun (m : Fin 12) (s : State) => s.wr (Reg.PWM_CFG m.val) 0x10782 |>.setPm m.val { s.pm m.val with sh := [] }) 0 tLive),
       0, by decide +kernel⟩,
   ⟨((fun (m : Fin 12) (s : State) =>
       s.wr (Reg.PWM_CFG m.val) 0x10060 |>.wr (Reg.PWM_PRD m.val) 0x50 |>.wr (Reg.PWM_COUNT m.val) 0x60 |>.setPm m.val
       { s.pm m.val with sh := [] }) 0 tLive), 0, by decide +kernel⟩,
   ⟨((fun (m : Fin 12) (s : State) =>
       s.setBit (Reg.PWM_CFG m.val) 16 true |>.setBit (Reg.PWM_CFG m.val) 13 true |>.setPm m.val
       { s.pm m.val with sync := true }) 0 tLive), 0, by decide +kernel⟩,
   ⟨((fun (m : Fin 12) (s : State) =>
       s.setBit (Reg.PWM_CFG m.val) 13 false |>.setPm m.val { s.pm m.val with sync := true }) 0 tLive), 0, by decide +kernel⟩,
   ⟨tLive, ((fun (val : Word) => val ||| 1) 0), by decide +kernel⟩,
   ⟨tLive, 0, by decide +kernel⟩,
   ⟨tTrim gPWM, 11, by decide +kernel⟩,
   ⟨((fun (m : Fin 12) (s : State) => s.wr (Reg.PWM_CFG m.val) 0x18000 |>.wr Reg.PWM_TRIPPED 0) 0 tLive), 0,
       ((fun (val : Word) => val ||| 1) 0), by decide +kernel⟩,
   ⟨((fun (m : Fin 12) (s : State) =>
       (s.wr (Reg.PWM_CFG m.val) 0x10000 |>.wr (Reg.PWM_TRIPSEL m.val) 0xFFFFFF |>.setPm m.val
       { s.pm m.val with tripCur := true }).setCmp 3 { line := true }) 0 tLive), 0, by decide +kernel⟩,
   ⟨((fun (m : Fin 12) (s : State) => s.wr (Reg.PWM_TRIPSEL m.val) 0) 0 tLive), 0, by decide +kernel⟩,
   ⟨tLive, 0, by decide +kernel⟩,
   ⟨((fun (m : Fin 12) (s : State) =>
       (s.wr (Reg.PWM_CFG m.val) 0x10000 |>.wr Reg.PWM_TRIPPED 0 |>.wr (Reg.PWM_OUT m.val) 0 |>.wr Reg.KLE_STATUS 0 |>.wr
       Reg.DBG_SAFECFG 0)) 0 tLive), 0, by decide +kernel⟩,
   ⟨((fun (m : Fin 12) (s : State) => (s.wr Reg.PWM_TRIPPED 0xFFF |>.wr (Reg.PWM_OUT m.val) 0)) 0 tLive), 0,
       by decide +kernel⟩,
   ⟨tLive, 0, by decide +kernel⟩,
   ⟨tLive, 0, by decide +kernel⟩,
   ⟨tLive, 0, by decide +kernel⟩,
   ⟨tLive, 0, by decide +kernel⟩,
   ⟨tLive, 0, by decide +kernel⟩,
   ⟨tLive, 0, by decide +kernel⟩,
   ⟨tLive, by decide +kernel⟩⟩

theorem witness_OutputDiagnosis :
    (∃ (s : State) (o : Fin 24) (k : Nat) (rest : List Nat) (sense : Bool), s.runs gPWM = true ∧
        s.bit (Reg.PWM_DIAGCFG o.val) 0 = true ∧ (s.dg o.val).ended = k :: rest ∧ k < s.diagLimit o.val ∧
        s.fld (Reg.PWM_DIAGSTAT o.val) 16 16 + 1 < max 1 (s.fld (Reg.PWM_DIAGTIM o.val) 16 16)) ∧
    (∃ (s : State) (o : Fin 24) (k : Nat) (rest : List Nat) (sense : Bool), s.runs gPWM = true ∧
        s.bit (Reg.PWM_DIAGCFG o.val) 0 = true ∧ (s.dg o.val).ended = k :: rest ∧ k < s.diagLimit o.val ∧
        max 1 (s.fld (Reg.PWM_DIAGTIM o.val) 16 16) ≤ min 65535 (s.fld (Reg.PWM_DIAGSTAT o.val) 16 16 + 1) ∧
        s.bit (Reg.PWM_DIAGCFG o.val) 6 = false ∧ s.bit (Reg.PWM_DIAGSTAT o.val) 3 = false) ∧
    (∃ (s : State) (o : Fin 24) (k : Nat) (rest : List Nat), s.runs gPWM = true ∧ s.bit (Reg.PWM_DIAGCFG o.val) 0 = true ∧
        ((s.dg o.val).ended = k :: rest ∨ ((s.dg o.val).ended = [] ∧ rest = [] ∧ s.diagReady o.val = true ∧
        k = s.diagLimit o.val)) ∧ s.diagLimit o.val ≤ k ∧ (s.dg o.val).retry = false) ∧
    (∃ (s : State) (o : Fin 24) (k : Nat) (rest : List Nat), s.runs gPWM = true ∧ s.bit (Reg.PWM_DIAGCFG o.val) 0 = true ∧
        ((s.dg o.val).ended = k :: rest ∨ ((s.dg o.val).ended = [] ∧ rest = [] ∧ s.diagReady o.val = true ∧
        k = s.diagLimit o.val)) ∧ s.diagLimit o.val ≤ k ∧ (s.dg o.val).retry = false) ∧
    (∃ (s : State) (o : Fin 24) (k : Nat) (rest : List Nat), s.runs gPWM = true ∧ s.bit (Reg.PWM_DIAGCFG o.val) 0 = true ∧
        ((s.dg o.val).ended = k :: rest ∨ ((s.dg o.val).ended = [] ∧ rest = [] ∧ s.diagReady o.val = true ∧
        k = s.diagLimit o.val)) ∧ s.diagLimit o.val ≤ k ∧ (s.dg o.val).retry = true ∧
        s.bit (Reg.PWM_DIAGSTAT o.val) 2 = false ∧
        max 1 (s.fld Reg.PWM_DIAGPERM 0 4) ≤ min 15 (s.fld (Reg.PWM_DIAGSTAT o.val) 4 4 + 1) ∧
        s.fld (Reg.PWM_DIAGTALLY o.val) 0 16 < 65535) ∧
    (∃ (s : State) (o : Fin 24) (sense : Bool), (s.bit (Reg.PWM_DIAGCFG o.val) 0 = false ∨ ((s.dg o.val).ended = [] ∧
        s.diagReady o.val = false))) :=
  ⟨⟨((fun (o : Fin 24) (k : Nat) (s : State) =>
      (s.setDg o.val { s.dg o.val with ended := [k] }).wr (Reg.PWM_DIAGCFG o.val) 1 |>.wr (Reg.PWM_DIAGTIM o.val) 0x90000
      |>.wr (Reg.PWM_DIAGSTAT o.val) 0x20000) 0 ((fun (k : Nat) => k % 160) 0) tLive), 0, ((fun (k : Nat) => k % 160) 0), [],
      true, by decide +kernel⟩,
   ⟨((fun (o : Fin 24) (k : Nat) (s : State) =>
       (s.setDg o.val { s.dg o.val with ended := [k] }).wr (Reg.PWM_DIAGCFG o.val) 1 |>.wr (Reg.PWM_DIAGTIM o.val) 0x30000
       |>.wr (Reg.PWM_DIAGSTAT o.val) 0x20000) 0 ((fun (k : Nat) => k % 160) 0) tLive), 0, ((fun (k : Nat) => k % 160) 0), [],
       true, by decide +kernel⟩,
   ⟨((fun (o : Fin 24) (k : Nat) (rest : List Nat) (s : State) =>
       s.wr (Reg.PWM_DIAGCFG o.val) 0x21 |>.setDg o.val { ended := k :: rest }) 0 ((fun (k : Nat) => k+9000) 9000) [] tLive),
       0, ((fun (k : Nat) => k+9000) 9000), [], by decide +kernel⟩,
   ⟨((fun (o : Fin 24) (k : Nat) (rest : List Nat) (s : State) =>
       s.wr (Reg.PWM_DIAGCFG o.val) 0x21 |>.setDg o.val { ended := k :: rest }) 0 ((fun (k : Nat) => k+9000) 9000) [] tLive),
       0, ((fun (k : Nat) => k+9000) 9000), [], by decide +kernel⟩,
   ⟨((fun (o : Fin 24) (k : Nat) (rest : List Nat) (s : State) =>
       s.wr (Reg.PWM_DIAGCFG o.val) 0x21 |>.setDg o.val { retry := true, ended := k :: rest } |>.wr (Reg.PWM_DIAGSTAT o.val)
       0x20 |>.wr Reg.PWM_DIAGPERM 3 |>.wr (Reg.PWM_DIAGTALLY o.val) 4) 0 ((fun (k : Nat) => k+9000) 9000) [] tLive), 0,
       ((fun (k : Nat) => k+9000) 9000), [], by decide +kernel⟩,
   ⟨tLive, 0, true, by decide +kernel⟩⟩

theorem witness_CaptureAndDecoders :
    (∃ (s : State) (b : Fin 16) (rise : Bool) (held : BitVec 4) (back : BitVec 9), s.runs gCAPQD = true ∧
        s.fld (Reg.CAPQD_CFG b.val) 0 2 = 1 ∧ s.fld (Reg.CAPQD_CFG b.val) 8 4 ≤ held.toNat ∧
        s.bit (Reg.CAPQD_CFG (b.val ^^^ 1)) 0 = false ∧ edgeSel (s.fld (Reg.CAPQD_CFG b.val) 2 2) rise = true ∧
        (s.cp b.val).fifo.length < 8) ∧
    (∃ (s : State) (b : Fin 16) (rise : Bool) (held : BitVec 4) (back : BitVec 9), s.runs gCAPQD = true ∧
        s.fld (Reg.CAPQD_CFG b.val) 0 2 = 1 ∧ s.fld (Reg.CAPQD_CFG b.val) 8 4 ≤ held.toNat ∧
        s.bit (Reg.CAPQD_CFG (b.val ^^^ 1)) 0 = false ∧ edgeSel (s.fld (Reg.CAPQD_CFG b.val) 2 2) rise = true ∧
        8 ≤ (s.cp b.val).fifo.length ∧ s.fld (Reg.CAPQD_LOSTTALLY b.val) 0 16 < 65535) ∧
    (∃ (s : State) (b : Fin 16) (rise : Bool) (held : BitVec 4) (back : BitVec 9), s.bit (Reg.CAPQD_CFG b.val) 0 = false ∧
        s.bit (Reg.CAPQD_CFG (b.val ^^^ 1)) 0 = false) ∧
    (∃ (s : State) (b : Fin 16) (rise : Bool) (held : BitVec 4) (back : BitVec 9), s.runs gCAPQD = true ∧
        s.fld (Reg.CAPQD_CFG b.val) 0 2 = 3 ∧ s.fld (Reg.CAPQD_CFG b.val) 8 4 ≤ held.toNat ∧
        s.bit (Reg.CAPQD_CFG (b.val ^^^ 1)) 0 = false ∧ edgeSel (s.fld (Reg.CAPQD_CFG b.val) 2 2) rise = true ∧
        s.bit (Reg.CAPQD_CFG b.val) 6 = true ∧ (s.cp b.val).disarmed = false ∧ (s.cp b.val).start = none ∧
        (s.cp b.val).stop = none) ∧
    (∃ (s : State) (b : Fin 16) (rise : Bool) (r0 : Bool) (t0 : StepTime) (held : BitVec 4) (back : BitVec 9),
        s.runs gCAPQD = true ∧ s.fld (Reg.CAPQD_CFG (b.val ^^^ 1)) 0 2 = 3 ∧
        s.fld (Reg.CAPQD_CFG (b.val ^^^ 1)) 8 4 ≤ held.toNat ∧ s.bit (Reg.CAPQD_CFG b.val) 0 = false ∧
        edgeSel (s.fld (Reg.CAPQD_CFG (b.val ^^^ 1)) 4 2) rise = true ∧ s.bit (Reg.CAPQD_CFG (b.val ^^^ 1)) 6 = true ∧
        (s.cp (b.val ^^^ 1)).disarmed = false ∧ (s.cp (b.val ^^^ 1)).start = some (t0, r0) ∧ (s.cp (b.val ^^^ 1)).fifo = [] ∧
        t0.toNat < (s.stepTime back.toNat).toNat) ∧
    (∃ (s : State) (b : Fin 16) (rise : Bool) (held : BitVec 4) (back : BitVec 9), s.bit (Reg.CAPQD_CFG b.val) 1 = true ∧
        (s.cp b.val).disarmed = true ∧ s.bit (Reg.CAPQD_CFG (b.val ^^^ 1)) 0 = false) ∧
    (∃ (s : State) (b : Fin 16) (rise : Bool) (held : BitVec 4) (back : BitVec 9),
        held.toNat < s.fld (Reg.CAPQD_CFG b.val) 8 4 ∧ held.toNat < s.fld (Reg.CAPQD_CFG (b.val ^^^ 1)) 8 4) ∧
    (∃ (s : State) (n : Fin 16), s.linkServes = true ∧ s.memServed = true ∧
        s.regServed .host (Reg.CAPQD_REC n.val 7) = true) ∧
    (∃ (s : State) (n : Fin 16), s.live = true) ∧
    (∃ (s : State) (d : Fin 4) (fwd : Bool) (onB : Bool) (held : BitVec 4) (back : BitVec 9), s.runs gCAPQD = true ∧
        s.bit (Reg.CAPQD_QCFG d.val) 0 = true ∧
        fwd = (if onB then (s.qdu d.val).a != (s.qdu d.val).b else (s.qdu d.val).a == (s.qdu d.val).b) ∧
        s.fld (Reg.CAPQD_QCFG d.val) 4 4 ≤ held.toNat ∧
        s.bit (Reg.CAPQD_QSTAT d.val) 0 = (fwd == s.bit (Reg.CAPQD_QCFG d.val) 1)) ∧
    (∃ (s : State) (d : Fin 4) (fwd : Bool) (onB : Bool) (t0 : StepTime) (held : BitVec 4) (back : BitVec 9),
        s.runs gCAPQD = true ∧ s.bit (Reg.CAPQD_QCFG d.val) 0 = true ∧
        fwd = (if onB then (s.qdu d.val).a != (s.qdu d.val).b else (s.qdu d.val).a == (s.qdu d.val).b) ∧
        s.fld (Reg.CAPQD_QCFG d.val) 4 4 ≤ held.toNat ∧
        s.bit (Reg.CAPQD_QSTAT d.val) 0 = (fwd == s.bit (Reg.CAPQD_QCFG d.val) 1) ∧ (s.qdu d.val).times = [t0] ∧
        t0.toNat < (s.stepTime back.toNat).toNat) ∧
    (∃ (s : State) (d : Fin 4) (fwd : Bool) (onB : Bool) (held : BitVec 4) (back : BitVec 9), s.runs gCAPQD = true ∧
        s.bit (Reg.CAPQD_QCFG d.val) 0 = true ∧
        fwd = (if onB then (s.qdu d.val).a != (s.qdu d.val).b else (s.qdu d.val).a == (s.qdu d.val).b) ∧
        s.fld (Reg.CAPQD_QCFG d.val) 4 4 ≤ held.toNat ∧
        s.bit (Reg.CAPQD_QSTAT d.val) 0 ≠ (fwd == s.bit (Reg.CAPQD_QCFG d.val) 1)) ∧
    (∃ (s : State) (d : Fin 4) (onB : Bool) (held : BitVec 4) (back : BitVec 9), s.runs gCAPQD = true ∧
        s.bit (Reg.CAPQD_QCFG d.val) 0 = true ∧ s.fld (Reg.CAPQD_ERRTALLY d.val) 0 16 < 65535 ∧
        s.fld (Reg.CAPQD_QCFG d.val) 4 4 ≤ held.toNat) ∧
    (∃ (s : State) (d : Fin 4), s.runs gCAPQD = true ∧ s.bit (Reg.CAPQD_QCFG d.val) 0 = true ∧
        s.fld (Reg.CAPQD_QCFG d.val) 2 2 ≠ 0 ∧ (s.qdu d.val).a = true ∧ (s.qdu d.val).b = true) ∧
    (∃ (s : State) (d : Fin 4), s.runs gCAPQD = true ∧ s.bit (Reg.CAPQD_QCFG d.val) 0 = true ∧
        s.rd (Reg.CAPQD_SPEED d.val) &&& 0x7FFFFFFF ≠ 0 ∧ (s.qdu d.val).last.toNat < 32 * s.clk.tb.toNat) ∧
    (∃ (s : State) (d : Fin 4), s.runs gCAPQD = true ∧ s.bit (Reg.CAPQD_QCFG d.val) 0 = true ∧
        s.bit (Reg.CAPQD_QSTAT d.val) 1 = false ∧
        12800 * max 1 (s.fld (Reg.CAPQD_STALLTMO d.val) 0 20) ≤ 32 * s.clk.tb.toNat - (s.qdu d.val).last.toNat) ∧
    (∃ (s : State) (d : Fin 4), ((s.qdu d.val).a = false ∨ (s.qdu d.val).b = false)) ∧
    (∃ (s : State) (d : Fin 4) (onB : Bool) (both : Bool) (held : BitVec 4) (back : BitVec 9),
        held.toNat < s.fld (Reg.CAPQD_QCFG d.val) 4 4) ∧
    (∃ (s : State) (d : Fin 4), (s.qdu d.val).sample = none) ∧
    (∃ (s : State) (d : Fin 4),
        32 * s.clk.tb.toNat - (s.qdu d.val).last.toNat < 12800 * max 1 (s.fld (Reg.CAPQD_STALLTMO d.val) 0 20)) ∧
    (∃ (s : State) (d : Fin 4) (x : Word) (y : Word), s.runs gCAPQD = true ∧ (s.qdu d.val).sample = some (x, y) ∧
        s.bit (Reg.CAPQD_QCFG d.val) 13 = false) ∧
    (∃ (s : State) (d : Fin 4) (x : Word) (y : Word), s.runs gCAPQD = true ∧ (s.qdu d.val).sample = some (x, y) ∧
        s.bit (Reg.CAPQD_QCFG d.val) 13 = true ∧ s.fld (Reg.CAPQD_ROUTE d.val) 16 6 ≤ 62) ∧
    (∃ (s : State) (d : Fin 4) (x : Word) (y : Word), s.runs gCAPQD = true ∧ (s.qdu d.val).sample = some (x, y) ∧
        s.bit (Reg.CAPQD_QCFG d.val) 13 = true ∧ s.fld (Reg.CAPQD_ROUTE d.val) 16 6 = 63) :=
  ⟨⟨((fun (b : Fin 16) (s : State) =>
      (s.wr (Reg.CAPQD_CFG b.val) 0x1005 |>.wr (Reg.CAPQD_CFG (b.val ^^^ 1)) 0).setCp b.val { s.cp b.val with fifo := [] }) 0
      tLive), 0, true, 15, 0, by decide +kernel⟩,
   ⟨((fun (b : Fin 16) (s : State) =>
       (s.wr (Reg.CAPQD_CFG b.val) 0x1005 |>.wr (Reg.CAPQD_CFG (b.val ^^^ 1)) 0 |>.wr (Reg.CAPQD_LOSTTALLY b.val) 5).setCp
       b.val { s.cp b.val with fifo := List.replicate 8 [] }) 0 tLive), 0, true, 15, 0, by decide +kernel⟩,
   ⟨((fun (b : Fin 16) (s : State) => s.wr (Reg.CAPQD_CFG b.val) 0 |>.wr (Reg.CAPQD_CFG (b.val ^^^ 1)) 0) 0 tLive), 0, true,
       0, 0, by decide +kernel⟩,
   ⟨((fun (b : Fin 16) (s : State) =>
       (s.wr (Reg.CAPQD_CFG b.val) 0x1057 |>.wr (Reg.CAPQD_CFG (b.val ^^^ 1)) 0).setCp b.val
       { s.cp b.val with start := none, stop := none, disarmed := false }) 0 tLive), 0, true, 15, 0, by decide +kernel⟩,
   ⟨((fun (b : Fin 16) (r0 : Bool) (s : State) =>
       ({ s with clk := { s.clk with tb := 0x123456 } }.wr (Reg.CAPQD_CFG (b.val ^^^ 1)) 0x1057 |>.wr (Reg.CAPQD_CFG b.val)
       0).setCp (b.val ^^^ 1) { s.cp (b.val ^^^ 1) with start := some (5, r0), fifo := [], disarmed := false }) 0 true tLive),
       0, true, true, 5, 15, 0, by decide +kernel⟩,
   ⟨((fun (b : Fin 16) (s : State) =>
       (s.wr (Reg.CAPQD_CFG b.val) 0x1057 |>.wr (Reg.CAPQD_CFG (b.val ^^^ 1)) 0).setCp b.val
       { s.cp b.val with disarmed := true }) 0 tLive), 0, true, 0, 0, by decide +kernel⟩,
   ⟨((fun (b : Fin 16) (s : State) =>
       s.setFld (Reg.CAPQD_CFG b.val) 8 4 3 |>.setFld (Reg.CAPQD_CFG (b.val ^^^ 1)) 8 4 5) 0 tLive), 0, true, 0, 0,
       by decide +kernel⟩,
   ⟨((fun (s : State) => s |>.setBit Reg.HIF_LINKSTAT 0 true |>.cfgWr 1 0x00100006 |>.cfgWr 0x11 0 |>.setFld Reg.SYS_BOOTSTAT
       0 4 1) tLive), 0, by decide +kernel⟩,
   ⟨tLive, 0, by decide +kernel⟩,
   ⟨((fun (d : Fin 4) (fwd : Bool) (s : State) =>
       (s.setBit (Reg.CAPQD_QCFG d.val) 0 true).setBit (Reg.CAPQD_QSTAT d.val) 0 (fwd == s.bit (Reg.CAPQD_QCFG d.val) 1)) 0
       ((fun (d : Fin 4) (onB : Bool) (s : State) =>
       (if onB then (s.qdu d.val).a != (s.qdu d.val).b else (s.qdu d.val).a == (s.qdu d.val).b)) 0 false tLive) tLive), 0,
       ((fun (d : Fin 4) (onB : Bool) (s : State) =>
       (if onB then (s.qdu d.val).a != (s.qdu d.val).b else (s.qdu d.val).a == (s.qdu d.val).b)) 0 false tLive), false, 15, 0,
       by decide +kernel⟩,
   ⟨((fun (d : Fin 4) (fwd : Bool) (s : State) =>
       ({ s with clk := { s.clk with tb := 0x123456 } }.setBit (Reg.CAPQD_QCFG d.val) 0 true |>.setBit (Reg.CAPQD_QSTAT d.val)
       0 (fwd == s.bit (Reg.CAPQD_QCFG d.val) 1)).setQd d.val { s.qdu d.val with times := [5] }) 0 ((fun (d : Fin 4) (onB :
       Bool) (s : State) => (if onB then (s.qdu d.val).a != (s.qdu d.val).b else (s.qdu d.val).a == (s.qdu d.val).b)) 0 false
       tLive) tLive), 0, ((fun (d : Fin 4) (onB : Bool) (s : State) =>
       (if onB then (s.qdu d.val).a != (s.qdu d.val).b else (s.qdu d.val).a == (s.qdu d.val).b)) 0 false tLive), false, 5, 15,
       0, by decide +kernel⟩,
   ⟨((fun (d : Fin 4) (fwd : Bool) (s : State) =>
       (s.setBit (Reg.CAPQD_QCFG d.val) 0 true).setBit (Reg.CAPQD_QSTAT d.val) 0 (fwd != s.bit (Reg.CAPQD_QCFG d.val) 1)) 0
       ((fun (d : Fin 4) (onB : Bool) (s : State) =>
       (if onB then (s.qdu d.val).a != (s.qdu d.val).b else (s.qdu d.val).a == (s.qdu d.val).b)) 0 false tLive) tLive), 0,
       ((fun (d : Fin 4) (onB : Bool) (s : State) =>
       (if onB then (s.qdu d.val).a != (s.qdu d.val).b else (s.qdu d.val).a == (s.qdu d.val).b)) 0 false tLive), false, 15, 0,
       by decide +kernel⟩,
   ⟨((fun (d : Fin 4) (s : State) => (s.setBit (Reg.CAPQD_QCFG d.val) 0 true).wr (Reg.CAPQD_ERRTALLY d.val) 7) 0 tLive), 0,
       true, 15, 0, by decide +kernel⟩,
   ⟨((fun (d : Fin 4) (s : State) =>
       ((s.setBit (Reg.CAPQD_QCFG d.val) 0 true).setFld (Reg.CAPQD_QCFG d.val) 2 2 3).setQd d.val
       { s.qdu d.val with a := true, b := true }) 0 tLive), 0, by decide +kernel⟩,
   ⟨((fun (d : Fin 4) (s : State) =>
       ({ s with clk := { s.clk with tb := 0x123456 } }.setBit (Reg.CAPQD_QCFG d.val) 0 true).setQd d.val
       { s.qdu d.val with last := 5 } |>.wr (Reg.CAPQD_SPEED d.val) 0xC9000000) 0 tLive), 0, by decide +kernel⟩,
   ⟨((fun (d : Fin 4) (s : State) =>
       ({ s with clk := { s.clk with tb := 0x12345678 } }.setBit (Reg.CAPQD_QCFG d.val) 0 true).setBit (Reg.CAPQD_QSTAT d.val)
       1 false |>.setQd d.val { s.qdu d.val with last := 5 } |>.wr (Reg.CAPQD_STALLTMO d.val) 700) 0 tLive), 0,
       by decide +kernel⟩,
   ⟨((fun (d : Fin 4) (s : State) => s.setQd d.val { s.qdu d.val with a := false }) 0 tLive), 0, by decide +kernel⟩,
   ⟨((fun (d : Fin 4) (s : State) => s.setFld (Reg.CAPQD_QCFG d.val) 4 4 3) 0 tLive), 0, true, true, 0, 0, by decide +kernel⟩,
   ⟨((fun (d : Fin 4) (s : State) => s.setQd d.val { s.qdu d.val with sample := none }) 0 tLive), 0, by decide +kernel⟩,
   ⟨((fun (d : Fin 4) (s : State) =>
       ({ s with clk := { s.clk with tb := 100 } }).setQd d.val { s.qdu d.val with last := 5 }) 0 tLive), 0,
       by decide +kernel⟩,
   ⟨((fun (d : Fin 4) (x : Word) (y : Word) (s : State) =>
       (s.setBit (Reg.CAPQD_QCFG d.val) 13 false).setQd d.val { s.qdu d.val with sample := some (x, y) }) 0 0 0 tLive), 0, 0,
       0, by decide +kernel⟩,
   ⟨((fun (d : Fin 4) (x : Word) (y : Word) (s : State) =>
       (s.setBit (Reg.CAPQD_QCFG d.val) 13 true |>.setFld (Reg.CAPQD_ROUTE d.val) 16 6 62).setQd d.val
       { s.qdu d.val with sample := some (x, y) }) 0 0 0 tLive), 0, 0, 0, by decide +kernel⟩,
   ⟨((fun (d : Fin 4) (x : Word) (y : Word) (s : State) =>
       (s.setBit (Reg.CAPQD_QCFG d.val) 13 true |>.setFld (Reg.CAPQD_ROUTE d.val) 16 6 63).setQd d.val
       { s.qdu d.val with sample := some (x, y) }) 0 0 0 tLive), 0, 0, 0, by decide +kernel⟩⟩

theorem witness_Musters :
    (∃ (s : State) (n : Fin 4), s.runs gMBM = true ∧ s.listActive n.val = true ∧ s.rd (Reg.MBM_LIST_PERIOD n.val) ≠ 0 ∧
        s.listRunning n.val = false ∧ (s.ml n.val).stopping = false ∧ (s.ml n.val).num < 0xFFFFFFFF ∧ s.nent n.val ≤ 256 ∧
        s.startHeld n.val = false ∧ (s.ml n.val).next ≠ 0 ∧ (s.ml n.val).next ≤ s.clk.tb.toNat) ∧
    (∃ (s : State) (n : Fin 4), s.runs gMBM = true ∧ s.listActive n.val = true ∧ s.rd (Reg.MBM_LIST_PERIOD n.val) ≠ 0 ∧
        s.listRunning n.val = true ∧ s.fld (Reg.MBM_LIST_SKIPTALLY n.val) 0 16 < 65535 ∧ s.startHeld n.val = false ∧
        (s.ml n.val).next ≠ 0 ∧ (s.ml n.val).next ≤ s.clk.tb.toNat ∧ (s.ml n.val).by_ = .tick) ∧
    (∃ (s : State) (n : Fin 4), s.runs gMBM = true ∧ s.listActive n.val = true ∧ s.rd (Reg.MBM_LIST_PERIOD n.val) ≠ 0 ∧
        s.listRunning n.val = false ∧ (s.ml n.val).stopping = false ∧ s.nent n.val ≤ 256 ∧ s.startHeld n.val = false ∧
        (s.ml n.val).next = 0 ∧ s.clk.tickPhase = 0) ∧
    (∃ (s : State) (n : Fin 4),
        (s.listActive n.val = false ∨ s.rd (Reg.MBM_LIST_PERIOD n.val) = 0 ∨ s.clk.tb.toNat < (s.ml n.val).next)) ∧
    (∃ (s : State) (n : Fin 4), s.runs gMBM = true ∧ s.listActive n.val = true ∧ s.rd (Reg.MBM_LIST_PERIOD n.val) ≠ 0 ∧
        s.listRunning n.val = true ∧ s.startHeld n.val = false ∧ (s.ml n.val).next ≠ 0 ∧ (s.ml n.val).next ≤ s.clk.tb.toNat ∧
        (s.ml n.val).by_ = .now ∧ (s.ml n.val).at_ = (s.ml n.val).next) ∧
    (∃ (s : State) (n : Fin 4), s.runs gMBM = true ∧ s.listActive n.val = true ∧ s.listRunning n.val = false ∧
        (s.ml n.val).stopping = false ∧ (s.ml n.val).num = 0xFFFFFFFF ∧ s.nent n.val ≤ 256) ∧
    (∃ (s : State) (n : Fin 4), s.runs gMBM = true ∧ s.listActive n.val = true ∧ s.listRunning n.val = true ∧
        (s.ml n.val).by_ ≠ .tick ∧ s.fld (Reg.MBM_LIST_SKIPTALLY n.val) 0 16 < 65535) ∧
    (∃ (s : State) (n : Fin 4) (port : BitVec 8) (late : Nat), s.runs gMBM = true ∧ s.listRunning n.val = true ∧
        tget Bell.none (s.ml n.val).bells port.toNat = .waiting ∧ s.portReady port.toNat = true ∧ isSe port.toNat = false ∧
        s.clk.tb.toNat + 4 * s.bellLen port.toNat = s.bwtNow n.val) ∧
    (∃ (s : State) (n : Fin 4) (port : BitVec 8) (acked : Bool), s.use port.toNat = .bell n.val ∧ s.listRunning n.val = true ∧
        s.runs (portGate port.toNat) = true ∧ tget Bell.none (s.ml n.val).bells port.toNat = .running ∧
        isTw port.toNat = true) ∧
    (∃ (s : State) (n : Fin 4) (port : BitVec 8) (acked : Bool), s.use port.toNat = .bell n.val ∧ s.listRunning n.val = true ∧
        s.runs (portGate port.toNat) = true ∧ tget Bell.none (s.ml n.val).bells port.toNat = .late ∧
        (isSe port.toNat = false ∨ s.seAsked port.toNat = false)) ∧
    (∃ (s : State) (n : Fin 4) (e : BitVec 8), s.runs gMBM = true ∧ s.listRunning n.val = true ∧ e.toNat < s.nent n.val ∧
        (s.ent n.val e.toNat).ph = .waiting ∧ isTw (s.entPort n.val e.toNat) = true ∧
        s.portReady (s.entPort n.val e.toNat) = true ∧ s.entNext n.val e.toNat = true ∧
        s.othersFirst n.val (s.entPort n.val e.toNat) = false ∧
        tget Bell.none (s.ml n.val).bells (s.entPort n.val e.toNat) = .good ∧ (s.ml n.val).t0 ≤ s.clk.tb.toNat ∧
        s.clk.tb.toNat < s.ticksFrom (s.ml n.val).t0 (s.listDeadline n.val) ∧
        (s.entBw n.val e.toNat = true →
        s.ticksFrom (s.bwtNow n.val) (W.fld (s.entW n.val e.toNat 1) 0 12) ≤ s.clk.tb.toNat)) ∧
    (∃ (s : State) (n : Fin 4) (e : BitVec 8),
        (s.entNext n.val e.toNat = false ∨ s.portReady (s.entPort n.val e.toNat) = false ∨
        s.othersFirst n.val (s.entPort n.val e.toNat) = true ∨
        (tget Bell.none (s.ml n.val).bells (s.entPort n.val e.toNat)).open = true ∨
        s.ticksFrom (s.ml n.val).t0 (s.listDeadline n.val) ≤ s.clk.tb.toNat)) ∧
    (∃ (s : State) (n : Fin 4) (e : BitVec 8), s.runs gMBM = true ∧ s.listActive n.val = true ∧
        (s.ml n.val).stopping = false ∧ s.listRunning n.val = false ∧ e.toNat < s.nent n.val ∧
        s.rd (Reg.MBM_LIST_RUNAHEAD n.val) ≠ 0 ∧ s.rd (Reg.MBM_LIST_PERIOD n.val) ≠ 0 ∧ s.entIdem n.val e.toNat = true ∧
        s.entBw n.val e.toNat = false ∧ s.entLen n.val e.toNat ≤ 8 ∧ s.entPenned n.val e.toNat = false ∧
        (s.ent n.val e.toNat).ph = .idle ∧ isTw (s.entPort n.val e.toNat) = true ∧
        s.portReady (s.entPort n.val e.toNat) = true ∧ s.swBusy (s.entPort n.val e.toNat) = false ∧
        s.portAhead (s.entPort n.val e.toNat) = false ∧ s.clk.tb.toNat < (s.ml n.val).next ∧
        (s.ml n.val).next ≤ s.clk.tb.toNat + 400 * s.fld (Reg.MBM_LIST_RUNAHEAD n.val) 0 16) ∧
    (∃ (s : State) (n : Fin 4) (e : BitVec 8),
        (s.entIdem n.val e.toNat = false ∨ s.entBw n.val e.toNat = true ∨ 8 < s.entLen n.val e.toNat ∨
        s.rd (Reg.MBM_LIST_RUNAHEAD n.val) = 0 ∨ s.listRunning n.val = true ∨
        s.clk.tb.toNat + 400 * s.fld (Reg.MBM_LIST_RUNAHEAD n.val) 0 16 < (s.ml n.val).next)) ∧
    (∃ (s : State) (n : Fin 4) (e : BitVec 8) (a : Byte) (b : Byte),
        s.use (s.entPort n.val e.toNat) = .entry n.val e.toNat false ∧ s.runs (portGate (s.entPort n.val e.toNat)) = true ∧
        isTw (s.entPort n.val e.toNat) = true ∧ (s.port (s.entPort n.val e.toNat)).conv = false ∧ s.entLen n.val e.toNat = 1 ∧
        s.listRunning n.val = true ∧ (s.ent n.val e.toNat).ph = .first ∧ e.toNat = 0 ∧
        s.clk.tb.toNat ≤ s.ticksFrom (s.ml n.val).t0 (s.listDeadline n.val) ∧ s.tmoGone n.val 0 1 = false ∧
        xCrc (s.entXarg n.val 0) = false ∧ (s.rd (Reg.MBM_LIST_FOLD n.val)).toNat % 32 = 0 ∧ s.back n.val + 64 ≤ 0x200000 ∧
        s.ecc = []) ∧
    (∃ (s : State) (n : Fin 4) (e : BitVec 8) (status : BitVec 8) (bytes : List Byte),
        s.use (s.entPort n.val e.toNat) = .entry n.val e.toNat false ∧ s.runs (portGate (s.entPort n.val e.toNat)) = true ∧
        isTw (s.entPort n.val e.toNat) = true ∧ (status = 1 ∨ status = 2 ∧ s.tmoGone n.val e.toNat 0 = true) ∧
        (s.ent n.val e.toNat).ph = .first ∧ s.tmoGone n.val e.toNat 1 = false ∧
        s.clk.tb.toNat < s.ticksFrom (s.ml n.val).t0 (s.listDeadline n.val) ∧ s.entPenned n.val e.toNat = false) ∧
    (∃ (s : State) (n : Fin 4) (e : BitVec 8) (status : BitVec 8) (bytes : List Byte),
        s.use (s.entPort n.val e.toNat) = .entry n.val e.toNat false ∧ s.runs (portGate (s.entPort n.val e.toNat)) = true ∧
        isTw (s.entPort n.val e.toNat) = true ∧ (status = 1 ∨ status = 2 ∧ s.tmoGone n.val e.toNat 0 = true) ∧
        (s.ent n.val e.toNat).ph = .second ∧ s.listRunning n.val = false ∧ s.tmoGone n.val e.toNat 1 = false ∧
        s.fld (Reg.MBM_ENTTALLY n.val e.toNat) 16 16 < 65535 ∧
        s.fld (Reg.MBM_ENTSTAT n.val e.toNat) 8 4 + 1 < max 1 (s.fld Reg.MBM_CTRL 0 4)) ∧
    (∃ (s : State) (n : Fin 4) (e : BitVec 8) (status : BitVec 8) (bytes : List Byte),
        s.use (s.entPort n.val e.toNat) = .entry n.val e.toNat false ∧ s.runs (portGate (s.entPort n.val e.toNat)) = true ∧
        isTw (s.entPort n.val e.toNat) = true ∧ (status = 1 ∨ status = 2 ∧ s.tmoGone n.val e.toNat 0 = true) ∧
        (s.ent n.val e.toNat).ph = .second ∧ s.listRunning n.val = false ∧ s.tmoGone n.val e.toNat 1 = false ∧
        max 1 (s.fld Reg.MBM_CTRL 0 4) ≤ min 15 (s.fld (Reg.MBM_ENTSTAT n.val e.toNat) 8 4 + 1) ∧
        s.entPenned n.val e.toNat = false) ∧
    (∃ (s : State) (n : Fin 4), s.runs gMBM = true ∧ s.listRunning n.val = true ∧ s.listPhase n.val = 2 ∧ s.nent n.val = 1 ∧
        (s.ent n.val 0).ph = .waiting ∧ s.ticksFrom (s.ml n.val).t0 (s.listDeadline n.val) ≤ s.clk.tb.toNat) ∧
    (∃ (s : State) (n : Fin 4), s.runs gMBM = true ∧ s.listRunning n.val = true ∧ s.listPhase n.val = 2 ∧ s.nent n.val = 1 ∧
        (s.ent n.val 0).ph = .finished ∧ (s.ent n.val 0).status = 0 ∧ s.entLen n.val 0 = 1 ∧ isTw (s.entPort n.val 0) = true ∧
        (s.rd (Reg.MBM_LIST_FOLD n.val)).toNat % 32 = 0 ∧ s.back n.val + 64 ≤ 0x200000 ∧ s.ecc = []) ∧
    (∃ (s : State) (n : Fin 4), s.runs gMBM = true ∧ s.listRunning n.val = true ∧ s.listPhase n.val = 3 ∧ s.nent n.val = 1 ∧
        s.musterLate n.val = false ∧ (s.ent n.val 0).status ≠ 0 ∧ (s.ml n.val).ring = none ∧ (s.ml n.val).stopping = false ∧
        (s.rd (Reg.MBM_LIST_FOLD n.val)).toNat % 32 = 0 ∧ s.back n.val + 64 ≤ 0x200000 ∧ s.ecc = [] ∧
        s.fld (Reg.MBM_LIST_PARTTALLY n.val) 0 16 < 65535) ∧
    (∃ (s : State) (n : Fin 4) (a : Nat) (k : Nat) (len : Nat) (r : List Copy), s.runs gMBM = true ∧
        s.mbm.copies = ⟨n.val, k, a, len⟩ :: r ∧ s.recOpen k = false ∧ (s.ml n.val).stopping = false ∧
        s.startHeld n.val = false ∧ (r.all fun c => !s.copyOpen c) = true) ∧
    (∃ (s : State) (n : Fin 4) (k : Fin 4) (a : Nat) (len : Nat) (r : List Copy), s.runs gMBM = true ∧
        s.mbm.copies = ⟨n.val, k.val, a, len⟩ :: r ∧ s.recOpen k.val = true ∧ s.fld (Reg.HIF_REC_CFG k.val) 8 4 = n.val + 1 ∧
        (s.ml n.val).stopping = false ∧ s.startHeld n.val = false ∧ s.coh.credits = []) ∧
    (∃ (s : State) (n : Fin 4), s.runs gMBM = false) ∧
    (∃ (s : State) (n : Fin 4), (s.listPhase n.val ≠ 2 ∨ (s.ent n.val 0).ph ≠ .finished ∧ s.nent n.val = 1)) ∧
    (∃ (s : State) (n : Fin 4), s.listPhase n.val ≠ 3) ∧
    (∃ (s : State) (n : Fin 4) (port : BitVec 8) (late : Nat),
        (s.portReady port.toNat = false ∨ tget Bell.none (s.ml n.val).bells port.toNat ≠ .waiting ∨
        s.clk.tb.toNat + 4 * s.bellLen port.toNat < s.bwtNow n.val)) ∧
    (∃ (s : State) (n : Fin 4),
        (s.readOpen n.val = false ∨ s.clk.tb.toNat < s.ticksFrom (s.ml n.val).t0 (s.listDeadline n.val))) :=
  ⟨⟨((fun (n : Fin 4) (s : State) => s.listAt n.val 0x40000003 3 { num := 7, t0 := 9, next := 90000 }) 0 tLive), 0,
      by decide +kernel⟩,
   ⟨((fun (n : Fin 4) (s : State) => s.listAt n.val 0x40000003 7 { num := 7, t0 := 9, next := 90000 }) 0 tLive), 0,
       by decide +kernel⟩,
   ⟨((fun (n : Fin 4) (s : State) => s.listAt n.val 0x40000003 3 { num := 7, t0 := 9 }) 0 tLive), 0, by decide +kernel⟩,
   ⟨((fun (n : Fin 4) (s : State) => s.wr (Reg.MBM_LIST_PERIOD n.val) 0) 0 tLive), 0, by decide +kernel⟩,
   ⟨((fun (n : Fin 4) (s : State) =>
       s.listAt n.val 0x40000003 7 { num := 7, t0 := 9, next := 90000, by_ := .now, at_ := 90000 }) 0 tLive), 0,
       by decide +kernel⟩,
   ⟨((fun (n : Fin 4) (s : State) => s.listAt n.val 0x40000003 3 { num := 0xFFFFFFFF, t0 := 9 }) 0 tLive), 0,
       by decide +kernel⟩,
   ⟨((fun (n : Fin 4) (s : State) => s.listAt n.val 0x40000003 7 { num := 7, t0 := 9, by_ := .trig }) 0 tLive), 0,
       by decide +kernel⟩,
   ⟨((fun (n : Fin 4) (s : State) =>
       (s.listAt n.val 0x40010003 0x17 { num := 7, t0 := 9, bells := [(3, .waiting)] }).portAt 3 {} |> fun s =>
       s.setMl n.val { s.ml n.val with bwt := 100000 + 4 * s.bellLen 3 }) 0 tLive), 0, (0x03#8), 0, by decide +kernel⟩,
   ⟨((fun (n : Fin 4) (s : State) =>
       (s.listAt n.val 0x40010003 0x17 { num := 7, t0 := 9, bells := [(3, .running)] }).portAt 3 { use := .bell n.val }) 0
       tLive), 0, (0x03#8), true, by decide +kernel⟩,
   ⟨((fun (n : Fin 4) (s : State) =>
       (s.listAt n.val 0x40010003 0x17 { num := 7, t0 := 9, bells := [(3, .late)] }).portAt 3 { use := .bell n.val }) 0
       tLive), 0, (0x03#8), true, by decide +kernel⟩,
   ⟨((fun (n : Fin 4) (s : State) =>
       (s.listAt n.val 0x40010003 0x27 { num := 7, t0 := 9, bells := [(3, .good)], ents := [(0, { ph := .waiting })] }).portAt
       3 {}) 0 tLive), 0, (0#8), by decide +kernel⟩,
   ⟨((fun (n : Fin 4) (s : State) =>
       (s.listAt n.val 0x40010003 0x27
       { num := 7, t0 := 9, bells := [(3, .waiting)], ents := [(0, { ph := .waiting })] }).portAt 3 {}) 0 tLive), 0, (0#8),
       by decide +kernel⟩,
   ⟨((fun (n : Fin 4) (s : State) => (List.range 4).foldl (fun s m =>
       if m = n.val then s else s.setMl m {}) ((s.listAt n.val 0x40020003 3 { num := 7, t0 := 9, next := 110000 }).portAt 3 {}
       |>.wr (Reg.MBM_LIST_RUNAHEAD n.val) 50)) 0 tLive), 0, (0#8), by decide +kernel⟩,
   ⟨((fun (n : Fin 4) (s : State) => s.wr (Reg.MBM_LIST_RUNAHEAD n.val) 0) 0 tLive), 0, 0, by decide +kernel⟩,
   ⟨((fun (n : Fin 4) (s : State) =>
       (s.listAt n.val 0x40000003 0x27
       { num := 7, t0 := 9, ents := [(0, { ph := .first, started := true, t0 := 20 })] }).portAt 3
       { use := .entry n.val 0 false }) 0 tLive), 0, (0#8), 0, 0, by decide +kernel⟩,
   ⟨((fun (n : Fin 4) (s : State) =>
       (s.listAt n.val 0x40000003 0x27
       { num := 7, t0 := 9, ents := [(0, { ph := .first, started := true, t0 := 20 })] }).portAt 3
       { use := .entry n.val 0 false }) 0 tLive), 0, (0#8), (1#8), [], by decide +kernel⟩,
   ⟨((fun (n : Fin 4) (s : State) =>
       (s.listAt n.val 0x40000003 0x3
       { num := 7, t0 := 9, ents := [(0, { ph := .second, started := true, t0 := 20 })] }).portAt 3
       { use := .entry n.val 0 false } |>.wr Reg.MBM_CTRL 3 |>.wr (Reg.MBM_ENTTALLY n.val 0) 0x20001) 0 tLive), 0, (0#8),
       (1#8), [], by decide +kernel⟩,
   ⟨((fun (n : Fin 4) (s : State) =>
       (s.listAt n.val 0x40000003 0x3
       { num := 7, t0 := 9, ents := [(0, { ph := .second, started := true, t0 := 20 })] }).portAt 3
       { use := .entry n.val 0 false } |>.wr Reg.MBM_CTRL 0) 0 tLive), 0, (0#8), (1#8), [], by decide +kernel⟩,
   ⟨((fun (n : Fin 4) (s : State) =>
       s.listAt n.val 0x40000003 0x27 { num := 7, t0 := 9, ents := [(0, { ph := .waiting })] } |> fun s =>
       { s with clk := { s.clk with tb := 600000 } }) 0 tLive), 0, by decide +kernel⟩,
   ⟨((fun (n : Fin 4) (s : State) =>
       s.listAt n.val 0x40000003 0x27 { num := 7, t0 := 9, ents := [(0, { ph := .finished, started := true, t0 := 20 })] }) 0
       tLive), 0, by decide +kernel⟩,
   ⟨((fun (n : Fin 4) (s : State) =>
       (s.listAt n.val 0x40000003 0x37
       { num := 7, t0 := 9, ents := [(0, { ph := .finished, status := 2, started := true, t0 := 20 })] }).wr
       (Reg.MBM_LIST_PARTTALLY n.val) 3) 0 tLive), 0, by decide +kernel⟩,
   ⟨((fun (n : Fin 4) (s : State) =>
       { s.listAt n.val 0x40000003 0x3 {} with mbm := { (s.listAt n.val 0x40000003 0x3 {}).mbm with copies := [⟨n.val, 2, 0x1000, 14⟩] } }.wr
       (Reg.HIF_REC_CFG 2) 0) 0 tLive), 0, 0x1000, 2, 14, [], by decide +kernel⟩,
   ⟨((fun (n : Fin 4) (s : State) =>
       ({ s.listAt n.val 0x40000003 0x3 {} with mbm := { (s.listAt n.val 0x40000003 0x3 {}).mbm with copies := [⟨n.val, 2, 0x1000, 14⟩] } }.setBit
       Reg.HIF_LINKSTAT 0 true |>.cfgWr 1 0x00100006).wr (Reg.HIF_REC_CFG 2) (BitVec.ofNat 32 (0x80000080 + 256 * (n.val +
       1)))) 0 tLive), 0, 2, 0x1000, 14, [], by decide +kernel⟩,
   ⟨((fun (s : State) => { s with clk := { s.clk with pll := .off } }) tLive), 0, by decide +kernel⟩,
   ⟨((fun (n : Fin 4) (s : State) => (s.listAt n.val 0x40000003 0x17 { num := 7, t0 := 9 })) 0 tLive), 0, by decide +kernel⟩,
   ⟨((fun (n : Fin 4) (s : State) => s.listAt n.val 0x40000003 0x27 { num := 7, t0 := 9 }) 0 tLive), 0, by decide +kernel⟩,
   ⟨((fun (n : Fin 4) (s : State) =>
       (s.listAt n.val 0x40010003 0x17 { num := 7, t0 := 9, bells := [(3, .good)] }).portAt 3 {}) 0 tLive), 0, (0x03#8), 0,
       by decide +kernel⟩,
   ⟨((fun (n : Fin 4) (s : State) => s.listAt n.val 0x40000003 0x37 { num := 7, t0 := 9 }) 0 tLive), 0, by decide +kernel⟩⟩

theorem witness_TwoWirePorts :
    (∃ (s : State) (p : Fin 8) (l : Nat) (e : Nat), s.runs gTW = true ∧ s.use p.val = .entry l e false ∧
        (s.ent l e).ph = .first ∧ s.entPort l e = p.val ∧ s.entPenned l e = false ∧
        (s.listRunning l = false ∨ s.clk.tb.toNat < s.ticksFrom (s.ml l).t0 (s.listDeadline l))) ∧
    (∃ (s : State) (p : Fin 8), s.runs gTW = true ∧ s.use p.val = .sw ∧ s.bit (Reg.TW_SWCTL p.val) 31 = true) ∧
    (∃ (s : State) (port : BitVec 8) (l : Nat) (e : Nat), s.use port.toNat = .entry l e false ∧
        s.runs (portGate port.toNat) = true ∧ s.tmoGone l e 0 = true ∧ s.entPort l e = port.toNat ∧ isTw port.toNat = true ∧
        (s.ent l e).ph = .first ∧ s.entPenned l e = false ∧
        (s.listRunning l = false ∨ s.clk.tb.toNat < s.ticksFrom (s.ml l).t0 (s.listDeadline l))) ∧
    (∃ (s : State) (port : BitVec 8) (l : Nat) (e : Nat), s.use port.toNat = .entry l e false ∧
        (W.fld (s.entW l e 1) 16 16 = 0 ∨ s.tmoGone l e 0 = false)) ∧
    (∃ (s : State) (p : Fin 8), s.runs gTW = true) ∧
    (∃ (s : State) (p : Fin 8) (val : Word), s.live = true ∧ s.bit (Reg.TW_SWCTL p.val) 31 = false ∧ W.bit val 31 = true ∧
        W.fld val 8 2 ≠ 3 ∧ s.portPenned p.val = false ∧ s.portQuar p.val = false ∧ (s.port p.val).cycling = false ∧
        s.bit (Reg.TW_CFG p.val) 0 = true ∧ s.use p.val = .none ∧ s.lineHeld p.val = false ∧ s.entDue p.val = false ∧
        s.callDue p.val = false) ∧
    (∃ (s : State) (p : Fin 8) (val : Word), s.live = true ∧ s.bit (Reg.TW_SWCTL p.val) 31 = false ∧ W.bit val 31 = true ∧
        W.fld val 8 2 ≠ 3 ∧ s.portPenned p.val = true) ∧
    (∃ (s : State) (p : Fin 8) (val : Word), s.live = true ∧ s.bit (Reg.TW_SWCTL p.val) 31 = true) ∧
    (∃ (s : State) (p : Fin 8) (a : Byte) (b : Byte), s.runs gTW = true ∧ s.bit (Reg.TW_SWCTL p.val) 31 = true ∧
        s.use p.val = .sw ∧ s.fld (Reg.TW_SWCTL p.val) 8 2 ≠ 0 ∧ s.fld (Reg.TW_SWCTL p.val) 24 4 = 2) ∧
    (∃ (s : State) (p : Fin 8) (bytes : List Byte), s.runs gTW = true ∧ s.bit (Reg.TW_SWCTL p.val) 31 = true ∧
        s.use p.val = .sw) ∧
    (∃ (s : State) (p : Fin 8), s.portReady p.val = true ∧ s.swBusy p.val = false ∧ s.bit (Reg.TW_CFG p.val) 1 = true ∧
        s.fld (Reg.TW_CRKTALLY p.val) 0 16 < 65535) ∧
    (∃ (s : State) (p : Fin 8), (s.bit (Reg.TW_CFG p.val) 1 = false ∨ s.portReady p.val = false ∨ s.swBusy p.val = true)) ∧
    (∃ (s : State) (p : Fin 8), s.portReady p.val = true ∧ s.bit (Reg.TW_CRK p.val) 8 = true ∧ s.entsWait p.val = false ∧
        ((s.port p.val).called = false ∨ s.portListed p.val = false)) ∧
    (∃ (s : State) (p : Fin 8) (acked : Bool) (byte : Byte), s.runs gTW = true ∧ s.use p.val = .crook) ∧
    (∃ (s : State) (p : Fin 8), s.runs gTW = true ∧ s.bit (Reg.TW_CFG p.val) 0 = true ∧ s.portPenned p.val = false ∧
        (s.port p.val).cycling = false ∧ s.use p.val = .none ∧ s.swBusy p.val = false ∧
        s.fld (Reg.TW_STUCKTALLY p.val) 0 16 < 65535) ∧
    (∃ (s : State) (p : Fin 8), s.runs gTW = true ∧ s.bit (Reg.TW_CFG p.val) 0 = true ∧ s.portPenned p.val = false ∧
        (s.port p.val).cycling = false ∧ s.use p.val = .none ∧ s.bit (Reg.TW_CFG p.val) 2 = false) ∧
    (∃ (s : State) (p : Fin 8) (cleared : Bool), s.runs gTW = true ∧ s.bit (Reg.TW_CFG p.val) 0 = true ∧
        s.portPenned p.val = false ∧ (s.port p.val).cycling = false ∧ s.use p.val = .none ∧
        s.bit (Reg.TW_CFG p.val) 2 = false) ∧
    (∃ (s : State) (p : Fin 8) (k : Nat), s.runs gTW = true ∧ (s.port p.val).cycling = true ∧ s.chanOf p.val = some k ∧
        s.ppIsOn k = true ∧ s.ppPast k (max 1 (s.fld (Reg.TW_STUCK p.val) 8 8)) = true ∧
        s.fld (Reg.TW_STUCKTALLY p.val) 16 16 < 65535 ∧ s.fld (Reg.TW_PSTAT p.val) 12 4 + 1 < max 1 (s.fld Reg.TW_CTRL 0 4)) ∧
    (∃ (s : State) (p : Fin 8) (k : Nat), s.runs gTW = true ∧ (s.port p.val).cycling = true ∧ s.chanOf p.val = some k ∧
        s.ppIsOn k = true ∧ s.ppPast k (max 1 (s.fld (Reg.TW_STUCK p.val) 8 8)) = true ∧
        max 1 (s.fld Reg.TW_CTRL 0 4) ≤ min 15 (s.fld (Reg.TW_PSTAT p.val) 12 4 + 1)) ∧
    (∃ (s : State) (p : Fin 8), s.runs gTW = true ∧ (s.port p.val).cycling = false) ∧
    (∃ (s : State) (p : Fin 8), s.runs gTW = true ∧ 0x20 ≤ s.fld (Reg.TW_PSTAT p.val) 16 8 ∧
        s.fld (Reg.TW_PSTAT p.val) 16 8 ≤ 0x22 ∧ s.use p.val = .none ∧ s.bit (Reg.TW_PSTAT p.val) 9 = false) ∧
    (∃ (s : State) (p : Fin 8), s.runs gTW = true ∧ s.bit (Reg.TW_CFG p.val) 0 = true ∧ (s.port p.val).errs = 0 ∧
        W.fld (s.port p.val).adaptIn 24 4 ≠ 0 ∧ W.fld (s.port p.val).adaptIn 24 4 ≤ (s.port p.val).clean + 1 ∧
        W.bit (s.port p.val).rateIn 7 = false ∧ s.twRate p.val < (s.port p.val).rate) ∧
    (∃ (s : State) (p : Fin 8), s.runs gTW = true ∧ s.bit (Reg.TW_CFG p.val) 0 = true ∧ (s.port p.val).errs ≠ 0) ∧
    (∃ (s : State) (p : Fin 8) (val : Word), s.live = true ∧ s.bit (Reg.TW_SWCTL p.val) 31 = false ∧ W.bit val 31 = true ∧
        W.fld val 8 2 ≠ 3 ∧ s.portPenned p.val = false ∧ s.portQuar p.val = false ∧ (s.port p.val).cycling = false ∧
        s.bit (Reg.TW_CFG p.val) 0 = true ∧
        (s.use p.val ≠ .none ∨ s.lineHeld p.val = true ∨ s.entDue p.val = true ∨ s.callDue p.val = true)) ∧
    (∃ (s : State) (p : Fin 8),
        (s.portReady p.val = false ∨ s.bit (Reg.TW_CRK p.val) 8 = false ∨ s.entsWait p.val = true ∨
        (s.port p.val).called = true ∧ s.portListed p.val = true)) ∧
    (∃ (s : State) (p : Fin 8) (k : Nat), s.chanOf p.val = some k ∧
        s.ppPast k (max 1 (s.fld (Reg.TW_STUCK p.val) 8 8)) = false) ∧
    (∃ (s : State) (p : Fin 8) (scl : Bool) (sda : Bool),
        (s.fld (Reg.TW_PSTAT p.val) 16 8 < 0x20 ∨ 0x22 < s.fld (Reg.TW_PSTAT p.val) 16 8)) ∧
    (∃ (s : State) (p : Fin 8), s.runs gTW = true ∧ s.bit (Reg.TW_CFG p.val) 0 = true ∧ (s.port p.val).errs = 0 ∧
        (W.fld (s.port p.val).adaptIn 24 4 = 0 ∨ (s.port p.val).clean + 1 < W.fld (s.port p.val).adaptIn 24 4)) :=
  ⟨⟨((fun (p : Fin 8) (s : State) =>
      (s.listAt 1 (0x40000000 + p.val) 0x27
      { num := 7, t0 := 9, ents := [(0, { ph := .first, started := true, t0 := 20 })] }).portAt p.val
      { use := .entry 1 0 false }) 0 tLive), 0, 1, 0, by decide +kernel⟩,
   ⟨((fun (p : Fin 8) (s : State) => (s.portAt p.val { use := .sw }).setBit (Reg.TW_SWCTL p.val) 31 true) 0 tLive), 0,
       by decide +kernel⟩,
   ⟨((fun (s : State) => ((s.listAt 1 0x40000003 0x27
       { num := 7, t0 := 9, ents := [(0, { ph := .first, started := true, t0 := 20 })] }).portAt 3
       { use := .entry 1 0 false }).wr (Reg.MBM_ENTDESC 1 0 1) 0x50000) tLive), (3#8), 1, 0, by decide +kernel⟩,
   ⟨((fun (s : State) => ((s.listAt 1 0x40000003 0x27
       { num := 7, t0 := 9, ents := [(0, { ph := .first, started := true, t0 := 20 })] }).portAt 3
       { use := .entry 1 0 false }).wr (Reg.MBM_ENTDESC 1 0 1) 0) tLive), (3#8), 1, 0, by decide +kernel⟩,
   ⟨tLive, 0, by decide +kernel⟩,
   ⟨((fun (p : Fin 8) (s : State) => s.portAt p.val { rate := 3 }) 0 tLive), 0, 0x81020110, by decide +kernel⟩,
   ⟨((fun (p : Fin 8) (s : State) => (s.portAt p.val { rate := 3 }).setFld (Reg.TW_PSTAT p.val) 16 8 0x20) 0 tLive), 0,
       0x81020110, by decide +kernel⟩,
   ⟨((fun (p : Fin 8) (s : State) => s.setBit (Reg.TW_SWCTL p.val) 31 true) 0 tLive), 0, 0, by decide +kernel⟩,
   ⟨((fun (p : Fin 8) (s : State) => (s.portAt p.val { use := .sw }).wr (Reg.TW_SWCTL p.val) 0x82020110) 0 tLive), 0, 0, 0,
       by decide +kernel⟩,
   ⟨((fun (p : Fin 8) (s : State) => (s.portAt p.val { use := .sw }).wr (Reg.TW_SWCTL p.val) 0x82020110) 0 tLive), 0, [],
       by decide +kernel⟩,
   ⟨((fun (p : Fin 8) (s : State) => ((s.portAt p.val {}).wr (Reg.TW_CFG p.val) 3).wr (Reg.TW_CRKTALLY p.val) 4) 0 tLive), 0,
       by decide +kernel⟩,
   ⟨((fun (p : Fin 8) (s : State) => s.wr (Reg.TW_CFG p.val) 1) 0 tLive), 0, by decide +kernel⟩,
   ⟨((fun (p : Fin 8) (s : State) => (List.range 4).foldl (fun s l =>
       s.setBit (Reg.MBM_LIST_STAT l) 2 false) ((s.portAt p.val {}).wr (Reg.TW_CRK p.val) 0x100)) 0 tLive), 0,
       by decide +kernel⟩,
   ⟨((fun (p : Fin 8) (s : State) => s.portAt p.val { use := .crook }) 0 tLive), 0, true, 0, by decide +kernel⟩,
   ⟨((fun (p : Fin 8) (s : State) => (s.portAt p.val {}).wr (Reg.TW_STUCKTALLY p.val) 0x50005) 0 tLive), 0,
       by decide +kernel⟩,
   ⟨((fun (p : Fin 8) (s : State) => s.portAt p.val {}) 0 tLive), 0, by decide +kernel⟩,
   ⟨((fun (p : Fin 8) (s : State) => s.portAt p.val {}) 0 tLive), 0, true, by decide +kernel⟩,
   ⟨((fun (p : Fin 8) (s : State) =>
       (((s.portAt p.val { cycling := true }).wr (Reg.PPW_BIND 5) (BitVec.ofNat 32 (2 ^ p.val))).setFld (Reg.PPW_STAT 5) 0 4 5
       |>.setBit (Reg.PPW_STAT 5) 17 true).wr (Reg.TW_STUCKTALLY p.val) 0x50005 |>.wr Reg.TW_CTRL 3 |>.setPpc 5 {} |> fun s =>
       { s with clk := { s.clk with slow := 100000 } }) 0 tLive), 0, 5, by decide +kernel⟩,
   ⟨((fun (p : Fin 8) (s : State) =>
       (((s.portAt p.val { cycling := true }).wr (Reg.PPW_BIND 5) (BitVec.ofNat 32 (2 ^ p.val))).setFld (Reg.PPW_STAT 5) 0 4 5
       |>.setBit (Reg.PPW_STAT 5) 17 true) |>.wr Reg.TW_CTRL 0 |>.setPpc 5 {} |> fun s =>
       { s with clk := { s.clk with slow := 100000 } }) 0 tLive), 0, 5, by decide +kernel⟩,
   ⟨((fun (p : Fin 8) (s : State) => s.portAt p.val {}) 0 tLive), 0, by decide +kernel⟩,
   ⟨((fun (p : Fin 8) (s : State) => (s.portAt p.val {}).wr (Reg.TW_PSTAT p.val) 0x210005) 0 tLive), 0, by decide +kernel⟩,
   ⟨((fun (p : Fin 8) (s : State) => s.portAt p.val { rate := 3, rateIn := 0x52, adaptIn := 0x01000003 }) 0 tLive), 0,
       by decide +kernel⟩,
   ⟨((fun (p : Fin 8) (s : State) => s.portAt p.val { rate := 3, errs := 2 }) 0 tLive), 0, by decide +kernel⟩,
   ⟨((fun (p : Fin 8) (s : State) => s.portAt p.val { rate := 3, lowAt := some 100000 }) 0 tLive), 0, 0x81020110,
       by decide +kernel⟩,
   ⟨((fun (p : Fin 8) (s : State) => s.wr (Reg.TW_CRK p.val) 0) 0 tLive), 0, by decide +kernel⟩,
   ⟨((fun (p : Fin 8) (s : State) =>
       ((s.portAt p.val { cycling := true }).wr (Reg.PPW_BIND 5) (BitVec.ofNat 32 (2 ^ p.val))).setPpc 5
       { since := s.clk.slow }) 0 tLive), 0, 5, by decide +kernel⟩,
   ⟨((fun (p : Fin 8) (s : State) => (s.portAt p.val {}).wr (Reg.TW_PSTAT p.val) 0) 0 tLive), 0, true, true,
       by decide +kernel⟩,
   ⟨((fun (p : Fin 8) (s : State) => s.portAt p.val { rate := 3, adaptIn := 0x03000003 }) 0 tLive), 0, by decide +kernel⟩⟩

theorem witness_DdrSerialPorts :
    (∃ (s : State) (p : Fin 4) (val : Word), s.live = true ∧ s.bit (Reg.DS_SWCTL p.val) 31 = false ∧ W.bit val 31 = true ∧
        s.portPenned (0x10 + p.val) = false ∧ s.portQuar (0x10 + p.val) = false ∧ s.bit (Reg.DS_CFG p.val) 0 = true ∧
        s.bit (Reg.DS_CFG p.val) 1 = false ∧ W.bit (s.rd (Reg.DS_PROF p.val (W.fld val 0 2))) 2 = false ∧
        s.use (0x10 + p.val) = .none ∧ s.entDue (0x10 + p.val) = false) ∧
    (∃ (s : State) (p : Fin 4) (val : Word), s.live = true ∧ s.bit (Reg.DS_SWCTL p.val) 31 = false ∧ W.bit val 31 = true ∧
        s.portPenned (0x10 + p.val) = true) ∧
    (∃ (s : State) (p : Fin 4) (val : Word), s.live = true ∧ s.bit (Reg.DS_SWCTL p.val) 31 = true) ∧
    (∃ (s : State) (p : Fin 4) (edges : Nat) (a : Word) (b : Word), s.runs gDS = true ∧ s.use (0x10 + p.val) = .sw ∧
        s.bit (Reg.DS_SWCTL p.val) 4 = false ∧ s.fld (Reg.DS_SWCTL p.val) 8 5 = 2 ∧
        s.bit (Reg.DS_PROF p.val (s.fld (Reg.DS_SWCTL p.val) 0 2)) 2 = false ∧
        s.fld (Reg.DS_PROF p.val (s.fld (Reg.DS_SWCTL p.val) 0 2)) 14 5 = 15) ∧
    (∃ (s : State) (p : Fin 4) (edges : Nat) (ws : List Word), s.runs gDS = true ∧ s.use (0x10 + p.val) = .sw ∧
        s.bit (Reg.DS_SWCTL p.val) 4 = false ∧ s.fld (Reg.DS_SWCTL p.val) 8 5 = 2 ∧
        s.fld (Reg.DS_PROF p.val (s.fld (Reg.DS_SWCTL p.val) 0 2)) 0 3 = 5 ∧
        s.fld (Reg.DS_PROF p.val (s.fld (Reg.DS_SWCTL p.val) 0 2)) 14 5 = 15 ∧ edges < 16 ∧
        s.fld (Reg.DS_STRBTALLY p.val) 0 16 < 65535) ∧
    (∃ (s : State) (p : Fin 4) (edges : Nat) (ws : List Word), s.runs gDS = true ∧ s.use (0x10 + p.val) = .none ∧
        s.bit (Reg.DS_SWCTL p.val) 31 = false) ∧
    (∃ (s : State) (i : Fin 2) (a : Word) (b : Word), s.runs gDS = true ∧ s.portTarget (0x12 + i.val) = true ∧
        s.portPenned (0x12 + i.val) = false ∧ s.portQuar (0x12 + i.val) = false ∧ s.bit (Reg.DS_CFG (2 + i.val)) 0 = true ∧
        s.fld (Reg.DS_PROF (2 + i.val) 0) 14 5 = 15 ∧ s.fld (Reg.DS_PROF (2 + i.val) 0) 0 2 = 0 ∧
        (s.port (0x12 + i.val)).rx.length ≤ 62 ∧ (s.port (0x12 + i.val)).rxlen.length < 16) ∧
    (∃ (s : State) (i : Fin 2) (ws : List Word), s.runs gDS = true ∧ s.portTarget (0x12 + i.val) = true ∧
        s.portPenned (0x12 + i.val) = false ∧ s.portQuar (0x12 + i.val) = false ∧ s.bit (Reg.DS_CFG (2 + i.val)) 0 = true ∧
        s.fld (Reg.DS_PROF (2 + i.val) 0) 14 5 = 15 ∧ s.fld (Reg.DS_TGTTALLY (2 + i.val)) 0 16 < 65535) ∧
    (∃ (s : State) (i : Fin 2) (ws : List Word), s.runs gDS = true ∧ s.portTarget (0x12 + i.val) = true ∧
        s.portPenned (0x12 + i.val) = false ∧ s.portQuar (0x12 + i.val) = false ∧ s.bit (Reg.DS_CFG (2 + i.val)) 0 = true ∧
        s.fld (Reg.DS_PROF (2 + i.val) 0) 14 5 = 15 ∧ s.fld (Reg.DS_TGTTALLY (2 + i.val)) 16 16 < 65535 ∧
        (s.port (0x12 + i.val)).rx.length = 64) ∧
    (∃ (s : State) (i : Fin 2) (ws : List Word), s.runs gDS = true ∧ s.portTarget (0x12 + i.val) = true ∧
        s.portPenned (0x12 + i.val) = false ∧ s.portQuar (0x12 + i.val) = false ∧ s.bit (Reg.DS_CFG (2 + i.val)) 0 = false ∧
        s.fld (Reg.DS_PROF (2 + i.val) 0) 14 5 = 15 ∧ s.fld (Reg.DS_TGTTALLY (2 + i.val)) 0 16 < 65535) ∧
    (∃ (s : State) (i : Fin 2) (bits : Nat) (cut : Bool) (ws : List Word), s.bit (Reg.DS_CFG (2 + i.val)) 0 = cut) ∧
    (∃ (s : State) (p : Fin 4), s.linkServes = true ∧ s.memServed = true ∧ s.regServed .host (Reg.DS_RXDATA p.val) = true) ∧
    (∃ (s : State) (p : Fin 4) (k : Nat) (r : List Nat), s.linkServes = true ∧ s.memServed = true ∧
        s.regServed .host (Reg.DS_RXLEN p.val) = true ∧ (s.port (0x10 + p.val)).rxlen = k :: r) ∧
    (∃ (s : State) (p : Fin 4), s.linkServes = true ∧ s.memServed = true ∧ s.regServed .host (Reg.DS_RXLEN p.val) = true ∧
        (s.port (0x10 + p.val)).rxlen = []) ∧
    (∃ (s : State) (p : Fin 4) (val : Word), s.live = true ∧ (s.port (0x10 + p.val)).tx.length < 16) ∧
    (∃ (s : State) (p : Fin 4) (val : Word), 16 ≤ (s.port (0x10 + p.val)).tx.length) ∧
    (∃ (s : State) (src : Requester) (f : BitVec 26) (a : Byte) (b : Byte), s.runs gDS = true ∧
        s.bit (Reg.DS_CFG 0) 0 = true ∧ s.portPenned 0x10 = false ∧ s.use 0x10 = .none) ∧
    (∃ (s : State) (src : Requester) (f : BitVec 26) (size : Nat) (bytes : List Byte), s.bit (Reg.DS_CFG 0) 0 = false) ∧
    (∃ (s : State) (src : Requester) (f : BitVec 26) (size : Nat) (bytes : List Byte), s.live = true ∧
        s.bit (Reg.DS_CFG 0) 0 = true ∧ s.portPenned 0x10 = false ∧ s.use 0x10 ≠ .none) ∧
    (∃ (s : State) (p : Fin 4), s.linkServes = true ∧ s.memServed = true ∧ s.regServed .host (Reg.DS_RXDATA p.val) = true ∧
        (s.port (0x10 + p.val)).rx.length ≤ 1) ∧
    (∃ (s : State) (p : Fin 4), s.linkServes = true ∧ s.memServed = true ∧ s.regServed .host (Reg.DS_RXLEN p.val) = true ∧
        (s.port (0x10 + p.val)).rxlen.length ≤ 1) ∧
    (∃ (s : State) (p : Fin 4) (a : Word) (b : Word) (r : List Word), s.linkServes = true ∧ s.memServed = true ∧
        s.regServed .host (Reg.DS_RXDATA p.val) = true ∧ (s.port (0x10 + p.val)).rx = a :: b :: r) ∧
    (∃ (s : State) (p : Fin 4) (edges : Nat) (ws : List Word) (n : Nat), s.runs gDS = true ∧ s.use (0x10 + p.val) = .ident n ∧
        s.fld (Reg.DS_PROF p.val (s.fld (Reg.PPW_IDCFG n) 26 2)) 0 3 = 5 ∧
        s.fld (Reg.DS_PROF p.val (s.fld (Reg.PPW_IDCFG n) 26 2)) 14 5 = 15 ∧ edges < 8 ∧
        s.fld (Reg.DS_STRBTALLY p.val) 0 16 < 65535) :=
  ⟨⟨((fun (p : Fin 4) (s : State) =>
      (s.portAt (0x10 + p.val) {}).wr (Reg.DS_SWCTL p.val) 0 |>.wr (Reg.DS_PROF p.val 3) 0x3C000) 0 tLive), 0, 0x80000203,
      by decide +kernel⟩,
   ⟨((fun (p : Fin 4) (s : State) =>
       (s.portAt (0x10 + p.val) {}).wr (Reg.DS_SWCTL p.val) 0 |>.setFld (Reg.DS_DSTAT p.val) 16 8 0x23) 0 tLive), 0,
       0x80000203, by decide +kernel⟩,
   ⟨((fun (p : Fin 4) (s : State) => s.setBit (Reg.DS_SWCTL p.val) 31 true) 0 tLive), 0, 0, by decide +kernel⟩,
   ⟨((fun (p : Fin 4) (s : State) =>
       (s.portAt (0x10 + p.val) { use := .sw }).wr (Reg.DS_SWCTL p.val) 0x80000203 |>.wr (Reg.DS_PROF p.val 3) 0x3C000) 0
       tLive), 0, 0, 0, 0, by decide +kernel⟩,
   ⟨((fun (p : Fin 4) (s : State) =>
       (s.portAt (0x10 + p.val) { use := .sw }).wr (Reg.DS_SWCTL p.val) 0x80000203 |>.wr (Reg.DS_PROF p.val 3) 0x3C005 |>.wr
       (Reg.DS_STRBTALLY p.val) 4) 0 tLive), 0, 5, [], by decide +kernel⟩,
   ⟨((fun (p : Fin 4) (s : State) => (s.portAt (0x10 + p.val) {}).wr (Reg.DS_SWCTL p.val) 0) 0 tLive), 0, 0, [],
       by decide +kernel⟩,
   ⟨((fun (i : Fin 2) (s : State) =>
       (s.portAt (0x12 + i.val) {}).wr (Reg.DS_CFG (2 + i.val)) 3 |>.wr (Reg.DS_PROF (2 + i.val) 0) 0x3C000) 0 tLive), 0, 0,
       0, by decide +kernel⟩,
   ⟨((fun (i : Fin 2) (s : State) =>
       (s.portAt (0x12 + i.val) {}).wr (Reg.DS_CFG (2 + i.val)) 3 |>.wr (Reg.DS_PROF (2 + i.val) 0) 0x3C000 |>.wr
       (Reg.DS_TGTTALLY (2 + i.val)) 0x10001) 0 tLive), 0, [], by decide +kernel⟩,
   ⟨((fun (i : Fin 2) (s : State) =>
       (s.portAt (0x12 + i.val) { rx := List.replicate 64 5 }).wr (Reg.DS_CFG (2 + i.val)) 3 |>.wr (Reg.DS_PROF (2 + i.val) 0)
       0x3C000 |>.wr (Reg.DS_TGTTALLY (2 + i.val)) 0x10001) 0 tLive), 0, [], by decide +kernel⟩,
   ⟨((fun (i : Fin 2) (s : State) =>
       (s.portAt (0x12 + i.val) {}).wr (Reg.DS_CFG (2 + i.val)) 2 |>.wr (Reg.DS_PROF (2 + i.val) 0) 0x3C000 |>.wr
       (Reg.DS_TGTTALLY (2 + i.val)) 0x10001) 0 tLive), 0, [], by decide +kernel⟩,
   ⟨((fun (i : Fin 2) (cut : Bool) (s : State) => s.wr (Reg.DS_CFG (2 + i.val)) (if cut then 3 else 2)) 0 true tLive), 0, 0,
       true, [], by decide +kernel⟩,
   ⟨((fun (s : State) => s |>.setBit Reg.HIF_LINKSTAT 0 true |>.cfgWr 1 0x00100006 |>.cfgWr 0x11 0 |>.setFld Reg.SYS_BOOTSTAT
       0 4 1) tLive), 0, by decide +kernel⟩,
   ⟨((fun (p : Fin 4) (s : State) =>
       s.portAt (0x10 + p.val) { rxlen := [3, 5] } |>.setBit Reg.HIF_LINKSTAT 0 true |>.cfgWr 1 0x00100006 |>.cfgWr 0x11 0
       |>.setFld Reg.SYS_BOOTSTAT 0 4 1) 0 tLive), 0, 3, [5], by decide +kernel⟩,
   ⟨((fun (p : Fin 4) (s : State) =>
       s.portAt (0x10 + p.val) {} |>.setBit Reg.HIF_LINKSTAT 0 true |>.cfgWr 1 0x00100006 |>.cfgWr 0x11 0 |>.setFld
       Reg.SYS_BOOTSTAT 0 4 1) 0 tLive), 0, by decide +kernel⟩,
   ⟨((fun (p : Fin 4) (s : State) => s.portAt (0x10 + p.val) {}) 0 tLive), 0, 0, by decide +kernel⟩,
   ⟨((fun (p : Fin 4) (s : State) => s.portAt (0x10 + p.val) { tx := List.replicate 16 5 }) 0 tLive), 0, 0,
       by decide +kernel⟩,
   ⟨((fun (s : State) => s.portAt 0x10 {}) tLive), .debug, 0, 0, 0, by decide +kernel⟩,
   ⟨((fun (s : State) => s.wr (Reg.DS_CFG 0) 0) tLive), .debug, 0, 0, [], by decide +kernel⟩,
   ⟨((fun (s : State) => s.portAt 0x10 { use := .sw } |>.wr (Reg.DS_CFG 0) 1) tLive), .debug, 0, 0, [], by decide +kernel⟩,
   ⟨((fun (p : Fin 4) (s : State) =>
       s.portAt (0x10 + p.val) { rx := [7] } |>.setBit Reg.HIF_LINKSTAT 0 true |>.cfgWr 1 0x00100006 |>.cfgWr 0x11 0 |>.setFld
       Reg.SYS_BOOTSTAT 0 4 1) 0 tLive), 0, by decide +kernel⟩,
   ⟨((fun (p : Fin 4) (s : State) =>
       s.portAt (0x10 + p.val) { rxlen := [7] } |>.setBit Reg.HIF_LINKSTAT 0 true |>.cfgWr 1 0x00100006 |>.cfgWr 0x11 0
       |>.setFld Reg.SYS_BOOTSTAT 0 4 1) 0 tLive), 0, by decide +kernel⟩,
   ⟨((fun (p : Fin 4) (s : State) =>
       s.portAt (0x10 + p.val) { rx := [7, 8, 9] } |>.setBit Reg.HIF_LINKSTAT 0 true |>.cfgWr 1 0x00100006 |>.cfgWr 0x11 0
       |>.setFld Reg.SYS_BOOTSTAT 0 4 1) 0 tLive), 0, 7, 8, [9], by decide +kernel⟩,
   ⟨((fun (s : State) => (s.portAt 0x12 { use := .ident 2 }).wr (Reg.PPW_IDCFG 2) 0 |>.wr (Reg.DS_PROF 2 0) 0x3C005 |>.wr
       (Reg.DS_STRBTALLY 2) 4) tLive), 2, 5, [], 2, by decide +kernel⟩⟩

theorem witness_StencilArithmetic :
    (∃ (s : State) (n : Fin 8), s.seAt n.val 0x0 = true) ∧
    (∃ (s : State) (n : Fin 8), s.seAt n.val 0xa = true) ∧
    (∃ (s : State) (n : Fin 8), s.seAt n.val 0xb = true) ∧
    (∃ (s : State) (n : Fin 8), s.seAt n.val 0xd = true) ∧
    (∃ (s : State) (n : Fin 8), s.seAt n.val 0xf = true) ∧
    (∃ (s : State) (n : Fin 8), s.seAt n.val 0xe = true) ∧
    (∃ (s : State) (n : Fin 8), s.seAt n.val 0x10 = true ∧ s.seSrc n.val (s.seInstr n.val) ≠ 0) ∧
    (∃ (s : State) (n : Fin 8), s.seAt n.val 0x10 = true ∧ s.seSrc n.val (s.seInstr n.val) = 0) ∧
    (∃ (s : State) (n : Fin 8), s.seAt n.val 0xc = true) ∧
    (∃ (s : State) (n : Fin 8), s.seAt n.val 0x7 = true) ∧
    (∃ (s : State) (n : Fin 8), s.seAt n.val 0x8 = true) ∧
    (∃ (s : State) (n : Fin 8), s.seAt n.val 0x9 = true) ∧
    (∃ (s : State) (n : Fin 8), s.seAt n.val 0x20 = true) ∧
    (∃ (s : State) (n : Fin 8), s.seAt n.val 0x11 = true ∧ iD (s.seInstr n.val) ≠ 5 ∧ iD (s.seInstr n.val) ≠ 7) ∧
    (∃ (s : State) (n : Fin 8), s.seAt n.val 0x11 = true) ∧
    (∃ (s : State) (n : Fin 8), s.seAt n.val 0x15 = true) ∧
    (∃ (s : State) (n : Fin 8), s.seAt n.val 0x16 = true ∧ iImm (s.seInstr n.val) % 64 = 0x20 ∧
        s.fld (Reg.SE_CRCCFG n.val) 0 2 = 2 ∧ (s.seReg n.val 7).toNat < 65536) ∧
    (∃ (s : State) (n : Fin 8), s.seAt n.val 0x16 = true) ∧
    (∃ (s : State) (n : Fin 8), s.seAt n.val 0x1b = true ∧ s.bit (Reg.SE_STAT n.val) 20 = false) ∧
    (∃ (s : State) (n : Fin 8), s.seAt n.val 0x1b = true ∧ s.bit (Reg.SE_STAT n.val) 20 = true) ∧
    (∃ (s : State) (n : Fin 8), s.seAt n.val 0x12 = true ∧ s.seCond n.val (iD (s.seInstr n.val)) = false) ∧
    (∃ (s : State) (n : Fin 8), s.seAt n.val 0x12 = true ∧ s.seCond n.val (iD (s.seInstr n.val)) = true) ∧
    (∃ (s : State) (n : Fin 8), s.seReady n.val = true ∧ iOp (s.seInstr n.val) = 0 ∧ s.bit (Reg.SE_CFG1 n.val) 15 = true ∧
        s.fld (Reg.SE_CFG1 n.val) 8 6 = s.sePc n.val ∧ s.rd (Reg.SE_REG n.val 2) ≠ 0) ∧
    (∃ (s : State) (n : Fin 8), s.seReady n.val = true ∧ iOp (s.seInstr n.val) = 0 ∧
        (s.bit (Reg.SE_CFG1 n.val) 15 = false ∨ s.rd (Reg.SE_REG n.val 2) = 0) ∧ s.bit (Reg.SE_CFG0 n.val) 23 = true ∧
        s.fld (Reg.SE_CFG0 n.val) 16 6 = s.sePc n.val) ∧
    (∃ (s : State) (n : Fin 8), s.seReady n.val = true ∧ 0x23 < iOp (s.seInstr n.val)) :=
  ⟨⟨((fun (n : Fin 8) (s : State) =>
      (s).seFix n.val 0x0 { s.eng n.val with waiting := false, busy := 0, phase := 0 }) 0 tLive), 0, by decide +kernel⟩,
   ⟨((fun (n : Fin 8) (s : State) =>
       (s).seFix n.val 0x28180000 { s.eng n.val with waiting := false, busy := 0, phase := 0 }) 0 tLive), 0,
       by decide +kernel⟩,
   ⟨((fun (n : Fin 8) (s : State) =>
       (s).seFix n.val 0x2c180000 { s.eng n.val with waiting := false, busy := 0, phase := 0 }) 0 tLive), 0,
       by decide +kernel⟩,
   ⟨((fun (n : Fin 8) (s : State) =>
       (s).seFix n.val 0x34180000 { s.eng n.val with waiting := false, busy := 0, phase := 0 }) 0 tLive), 0,
       by decide +kernel⟩,
   ⟨((fun (n : Fin 8) (s : State) =>
       (s).seFix n.val 0x3c180000 { s.eng n.val with waiting := false, busy := 0, phase := 0 }) 0 tLive), 0,
       by decide +kernel⟩,
   ⟨((fun (n : Fin 8) (s : State) =>
       (s).seFix n.val 0x38110024 { s.eng n.val with waiting := false, busy := 0, phase := 0 }) 0 tLive), 0,
       by decide +kernel⟩,
   ⟨((fun (n : Fin 8) (s : State) =>
       (s).seFix n.val 0x40110024 { s.eng n.val with waiting := false, busy := 0, phase := 0 }) 0 tLive), 0,
       by decide +kernel⟩,
   ⟨((fun (n : Fin 8) (s : State) =>
       (s).seFix n.val 0x40110000 { s.eng n.val with waiting := false, busy := 0, phase := 0 }) 0 tLive), 0,
       by decide +kernel⟩,
   ⟨((fun (n : Fin 8) (s : State) =>
       (s).seFix n.val 0x30180000 { s.eng n.val with waiting := false, busy := 0, phase := 0 }) 0 tLive), 0,
       by decide +kernel⟩,
   ⟨((fun (n : Fin 8) (s : State) =>
       (s).seFix n.val 0x1c109234 { s.eng n.val with waiting := false, busy := 0, phase := 0 }) 0 tLive), 0,
       by decide +kernel⟩,
   ⟨((fun (n : Fin 8) (s : State) =>
       (s).seFix n.val 0x20109234 { s.eng n.val with waiting := false, busy := 0, phase := 0 }) 0 tLive), 0,
       by decide +kernel⟩,
   ⟨((fun (n : Fin 8) (s : State) =>
       (s).seFix n.val 0x24720000 { s.eng n.val with waiting := false, busy := 0, phase := 0 }) 0 tLive), 0,
       by decide +kernel⟩,
   ⟨((fun (n : Fin 8) (s : State) =>
       (s).seFix n.val 0x8010000d { s.eng n.val with waiting := false, busy := 0, phase := 0 }) 0 tLive), 0,
       by decide +kernel⟩,
   ⟨((fun (n : Fin 8) (s : State) =>
       (s).seFix n.val 0x4410000b { s.eng n.val with waiting := false, busy := 0, phase := 0 }) 0 tLive), 0,
       by decide +kernel⟩,
   ⟨((fun (n : Fin 8) (s : State) =>
       (s).seFix n.val 0x4410000b { s.eng n.val with waiting := false, busy := 0, phase := 0 }) 0 tLive), 0,
       by decide +kernel⟩,
   ⟨((fun (n : Fin 8) (s : State) =>
       (s).seFix n.val 0x54000000 { s.eng n.val with waiting := false, busy := 0, phase := 0 }) 0 tLive), 0,
       by decide +kernel⟩,
   ⟨((fun (n : Fin 8) (s : State) =>
       (s).seFix n.val 0x58100020 { s.eng n.val with waiting := false, busy := 0, phase := 0 }) 0 tLive), 0,
       by decide +kernel⟩,
   ⟨((fun (n : Fin 8) (s : State) =>
       (s).seFix n.val 0x5810000b { s.eng n.val with waiting := false, busy := 0, phase := 0 }) 0 tLive), 0,
       by decide +kernel⟩,
   ⟨((fun (n : Fin 8) (s : State) =>
       (s).seFix n.val 0x6c100000 { s.eng n.val with waiting := false, busy := 0, phase := 0 }) 0 tLive), 0,
       by decide +kernel⟩,
   ⟨((fun (n : Fin 8) (s : State) =>
       s.seFix n.val 0x6c100000 { s.eng n.val with waiting := false, busy := 0, phase := 0, karg := 0x205 } |>.setBit
       (Reg.SE_STAT n.val) 20 true) 0 tLive), 0, by decide +kernel⟩,
   ⟨((fun (n : Fin 8) (s : State) =>
       (s).seFix n.val 0x48100015 { s.eng n.val with waiting := false, busy := 0, phase := 0, z := false }) 0 tLive), 0,
       by decide +kernel⟩,
   ⟨((fun (n : Fin 8) (s : State) =>
       (s).seFix n.val 0x48100015 { s.eng n.val with waiting := false, busy := 0, phase := 0, z := true }) 0 tLive), 0,
       by decide +kernel⟩,
   ⟨((fun (n : Fin 8) (s : State) =>
       (s).seFix n.val 0x0 { s.eng n.val with waiting := false, busy := 0, phase := 0 } |>.wr (Reg.SE_CFG1 n.val) 0x8503 |>.wr
       (Reg.SE_REG n.val 2) 3) 0 tLive), 0, by decide +kernel⟩,
   ⟨((fun (n : Fin 8) (s : State) =>
       (s).seFix n.val 0x0 { s.eng n.val with waiting := false, busy := 0, phase := 0 } |>.wr (Reg.SE_CFG0 n.val) 0x00850200
       |>.wr (Reg.SE_CFG1 n.val) 0x8503 |>.wr (Reg.SE_REG n.val 2) 0) 0 tLive), 0, by decide +kernel⟩,
   ⟨((fun (n : Fin 8) (s : State) =>
       (s).seFix n.val 0x90000000 { s.eng n.val with waiting := false, busy := 0, phase := 0 }) 0 tLive), 0,
       by decide +kernel⟩⟩

theorem witness_StencilWaitsAndPins :
    (∃ (s : State) (n : Fin 8), s.seAt n.val 0x2 = true ∧ iP (s.seInstr n.val) < s.sePwid n.val ∧
        s.bit (Reg.SE_STAT n.val) 21 = false) ∧
    (∃ (s : State) (n : Fin 8), s.seAt n.val 0x4 = true ∧ s.bit (Reg.SE_STAT n.val) 21 = false ∧
        s.seSrc n.val (s.seInstr n.val) = 0) ∧
    (∃ (s : State) (n : Fin 8), s.seAt n.val 0x4 = true ∧ s.bit (Reg.SE_STAT n.val) 21 = false ∧
        s.seSrc n.val (s.seInstr n.val) ≠ 0) ∧
    (∃ (s : State) (n : Fin 8), s.seAt n.val 0x5 = true ∧ s.bit (Reg.SE_STAT n.val) 21 = false ∧
        0 ≤ (s.seTmr n.val - s.seSrc n.val (s.seInstr n.val)).toInt) ∧
    (∃ (s : State) (n : Fin 8), s.seAt n.val 0x5 = true ∧ s.bit (Reg.SE_STAT n.val) 21 = false ∧
        (s.seTmr n.val - s.seSrc n.val (s.seInstr n.val)).toInt < 0) ∧
    (∃ (s : State) (n : Fin 8), s.seAt n.val 0x6 = true ∧ s.bit (Reg.SE_STAT n.val) 21 = false ∧
        (s.seSrc n.val (s.seInstr n.val)).toNat ≤ (s.seTmr n.val - s.seReg n.val 4).toNat) ∧
    (∃ (s : State) (n : Fin 8), s.seAt n.val 0x6 = true ∧ s.bit (Reg.SE_STAT n.val) 21 = false ∧
        (s.seTmr n.val - s.seReg n.val 4).toNat < (s.seSrc n.val (s.seInstr n.val)).toNat) ∧
    (∃ (s : State) (n : Fin 8), s.seAt n.val 0x4 = true ∧ s.bit (Reg.SE_STAT n.val) 21 = true ∧
        s.bit (Reg.SE_CFG2 n.val) 24 = true ∧ s.bit (Reg.SE_STAT n.val) 23 = false) ∧
    (∃ (s : State) (n : Fin 8) (lvl : Bool), s.seAt n.val 0x3 = true ∧ iP (s.seInstr n.val) < s.sePwid n.val ∧
        s.bit (Reg.SE_STAT n.val) 21 = false ∧
        (if s.ballDrivers (s.seBall n.val (iP (s.seInstr n.val))) = [] then lvl else s.bit Reg.SE_PINLVL (s.seBall n.val (iP
        (s.seInstr n.val)))) = W.bit (s.seInstr n.val) 20) ∧
    (∃ (s : State) (n : Fin 8) (lvl : Bool), s.seAt n.val 0x3 = true ∧ iP (s.seInstr n.val) < s.sePwid n.val ∧
        s.bit (Reg.SE_STAT n.val) 21 = false ∧
        (if s.ballDrivers (s.seBall n.val (iP (s.seInstr n.val))) = [] then lvl else s.bit Reg.SE_PINLVL (s.seBall n.val (iP
        (s.seInstr n.val)))) ≠ W.bit (s.seInstr n.val) 20) ∧
    (∃ (s : State) (n : Fin 8) (lvl : Bool), s.seAt n.val 0x13 = true ∧ iP (s.seInstr n.val) < s.sePwid n.val) ∧
    (∃ (s : State) (n : Fin 8), s.seAt n.val 0x14 = true ∧ iP (s.seInstr n.val) < s.sePwid n.val) ∧
    (∃ (s : State) (n : Fin 8), s.seAt n.val 0x1 = true ∧ iP (s.seInstr n.val) < s.sePwid n.val) ∧
    (∃ (s : State) (n : Fin 8), s.seAt n.val 0x1 = true ∧ s.sePwid n.val ≤ iP (s.seInstr n.val)) ∧
    (∃ (s : State) (n : Fin 8) (back : BitVec 8), s.seRuns n.val = true ∧ (s.eng n.val).waiting = true ∧
        iOp (s.seInstr n.val) = 0x2 ∧ s.bit (Reg.SE_CFG1 n.val) 15 = false ∧ s.bit (Reg.SE_CFG0 n.val) 23 = false ∧
        (W.bit (s.seInstr n.val) 22 = false ∨ (s.eng n.val).late = false)) ∧
    (∃ (s : State) (n : Fin 8) (back : BitVec 8), s.seRuns n.val = true ∧ (s.eng n.val).waiting = true ∧
        iOp (s.seInstr n.val) = 0x2 ∧ s.bit (Reg.SE_CFG1 n.val) 15 = false ∧ s.bit (Reg.SE_CFG0 n.val) 23 = false ∧
        W.bit (s.seInstr n.val) 22 = true ∧ (s.eng n.val).left = 0) ∧
    (∃ (s : State) (n : Fin 8) (back : BitVec 8), s.seRuns n.val = true ∧ (s.eng n.val).waiting = true ∧
        iOp (s.seInstr n.val) = 0x2 ∧ s.bit (Reg.SE_CFG1 n.val) 15 = false ∧ s.bit (Reg.SE_CFG0 n.val) 23 = false ∧
        (W.bit (s.seInstr n.val) 22 = false ∨ (s.eng n.val).left ≠ 0)) ∧
    (∃ (s : State) (n : Fin 8) (back : BitVec 8), s.seRuns n.val = true ∧ (s.eng n.val).waiting = true ∧
        iOp (s.seInstr n.val) = 0x3 ∧ s.bit (Reg.SE_CFG1 n.val) 15 = false ∧ s.bit (Reg.SE_CFG0 n.val) 23 = false ∧
        (W.bit (s.seInstr n.val) 22 = false ∨ (s.eng n.val).late = false)) ∧
    (∃ (s : State) (n : Fin 8) (back : BitVec 8), s.seRuns n.val = true ∧ (s.eng n.val).waiting = true ∧
        iOp (s.seInstr n.val) = 0x4 ∧ s.bit (Reg.SE_CFG1 n.val) 15 = false ∧ s.bit (Reg.SE_CFG0 n.val) 23 = false ∧
        (s.eng n.val).left = 0) ∧
    (∃ (s : State) (n : Fin 8) (back : BitVec 8), s.seRuns n.val = true ∧ (s.eng n.val).waiting = true ∧
        iOp (s.seInstr n.val) = 0x5 ∧ s.bit (Reg.SE_CFG1 n.val) 15 = false ∧ s.bit (Reg.SE_CFG0 n.val) 23 = false ∧
        (s.eng n.val).left = 0) ∧
    (∃ (s : State) (n : Fin 8) (back : BitVec 8), s.seRuns n.val = true ∧ (s.eng n.val).waiting = true ∧
        iOp (s.seInstr n.val) = 0x6 ∧ s.bit (Reg.SE_CFG1 n.val) 15 = false ∧ s.bit (Reg.SE_CFG0 n.val) 23 = false ∧
        (s.eng n.val).left = 0) ∧
    (∃ (s : State) (n : Fin 8) (give : Bool) (back : BitVec 8), 4 ≤ iOp (s.seInstr n.val) ∧ iOp (s.seInstr n.val) ≤ 6 ∧
        (s.eng n.val).left ≠ 0) ∧
    (∃ (s : State) (n : Fin 8) (give : Bool) (back : BitVec 8), (s.eng n.val).waiting = false) ∧
    (∃ (s : State) (n : Fin 8) (rise : Bool) (back : BitVec 8), s.seRuns n.val = true ∧
        s.fld (Reg.SE_MISC n.val) 24 3 < s.sePwid n.val ∧ s.bit (Reg.SE_MISC n.val) (if rise then 27 else 28) = true) ∧
    (∃ (s : State) (n : Fin 8) (rise : Bool) (back : BitVec 8), s.bit (Reg.SE_MISC n.val) (if rise then 27 else 28) = false) ∧
    (∃ (s : State) (n : Fin 8) (back : BitVec 8), s.seRuns n.val = true ∧ (s.eng n.val).waiting = true ∧
        (iOp (s.seInstr n.val) = 0x2 ∨ iOp (s.seInstr n.val) = 0x3) ∧ s.bit (Reg.SE_CFG1 n.val) 15 = false ∧
        s.bit (Reg.SE_CFG0 n.val) 23 = false ∧ W.bit (s.seInstr n.val) 22 = true ∧ (s.eng n.val).late = true ∧
        (s.eng n.val).left = 0) :=
  ⟨⟨((fun (n : Fin 8) (s : State) =>
      (s).seFix n.val 0x8900000 { s.eng n.val with waiting := false, busy := 0, phase := 0 }) 0 tLive), 0, by decide +kernel⟩,
   ⟨((fun (n : Fin 8) (s : State) =>
       (s).seFix n.val 0x10010000 { s.eng n.val with waiting := false, busy := 0, phase := 0 }) 0 tLive), 0,
       by decide +kernel⟩,
   ⟨((fun (n : Fin 8) (s : State) =>
       (s).seFix n.val 0x10010007 { s.eng n.val with waiting := false, busy := 0, phase := 0 }) 0 tLive), 0,
       by decide +kernel⟩,
   ⟨((fun (n : Fin 8) (s : State) =>
       (s).seFix n.val 0x14010007 { s.eng n.val with waiting := false, busy := 0, phase := 0 }) 0 tLive), 0,
       by decide +kernel⟩,
   ⟨((fun (n : Fin 8) (s : State) =>
       (s).seFix n.val 0x140107d0 { s.eng n.val with waiting := false, busy := 0, phase := 0 }) 0 tLive), 0,
       by decide +kernel⟩,
   ⟨((fun (n : Fin 8) (s : State) =>
       (s).seFix n.val 0x18010007 { s.eng n.val with waiting := false, busy := 0, phase := 0 }) 0 tLive), 0,
       by decide +kernel⟩,
   ⟨((fun (n : Fin 8) (s : State) =>
       (s).seFix n.val 0x180107d0 { s.eng n.val with waiting := false, busy := 0, phase := 0 }) 0 tLive), 0,
       by decide +kernel⟩,
   ⟨((fun (n : Fin 8) (s : State) =>
       (s).seFix n.val 0x10010007 { s.eng n.val with waiting := false, busy := 0, phase := 0 } |>.setBit (Reg.SE_STAT n.val)
       21 true |>.wr (Reg.SE_CFG2 n.val) 0x1000000 |>.wr (Reg.SE_CFG1 n.val) 0x120000) 0 tLive), 0, by decide +kernel⟩,
   ⟨((fun (n : Fin 8) (s : State) => (List.range 8).foldl (fun s m =>
       s.setEng m { s.eng m with drv := [] }) ((s).seFix n.val 0xc900000
       { s.eng n.val with waiting := false, busy := 0, phase := 0 })) 0 tLive), 0, true, by decide +kernel⟩,
   ⟨((fun (n : Fin 8) (s : State) => (List.range 8).foldl (fun s m =>
       s.setEng m { s.eng m with drv := [] }) ((s).seFix n.val 0xc900000
       { s.eng n.val with waiting := false, busy := 0, phase := 0 })) 0 tLive), 0, false, by decide +kernel⟩,
   ⟨((fun (n : Fin 8) (s : State) => (List.range 8).foldl (fun s m =>
       s.setEng m { s.eng m with drv := [] }) ((s).seFix n.val 0x4c800000
       { s.eng n.val with waiting := false, busy := 0, phase := 0 })) 0 tLive), 0, true, by decide +kernel⟩,
   ⟨((fun (n : Fin 8) (s : State) =>
       (s).seFix n.val 0x50800000 { s.eng n.val with waiting := false, busy := 0, phase := 0 }) 0 tLive), 0,
       by decide +kernel⟩,
   ⟨((fun (n : Fin 8) (s : State) =>
       (s).seFix n.val 0x4800001 { s.eng n.val with waiting := false, busy := 0, phase := 0 }) 0 tLive), 0,
       by decide +kernel⟩,
   ⟨((fun (n : Fin 8) (s : State) =>
       (s).seFix n.val 0x6800001 { s.eng n.val with waiting := false, busy := 0, phase := 0 }) 0 tLive), 0,
       by decide +kernel⟩,
   ⟨((fun (n : Fin 8) (s : State) => (s).seFix n.val 0x8900000 { s.eng n.val with waiting := true, left := 0 }) 0 tLive), 0,
       0, by decide +kernel⟩,
   ⟨((fun (n : Fin 8) (s : State) => (s).seFix n.val 0x8d00000 { s.eng n.val with waiting := true, left := 0 }) 0 tLive), 0,
       0, by decide +kernel⟩,
   ⟨((fun (n : Fin 8) (s : State) => (s).seFix n.val 0x8900000 { s.eng n.val with waiting := true, left := 0 }) 0 tLive), 0,
       0, by decide +kernel⟩,
   ⟨((fun (n : Fin 8) (s : State) => (s).seFix n.val 0xc900000 { s.eng n.val with waiting := true, left := 0 }) 0 tLive), 0,
       0, by decide +kernel⟩,
   ⟨((fun (n : Fin 8) (s : State) => (s).seFix n.val 0x10010007 { s.eng n.val with waiting := true, left := 0 }) 0 tLive), 0,
       0, by decide +kernel⟩,
   ⟨((fun (n : Fin 8) (s : State) => (s).seFix n.val 0x14010007 { s.eng n.val with waiting := true, left := 0 }) 0 tLive), 0,
       0, by decide +kernel⟩,
   ⟨((fun (n : Fin 8) (s : State) => (s).seFix n.val 0x18010007 { s.eng n.val with waiting := true, left := 0 }) 0 tLive), 0,
       0, by decide +kernel⟩,
   ⟨((fun (n : Fin 8) (s : State) => (s).seFix n.val 0x14010007 { s.eng n.val with waiting := true, left := 9 }) 0 tLive), 0,
       true, 0, by decide +kernel⟩,
   ⟨((fun (n : Fin 8) (s : State) =>
       (s).seFix n.val 0x8000000 { s.eng n.val with waiting := false, busy := 0, phase := 0 }) 0 tLive), 0, true, 0,
       by decide +kernel⟩,
   ⟨((fun (n : Fin 8) (s : State) => (s).seFix n.val 0x0 (s.eng n.val)) 0 tLive), 0, true, 0, by decide +kernel⟩,
   ⟨((fun (n : Fin 8) (s : State) => (s.seFix n.val 0 (s.eng n.val)).wr (Reg.SE_MISC n.val) 0) 0 tLive), 0, true, 0,
       by decide +kernel⟩,
   ⟨((fun (n : Fin 8) (s : State) =>
       (s).seFix n.val 0x8d00000 { s.eng n.val with waiting := true, left := 0, late := true }) 0 tLive), 0, 0,
       by decide +kernel⟩⟩

theorem witness_StencilChannels :
    (∃ (s : State) (n : Fin 8), s.seAt n.val 0x17 = true ∧ iImm (s.seInstr n.val) % 4 ≠ 3) ∧
    (∃ (s : State) (n : Fin 8), s.seAt n.val 0x17 = true ∧ iImm (s.seInstr n.val) % 4 = 3) ∧
    (∃ (s : State) (n : Fin 8), s.seAt n.val 0x18 = true ∧ (s.seCh n.val (iP (s.seInstr n.val))).build.length < 16) ∧
    (∃ (s : State) (n : Fin 8), s.seAt n.val 0x18 = true ∧ 16 ≤ (s.seCh n.val (iP (s.seInstr n.val))).build.length ∧
        s.fld (Reg.SE_OVFTALLY n.val) 0 16 < 65535) ∧
    (∃ (s : State) (n : Fin 8), s.seAt n.val 0x19 = true ∧ (s.seCh n.val (iP (s.seInstr n.val))).opened = true ∧
        (s.seCh n.val (iP (s.seInstr n.val))).build.length ≤ 16 ∧ s.use (0x20 + n.val) = .none) ∧
    (∃ (s : State) (n : Fin 8) (l : Nat) (e : Nat), s.seAt n.val 0x19 = true ∧
        (s.seCh n.val (iP (s.seInstr n.val))).opened = true ∧ s.use (0x20 + n.val) = .entry l e false ∧
        (s.port (0x20 + n.val)).got = none ∧ s.fld (Reg.MBM_ENTDESC l e 3) 0 2 ≠ 1 ∧
        s.fld (Reg.MBM_ENTDESC l e 0) 24 3 = iP (s.seInstr n.val) ∧
        (s.ent l e).t0 ≤ (s.seCh n.val (iP (s.seInstr n.val))).tfirst) ∧
    (∃ (s : State) (n : Fin 8), s.seAt n.val 0x1a = true) ∧
    (∃ (s : State) (n : Fin 8), s.seAt n.val 0x1c = true ∧ iD (s.seInstr n.val) ≠ 3 ∧ iD (s.seInstr n.val) ≠ 4) ∧
    (∃ (s : State) (n : Fin 8), s.seAt n.val 0x1d = true ∧
        (s.bit (Reg.SE_STAT n.val) 21 = false ∨ s.bit (Reg.SE_STAT n.val) 23 = true)) ∧
    (∃ (s : State) (n : Fin 8), s.seAt n.val 0x1d = true ∧ s.bit (Reg.SE_STAT n.val) 21 = true ∧
        s.bit (Reg.SE_STAT n.val) 23 = false) ∧
    (∃ (s : State) (n : Fin 8), s.seAt n.val 0x1f = true ∧ s.bit (Reg.SE_STAT n.val) 23 = true) ∧
    (∃ (s : State) (n : Fin 8), s.seAt n.val 0x1e = true ∧ s.bit (Reg.SE_STAT n.val) 23 = true ∧
        W.bit (s.seInstr n.val) 0 = false) ∧
    (∃ (s : State) (n : Fin 8), s.seAt n.val 0x1e = true ∧ s.bit (Reg.SE_STAT n.val) 23 = false ∧
        W.bit (s.seInstr n.val) 0 = false) ∧
    (∃ (s : State) (n : Fin 8), s.seAt n.val 0x1e = true ∧ s.bit (Reg.SE_STAT n.val) 23 = true ∧
        W.bit (s.seInstr n.val) 0 = true ∧ iP (s.seInstr n.val) < s.sePwid n.val) ∧
    (∃ (s : State) (n : Fin 8), s.seAt n.val 0x21 = true ∧ (s.eng n.val).pageT ≠ some s.periStart ∧
        s.bit (Reg.SE_STAT n.val) 22 = true) ∧
    (∃ (s : State) (n : Fin 8), s.seAt n.val 0x21 = true ∧ (s.eng n.val).pageT = some s.periStart) ∧
    (∃ (s : State) (n : Fin 8), s.seAt n.val 0x21 = true ∧ (s.eng n.val).pageT ≠ some s.periStart ∧
        s.bit (Reg.SE_STAT n.val) 22 = false) ∧
    (∃ (s : State) (n : Fin 8), s.seAt n.val 0x22 = true) ∧
    (∃ (s : State) (n : Fin 8), s.seAt n.val 0x23 = true) :=
  ⟨⟨((fun (n : Fin 8) (s : State) =>
      (s).seFix n.val 0x5c800002 { s.eng n.val with waiting := false, busy := 0, phase := 0 }) 0 tLive), 0,
      by decide +kernel⟩,
   ⟨((fun (n : Fin 8) (s : State) =>
       (s).seFix n.val 0x5c800003 { s.eng n.val with waiting := false, busy := 0, phase := 0 }) 0 tLive), 0,
       by decide +kernel⟩,
   ⟨((fun (n : Fin 8) (s : State) =>
       (s).seFix n.val 0x60900000
       { s.eng n.val with waiting := false, busy := 0, phase := 0, chans := [(1, { build := [5] })] }) 0 tLive), 0,
       by decide +kernel⟩,
   ⟨((fun (n : Fin 8) (s : State) =>
       (s).seFix n.val 0x60900000
       { s.eng n.val with waiting := false, busy := 0, phase := 0, chans := [(1, { build := List.replicate 16 5 })] } |>.wr
       (Reg.SE_OVFTALLY n.val) 3) 0 tLive), 0, by decide +kernel⟩,
   ⟨((fun (n : Fin 8) (s : State) =>
       (s).seFix n.val 0x64800009
       { s.eng n.val with waiting := false, busy := 0, phase := 0, chans := [(1, { build := [5, 6], opened := true, tfirst := 77 })] }
       |>.setPort (0x20 + n.val) {}) 0 tLive), 0, by decide +kernel⟩,
   ⟨((fun (n : Fin 8) (s : State) =>
       (s.listAt 2 (0x1000020 + n.val) 7 { ents := [(0, { ph := .first, t0 := 70 })] }).setPort (0x20 + n.val)
       { use := .entry 2 0 false } |>.seFix n.val 0x64800009
       { s.eng n.val with waiting := false, busy := 0, phase := 0, chans := [(1, { build := [5, 6], opened := true, tfirst := 77 })] })
       0 tLive), 0, 2, 0, by decide +kernel⟩,
   ⟨((fun (n : Fin 8) (s : State) =>
       (s).seFix n.val 0x68100000 { s.eng n.val with waiting := false, busy := 0, phase := 0 }) 0 tLive), 0,
       by decide +kernel⟩,
   ⟨((fun (n : Fin 8) (s : State) =>
       (s).seFix n.val 0x70100000 { s.eng n.val with waiting := false, busy := 0, phase := 0 }) 0 tLive), 0,
       by decide +kernel⟩,
   ⟨((fun (n : Fin 8) (s : State) =>
       (s).seFix n.val 0x74000000 { s.eng n.val with waiting := false, busy := 0, phase := 0 }) 0 tLive), 0,
       by decide +kernel⟩,
   ⟨((fun (n : Fin 8) (s : State) =>
       (s).seFix n.val 0x74000000 { s.eng n.val with waiting := false, busy := 0, phase := 0 } |>.setBit (Reg.SE_STAT n.val)
       21 true |>.wr (Reg.SE_CFG1 n.val) 0x120000) 0 tLive), 0, by decide +kernel⟩,
   ⟨((fun (n : Fin 8) (s : State) =>
       (s).seFix n.val 0x7c000000 { s.eng n.val with waiting := false, busy := 0, phase := 0 } |>.setBit (Reg.SE_STAT n.val)
       23 true) 0 tLive), 0, by decide +kernel⟩,
   ⟨((fun (n : Fin 8) (s : State) =>
       (s).seFix n.val 0x78000000 { s.eng n.val with waiting := false, busy := 0, phase := 0 } |>.setBit (Reg.SE_STAT n.val)
       23 true) 0 tLive), 0, by decide +kernel⟩,
   ⟨((fun (n : Fin 8) (s : State) =>
       (s).seFix n.val 0x78000000 { s.eng n.val with waiting := false, busy := 0, phase := 0 }) 0 tLive), 0,
       by decide +kernel⟩,
   ⟨((fun (n : Fin 8) (s : State) =>
       (s).seFix n.val 0x78800001 { s.eng n.val with waiting := false, busy := 0, phase := 0 } |>.setBit (Reg.SE_STAT n.val)
       23 true) 0 tLive), 0, by decide +kernel⟩,
   ⟨((fun (n : Fin 8) (s : State) =>
       (s).seFix n.val 0x84000000
       { s.eng n.val with waiting := false, busy := 0, phase := 0, pageT := none, shadow := [(3, 9)] } |>.setBit (Reg.SE_STAT
       n.val) 22 true) 0 tLive), 0, by decide +kernel⟩,
   ⟨((fun (n : Fin 8) (s : State) =>
       (s).seFix n.val 0x84000000
       { s.eng n.val with waiting := false, busy := 0, phase := 0, page := [(3, 9)], pagePend := true } |>.setBit (Reg.SE_STAT
       n.val) 22 true |> (fun s => s.setEng n.val { s.eng n.val with pageT := some s.periStart })) 0 tLive), 0,
       by decide +kernel⟩,
   ⟨((fun (n : Fin 8) (s : State) =>
       (s).seFix n.val 0x84000000 { s.eng n.val with waiting := false, busy := 0, phase := 0, pageT := none }) 0 tLive), 0,
       by decide +kernel⟩,
   ⟨((fun (n : Fin 8) (s : State) =>
       (s).seFix n.val 0x88000000 { s.eng n.val with waiting := false, busy := 0, phase := 0 }) 0 tLive), 0,
       by decide +kernel⟩,
   ⟨((fun (n : Fin 8) (s : State) =>
       (s).seFix n.val 0x8c000000 { s.eng n.val with waiting := false, busy := 0, phase := 0 }) 0 tLive), 0,
       by decide +kernel⟩⟩

theorem witness_StencilControl :
    (∃ (s : State) (n : Fin 8), s.live = true ∧ s.gatedBit gSE = false ∧ s.seSt n.val = 0 ∧ s.seBlocked n.val = false) ∧
    (∃ (s : State) (n : Fin 8), s.live = true ∧ s.gatedBit gSE = false ∧ s.seSt n.val = 0 ∧ s.seBlocked n.val = true) ∧
    (∃ (s : State) (n : Fin 8), s.live = true ∧ s.gatedBit gSE = true) ∧
    (∃ (s : State) (n : Fin 8), s.live = true ∧ s.seSt n.val = 1 ∧ (s.eng n.val).waiting = false ∧ (s.eng n.val).busy ≠ 0) ∧
    (∃ (s : State) (n : Fin 8), s.live = true ∧ (s.seSt n.val ≠ 1 ∨ (s.eng n.val).waiting = true ∨ (s.eng n.val).busy = 0)) ∧
    (∃ (s : State) (n : Fin 8), s.live = true ∧ s.gatedBit gSE = false ∧ s.seSt n.val = 0 ∧ s.seBlocked n.val = false) ∧
    (∃ (s : State) (n : Fin 8), s.live = true ∧ s.gatedBit gSE = false ∧ s.seSt n.val ≠ 0) ∧
    (∃ (s : State) (n : Fin 8), s.runs gSE = true ∧ s.seSt n.val = 1) ∧
    (∃ (s : State) (n : Fin 8) (addr : Word), s.live = true ∧ (s.seSt n.val = 0 ∨ s.seSt n.val = 2)) ∧
    (∃ (s : State) (n : Fin 8) (addr : Word), s.live = true ∧ (s.seSt n.val = 1 ∨ s.seSt n.val = 3)) ∧
    (∃ (s : State) (n : Fin 8) (a : Nat) (r : List Word), s.runs gSE = true ∧ (s.eng n.val).load = some a ∧
        ((s.setEng n.val { s.eng n.val with load := none }).seRecord a).1 = some r ∧ r.length = 40 + W.fld (r.getD 0 0) 24 7 ∧
        1 ≤ W.fld (r.getD 0 0) 24 7 ∧ W.fld (r.getD 0 0) 24 7 ≤ 64) ∧
    (∃ (s : State) (n : Fin 8) (a : Nat), s.runs gSE = true ∧ (s.eng n.val).load = some a ∧ a % 4 ≠ 0) ∧
    (∃ (s : State) (n : Fin 8), (s.eng n.val).load = none) ∧
    (∃ (s : State) (n : Fin 8) (w : Fin 32) (val : Word), s.live = true) :=
  ⟨⟨((fun (n : Fin 8) (s : State) => (List.range 8).foldl (fun s k =>
      s.wr (Reg.PPW_BIND k) 0) (s.wr (Reg.SE_STAT n.val) 0x500 |>.wr (Reg.SE_CFG0 n.val) 7 |>.setPort (0x20 + n.val) {})) 0
      tLive), 0, by decide +kernel⟩,
   ⟨((fun (n : Fin 8) (s : State) =>
       s.wr (Reg.SE_STAT n.val) 0x500 |>.wr (Reg.SE_CFG0 n.val) 7 |>.setPort (0x20 + n.val) { pen := 0x23 }) 0 tLive), 0,
       by decide +kernel⟩,
   ⟨tTrim gSE, 7, by decide +kernel⟩,
   ⟨((fun (n : Fin 8) (s : State) => s.seFix n.val 0 { s.eng n.val with waiting := false, busy := 3 }) 0 tLive), 0,
       by decide +kernel⟩,
   ⟨((fun (n : Fin 8) (s : State) => s.seFix n.val 0 { s.eng n.val with waiting := true, busy := 3 }) 0 tLive), 0,
       by decide +kernel⟩,
   ⟨((fun (n : Fin 8) (s : State) => (List.range 8).foldl (fun s k =>
       s.wr (Reg.PPW_BIND k) 0) (s.wr (Reg.SE_STAT n.val) 0x500 |>.wr (Reg.SE_CFG0 n.val) 7 |>.setPort (0x20 + n.val) {})) 0
       tLive), 0, by decide +kernel⟩,
   ⟨((fun (n : Fin 8) (s : State) => s.wr (Reg.SE_STAT n.val) 0x501) 0 tLive), 0, by decide +kernel⟩,
   ⟨((fun (n : Fin 8) (s : State) => (s).seFix n.val 0x0 { phase := 3 }) 0 tLive), 0, by decide +kernel⟩,
   ⟨((fun (n : Fin 8) (s : State) => s.wr (Reg.SE_STAT n.val) 0x502) 0 tLive), 0, 0, by decide +kernel⟩,
   ⟨((fun (n : Fin 8) (s : State) => s.wr (Reg.SE_STAT n.val) 0x503) 0 tLive), 0, 0, by decide +kernel⟩,
   ⟨((fun (n : Fin 8) (s : State) =>
       ({ s with ecc := [], coh := {}, cores := [] }.setEng n.val { s.eng n.val with load := some 0x1000 }).wrWords 0x1000
       seRecW) 0 tLive), 0, 0x1000, seRecW, by decide +kernel⟩,
   ⟨((fun (n : Fin 8) (s : State) => s.setEng n.val { s.eng n.val with load := some 0x1002 }) 0 tLive), 0, 0x1002,
       by decide +kernel⟩,
   ⟨((fun (n : Fin 8) (s : State) => s.setEng n.val { s.eng n.val with load := none }) 0 tLive), 0, by decide +kernel⟩,
   ⟨tLive, 0, 0, 0, by decide +kernel⟩⟩

theorem witness_PortPowerChannels :
    (∃ (s : State) (n : Fin 8) (present : Bool), s.live = true ∧ s.pst n.val = 0 ∧ s.bit (Reg.PPW_CTRLn n.val) 0 = false ∧
        s.ppIdportOk n.val = true ∧ s.bit (Reg.PPW_CFG n.val) 0 = false) ∧
    (∃ (s : State) (n : Fin 8) (present : Bool), s.live = true ∧ s.pst n.val ≠ 0 ∧ s.pst n.val ≠ 8 ∧
        s.bit (Reg.PPW_CTRLn n.val) 0 = false ∧ s.ppIdportOk n.val = true) ∧
    (∃ (s : State) (n : Fin 8) (present : Bool), s.live = true ∧ s.pst n.val = 0 ∧ s.bit (Reg.PPW_CTRLn n.val) 0 = false ∧
        s.ppIdportOk n.val = true ∧ s.bit (Reg.PPW_CFG n.val) 0 = true) ∧
    (∃ (s : State) (n : Fin 8) (present : Bool), s.live = true ∧ s.pst n.val ≠ 8 ∧ s.bit (Reg.PPW_CTRLn n.val) 0 = false ∧
        s.ppIdportOk n.val = false) ∧
    (∃ (s : State) (n : Fin 8), s.live = true) ∧
    (∃ (s : State) (n : Fin 8) (code : BitVec 16), s.live = true ∧ s.ppIsOn n.val = true ∧ s.inrushOn n.val = false ∧
        s.idTakes n.val = true) ∧
    (∃ (s : State) (n : Fin 8) (code : BitVec 16), s.live = true ∧ s.ppIsOn n.val = true ∧ s.inrushOn n.val = true) ∧
    (∃ (s : State) (n : Fin 8), s.live = true ∧ s.bit (Reg.PPW_STAT n.val) 18 = false ∧
        max 1 (s.fld (Reg.PPW_FILT n.val) 0 8) ≤ (s.ppc n.val).above ∧ s.ppIsOn n.val = true ∧
        s.fld (Reg.PPW_EVTALLY n.val) 0 16 < 65535) ∧
    (∃ (s : State) (n : Fin 8), s.live = true ∧ s.bit (Reg.PPW_STAT n.val) 18 = true) ∧
    (∃ (s : State) (n : Fin 8), s.live = true ∧ s.ppIsOn n.val = true ∧
        max 1 (s.fld (Reg.PPW_FILT n.val) 8 8) ≤ (s.ppc n.val).trip ∧ s.pst n.val ≠ 8 ∧ (s.ppc n.val).episode = false) ∧
    (∃ (s : State) (n : Fin 8), s.live = true ∧ s.ppIsOn n.val = true ∧
        max 1 (s.fld (Reg.PPW_FILT n.val) 8 8) ≤ (s.ppc n.val).trip ∧ s.pst n.val ≠ 8 ∧ (s.ppc n.val).episode = true ∧
        (s.ppc n.val).retry = true ∧ s.fld (Reg.PPW_TALLY n.val) 16 16 < 65535 ∧
        s.clk.slow < (s.ppc n.val).since + 1000 * min 60 (max 1 (s.fld Reg.PPW_CTRL 8 6))) ∧
    (∃ (s : State) (n : Fin 8), (s.ppc n.val).trip = 0) ∧
    (∃ (s : State) (n : Fin 8), s.live = true ∧ (s.ppc n.val).since + s.fld (Reg.PPW_INRUSH n.val) 16 16 ≤ s.clk.slow) ∧
    (∃ (s : State) (n : Fin 8), s.live = true ∧ s.bit (Reg.PPW_CFG n.val) 0 = true ∧ (s.pst n.val = 1 ∨ s.pst n.val = 2)) ∧
    (∃ (s : State) (n : Fin 8), s.live = true ∧ s.bit (Reg.PPW_CFG n.val) 0 = true ∧ 3 ≤ s.pst n.val ∧ s.pst n.val ≤ 7 ∧
        s.fld (Reg.PPW_EVTALLY n.val) 16 16 < 65535) ∧
    (∃ (s : State) (n : Fin 8), s.live = true ∧ s.pst n.val = 3 ∧
        (s.ppc n.val).since + min 1000 (max 1 (s.fld (Reg.PPW_TIM n.val) 16 10)) ≤ s.clk.slow ∧ (s.ppc n.val).idOk = true) ∧
    (∃ (s : State) (n : Fin 8), s.live = true ∧ s.pst n.val = 3 ∧
        (s.ppc n.val).since + min 1000 (max 1 (s.fld (Reg.PPW_TIM n.val) 16 10)) ≤ s.clk.slow ∧ (s.ppc n.val).idOk = false ∧
        s.ppIdmode n.val = 0 ∧ s.bit (Reg.PPW_CFG n.val) 2 = true) ∧
    (∃ (s : State) (n : Fin 8), s.live = true ∧ s.pst n.val = 3 ∧
        (s.ppc n.val).since + min 1000 (max 1 (s.fld (Reg.PPW_TIM n.val) 16 10)) ≤ s.clk.slow ∧ (s.ppc n.val).idOk = false ∧
        s.ppIdmode n.val = 1) ∧
    (∃ (s : State) (n : Fin 8) (value : Word), s.live = true ∧ s.pst n.val = 4 ∧ s.ppIdmode n.val = 1 ∧
        (s.ppc n.val).idCnt = 64 ∧ 64 * s.fld (Reg.PPW_IDIWIN n.val) 0 16 ≤ (s.ppc n.val).idSum ∧
        (s.ppc n.val).idSum ≤ 64 * s.fld (Reg.PPW_IDIWIN n.val) 16 16 ∧ (s.ppc n.val).idFailed = false ∧
        s.bit (Reg.PPW_CFG n.val) 2 = true) ∧
    (∃ (s : State) (n : Fin 8) (value : Word), s.live = true ∧ s.pst n.val = 4 ∧ s.ppIdmode n.val = 1 ∧
        (s.ppc n.val).idCnt = 64 ∧ 64 * s.fld (Reg.PPW_IDIWIN n.val) 16 16 < (s.ppc n.val).idSum ∧
        (s.ppc n.val).idFailed = false ∧ s.use (s.fld (Reg.PPW_IDCFG n.val) 0 8) ≠ .ident n.val) ∧
    (∃ (s : State) (n : Fin 8) (value : Word), s.live = true ∧ s.pst n.val = 4 ∧ s.ppIdmode n.val = 1 ∧
        (s.ppc n.val).idCnt = 64 ∧ 64 * s.fld (Reg.PPW_IDIWIN n.val) 16 16 < (s.ppc n.val).idSum ∧
        (s.ppc n.val).idFailed = true) ∧
    (∃ (s : State) (n : Fin 8), s.live = true ∧ s.pst n.val = 6 ∧
        (s.ppc n.val).since + min 60000 (max 10 (s.fld (Reg.PPW_BACKOFF n.val) 0 16)) ≤ s.clk.slow) ∧
    (∃ (s : State) (n : Fin 8), s.live = true ∧ s.pst n.val ≠ 6) ∧
    (∃ (s : State) (n : Fin 8), s.live = true ∧ (s.ppc n.val).episode = true ∧ (s.ppc n.val).retry = true ∧
        s.ppIsOn n.val = true ∧ s.fld (Reg.PPW_TALLY n.val) 0 16 < 65535 ∧
        (s.ppc n.val).since + 1000 * min 60 (max 1 (s.fld Reg.PPW_CTRL 8 6)) ≤ s.clk.slow) ∧
    (∃ (s : State) (p : Fin 8) (k : Fin 8), s.live = true ∧ s.bit (Reg.TW_CFG p.val) 0 = true ∧
        s.bit (Reg.TW_CFG p.val) 2 = true ∧ s.portPenned p.val = false ∧ s.chanOf p.val = some k.val ∧
        (s.port p.val).cycling = false ∧ s.pst k.val = 5) ∧
    (∃ (s : State) (n : Fin 8), s.live = true ∧ s.pst n.val = 7 ∧ s.ppIsOn n.val = false ∧
        (s.ppc n.val).since + 10 ≤ s.clk.slow ∧
        (∀ p ∈ (s.ppc n.val).cycle, (s.ppc n.val).since + s.fld (Reg.TW_STUCK p) 16 16 ≤ s.clk.slow)) ∧
    (∃ (s : State) (n : Fin 8), s.live = true ∧ s.pst n.val = 7 ∧ s.ppIsOn n.val = true ∧
        (s.ppc n.val).since + min 1000 (max 1 (s.fld (Reg.PPW_TIM n.val) 16 10)) ≤ s.clk.slow) ∧
    (∃ (s : State) (n : Fin 8) (value : Word) (failed : Bool), s.ppIdmode n.val = 1 ∧ (s.ppc n.val).idCnt ≠ 64) ∧
    (∃ (s : State) (src : Requester) (n : Fin 8), s.live = true ∧ s.alwaysOn = true ∧ src ≠ .host) ∧
    (∃ (s : State) (src : Requester) (n : Fin 8), s.live = true ∧ s.alwaysOn = true ∧ src ≠ .host) ∧
    (∃ (s : State) (n : Fin 8), s.live = true ∧ s.ppIsOn n.val = true ∧
        max 1 (s.fld (Reg.PPW_FILT n.val) 8 8) ≤ (s.ppc n.val).trip ∧ s.pst n.val ≠ 8 ∧ (s.ppc n.val).episode = true ∧
        (s.ppc n.val).retry = true ∧ s.fld (Reg.PPW_TALLY n.val) 0 16 < 65535 ∧
        (s.ppc n.val).since + 1000 * min 60 (max 1 (s.fld Reg.PPW_CTRL 8 6)) ≤ s.clk.slow) ∧
    (∃ (s : State) (n : Fin 8) (value : Word), s.live = true ∧ s.pst n.val = 4 ∧ s.ppIdmode n.val = 3 ∧
        s.use (s.fld (Reg.PPW_IDCFG n.val) 0 8) = .ident n.val ∧ (s.ppc n.val).idBad = true ∧ (s.ppc n.val).idFailed = true) ∧
    (∃ (s : State) (n : Fin 8) (value : Word), s.live = true ∧ s.pst n.val = 4 ∧ s.ppIdmode n.val = 2 ∧
        s.use (s.fld (Reg.PPW_IDCFG n.val) 0 8) = .ident n.val ∧ (s.ppc n.val).idBad = false ∧
        (s.ppc n.val).idFailed = false ∧ s.bit (Reg.PPW_CFG n.val) 2 = true ∧ s.fld (Reg.PPW_IDCFG n.val) 24 2 = 3 ∧
        (value ^^^ s.rd (Reg.PPW_IDVAL n.val)) &&& s.rd (Reg.PPW_IDMASK n.val) = 0) ∧
    (∃ (s : State) (n : Fin 8) (failed : Bool) (value : Word), 2 ≤ s.ppIdmode n.val ∧
        s.use (s.fld (Reg.PPW_IDCFG n.val) 0 8) ≠ .ident n.val) :=
  ⟨⟨((fun (n : Fin 8) (s : State) => s.ppAt n.val 0 false {} |>.wr (Reg.PPW_CTRLn n.val) 0) 0 tLive), 0, true,
      by decide +kernel⟩,
   ⟨((fun (n : Fin 8) (s : State) => s.ppAt n.val 5 false {} |>.wr (Reg.PPW_CTRLn n.val) 0) 0 tLive), 0, true,
       by decide +kernel⟩,
   ⟨((fun (n : Fin 8) (s : State) =>
       s.ppAt n.val 0 false {} |>.wr (Reg.PPW_CTRLn n.val) 0 |>.wr (Reg.PPW_CFG n.val) 1) 0 tLive), 0, true,
       by decide +kernel⟩,
   ⟨((fun (n : Fin 8) (s : State) =>
       s.ppAt n.val 0 false {} |>.wr (Reg.PPW_CTRLn n.val) 0 |>.wr (Reg.PPW_CFG n.val) 0x20) 0 tLive), 0, true,
       by decide +kernel⟩,
   ⟨tLive, 0, by decide +kernel⟩,
   ⟨((fun (n : Fin 8) (s : State) => s.ppAt n.val 4 true { above := 3, idCnt := 9 } |>.wr (Reg.PPW_CFG n.val) 0x14) 0 tLive),
       0, 0, by decide +kernel⟩,
   ⟨((fun (n : Fin 8) (s : State) =>
       s.ppAt n.val 3 true { above := 3, inrush := true, since := 200000 } |>.wr (Reg.PPW_INRUSH n.val) 0x00100080) 0 tLive),
       0, 0, by decide +kernel⟩,
   ⟨((fun (n : Fin 8) (s : State) => s.ppAt n.val 5 true { above := 9 }) 0 tLive), 0, by decide +kernel⟩,
   ⟨((fun (n : Fin 8) (s : State) => (s.ppAt n.val 5 true { below := 9 }).setBit (Reg.PPW_STAT n.val) 18 true) 0 tLive), 0,
       by decide +kernel⟩,
   ⟨((fun (n : Fin 8) (s : State) => s.ppAt n.val 5 true { trip := 9 }) 0 tLive), 0, by decide +kernel⟩,
   ⟨((fun (n : Fin 8) (s : State) =>
       s.ppAt n.val 5 true { trip := 9, episode := true, retry := true, since := 100 } |>.setFld (Reg.PPW_STAT n.val) 4 4 2 |>
       fun s => { s with clk := { s.clk with slow := 120 } }) 0 tLive), 0, by decide +kernel⟩,
   ⟨((fun (n : Fin 8) (s : State) => s.ppAt n.val 5 true {}) 0 tLive), 0, by decide +kernel⟩,
   ⟨tLive.ppAt 0 5 true {}, 0, by decide +kernel⟩,
   ⟨((fun (n : Fin 8) (s : State) => s.ppAt n.val 1 false {} |>.wr (Reg.PPW_CFG n.val) 1) 0 tLive), 0, by decide +kernel⟩,
   ⟨((fun (n : Fin 8) (s : State) => s.ppAt n.val 5 true {} |>.wr (Reg.PPW_CFG n.val) 1) 0 tLive), 0, by decide +kernel⟩,
   ⟨((fun (n : Fin 8) (s : State) => s.ppAt n.val 3 true { idOk := true }) 0 tLive), 0, by decide +kernel⟩,
   ⟨((fun (n : Fin 8) (s : State) => s.ppAt n.val 3 true {} |>.wr (Reg.PPW_CFG n.val) 4) 0 tLive), 0, by decide +kernel⟩,
   ⟨((fun (n : Fin 8) (s : State) => s.ppAt n.val 3 true {} |>.wr (Reg.PPW_CFG n.val) 0x10) 0 tLive), 0, by decide +kernel⟩,
   ⟨((fun (n : Fin 8) (s : State) =>
       s.ppAt n.val 4 true { idSum := 12801, idCnt := 64 } |>.wr (Reg.PPW_CFG n.val) 0x14 |>.wr (Reg.PPW_IDIWIN n.val)
       0x012C0064) 0 tLive), 0, 200, by decide +kernel⟩,
   ⟨((fun (n : Fin 8) (s : State) =>
       s.ppAt n.val 4 true { idSum := 25601, idCnt := 64 } |>.wr (Reg.PPW_CFG n.val) 0x14 |>.wr (Reg.PPW_IDIWIN n.val)
       0x012C0064) 0 tLive), 0, 400, by decide +kernel⟩,
   ⟨((fun (n : Fin 8) (s : State) =>
       s.ppAt n.val 4 true { idFailed := true, idSum := 25601, idCnt := 64 } |>.wr (Reg.PPW_CFG n.val) 0x14 |>.wr
       (Reg.PPW_IDIWIN n.val) 0x012C0064) 0 tLive), 0, 400, by decide +kernel⟩,
   ⟨((fun (n : Fin 8) (s : State) => s.ppAt n.val 6 false {}) 0 tLive), 0, by decide +kernel⟩,
   ⟨((fun (n : Fin 8) (s : State) => s.ppAt n.val 5 false {}) 0 tLive), 0, by decide +kernel⟩,
   ⟨((fun (n : Fin 8) (s : State) => s.ppAt n.val 5 true { episode := true, retry := true }) 0 tLive), 0, by decide +kernel⟩,
   ⟨((fun (p : Fin 8) (k : Fin 8) (s : State) =>
       (s.portAt p.val {} |>.wr (Reg.TW_CFG p.val) 5).ppAt k.val 5 true {} |>.wr (Reg.PPW_BIND k.val) (BitVec.ofNat 32 (2 ^
       p.val))) 0 0 tLive), 0, 0, by decide +kernel⟩,
   ⟨((fun (n : Fin 8) (s : State) => s.ppAt n.val 7 false {}) 0 tLive), 0, by decide +kernel⟩,
   ⟨((fun (n : Fin 8) (s : State) => s.ppAt n.val 7 true { cycle := [3] }) 0 tLive), 0, by decide +kernel⟩,
   ⟨((fun (n : Fin 8) (s : State) => s.ppAt n.val 4 true { idCnt := 9 } |>.wr (Reg.PPW_CFG n.val) 0x14) 0 tLive), 0, 0, true,
       by decide +kernel⟩,
   ⟨((fun (n : Fin 8) (s : State) => s.ppAt n.val 4 true { peakWas := 5, sample := 6 }) 0 tLive), .debug, 0,
       by decide +kernel⟩,
   ⟨((fun (n : Fin 8) (s : State) => s.wr (Reg.PPW_IPEAK n.val) 0x77) 0 tLive), .debug, 0, by decide +kernel⟩,
   ⟨((fun (n : Fin 8) (s : State) => s.ppAt n.val 5 true { trip := 9, episode := true, retry := true } |> fun s =>
       { s with clk := { s.clk with slow := 100000 } }) 0 tLive), 0, by decide +kernel⟩,
   ⟨((fun (n : Fin 8) (s : State) =>
       s.ppAt n.val 4 true { idBad := true, idFailed := true } |>.wr (Reg.PPW_CFG n.val) 0x34 |>.wr (Reg.PPW_IDCFG n.val) 0x11
       |>.portAt 0x11 { use := .ident n.val }) 0 tLive), 0, 0, by decide +kernel⟩,
   ⟨((fun (n : Fin 8) (s : State) =>
       s.ppAt n.val 4 true {} |>.wr (Reg.PPW_CFG n.val) 0x24 |>.wr (Reg.PPW_IDCFG n.val) 0x03000003 |>.wr (Reg.PPW_IDVAL
       n.val) 0x12345678 |>.portAt 3 { use := .ident n.val }) 0 tLive), 0, 0x12345678, by decide +kernel⟩,
   ⟨((fun (n : Fin 8) (s : State) =>
       s.ppAt n.val 4 true {} |>.wr (Reg.PPW_CFG n.val) 0x24 |>.wr (Reg.PPW_IDCFG n.val) 0x03000003 |>.portAt 3 {}) 0 tLive),
       0, true, 0, by decide +kernel⟩⟩

theorem witness_StepRunsFrontCommand : ∃ (s : State) (c : Instr) (q : List Instr), s.pending = c :: q :=
  ⟨{ State.reset with pending := [.coreResetHeld 2] }, .coreResetHeld 2, [], rfl⟩

theorem witness_IdleStep :
    (∃ (s : State), s.pending = [] ∧ s.live = true) ∧
    (∃ (s : State), s.pending = [] ∧ s.live = true ∧ (s.clk.tickPhase + 1) % 400 = 0) ∧
    (∃ (s : State), s.pending = [] ∧ s.live = false ∧ s.alwaysOn = true ∧ s.pwr = pwrSTANDBY ∧ s.clk.rootLost = false ∧
        s.clk.lg.collapse = false) ∧
    (∃ (s : State) (k : Nat), s.pending = [] ∧ s.live = false ∧ s.alwaysOn = true ∧ s.clk.pll = .off ∧
        s.clk.trans = .toOff k ∧ s.clk.rootLost = false ∧ s.clk.lg.collapse = false) ∧
    (∃ (s : State), s.pending = [] ∧ s.live = false ∧ s.tbOnCrystal = false) :=
  ⟨⟨((fun (s : State) => { s with pending := [] }) tLive), by decide +kernel⟩,
   ⟨((fun (s : State) => { s with pending := [], clk := { s.clk with tickPhase := 399 } } |>.wr (Reg.TMB_TMR_CTRL 3) 1 |>.wr
       (Reg.TMB_TMR_COUNT 3) 9) tLive), by decide +kernel⟩,
   ⟨((fun (s : State) => ({ s with pending := [], clk := { s.clk with rootLost := false, lg := .idle } }).setFld
       Reg.SYS_PWRSTATE 0 3 pwrSTANDBY) tLive), by decide +kernel⟩,
   ⟨((fun (s : State) => { s with pending := [], clk := { s.clk with rootLost := false, lg := .idle, pll := .off, trans := .toOff 2 } })
       tLive), 2, by decide +kernel⟩,
   ⟨((fun (s : State) => { s with pending := [], clk := { s.clk with phase := .porHold } }) tLive), by decide +kernel⟩⟩

theorem witness_StepKeepsSound : ∃ (s : State) (t : State), s.Sound ∧ step s = .next t :=
  ⟨tLive, tLive.idle, ⟨by decide +kernel, by decide +kernel, by decide +kernel⟩, rfl⟩

theorem witness_TimebaseOnlyCleared :
    (∃ (s : State) (t : State) (c : Instr), (∀ high, c ≠ .powerOnReset high) ∧ c ≠ .deviceReset ∧ exec c s = .next t) ∧
    (∃ (s : State), s.clk.resetReq = true) :=
  ⟨⟨tLive, _, .linkReset, fun _ h => (by cases h), (fun h => by cases h), rfl⟩,
   ⟨{ tLive with clk := { tLive.clk with resetReq := true } }, by decide +kernel⟩⟩

theorem witness_FifosStayBounded : ∃ (s : State) (t : State), (∀ n, (s.cp n).fifo.length ≤ 8) ∧
    (∀ n, (s.ad n).fifo.length ≤ 16) ∧ step s = .next t :=
  ⟨State.reset, State.reset, fun _ => Nat.zero_le _, fun _ => Nat.zero_le _, rfl⟩

theorem witness_MemoryAndRegisterLaws :
    (∃ (s : State) (a : Nat) (b : Nat) (i : Nat) (j : Nat) (v : Bool), i < 32) ∧
    (∃ (s : State) (t : State), s.Sound ∧ t.Sound ∧ (∀ a, s.rdByte a = t.rdByte a)) ∧
    (∃ (s : State) (t : State), s.Sound ∧ t.Sound ∧ (∀ a, s.rd a = t.rd a)) :=
  ⟨⟨tLive, 0, 0, 0, 0, true, by decide +kernel⟩,
   ⟨tLive, tLive, ⟨by decide +kernel, by decide +kernel, by decide +kernel⟩,
    ⟨by decide +kernel, by decide +kernel, by decide +kernel⟩, fun _ => rfl⟩,
   ⟨tLive, tLive, ⟨by decide +kernel, by decide +kernel, by decide +kernel⟩,
    ⟨by decide +kernel, by decide +kernel, by decide +kernel⟩, fun _ => rfl⟩⟩

theorem witness_BootforceRefused : ∃ (s : State) (val : Word), s.sysServed = true ∧
    (s.outcome ≠ boHOLD_UNTESTED ∨ W.fld val 0 16 ≠ 0xF0CE) :=
  ⟨tLive, 0, by decide +kernel⟩

theorem witness_CoreZeroKeepsBooting : ∃ (s : State), s.sysServed = true ∧ s.live = true ∧ s.outcome = boBOOTING :=
  ⟨tLive, by decide +kernel⟩

theorem witness_BusyPowerCommand :
    (∃ (s : State), s.sysServed = true ∧ s.bit Reg.SYS_PWRSTATE 8 = true) ∧
    (∃ (s : State), s.sysServed = true ∧ s.bit Reg.SYS_PWRSTATE 8 = true) ∧
    (∃ (s : State), s.sysServed = true ∧ s.bit Reg.SYS_PWRSTATE 8 = true) ∧
    (∃ (s : State), s.sysServed = true ∧ s.bit Reg.SYS_PWRSTATE 8 = true) :=
  ⟨⟨((fun (s : State) => { s with clk := { s.clk with lg := .idle, phase := .run } }.setBit Reg.SYS_PWRSTATE 8 true) tLive),
      by decide +kernel⟩,
   ⟨((fun (s : State) => { s with clk := { s.clk with lg := .idle, phase := .run } }.setBit Reg.SYS_PWRSTATE 8 true) tLive),
       by decide +kernel⟩,
   ⟨((fun (s : State) => { s with clk := { s.clk with lg := .idle, phase := .run } }.setBit Reg.SYS_PWRSTATE 8 true) tLive),
       by decide +kernel⟩,
   ⟨((fun (s : State) => { s with clk := { s.clk with lg := .idle, phase := .run } }.setBit Reg.SYS_PWRSTATE 8 true) tLive),
       by decide +kernel⟩⟩

theorem witness_DoubleEdge : ∃ (s : State) (d : Fin 4) (onB : Bool) (held : BitVec 4) (back : BitVec 9),
    s.fld (Reg.CAPQD_QCFG d.val) 4 4 ≤ held.toNat ∧ s.runs gCAPQD = true ∧ s.bit (Reg.CAPQD_QCFG d.val) 0 = true :=
  ⟨((fun (d : Fin 4) (held : BitVec 4) (s : State) =>
      (s.setBit (Reg.CAPQD_QCFG d.val) 0 true).setFld (Reg.CAPQD_QCFG d.val) 4 4 held.toNat) 0 0 tLive), 0, true, 0, 0,
      by decide +kernel⟩

theorem witness_ParameterPages :
    (∃ (s : State) (n : Fin 8) (w : Fin 32) (val : Word), s.live = true) ∧
    (∃ (s : State) (n : Fin 8) (w : Fin 32) (val : Word), s.live = true) ∧
    (∃ (s : State) (n : Fin 8) (w : Fin 32), s.live = true) ∧
    (∃ (s : State) (n : Fin 8), s.seAt n.val 0x21 = true ∧ (s.eng n.val).pageT ≠ some s.periStart ∧
        s.bit (Reg.SE_STAT n.val) 22 = true) ∧
    (∃ (s : State) (n : Fin 8), s.seAt n.val 0x21 = true ∧ (s.eng n.val).pageT ≠ some s.periStart ∧
        s.bit (Reg.SE_STAT n.val) 22 = false) ∧
    (∃ (s : State) (n : Fin 8), s.seAt n.val 0x21 = true ∧ (s.eng n.val).pageT = some s.periStart) :=
  ⟨⟨tLive, 0, 0, 0, by decide +kernel⟩,
   ⟨tLive, 0, 0, 0, by decide +kernel⟩,
   ⟨tLive, 0, 0, by decide +kernel⟩,
   ⟨((fun (n : Fin 8) (s : State) =>
       s.seFix n.val 0x84000000 { s.eng n.val with pageT := none, waiting := false, shadow := [(3, 9)] } |>.setBit
       (Reg.SE_STAT n.val) 22 true) 0 tLive), 0, by decide +kernel⟩,
   ⟨((fun (n : Fin 8) (s : State) => s.seFix n.val 0x84000000 { s.eng n.val with pageT := none, waiting := false }) 0 tLive),
       0, by decide +kernel⟩,
   ⟨((fun (n : Fin 8) (s : State) =>
       s.seFix n.val 0x84000000 { s.eng n.val with waiting := false, page := [(3, 9)], pagePend := true } |>.setBit
       (Reg.SE_STAT n.val) 22 true |> (fun s => s.setEng n.val { s.eng n.val with pageT := some s.periStart })) 0 tLive), 0,
       by decide +kernel⟩⟩

theorem witness_CrcUnit :
    (∃ (s : State) (n : Fin 8), s.fld (Reg.SE_CRCCFG n.val) 0 2 ≤ 2) ∧
    (∃ (k : Nat) (c : Nat) (poly : Nat) (b : Bool), k ≤ 2 ∧ c < 2 ^ 2 ^ (k + 2) ∧ poly < 2 ^ 2 ^ (k + 2)) ∧
    (∃ (s : State) (n : Fin 8), s.seAt n.val 0x16 = true ∧ s.fld (Reg.SE_CRCCFG n.val) 0 2 ≤ 2 ∧
        (s.rd (Reg.SE_REG n.val 7)).toNat < 2 ^ s.seCrcW n.val) ∧
    (∃ (s : State) (n : Fin 8), s.seAt n.val 0x15 = true ∧ s.fld (Reg.SE_CRCCFG n.val) 0 2 ≤ 2) :=
  ⟨⟨((fun (n : Fin 8) (s : State) => s.wr (Reg.SE_CRCCFG n.val) 0x10210001) 0 tLive), 0, by decide +kernel⟩,
   ⟨2, 0x8001, 0x1021, true, by decide +kernel⟩,
   ⟨((fun (n : Fin 8) (s : State) => s.seFix n.val 0x5810000B { s.eng n.val with waiting := false }) 0 tLive), 0,
       by decide +kernel⟩,
   ⟨((fun (n : Fin 8) (s : State) => s.seFix n.val 0x54000000 { s.eng n.val with waiting := false }) 0 tLive), 0,
       by decide +kernel⟩⟩

end Sys2Proof.Machine
end

section
/-!
SUPPORT. A sparse table in canonical form is fixed by what it reads as.
-/
namespace Sys2Proof.Machine

variable {α : Type}

/-- Keys rise strictly from `lo` upwards and no entry equals its default: the canonical form of a table's tail. -/
def Tab.CanonFrom (d : Nat → α) (lo : Nat) (t : Tab α) : Prop := keysAbove lo t = true ∧ ∀ e ∈ t, e.2 ≠ d e.1

theorem Tab.wf_iff_canonFrom [DecidableEq α] {d : Nat → α} {t : Tab α} : Tab.wf d t = true ↔ Tab.CanonFrom d 0 t := by
  simp only [Tab.wf, Tab.CanonFrom, Bool.and_eq_true, List.all_eq_true, decide_eq_true_eq]

@[simp] theorem Tab.canonFrom_cons {d : Nat → α} {lo k : Nat} {v : α} {t : Tab α} :
    Tab.CanonFrom d lo ((k, v) :: t) ↔ lo ≤ k ∧ v ≠ d k ∧ Tab.CanonFrom d (k + 1) t := by
  rw [Tab.CanonFrom, Tab.CanonFrom, keysAbove, Bool.and_eq_true, decide_eq_true_eq, List.forall_mem_cons]
  constructor
  · rintro ⟨⟨hlo, hkeys⟩, hv, hvals⟩
    exact ⟨hlo, hv, hkeys, hvals⟩
  · rintro ⟨hlo, hv, hkeys, hvals⟩
    exact ⟨⟨hlo, hkeys⟩, hv, hvals⟩

@[simp] theorem tget_cons_same (e : α) (k : Nat) (v : α) (t : Tab α) : tget e ((k, v) :: t) k = v := if_pos rfl

theorem tget_cons_ne (e : α) {k j : Nat} (v : α) (t : Tab α) (h : k ≠ j) : tget e ((k, v) :: t) j = tget e t j := if_neg h

/-- A key below every listed key reads as its default. -/
theorem Tab.CanonFrom.tget_of_lt {d : Nat → α} {lo j : Nat} {t : Tab α} (h : Tab.CanonFrom d lo t) (hj : j < lo) (e : α) :
    tget e t j = e := by
  induction t generalizing lo with
  | nil => rfl
  | cons p t ih =>
    obtain ⟨k, v⟩ := p
    obtain ⟨hk, -, ht⟩ := Tab.canonFrom_cons.mp h
    rw [tget_cons_ne e v t (by omega), ih ht (by omega)]

/-- The first key of a canonical table is not below every key of a table that reads alike there. -/
theorem Tab.CanonFrom.le_head {d : Nat → α} {lo hi k : Nat} {v : α} {t u : Tab α} (ht : Tab.CanonFrom d lo ((k, v) :: t))
    (hu : Tab.CanonFrom d hi u) (h : tget (d k) ((k, v) :: t) k = tget (d k) u k) : hi ≤ k := by
  obtain ⟨-, hv, -⟩ := Tab.canonFrom_cons.mp ht
  refine Nat.le_of_not_lt fun hlt => hv ?_
  rw [tget_cons_same, hu.tget_of_lt hlt] at h
  exact h

/-- No canonical table with an entry reads as the empty one. -/
theorem Tab.CanonFrom.not_tget_eq_nil {d : Nat → α} {lo k : Nat} {v : α} {t : Tab α} (ht : Tab.CanonFrom d lo ((k, v) :: t)) :
    tget (d k) ((k, v) :: t) k ≠ tget (d k) [] k := by
  rw [tget_cons_same]
  exact (Tab.canonFrom_cons.mp ht).2.1

/-- Two canonical tables that read alike at every key are equal. -/
theorem Tab.CanonFrom.ext {d : Nat → α} {lo hi : Nat} {t u : Tab α} (ht : Tab.CanonFrom d lo t) (hu : Tab.CanonFrom d hi u)
    (h : ∀ k, tget (d k) t k = tget (d k) u k) : t = u := by
  induction t generalizing lo hi u with
  | nil =>
    cases u with
    | nil => rfl
    | cons q u => exact absurd (h q.1).symm hu.not_tget_eq_nil
  | cons p t ih =>
    cases u with
    | nil => exact absurd (h p.1) ht.not_tget_eq_nil
    | cons q u =>
      obtain ⟨k, v⟩ := p
      obtain ⟨k', v'⟩ := q
      obtain ⟨-, hv, ht'⟩ := Tab.canonFrom_cons.mp ht
      obtain ⟨-, hv', hu'⟩ := Tab.canonFrom_cons.mp hu
      have hk : k' ≤ k := ht.le_head (Tab.canonFrom_cons.mpr ⟨Nat.le_refl k', hv', hu'⟩) (h k)
      have hk' : k ≤ k' := hu.le_head (Tab.canonFrom_cons.mpr ⟨Nat.le_refl k, hv, ht'⟩) (h k').symm
      obtain rfl : k = k' := Nat.le_antisymm hk' hk
      obtain rfl : v = v' := by simpa only [tget_cons_same] using h k
      have htl : ∀ j, tget (d j) t j = tget (d j) u j := by
        intro j
        by_cases hj : k = j
        · subst hj
          rw [ht'.tget_of_lt (Nat.lt_succ_self k), hu'.tget_of_lt (Nat.lt_succ_self k)]
        · rw [← tget_cons_ne (d j) v t hj, h j, tget_cons_ne (d j) v u hj]
      rw [ih ht' hu' htl]

theorem Tab.wf_ext [DecidableEq α] {d : Nat → α} {t u : Tab α} (ht : Tab.wf d t = true) (hu : Tab.wf d u = true)
    (h : ∀ k, tget (d k) t k = tget (d k) u k) : t = u :=
  (Tab.wf_iff_canonFrom.mp ht).ext (Tab.wf_iff_canonFrom.mp hu) h

end Sys2Proof.Machine
end

section
/-!
SUPPORT. The laws of memory and of the register file (R4).
-/
namespace Sys2Proof.Machine

theorem State.rdByte_wrByte (s : State) (a b : Nat) (v : Byte) :
    (s.wrByte a v).rdByte b = if b = a then v else s.rdByte b := by
  by_cases h : b = a
  · rw [if_pos h, h, State.rdByte_wrByte_same]
  · rw [if_neg h, State.rdByte_wrByte_ne s v (Ne.symm h)]

/-- The four bytes of a word written, the lowest-addressed holding bits 7:0 (R4). -/
theorem State.rdByte_wrWord (s : State) (a b : Nat) (v : Word) : (s.wrWord a v).rdByte b =
    if b = a then v.setWidth 8 else if b = a + 1 then (v >>> 8).setWidth 8 else if b = a + 2 then (v >>> 16).setWidth 8
    else if b = a + 3 then (v >>> 24).setWidth 8 else s.rdByte b := by
  by_cases hout : b < a ∨ a + 4 ≤ b
  · rw [State.rdByte_wrWord_ne s v hout, if_neg (by omega), if_neg (by omega), if_neg (by omega), if_neg (by omega)]
  · obtain rfl | rfl | rfl | rfl : b = a ∨ b = a + 1 ∨ b = a + 2 ∨ b = a + 3 := by omega
    all_goals simp [State.wrWord, State.rdByte_wrByte]

theorem State.bit_setBit (s : State) (a b j : Nat) {i : Nat} (v : Bool) (hi : i < 32) :
    (s.setBit a i v).bit b j = if b = a ∧ j = i then v else s.bit b j := by
  by_cases hb : b = a
  · subst hb
    by_cases hj : j = i
    · rw [if_pos ⟨rfl, hj⟩, hj, State.bit_setBit_same s v hi]
    · rw [if_neg (fun h => hj h.2), State.bit, State.rd_setBit_same, W.bit_setBit_ne _ v hj, State.bit]
  · rw [if_neg (fun h => hb h.1), State.bit, State.rd_setBit_ne s i v (Ne.symm hb), State.bit]

theorem State.Sound.mem_ext {s t : State} (hs : s.Sound) (ht : t.Sound) (h : ∀ a, s.rdByte a = t.rdByte a) : s.mem = t.mem := by
  obtain ⟨hsMem, -, -⟩ := hs
  obtain ⟨htMem, -, -⟩ := ht
  exact Tab.wf_ext hsMem htMem h

theorem State.Sound.regs_ext {s t : State} (hs : s.Sound) (ht : t.Sound) (h : ∀ a, s.rd a = t.rd a) : s.regs = t.regs := by
  obtain ⟨-, hsRegs, -⟩ := hs
  obtain ⟨-, htRegs, -⟩ := ht
  exact Tab.wf_ext hsRegs htRegs h

/-- Settles O50: the read-after-write laws by the address read, and canonical tables are fixed by what they read as. -/
theorem memoryAndRegisterLaws : Obligations.MemoryAndRegisterLaws := by
  have rd_wr (s : State) (a b : Nat) (v : Word) : (s.wr a v).rd b = if b = a then v else s.rd b := by
    by_cases h : b = a
    · rw [if_pos h, h, State.rd_wr_same]
    · rw [if_neg h, s.rd_wr_ne v (Ne.symm h)]
  exact ⟨State.rdByte_wrByte, State.rdByte_wrWord, State.rdWord_wrWord_same, rd_wr,
    fun s a b _ j v hi => s.bit_setBit a b j v hi, fun _ _ => State.Sound.mem_ext, fun _ _ => State.Sound.regs_ext⟩

end Sys2Proof.Machine
end

section
/-!
SUPPORT. The two saturating tallies of a register (R19).
-/
namespace Sys2Proof.Machine

/-- A field apart from the one set in the same register. -/
theorem State.fld_setFld_ne (s : State) (a : Nat) {lo n lo' n' : Nat} (v : Nat) (h : lo' + n' ≤ lo ∨ lo + n ≤ lo') :
    (s.setFld a lo n v).fld a lo' n' = s.fld a lo' n' := by
  rw [State.fld, State.rd_setFld_same, W.fld_setFld_ne _ v h, State.fld]

/-! ### One more count in the lower tally -/

theorem State.tally_of_full {s : State} {a : Nat} (h : s.fld a 0 16 = 0xFFFF) : s.tally a = s := if_pos h

theorem State.tally_of_not_full {s : State} {a : Nat} (h : s.fld a 0 16 ≠ 0xFFFF) :
    s.tally a = s.setFld a 0 16 (s.fld a 0 16 + 1) := if_neg h

theorem State.fld_high_tally (s : State) (a : Nat) : (s.tally a).fld a 16 16 = s.fld a 16 16 := by
  by_cases h : s.fld a 0 16 = 0xFFFF
  · rw [State.tally_of_full h]
  · rw [State.tally_of_not_full h, s.fld_setFld_ne a _ (.inr (Nat.le_refl 16))]

theorem State.regsBut_tally (s : State) (a : Nat) : RegsBut [a] s (s.tally a) := fun _ hb =>
  s.rd_tally_ne (Ne.symm (List.ne_of_not_mem_cons hb))

/-! ### One more count in the upper tally -/

theorem State.tallyHi_of_full {s : State} {a : Nat} (h : s.fld a 16 16 = 0xFFFF) : s.tallyHi a = s := if_pos h

theorem State.tallyHi_of_not_full {s : State} {a : Nat} (h : s.fld a 16 16 ≠ 0xFFFF) :
    s.tallyHi a = s.setFld a 16 16 (s.fld a 16 16 + 1) := if_neg h

/-- A saturating upper tally counts one (R19). -/
theorem State.fld_tallyHi (s : State) (a : Nat) : (s.tallyHi a).fld a 16 16 = min 0xFFFF (s.fld a 16 16 + 1) := by
  have hlt : s.fld a 16 16 < 2 ^ 16 := W.fld_lt (s.rd a) 16 16
  by_cases h : s.fld a 16 16 = 0xFFFF
  · rw [State.tallyHi_of_full h, h]; rfl
  · rw [State.tallyHi_of_not_full h, s.fld_setFld_same _ (Nat.le_refl 32)]
    omega

theorem State.fld_low_tallyHi (s : State) (a : Nat) : (s.tallyHi a).fld a 0 16 = s.fld a 0 16 := by
  by_cases h : s.fld a 16 16 = 0xFFFF
  · rw [State.tallyHi_of_full h]
  · rw [State.tallyHi_of_not_full h, s.fld_setFld_ne a _ (.inl (Nat.le_refl 16))]

theorem State.regsBut_tallyHi (s : State) (a : Nat) : RegsBut [a] s (s.tallyHi a) := fun _ hb =>
  s.rd_tallyHi_ne (Ne.symm (List.ne_of_not_mem_cons hb))

/-- Settles O52, for each of the two tallies by whether it is full. -/
theorem talliesSaturate : Obligations.TalliesSaturate :=
  ⟨fun s a => ⟨s.fld_tally a, s.fld_high_tally a, s.regsBut_tally a, State.tally_of_full⟩,
   fun s a => ⟨s.fld_tallyHi a, s.fld_low_tallyHi a, s.regsBut_tallyHi a, State.tallyHi_of_full⟩⟩

end Sys2Proof.Machine
end

section
/-!
SUPPORT. What the resets of the link and of the function leave unchanged (R97, R103).
-/
namespace Sys2Proof.Machine

variable {α : Type}

/-- A table read at a key that a filter keeps. -/
theorem tget_tkeep (d : α) {p : Nat → Bool} {k : Nat} (h : p k = true) (t : Tab α) : tget d (tkeep p t) k = tget d t k := by
  induction t with
  | nil => rfl
  | cons e t ih =>
    obtain ⟨j, v⟩ := e
    by_cases hp : p j = true
    · simp only [tkeep, List.filter_cons, hp, if_true, tget] at ih ⊢
      rw [ih]
    · have hjk : j ≠ k := fun e => hp (e ▸ h)
      rw [tget_cons_ne d v t hjk, ← ih]
      simp [tkeep, hp]

/-- Registers dropped above the blocks below ICU. -/
theorem Low.of_tkeep {s x y : State} {p : Nat → Bool} (e : y.regs = tkeep p x.regs) (hp : ∀ a, a < 0x10040000 → p a = true)
    (h : Low s x) : Low s y := fun a ha => by
  rw [State.rd, e, tget_tkeep _ (hp a ha)]
  exact h a ha

/-- Registers dropped from an address above the blocks below ICU up to another. -/
theorem Low.of_tkeep_outside {s x y : State} {lo hi : Nat} (hlo : 0x10040000 ≤ lo)
    (e : y.regs = tkeep (fun a => decide (a < lo) || decide (hi ≤ a)) x.regs) (h : Low s x) : Low s y :=
  Low.of_tkeep e (fun _ ha => by rw [decide_eq_true (Nat.lt_of_lt_of_le ha hlo)]; rfl) h

theorem State.ringsReset_low {s : State} : Low s s.ringsReset := by
  have hrec : Low s { s with
      regs := tkeep (fun a => decide (a < Reg.HIF_REC_BASE_LO 0) || decide (Reg.HIF_REC_BASE_LO 8 ≤ a)) s.regs } :=
    Low.of_tkeep_outside (by decide) rfl (Low.refl s)
  exact Low.of_tkeep_outside (lo := Reg.HIF_CMD_BASE_LO) (hi := Reg.HIF_EV_IDX + 4) (by decide) rfl hrec

theorem State.msiReset_low {s : State} : Low s s.msiReset :=
  Low.of_tkeep_outside (lo := Reg.HIF_MSIX_ADDRLO 0) (hi := Reg.HIF_MSIXPBA + 4) (by decide) rfl (Low.refl s)

theorem Low.repeatN {s x : State} {n : Nat} {f : State → State} (h : Low s x) (hf : ∀ y, Low s y → Low s (f y)) :
    Low s (Machine.repeatN n f x) := by
  induction n generalizing x with
  | zero => exact h
  | succ n ih => exact ih (hf _ h)

theorem State.setPport_low {s : State} {p : Nat} {x : PoolPort} : Low s (s.setPport p x) := by
  unfold State.setPport
  extract_lets pool stored
  have hstored : Low s stored := Low.of_regs rfl (Low.refl s)
  exact Low.ite (Low.setFld (by decide) hstored) hstored

theorem State.poolLinkReset_low {s : State} : Low s s.poolLinkReset := by
  unfold State.poolLinkReset
  extract_lets counted
  have hcounted : Low s counted := Low.repeatN (Low.refl s) fun _ h => Low.tally (by decide) h
  exact Low.after State.setPport_low hcounted

theorem State.stopChecks_low {s : State} : Low s s.stopChecks :=
  Low.forN (Low.refl s) fun _ _ h => Low.after State.stopCheck_low h

theorem State.hostLossSlot_low {s : State} {n : Nat} : Low s (s.hostLossSlot n) := by
  unfold State.hostLossSlot
  extract_lets policy target rate
  refine Low.ite (Low.refl s) (Low.ite (Low.refl s) (Low.ite (Low.ite ?_ ?_) ?_))
  · exact State.setKs_low
  · exact Low.after State.setKs_low (Low.setBit (by decide) (Low.refl s))
  · exact State.setKs_low

theorem State.hostLoss_low {s : State} {src : Nat} : Low s (s.hostLoss src) := by
  unfold State.hostLoss
  extract_lets lost hif policies
  have hlost : Low s lost := Low.setBit (by decide) (Low.refl s)
  have hpolicies : Low s policies :=
    Low.ite hlost (Low.forN (Low.of_regs rfl hlost) fun _ _ h => Low.after State.hostLossSlot_low h)
  exact Low.event (Low.source hpolicies)

/-- The part that a link reset and a function-level reset share (R221, R240). -/
theorem State.ringsMsiPoolReset_low {s : State} : Low s s.muteCmd.ringsReset.msiReset.poolLinkReset.stopChecks := by
  refine Low.after State.stopChecks_low (Low.after State.poolLinkReset_low ?_)
  refine Low.after State.msiReset_low (Low.after State.ringsReset_low ?_)
  exact Low.of_regs rfl (Low.refl s)

theorem State.linkReset_low {s : State} : Low s s.linkReset := by
  unfold State.linkReset
  extract_lets reset keep hif kept
  have hkept : Low s kept := Low.of_tkeep rfl (fun a ha => by simp [keep, show a < 0x10110000 by omega]) State.ringsMsiPoolReset_low
  exact Low.after State.hostLoss_low (Low.tally (by decide) hkept)

theorem State.trainNow_low {s : State} : Low s s.trainNow := Low.of_regs (State.trainNow_keeps.regs (by decide)) (Low.refl s)

theorem State.cfgFlr_low {s : State} : Low s s.cfgFlr := Low.of_regs (State.cfgFlr_keeps.regs (by decide)) (Low.refl s)

theorem State.flr_low {s : State} : Low s s.flr := by
  unfold State.flr
  extract_lets reset shown
  have hreset : Low s reset := Low.after State.cfgFlr_low State.ringsMsiPoolReset_low
  exact Low.after State.hostLoss_low (Low.tally (by decide) (Low.setBit (by decide) hreset))

/-- What R97 and R103 keep: the clocks with the timebase, the power state, and the SYS and SUP registers. -/
def KeepsClocksAndPower (s t : State) : Prop :=
  t.clk = s.clk ∧ t.pwr = s.pwr ∧ t.sup = s.sup ∧ ∀ a, a < 0x10020000 → t.rd a = s.rd a

theorem KeepsClocksAndPower.of_low {F : List Part} {s t : State} (hlow : Low s t) (hkeeps : Keeps F s t)
    (hclk : Part.clk ∉ F) (hsup : Part.sup ∉ F) : KeepsClocksAndPower s t := by
  refine ⟨hkeeps.clk hclk, ?_, hkeeps.sup hsup, fun a ha => hlow a (by omega)⟩
  rw [State.pwr, State.fld, hlow _ (by decide)]
  rfl

/-- A command whose footprint has neither CLK nor SUP and that leaves the low registers. -/
theorem Answers.keepsClocksAndPower {F : List Part} {c : Instr} {s t : State} (h : Answers F s (exec c s)) (e : exec c s = .next t)
    (hlow : Low s t) (hclk : Part.clk ∉ F) (hsup : Part.sup ∉ F) : Runs c s (KeepsClocksAndPower s) := by
  obtain ⟨u, hu, hkeeps⟩ := h
  obtain rfl : t = u := by rw [e] at hu; injection hu
  exact ⟨t, e, KeepsClocksAndPower.of_low hlow hkeeps hclk hsup⟩

theorem execFunctionLevelReset_keepsClocksAndPower (s : State) : Runs .functionLevelReset s (KeepsClocksAndPower s) :=
  execFunctionLevelReset_keeps.keepsClocksAndPower rfl (Low.ite State.flr_low (Low.refl s)) (by decide) (by decide)

theorem execLinkReset_keepsClocksAndPower (s : State) : Runs .linkReset s (KeepsClocksAndPower s) := by
  refine execLinkReset_keeps.keepsClocksAndPower rfl ?_ (by decide) (by decide)
  have hpin : Low s { s with hif := { s.hif with perstLow := true } } := Low.of_regs rfl (Low.refl s)
  exact Low.ite (Low.after State.linkReset_low hpin) hpin

theorem State.linkLost_low {s : State} : Low s (if s.linkServes then s.linkReset.trainNow else s) :=
  Low.ite (Low.after State.trainNow_low State.linkReset_low) (Low.refl s)

/-- Settles O53. -/
theorem functionLevelResetKeeps : Obligations.FunctionLevelResetKeeps :=
  ⟨execFunctionLevelReset_keepsClocksAndPower, execLinkReset_keepsClocksAndPower,
   fun _ => execDataLinkDown_keeps.keepsClocksAndPower rfl State.linkLost_low (by decide) (by decide),
   fun _ => execInBandHotReset_keeps.keepsClocksAndPower rfl State.linkLost_low (by decide) (by decide)⟩

end Sys2Proof.Machine
end

section
/-!
SUPPORT. A power command while a transition is in progress (R86).
-/
namespace Sys2Proof.Machine

/-- What a power command while BUSY leaves: WRONG_STATE in PWRSTATE.RESULT, all else as it was (R86). -/
def RefusedWhileBusy (s t : State) : Prop :=
  t.fld Reg.SYS_PWRSTATE 16 8 = 3 ∧ t.bit Reg.SYS_PWRSTATE 8 = true ∧ t.pwr = s.pwr ∧ RegsBut [Reg.SYS_PWRSTATE] s t ∧
    Keeps [.regs] s t

theorem State.pwrcmd_of_busy {s : State} (hserved : s.sysServed = true) (hbusy : s.bit Reg.SYS_PWRSTATE 8 = true)
    (target : Nat) : s.pwrcmd target = s.setFld Reg.SYS_PWRSTATE 16 8 3 := by
  rw [State.pwrcmd, if_pos hserved, State.powerCmd, if_pos hbusy]

/-- RESULT lies apart from STATE and BUSY in PWRSTATE (Table 2-13). -/
theorem State.refusedWhileBusy_setFld {s : State} (hbusy : s.bit Reg.SYS_PWRSTATE 8 = true) :
    RefusedWhileBusy s (s.setFld Reg.SYS_PWRSTATE 16 8 3) := by
  refine ⟨s.fld_setFld_same 3 (by decide), ?_, s.fld_setFld_ne _ 3 (by decide), ?_, State.setFld_keeps⟩
  · rw [State.bit, State.rd_setFld_same, W.bit_setFld_ne _ 3 (by decide)]
    exact hbusy
  · exact fun a ha => s.rd_setFld_ne 16 8 3 (Ne.symm (List.ne_of_not_mem_cons ha))

theorem State.pwrcmd_refusedWhileBusy {s : State} (hserved : s.sysServed = true) (hbusy : s.bit Reg.SYS_PWRSTATE 8 = true)
    (target : Nat) : RefusedWhileBusy s (s.pwrcmd target) := by
  rw [State.pwrcmd_of_busy hserved hbusy]
  exact State.refusedWhileBusy_setFld hbusy

/-- Settles O57: each of the four power commands is `State.pwrcmd` with its target. -/
theorem busyPowerCommand : Obligations.BusyPowerCommand :=
  ⟨fun _ hserved hbusy => ⟨_, rfl, State.pwrcmd_refusedWhileBusy hserved hbusy pwrRUN⟩,
   fun _ hserved hbusy => ⟨_, rfl, State.pwrcmd_refusedWhileBusy hserved hbusy pwrTRIM⟩,
   fun _ hserved hbusy => ⟨_, rfl, State.pwrcmd_refusedWhileBusy hserved hbusy pwrSTANDBY⟩,
   fun _ hserved hbusy => ⟨_, rfl, State.pwrcmd_refusedWhileBusy hserved hbusy pwrOFF⟩⟩

end Sys2Proof.Machine
end

section
/-!
SUPPORT. The clock state behind an operation that does not touch it, as a simp set: one equation for each such operation that an
operation on the clocks, a bus access or a core's operation is made of.
-/
namespace Sys2Proof.Machine

/-- The state in which a piece of an operation ends, with or without an exception. -/
def Res.state {α : Type} : Res α → State
  | .ok _ t => t
  | .exc _ t => t

@[simp] theorem Res.state_ok {α : Type} {a : α} {t : State} : (Res.ok a t).state = t := rfl

@[simp] theorem Res.state_exc {α : Type} {e : Exc} {t : State} : (Res.exc e t : Res α).state = t := rfl

theorem PairKeeps.clk {α : Type} {F : List Part} {s : State} {p : α × State} (h : PairKeeps F s p) (hF : Part.clk ∉ F) :
    p.2.clk = s.clk := Keeps.clk h hF

theorem ResKeeps.clk_state {α : Type} {F : List Part} {s : State} {r : Res α} (h : ResKeeps F s r) (hF : Part.clk ∉ F) :
    r.state.clk = s.clk := by
  cases r <;> exact Keeps.clk h hF

namespace State

variable {s : State}

@[simp] theorem clk_wr {a v} : (s.wr a v).clk = s.clk := wr_keeps.clk (by decide)
@[simp] theorem clk_setFld {a lo n v} : (s.setFld a lo n v).clk = s.clk := setFld_keeps.clk (by decide)
@[simp] theorem clk_tally {a} : (s.tally a).clk = s.clk := tally_keeps.clk (by decide)
@[simp] theorem clk_setBit {a i b} : (s.setBit a i b).clk = s.clk := setBit_keeps.clk (by decide)
@[simp] theorem clk_emit {o} : (s.emit o).clk = s.clk := emit_keeps.clk (by decide)
@[simp] theorem clk_event {code src data} : (s.event code src data).clk = s.clk := event_keeps.clk (by decide)
@[simp] theorem clk_tlpError {t} : (s.tlpError t).clk = s.clk := tlpError_keeps.clk (by decide)
@[simp] theorem clk_ur : s.ur.clk = s.clk := ur_keeps.clk (by decide)
@[simp] theorem clk_wrBytes {a bs} : (s.wrBytes a bs).clk = s.clk := wrBytes_keeps.clk (by decide)
@[simp] theorem clk_setProofMask {m} : (s.setProofMask m).clk = s.clk := setProofMask_keeps.clk (by decide)
@[simp] theorem clk_wrWords {a ws} : (s.wrWords a ws).clk = s.clk := wrWords_keeps.clk (by decide)
@[simp] theorem clk_zeroRange {lo hi} : (s.zeroRange lo hi).clk = s.clk := zeroRange_keeps.clk (by decide)
@[simp] theorem clk_urWrite : s.urWrite.clk = s.clk := urWrite_keeps.clk (by decide)
@[simp] theorem clk_eccCorrected {src tallyA} : (s.eccCorrected src tallyA).clk = s.clk := eccCorrected_keeps.clk (by decide)
@[simp] theorem clk_setCore {n c} : (s.setCore n c).clk = s.clk := setCore_keeps.clk (by decide)
@[simp] theorem clk_setLine {n l x} : (s.setLine n l x).clk = s.clk := setLine_keeps.clk (by decide)
@[simp] theorem clk_doAtm {op a x cmp} : (s.doAtm op a x cmp).2.clk = s.clk := doAtm_keeps.clk (by decide)
@[simp] theorem clk_atHome {p l} : (s.atHome p l).clk = s.clk := atHome_keeps.clk (by decide)
@[simp] theorem clk_coRd {p a} : (s.coRd p a).2.clk = s.clk := coRd_keeps.clk (by decide)
@[simp] theorem clk_coWr {p a v be} : (s.coWr p a v be).2.clk = s.clk := coWr_keeps.clk (by decide)
@[simp] theorem clk_mramCheck {a} : (s.mramCheck a).2.clk = s.clk := mramCheck_keeps.clk (by decide)
@[simp] theorem clk_mramWrite {a v be} : (s.mramWrite a v be).2.clk = s.clk := mramWrite_keeps.clk (by decide)
@[simp] theorem clk_holdLine {n l} : (s.holdLine n l).clk = s.clk := holdLine_keeps.clk (by decide)
@[simp] theorem clk_backLine {n l after} : (s.backLine n l after).clk = s.clk := backLine_keeps.clk (by decide)
@[simp] theorem clk_enterFifo {p w} : (s.enterFifo p w).clk = s.clk := enterFifo_keeps.clk (by decide)
@[simp] theorem clk_popRequest {p q} : (s.popRequest p q).clk = s.clk := popRequest_keeps.clk (by decide)
@[simp] theorem clk_hstatRead : s.hstatRead.2.clk = s.clk := hstatRead_keeps.clk (by decide)
@[simp] theorem clk_rawViewWrite {a v be} : (s.rawViewWrite a v be).2.clk = s.clk := rawViewWrite_keeps.clk (by decide)
@[simp] theorem clk_poolCoreReset {n} : (s.poolCoreReset n).clk = s.clk := poolCoreReset_keeps.clk (by decide)
@[simp] theorem clk_pwmSafeAll : s.pwmSafeAll.clk = s.clk := pwmSafeAll_keeps.clk (by decide)
@[simp] theorem clk_pwmHoldAll : s.pwmHoldAll.clk = s.clk := pwmHoldAll_keeps.clk (by decide)
@[simp] theorem clk_cmpBypass : s.cmpBypass.clk = s.clk := cmpBypass_keeps.clk (by decide)
@[simp] theorem clk_finish {status r0 r1} : (s.finish status r0 r1).clk = s.clk := finish_keeps.clk (by decide)
@[simp] theorem clk_recIdx {k same} : (s.recIdx k same).2.clk = s.clk := recIdx_keeps.clk (by decide)
@[simp] theorem clk_ackResume : s.ackResume.clk = s.clk := ackResume_keeps.clk (by decide)
@[simp] theorem clk_slotsProtect {data} : (s.slotsProtect data).clk = s.clk := slotsProtect_keeps.clk (by decide)
@[simp] theorem clk_adcFifoGet {n same} : (s.adcFifoGet n same).2.clk = s.clk := adcFifoGet_keeps.clk (by decide)
@[simp] theorem clk_capRead {n same} : (s.capRead n same).2.clk = s.clk := capRead_keeps.clk (by decide)
@[simp] theorem clk_qdLost : s.qdLost.clk = s.clk := qdLost_keeps.clk (by decide)
@[simp] theorem clk_seLeave {n st} : (s.seLeave n st).clk = s.clk := seLeave_keeps.clk (by decide)
@[simp] theorem clk_mbmRootLost : s.mbmRootLost.clk = s.clk := mbmRootLost_keeps.clk (by decide)
@[simp] theorem clk_mbmReturn : s.mbmReturn.clk = s.clk := mbmReturn_keeps.clk (by decide)
@[simp] theorem clk_coreStart {n} : (s.coreStart n).clk = s.clk := coreStart_keeps.clk (by decide)
@[simp] theorem clk_icuReset {n} : (s.icuReset n).clk = s.clk := icuReset_keeps.clk (by decide)
@[simp] theorem clk_bootgo {val} : (s.bootgo val).clk = s.clk := bootgo_keeps.clk (by decide)
@[simp] theorem clk_bootforce {val} : (s.bootforce val).clk = s.clk := bootforce_keeps.clk (by decide)
@[simp] theorem clk_dsRxdata {d same} : (s.dsRxdata d same).2.clk = s.clk := dsRxdata_keeps.clk (by decide)
@[simp] theorem clk_dsRxlen {d same} : (s.dsRxlen d same).2.clk = s.clk := dsRxlen_keeps.clk (by decide)
@[simp] theorem clk_flashFrame {f size} : (s.flashFrame f size).clk = s.clk := flashFrame_keeps.clk (by decide)
@[simp] theorem clk_disableRails {rs} : (s.disableRails rs).clk = s.clk := disableRails_keeps.clk (by decide)
@[simp] theorem clk_supEvent {code src data} : (s.supEvent code src data).clk = s.clk := supEvent_keeps.clk (by decide)
@[simp] theorem clk_faultn : s.faultn.clk = s.clk := faultn_keeps.clk (by decide)
@[simp] theorem clk_seqUp : s.seqUp.clk = s.clk := seqUp_keeps.clk (by decide)
@[simp] theorem clk_setPwr {st cause} : (s.setPwr st cause).clk = s.clk := setPwr_keeps.clk (by decide)
@[simp] theorem clk_startTraining : s.startTraining.clk = s.clk := startTraining_keeps.clk (by decide)
@[simp] theorem clk_railTimedOut {bit0 kind r} : (s.railTimedOut bit0 kind r).clk = s.clk :=
    railTimedOut_keeps.clk (by decide)
@[simp] theorem clk_cmdFault : s.cmdFault.clk = s.clk := cmdFault_keeps.clk (by decide)
@[simp] theorem clk_clockEvent {src} : (s.clockEvent src).clk = s.clk := clockEvent_keeps.clk (by decide)
@[simp] theorem clk_lgseqCheck : s.lgseqCheck.clk = s.clk := lgseqCheck_keeps.clk (by decide)
@[simp] theorem clk_outboundWrite {y bytes} : (s.outboundWrite y bytes).2.clk = s.clk := outboundWrite_keeps.clk (by decide)
@[simp] theorem clk_haltSafe {n} : (s.haltSafe n).clk = s.clk := haltSafe_keeps.clk (by decide)
@[simp] theorem clk_corerst {val} : (s.corerst val).clk = s.clk := corerst_keeps.clk (by decide)
@[simp] theorem clk_dmaInvCheck : s.dmaInvCheck.clk = s.clk := dmaInvCheck_keeps.clk (by decide)
@[simp] theorem clk_setCh {c x} : (s.setCh c x).clk = s.clk := setCh_keeps.clk (by decide)
@[simp] theorem clk_dmaInvNow {c} : (s.dmaInvNow c).clk = s.clk := dmaInvNow_keeps.clk (by decide)
@[simp] theorem clk_dmaTake {c x src dst count} : (s.dmaTake c x src dst count).clk = s.clk := dmaTake_keeps.clk (by decide)
@[simp] theorem clk_dmaStopOn {c f wrSide desc} : (s.dmaStopOn c f wrSide desc).clk = s.clk :=
    dmaStopOn_keeps.clk (by decide)
@[simp] theorem clk_ipeak {n same} : (s.ipeak n same).2.clk = s.clk := ipeak_keeps.clk (by decide)
@[simp] theorem clk_kleRead {a} : (s.kleRead a).2.clk = s.clk := kleRead_keeps.clk (by decide)
@[simp] theorem clk_ctxRead {a} : (s.ctxRead a).2.clk = s.clk := ctxRead_keeps.clk (by decide)
@[simp] theorem clk_hpopRead {q} : (s.hpopRead q).2.clk = s.clk := hpopRead_keeps.clk (by decide)
@[simp] theorem clk_kleWrite {a v be} : (s.kleWrite a v be).2.clk = s.clk := kleWrite_keeps.clk (by decide)
@[simp] theorem clk_plainWrite {coin r a v} : (s.plainWrite coin r a v).clk = s.clk := plainWrite_keeps.clk (by decide)
@[simp] theorem clk_begun {c} : (s.begun c).clk = s.clk := begun_keeps.clk (by decide)
@[simp] theorem clk_refuse {status} : (s.refuse status).clk = s.clk := refuse_keeps.clk (by decide)
@[simp] theorem clk_pwrResult {status} : (s.pwrResult status).clk = s.clk := pwrResult_keeps.clk (by decide)
@[simp] theorem clk_pwrRefuse {status} : (s.pwrRefuse status).clk = s.clk := pwrRefuse_keeps.clk (by decide)
@[simp] theorem clk_memZero {mask} : (s.memZero mask).clk = s.clk := memZero_keeps.clk (by decide)
@[simp] theorem clk_storeFailed {n e} : (s.storeFailed n e).clk = s.clk := storeFailed_keeps.clk (by decide)
@[simp] theorem clk_lineStore {n e} : (s.lineStore n e).2.clk = s.clk := lineStore_keeps.clk (by decide)
@[simp] theorem clk_age {n k} : (s.age n k).clk = s.clk := age_keeps.clk (by decide)
@[simp] theorem clk_spillE {n k} : (s.spillE n k).state.clk = s.clk := spillE_keeps.clk_state (by decide)
@[simp] theorem clk_xlate {n va k} : (s.xlate n va k).state.clk = s.clk := xlate_keeps.clk_state (by decide)
@[simp] theorem clk_await {n pending} : (s.await n pending).clk = s.clk := await_keeps.clk (by decide)
@[simp] theorem clk_outsideAnswer {pa} : (s.outsideAnswer pa).2.clk = s.clk := outsideAnswer_keeps.clk (by decide)
@[simp] theorem clk_watch {n va isWrite} : (s.watch n va isWrite).clk = s.clk := watch_keeps.clk (by decide)
@[simp] theorem clk_cacheClean {n} : (s.cacheClean n).clk = s.clk := cacheClean_keeps.clk (by decide)
@[simp] theorem clk_doubleFault {n} : (s.doubleFault n).clk = s.clk := doubleFault_keeps.clk (by decide)
@[simp] theorem clk_setCause {n cause} : (s.setCause n cause).clk = s.clk := setCause_keeps.clk (by decide)
@[simp] theorem clk_setFa {n va} : (s.setFa n va).clk = s.clk := setFa_keeps.clk (by decide)
@[simp] theorem clk_vectorTo {n v} : (s.vectorTo n v).clk = s.clk := vectorTo_keeps.clk (by decide)
@[simp] theorem clk_chainFetch {n} : (s.chainFetch n).clk = s.clk := chainFetch_keeps.clk (by decide)
@[simp] theorem clk_clLate {n i late} : (s.clLate n i late).clk = s.clk := clLate_keeps.clk (by decide)
@[simp] theorem clk_showActive {n pri} : (s.showActive n pri).clk = s.clk := showActive_keeps.clk (by decide)
@[simp] theorem clk_unpend {n i} : (s.unpend n i).clk = s.clk := unpend_keeps.clk (by decide)
@[simp] theorem clk_fetchCheck {n} : (s.fetchCheck n).state.clk = s.clk := fetchCheck_keeps.clk_state (by decide)
@[simp] theorem clk_undo {n pre} : (s.undo n pre).clk = s.clk := undo_keeps.clk (by decide)
@[simp] theorem clk_pushM {n xs ms} : (s.pushM n xs ms).clk = s.clk := pushM_keeps.clk (by decide)
@[simp] theorem clk_pushD {n xs} : (s.pushD n xs).clk = s.clk := pushD_keeps.clk (by decide)
@[simp] theorem clk_pushLate {n xs} : (s.pushLate n xs).clk = s.clk := pushLate_keeps.clk (by decide)
@[simp] theorem clk_dmaXlate {c a k} : (s.dmaXlate c a k).2.clk = s.clk := dmaXlate_keeps.clk (by decide)
@[simp] theorem clk_dmaSpend {c pa size} : (s.dmaSpend c pa size).clk = s.clk := dmaSpend_keeps.clk (by decide)
@[simp] theorem clk_transient {yes} : (s.transient yes).clk = s.clk := transient_keeps.clk (by decide)
@[simp] theorem clk_dmaElementDone {c} : (s.dmaElementDone c).clk = s.clk := dmaElementDone_keeps.clk (by decide)
@[simp] theorem clk_taken {n off} : (s.taken n off).state.clk = s.clk := taken_keeps.clk_state (by decide)
@[simp] theorem clk_cacheXl {n va} : (s.cacheXl n va).state.clk = s.clk := cacheXl_keeps.clk_state (by decide)
@[simp] theorem clk_pushFull {n} : (s.pushFull n).2.clk = s.clk := pushFull_keeps.clk (by decide)

end State

end Sys2Proof.Machine
end

section
/-!
SUPPORT. The operations of chapters 2 and 3 on the clocks leave the timebase as it is (R47).
-/
namespace Sys2Proof.Machine

/-- A command's answer, if it is a next state, has the timebase of `s`. -/
def KeepsTb (s : State) (o : Host.Outcome State Fault Refusal) : Prop := ∀ t, o = .next t → t.clk.tb = s.clk.tb

@[simp] theorem keepsTb_next {s t : State} : KeepsTb s (.next t) ↔ t.clk.tb = s.clk.tb :=
  ⟨fun h => h t rfl, fun h _ e => by cases e; exact h⟩

theorem KeepsTb.ite {s : State} {c : Prop} [Decidable c] {a b : Host.Outcome State Fault Refusal} (ha : KeepsTb s a)
    (hb : KeepsTb s b) : KeepsTb s (if c then a else b) := by
  split <;> assumption

theorem Answers.keepsTb {F : List Part} {s : State} {o : Host.Outcome State Fault Refusal} (h : Answers F s o)
    (hF : Part.clk ∉ F) : KeepsTb s o := by
  obtain ⟨t, rfl, hk⟩ := h
  exact keepsTb_next.mpr (congrArg Clk.tb (hk.clk hF))

namespace State

variable {s : State}

@[simp] theorem tb_ite {c : Prop} [Decidable c] {a b : State} :
    (if c then a else b).clk.tb = if c then a.clk.tb else b.clk.tb := apply_ite (fun s : State => s.clk.tb) c a b

@[simp] theorem tb_snd_ite {α : Type} {c : Prop} [Decidable c] {p q : α × State} :
    (if c then p else q).2.clk.tb = if c then p.2.clk.tb else q.2.clk.tb := apply_ite (fun p : α × State => p.2.clk.tb) c p q

@[simp] theorem tb_state_ite {α : Type} {c : Prop} [Decidable c] {p q : Res α} :
    (if c then p else q).state.clk.tb = if c then p.state.clk.tb else q.state.clk.tb :=
  apply_ite (fun p : Res α => p.state.clk.tb) c p q

@[simp] theorem tb_forN {n : Nat} {f : Nat → State → State} (h : ∀ i t, (f i t).clk.tb = t.clk.tb) :
    (forN n f s).clk.tb = s.clk.tb := by
  induction n with
  | zero => rfl
  | succ n ih => exact (h _ _).trans ih

@[simp] theorem tb_foldl {α : Type} {l : List α} {f : State → α → State} (h : ∀ t i, (f t i).clk.tb = t.clk.tb) :
    (l.foldl f s).clk.tb = s.clk.tb := by
  induction l generalizing s with
  | nil => rfl
  | cons i l ih => exact ih.trans (h _ _)

/-! ### The clocks stop and run -/

@[simp] theorem tb_rootStops {lost} : (s.rootStops lost).clk.tb = s.clk.tb := by simp [rootStops]

@[simp] theorem tb_rootResumes : s.rootResumes.clk.tb = s.clk.tb := by simp [rootResumes]

@[simp] theorem tb_crystalStops : s.crystalStops.clk.tb = s.clk.tb := by simp [crystalStops]

/-! ### Power states -/

@[simp] theorem tb_endTrans {result} : (s.endTrans result).clk.tb = s.clk.tb := by simp [endTrans]

@[simp] theorem tb_enterStandby {cause lost} : (s.enterStandby cause lost).clk.tb = s.clk.tb := by simp [enterStandby]

@[simp] theorem tb_evalGates : s.evalGates.clk.tb = s.clk.tb := by simp [evalGates]

@[simp] theorem tb_clkgate {v} : (s.clkgate v).clk.tb = s.clk.tb := by simp [clkgate]

@[simp] theorem tb_endShutdown : s.endShutdown.clk.tb = s.clk.tb := by
  simp only [endShutdown]
  split <;> simp

@[simp] theorem tb_shutdownStep {left} : (s.shutdownStep left).clk.tb = s.clk.tb := by
  unfold shutdownStep
  split <;> simp

@[simp] theorem tb_startShutdown : s.startShutdown.clk.tb = s.clk.tb := by
  unfold startShutdown
  split <;> simp

@[simp] theorem tb_seqDown : s.seqDown.clk.tb = s.clk.tb := by simp [seqDown]

@[simp] theorem tb_protectStandby {cause lost} : (s.protectStandby cause lost).clk.tb = s.clk.tb := by
  unfold protectStandby
  split <;> simp

@[simp] theorem tb_faultAction {act cause} : (s.faultAction act cause).clk.tb = s.clk.tb := by simp [faultAction]

@[simp] theorem tb_railReport {r c} : (s.railReport r c).clk.tb = s.clk.tb := by
  unfold railReport
  split <;> simp

@[simp] theorem tb_powerCmd {target} : (s.powerCmd target).2.clk.tb = s.clk.tb := by
  simp [powerCmd]

@[simp] theorem tb_pwrcmd {target} : (s.pwrcmd target).clk.tb = s.clk.tb := by simp [pwrcmd]

/-! ### Resets that are asked for -/

@[simp] theorem tb_requestReset {b} : (s.requestReset b).clk.tb = s.clk.tb := by simp [requestReset]

@[simp] theorem tb_rstcmd {src v} : (s.rstcmd src v).clk.tb = s.clk.tb := by simp [rstcmd]

end State

/-! ### The commands of chapters 2 and 3 -/

variable {s : State}

theorem keepsTb_seqcmdDown : KeepsTb s (execSeqcmdDown s) := by simp [execSeqcmdDown]

theorem keepsTb_pgTmo {rail} : KeepsTb s (execPgTmo rail s) := by
  unfold execPgTmo
  split
  · exact KeepsTb.ite (by simp) (by simp)
  · simp

theorem keepsTb_shutdownPositionAdvance : KeepsTb s (execShutdownPositionAdvance s) := by
  unfold execShutdownPositionAdvance
  split
  · exact KeepsTb.ite (by simp) (by simp)
  · simp

theorem keepsTb_stepTmo {rail} : KeepsTb s (execStepTmo rail s) := by
  unfold execStepTmo
  split
  · exact KeepsTb.ite (by simp) (by simp)
  · simp

theorem keepsTb_extFault : KeepsTb s (execExtFault s) := KeepsTb.ite (by simp) (by simp)

theorem keepsTb_railConditionReport {rail cond} : KeepsTb s (execRailConditionReport rail cond s) :=
  KeepsTb.ite (by simp) (KeepsTb.ite (by simp) (KeepsTb.ite (by simp) (by simp)))

theorem keepsTb_crystalEdgesSeen : KeepsTb s (execCrystalEdgesSeen s) := KeepsTb.ite (by simp) (by simp)

theorem keepsTb_pllLock : KeepsTb s (execPllLock s) := by
  unfold execPllLock
  split
  · extract_lets clk locked shown trained resumed
    have htrained : trained.clk.tb = s.clk.tb := by simp [trained, shown, locked, clk]
    refine KeepsTb.ite (by simp) ?_
    split
    · simp [resumed, htrained]
    · simp [htrained]
  · simp
  · simp

theorem keepsTb_pllLockTimeout : KeepsTb s (execPllLockTimeout s) := by
  unfold execPllLockTimeout
  split
  · exact KeepsTb.ite (by simp) (KeepsTb.ite (by simp) (by simp))
  · simp

theorem keepsTb_rootLoss : KeepsTb s (execRootLoss s) := KeepsTb.ite (by simp) (KeepsTb.ite (by simp) (by simp))

theorem keepsTb_rootReturn : KeepsTb s (execRootReturn s) := KeepsTb.ite (by simp) (by simp)

theorem keepsTb_guardLoss : KeepsTb s (execGuardLoss s) := KeepsTb.ite (by simp) (by simp)

theorem keepsTb_collapse {byVdd33 byVin} : KeepsTb s (execCollapse byVdd33 byVin s) := KeepsTb.ite (by simp) (by simp)

theorem keepsTb_lastGaspWrite : KeepsTb s (execLastGaspWrite s) := by
  refine KeepsTb.ite (by simp) ?_
  split
  · exact KeepsTb.ite (by simp) (by simp)
  · simp

theorem keepsTb_pwrcmd {target} : KeepsTb s (done (s.pwrcmd target)) := by simp

theorem keepsTb_clkgateWrite {v} : KeepsTb s (execClkgateWrite v s) := by simp [execClkgateWrite]

theorem keepsTb_vddioDReleaseTimer : KeepsTb s (execVddioDReleaseTimer s) := KeepsTb.ite (by simp) (by simp)

theorem keepsTb_pinReset {ns vdd33Ok amid} : KeepsTb s (execPinReset ns vdd33Ok amid s) := by
  refine KeepsTb.ite (by simp) ?_
  split
  · exact KeepsTb.ite (by simp) (by simp)
  · simp

theorem keepsTb_rstcmdDevice {src v} : KeepsTb s (execRstcmdDevice src v s) := by simp [execRstcmdDevice]

theorem keepsTb_resetRelease {bootsel vddioD33} : KeepsTb s (execResetRelease bootsel vddioD33 s) := by
  unfold execResetRelease
  split
  · exact KeepsTb.ite (by simp) (by simp)
  · simp
  · simp

theorem keepsTb_memoryInitDone : KeepsTb s (execMemoryInitDone s) := by
  refine KeepsTb.ite ?_ (by simp)
  dsimp only
  split <;> simp

end Sys2Proof.Machine
end

section
/-!
SUPPORT. Register accesses and bus accesses leave the timebase as it is (R47): it is written by no register write, and a read of
TBLO changes the latches of its high half only (R44).
-/
namespace Sys2Proof.Machine

theorem OptKeeps.tb {F : List Part} {s t : State} {o : Option State} (h : OptKeeps F s o) (hF : Part.clk ∉ F)
    (e : o = .some t) : t.clk.tb = s.clk.tb := congrArg Clk.tb ((h t e).clk hF)

/-- The states have one timebase. A structure, and not an equation, because Lean's kernel runs the reads and writes of registers
when it compares the projections of states that they give. -/
structure SameTb (s t : State) : Prop where
  tb : t.clk.tb = s.clk.tb

/-- The state beside a value has the timebase of `s`. -/
structure PairTb {α : Type} (s : State) (p : α × State) : Prop where
  tb : p.2.clk.tb = s.clk.tb

/-- The state that is answered beside a value, if any, has the timebase of `s`. -/
def OptTb {α : Type} (s : State) (o : Option (α × State)) : Prop := ∀ p, o = some p → PairTb s p

section

variable {α β : Type} {s t : State}

theorem pairTb_ite {c : Prop} [Decidable c] {p q : α × State} (hp : PairTb s p) (hq : PairTb s q) :
    PairTb s (if c then p else q) := by
  split <;> assumption

theorem sameTb_refl : SameTb s s := ⟨rfl⟩

theorem sameTb_ite {c : Prop} [Decidable c] {t u : State} (ht : SameTb s t) (hu : SameTb s u) :
    SameTb s (if c then t else u) := by
  split <;> assumption

theorem optTb_none : OptTb s (none : Option (α × State)) := fun _ e => nomatch e

theorem optTb_some {p : α × State} (h : PairTb s p) : OptTb s (some p) := fun _ e => Option.some.inj e ▸ h

theorem optTb_map {o : Option β} {f : β → α × State} (h : ∀ b, PairTb s (f b)) : OptTb s (o.map f) := by
  cases o with
  | none => exact optTb_none
  | some b => exact optTb_some (h b)

theorem optTb_ite {c : Prop} [Decidable c] {o p : Option (α × State)} (ho : OptTb s o) (hp : OptTb s p) :
    OptTb s (if c then o else p) := by
  split <;> assumption

theorem optTb_orElse {o p : Option (α × State)} (ho : OptTb s o) (hp : OptTb s p) : OptTb s (o <|> p) := by
  cases o
  · exact hp
  · exact ho

end

namespace State

variable {s t : State}

/-! ### Reads -/

@[simp] theorem tb_tblo {src} : (s.tblo src).2.clk.tb = s.clk.tb := rfl

theorem optTb_hookRead {src blk o} : OptTb s (s.hookRead src blk o) := by
  unfold hookRead
  split
  · exact optTb_map fun _ => ⟨by simp⟩
  · exact optTb_ite (optTb_some ⟨tb_tblo⟩) (optTb_ite (optTb_some ⟨rfl⟩) optTb_none)
  · exact optTb_ite (optTb_some ⟨by simp⟩) (optTb_map fun _ => ⟨by simp⟩)
  · exact optTb_map fun _ => ⟨by simp⟩
  · exact optTb_map fun _ => ⟨by simp⟩
  · refine optTb_orElse (optTb_map fun _ => ?_) (optTb_map fun _ => ⟨rfl⟩)
    exact pairTb_ite ⟨by simp⟩ ⟨rfl⟩
  · exact optTb_map fun _ => ⟨rfl⟩
  · exact optTb_orElse (optTb_map fun _ => ⟨rfl⟩)
      (optTb_orElse (optTb_map fun _ => ⟨by simp⟩) (optTb_map fun _ => ⟨by simp⟩))
  · exact optTb_map fun _ => ⟨rfl⟩
  · exact optTb_ite (optTb_some ⟨rfl⟩) (optTb_map fun _ => ⟨by simp⟩)
  · exact optTb_map fun _ => ⟨rfl⟩
  · exact optTb_none

@[simp] theorem tb_regRead {src a} : (s.regRead src a).2.clk.tb = s.clk.tb := by
  unfold regRead
  split
  · rfl
  · split
    next h => exact (optTb_hookRead _ h).tb
    next => rfl

/-- The state behind the read of a register word. It is stated of a pair that the read gives: the kernel would run the read to
compare the pair with its parts. -/
theorem wordRead_regs {src a p} (h : s.regRead src a = p) : (s.wordRead src .regs a).2 = p.2 := by
  rw [wordRead, h]

@[simp] theorem tb_wordRead {src r a} : (s.wordRead src r a).2.clk.tb = s.clk.tb := by
  cases r with
  | regs => rw [wordRead_regs (Eq.refl (s.regRead src a)), tb_regRead]
  | _ => simp [wordRead]

@[simp] theorem tb_wordsRead {src r a k} : (s.wordsRead src r a k).2.clk.tb = s.clk.tb := by
  induction k generalizing s a with
  | zero => rfl
  | succ k ih =>
    simp only [wordsRead]
    split
    · split <;> simp [ih]
    · simp

@[simp] theorem tb_busRead {src a size dev} : (s.busRead src a size dev).2.clk.tb = s.clk.tb := by
  unfold busRead
  dsimp only
  cases regionOf a with
  | none => rfl
  | some r => cases r <;> dsimp only <;> split <;> simp

/-! ### Writes -/

theorem tb_hookSys {src o v} (h : s.hookSys src o v = some t) : t.clk.tb = s.clk.tb := by
  unfold hookSys at h
  split at h <;> cases h <;> simp

theorem tb_hookSup {o v} (h : s.hookSup o v = some t) : t.clk.tb = s.clk.tb := by
  unfold hookSup at h
  split at h <;> cases h
  split <;> simp

theorem tb_hookWrite {src blk o v} (h : s.hookWrite src blk o v = some t) : t.clk.tb = s.clk.tb := by
  unfold hookWrite at h
  split at h
  · exact tb_hookSys h
  · exact tb_hookSup h
  · exact hookPpw_keeps.tb (by decide) h
  · exact hookIcu_keeps.tb (by decide) h
  · exact hookXlt_keeps.tb (by decide) h
  · exact hookPool_keeps.tb (by decide) h
  · exact hookKle_keeps.tb (by decide) h
  · exact hookAdc_keeps.tb (by decide) h
  · exact hookSdf_keeps.tb (by decide) h
  · exact hookCmp_keeps.tb (by decide) h
  · exact hookPwm_keeps.tb (by decide) h
  · exact hookCap_keeps.tb (by decide) h
  · exact hookMbm_keeps.tb (by decide) h
  · exact hookTw_keeps.tb (by decide) h
  · exact hookDs_keeps.tb (by decide) h
  · exact hookSe_keeps.tb (by decide) h
  · exact hookHif_keeps.tb (by decide) h
  · exact hookDbg_keeps.tb (by decide) h
  · cases h

@[simp] theorem clk_withEdges {u m} : (s.withEdges u m).clk = s.clk := withEdges_keeps.clk (by decide)

theorem sameTb_regWriteC {coin src a v} : SameTb s (s.regWriteC coin src a v) := by
  unfold regWriteC
  refine sameTb_ite sameTb_refl ?_
  split
  next h => exact ⟨tb_hookWrite h⟩
  next =>
    split
    · refine sameTb_ite ?_ ⟨by simp⟩
      split <;> exact ⟨by simp⟩
    · exact sameTb_refl

@[simp] theorem tb_regWriteC {coin src a v} : (s.regWriteC coin src a v).clk.tb = s.clk.tb := sameTb_regWriteC.tb

@[simp] theorem tb_regWrite {src a v} : (s.regWrite src a v).clk.tb = s.clk.tb := tb_regWriteC

@[simp] theorem tb_wordWrite {src a bs} : (s.wordWrite src a bs).2.clk.tb = s.clk.tb := by
  unfold wordWrite
  dsimp only
  split <;> simp

@[simp] theorem tb_busWriteN {src a bs k} : (s.busWriteN src a bs k).2.clk.tb = s.clk.tb := by
  induction k generalizing s a bs with
  | zero => rfl
  | succ k ih =>
    simp only [busWriteN]
    split <;> simp [ih]

@[simp] theorem tb_busWrite {src a bs} : (s.busWrite src a bs).2.clk.tb = s.clk.tb := tb_busWriteN

theorem sameTb_hostWrite {coin o v be tlp} : SameTb s (s.hostWrite coin o v be tlp) := by
  unfold hostWrite
  refine sameTb_ite sameTb_refl (sameTb_ite ⟨by simp⟩ (sameTb_ite ⟨by simp⟩ (sameTb_ite ⟨by simp⟩ ?_)))
  split
  · exact sameTb_refl
  · refine sameTb_ite ?_ sameTb_regWriteC
    split
    next h => exact ⟨tb_hookWrite h⟩
    next => split <;> exact ⟨by simp⟩

@[simp] theorem tb_hostWrite {coin o v be tlp} : (s.hostWrite coin o v be tlp).clk.tb = s.clk.tb := sameTb_hostWrite.tb

end State

variable {s : State}

theorem keepsTb_registerWrite {src addr val be tlp coin} : KeepsTb s (execRegisterWrite src addr val be tlp coin s) := by
  unfold execRegisterWrite
  split <;> simp

end Sys2Proof.Machine
end

section
/-!
SUPPORT. The operations of the Tsuvo cores leave the timebase as it is (R47): what they do to it is what their bus accesses do.
-/
namespace Sys2Proof.Machine

namespace Res

variable {α β : Type} {s : State} {r : Res α}

@[simp] theorem tb_bind {f : α → State → Res β} (hf : ∀ a t, (f a t).state.clk.tb = t.clk.tb) :
    (r.bind f).state.clk.tb = r.state.clk.tb := by
  cases r with
  | ok a t => exact hf a t
  | exc e t => rfl

@[simp] theorem state_bind_ok {g : α → β} : (r.bind fun a t => .ok (g a) t).state = r.state := by
  cases r <;> rfl

theorem tb_of_ok {a t} (h : r = .ok a t) (hr : r.state.clk.tb = s.clk.tb) : t.clk.tb = s.clk.tb := by
  rw [← hr, h, state_ok]

theorem tb_of_exc {e t} (h : r = .exc e t) (hr : r.state.clk.tb = s.clk.tb) : t.clk.tb = s.clk.tb := by
  rw [← hr, h, state_exc]

end Res

namespace State

variable {s : State} {n : Nat}

/-! ### The write buffer, loads and stores -/

@[simp] theorem tb_storeNow {e} : (s.storeNow n e).2.clk.tb = s.clk.tb := by simp [storeNow]

@[simp] theorem tb_drainEnt {e} : (s.drainEnt n e).clk.tb = s.clk.tb := by cases e <;> simp [drainEnt]

@[simp] theorem tb_drainOne : (s.drainOne n).clk.tb = s.clk.tb := by
  unfold drainOne
  split <;> simp

@[simp] theorem tb_drainAll : (s.drainAll n).clk.tb = s.clk.tb := by simp [drainAll]

@[simp] theorem tb_drainFor {a} : (s.drainFor n a).clk.tb = s.clk.tb := by simp [drainFor]

@[simp] theorem tb_buffer {e} : (s.buffer n e).clk.tb = s.clk.tb := by simp [buffer]

@[simp] theorem tb_readAt {va x size dev} : (s.readAt n va x size dev).state.clk.tb = s.clk.tb := by
  unfold readAt
  split
  · simp
  · dsimp only
    split <;> simp

@[simp] theorem tb_load {va size dev} : (s.load n va size dev).state.clk.tb = s.clk.tb := by simp [load]

@[simp] theorem tb_store {va bytes} : (s.store n va bytes).state.clk.tb = s.clk.tb := by simp [store]

@[simp] theorem tb_atomic {op va v cmp} : (s.atomic n op va v cmp).state.clk.tb = s.clk.tb := by
  unfold atomic
  split
  · rfl
  · refine (Res.tb_bind fun x t => ?_).trans (by simp)
    split
    · rfl
    · dsimp only
      split <;> simp

/-! ### The stacks -/

@[simp] theorem tb_spillWords {bank off bss} : (s.spillWords n bank off bss).state.clk.tb = s.clk.tb := by
  induction bss generalizing s off with
  | nil => rfl
  | cons bs bss ih => simp [spillWords, ih]

@[simp] theorem tb_fillWords {bank off w k} : (s.fillWords n bank off w k).state.clk.tb = s.clk.tb := by
  induction k generalizing s off with
  | zero => rfl
  | succ k ih =>
    refine (Res.tb_bind fun x t => ?_).trans (by simp)
    dsimp only
    refine (Res.tb_bind fun bs t => ?_).trans (by simp)
    simp [ih]

@[simp] theorem tb_spillD {k} : (s.spillD n k).state.clk.tb = s.clk.tb := by simp [spillD]

@[simp] theorem tb_fillD : (s.fillD n).state.clk.tb = s.clk.tb := by simp [fillD]

@[simp] theorem tb_needD {k} : (s.needD n k).state.clk.tb = s.clk.tb := by simp [needD]

@[simp] theorem tb_roomD {k r} : (s.roomD n k r).state.clk.tb = s.clk.tb := by simp [roomD]

@[simp] theorem tb_spillR {k} : (s.spillR n k).state.clk.tb = s.clk.tb := by simp [spillR]

@[simp] theorem tb_fillR : (s.fillR n).state.clk.tb = s.clk.tb := by simp [fillR]

@[simp] theorem tb_needR {k} : (s.needR n k).state.clk.tb = s.clk.tb := by simp [needR]

@[simp] theorem tb_pushR {e} : (s.pushR n e).state.clk.tb = s.clk.tb := by simp [pushR]

@[simp] theorem tb_flushD {k} : (s.flushD n k).state.clk.tb = s.clk.tb := by
  induction k generalizing s with
  | zero => rfl
  | succ k ih => simp [flushD, ih]

@[simp] theorem tb_flushR {k} : (s.flushR n k).state.clk.tb = s.clk.tb := by
  induction k generalizing s with
  | zero => rfl
  | succ k ih => simp [flushR, ih]

/-! ### Exceptions, interrupts and core reset -/

@[simp] theorem tb_coreReset : (s.coreReset n).clk.tb = s.clk.tb := by simp [coreReset]

@[simp] theorem tb_coreResetHeld : (s.coreResetHeld n).clk.tb = s.clk.tb := by simp [coreResetHeld]

@[simp] theorem tb_pushFrame : (s.pushFrame n).state.clk.tb = s.clk.tb := by simp [pushFrame]

@[simp] theorem tb_entryFault {e} : (s.entryFault n e).clk.tb = s.clk.tb := by
  unfold entryFault
  dsimp only
  split
  next h => simp [Res.tb_of_ok h (s := s) (by simp)]
  next h => simp [Res.tb_of_exc h (s := s) (by simp)]

@[simp] theorem tb_enter {f} (hf : ∀ t, (f t).clk.tb = t.clk.tb) : (s.enter n f).clk.tb = s.clk.tb := by
  unfold enter
  dsimp only
  split
  next h => simp [hf, Res.tb_of_ok h tb_pushFrame]
  next h => simp [Res.tb_of_exc h tb_pushFrame]

@[simp] theorem tb_takeExc {e} : (s.takeExc n e).clk.tb = s.clk.tb := by simp [takeExc]

@[simp] theorem tb_enterAsync : (s.enterAsync n).clk.tb = s.clk.tb := by
  unfold enterAsync
  split <;> simp

@[simp] theorem tb_takeIrq {i late} : (s.takeIrq n i late).clk.tb = s.clk.tb := by simp [takeIrq]

@[simp] theorem tb_opExc {pre stands e} : (s.opExc n pre stands e).clk.tb = s.clk.tb := by simp [opExc]

/-! ### Issue -/

@[simp] theorem tb_issue {word cyc body} (h : ∀ t, (body t).state.clk.tb = t.clk.tb) :
    (s.issue n word cyc body).clk.tb = s.clk.tb := by
  unfold issue
  split
  · rfl
  · split
    · simp
    · dsimp only
      split
      next hr =>
        have ht := Res.tb_of_ok hr (s := s) (by simp [h])
        split <;> simp [ht]
      next hr => simp [Res.tb_of_exc hr (s := s) (by simp [h])]

@[simp] theorem tb_takeD {k r reads f} (hf : ∀ xs ms t, (f xs ms t).state.clk.tb = t.clk.tb) :
    (s.takeD n k r reads f).state.clk.tb = s.clk.tb := by simp [takeD, hf]

@[simp] theorem tb_popD {k r f} (hf : ∀ xs t, (f xs t).state.clk.tb = t.clk.tb) :
    (s.popD n k r f).state.clk.tb = s.clk.tb := tb_takeD fun xs _ => hf xs

@[simp] theorem tb_moveOp {k ix} : (s.moveOp n k ix).clk.tb = s.clk.tb := by simp [moveOp]

@[simp] theorem tb_stackOp {cyc k r f} : (s.stackOp n cyc k r f).clk.tb = s.clk.tb := by simp [stackOp]

@[simp] theorem tb_reti {late} : (s.reti n late).state.clk.tb = s.clk.tb := by
  unfold reti
  refine (Res.tb_bind fun _ t => ?_).trans (by simp)
  dsimp only
  split <;> simp

@[simp] theorem tb_fromR {k} : (s.fromR n k).state.clk.tb = s.clk.tb := by simp [fromR]

@[simp] theorem tb_loadHalf {va dev} : (s.loadHalf n va dev).state.clk.tb = s.clk.tb := by simp [loadHalf]

@[simp] theorem tb_loadPair {va dev} : (s.loadPair n va dev).state.clk.tb = s.clk.tb := by simp [loadPair]

@[simp] theorem tb_storeOp {va bs} : (s.storeOp n va bs).state.clk.tb = s.clk.tb := by simp [storeOp]

@[simp] theorem tb_cacheOp {f} (hf : ∀ t l, (f t l).clk.tb = t.clk.tb) : (s.cacheOp n f).state.clk.tb = s.clk.tb := by
  refine tb_popD fun xs t => ?_
  refine (Res.tb_bind fun x t => ?_).trans (by simp)
  cases x <;> simp [hf]

@[simp] theorem tb_offer {w} : (s.offer n w).2.clk.tb = s.clk.tb := by simp [offer]

@[simp] theorem tb_goTo {bank a call} : (s.goTo n bank a call).state.clk.tb = s.clk.tb := by simp [goTo]

end State
end Sys2Proof.Machine
end

section
/-!
SUPPORT. The commands of the Tsuvo cores leave the timebase as it is (R47).
-/
namespace Sys2Proof.Machine

variable {s : State} {n : Fin 4}

theorem keepsTb_issue {word cyc body} (h : ∀ t, (body t).state.clk.tb = t.clk.tb) :
    KeepsTb s (done (s.issue n word cyc body)) := keepsTb_next.mpr (State.tb_issue h)

/-- An operation that takes its operands off the data stack. -/
theorem keepsTb_issue_popD {word cyc k r f} (hf : ∀ xs t, (f xs t).state.clk.tb = t.clk.tb) :
    KeepsTb s (done (s.issue n word cyc fun t => t.popD n k r f)) := keepsTb_issue fun _ => State.tb_popD hf

/-! ### Words and the stacks -/

theorem keepsTb_literal {v} : KeepsTb s (execLiteral n v s) := by simp [execLiteral]

theorem keepsTb_br {off} : KeepsTb s (execBr n off s) := by simp [execBr]

theorem keepsTb_bz {off} : KeepsTb s (execBz n off s) := by simp [execBz]

theorem keepsTb_bnz {off} : KeepsTb s (execBnz n off s) := by simp [execBnz]

theorem keepsTb_loop {off} : KeepsTb s (execLoop n off s) := by simp [execLoop]

theorem keepsTb_call {target} : KeepsTb s (execCall n target s) :=
  keepsTb_issue fun _ => (Res.tb_bind fun _ _ => rfl).trans State.tb_pushR

theorem keepsTb_nopOperation : KeepsTb s (execNopOperation n s) := keepsTb_issue fun _ => rfl

theorem keepsTb_moveOp {k ix} : KeepsTb s (done (s.moveOp n k ix)) := by simp

theorem keepsTb_stackOp {cyc k r f} : KeepsTb s (done (s.stackOp n cyc k r f)) := by simp

theorem keepsTb_pick : KeepsTb s (execPick n s) := keepsTb_issue fun t => by simp [illegal]

theorem keepsTb_toR : KeepsTb s (execToR n s) := by simp [execToR]

theorem keepsTb_rFrom : KeepsTb s (execRFrom n s) := by simp [execRFrom]

theorem keepsTb_rFetch : KeepsTb s (execRFetch n s) := by simp [execRFetch]

theorem keepsTb_rdrop : KeepsTb s (execRdrop n s) := by simp [execRdrop]

theorem keepsTb_flush : KeepsTb s (execFlush n s) := by simp [execFlush]

/-! ### Loads and stores -/

theorem keepsTb_fetch {dev} : KeepsTb s (execFetch n dev s) := by simp [execFetch]

theorem keepsTb_store : KeepsTb s (execStore n s) := by simp [execStore]

theorem keepsTb_cFetch {dev} : KeepsTb s (execCFetch n dev s) := keepsTb_issue_popD fun xs t => by simp

theorem keepsTb_cStore : KeepsTb s (execCStore n s) := by simp [execCStore]

theorem keepsTb_twoFetch {dev} : KeepsTb s (execTwoFetch n dev s) := by simp [execTwoFetch]

theorem keepsTb_twoStore : KeepsTb s (execTwoStore n s) := by simp [execTwoStore]

theorem keepsTb_fFetch {dev} : KeepsTb s (execFFetch n dev s) := by simp [execFFetch]

theorem keepsTb_fStore : KeepsTb s (execFStore n s) := by simp [execFStore]

theorem keepsTb_f2Fetch {dev} : KeepsTb s (execF2Fetch n dev s) := by simp [execF2Fetch]

theorem keepsTb_f2Store : KeepsTb s (execF2Store n s) := by simp [execF2Store]

theorem keepsTb_plusStore {dev} : KeepsTb s (execPlusStore n dev s) := keepsTb_issue_popD fun xs t => by simp

theorem keepsTb_xchg : KeepsTb s (execXchg n s) := keepsTb_issue_popD fun xs t => by simp

theorem keepsTb_cas : KeepsTb s (execCas n s) := keepsTb_issue_popD fun xs t => by simp

theorem keepsTb_fadd : KeepsTb s (execFadd n s) := keepsTb_issue_popD fun xs t => by simp

theorem keepsTb_fence : KeepsTb s (execFence n s) := by simp [execFence]

theorem keepsTb_dcwb : KeepsTb s (execDcwb n s) := by simp [execDcwb]

theorem keepsTb_dcinv : KeepsTb s (execDcinv n s) := by simp [execDcinv, privExc]

theorem keepsTb_icinv : KeepsTb s (execIcinv n s) := by simp [execIcinv]

theorem keepsTb_isync : KeepsTb s (execIsync n s) := by simp [execIsync]

theorem keepsTb_qpush : KeepsTb s (execQpush n s) := by simp [execQpush, illegal]

theorem keepsTb_qpop : KeepsTb s (execQpop n s) := by simp [execQpop, illegal]

theorem keepsTb_storeDrain : KeepsTb s (execStoreDrain n s) := by simp [execStoreDrain]

/-! ### Transfers and traps -/

theorem keepsTb_ret : KeepsTb s (execRet n s) := by simp [execRet]

theorem keepsTb_exec : KeepsTb s (execExec n s) := by simp [execExec]

theorem keepsTb_fexec : KeepsTb s (execFexec n s) := by simp [execFexec]

theorem keepsTb_jmp : KeepsTb s (execJmp n s) := by simp [execJmp]

theorem keepsTb_fjmp : KeepsTb s (execFjmp n s) := by simp [execFjmp]

theorem keepsTb_trap : KeepsTb s (execTrap n s) := by simp [execTrap, illegal]

theorem keepsTb_reti {late} : KeepsTb s (execReti n late s) := by simp [execReti, privExc]

theorem keepsTb_wait : KeepsTb s (execWait n s) := by simp [execWait, privExc]

theorem keepsTb_brk : KeepsTb s (execBrk n s) := by simp [execBrk]

theorem keepsTb_undefinedOperation {code} : KeepsTb s (execUndefinedOperation n code s) := by
  unfold execUndefinedOperation
  split
  · exact keepsTb_next.mpr rfl
  · exact keepsTb_issue fun _ => rfl

/-! ### Special registers and the TLB -/

theorem keepsTb_srFetch : KeepsTb s (execSrFetch n s) := by
  refine keepsTb_issue_popD fun xs t => ?_
  split
  · simp
  · rfl

theorem keepsTb_srStore : KeepsTb s (execSrStore n s) := by
  refine keepsTb_issue_popD fun xs t => ?_
  dsimp only
  split
  · rfl
  · simp [privExc]

theorem keepsTb_tlbi : KeepsTb s (execTlbi n s) := by simp [execTlbi, privExc]

theorem keepsTb_tlbia : KeepsTb s (execTlbia n s) := by simp [execTlbia, privExc]

theorem keepsTb_pageWalk {va kind} : KeepsTb s (execPageWalk n va kind s) := by
  unfold execPageWalk
  dsimp only
  refine KeepsTb.ite (KeepsTb.ite (by simp) ?_) (by simp)
  split
  next h => simp [Res.tb_of_ok h (s := s) (by simp)]
  next h => simp [Res.tb_of_exc h (s := s) (by simp)]

/-! ### Core reset, interrupts, halts -/

theorem keepsTb_wbusAsync : KeepsTb s (execWbusAsync n s) := by simp [execWbusAsync]

theorem keepsTb_coreResetHeld : KeepsTb s (execCoreResetHeld n s) := by simp [execCoreResetHeld]

theorem keepsTb_interruptEntry {late} : KeepsTb s (execInterruptEntry n late s) := by
  refine KeepsTb.ite ?_ (by simp)
  split <;> simp

theorem keepsTb_coreHalt {cause} : KeepsTb s (execCoreHalt n cause s) := KeepsTb.ite (by simp) (by simp)

end Sys2Proof.Machine
end

section
/-!
SUPPORT. The DMA channels, a read of TBLO and the commands SETPOWER, DEVRESET and MEMPROOF leave the timebase as it is (R47).
-/
namespace Sys2Proof.Machine

namespace State

variable {s : State} {c : Nat}

/-! ### DMA channels -/

@[simp] theorem tb_dmaRead {a size dev retry} : (s.dmaRead c a size dev retry).2.clk.tb = s.clk.tb := by
  unfold dmaRead
  dsimp only
  split
  · simp
  · split <;> split <;> simp

@[simp] theorem tb_dmaWrite {a bs} : (s.dmaWrite c a bs).2.clk.tb = s.clk.tb := by
  unfold dmaWrite
  dsimp only
  split
  · simp
  · split <;> simp

@[simp] theorem tb_dmaWriteElement {bs again} : (s.dmaWriteElement c bs again).clk.tb = s.clk.tb := by
  unfold dmaWriteElement
  dsimp only
  split <;> simp

@[simp] theorem tb_dmaReadAhead : (s.dmaReadAhead c).clk.tb = s.clk.tb := by
  unfold dmaReadAhead
  dsimp only
  split
  · rfl
  · split
    · rfl
    · split <;> simp

@[simp] theorem tb_dmaRunAhead {k} : (s.dmaRunAhead c k).clk.tb = s.clk.tb := by
  induction k generalizing s with
  | zero => rfl
  | succ k ih => simp [dmaRunAhead, ih]

@[simp] theorem tb_dmaElement {dev again} : (s.dmaElement c dev again).clk.tb = s.clk.tb := by
  unfold dmaElement
  dsimp only
  split
  · simp
  · split
    · simp
    · split
      · simp
      · split
        · simp
        · split <;> simp

/-! ### Commands of the command ring -/

@[simp] theorem tb_setStandby {r} : (s.setStandby r).clk.tb = s.clk.tb := by simp [setStandby]

@[simp] theorem tb_setProof {c} : (s.setProof c).clk.tb = s.clk.tb := by simp [setProof]

@[simp] theorem tb_setPower {c} : (s.setPower c).clk.tb = s.clk.tb := by simp [setPower]

/-! ### Reads of the host -/

@[simp] theorem tb_readBy {src tlp a f} (hf : ∀ t, (f t).2.clk.tb = t.clk.tb) : (s.readBy src tlp a f).clk.tb = s.clk.tb := by
  simp [readBy, hf]

end State

variable {s : State}

theorem keepsTb_tbloRead {src tlp} : KeepsTb s (execTbloRead src tlp s) :=
  keepsTb_next.mpr (State.tb_readBy fun _ => State.tb_tblo)

theorem keepsTb_dmaDescriptorFetch {c dev} : KeepsTb s (execDmaDescriptorFetch c dev s) := by
  unfold execDmaDescriptorFetch
  refine KeepsTb.ite ?_ (by simp)
  extract_lets a
  split
  next r t hr =>
    have ht : t.clk.tb = s.clk.tb := (congrArg (fun p => p.2.clk.tb) hr).symm.trans State.tb_dmaRead
    extract_lets x u y
    have hu : u.clk.tb = s.clk.tb := by simp [u, ht]
    split
    · simp [hu]
    · extract_lets w n v v'
      have hv : v'.clk.tb = s.clk.tb := by simp [v', v, hu]
      split
      · simp [hu]
      · extract_lets z s'
        simp [s', hv]

theorem keepsTb_dmaElement {c dev again req ahead} : KeepsTb s (execDmaElement c dev again req ahead s) :=
  KeepsTb.ite (by simp) (by simp)

theorem keepsTb_setpower : KeepsTb s (execSetpower s) := by
  unfold execSetpower
  split <;> simp

theorem keepsTb_devreset : KeepsTb s (execDevreset s) := by
  unfold execDevreset
  split
  · exact KeepsTb.ite (by simp) (by simp)
  · simp

theorem keepsTb_memproofDone {failed addr} : KeepsTb s (execMemproofDone failed addr s) := by
  unfold execMemproofDone
  split
  · simp
  · refine KeepsTb.ite (by simp) ?_
    dsimp only
    split <;> simp

end Sys2Proof.Machine
end

section
/-!
SUPPORT. The frame of every command, by its footprint.
-/
namespace Sys2Proof.Machine

/-- Every command answers with a next state that keeps what its footprint does not list. -/
theorem exec_answers {s : State} : ∀ c : Instr, Answers (footprint c) s (exec c s)
  | .registerWrite .. => execRegisterWrite_keeps
  | .powerOnReset high => execPowerOnReset_keeps (a1 := high)
  | .vddioDReleaseTimer => execVddioDReleaseTimer_keeps
  | .pinReset .. => execPinReset_keeps
  | .resetRelease .. => execResetRelease_keeps
  | .crystalEdgesSeen => execCrystalEdgesSeen_keeps
  | .pllLock => execPllLock_keeps
  | .pllLockTimeout => execPllLockTimeout_keeps
  | .memoryInitDone => execMemoryInitDone_keeps
  | .rootLoss => execRootLoss_keeps
  | .rootReturn => execRootReturn_keeps
  | .guardLoss => execGuardLoss_keeps
  | .tbloRead .. => execTbloRead_keeps
  | .timerExpiry .. => execTimerExpiry_keeps
  | .railSample .. => execRailSample_keeps
  | .railConditionReport .. => execRailConditionReport_keeps
  | .seqcmdUp => execSeqcmdUp_keeps
  | .seqcmdDown => execSeqcmdDown_keeps
  | .seqFaultnReleased => execSeqFaultnReleased_keeps
  | .seqPositionAdvance => execSeqPositionAdvance_keeps
  | .pgTmo .. => execPgTmo_keeps
  | .shutdownPositionAdvance => execShutdownPositionAdvance_keeps
  | .stepTmo .. => execStepTmo_keeps
  | .extFault => execExtFault_keeps
  | .collapse .. => execCollapse_keeps
  | .lastGaspWrite => execLastGaspWrite_keeps
  | .pwrcmdRun => execPwrcmdRun_keeps
  | .pwrcmdTrim => execPwrcmdTrim_keeps
  | .pwrcmdStandby => execPwrcmdStandby_keeps
  | .pwrcmdOff => execPwrcmdOff_keeps
  | .clkgateWrite .. => execClkgateWrite_keeps
  | .rstcmdDevice .. => execRstcmdDevice_keeps
  | .deviceReset => execDeviceReset_keeps
  | .linkReset => execLinkReset_keeps
  | .perstRelease => execPerstRelease_keeps
  | .dataLinkDown => execDataLinkDown_keeps
  | .inBandHotReset => execInBandHotReset_keeps
  | .functionLevelReset => execFunctionLevelReset_keeps
  | .coreResetAssert .. => execCoreResetAssert_keeps
  | .coreResetHeld .. => execCoreResetHeld_keeps
  | .coreResetRelease .. => execCoreResetRelease_keeps
  | .bootItemRead .. => execBootItemRead_keeps
  | .bootCheckOutcome => execBootCheckOutcome_keeps
  | .bootCopyDone => execBootCopyDone_keeps
  | .bootgo .. => execBootgo_keeps
  | .bootforce .. => execBootforce_keeps
  | .configRequest .. => execConfigRequest_keeps
  | .bar2Read .. => execBar2Read_keeps
  | .bar2Write .. => execBar2Write_keeps
  | .outboundAccess .. => execOutboundAccess_keeps
  | .cmdDoorbell .. => execCmdDoorbell_keeps
  | .cplDoorbell .. => execCplDoorbell_keeps
  | .evDoorbell .. => execEvDoorbell_keeps
  | .recDoorbell .. => execRecDoorbell_keeps
  | .recIdxRead .. => execRecIdxRead_keeps
  | .ringCfgWrite .. => execRingCfgWrite_keeps
  | .descriptorFetch => execDescriptorFetch_keeps
  | .descriptorFetchDone .. => execDescriptorFetchDone_keeps
  | .eventHoldDrain => execEventHoldDrain_keeps
  | .recordPost .. => execRecordPost_keeps
  | .postReadDone .. => execPostReadDone_keeps
  | .vectorModerationTimeout .. => execVectorModerationTimeout_keeps
  | .fwirqWrite .. => execFwirqWrite_keeps
  | .heartbeat => execHeartbeat_keeps
  | .heartbeatTimeout .. => execHeartbeatTimeout_keeps
  | .hostLossPolicyApply .. => execHostLossPolicyApply_keeps
  | .nop => execNop_keeps
  | .echo => execEcho_keeps
  | .echoWord3 => execEchoWord3_keeps
  | .setpower => execSetpower_keeps
  | .devreset => execDevreset_keeps
  | .imgload => execImgload_keeps
  | .commandHostRead .. => execCommandHostRead_keeps
  | .plateload => execPlateload_keeps
  | .paramwrite => execParamwrite_keeps
  | .paramwriteWaitTimeout => execParamwriteWaitTimeout_keeps
  | .setpoint => execSetpoint_keeps
  | .sloten => execSloten_keeps
  | .slotreset => execSlotreset_keeps
  | .inject => execInject_keeps
  | .injectTimeout => execInjectTimeout_keeps
  | .musterload => execMusterload_keeps
  | .musterstart => execMusterstart_keeps
  | .musterstop => execMusterstop_keeps
  | .musterstopTimeout => execMusterstopTimeout_keeps
  | .musternow => execMusternow_keeps
  | .admitObject => execAdmitObject_keeps
  | .pen => execPen_keeps
  | .portproof => execPortproof_keeps
  | .portProofDone .. => execPortProofDone_keeps
  | .portproofTimeout => execPortproofTimeout_keeps
  | .adccal => execAdccal_keeps
  | .memproof => execMemproof_keeps
  | .memproofDone .. => execMemproofDone_keeps
  | .dmareserve => execDmareserve_keeps
  | .ledgerquery => execLedgerquery_keeps
  | .literal .. => execLiteral_keeps
  | .br .. => execBr_keeps
  | .bz .. => execBz_keeps
  | .bnz .. => execBnz_keeps
  | .loop .. => execLoop_keeps
  | .call .. => execCall_keeps
  | .dup .. => execDup_keeps
  | .drop .. => execDrop_keeps
  | .swap .. => execSwap_keeps
  | .overWord .. => execOverWord_keeps
  | .rot .. => execRot_keeps
  | .nip .. => execNip_keeps
  | .tuck .. => execTuck_keeps
  | .twoDup .. => execTwoDup_keeps
  | .twoDrop .. => execTwoDrop_keeps
  | .pick .. => execPick_keeps
  | .toR .. => execToR_keeps
  | .rFrom .. => execRFrom_keeps
  | .rFetch .. => execRFetch_keeps
  | .rdrop .. => execRdrop_keeps
  | .minusRot .. => execMinusRot_keeps
  | .add .. => execAdd_keeps
  | .sub .. => execSub_keeps
  | .adc .. => execAdc_keeps
  | .sbc .. => execSbc_keeps
  | .adds .. => execAdds_keeps
  | .subs .. => execSubs_keeps
  | .neg .. => execNeg_keeps
  | .abs .. => execAbs_keeps
  | .and .. => execAnd_keeps
  | .or .. => execOr_keeps
  | .xor .. => execXor_keeps
  | .inv .. => execInv_keeps
  | .onePlus .. => execOnePlus_keeps
  | .oneMinus .. => execOneMinus_keeps
  | .twoStar .. => execTwoStar_keeps
  | .twoSlash .. => execTwoSlash_keeps
  | .shl .. => execShl_keeps
  | .shr .. => execShr_keeps
  | .asr .. => execAsr_keeps
  | .rol .. => execRol_keeps
  | .min .. => execMin_keeps
  | .max .. => execMax_keeps
  | .clip .. => execClip_keeps
  | .ext .. => execExt_keeps
  | .equal .. => execEqual_keeps
  | .notEqual .. => execNotEqual_keeps
  | .less .. => execLess_keeps
  | .greater .. => execGreater_keeps
  | .uLess .. => execULess_keeps
  | .uGreater .. => execUGreater_keeps
  | .zeroEqual .. => execZeroEqual_keeps
  | .zeroLess .. => execZeroLess_keeps
  | .mul .. => execMul_keeps
  | .umul .. => execUmul_keeps
  | .mac .. => execMac_keeps
  | .msc .. => execMsc_keeps
  | .macz .. => execMacz_keeps
  | .div .. => execDiv_keeps
  | .udiv .. => execUdiv_keeps
  | .ldiv .. => execLdiv_keeps
  | .multiplierResult .. => execMultiplierResult_keeps
  | .dividerResult .. => execDividerResult_keeps
  | .mlFetch .. => execMlFetch_keeps
  | .mhFetch .. => execMhFetch_keeps
  | .dqFetch .. => execDqFetch_keeps
  | .dmFetch .. => execDmFetch_keeps
  | .mas .. => execMas_keeps
  | .maclr .. => execMaclr_keeps
  | .fetch .. => execFetch_keeps
  | .store .. => execStore_keeps
  | .cFetch .. => execCFetch_keeps
  | .cStore .. => execCStore_keeps
  | .twoFetch .. => execTwoFetch_keeps
  | .twoStore .. => execTwoStore_keeps
  | .fFetch .. => execFFetch_keeps
  | .fStore .. => execFStore_keeps
  | .f2Fetch .. => execF2Fetch_keeps
  | .f2Store .. => execF2Store_keeps
  | .plusStore .. => execPlusStore_keeps
  | .xchg .. => execXchg_keeps
  | .cas .. => execCas_keeps
  | .fadd .. => execFadd_keeps
  | .fence .. => execFence_keeps
  | .dcwb .. => execDcwb_keeps
  | .dcinv .. => execDcinv_keeps
  | .icinv .. => execIcinv_keeps
  | .isync .. => execIsync_keeps
  | .qpush .. => execQpush_keeps
  | .qpop .. => execQpop_keeps
  | .qpopReply .. => execQpopReply_keeps
  | .flush .. => execFlush_keeps
  | .ret .. => execRet_keeps
  | .exec .. => execExec_keeps
  | .fexec .. => execFexec_keeps
  | .jmp .. => execJmp_keeps
  | .fjmp .. => execFjmp_keeps
  | .trap .. => execTrap_keeps
  | .reti .. => execReti_keeps
  | .wait .. => execWait_keeps
  | .brk .. => execBrk_keeps
  | .srFetch .. => execSrFetch_keeps
  | .srStore .. => execSrStore_keeps
  | .dbrFetch .. => execDbrFetch_keeps
  | .dbrStore .. => execDbrStore_keeps
  | .tlbi .. => execTlbi_keeps
  | .tlbia .. => execTlbia_keeps
  | .storeDrain .. => execStoreDrain_keeps
  | .wbusAsync .. => execWbusAsync_keeps
  | .pageWalk .. => execPageWalk_keeps
  | .interruptEntry .. => execInterruptEntry_keeps
  | .swi .. => execSwi_keeps
  | .setpend .. => execSetpend_keeps
  | .clrpend .. => execClrpend_keeps
  | .haltRequest .. => execHaltRequest_keeps
  | .coreHalt .. => execCoreHalt_keeps
  | .haltRelease .. => execHaltRelease_keeps
  | .debugStep .. => execDebugStep_keeps
  | .kleHaltRequest => execKleHaltRequest_keeps
  | .dmaStart .. => execDmaStart_keeps
  | .dmaStop .. => execDmaStop_keeps
  | .dmaResume .. => execDmaResume_keeps
  | .dmaDescriptorFetch .. => execDmaDescriptorFetch_keeps
  | .dmaElement .. => execDmaElement_keeps
  | .dmainv .. => execDmainv_keeps
  | .dmainvDone => execDmainvDone_keeps
  | .rds .. => execRds_keeps
  | .rdu .. => execRdu_keeps
  | .upg .. => execUpg_keeps
  | .wbk .. => execWbk_keeps
  | .rdo .. => execRdo_keeps
  | .wri .. => execWri_keeps
  | .atm .. => execAtm_keeps
  | .go .. => execGo_keeps
  | .ledgerWindow .. => execLedgerWindow_keeps
  | .scrub => execScrub_keeps
  | .mramMirror => execMramMirror_keeps
  | .poolPush .. => execPoolPush_keeps
  | .poolPop .. => execPoolPop_keeps
  | .cellRelease .. => execCellRelease_keeps
  | .freeListRebuild => execFreeListRebuild_keeps
  | .poolScrub => execPoolScrub_keeps
  | .hqpush .. => execHqpush_keeps
  | .hpop .. => execHpop_keeps
  | .qcfgWrite .. => execQcfgWrite_keeps
  | .rawViewWrite .. => execRawViewWrite_keeps
  | .adcTrigger .. => execAdcTrigger_keeps
  | .adcSwtrig .. => execAdcSwtrig_keeps
  | .adcSample .. => execAdcSample_keeps
  | .adcConversionEnd .. => execAdcConversionEnd_keeps
  | .adcFifoRead .. => execAdcFifoRead_keeps
  | .adcCalibrationStep .. => execAdcCalibrationStep_keeps
  | .adcProof .. => execAdcProof_keeps
  | .sinc3Result .. => execSinc3Result_keeps
  | .sdSync .. => execSdSync_keeps
  | .swsync .. => execSwsync_keeps
  | .sdtTrip .. => execSdtTrip_keeps
  | .sdClkmiss .. => execSdClkmiss_keeps
  | .sdStuck .. => execSdStuck_keeps
  | .comparatorActive .. => execComparatorActive_keeps
  | .blankingEnd .. => execBlankingEnd_keeps
  | .cmpThrWrite .. => execCmpThrWrite_keeps
  | .cmpProof .. => execCmpProof_keeps
  | .kleDoorbell .. => execKleDoorbell_keeps
  | .slotStart => execSlotStart_keeps
  | .preemption => execPreemption_keeps
  | .deadlineOverrun .. => execDeadlineOverrun_keeps
  | .hatchVote .. => execHatchVote_keeps
  | .slotResetEffect .. => execSlotResetEffect_keeps
  | .lin => execLin_keeps
  | .pi => execPi_keeps
  | .pid => execPid_keeps
  | .leadlag => execLeadlag_keeps
  | .biquad => execBiquad_keeps
  | .pr => execPr_keeps
  | .ss => execSs_keeps
  | .clarke => execClarke_keeps
  | .park => execPark_keeps
  | .ipark => execIpark_keeps
  | .iclarke => execIclarke_keeps
  | .svm => execSvm_keeps
  | .sincos => execSincos_keeps
  | .table => execTable_keeps
  | .cmpsel => execCmpsel_keeps
  | .clipBlock => execClipBlock_keeps
  | .integ => execInteg_keeps
  | .learn => execLearn_keeps
  | .outpwm => execOutpwm_keeps
  | .outq => execOutq_keeps
  | .latch .. => execLatch_keeps
  | .divsqrt => execDivsqrt_keeps
  | .paramWindowWrite .. => execParamWindowWrite_keeps
  | .signalWordWrite .. => execSignalWordWrite_keeps
  | .plateWrite src _ _ _ => execPlateWrite_keeps (a1 := src)
  | .platechk .. => execPlatechk_keeps
  | .enset .. => execEnset_keeps
  | .enclr .. => execEnclr_keeps
  | .slotrst .. => execSlotrst_keeps
  | .learnClear .. => execLearnClear_keeps
  | .learnClearDone .. => execLearnClearDone_keeps
  | .injctlWrite .. => execInjctlWrite_keeps
  | .zero .. => execZero_keeps
  | .period .. => execPeriod_keeps
  | .cau .. => execCau_keeps
  | .cad .. => execCad_keeps
  | .cbu .. => execCbu_keeps
  | .cbd .. => execCbd_keeps
  | .immediateLoad .. => execImmediateLoad_keeps
  | .syncin .. => execSyncin_keeps
  | .gsync .. => execGsync_keeps
  | .gstart .. => execGstart_keeps
  | .swtrip .. => execSwtrip_keeps
  | .pwmTrip .. => execPwmTrip_keeps
  | .outEnableWrite .. => execOutEnableWrite_keeps
  | .delayLineLock => execDelayLineLock_keeps
  | .diagPulse .. => execDiagPulse_keeps
  | .captureEdge .. => execCaptureEdge_keeps
  | .captureRecordRead .. => execCaptureRecordRead_keeps
  | .captureArm .. => execCaptureArm_keeps
  | .qdEdge .. => execQdEdge_keeps
  | .qdIndex .. => execQdIndex_keeps
  | .qdSpeedDecay .. => execQdSpeedDecay_keeps
  | .qdStall .. => execQdStall_keeps
  | .qdRouteSample .. => execQdRouteSample_keeps
  | .musterPeriodTick .. => execMusterPeriodTick_keeps
  | .mbmTrig .. => execMbmTrig_keeps
  | .bellwetherPortStart .. => execBellwetherPortStart_keeps
  | .entryStart .. => execEntryStart_keeps
  | .runaheadStart .. => execRunaheadStart_keeps
  | .entryAttemptEnd .. => execEntryAttemptEnd_keeps
  | .musterDeadlineExpiry .. => execMusterDeadlineExpiry_keeps
  | .commit .. => execCommit_keeps
  | .foldFlip .. => execFoldFlip_keeps
  | .droverCopy .. => execDroverCopy_keeps
  | .twStretchTimeout .. => execTwStretchTimeout_keeps
  | .attemptTimeout .. => execAttemptTimeout_keeps
  | .cmdrdConvWait .. => execCmdrdConvWait_keeps
  | .twSwctlGo .. => execTwSwctlGo_keeps
  | .twTransactionEnd .. => execTwTransactionEnd_keeps
  | .crookCallDetect .. => execCrookCallDetect_keeps
  | .crookIdentification .. => execCrookIdentification_keeps
  | .crookIdentificationEnd .. => execCrookIdentificationEnd_keeps
  | .stuckLine .. => execStuckLine_keeps
  | .portSettleExpiry .. => execPortSettleExpiry_keeps
  | .stuckConsecDecay .. => execStuckConsecDecay_keeps
  | .portProbe .. => execPortProbe_keeps
  | .adaptWindowEnd .. => execAdaptWindowEnd_keeps
  | .dsSwctlGo .. => execDsSwctlGo_keeps
  | .dsFrameEnd .. => execDsFrameEnd_keeps
  | .dsTargetFrame .. => execDsTargetFrame_keeps
  | .dsRxdataRead .. => execDsRxdataRead_keeps
  | .dsRxlenRead .. => execDsRxlenRead_keeps
  | .dsTxdata .. => execDsTxdata_keeps
  | .flashWindowRead src _ _ _ => execFlashWindowRead_keeps (a1 := src)
  | .seRun .. => execSeRun_keeps
  | .seRunClear .. => execSeRunClear_keeps
  | .seGstart .. => execSeGstart_keeps
  | .phrst .. => execPhrst_keeps
  | .seLoad .. => execSeLoad_keeps
  | .seLoadDone .. => execSeLoadDone_keeps
  | .seParamWrite .. => execSeParamWrite_keeps
  | .seWaitSatisfied .. => execSeWaitSatisfied_keeps
  | .seNop .. => execSeNop_keeps
  | .seSet .. => execSeSet_keeps
  | .seWaite .. => execSeWaite_keeps
  | .seWaitl .. => execSeWaitl_keeps
  | .seDelay .. => execSeDelay_keeps
  | .seAt .. => execSeAt_keeps
  | .seSince .. => execSeSince_keeps
  | .seLdi .. => execSeLdi_keeps
  | .seLdh .. => execSeLdh_keeps
  | .seMov .. => execSeMov_keeps
  | .seAdd .. => execSeAdd_keeps
  | .seSub .. => execSeSub_keeps
  | .seCmp .. => execSeCmp_keeps
  | .seAnd .. => execSeAnd_keeps
  | .seShr .. => execSeShr_keeps
  | .seMul .. => execSeMul_keeps
  | .seDivr .. => execSeDivr_keeps
  | .seRev .. => execSeRev_keeps
  | .seJmp .. => execSeJmp_keeps
  | .seShi .. => execSeShi_keeps
  | .seSho .. => execSeSho_keeps
  | .seCrci .. => execSeCrci_keeps
  | .seCrcf .. => execSeCrcf_keeps
  | .seOpen .. => execSeOpen_keeps
  | .seOut .. => execSeOut_keeps
  | .seCmt .. => execSeCmt_keeps
  | .sePushq .. => execSePushq_keeps
  | .seGetk .. => execSeGetk_keeps
  | .seRdc .. => execSeRdc_keeps
  | .seBwpt .. => execSeBwpt_keeps
  | .seMark .. => execSeMark_keeps
  | .seRet .. => execSeRet_keeps
  | .seLdp .. => execSeLdp_keeps
  | .sePload .. => execSePload_keeps
  | .seIrq .. => execSeIrq_keeps
  | .seStop .. => execSeStop_keeps
  | .ppOn .. => execPpOn_keeps
  | .ppOff .. => execPpOff_keeps
  | .ppCurrentSample .. => execPpCurrentSample_keeps
  | .ppWarning .. => execPpWarning_keeps
  | .ppTrip .. => execPpTrip_keeps
  | .inrushEnd .. => execInrushEnd_keeps
  | .insertion .. => execInsertion_keeps
  | .removal .. => execRemoval_keeps
  | .ppSettleEnd .. => execPpSettleEnd_keeps
  | .identityCheckDone .. => execIdentityCheckDone_keeps
  | .backoffEnd .. => execBackoffEnd_keeps
  | .holdExpiry .. => execHoldExpiry_keeps
  | .powerCycleRequest .. => execPowerCycleRequest_keeps
  | .cycleOffEnd .. => execCycleOffEnd_keeps
  | .ipeakRead .. => execIpeakRead_keeps
  | .linkTrainingDone .. => execLinkTrainingDone_keeps
  | .phySuppliesValid => execPhySuppliesValid_keeps
  | .edgeCounterEdge .. => execEdgeCounterEdge_keeps
  | .bellwetherEnd .. => execBellwetherEnd_keeps
  | .adcProofConversion .. => execAdcProofConversion_keeps
  | .nopOperation .. => execNopOperation_keeps
  | .undefinedOperation .. => execUndefinedOperation_keeps
  | .seUndefinedOperation .. => execSeUndefinedOperation_keeps
  | .ioOrLockedRequest locked => execIoOrLockedRequest_keeps (a1 := locked)

/-- A command whose footprint leaves out the clock state leaves the timebase as it is. -/
theorem keepsTb_of_footprint {s : State} {c : Instr} (h : (footprint c).contains .clk = false) : KeepsTb s (exec c s) :=
  (exec_answers c).keepsTb (by simpa using h)

end Sys2Proof.Machine
end

section
/-!
O48: the timebase is cleared by power-on reset and device reset, and is left as it is by every other command.
-/
namespace Sys2Proof.Machine

/-- A command other than the two resets leaves the timebase as it is: where it may change the clock state, by the lemma of the
command, and else by its footprint (R47). -/
theorem keepsTb_of_not_reset {s : State} {c : Instr} (hp : ∀ high, c ≠ .powerOnReset high) (hd : c ≠ .deviceReset) :
    KeepsTb s (exec c s) := by
  cases c with
  | powerOnReset high => exact absurd rfl (hp high)
  | deviceReset => exact absurd rfl hd
  | registerWrite => exact keepsTb_registerWrite
  | vddioDReleaseTimer => exact keepsTb_vddioDReleaseTimer
  | pinReset => exact keepsTb_pinReset
  | resetRelease => exact keepsTb_resetRelease
  | crystalEdgesSeen => exact keepsTb_crystalEdgesSeen
  | pllLock => exact keepsTb_pllLock
  | pllLockTimeout => exact keepsTb_pllLockTimeout
  | memoryInitDone => exact keepsTb_memoryInitDone
  | rootLoss => exact keepsTb_rootLoss
  | rootReturn => exact keepsTb_rootReturn
  | guardLoss => exact keepsTb_guardLoss
  | tbloRead => exact keepsTb_tbloRead
  | railConditionReport => exact keepsTb_railConditionReport
  | seqcmdDown => exact keepsTb_seqcmdDown
  | pgTmo => exact keepsTb_pgTmo
  | shutdownPositionAdvance => exact keepsTb_shutdownPositionAdvance
  | stepTmo => exact keepsTb_stepTmo
  | extFault => exact keepsTb_extFault
  | collapse => exact keepsTb_collapse
  | lastGaspWrite => exact keepsTb_lastGaspWrite
  | pwrcmdRun | pwrcmdTrim | pwrcmdStandby | pwrcmdOff => exact keepsTb_pwrcmd
  | clkgateWrite => exact keepsTb_clkgateWrite
  | rstcmdDevice => exact keepsTb_rstcmdDevice
  | coreResetHeld => exact keepsTb_coreResetHeld
  | setpower => exact keepsTb_setpower
  | devreset => exact keepsTb_devreset
  | memproofDone => exact keepsTb_memproofDone
  | literal => exact keepsTb_literal
  | br => exact keepsTb_br
  | bz => exact keepsTb_bz
  | bnz => exact keepsTb_bnz
  | loop => exact keepsTb_loop
  | call => exact keepsTb_call
  | dup | drop | swap | overWord | rot | nip | tuck | twoDup | twoDrop | minusRot => exact keepsTb_moveOp
  | pick => exact keepsTb_pick
  | toR => exact keepsTb_toR
  | rFrom => exact keepsTb_rFrom
  | rFetch => exact keepsTb_rFetch
  | rdrop => exact keepsTb_rdrop
  | add | sub | adc | sbc | adds | subs | neg | abs | and | or | xor | inv | onePlus | oneMinus | twoStar | twoSlash
  | shl | shr | asr | rol | min | max | clip | ext | equal | notEqual | less | greater | uLess | uGreater | zeroEqual
  | zeroLess | mul | umul | mac | msc | macz | div | udiv | ldiv | mlFetch | mhFetch | dqFetch | dmFetch | mas
  | maclr | dbrFetch | dbrStore => exact keepsTb_stackOp
  | fetch => exact keepsTb_fetch
  | store => exact keepsTb_store
  | cFetch => exact keepsTb_cFetch
  | cStore => exact keepsTb_cStore
  | twoFetch => exact keepsTb_twoFetch
  | twoStore => exact keepsTb_twoStore
  | fFetch => exact keepsTb_fFetch
  | fStore => exact keepsTb_fStore
  | f2Fetch => exact keepsTb_f2Fetch
  | f2Store => exact keepsTb_f2Store
  | plusStore => exact keepsTb_plusStore
  | xchg => exact keepsTb_xchg
  | cas => exact keepsTb_cas
  | fadd => exact keepsTb_fadd
  | fence => exact keepsTb_fence
  | dcwb => exact keepsTb_dcwb
  | dcinv => exact keepsTb_dcinv
  | icinv => exact keepsTb_icinv
  | isync => exact keepsTb_isync
  | qpush => exact keepsTb_qpush
  | qpop => exact keepsTb_qpop
  | flush => exact keepsTb_flush
  | ret => exact keepsTb_ret
  | exec => exact keepsTb_exec
  | fexec => exact keepsTb_fexec
  | jmp => exact keepsTb_jmp
  | fjmp => exact keepsTb_fjmp
  | trap => exact keepsTb_trap
  | reti => exact keepsTb_reti
  | wait => exact keepsTb_wait
  | brk => exact keepsTb_brk
  | srFetch => exact keepsTb_srFetch
  | srStore => exact keepsTb_srStore
  | tlbi => exact keepsTb_tlbi
  | tlbia => exact keepsTb_tlbia
  | storeDrain => exact keepsTb_storeDrain
  | wbusAsync => exact keepsTb_wbusAsync
  | pageWalk => exact keepsTb_pageWalk
  | interruptEntry => exact keepsTb_interruptEntry
  | coreHalt => exact keepsTb_coreHalt
  | dmaDescriptorFetch => exact keepsTb_dmaDescriptorFetch
  | dmaElement => exact keepsTb_dmaElement
  | nopOperation => exact keepsTb_nopOperation
  | undefinedOperation => exact keepsTb_undefinedOperation
  | _ => exact keepsTb_of_footprint rfl

theorem powerOnReset_clears_tb (s : State) (high : Bool) : Runs (.powerOnReset high) s fun t => t.clk.tb = 0 :=
  ⟨_, rfl, rfl⟩

theorem deviceReset_clears_tb {s : State} (h : s.clk.resetReq = true) : Runs .deviceReset s fun t => t.clk.tb = 0 :=
  ⟨s.deviceReset, congrArg Host.Outcome.next (if_pos h), rfl⟩

/-- Settles O48: a table of the commands for the first part; the two resets by evaluation. -/
theorem timebaseOnlyCleared : Obligations.TimebaseOnlyCleared := by
  unfold Obligations.TimebaseOnlyCleared
  exact ⟨fun _ t _ hp hd h => keepsTb_of_not_reset hp hd t h, powerOnReset_clears_tb, fun _ => deviceReset_clears_tb⟩

end Sys2Proof.Machine
end

section
/-!
SUPPORT. A BOOTFORCE write that is refused (R135).
-/
namespace Sys2Proof.Machine

theorem State.bootforce_of_refused {s : State} {val : Word} (h : s.outcome ≠ boHOLD_UNTESTED ∨ W.fld val 0 16 ≠ 0xF0CE) :
    s.bootforce val = s.setBit Reg.SYS_BOOTSTAT 13 true := by
  rw [State.bootforce, if_neg]
  intro hforced
  obtain ⟨hkey, hheld⟩ : W.fld val 0 16 = 0xF0CE ∧ s.outcome = boHOLD_UNTESTED := by simpa using hforced
  exact h.elim (· hheld) (· hkey)

/-- The flags of BOOTSTAT lie above its OUTCOME (Table 3-8). -/
theorem State.outcome_setBit_bootstat (s : State) {i : Nat} (v : Bool) (h : 4 ≤ i) :
    (s.setBit Reg.SYS_BOOTSTAT i v).outcome = s.outcome := by
  rw [State.outcome, State.fld, State.rd_setBit_same, W.fld_setBit_ne _ v (.inr h), State.outcome, State.fld]

theorem State.regsBut_setBit (s : State) (a i : Nat) (v : Bool) : RegsBut [a] s (s.setBit a i v) := fun _ hb =>
  s.rd_setBit_ne i v (Ne.symm (List.ne_of_not_mem_cons hb))

/-- Settles O55: a refused write only sets FORCEREJ. -/
theorem bootforceRefused : Obligations.BootforceRefused := by
  unfold Obligations.BootforceRefused
  intro s val hserved hrefused
  refine ⟨s.setBit Reg.SYS_BOOTSTAT 13 true, ?_, ?_⟩
  · show execBootforce val s = _
    rw [execBootforce, if_pos hserved, State.bootforce_of_refused hrefused, done]
  · exact ⟨s.bit_setBit_same true (by decide), s.outcome_setBit_bootstat true (by decide), s.regsBut_setBit _ 13 true,
      State.setBit_keeps⟩

end Sys2Proof.Machine
end

section
/-!
SUPPORT. The steps of a core reset against the PWM safe levels (R105, R107): a store that the core has issued and its write buffer
still holds completes in them.
-/
namespace Sys2Proof.Machine

theorem exec_coreResetHeld {s : State} {n : Fin 4} (hlive : s.live = true) (hresetting : (s.core n.val).resetting = true)
    (hquiet : s.coreQuiet n.val = true) : exec (.coreResetHeld n) s = .next (s.coreResetHeld n.val) := by
  show execCoreResetHeld n s = _
  rw [execCoreResetHeld, hlive, hresetting, hquiet]
  rfl

/-- The part in RUN with the root-derived clocks running. -/
def State.inRun : State :=
  { State.reset with clk := { State.reset.clk with phase := .run, pll := .locked } }.setFld Reg.SYS_PWRSTATE 0 3 pwrRUN

/-- A store of 1 to PWM0_SAFE by its address in bank 0x8B, with translation off (Table 6-2). -/
def storeToSafeLevel : StoreEnt := { va := 0x8B1028, pa := Reg.PWM_SAFE 0, bytes := wordBytes 1, cached := false }

/-- Tsuvo 1, started, has stored to PWM0_SAFE, and core reset is asserted before the store has drained. -/
def State.storeThenReset : State :=
  ((State.inRun.coreResetRelease 1).buffer 1 (.store storeToSafeLevel)).coreResetAssert 1

theorem State.storeThenReset_completes :
    exec (.coreResetHeld 1) State.storeThenReset = .next (State.storeThenReset.coreResetHeld 1) :=
  exec_coreResetHeld (by decide +kernel) (by decide +kernel) (by decide +kernel)

theorem State.storeThenReset_safeLevel : State.storeThenReset.rd (Reg.PWM_SAFE 0) = 0 := by decide +kernel

/-- The write buffer drains into the register as the steps end (R107, step 2). -/
theorem State.storeThenReset_safeLevel_written : (State.storeThenReset.coreResetHeld 1).rd (Reg.PWM_SAFE 0) = 1 := by
  decide +kernel

/-- Refutes O54: the clause of `coreResetHeld` fails. The steps of a core reset let the core's issued accesses complete (R107), and
a store to PWM0_SAFE among them changes the safe level; it is the program's write, not the reset, that sets it. -/
theorem not_safeLevelsReset : ¬ Obligations.SafeLevelsReset := by
  unfold Obligations.SafeLevelsReset
  rintro ⟨-, -, -, -, -, -, -, -, hheld, -⟩
  obtain ⟨t, hexec, hsame⟩ := hheld State.storeThenReset 0 1
  obtain rfl : State.storeThenReset.coreResetHeld 1 = t := Host.Outcome.next.inj (State.storeThenReset_completes.symm.trans hexec)
  have hsafe : (1 : Word) = 0 :=
    calc (1 : Word) = (State.storeThenReset.coreResetHeld 1).rd (Reg.PWM_SAFE 0) := State.storeThenReset_safeLevel_written.symm
      _ = State.storeThenReset.rd (Reg.PWM_SAFE 0) := hsame
      _ = 0 := State.storeThenReset_safeLevel
  exact absurd hsafe (by decide)

end Sys2Proof.Machine
end

section
/-!
SUPPORT. The bounds of the capture and ADC result FIFOs (R720, R522) as a property of a state: an operation whose frame has neither the
capture channels nor the ADCs keeps it, and so do the shapes of which operations are made.
-/
namespace Sys2Proof.Machine

/-- The parts of a frame are neither the capture channels nor the ADCs. A Boolean, so that `rfl` decides it of a list of parts. -/
def sparesFifos (F : List Part) : Bool := !F.contains .cap && !F.contains .adc

theorem cap_notMem_of_sparesFifos {F : List Part} (h : sparesFifos F = true) : Part.cap ∉ F := by
  simp_all [sparesFifos]

theorem adc_notMem_of_sparesFifos {F : List Part} (h : sparesFifos F = true) : Part.adc ∉ F := by
  simp_all [sparesFifos]

/-- Every capture FIFO holds at most 8 records, and every ADC result FIFO at most 16 words. -/
structure State.FifosFit (s : State) : Prop where
  cap : ∀ n, (s.cp n).fifo.length ≤ 8
  adc : ∀ n, (s.ad n).fifo.length ≤ 16

namespace State

variable {s t : State}

theorem cp_setCp (s : State) (n : Nat) (x : Cap) (m : Nat) : (s.setCp n x).cp m = if n = m then x else s.cp m :=
  tget_tset _ _ _ _ _ _ fun _ => rfl

theorem ad_setAd (s : State) (n : Nat) (x : Adc) (m : Nat) : (s.setAd n x).ad m = if n = m then x else s.ad m :=
  tget_tset _ _ _ _ _ _ fun _ => rfl

namespace FifosFit

/-- A state with the capture channels and the ADCs of another. -/
theorem beside (h : s.FifosFit) (hcap : t.cap = s.cap) (hadc : t.adc = s.adc) : t.FifosFit where
  cap n := by rw [State.cp, hcap]; exact h.cap n
  adc n := by rw [State.ad, hadc]; exact h.adc n

theorem of_empty (hcap : s.cap = []) (hadc : s.adc = []) : s.FifosFit where
  cap n := by rw [State.cp, hcap]; exact Nat.zero_le 8
  adc n := by rw [State.ad, hadc]; exact Nat.zero_le 16

theorem frame {F : List Part} (h : s.FifosFit) (k : Keeps F s t) (hF : sparesFifos F = true) : t.FifosFit :=
  h.beside (k.cap (cap_notMem_of_sparesFifos hF)) (k.adc (adc_notMem_of_sparesFifos hF))

theorem setCp {n : Nat} {x : Cap} (h : s.FifosFit) (hx : x.fifo.length ≤ 8) : (s.setCp n x).FifosFit where
  cap m := by
    rw [cp_setCp]
    split
    · exact hx
    · exact h.cap m
  adc := h.adc

theorem setAd {n : Nat} {x : Adc} (h : s.FifosFit) (hx : x.fifo.length ≤ 16) : (s.setAd n x).FifosFit where
  cap := h.cap
  adc m := by
    rw [ad_setAd]
    split
    · exact hx
    · exact h.adc m

/-- A capture channel changes beside its FIFO. -/
theorem setCp_beside {n : Nat} {x : Cap} (h : s.FifosFit) (hx : x.fifo = (s.cp n).fifo) : (s.setCp n x).FifosFit :=
  h.setCp (hx ▸ h.cap n)

/-- An ADC changes beside its FIFO. -/
theorem setAd_beside {n : Nat} {x : Adc} (h : s.FifosFit) (hx : x.fifo = (s.ad n).fifo) : (s.setAd n x).FifosFit :=
  h.setAd (hx ▸ h.adc n)

theorem ite {c : Prop} [Decidable c] (hs : s.FifosFit) (ht : t.FifosFit) : (if c then s else t).FifosFit := by
  split <;> assumption

theorem iteSnd {α : Type} {c : Prop} [Decidable c] {p q : α × State} (hp : p.2.FifosFit) (hq : q.2.FifosFit) :
    (if c then p else q).2.FifosFit := by
  split <;> assumption

theorem forN {k : Nat} {f : Nat → State → State} (h : s.FifosFit) (hf : ∀ i t, t.FifosFit → (f i t).FifosFit) :
    (forN k f s).FifosFit := by
  induction k with
  | zero => exact h
  | succ k ih => exact hf k _ ih

/-- A read that a register or a row of its own stands for. -/
theorem readBy {src : Requester} {tlp : Tlp} {a : Nat} {f : State → Reply × State} (h : s.FifosFit)
    (hf : ∀ t : State, t.FifosFit → (f t).2.FifosFit) : (s.readBy src tlp a f).FifosFit :=
  .ite (h.beside rfl rfl) (.ite ((h.frame tlpError_keeps rfl).beside rfl rfl) (.ite (h.frame ur_keeps rfl)
    (.ite ((hf s h).beside rfl rfl) (h.beside rfl rfl))))

end FifosFit
end State

/-- The state that an outcome answers, if it is a next state, has FIFOs within their bounds. -/
def NextFits (o : Host.Outcome State Fault Refusal) : Prop := ∀ t, o = .next t → t.FifosFit

theorem NextFits.next {t : State} (h : t.FifosFit) : NextFits (.next t) := fun _ e => Host.Outcome.next.inj e ▸ h

theorem NextFits.ite {c : Prop} [Decidable c] {a b : Host.Outcome State Fault Refusal} (ha : NextFits a) (hb : NextFits b) :
    NextFits (if c then a else b) := by
  split <;> assumption

/-- A command whose frame has neither the capture channels nor the ADCs. -/
theorem State.FifosFit.answers {F : List Part} {s : State} {o : Host.Outcome State Fault Refusal} (h : s.FifosFit)
    (ho : Answers F s o) (hF : sparesFifos F = true) : NextFits o := by
  obtain ⟨t, rfl, hk⟩ := ho
  exact .next (h.frame hk hF)

end Sys2Proof.Machine
end

section
/-!
SUPPORT. Chapter 10: what enters an ADC result FIFO fits (R522), and the operations on sequences, calibration and proofs leave the
FIFOs as they are.
-/
namespace Sys2Proof.Machine

namespace State.FifosFit

variable {s : State} {n : Nat}

theorem seqFire {j code : Nat} (h : s.FifosFit) : (s.seqFire n j code).FifosFit :=
  .ite h (.ite (h.frame tally_keeps rfl) (h.setAd_beside rfl))

theorem adcFire {code : Nat} (h : s.FifosFit) : (s.adcFire n code).FifosFit := .ite (h.forN fun _ _ h => h.seqFire) h

/-- A trigger code reaches the ADCs, the sigma-delta inputs and the decoders (R511). -/
theorem trigger {code : Nat} (h : s.FifosFit) : (s.trigger code).FifosFit :=
  ((h.forN fun _ _ h => h.adcFire).forN fun _ _ h => h.frame sdFire_keeps rfl).forN fun _ _ h => h.frame qdFire_keeps rfl

theorem adcSwtrig {v : Word} (h : s.FifosFit) : (s.adcSwtrig v).FifosFit := h.forN fun _ _ h => .ite h.adcFire h

theorem adcStep {j : Nat} (h : s.FifosFit) : (s.adcStep n j).FifosFit := by
  unfold State.adcStep
  extract_lets x start k late slot x' t u
  have hx : x'.fifo.length ≤ 16 := by
    unfold x'
    split <;> exact h.adc n
  have ht : t.FifosFit := by
    unfold t
    split
    · exact (h.frame wr_keeps rfl).frame wr_keeps rfl
    · exact h
  have hu : u.FifosFit := .ite ((ht.frame setBit_keeps rfl).frame tally_keeps rfl) ht
  exact hu.setAd hx

theorem adcSample (h : s.FifosFit) : (s.adcSample n).FifosFit := by
  unfold State.adcSample
  refine .ite h ?_
  split
  · exact h.setAd_beside rfl
  · exact h.adcStep
  · exact h

/-- A result that finds 16 words is discarded (R522). -/
theorem adcFifoPut {w : Word} (h : s.FifosFit) : (s.adcFifoPut n w).FifosFit := by
  unfold State.adcFifoPut
  extract_lets x
  split
  · exact (h.frame setBit_keeps rfl).frame tally_keeps rfl
  next hroom =>
    have hput : (x.fifo ++ [w]).length ≤ 16 := by
      rw [List.length_append, List.length_singleton]
      omega
    have ht := h.setAd (n := n) (x := { x with fifo := x.fifo ++ [w] }) hput
    exact .ite (ht.frame source_keeps rfl) ht

theorem adcDeliver {k code at_ : Nat} {late : Bool} (h : s.FifosFit) : (s.adcDeliver n k code late at_).FifosFit :=
  (FifosFit.ite h.adcFifoPut h).frame route_keeps rfl

theorem adcStepEnd {j : Nat} (h : s.FifosFit) : (s.adcStepEnd n j).FifosFit := by
  unfold State.adcStepEnd
  extract_lets x k t
  have ht : t.FifosFit := h.setAd_beside rfl
  exact .ite (h.setAd_beside rfl) (.ite (h.setAd_beside rfl) (.ite (ht.frame source_keeps rfl) ht))

/-- A read takes the oldest word off the FIFO, or nothing. -/
theorem adcFifoGet {same : Bool} (h : s.FifosFit) : (s.adcFifoGet n same).2.FifosFit :=
  iteSnd h (h.setAd (Nat.le_trans (List.tail_sublist _).length_le (h.adc n)))

theorem seqOff {j : Nat} (h : s.FifosFit) : (s.seqOff n j).FifosFit := h.setAd_beside rfl

theorem proofStart (h : s.FifosFit) : (s.proofStart n).FifosFit :=
  .ite h (((h.setAd_beside (by rfl)).frame setBit_keeps rfl).frame setBit_keeps rfl)

theorem adcProof {v : Word} (h : s.FifosFit) : (s.adcProof v).FifosFit :=
  .ite (.ite h (h.frame wlrej_keeps rfl)) (h.forN fun _ _ h => .ite h.proofStart h)

end State.FifosFit

variable {s : State} {n : Fin 4}

theorem nextFits_adcTrigger {j code ready} (h : s.FifosFit) : NextFits (execAdcTrigger n j code ready s) :=
  .ite (.next h) (.ite (.next ((h.setAd_beside (by rfl)).frame State.tally_keeps rfl)) (.next (h.setAd_beside rfl)))

theorem nextFits_adcConversionEnd {code} (h : s.FifosFit) : NextFits (execAdcConversionEnd n code s) := by
  unfold execAdcConversionEnd
  extract_lets x
  split
  · exact .next h
  · exact .ite (.next h) (.ite (.next (h.setAd_beside rfl)) (.next h.adcDeliver.adcStepEnd))

theorem nextFits_adcFifoRead {same tlp} (h : s.FifosFit) : NextFits (execAdcFifoRead n same tlp s) :=
  .next (h.readBy fun _ h => h.adcFifoGet)

theorem nextFits_adcCalibrationStep {aborted off gain} (h : s.FifosFit) :
    NextFits (execAdcCalibrationStep n aborted off gain s) := by
  unfold execAdcCalibrationStep
  extract_lets x cut t y
  split
  · exact .next h
  · refine .ite (.next h) ?_
    have ht : t.FifosFit := .ite h.adcSample h
    exact .ite (.next ((ht.setAd_beside (by rfl)).frame State.calEnd_keeps rfl))
      (.ite (.next ((ht.setAd_beside (by rfl)).frame State.calEnd_keeps rfl)) (.next (ht.setAd_beside rfl)))

theorem nextFits_adcProofConversion {code} (h : s.FifosFit) : NextFits (execAdcProofConversion n code s) := by
  unfold execAdcProofConversion
  extract_lets x t y tol
  split
  · exact .next h
  · refine .ite (.next h) ?_
    have ht : t.FifosFit := .ite h.adcSample h
    exact .ite (.next ((ht.setAd_beside (by rfl)).frame State.proofEnd_keeps rfl))
      (.ite (.next ((ht.setAd_beside (by rfl)).frame State.proofEnd_keeps rfl)) (.next (ht.setAd_beside rfl)))

theorem nextFits_adccal (h : s.FifosFit) : NextFits (execAdccal s) := by
  unfold execAdccal
  split
  · refine .ite (.next (h.frame State.refuse_keeps rfl)) (.ite (.next (h.frame State.refuse_keeps rfl)) (.next ?_))
    exact (h.frame State.begun_keeps rfl).forN fun i t ht => .ite ((ht.setAd_beside (by rfl)).frame State.setBit_keeps rfl) ht
  · exact .next h

end Sys2Proof.Machine
end

section
/-!
SUPPORT. Chapter 13, capture channels: a record that enters a FIFO fits (R720).
-/
namespace Sys2Proof.Machine

namespace State.FifosFit

variable {s : State} {n : Nat}

/-- A record that finds 8 records is lost (R720). -/
theorem capStore {r : CapRec} (h : s.FifosFit) : (s.capStore n r).FifosFit := by
  unfold State.capStore
  extract_lets x ws x' t
  split
  · exact ((h.setCp_beside (by rfl)).frame tally_keeps rfl).frame setBit_keeps rfl
  next hroom =>
    have hput : x'.fifo.length ≤ 8 := by
      rw [List.length_append, List.length_singleton]
      omega
    have ht : t.FifosFit := (h.setCp hput).frame setFld_keeps rfl
    exact .ite (ht.frame source_keeps rfl) ht

theorem capPaired {r : CapRec} (h : s.FifosFit) : (s.capPaired n r).FifosFit := (h.setCp_beside (by rfl)).capStore

theorem capStart {t : StepTime} {rise : Bool} (h : s.FifosFit) : (s.capStart n t rise).FifosFit := by
  unfold State.capStart
  extract_lets x u
  split
  · exact .ite h.capPaired h.capPaired
  · have hu : u.FifosFit := by
      unfold u
      split
      · exact h.capStore
      · exact h
    exact hu.setCp_beside rfl

theorem capStop {t : StepTime} {rise : Bool} (h : s.FifosFit) : (s.capStop n t rise).FifosFit := by
  unfold State.capStop
  extract_lets x u
  split
  · exact .ite h.capPaired h.capPaired
  · have hu : u.FifosFit := by
      unfold u
      split
      · exact h.capStore
      · exact h
    exact hu.setCp_beside rfl

theorem capSee {own rise : Bool} {t : StepTime} (h : s.FifosFit) : (s.capSee n own rise t).FifosFit := by
  unfold State.capSee
  extract_lets c isStart isStop t'
  have hstart : t'.FifosFit := .ite h.capStart h
  exact .ite h (.ite (.ite h.capStore h) (.ite hstart.capStop hstart))

theorem capPop (h : s.FifosFit) : (s.capPop n).FifosFit :=
  (h.setCp (Nat.le_trans (List.tail_sublist _).length_le (h.cap n))).frame setFld_keeps rfl

/-- A read of REC7 takes the oldest record off the FIFO, or nothing. -/
theorem capRead {same : Bool} (h : s.FifosFit) : (s.capRead n same).2.FifosFit := iteSnd h h.capPop

theorem capArm {v : Word} (h : s.FifosFit) : (s.capArm n v).FifosFit := .ite (h.setCp_beside rfl) h

theorem capEnable (h : s.FifosFit) : (s.capEnable n).FifosFit := h.setCp_beside rfl

end State.FifosFit

variable {s : State} {n : Fin 16}

theorem nextFits_captureEdge {rise held back} (h : s.FifosFit) : NextFits (execCaptureEdge n rise held back s) := by
  unfold execCaptureEdge
  extract_lets partner t own
  have hown : own.FifosFit := .ite h.capSee h
  exact .ite (.next (.ite hown.capSee hown)) (.next h)

theorem nextFits_captureRecordRead {same tlp} (h : s.FifosFit) : NextFits (execCaptureRecordRead n same tlp s) :=
  .next (h.readBy fun _ h => h.capRead)

end Sys2Proof.Machine
end

section
/-!
SUPPORT. Chapters 2, 3 and 13: protective transitions, resets, timers and the events of PWM modules leave the FIFOs as they
are, or empty them.
-/
namespace Sys2Proof.Machine

namespace State.FifosFit

variable {s : State} {n m : Nat}

/-! ### Protective transitions -/

/-- A command that is given up ends the calibration of the ADCs (R279). -/
theorem cmdDrop {c : Cmd} (h : s.FifosFit) : (s.cmdDrop c).FifosFit := by
  have ht := h.frame (setProofMask_keeps (a2 := 0)) rfl
  exact .ite (.ite (ht.frame portFree_keeps rfl) ht)
    (.ite (ht.forN fun _ _ h => (h.setAd_beside (by rfl)).frame setBit_keeps rfl) (.ite (ht.frame setMl_keeps rfl) ht))

theorem cmdFault (h : s.FifosFit) : s.cmdFault.FifosFit := by
  unfold State.cmdFault
  split
  · exact h.cmdDrop.frame finishHeld_keeps rfl
  · exact h

theorem protectStandby {cause : Nat} {lost : Bool} (h : s.FifosFit) : (s.protectStandby cause lost).FifosFit := by
  unfold State.protectStandby
  split
  · extract_lets _ t
    have ht : t.FifosFit := h.beside rfl rfl
    exact .ite (((ht.frame rootStops_keeps rfl).beside (by rfl) (by rfl)).frame setBit_keeps rfl) ht
  · extract_lets was t u _ v
    have ht : t.FifosFit := .ite h (h.frame endTrans_keeps rfl)
    have hu : u.FifosFit := .ite (ht.frame mbmRootLost_keeps rfl) ht
    have hv : v.FifosFit := .ite ((hu.beside (by rfl) (by rfl)).frame setPwr_keeps rfl) (ht.cmdFault.frame enterStandby_keeps rfl)
    exact .ite hv (hv.frame event_keeps rfl)

theorem faultAction {act cause : Nat} (h : s.FifosFit) : (s.faultAction act cause).FifosFit := by
  have ht := (h.frame pwmSafeAll_keeps rfl).frame (slotsProtect_keeps (a2 := some 1)) rfl
  exact .ite h (.ite ht (ht.frame startShutdown_keeps rfl).protectStandby)

theorem railReport {r c : Nat} (h : s.FifosFit) : (s.railReport r c).FifosFit := by
  unfold State.railReport
  split
  · exact ((h.frame setBit_keeps rfl).frame tally_keeps rfl).frame supEvent_keeps rfl
  · exact ((h.frame setBit_keeps rfl).frame tally_keeps rfl).frame supEvent_keeps rfl
  · exact ((((h.frame setBit_keeps rfl).frame tally_keeps rfl).frame supEvent_keeps rfl).frame faultn_keeps rfl).faultAction
  · exact ((((h.frame setBit_keeps rfl).frame tally_keeps rfl).frame supEvent_keeps rfl).frame faultn_keeps rfl).faultAction
  · have ht := h.frame (setBit_keeps (a2 := Reg.SUP_STATUS) (a3 := r) (a4 := true)) rfl
    exact .ite (ht.beside rfl rfl) ht

/-! ### Resets -/

theorem allReset {phase : Phase} : (s.allReset phase).FifosFit := .of_empty rfl rfl

theorem deviceReset : s.deviceReset.FifosFit := .of_empty rfl rfl

/-! ### Timers and PWM events -/

theorem timerExpire (h : s.FifosFit) : (s.timerExpire n).FifosFit := by
  have ht := (h.frame (setBit_keeps (a2 := Reg.TMB_STATUS) (a3 := 8 + n) (a4 := true)) rfl).frame (source_keeps (a2 := n)) rfl
  exact (FifosFit.ite (ht.frame wr_keeps rfl) ((ht.frame wr_keeps rfl).frame setBit_keeps rfl)).trigger.frame slotTrigger_keeps rfl

theorem pwmFire {k : Nat} (h : s.FifosFit) : (s.pwmFire m k).FifosFit := by
  unfold State.pwmFire
  split
  · exact h.frame source_keeps rfl
  · exact h.trigger
  · exact h.trigger
  · exact h.frame slotTrigger_keeps rfl

theorem pwmSelected {e k : Nat} (h : s.FifosFit) : (s.pwmSelected m e k).FifosFit := by
  unfold State.pwmSelected
  extract_lets pre x c t
  have ht : t.FifosFit := h.frame setPm_keeps rfl
  exact .ite h (.ite (.ite ht ht.pwmFire) (h.frame setPm_keeps rfl))

theorem pwmEvent {e : Nat} (h : s.FifosFit) : (s.pwmEvent m e).FifosFit := by
  unfold State.pwmEvent
  extract_lets so _ t _ u
  have ht : t.FifosFit := .ite (.ite (h.frame setPm_keeps rfl) h) h
  have hu : u.FifosFit := ht.frame setPm_keeps rfl
  exact hu.pwmSelected.pwmSelected.pwmSelected.pwmSelected

theorem pwmZeroEv (h : s.FifosFit) : (s.pwmZeroEv m).FifosFit :=
  ((((h.frame pwmLoads_keeps rfl).frame tripRelease_keeps rfl).frame enTake_keeps rfl).frame setPm_keeps rfl).pwmEvent

theorem pwmPeriodEv (h : s.FifosFit) : (s.pwmPeriodEv m).FifosFit := (h.frame pwmLoads_keeps rfl).pwmEvent

theorem pwmZero (h : s.FifosFit) : (s.pwmZero m).FifosFit := by
  unfold State.pwmZero
  extract_lets down t u
  have hu : u.FifosFit := (((h.frame pwmReach_keeps rfl).frame setCount_keeps rfl).frame pwmFollow_keeps rfl).pwmZeroEv
  exact (FifosFit.ite hu (hu.frame pwmReload_keeps rfl)).frame pwmEdges_keeps rfl

theorem pwmPeriod (h : s.FifosFit) : (s.pwmPeriod m).FifosFit := by
  unfold State.pwmPeriod
  extract_lets down t u
  have hu : u.FifosFit := (((h.frame pwmReach_keeps rfl).frame setCount_keeps rfl).frame pwmFollow_keeps rfl).pwmPeriodEv
  exact (FifosFit.ite (hu.frame pwmReload_keeps rfl) hu).frame pwmEdges_keeps rfl

theorem pwmMatch {ch : Nat} {down : Bool} (h : s.FifosFit) : (s.pwmMatch m ch down).FifosFit := by
  unfold State.pwmMatch
  extract_lets c f r t x e u
  have ht : t.FifosFit := (h.frame pwmReach_keeps rfl).frame setCount_keeps rfl
  have hu : u.FifosFit := .ite (ht.frame setPm_keeps rfl) (ht.frame setPm_keeps rfl)
  exact .ite h (.ite h.pwmEvent (hu.pwmEvent.frame pwmEdges_keeps rfl))

/-! ### A step on an empty queue -/

theorem timersCount {slow : Bool} (h : s.FifosFit) : (s.timersCount slow).FifosFit :=
  h.forN fun _ _ h => .ite (.ite (h.frame wr_keeps rfl) h.timerExpire) h

theorem dividers (h : s.FifosFit) : s.dividers.FifosFit := by
  unfold State.dividers
  extract_lets p _ t u v q _ w
  have ht : t.FifosFit := h.beside rfl rfl
  have hu : u.FifosFit := .ite ((ht.forN fun _ _ h => h.frame seCount_keeps rfl).frame mbmPush_keeps rfl) ht
  have hv : v.FifosFit := hu.timersCount
  have hw : w.FifosFit := hv.beside rfl rfl
  exact .ite hu (.ite (FifosFit.timersCount (hw.beside rfl rfl)) hw)

theorem coreCycle (h : s.FifosFit) : s.coreCycle.FifosFit := by
  unfold State.coreCycle
  extract_lets _ _ t u
  have ht : t.FifosFit := h.beside rfl rfl
  have hu : u.FifosFit :=
    (ht.forN fun _ _ h => (h.frame pwmAge_keeps rfl).frame pwmReached_keeps rfl).forN fun _ _ h => h.frame portAge_keeps rfl
  exact (((hu.forN fun _ _ h => (h.frame age_keeps rfl).frame chainFetch_keeps rfl).forN fun _ _ h => h.frame dmaGain_keeps rfl).forN
    fun _ _ h => h.frame mbmGain_keeps rfl).dividers

theorem idle (h : s.FifosFit) : s.idle.FifosFit := .ite h.coreCycle (.ite (h.beside rfl rfl) h)

end State.FifosFit

variable {s : State}

theorem nextFits_powerOnReset {high} : NextFits (execPowerOnReset high s) := .next (.of_empty rfl rfl)

theorem nextFits_deviceReset (h : s.FifosFit) : NextFits (execDeviceReset s) := .next (.ite .deviceReset h)

theorem nextFits_extFault (h : s.FifosFit) : NextFits (execExtFault s) := by
  unfold execExtFault
  extract_lets act _ t u
  have hlow : { s with sup := { s.sup with faultnLow := true } }.FifosFit := h.beside rfl rfl
  have hu : u.FifosFit := ((hlow.frame State.setBit_keeps rfl).frame State.faultn_keeps rfl).frame State.supEvent_keeps rfl
  exact .ite (.next hu.faultAction) (.next h)

theorem nextFits_railConditionReport {rail cond} (h : s.FifosFit) : NextFits (execRailConditionReport rail cond s) := by
  unfold execRailConditionReport
  extract_lets k c f _ put
  have hput : ∀ b, (put b).FifosFit := fun _ => h.beside rfl rfl
  exact .ite (.next h) (.ite (.next (hput true).railReport)
    (.ite (.next (.ite ((hput false).frame State.setBit_keeps rfl) (hput false))) (.next h)))

theorem nextFits_rootLoss (h : s.FifosFit) : NextFits (execRootLoss s) := by
  unfold execRootLoss
  extract_lets t _ u v w x
  have ht : t.FifosFit := h.frame State.slotsProtect_keeps rfl
  clear_value t
  have hu : u.FifosFit := ht.beside rfl rfl
  have hv : v.FifosFit := (hu.frame State.pwmSafeAll_keeps rfl).frame State.cmpBypass_keeps rfl
  have hw : w.FifosFit := ((hv.frame State.setBit_keeps rfl).frame State.setBit_keeps rfl).frame State.setBit_keeps rfl
  exact .ite (.next (h.frame State.crystalStops_keeps rfl))
    (.ite (.next ((hw.frame State.faultn_keeps rfl).frame State.clockEvent_keeps rfl).protectStandby) (.next h))

theorem nextFits_timerExpiry {n} (h : s.FifosFit) : NextFits (execTimerExpiry n s) := .next (.ite h.timerExpire h)

theorem nextFits_zero {m} (h : s.FifosFit) : NextFits (execZero m s) := .next (.ite h.pwmZero h)

theorem nextFits_period {m} (h : s.FifosFit) : NextFits (execPeriod m s) := .next (.ite h.pwmPeriod h)

theorem nextFits_immediateLoad {m} (h : s.FifosFit) : NextFits (execImmediateLoad m s) := by
  unfold execImmediateLoad
  extract_lets m t turns u
  have ht : t.FifosFit := h.forN fun _ _ h => h.frame State.pwmLoad_keeps rfl
  have hu : u.FifosFit :=
    .ite (((ht.frame State.setCount_keeps rfl).frame State.pwmFollow_keeps rfl).pwmZeroEv.frame State.pwmReload_keeps rfl)
      (.ite (((ht.frame State.setCount_keeps rfl).frame State.pwmFollow_keeps rfl).pwmPeriodEv.frame State.pwmReload_keeps rfl)
        (ht.frame State.pwmFollow_keeps rfl))
  exact .ite (.next h) (.next (hu.frame State.pwmEdges_keeps rfl))

end Sys2Proof.Machine
end

section
/-!
SUPPORT. Register accesses and bus accesses: a read can take a record or a word off a FIFO, a write leaves the FIFOs as they are.
-/
namespace Sys2Proof.Machine

/-- The state beside a value has FIFOs within their bounds. A structure, and not the property of the projection, because Lean's kernel
runs the reads of registers when it compares projections of the pairs that they give. -/
structure PairFits {α : Type} (p : α × State) : Prop where
  fits : p.2.FifosFit

theorem PairFits.ite {α : Type} {c : Prop} [Decidable c] {p q : α × State} (hp : PairFits p) (hq : PairFits q) :
    PairFits (if c then p else q) := by
  split <;> assumption

theorem State.FifosFit.of_pair {α : Type} {p : α × State} {a : α} {t : State} (e : p = (a, t)) (h : PairFits p) : t.FifosFit := by
  subst e
  exact h.fits

/-- The state that is answered beside a value, if any, has FIFOs within their bounds. -/
def OptFits {α : Type} (o : Option (α × State)) : Prop := ∀ p, o = some p → PairFits p

namespace OptFits

variable {α β : Type}

theorem none : OptFits (none : Option (α × State)) := fun _ e => nomatch e

theorem some {p : α × State} (h : PairFits p) : OptFits (some p) := fun _ e => Option.some.inj e ▸ h

theorem map {o : Option β} {f : β → α × State} (h : ∀ b, PairFits (f b)) : OptFits (o.map f) := by
  cases o with
  | none => exact .none
  | some b => exact .some (h b)

theorem ite {c : Prop} [Decidable c] {o p : Option (α × State)} (ho : OptFits o) (hp : OptFits p) :
    OptFits (if c then o else p) := by
  split <;> assumption

theorem orElse {o p : Option (α × State)} (ho : OptFits o) (hp : OptFits p) : OptFits (o <|> p) := by
  cases o
  · exact hp
  · exact ho

end OptFits

namespace State.FifosFit

variable {s t : State}

/-! ### Reads -/

theorem hookRead {src blk o} (h : s.FifosFit) : OptFits (s.hookRead src blk o) := by
  unfold State.hookRead
  split
  · exact .map fun _ => ⟨h.frame ipeak_keeps rfl⟩
  · exact .ite (.some ⟨h.frame tblo_keeps rfl⟩) (.ite (.some ⟨h⟩) .none)
  · exact .ite (.some ⟨h.frame hstatRead_keeps rfl⟩) (.map fun _ => ⟨h.frame hpopRead_keeps rfl⟩)
  · exact .map fun _ => ⟨h.frame ctxRead_keeps rfl⟩
  · exact .map fun _ => ⟨h.adcFifoGet⟩
  · exact .orElse (.map fun _ => .ite ⟨h.capRead⟩ ⟨h⟩) (.map fun _ => ⟨h⟩)
  · exact .map fun _ => ⟨h⟩
  · exact .orElse (.map fun _ => ⟨h⟩)
      (.orElse (.map fun _ => ⟨h.frame dsRxdata_keeps rfl⟩) (.map fun _ => ⟨h.frame dsRxlen_keeps rfl⟩))
  · exact .map fun _ => ⟨h⟩
  · exact .ite (.some ⟨h⟩) (.map fun _ => ⟨h.frame recIdx_keeps rfl⟩)
  · exact .map fun _ => ⟨h⟩
  · exact .none

theorem regRead {src a} (h : s.FifosFit) : (s.regRead src a).2.FifosFit := by
  unfold State.regRead
  refine iteSnd h ?_
  split
  next hread => exact (h.hookRead _ hread).fits
  · exact h

theorem wordRead {src r a} (h : s.FifosFit) : (s.wordRead src r a).2.FifosFit := by
  cases r with
  | sram => exact h.frame coRd_keeps rfl
  | mram => exact h.frame mramCheck_keeps rfl
  | kle => exact h.frame kleRead_keeps rfl
  | pool => exact iteSnd h (.ite (h.frame eccCorrected_keeps rfl) h)
  | regs =>
    rw [wordRead_regs (Eq.refl (s.regRead src a))]
    exact h.regRead
  | scratch | flash | outbound => exact h

theorem wordsRead {src r a k} (h : s.FifosFit) : (s.wordsRead src r a k).2.FifosFit := by
  induction k generalizing s a with
  | zero => exact h
  | succ k ih =>
    simp only [State.wordsRead]
    split
    · split <;> exact ih h.wordRead
    · exact h.wordRead

theorem busRead {src a size dev} (h : s.FifosFit) : (s.busRead src a size dev).2.FifosFit := by
  unfold State.busRead
  extract_lets k
  split
  next x t hread =>
    have ht : t.FifosFit := by
      refine .of_pair hread ?_
      split
      · exact .ite ⟨h.frame flashFrame_keeps rfl⟩ ⟨h⟩
      · exact .ite ⟨h.frame emit_keeps rfl⟩ ⟨h⟩
      · exact ⟨h.wordsRead⟩
      · exact ⟨h⟩
    split <;> exact ht

/-! ### Writes -/

theorem of_some {F : List Part} {o : Option State} (h : s.FifosFit) (e : o = some t) (k : OptKeeps F s o)
    (hF : sparesFifos F = true) : t.FifosFit :=
  h.frame (k t e) hF

theorem hookAdc {o v} (h : s.FifosFit) (e : s.hookAdc o v = some t) : t.FifosFit := by
  unfold State.hookAdc at e
  split at e
  · cases e
    exact h.adcSwtrig
  · split at e
    · cases e
      exact h.adcProof
    · cases e

theorem hookCap {o v} (h : s.FifosFit) (e : s.hookCap o v = some t) : t.FifosFit := by
  obtain ⟨n, -, rfl⟩ := Option.map_eq_some_iff.mp e
  exact h.capArm

theorem hookWrite {src blk o v} (h : s.FifosFit) (e : s.hookWrite src blk o v = some t) : t.FifosFit := by
  unfold State.hookWrite at e
  split at e
  · exact h.of_some e hookSys_keeps rfl
  · exact h.of_some e hookSup_keeps rfl
  · exact h.of_some e hookPpw_keeps rfl
  · exact h.of_some e hookIcu_keeps rfl
  · exact h.of_some e hookXlt_keeps rfl
  · exact h.of_some e hookPool_keeps rfl
  · exact h.of_some e hookKle_keeps rfl
  · exact h.hookAdc e
  · exact h.of_some e hookSdf_keeps rfl
  · exact h.of_some e hookCmp_keeps rfl
  · exact h.of_some e hookPwm_keeps rfl
  · exact h.hookCap e
  · exact h.of_some e hookMbm_keeps rfl
  · exact h.of_some e hookTw_keeps rfl
  · exact h.of_some e hookDs_keeps rfl
  · exact h.of_some e hookSe_keeps rfl
  · exact h.of_some e hookHif_keeps rfl
  · exact h.of_some e hookDbg_keeps rfl
  · cases e

theorem afterWrite {blk o old} (h : s.FifosFit) : (s.afterWrite blk o old).FifosFit := by
  unfold State.afterWrite
  extract_lets on
  have hon : ∀ k f r, (∀ n, (f n).FifosFit) → r.FifosFit → (on k f r).FifosFit := by
    intro k f r hf hr
    cases k with
    | none => exact hr
    | some n => exact hf n
  split
  · exact .ite (h.frame faultn_keeps rfl) h
  · exact hon _ _ _ (fun _ => .ite (h.frame wr_keeps rfl) h) h
  · exact .ite (h.frame mirCheck_keeps rfl) h
  · exact hon _ _ _ (fun _ => .ite h.seqOff h) h
  · refine hon _ _ _ (fun n => ?_) h
    have ht := h.frame (sdCheck_keeps (a2 := n)) rfl
    exact .ite (ht.frame setSd_keeps rfl) ht
  · refine hon _ _ _ (fun n => ?_) h
    extract_lets t
    have ht : t.FifosFit := .ite h (h.frame cmpBlank_keeps rfl)
    exact .ite (ht.frame cmpOff_keeps rfl) ht
  · exact hon _ _ _ (fun _ => .ite (h.frame pwmResume_keeps rfl) h)
      (hon _ _ _ (fun _ => h.frame pwmShadow_keeps rfl) (hon _ _ _ (fun _ => h.frame pwmShadow_keeps rfl)
      (hon _ _ _ (fun _ => h.frame pwmShadow_keeps rfl) (hon _ _ _ (fun _ => h.frame pwmPreReset_keeps rfl)
      (hon _ _ _ (fun _ => .ite (h.frame diagEnable_keeps rfl) h) h)))))
  · exact hon _ _ _ (fun _ => .ite h.capEnable h) (hon _ _ _ (fun _ => .ite (h.frame qdEnable_keeps rfl) h) h)
  · exact hon _ _ _ (fun _ => h.frame dsCheck_keeps rfl) h
  · exact h

theorem plainWrite {coin r a v} (h : s.FifosFit) : (s.plainWrite coin r a v).FifosFit := by
  unfold State.plainWrite
  extract_lets blk o old t
  split
  · have ht : t.FifosFit := (h.frame wr_keeps rfl).afterWrite
    refine .ite (h.frame wlrej_keeps rfl) ?_
    split
    · exact .ite (h.frame wlrej_keeps rfl) ht
    · exact ht
  · exact h.frame wr_keeps rfl

theorem regWriteC {coin src a v} (h : s.FifosFit) : (s.regWriteC coin src a v).FifosFit := by
  unfold State.regWriteC
  refine .ite h ?_
  split
  next e => exact h.hookWrite e
  next =>
    split
    · refine .ite ?_ h.plainWrite
      split
      · exact h.plainWrite.frame withEdges_keeps rfl
      · exact h.plainWrite
    · exact h

theorem regWrite {src a v} (h : s.FifosFit) : (s.regWrite src a v).FifosFit := h.regWriteC

theorem wordWrite {src a bs} (h : s.FifosFit) : (s.wordWrite src a bs).2.FifosFit := by
  unfold State.wordWrite
  dsimp only
  split
  · exact h.frame coWr_keeps rfl
  · exact h.frame mramWrite_keeps rfl
  · exact h.frame kleWrite_keeps rfl
  · exact h.frame rawViewWrite_keeps rfl
  · exact h.frame wrBytes_keeps rfl
  · exact .ite h.regWrite h
  · exact h.frame outboundWrite_keeps rfl
  · exact h

theorem busWriteN {src a bs k} (h : s.FifosFit) : (s.busWriteN src a bs k).2.FifosFit := by
  induction k generalizing s a bs with
  | zero => exact h
  | succ k ih =>
    have ht := h.wordWrite (src := src) (a := a) (bs := bs.take 4)
    simp only [State.busWriteN]
    split
    · exact ih ht
    · exact ht

theorem busWrite {src a bs} (h : s.FifosFit) : (s.busWrite src a bs).2.FifosFit := h.busWriteN

theorem hostWrite {coin o v be tlp} (h : s.FifosFit) : (s.hostWrite coin o v be tlp).FifosFit := by
  unfold State.hostWrite
  refine .ite h (.ite (h.frame tlpError_keeps rfl) (.ite (h.frame urWrite_keeps rfl) (.ite (h.frame setBit_keeps rfl) ?_)))
  split
  · exact h
  · refine .ite ?_ h.regWriteC
    split
    next e => exact h.hookWrite e
    next =>
      split
      · exact h.plainWrite
      · exact h

end State.FifosFit

theorem nextFits_registerWrite {s : State} {src addr val be tlp coin} (h : s.FifosFit) :
    NextFits (execRegisterWrite src addr val be tlp coin s) := by
  unfold execRegisterWrite
  split
  · exact .next h.hostWrite
  · exact .next (.ite h.regWriteC h)

end Sys2Proof.Machine
end

section
/-!
SUPPORT. The operations of the Tsuvo cores keep the bounds of the FIFOs: what they do to them is what their bus accesses do.
-/
namespace Sys2Proof.Machine

/-- The state in which a piece of an operation ends, with or without an exception, has FIFOs within their bounds. -/
structure ResFits {α : Type} (r : Res α) : Prop where
  fits : r.state.FifosFit

namespace ResFits

variable {α β : Type} {r q : Res α} {t : State} {a : α} {e : Exc}

theorem ok (h : t.FifosFit) : ResFits (.ok a t) := ⟨h⟩

theorem exc (h : t.FifosFit) : ResFits (.exc e t : Res α) := ⟨h⟩

theorem ite {c : Prop} [Decidable c] (hr : ResFits r) (hq : ResFits q) : ResFits (if c then r else q) := by
  split <;> assumption

theorem bind {f : α → State → Res β} (h : ResFits r) (hf : ∀ a t, t.FifosFit → ResFits (f a t)) : ResFits (r.bind f) := by
  cases r with
  | ok a t => exact hf a t h.fits
  | exc e t => exact .exc h.fits

end ResFits

namespace State.FifosFit

variable {s t : State} {n : Nat}

/-- A piece of an operation whose frame has neither the capture channels nor the ADCs. -/
theorem piece {α : Type} {F : List Part} {r : Res α} (h : s.FifosFit) (k : ResKeeps F s r)
    (hF : sparesFifos F = true) : ResFits r := by
  cases r <;> exact ⟨h.frame k hF⟩

theorem of_ok {α : Type} {r : Res α} {a : α} (e : r = .ok a t) (h : ResFits r) : t.FifosFit := by
  subst e
  exact h.fits

theorem of_exc {α : Type} {r : Res α} {x : Exc} (e : r = .exc x t) (h : ResFits r) : t.FifosFit := by
  subst e
  exact h.fits

/-! ### The write buffer, loads and stores -/

theorem storeNow {e} (h : s.FifosFit) : PairFits (s.storeNow n e) := by
  unfold State.storeNow
  split
  · exact ⟨h.frame lineStore_keeps rfl⟩
  · exact ⟨h.busWrite⟩

theorem drainEnt {e} (h : s.FifosFit) : (s.drainEnt n e).FifosFit := by
  cases e with
  | store e =>
    have ht := (h.storeNow (n := n) (e := e)).fits
    exact .ite ht (ht.frame storeFailed_keeps rfl)
  | push w => exact h.frame enterFifo_keeps rfl

theorem drainOne (h : s.FifosFit) : (s.drainOne n).FifosFit := by
  unfold State.drainOne
  split
  · exact h
  · exact (h.frame setCore_keeps rfl).drainEnt

theorem drainAll (h : s.FifosFit) : (s.drainAll n).FifosFit := h.drainOne.drainOne.drainOne.drainOne

theorem drainFor {a} (h : s.FifosFit) : (s.drainFor n a).FifosFit := .ite h.drainAll h

theorem buffer {e} (h : s.FifosFit) : (s.buffer n e).FifosFit := (FifosFit.ite h.drainOne h).frame setCore_keeps rfl

theorem readAt {va x size dev} (h : s.FifosFit) : ResFits (s.readAt n va x size dev) := by
  unfold State.readAt
  split
  · have ht := (h.drainFor (n := n) (a := x.pa)).frame (holdLine_keeps (a2 := n) (a3 := x.pa / 32)) rfl
    exact .ite (.exc ht) (.ok ht)
  · extract_lets t
    have ht : t.FifosFit := .ite h.drainAll h.drainFor
    split
    next r u hread =>
      have hu := FifosFit.of_pair hread ⟨ht.busRead⟩
      split
      · exact .ok hu
      · exact .exc hu
      · exact .exc hu

theorem load {va size dev} (h : s.FifosFit) : ResFits (s.load n va size dev) :=
  .ite (.exc h) ((h.piece xlate_keeps rfl).bind fun _ _ h => h.readAt.bind fun _ _ h => .ok (h.frame watch_keeps rfl))

theorem store {va bytes} (h : s.FifosFit) : ResFits (s.store n va bytes) :=
  .ite (.exc h) ((h.piece xlate_keeps rfl).bind fun _ _ h => .ok (h.buffer.frame watch_keeps rfl))

theorem atomic {op va v cmp} (h : s.FifosFit) : ResFits (s.atomic n op va v cmp) := by
  refine .ite (.exc h) ((h.piece xlate_keeps rfl).bind fun x t h => .ite (.exc h) ?_)
  split
  next o u hatm =>
    have hu := FifosFit.of_pair hatm ⟨(h.drainAll.frame atHome_keeps rfl).frame doAtm_keeps rfl⟩
    split
    · exact .ok ((hu.frame watch_keeps rfl).frame watch_keeps rfl)
    · exact .exc hu

/-! ### The stacks -/

theorem await {pending} (h : s.FifosFit) : (s.await n pending).FifosFit := h.frame await_keeps rfl

theorem spillWords {bank off bss} (h : s.FifosFit) : ResFits (s.spillWords n bank off bss) := by
  induction bss generalizing s off with
  | nil => exact .ok h
  | cons bs bss ih =>
    refine (h.piece xlate_keeps rfl).bind fun x t h => ?_
    split
    next r u hstore =>
      have hu := FifosFit.of_pair hstore h.storeNow
      exact .ite (ih hu) (.exc hu)

theorem fillWords {bank off w k} (h : s.FifosFit) : ResFits (s.fillWords n bank off w k) := by
  induction k generalizing s off with
  | zero => exact .ok h
  | succ k ih =>
    refine (h.piece xlate_keeps rfl).bind fun x t h => ?_
    split
    next dev u houtside =>
      have hu := FifosFit.of_pair houtside ⟨h.frame outsideAnswer_keeps rfl⟩
      exact hu.readAt.bind fun _ _ h => (ih h).bind fun _ _ h => .ok h

theorem spillD {k} (h : s.FifosFit) : ResFits (s.spillD n k) :=
  .ite (.exc h) (h.await.drainAll.spillWords.bind fun _ _ h => .ok ((h.frame setCore_keeps rfl).frame age_keeps rfl))

theorem fillD (h : s.FifosFit) : ResFits (s.fillD n) :=
  h.drainAll.fillWords.bind fun _ _ h => .ok ((h.frame setCore_keeps rfl).frame age_keeps rfl)

theorem needD {k} (h : s.FifosFit) : ResFits (s.needD n k) :=
  .ite (.ok h) (.ite (.exc h) (h.fillD.bind fun _ _ h => .ite (.ok h) h.fillD))

theorem roomD {k r} (h : s.FifosFit) : ResFits (s.roomD n k r) := .ite h.spillD (.ok h)

theorem spillR {k} (h : s.FifosFit) : ResFits (s.spillR n k) :=
  .ite (h.piece spillE_keeps rfl)
    (.ite (.exc h) (h.drainAll.spillWords.bind fun _ _ h => .ok ((h.frame setCore_keeps rfl).frame age_keeps rfl)))

theorem fillR (h : s.FifosFit) : ResFits (s.fillR n) := by
  unfold State.fillR
  extract_lets c room k a es t u k'
  have ht : t.FifosFit := (h.frame setCore_keeps rfl).frame setFld_keeps rfl
  have hu : u.FifosFit := .ite (ht.frame setBit_keeps rfl) ht
  exact .ite (.ok (hu.frame age_keeps rfl))
    (h.drainAll.fillWords.bind fun _ _ h => .ok ((h.frame setCore_keeps rfl).frame age_keeps rfl))

theorem needR {k} (h : s.FifosFit) : ResFits (s.needR n k) :=
  .ite (.ok h) (.ite (.exc h) (h.fillR.bind fun _ _ h => .ite (.ok h) h.fillR))

theorem pushR {e} (h : s.FifosFit) : ResFits (s.pushR n e) :=
  (ResFits.ite h.spillR (.ok h)).bind fun _ _ h => .ok (h.frame setCore_keeps rfl)

theorem flushD {k} (h : s.FifosFit) : ResFits (s.flushD n k) := by
  induction k generalizing s with
  | zero => exact .ok h
  | succ k ih => exact .ite (.ok h) (h.spillD.bind fun _ _ h => ih h)

theorem flushR {k} (h : s.FifosFit) : ResFits (s.flushR n k) := by
  induction k generalizing s with
  | zero => exact .ok h
  | succ k ih => exact .ite (.ok h) (h.spillR.bind fun _ _ h => ih h)

/-! ### Exceptions, interrupts and core reset -/

theorem coreReset (h : s.FifosFit) : (s.coreReset n).FifosFit :=
  ((((h.drainAll.frame cacheClean_keeps rfl).frame icuReset_keeps rfl).frame poolCoreReset_keeps rfl).frame
    setCore_keeps rfl).frame setBit_keeps rfl

theorem coreResetHeld (h : s.FifosFit) : (s.coreResetHeld n).FifosFit :=
  .ite (h.coreReset.frame setBit_keeps rfl) (h.coreReset.frame coreStart_keeps rfl)

theorem pushFrame (h : s.FifosFit) : ResFits (s.pushFrame n) := h.pushR.bind fun _ _ h => h.pushR

theorem entryFault {e} (h : s.FifosFit) : (s.entryFault n e).FifosFit := by
  unfold State.entryFault
  extract_lets t
  have ht : t.FifosFit := (h.frame setBit_keeps rfl).frame wr_keeps rfl
  split
  next hpush =>
    have hu := FifosFit.of_ok hpush ht.pushFrame
    exact (((hu.frame vectorTo_keeps rfl).frame setCause_keeps rfl).frame setFa_keeps rfl).frame age_keeps rfl
  next hpush => exact (FifosFit.of_exc hpush ht.pushFrame).frame doubleFault_keeps rfl

theorem enter {f} (h : s.FifosFit) (hf : ∀ t : State, t.FifosFit → (f t).FifosFit) : (s.enter n f).FifosFit := by
  unfold State.enter
  extract_lets pre
  split
  next hpush => exact (hf _ (.of_ok hpush h.pushFrame)).frame age_keeps rfl
  next hpush =>
    have ht := FifosFit.of_exc hpush h.pushFrame
    exact .ite (ht.frame doubleFault_keeps rfl) (ht.frame setCore_keeps rfl).entryFault

theorem takeExc {e} (h : s.FifosFit) : (s.takeExc n e).FifosFit := by
  refine .ite (h.frame doubleFault_keeps rfl) (h.enter fun t h => ?_)
  have ht := (h.frame (vectorTo_keeps (a2 := n) (a3 := e.cause)) rfl).frame (setCause_keeps (a2 := n) (a3 := e.cause)) rfl
  exact (FifosFit.ite (ht.frame wr_keeps rfl) ht).frame setFa_keeps rfl

theorem enterAsync (h : s.FifosFit) : (s.enterAsync n).FifosFit := by
  unfold State.enterAsync
  split
  · exact (h.frame setCore_keeps rfl).takeExc
  · exact h

theorem takeIrq {i late} (h : s.FifosFit) : (s.takeIrq n i late).FifosFit := by
  unfold State.takeIrq
  extract_lets t pad
  have ht : t.FifosFit := h.frame setCore_keeps rfl
  refine (ht.enter fun u h => ?_).frame chainFetch_keeps rfl
  extract_lets cfg v _ w x
  have hw : w.FifosFit := (((h.frame vectorTo_keeps rfl).frame unpend_keeps rfl).frame setCore_keeps rfl).frame showActive_keeps rfl
  exact (FifosFit.ite (hw.frame age_keeps rfl) hw).frame clLate_keeps rfl

theorem opExc {pre stands e} (h : s.FifosFit) : (s.opExc n pre stands e).FifosFit :=
  .ite (h.frame undo_keeps rfl).enterAsync (FifosFit.ite h (h.frame undo_keeps rfl)).takeExc

/-! ### Issue -/

/-- An operation that issues: its fetch check, its body, its exceptions and the end of its step. -/
theorem issue {word cyc body} (h : s.FifosFit) (hbody : ∀ t : State, t.FifosFit → ResFits (body t)) :
    (s.issue n word cyc body).FifosFit := by
  unfold State.issue
  refine .ite h (.ite h.enterAsync ?_)
  extract_lets _ t
  have ht : t.FifosFit := h.frame setCore_keeps rfl
  have hres := (ht.piece (fetchCheck_keeps (a2 := n)) rfl).bind fun _ t h => hbody t h
  split
  next f u hu =>
    extract_lets v w
    have hv : v.FifosFit := (FifosFit.of_ok hu hres).frame setCore_keeps rfl
    have hw : w.FifosFit := by
      unfold w
      split
      · exact hv.opExc
      · exact hv
    exact (hw.frame setCore_keeps rfl).frame chainFetch_keeps rfl
  next e u hu => exact ((FifosFit.of_exc hu hres).opExc.frame setCore_keeps rfl).frame chainFetch_keeps rfl

theorem takeD {k r reads f} (h : s.FifosFit) (hf : ∀ xs ms t, t.FifosFit → ResFits (f xs ms t)) :
    ResFits (s.takeD n k r reads f) :=
  h.needD.bind fun _ _ h => h.await.roomD.bind fun _ _ h => hf _ _ _ (h.frame setCore_keeps rfl)

theorem popD {k r f} (h : s.FifosFit) (hf : ∀ xs t, t.FifosFit → ResFits (f xs t)) : ResFits (s.popD n k r f) :=
  h.takeD fun xs _ => hf xs

/-- An operation that takes its operands off the data stack. -/
theorem issue_popD {word cyc k r f} (h : s.FifosFit) (hf : ∀ xs t, t.FifosFit → ResFits (f xs t)) :
    (s.issue n word cyc fun t => t.popD n k r f).FifosFit := h.issue fun _ h => h.popD hf

theorem moveOp {k ix} (h : s.FifosFit) : (s.moveOp n k ix).FifosFit :=
  h.issue fun _ h => h.takeD fun _ _ _ h => .ok (h.frame pushM_keeps rfl)

theorem stackOp {cyc k r f} (h : s.FifosFit) : (s.stackOp n cyc k r f).FifosFit :=
  h.issue_popD fun _ _ h => .ok ((h.frame setCore_keeps rfl).frame pushD_keeps rfl)

theorem taken {off} (h : s.FifosFit) : ResFits (s.taken n off) := .ok (h.frame age_keeps rfl)

theorem fromR {k} (h : s.FifosFit) : ResFits (s.fromR n k) :=
  h.needR.bind fun _ _ h => h.roomD.bind fun _ _ h => .ok ((h.frame setCore_keeps rfl).frame pushD_keeps rfl)

theorem loadHalf {va dev} (h : s.FifosFit) : ResFits (s.loadHalf n va dev) :=
  h.load.bind fun _ _ h => .ok (h.frame pushLate_keeps rfl)

theorem loadPair {va dev} (h : s.FifosFit) : ResFits (s.loadPair n va dev) :=
  h.load.bind fun _ _ h => .ok (h.frame pushLate_keeps rfl)

theorem storeOp {va bs} (h : s.FifosFit) : ResFits (s.storeOp n va bs) := h.store.bind fun _ _ h => .ok h

theorem atomicOp {op va v cmp} (h : s.FifosFit) :
    ResFits ((s.atomic n op va v cmp).bind fun o t => .ok Flow.next (t.pushLate n [o])) :=
  h.atomic.bind fun _ _ h => .ok (h.frame pushLate_keeps rfl)

theorem cacheOp {f} (h : s.FifosFit) (hf : ∀ (t : State) l, t.FifosFit → (f t l).FifosFit) : ResFits (s.cacheOp n f) := by
  refine h.popD fun _ _ h => (h.piece cacheXl_keeps rfl).bind fun x _ h => ?_
  cases x with
  | none => exact .ok h
  | some x => exact .ok (hf _ _ h.drainAll)

theorem offer {w} (h : s.FifosFit) : PairFits (s.offer n w) := by
  have ht := h.frame (pushFull_keeps (a2 := n)) rfl
  exact .ite ⟨ht.frame tally_keeps rfl⟩ ⟨ht.buffer⟩

theorem goTo {bank a call} (h : s.FifosFit) : ResFits (s.goTo n bank a call) :=
  .ite (.exc h) (.ite (h.pushR.bind fun _ _ h => .ok h) (.ok h))

theorem reti {late} (h : s.FifosFit) : ResFits (s.reti n late) := by
  refine h.needR.bind fun _ t h => ?_
  dsimp only
  split
  · exact .ok (((((h.frame setCore_keeps rfl).frame unpend_keeps rfl).frame showActive_keeps rfl).frame
      clLate_keeps rfl).frame age_keeps rfl)
  · exact .ok (((h.frame setCore_keeps rfl).frame showActive_keeps rfl).frame age_keeps rfl)

end State.FifosFit

end Sys2Proof.Machine
end

section
/-!
SUPPORT. The commands of the Tsuvo cores keep the bounds of the FIFOs.
-/
namespace Sys2Proof.Machine

variable {s : State} {n : Fin 4}

/-! ### Words and the stacks -/

theorem nextFits_literal {v} (h : s.FifosFit) : NextFits (execLiteral n v s) :=
  .next (h.issue fun _ h => h.roomD.bind fun _ _ h => .ok (h.frame State.pushD_keeps rfl))

theorem nextFits_br {off} (h : s.FifosFit) : NextFits (execBr n off s) := .next (h.issue fun _ h => h.taken)

theorem nextFits_bz {off} (h : s.FifosFit) : NextFits (execBz n off s) :=
  .next (h.issue_popD fun _ _ h => .ite h.taken (.ok h))

theorem nextFits_bnz {off} (h : s.FifosFit) : NextFits (execBnz n off s) :=
  .next (h.issue_popD fun _ _ h => .ite (.ok h) h.taken)

theorem nextFits_loop {off} (h : s.FifosFit) : NextFits (execLoop n off s) :=
  .next (h.issue fun _ h => h.needR.bind fun _ _ h =>
    .ite (.ok (h.frame State.setCore_keeps rfl)) (h.frame State.setCore_keeps rfl).taken)

theorem nextFits_call {target} (h : s.FifosFit) : NextFits (execCall n target s) :=
  .next (h.issue fun _ h => h.pushR.bind fun _ _ h => .ok h)

theorem nextFits_nopOperation (h : s.FifosFit) : NextFits (execNopOperation n s) := .next (h.issue fun _ h => .ok h)

theorem nextFits_moveOp {k ix} (h : s.FifosFit) : NextFits (done (s.moveOp n k ix)) := .next h.moveOp

theorem nextFits_stackOp {cyc k r f} (h : s.FifosFit) : NextFits (done (s.stackOp n cyc k r f)) := .next h.stackOp

theorem nextFits_pick (h : s.FifosFit) : NextFits (execPick n s) := by
  refine .next (h.issue fun _ h => h.needD.bind fun _ t h => .ite (.exc h.await) (h.await.needD.bind fun _ _ h => ?_))
  exact .ok ((h.frame State.setCore_keeps rfl).frame State.pushM_keeps rfl)

theorem nextFits_toR (h : s.FifosFit) : NextFits (execToR n s) :=
  .next (h.issue_popD fun _ _ h => h.pushR.bind fun _ _ h => .ok h)

theorem nextFits_rFrom (h : s.FifosFit) : NextFits (execRFrom n s) := .next (h.issue fun _ h => h.fromR)

theorem nextFits_rFetch (h : s.FifosFit) : NextFits (execRFetch n s) := .next (h.issue fun _ h => h.fromR)

theorem nextFits_rdrop (h : s.FifosFit) : NextFits (execRdrop n s) :=
  .next (h.issue fun _ h => h.needR.bind fun _ _ h => .ok (h.frame State.setCore_keeps rfl))

theorem nextFits_flush (h : s.FifosFit) : NextFits (execFlush n s) :=
  .next (h.issue fun _ h => h.flushD.bind fun _ _ h => h.flushR.bind fun _ _ h => .ok h)

/-! ### Loads, stores and atomics -/

theorem nextFits_fetch {dev} (h : s.FifosFit) : NextFits (execFetch n dev s) := .next (h.issue_popD fun _ _ h => h.loadHalf)

theorem nextFits_store (h : s.FifosFit) : NextFits (execStore n s) := .next (h.issue_popD fun _ _ h => h.storeOp)

theorem nextFits_cFetch {dev} (h : s.FifosFit) : NextFits (execCFetch n dev s) :=
  .next (h.issue_popD fun _ _ h => h.load.bind fun _ _ h => .ok (h.frame State.pushLate_keeps rfl))

theorem nextFits_cStore (h : s.FifosFit) : NextFits (execCStore n s) := .next (h.issue_popD fun _ _ h => h.storeOp)

theorem nextFits_twoFetch {dev} (h : s.FifosFit) : NextFits (execTwoFetch n dev s) :=
  .next (h.issue_popD fun _ _ h => h.loadPair)

theorem nextFits_twoStore (h : s.FifosFit) : NextFits (execTwoStore n s) := .next (h.issue_popD fun _ _ h => h.storeOp)

theorem nextFits_fFetch {dev} (h : s.FifosFit) : NextFits (execFFetch n dev s) := .next (h.issue_popD fun _ _ h => h.loadHalf)

theorem nextFits_fStore (h : s.FifosFit) : NextFits (execFStore n s) := .next (h.issue_popD fun _ _ h => h.storeOp)

theorem nextFits_f2Fetch {dev} (h : s.FifosFit) : NextFits (execF2Fetch n dev s) :=
  .next (h.issue_popD fun _ _ h => h.loadPair)

theorem nextFits_f2Store (h : s.FifosFit) : NextFits (execF2Store n s) := .next (h.issue_popD fun _ _ h => h.storeOp)

theorem nextFits_plusStore {dev} (h : s.FifosFit) : NextFits (execPlusStore n dev s) :=
  .next (h.issue_popD fun _ _ h => h.load.bind fun _ _ h => h.storeOp)

theorem nextFits_xchg (h : s.FifosFit) : NextFits (execXchg n s) := .next (h.issue_popD fun _ _ h => h.atomicOp)

theorem nextFits_cas (h : s.FifosFit) : NextFits (execCas n s) := .next (h.issue_popD fun _ _ h => h.atomicOp)

theorem nextFits_fadd (h : s.FifosFit) : NextFits (execFadd n s) := .next (h.issue_popD fun _ _ h => h.atomicOp)

/-! ### Fences, caches and the doorbell queues -/

theorem nextFits_fence (h : s.FifosFit) : NextFits (execFence n s) :=
  .next (h.issue fun _ h => .ok (.ite h.drainAll (h.drainAll.frame State.setCore_keeps rfl)))

theorem nextFits_dcwb (h : s.FifosFit) : NextFits (execDcwb n s) :=
  .next (h.issue fun _ h => h.cacheOp fun _ _ h => h.frame State.backLine_keeps rfl)

theorem nextFits_dcinv (h : s.FifosFit) : NextFits (execDcinv n s) :=
  .next (h.issue fun _ h => .ite (h.cacheOp fun _ _ h => h.frame State.setLine_keeps rfl) (.exc h))

theorem nextFits_icinv (h : s.FifosFit) : NextFits (execIcinv n s) :=
  .next (h.issue fun _ h => h.cacheOp fun _ _ h => h.frame State.setCore_keeps rfl)

theorem nextFits_isync (h : s.FifosFit) : NextFits (execIsync n s) :=
  .next (h.issue fun _ h => .ok (h.frame State.setCore_keeps rfl))

theorem nextFits_qpush (h : s.FifosFit) : NextFits (execQpush n s) :=
  .next (h.issue_popD fun _ _ h => .ite (.exc h) (.ok (h.offer.fits.frame State.pushD_keeps rfl)))

theorem nextFits_qpop (h : s.FifosFit) : NextFits (execQpop n s) :=
  .next (h.issue_popD fun _ _ h =>
    .ite (.exc h) (.ok ((h.drainAll.frame State.popRequest_keeps rfl).frame State.setCore_keeps rfl)))

theorem nextFits_storeDrain (h : s.FifosFit) : NextFits (execStoreDrain n s) := .next (.ite h.drainOne h)

/-! ### Transfers and traps -/

theorem nextFits_ret (h : s.FifosFit) : NextFits (execRet n s) :=
  .next (h.issue fun _ h => h.needR.bind fun _ _ h => .ok (h.frame State.setCore_keeps rfl))

theorem nextFits_execWord (h : s.FifosFit) : NextFits (execExec n s) := .next (h.issue_popD fun _ _ h => h.goTo)

theorem nextFits_fexec (h : s.FifosFit) : NextFits (execFexec n s) := .next (h.issue_popD fun _ _ h => h.goTo)

theorem nextFits_jmp (h : s.FifosFit) : NextFits (execJmp n s) := .next (h.issue_popD fun _ _ h => h.goTo)

theorem nextFits_fjmp (h : s.FifosFit) : NextFits (execFjmp n s) := .next (h.issue_popD fun _ _ h => h.goTo)

theorem nextFits_trap (h : s.FifosFit) : NextFits (execTrap n s) :=
  .next (h.issue_popD fun _ _ h => .ite (.exc h) (.ok h))

theorem nextFits_reti {late} (h : s.FifosFit) : NextFits (execReti n late s) :=
  .next (h.issue fun _ h => .ite h.reti (.exc h))

theorem nextFits_wait (h : s.FifosFit) : NextFits (execWait n s) :=
  .next (h.issue fun _ h => .ite (.ok (h.frame State.setCore_keeps rfl)) (.exc h))

theorem nextFits_brk (h : s.FifosFit) : NextFits (execBrk n s) :=
  .next (h.issue fun _ h => .ite (.ok (h.frame State.setCore_keeps rfl)) (.ok h))

theorem nextFits_undefinedOperation {code} (h : s.FifosFit) : NextFits (execUndefinedOperation n code s) :=
  .next (.ite h (h.issue fun _ h => .exc h))

/-! ### Special registers, the TLB and walks -/

theorem nextFits_srFetch (h : s.FifosFit) : NextFits (execSrFetch n s) := by
  refine .next (h.issue_popD fun _ _ h => ?_)
  split
  · exact .ok (h.frame State.pushD_keeps rfl)
  · exact .exc h

theorem nextFits_srStore (h : s.FifosFit) : NextFits (execSrStore n s) := by
  refine .next (h.issue_popD fun _ _ h => ?_)
  dsimp only
  split
  · exact .exc h
  · exact .ite (.exc h) (.ok (h.frame State.setCore_keeps rfl))

theorem nextFits_tlbi (h : s.FifosFit) : NextFits (execTlbi n s) :=
  .next (h.issue fun _ h => .ite (.exc h) (h.popD fun _ _ h => .ok (h.frame State.setCore_keeps rfl)))

theorem nextFits_tlbia (h : s.FifosFit) : NextFits (execTlbia n s) :=
  .next (h.issue fun _ h => .ite (.ok (h.frame State.setCore_keeps rfl)) (.exc h))

theorem nextFits_pageWalk {va kind} (h : s.FifosFit) : NextFits (execPageWalk n va kind s) := by
  unfold execPageWalk
  extract_lets k c hit
  refine .ite (.ite (.next h.enterAsync) ?_) (.next h)
  have hx := h.piece (State.xlate_keeps (a2 := n) (a3 := va.toNat) (a4 := k)) rfl
  split
  next e => exact .next (.of_ok e hx)
  next e => exact .next ((State.FifosFit.of_exc e hx).takeExc.frame State.setCore_keeps rfl)

/-! ### Core reset, interrupts and halts -/

theorem nextFits_wbusAsync (h : s.FifosFit) : NextFits (execWbusAsync n s) := .next (.ite h.enterAsync h)

theorem nextFits_coreResetHeld (h : s.FifosFit) : NextFits (execCoreResetHeld n s) := .next (.ite h.coreResetHeld h)

theorem nextFits_interruptEntry {late} (h : s.FifosFit) : NextFits (execInterruptEntry n late s) := by
  refine .ite ?_ (.next h)
  split
  · exact .next (State.FifosFit.ite h.enterAsync h).takeIrq
  · exact .next h

theorem nextFits_coreHalt {cause} (h : s.FifosFit) : NextFits (execCoreHalt n cause s) := by
  unfold execCoreHalt
  extract_lets k c t _ u v
  have hv : v.FifosFit := ((h.drainAll.frame State.setCore_keeps rfl).frame State.setBit_keeps rfl).frame State.setFld_keeps rfl
  exact .ite (.next (.ite hv (hv.frame State.haltSafe_keeps rfl))) (.next h)

end Sys2Proof.Machine
end

section
/-!
SUPPORT. Chapter 8: the DMA channels keep the bounds of the FIFOs.
-/
namespace Sys2Proof.Machine

namespace State.FifosFit

variable {s : State} {c : Nat}

theorem dmaWrite {a bs} (h : s.FifosFit) : PairFits (s.dmaWrite c a bs) := by
  unfold State.dmaWrite
  split
  next x t hx =>
    have ht : t.FifosFit := .of_pair hx ⟨h.frame dmaXlate_keeps rfl⟩
    split
    · exact ⟨ht⟩
    next pa =>
      split
      next r u hw =>
        have hu : u.FifosFit := .of_pair hw ⟨(ht.frame dmaSpend_keeps rfl).busWrite⟩
        split
        next r v e =>
          have hv : v.FifosFit := .of_pair e (.ite ⟨hu⟩ ⟨hu.busWrite⟩)
          cases r <;> exact ⟨hv⟩

theorem dmaRead {a size dev retry} (h : s.FifosFit) : PairFits (s.dmaRead c a size dev retry) := by
  unfold State.dmaRead
  split
  next x t hx =>
    have ht : t.FifosFit := .of_pair hx ⟨h.frame dmaXlate_keeps rfl⟩
    split
    · exact ⟨ht⟩
    next pa =>
      split
      next r u hr =>
        have hu : u.FifosFit := .of_pair hr ⟨(ht.frame dmaSpend_keeps rfl).busRead⟩
        split
        next r v e =>
          have hv : v.FifosFit := by
            refine .of_pair e ?_
            split
            · exact ⟨hu⟩
            · exact .ite ⟨hu.busRead⟩ ⟨hu⟩
          cases r <;> exact ⟨hv⟩

theorem dmaWriteElement {bs again} (h : s.FifosFit) : (s.dmaWriteElement c bs again).FifosFit := by
  unfold State.dmaWriteElement
  split
  next r t hw =>
    have ht := FifosFit.of_pair hw h.dmaWrite
    cases r with
    | ok _ => exact (ht.frame transient_keeps rfl).frame dmaElementDone_keeps rfl
    | error f => exact ((ht.frame setCh_keeps rfl).frame setBit_keeps rfl).frame dmaStopOn_keeps rfl

theorem dmaReadAhead (h : s.FifosFit) : (s.dmaReadAhead c).FifosFit := by
  unfold State.dmaReadAhead
  extract_lets x i phys a
  refine .ite h ?_
  split
  · exact h
  · split
    next r t hr =>
      have ht := FifosFit.of_pair hr ⟨(h.frame dmaSpend_keeps rfl).busRead⟩
      cases r with
      | ok bs => exact ht.frame setCh_keeps rfl
      | bus | ecc => exact ht

theorem dmaRunAhead {k} (h : s.FifosFit) : (s.dmaRunAhead c k).FifosFit := by
  induction k generalizing s with
  | zero => exact h
  | succ k ih => exact .ite (ih h.dmaReadAhead) h

theorem dmaElement {dev again} (h : s.FifosFit) : (s.dmaElement c dev again).FifosFit := by
  unfold State.dmaElement
  extract_lets x src dst
  refine .ite (.ite (h.frame dmaStopOn_keeps rfl) h.dmaWriteElement)
    (.ite (h.frame dmaStopOn_keeps rfl) (.ite (h.frame dmaStopOn_keeps rfl) ?_))
  split
  · exact ((h.frame setCh_keeps rfl).frame transient_keeps rfl).dmaWriteElement
  · split
    next r t hr =>
      have ht := FifosFit.of_pair hr h.dmaRead
      cases r with
      | ok bs => exact (ht.frame transient_keeps rfl).dmaWriteElement
      | error f => exact ht.frame dmaStopOn_keeps rfl

end State.FifosFit

variable {s : State} {c : Fin 16}

theorem nextFits_dmaDescriptorFetch {dev} (h : s.FifosFit) : NextFits (execDmaDescriptorFetch c dev s) := by
  unfold execDmaDescriptorFetch
  refine .ite ?_ (.next h)
  extract_lets a
  split
  next r t hr =>
    have ht := State.FifosFit.of_pair hr h.dmaRead
    extract_lets x u y
    have hu : u.FifosFit := ht.frame State.setCh_keeps rfl
    clear_value u
    split
    · exact .next (hu.frame State.dmaStopOn_keeps rfl)
    · extract_lets w n v v'
      have hv : v'.FifosFit := ((hu.frame State.wr_keeps rfl).frame State.wr_keeps rfl).frame State.wr_keeps rfl
      clear_value v'
      split
      · exact .next (hu.frame State.dmaStopOn_keeps rfl)
      · exact .next ((State.FifosFit.ite hv (hv.frame State.wr_keeps rfl)).frame State.dmaTake_keeps rfl)

theorem nextFits_dmaElement {dev again req ahead} (h : s.FifosFit) : NextFits (execDmaElement c dev again req ahead s) := by
  unfold execDmaElement
  extract_lets _ _ t
  have ht : t.FifosFit := h.dmaRunAhead.beside rfl rfl
  clear_value t
  exact .ite (.next ((ht.dmaElement.frame State.dmaInvNow_keeps rfl).frame State.dmaInvCheck_keeps rfl)) (.next h)

end Sys2Proof.Machine
end

section
/-!
O49: no capture FIFO comes to hold more than 8 records, and no ADC result FIFO more than 16 words.
-/
namespace Sys2Proof.Machine

/-- Every command keeps the bounds of the FIFOs: where it may change the capture channels or the ADCs, by the lemma of the command, and
else by its footprint. -/
theorem nextFits_exec {s : State} (h : s.FifosFit) (c : Instr) : NextFits (exec c s) := by
  cases c with
  | registerWrite => exact nextFits_registerWrite h
  | powerOnReset high => exact nextFits_powerOnReset (high := high)
  | rootLoss => exact nextFits_rootLoss h
  | timerExpiry => exact nextFits_timerExpiry h
  | railConditionReport => exact nextFits_railConditionReport h
  | extFault => exact nextFits_extFault h
  | deviceReset => exact nextFits_deviceReset h
  | coreResetHeld => exact nextFits_coreResetHeld h
  | adccal => exact nextFits_adccal h
  | adcTrigger => exact nextFits_adcTrigger h
  | adcSwtrig => exact .next h.adcSwtrig
  | adcSample => exact .next h.adcSample
  | adcConversionEnd => exact nextFits_adcConversionEnd h
  | adcFifoRead => exact nextFits_adcFifoRead h
  | adcCalibrationStep => exact nextFits_adcCalibrationStep h
  | adcProof => exact .next (.ite h.adcProof h)
  | adcProofConversion => exact nextFits_adcProofConversion h
  | zero => exact nextFits_zero h
  | period => exact nextFits_period h
  | cau | cad | cbu | cbd => exact .next h.pwmMatch
  | immediateLoad => exact nextFits_immediateLoad h
  | captureEdge => exact nextFits_captureEdge h
  | captureRecordRead => exact nextFits_captureRecordRead h
  | captureArm => exact .next (.ite h.capArm h)
  | dmaDescriptorFetch => exact nextFits_dmaDescriptorFetch h
  | dmaElement => exact nextFits_dmaElement h
  | literal => exact nextFits_literal h
  | br => exact nextFits_br h
  | bz => exact nextFits_bz h
  | bnz => exact nextFits_bnz h
  | loop => exact nextFits_loop h
  | call => exact nextFits_call h
  | dup | drop | swap | overWord | rot | nip | tuck | twoDup | twoDrop | minusRot => exact nextFits_moveOp h
  | pick => exact nextFits_pick h
  | toR => exact nextFits_toR h
  | rFrom => exact nextFits_rFrom h
  | rFetch => exact nextFits_rFetch h
  | rdrop => exact nextFits_rdrop h
  | add | sub | adc | sbc | adds | subs | neg | abs | and | or | xor | inv | onePlus | oneMinus | twoStar | twoSlash
  | shl | shr | asr | rol | min | max | clip | ext | equal | notEqual | less | greater | uLess | uGreater | zeroEqual
  | zeroLess | mul | umul | mac | msc | macz | div | udiv | ldiv | mlFetch | mhFetch | dqFetch | dmFetch | mas
  | maclr | dbrFetch | dbrStore => exact nextFits_stackOp h
  | fetch => exact nextFits_fetch h
  | store => exact nextFits_store h
  | cFetch => exact nextFits_cFetch h
  | cStore => exact nextFits_cStore h
  | twoFetch => exact nextFits_twoFetch h
  | twoStore => exact nextFits_twoStore h
  | fFetch => exact nextFits_fFetch h
  | fStore => exact nextFits_fStore h
  | f2Fetch => exact nextFits_f2Fetch h
  | f2Store => exact nextFits_f2Store h
  | plusStore => exact nextFits_plusStore h
  | xchg => exact nextFits_xchg h
  | cas => exact nextFits_cas h
  | fadd => exact nextFits_fadd h
  | fence => exact nextFits_fence h
  | dcwb => exact nextFits_dcwb h
  | dcinv => exact nextFits_dcinv h
  | icinv => exact nextFits_icinv h
  | isync => exact nextFits_isync h
  | qpush => exact nextFits_qpush h
  | qpop => exact nextFits_qpop h
  | flush => exact nextFits_flush h
  | ret => exact nextFits_ret h
  | exec => exact nextFits_execWord h
  | fexec => exact nextFits_fexec h
  | jmp => exact nextFits_jmp h
  | fjmp => exact nextFits_fjmp h
  | trap => exact nextFits_trap h
  | reti => exact nextFits_reti h
  | wait => exact nextFits_wait h
  | brk => exact nextFits_brk h
  | srFetch => exact nextFits_srFetch h
  | srStore => exact nextFits_srStore h
  | tlbi => exact nextFits_tlbi h
  | tlbia => exact nextFits_tlbia h
  | storeDrain => exact nextFits_storeDrain h
  | wbusAsync => exact nextFits_wbusAsync h
  | pageWalk => exact nextFits_pageWalk h
  | interruptEntry => exact nextFits_interruptEntry h
  | coreHalt => exact nextFits_coreHalt h
  | nopOperation => exact nextFits_nopOperation h
  | undefinedOperation => exact nextFits_undefinedOperation h
  | _ => exact h.answers (exec_answers _) rfl

/-- Every step keeps the bounds of the FIFOs, whatever command waits. -/
theorem nextFits_step {s : State} (h : s.FifosFit) : NextFits (step s) := by
  unfold step
  split
  · exact .next h.idle
  · exact nextFits_exec (h.beside (by rfl) (by rfl)) _

/-- Settles O49: the bounds as an invariant (`State.FifosFit`), over a step on an empty queue and a table of the commands; a reset
device holds no record and no word. -/
theorem fifosStayBounded : Obligations.FifosStayBounded := by
  unfold Obligations.FifosStayBounded
  refine ⟨fun s t hcap hadc hstep => ?_, fun _ => Nat.zero_le 8, fun _ => Nat.zero_le 16⟩
  have ht := nextFits_step ⟨hcap, hadc⟩ t hstep
  exact ⟨ht.cap, ht.adc⟩

end Sys2Proof.Machine
end

section
/-!
O58: a double edge of a decoder counts as an error and changes neither the position nor the direction (R723).
-/
namespace Sys2Proof.Machine

/-! ### Addresses -/

theorem errtally_ne_qstat (d : Nat) : Reg.CAPQD_ERRTALLY d ≠ Reg.CAPQD_QSTAT d := by
  simp only [Reg.CAPQD_ERRTALLY, Reg.CAPQD_QSTAT]
  omega

theorem pos_ne_errtally (d : Nat) : Reg.CAPQD_POS d ≠ Reg.CAPQD_ERRTALLY d := by
  simp only [Reg.CAPQD_POS, Reg.CAPQD_ERRTALLY]
  omega

theorem pos_ne_qstat (d : Nat) : Reg.CAPQD_POS d ≠ Reg.CAPQD_QSTAT d := by
  simp only [Reg.CAPQD_POS, Reg.CAPQD_QSTAT]
  omega

/-- The registers of the capture channels and decoders are none of those that an interrupt source changes. -/
theorem notMem_icuRegs_of_capqd {a : Nat} (h : 0x100c0000 ≤ a) : a ∉ icuRegs := by
  simp only [icuRegs, List.mem_cons, List.not_mem_nil, or_false, Reg.ICU_PENDLO, Reg.ICU_PENDHI]
  omega

namespace State

/-! ### Flags of a decoder -/

/-- A flag of a decoder, with or without its interrupt, changes QSTAT alone of the decoders' registers. -/
theorem rd_qdFlag {s : State} {d i ien a : Nat} (hblock : 0x100c0000 ≤ a) (ha : a ≠ Reg.CAPQD_QSTAT d) :
    (s.qdFlag d i ien).rd a = s.rd a := by
  unfold qdFlag
  dsimp only
  split
  · rw [rd_source (notMem_icuRegs_of_capqd hblock), rd_setBit_ne _ _ _ ha.symm]
  · exact rd_setBit_ne _ _ _ ha.symm

/-- What QSTAT reads as after a flag is the same with the flag's interrupt and without. -/
theorem rd_qdFlag_qstat {s : State} {d i ien : Nat} :
    (s.qdFlag d i ien).rd (Reg.CAPQD_QSTAT d) = W.setBit (s.rd (Reg.CAPQD_QSTAT d)) i true := by
  unfold qdFlag
  dsimp only
  split
  · rw [rd_source (notMem_icuRegs_of_capqd (Nat.le_add_right_of_le (by decide))), rd_setBit_same]
  · exact rd_setBit_same _ _ _ _

/-! ### A double edge -/

/-- What an enabled decoder does at a double edge, its levels being up to date. -/
def qdDouble (s : State) (d : Nat) : State :=
  ((s.tally (Reg.CAPQD_ERRTALLY d)).qdFlag d 11 3).setQd d { s.qdu d with times := [] }

variable {s : State} {d : Nat}

theorem rd_qdDouble_pos : (s.qdDouble d).rd (Reg.CAPQD_POS d) = s.rd (Reg.CAPQD_POS d) :=
  (rd_qdFlag (Nat.le_add_right_of_le (by decide)) (pos_ne_qstat d)).trans (rd_tally_ne _ (pos_ne_errtally d).symm)

theorem rd_qdDouble_qstat : (s.qdDouble d).rd (Reg.CAPQD_QSTAT d) = W.setBit (s.rd (Reg.CAPQD_QSTAT d)) 11 true := by
  refine rd_qdFlag_qstat.trans ?_
  rw [rd_tally_ne _ (errtally_ne_qstat d)]

/-- The direction is bit 0 of QSTAT. -/
theorem bit_qdDouble_dir : (s.qdDouble d).bit (Reg.CAPQD_QSTAT d) 0 = s.bit (Reg.CAPQD_QSTAT d) 0 := by
  rw [bit, rd_qdDouble_qstat, W.bit_setBit_ne _ _ (by decide), bit]

/-- The error is bit 11 of QSTAT. -/
theorem bit_qdDouble_err : (s.qdDouble d).bit (Reg.CAPQD_QSTAT d) 11 = true := by
  rw [bit, rd_qdDouble_qstat, W.bit_setBit_same _ _ (by decide)]

theorem fld_qdDouble_errtally :
    (s.qdDouble d).fld (Reg.CAPQD_ERRTALLY d) 0 16 = min 0xFFFF (s.fld (Reg.CAPQD_ERRTALLY d) 0 16 + 1) := by
  have hrd : (s.qdDouble d).rd (Reg.CAPQD_ERRTALLY d) = (s.tally (Reg.CAPQD_ERRTALLY d)).rd (Reg.CAPQD_ERRTALLY d) :=
    rd_qdFlag (Nat.le_add_right_of_le (by decide)) (errtally_ne_qstat d)
  rw [fld, hrd]
  exact fld_tally s _

theorem times_qdDouble : ((s.qdDouble d).qdu d).times = [] := by
  unfold qdDouble qdu setQd
  rw [tget_tset_same]

end State

/-- A double edge that passes the filter of an enabled decoder (R716, R723). -/
theorem execQdEdge_double {s : State} {d : Fin 4} {onB : Bool} {held : BitVec 4} {back : BitVec 9}
    (hheld : s.fld (Reg.CAPQD_QCFG d) 4 4 ≤ held.toNat) (hruns : s.runs gCAPQD = true)
    (hen : s.bit (Reg.CAPQD_QCFG d) 0 = true) :
    execQdEdge d onB true held back s = .next ((s.setQd d ((s.qdu d).toggle onB true)).qdDouble d) := by
  have hoff : ¬(!s.runs gCAPQD || !s.bit (Reg.CAPQD_QCFG d) 0) = true := by simp [hruns, hen]
  exact (if_neg (Nat.not_lt.mpr hheld)).trans (if_neg hoff)

/-- Settles O58: the command is `State.qdDouble` on the decoder with its new levels, and each part is a lemma of that. -/
theorem doubleEdge : Obligations.DoubleEdge := by
  unfold Obligations.DoubleEdge
  intro s d onB held back hheld hruns hen
  exact ⟨_, execQdEdge_double hheld hruns hen, State.rd_qdDouble_pos, State.bit_qdDouble_dir,
    State.fld_qdDouble_errtally, State.bit_qdDouble_err, State.times_qdDouble⟩

end Sys2Proof.Machine
end

section
/-!
SUPPORT. Reading after the operations of the stencil engines: the issue of an instruction, the step to the next address, and
runs of registers.
-/
namespace Sys2Proof.Machine

namespace State

variable {s : State} {n : Nat}

/-! ### The structure of an engine -/

@[simp] theorem eng_setEng {x : Se} : (s.setEng n x).eng n = x := tget_tset_same _ _ _ _

@[simp] theorem rd_setEng {x : Se} {a : Nat} : (s.setEng n x).rd a = s.rd a := rfl

@[simp] theorem bit_setEng {x : Se} {a i : Nat} : (s.setEng n x).bit a i = s.bit a i := rfl

/-! ### The issue of an instruction -/

/-- An instruction with no pin operand at PC issues (R877). -/
theorem seOp_of_seAt {op : Nat} {f : State → Word → State} (h : s.seAt n op = true) :
    s.seOp n op noPin f = .next (f (s.setEng n (s.seIssued n (seCycles op))) (s.seInstr n)) := by
  have hissue : (s.seReady n && iOp (s.seInstr n) == op) = true := by
    simp only [seAt, Bool.and_eq_true] at h
    obtain ⟨⟨⟨hready, hop⟩, -⟩, -⟩ := h
    rw [hready, hop]
    rfl
  exact if_pos hissue

/-! ### The next address -/

/-- The next address changes no register but the count of the inner wrap (R879). -/
theorem rd_seAfter {a : Nat} (ha : a ≠ Reg.SE_REG n 2) : (s.seAfter n).2.rd a = s.rd a := by
  unfold seAfter
  dsimp only
  split
  · exact s.rd_wr_ne _ ha.symm
  · split <;> rfl

/-- The step to the next address changes PC and the count of the inner wrap only (R879). -/
theorem rd_seAdv {a : Nat} (hstat : a ≠ Reg.SE_STAT n) (hcount : a ≠ Reg.SE_REG n 2) : (s.seAdv n).rd a = s.rd a :=
  (rd_setFld_ne _ _ _ _ hstat.symm).trans (rd_seAfter hcount)

/-- PC is STAT[13:8]; the step to the next address leaves every other bit of STAT. -/
theorem bit_seAdv_stat {i : Nat} (hi : i < 8 ∨ 14 ≤ i) : (s.seAdv n).bit (Reg.SE_STAT n) i = s.bit (Reg.SE_STAT n) i := by
  have hstat : Reg.SE_STAT n ≠ Reg.SE_REG n 2 := by simp only [Reg.SE_STAT, Reg.SE_REG]; omega
  have hpc : (s.seAdv n).rd (Reg.SE_STAT n) = W.setFld ((s.seAfter n).2.rd (Reg.SE_STAT n)) 8 6 (s.seAfter n).1 :=
    rd_setFld_same _ _ _ _ _
  rw [bit, hpc, W.bit_setFld_ne _ _ hi, rd_seAfter hstat, bit]

/-! ### Runs of registers -/

theorem rd_wrRegs_ne {ws : List Word} {a b : Nat} (h : b < a ∨ a + 4 * ws.length ≤ b) : (s.wrRegs a ws).rd b = s.rd b := by
  induction ws generalizing s a with
  | nil => rfl
  | cons w ws ih =>
    rw [List.length_cons] at h
    rw [wrRegs, ih (by omega), rd_wr_ne _ _ (by omega)]

theorem rd_wrRegs_getElem {ws : List Word} {a i : Nat} (h : i < ws.length) : (s.wrRegs a ws).rd (a + 4 * i) = ws[i] := by
  induction ws generalizing s a i with
  | nil => exact absurd h (Nat.not_lt_zero i)
  | cons w ws ih =>
    cases i with
    | zero => rw [wrRegs, Nat.mul_zero, Nat.add_zero a, rd_wrRegs_ne (.inl (by omega)), rd_wr_same, List.getElem_cons_zero]
    | succ i =>
      rw [wrRegs, show a + 4 * (i + 1) = a + 4 + 4 * i by omega, ih (Nat.lt_of_succ_lt_succ h), List.getElem_cons_succ]

end State

end Sys2Proof.Machine
end

section
/-!
O60: the CRC unit of a stencil engine (R881).
-/
namespace Sys2Proof.Machine

/-! ### One bit -/

theorem seCrcBit_lt (w poly c : Nat) (b : Bool) : seCrcBit w poly c b < 2 ^ w := by
  unfold seCrcBit
  dsimp only
  split <;> exact Nat.mod_lt _ (Nat.two_pow_pos w)

/-- A polynomial within the width of the register needs no reduction after the XOR. -/
theorem seCrcBit_of_poly_lt {w poly : Nat} (hpoly : poly < 2 ^ w) (c : Nat) (b : Bool) :
    seCrcBit w poly c b = if Bool.xor (c.testBit (w - 1)) b then (2 * c % 2 ^ w) ^^^ poly else 2 * c % 2 ^ w := by
  have hxor : (2 * c % 2 ^ w) ^^^ poly < 2 ^ w := Nat.xor_lt_two_pow (Nat.mod_lt _ (Nat.two_pow_pos w)) hpoly
  unfold seCrcBit
  dsimp only
  rw [Nat.mod_eq_of_lt hxor]

/-- A register within its width stays within it, whatever bits are fed. -/
theorem foldl_seCrcBit_lt {w poly : Nat} (bits : List Bool) {c : Nat} (hc : c < 2 ^ w) :
    bits.foldl (seCrcBit w poly) c < 2 ^ w := by
  induction bits generalizing c with
  | nil => exact hc
  | cons b bits ih => exact ih (seCrcBit_lt w poly c b)

theorem W.toNat_and_mask (v : Word) {n : Nat} (hn : n ≤ 32) : (v &&& W.mask 0 n).toNat = v.toNat % 2 ^ n := by
  apply Nat.eq_of_testBit_eq
  intro i
  rw [BitVec.testBit_toNat, BitVec.getLsbD_and, W.getLsbD_mask, Nat.testBit_mod_two_pow, BitVec.testBit_toNat]
  by_cases hi : i < n
  · simp [hi, Nat.lt_of_lt_of_le hi hn]
  · simp [hi]

namespace State

variable {s : State} {n : Nat}

/-! ### The register of the unit -/

theorem seCrcW_of_le (h : s.fld (Reg.SE_CRCCFG n) 0 2 ≤ 2) : s.seCrcW n = 2 ^ (s.fld (Reg.SE_CRCCFG n) 0 2 + 2) := by
  unfold seCrcW
  generalize s.fld (Reg.SE_CRCCFG n) 0 2 = k at h ⊢
  obtain rfl | rfl | rfl : k = 0 ∨ k = 1 ∨ k = 2 := by omega
  all_goals rfl

theorem seCrcW_le (h : s.fld (Reg.SE_CRCCFG n) 0 2 ≤ 2) : s.seCrcW n ≤ 16 := by
  rw [seCrcW_of_le h]
  exact Nat.pow_le_pow_right (by decide) (Nat.add_le_add_right h 2)

@[simp] theorem seCrcW_setEng {x : Se} : (s.setEng n x).seCrcW n = s.seCrcW n := rfl

/-- An instruction that writes the CRC register leaves there what it writes, cut to the width (R875). -/
theorem toNat_crc_of_write {x : Se} {v : Word} (hwidth : s.seCrcW n ≤ 16) :
    ((((s.setEng n x).setSeReg n 7 v).seAdv n).rd (Reg.SE_REG n 7)).toNat = v.toNat % 2 ^ s.seCrcW n := by
  have hstat : Reg.SE_REG n 7 ≠ Reg.SE_STAT n := by simp only [Reg.SE_REG, Reg.SE_STAT]; omega
  have hcount : Reg.SE_REG n 7 ≠ Reg.SE_REG n 2 := by simp only [Reg.SE_REG]; omega
  have hwrite : ((s.setEng n x).setSeReg n 7 v).rd (Reg.SE_REG n 7) = v &&& W.mask 0 ((s.setEng n x).seCrcW n) :=
    rd_wr_same _ _ _
  rw [rd_seAdv hstat hcount, hwrite, seCrcW_setEng, W.toNat_and_mask v (by omega)]

/-! ### The instructions -/

/-- The bits that the CRCF at PC feeds, the first one first (Table 16-3). -/
def seFedBits (s : State) (n : Nat) : List Bool :=
  (List.range (iImm (s.seInstr n) % 32 + 1)).map fun i =>
    W.bit (s.seReg n (iD (s.seInstr n))) (if W.bit (s.seInstr n) 5 then i else iImm (s.seInstr n) % 32 - i)

/-- The CRC register of SEn once those bits have been fed. -/
def seCrcFed (s : State) (n : Nat) : Nat :=
  (s.seFedBits n).foldl (seCrcBit (s.seCrcW n) (s.fld (Reg.SE_CRCCFG n) 16 16)) (s.rd (Reg.SE_REG n 7)).toNat

theorem seCrcFed_lt (h : (s.rd (Reg.SE_REG n 7)).toNat < 2 ^ s.seCrcW n) : s.seCrcFed n < 2 ^ s.seCrcW n :=
  foldl_seCrcBit_lt _ h

end State

theorem execSeCrcf_of_seAt {s : State} {n : Fin 8} (h : s.seAt n 0x16 = true) :
    execSeCrcf n s =
      .next (((s.setEng n (s.seIssued n 1)).setSeReg n 7 (BitVec.ofNat 32 (s.seCrcFed n))).seAdv n) :=
  State.seOp_of_seAt h

theorem execSeCrci_of_seAt {s : State} {n : Fin 8} (h : s.seAt n 0x15 = true) :
    execSeCrci n s =
      .next (((s.setEng n (s.seIssued n 1)).setSeReg n 7 (BitVec.ofNat 32 (s.fld (Reg.SE_MISC n) 0 16))).seAdv n) :=
  State.seOp_of_seAt h

theorem execSeCrcf_feeds {s : State} {n : Fin 8} (hat : s.seAt n 0x16 = true) (hwidth : s.fld (Reg.SE_CRCCFG n) 0 2 ≤ 2)
    (hcrc : (s.rd (Reg.SE_REG n 7)).toNat < 2 ^ s.seCrcW n) :
    Runs (.seCrcf n) s fun t =>
      (t.rd (Reg.SE_REG n 7)).toNat = s.seCrcFed n ∧ (t.rd (Reg.SE_REG n 7)).toNat < 2 ^ s.seCrcW n := by
  have hw := State.seCrcW_le hwidth
  have hfed := State.seCrcFed_lt hcrc
  have hword : s.seCrcFed n < 2 ^ 32 := Nat.lt_of_lt_of_le hfed (Nat.pow_le_pow_right (by decide) (by omega))
  refine ⟨_, execSeCrcf_of_seAt hat, ?_⟩
  dsimp only
  rw [State.toNat_crc_of_write hw, BitVec.toNat_ofNat, Nat.mod_eq_of_lt hword, Nat.mod_eq_of_lt hfed]
  exact ⟨rfl, hfed⟩

theorem execSeCrci_loads_init {s : State} {n : Fin 8} (hat : s.seAt n 0x15 = true)
    (hwidth : s.fld (Reg.SE_CRCCFG n) 0 2 ≤ 2) :
    Runs (.seCrci n) s fun t => (t.rd (Reg.SE_REG n 7)).toNat = s.fld (Reg.SE_MISC n) 0 16 % 2 ^ s.seCrcW n := by
  have hinit : s.fld (Reg.SE_MISC n) 0 16 < 2 ^ 32 := Nat.lt_trans (W.fld_lt _ 0 16) (by decide)
  refine ⟨_, execSeCrci_of_seAt hat, ?_⟩
  dsimp only
  rw [State.toNat_crc_of_write (State.seCrcW_le hwidth), BitVec.toNat_ofNat, Nat.mod_eq_of_lt hinit]

/-- Settles O60: the width, the step of one bit, and the two instructions of the unit, each a lemma of its own. -/
theorem crcUnit : Obligations.CrcUnit := by
  unfold Obligations.CrcUnit
  exact ⟨fun _ _ => State.seCrcW_of_le, fun _ c _ b _ _ hpoly => seCrcBit_of_poly_lt hpoly c b,
    fun _ _ => execSeCrcf_feeds, fun _ _ => execSeCrci_loads_init⟩

end Sys2Proof.Machine
end

section
/-!
O59: the shadow page and the active page of a stencil engine's parameters (R883, R909).
-/
namespace Sys2Proof.Machine

/-! ### Offsets of a block -/

theorem pick_eq_none {o base stride count : Nat} (h : (o - base) % stride ≠ 0) : pick o base stride count = none :=
  if_neg fun ⟨_, hmod, _⟩ => h hmod

theorem within_element {base stride count span i k : Nat} (hi : i < count) (hk : k < span) (hspan : span ≤ stride) :
    within (base + stride * i + k) base stride count span = some i := by
  have hlt : k < stride := Nat.lt_of_lt_of_le hk hspan
  have hsub : base + stride * i + k - base = stride * i + k := by omega
  have hdiv : (stride * i + k) / stride = i := by
    rw [Nat.mul_add_div (Nat.zero_lt_of_lt hlt), Nat.div_eq_of_lt hlt, Nat.add_zero]
  have hmod : (stride * i + k) % stride = k := by rw [Nat.mul_add_mod, Nat.mod_eq_of_lt hlt]
  unfold within
  rw [hsub, hdiv, hmod]
  exact if_pos ⟨by omega, hi, hk⟩

namespace State

variable {s : State} {n : Nat}

/-! ### A parameter write -/

theorem shadow_seParam {w : Nat} {val : Word} :
    ((s.seParam n w val).eng n).shadow = tset 0 (s.eng n).shadow w val := by
  unfold seParam
  dsimp only
  split <;> exact congrArg Se.shadow eng_setEng

theorem bit_seParam_pend {w : Nat} {val : Word} : (s.seParam n w val).bit (Reg.SE_STAT n) sePEND = true :=
  bit_setBit_same _ _ (by decide)

/-- A parameter write changes no register but STAT. -/
theorem rd_seParam {w a : Nat} {val : Word} (ha : a ≠ Reg.SE_STAT n) : (s.seParam n w val).rd a = s.rd a :=
  rd_setBit_ne _ _ _ ha.symm

/-! ### The window -/

theorem param_ne_stat (n w : Nat) : Reg.SE_PARAM n w ≠ Reg.SE_STAT n := by
  simp only [Reg.SE_PARAM, Reg.SE_STAT]
  omega

theorem param_ne_count (n w : Nat) : Reg.SE_PARAM n w ≠ Reg.SE_REG n 2 := by
  simp only [Reg.SE_PARAM, Reg.SE_REG]
  omega

theorem regBlock_param (n : Fin 8) (w : Fin 32) : regBlock (Reg.SE_PARAM n w) = 0x10 := by
  simp only [regBlock, regSpaceBase, Reg.SE_PARAM]
  omega

theorem param_offset (n : Fin 8) (w : Fin 32) : Reg.SE_PARAM n w % 0x10000 = 0x1080 + 0x400 * n + 4 * w := by
  simp only [Reg.SE_PARAM]
  omega

/-- The debug unit reaches the window of a live part. -/
theorem regServed_param (hlive : s.live = true) (n : Fin 8) (w : Fin 32) : s.regServed .debug (Reg.SE_PARAM n w) = true := by
  unfold regServed
  rw [regBlock_param, hlive]
  rfl

/-- A write at a parameter word's offset is the parameter write. -/
theorem hookSe_param (n : Fin 8) (w : Fin 32) (val : Word) :
    s.hookSe (0x1080 + 0x400 * n + 4 * w) val = some (s.seParam n w val) := by
  have hrun : pick (0x1080 + 0x400 * n + 4 * w) 0x1000 0x400 8 = none := pick_eq_none (by omega)
  have hload : pick (0x1080 + 0x400 * n + 4 * w) 0x1024 0x400 8 = none := pick_eq_none (by omega)
  have hparam : within (0x1080 + 0x400 * n + 4 * w) 0x1080 0x400 8 0x80 = some n.val :=
    within_element n.isLt (by omega) (by decide)
  have hword : (0x1080 + 0x400 * n.val + 4 * w.val - 0x1080) % 0x400 / 4 = w.val := by omega
  unfold hookSe
  split
  case h_1 h => omega
  case h_2 h => omega
  case h_3 =>
    rw [hrun, hload, hparam, hword]
    rfl

/-- No parameter word is read by an effect of its own. -/
theorem hookRead_param (n : Fin 8) (w : Fin 32) : s.hookRead .debug 0x10 (0x1080 + 0x400 * n + 4 * w) = none := by
  have htmr : pick (0x1080 + 0x400 * n + 4 * w) 0x1054 0x400 8 = none := pick_eq_none (by omega)
  exact congrArg (Option.map fun k => (s.seTmr k, s)) htmr

theorem regRead_param (hlive : s.live = true) (n : Fin 8) (w : Fin 32) :
    s.regRead .debug (Reg.SE_PARAM n w) = (s.rd (Reg.SE_PARAM n w), s) := by
  unfold regRead
  rw [regServed_param hlive, regBlock_param, param_offset, hookRead_param]
  rfl

theorem regWriteC_param (hlive : s.live = true) (n : Fin 8) (w : Fin 32) (coin val : Word) :
    s.regWriteC coin .debug (Reg.SE_PARAM n w) val = s.seParam n w val := by
  have htripped : Reg.SE_PARAM n w ≠ Reg.PWM_TRIPPED := by simp only [Reg.SE_PARAM, Reg.PWM_TRIPPED]; omega
  have hhook : s.hookWrite .debug 0x10 (0x1080 + 0x400 * n + 4 * w) val = some (s.seParam n w val) := hookSe_param n w val
  unfold regWriteC
  rw [regServed_param hlive, regBlock_param, param_offset, if_neg htripped, hhook]
  rfl

/-! ### The copy -/

/-- The active page of SEn replaced by page `p`. -/
def copyPage (s : State) (n : Nat) (p : Tab Word) : State :=
  s.wrRegs (Reg.SE_PARAM n 0) ((List.range 32).map (tget 0 p))

theorem rd_copyPage_param {p : Tab Word} (v : Fin 32) : (s.copyPage n p).rd (Reg.SE_PARAM n v) = tget 0 p v := by
  have hlen : v.val < ((List.range 32).map (tget 0 p)).length := by simp
  have h := rd_wrRegs_getElem (s := s) (a := Reg.SE_PARAM n 0) hlen
  rwa [List.getElem_map, List.getElem_range] at h

/-- STAT lies below the page. -/
theorem rd_copyPage_stat {p : Tab Word} : (s.copyPage n p).rd (Reg.SE_STAT n) = s.rd (Reg.SE_STAT n) := by
  refine rd_wrRegs_ne (.inl ?_)
  simp only [Reg.SE_STAT, Reg.SE_PARAM]
  omega

theorem rd_seAdv_param {v : Nat} : (s.seAdv n).rd (Reg.SE_PARAM n v) = s.rd (Reg.SE_PARAM n v) :=
  rd_seAdv (param_ne_stat n v) (param_ne_count n v)

theorem bit_seAdv_pend : (s.seAdv n).bit (Reg.SE_STAT n) sePEND = s.bit (Reg.SE_STAT n) sePEND :=
  bit_seAdv_stat (.inr (by decide))

/-- SEn has issued a PLOAD: where a parameter write shares its PERI cycle, the copy acts on the page and on PEND as they stood
before that write (R883, R909). -/
def ploadPages (s : State) (n : Nat) : State :=
  let t := s.setEng n (s.seIssued n 2)
  if (s.eng n).pageT = some s.periStart then if (s.eng n).pagePend then t.copyPage n (s.eng n).page else t
  else if s.bit (Reg.SE_STAT n) sePEND then (t.copyPage n (s.eng n).shadow).setBit (Reg.SE_STAT n) sePEND false
  else t

end State

/-! ### The instruction -/

theorem execSePload_of_seAt {s : State} {n : Fin 8} (hat : s.seAt n 0x21 = true) :
    execSePload n s = .next ((s.ploadPages n).seAdv n) := by
  refine (State.seOp_of_seAt hat).trans ?_
  dsimp only
  rw [State.eng_setEng]
  rfl

section
variable {s : State} {n : Fin 8} (hat : s.seAt n 0x21 = true)
include hat

/-- A PLOAD with PEND 1 and no parameter write in its PERI cycle copies the shadow page and clears PEND. -/
theorem execSePload_copies_shadow (hcycle : (s.eng n).pageT ≠ some s.periStart) (hpend : s.bit (Reg.SE_STAT n) sePEND = true) :
    Runs (.sePload n) s fun t =>
      (∀ v : Fin 32, t.rd (Reg.SE_PARAM n v) = tget 0 (s.eng n).shadow v) ∧ t.bit (Reg.SE_STAT n) sePEND = false := by
  have hpages : s.ploadPages n =
      ((s.setEng n (s.seIssued n 2)).copyPage n (s.eng n).shadow).setBit (Reg.SE_STAT n) sePEND false :=
    (if_neg hcycle).trans (if_pos hpend)
  refine ⟨_, execSePload_of_seAt hat, fun v => ?_, ?_⟩
  · rw [State.rd_seAdv_param, hpages, State.rd_setBit_ne _ _ _ (State.param_ne_stat n v).symm, State.rd_copyPage_param]
  · rw [State.bit_seAdv_pend, hpages, State.bit_setBit_same _ _ (by decide)]

theorem execSePload_copies_nothing (hcycle : (s.eng n).pageT ≠ some s.periStart)
    (hpend : s.bit (Reg.SE_STAT n) sePEND = false) :
    Runs (.sePload n) s fun t => ∀ v : Fin 32, t.rd (Reg.SE_PARAM n v) = s.rd (Reg.SE_PARAM n v) := by
  have hpages : s.ploadPages n = s.setEng n (s.seIssued n 2) :=
    (if_neg hcycle).trans (if_neg (Bool.eq_false_iff.mp hpend))
  refine ⟨_, execSePload_of_seAt hat, fun v => ?_⟩
  rw [State.rd_seAdv_param, hpages, State.rd_setEng]

/-- A PLOAD that shares its PERI cycle with a parameter write acts on the page and the PEND from before the write (R909). -/
theorem execSePload_copies_page_before_write (hcycle : (s.eng n).pageT = some s.periStart) :
    Runs (.sePload n) s fun t =>
      (∀ v : Fin 32, t.rd (Reg.SE_PARAM n v) =
        if (s.eng n).pagePend then tget 0 (s.eng n).page v else s.rd (Reg.SE_PARAM n v)) ∧
      t.bit (Reg.SE_STAT n) sePEND = s.bit (Reg.SE_STAT n) sePEND := by
  have hpages : s.ploadPages n = if (s.eng n).pagePend then (s.setEng n (s.seIssued n 2)).copyPage n (s.eng n).page
      else s.setEng n (s.seIssued n 2) := if_pos hcycle
  refine ⟨_, execSePload_of_seAt hat, fun v => ?_, ?_⟩
  · rw [State.rd_seAdv_param, hpages]
    split
    · exact State.rd_copyPage_param v
    · rfl
  · rw [State.bit_seAdv_pend, hpages]
    split
    · exact congrArg (W.bit · sePEND) State.rd_copyPage_stat
    · rfl

end

/-! ### Writes of a live part -/

section
variable {s : State} (hlive : s.live = true) (n : Fin 8) (w : Fin 32) (val : Word)
include hlive

theorem execSeParamWrite_of_live : execSeParamWrite n w val s = .next (s.seParam n w val) :=
  congrArg Host.Outcome.next (if_pos hlive)

theorem seParamWrite_to_shadow :
    Runs (.seParamWrite n w val) s fun t =>
      tget 0 (t.eng n).shadow w = val ∧ t.bit (Reg.SE_STAT n) sePEND = true ∧
      (∀ v : Fin 32, v ≠ w → tget 0 (t.eng n).shadow v = tget 0 (s.eng n).shadow v) ∧
      (∀ v : Fin 32, t.rd (Reg.SE_PARAM n v) = s.rd (Reg.SE_PARAM n v)) := by
  refine ⟨_, execSeParamWrite_of_live hlive n w val, ?_, State.bit_seParam_pend, fun v hv => ?_,
    fun v => State.rd_seParam (State.param_ne_stat n v)⟩
  · rw [State.shadow_seParam, tget_tset_same]
  · rw [State.shadow_seParam, tget_tset_ne _ _ _ _ (Fin.val_ne_of_ne hv.symm)]

/-- A write through the register window is the parameter write. -/
theorem execRegisterWrite_param :
    execRegisterWrite .debug (BitVec.ofNat 32 (Reg.SE_PARAM n w)) val 0xF .good 0 s = .next (s.seParam n w val) := by
  have haddr : (BitVec.ofNat 32 (Reg.SE_PARAM n w)).toNat / 4 * 4 = Reg.SE_PARAM n w := by
    simp only [BitVec.toNat_ofNat, Reg.SE_PARAM]
    omega
  unfold execRegisterWrite
  dsimp only
  rw [if_pos rfl, haddr, State.regWriteC_param hlive]

end

/-- Settles O59: both writes are `State.seParam`, and each case of PLOAD is a lemma of its own. -/
theorem parameterPages : Obligations.ParameterPages := by
  unfold Obligations.ParameterPages
  exact ⟨fun _ n w val hlive => seParamWrite_to_shadow hlive n w val,
    fun _ n w val hlive =>
      ⟨_, execRegisterWrite_param hlive n w val, _, execSeParamWrite_of_live hlive n w val, rfl⟩,
    fun _ n w hlive => State.regRead_param hlive n w,
    fun _ _ => execSePload_copies_shadow, fun _ _ => execSePload_copies_nothing,
    fun _ _ => execSePload_copies_page_before_write⟩

end Sys2Proof.Machine
end
